-- ==== Sys2Proof/Word.lean ====
section
/-! DEFINITION. The word types of the BR4864 (00_scope.md, Numbers and units): a register and a device
address space cell are words of 48 bits; a position is a P48, a signed word of ticks (R3). -/

namespace Sys2Proof

/-- A word: the unit of the device address space and of every register. -/
abbrev Word := BitVec 48

/-- A position, a signed two's-complement count of ticks, kept modulo 2^48 (R3, R24). -/
abbrev P48 := BitVec 48

/-- A byte; a word is serialised as six of them, least significant first. -/
abbrev Byte := BitVec 8

end Sys2Proof
end

