-- ==== Sys2Proof/Machine/Bits.lean ====
section
/-! DEFINITION. Bit fields, signed readings, saturation and byte order of words, and the position comparison of R24. -/

namespace Sys2Proof.Machine

/-- Bits hi:lo of a word, as a number. -/
def fld (w : Word) (hi lo : Nat) : Nat := (w.toNat >>> lo) % 2 ^ (hi + 1 - lo)

/-- One bit of a word. -/
def bit (w : Word) (i : Nat) : Bool := w.getLsbD i

/-- The word with ones in bits hi:lo. -/
def fieldMask (hi lo : Nat) : Word := BitVec.ofNat 48 ((2 ^ (hi + 1 - lo) - 1) <<< lo)

/-- The word with bits hi:lo replaced by the low bits of v. -/
def setFld (w : Word) (hi lo : Nat) (v : Nat) : Word :=
  (w &&& ~~~(fieldMask hi lo)) ||| (BitVec.ofNat 48 (v <<< lo) &&& fieldMask hi lo)

/-- The word with bit i replaced. -/
def setBit (w : Word) (i : Nat) (b : Bool) : Word := setFld w i i b.toNat

/-- A field read as a signed number of its own width. -/
def sfld (w : Word) (hi lo : Nat) : Int :=
  let v := fld w hi lo
  if v < 2 ^ (hi - lo) then (v : Int) else (v : Int) - 2 ^ (hi + 1 - lo)

/-- A number as a word, modulo 2^48. -/
def wordOf (n : Nat) : Word := BitVec.ofNat 48 n

/-- A signed number as a word, modulo 2^48. -/
def wordOfInt (i : Int) : Word := BitVec.ofInt 48 i

/-- Counting up in a field of `bits` bits that saturates. -/
def satAdd (bits a b : Nat) : Nat := min (a + b) (2 ^ bits - 1)

/-- A field hi:lo of w advanced by n, saturating at its own width. -/
def satFld (w : Word) (hi lo n : Nat) : Word := setFld w hi lo (satAdd (hi + 1 - lo) (fld w hi lo) n)

/-- A field hi:lo of w advanced by n, wrapping at its own width. -/
def wrapFld (w : Word) (hi lo n : Nat) : Word := setFld w hi lo (fld w hi lo + n)

/-- R24: x is at or past y when x − y, read as signed 48 bits, is zero or positive. -/
def atOrPast (x y : Word) : Bool := !(x - y).msb

/-- x is strictly past y by R24. -/
def strictlyPast (x y : Word) : Bool := atOrPast x y && x != y

/-- R25: the comparison of R24 at the width of a narrower field. -/
def atOrPastN (w : Nat) (x y : BitVec w) : Bool := !(x - y).msb

/-- Nanoseconds from stamp t0 to stamp t1, modulo 2^48. -/
def elapsed (t1 t0 : Word) : Nat := (t1 - t0).toNat

/-- Integer division rounding to the nearest, a tie going to the greater. (Log entry 21 DEDUCED.) -/
def roundDiv (a : Int) (b : Nat) : Int := (2 * a + b).fdiv (2 * b)

/-- Clamp of a signed number to lo..hi. -/
def clampInt (x lo hi : Int) : Int := max lo (min x hi)

/-- Byte i (0 the least significant) of a word. -/
def byteOf (w : Word) (i : Nat) : Byte := BitVec.ofNat 8 (w.toNat >>> (8 * i))

/-- The six bytes of a word, least significant first. -/
def bytesOfWord (w : Word) : List Byte := (List.range 6).map (byteOf w)

/-- The bytes of a list of words, in order. -/
def bytesOfWords (ws : List Word) : List Byte := ws.flatMap bytesOfWord

/-- A little-endian number from bytes. -/
def natOfBytes : List Byte → Nat
  | [] => 0
  | b :: bs => b.toNat + 256 * natOfBytes bs

/-- n bytes of a number, least significant first. -/
def bytesOfNat : Nat → Nat → List Byte
  | 0, _ => []
  | n + 1, v => BitVec.ofNat 8 v :: bytesOfNat n (v / 256)

/-- Words from bytes, the last word padded with zero bytes; `n` words. -/
def wordsOfBytes : Nat → List Byte → List Word
  | 0, _ => []
  | n + 1, bs => wordOf (natOfBytes (bs.take 6)) :: wordsOfBytes n (bs.drop 6)

end Sys2Proof.Machine
end

