-- ==== Sys2Proof/Syntax.lean ====
section
/-! DEFINITION. The commands of the BR4864: one constructor per row of opcode_table.json, with the operands the row's rule
names. An operand that the spec numbers is a Fin of its range. -/

namespace Sys2Proof

/-- The channel of an encoder input. -/
inductive EncCh where
  | a | b | z
  deriving DecidableEq, Repr

/-- Which of an axis's two trackers: the axis itself or its shadow tracker. -/
inductive TrackerSel where
  | main | shadow
  deriving DecidableEq, Repr

/-- The version, role and place that a HELLO gives of the peer (R76): the lowest and highest protocol versions held, lead or
follower, device number and depth if joined, serial number, port number, and whether the sender treats the port as its
alternative upstream. -/
structure HelloMsg where
  verLo : Nat
  verHi : Nat
  follower : Bool
  joined : Option (Nat × Nat)
  serial : Nat
  port : Fin 4
  alt : Bool
  deriving DecidableEq, Repr

/-- The lead's axis in a beat (R86): position, state code, direction, and velocity in Q8.24. -/
structure BeatAxis where
  pos : BitVec 48
  st : BitVec 3
  back : Bool
  vel : BitVec 32
  deriving DecidableEq, Repr

/-- What a beat says (R86); TYPE, VER and CRC belong to its frame. -/
structure Beat where
  seq : BitVec 16
  time : BitVec 48
  corr : BitVec 32
  sender : BitVec 10
  depth : BitVec 3
  a0 : BeatAxis
  a1 : BeatAxis
  a2 : BeatAxis
  a3 : BeatAxis
  epoch : BitVec 16
  cstate : BitVec 2
  caxis : BitVec 2
  applying : Bool
  wave : BitVec 4
  lastWave : BitVec 4
  seqValid : Bool
  applySeq : BitVec 16
  lastDone : BitVec 16
  target : BitVec 48
  deriving DecidableEq, Repr

/-- A beat on a link (R86): its eleven blocks of 64 bits, and the CRC-32C of the terminate block. -/
structure BeatFrame where
  blocks : List (BitVec 64)
  crc : BitVec 32
  deriving DecidableEq, Repr

/-- The lead's axis a in a beat. -/
def Beat.axisOf (b : Beat) (a : Nat) : BeatAxis := if a = 0 then b.a0 else if a = 1 then b.a1 else if a = 2 then b.a2 else b.a3

/-- A device below a port: serial number, port path from the device at the other end of the port, number. -/
structure HerdMember where
  serial : Nat
  path : List (Fin 4)
  number : Nat
  deriving DecidableEq, Repr

/-- An ENUM message (R80, R83): number and depth of the receiver; `former` where it gives back a former number, with the
lead's record of the devices below the receiver. -/
structure EnumMsg where
  number : Nat
  depth : Nat
  former : Bool
  below : List HerdMember := []
  deriving DecidableEq, Repr

/-- An ENUM_RSP message (R81): the devices of the subtree, as many as its size, and whether the receiver was refused. -/
structure EnumRsp where
  members : List HerdMember
  refused : Bool
  deriving DecidableEq, Repr

/-- A commit request (R110): requester, tag, mode (true for NEXT), CAXIS, TARGET. -/
structure CommitReq where
  requester : Nat
  tag : BitVec 32
  next : Bool
  axis : Fin 4
  target : BitVec 48
  deriving DecidableEq, Repr

/-- A vote (R101): epoch, voting and abstaining devices, the largest pending set, and the lowest-numbered refusing device
with its code. -/
structure VoteMsg where
  epoch : BitVec 16
  voting : Nat
  abstain : Nat
  largest : Nat
  refuser : Option (Nat × BitVec 8)
  deriving DecidableEq, Repr

/-- A COMMIT_DONE (R108): requester, tag, epoch, result as status and sub-code, APPLY_SEQ, POS and waves. -/
structure CommitDone where
  requester : Nat
  tag : BitVec 32
  epoch : BitVec 16
  status : BitVec 8
  sub : BitVec 8
  applySeq : BitVec 16
  pos : BitVec 48
  waves : Nat
  deriving DecidableEq, Repr

/-- An ALERT (R110): source device, kind, detail code, device time stamp. -/
structure AlertMsg where
  source : Nat
  kind : BitVec 4
  detail : BitVec 8
  time : BitVec 48
  deriving DecidableEq, Repr

/-- A range of device numbers that moves to another path (R122). -/
structure MovedRange where
  lo : Nat
  hi : Nat
  deriving DecidableEq, Repr

/-- A request for tiles (R116): requester and responder, tag, head, first and last band positions, first and last column
blocks. -/
structure TileReq where
  requester : Nat
  dest : Nat
  tag : BitVec 16
  head : Fin 64
  first : BitVec 48
  last : BitVec 48
  bcol : Nat
  ecol : Nat
  deriving DecidableEq, Repr

/-- A forwarded tile (R117): tag, head, band position, column block, Velvet tag and the payload's words. -/
structure TileData where
  requester : Nat
  tag : BitVec 16
  head : Fin 64
  pos : BitVec 48
  col : Nat
  velvet : BitVec 64
  words : List (BitVec 48)
  deriving DecidableEq, Repr

/-- The end of a tile request (R118): tiles sent, status, and the horizon position where the status is HORIZON. -/
structure TileEnd where
  requester : Nat
  tag : BitVec 16
  count : Nat
  status : BitVec 8
  horizon : BitVec 48
  deriving DecidableEq, Repr

/-- A blob message (R114): source and destination device, blob tag, head, first and last line positions, the 24-bit lateral
range, and the words of the edge record. -/
structure BlobMsg where
  src : Nat
  dest : Nat
  tag : BitVec 32
  head : Fin 64
  first : BitVec 48
  last : BitVec 48
  latLo : BitVec 24
  latHi : BitVec 24
  words : List (BitVec 48)
  deriving DecidableEq, Repr

/-- A message on a port (R110), as HLK sends it and as a link that goes may lose it (R112). -/
inductive HlkMsg where
  | beat (b : BeatFrame)
  | alert (m : AlertMsg)
  | commitReq (m : CommitReq)
  | vote (m : VoteMsg)
  | commitDone (m : CommitDone)
  | delayReq (t1 : Nat)
  | delayRsp (t1 t2 t3 : Nat)
  | hello (m : HelloMsg)
  | enum (m : EnumMsg)
  | enumRsp (m : EnumRsp)
  | reparent (m : MovedRange)
  | routeDrop (m : MovedRange)
  | blob (m : BlobMsg)
  | tileReq (m : TileReq)
  | tileData (m : TileData)
  | tileEnd (m : TileEnd)
  deriving DecidableEq, Repr

/-- A message that link replay brought (R110): the port of arrival, how often its CRC failed before it came whole, and whether
its type is one of the table's and its reserved fields are zero. -/
structure Arrival where
  port : Fin 4
  fails : Fin 8
  known : Bool
  reservedZero : Bool
  deriving DecidableEq, Repr

/-- Why a port leaves UP or STANDBY (R78). -/
inductive PortDownCause where
  | lockLost | replayFailed | disabled
  deriving DecidableEq, Repr

/-- A message with how it arrived (R110). -/
structure Received (α : Type) where
  via : Arrival
  msg : α
  deriving DecidableEq, Repr

/-- What training has found of a port's lanes (R76): how many have block lock, and whether deskew found more than 20 ns between
them. -/
structure LaneLock where
  count : Fin 3
  skewed : Bool
  deriving DecidableEq, Repr

/-- What a stream packet carries, in order (R147–R149, R157): an image header, a line marker, a 32-bit link word of pixel
payload with its FIFO parity, or the end of a line; and a trigger acknowledge packet that the deframer separates meanwhile
(R128). -/
inductive StreamItem where
  /-- Xsize, the pixel format coded as FORMAT of CXI_HDh_CFG, 4 and above for any other, and whether the header is of an
  area-scan frame -/
  | imageHeader (xsize format : Nat) (area : Bool)
  | lineMarker
  | pixels (w : BitVec 32) (parityBad : Bool)
  | lineEnd
  | triggerAck
  deriving DecidableEq, Repr

/-- A stream packet as the deframer sees it. -/
structure StreamPacket where
  tag : BitVec 8
  crcOk : Bool
  /-- the data size field lies within the negotiated packet size limit (R148) -/
  sizeOk : Bool
  /-- coding violations found in the packet -/
  violations : Nat
  items : List StreamItem
  deriving DecidableEq, Repr

/-- A control request to a camera (R144): operation (true for a write), address, length and data. -/
structure ControlReq where
  write : Bool
  addr : Nat
  len : Nat
  data : List (BitVec 8)
  deriving DecidableEq, Repr

/-- A step of discovery (R139): the camera's answer on one link, or its answer to the connection configuration. -/
inductive DiscAnswer where
  /-- version as major × 256 + minor, connection number, and which camera answered -/
  | read (l : Fin 64) (version conn camera : Nat)
  | config (h : Fin 64) (accepted : Bool)
  deriving DecidableEq, Repr

/-- A channel command word but for its opcode (R290). -/
structure ChWord where
  last : Bool
  more : Bool
  dry : Bool
  hold : Bool
  note : Bool
  strict : Bool
  /-- bits 33:32, reserved -/
  rsv1 : BitVec 2
  target : BitVec 10
  count : BitVec 12
  a : Fin 32
  /-- bits 4:0, reserved -/
  rsv0 : BitVec 5
  deriving DecidableEq, Repr

/-- What executes an instruction: a channel, a control core, or Goatherd (R341). -/
inductive Ctx where
  | channel (c : Fin 512)
  | core (k : Fin 4)
  | goatherd
  deriving DecidableEq, Repr

/-- The fields of an RR instruction (R342). -/
structure RR where
  d : Fin 32
  a : Fin 32
  b : Fin 32
  func : BitVec 9
  rsv : BitVec 16
  deriving DecidableEq, Repr

/-- The fields of an RI instruction (R342). -/
structure RI where
  d : Fin 32
  a : Fin 32
  imm : BitVec 30
  deriving DecidableEq, Repr

/-- The fields of a CB instruction (R342). -/
structure CB where
  cond : Fin 16
  a : Fin 32
  b : Fin 32
  off : BitVec 26
  deriving DecidableEq, Repr

/-- The fields of a CBI instruction (R342). -/
structure CBI where
  cond : Fin 16
  a : Fin 32
  imm : BitVec 9
  off : BitVec 22
  deriving DecidableEq, Repr

/-- The fields of a REP (R342). -/
structure RepWord where
  mode : Fin 16
  a : Fin 32
  imm : BitVec 31
  deriving DecidableEq, Repr

/-- Why a fetch fails (R347 check 1). -/
inductive FetchFail where
  | unpopulated | area | uncorrectable | poison
  deriving DecidableEq, Repr

/-- Who writes a register or submits a mover descriptor (R3, R16, R465). -/
inductive Requester where
  | host (f : Fin 2)
  | channel (c : Fin 512)
  | core (k : Fin 4)
  | goatherd
  deriving DecidableEq, Repr

/-- Why a PCIe function stops being attached (R477, R481). -/
inductive DetachCause where
  | port | tunnel | busMaster | reset
  deriving DecidableEq, Repr

/-- What fences a stack (R413). -/
inductive FenceCause where
  | phy
  | parity
  | ueLim
  deriving DecidableEq, Repr

/-- What the parity checks between an HBC and its stack make of one access (R412, R417): none failed; the retry succeeded; the
retry failed; or a parity error in an HBC queue, with the bits of one word that it changed. -/
inductive LinkFault where
  | good
  | retried
  | failed
  | queue (word : Fin 512) (flip : Word)
  deriving DecidableEq, Repr

/-- What the read of a patrol meets: the severity class that the stack reports for the tile, and the parity checks of this read
and of those that follow (R412, R417, R424). -/
structure PatrolReport where
  sev : Fin 4
  /-- the worst class among the four bursts that hold the tag (R407) -/
  tagSev : Fin 4
  link : List LinkFault
  deriving DecidableEq, Repr

/-- Where a register write lands: a slot of block register space, by window and offset; for a host also a part of BAR0 that is not 8
bytes on an 8-byte boundary (R479), a byte offset of BAR4, in 8 bytes or 4 (R484), or the message control of MSI-X in its function's
configuration space (R478). -/
inductive RegPlace where
  | slot | ragged
  | bar4 (wide : Bool)
  | msixControl
  deriving DecidableEq, Repr

/-- The word of a register write (R3), and where it lands. -/
structure BusWord where
  bits : BitVec 64
  place : RegPlace
  deriving DecidableEq, Repr

/-- An IP address: family (true for IPv6) and its 4 or 16 bytes as a number, the first byte the most significant. -/
structure HostAddr where
  v6 : Bool
  addr : Nat
  deriving DecidableEq, Repr

/-- A path to the dictionary (R551). -/
inductive BopPath where
  | eth (p : Fin 2)
  | mailbox (f : Fin 2)
  | core (k : Fin 4)
  deriving DecidableEq, Repr

/-- The sender of a frame of the field network: its MAC address and address, and the address it sent to (R564). -/
structure EthPeer where
  mac : BitVec 48
  src : HostAddr
  dst : HostAddr
  deriving DecidableEq, Repr

/-- A whole frame as it arrives (R553): the UDP payload and its sender on the field network; the other carriers hold the
frame in memory. -/
inductive BopCarrier where
  | eth (p : Fin 2) (peer : EthPeer) (bytes : List (BitVec 8))
  | mailbox (f : Fin 2)
  | core (k : Fin 4)
  deriving DecidableEq, Repr

/-- The names of an object in a record: index, subindex and the type code sent. -/
structure ObjName where
  index : BitVec 16
  sub : BitVec 8
  typ : BitVec 8
  deriving DecidableEq, Repr

/-- What an Ethernet frame carries (R564): an ARP request for the MAC address of `target` or the reply to it, the NDP messages of
the same use, any other ARP or NDP message, an ICMP or ICMPv6 echo request or its reply, UDP to or from port 48640, an IP fragment, an
802.1AS message, or anything else. -/
inductive EthBody where
  | arpRequest (src target : BitVec 32)
  | arpReply (src target : BitVec 32)
  | solicit (src target : BitVec 128)
  | advertise (src target : BitVec 128)
  | resolution
  | echo (src dst : HostAddr) (data : List (BitVec 8))
  | echoReply (src dst : HostAddr) (data : List (BitVec 8))
  | bop (src dst : HostAddr) (bytes : List (BitVec 8))
  | fragment
  | ptp
  | other
  deriving DecidableEq, Repr

/-- An untagged Ethernet II frame: destination and source MAC address, and what it carries. -/
structure EthPayload where
  dest : BitVec 48
  source : BitVec 48
  body : EthBody
  deriving DecidableEq, Repr

/-- What hardware initialisation and test of a stack found (R415): the CAUSE of the first step that failed, none where all
passed, and the lanes repaired and spares left. -/
structure StackTrain where
  fail : Option (Fin 6)
  /-- a word that a pass of the pattern test read back: the pass, the tile t, the word of the tile, its tag being word 512, and what
  was read -/
  read : Option (Fin 6 × Nat × Nat × BitVec 64)
  repaired : BitVec 8
  spares : BitVec 8
  deriving DecidableEq, Repr

/-- What the boot ROM finds: whether the keys and signatures of slot A (bit 0) and slot B (bit 1) check (R588), and whether region 4
fails a checker test (bit 0) or March C− (bit 1) (R427, R430). -/
structure BootReport where
  auth : BitVec 2
  test : BitVec 2
  deriving DecidableEq, Repr

/-- What the self-test found (R427, R430): the regions that failed a checker test or March C−, and the link groups whose
parity checker failed. -/
structure SelfTest where
  checker : BitVec 6
  march : BitVec 6
  parity : BitVec 4
  deriving DecidableEq, Repr

/-- An electrical fault of a field pair (R611). -/
inductive PairFault where
  | openWire | shortPair | shortSupply | shortGnd
  deriving DecidableEq, Repr

/-- A field pair that FIO judges: a channel of an encoder input, a field input, or an output. -/
inductive FieldPair where
  | enc (n : Fin 8) (ch : EncCh)
  | fin (k : Fin 16)
  | out (x : Fin 48)
  deriving DecidableEq, Repr

/-- The commands the block takes. -/
inductive Instr where
  -- SPR (02_position_domain.md)
  | encoderPinCrossing (n : Fin 8) (ch : EncCh) (level : Bool)
  | encoderEdgeAccept (n : Fin 8) (ch : EncCh)
  | overdueEdge (a : Fin 4) (tr : TrackerSel)
  | coastTimeLimit (a : Fin 4) (tr : TrackerSel)
  | coastTravelLimit (a : Fin 4) (tr : TrackerSel)
  | standstillTimeout (a : Fin 4) (tr : TrackerSel)
  | axisDisable (a : Fin 4)
  | restart (a : Fin 4)
  | preset (a : Fin 4)
  | selPri (a : Fin 4)
  | secClr (a : Fin 4)
  | slipWindowEnd (a : Fin 4)
  | tgEnable (g : Fin 64) (en : Bool)
  | triggerFix (g : Fin 64)
  | triggerFire (g : Fin 64)
  | outputPulseStart (x : Fin 48)
  | outputPulseEnd (x : Fin 48)
  | cxpTriggerPacket (l : Fin 64)
  | cxpFallPacket (l : Fin 64)
  | actPush (k : Fin 16) (w : Word)
  | actFire (k : Fin 16)

  -- HLK (03_herd_link.md)
  | portSignalDetect (p : Fin 4)
  /-- one lane has block lock and the other does not -/
  | laneLockTimeout (p : Fin 4)
  | portTrainRetry (p : Fin 4)
  /-- `lost` lists the messages the link had not acknowledged (R112) -/
  | portDown (p : Fin 4) (cause : PortDownCause) (lost : List HlkMsg)
  | portRetrain (p : Fin 4) (lost : List HlkMsg)
  | hello (r : Arrival) (m : HelloMsg)
  /-- `t1` is the departure stamp, 1/64 ns -/
  | delayProbeSend (p : Fin 4) (t1 : Nat)
  /-- the requester's stamp, and the stamps of arrival and departure here, 1/64 ns -/
  | delayReq (r : Arrival) (t1 t2 t3 : Nat)
  | delayRsp (r : Arrival) (t1 t2 t3 t4 : Nat)
  | herdEnumerate
  | enum (r : Arrival) (m : EnumMsg)
  | enumRsp (r : Arrival) (m : EnumRsp)
  | beatSend
  /-- `phase` is the arrival stamp's fraction of a nanosecond in 1/64 ns, `residence` the measured residence time in 1/64 ns -/
  | beat (p : Fin 4) (f : BeatFrame) (phase : BitVec 6) (residence : Nat)
  | beatMissed
  | resync
  | commitReq (m : Received CommitReq)
  | vote (r : Arrival) (m : VoteMsg)
  | childVoteTimeout (p : Fin 4)
  | leadVoteTimeout
  | armLimitExpiry
  | waveApply
  | commitDone (m : Received CommitDone)
  | alert (r : Arrival) (m : AlertMsg)
  | reparent (r : Arrival) (m : MovedRange)
  | routeDrop (r : Arrival) (m : MovedRange)
  | tileReq (r : Arrival) (m : TileReq)
  | tileData (m : Received TileData)
  | tileEnd (m : Received TileEnd)
  | piece (b : Received BlobMsg)
  | progress (b : Received BlobMsg)
  | returnRecord (b : Received BlobMsg)
  | hlkTrainingTimeout (p : Fin 4) (lanes : LaneLock)

  -- CXI (04_camera_ingest.md)
  | headEnable (h : Fin 64) (en : Bool)
  | retry (h : Fin 64)
  | headFaultRetry (h : Fin 64)
  | headLinkLoss (h : Fin 64)
  | pcxEnable (l : Fin 64)
  /-- the current in mA, whether the group's PCX_FLT_N is low, and whether the current has stayed there for 1 ms -/
  | pcxShort (l : Fin 64) (ma : Nat) (fltLow held : Bool)
  | pcxOvercurrent (l : Fin 64) (ma : Nat)
  | pcxOpen (l : Fin 64) (ma : Nat)
  | pcxOn (l : Fin 64)
  | pcxAutoRetry (l : Fin 64)
  | pcxRetry (l : Fin 64)
  | pcxFltAssert (g : Fin 4)
  | discoveryPoll (h : Fin 64)
  | discoveryTimeout (h : Fin 64)
  | heartbeat
  | controlRequest (h : Fin 64) (req : ControlReq)
  | controlAck (h : Fin 64) (crcOk : Bool) (code : Nat) (data : List (BitVec 8))
  | controlTimeout (h : Fin 64)
  | eventPacket (h : Fin 64) (payload : List (BitVec 8))
  | streamPacket (l : Fin 64) (p : StreamPacket)
  | gapTimeout (h : Fin 64)
  | lineLostTimeout (h : Fin 64)
  | chamoisLineStart (h : Fin 64)
  | chamoisLineEnd (h : Fin 64)
  | seamTimeout (h : Fin 64)
  | creditReturn (h : Fin 64)
  | cxpLinkChange (l : Fin 64) (up : Bool)
  | discoveryAnswer (x : DiscAnswer)


  -- Look-back (05_lookback_memory.md)
  | bandComplete (h : Fin 64)
  | claimWrite (k : Fin 128) (v : Word)
  | relayout
  | fullLayout
  | queryDequeue
  /-- the query's number -/
  | queryEndHeld (n : Nat)
  | queryWaitTimeout (n : Nat)
  | queryDescriptor (ws : List Word)
  /-- entry number and the words of R215 -/
  | refDefine (r : Nat) (ws : List Word)
  | refSeal (r : Nat)
  | refDelete (r : Nat)
  | retroSubmit (j : Fin 16) (ws : List Word)
  | retroJobStart
  | retroAbort (j : Fin 16)
  | retroJobComplete

  -- Chamois and extraction (06_correction_extraction.md)
  | calStart
  | coefWrite (off : Nat) (ws : List Word)
  /-- the piece's number -/
  | pieceRelease (n : Nat)
  | mergeTimeout (n : Nat)
  | catchupResume


  -- Channels (07_channels.md)
  | chNop (c : Fin 512) (w : ChWord)
  | chPoswait (c : Fin 512) (w : ChWord)
  | poswaitReached (c : Fin 512)
  | chWaitev (c : Fin 512) (w : ChWord)
  | waitevRaised (c : Fin 512)
  | chFire (c : Fin 512) (w : ChWord)
  | fireOneshot (c : Fin 512)
  | chAct (c : Fin 512) (w : ChWord)
  | chLines (c : Fin 512) (w : ChWord)
  | linesCounted (c : Fin 512)
  | chMsg (c : Fin 512) (w : ChWord)
  | chBandwait (c : Fin 512) (w : ChWord)
  | bandwaitHeld (c : Fin 512)
  | waitLimit (c : Fin 512)
  | chMove (c : Fin 512) (w : ChWord)
  | chQuery (c : Fin 512) (w : ChWord)
  | transferDone (c : Fin 512)
  | chQtake (c : Fin 512) (w : ChWord)
  | qtakeRecords (c : Fin 512)
  | chRetro (c : Fin 512) (w : ChWord)
  | chPost (c : Fin 512) (w : ChWord)
  | channelStart (c : Fin 512)
  | channelHalt (c : Fin 512)
  | channelSuspend (c : Fin 512)
  | channelResume (c : Fin 512)
  | channelClear (c : Fin 512)


  -- Instructions (08_instruction_set.md, 09_arithmetic.md)
  | isaAdd (x : Ctx) (f : RR)
  | isaSub (x : Ctx) (f : RR)
  | isaAnd (x : Ctx) (f : RR)
  | isaOr (x : Ctx) (f : RR)
  | isaXor (x : Ctx) (f : RR)
  | isaShl (x : Ctx) (f : RR)
  | isaShr (x : Ctx) (f : RR)
  | isaSar (x : Ctx) (f : RR)
  | isaCmps (x : Ctx) (f : RR)
  | isaCmpu (x : Ctx) (f : RR)
  | isaMins (x : Ctx) (f : RR)
  | isaMaxs (x : Ctx) (f : RR)
  | isaMinu (x : Ctx) (f : RR)
  | isaMaxu (x : Ctx) (f : RR)
  | isaAddi (x : Ctx) (f : RI)
  | isaAndi (x : Ctx) (f : RI)
  | isaOri (x : Ctx) (f : RI)
  | isaXori (x : Ctx) (f : RI)
  | isaShli (x : Ctx) (f : RI)
  | isaShri (x : Ctx) (f : RI)
  | isaSari (x : Ctx) (f : RI)
  | isaCmpsi (x : Ctx) (f : RI)
  | isaCmpui (x : Ctx) (f : RI)
  | isaInsh (x : Ctx) (f : RI)
  | isaMul (x : Ctx) (f : RR)
  | isaMuld (x : Ctx) (f : RR)
  | isaMuldu (x : Ctx) (f : RR)
  | isaDiv (x : Ctx) (f : RR)
  | isaDivu (x : Ctx) (f : RR)
  | isaRem (x : Ctx) (f : RR)
  | isaRemu (x : Ctx) (f : RR)
  | isaLd (x : Ctx) (f : RI)
  | isaSt (x : Ctx) (f : RI)
  | isaLdb (x : Ctx) (f : RR)
  | isaLds (x : Ctx) (f : RR)
  | isaLdt (x : Ctx) (f : RR)
  | isaStb (x : Ctx) (f : RR)
  | isaSts (x : Ctx) (f : RR)
  | isaStt (x : Ctx) (f : RR)
  | isaLdinc (x : Ctx) (f : RI)
  | isaStinc (x : Ctx) (f : RI)
  | isaMovw (x : Ctx) (f : RR)
  | isaFillw (x : Ctx) (f : RR)
  | isaCrcm (x : Ctx) (f : RR)
  | isaFence (x : Ctx) (f : RR)
  | isaSwap (x : Ctx) (f : RR)
  | isaAddm (x : Ctx) (f : RR)
  | isaCas (x : Ctx) (f : RR)
  | isaJmpl (x : Ctx) (f : RI)
  | isaJmpr (x : Ctx) (f : RI)
  | isaBr (x : Ctx) (f : CB)
  | isaBri (x : Ctx) (f : CBI)
  | isaRdpos (x : Ctx) (f : RI)
  | isaRdvel (x : Ctx) (f : RI)
  | isaRdtime (x : Ctx) (f : RI)
  | isaPdiff (x : Ctx) (f : RR)
  | isaSelf (x : Ctx) (f : RI)
  | isaFadd (x : Ctx) (f : RR)
  | isaFsub (x : Ctx) (f : RR)
  | isaFmul (x : Ctx) (f : RR)
  | isaFdiv (x : Ctx) (f : RR)
  | isaFsqrt (x : Ctx) (f : RR)
  | isaFma (x : Ctx) (f : RR)
  | isaFmin (x : Ctx) (f : RR)
  | isaFmax (x : Ctx) (f : RR)
  | isaItof (x : Ctx) (f : RR)
  | isaFtoi (x : Ctx) (f : RR)
  | isaFsgn (x : Ctx) (f : RR)
  | isaFclass (x : Ctx) (f : RR)
  | isaMfs (x : Ctx) (f : RI)
  | isaMts (x : Ctx) (f : RI)
  | isaEret (x : Ctx) (f : RR)
  | isaWfe (x : Ctx) (f : RR)
  | wfeWake (x : Ctx)
  | isaMfa (x : Ctx) (f : RR)
  | isaMta (x : Ctx) (f : RR)
  | isaTrap (x : Ctx) (f : RI)
  | isaRep (x : Ctx) (f : RepWord)
  | isaHint (x : Ctx) (op : Fin 8) (rest : BitVec 40)
  | fastTrap (x : Ctx)
  | normalTrap (x : Ctx)
  | coreRun (k : Fin 4) (run : Bool)
  /-- `w` is the word fetched -/
  | undefinedOpcode (x : Ctx) (w : Word)
  | fetchFault (x : Ctx) (why : FetchFail)


  -- Memory integrity (10_memory_integrity.md)
  | hbmRewrite (s : Fin 4)
  | patrolRead (s : Fin 4) (r : PatrolReport)
  | stackFence (s : Fin 4) (cause : FenceCause)
  | fenceWrite (s : Fin 4)
  /-- `flip` is what upsets of the stored bits have done to the word since it was written: data and check bits -/
  | scrubRead (r : Fin 6) (flip : Word) (flipChk : BitVec 7)
  | injectArm (by_ : Requester)

  -- Graze and movers (11_budgets_arbitration.md)
  /-- `bidders` lists the classes that bid at every port throughout their owned slots, with quota left, in the period that ends (R452) -/
  | grazePeriod (bidders : List (Fin 32))
  | grazeSwap
  | arbPrioWrite (r : Fin 23) (v : Word)
  | moverSubmit (k : Fin 5) (by_ : Requester) (addr : Word)
  | moverCopy (k : Fin 5)
  | moverFill (k : Fin 5)
  | moverCompare (k : Fin 5)
  | moverComparePattern (k : Fin 5)
  | moverComplete (k : Fin 5)


  -- Host interface (12_host_interface.md)
  /-- `mode` is MODE of HIF_STAT -/
  | functionAttach (f : Fin 2) (mode : Fin 7)
  | functionDetach (f : Fin 2) (cause : DetachCause)
  | mbxGo (f : Fin 2) (len : Nat)
  | mbxResponse (f : Fin 2)
  | mbxDoneClear (f : Fin 2)
  | hostMailboxWrite (f : Fin 2) (off : Nat) (bytes : List (BitVec 8))
  | submissionDoorbell (f : Fin 2) (s : Fin 64)
  /-- bytes 0–3 of the header as read, or none where the read failed -/
  | headerRead (f : Fin 2) (s : Fin 64) (prod : Option (BitVec 32))
  /-- the 64 bytes of the entry at the consumer index as read, or none where the read failed -/
  | entryTake (f : Fin 2) (s : Fin 64) (e : Option (List (BitVec 8)))
  | completionDoorbell (f : Fin 2) (c : Fin 64) (v : BitVec 64)
  /-- `n` is how many entries the ring had taken before this one since it was enabled: its index, without wrapping -/
  | hostNop (f : Fin 2) (s : Fin 64) (n : Nat)
  | hostQuery (f : Fin 2) (s : Fin 64) (n : Nat)
  | hostRetro (f : Fin 2) (s : Fin 64) (n : Nat)
  | hostRead (f : Fin 2) (s : Fin 64) (n : Nat)
  /-- the tiles read from host memory, and whether the read after them failed -/
  | refWrite (f : Fin 2) (s : Fin 64) (n : Nat) (tiles : List (List Word)) (failed : Bool)
  | directEntryComplete (f : Fin 2) (s : Fin 64) (n : Nat)
  | queryComplete (n : Nat)
  | coalMessage (f : Fin 2) (c : Fin 64)
  /-- `sub` tells a submission ring from a completion ring -/
  | ringEnable (f : Fin 2) (sub : Bool) (r : Fin 64)
  | sqStop (f : Fin 2) (s : Fin 64)
  /-- the header as read once more, and the entries from the consumer index on as read -/
  | stopFinish (f : Fin 2) (s : Fin 64) (prod : Option (BitVec 32)) (entries : List (List (BitVec 8)))
  | cqStop (f : Fin 2) (c : Fin 64)
  | hostVerWrite (f : Fin 2) (v : BitVec 8)

  -- EVC (13_events.md)
  /-- a pulse is raised, or a level input activates, at source i -/
  | eventRaise (i : Fin 1024)
  | levelInactive (i : Fin 1024)
  | eventCommit (q : Fin 10)
  | evcSet (i : Fin 1024)
  | evcAck (i : Fin 1024)
  | evcClr (i : Fin 1024)
  | queuePop (q : Fin 10)
  | queueConsWrite (q : Fin 10) (v : Word)
  | alarmArm (t : Fin 5) (time : Word)
  | alarmFire (t : Fin 5)

  -- Dictionary and field network (14_object_dictionary.md)
  | bopFrame (x : BopCarrier)
  /-- `src` is the source address on the field network; `lo` and `hi` the versions asked for -/
  | connect (x : BopPath) (src : HostAddr) (lo hi : BitVec 8)
  /-- `s` is the session's number, here and below -/
  | close (x : BopPath) (s : Nat)
  | read (x : BopPath) (s : Nat) (o : ObjName)
  | write (x : BopPath) (s : Nat) (o : ObjName) (value : List (BitVec 8))
  | readSeg (x : BopPath) (s : Nat) (o : ObjName) (off len : Nat)
  | writeSeg (x : BopPath) (s : Nat) (o : ObjName) (last : Bool) (off : Nat) (bytes : List (BitVec 8))
  /-- the 16 bytes of R571 -/
  | commit (x : BopPath) (s : Nat) (data : List (BitVec 8))
  | discard (x : BopPath) (s : Nat)
  | describe (x : BopPath) (s : Nat) (o : ObjName)
  | sessionTimeout (x : BopPath) (s : Nat)
  | segmentTimeout (x : BopPath) (s : Nat) (index : BitVec 16) (sub : BitVec 8)
  | programWrite (off : Nat) (ws : List Word)
  | storeConfiguration
  | eraseConfiguration
  /-- `ok` is false where the flash operation failed -/
  | flashOperationDone (ok : Bool)
  /-- bytes of the frame, whether its FCS holds and whether it is tagged -/
  | ethFrame (p : Fin 2) (len : Nat) (fcsOk tagged : Bool) (x : EthPayload)
  /-- `up` is block lock and link, `present` the SFP+ module -/
  | ethLinkChange (p : Fin 2) (up present : Bool)
  /-- the port that takes time, the 802.1AS time in ns and the grandmaster's clock identity -/
  | ptpSync (p : Fin 2) (time : BitVec 64) (gm : BitVec 64)

  -- Goatherd (15_management_power.md, 17_electrical_package.md)
  /-- `pll` is whether the always-on PLL is locked; `prog` lists slots programmed from outside while the device was off;
  `boot` is what the boot ROM finds -/
  | suppliesGood (pll : Bool) (prog : List (Fin 2 × List (BitVec 8))) (boot : BootReport)
  | railReset (r : Fin 11)
  | resetNAssert
  | watchdogExpiry (boot : BootReport)
  | deviceReset (boot : BootReport)
  /-- the self-test, the training of stacks 0–3, whether the Velvet checker test passes, and whether the SerDes reference
  PLL is locked as TRAIN begins -/
  | selftestComplete (t : SelfTest) (s0 s1 s2 s3 : StackTrain) (velvet ref : Bool)
  | trainComplete
  | readyDeadline
  | pllLockTimeout
  | serviceRequest (v : Nat)
  /-- `pass` tells which of the stacks (3:0) and groups (7:4) named pass; `s0` to `s3` are the stacks' training -/
  | returnFenced (v : Nat) (pass : BitVec 8) (s0 s1 s2 s3 : StackTrain)
  | powerRequest (v : Nat)
  /-- bit s of `phy` is 0 where the PHY of stack s fails to lock, or the stack fails to leave self-refresh, on a return -/
  | powerTransitionEnd (phy : BitVec 4)
  | wakeRequest
  | supplyWarning (r : Fin 11) (mv : Nat)
  | supplyWarningEnd (r : Fin 11) (mv : Nat)
  /-- temperatures are in 1/8 °C -/
  | throttleStart (s : Fin 13) (t : Int)
  | throttleStep (s : Fin 13) (t : Int)
  | throttleEnd (s : Fin 13) (t : Int)
  | thermalTrip (s : Fin 13) (t : Int)
  | logFlush
  | logWrite (bytes : List (BitVec 8))
  | imageWrite (last : Bool) (off : Nat) (bytes : List (BitVec 8))
  /-- `auth` is whether the slot's keys and signatures check -/
  | imageVerifyDone (auth : Bool)
  | activate
  | confirm
  | keyProgram (x : BopPath) (bytes : List (BitVec 8))
  | keyRevoke (x : BopPath) (slot : Nat)
  | bootComplete
  /-- `same` is whether the second read's digest equals the first's -/
  | partCCheck (same : Bool)
  /-- `serdes` tells the SerDes reference PLL from the always-on PLL; `boot` as for SUPPLIES_GOOD -/
  | pllLock (serdes : Bool) (boot : BootReport)
  | thermtripComparator
  | correctedErrorsLog

  -- Registers (01_line_to_candidate.md R4)
  /-- `by_` writes `w` at offset `off` of window `win`; a host writes through BAR0 -/
  | registerWrite (by_ : Requester) (win : Fin 256) (off : BitVec 16) (w : BusWord)

  -- FIO (16_field_io.md)
  /-- `follow` lists the input pairs whose common mode followed the probe by 500 mV or more (pair numbers 0–39) -/
  | wireProbe (follow : List (Fin 40))
  | pairFaultDetect (pair : FieldPair) (fault : PairFault)
  | pairFaultClear (pair : FieldPair) (fault : PairFault)
  | fioEncCfgWrite (n : Fin 8) (v : Word)
  | fieldInputPin (k : Fin 16) (level : Bool)
  | fieldInputAccept (k : Fin 16)
  | reversedDetect (k : Fin 16)
  | polarityCheck (x : Fin 48)
  /-- `mv` is the measured far-end bias, P minus N, in millivolts -/
  | polarityCheckDone (x : Fin 48) (mv : Int)
  | driverShutoff (x : Fin 48)
  | driverOvertemp (x : Fin 48)
  /-- `temp` is the driver's temperature in degrees Celsius -/
  | driverRetry (x : Fin 48) (temp : Int)
  | unlock (x : Fin 48)
  deriving DecidableEq, Repr

end Sys2Proof
end

