-- ==== Sys2Proof/Decode.lean ====
section
/-! DEFINITION. The words of the instruction set: their formats (R290, R342), and the command that a word is (R345, R346). No row of
opcode_table.json gives bits, so no word spells a command by the table. -/

namespace Sys2Proof

/-! ### Words (R342) -/

/-- The word of an RR instruction. -/
def RR.word (op : Nat) (f : RR) : Word :=
  Machine.setFld (Machine.setFld (Machine.setFld (Machine.setFld (Machine.setFld (Machine.setFld 0 47 40 op) 39 35 f.d.val) 34 30 f.a.val) 29 25 f.b.val) 24 16 f.func.toNat)
    15 0 f.rsv.toNat

/-- The word of an RI instruction. -/
def RI.word (op : Nat) (f : RI) : Word :=
  Machine.setFld (Machine.setFld (Machine.setFld (Machine.setFld 0 47 40 op) 39 35 f.d.val) 34 30 f.a.val) 29 0 f.imm.toNat

/-- The word of a CB instruction. -/
def CB.word (op : Nat) (f : CB) : Word :=
  Machine.setFld (Machine.setFld (Machine.setFld (Machine.setFld (Machine.setFld 0 47 40 op) 39 36 f.cond.val) 35 31 f.a.val) 30 26 f.b.val) 25 0 f.off.toNat

/-- The word of a CBI instruction. -/
def CBI.word (op : Nat) (f : CBI) : Word :=
  Machine.setFld (Machine.setFld (Machine.setFld (Machine.setFld (Machine.setFld 0 47 40 op) 39 36 f.cond.val) 35 31 f.a.val) 30 22 f.imm.toNat) 21 0 f.off.toNat

/-- The word of a REP. -/
def RepWord.word (f : RepWord) : Word :=
  Machine.setFld (Machine.setFld (Machine.setFld (Machine.setFld 0 47 40 0xA0) 39 36 f.mode.val) 35 31 f.a.val) 30 0 f.imm.toNat

/-- A flag as a number. -/
def flagBit (b : Bool) : Nat := b.toNat

/-- The word of a channel command (R290). -/
def ChWord.word (op : Nat) (f : ChWord) : Word :=
  let w := Machine.setFld (Machine.setFld (Machine.setFld 0 47 40 op) 39 39 (flagBit f.last)) 38 38 (flagBit f.more)
  let w := Machine.setFld (Machine.setFld w 37 37 (flagBit f.dry)) 36 36 (flagBit f.hold)
  let w := Machine.setFld (Machine.setFld w 35 35 (flagBit f.note)) 34 34 (flagBit f.strict)
  let w := Machine.setFld (Machine.setFld w 33 32 f.rsv1.toNat) 31 22 f.target.toNat
  Machine.setFld (Machine.setFld (Machine.setFld w 21 10 f.count.toNat) 9 5 f.a.val) 4 0 f.rsv0.toNat

/-! ### Fields taken apart -/

/-- Bits hi:lo of a word as a register number. -/
def regField (w : Word) (hi lo : Nat) : Fin 32 := Fin.ofNat 32 (Machine.fld w hi lo)

/-- The fields of an RR word (R342). -/
def RR.of (w : Word) : RR :=
  { d := regField w 39 35, a := regField w 34 30, b := regField w 29 25, func := w.extractLsb' 16 9, rsv := w.extractLsb' 0 16 }

/-- The fields of an RI word (R342). -/
def RI.of (w : Word) : RI := { d := regField w 39 35, a := regField w 34 30, imm := w.extractLsb' 0 30 }

/-- The fields of a CB word (R342). -/
def CB.of (w : Word) : CB :=
  { cond := Fin.ofNat 16 (Machine.fld w 39 36), a := regField w 35 31, b := regField w 30 26, off := w.extractLsb' 0 26 }

/-- The fields of a CBI word (R342). -/
def CBI.of (w : Word) : CBI :=
  { cond := Fin.ofNat 16 (Machine.fld w 39 36), a := regField w 35 31, imm := w.extractLsb' 22 9, off := w.extractLsb' 0 22 }

/-- The fields of a REP word (R342). -/
def RepWord.of (w : Word) : RepWord :=
  { mode := Fin.ofNat 16 (Machine.fld w 39 36), a := regField w 35 31, imm := w.extractLsb' 0 31 }

/-- The fields of a channel command word (R290). -/
def ChWord.of (w : Word) : ChWord :=
  { last := Machine.bit w 39, more := Machine.bit w 38, dry := Machine.bit w 37, hold := Machine.bit w 36, note := Machine.bit w 35,
    strict := Machine.bit w 34, rsv1 := w.extractLsb' 32 2, target := w.extractLsb' 22 10, count := w.extractLsb' 10 12,
    a := regField w 9 5, rsv0 := w.extractLsb' 0 5 }

/-! ### The opcode map (R345, R346) -/

/-- The channel command that a word is for channel c; none for an opcode R291 leaves undefined. -/
def commandOf (c : Fin 512) (w : Word) : Option Instr :=
  match Machine.fld w 47 40 with
  | 0xC0 => some (.chNop c (ChWord.of w))
  | 0xC1 => some (.chPoswait c (ChWord.of w))
  | 0xC2 => some (.chWaitev c (ChWord.of w))
  | 0xC3 => some (.chFire c (ChWord.of w))
  | 0xC4 => some (.chAct c (ChWord.of w))
  | 0xC8 => some (.chLines c (ChWord.of w))
  | 0xC9 => some (.chMsg c (ChWord.of w))
  | 0xCA => some (.chBandwait c (ChWord.of w))
  | 0xD0 => some (.chMove c (ChWord.of w))
  | 0xD1 => some (.chQuery c (ChWord.of w))
  | 0xD2 => some (.chQtake c (ChWord.of w))
  | 0xD3 => some (.chRetro c (ChWord.of w))
  | 0xD8 => some (.chPost c (ChWord.of w))
  | _ => none

/-- The instruction that a word is for a context, in the groups of opcodes below 80h. -/
def lowInstruction (x : Ctx) (w : Word) : Option Instr :=
  match Machine.fld w 47 40 with
  | 0x1 => some (.isaAdd x (RR.of w))
  | 0x2 => some (.isaSub x (RR.of w))
  | 0x3 => some (.isaAnd x (RR.of w))
  | 0x4 => some (.isaOr x (RR.of w))
  | 0x5 => some (.isaXor x (RR.of w))
  | 0x6 => some (.isaShl x (RR.of w))
  | 0x7 => some (.isaShr x (RR.of w))
  | 0x8 => some (.isaSar x (RR.of w))
  | 0x9 => some (.isaCmps x (RR.of w))
  | 0xA => some (.isaCmpu x (RR.of w))
  | 0xB => some (.isaMins x (RR.of w))
  | 0xC => some (.isaMaxs x (RR.of w))
  | 0xD => some (.isaMinu x (RR.of w))
  | 0xE => some (.isaMaxu x (RR.of w))
  | 0x10 => some (.isaAddi x (RI.of w))
  | 0x12 => some (.isaAndi x (RI.of w))
  | 0x13 => some (.isaOri x (RI.of w))
  | 0x14 => some (.isaXori x (RI.of w))
  | 0x15 => some (.isaShli x (RI.of w))
  | 0x16 => some (.isaShri x (RI.of w))
  | 0x17 => some (.isaSari x (RI.of w))
  | 0x18 => some (.isaCmpsi x (RI.of w))
  | 0x19 => some (.isaCmpui x (RI.of w))
  | 0x1A => some (.isaInsh x (RI.of w))
  | 0x20 => some (.isaMul x (RR.of w))
  | 0x21 => some (.isaMuld x (RR.of w))
  | 0x22 => some (.isaMuldu x (RR.of w))
  | 0x24 => some (.isaDiv x (RR.of w))
  | 0x25 => some (.isaDivu x (RR.of w))
  | 0x26 => some (.isaRem x (RR.of w))
  | 0x27 => some (.isaRemu x (RR.of w))
  | 0x30 => some (.isaLd x (RI.of w))
  | 0x31 => some (.isaSt x (RI.of w))
  | 0x32 => some (.isaLdb x (RR.of w))
  | 0x33 => some (.isaLds x (RR.of w))
  | 0x34 => some (.isaLdt x (RR.of w))
  | 0x35 => some (.isaStb x (RR.of w))
  | 0x36 => some (.isaSts x (RR.of w))
  | 0x37 => some (.isaStt x (RR.of w))
  | 0x38 => some (.isaLdinc x (RI.of w))
  | 0x39 => some (.isaStinc x (RI.of w))
  | 0x3A => some (.isaMovw x (RR.of w))
  | 0x3B => some (.isaFillw x (RR.of w))
  | 0x3C => some (.isaCrcm x (RR.of w))
  | 0x3D => some (.isaFence x (RR.of w))
  | 0x40 => some (.isaSwap x (RR.of w))
  | 0x41 => some (.isaAddm x (RR.of w))
  | 0x42 => some (.isaCas x (RR.of w))
  | 0x50 => some (.isaJmpl x (RI.of w))
  | 0x51 => some (.isaJmpr x (RI.of w))
  | 0x60 => some (.isaBr x (CB.of w))
  | 0x61 => some (.isaBri x (CBI.of w))
  | 0x70 => some (.isaRdpos x (RI.of w))
  | 0x71 => some (.isaRdvel x (RI.of w))
  | 0x72 => some (.isaRdtime x (RI.of w))
  | 0x73 => some (.isaPdiff x (RR.of w))
  | 0x74 => some (.isaSelf x (RI.of w))
  | _ => none

/-- The instruction that a word is for a context, in the groups of opcodes from 80h on but for the channel commands. -/
def highInstruction (x : Ctx) (w : Word) : Option Instr :=
  match Machine.fld w 47 40 with
  | 0x80 => some (.isaFadd x (RR.of w))
  | 0x81 => some (.isaFsub x (RR.of w))
  | 0x82 => some (.isaFmul x (RR.of w))
  | 0x83 => some (.isaFdiv x (RR.of w))
  | 0x84 => some (.isaFsqrt x (RR.of w))
  | 0x85 => some (.isaFma x (RR.of w))
  | 0x86 => some (.isaFmin x (RR.of w))
  | 0x87 => some (.isaFmax x (RR.of w))
  | 0x88 => some (.isaItof x (RR.of w))
  | 0x89 => some (.isaFtoi x (RR.of w))
  | 0x8A => some (.isaFsgn x (RR.of w))
  | 0x8B => some (.isaFclass x (RR.of w))
  | 0x90 => some (.isaMfs x (RI.of w))
  | 0x91 => some (.isaMts x (RI.of w))
  | 0x92 => some (.isaEret x (RR.of w))
  | 0x93 => some (.isaWfe x (RR.of w))
  | 0x94 => some (.isaMfa x (RR.of w))
  | 0x95 => some (.isaMta x (RR.of w))
  | 0x96 => some (.isaTrap x (RI.of w))
  | 0xA0 => some (.isaRep x (RepWord.of w))
  | _ =>
    if 0xF0 ≤ Machine.fld w 47 40 && Machine.fld w 47 40 ≤ 0xF7 then
      some (.isaHint x (Fin.ofNat 8 (Machine.fld w 47 40)) (w.extractLsb' 0 40))
    else none

/-- The command that a word is when a context executes it (R345–R347): a channel command only for a channel; a word of no opcode that
the context knows is UNDEFINED_OPCODE. -/
def decodeInstruction (x : Ctx) (w : Word) : Instr :=
  let command := match x with | .channel c => commandOf c w | _ => none
  ((lowInstruction x w <|> highInstruction x w) <|> command).getD (.undefinedOpcode x w)

/-- The command that a word spells by the table's bits: the table gives none. -/
def decodeTableWord (_nbits _w : Nat) : Option Instr := none

end Sys2Proof
end

