-- ==== Sys2Proof/Config.lean ====
section
/-! DEFINITION. What an implementation fixes, and the values the spec leaves open. Every constant here is opaque: no proof can
see its value, so a theorem holds whatever it is. -/

namespace Sys2Proof.Config

/-- The free values, by their running number: a result the spec leaves open after which the machine goes on.
(Log entry 9 DESIGN CHOICE.) -/
opaque freeNat : Nat → Nat

/-- What the load of output x draws from its leg P (true) or N at a moment, in mA (R625). (Log entry 33 DEDUCED.) -/
opaque legDraw : Nat → Bool → Word → Nat

/-- The fused MAC address of ETH port p (R563, R568). (Log entry 120 PRESUMED.) -/
opaque macAddress : Nat → BitVec 48

/-- The largest wait, in ns, that the delay field of a CXP trigger packet carries (R142; set by CoaXPress 2.1).
(Log entry 56 PRESUMED.) -/
opaque trigDelayMax : Nat

/-- The camera bootstrap registers that CXI manages under R139, by address (R144; named by CoaXPress 2.1).
(Log entry 56 PRESUMED.) -/
opaque managedRegister : Nat → Bool

/-- The serial number of this device (1000h.5), fixed at manufacture; the spec gives no value. (Log entry 120 PRESUMED.) -/
opaque serial : BitVec 48

/-- The digest of Moadovi's public key, fused in key slot 0 (R587), byte by byte; the spec gives no value.
(Log entry 120 PRESUMED.) -/
opaque moadoviKey : Nat → BitVec 8

/-- Where Goatherd's data memory holds the value of 6300h.2, counted from the first word in which it can (R233, R648); the spec gives
no address. (Log entry 214 DESIGN CHOICE.) -/
opaque resultOffset : Nat

end Sys2Proof.Config
end

