-- ==== Sys2Proof/Machine/Reg.lean ====
section
/-! DEFINITION. The registers of the block windows, one name per row of the chapters' register tables (R69, R126, R173,
R232, R283, R284, R339, R388, R435, R436, R471, R472, R518, R544, R568, R604, R625), with window, offset, number and
stride of the indexed ones, the RW and W1C masks of their field maps, and the reset value. -/

namespace Sys2Proof.Machine

/-- The registers. An indexed register is one name with an index; a ring of function f is index 64f + ring, and the
parameter words of set s and head h are index 64s + h. -/
inductive Reg where
  | sprVersion
  | sprGlbCtl
  | sprEncnCfg
  | sprEncnCount
  | sprEncnStat
  | sprEncnZcnt
  | sprAxnCtl
  | sprAxnStat
  | sprAxnPos
  | sprAxnVel
  | sprAxnAcc
  | sprAxnAmax
  | sprAxnJmax
  | sprAxnEdgeTol
  | sprAxnVarLim
  | sprAxnSecScale
  | sprAxnSlipWin
  | sprAxnSlipTol
  | sprAxnStillNs
  | sprAxnPreset
  | sprAxnCoastPos
  | sprAxnCoastEnd
  | sprAxnRejCnt
  | sprAxnSlipDiff
  | sprAxnLastEdge
  | sprTgnCfg
  | sprTgnPitch
  | sprTgnPhase
  | sprTgnStagger
  | sprTgnMinInt
  | sprTgnOut
  | sprTgnOfs
  | sprTgnCxp
  | sprTgnLine
  | sprTgnHwm
  | sprTgnDrop
  | sprTgnNext
  | sprActkCfg
  | sprActkPos
  | sprActkPush
  | sprActkMissed
  | hlkVersion
  | hlkCtl
  | hlkStat
  | hlkBeatSeq
  | hlkPathDelay
  | hlkPhaseErr
  | hlkLostBeats
  | hlkCommitStat
  | hlkApplyPos
  | hlkLatePos
  | hlkHerdSize
  | hlkAlertLast
  | hlkArmLimit
  | hlkPortpCtl
  | hlkPortpStat
  | hlkPortpDelay
  | hlkPortpAsym
  | hlkPortpRange
  | hlkPortpErr
  | hlkPortpPeer
  | cxiVersion
  | cxiCtl
  | cxiMisroute
  | cxiStgFree
  | cxiHdhCfg
  | cxiHdhWidth
  | cxiHdhStg
  | cxiHdhCut
  | cxiHdhLat
  | cxiHdhStat
  | cxiHdhLines
  | cxiHdhLoss
  | cxiHdhLast
  | cxiHdhRecq
  | cxiLklCfg
  | cxiLklStat
  | cxiLklErr
  | cxiLklPcx
  | cxiLklPcxLim
  | cxiGrpgStat
  | tfbClmk
  | tfbClmkHzn
  | tfbLbCtl
  | tfbLbStat
  | tfbLbRefTiles
  | tfbLbPool
  | tfbLbUnused
  | tfbLbVcnt
  | tfbLbAxaHzn
  | tfbLbhCfg
  | tfbLbhDirBase
  | tfbLbhNb
  | tfbLbhTpb
  | tfbLbhHznSeq
  | tfbLbhHznPos
  | tfbLbhNewSeq
  | tfbLbhNewEnd
  | tfbLbhStat
  | tfbLbhHeld
  | chmVersion
  | chmCalCtl
  | chmCalStat
  | chmHdhCfg
  | chmHdhCoef
  | chmHdhOut
  | chmHdhDark
  | chmHdhDarkNow
  | chmHdhSeamMiss
  | cexVersion
  | cexStat
  | cexLqProd
  | cexLqCons
  | cexRqProd
  | cexRqCons
  | cexWeak
  | cexErrs
  | cexPieces
  | cexMerge
  | cexHdhStat
  | cexHdhExtSeq
  | cexHdhCand
  | cexPsHdh0
  | cexPsHdh1
  | cexPsHdh2
  | cexPsHdh3
  | ibxVersion
  | ibxStat
  | ibxPendi
  | ibxPpCfg
  | ibxChcCtl
  | ibxChcCfg
  | ibxChcArg
  | ibxChcStat
  | ibxChcCsw0
  | ibxChcCsw1
  | ibxChcPc
  | ibxChcCmds
  | ctlVersion
  | ctlIsa
  | ctlCorekCtl
  | ctlCorekEntry
  | ctlCorekDcause
  | ctlCorekDpc
  | hbcVersion
  | hbcCtl
  | hbcSsStat
  | hbcSsSev
  | hbcSsLast
  | hbcSsRewr
  | hbcSsPar
  | hbcSsPatrol
  | hbcSsLanes
  | edcVersion
  | edcCtl
  | edcStResult
  | edcRrCnt
  | edcRrLast
  | edcRrPwr
  | edcRrScrub
  | edcInjAddr
  | edcInjData
  | edcInjCtl
  | tfbVersion
  | tfbGrzCtl
  | tfbGrzStat
  | tfbGrzPeriod
  | tfbArbPrior
  | tfbGrzcCfg
  | tfbGrzcUsed
  | tfbSlotaJ
  | tfbSlotbJ
  | tfbQuotaaC
  | tfbQuotabC
  | tmvVersion
  | tmvStat
  | tmvDone
  | tmvErr
  | tmvCqkSubmit
  | tmvCqkStat
  | hifVersion
  | hifStat
  | hifFfCtl
  | hifFfStat
  | hifFfLost
  | hifFfSqsCfg
  | hifFfSqsBase
  | hifFfSqsHdr
  | hifFfSqsHdrHi
  | hifFfSqsStat
  | hifFfSqsInbox
  | hifFfSqsInboxIdx
  | hifFfSqsCount
  | hifFfCqcCfg
  | hifFfCqcBase
  | hifFfCqcStat
  | hifFfCqcHost
  | hifFfCqcCount
  | evcVersion
  | evcStat
  | evcSet
  | evcAck
  | evcClr
  | evcAlmt
  | evcQqProd
  | evcQqCons
  | evcQqHead0
  | evcQqHead1
  | evcQqPop
  | evcQqCount
  | evcSrciCfg
  | evcPendj
  | ethVersion
  | ethPtpStat
  | ethPtpOfsLo
  | ethPtpOfsHi
  | ethPpStat
  | ethPpMac
  | ethPpRx
  | ethPpTx
  | ethPpErr
  | ghdVersion
  | ghdState
  | ghdBoot
  | ghdBootCount
  | ghdLogSeq
  | ghdThrottle
  | ghdRailr
  | ghdTemps
  | fioVersion
  | fioCtl
  | fioStat
  | fioPcxScale
  | fioEncnCfg
  | fioEncnFlt
  | fioFinkCfg
  | fioFinkStat
  | fioOxCfg
  | fioOxStat
  | fioOxCur
  | fioOxCnt
  deriving DecidableEq, Repr

/-- Where a register lies and how its bits take a plain write (R4): `rw` bits store, `w1c` bits clear on 1, every other
bit ignores the write. -/
structure RegDesc where
  win : Nat
  off : Nat
  count : Nat
  stride : Nat
  rw : Nat
  w1c : Nat
  reset : Nat
  deriving DecidableEq, Repr

/-- The register tables of the chapters. -/
def regDesc : Reg → RegDesc
  | .sprVersion => ⟨1, 0x0, 1, 1, 0x0, 0x0, 0x10000⟩
  | .sprGlbCtl => ⟨1, 0x1, 1, 1, 0x1, 0x0, 0⟩
  | .sprEncnCfg => ⟨1, 0x10, 8, 1, 0xFFFFF3FF, 0x0, 0x14⟩
  | .sprEncnCount => ⟨1, 0x18, 8, 1, 0x0, 0x0, 0⟩
  | .sprEncnStat => ⟨1, 0x20, 8, 1, 0x0, 0x7, 0⟩
  | .sprEncnZcnt => ⟨1, 0x28, 8, 1, 0x0, 0x0, 0⟩
  | .sprAxnCtl => ⟨1, 0x100, 4, 64, 0x3FFF, 0x0, 0x1001⟩
  | .sprAxnStat => ⟨1, 0x101, 4, 64, 0x0, 0xC0000, 0⟩
  | .sprAxnPos => ⟨1, 0x102, 4, 64, 0x0, 0x0, 0⟩
  | .sprAxnVel => ⟨1, 0x103, 4, 64, 0x0, 0x0, 0⟩
  | .sprAxnAcc => ⟨1, 0x104, 4, 64, 0x0, 0x0, 0⟩
  | .sprAxnAmax => ⟨1, 0x105, 4, 64, 0xFFFFFFFF, 0x0, 0x8000⟩
  | .sprAxnJmax => ⟨1, 0x106, 4, 64, 0xFFFFFFFF, 0x0, 0x4189⟩
  | .sprAxnEdgeTol => ⟨1, 0x107, 4, 64, 0xFFFF, 0x0, 0x20⟩
  | .sprAxnVarLim => ⟨1, 0x108, 4, 64, 0xFFFF, 0x0, 0x400⟩
  | .sprAxnSecScale => ⟨1, 0x109, 4, 64, 0xFFFFFFFFFFFF, 0x0, 0x10000000000⟩
  | .sprAxnSlipWin => ⟨1, 0x10A, 4, 64, 0xFFFFFFFF, 0x0, 0x1000⟩
  | .sprAxnSlipTol => ⟨1, 0x10B, 4, 64, 0xFFFFFFFF, 0x0, 0x400⟩
  | .sprAxnStillNs => ⟨1, 0x10C, 4, 64, 0xFFFFFFFF, 0x0, 0x2faf080⟩
  | .sprAxnPreset => ⟨1, 0x10D, 4, 64, 0xFFFFFFFFFFFF, 0x0, 0⟩
  | .sprAxnCoastPos => ⟨1, 0x10E, 4, 64, 0x0, 0x0, 0⟩
  | .sprAxnCoastEnd => ⟨1, 0x10F, 4, 64, 0x0, 0x0, 0⟩
  | .sprAxnRejCnt => ⟨1, 0x110, 4, 64, 0x0, 0x0, 0⟩
  | .sprAxnSlipDiff => ⟨1, 0x111, 4, 64, 0x0, 0x0, 0⟩
  | .sprAxnLastEdge => ⟨1, 0x112, 4, 64, 0x0, 0x0, 0⟩
  | .sprTgnCfg => ⟨1, 0x1000, 64, 16, 0x7, 0x8, 0⟩
  | .sprTgnPitch => ⟨1, 0x1001, 64, 16, 0xFFFFFFFF, 0x0, 0x100⟩
  | .sprTgnPhase => ⟨1, 0x1002, 64, 16, 0xFFFFFFFF, 0x0, 0⟩
  | .sprTgnStagger => ⟨1, 0x1003, 64, 16, 0xFFFFFFFFFFFF, 0x0, 0⟩
  | .sprTgnMinInt => ⟨1, 0x1004, 64, 16, 0xFFFFF, 0x0, 0x3e8⟩
  | .sprTgnOut => ⟨1, 0x1005, 64, 16, 0xFFFFFFF, 0x0, 0x640000⟩
  | .sprTgnOfs => ⟨1, 0x1006, 64, 16, 0xFFFFFFFF, 0x0, 0⟩
  | .sprTgnCxp => ⟨1, 0x1007, 64, 16, 0xFF00, 0x0, 0⟩
  | .sprTgnLine => ⟨1, 0x1008, 64, 16, 0x0, 0x0, 0⟩
  | .sprTgnHwm => ⟨1, 0x1009, 64, 16, 0x0, 0x0, 0⟩
  | .sprTgnDrop => ⟨1, 0x100A, 64, 16, 0x0, 0x0, 0⟩
  | .sprTgnNext => ⟨1, 0x100B, 64, 16, 0x0, 0x0, 0⟩
  | .sprActkCfg => ⟨1, 0x2000, 16, 4, 0x7, 0x0, 0⟩
  | .sprActkPos => ⟨1, 0x2001, 16, 4, 0xFFFFFFFFFFFF, 0x0, 0⟩
  | .sprActkPush => ⟨1, 0x2002, 16, 4, 0x0, 0x0, 0⟩
  | .sprActkMissed => ⟨1, 0x2003, 16, 4, 0x0, 0x800000000000, 0⟩
  | .hlkVersion => ⟨2, 0x0, 1, 1, 0x0, 0x0, 0x10002⟩
  | .hlkCtl => ⟨2, 0x1, 1, 1, 0x3B, 0x0, 1⟩
  | .hlkStat => ⟨2, 0x2, 1, 1, 0x0, 0xE000000000, 0⟩
  | .hlkBeatSeq => ⟨2, 0x3, 1, 1, 0x0, 0x0, 0⟩
  | .hlkPathDelay => ⟨2, 0x4, 1, 1, 0x0, 0x0, 0⟩
  | .hlkPhaseErr => ⟨2, 0x5, 1, 1, 0x0, 0x0, 0⟩
  | .hlkLostBeats => ⟨2, 0x6, 1, 1, 0x0, 0x0, 0⟩
  | .hlkCommitStat => ⟨2, 0x7, 1, 1, 0x0, 0x80, 0⟩
  | .hlkApplyPos => ⟨2, 0x8, 1, 1, 0x0, 0x0, 0⟩
  | .hlkLatePos => ⟨2, 0x9, 1, 1, 0x0, 0x0, 0⟩
  | .hlkHerdSize => ⟨2, 0xA, 1, 1, 0x0, 0x0, 1⟩
  | .hlkAlertLast => ⟨2, 0xB, 1, 1, 0x0, 0x800000000000, 0⟩
  | .hlkArmLimit => ⟨2, 0xC, 1, 1, 0xFFFFFFFF, 0x0, 0xea60⟩
  | .hlkPortpCtl => ⟨2, 0x10, 4, 8, 0x5, 0x0, 5⟩
  | .hlkPortpStat => ⟨2, 0x11, 4, 8, 0x0, 0x800, 0⟩
  | .hlkPortpDelay => ⟨2, 0x12, 4, 8, 0x0, 0x0, 0⟩
  | .hlkPortpAsym => ⟨2, 0x13, 4, 8, 0xFFFF, 0x0, 0⟩
  | .hlkPortpRange => ⟨2, 0x14, 4, 8, 0x0, 0x0, 0⟩
  | .hlkPortpErr => ⟨2, 0x15, 4, 8, 0x0, 0x0, 0⟩
  | .hlkPortpPeer => ⟨2, 0x16, 4, 8, 0x0, 0x0, 0⟩
  | .cxiVersion => ⟨3, 0x0, 1, 1, 0x0, 0x0, 0x10000⟩
  | .cxiCtl => ⟨3, 0x1, 1, 1, 0xFF, 0x0, 0xa⟩
  | .cxiMisroute => ⟨3, 0x2, 1, 1, 0x0, 0x0, 0⟩
  | .cxiStgFree => ⟨3, 0x3, 1, 1, 0x0, 0x0, 0x1aaa0⟩
  | .cxiHdhCfg => ⟨3, 0x100, 64, 16, 0xFFFFF01, 0x4, 0x3400⟩
  | .cxiHdhWidth => ⟨3, 0x101, 64, 16, 0x7FFF, 0x0, 0x4000⟩
  | .cxiHdhStg => ⟨3, 0x102, 64, 16, 0x1FFFF01FFFF, 0x0, 0⟩
  | .cxiHdhCut => ⟨3, 0x103, 64, 16, 0x7F, 0x0, 8⟩
  | .cxiHdhLat => ⟨3, 0x104, 64, 16, 0xFFFFFFFFFFFF, 0x0, 0xf42400003e8⟩
  | .cxiHdhStat => ⟨3, 0x105, 64, 16, 0x0, 0x600, 0⟩
  | .cxiHdhLines => ⟨3, 0x106, 64, 16, 0x0, 0x0, 0⟩
  | .cxiHdhLoss => ⟨3, 0x107, 64, 16, 0x0, 0x0, 0⟩
  | .cxiHdhLast => ⟨3, 0x108, 64, 16, 0x0, 0x0, 0⟩
  | .cxiHdhRecq => ⟨3, 0x109, 64, 16, 0x0, 0x0, 0⟩
  | .cxiLklCfg => ⟨3, 0x1000, 64, 8, 0x3, 0x0, 1⟩
  | .cxiLklStat => ⟨3, 0x1001, 64, 8, 0x0, 0x20, 0⟩
  | .cxiLklErr => ⟨3, 0x1002, 64, 8, 0x0, 0x0, 0⟩
  | .cxiLklPcx => ⟨3, 0x1003, 64, 8, 0x0, 0x0, 0⟩
  | .cxiLklPcxLim => ⟨3, 0x1004, 64, 8, 0xFFFFFFFFF, 0x0, 0x3e825800f⟩
  | .cxiGrpgStat => ⟨3, 0x1400, 4, 1, 0x0, 0x0, 0⟩
  | .tfbClmk => ⟨6, 0x3E00, 128, 2, 0xBFFFFFFFFFFF, 0x400000000000, 0⟩
  | .tfbClmkHzn => ⟨6, 0x3E01, 128, 2, 0x0, 0x0, 0⟩
  | .tfbLbCtl => ⟨6, 0x3F00, 1, 1, 0xFFFF, 0x0, 0x2ab⟩
  | .tfbLbStat => ⟨6, 0x3F01, 1, 1, 0x0, 0x2, 0⟩
  | .tfbLbRefTiles => ⟨6, 0x3F02, 1, 1, 0x0, 0x0, 0x2ab000⟩
  | .tfbLbPool => ⟨6, 0x3F03, 1, 1, 0x0, 0x0, 0⟩
  | .tfbLbUnused => ⟨6, 0x3F04, 1, 1, 0x0, 0x0, 0⟩
  | .tfbLbVcnt => ⟨6, 0x3F05, 1, 1, 0x0, 0x0, 0⟩
  | .tfbLbAxaHzn => ⟨6, 0x3F08, 4, 1, 0x0, 0x0, 0⟩
  | .tfbLbhCfg => ⟨6, 0x4000, 64, 16, 0x1FFFF, 0x0, 0x100⟩
  | .tfbLbhDirBase => ⟨6, 0x4001, 64, 16, 0x0, 0x0, 0⟩
  | .tfbLbhNb => ⟨6, 0x4002, 64, 16, 0x0, 0x0, 0⟩
  | .tfbLbhTpb => ⟨6, 0x4003, 64, 16, 0x0, 0x0, 0⟩
  | .tfbLbhHznSeq => ⟨6, 0x4004, 64, 16, 0x0, 0x0, 0⟩
  | .tfbLbhHznPos => ⟨6, 0x4005, 64, 16, 0x0, 0x0, 0⟩
  | .tfbLbhNewSeq => ⟨6, 0x4006, 64, 16, 0x0, 0x0, 0⟩
  | .tfbLbhNewEnd => ⟨6, 0x4007, 64, 16, 0x0, 0x0, 0⟩
  | .tfbLbhStat => ⟨6, 0x4008, 64, 16, 0x0, 0xC, 0⟩
  | .tfbLbhHeld => ⟨6, 0x4009, 64, 16, 0x0, 0x0, 0⟩
  | .chmVersion => ⟨4, 0x0, 1, 1, 0x0, 0x0, 0x10000⟩
  | .chmCalCtl => ⟨4, 0x10, 1, 1, 0xFC3F, 0x0, 0xa000⟩
  | .chmCalStat => ⟨4, 0x11, 1, 1, 0x0, 0x0, 0⟩
  | .chmHdhCfg => ⟨4, 0x100, 64, 8, 0xFFFF0FFF80, 0x1, 0xc8000c00⟩
  | .chmHdhCoef => ⟨4, 0x101, 64, 8, 0x1FFFFF1FFFFF, 0x0, 0⟩
  | .chmHdhOut => ⟨4, 0x102, 64, 8, 0x7FFFFFFFFF, 0x0, 0x4000000000⟩
  | .chmHdhDark => ⟨4, 0x103, 64, 8, 0x3FFFFFFF, 0x0, 0⟩
  | .chmHdhDarkNow => ⟨4, 0x104, 64, 8, 0x0, 0x0, 0⟩
  | .chmHdhSeamMiss => ⟨4, 0x105, 64, 8, 0x0, 0x0, 0⟩
  | .cexVersion => ⟨5, 0x0, 1, 1, 0x0, 0x0, 0x10000⟩
  | .cexStat => ⟨5, 0x1, 1, 1, 0x0, 0x4, 0⟩
  | .cexLqProd => ⟨5, 0x2, 1, 1, 0x0, 0x0, 0⟩
  | .cexLqCons => ⟨5, 0x3, 1, 1, 0x1FFF, 0x0, 0⟩
  | .cexRqProd => ⟨5, 0x4, 1, 1, 0x0, 0x0, 0⟩
  | .cexRqCons => ⟨5, 0x5, 1, 1, 0x1FFF, 0x0, 0⟩
  | .cexWeak => ⟨5, 0x6, 1, 1, 0x0, 0x0, 0⟩
  | .cexErrs => ⟨5, 0x7, 1, 1, 0x0, 0x0, 0⟩
  | .cexPieces => ⟨5, 0x8, 1, 1, 0x0, 0x0, 0⟩
  | .cexMerge => ⟨5, 0x9, 1, 1, 0xFFFF, 0x0, 0x7d0⟩
  | .cexHdhStat => ⟨5, 0x100, 64, 4, 0x0, 0x0, 0⟩
  | .cexHdhExtSeq => ⟨5, 0x101, 64, 4, 0x0, 0x0, 0⟩
  | .cexHdhCand => ⟨5, 0x102, 64, 4, 0x0, 0x0, 0⟩
  | .cexPsHdh0 => ⟨5, 0x1000, 576, 8, 0x1FFFFFFFFFF, 0x0, 0x406800⟩
  | .cexPsHdh1 => ⟨5, 0x1001, 576, 8, 0xFFFFFFFFFFFF, 0x0, 0x80100080100⟩
  | .cexPsHdh2 => ⟨5, 0x1002, 576, 8, 0xFFFFFFFFFFFF, 0x0, 0x100000000004⟩
  | .cexPsHdh3 => ⟨5, 0x1003, 576, 8, 0xFFFFFFFFFFFF, 0x0, 0⟩
  | .ibxVersion => ⟨9, 0x0, 1, 1, 0x0, 0x0, 0x10000⟩
  | .ibxStat => ⟨9, 0x1, 1, 1, 0x0, 0x0, 0⟩
  | .ibxPendi => ⟨9, 0x10, 11, 1, 0x0, 0xFFFFFFFFFFFF, 0⟩
  | .ibxPpCfg => ⟨9, 0x20, 64, 1, 0x1, 0x0, 0⟩
  | .ibxChcCtl => ⟨9, 0x1000, 512, 8, 0x0, 0x0, 0⟩
  | .ibxChcCfg => ⟨9, 0x1001, 512, 8, 0x3F1FFFFF, 0x0, 0⟩
  | .ibxChcArg => ⟨9, 0x1002, 512, 8, 0xFFFFFFFFFFFF, 0x0, 0⟩
  | .ibxChcStat => ⟨9, 0x1003, 512, 8, 0x0, 0x1F00, 0⟩
  | .ibxChcCsw0 => ⟨9, 0x1004, 512, 8, 0x0, 0x0, 0⟩
  | .ibxChcCsw1 => ⟨9, 0x1005, 512, 8, 0x0, 0x0, 0⟩
  | .ibxChcPc => ⟨9, 0x1006, 512, 8, 0x0, 0x0, 0⟩
  | .ibxChcCmds => ⟨9, 0x1007, 512, 8, 0x0, 0x0, 0⟩
  | .ctlVersion => ⟨10, 0x0, 1, 1, 0x0, 0x0, 0x10000⟩
  | .ctlIsa => ⟨10, 0x1, 1, 1, 0x0, 0x0, 1⟩
  | .ctlCorekCtl => ⟨10, 0x10, 4, 4, 0x1, 0x0, 0⟩
  | .ctlCorekEntry => ⟨10, 0x11, 4, 4, 0xFFFFFFFFFF, 0x0, 0⟩
  | .ctlCorekDcause => ⟨10, 0x12, 4, 4, 0x0, 0x0, 0⟩
  | .ctlCorekDpc => ⟨10, 0x13, 4, 4, 0x0, 0x0, 0⟩
  | .hbcVersion => ⟨7, 0x0, 1, 1, 0x0, 0x0, 0x10000⟩
  | .hbcCtl => ⟨7, 0x1, 1, 1, 0xFFFF00000F30, 0x1, 0x300⟩
  | .hbcSsStat => ⟨7, 0x10, 4, 8, 0x0, 0x0, 0⟩
  | .hbcSsSev => ⟨7, 0x11, 4, 8, 0x0, 0x0, 0⟩
  | .hbcSsLast => ⟨7, 0x12, 4, 8, 0x0, 0x800000000000, 0⟩
  | .hbcSsRewr => ⟨7, 0x13, 4, 8, 0x0, 0x0, 0⟩
  | .hbcSsPar => ⟨7, 0x14, 4, 8, 0x0, 0x0, 0⟩
  | .hbcSsPatrol => ⟨7, 0x15, 4, 8, 0x0, 0x0, 0⟩
  | .hbcSsLanes => ⟨7, 0x16, 4, 8, 0x0, 0x0, 0⟩
  | .edcVersion => ⟨16, 0x0, 1, 1, 0x0, 0x0, 0x10000⟩
  | .edcCtl => ⟨16, 0x1, 1, 1, 0x10F, 0x200, 2⟩
  | .edcStResult => ⟨16, 0x2, 1, 1, 0x0, 0x0, 0⟩
  | .edcRrCnt => ⟨16, 0x10, 6, 4, 0x0, 0x0, 0⟩
  | .edcRrLast => ⟨16, 0x11, 6, 4, 0x0, 0x800000000000, 0⟩
  | .edcRrPwr => ⟨16, 0x12, 6, 4, 0x0, 0x0, 0⟩
  | .edcRrScrub => ⟨16, 0x13, 6, 4, 0x0, 0x0, 0⟩
  | .edcInjAddr => ⟨16, 0x30, 1, 1, 0xFFFFFFFFFF, 0x0, 0⟩
  | .edcInjData => ⟨16, 0x31, 1, 1, 0xFFFFFFFFFFFF, 0x0, 0⟩
  | .edcInjCtl => ⟨16, 0x32, 1, 1, 0x17F, 0x200, 0⟩
  | .tfbVersion => ⟨6, 0x0, 1, 1, 0x0, 0x0, 0x10000⟩
  | .tfbGrzCtl => ⟨6, 0x1, 1, 1, 0x0, 0x0, 0⟩
  | .tfbGrzStat => ⟨6, 0x2, 1, 1, 0x0, 0x6, 0xe000⟩
  | .tfbGrzPeriod => ⟨6, 0x3, 1, 1, 0x0, 0x0, 0⟩
  | .tfbArbPrior => ⟨6, 0x10, 23, 1, 0x7, 0x0, 0⟩
  | .tfbGrzcCfg => ⟨6, 0x40, 32, 1, 0x1, 0x0, 0⟩
  | .tfbGrzcUsed => ⟨6, 0x60, 32, 1, 0x0, 0x0, 0⟩
  | .tfbSlotaJ => ⟨6, 0x100, 64, 1, 0x3FFFFFFFFF, 0x0, 0x3f⟩
  | .tfbSlotbJ => ⟨6, 0x140, 64, 1, 0x3FFFFFFFFF, 0x0, 0x3f⟩
  | .tfbQuotaaC => ⟨6, 0x180, 32, 1, 0xFFF, 0x0, 0⟩
  | .tfbQuotabC => ⟨6, 0x1A0, 32, 1, 0xFFF, 0x0, 0⟩
  | .tmvVersion => ⟨8, 0x0, 1, 1, 0x0, 0x0, 0x10000⟩
  | .tmvStat => ⟨8, 0x1, 1, 1, 0x0, 0x0, 0⟩
  | .tmvDone => ⟨8, 0x2, 1, 1, 0x0, 0x0, 0⟩
  | .tmvErr => ⟨8, 0x3, 1, 1, 0x0, 0x0, 0⟩
  | .tmvCqkSubmit => ⟨8, 0x10, 5, 1, 0x0, 0x0, 0⟩
  | .tmvCqkStat => ⟨8, 0x18, 5, 1, 0x0, 0xE0, 0⟩
  | .hifVersion => ⟨12, 0x0, 1, 1, 0x0, 0x0, 0x10000⟩
  | .hifStat => ⟨12, 0x1, 1, 1, 0x0, 0x0, 0⟩
  | .hifFfCtl => ⟨12, 0x2, 2, 1, 0xFF3F, 0x0, 0x101000⟩
  | .hifFfStat => ⟨12, 0x4, 2, 1, 0x0, 0x0, 0⟩
  | .hifFfLost => ⟨12, 0x6, 2, 1, 0x0, 0x0, 0⟩
  | .hifFfSqsCfg => ⟨12, 0x1000, 128, 16, 0xFFFFFFFFC000, 0x4, 0⟩
  | .hifFfSqsBase => ⟨12, 0x1001, 128, 16, 0xFFFFFFFFFFFF, 0x0, 0⟩
  | .hifFfSqsHdr => ⟨12, 0x1002, 128, 16, 0xFFFFFFFFFFFF, 0x0, 0⟩
  | .hifFfSqsHdrHi => ⟨12, 0x1003, 128, 16, 0xFFFF, 0x0, 0⟩
  | .hifFfSqsStat => ⟨12, 0x1004, 128, 16, 0x0, 0x80000, 0⟩
  | .hifFfSqsInbox => ⟨12, 0x1005, 128, 16, 0xF0FFFFF, 0x0, 0⟩
  | .hifFfSqsInboxIdx => ⟨12, 0x1006, 128, 16, 0x7FF0000, 0x0, 0⟩
  | .hifFfSqsCount => ⟨12, 0x1007, 128, 16, 0x0, 0x0, 0⟩
  | .hifFfCqcCfg => ⟨12, 0x2000, 128, 16, 0xFFFFFFFC3C00, 0x4, 0⟩
  | .hifFfCqcBase => ⟨12, 0x2001, 128, 16, 0xFFFFFFFFFFFF, 0x0, 0⟩
  | .hifFfCqcStat => ⟨12, 0x2002, 128, 16, 0x0, 0x20000, 0⟩
  | .hifFfCqcHost => ⟨12, 0x2003, 128, 16, 0x0, 0x0, 0⟩
  | .hifFfCqcCount => ⟨12, 0x2004, 128, 16, 0x0, 0x0, 0⟩
  | .evcVersion => ⟨11, 0x0, 1, 1, 0x0, 0x0, 0x10000⟩
  | .evcStat => ⟨11, 0x1, 1, 1, 0x0, 0x7FF, 0⟩
  | .evcSet => ⟨11, 0x2, 1, 1, 0x0, 0x0, 0⟩
  | .evcAck => ⟨11, 0x3, 1, 1, 0x0, 0x0, 0⟩
  | .evcClr => ⟨11, 0x4, 1, 1, 0x0, 0x0, 0⟩
  | .evcAlmt => ⟨11, 0x8, 5, 1, 0xFFFFFFFFFFFF, 0x0, 0⟩
  | .evcQqProd => ⟨11, 0x10, 10, 8, 0x0, 0x0, 0⟩
  | .evcQqCons => ⟨11, 0x11, 10, 8, 0x1FF, 0x0, 0⟩
  | .evcQqHead0 => ⟨11, 0x12, 10, 8, 0x0, 0x0, 0⟩
  | .evcQqHead1 => ⟨11, 0x13, 10, 8, 0x0, 0x0, 0⟩
  | .evcQqPop => ⟨11, 0x14, 10, 8, 0x0, 0x0, 0⟩
  | .evcQqCount => ⟨11, 0x15, 10, 8, 0x0, 0x0, 0⟩
  | .evcSrciCfg => ⟨11, 0x400, 1024, 1, 0xEF1, 0x0, 0⟩
  | .evcPendj => ⟨11, 0x800, 22, 1, 0x0, 0x0, 0⟩
  | .ethVersion => ⟨13, 0x0, 1, 1, 0x0, 0x0, 0x10000⟩
  | .ethPtpStat => ⟨13, 0x1, 1, 1, 0x0, 0x0, 0⟩
  | .ethPtpOfsLo => ⟨13, 0x2, 1, 1, 0x0, 0x0, 0⟩
  | .ethPtpOfsHi => ⟨13, 0x3, 1, 1, 0x0, 0x0, 0⟩
  | .ethPpStat => ⟨13, 0x10, 2, 8, 0x0, 0x8, 0⟩
  | .ethPpMac => ⟨13, 0x11, 2, 8, 0x0, 0x0, 0⟩
  | .ethPpRx => ⟨13, 0x12, 2, 8, 0x0, 0x0, 0⟩
  | .ethPpTx => ⟨13, 0x13, 2, 8, 0x0, 0x0, 0⟩
  | .ethPpErr => ⟨13, 0x14, 2, 8, 0x0, 0x0, 0⟩
  | .ghdVersion => ⟨14, 0x0, 1, 1, 0x0, 0x0, 0x10000⟩
  | .ghdState => ⟨14, 0x1, 1, 1, 0x0, 0x0, 0⟩
  | .ghdBoot => ⟨14, 0x2, 1, 1, 0x0, 0x0, 0⟩
  | .ghdBootCount => ⟨14, 0x3, 1, 1, 0x0, 0x0, 0⟩
  | .ghdLogSeq => ⟨14, 0x4, 1, 1, 0x0, 0x0, 0⟩
  | .ghdThrottle => ⟨14, 0x5, 1, 1, 0x0, 0x0, 0⟩
  | .ghdRailr => ⟨14, 0x10, 11, 1, 0x0, 0x0, 0⟩
  | .ghdTemps => ⟨14, 0x20, 13, 1, 0x0, 0x0, 0⟩
  | .fioVersion => ⟨15, 0x0, 1, 1, 0x0, 0x0, 0x10000⟩
  | .fioCtl => ⟨15, 0x1, 1, 1, 0x1, 0x0, 1⟩
  | .fioStat => ⟨15, 0x2, 1, 1, 0x0, 0x0, 0⟩
  | .fioPcxScale => ⟨15, 0x3, 1, 1, 0xF, 0x0, 2⟩
  | .fioEncnCfg => ⟨15, 0x10, 8, 1, 0xF1, 0x0, 0xc1⟩
  | .fioEncnFlt => ⟨15, 0x18, 8, 1, 0x0, 0x1F0FFF0000, 0⟩
  | .fioFinkCfg => ⟨15, 0x20, 16, 1, 0x3FFFF, 0x0, 0x10a03⟩
  | .fioFinkStat => ⟨15, 0x30, 16, 1, 0x0, 0x1F0, 0⟩
  | .fioOxCfg => ⟨15, 0x100, 48, 4, 0xF03, 0x0, 0xa01⟩
  | .fioOxStat => ⟨15, 0x101, 48, 4, 0x0, 0x2F00, 0⟩
  | .fioOxCur => ⟨15, 0x102, 48, 4, 0x0, 0x0, 0⟩
  | .fioOxCnt => ⟨15, 0x103, 48, 4, 0x0, 0x0, 0⟩

/-- The registers of a window. -/
def regsOfWindow : Nat → List Reg
  | 1 => [.sprVersion, .sprGlbCtl, .sprEncnCfg, .sprEncnCount, .sprEncnStat, .sprEncnZcnt,
    .sprAxnCtl, .sprAxnStat, .sprAxnPos, .sprAxnVel, .sprAxnAcc, .sprAxnAmax,
    .sprAxnJmax, .sprAxnEdgeTol, .sprAxnVarLim, .sprAxnSecScale, .sprAxnSlipWin, .sprAxnSlipTol,
    .sprAxnStillNs, .sprAxnPreset, .sprAxnCoastPos, .sprAxnCoastEnd, .sprAxnRejCnt, .sprAxnSlipDiff,
    .sprAxnLastEdge, .sprTgnCfg, .sprTgnPitch, .sprTgnPhase, .sprTgnStagger, .sprTgnMinInt,
    .sprTgnOut, .sprTgnOfs, .sprTgnCxp, .sprTgnLine, .sprTgnHwm, .sprTgnDrop,
    .sprTgnNext, .sprActkCfg, .sprActkPos, .sprActkPush, .sprActkMissed]
  | 2 => [.hlkVersion, .hlkCtl, .hlkStat, .hlkBeatSeq, .hlkPathDelay, .hlkPhaseErr,
    .hlkLostBeats, .hlkCommitStat, .hlkApplyPos, .hlkLatePos, .hlkHerdSize, .hlkAlertLast,
    .hlkArmLimit, .hlkPortpCtl, .hlkPortpStat, .hlkPortpDelay, .hlkPortpAsym, .hlkPortpRange,
    .hlkPortpErr, .hlkPortpPeer]
  | 3 => [.cxiVersion, .cxiCtl, .cxiMisroute, .cxiStgFree, .cxiHdhCfg, .cxiHdhWidth,
    .cxiHdhStg, .cxiHdhCut, .cxiHdhLat, .cxiHdhStat, .cxiHdhLines, .cxiHdhLoss,
    .cxiHdhLast, .cxiHdhRecq, .cxiLklCfg, .cxiLklStat, .cxiLklErr, .cxiLklPcx,
    .cxiLklPcxLim, .cxiGrpgStat]
  | 4 => [.chmVersion, .chmCalCtl, .chmCalStat, .chmHdhCfg, .chmHdhCoef, .chmHdhOut,
    .chmHdhDark, .chmHdhDarkNow, .chmHdhSeamMiss]
  | 5 => [.cexVersion, .cexStat, .cexLqProd, .cexLqCons, .cexRqProd, .cexRqCons,
    .cexWeak, .cexErrs, .cexPieces, .cexMerge, .cexHdhStat, .cexHdhExtSeq,
    .cexHdhCand, .cexPsHdh0, .cexPsHdh1, .cexPsHdh2, .cexPsHdh3]
  | 6 => [.tfbClmk, .tfbClmkHzn, .tfbLbCtl, .tfbLbStat, .tfbLbRefTiles, .tfbLbPool,
    .tfbLbUnused, .tfbLbVcnt, .tfbLbAxaHzn, .tfbLbhCfg, .tfbLbhDirBase, .tfbLbhNb,
    .tfbLbhTpb, .tfbLbhHznSeq, .tfbLbhHznPos, .tfbLbhNewSeq, .tfbLbhNewEnd, .tfbLbhStat,
    .tfbLbhHeld, .tfbVersion, .tfbGrzCtl, .tfbGrzStat, .tfbGrzPeriod, .tfbArbPrior,
    .tfbGrzcCfg, .tfbGrzcUsed, .tfbSlotaJ, .tfbSlotbJ, .tfbQuotaaC, .tfbQuotabC]
  | 7 => [.hbcVersion, .hbcCtl, .hbcSsStat, .hbcSsSev, .hbcSsLast, .hbcSsRewr,
    .hbcSsPar, .hbcSsPatrol, .hbcSsLanes]
  | 8 => [.tmvVersion, .tmvStat, .tmvDone, .tmvErr, .tmvCqkSubmit, .tmvCqkStat]
  | 9 => [.ibxVersion, .ibxStat, .ibxPendi, .ibxPpCfg, .ibxChcCtl, .ibxChcCfg,
    .ibxChcArg, .ibxChcStat, .ibxChcCsw0, .ibxChcCsw1, .ibxChcPc, .ibxChcCmds]
  | 10 => [.ctlVersion, .ctlIsa, .ctlCorekCtl, .ctlCorekEntry, .ctlCorekDcause, .ctlCorekDpc]
  | 11 => [.evcVersion, .evcStat, .evcSet, .evcAck, .evcClr, .evcAlmt,
    .evcQqProd, .evcQqCons, .evcQqHead0, .evcQqHead1, .evcQqPop, .evcQqCount,
    .evcSrciCfg, .evcPendj]
  | 12 => [.hifVersion, .hifStat, .hifFfCtl, .hifFfStat, .hifFfLost, .hifFfSqsCfg,
    .hifFfSqsBase, .hifFfSqsHdr, .hifFfSqsHdrHi, .hifFfSqsStat, .hifFfSqsInbox, .hifFfSqsInboxIdx,
    .hifFfSqsCount, .hifFfCqcCfg, .hifFfCqcBase, .hifFfCqcStat, .hifFfCqcHost, .hifFfCqcCount]
  | 13 => [.ethVersion, .ethPtpStat, .ethPtpOfsLo, .ethPtpOfsHi, .ethPpStat, .ethPpMac,
    .ethPpRx, .ethPpTx, .ethPpErr]
  | 14 => [.ghdVersion, .ghdState, .ghdBoot, .ghdBootCount, .ghdLogSeq, .ghdThrottle,
    .ghdRailr, .ghdTemps]
  | 15 => [.fioVersion, .fioCtl, .fioStat, .fioPcxScale, .fioEncnCfg, .fioEncnFlt,
    .fioFinkCfg, .fioFinkStat, .fioOxCfg, .fioOxStat, .fioOxCur, .fioOxCnt]
  | 16 => [.edcVersion, .edcCtl, .edcStResult, .edcRrCnt, .edcRrLast, .edcRrPwr,
    .edcRrScrub, .edcInjAddr, .edcInjData, .edcInjCtl]
  | _ => []

/-- The word offset of register r, index i, in block register space. -/
def regKey (r : Reg) (i : Nat) : Nat :=
  (regDesc r).win * 65536 + (regDesc r).off + i * (regDesc r).stride

/-- The index that register r has at an offset of its window, if the offset is one of its places. -/
def regIndexAt (r : Reg) (off : Nat) : Option Nat :=
  let d := regDesc r
  if off < d.off then none
  else if (off - d.off) % d.stride ≠ 0 then none
  else if (off - d.off) / d.stride < d.count then some ((off - d.off) / d.stride) else none

/-- The register at an offset of a window, with its index (R15: none where no register is defined). (Log entry 13 DEDUCED.) -/
def regAt (win off : Nat) : Option (Reg × Nat) :=
  (regsOfWindow win).findSome? (fun r => (regIndexAt r off).map (fun i => (r, i)))

end Sys2Proof.Machine
end

