-- ==== Sys2Proof/Machine/Table.lean ====
section
/-! DEFINITION. Sparse tables: lists of key and value pairs with strictly rising keys. They hold the register file, the
memories and the numbered things of the block (links, heads, channels, sources, …); a key with no entry reads as the
default its reader names. `memPut` is the write of the memories: it lists no entry equal to the default, so equal
memories are equal lists. -/

namespace Sys2Proof.Machine

/-- A sparse table from numbers to values. -/
abbrev Table (α : Type) := List (Nat × α)

/-- The entry at a key. -/
def tfind {α : Type} : Table α → Nat → Option α
  | [], _ => none
  | (k, v) :: t, i => if k = i then some v else tfind t i

/-- The value at a key, or the default. -/
def tget {α : Type} (t : Table α) (d : α) (i : Nat) : α := (tfind t i).getD d

/-- Writing a key, keeping keys strictly rising. -/
def tset {α : Type} : Table α → Nat → α → Table α
  | [], i, a => [(i, a)]
  | (k, v) :: t, i, a =>
    if k = i then (i, a) :: t
    else if i < k then (i, a) :: (k, v) :: t
    else (k, v) :: tset t i a

/-- Removing a key. -/
def tdel {α : Type} : Table α → Nat → Table α
  | [], _ => []
  | (k, v) :: t, i => if k = i then t else (k, v) :: tdel t i

/-- Keys strictly rising. -/
def keysRising {α : Type} : Table α → Bool
  | [] => true
  | [_] => true
  | (k, _) :: (k', v') :: t => decide (k < k') && keysRising ((k', v') :: t)

/-- The memory write: the default is not listed. -/
def memPut {α : Type} [DecidableEq α] (d : α) (t : Table α) (i : Nat) (a : α) : Table α :=
  if a = d then tdel t i else tset t i a

/-- The canonical form of a memory: keys strictly rising and no entry equal to the default. -/
def memWf {α : Type} [DecidableEq α] (d : α) (t : Table α) : Bool :=
  keysRising t && t.all (fun e => decide (e.2 ≠ d))

end Sys2Proof.Machine
end

