-- ==== Sys2Proof/Machine/State.lean ====
section
/-! DEFINITION. The state of the BR4864 as plain data: the register file, the memories, the hidden state of every block, and
the queue of waiting commands; the state after reset; the reasons a step can stop. -/

namespace Sys2Proof.Machine

/-! ### Device states and power domains (01_line_to_candidate.md, 15_management_power.md) -/

/-- The device states (R22), in the order of their codes. -/
inductive DevState where
  | off | boot | selftest | train | ready | run | degraded | failed
  deriving DecidableEq, Repr

/-- What a power domain is at a moment (R23). -/
inductive DomState where
  | off | retained | on
  deriving DecidableEq, Repr

/-- The power states (R23, R600). -/
inductive PowerState where
  | run | standby | hibernate
  deriving DecidableEq, Repr

/-! ### Position domain (02_position_domain.md) -/

/-- The states of an axis or shadow tracker (R30). -/
inductive AxState where
  | idle | acquire | track | coast | fault
  deriving DecidableEq, Repr

/-- A tracker: the estimate of an axis on its active encoder, or of the shadow tracker on the other one. Velocity is
Q16.32 tk/ns and acceleration Q32.16 tk/ms², both signed (R33). -/
structure Tracker where
  st : AxState := .idle
  /-- position at the last accepted edge, or held -/
  p : P48 := 0
  v : Word := 0
  a : Word := 0
  /-- stamp of the last accepted edge -/
  t : Word := 0
  /-- stamp of the last edge of the encoder, for STILL_NS -/
  seen : Word := 0
  /-- direction of the last accepted edge -/
  fwd : Bool := true
  rejRun : Nat := 0
  /-- the edges of the current acquisition run, stamp and position, oldest first, at most 16 -/
  run : List (Word × P48) := []
  acqEdges : Nat := 0
  /-- stamp of ACQUIRE or COAST entry -/
  entered : Word := 0
  /-- position at COAST entry -/
  coastPos : P48 := 0
  /-- edges accepted in COAST after the first resumed one; none before it (R39) -/
  resumed : Option Nat := none
  deriving DecidableEq, Repr

/-- An axis: its estimate, its shadow tracker, and the offsets of its two encoders. -/
structure Axis where
  main : Tracker := {}
  shadow : Tracker := {}
  /-- axis count offset (R27, R49) -/
  offset : Word := 0
  /-- sec_offset, ticks -/
  secOffset : Word := 0
  onSec : Bool := false
  secBad : Bool := false
  everTrack : Bool := false
  cause : Nat := 0
  /-- PRESET was written 1 in this FAULT (R42) -/
  presetPend : Bool := false
  /-- raw counts of the two encoders at the start of the slip window (R45) -/
  slip : Option (Word × Word) := none
  deriving DecidableEq, Repr

/-- One line of an encoder input: the pin level, the stamp of its last crossing and the filtered level (R26). -/
structure EncLine where
  pin : Bool := false
  stamp : Word := 0
  filt : Bool := false
  deriving DecidableEq, Repr

/-- An encoder input: its three lines, the quadrature decoder's memory, and FIO's polarity checks. -/
structure EncIn where
  la : EncLine := {}
  lb : EncLine := {}
  lz : EncLine := {}
  /-- stamp of the last A or B transition that passed the filter (R28) -/
  last : Option Word := none
  /-- raw count at the previous rising Z, for Z_PERIOD (R29) -/
  zPrev : Option Word := none
  /-- stamp of the last rising Z -/
  zRise : Word := 0
  /-- levels of A and B since the last rising Z, with the stamp each level began, newest first (R613) -/
  zHist : List (Word × Bool × Bool) := []
  /-- counts since the last rising Z, and those with Z active (R614); none before the first -/
  zCounts : Option (Nat × Nat) := none
  /-- the levels and length of the run of mismatches (R613) -/
  zMiss : Nat × Nat := (0, 0)
  /-- net counts since a standstill of 50 ms, while the direction check runs (R615) -/
  dirNet : Option Int := none
  deriving DecidableEq, Repr

/-- A pulse due at an output. -/
structure Pulse where
  start : Word
  width : Nat
  /-- the active level, true for P high -/
  level : Bool
  deriving DecidableEq, Repr

/-- A fire fixed under R54 or R645: its time, its point and line number, the axis state, the settings in force when it was
fixed, and the pitch of its grid; `counted` when the point has already been passed in NEXT and HWM. -/
structure FixedFire where
  time : Word
  line : Word
  pos : P48
  st : AxState
  counted : Bool
  cxp : Word
  out : Word
  pitch : Word
  deriving DecidableEq, Repr

/-- The hidden state of a trigger generator: the fires fixed and still to come, in order of time, the time of the last fire
that took place, and whether NEXT takes the new grid of a commit once the fixed fires have taken place (R64). -/
structure Gen where
  fixed : List FixedFire := []
  lastFire : Option Word := none
  regrid : Bool := false
  deriving DecidableEq, Repr

/-- An entry of an actuator scheduler (R65); `late` while the axis is past it without having reached it for a fire (R67). -/
structure ActEntry where
  pos : P48
  widthUs : Nat
  level : Bool
  late : Bool := false
  deriving DecidableEq, Repr

/-- A trigger record (R58). -/
structure TrigRecord where
  gen : Nat
  line : Word
  pos : P48
  st : AxState
  time : Word
  deriving DecidableEq, Repr

/-- The position domain: encoder inputs, axes, generators, actuator queues. -/
structure SprState where
  enc : Table EncIn := []
  axes : Table Axis := []
  gens : Table Gen := []
  acts : Table (List ActEntry) := []
  deriving DecidableEq, Repr

/-! ### Herd Link (03_herd_link.md) -/

/-- A port's hidden state: the step of R76 while it trains, when the step began and when the next HELLO is due, when training
failed, what the peer's HELLO said, the peer's number and depth where known, the last delay results (1/64 ns, newest first),
when the last probe left, the ranges moved to the port under R122, and the devices below it. -/
structure HlkPort where
  step : Nat := 1
  stepAt : Word := 0
  helloAt : Option Word := none
  failedAt : Option Word := none
  peer : Option HelloMsg := none
  joined : Option (Nat × Nat) := none
  delays : List Int := []
  probeAt : Word := 0
  /-- ranges moved here; ranges moved on from here whose ROUTE_DROP is still to come; numbers moved away from here (R122) -/
  moved : List MovedRange := []
  old : List MovedRange := []
  dropped : List MovedRange := []
  members : List HerdMember := []
  /-- the former upstream, not an alternative until the next enumeration (R122) -/
  retired : Bool := false
  deriving DecidableEq, Repr

/-- An enumeration this device carries out: ports still to visit, the port visited, the next number (R80). -/
structure EnumRun where
  todo : List Nat
  cur : Option Nat
  base : Nat
  next : Nat
  deriving DecidableEq, Repr

/-- The lead's commit (R97–R104). -/
inductive LeadPhase where
  /-- the next beat is the first PREPARE -/
  | start
  | prepare
  | armed
  /-- beats with APPLYING still to compose, APPLY_SEQ known -/
  | applying (wave : Nat)
  /-- ARMED beats after the last APPLYING one still to compose -/
  | trailing (left : Nat)
  | cancel (left : Nat)
  deriving DecidableEq, Repr

/-- The commit that the lead runs: the request, epoch, SEQ of the PREPARE beat, number of waves less one, when ARMED was
composed, APPLY_SEQ and POS of the first APPLYING beat, and the result. -/
structure LeadCommit where
  req : CommitReq
  epoch : BitVec 16
  phase : LeadPhase := .start
  prepSeq : BitVec 16 := 0
  lastWave : Nat := 0
  /-- stamp of the ARMED beat's composition, once composed -/
  armedAt : Option Word := none
  applySeq : BitVec 16 := 0
  applyPos : P48 := 0
  /-- COMMIT_DONE has been sent -/
  told : Bool := false
  /-- the axis CAXIS has entered FAULT while ARMED (R104) -/
  faulted : Bool := false
  status : BitVec 8 := 0
  sub : BitVec 8 := 0
  deriving DecidableEq, Repr

/-- A vote being gathered (R101): the own result and what the children said, the children still awaited, and the SEQ of the
PREPARE beat. -/
structure VoteRun where
  acc : VoteMsg
  waiting : List Nat
  prepSeq : BitVec 16
  sent : Bool := false
  deriving DecidableEq, Repr

/-- The commit set frozen here (R99, R105): its epoch and CAXIS, the waves applied so far, and, once learned, the instant of
wave 0, LAST_WAVE and the POS that beat APPLY_SEQ carried. -/
structure FrozenCommit where
  epoch : BitVec 16
  caxis : BitVec 2 := 0
  waves : Nat := 0
  start : Option Word := none
  lastWave : Nat := 0
  pos : Option P48 := none
  deriving DecidableEq, Repr

/-- HLK beyond its registers. -/
structure HlkState where
  ports : Table HlkPort := []
  /-- good beats received whose instant is still ahead, oldest first -/
  beats : List Beat := []
  /-- the last beat whose instant has come -/
  lastBeat : Option Beat := none
  /-- SEQ and instant of the last beat received or composed -/
  lastSeq : BitVec 16 := 0
  /-- the lead instant of the next beat expected -/
  expect : Option Word := none
  missed : Nat := 0
  goodRun : Nat := 0
  /-- the device holds a number from ENUM or R83 -/
  numbered : Bool := false
  /-- local less lead time at the last good beat, 1/64 ns (R91), and whether one has come since LOST was entered -/
  phase : Int := 0
  goodInLost : Bool := false
  /-- good beats on the alternative upstream since the last good one on the upstream (R121) -/
  altGood : Nat := 0
  enumRun : Option EnumRun := none
  commit : Option LeadCommit := none
  held : Option CommitReq := none
  lastDone : BitVec 16 := 0
  lastEpoch : BitVec 16 := 0
  votes : Option VoteRun := none
  frozen : Option FrozenCommit := none
  /-- the epoch whose CANCEL has been seen -/
  cancelled : Option (BitVec 16) := none
  /-- steering of the fine timing clock in parts in 10^9, and what it has gathered towards the next nanosecond (R92) -/
  steer : Int := 0
  steerAcc : Int := 0
  /-- lines triggered in these spans carry STRADDLE: from, and to once it has ended (R106, R107) -/
  straddle : List (Word × Option Word) := []
  /-- Goatherd has loaded the stored configuration: HERD_STATE is valid -/
  valid : Bool := false
  deriving DecidableEq, Repr

/-! ### CoaXPress ingest (04_camera_ingest.md) -/

/-- A CXP trigger packet waiting for its link (R141): the fire time, and its edge. -/
structure TrigPkt where
  fire : Word
  rising : Bool
  deriving DecidableEq, Repr

/-- A line in a head's descriptor queue (R152, R154, R155): what its descriptor says, its slot in the region, how far it is
staged, and how far Chamois is with it. -/
structure StgLine where
  line : Word
  pos : P48
  fire : Word
  ast : AxState
  lost : Bool := false
  part : Bool := false
  poison : Bool := false
  fallback : Bool := false
  cause : Nat := 0
  vb : Nat := 0
  words : Nat := 0
  slot : Option Nat := none
  /-- DAS address of the slot's first word, the camera's WIDTH, and how often the head had left RUN when the line began -/
  addr : Nat := 0
  width : Nat := 0
  exit : Nat := 0
  /-- pixels staged so far -/
  pixels : Nat := 0
  ended : Bool := false
  /-- counted in the head's tally: passed to Chamois in order (R310) -/
  passed : Bool := false
  started : Bool := false
  done : Bool := false
  deriving DecidableEq, Repr

/-- The line being received: payload bits not yet a pixel, pixels of the word being filled (first plane, second, third),
and whether the rest of the line is discarded. -/
structure CurLine where
  carry : Nat := 0
  carryBits : Nat := 0
  carryBad : Bool := false
  acc : Nat × Nat × Nat := (0, 0, 0)
  accBad : Bool := false
  /-- pixels received, WIDTH at most -/
  pixels : Nat := 0
  stopped : Bool := false
  deriving DecidableEq, Repr

/-- An item of a head's message FIFO (R146): its entry in program and ring memory, the bytes held, and TRUNC. -/
structure MsgItem where
  slot : Nat
  bytes : Nat
  trunc : Bool
  deriving DecidableEq, Repr

/-- A control request outstanding to a camera (R144, R145). -/
structure CtrlReq where
  req : ControlReq
  sent : Word
  resends : Nat := 0
  deriving DecidableEq, Repr

/-- The response to a control request: status code, sub-code, the camera's acknowledgement code, and read data. -/
structure CtrlResp where
  status : Nat
  sub : Nat
  ack : Nat
  data : List Byte
  deriving DecidableEq, Repr

/-- How far the discovery of a head is (R139). -/
inductive DiscPhase where
  | reading | configuring | retraining
  deriving DecidableEq, Repr

/-- The hidden state of a head. -/
structure CxiHead where
  /-- the RGB8 head that this one holds, or last held, a plane of (R132) -/
  plane : Option Nat := none
  /-- trigger records not yet paired, oldest first -/
  records : List TrigRecord := []
  lines : List StgLine := []
  nextSlot : Nat := 0
  cur : Option CurLine := none
  /-- stream data is discarded until the next line marker or image header (R147, R150) -/
  discard : Bool := false
  /-- the image's pixel format differs from FORMAT (R149) -/
  imageBad : Bool := false
  /-- the tag expected next, once one has been seen, and the packets held for reordering with their arrival -/
  nextTag : Option (BitVec 8) := none
  held : List (StreamPacket × Nat × Word) := []
  phase : DiscPhase := .reading
  discStart : Word := 0
  /-- when the last poll of the discovery was sent (R139) -/
  polledAt : Option Word := none
  faultAt : Word := 0
  version : Nat := 0
  ctrl : Option CtrlReq := none
  resp : Option CtrlResp := none
  timeoutMs : Nat := 200
  msgs : List MsgItem := []
  /-- the entry the next event packet takes (R146, R287) -/
  nextMsg : Nat := 0
  /-- lines seen, and the count at the last event of each cause (R170) -/
  ordinal : Nat := 0
  lossAt : Table Nat := []
  /-- the line tally a channel started: damaged, and the mask of causes, oldest first (R310) -/
  tally : Option (List (Bool × Nat)) := none
  /-- how often the head has left RUN (R310) -/
  exits : Nat := 0
  /-- CUT and LAT of a commit, waiting for the next line start (R176) -/
  later : Option (Word × Word) := none
  deriving DecidableEq, Repr

/-- The hidden state of a link: PoCXP supervision, the time PCX_STATE became ON, the time the link went DOWN, the camera's
discovery answer, and its trigger acknowledge packets (R128). -/
structure CxiLink where
  pcxAt : Word := 0
  pcxFails : Nat := 0
  pcxFailAt : Word := 0
  onAt : Word := 0
  downAt : Word := 0
  answer : Option (Nat × Nat × Nat) := none
  trigAcks : Nat := 0
  deriving DecidableEq, Repr

/-- CXI: heads, links, the trigger packets waiting on each link, and the last heartbeat. -/
structure CxiState where
  heads : Table CxiHead := []
  links : Table CxiLink := []
  trigQ : Table (List TrigPkt) := []
  lastHb : Word := 0
  deriving DecidableEq, Repr

/-! ### What leaves the block -/

/-- A packet on an upconnection of a CXP link. -/
inductive CxpPkt where
  | trigger (rising : Bool) (delay : Nat)
  | heartbeat (time : Word)
  | discoveryRead
  | connConfig (links speed packetLimit : Nat)
  | control (req : ControlReq)
  | eventAck
  deriving DecidableEq, Repr

/-- What leaves the block, in order: the model's own record of it. -/
inductive OutMsg where
  | cxp (link : Nat) (p : CxpPkt)
  | hlk (port : Nat) (m : HlkMsg)
  /-- bytes written into the memory of a function's host -/
  | hostWrite (f : Nat) (addr : Nat) (bytes : List Byte)
  | msix (f vec : Nat) (addr : BitVec 64) (data : BitVec 32)
  | ethFrame (port : Nat) (x : EthPayload)
  deriving DecidableEq, Repr

/-! ### Look-back (05_lookback_memory.md) -/

/-- A line as TFB builds tiles of it: its number, material position and fire, the output pixels (0 is no data) and the raw
pixels, and the column blocks of each plane that hold a poisoned pixel or one not received. -/
structure BandLine where
  line : Word
  pos : P48
  fire : Word
  px : List Nat
  raw : List Nat := []
  poison : List Nat := []
  short : List Nat := []
  rawPoison : List Nat := []
  rawShort : List Nat := []
  unest : Bool := false
  straddle : Bool := false
  /-- how often the head had left RUN when the line began (R185) -/
  exit : Nat := 0
  deriving DecidableEq, Repr

/-- A band being formed or written: its sequence number S, B, its lines by slot, rising, and its HORIZON flag (R202). -/
structure Band where
  s : Nat
  b : Nat
  lines : List BandLine := []
  horizon : Bool := false
  /-- its first line began a position epoch (R188) -/
  epoch : Bool := false
  deriving DecidableEq, Repr

/-- A band whose tiles are written and whose directory entry waits for BAND_COMPLETE (R187): S, the entry, and the material
position of its last line. -/
structure BandDone where
  s : Nat
  w0 : Word
  w1 : Word
  lastPos : P48
  /-- line numbers whose raw tiles were written with the band (R219) -/
  raw : List Word := []
  /-- the last band before the head left RUN: its entry takes the directory tile to HBM (R190) -/
  leaves : Bool := false
  deriving DecidableEq, Repr

/-- The hidden state of a head's ring: the open band, the bands whose entries wait, the last line of the last band formed,
the next S, the open directory tile with the lap of its newest entry and whether it differs from HBM (R190, R196), the plane bases, the OUT_W in force (R242), and
whether a complete band is held. -/
structure TfbHead where
  cur : Option Band := none
  done : List BandDone := []
  lastPos : Option P48 := none
  lastLine : Option Word := none
  nextS : Nat := 0
  dirIndex : Option Nat := none
  dirWords : Table Word := []
  dirGen : Nat := 0
  dirty : Bool := false
  imgBase : Nat := 0
  rawBase : Nat := 0
  outW : Nat := 16384
  held : Bool := false
  /-- how often the head had left RUN for the bands formed so far (R185) -/
  exit : Nat := 0
  /-- fire times of the lines of each band by slot, for the bands from the horizon on, and the bands that began a position epoch:
  what extraction applies to the lines of a band it reads again (R188, R242, R253, R265, R284) -/
  fires : Table (List (Nat × Word)) := []
  epochs : List Nat := []
  deriving DecidableEq, Repr

/-- Who holds a claim of its own (R201): a query in service, a running retro job's head, a head in CATCHUP. -/
inductive ClaimOwner where
  | query (id : Nat)
  | retro (slot head : Nat)
  | catchup (head : Nat)
  deriving DecidableEq, Repr

/-- A claim of a query, a retro job or catch-up: head, S, and once it is lost the HZN_POS recorded and FIRST_POS of its
band. -/
structure InnerClaim where
  owner : ClaimOwner
  head : Nat
  s : Nat
  lost : Option P48 := none
  first : P48 := 0
  deriving DecidableEq, Repr

/-- Who sent a region query. -/
inductive QuerySrc where
  /-- object 6300h -/
  | dict
  /-- the QUERY command of a channel -/
  | channel (c : Nat)
  /-- a submission entry: function, ring, entry number -/
  | ring (f s n : Nat)
  deriving DecidableEq, Repr

/-- A part of a query (R207, R208, R210): device, head or reference, first and last column of the head, first and last S, and
the lateral coordinate of its first column. -/
structure QueryPart where
  dev : Nat
  head : Nat
  col0 : Nat
  col1 : Nat
  s0 : Nat
  s1 : Nat
  lat : Nat := 0
  deriving DecidableEq, Repr

/-- Tiles asked of another device for a part of a query (R116, R207): the part's number, the request, whether it has been
sent, the tiles received, the status once ended with a position, and the HORIZON sub-code and position on which it was asked once more. -/
structure RemoteReq where
  query : Nat
  part : Nat
  req : TileReq
  /-- END of the part; a request asks for part of the range (R116) -/
  stop : P48 := 0
  sent : Bool := false
  tiles : List TileData := []
  ended : Option (Nat × P48) := none
  again : Option (Nat × P48) := none
  deriving DecidableEq, Repr

/-- A query in the queue or in service: its descriptor, whether it is in service, since when it waits for END, and the parts
once resolved, with the HORIZON and SHORT outcomes met so far. -/
structure Query where
  id : Nat
  src : QuerySrc
  words : List Word
  cls : Nat := 5
  service : Bool := false
  waiting : Option Word := none
  timedOut : Bool := false
  /-- QUERY_END_HELD has come: END is held on the remote parts too (R208) -/
  endHeld : Bool := false
  resolved : Bool := false
  parts : List QueryPart := []
  horizon : Option (Nat × P48) := none
  short : Option Nat := none
  refused : Option (Nat × Nat) := none
  /-- the outcome of a directory tile that failed a check while the query was resolved (R198) -/
  fail : Option (Nat × Nat) := none
  /-- FIRST_POS of the first band not delivered, where that outcome left nothing to deliver (R212) -/
  missed : Option P48 := none
  deriving DecidableEq, Repr

/-- The look-back: heads, claims, queries, references being loaded (the distinct tiles written since the define), and the
result of 6300h. -/
structure TfbState where
  heads : Table TfbHead := []
  inner : List InnerClaim := []
  queries : List Query := []
  nextQuery : Nat := 0
  remote : List RemoteReq := []
  nextTag : Nat := 0
  /-- tags of requests that are outstanding though their query has ended (R115) -/
  orphans : List (BitVec 16) := []
  refTiles : Table (List Nat) := []
  /-- the words that 6300h.2 holds, and 6300h.3 -/
  dictLen : Nat := 0
  dictState : Nat := 0
  /-- a full layout waits for PD22 to come back (R123, R183) -/
  layoutDue : Bool := false
  /-- a layout has been made since reset or HIBERNATE -/
  laidOut : Bool := false
  /-- the device has been in service since reset or HIBERNATE (R183) -/
  served : Bool := false
  deriving DecidableEq, Repr

/-! ### Chamois and candidate extraction (06_correction_extraction.md) -/

/-- A corrected pixel: its value, or why it is no data: not received, poisoned or uncorrectable, or without neighbours to
replace a defect (R235, R240). -/
inductive Pix where
  | val (v : Nat)
  | missing
  | bad
  | lone
  deriving DecidableEq, Repr

/-- A line behind stage S that waits for its seams: the descriptor, y16 by output column, its output base, raw pixels, when
it ended, and the seams still open. -/
structure ChmLine where
  src : StgLine
  y : List Pix
  /-- column blocks with pixels of the head's own camera not received, and poisoned or uncorrectable (R197, R235) -/
  short : List Nat := []
  poison : List Nat := []
  base : Nat
  outW : Nat
  raw : List Pix := []
  endedAt : Word
  leftOpen : Bool := false
  rightOpen : Bool := false
  deriving DecidableEq, Repr

/-- The hidden state of Chamois for a head: whether DARK_LINE starts afresh, lines waiting for seams, the last line number
behind stage S, and the line count at the last CHM_SEAM. -/
structure ChmHead where
  fresh : Bool := true
  exit : Nat := 0
  waiting : List ChmLine := []
  last : Option Word := none
  missAt : Option Nat := none
  count : Nat := 0
  deriving DecidableEq, Repr

/-- A run of members of one polarity on one line of one tile (R258, R259): Σ|e| and the largest |e|. -/
structure Run where
  head : Nat
  k : Nat
  pos : P48
  /-- when the line was fired -/
  fire : Word := 0
  x0 : Nat
  x1 : Nat
  bright : Bool
  seed : Bool
  sumE : Nat
  peak : Nat
  flags : Nat
  deriving DecidableEq, Repr

/-- What a received PIECE brings (R268): first line number, span, lateral range, sums, and its edge runs at column LAT_LO. -/
structure PiecePart where
  k0 : Nat
  k1 : Nat
  pos0 : P48
  pos1 : P48
  lo : Nat
  hi : Nat
  area : Nat
  peak : Nat
  contrast : Nat
  sumK : Nat
  sumX : Nat
  /-- first line number and length of each run at column lo -/
  edge : List (Nat × Nat)
  /-- head of the sending device, and the head here that owns the column to the left -/
  head : Nat
  near : Nat
  deriving DecidableEq, Repr

/-- A piece (R259): its runs and received parts; the flags set on it as a whole; heads whose extraction ended it; whether
its remote boundaries are settled by R270; since when it is complete but for those. -/
structure Piece where
  num : Nat
  /-- slot of the retro job; none for live work -/
  job : Option Nat
  set : Nat
  tag : Nat
  bright : Bool
  runs : List Run
  parts : List PiecePart := []
  flags : Nat := 0
  closed : List Nat := []
  settled : Bool := false
  readyAt : Option Word := none
  deriving DecidableEq, Repr

/-- The background of a head (R255, R256): B by column, k_start, the parameter words of the line before (words 0 and 3), the
last line number extracted, and whether the next line restarts it. -/
structure ExtHead where
  bg : Table Int := []
  kStart : Nat := 0
  prev : Option (Word × Word) := none
  lastK : Option Nat := none
  restart : Bool := true
  /-- up to which position PROGRESS may promise (R269) -/
  lastPos : P48 := 0
  /-- bands whose first line is the first after the head entered RUN (R256) -/
  entries : List Nat := []
  deriving DecidableEq, Repr

/-- The states of a retro job slot (6200h.2). -/
inductive JobState where
  | free | queued | running | done
  deriving DecidableEq, Repr

/-- A retro job (R220–R226): descriptor, parameter words copied at its start, where each head stands (next S and last S),
and what it reports. -/
structure RetroJob where
  st : JobState := .free
  words : List Word := []
  order : Nat := 0
  params : Table Word := []
  heads : Table ExtHead := []
  /-- head, next S, last S; none for a FOLLOW job's open end -/
  todo : List (Nat × Nat × Option Nat) := []
  /-- heads on which START is still to come (R223) -/
  unstarted : List Nat := []
  progress : P48 := 0
  skipStart : Option P48 := none
  skipEnd : Option P48 := none
  skipping : Bool := false
  bad : List Nat := []
  status : Nat := 0
  sub : Nat := 0
  count : Nat := 0
  deriving DecidableEq, Repr

/-- Candidate extraction: heads, pieces, records held behind a full queue, serial numbers, settled boundaries. -/
structure CexState where
  heads : Table ExtHead := []
  pieces : List Piece := []
  forwarded : List Piece := []
  nextPiece : Nat := 0
  heldRecs : List (List Word) := []
  /-- retro records behind a full retro queue (R277) -/
  heldRetro : List (List Word) := []
  liveSerial : Nat := 0
  retroSerial : Nat := 0
  /-- words of the lateral map in force, and the words before a commit with its instant (R265) -/
  mapLen : Nat := 0
  mapHist : List (Word × List Word) := []
  /-- PROGRESS received across the boundary above a coordinate: SET, TAG, LAST_POS -/
  progress : List (Nat × Nat × Nat × P48) := []
  /-- edge lines of pieces that left without their right neighbours (R270, R271): coordinate, polarity, SET, TAG, line -/
  late : List (Nat × Bool × Nat × Nat × Nat) := []
  jobs : Table RetroJob := []
  nextOrder : Nat := 0
  /-- ends of finished jobs not yet reported: producer index of the retro queue, status, sub-code, TAG (R318) -/
  jobEnds : List (Nat × Nat × Nat × Nat) := []
  skips : Nat := 0
  lostAtStandby : Nat := 0
  deriving DecidableEq, Repr

/-- Chamois: its heads, and its accumulation. -/
structure ChmState where
  heads : Table ChmHead := []
  /-- HEAD, MODE and LOG2N of the accumulation begun last (R251) -/
  cal : Nat × Nat × Nat := (0, 0, 0)
  deriving DecidableEq, Repr

/-! ### Channels (07_channels.md) -/

/-- The resources that at most one channel owns (R324). -/
inductive Resource where
  | tally (head : Nat)
  | msgFifo (head : Nat)
  | oneShot (out : Nat)
  | scheduler (k : Nat)
  deriving DecidableEq, Repr

/-- The destination of a stream (R312): words of SRAM at an address, host memory of a function, or reference tiles from a
tile number. -/
inductive Dest where
  | sram (addr : Nat)
  | host (f : Nat) (addr : Nat)
  | tiles (q : Nat)
  deriving DecidableEq, Repr

/-- A command in progress on a channel, with what it waits for (R292). -/
inductive ChanOp where
  | poswait (axis : Nat) (pos : P48)
  | waitev (src : Nat)
  /-- `fixed` is the fire time once the pulse is certain (R54) -/
  | fire (axis out : Nat) (pos : P48) (w1 : Word) (fixed : Option Word)
  /-- `exits` is how often the head had left RUN when the command started -/
  | lines (head count exits : Nat)
  | bandwait (head : Nat) (pos : P48)
  | qtake (retro : Bool) (count dest : Nat)
  | move (src n : Nat)
  | query (id : Nat)
  deriving DecidableEq, Repr

/-- A channel's command in progress: the operation, its opcode and word, when it started, and the status and sub-code that a
FAULT of its axis has brought it (R302, R308). -/
structure ChanRun where
  op : ChanOp
  code : Nat
  w : ChWord
  since : Word
  cut : Option (Nat × Nat) := none
  deriving DecidableEq, Repr

/-- A gather in progress (R296): the destination, whether a trailer follows, the words that ran, data words delivered and
the CRC over them, words counted as placed, units missing, a stop by a COUNT limit, and DRY. -/
structure Gather where
  dest : Option Dest := none
  trailer : Bool := false
  n : Nat := 0
  data : List Word := []
  placed : Nat := 0
  resid : Nat := 0
  limited : Bool := false
  /-- some word of it did not run dry -/
  wet : Bool := false
  deriving DecidableEq, Repr

/-- A channel beyond its registers: the command in progress, the gather open, the rest of a failed gather to be passed over,
a hold already taken, a SUSPEND waiting for its boundary, and the ring a RING_FULL waits for. -/
structure Chan where
  run : Option ChanRun := none
  gather : Option Gather := none
  skip : Bool := false
  noHold : Bool := false
  suspReq : Bool := false
  ring : Option (Nat × Nat) := none
  deriving DecidableEq, Repr

/-- What a query of a channel answers, once it has ended: words, status and sub-code. -/
structure QueryDone where
  id : Nat
  words : List Word
  status : Nat
  sub : Nat
  deriving DecidableEq, Repr

/-- The channel processors: channels, and the queries of channels that have ended. -/
structure IbxState where
  chans : Table Chan := []
  done : List QueryDone := []
  deriving DecidableEq, Repr

/-! ### Processors (08_instruction_set.md) -/

/-- A processor context: w1–w31 and the alternate bank, the program counter, the hidden repeat counter while a repeat is in
progress, the special registers written, the start of CYCLE, and Goatherd waiting in WFE. -/
structure Proc where
  w : Table Word := []
  alt : Table Word := []
  pc : Word := 0
  rep : Option Nat := none
  sp : Table Word := []
  /-- the ns that its clock had run when the core was released -/
  released : Nat := 0
  waiting : Bool := false
  deriving DecidableEq, Repr

/-! ### Memories (01_line_to_candidate.md R11, 10_memory_integrity.md) -/

/-- A stored SRAM word: 48 data bits and the check field of R418. -/
structure MemWord where
  data : Word
  chk : BitVec 7
  deriving DecidableEq, Repr

/-- What every SRAM word reads as until something is stored in it: data 0 with check field 00h (R420, R427). -/
def MemWord.blank : MemWord := { data := 0, chk := 0 }

/-- A stored HBM tile: 512 words (the unlisted ones 0), the Velvet tag, and the severity class its reads report (R408). -/
structure Tile where
  words : Table Word := []
  tag : BitVec 64 := 0x80
  sev : Nat := 0
  /-- the class that a read of the tag alone reports: of its first four bursts (R407, R408) -/
  tagSev : Nat := 0
  deriving DecidableEq, Repr

/-- What every HBM tile holds until something writes it: words 0 and the tag of pass 6 of the pattern test (R416). -/
def Tile.blank : Tile := {}

/-- The HBM controllers and EDC: rewrites queued, newest last, the tiles with good on-die reads reported since the last
event, corrected errors of the current second, and the start of the current second and millisecond counts. -/
structure HbcState where
  /-- the queued rewrites of each stack, by the tiles' places (R410) -/
  rewrites : Table (List Nat) := []
  /-- stamp of the last EDC_SRAM_CE of each region, and of the last EDC_HBM_CE of each stack (R433) -/
  lastSramCe : Table Word := []
  lastHbmCe : Table Word := []
  /-- corrected errors since the last record of R432, by region 0–5 and by 8 + stack -/
  corrected : Table Nat := []
  /-- times of the UNCORR reads of each stack within the last second (R413) -/
  uncorr : Table (List Word) := []
  /-- the parity faults that the next accesses to each stack meet (R412, R417), and the times of the parity errors of each
  stack within the last millisecond (R413) -/
  link : Table (List LinkFault) := []
  parity : Table (List Word) := []
  /-- the TMV transfer buffer (region 5, R436): how far each word differs, in data and check bits, from what was last written -/
  xfer : Table MemWord := []
  /-- a FENCE bit written in STANDBY waits for the return (R413) -/
  fenceLater : List Nat := []
  deriving DecidableEq, Repr

/-! ### Graze (11_budgets_arbitration.md) -/

/-- What each class has left and has used in the current period (R448–R450), the bids that the ports hold (R439, R444) and the
transfers outstanding at each HBC (R445), and whether the bank in force was built from the dictionary (R457). -/
structure GrazeState where
  left : Table Nat := []
  usedQ : Table Nat := []
  usedS : Table Nat := []
  /-- transfers bid for, by 1,024 × port + 32 × requester + class -/
  bids : Table Nat := []
  busy : Table Nat := []
  /-- a bank loaded by a commit swaps at the next period -/
  dictSwap : Bool := false
  matches_ : Bool := true
  deriving DecidableEq, Repr

/-- What gives the tile movers work (R461): a MOVE of a channel, a query in service, the front descriptor of a control mover
queue. -/
inductive MoverUser where
  | move (c : Nat)
  | query (id : Nat)
  | queue (k : Nat)
  deriving DecidableEq, Repr

/-- What a request holds while it runs (R459, R460): its read engine, its write engine, and its pool slots. -/
structure MoverRun where
  reader : Nat
  writer : Option Nat := none
  pool : List Nat := []
  deriving DecidableEq, Repr

/-- A request to the tile movers (R459–R461): who asks, the words still to move, whether the destination takes a write engine, and
what it holds once it has an engine. -/
structure MoverReq where
  user : MoverUser
  words : Nat
  write : Bool
  run : Option MoverRun := none
  deriving DecidableEq, Repr

/-- The tile movers: the requests in order of arrival (R461), the requester numbers of the engines last at work (R439), the control
mover queues (R465) with their descriptor addresses, oldest first, and the outcome of the oldest once its work is done: status,
sub-code, MISMATCH and DONE. -/
structure MoverState where
  reqs : List MoverReq := []
  /-- the read and the write engine last at work -/
  turn : Nat × Nat := (0, 0)
  queues : Table (List Nat) := []
  results : Table (Nat × Nat × Nat × Nat) := []
  deriving DecidableEq, Repr


/-! ### Host interface (12_host_interface.md) -/

/-- The outcome of a DIRECT entry: status, sub-code and the three values of its completion (R498). -/
structure DirResult where
  status : Nat
  sub : Nat
  v0 : Nat := 0
  v1 : BitVec 64 := 0
  v2 : Word := 0
  deriving DecidableEq, Repr

/-- A DIRECT entry taken and started (R492, R500): how many entries its ring had taken before it, its fields, whether its reserved place lies in
the holding area, and its outcome once known. -/
structure DirEntry where
  seq : Nat
  op : Nat
  tag : BitVec 32
  words : List Word
  haddr : Nat
  hlen : Nat
  arg : Nat
  trailer : Bool
  inHold : Bool
  query : Option Nat := none
  res : Option DirResult := none
  deriving DecidableEq, Repr

/-- A submission ring beyond its registers: the doorbell flag, the known producer index K, how many entries it has taken since it
was enabled, whether it waits for the next doorbell at an entry it does not own (R495), the started entries, whether CONS in the header is up to date, the status of the stop marker; and of a stop (R511): whether the
header has been read once more, the completions not yet placed, and how many entries the holding area must have given up before
all of them are written. -/
structure SubRing where
  bell : Bool := false
  known : Nat := 0
  taken : Nat := 0
  waits : Bool := false
  entries : List DirEntry := []
  consDue : Bool := false
  stopSt : Nat × Nat := (0, 0)
  stopRead : Bool := false
  stopQ : List (List Byte) := []
  stopAt : Nat := 0
  deriving DecidableEq, Repr

/-- A completion ring beyond its registers: slot of the oldest held entry, places reserved in the holding area, the last
message, whether an entry waits for one, and how many entries have left the holding area for the ring. -/
structure CompRing where
  first : Nat := 0
  rsvHold : Nat := 0
  lastMsg : Option Word := none
  msgDue : Bool := false
  flushed : Nat := 0
  deriving DecidableEq, Repr

/-- The mailbox of a function (R482, R483). -/
structure Mailbox where
  busy : Bool := false
  done : Bool := false
  reqLen : Nat := 0
  rspLen : Nat := 0
  vec : Nat := 0
  vecEn : Bool := false
  /-- the response Goatherd has made and not yet placed -/
  answer : Option (List Byte) := none
  deriving DecidableEq, Repr

/-- An entry of a function's MSI-X table (R484): address, data, and the mask bit, which is 1 at reset. (Log entry 110 PRESUMED.) -/
structure MsixEntry where
  addr : BitVec 64 := 0
  data : BitVec 32 := 0
  masked : Bool := true
  deriving DecidableEq, Repr

/-- MSI-X of a function: the table, the pending bit array, and MSI-X Enable and Function Mask of its configuration space
(R478, R484, R486). (Log entry 110 PRESUMED.) -/
structure Msix where
  vectors : Table MsixEntry := []
  pba : BitVec 64 := 0
  enable : Bool := false
  maskAll : Bool := false
  deriving DecidableEq, Repr

/-- HIF beyond its registers. -/
structure HifState where
  msix : Table Msix := []
  subs : Table SubRing := []
  comps : Table CompRing := []
  mbx : Table Mailbox := []
  deriving DecidableEq, Repr

/-! ### Event controller (13_events.md) -/

/-- What set P of a source: a raising, or an activation of E (R526, R531). -/
inductive EvCause where
  | raising | activation
  deriving DecidableEq, Repr

/-- The bits and the stamp of an event source (R526, R528), when E of a level source last rose (R303), and its configuration
(R525). -/
structure Source where
  p : Bool := false
  m : Bool := false
  d : Bool := false
  s : Bool := false
  sw : Bool := false
  l : Bool := false
  cause : EvCause := .raising
  stampTime : Word := 0
  stampPos : BitVec 32 := 0
  rose : Word := 0
  en : Bool
  cls : Bool
  target : Nat
  posAxis : Nat := 0
  wake : Bool := false
  deriving DecidableEq, Repr

/-- The event controller: the sources, the source each queue committed last (R529), and the armed alarms (R540). -/
structure EvcState where
  sources : Table Source := []
  lastCommit : Table Nat := []
  armed : Table Bool := []
  deriving DecidableEq, Repr

/-- What a channel's WAITEV observes (R303): the source its most recent WAITEV named, the time of the first raising latched,
and, while a WAITEV waits, its source and the time of the raising. -/
structure WaitLatch where
  src : Nat := 0
  latched : Option Word := none
  waitSrc : Option Nat := none
  raised : Option Word := none
  deriving DecidableEq, Repr

/-! ### The object dictionary (14_object_dictionary.md) -/

/-- 2400h.1 to .6 (R572, R577): state 0 none, 1 REQUESTED, 2 DONE; the result, tag, epoch, apply position and waves. -/
structure CommitState where
  state : Nat := 0
  status : Nat := 0
  sub : Nat := 0
  tag : BitVec 32 := 0
  epoch : BitVec 16 := 0
  pos : P48 := 0
  waves : Nat := 0
  deriving DecidableEq, Repr

/-- A segmented write in progress (R562): the object's key, the bytes held, and when the last segment came. -/
structure SegWrite where
  key : Nat
  bytes : List Byte
  last : Word
  deriving DecidableEq, Repr

/-- A session (R559–R562): its path, number, agreed minor version, the source address on the field network, the SEQ last
answered with its response, when it was last heard, the segmented writes in progress and the READ_SEG snapshots by key. -/
structure Session where
  path : BopPath
  num : Nat
  minor : Nat
  src : HostAddr
  seq : Nat := 0
  kept : List Byte := []
  heard : Word := 0
  segs : List SegWrite := []
  snaps : Table (List Byte) := []
  deriving DecidableEq, Repr

/-- The dictionary service beyond its registers. The key of an object is 256 · index + subindex. -/
structure DictState where
  sessions : List Session := []
  /-- the pending set: the shadow of each object in it, as BOP bytes (R570) -/
  pending : Table (List Byte) := []
  /-- the values of objects that no register backs, as BOP bytes -/
  vars : Table (List Byte) := []
  /-- 2400h.10 -/
  refused : Nat := 0
  /-- 1010h.3: 0 idle, 1 busy, 2 done, 3 failed -/
  store : Nat := 0
  /-- the data that the last record executed answered -/
  data : List Byte := []
  /-- the grandmaster's clock identity (1120h.5) -/
  gm : BitVec 64 := 0
  deriving DecidableEq, Repr

/-! ### Goatherd (15_management_power.md) -/

/-- A log record (R594): SEV, CODE and the two details; SEQ, TIME, BOOT and WALL as written. -/
structure LogRecord where
  sev : Nat
  code : Nat
  seq : Nat
  time : Word
  detail0 : Word
  boot : Nat
  detail1 : Nat
  wall : Word
  deriving DecidableEq, Repr

/-- A boot record (R585). -/
structure BootRecord where
  gen : Nat := 0
  active : Nat := 0
  trial : Bool := false
  attempts : Nat := 0
  deriving DecidableEq, Repr

/-- The state of an image slot (9000h.1). -/
inductive SlotState where
  | empty | writing | valid | invalid
  deriving DecidableEq, Repr

/-- An image slot of the flash: its bytes as programmed, by offset, and its state. -/
structure ImageSlot where
  bytes : List Byte := []
  st : SlotState := .empty
  deriving DecidableEq, Repr

/-- A fused key slot (R587): the digest, once programmed, and the revoke bit. -/
structure KeySlot where
  digest : Option (List Byte) := none
  revoked : Bool := false
  deriving DecidableEq, Repr

/-- A flash operation in progress (R550, R585, R599): a store with the values it writes, an erase, or a segment of an
image. -/
inductive FlashOp where
  | store (values : Table (List Byte))
  | erase
  | program
  deriving DecidableEq, Repr

/-- A power transition (R600): what it ends in. -/
inductive PowerMove where
  | toStandby | toHibernate | toRun
  deriving DecidableEq, Repr

/-- Goatherd's own state: the log, the flash, the fuses, supervision and the power sequencer. -/
structure GhdState where
  /-- SEQ of the next log record -/
  logNext : Nat := 0
  /-- SEQ of the first record not yet in the flash log (R596) -/
  flushed : Nat := 0
  /-- the records of the flash log, oldest first -/
  flashLog : List LogRecord := []
  /-- records discarded with erased sectors (8100h.4) -/
  discarded : Nat := 0
  /-- the device has been synchronised to 802.1AS time (R594, R566) -/
  ptpEver : Bool := false
  /-- a committed record of a source with WAKE has asked for a wake (R543) -/
  wakeAsked : Bool := false
  /-- boots since manufacture -/
  boots : Nat := 0
  /-- ns since supplies good -/
  up : Nat := 0
  /-- ns of these in which the clocks of PD17 stood still -/
  stopped : Nat := 0
  /-- the count of `up` at which the limit of R579 starts (R636) -/
  limitFrom : Nat := 0
  /-- Goatherd is held in BOOT until the always-on PLL locks (R636) -/
  pllHeld : Bool := false
  /-- REFCLK156 has not locked in TRAIN (R637) -/
  refHeld : Bool := false
  /-- FAULT_N and THERMTRIP_N are low (R638) -/
  faultLow : Bool := false
  tripLow : Bool := false
  /-- VDD_AON fell below its reset threshold: region 4 was lost (R427, R591) -/
  aonLost : Bool := true
  /-- reset cause and rail of the OFF state or reset in progress -/
  cause : Nat := 0
  rail : Nat := 0
  /-- the flash: image slots, boot record copies where valid, the stored configuration with its generation -/
  slots : Table ImageSlot := []
  recs : Table BootRecord := []
  stored : Table (List Byte) := []
  storedGen : Nat := 0
  flashOp : Option FlashOp := none
  /-- the flash interface pins are in high impedance (R582) -/
  flashHighZ : Bool := false
  /-- an image is being verified, and 9000h.3 -/
  verifying : Bool := false
  verify : Nat := 0
  /-- the fuses: owner key slots 1–3 (slot 0 holds Moadovi's key), whether slot 0 is revoked, rollback fuses blown -/
  keys : Table KeySlot := []
  rollback : Nat := 0
  /-- key slot that signed the running part C -/
  keyC : Nat := 0
  /-- part C has been read again and compared in TRAIN -/
  partC : Bool := false
  /-- rails in warning, and the warnings counted (8030h.3) -/
  warned : List Nat := []
  /-- when a rail last read below its warning threshold -/
  warnAt : Table Word := []
  warnings : Table Nat := []
  /-- when the retro rate was last halved, throttling episodes (8050h.2) -/
  throttledAt : Word := 0
  episodes : Nat := 0
  /-- the power transition in progress, and the request waiting behind it -/
  move : Option PowerMove := none
  /-- when it began -/
  moveAt : Word := 0
  asked : Option Nat := none
  deriving DecidableEq, Repr

/-! ### Field I/O die (16_field_io.md) -/

/-- A field input: pin level, stamp of its crossing, filtered level before INVERT, and since when (R618, R619). -/
structure FieldIn where
  pin : Bool := false
  stamp : Word := 0
  filt : Bool := false
  since : Word := 0
  deriving DecidableEq, Repr

/-- An output driver: the pulses due, the pulse active now (its end and active level), the times of the recent
shutoffs, the time of the last one, and since when a polarity check holds the driver in high impedance. -/
structure OutDrv where
  due : List Pulse := []
  active : Option (Word × Bool) := none
  shutoffs : List Word := []
  shutAt : Word := 0
  pchk : Option Word := none
  deriving DecidableEq, Repr

/-- The field I/O die. Pairs 0–23 are A, B, Z of E0–E7 (3n + channel) and pairs 24–39 are F0–F15. -/
structure FioState where
  fins : Table FieldIn := []
  outs : Table OutDrv := []
  /-- the input pairs whose common mode followed the last probe (R611) -/
  probed : List Nat := []
  /-- when a fault of a pair was last judged to hold (R612); the key is 4 × pair + bit, output x being pair 40 + x -/
  faultAt : Table Word := []
  /-- outputs leave high impedance once the stored configuration is applied (R609) -/
  live : Bool := false
  deriving DecidableEq, Repr

/-! ### The block and the machine -/

/-- The block: everything but the queue of commands. -/
structure Dev where
  /-- the device time stamp, ns (R9) -/
  now : Word := 0
  /-- the registers that were written, by word offset in block register space -/
  regs : Table Word := []
  /-- the power domains PD00–PD23 (R23) -/
  domains : Table DomState := []
  /-- how many free values have been taken (the model's own field) -/
  freeIdx : Nat := 0
  spr : SprState := {}
  fio : FioState := {}
  evc : EvcState := {}
  wev : Table WaitLatch := []
  /-- the on-chip SRAM, by DAS address -/
  sram : Table MemWord := []
  /-- the HBM tiles, by place: (address − 01_0000_0000h) / 512 -/
  hbm : Table Tile := []
  hbc : HbcState := {}
  ghd : GhdState := {}
  /-- the owner channel of each owned resource (R324) -/
  owners : List (Resource × Nat) := []
  cxi : CxiState := {}
  hlk : HlkState := {}
  commit : CommitState := {}
  dict : DictState := {}
  tfb : TfbState := {}
  chm : ChmState := {}
  cex : CexState := {}
  graze : GrazeState := {}
  tmv : MoverState := {}
  hif : HifState := {}
  ibx : IbxState := {}
  /-- processor contexts by the number SELF gives: channels 0–511, control cores 1,024–1,027, Goatherd 1,028 -/
  procs : Table Proc := []
  /-- settings that a commit replaced, by register key, with the instant of its wave: lines fired before it still use them -/
  regHist : List (Nat × Word × Word) := []
  /-- status and sub-code that the last access to a dictionary object answered (the model's own record) -/
  reply : Nat × Nat := (0, 0)
  /-- what has left the block, oldest first (the model's own record) -/
  outbox : List OutMsg := []
  deriving DecidableEq, Repr

/-- The machine: the block, and the commands waiting, first in, first out. -/
structure State where
  dev : Dev := {}
  pending : List Instr := []
  deriving DecidableEq, Repr

/-- The reasons a step ends in a fault. -/
inductive Fault where
  /-- raised by `exec` for a command whose operands no party can give (Instr.wf); safe: the machine stops -/
  | illFormed
  deriving DecidableEq, Repr

/-- The reasons a step ends in a refusal. -/
inductive Refusal where
  /-- raised by `exec` for a command that has no meaning yet; safe: the machine stops -/
  | notModelled (mnemonic : String)
  deriving DecidableEq, Repr

/-- The machine after reset: supplies off and nothing done yet; every register at its reset value. -/
def State.reset : State := {}

end Sys2Proof.Machine
end

