-- ==== Sys2Proof/Machine/Ops.lean ====
section
/-! DEFINITION. The named operations every block shares: registers by name, power domains, the device state, free values. -/

namespace Sys2Proof.Machine

/-- PRIO of requester r at reset (R439). -/
def arbPrioReset (r : Nat) : Nat :=
  if r ≤ 1 then 7 else if r = 2 then 6 else if r = 3 then 3 else if r = 4 then 5
  else if r ≤ 20 then 4 else if r = 21 then 1 else 6

/-- The quota of class c at reset (R458). -/
def quotaReset (c : Nat) : Nat :=
  match c with
  | 0 => 256 | 1 => 640 | 2 => 1024 | 3 => 128 | 4 => 64 | 5 => 64 | _ => 0

/-- The owner class of slot j at reset, none where no class owns it (R458). -/
def slotOwnerReset (j : Nat) : Option Nat :=
  match j % 16 with
  | 0 => some 1 | 5 => some 1 | 10 => some 1
  | 1 => some 0 | 9 => some 0
  | 2 => some 2 | 3 => some 2 | 7 => some 2 | 8 => some 2 | 12 => some 2 | 13 => some 2
  | 4 => some 3
  | 6 => if j % 32 = 6 then some 4 else some 5
  | _ => none

/-- Slot j of either bank at reset (R458): MASK 3Fh, and the owner. -/
def slotReset (j : Nat) : Word :=
  match slotOwnerReset j with
  | some c => setBit (setFld (wordOf 0x3F) 36 32 c) 37 true
  | none => wordOf 0x3F

/-- The reset value of a register (the chapters' tables; R49, R69 for PRI_ENC, R173 for TRIG_GEN, R439 and R458 for the
arbiter and the slot tables, R568 for the fused MAC address). -/
def resetReg (r : Reg) (i : Nat) : Word :=
  match r with
  | .sprAxnCtl => setFld (wordOf (regDesc r).reset) 6 4 (2 * i)
  | .cxiHdhCfg => setFld (wordOf (regDesc r).reset) 27 22 i
  | .tfbArbPrior => wordOf (arbPrioReset i)
  | .tfbSlotaJ => slotReset i
  | .tfbSlotbJ => slotReset i
  | .tfbQuotaaC => wordOf (quotaReset i)
  | .tfbQuotabC => wordOf (quotaReset i)
  | .ethPpMac => BitVec.setWidth 48 (Config.macAddress i)
  | _ => wordOf (regDesc r).reset

/-- Register r, index i, as stored. (Log entry 13 DEDUCED.) -/
def Dev.rd (d : Dev) (r : Reg) (i : Nat := 0) : Word := tget d.regs (resetReg r i) (regKey r i)

/-- Register r, index i, stored. (Log entry 13 DEDUCED.) -/
def Dev.wr (d : Dev) (r : Reg) (i : Nat) (v : Word) : Dev := { d with regs := tset d.regs (regKey r i) v }

/-- Bits hi:lo of a register. -/
def Dev.rdF (d : Dev) (r : Reg) (i hi lo : Nat) : Nat := fld (d.rd r i) hi lo

/-- Bits hi:lo of a register replaced. -/
def Dev.wrF (d : Dev) (r : Reg) (i hi lo v : Nat) : Dev := d.wr r i (setFld (d.rd r i) hi lo v)

/-- Bit b of a register. -/
def Dev.rdB (d : Dev) (r : Reg) (i b : Nat) : Bool := bit (d.rd r i) b

/-- Bit b of a register replaced. -/
def Dev.wrB (d : Dev) (r : Reg) (i b : Nat) (v : Bool) : Dev := d.wr r i (setBit (d.rd r i) b v)

/-- A counter in bits hi:lo of a register advanced by n, saturating. -/
def Dev.satF (d : Dev) (r : Reg) (i hi lo n : Nat) : Dev := d.wr r i (satFld (d.rd r i) hi lo n)

/-- A counter in bits hi:lo of a register advanced by n, wrapping. -/
def Dev.wrapF (d : Dev) (r : Reg) (i hi lo n : Nat) : Dev := d.wr r i (wrapFld (d.rd r i) hi lo n)

/-- The code of a device state (R22, R604). -/
def DevState.code : DevState → Nat
  | .off => 0 | .boot => 1 | .selftest => 2 | .train => 3 | .ready => 4 | .run => 5 | .degraded => 6 | .failed => 7

/-- The device state in STATE of GHD_STATE. -/
def Dev.devState (d : Dev) : DevState :=
  match d.rdF .ghdState 0 2 0 with
  | 0 => .off | 1 => .boot | 2 => .selftest | 3 => .train | 4 => .ready | 5 => .run | 6 => .degraded | _ => .failed

/-- The power state in POWER of GHD_STATE. -/
def Dev.powerState (d : Dev) : PowerState :=
  match d.rdF .ghdState 0 5 4 with
  | 1 => .standby | 2 => .hibernate | _ => .run

/-- Heads run and triggers fire only in RUN and DEGRADED (R22, R53). (Log entry 162 DEDUCED.) -/
def Dev.inService (d : Dev) : Bool := d.devState = .run || d.devState = .degraded

/-- A power domain now (R23). -/
def Dev.domain (d : Dev) (k : Nat) : DomState := tget d.domains .off k

/-- A power domain is on. A retained domain is not: it answers register and memory accesses as one that is off.
(Log entry 161 DESIGN CHOICE.) -/
def Dev.domOn (d : Dev) (k : Nat) : Bool := d.domain k = .on

/-- Supplies stand: the device is not in OFF. -/
def Dev.powered (d : Dev) : Bool := d.devState != .off

/-- The free values the spec leaves open, one after another: the value, and the block with the next one in turn.
(Log entry 9 DESIGN CHOICE.) -/
def Dev.free (d : Dev) : Nat × Dev := (Config.freeNat d.freeIdx, { d with freeIdx := d.freeIdx + 1 })

/-- f repeated over the numbers below n, from 0 up. -/
def forUpTo {α : Type} (n : Nat) (f : Nat → α → α) (a : α) : α := (List.range n).foldl (fun x i => f i x) a

end Sys2Proof.Machine
end

