-- ==== Sys2Proof/Machine/Estimate.lean ====
section
/-! DEFINITION. The axis estimator of Spoor (R30–R40): the estimate between edges, COAST extrapolation, and the mapping
between raw counts and positions. -/

namespace Sys2Proof.Machine

/-- Axis a. -/
def Dev.axis (d : Dev) (a : Nat) : Axis := tget d.spr.axes {} a

/-- Axis a replaced. -/
def Dev.setAxis (d : Dev) (a : Nat) (x : Axis) : Dev := { d with spr := { d.spr with axes := tset d.spr.axes a x } }

/-- One of the two trackers of an axis. -/
def Axis.tracker (x : Axis) : TrackerSel → Tracker
  | .main => x.main
  | .shadow => x.shadow

/-- One of the two trackers replaced. -/
def Axis.withTracker (x : Axis) (sel : TrackerSel) (k : Tracker) : Axis :=
  match sel with
  | .main => { x with main := k }
  | .shadow => { x with shadow := k }

/-- Whether a tracker runs on the secondary encoder: the axis after fallback, the shadow before it (R44, R47). -/
def Axis.selOnSec (x : Axis) : TrackerSel → Bool
  | .main => x.onSec
  | .shadow => !x.onSec

/-- The encoder input that drives a tracker; none for a shadow tracker without SEC_EN. -/
def Dev.trackerEnc (d : Dev) (a : Nat) (sel : TrackerSel) : Option Nat :=
  let ctl := d.rd .sprAxnCtl a
  if (d.axis a).selOnSec sel then
    (if bit ctl 7 then some (fld ctl 10 8) else none)
  else
    (match sel with
     | .main => some (fld ctl 6 4)
     | .shadow => if bit ctl 7 then some (fld ctl 6 4) else none)

/-- Spacing S of a tracker's encoder in 2^−32 tk: 256 tk for a primary, SEC_SCALE for a secondary; never 0.
(Log entry 151 DEDUCED.) -/
def Dev.spacingQ (d : Dev) (a : Nat) (sel : TrackerSel) : Nat :=
  if (d.axis a).selOnSec sel then max 1 (d.rd .sprAxnSecScale a).toNat else 256 * 2 ^ 32

/-- The whole ticks of S, at least 1: what the clamp of R34, whose positions are whole ticks, can use of it.
(Log entry 151 DEDUCED.) -/
def Dev.spacing (d : Dev) (a : Nat) (sel : TrackerSel) : Nat := max 1 (d.spacingQ a sel / 2 ^ 32)

/-- A secondary count as ticks before sec_offset: count × SEC_SCALE, truncated toward zero. (Log entry 25 DEDUCED.) -/
def Dev.secTicks (d : Dev) (a : Nat) (count : Word) : Word :=
  wordOfInt ((count.toInt * (d.rd .sprAxnSecScale a).toNat).tdiv (2 ^ 32))

/-- The position that a raw count of a tracker's encoder maps to. -/
def Dev.edgePos (d : Dev) (a : Nat) (sel : TrackerSel) (count : Word) : P48 :=
  let x := d.axis a
  if x.selOnSec sel then d.secTicks a count + x.secOffset
  else (count + x.offset) * 256

/-- An axis with the offset of a tracker's encoder set so that the count maps to the position; for a primary the position
is a multiple of 256 tk (R37, R42, R43). (Log entry 25 DEDUCED.) -/
def Dev.alignOffset (d : Dev) (a : Nat) (sel : TrackerSel) (count : Word) (target : P48) : Dev :=
  let x := d.axis a
  if x.selOnSec sel then d.setAxis a { x with secOffset := target - d.secTicks a count }
  else d.setAxis a { x with offset := wordOfInt (target.toInt.tdiv 256) - count }

/-- The whole count nearest a position, in ticks, a tie going to the greater (R37, R43). -/
def wholeCount (p : P48) : P48 := wordOfInt (roundDiv p.toInt 256 * 256)

/-- The position of a tracker's encoder edges that lies nearest a position: a whole count of a primary, a count of SEC_SCALE
ticks of a secondary (R39). (Log entry 151 DEDUCED.) -/
def Dev.nearestEdge (d : Dev) (a : Nat) (sel : TrackerSel) (count : Word) (p : P48) : P48 :=
  if (d.axis a).selOnSec sel then
    let n := roundDiv ((p - d.edgePos a sel count).toInt * 2 ^ 32) (d.spacingQ a sel)
    d.edgePos a sel (count + wordOfInt n)
  else wholeCount p

/-- COAST: the position p + v·τ with zero acceleration, to the nearest tick (R38). -/
def Tracker.coastAt (k : Tracker) (now : Word) : P48 :=
  k.p + wordOfInt (roundDiv (k.v.toInt * elapsed now k.t) (2 ^ 32))

/-- A herd-sourced axis: p + v·τ for a beat's instant that may still lie ahead (R48, R87). (Log entry 23 DEDUCED.) -/
def Tracker.beatAt (k : Tracker) (now : Word) : P48 :=
  k.p + wordOfInt (roundDiv (k.v.toInt * (now - k.t).toInt) (2 ^ 32))

/-- TRACK: the displacement v·τ + a·τ²/2 to the nearest tick (R34). -/
def Tracker.travel (k : Tracker) (now : Word) : Int :=
  let tau : Int := elapsed now k.t
  roundDiv (2 * 10 ^ 12 * k.v.toInt * tau + 65536 * k.a.toInt * tau * tau) (2 ^ 33 * 10 ^ 12)

/-- TRACK: the interpolated position, clamped short of the next edge in the direction of the last accepted one (R34).
(Log entry 19 DEDUCED.) -/
def Tracker.trackAt (k : Tracker) (s : Nat) (now : Word) : P48 :=
  let x := k.travel now
  let c := if k.fwd then clampInt x 0 (s - 1) else clampInt x (1 - s) 0
  k.p + wordOfInt c

/-- The estimate of a tracker with encoder spacing s at a moment (R30). (Log entry 21 DEDUCED.) -/
def Tracker.estimate (k : Tracker) (s : Nat) (now : Word) : P48 :=
  match k.st with
  | .idle => k.p
  | .acquire => k.p
  | .track => k.trackAt s now
  | .coast => k.coastAt now
  | .fault => k.p

/-- An axis with SRC = 1 follows the herd (R48). -/
def Dev.axisHerd (d : Dev) (a : Nat) : Bool := d.rdB .sprAxnCtl a 1

/-- This device is the lead: HERD_STATE LEAD. -/
def Dev.isLead (d : Dev) : Bool := d.rdF .hlkStat 0 2 0 = 5

/-- The axis whose estimate axis a reads: on the lead an enabled axis with SRC = 1 reads its own axis HERD_AXIS (R48). -/
def Dev.axisOf (d : Dev) (a : Nat) : Nat :=
  if d.axisHerd a && d.isLead && d.rdB .sprAxnCtl a 0 then d.rdF .sprAxnCtl a 3 2 else a

/-- The axes that read axis a's estimate (R48). -/
def Dev.readersOf (d : Dev) (a : Nat) : List Nat := (List.range 4).filter (fun b => d.axisOf b = a)

/-- The state of axis a. -/
def Dev.axisState (d : Dev) (a : Nat) : AxState := (d.axis (d.axisOf a)).main.st

/-- The estimate of a tracker at a moment. A herd-sourced axis interpolates at the beat's velocity without a clamp (R48). -/
def Dev.trackerAt (d : Dev) (a : Nat) (sel : TrackerSel) (now : Word) : P48 :=
  let k := (d.axis a).tracker sel
  if sel = .main && d.axisHerd a && (k.st = .track || k.st = .coast) then k.beatAt now
  else k.estimate (d.spacing a sel) now

/-- SPR_AXn_POS of axis a at a moment. -/
def Dev.axisPosAt (d : Dev) (a : Nat) (now : Word) : P48 := d.trackerAt (d.axisOf a) .main now

/-- SPR_AXn_POS now. -/
def Dev.axisPos (d : Dev) (a : Nat) : P48 := d.axisPosAt a d.now

/-- SPR_AXn_VEL (R30): 0 in IDLE, ACQUIRE and FAULT. -/
def Dev.axisVel (d : Dev) (a : Nat) : Word :=
  let k := (d.axis (d.axisOf a)).main
  match k.st with
  | .track => k.v
  | .coast => k.v
  | _ => 0

/-- SPR_AXn_ACC (R30): the estimate in TRACK, 0 elsewhere. -/
def Dev.axisAcc (d : Dev) (a : Nat) : Word :=
  let k := (d.axis (d.axisOf a)).main
  if k.st = .track then k.a else 0

/-- DIR: the velocity is negative in TRACK or COAST, or the last accepted edge in ACQUIRE went backward. -/
def Dev.axisBackward (d : Dev) (a : Nat) : Bool :=
  let k := (d.axis (d.axisOf a)).main
  match k.st with
  | .track => k.v.msb
  | .coast => k.v.msb
  | .acquire => !k.fwd
  | _ => false

/-- The code of an axis state (SPR_AXn_STAT). -/
def AxState.code : AxState → Nat
  | .idle => 0 | .acquire => 1 | .track => 2 | .coast => 3 | .fault => 4

end Sys2Proof.Machine
end

