-- ==== Sys2Proof/Machine/Events.lean ====
section
/-! DEFINITION. Event sources and queues of the event controller (R521–R543), shared by every block: raising a pulse, driving a
level, committing a record, and the software set, acknowledge and clear. -/

namespace Sys2Proof.Machine

/-- The kind of a source (R522). -/
inductive SrcKind where
  | none | pulse | level
  deriving DecidableEq, Repr

/-- The kind of each source: R523 and the owners' tables (R68, R125, R172, R231, R282, R338, R386, R433, R470, R517, R539,
R569, R603, R624). -/
def srcKind (i : Nat) : SrcKind :=
  if i < 320 then
    (let b := i % 64
     if b = 32 ∨ b = 33 then .level else if b = 34 ∨ b = 35 then .pulse else .none)
  else if i < 352 then
    (let k := (i - 320) % 8
     if k = 1 ∨ k = 2 ∨ k = 6 then .level else .pulse)
  else if i < 433 then .pulse
  else if i < 435 then .level
  else if i < 576 then .pulse
  else if i < 580 then .level
  else if i < 655 then .pulse
  else if i < 657 then .level
  else if i < 665 then .pulse
  else if i < 669 then .level
  else if i < 678 then .pulse
  else if i = 678 then .level
  else if i < 688 then .pulse
  else if i = 688 then .level
  else if i < 694 then .pulse
  else if i < 702 then .level
  else if i < 718 then .pulse
  else if i < 740 then .level
  else if i = 740 then .pulse
  else if i < 743 then .level
  else if i < 768 then .none
  else if i < 774 then .pulse
  else if i < 776 then .none
  else if i = 776 then .pulse
  else if i = 777 then .level
  else if i < 782 then .pulse
  else if i = 782 then .level
  else if i < 800 then .none
  else if i = 801 ∨ i = 802 then .level
  else if i < 805 then .pulse
  else if i < 816 then .none
  else if i < 826 then .level
  else .none

/-- TARGET of a source at reset (R521, R525, R539 and the owners' rules). -/
def srcTargetReset (i : Nat) : Nat :=
  if i < 320 then i / 64
  else if 665 ≤ i ∧ i ≤ 668 then 4
  else if i = 670 ∨ i = 672 ∨ i = 673 then 4
  else if 679 ≤ i ∧ i ≤ 683 then i - 679
  else if 689 ≤ i ∧ i ≤ 692 then i - 689
  else if i = 693 then 4
  else if 816 ≤ i ∧ i ≤ 823 then 4
  else 0

/-- CLASS of a source at reset, true for fast (R525 and the owners' rules). -/
def srcFastReset (i : Nat) : Bool :=
  if i < 320 then i = 32 ∨ i = 256 + 32 ∨ i = 256 + 33
  else if i < 352 then (i - 320) % 8 = 1 ∨ (i - 320) % 8 = 2
  else i = 434 ∨ i = 653 ∨ i = 662 ∨ (665 ≤ i ∧ i ≤ 668) ∨ i = 670 ∨ i = 672 ∨ i = 673 ∨ i = 684 ∨ i = 685 ∨
    (694 ≤ i ∧ i ≤ 701)

/-- A source after device reset (R525): EN is 1 for every source whose TARGET is Goatherd. -/
def srcReset (i : Nat) : Source :=
  { en := srcTargetReset i = 4, cls := srcFastReset i, target := srcTargetReset i }

/-- Source i. -/
def Dev.source (d : Dev) (i : Nat) : Source := tget d.evc.sources (srcReset i) i

/-- Source i replaced. -/
def Dev.setSource (d : Dev) (i : Nat) (s : Source) : Dev :=
  { d with evc := { d.evc with sources := tset d.evc.sources i s } }

/-- E: the level input or the software set (R526). -/
def Source.e (s : Source) : Bool := s.l || s.sw

/-- The power domains that own a source's happenings; empty where the owner stays on in every state, or where the power
sequencer drives the source (R7, R541). (Log entry 53 DEDUCED.) -/
def srcDomains (i : Nat) : List Nat :=
  if i < 432 then []
  else if i < 448 then [9]
  else if i < 512 then [5, 6, 7, 8]
  else if i < 576 then [5 + (i - 512) / 16]
  else if i < 580 then []
  else if i < 582 then [5, 6, 7, 8]
  else if i < 650 then [22]
  else if i < 653 then [18, 19]
  else if i < 661 then [20]
  else if i < 665 then [13, 14, 15, 16]
  else if i < 669 then [17]
  else if i < 675 then []
  else if i < 684 then [22]
  else if i < 694 then [10, 11]
  else if i < 768 then []
  else if i < 774 then [12]
  else []

/-- A source whose owner's power domains are all off takes no raising and no level (R541).
(Log entries 53 DEDUCED, 161 DESIGN CHOICE.) -/
def Dev.srcLive (d : Dev) (i : Nat) : Bool :=
  match srcDomains i with
  | [] => d.powered
  | ks => ks.any (fun k => d.domain k != .off)

/-- The stamp of a record: the device time stamp and the low 32 bits of the position of POS_AXIS (R528). -/
def Dev.stamped (d : Dev) (s : Source) (time : Word) : Source :=
  { s with p := true, stampTime := time, stampPos := (d.axisPosAt s.posAxis time).setWidth 32 }

/-- A raising of a source, or the rise of its E (R526). -/
def Dev.pend (d : Dev) (s : Source) (c : EvCause) (time : Word) : Source :=
  if s.p then { s with m := true } else { d.stamped s time with cause := c }

/-- Channels that watch a shared source latch its raising (R303). (Log entries 51 DEDUCED, 99 DEDUCED.) -/
def Dev.latchWaits (d : Dev) (i : Nat) : Dev :=
  { d with wev := d.wev.map (fun e =>
      let l := e.2
      let l := if l.src = i then { l with latched := some (l.latched.getD d.now) } else l
      let l := if l.waitSrc = some i then { l with raised := some (l.raised.getD d.now) } else l
      (e.1, l)) }

/-- A pulse source is raised, stamped at a given time (R526, R528; R618 for the stamp of a field input). -/
def Dev.raiseAt (d : Dev) (i : Nat) (time : Word) : Dev :=
  if srcKind i = .pulse && d.srcLive i then
    (d.setSource i (d.pend (d.source i) .raising time)).latchWaits i
  else d

/-- A pulse source is raised now. -/
def Dev.raise (d : Dev) (i : Nat) : Dev := d.raiseAt i d.now

/-- A level source's input is driven to b (R526): a rise of E is a new fact; a fall records nothing. -/
def Dev.setLevel (d : Dev) (i : Nat) (b : Bool) : Dev :=
  let s := d.source i
  if srcKind i ≠ .level then d
  else if b && !d.srcLive i then d
  else if b = s.l then d
  else if b then
    let s' := if s.e then { s with l := true } else { d.pend s .activation d.now with l := true, rose := d.now }
    (d.setSource i s').latchWaits i
  else d.setSource i { s with l := false }

/-! ### Queues -/

/-- The queue a source commits to: 2t + c (R524, R532). -/
def Source.queue (s : Source) : Nat := 2 * s.target + s.cls.toNat

/-- Queue q is full when PROD xor CONS is 100h (R533). -/
def Dev.queueFull (d : Dev) (q : Nat) : Bool :=
  (d.rdF .evcQqProd q 8 0) ^^^ (d.rdF .evcQqCons q 8 0) = 256

/-- Queue q holds no record. -/
def Dev.queueEmpty (d : Dev) (q : Nat) : Bool := d.rdF .evcQqProd q 8 0 = d.rdF .evcQqCons q 8 0

/-- A source of this queue waits: P is 1. -/
def Dev.waitsFor (d : Dev) (q i : Nat) : Bool := (d.source i).p && (d.source i).queue = q

/-- The first of n source numbers from i upward, wrapping at 1,024, that the test picks. (Log entry 54 DEDUCED.) -/
def scanFrom (test : Nat → Bool) : Nat → Nat → Option Nat
  | 0, _ => none
  | n + 1, i => if test (i % 1024) then some (i % 1024) else scanFrom test n (i + 1)

/-- The source the queue chooses among the waiting unmasked ones, starting after the one it committed last (R529).
(Log entry 54 DEDUCED.) -/
def Dev.chooseSource (d : Dev) (q : Nat) : Option Nat :=
  scanFrom (fun i => d.waitsFor q i && (d.source i).en) 1024 (tget d.evc.lastCommit 1023 q + 1)

/-- Some source of the queue waits. (Log entry 195 DEDUCED.) -/
def Dev.anyWaiting (d : Dev) (q : Nat) : Bool :=
  (scanFrom (fun i => d.waitsFor q i) 1024 0).isSome

/-- Word 0 of the record of a source (R531). -/
def recordWord0 (i : Nat) (s : Source) : Word :=
  let w := setFld 0 47 38 i
  let w := setBit w 37 s.cls
  let w := setBit w 36 (s.cause = .activation && !s.e)
  let w := setBit w 35 s.d
  let w := setBit w 34 s.m
  let w := setBit w 33 s.sw
  let w := setBit w 32 (srcKind i = .level)
  setFld w 31 0 s.stampPos.toNat

/-- DAS address of word j of queue q in Goatherd private memory (R532). -/
def queueWord (q j : Nat) : Nat := 0xAA9400 + 512 * q + j

end Sys2Proof.Machine
end

