-- ==== Sys2Proof/Machine/Mem.lean ====
section
/-! DEFINITION. The memories: the SECDED code of the on-chip SRAM and its reads and writes (R418–R423, R426), the HBM tiles and
their severity reports (R406–R410), and the log ring that error reports go to (R432, R594, R595). -/

namespace Sys2Proof.Machine

/-! ### The address map -/

/-- The SRAM region of a DAS address (R11, R436): 0 staging, 1 program and ring, 2 coefficient, 3 extraction and merge,
4 Goatherd private memory. -/
def sramRegion (a : Nat) : Option Nat :=
  if a < 0x6AA800 then some 0
  else if a < 0x800000 then some 1
  else if a < 0x955800 then some 2
  else if a < 0xA55800 then some 3
  else if a < 0xAAA800 then some 4
  else none

/-- The base DAS address of an SRAM region. -/
def regionBase (r : Nat) : Nat :=
  match r with
  | 0 => 0 | 1 => 0x6AA800 | 2 => 0x800000 | 3 => 0x955800 | _ => 0xA55800

/-- The words of a region; region 5 is the transfer buffer (R459). -/
def regionSize (r : Nat) : Nat :=
  match r with
  | 0 => 0x6AA800 | 1 => 0x155800 | 2 => 0x155800 | 3 => 0x100000 | 4 => 0x55000 | _ => 349184

/-- What a DAS address names (R11). -/
inductive DasArea where
  | sram (region : Nat)
  /-- window and offset in block register space -/
  | reg (win off : Nat)
  /-- a tile's place and the word in the tile -/
  | hbm (place word : Nat)
  /-- a tile's place and word 0 or 1 of its tag double -/
  | tagView (place word : Nat)
  | unpopulated
  deriving DecidableEq, Repr

/-- The first address past the HBM stacks. -/
def hbmEnd : Nat := 0x700000000

/-- The map of R11 and R12. -/
def dasArea (a : Nat) : DasArea :=
  match sramRegion a with
  | some r => .sram r
  | none =>
    if 0x1000000 ≤ a ∧ a < 0x2000000 then .reg ((a - 0x1000000) / 65536) (a % 65536)
    else if 0x100000000 ≤ a ∧ a < hbmEnd then .hbm ((a - 0x100000000) / 512) (a % 512)
    else if 0x1000000000 ≤ a ∧ a < 0x1006000000 then .tagView ((a - 0x1000000000) / 2) (a % 2)
    else .unpopulated

/-! ### SECDED (R418–R420) -/

/-- The codeword positions of data bits d0–d47: 1–54 without the powers of two. -/
def dataPositions : List Nat := ((List.range 55).drop 1).filter (fun p => p &&& (p - 1) ≠ 0)

/-- The XOR of the positions of the data bits that are set: c5–c0. -/
def syndromeOf (w : Word) : Nat :=
  (List.zip (List.range 48) dataPositions).foldl (fun x ip => if w.getLsbD ip.1 then x ^^^ ip.2 else x) 0

/-- The parity of the low n bits of a number. -/
def parity (n : Nat) (x : Nat) : Bool := (List.range n).foldl (fun b i => b ^^ x.testBit i) false

/-- The check field of a data word: bits 5:0 hold c5–c0, bit 6 holds c6 (R418). -/
def checkField (w : Word) : BitVec 7 :=
  let c := syndromeOf w
  BitVec.ofNat 7 (c + if parity 48 w.toNat ^^ parity 6 c then 64 else 0)

/-- The poison check pattern: data 0 with check field 7Fh (R420). -/
def poisonWord : MemWord := { data := 0, chk := 0x7F }

/-- A word stored with its check bits. -/
def goodWord (w : Word) : MemWord := { data := w, chk := checkField w }

/-- What a read of a stored word decodes to (R419). -/
inductive SramRead where
  | ok (w : Word)
  /-- one bit in error: the corrected word -/
  | corrected (w : Word)
  | uncorrectable (w : Word)
  | poison (w : Word)
  deriving DecidableEq, Repr

/-- The data word with the bit at a codeword position inverted; a check bit's position changes no data. -/
def flipAt (w : Word) (pos : Nat) : Word :=
  match (List.zip (List.range 48) dataPositions).find? (fun ip => ip.2 = pos) with
  | some ip => w ^^^ wordOf (2 ^ ip.1)
  | none => w

/-- R419. -/
def decodeWord (m : MemWord) : SramRead :=
  let s := (m.chk.toNat % 64) ^^^ syndromeOf m.data
  let p := parity 48 m.data.toNat ^^ parity 7 m.chk.toNat
  if !p then (if s = 0 then .ok m.data else .uncorrectable m.data)
  else if s = 63 then .poison m.data
  else if s ≤ 54 then .corrected (flipAt m.data s)
  else .uncorrectable m.data

/-! ### SRAM cells -/

/-- The stored word at a DAS address. (Log entry 11 DEDUCED.) -/
def Dev.cell (d : Dev) (a : Nat) : MemWord := tget d.sram .blank a

/-- A stored word replaced. (Log entry 11 DEDUCED.) -/
def Dev.putCell (d : Dev) (a : Nat) (m : MemWord) : Dev := { d with sram := memPut .blank d.sram a m }

/-- A full-word write of data and check bits (R418), with the injection of R426 when it is armed for the address. -/
def Dev.sramStore (d : Dev) (a : Nat) (x : MemWord) : Dev :=
  if d.rdB .edcCtl 0 8 && d.rdB .edcInjCtl 0 8 && d.rdF .edcInjAddr 0 39 0 = a then
    let m : MemWord := { data := x.data ^^^ d.rd .edcInjData, chk := x.chk ^^^ BitVec.ofNat 7 (d.rdF .edcInjCtl 0 6 0) }
    ((d.putCell a m).wrB .edcInjCtl 0 8 false).wrB .edcInjCtl 0 9 true
  else d.putCell a x

/-- A full-word write of data with its check bits (R418). -/
def Dev.sramWrite (d : Dev) (a : Nat) (w : Word) : Dev := d.sramStore a (goodWord w)

/-- A full-word write of the poison check pattern (R164, R420). -/
def Dev.sramPoison (d : Dev) (a : Nat) : Dev := d.sramStore a poisonWord

/-- Full-word writes to successive addresses. -/
def Dev.sramWrites (d : Dev) (a : Nat) : List Word → Dev
  | [] => d
  | w :: ws => (d.sramWrite a w).sramWrites (a + 1) ws

/-! ### The log (R594–R596) -/

/-- The word address of log record SEQ in the ring. -/
def logAddr (seq : Nat) : Nat := 0xAA8000 + 5 * (seq % 1024)

/-- ETH_PTP_OFS, signed 64-bit ns. -/
def Dev.ptpOfs (d : Dev) : Int :=
  (BitVec.ofNat 64 (d.rdF .ethPtpOfsHi 0 15 0 * 2 ^ 48 + (d.rd .ethPtpOfsLo).toNat)).toInt

/-- WALL of a record written now: ms of 802.1AS time, 0 if never synchronised. -/
def Dev.wall (d : Dev) : Word :=
  if d.ghd.ptpEver then wordOfInt (((d.now.toNat : Int) + d.ptpOfs).fdiv (10 ^ 6)) else 0

/-- The five words of a record (R594). -/
def LogRecord.toWords (r : LogRecord) : List Word :=
  [setFld (setFld (setFld 0 47 46 r.sev) 43 32 r.code) 31 0 r.seq, r.time, r.detail0,
   setFld (setFld 0 47 32 r.boot) 31 0 r.detail1, r.wall]

/-- Goatherd writes a log record: into the ring at once, and GHD_LOG for SEV 2 or 3 (R595, R596, R603).
(Log entry 52 DEDUCED.) -/
def Dev.log (d : Dev) (sev code : Nat) (detail0 : Word) (detail1 : Nat) : Dev :=
  let r : LogRecord := { sev := sev, code := code, seq := d.ghd.logNext, time := d.now, detail0 := detail0,
                         boot := d.rdF .ghdBootCount 0 15 0, detail1 := detail1, wall := d.wall }
  let d := d.sramWrites (logAddr r.seq) r.toWords
  let d := { d with ghd := { d.ghd with logNext := r.seq + 1 } }
  let d := d.wrF .ghdLogSeq 0 31 0 r.seq
  if 2 ≤ sev then d.raise 779 else d

/-! ### SRAM reads (R421–R423) -/

/-- A pulse that is raised at most once per ms for each numbered thing (R433). -/
def Dev.raisePerMs (d : Dev) (last : Option Word) (i : Nat) : Bool × Dev :=
  match last with
  | some t => if elapsed d.now t < 1000000 then (false, d) else (true, d.raise i)
  | none => (true, d.raise i)

/-- A corrected error of a region (0–5) or a stack (8 + s) counted for the record of R432. -/
def Dev.countCorrected (d : Dev) (k : Nat) : Dev :=
  { d with hbc := { d.hbc with corrected := tset d.hbc.corrected k (tget d.hbc.corrected 0 k + 1) } }

/-- The correctable read of region r: counted, and EDC_SRAM_CE at most once per ms (R421, R433). -/
def Dev.sramCe (d : Dev) (r : Nat) : Dev :=
  let d := (d.satF .edcRrCnt r 15 0 1).countCorrected r
  let x := d.raisePerMs (tfind d.hbc.lastSramCe r) 669
  if x.1 then { x.2 with hbc := { x.2.hbc with lastSramCe := tset x.2.hbc.lastSramCe r d.now } } else d

/-- EDC_Rr_LAST records a word: KIND 1 uncorrectable read, 2 poison read, 3 poison written, 4 found by scrub. -/
def Dev.edcLast (d : Dev) (r kind a : Nat) : Dev :=
  d.wr .edcRrLast r (setBit (setFld (setFld 0 42 40 kind) 39 0 a) 47 true)

/-- The report of an uncorrectable or poison read of region r (R423, R432): counter, EDC_Rr_LAST, event and log. The
log's DETAIL1 holds the region in bits 7:0 and the kind in bits 15:8. -/
def Dev.sramUe (d : Dev) (r kind a : Nat) : Dev :=
  let d := if kind = 2 then d.satF .edcRrCnt r 47 32 1 else d.satF .edcRrCnt r 31 16 1
  ((d.edcLast r kind a).raise 670).log 2 0x030 (wordOf a) (r + 256 * kind)

/-- The report of a poison pattern written under R422. -/
def Dev.poisonReport (d : Dev) (r a : Nat) : Dev :=
  (((d.satF .edcRrPwr r 15 0 1).edcLast r 3 a).raise 670).log 2 0x030 (wordOf a) (r + 256 * 3)

/-- A read of an SRAM word by any requester: the decoded word, and the block after correction and reports (R419, R421). -/
def Dev.sramRead (d : Dev) (a : Nat) : SramRead × Dev :=
  let r := (sramRegion a).getD 0
  match decodeWord (d.cell a) with
  | .ok w => (.ok w, d)
  | .corrected w => (.corrected w, (d.putCell a (goodWord w)).sramCe r)
  | .uncorrectable w => (.uncorrectable w, d.sramUe r 1 a)
  | .poison w => (.poison w, d.sramUe r 2 a)

/-- A write of fewer than 6 bytes: a read-modify-write with the given merge (R422). The answer is the failed read, where
the poison pattern was written instead. -/
def Dev.sramMerge (d : Dev) (a : Nat) (merge : Word → Word) : Option SramRead × Dev :=
  let r := (sramRegion a).getD 0
  match decodeWord (d.cell a) with
  | .ok w => (none, d.putCell a (goodWord (merge w)))
  | .corrected w => (none, (d.sramCe r).putCell a (goodWord (merge w)))
  | .uncorrectable w => (some (.uncorrectable w), (d.putCell a poisonWord).poisonReport r a)
  | .poison w => (some (.poison w), (d.putCell a poisonWord).poisonReport r a)

/-- The data of a decoded read, as read. -/
def SramRead.word : SramRead → Word
  | .ok w => w
  | .corrected w => w
  | .uncorrectable w => w
  | .poison w => w

/-- The status a requester of R423 meets: 00h, UNCORRECTABLE (1Ah) or POISON (18h). -/
def SramRead.status : SramRead → Nat
  | .ok _ => 0
  | .corrected _ => 0
  | .uncorrectable _ => 0x1A
  | .poison _ => 0x18

/-- Successive words read: the words, and the first failing status with the number of good words before it. -/
def Dev.sramReads (d : Dev) (a : Nat) : Nat → List Word × Nat × Dev
  | 0 => ([], 0, d)
  | n + 1 =>
    let x := d.sramRead a
    if x.1.status ≠ 0 then ([], x.1.status, x.2)
    else
      let y := x.2.sramReads (a + 1) n
      (x.1.word :: y.1, y.2.1, y.2.2)

/-- n successive words read whatever they decode to, every one corrected, counted and reported: their data as read, the first failing
status, and the block. -/
def Dev.sramReadAll (d : Dev) (a : Nat) : Nat → List Word × Nat × Dev
  | 0 => ([], 0, d)
  | n + 1 =>
    let x := d.sramRead a
    let y := x.2.sramReadAll (a + 1) n
    (x.1.word :: y.1, if x.1.status ≠ 0 then x.1.status else y.2.1, y.2.2)

/-! ### HBM tiles -/

/-- The stack of a tile's place (R11: 6 Gi words a stack). -/
def tileStack (q : Nat) : Nat := q / 12582912

/-- The stacks that tile numbers are spread over: those of the layout, or all that are not fenced before the first (R180,
TFB_LB_STAT). -/
def Dev.layoutStacks (d : Dev) : List Nat :=
  let l := (List.range 4).filter (fun s => d.rdB .tfbLbStat 0 (4 + s))
  if l = [] then (List.range 4).filter (fun s => d.rdF .hbcSsStat s 2 0 ≠ 5) else l

/-- The place of tile Q, as a tile index over the stacks' addresses (R180). -/
def Dev.placeOf (d : Dev) (q : Nat) : Nat :=
  let l := d.layoutStacks
  l.getD (q % l.length) 0 * 12582912 + q / l.length

/-- The tile number Q of a place; 0 for a place on a stack outside the layout. -/
def Dev.tileNumber (d : Dev) (x : Nat) : Nat :=
  let l := d.layoutStacks
  match l.findIdx? (fun s => s = tileStack x) with
  | some i => (x % 12582912) * l.length + i
  | none => 0

/-- The tile at a place, as stored. (Log entry 12 DESIGN CHOICE.) -/
def Dev.tile (d : Dev) (q : Nat) : Tile := tget d.hbm .blank q

/-- The tile at a place replaced. -/
def Dev.putTile (d : Dev) (q : Nat) (t : Tile) : Dev := { d with hbm := memPut .blank d.hbm q t }

/-- Word i of a tile. -/
def Tile.word (t : Tile) (i : Nat) : Word := tget t.words 0 i

/-- The words of a tile that are not 0, in order. -/
def sparseWords (ws : List Word) : Table Word :=
  ((List.range ws.length).zip ws).filter (fun e => e.2 ≠ 0)

/-- All 512 words of a tile. -/
def Tile.allWords (t : Tile) : List Word := (List.range 512).map t.word

/-- The tiles whose rewrite the stack's HBC has queued. -/
def Dev.rewriteQueue (d : Dev) (s : Nat) : List Nat := tget d.hbc.rewrites [] s

/-- The rewrite queue of a stack replaced. -/
def Dev.setRewriteQueue (d : Dev) (s : Nat) (l : List Nat) : Dev :=
  { d with hbc := { d.hbc with rewrites := tset d.hbc.rewrites s l } }

/-- A write of a tile cancels its queued rewrite (R410). -/
def Dev.cancelRewrite (d : Dev) (q : Nat) : Dev :=
  let s := tileStack q
  let l := d.rewriteQueue s
  let n := (l.filter (fun x => x = q)).length
  if n = 0 then d
  else (d.setRewriteQueue s (l.filter (fun x => x ≠ q))).satF .hbcSsRewr s 31 16 n

/-- A bid of requester r for n transfers of class c at the port of a tile's stack, held until they are granted (R439, R444).
(Log entry 192 DESIGN CHOICE.) -/
def Dev.bid (d : Dev) (r c q n : Nat) : Dev :=
  let k := 1024 * tileStack q + 32 * r + c
  { d with graze := { d.graze with bids := tset d.graze.bids k (tget d.graze.bids 0 k + n) } }

/-- The bids at a port and the transfers outstanding at its HBC go (R413). (Log entry 192 DESIGN CHOICE.) -/
def Dev.dropBids (d : Dev) (s : Nat) : Dev :=
  { d with graze := { d.graze with bids := d.graze.bids.filter (fun e => e.1 / 1024 ≠ s), busy := tdel d.graze.busy s },
           hbc := { d.hbc with link := tdel d.hbc.link s } }

/-- Times within a span before now. -/
def recent (now : Word) (span : Nat) (l : List Word) : List Word := l.filter (fun t => elapsed now t < span)

/-- n parity errors of stack s now (R413). (Log entry 193 DESIGN CHOICE.) -/
def Dev.noteParity (d : Dev) (s n : Nat) : Dev :=
  { d with hbc := { d.hbc with
    parity := tset d.hbc.parity s (recent d.now 1000000 (List.replicate n d.now ++ tget d.hbc.parity [] s)) } }

/-- What the parity checks make of the next access to stack s, counted in HBC_Ss_PAR (R412, R417). A retry that fails raises
EDC_HBM_UE (R433). (Log entry 193 DESIGN CHOICE.) -/
def Dev.linkCheck (d : Dev) (s : Nat) : LinkFault × Dev :=
  match tget d.hbc.link [] s with
  | [] => (.good, d)
  | f :: rest =>
    let d := { d with hbc := { d.hbc with link := if rest = [] then tdel d.hbc.link s else tset d.hbc.link s rest } }
    (f, match f with
      | .good => d
      | .retried => (d.satF .hbcSsPar s 15 0 1).noteParity s 1
      | .failed => ((d.satF .hbcSsPar s 31 16 1).noteParity s 2).raise 672
      | .queue _ _ => (d.satF .hbcSsPar s 47 32 1).noteParity s 1)

/-- A tile with bits of one word changed. -/
def Tile.corrupt (t : Tile) (i : Nat) (flip : Word) : Tile :=
  { t with words := (tset t.words i (tget t.words 0 i ^^^ flip)).filter (fun e => e.2 ≠ 0) }

/-- A whole-tile write at a place by a requester under a class: payload and tag together (R179), clean severity, and any queued
rewrite of the tile cancelled (R410). The answer is the outcome, sub-code × 256 + status, of a write that fails (R412); data that
a queue corrupted is stored under the tag computed before (R417). -/
def Dev.writeTile (d : Dev) (r c q : Nat) (ws : List Word) (tag : BitVec 64) : Nat × Dev :=
  let x := (d.bid r c q 4).linkCheck (tileStack q)
  let t : Tile := { words := sparseWords ws, tag := tag, sev := 0 }
  match x.1 with
  | .failed => (0x21A, x.2)
  | .queue i flip => (0, (x.2.putTile q (t.corrupt i.val flip)).cancelRewrite q)
  | _ => (0, (x.2.putTile q t).cancelRewrite q)

/-- The severity report of a tile or tag read (R408, R409): counters, HBC_Ss_LAST, events, the log, and the rewrite that
CORR1 and CORRM queue. -/
def Dev.reportSev (d : Dev) (q sev : Nat) : Dev :=
  let s := tileStack q
  let ce (d : Dev) : Dev :=
    let d := d.countCorrected (8 + s)
    let x := d.raisePerMs (tfind d.hbc.lastHbmCe s) 671
    let d := if x.1 then { x.2 with hbc := { x.2.hbc with lastHbmCe := tset x.2.hbc.lastHbmCe s d.now } } else d
    let l := d.rewriteQueue s
    if l.contains q then d
    else if 64 ≤ l.length then d.satF .hbcSsRewr s 47 32 1
    else d.setRewriteQueue s (l ++ [q])
  let last (d : Dev) : Dev := d.wr .hbcSsLast s (setBit (setFld (setFld 0 29 28 sev) 25 0 (d.tileNumber q)) 47 true)
  match sev with
  | 0 => d
  | 1 => ce (d.satF .hbcSsSev s 15 0 1)
  | 2 => ce (last (d.satF .hbcSsSev s 31 16 1))
  | _ =>
    let d := last (d.satF .hbcSsSev s 47 32 1)
    let d := { d with hbc := { d.hbc with
      uncorr := tset d.hbc.uncorr s (recent d.now 1000000000 (d.now :: tget d.hbc.uncorr [] s)) } }
    (d.raise 672).log 2 0x032 (wordOf (d.tileNumber q)) s

/-- A read of a tile, or of its tag alone, at a place by a requester under a class, `n` transfers of it, with its class of severity: 0, or status + 256 × sub-code of a read that fails;
the tile as the read delivers it; the block. A parity error in a queue fails only a read that is not for use (R408, R409, R412,
R417, R432). -/
def Dev.readBursts (d : Dev) (r c q n : Nat) (use : Bool) (sevOf : Tile → Nat) : Nat × Tile × Dev :=
  let x := (d.bid r c q n).linkCheck (tileStack q)
  let d := x.2
  let t := d.tile q
  let lost (d : Dev) : Dev := d.log 2 0x032 (wordOf (d.tileNumber q)) (tileStack q)
  let sev := if sevOf t = 3 then 0x1A else 0
  match x.1 with
  | .failed => (0x21A, t, lost d)
  | .queue i flip => if use then (sev, t.corrupt i.val flip, d.reportSev q (sevOf t)) else (0x31A, t, lost d)
  | _ => (sev, t, d.reportSev q (sevOf t))

/-- A tile read whole. (Log entry 90 DEDUCED.) -/
def Dev.readTile (d : Dev) (r c q n : Nat) (use : Bool) : Nat × Tile × Dev := d.readBursts r c q n use (·.sev)

/-- A Velvet tag read alone (R407, R408). -/
def Dev.readTag (d : Dev) (r c q n : Nat) : Nat × Tile × Dev := d.readBursts r c q n false (·.tagSev)

end Sys2Proof.Machine
end

