-- ==== Sys2Proof/Machine/Evc.lean ====
section
/-! DEFINITION. Event controller commands (13_events.md): raising, falling, committing, software set, acknowledge and clear,
the queue indices and the time alarms. -/

namespace Sys2Proof.Machine

/-- Source EVC_QFULLq: active while queue q is full and a source waits for it (R539). (Log entry 195 DEDUCED.) -/
def Dev.refreshQfull (d : Dev) (q : Nat) : Dev := d.setLevel (816 + q) (d.queueFull q && d.anyWaiting q)

/-- The record of source i written at PROD of queue q, and PROD, COUNT and the source's bits advanced (R526, R531–R533).
A source with WAKE asks Goatherd to wake while the power state is not RUN (R543). -/
def Dev.commitRecord (d : Dev) (q i : Nat) : Dev :=
  let s := d.source i
  let prod := d.rdF .evcQqProd q 8 0
  let d := d.sramWrites (queueWord q (2 * (prod % 256))) [recordWord0 i s, s.stampTime]
  let d := d.wrF .evcQqProd q 8 0 (prod + 1)
  let d := d.wrapF .evcQqCount q 31 0 1
  let d := d.setSource i { s with p := false, m := false, d := false, s := s.e }
  let d := { d with evc := { d.evc with lastCommit := tset d.evc.lastCommit q i } }
  if s.wake && d.powerState != .run then { d with ghd := { d.ghd with wakeAsked := true } } else d

/-- D of every source that waits for queue q and is masked, or of all of them where the queue is full (R526). -/
def Dev.markDelayed (d : Dev) (q : Nat) (full : Bool) : Dev :=
  forUpTo 1024 (fun i d =>
    if d.waitsFor q i && (full || !(d.source i).en) then d.setSource i { d.source i with d := true } else d) d

/-- One decision of queue q (R526, R529, R539). (Log entry 195 DEDUCED.) -/
def eventCommitOp (q : Nat) (d : Dev) : Dev :=
  if d.queueFull q then
    if d.anyWaiting q then
      let d := d.markDelayed q true
      (d.wrB .evcStat 0 q true).satF .evcQqCount q 47 32 1 |>.refreshQfull q
    else d.refreshQfull q
  else
    let d := d.markDelayed q false
    let d := match d.chooseSource q with
      | some i => d.commitRecord q i
      | none => d
    d.refreshQfull q

/-- A raising of a pulse source, or the activation of a level source's input (R526). -/
def eventRaiseOp (i : Nat) (d : Dev) : Dev :=
  match srcKind i with
  | .pulse => d.raise i
  | .level => d.setLevel i true
  | .none => d

/-- A level source's input goes inactive (R527). -/
def levelInactiveOp (i : Nat) (d : Dev) : Dev := d.setLevel i false

/-- EVC_SET (R537): SW := 1, and E rises if it was inactive. (Log entry 51 DEDUCED.) -/
def evcSetOp (i : Nat) (d : Dev) : Dev :=
  let s := d.source i
  if s.e then d.setSource i { s with sw := true }
  else (d.setSource i { d.pend s .activation d.now with sw := true, rose := d.now }).latchWaits i

/-- EVC_ACK (R537, R538): S and SW clear; a held level still active is a fact again. -/
def evcAckOp (i : Nat) (d : Dev) : Dev :=
  let s := d.source i
  let s' := { s with s := false, sw := false }
  if s.s && s.l then d.setSource i (d.pend s' .activation d.now) else d.setSource i s'

/-- EVC_CLR (R537–R539): an uncommitted fact is discarded, and its queue has one source less waiting.
(Log entry 195 DEDUCED.) -/
def evcClrOp (i : Nat) (d : Dev) : Dev :=
  (d.setSource i { d.source i with p := false, m := false, d := false }).refreshQfull (d.source i).queue

/-- A write to EVC_Qq_POP (R533): CONS advances by one; ignored on an empty queue. -/
def queuePopOp (q : Nat) (d : Dev) : Dev :=
  if d.queueEmpty q then d else (d.wrapF .evcQqCons q 8 0 1).refreshQfull q

/-- A write to EVC_Qq_CONS (R533): accepted when (PROD − C) mod 512 is at most 256, else CFG_ERR. -/
def queueConsOp (q c : Nat) (d : Dev) : Dev :=
  let c := c % 512
  if (d.rdF .evcQqProd q 8 0 + 512 - c) % 512 ≤ 256 then (d.wrF .evcQqCons q 8 0 c).refreshQfull q
  else d.wrB .evcStat 0 10 true

/-- The alarm of target t is due: the device time stamp is at or past it by R24 (R540). -/
def Dev.alarmDue (d : Dev) (t : Nat) : Bool :=
  tget d.evc.armed false t && atOrPast d.now (d.rd .evcAlmt t)

/-- The alarm of target t fires once: source ALARM of the target's bank is raised and the alarm disarms (R540, R523). -/
def alarmFireOp (t : Nat) (d : Dev) : Dev :=
  if d.alarmDue t then
    { d with evc := { d.evc with armed := tset d.evc.armed t false } }.raise (64 * t + 34)
  else d

/-- A write to EVC_ALMt arms the alarm; a time already passed fires at once (R540). -/
def alarmArmOp (t : Nat) (time : Word) (d : Dev) : Dev :=
  let d := d.wr .evcAlmt t time
  alarmFireOp t { d with evc := { d.evc with armed := tset d.evc.armed t true } }

/-- EVC_SRCi_CFG as it reads (R544). -/
def srcCfgWord (i : Nat) (s : Source) : Word :=
  let w := setBit 0 19 s.m
  let w := setBit w 18 s.d
  let w := setBit w 17 s.s
  let w := setBit w 16 s.sw
  let w := setBit w 15 s.p
  let w := setBit w 14 s.l
  let w := setFld w 13 12 (match srcKind i with | .none => 0 | .pulse => 1 | .level => 2)
  let w := setFld w 11 10 s.posAxis
  let w := setBit w 9 s.wake
  let w := setFld w 7 5 s.target
  let w := setBit w 4 s.cls
  setBit w 0 s.en

/-- A write to EVC_SRCi_CFG (R524, R525, R530): TARGET of a private source is RO, and a write that places 5–7 there is ignored with CFG_ERR.
The queues that the source leaves and joins are judged anew (R539). (Log entry 195 DEDUCED.) -/
def srcCfgWrite (i : Nat) (w : Word) (d : Dev) : Dev :=
  let s := d.source i
  let t := fld w 7 5
  if 320 ≤ i && 5 ≤ t then d.wrB .evcStat 0 10 true
  else
    let s' := { s with en := bit w 0, cls := bit w 4, wake := bit w 9, posAxis := fld w 11 10,
                       target := if i < 320 then s.target else t }
    ((d.setSource i s').refreshQfull s.queue).refreshQfull s'.queue

/-- EVC_PENDj as it reads: bit b is P of source 48j + b (R544). -/
def Dev.pendWord (d : Dev) (j : Nat) : Word :=
  forUpTo 48 (fun b w => if 48 * j + b < 1024 && (d.source (48 * j + b)).p then setBit w b true else w) 0

/-- EVC_Qq_HEAD0 or HEAD1 (R533, R534): the record at CONS, or zero when the queue is empty, with the read's outcome. -/
def Dev.queueHead (d : Dev) (q k : Nat) : SramRead × Dev :=
  if d.queueEmpty q then (.ok 0, d)
  else d.sramRead (queueWord q (2 * (d.rdF .evcQqCons q 7 0) + k))

/-- The level inputs whose owner's domain is off go inactive (R541). (Log entry 53 DEDUCED.) -/
def Dev.dropDeadLevels (d : Dev) : Dev :=
  forUpTo 1024 (fun i d => if (d.source i).l && !d.srcLive i then d.setLevel i false else d) d

end Sys2Proof.Machine
end

