-- ==== Sys2Proof/Machine/Outputs.lean ====
section
/-! DEFINITION. The outputs O0–O47 of the field I/O die: what binds an output, the pulses due and active, driver states and
their faults (R59–R61, R609, R610, R620–R623). -/

namespace Sys2Proof.Machine

/-- The driver of output x. -/
def Dev.outDrv (d : Dev) (x : Nat) : OutDrv := tget d.fio.outs {} x

/-- The driver of output x replaced. -/
def Dev.setOutDrv (d : Dev) (x : Nat) (o : OutDrv) : Dev := { d with fio := { d.fio with outs := tset d.fio.outs x o } }

/-- STATE of FIO_Ox_STAT: 0 HIGHZ, 1 DRIVING, 2 SHUTOFF, 3 LOCKOUT. -/
def Dev.outState (d : Dev) (x : Nat) : Nat := d.rdF .fioOxStat x 2 0

/-- The outputs a generator's OUT register binds: select, enable and active level (true for high) of A and B. -/
def outBinds (out : Word) : List (Nat × Bool × Bool) :=
  [(fld out 5 0, bit out 6, !bit out 7), (fld out 13 8, bit out 14, !bit out 15)]

/-- Generator g is enabled and one of its enabled outputs is x. -/
def Dev.genHolds (d : Dev) (g x : Nat) : Bool :=
  d.rdB .sprTgnCfg g 0 && (outBinds (d.rd .sprTgnOut g)).any (fun b => b.2.1 && b.1 = x)

/-- The enabled generator that holds output x. (Log entry 222 DEDUCED.) -/
def Dev.outGen (d : Dev) (x : Nat) : Option Nat := (List.range 64).find? (fun g => d.genHolds g x)

/-- The owner channel of a resource (R324). -/
def Dev.ownerOf (d : Dev) (r : Resource) : Option Nat := (d.owners.find? (fun e => e.1 = r)).map (·.2)

/-- The scheduler of output x, if x is one of O32–O47. -/
def schedulerOf (x : Nat) : Option Nat := if 32 ≤ x ∧ x < 48 then some (x - 32) else none

/-- R610: bound to an enabled generator, owned by a channel, or driven by an enabled scheduler. -/
def Dev.outHeld (d : Dev) (x : Nat) : Bool :=
  (d.outGen x).isSome || (d.ownerOf (.oneShot x)).isSome ||
    (match schedulerOf x with | some k => d.rdB .sprActkCfg k 2 | none => false)

/-- Outputs of group g (8 to a group) show a fault: a NOW bit, SHUTOFF or LOCKOUT (R624). -/
def Dev.outGroupFault (d : Dev) (g : Nat) : Bool :=
  (List.range 8).any (fun i => d.rdF .fioOxStat (8 * g + i) 7 4 ≠ 0 || 2 ≤ d.outState (8 * g + i))

/-- The level sources and FIO_STAT that follow the drivers (R624, R625). -/
def Dev.refreshOutputs (d : Dev) (x : Nat) : Dev :=
  let d := d.setLevel (734 + x / 8) (d.outGroupFault (x / 8))
  let lock := (List.range 48).any (fun y => d.outState y = 3)
  let therm := (List.range 48).any (fun y => d.rdB .fioOxStat y 12)
  let d := (d.wrB .fioStat 0 0 lock).wrB .fioStat 0 1 therm
  (d.setLevel 741 lock).setLevel 742 therm

/-- A pulse inserted in order of its start. -/
def insertPulse (p : Pulse) : List Pulse → List Pulse
  | [] => [p]
  | q :: l => if strictlyPast q.start p.start then p :: q :: l else q :: insertPulse p l

/-- A pulse becomes due at output x. (Log entry 32 DEDUCED.) -/
def Dev.schedulePulse (d : Dev) (x : Nat) (p : Pulse) : Dev :=
  let o := d.outDrv x
  d.setOutDrv x { o with due := insertPulse p o.due }

/-- The driver takes pulses: DRIVING, not in a polarity check (R623), and the device not in FAILED (R582). -/
def Dev.outDrives (d : Dev) (x : Nat) : Bool :=
  d.outState x = 1 && (d.outDrv x).pchk.isNone && d.devState != .failed

/-- The first pulse due at output x starts, or is counted in MISSED; a pulse that starts while the output is active
moves its end (R59, R61, R623). -/
def outputPulseStartOp (x : Nat) (d : Dev) : Dev :=
  let o := d.outDrv x
  match o.due with
  | [] => d
  | p :: rest =>
    if atOrPast d.now p.start then
      if d.outDrives x then
        d.setOutDrv x { o with due := rest, active := some (p.start + wordOf p.width, p.level) }
      else
        (d.setOutDrv x { o with due := rest }).satF .fioOxCnt x 47 16 1
    else d

/-- The active pulse of output x reaches its end and the output returns to its inactive level (R59). -/
def outputPulseEndOp (x : Nat) (d : Dev) : Dev :=
  let o := d.outDrv x
  match o.active with
  | some (e, _) => if atOrPast d.now e then d.setOutDrv x { o with active := none } else d
  | none => d

/-- The active level of the output's binder, true for P high: the POL of the enabled generator that holds it; high where none does
(R609). (Log entry 222 DEDUCED.) -/
def Dev.outActiveHigh (d : Dev) (x : Nat) : Bool :=
  match d.outGen x with
  | some g => (outBinds (d.rd .sprTgnOut g)).any (fun b => b.2.1 && b.1 = x && b.2.2)
  | none => true

/-- The level at the pins of output x: none for high impedance, else whether P is above N; in FAILED every output drives its
inactive level (R582, R609). -/
def Dev.outLevel (d : Dev) (x : Nat) : Option Bool :=
  if d.devState = .failed then some (!d.outActiveHigh x)
  else if d.outState x = 1 && (d.outDrv x).pchk.isNone then
    (match (d.outDrv x).active with
     | some (_, l) => some l
     | none => some (!d.outActiveHigh x))
  else none

/-- A driver goes to SHUTOFF, or to LOCKOUT at the eighth shutoff within 1 s; an active pulse ends at once (R621–R623). -/
def Dev.shutOff (d : Dev) (x : Nat) (therm : Bool) : Dev :=
  let o := d.outDrv x
  let times := d.now :: recent d.now 1000000000 o.shutoffs
  let d := d.setOutDrv x { o with active := none, shutoffs := times, shutAt := d.now }
  let d := d.satF .fioOxCnt x 15 0 1
  let d := d.wrF .fioOxStat x 2 0 (if 8 ≤ times.length then 3 else 2)
  let d := if therm then d.wrB .fioOxStat x 12 true else d
  d.refreshOutputs x

/-- A leg has been at the current limit for 100 µs (R621). -/
def driverShutoffOp (x : Nat) (d : Dev) : Dev :=
  if d.outState x = 1 && (d.outDrv x).pchk.isNone then d.shutOff x false else d

/-- A driver reaches 150 °C (R622); one in SHUTOFF already only sets THERM. (Log entry 196 DEDUCED.) -/
def driverOvertempOp (x : Nat) (d : Dev) : Dev :=
  match d.outState x with
  | 1 => d.shutOff x true
  | 2 => (d.wrB .fioOxStat x 12 true).refreshOutputs x
  | _ => d

/-- STATE of a driver that is neither shut off nor locked out: DRIVING with EN 1, HIGHZ with EN 0 (R609).
(Log entry 221 DEDUCED.) -/
def Dev.enabledState (d : Dev) (x : Nat) : Nat := (d.rdB .fioOxCfg x 0).toNat

/-- RETRY_MS has passed since the shutoff, and a thermal shutoff has cooled below 130 °C: the driver tries again.
(Log entry 221 DEDUCED.) -/
def driverRetryOp (x : Nat) (temp : Int) (d : Dev) : Dev :=
  let o := d.outDrv x
  if d.outState x = 2 && d.rdF .fioOxCfg x 11 8 * 1000000 ≤ elapsed d.now o.shutAt &&
      (!d.rdB .fioOxStat x 12 || temp < 130) then
    ((d.wrF .fioOxStat x 2 0 (d.enabledState x)).wrB .fioOxStat x 12 false).refreshOutputs x
  else d

/-- UNLOCK returns a driver from LOCKOUT to DRIVING with its shutoff history cleared (R622), or to HIGHZ with EN 0 (R609).
(Log entry 221 DEDUCED.) -/
def unlockOp (x : Nat) (d : Dev) : Dev :=
  if d.outState x = 3 then
    let d := d.setOutDrv x { d.outDrv x with shutoffs := [] }
    ((d.wrF .fioOxStat x 2 0 (d.enabledState x)).wrB .fioOxStat x 12 false).refreshOutputs x
  else d

/-- PCHK (R620): a driver in HIGHZ or DRIVING with no pulse active goes to high impedance for 20 µs; at any other time the
write is ignored with CFG_ERR. (Log entry 196 DEDUCED.) -/
def polarityCheckOp (x : Nat) (d : Dev) : Dev :=
  let o := d.outDrv x
  if d.outState x ≤ 1 && o.active.isNone && o.pchk.isNone then
    d.setOutDrv x { o with pchk := some d.now }
  else d.wrB .fioOxStat x 13 true

/-- The end of a polarity check: the driver is out of its high impedance and PCHK is set from the far-end bias (R620). -/
def polarityCheckDoneOp (x : Nat) (mv : Int) (d : Dev) : Dev :=
  let o := d.outDrv x
  match o.pchk with
  | some t0 =>
    if 20000 ≤ elapsed d.now t0 then
      let r := if 50 ≤ mv then 1 else if mv ≤ -50 then 2 else 3
      let d := d.setOutDrv x { o with pchk := none }
      (d.wrF .fioOxStat x 15 14 r).raise 740
    else d
  | none => d

/-- EN of an output takes the driver between HIGHZ and DRIVING once the outputs are live (R609); one in SHUTOFF or LOCKOUT is in high
impedance already and stays there until its retry or UNLOCK (R621, R622). (Log entry 221 DEDUCED.) -/
def Dev.applyOutEn (d : Dev) (x : Nat) : Dev :=
  if !d.fio.live || decide (2 ≤ d.outState x) then d
  else
    let o := d.outDrv x
    let d := if d.enabledState x = 0 then d.setOutDrv x { o with active := none } else d
    (d.wrF .fioOxStat x 2 0 (d.enabledState x)).refreshOutputs x

end Sys2Proof.Machine
end

