-- ==== Sys2Proof/Machine/Records.lean ====
section
/-! DEFINITION. Heads as the trigger sequencer sees them: head states, trigger records and their loss (R150–R152, R169, R170),
and trigger packets requested on a link (R140). -/

namespace Sys2Proof.Machine

/-- Something leaves the block. (Log entry 10 DESIGN CHOICE.) -/
def Dev.emit (d : Dev) (m : OutMsg) : Dev := { d with outbox := d.outbox ++ [m] }

/-- Head h. -/
def Dev.head (d : Dev) (h : Nat) : CxiHead := tget d.cxi.heads {} h

/-- Head h replaced. -/
def Dev.setHead (d : Dev) (h : Nat) (x : CxiHead) : Dev := { d with cxi := { d.cxi with heads := tset d.cxi.heads h x } }

/-- The states of a head (R133). -/
inductive HeadState where
  | off | linking | linked | run | fenced | fault | plane
  deriving DecidableEq, Repr

/-- The code of a head state (CXI_HDh_STAT). -/
def HeadState.code : HeadState → Nat
  | .off => 0 | .linking => 1 | .linked => 2 | .run => 3 | .fenced => 4 | .fault => 5 | .plane => 6

/-- STATE of CXI_HDh_STAT. -/
def Dev.headState (d : Dev) (h : Nat) : HeadState :=
  match d.rdF .cxiHdhStat h 2 0 with
  | 1 => .linking | 2 => .linked | 3 => .run | 4 => .fenced | 5 => .fault | 6 => .plane | _ => .off

/-- A head in LINKED or RUN. -/
def Dev.headUp (d : Dev) (h : Nat) : Bool := d.headState h = .linked || d.headState h = .run

/-- Some head is running (R134). -/
def Dev.anyRunning (d : Dev) : Bool := (List.range 64).any (fun h => d.headState h = .run)

/-- Head h is enabled. -/
def Dev.headEn (d : Dev) (h : Nat) : Bool := d.rdB .cxiHdhCfg h 0

/-- FORMAT of head h is RGB8. -/
def Dev.headRgb (d : Dev) (h : Nat) : Bool := d.rdF .cxiHdhCfg h 10 9 = 3

/-- The heads that hold the planes of head h: itself, and h + 1 and h + 2 for RGB8 (R132). (Log entry 59 DEDUCED.) -/
def Dev.planes (d : Dev) (h : Nat) : List Nat := if d.headRgb h then [h, h + 1, h + 2] else [h]

/-- The head whose camera fills head h, or filled it last: itself, or the RGB8 head it is a plane of (R132). -/
def Dev.masterOf (d : Dev) (h : Nat) : Nat := ((d.head h).plane).getD h

/-- Head h runs: its camera's head is in RUN (R132, R134). -/
def Dev.headRuns (d : Dev) (h : Nat) : Bool :=
  let m := d.masterOf h
  d.headState m = .run && (m = h || d.headState h = .plane)

/-- How often the head that fills head h has left RUN. -/
def Dev.headExit (d : Dev) (h : Nat) : Nat := (d.head (d.masterOf h)).exits

/-- WIDTH of the camera that fills head h. -/
def Dev.camWidth (d : Dev) (h : Nat) : Nat := (d.rd .cxiHdhWidth (d.masterOf h)).toNat

/-- FIRST_LINK and the number of links of head h. -/
def Dev.headLinks (d : Dev) (h : Nat) : List Nat :=
  let n := 2 ^ d.rdF .cxiHdhCfg h 15 14
  (List.range n).map (fun i => d.rdF .cxiHdhCfg h 21 16 + i)

/-- The link group of head h. -/
def Dev.headGroup (d : Dev) (h : Nat) : Nat := d.rdF .cxiHdhCfg h 21 16 / 16

/-- The enabled head that takes its records from generator g. -/
def Dev.headOfGen (d : Dev) (g : Nat) : Option Nat :=
  (List.range 64).find? (fun h => d.headEn h && d.rdF .cxiHdhCfg h 27 22 = g)

/-- The enabled head that has link l. -/
def Dev.headOfLink (d : Dev) (l : Nat) : Option Nat :=
  (List.range 64).find? (fun h => d.headEn h && (d.headLinks h).contains l)

/-- The event of head h. -/
def Dev.headEvent (d : Dev) (h : Nat) : Dev := d.raise (448 + h)

/-- A lost or discarded line of head h: one more line, and the event at most once per 1,024 lines for each cause (R170);
cause 8 stands for EXTRA. -/
def Dev.lossEvent (d : Dev) (h cause : Nat) : Dev :=
  let x := d.head h
  let due := match tfind x.lossAt cause with
    | some n => decide (1024 ≤ x.ordinal - n)
    | none => true
  if due then (d.setHead h { x with lossAt := tset x.lossAt cause x.ordinal }).headEvent h else d

/-- One more line of head h. -/
def Dev.countLine (d : Dev) (h : Nat) : Dev := d.setHead h { d.head h with ordinal := (d.head h).ordinal + 1 }

/-- A line discarded as EXTRA (R135, R149, R150). -/
def Dev.extraLine (d : Dev) (h : Nat) : Dev :=
  ((d.satF .cxiHdhLoss h 47 32 1).countLine h).lossEvent h 8

/-- A line is damaged when it is LOST, PARTIAL or holds a poisoned word (R310). (Log entry 61 DEDUCED.) -/
def StgLine.damaged (l : StgLine) : Bool := l.lost || l.part || l.poison

/-- The causes of a line as a mask: bit cause − 1, and bit 6 for poison. (Log entry 61 DEDUCED.) -/
def StgLine.causeMask (l : StgLine) : Nat :=
  (if l.cause = 0 then 0 else 2 ^ (l.cause - 1)) + (if l.poison then 64 else 0)

/-- Lines counted in the tally in order, up to the first that has not ended: the list, and what is added. -/
def passEnded : List StgLine → List StgLine × List (Bool × Nat)
  | [] => ([], [])
  | l :: ls =>
    if l.passed then
      let r := passEnded ls
      (l :: r.1, r.2)
    else if l.ended then
      let r := passEnded ls
      ({ l with passed := true } :: r.1, (l.damaged, l.causeMask) :: r.2)
    else (l :: ls, [])

/-- The ended lines of head h are passed to Chamois in order, and a started tally counts them (R152, R310). -/
def Dev.passLines (d : Dev) (h : Nat) : Dev :=
  let x := d.head h
  let r := passEnded x.lines
  d.setHead h { x with lines := r.1, tally := x.tally.map (· ++ r.2) }

/-- RECQ of head h follows its queue. -/
def Dev.refreshRecq (d : Dev) (h : Nat) : Dev := d.wrF .cxiHdhRecq h 5 0 (d.head h).records.length

/-- A record becomes a LOST line of each plane (R151, R169): causes 1 NO_LINE, 2 QUEUE, 5 LINK. -/
def Dev.loseRecord (d : Dev) (h cause : Nat) (r : TrigRecord) : Dev :=
  let l : StgLine := { line := r.line, pos := r.pos, fire := r.time, ast := r.st, lost := true, part := true,
                       cause := cause, ended := true, width := (d.rd .cxiHdhWidth h).toNat, exit := d.headExit h }
  let d := (d.planes h).foldl (fun d p =>
    (d.setHead p { d.head p with lines := (d.head p).lines ++ [l] }).passLines p) d
  ((d.satF .cxiHdhLoss h 15 0 1).countLine h).lossEvent h cause

/-- A trigger record arrives (R150, R151): queued for a head in LINKED or RUN, discarded otherwise; with 32 queued the
oldest is lost. (Log entry 29 DEDUCED.) -/
def Dev.takeRecord (d : Dev) (r : TrigRecord) : Dev :=
  match d.headOfGen r.gen with
  | none => d
  | some h =>
    if d.headUp h then
      let d := match (d.head h).records with
        | o :: rest =>
          if 32 ≤ (d.head h).records.length then
            (d.setHead h { d.head h with records := rest }).loseRecord h 2 o
          else d
        | [] => d
      (d.setHead h { d.head h with records := (d.head h).records ++ [r] }).refreshRecq h
    else d

/-- A trigger packet placed by its fire time, after those of the same time (R141). -/
def insertTrig (p : TrigPkt) : List TrigPkt → List TrigPkt
  | [] => [p]
  | q :: l => if strictlyPast q.fire p.fire then p :: q :: l else q :: insertTrig p l

/-- Link l is the FIRST_LINK of a head in LINKED or RUN (R140). -/
def Dev.trigLink (d : Dev) (l : Nat) : Bool :=
  match d.headOfLink l with
  | some h => d.headUp h && d.rdF .cxiHdhCfg h 21 16 = l
  | none => false

/-- A trigger packet requested on a link (R140): queued in the order of fire times on the FIRST_LINK of a head in LINKED or
RUN, dropped and counted elsewhere. -/
def Dev.requestTrig (d : Dev) (l : Nat) (p : TrigPkt) : Dev :=
  if d.trigLink l then { d with cxi := { d.cxi with trigQ := tset d.cxi.trigQ l (insertTrig p (tget d.cxi.trigQ [] l)) } }
  else d.satF .cxiMisroute 0 31 0 1

end Sys2Proof.Machine
end

