-- ==== Sys2Proof/Machine/Spr.lean ====
section
/-! DEFINITION. Spoor: acquisition, the update at each edge, COAST, faults, fallback and slip (R31–R47), trigger generators
(R51–R64) and actuator schedulers (R65–R67). -/

namespace Sys2Proof.Machine

/-! ### Trackers and scheduler queues -/

/-- One tracker of axis a. -/
def Dev.tracker (d : Dev) (a : Nat) (sel : TrackerSel) : Tracker := (d.axis a).tracker sel

/-- One tracker of axis a replaced. -/
def Dev.setTracker (d : Dev) (a : Nat) (sel : TrackerSel) (k : Tracker) : Dev :=
  d.setAxis a ((d.axis a).withTracker sel k)

/-- The queue of scheduler k. -/
def Dev.actQueue (d : Dev) (k : Nat) : List ActEntry := tget d.spr.acts [] k

/-- The queue of scheduler k replaced. -/
def Dev.setActQueue (d : Dev) (k : Nat) (l : List ActEntry) : Dev :=
  { d with spr := { d.spr with acts := tset d.spr.acts k l } }

/-- The axis of scheduler k. -/
def Dev.actAxis (d : Dev) (k : Nat) : Nat := d.rdF .sprActkCfg k 1 0

/-! ### Trigger generators (R51–R64) -/

/-- The hidden state of generator g. -/
def Dev.gen (d : Dev) (g : Nat) : Gen := tget d.spr.gens {} g

/-- The hidden state of generator g replaced. -/
def Dev.setGen (d : Dev) (g : Nat) (x : Gen) : Dev := { d with spr := { d.spr with gens := tset d.spr.gens g x } }

/-- The axis a generator is bound to. -/
def Dev.genAxis (d : Dev) (g : Nat) : Nat := d.rdF .sprTgnCfg g 2 1

/-- The material position of a generator's axis: the axis position minus STAGGER (R52). -/
def Dev.material (d : Dev) (g : Nat) : P48 := d.axisPos (d.genAxis g) - d.rd .sprTgnStagger g

/-- The number of the last grid point at or before a material position: PHASE + k × PITCH. -/
def gridIndex (phase pitch : Word) (m : P48) : Int := (m.toInt - phase.toInt).fdiv pitch.toInt

/-- Grid point k. -/
def gridPoint (phase pitch : Word) (k : Int) : P48 := wordOfInt (phase.toInt + k * pitch.toInt)

/-- The grid index of a generator at a material position. -/
def Dev.gridIdx (d : Dev) (g : Nat) (m : P48) : Int := gridIndex (d.rd .sprTgnPhase g) (d.rd .sprTgnPitch g) m

/-- A grid point of a generator. -/
def Dev.gridPt (d : Dev) (g : Nat) (k : Int) : P48 := gridPoint (d.rd .sprTgnPhase g) (d.rd .sprTgnPitch g) k

/-- The most negative enabled offset of a generator, as a magnitude (R54). -/
def negOffset (out ofs : Word) : Nat :=
  let a := if bit out 6 then sfld ofs 15 0 else 0
  let b := if bit out 14 then sfld ofs 31 16 else 0
  (-(min 0 (min a b))).toNat

/-- The lead time L of a generator (R54). -/
def Dev.leadTime (d : Dev) (g : Nat) : Nat := 16 + negOffset (d.rd .sprTgnOut g) (d.rd .sprTgnOfs g)

/-- The later of two stamps by R24. -/
def laterOf (x y : Word) : Word := if atOrPast x y then x else y

/-- The pulses of a fire at time T: each enabled output at its offset, a negative one taken as 0 in ACQUIRE (R60), not
before 16 ns after the fix (R59, R645). (Log entry 32 DEDUCED.) -/
def Dev.firePulses (d : Dev) (out ofs : Word) (t : Word) (st : AxState) : Dev :=
  let one (d : Dev) (en : Bool) (sel : Nat) (pol : Bool) (o : Int) : Dev :=
    if en then
      let o := if st = .acquire then max o 0 else o
      let s := t + wordOfInt o
      let s := if st = .acquire then s else laterOf s (d.now + 16)
      d.schedulePulse sel { start := s, width := fld out 27 16, level := !pol }
    else d
  let d := one d (bit out 6) (fld out 5 0) (bit out 7) (sfld ofs 15 0)
  one d (bit out 14) (fld out 13 8) (bit out 15) (sfld ofs 31 16)

/-- The CXP packets of a fire: rising at the fire time, falling WIDTH ns later (R62). -/
def Dev.firePackets (d : Dev) (cxp out : Word) (t : Word) : Dev :=
  if bit cxp 15 then
    let l := fld cxp 13 8
    let d := d.requestTrig l { fire := t, rising := true }
    if bit cxp 14 then
      let u := t + wordOf (fld out 27 16)
      d.requestTrig l { fire := u, rising := false }
    else d
  else d

/-- A generator fires: LINE, the time of the fire, the trigger record and the CXP packets (R58, R62). (Log entry 30 DEDUCED.) -/
def Dev.fireNow (d : Dev) (g : Nat) (f : FixedFire) : Dev :=
  let d := d.wr .sprTgnLine g f.line
  let d := d.setGen g { d.gen g with lastFire := some f.time }
  let d := d.firePackets f.cxp f.out f.time
  d.takeRecord { gen := g, line := f.line, pos := f.pos, st := f.st, time := f.time }

/-- The fire of grid point k at a time, with the settings in force; its axis state is the one at the fix.
(Log entry 152 DESIGN CHOICE.) -/
def Dev.newFire (d : Dev) (g : Nat) (k : Int) (pos : P48) (t : Word) (counted : Bool) : FixedFire :=
  { time := t, line := wordOfInt k, pos := pos, st := d.axisState (d.genAxis g), counted := counted,
    cxp := d.rd .sprTgnCxp g, out := d.rd .sprTgnOut g, pitch := d.rd .sprTgnPitch g }

/-- A fire is fixed behind those fixed before it: its pulses are certain from here on (R54, R645). -/
def Dev.fixFire (d : Dev) (g : Nat) (f : FixedFire) : Dev :=
  let d := d.setGen g { d.gen g with fixed := (d.gen g).fixed ++ [f] }
  d.firePulses f.out (d.rd .sprTgnOfs g) f.time f.st

/-- The fires of generator g that are fixed and whose points are not yet passed. -/
def Gen.ahead (x : Gen) : List FixedFire := x.fixed.filter (fun f => !f.counted)

/-- Generator g waits for its fixed fires before it takes the new grid of a commit (R64). -/
def Gen.held (x : Gen) : Bool := x.regrid && x.ahead ≠ []

/-- MIN_INT has passed at a time since the generator's previous fire, the last one fixed included (R56).
(Log entry 29 DEDUCED.) -/
def Dev.minIntOk (d : Dev) (g : Nat) (t : Word) : Bool :=
  let m := (d.rd .sprTgnMinInt g).toNat
  match (d.gen g).fixed.getLast?, (d.gen g).lastFire with
  | some f, _ => decide ((m : Int) ≤ (t - f.time).toInt)
  | none, some u => decide (m ≤ elapsed t u)
  | none, none => true

/-- Nanoseconds from now to the first moment at which MIN_INT allows a fire; not positive where it does already. -/
def Dev.minIntWait (d : Dev) (g : Nat) : Int :=
  let m : Int := (d.rd .sprTgnMinInt g).toNat
  match (d.gen g).fixed.getLast?, (d.gen g).lastFire with
  | some f, _ => (f.time - d.now).toInt + m
  | none, some u => m - elapsed d.now u
  | none, none => 0

/-- Points that do not fire are counted in DROP and raise the generator's event (R56); out of service none is (R53). -/
def Dev.dropPoints (d : Dev) (g n : Nat) : Dev :=
  if n = 0 || !d.inService then d else (d.satF .sprTgnDrop g 31 0 n).raise (352 + g)

/-- The generator is enabled and its axis in ACQUIRE, TRACK or COAST (R53). -/
def Dev.genLive (d : Dev) (g : Nat) : Bool :=
  let st := d.axisState (d.genAxis g)
  d.rdB .sprTgnCfg g 0 && (st = .acquire || st = .track || st = .coast)

/-- The axis of a generator moves in TRACK or COAST. -/
def Dev.genTracks (d : Dev) (g : Nat) : Bool :=
  let st := d.axisState (d.genAxis g)
  d.rdB .sprTgnCfg g 0 && (st = .track || st = .coast)

/-- The least number from lo up to hi that passes a test, by bisection; hi passes. -/
def bisect (test : Nat → Bool) : Nat → Nat → Nat → Nat
  | 0, _, hi => hi
  | n + 1, lo, hi =>
    if hi ≤ lo then hi
    else
      let mid := (lo + hi) / 2
      if test mid then bisect test n lo mid else bisect test n (mid + 1) hi

/-- When the present estimate of axis a reached a position it is at or past now, to 1 ns: not before the last accepted edge. -/
def Dev.reachedAt (d : Dev) (a : Nat) (pos : P48) : Word :=
  let span := min (elapsed d.now (d.tracker (d.axisOf a) .main).t) (2 ^ 33)
  let t0 := d.now - wordOf span
  t0 + wordOf (bisect (fun x => atOrPast (d.axisPosAt a (t0 + wordOf x)) pos) 34 0 span)

/-- The point of a fixed fire is passed: NEXT and HWM follow it on its own grid, and the points before it that do not fire are
dropped (R56, R64). -/
def Dev.passFixed (d : Dev) (g : Nat) (f : FixedFire) : Dev :=
  let next := d.rd .sprTgnNext g
  if f.counted || !atOrPast f.pos next then d
  else
    let n := (f.pos - next).toNat / max 1 f.pitch.toNat
    ((d.wr .sprTgnNext g (f.pos + f.pitch)).wr .sprTgnHwm g f.pos).dropPoints g n

/-- The material position m is reached moving forward: NEXT and HWM advance past the points passed, the last of them fires
unless one of them is fixed already or MIN_INT forbids it, and the others are dropped (R53, R55, R56). MIN_INT is judged at
the moment the point is reached; a point found reached is fired at once (R645). (Log entry 30 DEDUCED.) -/
def Dev.passPoints (d : Dev) (g : Nat) (m : P48) : Dev :=
  let next := d.rd .sprTgnNext g
  let x := d.gen g
  if !atOrPast m next || x.held then d
  else
    let k := d.gridIdx g m
    let n := (k - d.gridIdx g next + 1).toNat
    let pt := d.gridPt g k
    let hit := x.ahead.filter (fun f => atOrPast m f.pos)
    let d := (d.wr .sprTgnNext g (d.gridPt g (k + 1))).wr .sprTgnHwm g pt
    let d := d.setGen g { x with fixed := x.fixed.map (fun f => if atOrPast m f.pos then { f with counted := true } else f) }
    if !d.inService || hit ≠ [] then d.dropPoints g (n - hit.length)
    else if d.axisState (d.genAxis g) = .acquire then
      (if d.minIntOk g d.now then
         let f := d.newFire g k m d.now true
         (((d.dropPoints g (n - 1)).firePulses f.out (d.rd .sprTgnOfs g) f.time f.st)).fireNow g f
       else d.dropPoints g n)
    else if d.minIntOk g (d.reachedAt (d.genAxis g) (pt + d.rd .sprTgnStagger g)) then
      (d.dropPoints g (n - 1)).fixFire g (d.newFire g k pt (d.now + 16) true)
    else d.dropPoints g n

/-- R54, R645: every fire that the estimate brings within the lead time is fixed, to 1 ns; a computed time less than 16 ns
ahead becomes 16 ns ahead. Points reached before MIN_INT allows a fire are left out: they will be dropped as they pass. -/
def Dev.fixAhead (g : Nat) : Nat → Dev → Dev
  | 0, d => d
  | n + 1, d =>
    let a := d.genAxis g
    let l := d.leadTime g
    let mat (t : Word) : P48 := d.axisPosAt a t - d.rd .sprTgnStagger g
    let j0 := match (d.gen g).ahead.getLast? with
      | some f => d.gridIdx g f.pos + 1
      | none => d.gridIdx g (d.rd .sprTgnNext g)
    let u := d.minIntWait g
    let j := if u ≤ 0 then j0 else max j0 (d.gridIdx g (mat (d.now + wordOfInt (u - 1))) + 1)
    let reached (x : Nat) : Bool := atOrPast (mat (d.now + wordOf x)) (d.gridPt g j)
    if u ≤ l && reached l then
      let t := d.now + wordOf (max 16 (bisect reached 20 0 l))
      Dev.fixAhead g n (d.fixFire g (d.newFire g j (d.gridPt g j) t false))
    else d

/-- Fires of an enabled generator in service, its axis in TRACK or COAST and moving forward, are fixed (R53, R54, R57). -/
def Dev.fixNext (d : Dev) (g : Nat) : Dev :=
  if d.inService && d.genTracks g && !d.axisBackward (d.genAxis g) && !(d.gen g).held then d.fixAhead g 40 else d

/-- The points of generator g that its axis has passed, where it moves forward (R56, R57). -/
def Dev.settleGen (d : Dev) (g : Nat) : Dev :=
  if d.genTracks g && !d.axisBackward (d.genAxis g) then d.passPoints g (d.material g) else d

/-- What a generator does at a look at its timer: points passed, then fires fixed (R54–R56). -/
def Dev.pollGen (d : Dev) (g : Nat) : Dev := (d.settleGen g).fixNext g

/-- What a generator does at an accepted edge: in ACQUIRE it can fire only there, and only at a forward one (R54–R57). -/
def Dev.edgeGen (d : Dev) (g : Nat) : Dev :=
  let d := if d.genLive g && !d.axisBackward (d.genAxis g) then d.passPoints g (d.material g) else d
  d.fixNext g

/-- f done for every generator whose axis reads axis a's estimate. -/
def Dev.forGens (d : Dev) (a : Nat) (f : Dev → Nat → Dev) : Dev :=
  forUpTo 64 (fun g d => if d.axisOf (d.genAxis g) = a then f d g else d) d

/-- Every generator passes the points its axis has reached. -/
def Dev.settleAll (d : Dev) : Dev := forUpTo 64 (fun g d => d.settleGen g) d

/-- NEXT becomes the first point of the grid in force strictly past HWM (R64). -/
def Dev.regridGen (d : Dev) (g : Nat) : Dev :=
  (d.wr .sprTgnNext g (d.gridPt g (d.gridIdx g (d.rd .sprTgnHwm g) + 1))).setGen g { d.gen g with regrid := false }

/-- R64: after a commit, a generator takes the new grid: at once, or after the fires fixed under the old one. -/
def Dev.regridLater (d : Dev) (g : Nat) : Dev :=
  if (d.gen g).ahead = [] then d.regridGen g else d.setGen g { d.gen g with regrid := true }

/-- TRIGGER_FIX: the lead time before the computed fire time has come (R54). -/
def triggerFixOp (g : Nat) (d : Dev) : Dev := d.pollGen g

/-- TRIGGER_FIRE: the first fixed fire takes place at its time; its point counts as passed, and a new grid waiting for it
applies. With no fire due, points passed without one are dropped or fixed at once (R56, R64, R645). -/
def triggerFireOp (g : Nat) (d : Dev) : Dev :=
  match (d.gen g).fixed with
  | f :: rest =>
    if atOrPast d.now f.time then
      let d := d.passFixed g f
      let d := (d.setGen g { d.gen g with fixed := rest }).fireNow g f
      if (d.gen g).regrid && (d.gen g).ahead = [] then d.regridGen g else d
    else d.pollGen g
  | [] => d.pollGen g

/-- R51: the settings allow generator g to be enabled, given the words in force. (Log entries 31 DEDUCED, 130 DEDUCED.) -/
def Dev.genValid (d : Dev) (g : Nat) : Bool :=
  let pitch := (d.rd .sprTgnPitch g).toNat
  let out := d.rd .sprTgnOut g
  let minInt := (d.rd .sprTgnMinInt g).toNat
  let sels := ((outBinds out).filter (fun b => b.2.1)).map (fun b => b.1)
  decide (16 ≤ pitch) && decide ((d.rd .sprTgnPhase g).toNat < pitch) && decide (1000 ≤ minInt) &&
    decide (fld out 27 16 + 20 ≤ minInt) && sels.all (fun x => decide (x < 32)) &&
    (List.range 64).all (fun h => h = g || sels.all (fun x => !d.genHolds h x))

/-- A refused enable or setting of generator g (R51, R63, R72). -/
def Dev.genCfgErr (d : Dev) (g : Nat) : Dev := (d.wrB .sprTgnCfg g 3 true).raise (352 + g)

/-- HWM and NEXT at enabling (R52). -/
def Dev.startGen (d : Dev) (g : Nat) : Dev :=
  let m := d.material g
  (d.wr .sprTgnHwm g m).wr .sprTgnNext g (d.gridPt g (d.gridIdx g m + 1))

/-- EN of generator g cleared: the points passed until now count, and the fires fixed take place apart from the grid (R54). -/
def Dev.stopGen (d : Dev) (g : Nat) : Dev :=
  let d := d.settleGen g
  let x := d.gen g
  let d := if x.fixed = [] && !x.regrid then d
    else d.setGen g { x with regrid := false, fixed := x.fixed.map (fun f => { f with counted := true }) }
  d.wrB .sprTgnCfg g 0 false

/-- EN of generator g takes a value, where R51 allows it (R51, R52). -/
def Dev.setGenEn (g : Nat) (en : Bool) (d : Dev) : Dev :=
  if !en then d.stopGen g
  else if d.rdB .sprTgnCfg g 0 then d
  else if d.genValid g then (d.wrB .sprTgnCfg g 0 true).startGen g
  else d.genCfgErr g

/-! ### Actuator schedulers (R65–R67) -/

/-- R67: scheduler k discards the entries at or before a position, counts them and raises its event. MISSED saturates.
(Log entries 153 DEDUCED, 200 DESIGN CHOICE.) -/
def Dev.discardPassed (d : Dev) (k : Nat) (p : P48) : Dev :=
  let l := d.actQueue k
  let n := (l.filter (fun e => atOrPast p e.pos)).length
  if n = 0 then d
  else ((d.setActQueue k (l.filter (fun e => !atOrPast p e.pos))).satF .sprActkMissed k 31 0 n).raise (416 + k)

/-- The entries of scheduler k that its axis is past without having fired them never fire late: they wait until the axis has
gone back before them (R66, R67). (Log entry 153 DEDUCED.) -/
def Dev.markLate (d : Dev) (k : Nat) : Dev :=
  let p := d.axisPos (d.actAxis k)
  d.setActQueue k ((d.actQueue k).map (fun e => { e with late := atOrPast p e.pos }))

/-- The entries of scheduler k that its axis has gone back before can be reached again. (Log entry 153 DEDUCED.) -/
def Dev.freshenAct (d : Dev) (k : Nat) : Dev :=
  if (d.actQueue k).any (fun e => e.late) then
    let p := d.axisPos (d.actAxis k)
    d.setActQueue k ((d.actQueue k).map (fun e => { e with late := e.late && atOrPast p e.pos }))
  else d

/-- The entries of the schedulers of axis a that the axis has gone back before can be reached again. (Log entry 153 DEDUCED.) -/
def Dev.freshenActs (d : Dev) (a : Nat) : Dev :=
  forUpTo 16 (fun k d => if d.axisOf (d.actAxis k) = a then d.freshenAct k else d) d

/-- Every scheduler marks what its axis is past. (Log entry 153 DEDUCED.) -/
def Dev.markAllLate (d : Dev) : Dev := forUpTo 16 (fun k d => if d.actQueue k = [] then d else d.markLate k) d

/-- The outcome of a push (R65, R309). -/
inductive PushResult where
  | taken | full | notPast
  deriving DecidableEq, Repr

/-- An entry pushed into scheduler k at the position of SPR_ACTk_POS or of an ACT entry (R65). The last entry queued is the
last one still in the queue. (Log entries 153 DEDUCED, 154 DESIGN CHOICE.) -/
def Dev.pushAct (d : Dev) (k : Nat) (pos : P48) (w : Word) : PushResult × Dev :=
  let l := d.actQueue k
  let refuse (d : Dev) : Dev := (d.wrB .sprActkMissed k 47 true).raise (416 + k)
  if 16 ≤ l.length then (.full, refuse d)
  else if (match l.getLast? with | some e => !strictlyPast pos e.pos | none => false) then (.notPast, refuse d)
  else
    let late := atOrPast (d.axisPos (d.actAxis k)) pos
    (.taken, d.setActQueue k (l ++ [{ pos := pos, widthUs := fld w 31 16, level := bit w 0, late := late }]))

/-- A write to SPR_ACTk_PUSH (R65). -/
def actPushOp (k : Nat) (w : Word) (d : Dev) : Dev := (d.pushAct k (d.rd .sprActkPos k) w).2

/-- The head entry of scheduler k fires when its axis has reached it moving forward (R66); out of service it waits and is then
late. (Log entries 153 DEDUCED, 155 DESIGN CHOICE.) -/
def actFireOp (k : Nat) (d : Dev) : Dev :=
  let a := d.actAxis k
  let st := d.axisState a
  match d.actQueue k with
  | e :: rest =>
    if d.rdB .sprActkCfg k 2 && d.inService && (st = .acquire || st = .track || st = .coast) && !e.late &&
        !d.axisBackward a && atOrPast (d.axisPos a) e.pos then
      (d.setActQueue k rest).schedulePulse (32 + k) { start := d.now, width := e.widthUs * 1000, level := e.level }
    else d
  | [] => d

/-- EN of scheduler k: what its axis has passed while it was off is late. -/
def Dev.actEnable (d : Dev) (k : Nat) (en : Bool) : Dev :=
  let was := d.rdB .sprActkCfg k 2
  let d := d.wrB .sprActkCfg k 2 en
  if en && !was then d.markLate k else d

/-! ### One-shots of channels (R305, R307, R308) -/

/-- A channel beyond its registers. -/
def Dev.chan (d : Dev) (c : Nat) : Chan := tget d.ibx.chans {} c

/-- A channel replaced. -/
def Dev.setChan (d : Dev) (c : Nat) (x : Chan) : Dev := { d with ibx := { d.ibx with chans := tset d.ibx.chans c x } }

/-- The command in progress of a channel replaced. -/
def Dev.setRun (d : Dev) (c : Nat) (r : ChanRun) : Dev := d.setChan c { d.chan c with run := some r }

/-- An axis reaches a position moving forward, by the rule of R66, `ahead` ns from now. -/
def Dev.axisReaches (d : Dev) (a : Nat) (pos : P48) (ahead : Nat) : Bool :=
  let st := d.axisState a
  (st = .acquire || st = .track || st = .coast) && !d.axisBackward a && atOrPast (d.axisPosAt a (d.now + wordOf ahead)) pos

/-- The pulse of a FIRE at a time, and its trigger packet (R307). -/
def Dev.oneShot (d : Dev) (out : Nat) (w1 : Word) (t : Word) : Dev :=
  let d := d.schedulePulse out { start := t, width := fld w1 11 0, level := !bit w1 12 }
  if bit w1 13 then d.requestTrig (fld w1 19 14) { fire := t, rising := true } else d

/-- A FIRE that its axis, in TRACK or COAST and in service, reaches within the lead time of 16 ns is fixed, 16 ns ahead (R54,
R307, R645). (Log entry 191 DEDUCED.) -/
def Dev.fixShot (d : Dev) (c : Nat) : Dev :=
  match (d.chan c).run with
  | some r =>
    match r.op with
    | .fire a out pos w1 none =>
      if d.inService && r.cut.isNone && d.axisState a ≠ .acquire && (d.outGen out).isNone && d.axisReaches a pos 16 then
        (d.oneShot out w1 (d.now + 16)).setRun c { r with op := .fire a out pos w1 (some (d.now + 16)) }
      else d
    | _ => d
  | none => d

/-- The channels with a command in progress. -/
def Dev.busyChans (d : Dev) : List Nat := (d.ibx.chans.filter (fun e => e.2.run.isSome)).map (·.1)

/-- The FIREs on an axis that are within the lead time are fixed before its state changes (R54). (Log entry 191 DEDUCED.) -/
def Dev.fixShots (d : Dev) : Dev := d.busyChans.foldl Dev.fixShot d

/-- What a FAULT of axis b brings the POSWAITs and the FIREs not yet fixed that wait on it: NOT_READY, sub-code 05h, but OK to a
POSWAIT whose position the axis had reached (R302, R308). (Log entry 191 DEDUCED.) -/
def Dev.cutWaits (d : Dev) (b : Nat) : Dev :=
  d.busyChans.foldl (fun d c =>
    match (d.chan c).run with
    | some r =>
      if r.cut.isSome then d
      else
        match r.op with
        | .poswait a pos =>
          if a = b then d.setRun c { r with cut := some (if atOrPast (d.axisPos b) pos then (0, 0) else (0x38, 5)) } else d
        | .fire a _ _ _ none => if a = b then d.setRun c { r with cut := some (0x38, 5) } else d
        | _ => d
    | none => d) d

/-! ### State changes of an axis (R31, R68) -/

/-- The level sources of axis a follow its state and direction (R68). -/
def Dev.refreshLevels (d : Dev) (a : Nat) : Dev :=
  let st := d.axisState a
  let d := d.setLevel (321 + 8 * a) (st = .coast)
  let d := d.setLevel (322 + 8 * a) (st = .fault)
  d.setLevel (326 + 8 * a) (d.axisBackward a)

/-- Axis a's estimate has changed: the levels of the axes that read it, and of axis a itself, follow. -/
def Dev.refreshAxis (d : Dev) (a : Nat) : Dev :=
  (if (d.readersOf a).contains a then d.readersOf a else a :: d.readersOf a).foldl Dev.refreshLevels d

/-- The slip window runs while both encoders are in TRACK (R45). -/
def Dev.refreshSlip (d : Dev) (a : Nat) : Dev :=
  let x := d.axis a
  let both := x.main.st = .track && x.shadow.st = .track
  match x.slip with
  | none =>
    if both then
      d.setAxis a { x with slip := some (d.rd .sprEncnCount (d.rdF .sprAxnCtl a 6 4), d.rd .sprEncnCount (d.rdF .sprAxnCtl a 10 8)) }
    else d
  | some _ => if both then d else d.setAxis a { x with slip := none }

/-- What axis b reports of a change of the estimate it reads from one tracker to another: the events of R68, COAST_POS and
COAST_END (R38, R40), and EVER_TRACK. Where COAST ends by re-acquisition, the position left is the re-aligned one.
(Log entry 156 DESIGN CHOICE.) -/
def Dev.reportMove (old k : Tracker) (d : Dev) (b : Nat) : Dev :=
  let d := if k.st = .track then d.setAxis b { d.axis b with everTrack := true } else d
  let d := if old.st = .fault then d.setAxis b { d.axis b with presetPend := false } else d
  let d := if k.st = .coast then d.wr .sprAxnCoastPos b k.coastPos else d
  let d := if old.st = .coast then d.wr .sprAxnCoastEnd b k.p else d
  let d := if k.st = .track || k.st = .idle then d.raise (320 + 8 * b) else d
  if k.st = .acquire && (old.st = .track || old.st = .coast) then d.raise (323 + 8 * b) else d

/-- The lead's armed commit is to be cancelled once the axis it names has entered FAULT (R104); `hit` tells the axes that did. -/
def Dev.noteFault (d : Dev) (hit : Nat → Bool) : Dev :=
  match d.hlk.commit with
  | some c =>
    if c.phase = .armed && hit c.req.axis.val then { d with hlk := { d.hlk with commit := some { c with faulted := true } } }
    else d
  | none => d

/-- R67: the schedulers of the axes `sel` picks discard the entries at or before a position. -/
def Dev.discardActs (d : Dev) (sel : Dev → Nat → Bool) (p : P48) : Dev :=
  forUpTo 16 (fun s d => if sel d (d.actAxis s) then d.discardPassed s p else d) d

/-- Axis a takes a new estimate in a new state: its readers report it, and schedulers discard what was passed when the axis
leaves FAULT or IDLE (R67). The edge that takes IDLE to ACQUIRE reaches the entries of its own step (R66).
(Log entries 24 DEDUCED, 153 DEDUCED.) -/
def Dev.moveAxis (d : Dev) (a : Nat) (k : Tracker) : Dev :=
  let old := d.tracker a .main
  if old.st = k.st then (d.setTracker a .main k).refreshAxis a
  else
    let reads (d : Dev) (b : Nat) : Bool := decide (d.axisOf b = a)
    let d := (d.forGens a Dev.settleGen).fixShots
    let d := if old.st = .idle then d.discardActs reads old.p else d
    let d := d.setTracker a .main k
    let d := (d.readersOf a).foldl (Dev.reportMove old k) d
    let d := (d.refreshAxis a).refreshSlip a
    let d := if k.st = .fault then (d.readersOf a).foldl Dev.cutWaits (d.noteFault (reads d)) else d
    let d :=
      if old.st = .idle && k.st = .acquire then
        (if k.fwd then d.discardActs reads (k.p - wordOf (d.spacing a .main)) else d)
      else if old.st = .idle || old.st = .fault then d.discardActs reads (d.trackerAt a .main d.now)
      else d
    d.freshenActs a

/-- Axis a reads another estimate than before, `old` with the position it read: its own tracker stands still meanwhile, or, where
the axis reads its own again, goes on from what was read, in IDLE with EN 0 and else in FAULT for want of a herd position; and the
axis reports the change like any other. (Log entry 197 DEDUCED.) -/
def Dev.rereadAxis (old : Nat → Tracker) (d : Dev) (a : Nat) : Dev :=
  let was := old a
  let own := (d.axis a).main
  let lost := d.axisOf a = a && d.axisHerd a && d.rdB .sprAxnCtl a 0 && was.st ≠ .idle && was.st ≠ .fault
  let st := if d.axisOf a ≠ a || !d.rdB .sprAxnCtl a 0 then AxState.idle else if was.st = .idle then .idle else .fault
  let d := d.setTracker a .main { own with st := st, p := was.p, v := 0, a := 0, rejRun := 0, run := [], acqEdges := 0, resumed := none }
  let k := d.tracker (d.axisOf a) .main
  let d := if lost then d.setAxis a { d.axis a with cause := 5 }
    else if k.st = .coast || k.st = .fault then d.setAxis a { d.axis a with cause := (d.axis (d.axisOf a)).cause }
    else d
  let mine (_ : Dev) (b : Nat) : Bool := decide (b = a)
  let d := if was.st = k.st then d else Dev.reportMove was { k with p := was.p } d a
  let d := if k.st = .fault && was.st ≠ .fault then (d.noteFault (mine d)).cutWaits a else d
  let d := if was.st ≠ k.st && (was.st = .idle || was.st = .fault) then d.discardActs mine (d.axisPos a) else d
  forUpTo 16 (fun s d => if d.actAxis s = a then d.freshenAct s else d) (d.refreshLevels a)

/-- A change that may make axes read another estimate than before (R48): EN or SRC of an axis, or whether this device is lead.
(Log entry 197 DEDUCED.) -/
def Dev.reread (f : Dev → Dev) (d : Dev) : Dev :=
  let e := f d
  let moved := (List.range 4).filter (fun a => e.axisOf a ≠ d.axisOf a)
  if moved = [] then e
  else
    let old (a : Nat) : Tracker := { d.tracker (d.axisOf a) .main with p := d.axisPos a }
    let d := (forUpTo 64 (fun g d => if moved.contains (d.genAxis g) then d.settleGen g else d) d).fixShots
    moved.foldl (Dev.rereadAxis old) (f d)

/-- A tracker takes a new estimate: the axis with its events, the shadow silently. -/
def Dev.moveTracker (d : Dev) (a : Nat) (sel : TrackerSel) (k : Tracker) : Dev :=
  match sel with
  | .main => d.moveAxis a k
  | .shadow => (d.setTracker a .shadow k).refreshSlip a

/-- A tracker held still in a state: velocity and acceleration cleared, position held (R31). -/
def Tracker.held (k : Tracker) (st : AxState) (p : P48) : Tracker :=
  { k with st := st, p := p, v := 0, a := 0, rejRun := 0, run := [], acqEdges := 0, resumed := none }

/-- CAUSE of SPR_AXn_STAT of the axes that read axis a, and of axis a. -/
def Dev.setCause (d : Dev) (a : Nat) (sel : TrackerSel) (c : Nat) : Dev :=
  match sel with
  | .main => (a :: d.readersOf a).foldl (fun d b => d.setAxis b { d.axis b with cause := c }) d
  | .shadow => d

/-- Entry to COAST with a cause: the velocity held, acceleration 0, the position recorded (R31, R38). (Log entry 26 DEDUCED.) -/
def Dev.enterCoast (d : Dev) (a : Nat) (sel : TrackerSel) (c : Nat) : Dev :=
  let k := d.tracker a sel
  (d.setCause a sel c).moveTracker a sel
    { k with st := .coast, a := 0, entered := d.now, coastPos := k.coastAt d.now, resumed := none, rejRun := 0 }

/-- Entry to FAULT with a cause: the position held is the one the axis reports at that moment (R30, R31). -/
def Dev.enterFault (d : Dev) (a : Nat) (sel : TrackerSel) (c : Nat) : Dev :=
  (d.setCause a sel c).moveTracker a sel ((d.tracker a sel).held .fault (d.trackerAt a sel d.now))

/-- Entry to IDLE: position held, velocity 0 (R31). -/
def Dev.enterIdle (d : Dev) (a : Nat) (sel : TrackerSel) : Dev :=
  d.moveTracker a sel ((d.tracker a sel).held .idle (d.trackerAt a sel d.now))

/-! ### Acquisition (R643) -/

/-- The magnitude of a rational. -/
def absRat (x : Rat) : Rat := if x < 0 then -x else x

/-- A least-squares line through points: the mean time, the mean value and the slope; slope 0 for fewer than two times.
(Log entry 22 DEDUCED.) -/
def fitLine (pts : List (Rat × Rat)) : Rat × Rat × Rat :=
  let n : Rat := (pts.length : Int)
  let mt := (pts.map (·.1)).foldl (· + ·) 0 / n
  let my := (pts.map (·.2)).foldl (· + ·) 0 / n
  let num := pts.foldl (fun s p => s + (p.1 - mt) * (p.2 - my)) 0
  let den := pts.foldl (fun s p => s + (p.1 - mt) * (p.1 - mt)) 0
  (mt, my, if den = 0 then 0 else num / den)

/-- The edges of a run as points relative to an origin, ns and ticks. -/
def runPoints (t0 : Word) (p0 : P48) (run : List (Word × P48)) : List (Rat × Rat) :=
  run.map (fun e => (((e.1 - t0).toInt : Rat), ((e.2 - p0).toInt : Rat)))

/-- tol of R33 in ticks, for a slope in tk/ns: EDGE_TOL + |u| × 2 + 0.75·A_max·dt². -/
def accTol (edgeTol amax dt : Nat) (u : Rat) : Rat :=
  (edgeTol : Int) + 2 * absRat u + mkRat (3 * amax * dt * dt) (4 * 256 * 10 ^ 12)

/-- R643: an edge passes the rejection test of acquisition against the fit of the run before it. (Log entry 22 DEDUCED.) -/
def runPasses (edgeTol amax : Nat) (run : List (Word × P48)) (te : Word) (e : P48) : Bool :=
  match run, run.getLast? with
  | (t0, p0) :: _, some (tl, _) =>
    let f := fitLine (runPoints t0 p0 run)
    let x : Rat := (((te - t0).toInt : Int) : Rat)
    let y : Rat := (((e - p0).toInt : Int) : Rat)
    decide (absRat (y - (f.2.1 + f.2.2 * (x - f.1))) ≤ accTol edgeTol amax (elapsed te tl) f.2.2)
  | _, _ => true

/-- The interval velocities of a run, each at the middle of its interval. (Log entry 22 DEDUCED.) -/
def intervalVelocities : List (Rat × Rat) → List (Rat × Rat)
  | (t0, p0) :: (t1, p1) :: l =>
    ((t0 + t1) / 2, if t1 = t0 then 0 else (p1 - p0) / (t1 - t0)) :: intervalVelocities ((t1, p1) :: l)
  | _ => []

/-- The relative velocity variance of a run, in 2^−16, and the seeds of velocity and acceleration at its last edge; none
where the mean velocity is 0 (R31, R643). The seed of acceleration is held to A_max, as R33 holds the estimate.
(Log entries 22 DEDUCED, 157 DESIGN CHOICE.) -/
def seedOf (run : List (Word × P48)) (amax : Nat) : Option (Rat × Word × Word) :=
  match run, run.getLast? with
  | (t0, p0) :: _, some (tl, _) =>
    let vs := intervalVelocities (runPoints t0 p0 run)
    let f := fitLine vs
    if f.2.1 = 0 then none
    else
      let ss := vs.foldl (fun s p => s + (p.2 - (f.2.1 + f.2.2 * (p.1 - f.1))) ^ 2) 0
      let var := ss / ((vs.length : Int) : Rat) / (f.2.1 * f.2.1) * 65536
      let x : Rat := (((tl - t0).toInt : Int) : Rat)
      let v := (f.2.1 + f.2.2 * (x - f.1)) * 2 ^ 32
      let a := f.2.2 * 10 ^ 12 * 65536
      let lim : Int := amax * 256
      some (var, wordOfInt (v.num.tdiv v.den), wordOfInt (clampInt (a.num.tdiv a.den) (-lim) lim))
  | _, _ => none

/-- A tracker restarts acquisition after its third consecutive rejection (R37): the count of its encoder maps to the whole
count nearest the estimate. (Log entry 156 DESIGN CHOICE.) -/
def Dev.reacquire (d : Dev) (a : Nat) (sel : TrackerSel) (count te : Word) : Dev :=
  let w := wholeCount (d.trackerAt a sel te)
  let d := d.alignOffset a sel count w
  d.moveTracker a sel { (d.tracker a sel).held .acquire w with entered := te }

/-- One rejected edge of a tracker in TRACK or COAST (R28, R33): the third consecutive one re-acquires. -/
def Dev.rejectEdge (d : Dev) (a : Nat) (sel : TrackerSel) (count te : Word) : Dev :=
  let k := d.tracker a sel
  let k' := { k with rejRun := k.rejRun + 1, resumed := k.resumed.map (fun _ => 0) }
  if 3 ≤ k'.rejRun then (d.setTracker a sel k').reacquire a sel count te else d.setTracker a sel k'

/-- An edge in IDLE or ACQUIRE (R31, R643). (Log entry 30 DEDUCED.) -/
def Dev.acquireEdge (d : Dev) (a : Nat) (sel : TrackerSel) (count te : Word) (fwd : Bool) : Dev :=
  let k := d.tracker a sel
  let e := d.edgePos a sel count
  if k.st = .idle then
    d.moveTracker a sel { k.held .acquire e with t := te, entered := te, fwd := fwd, run := [(te, e)], acqEdges := 1 }
  else
    let consistent := (k.run = [] || fwd = k.fwd) &&
      (k.run.length < 4 || runPasses (d.rd .sprAxnEdgeTol a).toNat (d.rd .sprAxnAmax a).toNat k.run te e)
    let run := if consistent then (k.run ++ [(te, e)]) else [(te, e)]
    let run := run.drop (run.length - 16)
    let n := if consistent then min 16 (k.acqEdges + 1) else 1
    let k := { k with p := e, t := te, fwd := fwd, run := run, acqEdges := n }
    let ready := 16 ≤ n && 1000000 ≤ elapsed te k.entered && d.rdB .sprGlbCtl 0 0
    match (if ready then seedOf run (d.rd .sprAxnAmax a).toNat else none) with
    | some (var, v, acc) =>
      if var ≤ ((d.rd .sprAxnVarLim a).toNat : Int) then
        let d := if sel = .shadow && (d.axis a).selOnSec .shadow
          then d.alignOffset a .shadow count (d.trackerAt a .main te) else d
        d.moveTracker a sel { k with st := .track, p := d.edgePos a sel count, v := v, a := acc, rejRun := 0 }
      else d.setTracker a sel k
    | none => d.setTracker a sel k

/-! ### Update at each edge (R33) -/

/-- The numbers of R33 in 2^−32 tk: v_pred, the residual r and tol. Every product is truncated toward zero.
(Log entry 19 DEDUCED.) -/
def predict (k : Tracker) (edgeTol amax : Nat) (e : P48) (te : Word) : Int × Int × Int :=
  let dt : Int := elapsed te k.t
  let v := k.v.toInt
  let acc := k.a.toInt
  let vp := v + (acc * dt * 65536).tdiv (10 ^ 12)
  let moved := v * dt + (acc * dt * dt * 65536).tdiv (2 * 10 ^ 12)
  let r := (e - k.p).toInt * 2 ^ 32 - moved
  let tol := (edgeTol : Int) * 2 ^ 32 + (vp.natAbs : Int) * 2 + (3 * amax * dt * dt * 2 ^ 24).tdiv (4 * 10 ^ 12)
  (vp, r, tol)

/-- The accepted branch of R33: v, a, p and t. In COAST a stays 0. With dt 0 the spec gives the quotients no value: the
new velocity is a free value. (Log entries 19 DEDUCED, 20 DESIGN CHOICE.) -/
def acceptEdge (k : Tracker) (bw amax jmax : Nat) (vp r : Int) (e : P48) (te : Word) (free : Nat) : Tracker :=
  let dt : Int := elapsed te k.t
  let v := if dt = 0 then wordOf free else wordOfInt (vp + r.tdiv (dt * 2 ^ (2 + bw)))
  let j := (jmax * dt).tdiv (10 ^ 6)
  let da := clampInt ((r * 10 ^ 12).tdiv (dt * dt * 2 ^ (22 + 2 * bw))) (-j) j
  let lim : Int := amax * 256
  let acc := if k.st = .coast then 0 else wordOfInt (clampInt (k.a.toInt + da) (-lim) lim)
  { k with v := v, a := acc, p := e, t := te, rejRun := 0 }

/-- An edge of the active encoder in TRACK or COAST (R33, R39), and whether it was accepted. A rejection by the shadow tracker
is not counted in the axis's REJ_CNT. (Log entries 20 DESIGN CHOICE, 158 DESIGN CHOICE.) -/
def Dev.trackEdge (d : Dev) (a : Nat) (sel : TrackerSel) (count te : Word) (fwd : Bool) : Bool × Dev :=
  let k := d.tracker a sel
  let e := d.edgePos a sel count
  if k.st = .coast && k.resumed.isNone then
    let target := d.nearestEdge a sel count (k.coastAt te)
    let d := d.alignOffset a sel count target
    (true, d.setTracker a sel { k with p := target, t := te, fwd := fwd, rejRun := 0, resumed := some 0 })
  else
    let x := predict k (d.rd .sprAxnEdgeTol a).toNat (d.rd .sprAxnAmax a).toNat e te
    if x.2.2 < (x.2.1.natAbs : Int) then
      let d := match sel with
        | .main => d.satF .sprAxnRejCnt a 31 0 1
        | .shadow => d
      (false, d.rejectEdge a sel count te)
    else
      let f := d.free
      let d := if te = k.t then f.2 else d
      let k' := { acceptEdge k (d.rdF .sprAxnCtl a 13 12) (d.rd .sprAxnAmax a).toNat (d.rd .sprAxnJmax a).toNat
                    x.1 x.2.1 e te f.1 with fwd := fwd }
      (true,
        if k.st = .coast then
          let n := (k.resumed.getD 0) + 1
          if 4 ≤ n then d.moveTracker a sel { k' with st := .track, resumed := none }
          else d.setTracker a sel { k' with resumed := some n }
        else d.setTracker a sel k')

/-- A transition of the encoder of a tracker, whatever its state (R31), and whether the edge was accepted.
(Log entry 198 DESIGN CHOICE.) -/
def Dev.trackerEdge (d : Dev) (a : Nat) (sel : TrackerSel) (count te : Word) (fwd : Bool) : Bool × Dev :=
  let k := d.tracker a sel
  let d := d.setTracker a sel { k with seen := te }
  match k.st with
  | .idle | .acquire => (true, d.acquireEdge a sel count te fwd)
  | .track | .coast => d.trackEdge a sel count te fwd
  | .fault => (false, d)

/-! ### Encoder inputs at SPR (R27–R29, R646) -/

/-- Encoder input n. -/
def Dev.encIn (d : Dev) (n : Nat) : EncIn := tget d.spr.enc {} n

/-- Encoder input n replaced. -/
def Dev.setEncIn (d : Dev) (n : Nat) (e : EncIn) : Dev := { d with spr := { d.spr with enc := tset d.spr.enc n e } }

/-- Axis a is local and enabled. -/
def Dev.axisLocal (d : Dev) (a : Nat) : Bool := d.rdB .sprAxnCtl a 0 && !d.axisHerd a

/-- Axis a uses encoder input n, as primary or as secondary. -/
def Dev.axisUses (d : Dev) (a n : Nat) : Bool :=
  d.axisLocal a && (d.rdF .sprAxnCtl a 6 4 = n || (d.rdB .sprAxnCtl a 7 && d.rdF .sprAxnCtl a 10 8 = n))

/-- FIO_FAULT of encoder input n (R617). -/
def Dev.encFault (d : Dev) (n : Nat) : Bool := d.rdB .sprEncnStat n 3

/-- AXn_ENC_CHECK of every axis with local encoders of which input n is one, whatever its EN (R68). -/
def Dev.encCheck (d : Dev) (n : Nat) : Dev :=
  forUpTo 4 (fun a d =>
    if !d.axisHerd a && (d.rdF .sprAxnCtl a 6 4 = n || (d.rdB .sprAxnCtl a 7 && d.rdF .sprAxnCtl a 10 8 = n)) then
      d.raise (327 + 8 * a) else d) d

/-- A transition of the active encoder of axis a: the generators pass what the estimate has reached, the estimate takes the
edge, and generators and schedulers act on an accepted one (R33, R54–R57). -/
def Dev.axisEdge (d : Dev) (a : Nat) (count te : Word) (fwd : Bool) : Dev :=
  let r := (d.forGens a Dev.settleGen).trackerEdge a .main count te fwd
  if r.1 then (((r.2.wr .sprAxnLastEdge a te).refreshAxis a).forGens a Dev.edgeGen).freshenActs a
  else r.2.refreshAxis a

/-- A transition that changed the count reaches every tracker on the input, unless FIO reports a fault on it (R646). -/
def Dev.feedEdge (d : Dev) (n : Nat) (te : Word) (up : Bool) : Dev :=
  if d.encFault n then d
  else
    let c := d.rd .sprEncnCount n
    forUpTo 4 (fun a d =>
      if d.axisLocal a then
        let d := if d.trackerEnc a .shadow = some n then (d.trackerEdge a .shadow c te up).2 else d
        if d.trackerEnc a .main = some n then d.axisEdge a c te up else d
      else d) d

/-- A skipped state (R28): QERR, RATE where it came within 20 ns, a rejected edge of every axis that uses the input, and a
rejection of each of its trackers in TRACK or COAST. (Log entry 27 DEDUCED.) -/
def Dev.skipState (d : Dev) (n : Nat) (te : Word) (rate : Bool) : Dev :=
  let d := d.wrB .sprEncnStat n 0 true
  let d := if rate then d.wrB .sprEncnStat n 1 true else d
  let d := d.encCheck n
  if d.encFault n then d
  else
    let c := d.rd .sprEncnCount n
    let hit (a : Nat) (sel : TrackerSel) (d : Dev) : Dev :=
      let st := (d.tracker a sel).st
      if d.trackerEnc a sel = some n && (st = .track || st = .coast) then d.rejectEdge a sel c te else d
    forUpTo 4 (fun a d =>
      if d.axisUses a n then hit a .main (hit a .shadow (d.satF .sprAxnRejCnt a 31 0 1)) else d) d

/-! ### Time limits of a tracker (R31, R35, R36) -/

/-- R35 applies: v² / (2·A_max) exceeds S, given in 2^−32 tk. (Log entry 151 DEDUCED.) -/
def overdueApplies (k : Tracker) (amax s : Nat) : Bool :=
  decide (2 * s * amax * 2 ^ 32 < k.v.toInt.natAbs ^ 2 * (256 * 10 ^ 12))

/-- t_late of R35 has passed: the line, decelerating at A_max from the last accepted edge, has reached the next edge, S further
on (in 2^−32 tk), and EDGE_TOL/|v| + 2 ns more have passed. (Log entries 151 DEDUCED, 159 DESIGN CHOICE.) -/
def overdueNow (k : Tracker) (edgeTol amax s : Nat) (now : Word) : Bool :=
  let v := k.v.toInt.natAbs
  let wait := 2 + (edgeTol * 2 ^ 32 + v - 1) / v
  let tau := elapsed now k.t
  if tau < wait then false
  else
    let x := tau - wait
    decide (v * 256 * 10 ^ 12 ≤ amax * x * 2 ^ 32) ||
      decide (s * 512 * 10 ^ 12 + amax * x * x * 2 ^ 32 ≤ v * x * 512 * 10 ^ 12)

/-- OVERDUE_EDGE: COAST with CAUSE 1 (R35). (Log entries 2 DESIGN CHOICE, 159 DESIGN CHOICE.) -/
def overdueEdgeOp (a : Nat) (sel : TrackerSel) (d : Dev) : Dev :=
  let k := d.tracker a sel
  let s := d.spacingQ a sel
  let amax := (d.rd .sprAxnAmax a).toNat
  if d.axisLocal a && k.st = .track && overdueApplies k amax s &&
      overdueNow k (d.rd .sprAxnEdgeTol a).toNat amax s d.now then
    d.enterCoast a sel 1
  else d

/-- The extrapolated travel since COAST entry reaches 1,024 ct (R31). -/
def Dev.coastFar (d : Dev) (a : Nat) (sel : TrackerSel) : Bool :=
  let k := d.tracker a sel
  decide (1024 * 256 ≤ (k.coastAt d.now - k.coastPos).toInt.natAbs)

/-- COAST_TIME_LIMIT: 20 ms since COAST entry; CAUSE 3, or 4 when the travel limit is reached as well (R31).
(Log entry 2 DESIGN CHOICE.) -/
def coastTimeLimitOp (a : Nat) (sel : TrackerSel) (d : Dev) : Dev :=
  let k := d.tracker a sel
  if d.axisLocal a && k.st = .coast && 20000000 ≤ elapsed d.now k.entered then
    d.enterFault a sel (if d.coastFar a sel then 4 else 3)
  else d

/-- COAST_TRAVEL_LIMIT: 1,024 ct of extrapolated travel since COAST entry; CAUSE 4 (R31). (Log entry 26 DEDUCED.) -/
def coastTravelLimitOp (a : Nat) (sel : TrackerSel) (d : Dev) : Dev :=
  if d.axisLocal a && (d.tracker a sel).st = .coast && d.coastFar a sel then d.enterFault a sel 4 else d

/-- STANDSTILL_TIMEOUT: no edge for STILL_NS in ACQUIRE, or in TRACK where the overdue rule does not apply (R31, R36). A rejected
edge starts the time anew, a skipped state does not. (Log entry 198 DESIGN CHOICE.) -/
def standstillOp (a : Nat) (sel : TrackerSel) (d : Dev) : Dev :=
  let k := d.tracker a sel
  let still := decide ((d.rd .sprAxnStillNs a).toNat ≤ elapsed d.now k.seen)
  let applies := overdueApplies k (d.rd .sprAxnAmax a).toNat (d.spacingQ a sel)
  if d.axisLocal a && still && (k.st = .acquire || (k.st = .track && !applies)) then d.enterIdle a sel else d

/-- EN of an axis written 0 (R31): IDLE, velocity and acceleration cleared, edges ignored. -/
def axisDisableOp (a : Nat) (d : Dev) : Dev :=
  let p := d.axisPos a
  let own := d.axisOf a = a
  let d := Dev.reread (fun d => d.wrB .sprAxnCtl a 0 false) d
  let d := d.moveTracker a .shadow ((d.tracker a .shadow).held .idle (d.tracker a .shadow).p)
  if own then d.moveAxis a ((d.tracker a .main).held .idle p) else d

/-- CFG_ERR of an axis. (Log entry 131 DEDUCED.) -/
def Dev.axisCfgErr (d : Dev) (a : Nat) : Dev := d.wrB .sprAxnStat a 18 true

/-- A position given to the current raw counts, rounded to a whole count (R43). -/
def Dev.givePosition (d : Dev) (a : Nat) (p : P48) : Dev :=
  let r := wholeCount p
  let pri := d.rd .sprEncnCount (d.rdF .sprAxnCtl a 6 4)
  let sec := d.rd .sprEncnCount (d.rdF .sprAxnCtl a 10 8)
  let d := d.setAxis a { d.axis a with offset := wordOfInt (r.toInt.tdiv 256) - pri }
  let d := if (d.axis a).onSec then d.setAxis a { d.axis a with secOffset := r - d.secTicks a sec } else d
  (d.setTracker a .main { d.tracker a .main with p := r }).freshenActs a

/-- RESTART in FAULT (R42): IDLE at the held position, or at the preset one if PRESET was written in this FAULT. A shadow
tracker in FAULT, which follows the same rules, goes to IDLE at the position it holds. (Log entry 24 DEDUCED.) -/
def restartOp (a : Nat) (d : Dev) : Dev :=
  let s := d.tracker a .shadow
  let d :=
    if s.st = .fault then
      let d := match d.trackerEnc a .shadow with
        | some n => d.alignOffset a .shadow (d.rd .sprEncnCount n) (wholeCount s.p)
        | none => d
      d.moveTracker a .shadow (s.held .idle (wholeCount s.p))
    else d
  let k := d.tracker a .main
  if k.st = .fault then
    let p := if (d.axis a).presetPend then d.rd .sprAxnPreset a else k.p
    let d := d.givePosition a p
    d.moveAxis a ((d.tracker a .main).held .idle (d.tracker a .main).p)
  else d

/-- PRESET (R43): in IDLE or FAULT; in any other state ignored with CFG_ERR. -/
def presetOp (a : Nat) (d : Dev) : Dev :=
  match d.axisState a with
  | .idle => d.givePosition a (d.rd .sprAxnPreset a)
  | .fault =>
    let d := d.givePosition a (d.rd .sprAxnPreset a)
    d.setAxis a { d.axis a with presetPend := true }
  | _ => d.axisCfgErr a

/-! ### Fallback and slip (R44–R47) -/

/-- The secondary is usable. -/
def Dev.secUsable (d : Dev) (a : Nat) : Bool :=
  let x := d.axis a
  d.rdB .sprAxnCtl a 7 && !x.secBad && !x.onSec && x.shadow.st = .track && !d.encFault (d.rdF .sprAxnCtl a 10 8)

/-- The axis's estimate carried on from the last edge of its shadow tracker's encoder: the same velocity and acceleration, and a
position at that edge that leaves the present estimate where it is. In COAST the estimate stays as it is. The run of rejections
ends with the hand-over. (Log entry 199 DESIGN CHOICE.) -/
def Dev.handedOver (d : Dev) (a : Nat) : Tracker :=
  let m := d.tracker a .main
  let k := d.tracker a .shadow
  if m.st = .track then
    let vp := m.v.toInt + (m.a.toInt * (k.t - m.t).toInt * 65536).tdiv (10 ^ 12)
    let n := { m with v := wordOfInt vp, t := k.t, fwd := k.fwd, seen := k.seen, rejRun := 0 }
    { n with p := d.trackerAt a .main d.now - (n.trackAt (d.spacing a .shadow) d.now - n.p) }
  else { m with resumed := none, rejRun := 0 }

/-- How far the axis's position lies past its shadow tracker's: at the shadow's last edge in TRACK, now in COAST. -/
def Dev.handOffset (d : Dev) (a : Nat) : Word :=
  if (d.tracker a .main).st = .track then (d.handedOver a).p - (d.tracker a .shadow).p
  else d.trackerAt a .main d.now - d.trackerAt a .shadow d.now

/-- The secondary becomes active without a step in the estimate; the shadow tracker starts anew on the primary.
(Log entry 24 DEDUCED.) -/
def Dev.fallBack (d : Dev) (a : Nat) : Dev :=
  let x := d.axis a
  let d := d.setAxis a { x with onSec := true, secOffset := x.secOffset + d.handOffset a, main := d.handedOver a,
                                shadow := {}, slip := none }
  d.raise (325 + 8 * a)

/-- FIO reports a fault on encoder input n: every tracker on it reacts by R44, and by R646 where it already coasts. -/
def Dev.encFaultRises (d : Dev) (n : Nat) : Dev :=
  let hit (a : Nat) (sel : TrackerSel) (d : Dev) : Dev :=
    let k := d.tracker a sel
    if d.trackerEnc a sel = some n && (k.st = .track || k.st = .coast) then
      (if sel = .main && d.secUsable a then d.fallBack a
       else if k.st = .track then d.enterCoast a sel 2
       else d.setTracker a sel { k with resumed := none })
    else d
  forUpTo 4 (fun a d => if d.axisLocal a then hit a .shadow (hit a .main d) else d) d

/-- SEL_PRI (R47): back to the primary without a step, while its shadow is in TRACK; the count offset takes the whole count
nearest. (Log entries 24 DEDUCED, 25 DEDUCED.) -/
def selPriOp (a : Nat) (d : Dev) : Dev :=
  let x := d.axis a
  if x.onSec && x.shadow.st = .track then
    let d := d.setAxis a { x with onSec := false, offset := x.offset + wordOfInt (roundDiv (d.handOffset a).toInt 256),
                                  main := d.handedOver a, shadow := {}, slip := none }
    d.raise (325 + 8 * a)
  else d

/-- SEC_CLR (R47). -/
def secClrOp (a : Nat) (d : Dev) : Dev := d.setAxis a { d.axis a with secBad := false }

/-- SLIP_WINDOW_END (R45, R46). Where both report the same travel in opposite directions, the primary is presumed to slip.
(Log entry 160 DESIGN CHOICE.) -/
def slipWindowEndOp (a : Nat) (d : Dev) : Dev :=
  let x := d.axis a
  match x.slip with
  | some (p0, s0) =>
    let pri := d.rd .sprEncnCount (d.rdF .sprAxnCtl a 6 4)
    let sec := d.rd .sprEncnCount (d.rdF .sprAxnCtl a 10 8)
    let moved := (pri - p0).toInt
    if (d.rd .sprAxnSlipWin a).toNat ≤ moved.natAbs then
      let tp := moved * 256
      let ts := (d.secTicks a sec - d.secTicks a s0).toInt
      let d := d.wr .sprAxnSlipDiff a (wordOfInt (ts - tp))
      let d := d.setAxis a { d.axis a with slip := some (pri, sec) }
      if (d.rd .sprAxnSlipTol a).toNat < (ts - tp).natAbs then
        let d := (d.wrB .sprAxnStat a 19 true).raise (324 + 8 * a)
        if ts.natAbs < tp.natAbs then d.setAxis a { d.axis a with secBad := true }
        else if d.rdB .sprAxnCtl a 11 && d.secUsable a then d.fallBack a
        else d
      else d
    else d
  | none => d

end Sys2Proof.Machine
end

