-- ==== Sys2Proof/Machine/Fio.lean ====
section
/-! DEFINITION. The field I/O die: the glitch filter and what an accepted encoder transition does (R26–R29), polarity and
direction checks (R613–R617), pair faults (R611, R612), field inputs (R618, R619). -/

namespace Sys2Proof.Machine

/-! ### Encoder input lines (R26) -/

/-- A line of an encoder input. -/
def EncIn.line (e : EncIn) : EncCh → EncLine
  | .a => e.la
  | .b => e.lb
  | .z => e.lz

/-- A line of an encoder input replaced. -/
def EncIn.withLine (e : EncIn) (ch : EncCh) (l : EncLine) : EncIn :=
  match ch with
  | .a => { e with la := l }
  | .b => { e with lb := l }
  | .z => { e with lz := l }

/-- ENCODER_PIN_CROSSING: the crossing is stamped; a line that goes back before the filter expires has passed nothing. -/
def encoderPinCrossingOp (n : Nat) (ch : EncCh) (level : Bool) (d : Dev) : Dev :=
  let e := d.encIn n
  let l := e.line ch
  if l.pin = level then d else d.setEncIn n (e.withLine ch { l with pin := level, stamp := d.now })

/-! ### Faults of an encoder input (R612–R617) -/

/-- ENCn_FAULT and FIO_FAULT follow FIO_ENCn_FLT (R617, R624); SPR reacts when FIO_FAULT rises (R44). -/
def Dev.refreshEncFault (d : Dev) (n : Nat) : Dev :=
  let w := d.rd .fioEncnFlt n
  let d := d.setLevel (694 + n) (fld w 11 0 ≠ 0 || fld w 36 32 ≠ 0)
  let fault := fld w 7 0 ≠ 0 || bit w 32 || bit w 33 || bit w 36
  let was := d.encFault n
  let d := d.wrB .sprEncnStat n 3 fault
  if fault && !was then d.encFaultRises n else d

/-- A flag of FIO_ENCn_FLT is set. -/
def Dev.setEncFlag (d : Dev) (n b : Nat) : Dev := (d.wrB .fioEncnFlt n b true).refreshEncFault n

/-- The levels of A (bit 0) and B (bit 1) as a number. (Log entry 27 DEDUCED.) -/
def abCode (a b : Bool) : Nat := a.toNat + 2 * b.toNat

/-- The levels of A and B at a moment, from the history since the last rising Z, newest first. -/
def levelsAt (t : Word) : List (Word × Bool × Bool) → Nat
  | [] => 0
  | [(_, a, b)] => abCode a b
  | (u, a, b) :: l => if atOrPast t u then abCode a b else levelsAt t l

/-- The end of a Z pulse with ZCHK: the levels at its midpoint are compared with ZSTATE; four mismatches in a row with the same
levels set a flag (R613). -/
def Dev.zCheck (d : Dev) (n : Nat) (stamp : Word) : Dev :=
  let e := d.encIn n
  let want := d.rdF .fioEncnCfg n 7 6
  if d.rdB .fioEncnCfg n 5 && !d.rdB .fioEncnFlt n 35 then
    let mid := e.zRise + wordOf (elapsed stamp e.zRise / 2)
    let got := levelsAt mid e.zHist
    if got = want then d.setEncIn n { e with zMiss := (0, 0) }
    else
      let run := if e.zMiss.1 = got ∧ e.zMiss.2 ≠ 0 then e.zMiss.2 + 1 else 1
      let d := d.setEncIn n { e with zMiss := (got, run) }
      if 4 ≤ run then
        (match got ^^^ want with
         | 1 => d.setEncFlag n 32
         | 2 => d.setEncFlag n 33
         | _ => d.setEncFlag n 34)
      else d
  else d

/-- A transition of Z: the copy and check of R29, REV_Z (R614), and the polarity check at the end of the pulse (R613).
(Log entry 27 DEDUCED.) -/
def Dev.zTransition (d : Dev) (n : Nat) (level : Bool) (stamp : Word) : Dev :=
  let e := d.encIn n
  if level then
    let revZ := match e.zCounts with
      | some (total, act) => decide (total < 2 * act)
      | none => false
    let d := if revZ then d.setEncFlag n 35 else d
    let count := d.rd .sprEncnCount n
    let d :=
      if d.rdB .sprEncnCfg n 9 then
        let period := d.rdF .sprEncnCfg n 31 12
        let bad := match e.zPrev with
          | some c => period ≠ 0 && (count - c).toInt.natAbs ≠ period && !d.rdB .fioEncnFlt n 35
          | none => false
        let d := d.wr .sprEncnZcnt n count
        if bad then (d.wrB .sprEncnStat n 2 true).encCheck n else d
      else d
    let prev := if d.rdB .sprEncnCfg n 9 then some count else e.zPrev
    d.setEncIn n { d.encIn n with zPrev := prev, zRise := stamp, zHist := [(stamp, e.la.filt, e.lb.filt)],
                                  zCounts := some (0, 0) }
  else d.zCheck n stamp

/-- R615: after 50 ms without a transition, 64 net backward counts set DIRECTION. (Log entry 28 DEDUCED.) -/
def Dev.directionCheck (d : Dev) (n : Nat) (last : Option Word) (stamp : Word) (up : Bool) : Dev :=
  let e := d.encIn n
  if d.rdB .fioEncnCfg n 4 then
    let quiet := match last with
      | some t => decide (50000000 ≤ elapsed stamp t)
      | none => true
    let net := if quiet then some 0 else e.dirNet
    match net with
    | some x =>
      let y := if up then x + 1 else x - 1
      if y = -64 then (d.setEncIn n { e with dirNet := none }).setEncFlag n 36
      else if y = 64 then d.setEncIn n { e with dirNet := none }
      else d.setEncIn n { e with dirNet := some y }
    | none => d
  else d.setEncIn n { e with dirNet := none }

/-- A transition of A or B in sequence (R27): the count changes by one and every tracker on the input takes the edge. -/
def Dev.countEdge (d : Dev) (n : Nat) (last : Option Word) (stamp : Word) (fwd : Bool) : Dev :=
  let up := fwd != d.rdB .sprEncnCfg n 8
  let d := d.wr .sprEncnCount n (if up then d.rd .sprEncnCount n + 1 else d.rd .sprEncnCount n - 1)
  let e := d.encIn n
  let d := d.setEncIn n { e with zCounts := e.zCounts.map (fun c => (c.1 + 1, if e.lz.filt then c.2 + 1 else c.2)) }
  let d := d.directionCheck n last stamp up
  d.feedEdge n stamp up

/-- ENCODER_EDGE_ACCEPT: a line that has held its new level for GLITCH_NS passes the filter, stamped at its pin crossing
(R26). A and B transitions with one stamp, or one within 20 ns of the previous, are a skipped state (R28).
(Log entry 27 DEDUCED.) -/
def encoderEdgeAcceptOp (n : Nat) (ch : EncCh) (d : Dev) : Dev :=
  let e := d.encIn n
  let l := e.line ch
  if l.pin = l.filt || decide (elapsed d.now l.stamp < d.rdF .sprEncnCfg n 7 0) then d
  else
    let e1 := e.withLine ch { l with filt := l.pin }
    match ch with
    | .z => (d.setEncIn n e1).zTransition n l.pin l.stamp
    | _ =>
      let other : EncCh := if ch = .a then .b else .a
      let o := e.line other
      let pair := o.pin != o.filt && o.stamp = l.stamp
      let e2 := if pair then e1.withLine other { o with filt := o.pin } else e1
      let e2 := { e2 with last := some l.stamp, zHist := (l.stamp, e2.la.filt, e2.lb.filt) :: e2.zHist }
      let d := d.setEncIn n e2
      let close := match e.last with
        | some t => decide (elapsed l.stamp t < 20)
        | none => false
      if pair || close then d.skipState n l.stamp close
      else
        let fwd := if ch = .a then l.pin != o.filt else l.pin = o.filt
        d.countEdge n e.last l.stamp fwd

/-- A write to FIO_ENCn_CFG: the polarity and direction flags clear (R616). -/
def fioEncCfgWriteOp (n : Nat) (v : Word) (d : Dev) : Dev :=
  let d := d.wr .fioEncnCfg n (v &&& wordOf (regDesc .fioEncnCfg).rw)
  let d := d.setEncIn n { d.encIn n with zMiss := (0, 0), dirNet := none }
  (d.wrF .fioEncnFlt n 36 32 0).refreshEncFault n

/-! ### Pair faults (R611, R612) -/

/-- The bit of a fault among OPEN, SHORT_PAIR, SHORT_SUPPLY, SHORT_GND. -/
def pairFaultBit : PairFault → Nat
  | .openWire => 0 | .shortPair => 1 | .shortSupply => 2 | .shortGnd => 3

/-- The number of an encoder channel. -/
def encChNum : EncCh → Nat
  | .a => 0 | .b => 1 | .z => 2

/-- FINk_FAULT follows NOW and REVERSED (R624). -/
def Dev.refreshFinFault (d : Dev) (k : Nat) : Dev :=
  d.setLevel (718 + k) (d.rdF .fioFinkStat k 3 0 ≠ 0 || d.rdB .fioFinkStat k 8)

/-- The NOW bit of a fault of a pair set or cleared; setting also sets LATCHED (R612), and SPR and EVC follow. -/
def Dev.setPairFault (d : Dev) (pair : FieldPair) (f : PairFault) (on : Bool) : Dev :=
  match pair with
  | .enc n ch =>
    let b := 4 * encChNum ch + pairFaultBit f
    let d := d.wrB .fioEncnFlt n b on
    (if on then d.wrB .fioEncnFlt n (16 + b) true else d).refreshEncFault n
  | .fin k =>
    let d := d.wrB .fioFinkStat k (pairFaultBit f) on
    (if on then d.wrB .fioFinkStat k (4 + (pairFaultBit f)) true else d).refreshFinFault k
  | .out x =>
    let d := d.wrB .fioOxStat x (4 + (pairFaultBit f)) on
    (if on then d.wrB .fioOxStat x (8 + (pairFaultBit f)) true else d).refreshOutputs x

/-- The number of a pair: 3n + channel for the encoder inputs, 24 + k for the field inputs, 40 + x for the outputs. -/
def pairNum : FieldPair → Nat
  | .enc n ch => 3 * n.val + encChNum ch
  | .fin k => 24 + k.val
  | .out x => 40 + x.val

/-- FIO can judge a fault of a pair: OPEN of an input needs the probe, and an output's driver must be on (R611).
(Log entry 196 DEDUCED.) -/
def Dev.judges (d : Dev) (pair : FieldPair) (f : PairFault) : Bool :=
  match pair with
  | .out x => d.outState x = 1 && (d.outDrv x).pchk.isNone
  | _ => f ≠ .openWire || d.rdB .fioCtl 0 0

/-- PAIR_FAULT_DETECT (R611, R612): a fault's condition holds. (Log entry 196 DEDUCED.) -/
def pairFaultDetectOp (pair : FieldPair) (f : PairFault) (d : Dev) : Dev :=
  if d.judges pair f then
    let d := d.setPairFault pair f true
    { d with fio := { d.fio with faultAt := tset d.fio.faultAt (4 * pairNum pair + pairFaultBit f) d.now } }
  else d

/-- PAIR_FAULT_CLEAR (R612): the condition has been absent for 100 ms. -/
def pairFaultClearOp (pair : FieldPair) (f : PairFault) (d : Dev) : Dev :=
  match tfind d.fio.faultAt (4 * pairNum pair + pairFaultBit f) with
  | some t =>
    if 100000000 ≤ elapsed d.now t then
      let d := d.setPairFault pair f false
      { d with fio := { d.fio with faultAt := tdel d.fio.faultAt (4 * pairNum pair + pairFaultBit f) } }
    else d
  | none => d

/-- The pair a number of WIRE_PROBE names: 3n + channel for the encoder inputs, 24 + k for the field inputs. -/
def inputPair (i : Fin 40) : FieldPair :=
  if h : i.val < 24 then
    .enc ⟨i.val / 3, by omega⟩ (match i.val % 3 with | 0 => .a | 1 => .b | _ => .z)
  else .fin ⟨i.val - 24, by omega⟩

/-- A probe (R611): an input pair that follows at two consecutive probes is OPEN. Without PROBE_EN FIO does not probe. -/
def wireProbeOp (follow : List (Fin 40)) (d : Dev) : Dev :=
  if d.rdB .fioCtl 0 0 then
    let twice := follow.filter (fun i => d.fio.probed.contains i.val)
    let d := { d with fio := { d.fio with probed := follow.map (·.val) } }
    twice.foldl (fun d i => pairFaultDetectOp (inputPair i) .openWire d) d
  else d

/-! ### Field inputs (R618, R619) -/

/-- Field input k. -/
def Dev.fieldIn (d : Dev) (k : Nat) : FieldIn := tget d.fio.fins {} k

/-- Field input k replaced. -/
def Dev.setFieldIn (d : Dev) (k : Nat) (f : FieldIn) : Dev := { d with fio := { d.fio with fins := tset d.fio.fins k f } }

/-- A crossing of field input k is stamped. -/
def fieldInputPinOp (k : Nat) (level : Bool) (d : Dev) : Dev :=
  let f := d.fieldIn k
  if f.pin = level then d else d.setFieldIn k { f with pin := level, stamp := d.now }

/-- The filtered level after INVERT. -/
def Dev.finLevel (d : Dev) (k : Nat) : Bool := (d.fieldIn k).filt != d.rdB .fioFinkCfg k 2

/-- The new level has held for FILT_US: FINk is raised on a selected edge, stamped at the pin crossing (R618). -/
def fieldInputAcceptOp (k : Nat) (d : Dev) : Dev :=
  let f := d.fieldIn k
  if f.pin = f.filt || decide (elapsed d.now f.stamp < d.rdF .fioFinkCfg k 15 8 * 1000) then d
  else
    let d := d.setFieldIn k { f with filt := f.pin, since := d.now }
    let up := d.finLevel k
    let edge := d.rdF .fioFinkCfg k 17 16
    let sel := edge = 3 || (edge = 1 && up) || (edge = 2 && !up)
    let d := d.wrB .fioFinkStat k 9 up
    if d.rdB .fioFinkCfg k 0 && sel then d.raiseAt (702 + k) f.stamp else d

/-- The filtered level has stayed opposite to REST for REST_T seconds (R619). -/
def reversedDetectOp (k : Nat) (d : Dev) : Dev :=
  let f := d.fieldIn k
  let t := d.rdF .fioFinkCfg k 7 4
  if t ≠ 0 && d.finLevel k != d.rdB .fioFinkCfg k 3 && t * 1000000000 ≤ elapsed d.now f.since then
    (d.wrB .fioFinkStat k 8 true).refreshFinFault k
  else d

end Sys2Proof.Machine
end

