-- ==== Sys2Proof/Machine/Cxi.lean ====
section
/-! DEFINITION. CoaXPress ingest: links and PoCXP (R136–R138), head states and discovery (R133, R139), upconnection packets
(R141–R146), and the stream from packets to staging words (R147–R164, R169). -/

namespace Sys2Proof.Machine

/-- Link l. -/
def Dev.link (d : Dev) (l : Nat) : CxiLink := tget d.cxi.links {} l

/-- Link l replaced. -/
def Dev.setLink (d : Dev) (l : Nat) (x : CxiLink) : Dev := { d with cxi := { d.cxi with links := tset d.cxi.links l x } }

/-- The event of link l. -/
def Dev.linkEvent (d : Dev) (l : Nat) : Dev := d.raise (512 + l)

/-- STATE of CXI_LKl_STAT: 0 DOWN, 1 DISCOVERY, 2 UP, 3 REFUSED, 4 UNUSED. -/
def Dev.linkState (d : Dev) (l : Nat) : Nat := d.rdF .cxiLklStat l 2 0

/-- Link l changes state. -/
def Dev.setLinkState (d : Dev) (l st : Nat) : Dev :=
  if d.linkState l = st then d else (d.wrF .cxiLklStat l 2 0 st).linkEvent l

/-- An error counter of link l advances; ERR and the link's event follow where it changes (R172). -/
def Dev.linkError (d : Dev) (l hi lo n : Nat) : Dev :=
  let e := d.satF .cxiLklErr l hi lo n
  if e.rdF .cxiLklErr l hi lo = d.rdF .cxiLklErr l hi lo then d else (e.wrB .cxiLklStat l 5 true).linkEvent l

/-! ### Lines (R150–R164) -/

/-- Credits of one line slot of head h (R154). -/
def Dev.slotCredits (d : Dev) (h : Nat) : Nat := (d.camWidth h + 255) / 256

/-- Lines that the staging region of head h holds (R154). -/
def Dev.regionLines (d : Dev) (h : Nat) : Nat := d.rdF .cxiHdhStg h 40 24 / d.slotCredits h

/-- DAS address of word 0 of line slot s of head h (R154, R157). -/
def Dev.slotAddr (d : Dev) (h s : Nat) : Nat := (d.rdF .cxiHdhStg h 16 0 + s * d.slotCredits h) * 64

/-- The open line of a head's queue changed. -/
def Dev.modOpen (d : Dev) (h : Nat) (f : StgLine → StgLine) : Dev :=
  d.setHead h { d.head h with lines := (d.head h).lines.map (fun l => if l.ended then l else f l) }

/-- The open line of every plane changed. -/
def Dev.modOpens (d : Dev) (h : Nat) (f : StgLine → StgLine) : Dev :=
  (d.planes h).foldl (fun d p => d.modOpen p f) d

/-- The open line of head h. -/
def Dev.openLine (d : Dev) (h : Nat) : Option StgLine := (d.head h).lines.find? (fun l => !l.ended)

/-- The next line slot of a plane holds no line (R155). -/
def Dev.slotFree (d : Dev) (p : Nat) : Bool :=
  let x := d.head p
  0 < d.regionLines p && x.lines.all (fun l => l.slot ≠ some x.nextSlot)

/-- A slot taken for the open line of each plane, or OVERRUN when one has no free credit (R155, R156), with the head's event
as R170 limits it. (Log entry 59 DEDUCED.) -/
def Dev.takeSlots (d : Dev) (h : Nat) : Dev :=
  let ps := d.planes h
  if ps.all d.slotFree then
    ps.foldl (fun d p =>
      let s := (d.head p).nextSlot
      let d := d.modOpen p (fun l => { l with slot := some s, addr := d.slotAddr p s })
      d.setHead p { d.head p with nextSlot := (s + 1) % d.regionLines p }) d
  else
    let d := d.modOpens h (fun l => { l with cause := 3, part := true })
    let d := d.setHead h { d.head h with cur := (d.head h).cur.map (fun c => { c with stopped := true }) }
    (d.wrB .cxiHdhStat h 10 true).lossEvent h 3

/-- A staging word of one plane's open line written: its pixels, or the poison pattern (R157, R164). -/
def Dev.stageWord (d : Dev) (p i : Nat) (w : Word) (bad : Bool) : Dev :=
  match d.openLine p with
  | some l => if l.slot.isNone then d else if bad then d.sramPoison (l.addr + i) else d.sramWrite (l.addr + i) w
  | none => d

/-- The word being filled is written to each plane. -/
def Dev.flushWord (d : Dev) (h : Nat) (c : CurLine) : Dev :=
  let i := (c.pixels - 1) / 4
  let vals := [c.acc.1, c.acc.2.1, c.acc.2.2]
  let d := ((d.planes h).zip vals).foldl (fun d pv => d.stageWord pv.1 i (wordOf pv.2) c.accBad) d
  let d := d.modOpens h (fun l => { l with pixels := c.pixels, poison := l.poison || c.accBad })
  d.setHead h { d.head h with cur := some { c with acc := (0, 0, 0), accBad := false } }

/-- One pixel of the line, as its three plane values of 12 bits (R157, R158); pixels beyond WIDTH count as LONG (R162). -/
def Dev.pushPixel (d : Dev) (h : Nat) (v : Nat × Nat × Nat) (bad : Bool) : Dev :=
  match (d.head h).cur with
  | none => d
  | some c =>
    if c.stopped then d
    else if (d.rd .cxiHdhWidth h).toNat ≤ c.pixels then d.satF .cxiHdhRecq h 31 16 1
    else
      let d := if c.pixels = 0 then d.takeSlots h else d
      match (d.head h).cur with
      | none => d
      | some c =>
        if c.stopped then d
        else
          let k := 2 ^ (12 * (c.pixels % 4))
          let c := { c with acc := (c.acc.1 + v.1 * k, c.acc.2.1 + v.2.1 * k, c.acc.2.2 + v.2.2 * k),
                            accBad := c.accBad || bad, pixels := c.pixels + 1 }
          if c.pixels % 4 = 0 then d.flushWord h c else d.setHead h { d.head h with cur := some c }

/-- Bits of one pixel of a head's FORMAT in the stream (R157, R158). -/
def Dev.pixelBits (d : Dev) (h : Nat) : Nat :=
  match d.rdF .cxiHdhCfg h 10 9 with
  | 0 => 8 | 1 => 10 | 2 => 12 | _ => 24

/-- The 12-bit plane values of a raw pixel: a left shift of 12 − W, and three bytes for RGB8. -/
def planeValues (bits raw : Nat) : Nat × Nat × Nat :=
  if bits = 24 then (raw % 256 * 16, raw / 256 % 256 * 16, raw / 65536 % 256 * 16)
  else (raw * 2 ^ (12 - bits), 0, 0)

/-- Pixels taken from the bits that wait, n at most; the first may hold bits of an earlier item. (Log entry 58 DEDUCED.) -/
def Dev.takePixels (d : Dev) (h : Nat) : Nat → Nat → Nat → Bool → Bool → Dev
  | 0, _, _, _, _ => d
  | n + 1, bits, avail, firstBad, restBad =>
    let w := d.pixelBits h
    if avail < w then
      match (d.head h).cur with
      | some c => d.setHead h { d.head h with cur := some { c with carry := bits, carryBits := avail,
                                                                   carryBad := avail ≠ 0 && (firstBad || restBad) } }
      | none => d
    else
      (d.pushPixel h (planeValues w (bits % 2 ^ w)) (firstBad || restBad)).takePixels h n (bits / 2 ^ w) (avail - w)
        false restBad

/-- A 32-bit item of pixel payload (R157, R164). -/
def Dev.pixelItem (d : Dev) (h : Nat) (x : BitVec 32) (parityBad crcBad : Bool) : Dev :=
  match (d.head h).cur with
  | some c =>
    d.takePixels h 8 (c.carry + x.toNat * 2 ^ c.carryBits) (c.carryBits + 32) c.carryBad (parityBad || crcBad)
  | none => d

/-- Valid bytes of the last word of a line of n pixels (R159). -/
def validBytes (n : Nat) : Nat :=
  if n = 0 then 0 else match n % 4 with | 1 => 2 | 2 => 3 | 3 => 5 | _ => 6

/-- CUT of the head that fills head h, in pixels of a line of its WIDTH (R132, R160). -/
def Dev.cutPixels (d : Dev) (h : Nat) : Nat := min ((d.rd .cxiHdhCut (d.masterOf h)).toNat * 256) (d.camWidth h)

/-- The line in progress ends, with the cause of an early end or 0 (R159, R161, R162, R169). (Log entry 58 DEDUCED.) -/
def Dev.endLine (d : Dev) (h cause : Nat) : Dev :=
  match (d.head h).cur, d.openLine h with
  | some c, some l =>
    let d := if c.pixels % 4 = 0 || c.stopped then d else d.flushWord h c
    let n := if l.slot.isNone then 0 else c.pixels
    let width := (d.rd .cxiHdhWidth h).toNat
    let cause := if l.cause ≠ 0 then l.cause else if cause ≠ 0 then cause else if n < width then 6 else 0
    let fb := l.fallback || (cause = 4 && decide (n < d.cutPixels h))
    let d := (d.planes h).foldl (fun d p =>
      (d.modOpen p (fun l => { l with
        pixels := n, fallback := fb, part := cause ≠ 0, cause := cause, vb := validBytes n,
        words := if fb then (n + 3) / 4 else (width + 3) / 4, ended := true })).passLines p) d
    let d := d.setHead h { d.head h with cur := none }
    if cause = 0 then d else (d.satF .cxiHdhLoss h 31 16 1).lossEvent h cause
  | _, _ => d.setHead h { d.head h with cur := none }

/-- Records unpaired LAT_MAX after their fire are lost lines (R151). -/
def Dev.expireRecords (d : Dev) (h : Nat) : Dev :=
  let late (r : TrigRecord) : Bool := decide (d.rdF .cxiHdhLat h 47 24 ≤ elapsed d.now r.time)
  let l := (d.head h).records
  let gone := l.takeWhile late
  let d := d.setHead h { d.head h with records := l.dropWhile late }
  (gone.foldl (fun d r => d.loseRecord h 1 r) d).refreshRecq h

/-- Cut-through and pairing limits of a commit come into force at a line start (R176). -/
def Dev.applyLater (d : Dev) (h : Nat) : Dev :=
  match (d.head h).later with
  | some (cut, lat) =>
    let d := (d.wr .cxiHdhCut h cut).wr .cxiHdhLat h lat
    (d.setHead h { d.head h with later := none }).expireRecords h
  | none => d

/-- A record is old enough for a line whose start was decoded at a time: its fire is at least LAT_MIN before (R150). -/
def Dev.oldEnough (d : Dev) (h : Nat) (at_ : Word) (r : TrigRecord) : Bool :=
  atOrPast at_ (r.time + wordOf (d.rdF .cxiHdhLat h 23 0))

/-- A line start decoded at a time: records LAT_MAX old are lost first; pairing with the oldest queued record of sufficient
age, or EXTRA (R135, R149–R151, R160). (Log entries 59 DEDUCED, 218 DEDUCED.) -/
def Dev.startLine (d : Dev) (h : Nat) (at_ : Word) : Dev :=
  let d := d.endLine h 0
  let d := d.setHead h { d.head h with discard := true }
  if d.headState h ≠ .run then (d.applyLater h).extraLine h
  else
    let d := (d.applyLater h).expireRecords h
    let d := if d.rdB .cxiHdhCfg h 8 then d.wrB .cxiHdhStat h 11 true else d
    if (d.head h).imageBad then d.extraLine h
    else
      match (d.head h).records with
      | r :: rest =>
        if d.oldEnough h at_ r then
          let d := (d.setHead h { d.head h with records := rest, discard := false, cur := some {} }).refreshRecq h
          let fb := d.rdB .cxiHdhStat h 11
          let l : StgLine := { line := r.line, pos := r.pos, fire := r.time, ast := r.st, fallback := fb,
                               width := (d.rd .cxiHdhWidth h).toNat, exit := d.headExit h,
                               words := if fb then 0 else ((d.rd .cxiHdhWidth h).toNat + 3) / 4 }
          let d := (d.planes h).foldl (fun d p =>
            d.setHead p { d.head p with lines := (d.head p).lines ++ [l] }) d
          ((d.wr .cxiHdhLines h (d.rd .cxiHdhLines h + 1)).wr .cxiHdhLast h r.line).countLine h
        else d.extraLine h
      | [] => d.extraLine h

/-- The open line, less than CUT credits of it staged, goes to fall-back (R161). (Log entry 173 DEDUCED.) -/
def Dev.fallBackLine (d : Dev) (h : Nat) : Dev :=
  let cut := d.cutPixels h
  d.modOpens h (fun x => if x.pixels < cut then { x with fallback := true, words := 0 } else x)

/-- A line start in a packet: one that fails its CRC fails before CUT credits of the line are staged (R161).
(Log entry 173 DEDUCED.) -/
def Dev.startIn (d : Dev) (h : Nat) (at_ : Word) (crcBad : Bool) : Dev :=
  if crcBad then (d.startLine h at_).fallBackLine h else d.startLine h at_

/-- An item of the stream decoded at a time (R128, R148, R149, R157, R161, R164). An image of another format or of an
area-scan frame is refused: its lines are EXTRA. (Log entries 58 DEDUCED, 172 DEDUCED.) -/
def Dev.streamItem (d : Dev) (h l : Nat) (at_ : Word) (crcBad : Bool) (x : StreamItem) : Dev :=
  match x with
  | .imageHeader xsize format area =>
    let d := d.setHead h { d.head h with imageBad := area || format ≠ d.rdF .cxiHdhCfg h 10 9 }
    let d := d.wrB .cxiHdhStat h 11 (d.rdB .cxiHdhCfg h 8 || xsize ≠ (d.rd .cxiHdhWidth h).toNat)
    d.startIn h at_ crcBad
  | .lineMarker => d.startIn h at_ crcBad
  | .pixels w bad =>
    let d := if bad then d.linkError l 47 32 1 else d
    if (d.head h).discard then d else d.pixelItem h w bad crcBad
  | .lineEnd => d.endLine h 0
  | .triggerAck => d.setLink l { d.link l with trigAcks := (d.link l).trigAcks + 1 }

/-- A gap (R147): the line ends PARTIAL with cause GAP and stream data is discarded until the next line start. -/
def Dev.streamGap (d : Dev) (h : Nat) : Dev :=
  let d := d.endLine h 4
  d.setHead h { d.head h with discard := true }

/-- A packet decoded at a time, in tag order (R148): a CRC failure poisons its words, or is a gap where its size cannot be
trusted. A line in cut-through that meets one before CUT credits are staged goes to fall-back (R161); the packet's own pixels
do not count. (Log entry 173 DEDUCED.) -/
def Dev.deliverPacket (d : Dev) (h l : Nat) (at_ : Word) (p : StreamPacket) : Dev :=
  if p.crcOk then p.items.foldl (fun d x => d.streamItem h l at_ false x) d
  else if p.sizeOk then p.items.foldl (fun d x => d.streamItem h l at_ true x) (d.fallBackLine h)
  else d.streamGap h

/-- The packet held with a tag. (Log entry 57 DEDUCED.) -/
def heldTag (t : BitVec 8) (l : List (StreamPacket × Nat × Word)) : Option (StreamPacket × Nat × Word) :=
  l.find? (fun x => x.1.tag = t)

/-- Held packets are delivered while the tag expected next is among them; n at most. (Log entry 57 DEDUCED.) -/
def Dev.drainHeld (d : Dev) (h : Nat) : Nat → Dev
  | 0 => d
  | n + 1 =>
    let x := d.head h
    match x.nextTag with
    | some t =>
      match heldTag t x.held with
      | some p =>
        let d := d.setHead h { x with nextTag := some (t + 1), held := x.held.filter (fun y => y.1.tag ≠ t) }
        (d.deliverPacket h p.2.1 p.2.2 p.1).drainHeld h n
      | none => d
    | none => d

/-- A missing tag is given up (R147): a gap, and the stream goes on at the held tag that comes first. -/
def Dev.skipGap (d : Dev) (h : Nat) : Dev :=
  let x := d.head h
  match x.nextTag with
  | some t =>
    let d := d.streamGap h
    match (List.range 256).find? (fun i => (heldTag (t + BitVec.ofNat 8 i) x.held).isSome) with
    | some i => (d.setHead h { d.head h with nextTag := some (t + BitVec.ofNat 8 i) }).drainHeld h (x.held.length)
    | none => d
  | none => d

/-- STREAM_PACKET: counted errors, packet-tag order across the head's links, then the stream (R147, R148).
(Log entry 57 DEDUCED.) -/
def streamPacketOp (l : Nat) (p : StreamPacket) (d : Dev) : Dev :=
  match if d.domOn (5 + l / 16) then d.headOfLink l else none with
  | none => d
  | some h =>
    let d := d.linkError l 15 0 p.violations
    let d := if p.crcOk then d else d.linkError l 31 16 1
    let x := d.head h
    let t := x.nextTag.getD p.tag
    if p.tag = t then
      let d := d.setHead h { x with nextTag := some (t + 1) }
      (d.deliverPacket h l d.now p).drainHeld h x.held.length
    else
      let d := d.setHead h { x with held := x.held ++ [(p, l, d.now)] }
      if 4 < ((d.head h).held.filter (fun y => y.2.1 = l)).length then d.skipGap h else d

/-- GAP_TIMEOUT: a later tag has waited 2 µs (R147). -/
def gapTimeoutOp (h : Nat) (d : Dev) : Dev :=
  if (d.head h).held.any (fun y => decide (2000 ≤ elapsed d.now y.2.2)) then d.skipGap h else d

/-- LINE_LOST_TIMEOUT: records unpaired LAT_MAX after their fire (R151). -/
def lineLostTimeoutOp (h : Nat) (d : Dev) : Dev := d.expireRecords h

/-- CHAMOIS_LINE_START: the oldest line not yet started, once CUT credits of it are staged or it has ended; in fall-back
once it has ended (R160, R161). -/
def chamoisLineStartOp (h : Nat) (d : Dev) : Dev :=
  let x := d.head h
  match x.lines.find? (fun l => !l.started) with
  | some l =>
    if l.ended || (!l.fallback && d.cutPixels h ≤ l.pixels && 0 < l.pixels) then
      let done := x.lines.takeWhile (fun y => y.started)
      let rest := x.lines.drop done.length
      d.setHead h { x with lines := done ++ ((rest.take 1).map (fun y => { y with started := true })) ++ rest.drop 1 }
    else d
  | none => d

/-! ### Head states (R133) -/

/-- The outstanding control request of head h completes (R144). -/
def Dev.endControl (d : Dev) (h : Nat) (r : CtrlResp) : Dev :=
  (d.setHead h { d.head h with ctrl := none, resp := some r }).raise 580

/-- CUT and LAT of a commit come into force at once where no line start will come (R176). (Log entry 174 DEDUCED.) -/
def Dev.takeLater (d : Dev) (h : Nat) : Dev :=
  match (d.head h).later with
  | some (cut, lat) =>
    let d := (d.wr .cxiHdhCut h cut).wr .cxiHdhLat h lat
    d.setHead h { d.head h with later := none }
  | none => d

/-- Head h changes state: its event; a head that leaves RUN reports its records as LOST with cause LINK (R169, R170); where it
goes to LINKED the line in progress goes on to its end or the next line start (R171), else that line ends with cause LINK; what a
commit left for the next line is taken where none is in progress; a head that leaves LINKED and RUN completes its control
request (R144). (Log entry 174 DEDUCED.) -/
def Dev.setHeadState (d : Dev) (h : Nat) (st : HeadState) : Dev :=
  let old := d.headState h
  if old = st then d
  else
    let up := d.headUp h
    let d := (d.wrF .cxiHdhStat h 2 0 st.code).headEvent h
    let d := if st = .linked || st = .run || (d.head h).cur.isNone then d
      else let d := d.endLine h 5; d.setHead h { d.head h with discard := true }
    let d :=
      if old = .run then
        let l := (d.head h).records
        let d := d.setHead h { d.head h with records := [] }
        let d := (l.foldl (fun d r => d.loseRecord h 5 r) d).refreshRecq h
        let d := d.setHead h { d.head h with exits := (d.head h).exits + 1 }
        if (d.head h).cur.isNone then (d.setHead h { d.head h with discard := true }).takeLater h else d
      else d
    if up && !d.headUp h && (d.head h).ctrl.isSome then
      d.endControl h { status := 0x30, sub := 2, ack := 0, data := [] }
    else d

/-- CAUSE of CXI_HDh_STAT. -/
def Dev.setHeadCause (d : Dev) (h c : Nat) : Dev := d.wrF .cxiHdhStat h 15 12 c

/-- A head goes to FAULT with a cause (R133, R139). -/
def Dev.headFault (d : Dev) (h c : Nat) : Dev :=
  let d := (d.setHeadCause h c).setHeadState h .fault
  d.setHead h { d.head h with faultAt := d.now }

/-- Link l is enabled, and powered where PoCXP powers it: its PCX_STATE is ON (R136, R139). -/
def Dev.linkPowered (d : Dev) (l : Nat) : Bool :=
  d.rdB .cxiLklCfg l 0 && (!d.rdB .cxiLklCfg l 1 || d.rdF .cxiLklStat l 11 8 = 2)

/-- A head starts discovery (R133, R139): its links go to DISCOVERY where they are used and powered. -/
def Dev.startLinking (d : Dev) (h : Nat) : Dev :=
  let d := d.setHeadState h .linking
  let d := d.setHead h { d.head h with phase := .reading, discStart := d.now, polledAt := none, version := 0 }
  (d.headLinks h).foldl (fun d l =>
    let d := d.setLink l { d.link l with answer := none }
    if d.linkPowered l then d.setLinkState l 1 else d) d

/-- LINKED, and RUN at once while the device is in service (R133). -/
def Dev.headLinked (d : Dev) (h : Nat) : Dev :=
  let d := d.setHeadState h .linked
  if d.inService then d.setHeadState h .run else d

/-- Every link of head h is UP. -/
def Dev.linksUp (d : Dev) (h : Nat) : Bool := (d.headLinks h).all (fun l => d.linkState l = 2)

/-- LINKING to LINKED: every link UP and the configuration acknowledged (R133). -/
def Dev.tryLinked (d : Dev) (h : Nat) : Dev :=
  if d.headState h = .linking && (d.head h).phase = .retraining && d.linksUp h then d.headLinked h else d

/-- Device service begins or ends: LINKED heads run, running heads go to LINKED (R133). -/
def Dev.headsService (d : Dev) : Dev :=
  forUpTo 64 (fun h d =>
    if d.inService then (if d.headState h = .linked then d.setHeadState h .run else d)
    else (if d.headState h = .run then d.setHeadState h .linked else d)) d

/-- HEAD_FAULT_RETRY: 1 s after a head entered FAULT (R133). -/
def headFaultRetryOp (h : Nat) (d : Dev) : Dev :=
  if d.headState h = .fault && 1000000000 ≤ elapsed d.now (d.head h).faultAt then d.startLinking h else d

/-- RETRY written 1 (R133). -/
def retryOp (h : Nat) (d : Dev) : Dev := if d.headState h = .fault then d.startLinking h else d

/-- HEAD_LINK_LOSS: a link of a LINKED or RUN head has been DOWN for 100 ms; CAUSE 5 (R133). -/
def headLinkLossOp (h : Nat) (d : Dev) : Dev :=
  if d.headUp h && (d.headLinks h).any (fun l => d.linkState l = 0 && decide (100000000 ≤ elapsed d.now (d.link l).downAt))
  then d.headFault h 5 else d

/-- CXP_LINK_CHANGE: a link goes UP or DOWN; a line in progress ends with cause LINK (R133, R169). -/
def cxpLinkChangeOp (l : Nat) (up : Bool) (d : Dev) : Dev :=
  if up then
    let d := d.setLinkState l 2
    match d.headOfLink l with
    | some h => d.tryLinked h
    | none => d
  else
    let d := if d.linkState l = 0 then d else d.setLink l { d.link l with downAt := d.now }
    let d := d.setLinkState l 0
    match d.headOfLink l with
    | some h => if (d.head h).cur.isSome then d.endLine h 5 else d
    | none => d

/-! ### PoCXP (R136–R138) -/

/-- PCX_STATE of link l: 0 OFF, 1 INRUSH, 2 ON, 3 OPEN, 4 SHORT, 5 OVERCURRENT, 6 LOCKOUT. -/
def Dev.pcxState (d : Dev) (l : Nat) : Nat := d.rdF .cxiLklStat l 11 8

/-- PCX_STATE changes. -/
def Dev.setPcxState (d : Dev) (l st : Nat) : Dev :=
  if d.pcxState l = st then d else (d.wrF .cxiLklStat l 11 8 st).linkEvent l

/-- A current measured on link l, with the peak since the last read. -/
def Dev.pcxSample (d : Dev) (l ma : Nat) : Dev :=
  let w := d.rd .cxiLklPcx l
  d.wr .cxiLklPcx l (setFld (setFld w 11 0 ma) 27 16 (max (fld w 27 16) ma))

/-- PCX_EN_n asserted: supervision starts in INRUSH. -/
def Dev.pcxStart (d : Dev) (l : Nat) : Dev :=
  (d.setLink l { d.link l with pcxAt := d.now }).setPcxState l 1

/-- SHORT or OVERCURRENT: the switch off, and LOCKOUT at the third failure in a row (R137). (Log entry 219 DEDUCED.) -/
def Dev.pcxFail (d : Dev) (l st : Nat) : Dev :=
  let n := (d.link l).pcxFails + 1
  let d := d.setLink l { d.link l with pcxFails := n, pcxFailAt := d.now }
  d.setPcxState l (if 3 ≤ n then 6 else st)

/-- PCX_ENABLE: PCX_EN written 1 (R136); a link in LOCKOUT stays off until PCX_RETRY (R137). -/
def pcxEnableOp (l : Nat) (d : Dev) : Dev :=
  if d.rdB .cxiLklCfg l 1 then d
  else
    let d := d.wrB .cxiLklCfg l 1 true
    if d.pcxState l = 6 then d else (d.setLink l { d.link l with pcxFails := 0 }).pcxStart l

/-- PCX_EN written 0: the switch off; LOCKOUT stands until PCX_RETRY is written 1 (R137). -/
def pcxDisable (l : Nat) (d : Dev) : Dev :=
  let d := d.wrB .cxiLklCfg l 1 false
  if d.pcxState l = 6 then d else d.setPcxState l 0

/-- PCX_SHORT (R136 step 2): within the 2 ms inrush window, with the group's fault low or the current held for 1 ms. -/
def pcxShortOp (l ma : Nat) (fltLow held : Bool) (d : Dev) : Dev :=
  let d := d.pcxSample l ma
  if d.pcxState l = 1 && decide (elapsed d.now (d.link l).pcxAt ≤ 2000000) && d.rdF .cxiLklPcxLim l 35 24 ≤ ma &&
      (fltLow || held) then d.pcxFail l 4
  else d

/-- PCX_OVERCURRENT (R136 steps 3 and 6): OC_MA exceeded for 10 ms on a powered link. -/
def pcxOvercurrentOp (l ma : Nat) (d : Dev) : Dev :=
  let d := d.pcxSample l ma
  if (d.pcxState l = 2 || (d.pcxState l = 1 && 2000000 ≤ elapsed d.now (d.link l).pcxAt)) &&
      d.rdF .cxiLklPcxLim l 23 12 < ma then d.pcxFail l 5
  else d

/-- PCX_OPEN (R136 steps 4 and 6, R138): below OPEN_MA for the whole 100 ms window. (Log entry 219 DEDUCED.) -/
def pcxOpenOp (l ma : Nat) (d : Dev) : Dev :=
  let d := d.pcxSample l ma
  if (d.pcxState l = 2 || (d.pcxState l = 1 && 500000000 ≤ elapsed d.now (d.link l).pcxAt)) &&
      ma < d.rdF .cxiLklPcxLim l 11 0 then
    (d.setLink l { d.link l with pcxFailAt := d.now }).setPcxState l 3
  else d

/-- PCX_ON (R136 step 5): 500 ms after assertion; discovery starts on the link, and its DISC_TMO runs from here (R139).
(Log entry 219 DEDUCED.) -/
def pcxOnOp (l : Nat) (d : Dev) : Dev :=
  if d.pcxState l = 1 && 500000000 ≤ elapsed d.now (d.link l).pcxAt then
    let d := (d.setLink l { d.link l with pcxFails := 0, onAt := d.now }).setPcxState l 2
    match d.headOfLink l with
    | some h => if d.headState h = .linking && d.rdB .cxiLklCfg l 0 then d.setLinkState l 1 else d
    | none => d
  else d

/-- PCX_AUTO_RETRY: 1 s after SHORT or OVERCURRENT (R137), 2 s after OPEN (R138). -/
def pcxAutoRetryOp (l : Nat) (d : Dev) : Dev :=
  let t := elapsed d.now (d.link l).pcxFailAt
  let st := d.pcxState l
  if ((st = 4 || st = 5) && 1000000000 ≤ t) || (st = 3 && 2000000000 ≤ t) then d.pcxStart l else d

/-- PCX_RETRY written 1 leaves LOCKOUT (R137): the switch on again where PCX_EN is 1. -/
def pcxRetryOp (l : Nat) (d : Dev) : Dev :=
  if d.pcxState l = 6 then
    let d := d.setLink l { d.link l with pcxFails := 0 }
    if d.rdB .cxiLklCfg l 1 then d.pcxStart l else d.setPcxState l 0
  else d

/-- PCX_FLT_ASSERT (R138): with no link of the group at or above SHORT_MA the assertion is counted. -/
def pcxFltAssertOp (g : Nat) (d : Dev) : Dev :=
  let at_ := (List.range 16).any (fun i =>
    let l := 16 * g + i
    decide (d.rdF .cxiLklPcxLim l 35 24 ≤ d.rdF .cxiLklPcx l 11 0))
  if at_ then d else d.satF .cxiGrpgStat g 31 16 1

/-! ### Discovery (R139) -/

/-- Discovery can run on link l: the device is in TRAIN, READY, RUN or DEGRADED and the link's group is powered. -/
def Dev.discoveryOpen (d : Dev) (l : Nat) : Bool :=
  (d.devState = .train || d.devState = .ready || d.inService) && d.domOn (5 + l / 16)

/-- Link l of head h is being read: discovery can run there and the camera has not answered. -/
def Dev.reading (d : Dev) (h l : Nat) : Bool :=
  d.headState h = .linking && (d.head h).phase = .reading && d.discoveryOpen l && d.linkPowered l && (d.link l).answer.isNone

/-- DISCOVERY_POLL: every 100 ms a read of version and connection number on every link that has not answered. -/
def discoveryPollOp (h : Nat) (d : Dev) : Dev :=
  let due := match (d.head h).polledAt with | some t => decide (100000000 ≤ elapsed d.now t) | none => true
  let ls := (d.headLinks h).filter (d.reading h)
  if due && ls ≠ [] then
    ls.foldl (fun d l => d.emit (.cxp l .discoveryRead)) (d.setHead h { d.head h with polledAt := some d.now })
  else d

/-- DISCOVERY_TIMEOUT: a link has been read for DISC_TMO, 10 s, from the later of the moment discovery could start there and
the moment its power came, or its head's EN (CAUSE 1). -/
def discoveryTimeoutOp (h : Nat) (d : Dev) : Dev :=
  let x := d.head h
  if (d.headLinks h).any (fun l => d.reading h l && decide (10000000000 ≤ elapsed d.now x.discStart) &&
      (!d.rdB .cxiLklCfg l 1 || decide (10000000000 ≤ elapsed d.now (d.link l).onAt))) then d.headFault h 1 else d

/-- Discovery can start: its time runs from now (R139). -/
def Dev.discoveryStarts (d : Dev) : Dev :=
  forUpTo 64 (fun h d =>
    if d.headState h = .linking then d.setHead h { d.head h with discStart := d.now, polledAt := none } else d) d

/-- The camera's answers on a head's links: connection 0 on FIRST_LINK and one camera on all (CAUSE 3 where not). -/
def Dev.cabled (d : Dev) (h : Nat) : Bool :=
  let as := (d.headLinks h).map (fun l => (d.link l).answer)
  match as with
  | some (_, c, cam) :: rest => c = 0 && rest.all (fun x => match x with | some (_, _, k) => k = cam | none => false)
  | _ => false

/-- DISCOVERY_ANSWER. (Log entry 172 DEDUCED.) -/
def discoveryAnswerOp (x : DiscAnswer) (d : Dev) : Dev :=
  match x with
  | .read l v c cam =>
    match d.headOfLink l with
    | some h =>
      if d.reading h l then
        let d := (d.setLink l { d.link l with answer := some (v, c, cam) }).wrF .cxiLklStat l 15 12 c
        let d := d.setHead h { d.head h with version := v }
        if v < 2 * 256 then (d.setLinkState l 3).headFault h 2
        else if (d.headLinks h).all (fun k => (d.link k).answer.isSome) then
          if d.cabled h then
            (d.setHead h { d.head h with phase := .configuring }).emit
              (.cxp (d.rdF .cxiHdhCfg h 21 16)
                (.connConfig (2 ^ d.rdF .cxiHdhCfg h 15 14) (d.rdF .cxiHdhCfg h 13 11) 16384))
          else d.headFault h 3
        else d
      else d
    | none => d
  | .config h ok =>
    if d.headState h = .linking && (d.head h).phase = .configuring then
      if ok then
        (d.setHead h { d.head h with phase := .retraining }).tryLinked h
      else d.headFault h 4
    else d

/-! ### Upconnection packets (R141–R146) -/

/-- The first trigger packet of link l, where it has the polarity and is due, is sent, its delay field carrying the whole
wait; or dropped with TRIG_LATE when the wait exceeds the field (R141, R142), or as misrouted where its head has left LINKED
and RUN (R140). -/
def Dev.sendTrig (d : Dev) (l : Nat) (rising : Bool) : Dev :=
  match tget d.cxi.trigQ [] l with
  | p :: rest =>
    if p.rising = rising && atOrPast d.now p.fire then
      let d := { d with cxi := { d.cxi with trigQ := tset d.cxi.trigQ l rest } }
      let wait := elapsed d.now p.fire
      if !d.trigLink l then d.satF .cxiMisroute 0 31 0 1
      else if Config.trigDelayMax < wait then
        match d.headOfLink l with
        | some h => (d.wrB .cxiHdhStat h 9 true).headEvent h
        | none => d
      else d.emit (.cxp l (.trigger rising wait))
    else d
  | [] => d

/-- CXP_TRIGGER_PACKET (R141). -/
def cxpTriggerPacketOp (l : Nat) (d : Dev) : Dev := d.sendTrig l true

/-- CXP_FALL_PACKET (R62). -/
def cxpFallPacketOp (l : Nat) (d : Dev) : Dev := d.sendTrig l false

/-- HEARTBEAT (R143): every HB_MS ms, on the FIRST_LINK of each head in LINKED or RUN. -/
def heartbeatOp (d : Dev) : Dev :=
  let ms := d.rdF .cxiCtl 0 7 0
  if ms ≠ 0 && ms * 1000000 ≤ elapsed d.now d.cxi.lastHb then
    forUpTo 64 (fun h d =>
      if d.headUp h then d.emit (.cxp (d.rdF .cxiHdhCfg h 21 16) (.heartbeat d.now)) else d)
      { d with cxi := { d.cxi with lastHb := d.now } }
  else d

/-- A control request (R144): the status of its refusal, or none where it is sent. (Log entry 60 DEDUCED.) -/
def Dev.controlRequest (d : Dev) (h : Nat) (r : ControlReq) : Option (Nat × Nat) × Dev :=
  if (d.head h).ctrl.isSome then (some (0x38, 0), d)
  else if !d.headUp h then
    (none, d.endControl h { status := 0x30, sub := 2, ack := 0, data := [] })
  else if r.write && (List.range r.data.length).any (fun i => Config.managedRegister (r.addr + i)) then
    (none, d.endControl h { status := 0x10, sub := 4, ack := 0, data := [] })
  else
    (none, (d.setHead h { d.head h with ctrl := some { req := r, sent := d.now }, resp := none }).emit
      (.cxp (d.rdF .cxiHdhCfg h 21 16) (.control r)))

/-- CONTROL_REQUEST. (Log entry 60 DEDUCED.) -/
def controlRequestOp (h : Nat) (r : ControlReq) (d : Dev) : Dev := (d.controlRequest h r).2

/-- CONTROL_ACK (R144, R145): completion, or up to three resends where the acknowledgement fails its CRC. -/
def controlAckOp (h : Nat) (crcOk : Bool) (code : Nat) (data : List Byte) (d : Dev) : Dev :=
  match (d.head h).ctrl with
  | none => d
  | some c =>
    if crcOk then d.endControl h { status := 0, sub := 0, ack := code, data := data }
    else if c.resends < 3 then
      (d.setHead h { d.head h with ctrl := some { c with resends := c.resends + 1, sent := d.now } }).emit
        (.cxp (d.rdF .cxiHdhCfg h 21 16) (.control c.req))
    else d.endControl h { status := 0x30, sub := 3, ack := 0, data := [] }

/-- CONTROL_TIMEOUT (R144). -/
def controlTimeoutOp (h : Nat) (d : Dev) : Dev :=
  match (d.head h).ctrl with
  | some c =>
    if (d.head h).timeoutMs * 1000000 ≤ elapsed d.now c.sent then
      d.endControl h { status := 0x30, sub := 1, ack := 0, data := [] }
    else d
  | none => d

/-- The memory of entry s of head h's message FIFO: 171 words (R287). (Log entry 175 DEDUCED.) -/
def msgAddr (h s : Nat) : Nat := 0x7A1000 + (16 * h + s) * 171

/-- EVENT_PACKET (R146): stored in its entry, as the header and payload words of R311, and acknowledged, or withheld while the
FIFO holds 16 items. (Log entry 175 DEDUCED.) -/
def eventPacketOp (h : Nat) (payload : List Byte) (d : Dev) : Dev :=
  let x := d.head h
  let st := d.headState h
  if 16 ≤ x.msgs.length || st = .off || st = .fenced || st = .plane then d
  else
    let bs := payload.take 1020
    let m : MsgItem := { slot := x.nextMsg % 16, bytes := bs.length, trunc := 1020 < payload.length }
    let header := setFld (setBit (setFld 0 47 40 1) 39 m.trunc) 9 0 m.bytes
    let d := d.sramWrites (msgAddr h m.slot) (header :: wordsOfBytes ((m.bytes + 5) / 6) bs)
    ((d.setHead h { x with msgs := x.msgs ++ [m], nextMsg := (m.slot + 1) % 16 }).emit
      (.cxp (d.rdF .cxiHdhCfg h 21 16) .eventAck)).raise 581

/-! ### Enabling a head (R131) -/

/-- The staging regions of two heads share a credit. -/
def Dev.regionsMeet (d : Dev) (h k : Nat) : Bool :=
  let a := d.rdF .cxiHdhStg h 16 0
  let b := d.rdF .cxiHdhStg k 16 0
  decide (a < b + d.rdF .cxiHdhStg k 40 24) && decide (b < a + d.rdF .cxiHdhStg h 40 24)

/-- Head k uses a staging region: enabled, or a plane of an enabled head. -/
def Dev.regionUsed (d : Dev) (k : Nat) : Bool := d.headEn k || d.headState k = .plane

/-- R131 for the settings in force. (Log entry 218 DEDUCED.) -/
def Dev.headValid (d : Dev) (h : Nat) : Bool :=
  let width := (d.rd .cxiHdhWidth h).toNat
  let links := d.headLinks h
  let ps := d.planes h
  let others := (List.range 64).filter (fun k => k ≠ h && d.headEn k)
  decide (d.rdF .cxiHdhCfg h 21 16 % links.length = 0) && links.all (fun l => decide (l < 64)) &&
    others.all (fun k => (d.headLinks k).all (fun l => !links.contains l)) &&
    decide (16 ≤ width) && decide (width ≤ 16384) &&
    ps.all (fun p => decide (d.rdF .cxiHdhStg p 16 0 + d.rdF .cxiHdhStg p 40 24 ≤ 109216) &&
      decide (2 * ((width + 255) / 256) ≤ d.rdF .cxiHdhStg p 40 24) &&
      (List.range 64).all (fun k => ps.contains k || !d.regionUsed k || !d.regionsMeet p k)) &&
    decide (1 ≤ (d.rd .cxiHdhCut h).toNat) && decide ((d.rd .cxiHdhCut h).toNat ≤ (width + 255) / 256) &&
    others.all (fun k => d.rdF .cxiHdhCfg k 27 22 ≠ d.rdF .cxiHdhCfg h 27 22) &&
    d.headState h ≠ .plane &&
    (!d.headRgb h || (decide (h ≤ 61) && !d.headEn (h + 1) && !d.headEn (h + 2) &&
      d.headState (h + 1) ≠ .plane && d.headState (h + 2) ≠ .plane))

/-- CXI_STG_FREE follows the regions of the enabled heads. -/
def Dev.refreshStgFree (d : Dev) : Dev :=
  let used := ((List.range 64).filter d.regionUsed).foldl (fun n k => n + d.rdF .cxiHdhStg k 40 24) 0
  d.wr .cxiStgFree 0 (wordOf (109216 - used))

/-- CFG_ERR of head h (R131, R173). -/
def Dev.headCfgErr (d : Dev) (h : Nat) : Dev := (d.wrB .cxiHdhCfg h 2 true).headEvent h

end Sys2Proof.Machine
end

