-- ==== Sys2Proof/Machine/Hlk.lean ====
section
/-! DEFINITION. Herd Link ports, training and delay measurement (R74–R78, R90), routing and enumeration (R79–R83, R121,
R122), alerts (R113), and the herd states (R94–R96). -/

namespace Sys2Proof.Machine

/-- Port p. -/
def Dev.port (d : Dev) (p : Nat) : HlkPort := tget d.hlk.ports {} p

/-- Port p replaced. -/
def Dev.setPort (d : Dev) (p : Nat) (x : HlkPort) : Dev := { d with hlk := { d.hlk with ports := tset d.hlk.ports p x } }

/-- HLK is powered (PD09) and the herd is enabled. (Log entry 7 DEDUCED.) -/
def Dev.hlkOn (d : Dev) : Bool := d.domOn 9 && d.rdB .hlkCtl 0 0

/-- ROLE is follower. -/
def Dev.follower (d : Dev) : Bool := d.rdB .hlkCtl 0 1

/-- STATE of HLK_PORTp_STAT: 0 DOWN, 1 TRAIN, 2 UP, 3 STANDBY, 4 DISABLED, 5 REFUSED. -/
def Dev.portState (d : Dev) (p : Nat) : Nat := d.rdF .hlkPortpStat p 2 0

/-- ROLE of HLK_PORTp_STAT: 0 none, 1 upstream, 2 downstream, 3 standby. -/
def Dev.portRole (d : Dev) (p : Nat) : Nat := d.rdF .hlkPortpStat p 9 8

/-- A field of HLK_PORTp_STAT that raises the port's link event when it changes (R125). -/
def Dev.setPortStat (d : Dev) (p hi lo v : Nat) : Dev :=
  if d.rdF .hlkPortpStat p hi lo = v then d else (d.wrF .hlkPortpStat p hi lo v).raise (440 + p)

/-- Port p changes state. -/
def Dev.setPortState (d : Dev) (p st : Nat) : Dev := d.setPortStat p 2 0 st

/-- Port p changes role. -/
def Dev.setPortRole (d : Dev) (p r : Nat) : Dev := d.setPortStat p 9 8 r

/-- An error counter of port p advances; ERR and the port's error event follow where it changes (R125). -/
def Dev.portError (d : Dev) (p hi lo n : Nat) : Dev :=
  let e := d.satF .hlkPortpErr p hi lo n
  if e.rdF .hlkPortpErr p hi lo = d.rdF .hlkPortpErr p hi lo then d else (e.wrB .hlkPortpStat p 11 true).raise (444 + p)

/-- CFG_ERR of HLK_STAT, with HERD_CFG. -/
def Dev.hlkCfgErr (d : Dev) : Dev := (d.wrB .hlkStat 0 37 true).raise 439

/-- The herd state. -/
def Dev.herdState (d : Dev) : Nat := d.rdF .hlkStat 0 2 0

/-- The device number. -/
def Dev.devNum (d : Dev) : Nat := d.rdF .hlkStat 0 28 19

/-- The upstream port of a numbered follower. -/
def Dev.upPort (d : Dev) : Nat := d.rdF .hlkStat 0 17 16

/-- The alternative upstream port in use, if any (R120, R122). (Log entry 38 DEDUCED.) -/
def Dev.altPort (d : Dev) : Option Nat :=
  let p := d.rdF .hlkCtl 0 5 4
  if d.follower && d.rdB .hlkCtl 0 3 && !(d.port p).retired then some p else none

/-- The version negotiated on port p. (Log entry 38 DEDUCED.) -/
def Dev.portVersion (d : Dev) (p : Nat) : Nat := d.rdF .hlkPortpStat p 15 12

/-- Something leaves on port p. -/
def Dev.sendPort (d : Dev) (p : Nat) (m : HlkMsg) : Dev := d.emit (.hlk p m)

/-- Something leaves on every port of a list. -/
def Dev.sendPorts (d : Dev) (ps : List Nat) (m : HlkMsg) : Dev := ps.foldl (fun d p => d.sendPort p m) d

/-- The ports in UP. -/
def Dev.upPorts (d : Dev) : List Nat := (List.range 4).filter (fun p => d.portState p = 2)

/-- A message is discarded at port p as undefined (R110). -/
def Dev.discardMsg (d : Dev) (p : Nat) : Dev := d.portError p 47 32 1

/-- A message arrives on a port whose STATE is one of a list: the CRC failures that link replay mended are counted, and a
message of another type or with a nonzero reserved field is discarded and counted (R110). (Log entry 164 DEDUCED.) -/
def Dev.arrive (d : Dev) (r : Arrival) (states : List Nat) (f : Dev → Dev) : Dev :=
  let p := r.port.val
  if !(d.hlkOn && d.rdB .hlkPortpCtl p 0 && states.contains (d.portState p)) then d
  else
    let d := d.portError p 15 0 r.fails.val
    if r.known && r.reservedZero then f d else d.discardMsg p

/-! ### Training (R74–R78) -/

/-- The commands of a port act while HLK is powered and the port enabled. (Log entry 7 DEDUCED.) -/
def Dev.portLive (d : Dev) (p : Nat) : Bool := d.hlkOn && d.rdB .hlkPortpCtl p 0

/-- Port p stands at a step of R76. -/
def Dev.portStep (d : Dev) (p n : Nat) : Dev := d.setPort p { d.port p with step := n, stepAt := d.now }

/-- A step of training fails: back to step 1 after 100 ms (R76). -/
def Dev.portFail (d : Dev) (p : Nat) : Dev :=
  let d := d.setPort p { d.port p with step := 0, failedAt := some d.now }
  (d.wrF .hlkPortpStat p 15 12 0).setPortState p 0

/-- Training starts again at step 1. -/
def Dev.portRestart (d : Dev) (p : Nat) : Dev :=
  let d := d.setPort p { d.port p with step := 1, stepAt := d.now, failedAt := none, peer := none, joined := none, delays := [] }
  let d := (d.wrF .hlkPortpStat p 15 12 0).setPortRole p 0
  (d.setPortStat p 10 10 0).setPortState p (if d.rdB .hlkPortpCtl p 0 then 0 else 4)

/-- PORT_SIGNAL_DETECT (R76 step 1). (Log entry 165 DEDUCED.) -/
def portSignalDetectOp (p : Nat) (d : Dev) : Dev :=
  if d.portLive p && d.portState p = 0 && (d.port p).step = 1 then
    let d := (d.portStep p 2).setPortState p 1
    d.setPort p { d.port p with helloAt := some d.now }
  else d

/-- LANE_LOCK_TIMEOUT (R74): 10 ms with one lane locked; the port goes on with one lane where X1_OK allows it. -/
def laneLockTimeoutOp (p : Nat) (d : Dev) : Dev :=
  if d.portState p = 1 && (d.port p).step = 2 && 10000000 ≤ elapsed d.now (d.port p).stepAt then
    if d.rdB .hlkPortpCtl p 2 then (d.portStep p 3).setPortStat p 10 10 1 else d.portFail p
  else d

/-- HLK_TRAINING_TIMEOUT (R76): 1 ms without block lock on either lane, more than 20 ns of skew between two locked lanes, or
1 ms without a HELLO once a lane is locked, or without the delay measured. One locked lane waits for R74. The model sees no
moment of lock, so the 1 ms of step 4 is at least that since step 2. (Log entry 165 DEDUCED.) -/
def hlkTrainingTimeoutOp (p lanes : Nat) (skewed : Bool) (d : Dev) : Dev :=
  let x := d.port p
  let late := decide (1000000 ≤ elapsed d.now x.stepAt)
  if d.portState p = 1 && (x.step = 2 || x.step = 3 || x.step = 6) &&
      (if x.step = 2 then (lanes = 0 && late) || (lanes = 2 && (skewed || late)) else late) then d.portFail p else d

/-- PORT_TRAIN_RETRY: 100 ms after a failure (R76). -/
def portTrainRetryOp (p : Nat) (d : Dev) : Dev :=
  match (d.port p).failedAt with
  | some t => if d.portLive p && 100000000 ≤ elapsed d.now t then d.portRestart p else d
  | none => d

/-- This device's HELLO on port p. -/
def Dev.ownHello (d : Dev) (p : Nat) : HelloMsg :=
  { verLo := 1, verHi := d.rdF .hlkVersion 0 7 0, follower := d.follower,
    joined := if d.isLead || d.hlk.numbered then some (d.devNum, d.rdF .hlkStat 0 31 29) else none,
    serial := Config.serial.toNat, port := Fin.ofNat 4 p, alt := d.altPort = some p }

/-- The HELLO of port p leaves every 10 µs while the port trains (R76 step 4). (Log entry 165 DEDUCED.) -/
def Dev.helloDue (p : Nat) (d : Dev) : Dev :=
  match (d.port p).helloAt with
  | some t =>
    if d.portLive p && d.portState p = 1 && atOrPast d.now t then
      (d.setPort p { d.port p with helloAt := some (d.now + 10000) }).sendPort p (.hello (d.ownHello p))
    else d
  | none => d

/-- The peer's number and depth on port p, as HLK_PORTp_PEER shows them (R126). -/
def Dev.notePeer (d : Dev) (p num depth : Nat) : Dev :=
  ((d.setPort p { d.port p with joined := some (num, depth) }).wrF .hlkPortpPeer p 9 0 num).wrF .hlkPortpPeer p 18 16 depth

/-- HELLO (R76 steps 4 and 5): the peer, and the version; REFUSED where no version is common.
(Log entries 38 DEDUCED, 165 DEDUCED.) -/
def helloOp (p : Nat) (m : HelloMsg) (d : Dev) : Dev :=
  if d.portLive p && d.portState p = 1 && (d.port p).step < 6 then
    let d := d.setPort p { d.port p with peer := some m, joined := m.joined }
    let v := min m.verHi (d.rdF .hlkVersion 0 7 0)
    if v < max m.verLo 1 then d.setPortState p 5
    else
      let w := setFld (setFld (setFld 0 15 12 v) 9 0 ((m.joined.map (·.1)).getD 0)) 18 16 ((m.joined.map (·.2)).getD 0)
      ((d.wr .hlkPortpPeer p w).wrF .hlkPortpStat p 15 12 v).portStep p 6
  else d

/-- The mean of delay results, to the nearest 1/64 ns. (Log entry 37 DEDUCED.) -/
def meanDelay (l : List Int) : Int := if l = [] then 0 else roundDiv (l.foldl (· + ·) 0) l.length

/-- Insertion into a rising list. (Log entry 37 DEDUCED.) -/
def insertInt (x : Int) : List Int → List Int
  | [] => [x]
  | y :: ys => if x ≤ y then x :: y :: ys else y :: insertInt x ys

/-- The median of delay results: of sixteen, the mean of the two in the middle. (Log entry 37 DEDUCED.) -/
def medianDelay (l : List Int) : Int :=
  let s := l.foldr insertInt []
  roundDiv (s.getD ((l.length - 1) / 2) 0 + s.getD (l.length / 2) 0) 2

/-- The peer on port p is known to be fit as an alternative upstream: no deeper than the primary parent (R120). -/
def Dev.altFit (d : Dev) (p : Nat) : Option Bool :=
  (d.port p).joined.map (fun j => decide (j.2 + 1 ≤ d.rdF .hlkStat 0 31 29))

/-- An alternative upstream found too deep is held in REFUSED (R120). It is judged once this device is numbered and the
peer's depth is known. (Log entry 38 DEDUCED.) -/
def Dev.judgeAlt (d : Dev) (p : Nat) : Dev :=
  if d.altPort = some p && d.portState p = 3 && d.hlk.numbered && d.altFit p = some false then d.setPortState p 5 else d

/-- The alternative upstream that can take over now (R120, R121). (Log entry 38 DEDUCED.) -/
def Dev.usableAlt (d : Dev) : Option Nat :=
  match d.altPort with
  | some q => if d.portState q = 3 && d.altFit q = some true then some q else none
  | none => none

/-- A number has moved away from port p (R122). -/
def HlkPort.movedAway (x : HlkPort) (n : Nat) : Bool := x.dropped.any (fun r => decide (r.lo ≤ n) && decide (n ≤ r.hi))

/-- A device that returns at its place is given its former number, with what the lead recorded below it (R83): each device on
the way holds its part of that record. (Log entry 166 DEDUCED.) -/
def Dev.giveFormer (d : Dev) (p : Nat) : Dev :=
  let x := d.port p
  match x.peer with
  | some h =>
    match x.members.find? (fun k => k.path = [] && k.serial = h.serial && !x.movedAway k.number) with
    | some k =>
      if d.portState p = 2 && (d.isLead || d.hlk.numbered) then
        let depth := d.rdF .hlkStat 0 31 29 + 1
        ((d.setPortRole p 2).notePeer p k.number depth).sendPort p
          (.enum { number := k.number, depth := depth, former := true, below := x.members.filter (fun m => m.path ≠ []) })
      else d
    | none => d
  | none => d

/-- Training ends (R75–R77, R120, R83): REFUSED beyond 200 ns or where an alternative upstream is not accepted, STANDBY on
an alternative upstream's link, else UP; a device that returns at its place is given its former number. -/
def Dev.portTrained (d : Dev) (p : Nat) : Dev :=
  let x := d.port p
  let m := medianDelay x.delays
  let d := (d.wrF .hlkPortpDelay p 15 0 (wordOfInt m).toNat).setPort p { x with step := 7, stepAt := d.now, probeAt := d.now }
  if 12800 < m then d.setPortState p 5
  else if d.altPort = some p || (x.peer.map (·.alt)).getD false then
    if d.portVersion p < 2 then d.setPortState p 5 else ((d.setPortRole p 3).setPortState p 3).judgeAlt p
  else (d.setPortState p 2).giveFormer p

/-- DELAY_PROBE_SEND: in training, and every 256 beats on an UP or STANDBY link (R76, R90). -/
def delayProbeSendOp (p t1 : Nat) (d : Dev) : Dev :=
  let x := d.port p
  if d.portLive p && ((d.portState p = 1 && x.step = 6) ||
      ((d.portState p = 2 || d.portState p = 3) && 262144 ≤ elapsed d.now x.probeAt)) then
    (d.setPort p { x with probeAt := d.now }).sendPort p (.delayReq t1)
  else d

/-- DELAY_REQ: answered with the stamps of its arrival and of the answer's departure (R90). -/
def delayReqOp (p t1 t2 t3 : Nat) (d : Dev) : Dev :=
  if d.portLive p && (d.portState p = 1 || d.portState p = 2 || d.portState p = 3) then
    d.sendPort p (.delayRsp t1 t2 t3)
  else d

/-- The link delay of one probe, 1/64 ns (R90). (Log entry 37 DEDUCED.) -/
def Dev.probeDelay (d : Dev) (p t1 t2 t3 t4 : Nat) : Int :=
  roundDiv (((t4 : Int) - t1) - ((t3 : Int) - t2)) 2 + (BitVec.ofNat 16 (d.rdF .hlkPortpAsym p 15 0)).toInt

/-- DELAY_RSP: the mean of the last 16 results, or in training the median of 16 (R76, R90). -/
def delayRspOp (p t1 t2 t3 t4 : Nat) (d : Dev) : Dev :=
  let x := d.port p
  let l := (d.probeDelay p t1 t2 t3 t4 :: x.delays).take 16
  if d.portLive p && d.portState p = 1 && x.step = 6 then
    let d := d.setPort p { x with delays := l }
    if l.length = 16 then d.portTrained p else d
  else if d.portLive p && (d.portState p = 2 || d.portState p = 3) then
    (d.setPort p { x with delays := l }).wrF .hlkPortpDelay p 15 0 (wordOfInt (meanDelay l)).toNat
  else d

/-! ### Herd states (R94–R96) -/

/-- Goatherd's ALERT and HLK's own (R113): sent on every UP port. (Log entry 55 DEDUCED.) -/
def Dev.sendAlert (d : Dev) (kind detail : Nat) : Dev :=
  if d.domOn 9 then
    d.sendPorts d.upPorts (.alert { source := d.devNum, kind := BitVec.ofNat 4 kind, detail := BitVec.ofNat 8 detail,
                                    time := d.now })
  else d

/-- The frozen set is released, its shadows still pending (R575): FROZEN and DICT_FROZEN fall. -/
def Dev.releaseFrozen (d : Dev) : Dev :=
  (({ d with hlk := { d.hlk with frozen := none } }).wrB .hlkCommitStat 0 6 false).setLevel 802 false

/-- A herd-sourced axis loses the herd's position: FAULT with CAUSE 5 (R48, R96). (Log entries 39 DEDUCED, 43 DEDUCED.) -/
def Dev.faultHerdAxes (d : Dev) : Dev :=
  forUpTo 4 (fun a d =>
    if d.axisHerd a && d.rdB .sprAxnCtl a 0 && (d.axis a).main.st ≠ .fault then d.enterFault a .main 5 else d) d

/-- The herd state changes (R94, R125); entering LOST, or UNJOINED, leaves the commit and the herd-sourced axes (R96).
(Log entries 39 DEDUCED, 55 DEDUCED.) -/
def Dev.setHerdState (d : Dev) (st : Nat) : Dev :=
  let old := d.herdState
  if old = st then d
  else
    let d := ((d.wrF .hlkStat 0 2 0 st).raise 432)
    let d := (d.setLevel 433 (st = 3)).setLevel 434 (st = 4)
    if st = 4 || (st = 0 && old ≠ 5) then
      let d := { d.releaseFrozen with hlk := { d.releaseFrozen.hlk with
        votes := none, beats := [], expect := none, missed := 0, goodRun := 0, goodInLost := false, steer := 0, steerAcc := 0 } }
      if old = 0 then d else d.faultHerdAxes
    else { d with hlk := { d.hlk with goodRun := 0 } }

/-- HERD_STATE once the stored configuration is loaded (R94): LEAD on a lead, UNJOINED on a follower not yet joined, and on any
device with EN 0. (Log entries 44 DESIGN CHOICE, 201 DEDUCED.) -/
def Dev.takeHerdRole (d : Dev) : Dev :=
  if !d.hlk.valid || !d.rdB .hlkCtl 0 0 then d.setHerdState 0
  else if !d.follower then
    let d := ((d.wrF .hlkStat 0 28 19 0).wrF .hlkStat 0 31 29 0).setHerdState 5
    { d with hlk := { d.hlk with numbered := false } }
  else if d.herdState = 5 then { d.setHerdState 0 with hlk := { (d.setHerdState 0).hlk with numbered := false } }
  else d

/-- The same with what follows for the axes that follow the herd, which on the lead read an axis of its own (R48). -/
def Dev.refreshHerdRole (d : Dev) : Dev := Dev.reread Dev.takeHerdRole d

/-! ### Routing (R80, R122) -/

/-- A number lies in a range. -/
def inMoved (n : Nat) (r : MovedRange) : Bool := decide (r.lo ≤ n) && decide (n ≤ r.hi)

/-- The enumerated range of port p, where valid. -/
def Dev.portRange (d : Dev) (p : Nat) : Option MovedRange :=
  if d.rdB .hlkPortpRange p 47 then some { lo := d.rdF .hlkPortpRange p 9 0, hi := d.rdF .hlkPortpRange p 25 16 } else none

/-- Port p leads down to a device: a moved range ahead of the enumerated one (R122). -/
def Dev.portLeadsTo (d : Dev) (p n : Nat) : Bool :=
  let x := d.port p
  let inRange := match d.portRange p with | some r => inMoved n r | none => false
  x.moved.any (inMoved n) || (inRange && !x.dropped.any (inMoved n))

/-- The port a message to device n takes: a moved range first, then an enumerated range, else up. -/
def Dev.route (d : Dev) (n : Nat) : Option Nat :=
  match (List.range 4).find? (fun p => (d.port p).moved.any (inMoved n)) with
  | some p => some p
  | none =>
    match (List.range 4).find? (fun p => d.portLeadsTo p n) with
    | some p => some p
    | none => if d.isLead then none else some d.upPort

/-- The port of a routed message that can carry it now; none gives LINK_DOWN (R77, R112). -/
def Dev.routeUp (d : Dev) (n : Nat) (tile : Bool) : Option Nat :=
  match d.route n with
  | some p => if d.hlkOn && d.portState p = 2 && (!tile || 2 ≤ d.portVersion p) then some p else none
  | none => none

/-! ### COMMIT_DONE (R108, R572) -/

/-- The requester's record of its commit: DONE, the result, and what a COMMIT_DONE brings. -/
def Dev.commitEnds (d : Dev) (m : CommitDone) : Dev :=
  if d.commit.state = 1 then
    ({ d with commit := { d.commit with state := 2, status := m.status.toNat, sub := m.sub.toNat, epoch := m.epoch,
                                        pos := m.pos, waves := m.waves } }).raise 800
  else d

/-- COMMIT_DONE: taken here by its requester, routed on by any other device. -/
def commitDoneOp (m : CommitDone) (d : Dev) : Dev :=
  if !d.hlkOn then d
  else if m.requester = d.devNum then d.commitEnds m
  else
    match d.routeUp m.requester false with
    | some p => d.sendPort p (.commitDone m)
    | none => d

/-- A commit request of this device ends with LINK_DOWN (R112, R572). (Log entry 135 DEDUCED.) -/
def Dev.commitLinkDown (d : Dev) : Dev :=
  if d.commit.state = 1 then { d with commit := { d.commit with state := 2, status := 0x30, sub := 0 } }.raise 800 else d

/-- A commit request that cannot go on ends with LINK_DOWN at its requester (R77, R112). (Log entry 170 DEDUCED.) -/
def Dev.commitLost (d : Dev) (m : CommitReq) : Dev :=
  if m.requester = d.devNum then d.commitLinkDown
  else
    commitDoneOp { requester := m.requester, tag := m.tag, epoch := 0, status := 0x30, sub := 0, applySeq := 0, pos := 0,
                   waves := 0 } d

/-- The ports whose devices lie below this one. (Log entry 203 DEDUCED.) -/
def Dev.downPorts (d : Dev) : List Nat := (List.range 4).filter (fun p => d.portRole p = 2 && d.portState p = 2)

/-! ### Enumeration (R79–R83) -/

/-- What lies below this device, with itself first: the members an ENUM_RSP reports. -/
def Dev.herdMembers (d : Dev) : List HerdMember :=
  { serial := Config.serial.toNat, path := [], number := d.devNum } ::
    (List.range 4).flatMap (fun p =>
      if (d.portRange p).isSome then (d.port p).members.map (fun m => { m with path := Fin.ofNat 4 p :: m.path }) else [])

/-- The enumeration goes on to its next port, or ends (R80): the lead writes HERD_SIZE, a follower answers upstream.
(Log entry 35 DEDUCED.) -/
def Dev.enumNext (d : Dev) : Dev :=
  match d.hlk.enumRun with
  | none => d
  | some r =>
    match r.todo with
    | p :: rest =>
      let d := { d with hlk := { d.hlk with enumRun := some { r with todo := rest, cur := some p, base := r.next } } }
      d.sendPort p (.enum { number := r.next, depth := d.rdF .hlkStat 0 31 29 + 1, former := false })
    | [] =>
      let d := { d with hlk := { d.hlk with enumRun := none } }
      if d.isLead then d.wrF .hlkHerdSize 0 10 0 r.next
      else d.sendPort d.upPort (.enumRsp { members := d.herdMembers, refused := false })

/-- An enumeration starts at this device: old ranges and moves are forgotten. (Log entry 36 DESIGN CHOICE.) -/
def Dev.enumStart (d : Dev) (num : Nat) (ports : List Nat) : Dev :=
  let d := forUpTo 4 (fun p d =>
    (d.setPort p { d.port p with moved := [], old := [], dropped := [], members := [], retired := false }).wr .hlkPortpRange p 0) d
  ({ d with hlk := { d.hlk with enumRun := some { todo := ports, cur := none, base := 0, next := num + 1 } } }).enumNext

/-- A write of 1 to ENUM (R80, R82): its status, and the block. Heads running on another joined device are not visible here:
with other devices joined, whether one runs is a free value. -/
def Dev.enumerate (d : Dev) : Nat × Dev :=
  if !d.hlkOn || d.follower || !d.isLead then (0, d.hlkCfgErr)
  else
    let x := if d.rdF .hlkHerdSize 0 10 0 ≤ 1 then (0, d) else d.free
    if d.anyRunning || x.1 % 2 = 1 then (0x22, x.2.hlkCfgErr)
    else (0, x.2.enumStart 0 d.upPorts)

/-- HERD_ENUMERATE: the register write shows a refusal in CFG_ERR. (Log entry 36 DESIGN CHOICE.) -/
def herdEnumerateOp (d : Dev) : Dev := d.enumerate.2

/-- The lead's record of what lies below is put back, port by port, and returning devices get their numbers (R83).
(Log entry 166 DEDUCED.) -/
def Dev.restoreBelow (d : Dev) (p : Nat) (below : List HerdMember) : Dev :=
  forUpTo 4 (fun q d =>
    let ms := (below.filter (fun m => m.path.head? = some (Fin.ofNat 4 q))).map (fun m => { m with path := m.path.tail })
    match ms with
    | [] => d
    | m :: rest =>
      if q = p then d
      else
        let lo := rest.foldl (fun n k => min n k.number) m.number
        let hi := rest.foldl (fun n k => max n k.number) m.number
        ((d.wr .hlkPortpRange q (setBit (setFld (setFld 0 9 0 lo) 25 16 hi) 47 true)).setPort q
          { d.port q with members := m :: rest }).giveFormer q) d

/-- ENUM (R80, R81, R83, R120). A former number from the port left by a failover is not taken (R122).
(Log entry 166 DEDUCED.) -/
def enumOp (p : Nat) (m : EnumMsg) (d : Dev) : Dev :=
  if !d.hlkOn || d.portState p ≠ 2 then d
  else if !d.follower then d.discardMsg p
  else if m.former && (d.port p).retired then d
  else if 1024 ≤ m.number || 7 ≤ m.depth then
    let d := { d with hlk := { d.hlk with numbered := false } }
    ((d.wrB .hlkStat 0 36 true).setHerdState 0).sendPort p (.enumRsp { members := [], refused := true })
  else
    let d := if d.portRole d.upPort = 1 && d.upPort ≠ p then d.setPortRole d.upPort 0 else d
    let d := ((d.wrB .hlkStat 0 36 false).wrF .hlkStat 0 28 19 m.number).wrF .hlkStat 0 31 29 m.depth
    let d := ((d.wrF .hlkStat 0 17 16 p).setPortRole p 1).wrF .hlkPortpPeer p 18 16 (m.depth - 1)
    let d := { d with hlk := { d.hlk with numbered := true } }
    let d := forUpTo 4 (fun q d => d.judgeAlt q) d
    if m.former then (d.restoreBelow p m.below).sendPort p (.enumRsp { members := d.herdMembers, refused := false })
    else d.enumStart m.number (d.upPorts.filter (fun q => q ≠ p))

/-- ENUM_RSP (R80, R81): the range below the port visited, or REFUSED; then the next port. The answer to a former number says
nothing new: the lead's record stands (R83). (Log entries 35 DEDUCED, 166 DEDUCED.) -/
def enumRspOp (p : Nat) (m : EnumRsp) (d : Dev) : Dev :=
  match d.hlk.enumRun with
  | some r =>
    if r.cur = some p then
      if m.refused then (d.setPortState p 5).enumNext
      else
        let n := m.members.length
        let d := d.wr .hlkPortpRange p (setBit (setFld (setFld 0 9 0 r.base) 25 16 (r.base + n - 1)) 47 true)
        let d := ((d.setPort p { d.port p with members := m.members }).setPortRole p 2).notePeer p r.base (d.rdF .hlkStat 0 31 29 + 1)
        ({ d with hlk := { d.hlk with enumRun := some { r with cur := none, next := r.base + n } } }).enumNext
    else d
  | none => d

/-! ### Alerts (R113) -/

/-- ALERT: recorded, raised, and flooded on every other UP port. -/
def alertOp (p : Nat) (m : AlertMsg) (d : Dev) : Dev :=
  if d.hlkOn && d.portState p = 2 then
    let w := setFld (setFld (setFld (setBit 0 47 true) 21 14 m.detail.toNat) 13 10 m.kind.toNat) 9 0 m.source
    let d := (d.wr .hlkAlertLast 0 w).raise 437
    d.sendPorts (d.upPorts.filter (fun q => q ≠ p)) (.alert m)
  else d

/-! ### Failover (R121, R122) -/

/-- The numbers of this device and all below it. -/
def Dev.ownRange (d : Dev) : MovedRange :=
  { lo := d.devNum, hi := (List.range 4).foldl (fun n p =>
      match d.portRange p with | some r => max n r.hi | none => n) d.devNum }

/-- A message of the tree's upkeep leaves on port p where its version carries it (R77). (Log entry 167 DEDUCED.) -/
def Dev.sendUpkeep (d : Dev) (p : Nat) (m : HlkMsg) : Dev :=
  if d.portState p = 2 && 2 ≤ d.portVersion p then d.sendPort p m else d

/-- R121: the alternative becomes the upstream, under the same number and depth; HERD_COAST comes of a missed beat, not of
the failover. (Log entry 42 DEDUCED.) -/
def Dev.failover (d : Dev) (q : Nat) : Dev :=
  let old := d.upPort
  let d := (d.setPort old { d.port old with retired := true }).setPortRole old 0
  let d := ((d.wrF .hlkStat 0 17 16 q).setPortRole q 1).setPortState q 2
  let d := (d.sendUpkeep q (.reparent d.ownRange)).raise 438
  { d with hlk := { d.hlk with altGood := 0 } }

/-- The upstream is gone (R94, R121): failover where a usable alternative stands, LOST otherwise. -/
def Dev.upstreamLost (d : Dev) : Dev :=
  match d.usableAlt with
  | some q => if d.hlk.numbered then d.failover q else d
  | none => if d.herdState = 1 || d.herdState = 2 || d.herdState = 3 then d.setHerdState 4 else d

/-- A port leaves UP or STANDBY (R78): DOWN and training again, or DISABLED; the upstream's loss follows.
(Log entry 50 DEDUCED.) -/
def Dev.portGone (d : Dev) (p discarded : Nat) : Dev :=
  let up := d.portState p = 2 && d.portRole p = 1
  let d := (d.portError p 47 32 discarded).portRestart p
  if up && d.upPort = p then d.upstreamLost else d

/-- What is left of a range without another. -/
def rangeMinus (r m : MovedRange) : List MovedRange :=
  if r.hi < m.lo || m.hi < r.lo then [r]
  else (if r.lo < m.lo then [{ lo := r.lo, hi := m.lo - 1 }] else []) ++
    (if m.hi < r.hi then [{ lo := m.hi + 1, hi := r.hi }] else [])

/-- What two ranges share. -/
def rangeCommon (r m : MovedRange) : List MovedRange :=
  if r.hi < m.lo || m.hi < r.lo then [] else [{ lo := max r.lo m.lo, hi := min r.hi m.hi }]

/-- A range moves again: what was moved to this port of it no longer counts for routing, and waits for its ROUTE_DROP (R122). -/
def HlkPort.supersede (x : HlkPort) (m : MovedRange) : HlkPort :=
  { x with moved := x.moved.flatMap (fun r => rangeMinus r m), old := x.moved.flatMap (fun r => rangeCommon r m) ++ x.old }

/-- The enumerated range of port p still leads to a number. (Log entry 167 DEDUCED.) -/
def Dev.enumLeads (d : Dev) (p n : Nat) : Bool :=
  (match d.portRange p with | some r => inMoved n r | none => false) && !(d.port p).movedAway n

/-- The port that a moved range was reached by before it moved: by an earlier move, else by the enumeration; on a device that
does not lie on the new path, by the move that still stands. (Log entry 167 DEDUCED.) -/
def Dev.oldPath (d : Dev) (m : MovedRange) : Option Nat :=
  (List.range 4).find? (fun q => (d.port q).old.any (inMoved m.lo)) <|>
    (List.range 4).find? (fun q => d.enumLeads q m.lo) <|>
    (if d.isLead then none else (List.range 4).find? (fun q => (d.port q).moved.any (inMoved m.lo)))

/-- The old path of a range is left on the port it took: what an earlier move put there goes, and its enumerated range no longer
counts; the message goes on down that port (R122). (Log entry 167 DEDUCED.) -/
def Dev.dropOn (d : Dev) (old : Option Nat) (m : MovedRange) : Dev :=
  match old with
  | some q =>
    let x := d.port q
    let x := if x.old.any (inMoved m.lo) then { x with old := x.old.flatMap (fun r => rangeMinus r m) }
      else if d.enumLeads q m.lo then x else { x with moved := x.moved.flatMap (fun r => rangeMinus r m) }
    (d.setPort q { x with dropped := m :: x.dropped }).sendUpkeep q (.routeDrop m)
  | none => d

/-- REPARENT (R122): the moved range is routed to the port it came on, ahead of what stood before, up to the lead, which drops
the old path. (Log entry 167 DEDUCED.) -/
def reparentOp (p : Nat) (m : MovedRange) (d : Dev) : Dev :=
  if d.hlkOn && (d.portState p = 2 || d.portState p = 3) then
    let d := forUpTo 4 (fun q d => d.setPort q ((d.port q).supersede m)) d
    let d := (d.setPort p { d.port p with moved := m :: (d.port p).moved }).setPortRole p 2
    let d := d.setPortState p 2
    if d.isLead then d.dropOn (d.oldPath m) m else d.sendUpkeep d.upPort (.reparent m)
  else d

/-- ROUTE_DROP (R122): the moved range leaves the old path, down to its end. (Log entry 167 DEDUCED.) -/
def routeDropOp (p : Nat) (m : MovedRange) (d : Dev) : Dev :=
  if d.hlkOn && d.portState p = 2 then d.dropOn (d.oldPath m) m else d

/-- On entering JOINING from UNJOINED or LOST the device time stamp steps to the lead's time, with a log record (R92, R595);
`phase` is local less lead time in 1/64 ns, and the new stamp its whole nanoseconds.
(Log entries 55 DEDUCED, 168 DESIGN CHOICE.) -/
def Dev.stepTime (d : Dev) (phase : Int) : Dev :=
  let new := d.now - wordOfInt (phase.fdiv 64)
  let d := d.log 1 0x050 d.now (new.toNat % 2 ^ 32)
  ({ d with now := new }).raise 432

/-- RESYNC written 1 (R94): LOST is left for JOINING where a good beat has been received since LOST was entered. -/
def resyncOp (d : Dev) : Dev :=
  if d.hlkOn && d.herdState = 4 && d.hlk.goodInLost then (d.setHerdState 1).stepTime d.hlk.phase else d

end Sys2Proof.Machine
end

