-- ==== Sys2Proof/Machine/Velvet.lean ====
section
/-! DEFINITION. Velvet tags (R194–R200): CRC-32C, the tag of a tile, and the checks of a tile read for use. -/

namespace Sys2Proof.Machine

/-- One bit of CRC-32C, reflected (R195). -/
def crcBit (c : BitVec 32) : BitVec 32 := if c.getLsbD 0 then (c >>> 1) ^^^ 0x82F63B78#32 else c >>> 1

/-- One byte of CRC-32C. -/
def crcByte (c : BitVec 32) (b : Byte) : BitVec 32 :=
  let c := c ^^^ b.setWidth 32
  crcBit (crcBit (crcBit (crcBit (crcBit (crcBit (crcBit (crcBit c)))))))

/-- CRC-32C of R195 over bytes. -/
def crc32c (bs : List Byte) : BitVec 32 := ~~~(bs.foldl crcByte 0xFFFFFFFF#32)

/-- Flag bits of a Velvet tag (R197). -/
def flagPoison : Nat := 1
def flagStraddle : Nat := 2
def flagUnestimated : Nat := 4
def flagCorrected : Nat := 8
def flagReference : Nat := 16
def flagPartial : Nat := 32
def flagHorizon : Nat := 64

/-- The tag of a payload (R194). -/
def velvetTag (ws : List Word) (pchk gen flags : Nat) : BitVec 64 :=
  BitVec.ofNat 64 ((crc32c (bytesOfWords ws)).toNat * 2 ^ 32 + pchk % 65536 * 65536 + gen % 256 * 256 + flags % 256)

/-- PCHK of a tag. -/
def tagPchk (t : BitVec 64) : Nat := t.toNat / 65536 % 65536
/-- GEN of a tag. -/
def tagGen (t : BitVec 64) : Nat := t.toNat / 256 % 256
/-- FLAGS of a tag. -/
def tagFlags (t : BitVec 64) : Nat := t.toNat % 256

/-- PCHK of an image, raw or reference tile: a 16-bit position check crossed with its column block (R196). -/
def pchkOf (x c : Nat) : Nat := (x % 65536) ^^^ (c * 1024 % 65536)

/-- PCHK of an image or raw tile: FIRST_POS[23:8] and the column block. -/
def posPchk (first : P48) (c : Nat) : Nat := pchkOf (first.toNat / 256) c

/-- The words a tile's tag covers agree with it, and flag bit 7 is 0 (R198 check 2). -/
def Tile.crcGood (t : Tile) : Bool :=
  decide ((crc32c (bytesOfWords t.allWords)).toNat = t.tag.toNat / 2 ^ 32) && !t.tag.getLsbD 7

/-! ### Graze banks -/

/-- The active bank is B. -/
def Dev.bankB (d : Dev) : Bool := d.rdB .tfbGrzCtl 0 1

/-- Quota of class c in a bank. -/
def Dev.quota (d : Dev) (b : Bool) (c : Nat) : Nat := d.rdF (if b then .tfbQuotabC else .tfbQuotaaC) c 11 0

/-- Slot entry j of a bank. -/
def Dev.slotEntry (d : Dev) (b : Bool) (j : Nat) : Word := d.rd (if b then .tfbSlotbJ else .tfbSlotaJ) j

/-- A mismatch: HORIZON behind the horizon, VELVET_MISMATCH elsewhere, counted (R199). -/
def Dev.mismatch (d : Dev) (behind : Bool) : Nat × Dev :=
  if behind then (0x20, d.satF .tfbLbVcnt 0 31 16 1) else (0x19, (d.satF .tfbLbVcnt 0 15 0 1).raise 647)

/-- A tile read for use by a requester under a class (R198, R199, R439): the first failing check's outcome (status + 256 ×
sub-code) or 0, the tile's words and tag, and the block. Check 4 does not apply to a reader that accepts poison. A reader under R200 that is given the tile all the same
gets zero pixels after UNCORRECTABLE or a mismatch, and POISON. (Log entry 181 DEDUCED.) -/
def Dev.useTile (d : Dev) (r cls q : Nat) (pchk : Nat) (gen : Option Nat) (behind accept : Bool) : Nat × Tile × Dev :=
  let x := d.readTile r cls (d.placeOf q) 4 true
  let t := x.2.1
  let d := x.2.2
  let zero : Tile := { words := [], tag := t.tag ||| 1, sev := 0 }
  if x.1 ≠ 0 then (x.1, zero, d)
  else if !t.crcGood || tagPchk t.tag ≠ pchk || (match gen with | some g => tagGen t.tag ≠ g | none => false) then
    let r := d.mismatch behind
    (r.1, zero, r.2)
  else if t.tag.getLsbD 0 && !accept then (0x18, t, d.satF .tfbLbVcnt 0 47 32 1)
  else (0, t, d)

end Sys2Proof.Machine
end

