-- ==== Sys2Proof/Machine/Comp.lean ====
section
/-! DEFINITION. Completion rings of the host interface: indices, room, the holding areas, writes into host memory and the
messages that follow them (R487–R489, R493, R494, R502, R504–R508). A ring of function f is number 64f + ring. -/

namespace Sys2Proof.Machine

/-- Function f is attached (R477). -/
def Dev.attached (d : Dev) (f : Nat) : Bool := d.rdB .hifFfStat f 0

/-- Bytes written into the memory of a function's host, only while it is attached (R477). -/
def Dev.hostWrite (d : Dev) (f addr : Nat) (bytes : List Byte) : Dev :=
  if d.attached f && bytes ≠ [] then d.emit (.hostWrite f addr bytes) else d

/-- MSI-X of function f. -/
def Dev.msix (d : Dev) (f : Nat) : Msix := tget d.hif.msix {} f

/-- MSI-X of function f replaced. -/
def Dev.setMsix (d : Dev) (f : Nat) (m : Msix) : Dev := { d with hif := { d.hif with msix := tset d.hif.msix f m } }

/-- A vector of the table. -/
def Msix.vector (m : Msix) (v : Nat) : MsixEntry := tget m.vectors {} v

/-- A vector may be sent: MSI-X is enabled and neither the function nor the vector is masked (R486).
(Log entry 110 PRESUMED.) -/
def Msix.unmasked (m : Msix) (v : Nat) : Bool := m.enable && !m.maskAll && !(m.vector v).masked

/-- The pending bit of a vector set or cleared. (Log entry 110 PRESUMED.) -/
def Msix.mark (m : Msix) (v : Nat) (b : Bool) : Msix :=
  { m with pba := if b then m.pba ||| (1#64 <<< v) else m.pba &&& ~~~(1#64 <<< v) }

/-- A message of an attached function: sent to the address of its vector, or pending while the vector is masked (R477, R486).
(Log entry 110 PRESUMED.) -/
def Dev.sendMsix (d : Dev) (f vec : Nat) : Dev :=
  let m := d.msix f
  if !d.attached f then d
  else if m.unmasked vec then d.emit (.msix f vec (m.vector vec).addr (m.vector vec).data)
  else d.setMsix f (m.mark vec true)

/-- The pending vectors that are no longer masked are sent, in ascending order (R486). (Log entry 110 PRESUMED.) -/
def Dev.flushMsix (d : Dev) (f : Nat) : Dev :=
  forUpTo 64 (fun v d =>
    let m := d.msix f
    if m.pba.getLsbD v && m.unmasked v then (d.setMsix f (m.mark v false)).sendMsix f v else d) d

/-- HIF_RING_ERR for function f, with its message (R517). -/
def Dev.ringErr (d : Dev) (f : Nat) : Dev := (d.raise 686).sendMsix f (d.rdF .hifFfCtl f 5 0)

/-- HIF_STOPPED for function f, with its message (R517). -/
def Dev.ringStopped (d : Dev) (f : Nat) : Dev := (d.raise 687).sendMsix f (d.rdF .hifFfCtl f 5 0)

/-- BADACC of function f counts one more (R479, R483, R517). (Log entry 103 DEDUCED.) -/
def Dev.badAcc (d : Dev) (f : Nat) : Dev :=
  if d.rdF .hifFfStat f 47 32 = 65535 then d else (d.satF .hifFfStat f 47 32 1).ringErr f

/-- The agreed version of function f (R515). -/
def Dev.agreed (d : Dev) (f : Nat) : Nat := d.rdF .hifFfCtl f 23 16

/-- The indices a and b of a ring of 2^n entries: (a − b) mod 2^(n+1) (R488). -/
def idxSub (n a b : Nat) : Nat := (a % 2 ^ (n + 1) + 2 ^ (n + 1) - b % 2 ^ (n + 1)) % 2 ^ (n + 1)

/-- The ownership mark of index i (R489): 1 minus its lap bit. -/
def phaseOf (n i : Nat) : Nat := 1 - i / 2 ^ n % 2

/-- A completion ring beyond its registers. -/
def Dev.cq (d : Dev) (r : Nat) : CompRing := tget d.hif.comps {} r

/-- A completion ring replaced. -/
def Dev.setCq (d : Dev) (r : Nat) (x : CompRing) : Dev := { d with hif := { d.hif with comps := tset d.hif.comps r x } }

/-- STATE of a completion ring: 0 OFF, 1 RUNNING, 2 STOPPING. -/
def Dev.cqState (d : Dev) (r : Nat) : Nat := d.rdF .hifFfCqcStat r 24 23

/-- n of a completion ring of 2^n entries. -/
def Dev.cqBits (d : Dev) (r : Nat) : Nat := d.rdF .hifFfCqcCfg r 13 10 + 4

/-- The device producer index D. -/
def Dev.cqProd (d : Dev) (r : Nat) : Nat := d.rdF .hifFfCqcStat r 16 0

/-- Entries held. -/
def Dev.cqHeld (d : Dev) (r : Nat) : Nat := d.rdF .hifFfCqcStat r 33 25

/-- Places reserved for DIRECT entries. -/
def Dev.cqRsvd (d : Dev) (r : Nat) : Nat := d.rdF .hifFfCqcStat r 40 34

/-- Places free in the ring that nothing has reserved (R504, R506). -/
def Dev.cqRoom (d : Dev) (r : Nat) : Nat :=
  2 ^ d.cqBits r - idxSub (d.cqBits r) (d.cqProd r) (d.rdF .hifFfCqcHost r 16 0) - (d.cqRsvd r - (d.cq r).rsvHold)

/-- Places free in the holding area that nothing has reserved (R505, R506). -/
def Dev.holdFree (d : Dev) (r : Nat) : Nat := 256 - d.cqHeld r - (d.cq r).rsvHold

/-- DAS address of a slot of a holding area (R287). -/
def holdAddr (r slot : Nat) : Nat := 0x7CBC00 + (r * 256 + slot % 256) * 6

/-- HIF_HOLD follows the holding areas (R517). -/
def Dev.refreshHold (d : Dev) : Dev := d.setLevel 688 ((List.range 128).any (fun r => d.cqHeld r ≠ 0))

/-- HELD of a ring set. -/
def Dev.setHeld (d : Dev) (r n : Nat) : Dev := (d.wrF .hifFfCqcStat r 33 25 n).refreshHold

/-- A completion entry (R493). -/
def compEntry (st sub src sq : Nat) (tag : BitVec 32) (v0 v1 : Nat) (v2 : Word) : List Byte :=
  bytesOfNat 1 st ++ bytesOfNat 1 sub ++ bytesOfNat 1 src ++ bytesOfNat 1 sq ++ bytesOfNat 4 tag.toNat ++
    bytesOfNat 8 v0 ++ bytesOfNat 8 v1 ++ bytesOfWord v2 ++ [0, 0]

/-- An entry's 32 bytes with PHASE set. -/
def withPhase (e : List Byte) (p : Nat) : List Byte :=
  e.take 31 ++ [BitVec.ofNat 8 ((e.getD 31 0).toNat / 2 * 2 + p)]

/-- An entry written into the ring at D (R489, R504). -/
def Dev.cqWrite (d : Dev) (r : Nat) (e : List Byte) : Dev :=
  let n := d.cqBits r
  let i := d.cqProd r
  let base := d.rdF .hifFfCqcCfg r 47 32 * 2 ^ 48 + (d.rd .hifFfCqcBase r).toNat
  let d := d.hostWrite (r / 64) (base + 32 * (i % 2 ^ n)) (withPhase e (phaseOf n i))
  (d.wrF .hifFfCqcStat r 16 0 ((i + 1) % 2 ^ (n + 1))).wrapF .hifFfCqcCount r 31 0 1

/-- The oldest held entry read back; one that fails is replaced by INTERNAL, sub-code 01h (R507). -/
def Dev.heldEntry (d : Dev) (r : Nat) : List Byte × Dev :=
  let x := d.sramReads (holdAddr r (d.cq r).first) 6
  if x.2.1 ≠ 0 then (compEntry 0x3F 1 0 0 0 0 0 0, x.2.2) else ((bytesOfWords x.1).take 32, x.2.2)

/-- Held entries written into the ring in the order held, n at most, as room appears (R504). -/
def Dev.cqFlush (r : Nat) : Nat → Dev → Dev
  | 0, d => d
  | n + 1, d =>
    if d.cqHeld r = 0 || d.cqRoom r = 0 then d
    else
      let x := d.heldEntry r
      let d := x.2.cqWrite r x.1
      let d := d.setCq r { d.cq r with first := ((d.cq r).first + 1) % 256, flushed := (d.cq r).flushed + 1 }
      cqFlush r n (d.setHeld r (d.cqHeld r - 1))

/-- An entry put behind the held ones. -/
def Dev.holdPut (d : Dev) (r : Nat) (e : List Byte) : Dev :=
  let d := d.sramWrites (holdAddr r ((d.cq r).first + d.cqHeld r)) (wordsOfBytes 6 e)
  d.setHeld r (d.cqHeld r + 1)

/-- The message of ring r sent now (R508). -/
def Dev.cqMessage (d : Dev) (r : Nat) : Dev :=
  (d.sendMsix (r / 64) (d.rdF .hifFfCqcCfg r 23 18)).setCq r { d.cq r with lastMsg := some d.now, msgDue := false }

/-- COAL of ring r in ns; 0 where coalescing is not in force (R508, R515). -/
def Dev.coalNs (d : Dev) (r : Nat) : Nat :=
  if 0x11 ≤ d.agreed (r / 64) then d.rdF .hifFfCqcCfg r 31 24 * 1000 else 0

/-- COAL has passed since the last message. -/
def Dev.coalDone (d : Dev) (r : Nat) : Bool :=
  match (d.cq r).lastMsg with
  | some t => decide (d.coalNs r ≤ elapsed d.now t)
  | none => true

/-- The message that entries written since `before` call for: sent, or due later under COAL (R508). -/
def Dev.cqAnnounce (d : Dev) (r before : Nat) : Dev :=
  if d.cqProd r = before then d
  else if d.coalDone r then d.cqMessage r
  else d.setCq r { d.cq r with msgDue := true }

/-- Entries completed on ring r: into the ring while none is held and there is room, else behind the held ones
(R504, R505); none is put on a ring that does not run. -/
def Dev.cqPut (d : Dev) (r : Nat) (es : List (List Byte)) : Dev :=
  let before := d.cqProd r
  let d := es.foldl (fun d e =>
    let d := d.cqFlush r (d.cqHeld r)
    if d.cqHeld r = 0 && 0 < d.cqRoom r then d.cqWrite r e
    else if 0 < d.holdFree r then d.holdPut r e
    else d.satF .hifFfCqcCount r 47 32 1) d
  d.cqAnnounce r before

/-- One place reserved for a DIRECT entry: whether in the holding area, or none where there is no place (R506) or 64 are reserved
already (R518). (Log entry 217 DEDUCED.) -/
def Dev.reserve (d : Dev) (r : Nat) : Option (Bool × Dev) :=
  let more (d : Dev) : Dev := d.wrF .hifFfCqcStat r 40 34 (d.cqRsvd r + 1)
  if 64 ≤ d.cqRsvd r then none
  else if d.cqHeld r = 0 && 0 < d.cqRoom r then some (false, more d)
  else if 0 < d.holdFree r then some (true, more (d.setCq r { d.cq r with rsvHold := (d.cq r).rsvHold + 1 }))
  else none

/-- A reserved place given back, and taken by the completion it was kept for. -/
def Dev.useReserved (d : Dev) (r : Nat) (inHold : Bool) (e : List Byte) : Dev :=
  let d := d.wrF .hifFfCqcStat r 40 34 (d.cqRsvd r - 1)
  let d := if inHold then d.setCq r { d.cq r with rsvHold := (d.cq r).rsvHold - 1 } else d
  d.cqPut r [e]

/-- COAL_MESSAGE (R508): the interval has passed and a message is due. -/
def coalMessageOp (f c : Nat) (d : Dev) : Dev :=
  let r := 64 * f + c
  if (d.cq r).msgDue && d.coalDone r then d.cqMessage r else d

end Sys2Proof.Machine
end

