-- ==== Sys2Proof/Machine/Engines.lean ====
section
/-! DEFINITION. The engines of the tile movers, their queue of requests and the transfer buffer (R405, R423, R459–R461, R472). -/

namespace Sys2Proof.Machine

/-- The request of a user. -/
def Dev.moverReq (d : Dev) (u : MoverUser) : Option MoverReq := d.tmv.reqs.find? (fun r => r.user = u)

/-- What a user's request holds, once an engine has taken it. -/
def Dev.moverRun? (d : Dev) (u : MoverUser) : Option MoverRun := (d.moverReq u).bind (·.run)

/-- The requests that engines have taken. -/
def Dev.engineRuns (d : Dev) : List MoverRun := d.tmv.reqs.filterMap (·.run)

/-- A request waits for an engine. -/
def Dev.moverWaits (d : Dev) : Bool := d.tmv.reqs.any (fun r => r.run.isNone)

/-- The lowest-numbered of 8 engines that is idle. -/
def idleEngine (busy : List Nat) : Option Nat := (List.range 8).find? (fun e => !busy.contains e)

/-- The words of a segment (R461): 64 tiles. -/
def segmentWords : Nat := 32768

/-- The pool slots that a request asks for: those of a segment past the four of its engine, 64 at most (R459).
(Log entry 209 DESIGN CHOICE.) -/
def MoverReq.poolWant (r : MoverReq) : Nat := min 64 ((min r.words segmentWords + 511) / 512 - 4)

/-- n pool slots that no request holds: the slots past the engines' 64 (R459). (Log entry 209 DESIGN CHOICE.) -/
def Dev.poolSlots (d : Dev) (n : Nat) : List Nat :=
  if n = 0 then [] else
    (((List.range 618).map (· + 64)).filter (fun k => !d.engineRuns.any (fun r => r.pool.contains k))).take n

/-- The buffer slots of a request that runs, in order: its read engine's four, then the pool's. -/
def MoverRun.slots (r : MoverRun) : List Nat := (List.range 4).map (· + 4 * r.reader) ++ r.pool

/-- The request that has waited longest takes the lowest-numbered idle read engine, a write engine where its destination needs one,
and its pool slots, and fills its slots (R459–R461). (Log entry 209 DESIGN CHOICE.) -/
def Dev.takeEngine (d : Dev) : Dev :=
  match d.tmv.reqs.find? (fun r => r.run.isNone), idleEngine (d.engineRuns.map (·.reader)) with
  | some q, some e =>
    let run : MoverRun := { reader := e, pool := d.poolSlots q.poolWant,
                            writer := if q.write then idleEngine (d.engineRuns.filterMap (·.writer)) else none }
    let slots := run.slots
    { d with tmv := { d.tmv with reqs := d.tmv.reqs.map (fun r => if r.user = q.user then { r with run := some run } else r) },
             hbc := { d.hbc with xfer := d.hbc.xfer.filter (fun w => !slots.contains (w.1 / 512)) } }
  | _, _ => d

/-- Every idle engine takes a request, in order of arrival (R461). -/
def Dev.assignEngines (d : Dev) : Dev := forUpTo 8 (fun _ d => d.takeEngine) d

/-- A request joins the queue (R461). (Log entry 209 DESIGN CHOICE.) -/
def Dev.askMover (d : Dev) (u : MoverUser) (words : Nat) (write : Bool) : Dev :=
  if (d.moverReq u).isSome then d
  else
    let q : MoverReq := { user := u, words := words, write := write }
    let d := { d with tmv := { d.tmv with reqs := d.tmv.reqs ++ [q] } }
    d.assignEngines

/-- A request leaves, and its engines serve those that wait. -/
def Dev.leaveMover (d : Dev) (u : MoverUser) : Dev :=
  if (d.moverReq u).isNone then d
  else
    let d := { d with tmv := { d.tmv with reqs := d.tmv.reqs.filter (fun r => r.user ≠ u) } }
    d.assignEngines

/-- The engines of a request work to its end; at the end of a segment it goes to the tail of the queue instead, where another
request waits (R461). (Log entry 209 DESIGN CHOICE.) -/
def Dev.engineTurn (d : Dev) (u : MoverUser) : Bool × Dev :=
  match d.moverReq u with
  | none => (false, d)
  | some q =>
    match q.run with
    | none => (false, d)
    | some run =>
      if segmentWords < q.words && d.moverWaits then
        let rest := d.tmv.reqs.filter (fun r => r.user ≠ u)
        let q : MoverReq := { q with words := q.words - segmentWords, run := none }
        let d := { d with tmv := { d.tmv with reqs := rest ++ [q] } }
        (false, d.assignEngines)
      else (true, { d with tmv := { d.tmv with turn := (run.reader, run.writer.getD run.reader) } })

/-- A tile request of another device is served within its step: the lowest-numbered idle read engine works (R461).
(Log entry 209 DESIGN CHOICE.) -/
def Dev.borrowEngine (d : Dev) : Dev :=
  let e := (idleEngine (d.engineRuns.map (·.reader))).getD 0
  { d with tmv := { d.tmv with turn := (e, d.tmv.turn.2) } }

/-- The requester number of the read engine at work (R439). -/
def Dev.readEngine (d : Dev) : Nat := 5 + d.tmv.turn.1

/-- The requester number of the write engine at work (R439). -/
def Dev.writeEngine (d : Dev) : Nat := 13 + d.tmv.turn.2

/-- The transfer buffer's word i, as far as it differs from what was last written. -/
def Dev.xferCell (d : Dev) (i : Nat) : MemWord := tget d.hbc.xfer .blank i

/-- What a word of the transfer buffer differs by, replaced. -/
def Dev.putXfer (d : Dev) (i : Nat) (m : MemWord) : Dev := { d with hbc := { d.hbc with xfer := memPut .blank d.hbc.xfer i m } }

/-- The buffer word that word i of a request's data lies in. (Log entry 209 DESIGN CHOICE.) -/
def MoverRun.bufferWord (r : MoverRun) (i : Nat) : Option Nat := (r.slots[i / 512]?).map (fun k => 512 * k + i % 512)

/-- One data word read from a word of the transfer buffer (R405, R418, R421, R423): what changed there is decoded alone, since the
code is linear. -/
def Dev.xferRead (d : Dev) (a : Nat) (w : Word) : SramRead × Dev :=
  match decodeWord (d.xferCell a) with
  | .ok x => (.ok (w ^^^ x), d)
  | .corrected x => (.corrected (w ^^^ x), (d.putXfer a (goodWord x)).sramCe 5)
  | .uncorrectable x => (.uncorrectable (w ^^^ x), d.sramUe 5 1 a)
  | .poison x => (.poison (w ^^^ x), d.sramUe 5 2 a)

/-- Data from word i on read from the transfer buffer: the words up to one that reads bad, and its status. -/
def Dev.xferReads (d : Dev) (run : MoverRun) : Nat → List Word → List Word × Nat × Dev
  | _, [] => ([], 0, d)
  | i, w :: ws =>
    match run.bufferWord i with
    | none => (w :: ws, 0, d)
    | some a =>
      let x := d.xferRead a w
      if x.1.status ≠ 0 then ([], x.1.status, x.2)
      else
        let y := x.2.xferReads run (i + 1) ws
        (x.1.word :: y.1, y.2.1, y.2.2)

/-- The data of a user's request passes the transfer buffer (R405, R423). (Log entry 209 DESIGN CHOICE.) -/
def Dev.passBuffer (d : Dev) (u : MoverUser) (ws : List Word) : List Word × Nat × Dev :=
  if d.hbc.xfer = [] then (ws, 0, d)
  else
    match d.moverRun? u with
    | some run => d.xferReads run 0 ws
    | none => (ws, 0, d)

/-- TMV_STAT as it reads (R472): a bit for each engine that is busy, the free pool slots, and the requests that wait.
(Log entry 209 DESIGN CHOICE.) -/
def Dev.tmvStat (d : Dev) : Word :=
  let bits (l : List Nat) : Nat := l.foldl (fun n e => n ||| 2 ^ e) 0
  let held := d.engineRuns.foldl (fun n r => n + r.pool.length) 0
  let waiting := (d.tmv.reqs.filter (fun r => r.run.isNone)).length
  let w := setFld (setFld 0 7 0 (bits (d.engineRuns.map (·.reader)))) 15 8 (bits (d.engineRuns.filterMap (·.writer)))
  setFld (setFld w 25 16 (618 - held)) 38 32 (min waiting 64)

end Sys2Proof.Machine
end

