-- ==== Sys2Proof/Machine/Tfb.lean ====
section
/-! DEFINITION. The look-back rings: layout (R181–R184), bands and directories (R185–R191), translation (R192, R193), the
horizon and claims (R201–R204), and the reference table (R215–R217). -/

namespace Sys2Proof.Machine

/-- Head h of the look-back. -/
def Dev.lb (d : Dev) (h : Nat) : TfbHead := tget d.tfb.heads {} h

/-- Head h of the look-back replaced. -/
def Dev.setLb (d : Dev) (h : Nat) (x : TfbHead) : Dev := { d with tfb := { d.tfb with heads := tset d.tfb.heads h x } }

/-- Band slots NB of head h. -/
def Dev.nb (d : Dev) (h : Nat) : Nat := (d.rd .tfbLbhNb h).toNat

/-- Image tiles per band of head h. -/
def Dev.tpb (d : Dev) (h : Nat) : Nat := d.rdF .tfbLbhTpb h 6 0

/-- Raw tiles per band of head h. -/
def Dev.tpbr (d : Dev) (h : Nat) : Nat := d.rdF .tfbLbhTpb h 14 8

/-- Head h has a ring. -/
def Dev.hasRing (d : Dev) (h : Nat) : Bool := d.rdB .tfbLbhStat h 0

/-- HZN_SEQ of head h. -/
def Dev.hznSeq (d : Dev) (h : Nat) : Nat := (d.rd .tfbLbhHznSeq h).toNat

/-- HZN_POS of head h. -/
def Dev.hznPos (d : Dev) (h : Nat) : P48 := d.rd .tfbLbhHznPos h

/-- NEW_SEQ of head h. -/
def Dev.newSeq (d : Dev) (h : Nat) : Nat := (d.rd .tfbLbhNewSeq h).toNat

/-- NEW_END of head h. -/
def Dev.newEnd (d : Dev) (h : Nat) : P48 := d.rd .tfbLbhNewEnd h

/-- Head h writes lines: enabled, or a plane of an enabled head. -/
def Dev.lbEnabled (d : Dev) (h : Nat) : Bool := d.headEn h || d.headState h = .plane

/-- TRIG_GEN of head h. -/
def Dev.headGen (d : Dev) (h : Nat) : Nat := d.rdF .cxiHdhCfg (d.masterOf h) 27 22

/-- The axis that head h's generator is bound to. -/
def Dev.headAxis (d : Dev) (h : Nat) : Nat := d.genAxis (d.headGen h)

/-- PITCH of head h's generator. -/
def Dev.headPitch (d : Dev) (h : Nat) : Word := d.rd .sprTgnPitch (d.headGen h)

/-- A line number as extraction counts it: line numbers are signed (R24), and this keeps their order and differences. -/
def lineNo (k : Word) : Nat := (k ^^^ 0x800000000000#48).toNat

/-- The line number at a material position of head h. -/
def Dev.lineAt (d : Dev) (h : Nat) (pos : P48) : Nat :=
  lineNo (wordOfInt (gridIndex (d.rd .sprTgnPhase (d.headGen h)) (d.headPitch h) pos))

/-! ### The directory (R189–R191) -/

/-- Tile number of directory tile i of head h. -/
def Dev.dirTile (d : Dev) (h i : Nat) : Nat := (d.rd .tfbLbhDirBase h).toNat + i

/-- Tile number of the image tile of band S, column block c (R191). -/
def Dev.imgTile (d : Dev) (h s c : Nat) : Nat := (d.lb h).imgBase + (s % d.nb h) * d.tpb h + c

/-- Tile number of the raw tile of band S, column block c (R191). -/
def Dev.rawTile (d : Dev) (h s c : Nat) : Nat := (d.lb h).rawBase + (s % d.nb h) * d.tpbr h + c

/-- The two words of the directory entry of band S, from the buffer or from HBM, unchecked. -/
def Dev.dirEntry (d : Dev) (h s : Nat) : Word × Word :=
  let slot := s % d.nb h
  let x := d.lb h
  if x.dirIndex = some (slot / 256) then
    (tget x.dirWords 0 (2 * (slot % 256)), tget x.dirWords 0 (2 * (slot % 256) + 1))
  else
    let t := d.tile (d.placeOf (d.dirTile h (slot / 256)))
    (t.word (2 * (slot % 256)), t.word (2 * (slot % 256) + 1))

/-- FIRST_POS of band S. (Log entry 64 DEDUCED.) -/
def Dev.bandFirst (d : Dev) (h s : Nat) : P48 := (d.dirEntry h s).1

/-- A directory tile read for use, checked by R198 unless it is the buffered one; the tiles read so far are not read again.
The answer is the outcome of the checks. (Log entry 64 DEDUCED.) -/
def Dev.readDir (d : Dev) (cls h i : Nat) (seen : List Nat) (behind accept : Bool) : Nat × List Nat × Dev :=
  if (d.lb h).dirIndex = some i || seen.contains i then (0, seen, d)
  else
    let r := d.useTile 2 cls (d.dirTile h i) (i % 65536) none behind accept
    (r.1, i :: seen, r.2.2)

/-- The directory entry of band S read for use (R190, R198): the outcome of the checks of its directory tile, and its two words, zero
after an UNCORRECTABLE read or a mismatch (R200). (Log entry 181 DEDUCED.) -/
def Dev.entryFor (d : Dev) (cls h s : Nat) (accept : Bool) : Nat × (Word × Word) × Dev :=
  let r := d.readDir cls h ((s % d.nb h) / 256) [] (decide (s < d.hznSeq h)) accept
  (r.1, if r.1 = 0 || r.1 = 0x18 then r.2.2.dirEntry h s else (0, 0), r.2.2)

/-- The live writer of head h: one for each Chamois half (R439). -/
def liveWriter (h : Nat) : Nat := if h < 32 then 0 else 1

/-- A tile built and written by live writer r of TFB, charged to LIVE (R439). -/
def Dev.putTagged (d : Dev) (r q : Nat) (ws : List Word) (pchk gen flags : Nat) : Dev :=
  (d.writeTile r 1 (d.placeOf q) ws (velvetTag ws pchk gen flags)).2

/-- The open directory tile is written back as a whole tile (R190, R196). -/
def Dev.writeDir (d : Dev) (h : Nat) : Dev :=
  let x := d.lb h
  match x.dirIndex with
  | some i =>
    let ws := (List.range 512).map (fun j => tget x.dirWords 0 j)
    (d.putTagged (liveWriter h) (d.dirTile h i) ws i x.dirGen 0).setLb h { x with dirty := false }
  | none => d

/-- The buffer of head h enters directory tile i for band S: loaded from HBM once the ring has gone round (R190).
(Log entry 65 DEDUCED.) -/
def Dev.enterDir (d : Dev) (h i s : Nat) : Dev :=
  let x := d.lb h
  if x.dirIndex = some i then d
  else if s < d.nb h then d.setLb h { x with dirIndex := some i, dirWords := [] }
  else
    let t := d.readTile 2 1 (d.placeOf (d.dirTile h i)) 4 true
    t.2.2.setLb h { x with dirIndex := some i, dirWords := t.2.1.words }

/-- The directory entry of a band is written (R187, R189, R190): the buffer enters the entry's tile first, and is written
back when its last entry is filled, or with the last band before the head left RUN. -/
def Dev.putEntry (d : Dev) (h : Nat) (b : BandDone) : Dev :=
  let slot := b.s % d.nb h
  let d := d.enterDir h (slot / 256) b.s
  let x := d.lb h
  let x := { x with dirWords := tset (tset x.dirWords (2 * (slot % 256)) b.w0) (2 * (slot % 256) + 1) b.w1,
                    dirGen := b.s / max 1 (d.nb h), dirty := true }
  let d := d.setLb h x
  if slot % 256 = 255 || b.leaves then d.writeDir h else d

/-! ### Claims and the horizon (R201–R204) -/

/-- x is behind y at 40 bits (R25, R203). -/
def seqBehind (x y : Nat) : Bool := !atOrPastN 40 (BitVec.ofNat 40 x) (BitVec.ofNat 40 y)

/-- A loss under a claim is marked on head h: HZN_HIT and the horizon event (R202). -/
def Dev.markHit (d : Dev) (h : Nat) : Dev := (d.wrB .tfbLbhStat h 2 true).raise (582 + h)

/-- The active claims of TFB_CLMk whose bands the horizon of head h has just passed, from band `old` on, are marked LOST:
whether there were any (R202). -/
def Dev.loseClaims (d : Dev) (h old : Nat) : Bool × Dev :=
  forUpTo 128 (fun k (r : Bool × Dev) =>
    let w := r.2.rd .tfbClmk k
    if bit w 47 && fld w 45 40 = h && !seqBehind (fld w 39 0) old && seqBehind (fld w 39 0) (r.2.hznSeq h) then
      (true, (r.2.wr .tfbClmk k (setBit w 46 true)).wr .tfbClmkHzn k (r.2.hznPos h))
    else r) (false, d)

/-- FIRST_POS of band S of head h, complete, waiting for its entry, or open. -/
def Dev.bandStart (d : Dev) (h s : Nat) : P48 :=
  match (d.lb h).done.find? (fun b => b.s = s) with
  | some b => b.w0
  | none =>
    match (d.lb h).cur with
    | some b => if b.s = s then (b.lines.head?.map (·.pos)).getD 0 else d.bandFirst h s
    | none => d.bandFirst h s

/-- The horizon of head h moves to band S at a position: the claims it passes are lost, and the open band is marked.
(Log entry 62 DEDUCED.) -/
def Dev.moveHorizon (d : Dev) (h s : Nat) (pos : P48) : Dev :=
  let old := d.hznSeq h
  let d := (d.wr .tfbLbhHznSeq h (wordOf s)).wr .tfbLbhHznPos h pos
  let r := d.loseClaims h old
  let d := r.2
  let passed (c : InnerClaim) : Bool := c.head = h && c.lost.isNone && decide (c.s < s)
  let any := r.1 || d.tfb.inner.any passed
  let d := { d with tfb := { d.tfb with inner := d.tfb.inner.map (fun c =>
    if passed c then { c with lost := some pos, first := d.bandStart h c.s } else c) } }
  if any then
    (d.setLb h { d.lb h with cur := (d.lb h).cur.map (fun b => { b with horizon := true }) }).markHit h
  else d

/-- A write of TFB_CLMk (R202, R203): LOST clears on 1; a claim set on a band behind the horizon, newly active, moved or no
longer marked, is LOST at once. (Log entry 184 DEDUCED.) -/
def claimWriteOp (k : Nat) (v : Word) (d : Dev) : Dev :=
  let old := d.rd .tfbClmk k
  let w := setBit v 46 (bit old 46 && !bit v 46)
  let h := fld v 45 40
  let d := d.wr .tfbClmk k w
  let set := !bit w 46 || !bit old 47 || decide (fld old 39 0 ≠ fld v 39 0) || decide (fld old 45 40 ≠ h)
  if bit v 47 && set && d.hasRing h && seqBehind (fld v 39 0) (d.hznSeq h) then
    let d := (d.wr .tfbClmk k (setBit w 46 true)).wr .tfbClmkHzn k (d.hznPos h)
    let d := match (d.lb h).cur with
      | some b =>
        if b.s % d.nb h = fld v 39 0 % d.nb h then d.setLb h { d.lb h with cur := some { b with horizon := true } } else d
      | none => d
    d.markHit h
  else d

/-! ### Bands (R185–R188) -/

/-- Head h holds a complete band: its held range HZN_SEQ to NEW_SEQ is not empty (R201). -/
def Dev.holds (d : Dev) (h : Nat) : Bool := (d.lb h).held && decide (d.hznSeq h ≤ d.newSeq h)

/-- Complete bands held. -/
def Dev.refreshHeld (d : Dev) (h : Nat) : Dev :=
  let n := if d.holds h then d.newSeq h + 1 - d.hznSeq h else 0
  d.wr .tfbLbhHeld h (wordOf n)

/-- A band opens with its first line (R186, R188, R201): FIRST_POS of the band at the new horizon is read from the directory, for
LIVE; where that tile fails its checks it is a free value. (Log entries 62 DEDUCED, 64 DEDUCED.) -/
def Dev.openBand (d : Dev) (h : Nat) (l : BandLine) : Dev :=
  let x := d.lb h
  let s := x.nextS
  let epoch := match x.lastPos with | some p => !strictlyPast l.pos p | none => false
  let d := d.setLb h { x with cur := some { s := s, b := l.line.toNat / 8, epoch := epoch }, nextS := s + 1,
                              epochs := if epoch then x.epochs ++ [s] else x.epochs }
  let d := d.wrB .tfbLbhStat h 1 true
  if !d.hasRing h then d
  else
    let d := if epoch then ((d.moveHorizon h s l.pos).wrB .tfbLbhStat h 3 true).raise (582 + h)
      else if s = 0 then d.moveHorizon h s l.pos
      else if d.nb h ≤ s && d.hznSeq h < s - d.nb h + 1 then
        let e := d.entryFor 1 h (s - d.nb h + 1) true
        let f := if e.1 = 0 || e.1 = 0x18 then (e.2.1.1, e.2.2) else (wordOf e.2.2.free.1, e.2.2.free.2)
        f.2.moveHorizon h (s - d.nb h + 1) f.1
      else d
    d.refreshHeld h

/-- The words of a tile of one plane of a band (R177): eight line slots of 256 pixels. -/
def tileWords (px : Nat → List Nat) (c : Nat) : List Word :=
  (List.range 8).flatMap (fun l =>
    let a := ((px l).drop (256 * c)).take 256
    (List.range 64).map (fun j =>
      wordOf ((a.getD (4 * j) 0) + (a.getD (4 * j + 1) 0) * 2 ^ 12 + (a.getD (4 * j + 2) 0) * 2 ^ 24 +
        (a.getD (4 * j + 3) 0) * 2 ^ 36)))

/-- The line in slot l of a band. -/
def Band.slot (b : Band) (l : Nat) : Option BandLine := b.lines.find? (fun x => x.line.toNat % 8 = l)

/-- Flags that hold for every tile of a band: STRADDLE, UNESTIMATED, HORIZON, and PARTIAL for an empty slot (R197). -/
def Band.flags (b : Band) : Nat :=
  (if b.lines.any (·.straddle) then flagStraddle else 0) + (if b.lines.any (·.unest) then flagUnestimated else 0) +
    (if b.lines.length < 8 then flagPartial else 0) + (if b.horizon then flagHorizon else 0)

/-- Flags of the image tile of column block c. -/
def Band.imgFlags (b : Band) (c : Nat) : Nat :=
  (b.flags ||| flagCorrected) ||| (if b.lines.any (fun l => l.poison.contains c) then flagPoison else 0) |||
    (if b.lines.any (fun l => l.short.contains c) then flagPartial else 0)

/-- Flags of the raw tile of column block c. -/
def Band.rawFlags (b : Band) (c : Nat) : Nat :=
  b.flags ||| (if b.lines.any (fun l => l.rawPoison.contains c) then flagPoison else 0) |||
    (if b.lines.any (fun l => l.rawShort.contains c) then flagPartial else 0)

/-- The band's first line present. -/
def Band.firstPos (b : Band) : P48 := (b.lines.head?.map (·.pos)).getD 0

/-- The open band of head h closes (R185): its image tiles and then its raw tiles are written, and its directory entry
waits for BAND_COMPLETE. The answer is the band. -/
def Dev.closeBand (d : Dev) (h : Nat) : Option Band × Dev :=
  let x := d.lb h
  match x.cur with
  | none => (none, d)
  | some b =>
    let lastPos := (b.lines.getLast?.map (·.pos)).getD 0
    let d := (d.setLb h { x with cur := none, lastPos := some lastPos, lastLine := none }).wrB .tfbLbhStat h 1 false
    if !d.hasRing h then (some b, d)
    else
      let lap := b.s / d.nb h
      let px (l : Nat) := ((b.slot l).map (·.px)).getD []
      let raw (l : Nat) := ((b.slot l).map (·.raw)).getD []
      let d := forUpTo (d.tpb h) (fun c d =>
        d.putTagged (liveWriter h) (d.imgTile h b.s c) (tileWords px c) (posPchk b.firstPos c) lap (b.imgFlags c)) d
      let d := forUpTo (d.tpbr h) (fun c d =>
        d.putTagged (liveWriter h) (d.rawTile h b.s c) (tileWords raw c) (posPchk b.firstPos c) lap (b.rawFlags c)) d
      let all := ((List.range (d.tpb h)).map b.imgFlags ++ (List.range (d.tpbr h)).map b.rawFlags).foldl (· ||| ·) 0
      let slotOf (l : Option BandLine) : Nat := (l.map (fun y => y.line.toNat % 8)).getD 0
      let w1 := setBit 0 47 true
      let w1 := setFld (setFld w1 46 44 (slotOf b.lines.head?)) 43 41 (slotOf b.lines.getLast?)
      let w1 := setFld (setFld (setFld w1 39 32 (all % 128)) 31 24 lap) 23 0 b.b
      let e : BandDone := { s := b.s, w0 := b.firstPos, w1 := w1, lastPos := lastPos,
                            raw := if d.tpbr h = 0 then [] else b.lines.map (·.line) }
      let y := d.lb h
      let fires := tset (y.fires.filter (fun f => decide (d.hznSeq h ≤ f.1))) b.s (b.lines.map (fun l => (l.line.toNat % 8, l.fire)))
      (some b, d.setLb h { y with done := y.done ++ [e], fires := fires,
                                  epochs := y.epochs.filter (fun n => decide (d.hznSeq h ≤ n)) })

/-- BAND_COMPLETE (R187): the oldest written band of head h becomes findable. -/
def Dev.completeBand (d : Dev) (h : Nat) : Dev :=
  let x := d.lb h
  match x.done with
  | [] => d
  | b :: rest =>
    let d := (d.setLb h { x with done := rest, held := true }).putEntry h b
    ((d.wr .tfbLbhNewSeq h (wordOf b.s)).wr .tfbLbhNewEnd h b.lastPos).refreshHeld h

/-- The device horizon of axis a (R204). -/
def Dev.axisHorizon (d : Dev) (a : Nat) : P48 :=
  let l := (List.range 64).filter (fun h => d.holds h && d.headAxis h = a)
  match l with
  | [] => 0
  | h :: hs => hs.foldl (fun p k => laterOf (d.hznPos k) p) (d.hznPos h)

/-! ### Translation (R192, R193) -/

/-- Where a position lies among the held bands of a head. -/
inductive Held where
  | behind
  | at (s : Nat)
  | past
  deriving DecidableEq, Repr

/-- The greatest S in lo..hi whose FIRST_POS is at or before a position, by halving; lo qualifies (R192, R193). -/
def Dev.searchBand (d : Dev) (cls h : Nat) (pos : P48) : Nat → Nat → Nat → List Nat → Nat × Nat × Dev
  | 0, lo, _, _ => (0, lo, d)
  | n + 1, lo, hi, seen =>
    if hi ≤ lo then (0, lo, d)
    else
      let mid := (lo + hi + 1) / 2
      let r := d.readDir cls h ((mid % d.nb h) / 256) seen false false
      if r.1 ≠ 0 then (r.1, lo, r.2.2)
      else if atOrPast pos (r.2.2.bandFirst h mid) then r.2.2.searchBand cls h pos n mid hi r.2.1
      else r.2.2.searchBand cls h pos n lo (mid - 1) r.2.1

/-- The band that holds a position of head h (R192): an outcome of R198 met on the way, and where the position lies. -/
def Dev.translate (d : Dev) (cls h : Nat) (pos : P48) : Nat × Held × Dev :=
  let x := d.lb h
  if x.nextS = 0 then (0, .past, d)
  else if !atOrPast pos (d.hznPos h) then (0, .behind, d)
  else if !d.holds h then (0, .past, d)
  else if strictlyPast pos (d.newEnd h) then (0, .past, d)
  else
    let r := d.searchBand cls h pos 48 (d.hznSeq h) (d.newSeq h) []
    (r.1, .at r.2.1, r.2.2)

/-! ### The reference table (R215) -/

/-- Word j of reference entry r. -/
def Dev.refWord (d : Dev) (r j : Nat) : Word := (d.tile (d.placeOf (r / 128))).word (4 * (r % 128) + j)

/-- The table tile of reference r read for use under a class (R196, R198): the outcome of its checks.
(Log entry 181 DEDUCED.) -/
def Dev.checkRef (d : Dev) (cls r : Nat) : Nat × Dev :=
  let t := d.useTile 2 cls (r / 128) ((r / 128) ^^^ 0x8000) none false false
  (t.1, t.2.2)

/-- STATE of reference r: 0 FREE, 1 LOADING, 2 VALID. -/
def Dev.refState (d : Dev) (r : Nat) : Nat := fld (d.refWord r 0) 47 46

/-- TPB of reference r. -/
def Dev.refTpb (d : Dev) (r : Nat) : Nat := fld (d.refWord r 1) 39 32

/-- NBANDS of reference r. -/
def Dev.refBands (d : Dev) (r : Nat) : Nat := fld (d.refWord r 1) 31 0

/-- Tile number of band i, column block c of reference r. -/
def Dev.refTile (d : Dev) (r i c : Nat) : Nat := fld (d.refWord r 0) 31 0 + i * d.refTpb r + c

/-- A table tile with a reference entry replaced is written; a change of STATE raises REF_STATE. -/
def Dev.putRef (d : Dev) (r : Nat) (ws : List Word) : Dev :=
  let q := r / 128
  let old := (d.tile (d.placeOf q)).allWords
  let b := 4 * (r % 128)
  let new := old.take b ++ ws ++ old.drop (b + 4)
  let changed := fld (ws.getD 0 0) 47 46 ≠ d.refState r
  let d := d.putTagged 0 q new (q ^^^ 0x8000) 0 0
  if changed then d.raise 649 else d

/-- The words of the reference table as the layout in force places them. (Log entry 176 DEDUCED.) -/
def Dev.refTable (d : Dev) : List (List Word) := (List.range 32).map (fun q => (d.tile (d.placeOf q)).allWords)

/-- The reference table of the layout before, with every entry FREE, in the layout in force (R183): REF_STATE where an entry
changed STATE. (Log entry 176 DEDUCED.) -/
def Dev.freeRefs (d : Dev) (table : List (List Word)) : Dev :=
  let first (ws : List Word) : List Word := (List.range 128).map (fun i => ws.getD (4 * i) 0)
  let any := table.any (fun ws => (first ws).any (fun w => fld w 47 46 ≠ 0))
  let d := ((List.range 32).zip table).foldl (fun d e =>
    let new := ((List.range 512).zip e.2).map (fun w => if w.1 % 4 = 0 then setFld w.2 47 46 0 else w.2)
    d.putTagged 0 e.1 new (e.1 ^^^ 0x8000) 0 0) d
  let d := { d with tfb := { d.tfb with refTiles := [] } }
  if any then d.raise 649 else d

/-! ### Layout (R181–R184) -/

/-- The stacks in use: all but the fenced ones (R180). -/
def Dev.stacksInUse (d : Dev) : List Nat := (List.range 4).filter (fun s => d.rdF .hbcSsStat s 2 0 ≠ 5)

/-- TPBR of head h as its settings stand (R178). -/
def Dev.rawTiles (d : Dev) (h : Nat) : Nat := if d.rdB .tfbLbhCfg h 16 then (d.camWidth h + 255) / 256 else 0

/-- OUT_W of head h as its register stands. -/
def Dev.outWidth (d : Dev) (h : Nat) : Nat := d.rdF .chmHdhOut h 38 24

/-- A ring's tiles for each 256 bands (R182). -/
def Dev.ringUnit (d : Dev) (h : Nat) : Nat := 256 * ((d.outWidth h + 255) / 256 + d.rawTiles h) + 1

/-- The last line of the last band formed for head h, complete or not, the open one among them (R188, R280). -/
def Dev.formedEnd (d : Dev) (h : Nat) : Option P48 :=
  match (d.lb h).cur with
  | some b => (b.lines.getLast?.map (·.pos)) <|> (d.lb h).lastPos
  | none => (d.lb h).lastPos

/-- The ring of k directory tiles of head h is laid from tile q (R182, R184, R242). -/
def Dev.placeRing (d : Dev) (h k q : Nat) : Dev :=
  let tpb := (d.outWidth h + 255) / 256
  let nb := 256 * k
  let d := (d.wr .tfbLbhDirBase h (wordOf q)).wr .tfbLbhNb h (wordOf nb)
  let d := d.wr .tfbLbhTpb h (setFld (setFld 0 6 0 tpb) 14 8 (d.rawTiles h))
  let d := d.setLb h { imgBase := q + k, rawBase := q + k + nb * tpb, outW := d.outWidth h, lastPos := d.formedEnd h,
                        exit := (d.lb h).exit }
  let d := [Reg.tfbLbhHznSeq, .tfbLbhHznPos, .tfbLbhNewSeq, .tfbLbhNewEnd, .tfbLbhHeld].foldl (fun d r => d.wr r h 0) d
  (d.wrB .tfbLbhStat h 0 (k ≠ 0)).wrB .tfbLbhStat h 1 false

/-- The sum of weighted units over the enabled heads (R182). -/
def Dev.layoutDen (d : Dev) : Nat :=
  ((List.range 64).filter d.lbEnabled).foldl (fun n h => n + d.rdF .tfbLbhCfg h 15 0 * d.ringUnit h) 0

/-- The share k that a full layout gives head h of the tiles above the library. -/
def Dev.layoutShare (d : Dev) (h avail : Nat) : Nat :=
  if d.layoutDen = 0 then 0 else avail * d.rdF .tfbLbhCfg h 15 0 / d.layoutDen

/-- Tile Q is a directory tile of a ring. -/
def Dev.isDirTile (d : Dev) (q : Nat) : Bool :=
  (List.range 64).any (fun h =>
    decide ((d.rd .tfbLbhDirBase h).toNat ≤ q) && decide (q < (d.rd .tfbLbhDirBase h).toNat + d.nb h / 256))

/-- The directory tiles of the new rings hold no entry: VALID is 0 in each (R189). (Log entry 12 DESIGN CHOICE.) -/
def Dev.blankDirs (d : Dev) : Dev := { d with hbm := d.hbm.filter (fun e => !d.isDirTile (d.tileNumber e.1)) }

/-- The rings of a full layout (R182), with the stacks in use, the library kept or invalid, and LB_LAYOUT.
(Log entry 63 DEDUCED.) -/
def Dev.layoutRings (d : Dev) : Dev :=
  let inUse := d.stacksInUse
  let mask := inUse.foldl (fun n s => n + 2 ^ s) 0
  let ref := 4096 * d.rdF .tfbLbCtl 0 15 0
  let keep := d.tfb.laidOut && d.rdF .tfbLbStat 0 7 4 = mask && (d.rd .tfbLbRefTiles).toNat = ref
  let table := d.refTable
  let d := (d.wrF .tfbLbStat 0 7 4 mask).wr .tfbLbRefTiles 0 (wordOf ref)
  let d := if keep then d else d.freeRefs table
  let total := 12582912 * inUse.length
  let avail := total - ref
  let r := ((List.range 64).foldl (fun (r : Dev × Nat) h =>
    if d.lbEnabled h then
      let k := d.layoutShare h avail
      (r.1.placeRing h k r.2, r.2 + k * d.ringUnit h)
    else (r.1.placeRing h 0 0, r.2)) (d, ref))
  let d := ((r.1.wr .tfbLbPool 0 (wordOf avail)).wr .tfbLbUnused 0 (wordOf (total - r.2)))
  let d := { d with tfb := { d.tfb with laidOut := true, layoutDue := false } }.blankDirs
  ((d.wrapF .tfbLbStat 0 15 8 1).wrB .tfbLbStat 0 0 true).raise 646

/-- A ring for a head enabled while a layout stands (R184), at the lowest unused tile number. -/
def Dev.lateRing (d : Dev) (h : Nat) : Dev :=
  if d.rdB .tfbLbStat 0 0 && !d.hasRing h then
    let unused := (d.rd .tfbLbUnused).toNat
    let avail := 12582912 * d.stacksInUse.length - 4096 * d.rdF .tfbLbCtl 0 15 0
    let k := min (unused / d.ringUnit h) (d.layoutShare h avail)
    let q := 12582912 * d.layoutStacks.length - unused
    (d.placeRing h k q).wr .tfbLbUnused 0 (wordOf (unused - k * d.ringUnit h))
  else d

end Sys2Proof.Machine
end

