-- ==== Sys2Proof/Machine/Cex.lean ====
section
/-! DEFINITION. Candidate extraction (R252–R281): the lateral map, the background, members, pieces and their release, edge
records between devices, the queues, and catch-up. Live work, retro jobs and catch-up share one algorithm (R253). -/

namespace Sys2Proof.Machine

/-! ### Settings by fire time (R242, R248, R265, R284) -/

/-- Register r, index i, as it was in force for a line fired at t: what the first commit after t replaced, or the value now.
(Log entry 79 DEDUCED.) -/
def Dev.rdAt (d : Dev) (r : Reg) (i : Nat) (t : Word) : Word :=
  match d.regHist.find? (fun e => e.1 = regKey r i && strictlyPast e.2.1 t) with
  | some e => e.2.2
  | none => d.rd r i

/-- A commit's wave at instant t replaces register r, index i: lines fired before it keep the old value.
(Log entry 79 DEDUCED.) -/
def Dev.wrAt (d : Dev) (r : Reg) (i : Nat) (t : Word) (v : Word) : Dev :=
  ({ d with regHist := d.regHist ++ [(regKey r i, t, d.rd r i)] }).wr r i v

/-- Word address of the herd lateral map in extraction memory (R275). -/
def mapBase : Nat := 0x965800

/-- The words of the lateral map in force. -/
def Dev.mapWords (d : Dev) : List Word := (List.range d.cex.mapLen).map (fun i => (d.cell (mapBase + i)).data)

/-- The map's words read for use (R421, R423): whether one of them is uncorrectable or poison, and the block after corrections
and reports. (Log entry 205 DEDUCED.) -/
def Dev.scanMap (d : Dev) : Bool × Dev :=
  forUpTo d.cex.mapLen (fun i (r : Bool × Dev) =>
    let x := r.2.sramRead (mapBase + i)
    (r.1 || x.1.status ≠ 0, x.2)) (false, d)

/-- The lateral map for a line fired at t (R265). -/
def Dev.mapAt (d : Dev) (t : Word) : List Word :=
  match d.cex.mapHist.find? (fun e => strictlyPast e.1 t) with
  | some e => e.2
  | none => d.mapWords

/-- A map entry names a head of a device (R263). -/
def mapNamed (w : Word) : Bool := !(fld w 47 38 = 0x3FF && fld w 37 32 = 0x3F)

/-- Ranges of the map: entry, first and last coordinate owned. -/
def mapRanges : List Word → List (Word × Nat × Nat)
  | [] => []
  | [w] => [(w, fld w 23 0, 0xFFFFFF)]
  | w :: v :: ws => (w, fld w 23 0, fld v 23 0 - 1) :: mapRanges (v :: ws)

/-- The entry that owns a coordinate. -/
def mapOwner (m : List Word) (x : Nat) : Option Word :=
  ((mapRanges m).find? (fun r => decide (r.2.1 ≤ x) && decide (x ≤ r.2.2))).map (·.1)

/-- The boundary between coordinates x and x + 1 is mergeable (R264). -/
def mapMerges (m : List Word) (x : Nat) : Bool :=
  match mapOwner m x, mapOwner m (x + 1) with
  | some a, some b =>
    a ≠ b && mapNamed a && mapNamed b && fld a 31 24 ≠ 0 && fld a 31 24 = fld b 31 24
  | _, _ => false

/-- The device of an entry. -/
def mapDev (w : Word) : Nat := fld w 47 38

/-- The ranges a head of this device owns (R252). -/
def Dev.ownRanges (d : Dev) (m : List Word) (h : Nat) : List (Nat × Nat) :=
  ((mapRanges m).filter (fun r => mapDev r.1 = d.devNum && fld r.1 37 32 = h && mapNamed r.1)).map (·.2)

/-! ### Background and members (R255–R258) -/

/-- One parameter word of a set for a head: live words by fire time, words of a retro job as copied. -/
def Dev.liveParam (d : Dev) (h j : Nat) (t : Word) : Word :=
  d.rdAt (match j with | 0 => .cexPsHdh0 | 1 => .cexPsHdh1 | 2 => .cexPsHdh2 | _ => .cexPsHdh3) h t

/-- The parameters of one line: words 0–3. -/
structure Params where
  w0 : Word
  w1 : Word
  w2 : Word
  w3 : Word
  deriving DecidableEq, Repr

/-- The live parameters of head h for a line fired at t. -/
def Dev.liveParams (d : Dev) (h : Nat) (t : Word) : Params :=
  { w0 := d.liveParam h 0 t, w1 := d.liveParam h 1 t, w2 := d.liveParam h 2 t, w3 := d.liveParam h 3 t }

/-- A parameter set's validity for a head (R254), but for the reference's state. -/
def paramsValid (p : Params) (refValid : Nat → Bool) : Bool :=
  let tb := fld p.w1 35 24
  let tbl := fld p.w1 47 36
  let td := fld p.w1 11 0
  let tdl := fld p.w1 23 12
  decide (fld p.w0 15 12 ≤ 15) && fld p.w0 27 16 ≠ 0 && (td = 0 || (decide (tdl ≤ td) && tdl ≠ 0)) &&
    (tb = 0 || (decide (tbl ≤ tb) && tbl ≠ 0)) && fld p.w2 47 32 ≠ 0 && (!bit p.w0 28 || refValid (fld p.w0 40 29))

/-- What one pixel gives: its background, and its class: none, or bright or dark with the deviation's size and seed. -/
structure PixClass where
  bright : Bool
  seed : Bool
  e : Nat
  deriving DecidableEq, Repr

/-- R258. -/
def classify (w1 : Word) (e : Int) : Option PixClass :=
  let td := fld w1 11 0
  let tdl := fld w1 23 12
  let tb := fld w1 35 24
  let tbl := fld w1 47 36
  if td ≠ 0 && e ≤ -(tdl : Int) then some { bright := false, seed := decide (e ≤ -(td : Int)), e := e.natAbs }
  else if tb ≠ 0 && (tbl : Int) ≤ e then some { bright := true, seed := decide ((tb : Int) ≤ e), e := e.natAbs }
  else none

/-- One step of B (R255). -/
def bgStep (w0 : Word) (b : Int) (y : Nat) : Int :=
  let g : Int := 256 * fld w0 27 16
  let t := clampInt (256 * y) (b - g) (b + g)
  b + (t - b).fdiv (2 ^ fld w0 15 12)

/-- Estimator mode for one line: the class of each own column with data, and B after the line. -/
def bgLine (p : Params) (warm : Bool) (cols : List (Nat × Nat)) (bg : Table Int) : List (Nat × Option PixClass) × Table Int :=
  let ref : Int := fld p.w0 11 0
  let b0 : Int := 256 * ref
  let aligned := decide (bg.map (·.1) = cols.map (·.1))
  let old := if aligned then bg else cols.map (fun c => (c.1, tget bg b0 c.1))
  let step (c : (Nat × Nat) × (Nat × Int)) : (Nat × Option PixClass) × (Nat × Int) :=
    let y := c.1.2
    let b := c.2.2
    if y = 0 then ((c.1.1, none), (c.1.1, b))
    else
      let base := if warm then ref else (b + 128).fdiv 256
      ((c.1.1, classify p.w1 ((y : Int) - base)), (c.1.1, bgStep p.w0 b y))
  let r := (cols.zip old).map step
  (r.map (·.1), r.map (·.2))

/-- Runs of members in one tile's columns of one line: neighbouring columns of one polarity. -/
def runsOf (mk : Nat → PixClass → Run) : List (Nat × Option PixClass) → List Run
  | [] => []
  | (_, none) :: cs => runsOf mk cs
  | (x, some c) :: cs =>
    match runsOf mk cs with
    | r :: rs =>
      if r.x0 = x + 1 && r.bright = c.bright then
        { r with x0 := x, seed := r.seed || c.seed, sumE := r.sumE + c.e, peak := max r.peak c.e } :: rs
      else mk x c :: r :: rs
    | [] => [mk x c]

/-! ### Pieces (R259–R261) -/

/-- Lines and columns of two runs are neighbours (R259), heads aside. -/
def runsTouch (a b : Run) : Bool :=
  decide (a.k ≤ b.k + 1) && decide (b.k ≤ a.k + 1) && decide (a.x0 ≤ b.x1 + 1) && decide (b.x0 ≤ a.x1 + 1)

/-- Two runs of one polarity belong together: within a head, or across a mergeable boundary (R259, R266). -/
def runsJoin (m : List Word) (a b : Run) : Bool :=
  a.bright = b.bright && runsTouch a b &&
    (a.head = b.head || (if a.x0 ≤ b.x0 then mapMerges m a.x1 else mapMerges m b.x1))

/-- The connected components of the runs of one tile. -/
def components (m : List Word) (rs : List Run) : List (List Run) :=
  rs.foldl (fun gs r =>
    let near := gs.filter (fun g => g.any (runsJoin m r))
    let far := gs.filter (fun g => !g.any (runsJoin m r))
    (r :: near.flatten) :: far) []

/-- First line number of a piece. -/
def Piece.k0 (p : Piece) : Nat :=
  (p.runs.map (·.k) ++ p.parts.map (·.k0)).foldl (fun n k => min n k) (((p.runs.map (·.k)) ++ p.parts.map (·.k0)).headD 0)

/-- Last line number of a piece. -/
def Piece.k1 (p : Piece) : Nat := (p.runs.map (·.k) ++ p.parts.map (·.k1)).foldl max 0

/-- First lateral coordinate of a piece. -/
def Piece.lo (p : Piece) : Nat :=
  (p.runs.map (·.x0) ++ p.parts.map (·.lo)).foldl (fun n k => min n k) (((p.runs.map (·.x0)) ++ p.parts.map (·.lo)).headD 0)

/-- Last lateral coordinate of a piece. -/
def Piece.hi (p : Piece) : Nat := (p.runs.map (·.x1) ++ p.parts.map (·.hi)).foldl max 0

/-- The left-most head a piece holds members on. -/
def Piece.leftHead (p : Piece) : Nat :=
  match p.runs.find? (fun r => r.x0 = p.lo) with
  | some r => r.head
  | none => ((p.parts.find? (fun q => q.lo = p.lo)).map (·.head)).getD 0

/-- The head here whose settings a piece follows: its left-most head, or where that is another device's the head that owns the
column to its left. (Log entry 185 DEDUCED.) -/
def Piece.localHead (p : Piece) : Nat :=
  match p.runs.find? (fun r => r.x0 = p.lo) with
  | some r => r.head
  | none => ((p.parts.find? (fun q => q.lo = p.lo)).map (·.near)).getD 0

/-- Members of a piece, not saturated. -/
def Piece.area (p : Piece) : Nat :=
  p.runs.foldl (fun n r => n + (r.x1 + 1 - r.x0)) 0 + p.parts.foldl (fun n q => n + q.area) 0

/-- Σ(k − k_first) over the members. -/
def Piece.sumK (p : Piece) : Nat :=
  p.runs.foldl (fun n r => n + (r.k - p.k0) * (r.x1 + 1 - r.x0)) 0 +
    p.parts.foldl (fun n q => n + (q.sumK + (q.k0 - p.k0) * q.area)) 0

/-- The sum of the numbers a..b. -/
def sumRange (a b : Nat) : Nat := (b * (b + 1) - a * (a - 1)) / 2

/-- Σ(x − LAT_LO) over the members. -/
def Piece.sumX (p : Piece) : Nat :=
  p.runs.foldl (fun n r => n + (sumRange r.x0 r.x1 - p.lo * (r.x1 + 1 - r.x0))) 0 +
    p.parts.foldl (fun n q => n + (q.sumX + (q.lo - p.lo) * q.area)) 0

/-- The largest |e| of any member. -/
def Piece.peak (p : Piece) : Nat := (p.runs.map (·.peak) ++ p.parts.map (·.peak)).foldl max 0

/-- Σ|e| over the members. -/
def Piece.contrast (p : Piece) : Nat :=
  p.runs.foldl (fun n r => n + r.sumE) 0 + p.parts.foldl (fun n q => n + q.contrast) 0

/-- Flag bits of a record (R274). -/
def recBright : Nat := 32
def recRetro : Nat := 64
def recEdge : Nat := 128
def recLong : Nat := 256
def recOverflow : Nat := 512
def recTrunc : Nat := 1024
def recSat : Nat := 2048
def recMerged : Nat := 4096

/-- FLAGS of a piece (R274). -/
def Piece.allFlags (p : Piece) : Nat :=
  p.runs.foldl (fun n r => n ||| r.flags) p.flags ||| (if p.bright then recBright else 0) |||
    (if p.job.isSome then recRetro else 0) ||| (if p.runs ≠ [] && p.parts ≠ [] then recMerged else 0) ||| (if 2 ^ 48 ≤ p.sumK || 2 ^ 48 ≤ p.sumX then recSat else 0)

/-- When the last line of a piece here was fired: the settings of that moment apply to the piece as a whole (R284); now for one that
holds received parts only. (Log entry 204 DEDUCED.) -/
def Dev.pieceFire (d : Dev) (p : Piece) : Word :=
  match p.runs with
  | [] => d.now
  | r :: more => (more.foldl (fun (a : Run) b => if a.k < b.k then b else a) r).fire

/-- Word i (1 or 2) of the parameters of a piece's left-most head in its set: as a job copied it, or as it was in force for the last
line of a live piece. (Log entry 204 DEDUCED.) -/
def Dev.pieceWord (d : Dev) (p : Piece) (i : Nat) : Word :=
  let h := p.localHead
  match p.job with
  | some j => tget (tget d.cex.jobs {} j).params (d.rd (if i = 1 then .cexPsHdh1 else .cexPsHdh2) (64 * p.set + h)) (4 * h + i)
  | none => d.liveParam h i (d.pieceFire p)

/-- MAX_LINES of a piece (R261). -/
def Dev.pieceMax (d : Dev) (p : Piece) : Nat := fld (d.pieceWord p 2) 47 32

/-- Two pieces as one. -/
def Piece.union (a b : Piece) : Piece :=
  { a with runs := a.runs ++ b.runs, parts := a.parts ++ b.parts, flags := a.flags ||| b.flags,
           closed := a.closed.filter (fun h => b.closed.contains h), readyAt := none }

/-- A piece that spans MAX_LINES is LONG (R261). -/
def Dev.markLong (d : Dev) (p : Piece) : Piece :=
  if d.pieceMax p ≤ p.k1 + 1 - p.k0 then { p with flags := p.flags ||| recLong } else p

/-- The pieces of the set, and piece p, joined with each open piece that a test relates to it, where the joined span stays
within MAX_LINES; elsewhere both are LONG (R261). -/
def Dev.joinPiece (d : Dev) (touch : Piece → Bool) (p : Piece) (l : List Piece) : List Piece :=
  let r := l.foldl (fun (acc : Piece × List Piece) q =>
    if touch q then
      let u := q.union acc.1
      if u.k1 + 1 - u.k0 ≤ d.pieceMax u then (u, acc.2)
      else ({ acc.1 with flags := acc.1.flags ||| recLong }, acc.2 ++ [{ q with flags := q.flags ||| recLong }])
    else (acc.1, acc.2 ++ [q])) (p, [])
  r.2 ++ [d.markLong r.1]

/-- A piece still takes runs of a head: the head's extraction has not ended it (R256). -/
def Piece.openOn (p : Piece) (h : Nat) : Bool := !p.closed.contains h

/-- Line k is a neighbour of a run of edge lines (R259). -/
def edgeNear (g : Nat × Nat) (k : Nat) : Bool := decide (g.1 ≤ k + 1) && decide (k ≤ g.1 + g.2)

/-- A run joins the open pieces of its set (R259, R266). -/
def Dev.addRun (d : Dev) (m : List Word) (job : Option Nat) (set tag : Nat) (r : Run) : Dev :=
  let n := d.cex.nextPiece
  let p : Piece := { num := n, job := job, set := set, tag := tag, bright := r.bright, runs := [r] }
  let touch (q : Piece) : Bool :=
    q.job = job && q.bright = r.bright && q.openOn r.head &&
      (q.runs.any (runsJoin m r) ||
        q.parts.any (fun e => e.lo = r.x1 + 1 && mapMerges m r.x1 &&
          e.edge.any (fun g => edgeNear g r.k)))
  { d with cex := { d.cex with pieces := d.joinPiece touch p d.cex.pieces, nextPiece := n + 1 } }

/-- The open pieces of live work or of retro jobs. -/
def Dev.openPieces (d : Dev) (retro : Bool) : Nat := (d.cex.pieces.filter (fun p => p.job.isSome = retro)).length

/-- CEX_PIECES follows the pieces. -/
def Dev.refreshPieces (d : Dev) : Dev :=
  let n := d.openPieces false
  let d := (d.wrF .cexPieces 0 15 0 n).wrF .cexPieces 0 45 32 (d.openPieces true)
  if d.rdF .cexPieces 0 31 16 < n then d.wrF .cexPieces 0 31 16 n else d

/-! ### Queues (R275–R278) -/

/-- Records in a queue: producer and consumer indices of 13 bits. -/
def Dev.cexCount (d : Dev) (retro : Bool) : Nat :=
  let p := d.rdF (if retro then .cexRqProd else .cexLqProd) 0 12 0
  let c := d.rdF (if retro then .cexRqCons else .cexLqCons) 0 12 0
  (p + 8192 - c) % 8192

/-- A queue is full: the indices differ only in the lap bit. -/
def Dev.cexFull (d : Dev) (retro : Bool) : Bool := d.cexCount retro = 4096

/-- A record written to a queue, its producer index advanced and the queue's event raised (R276). -/
def Dev.pushRecord (d : Dev) (retro : Bool) (ws : List Word) : Dev :=
  let r : Reg := if retro then .cexRqProd else .cexLqProd
  let p := d.rdF r 0 12 0
  let base := (if retro then 0x95D800 else 0x955800) + 8 * (p % 4096)
  ((d.sramWrites base ws).wrF r 0 12 0 (p + 1)).raise (if retro then 654 else 653)

/-- MODE of CEX_HDh_STAT: 0 OFF, 1 STREAM, 2 CATCHUP. -/
def Dev.cexMode (d : Dev) (h : Nat) : Nat := d.rdF .cexHdhStat h 1 0

/-- A head's extraction mode; CATCHUP of CEX_STAT and CEX_CATCHUP follow. -/
def Dev.setCexMode (d : Dev) (h m : Nat) : Dev :=
  let d := d.wrF .cexHdhStat h 1 0 m
  let any := (List.range 64).any (fun k => d.cexMode k = 2)
  (d.wrB .cexStat 0 1 any).setLevel 656 any

/-- A live record is released: written, or held behind a full queue with QFULL (R278). -/
def Dev.releaseLive (d : Dev) (ws : List Word) : Dev :=
  if d.cexFull false || d.cex.heldRecs ≠ [] then
    (({ d with cex := { d.cex with heldRecs := d.cex.heldRecs ++ [ws] } }).wrB .cexStat 0 0 true).setLevel 655 true
  else d.pushRecord false ws

/-- Word 0 of a record (R273), with the queue's next SERIAL. -/
def Dev.recordWord (d : Dev) (kind set serial : Nat) : Word :=
  setFld (setFld (setFld (setFld 0 47 46 kind) 45 42 set) 41 32 d.devNum) 31 0 serial

/-- A retro record is released: written, or held behind a full queue (R277). -/
def Dev.releaseRetro (d : Dev) (ws : List Word) : Dev :=
  if d.cexFull true || d.cex.heldRetro ≠ [] then { d with cex := { d.cex with heldRetro := d.cex.heldRetro ++ [ws] } }
  else d.pushRecord true ws

/-- Held retro records are written while the queue has room (R277); n at most. -/
def Dev.flushRetro : Nat → Dev → Dev
  | 0, d => d
  | n + 1, d =>
    match d.cex.heldRetro with
    | [] => d
    | r :: rest =>
      if d.cexFull true then d
      else Dev.flushRetro n (({ d with cex := { d.cex with heldRetro := rest } }).pushRecord true r)

/-- The retro array stalls: its queue is full, or a record waits for room in it (R277). -/
def Dev.retroStalls (d : Dev) : Bool := d.cexFull true || d.cex.heldRetro ≠ []

/-- A record with a serial number goes to its queue. -/
def Dev.putRecord (d : Dev) (kind set : Nat) (retro : Bool) (tail : List Word) : Dev :=
  if retro then
    let ws := d.recordWord kind set d.cex.retroSerial :: tail
    ({ d with cex := { d.cex with retroSerial := (d.cex.retroSerial + 1) % 2 ^ 32 } }).releaseRetro ws
  else
    let ws := d.recordWord kind set d.cex.liveSerial :: tail
    ({ d with cex := { d.cex with liveSerial := (d.cex.liveSerial + 1) % 2 ^ 32 } }).releaseLive ws

/-- Words 1–7 of a record (R273). -/
def recordTail (first last : P48) (lo hi flags area head axis tag : Nat) (cpos : P48) (clat peak : Nat) : List Word :=
  [first, last, setFld (setFld 0 47 24 hi) 23 0 lo, setFld (setFld 0 47 32 flags) 31 0 (min area (2 ^ 32 - 1)),
   setFld (setFld (setFld 0 47 42 head) 41 40 axis) 15 0 tag, cpos, setFld (setFld 0 47 24 clat) 23 12 peak]

/-- A sum as a saturating U48. -/
def sat48 (n : Nat) : Nat := min n (2 ^ 48 - 1)

/-- Material position of a piece's first line, on the left-most head with a member on it (R273). -/
def Piece.posOn (p : Piece) (k : Nat) (last : Bool) : P48 :=
  let rs := p.runs.filter (fun r => r.k = k)
  match rs with
  | r :: more => (more.foldl (fun (b : Run) c => if c.x0 < b.x0 then c else b) r).pos
  | [] =>
    match p.parts.find? (fun q => (if last then q.k1 else q.k0) = k) with
    | some q => if last then q.pos1 else q.pos0
    | none => 0

/-- A piece's record as a candidate, with extra flags (R273, R274). -/
def Dev.candidateTail (d : Dev) (p : Piece) (extra : Nat) : List Word :=
  let k0 := p.posOn p.k0 false
  let h := p.localHead
  let area := min p.area (2 ^ 32 - 1)
  recordTail k0 (p.posOn p.k1 true) p.lo p.hi (p.allFlags ||| extra) area p.leftHead (d.headAxis h) p.tag
    (k0 + wordOf (sat48 p.sumK / max 1 area) * d.headPitch h) (p.lo + sat48 p.sumX / max 1 area) (min p.peak 4095)

/-! ### Release (R259, R262, R267–R272) -/

/-- Some member of the piece is a seed. A received part counts as one when its peak reaches the seed threshold of its
polarity in the releasing head's set: an edge record carries no seed mark. (Log entry 67 DEDUCED.) -/
def Dev.pieceSeed (d : Dev) (p : Piece) : Bool :=
  let w1 := d.pieceWord p 1
  let t := if p.bright then fld w1 35 24 else fld w1 11 0
  p.runs.any (·.seed) || p.parts.any (fun q => decide (t ≤ q.peak) && t ≠ 0)

/-- Heads of this device that the piece touches or that lie across a mergeable boundary it touches (R262, R266).
(Log entry 185 DEDUCED.) -/
def Dev.pieceHeads (d : Dev) (m : List Word) (p : Piece) : List Nat :=
  let own := p.runs.map (·.head)
  let side (x y : Nat) : List Nat :=
    if mapMerges m (min x y) then
      match mapOwner m y with
      | some w => if mapDev w = d.devNum then [fld w 37 32] else []
      | none => []
    else []
  let left (x : Nat) : List Nat := if x = 0 then [] else side x (x - 1)
  (own ++ p.runs.flatMap (fun r => side r.x1 (r.x1 + 1) ++ left r.x0) ++ p.parts.flatMap (fun q => left q.lo)).eraseDups

/-- The line after the piece's last line has been extracted on head h, or h takes no more lines (R262). -/
def Dev.headPassed (d : Dev) (p : Piece) (h : Nat) : Bool :=
  p.closed.contains h ||
    (match p.job with
     | some j =>
       let x := tget d.cex.jobs {} j
       (x.todo.all (fun t => t.1 ≠ h) && !x.unstarted.contains h) ||
         (match (tget x.heads {} h).lastK with | some k => decide (p.k1 < k) | none => false)
     | none =>
       d.cexMode h = 0 || (match (tget d.cex.heads {} h).lastK with | some k => decide (p.k1 < k) | none => false))

/-- The remote mergeable boundaries on the piece's right, with the last edge line at each. -/
def Dev.rightEdges (d : Dev) (m : List Word) (p : Piece) : List (Nat × Nat) :=
  let xs := ((p.runs.map (·.x1)).filter (fun x =>
    mapMerges m x && (match mapOwner m (x + 1) with | some w => mapDev w ≠ d.devNum | none => false))).eraseDups
  xs.map (fun x => (x, ((p.runs.filter (fun r => r.x1 = x)).map (·.k)).foldl max 0))

/-- Every remote boundary on the right is settled (R270). -/
def Dev.edgesSettled (d : Dev) (m : List Word) (p : Piece) : Bool :=
  p.settled || (d.rightEdges m p).all (fun e =>
    d.cex.progress.any (fun q => q.1 = e.1 && q.2.1 = p.set && q.2.2.1 = p.tag &&
      atOrPast q.2.2.2 ((p.posOn e.2 true) + d.headPitch p.localHead)))

/-- Complete but for the remote boundaries on its right (R262, R270). -/
def Dev.pieceReady (d : Dev) (m : List Word) (p : Piece) : Bool := (d.pieceHeads m p).all (d.headPassed p)

/-- When pieces became complete but for their remote boundaries. -/
def Dev.refreshReady (d : Dev) : Dev :=
  let m := d.mapWords
  { d with cex := { d.cex with pieces := d.cex.pieces.map (fun (p : Piece) =>
      if p.readyAt.isNone && d.pieceReady m p then { p with readyAt := some d.now } else p) } }

/-- The device to the left of the piece across a mergeable boundary on another device, if it touches one (R267). -/
def Dev.leftDevice (d : Dev) (m : List Word) (p : Piece) : Option Nat :=
  if p.lo = 0 || !mapMerges m (p.lo - 1) then none
  else
    match mapOwner m (p.lo - 1) with
    | some w => if mapDev w = d.devNum then none else some (mapDev w)
    | none => none

/-- Maximal runs of consecutive numbers in a rising list, as first and length. -/
def linesRuns : List Nat → List (Nat × Nat)
  | [] => []
  | k :: ks =>
    match linesRuns ks with
    | (a, n) :: rest => if a = k + 1 then (k, n + 1) :: rest else if a = k then (a, n) :: rest else (k, 1) :: (a, n) :: rest
    | [] => [(k, 1)]

/-- A number into a rising list. -/
def insertNat (x : Nat) : List Nat → List Nat
  | [] => [x]
  | y :: ys => if x < y then x :: y :: ys else if x = y then y :: ys else y :: insertNat x ys

/-- Lines with a member at column LAT_LO: first line number and length (R268). -/
def Piece.edgeRuns (p : Piece) : List (Nat × Nat) :=
  let ks := (p.runs.filter (fun r => r.x0 = p.lo)).map (·.k)
  let more := (p.parts.filter (fun q => q.lo = p.lo)).flatMap (fun q =>
    q.edge.flatMap (fun g => (List.range g.2).map (fun i => g.1 + i)))
  linesRuns ((ks ++ more).foldr insertNat [])

/-- A piece's edge record does not hold all its edge runs (R268). -/
def Piece.truncated (p : Piece) : Bool := decide (27 < p.edgeRuns.length)

/-- The BLOB of a forwarded piece (R267, R268). -/
def Dev.pieceBlob (d : Dev) (p : Piece) (dest : Nat) : BlobMsg :=
  let es := p.edgeRuns
  let cut := p.truncated
  let es' := if cut then
      let head := es.take 26
      let start := ((es.drop 26).headD (0, 0)).1
      let stop := match es.getLast? with | some g => g.1 + g.2 | none => start
      head ++ [(start, stop - start)]
    else es
  let flags := p.allFlags ||| (if cut then recTrunc else 0)
  let w0 := setFld (setFld (setFld 0 45 42 p.set) 41 37 es'.length) 31 0 p.num
  let w1 := setFld (setFld 0 47 32 flags) 31 0 (min p.area (2 ^ 32 - 1))
  let w2 := setFld (setFld 0 35 24 (min p.peak 4095)) 23 0 (min p.contrast (2 ^ 24 - 1))
  { src := d.devNum, dest := dest, tag := BitVec.ofNat 32 (p.tag * 65536), head := Fin.ofNat 64 p.leftHead,
    first := p.posOn p.k0 false, last := p.posOn p.k1 true, latLo := BitVec.ofNat 24 p.lo,
    latHi := BitVec.ofNat 24 p.hi,
    words := [w0, w1, w2, wordOf (sat48 p.sumK), wordOf (sat48 p.sumX)] ++
      es'.map (fun g => setFld (setFld 0 47 24 (g.1 - p.k0)) 23 0 g.2) }

/-- A piece leaves extraction as a candidate, or is counted weak (R259). -/
def Dev.releasePiece (d : Dev) (p : Piece) (extra : Nat) : Dev :=
  if d.pieceSeed p && fld (d.pieceWord p 2) 31 0 ≤ p.area then
    let d := d.putRecord 0 p.set p.job.isSome (d.candidateTail p extra)
    let d := match p.job with
      | some j =>
        let x := tget d.cex.jobs {} j
        { d with cex := { d.cex with jobs := tset d.cex.jobs j { x with count := x.count + 1 } } }
      | none => d
    d.wrapF .cexHdhCand p.localHead 31 0 1
  else d.satF .cexWeak 0 47 0 1

/-- A piece is no longer open. -/
def Dev.dropPiece (d : Dev) (n : Nat) : Dev :=
  ({ d with cex := { d.cex with pieces := d.cex.pieces.filter (fun p => p.num ≠ n) } }).refreshPieces

/-- EDGE settlements are counted and raise CEX_MERGE (R270, R272). -/
def Dev.countSettled (d : Dev) : Dev := (d.satF .cexErrs 0 31 16 1).raise 659

/-- Up to which position every piece of a job or of live work with edge runs at column x has been forwarded (R269): `pos`, or
just before the first edge run of a piece still here. (Log entry 187 DEDUCED.) -/
def Dev.promised (d : Dev) (job : Option Nat) (x : Nat) (pos : P48) : P48 :=
  let edges := d.cex.pieces.flatMap (fun (p : Piece) => if p.job = job then p.runs.filter (fun r => r.x0 = x) else [])
  match edges with
  | [] => pos
  | r :: more => (more.foldl (fun (a : Run) b => if b.k < a.k then b else a) r).pos - 1

/-- PROGRESS to the device on the left of each mergeable left boundary of head h (R269). (Log entry 187 DEDUCED.) -/
def Dev.sendProgress (d : Dev) (h set tag : Nat) (job : Option Nat) (pos : P48) : Dev :=
  let m := d.mapWords
  (d.ownRanges m h).foldl (fun d r =>
    if r.1 ≠ 0 && mapMerges m (r.1 - 1) then
      match mapOwner m (r.1 - 1) with
      | some w =>
        if mapDev w = d.devNum then d
        else
          match d.routeUp (mapDev w) false with
          | some port =>
            let at_ := d.promised job r.1 pos
            let b : BlobMsg :=
              { src := d.devNum, dest := mapDev w, tag := BitVec.ofNat 32 (tag * 65536), head := Fin.ofNat 64 h,
                first := at_, last := at_, latLo := BitVec.ofNat 24 r.1, latHi := BitVec.ofNat 24 r.1,
                words := [setFld (setFld 0 47 46 1) 45 42 set] }
            d.sendPort port (.blob b)
          | none => d
      | none => d
    else d) d

/-- The extraction state of the head that a piece lies left-most on, in its job or live. -/
def Dev.pieceExt (d : Dev) (p : Piece) : ExtHead :=
  match p.job with
  | some j => tget (tget d.cex.jobs {} j).heads {} p.localHead
  | none => tget d.cex.heads {} p.localHead

/-- The edge lines of a piece that leaves without waiting for its right neighbours are kept (R271). (Log entry 185 DEDUCED.) -/
def Dev.noteLate (d : Dev) (m : List Word) (p : Piece) : Dev :=
  if !p.settled then d
  else
    let xs := (d.rightEdges m p).map (·.1)
    let l := (p.runs.filter (fun r => xs.contains r.x1)).map (fun r => (r.x1, p.bright, p.set, p.tag, r.k))
    { d with cex := { d.cex with late := d.cex.late ++ l } }

/-- A complete piece is forwarded across its left boundary, with PROGRESS behind it, or released (R262, R267, R269); a BLOB that
no link carries is treated as a RETURN (R272). (Log entry 187 DEDUCED.) -/
def Dev.settlePiece (d : Dev) (m : List Word) (p : Piece) : Dev :=
  let d := (d.noteLate m p).dropPiece p.num
  match d.leftDevice m p with
  | some dest =>
    match d.routeUp dest false with
    | some port =>
      let d := ({ d with cex := { d.cex with forwarded := d.cex.forwarded ++
        [if p.truncated then { p with flags := p.flags ||| recTrunc } else p] } }).sendPort port (.blob (d.pieceBlob p dest))
      d.sendProgress p.localHead p.set p.tag p.job (d.pieceExt p).lastPos
    | none => (d.releasePiece p recEdge).countSettled
  | none => d.releasePiece p 0

/-- Pieces that a test picks end and are released with POISON and EDGE: extraction memory gave a bad word (R423). -/
def Dev.spoilPieces (d : Dev) (test : Piece → Bool) : Dev :=
  (d.cex.pieces.filter test).foldl (fun d p => (d.dropPiece p.num).releasePiece p (1 ||| recEdge)) d

/-- PIECE_RELEASE (R262): piece n, once complete; a retro piece waits while its queue is full (R277); one for which the map reads
bad leaves at once (R423). (Log entry 7 DEDUCED.) -/
def pieceReleaseOp (n : Nat) (d : Dev) : Dev :=
  match d.cex.pieces.find? (fun p => p.num = n) with
  | some p =>
    if p.job.isSome && d.retroStalls then d
    else
      let x := d.scanMap
      let d := x.2
      let m := d.mapWords
      if x.1 then d.spoilPieces (fun q => q.num = n)
      else if d.pieceReady m p && d.edgesSettled m p then d.settlePiece m p else d
  | none => d

/-- MERGE_TIMEOUT (R270): piece n is settled with EDGE after MERGE_WAIT µs. -/
def mergeTimeoutOp (n : Nat) (d : Dev) : Dev :=
  match d.cex.pieces.find? (fun p => p.num = n) with
  | some p =>
    match p.readyAt with
    | some t =>
      if d.rdF .cexMerge 0 15 0 * 1000 ≤ elapsed d.now t && !d.edgesSettled d.mapWords p then
        ({ d with cex := { d.cex with pieces := d.cex.pieces.map (fun (q : Piece) =>
            if q.num = n then { q with settled := true, flags := q.flags ||| recEdge } else q) } }).countSettled
      else d
    | none => d
  | none => d

/-! ### Lines of a band into runs -/

/-- Own columns of a line with their pixels: a column outside the head's output is no data (R252). -/
def ownColumns (ranges : List (Nat × Nat)) (base : Nat) (px : List Nat) : List (Nat × Nat) :=
  let a := px.toArray
  ranges.flatMap (fun r => (List.range (r.2 + 1 - r.1)).map (fun i =>
    let x := r.1 + i
    (x, if base ≤ x then a.getD (x - base) 0 else 0)))

/-- Only the own columns that some line of the head's output reaches matter: the range cut to the output. -/
def clipRanges (ranges : List (Nat × Nat)) (base w : Nat) : List (Nat × Nat) :=
  (ranges.map (fun r => (max r.1 base, min r.2 (base + w - 1)))).filter (fun r => decide (r.1 ≤ r.2))

/-- A line as extraction takes it, from the stream or from tiles. -/
structure ExtLine where
  k : Nat
  pos : P48
  px : List Nat
  params : Params
  map : List Word
  base : Nat
  fire : Word
  deriving DecidableEq, Repr

/-- Reference pixels of one line (R257): for each own column the reference pixel, 0 where there is none, and the block.
(Log entry 190 DEDUCED.) -/
def Dev.refLine (d : Dev) (cls : Nat) (p : Params) (k : Nat) (cols : List (Nat × Nat)) : List (Nat × Nat) × Dev :=
  let r := fld p.w0 40 29
  let tab := d.checkRef cls r
  if tab.1 ≠ 0 then (cols.map (fun c => (c.1, 0)), (tab.2.satF .cexErrs 0 47 32 1).raise 660)
  else
  let d := tab.2
  let nb := max 1 (d.refBands r)
  let off : Int := (k : Int) - (lineNo p.w3 : Int)
  let i := ((off.fdiv 8) % (nb : Int)).toNat
  let slot := (off % 8).toNat
  let lat := fld (d.refWord r 2) 23 0
  let gen := fld (d.refWord r 0) 39 32
  let tpb := d.refTpb r
  let blocks := ((cols.filter (fun c => decide (lat ≤ c.1) && decide (c.1 < lat + 256 * tpb))).map
    (fun c => (c.1 - lat) / 256)).eraseDups
  let step := blocks.foldl (fun (acc : Table Tile × Dev) b =>
    let t := acc.2.useTile 4 cls (acc.2.refTile r i b) (pchkOf i b) (some gen) false false
    if t.1 = 0 then (tset acc.1 b t.2.1, t.2.2) else (acc.1, (t.2.2.satF .cexErrs 0 47 32 1).raise 660)) ([], d)
  (cols.map (fun c =>
    if lat ≤ c.1 && c.1 < lat + 256 * tpb then
      let x := c.1 - lat
      match tfind step.1 (x / 256) with
      | some t => (c.1, fld (t.word (64 * slot + (x % 256) / 4)) (12 * (x % 4) + 11) (12 * (x % 4)))
      | none => (c.1, 0)
    else (c.1, 0)), step.2)

/-- One line extracted (R255–R258): the class of each own column, the background after it, and whether the line is warm. -/
def Dev.extractLine (d : Dev) (cls : Nat) (x : ExtHead) (l : ExtLine) (cols : List (Nat × Nat)) :
    List (Nat × Option PixClass) × Bool × ExtHead × Dev :=
  let p := l.params
  let changed := match x.prev with
    | some (a, b) => bit a 28 ≠ bit p.w0 28 || fld a 11 0 ≠ fld p.w0 11 0 || fld a 40 29 ≠ fld p.w0 40 29 || b ≠ p.w3
    | none => false
  let restart := x.restart || changed
  let x := if restart then { x with bg := [], kStart := l.k, restart := false } else x
  let x := { x with prev := some (p.w0, p.w3), lastK := some l.k, lastPos := l.pos }
  if bit p.w0 28 then
    let r := d.refLine cls p l.k cols
    let cs := (cols.zip r.1).map (fun c =>
      if c.1.2 = 0 || c.2.2 = 0 then (c.1.1, none) else (c.1.1, classify p.w1 ((c.1.2 : Int) - (c.2.2 : Int))))
    (cs, false, x, r.2)
  else
    let warm := decide ((wordOf l.k - wordOf x.kStart).toNat < 64)
    let r := bgLine p warm cols x.bg
    (r.1, warm, { x with bg := r.2 }, d)

/-- A TILE record for a tile with more than 128 pieces, or when no piece slot is free (R260). (Log entry 66 DESIGN CHOICE.) -/
def Dev.tileRecord (d : Dev) (h set tag : Nat) (retro : Bool) (first last : P48) (lo hi flags : Nat) (rs : List Run) : Dev :=
  let p : Piece := { num := 0, job := none, set := set, tag := tag, bright := false, runs := rs }
  let both := rs.any (·.bright) && rs.any (fun r => !r.bright)
  let f := d.free
  let d := if both then f.2 else d
  let bright := if both then f.1 % 2 = 1 else rs.any (·.bright)
  let area := min p.area (2 ^ 32 - 1)
  let fl := rs.foldl (fun n r => n ||| r.flags) flags ||| recOverflow ||| (if bright then recBright else 0) ||| (if retro then recRetro else 0) |||
    (if 2 ^ 48 ≤ p.sumK || 2 ^ 48 ≤ p.sumX then recSat else 0)
  let t := recordTail first last lo hi fl area h (d.headAxis h) tag
    (p.posOn p.k0 false + wordOf (sat48 p.sumK / max 1 area) * d.headPitch h) (p.lo + sat48 p.sumX / max 1 area)
    (min p.peak 4095)
  ((d.putRecord 2 set retro t).satF .cexErrs 0 15 0 1).raise 658

/-- The runs of a band's tile join the pieces, line by line, or overflow (R260). -/
def Dev.joinTile (d : Dev) (m : List Word) (h set tag : Nat) (job : Option Nat) (first last : P48) (lo hi flags : Nat)
    (rs : List Run) : Dev :=
  if rs = [] then d
  else
    let n := (components m rs).length
    let limit := if job.isSome then 8192 else 32768
    if 128 < n || limit < d.openPieces job.isSome + n then d.tileRecord h set tag job.isSome first last lo hi flags rs
    else (rs.foldl (fun d r => d.addRun m job set tag r) d).refreshPieces

/-- The flags a candidate takes from a tile's flags (R274). -/
def recFlagsOfTile (f : Nat) : Nat :=
  (if f % 2 = 1 then 1 else 0) + (if f / 2 % 2 = 1 then 2 else 0) + (if f / 4 % 2 = 1 then 4 else 0) +
    (if f / 32 % 2 = 1 then 8 else 0)

/-- A band extracted for a head (R252–R260): each line in turn, then each column block's runs. `tileFlags` gives the flags
of the tile of a column block. -/
def Dev.extractBand (d : Dev) (h set tag : Nat) (job : Option Nat) (x : ExtHead) (tileFlags : Nat → Nat) (ls : List ExtLine) :
    ExtHead × Dev :=
  let r := ls.foldl (fun (acc : ExtHead × Dev × List Run) l =>
    let cols := ownColumns (clipRanges (d.ownRanges l.map h) l.base l.px.length) l.base l.px
    let e := acc.2.1.extractLine (if job.isSome then 2 else 1) acc.1 l cols
    let mk (xc : Nat) (c : PixClass) : Run :=
      { head := h, k := l.k, pos := l.pos, fire := l.fire, x0 := xc, x1 := xc, bright := c.bright, seed := c.seed, sumE := c.e, peak := c.e,
        flags := recFlagsOfTile (tileFlags ((xc - l.base) / 256)) + (if e.2.1 then 16 else 0) }
    let blocks := (cols.map (fun c => (c.1 - l.base) / 256)).eraseDups
    let rs := blocks.flatMap (fun b => runsOf mk (e.1.filter (fun c => (c.1 - l.base) / 256 = b)))
    (e.2.2.1, e.2.2.2, acc.2.2 ++ rs)) (x, d, [])
  let d := r.2.1
  match ls with
  | [] => (r.1, d)
  | l0 :: _ =>
    let last := (ls.getLast?.map (·.pos)).getD l0.pos
    let m := (ls.getLast?.map (·.map)).getD l0.map
    let blocks := (r.2.2.map (fun q => (q.x0 - l0.base) / 256)).eraseDups
    let d := blocks.foldl (fun d b =>
      let rs := r.2.2.filter (fun q => (q.x0 - l0.base) / 256 = b)
      let lo := l0.base + 256 * b
      d.joinTile m h set tag job l0.pos last lo (min (lo + 255) 0xFFFFFF) (recFlagsOfTile (tileFlags b)) rs) d
    (r.1, d)

/-! ### The live array, catch-up and PROGRESS -/

/-- The extraction state of head h. -/
def Dev.extHead (d : Dev) (h : Nat) : ExtHead := tget d.cex.heads {} h

/-- The extraction state of head h replaced. -/
def Dev.setExtHead (d : Dev) (h : Nat) (x : ExtHead) : Dev :=
  { d with cex := { d.cex with heads := tset d.cex.heads h x } }

/-- Head h's open pieces end and its background starts anew (R256). -/
def Dev.endHeadPieces (d : Dev) (h : Nat) : Dev :=
  let d := { d with cex := { d.cex with pieces := d.cex.pieces.map (fun (p : Piece) =>
    if p.job.isNone && (p.runs.any (fun r => r.head = h) || p.parts.any (fun q => q.near = h)) then
      { p with closed := h :: p.closed } else p) } }
  d.setExtHead h { d.extHead h with restart := true }

/-- The lines of a band of the stream, as extraction takes them. -/
def Dev.bandExtLines (d : Dev) (h : Nat) (b : Band) : List ExtLine :=
  b.lines.map (fun l => { k := lineNo l.line, pos := l.pos, px := l.px, params := d.liveParams h l.fire,
                          map := d.mapAt l.fire, base := fld (d.rdAt .chmHdhOut h l.fire) 23 0,
                          fire := l.fire })

/-- WARM of CEX_HDh_STAT after head h's lines; reference mode has no warm-up (R255, R257). -/
def Dev.refreshWarm (d : Dev) (h : Nat) : Dev :=
  let x := d.extHead h
  let warm := match x.lastK, x.prev with
    | some k, some (w0, _) => !bit w0 28 && decide ((wordOf k - wordOf x.kStart).toNat < 64)
    | _, _ => false
  d.wrB .cexHdhStat h 2 warm

/-- Head h enters CATCHUP at a band boundary (R278): EXT_SEQ and a claim on that band. -/
def Dev.enterCatchup (d : Dev) (h s : Nat) : Dev :=
  let d := d.setCexMode h 2
  let d := d.wr .cexHdhExtSeq h (wordOf s)
  { d with tfb := { d.tfb with inner := d.tfb.inner ++ [{ owner := .catchup h, head := h, s := s }] } }

/-- Head h in STREAM is at a band boundary while the live queue is full: it enters CATCHUP at band S (R278).
(Log entry 186 DEDUCED.) -/
def Dev.boundary (d : Dev) (h s : Nat) : Dev :=
  if d.cexMode h = 1 && d.rdB .cexStat 0 0 then d.enterCatchup h s else d

/-- The next band of head h begins with its first line after the head entered RUN (R256). -/
def Dev.markEntry (d : Dev) (h : Nat) : Dev :=
  let x := d.extHead h
  d.setExtHead h { x with entries := x.entries.filter (fun n => n ≠ (d.lb h).nextS) ++ [(d.lb h).nextS] }

/-- Band S of head h is extracted next: its background starts anew where R256 says, and its open pieces end at a position epoch. -/
def Dev.restartAt (d : Dev) (h s : Nat) (epoch : Bool) : Dev :=
  let d := if epoch then d.endHeadPieces h else d
  let x := d.extHead h
  let d := if x.entries.contains s then d.setExtHead h { x with restart := true } else d
  d.setExtHead h { d.extHead h with entries := (d.extHead h).entries.filter (fun n => decide (s < n)) }

/-- The map reads bad while head h's lines are extracted: the head's open pieces end (R423). (Log entry 205 DEDUCED.) -/
def Dev.checkMap (d : Dev) (job : Option Nat) (h : Nat) : Dev :=
  let x := d.scanMap
  if x.1 then x.2.spoilPieces (fun p => p.job = job && p.runs.any (fun r => r.head = h)) else x.2

/-- PROGRESS of live work on head h as far as it has been extracted. -/
def Dev.liveProgress (d : Dev) (h : Nat) : Dev := d.sendProgress h 0 0 none (d.extHead h).lastPos

/-- Head h leaves STREAM or CATCHUP with no band left: PROGRESS covers the line after its last one (R262, R269).
(Log entry 187 DEDUCED.) -/
def Dev.endStream (d : Dev) (h : Nat) : Dev :=
  let x := d.extHead h
  (((d.setExtHead h { x with lastPos := x.lastPos + d.headPitch h }).setCexMode h 0).liveProgress h).refreshReady

/-- The live array takes a closed band of head h (R252): in STREAM it is extracted, and the boundary after it is where the head
leaves STREAM for a full queue (R278). (Log entry 186 DEDUCED.) -/
def Dev.liveBand (d : Dev) (h : Nat) (b : Band) : Dev :=
  if d.cexMode h ≠ 1 then d
  else
    let d := (d.checkMap none h).restartAt h b.s b.epoch
    let r := d.extractBand h 0 0 none (d.extHead h) b.imgFlags (d.bandExtLines h b)
    let d := ((r.2.setExtHead h r.1).wr .cexHdhExtSeq h (wordOf (b.s + 1))).refreshWarm h
    ((d.liveProgress h).refreshReady).boundary h (b.s + 1)

/-- A tile of a band with its FIRST_POS read for extraction under R200: its pixels by line slot, its flags, and the outcome.
(Log entries 68 DEDUCED, 181 DEDUCED.) -/
def Dev.readExtTile (d : Dev) (cls h s : Nat) (first : P48) (c : Nat) : Nat × Tile × Dev :=
  d.useTile (if cls = 2 then 3 else 4) cls (d.imgTile h s c) (posPchk first c) (some (s / max 1 (d.nb h) % 256))
    (decide (s < d.hznSeq h)) false

/-- A held band of head h read from its directory entry and its tiles: the entry, the pixels of line slots 0–7, the flags by column
block, and the outcomes of failed checks. -/
def Dev.readBand (d : Dev) (cls h s : Nat) : (Word × Word) × (Nat → List Nat) × (Nat → Nat) × List Nat × Dev :=
  let e := d.entryFor cls h s false
  if e.1 ≠ 0 && e.1 ≠ 0x18 then ((0, 0), fun _ => [], fun _ => 0, [e.1], e.2.2)
  else
    let r := forUpTo (d.tpb h) (fun c (acc : List Tile × List Nat × Dev) =>
      let t := acc.2.2.readExtTile cls h s e.2.1.1 c
      (acc.1 ++ [t.2.1], acc.2.1 ++ [t.1], t.2.2)) ([], [e.1], e.2.2)
    let pix (l : Nat) : List Nat := r.1.flatMap (fun t =>
      (List.range 64).flatMap (fun j =>
        let w := t.word (64 * l + j)
        [fld w 11 0, fld w 23 12, fld w 35 24, fld w 47 36]))
    let flags (c : Nat) : Nat := ((r.1[c]?).map (fun t => tagFlags t.tag)).getD 0
    (e.2.1, pix, flags, r.2.1.filter (fun x => x ≠ 0), r.2.2)

/-- The lines of a held band as extraction takes them: those that fired, their numbers and positions from the directory entry, and the
map, output base and settings of their fire times (R242, R253, R265). (Log entry 64 DEDUCED.) -/
def Dev.heldExtLines (d : Dev) (h s : Nat) (e : Word × Word) (pix : Nat → List Nat) (params : Word → Params) : List ExtLine :=
  let f := fld e.2 46 44
  let k0 := d.lineAt h e.1
  let w := (d.lb h).outW
  if !bit e.2 47 then []
  else
    (tget (d.lb h).fires [] s).map (fun l =>
      { k := k0 + (l.1 - f), pos := e.1 + wordOf (l.1 - f) * d.headPitch h, px := (pix l.1).take w, params := params l.2,
        map := d.mapAt l.2, base := fld (d.rdAt .chmHdhOut h l.2) 23 0, fire := l.2 })

/-- A SKIP record is queued as soon as there is room (R280). -/
def Dev.queueSkip (d : Dev) (h : Nat) (first last : P48) : Dev :=
  let t := recordTail first last 0 0 0 0 h (d.headAxis h) 0 0 0 0
  let d := d.putRecord 1 0 false t
  ({ d with cex := { d.cex with skips := d.cex.skips + 1 } }).raise 657

/-- The claim of catch-up on head h. -/
def Dev.catchupClaim (d : Dev) (h : Nat) : Option InnerClaim := d.tfb.inner.find? (fun c => c.owner = .catchup h)

/-- The claim of catch-up on head h moves to a band, or goes. -/
def Dev.setCatchupClaim (d : Dev) (h : Nat) (s : Option Nat) : Dev :=
  let l := d.tfb.inner.filter (fun c => c.owner ≠ .catchup h)
  let l := match s with
    | some n => l ++ [{ owner := .catchup h, head := h, s := n }]
    | none => l
  { d with tfb := { d.tfb with inner := l } }

/-- The lost claim of catch-up skips to the horizon: the head's open pieces end, its background starts anew, and a SKIP record
tells the range (R280). -/
def Dev.skipCatchup (d : Dev) (h : Nat) : Dev :=
  match d.catchupClaim h with
  | some c =>
    (match c.lost with
     | some hzn =>
       let n := d.hznSeq h
       ((((d.endHeadPieces h).queueSkip h c.first hzn).wr .cexHdhExtSeq h (wordOf n))).setCatchupClaim h (some n)
     | none => d)
  | none => d

/-- The band of head h that is open in the stream, or the next to open. -/
def Dev.streamBand (d : Dev) (h : Nat) : Nat :=
  match (d.lb h).cur with
  | some b => b.s
  | none => (d.lb h).nextS

/-- One band of a head in CATCHUP (R279); the band open in the stream ends it. A head without a ring has no band to read. -/
def Dev.catchupStep (d : Dev) (h : Nat) : Dev :=
  let s := (d.rd .cexHdhExtSeq h).toNat
  if d.holds h && s ≤ d.newSeq h then
    let d := (d.checkMap none h).restartAt h s ((d.lb h).epochs.contains s)
    let r := d.readBand 1 h s
    let d := r.2.2.2.2
    let ls := d.heldExtLines h s r.1 r.2.1 (d.liveParams h)
    let e := d.extractBand h 0 0 none (d.extHead h) r.2.2.1 ls
    let d := ((e.2.setExtHead h e.1).wr .cexHdhExtSeq h (wordOf (s + 1))).refreshWarm h
    ((d.setCatchupClaim h (some (s + 1))).liveProgress h).refreshReady
  else if (d.lb h).done = [] then
    let d := (d.setCatchupClaim h none).wr .cexHdhExtSeq h (wordOf (d.streamBand h))
    if d.headRuns h then d.setCexMode h 1 else d.endStream h
  else d

/-- CATCHUP_RESUME (R279): with 1,024 entries free, held records are written, QFULL falls, and each head in CATCHUP is
extracted band by band while the queue takes what it gives. -/
def Dev.writeHeld : Nat → Dev → Dev
  | 0, d => d
  | n + 1, d =>
    match d.cex.heldRecs with
    | [] => d
    | r :: rest =>
      if d.cexFull false then d
      else writeHeld n (({ d with cex := { d.cex with heldRecs := rest } }).pushRecord false r)

/-- Bands of head h in CATCHUP, n at most, while the queue is not full. -/
def Dev.catchupHead (h : Nat) : Nat → Dev → Dev
  | 0, d => d
  | n + 1, d => if d.cexMode h = 2 && !d.rdB .cexStat 0 0 then catchupHead h n (d.catchupStep h) else d

/-- The bands a head in CATCHUP may still have: from EXT_SEQ to the newest, and two more steps. -/
def Dev.catchupLeft (d : Dev) (h : Nat) : Nat := d.newSeq h + 3 - (d.rd .cexHdhExtSeq h).toNat + 3

/-- CATCHUP_RESUME. -/
def catchupResumeOp (d : Dev) : Dev :=
  if 1024 ≤ 4096 - d.cexCount false && (d.cex.heldRecs ≠ [] || d.rdB .cexStat 0 1) then
    let d := Dev.writeHeld d.cex.heldRecs.length d
    if d.cex.heldRecs = [] then
      let d := (d.wrB .cexStat 0 0 false).setLevel 655 false
      forUpTo 64 (fun h d => Dev.catchupHead h (d.catchupLeft h) d) d
    else d
  else d

/-- Head h in CATCHUP has formed bands that it has not extracted. -/
def Dev.catchupDue (d : Dev) (h : Nat) : Bool := decide ((d.rd .cexHdhExtSeq h).toNat < (d.lb h).nextS)

/-- FIRST_POS of the first band that head h in CATCHUP has not extracted. -/
def Dev.nextCatchup (d : Dev) (h : Nat) : P48 := d.bandStart h (d.rd .cexHdhExtSeq h).toNat

/-- A head in CATCHUP when a full layout discards its bands (R280): `gone` where it had bands still to extract.
(Log entry 186 DEDUCED.) -/
def Dev.catchupLayout (d : Dev) (h : Nat) (last first : P48) (gone : Bool) : Dev :=
  if d.cexMode h = 2 then
    let d := d.endHeadPieces h
    let d := if gone then d.queueSkip h first last else d
    (d.wr .cexHdhExtSeq h 0).setCatchupClaim h (some 0)
  else d

/-- An entry into RUN that no band has begun with yet stands for the first band after a layout (R256). -/
def Dev.relayEntries (d : Dev) (h : Nat) : Dev :=
  let x := d.extHead h
  if x.entries = [] then d else d.setExtHead h { x with entries := [], restart := true }

/-! ### Edge records received (R270–R272) -/

/-- The retro job whose slot is not FREE and holds a tag (R272). -/
def Dev.jobOfTag (d : Dev) (tag : Nat) : Option Nat :=
  (List.range 16).find? (fun j =>
    let x := tget d.cex.jobs {} j
    x.st ≠ .free && fld (x.words.getD 0 0) 31 16 = tag)

/-- A forwarded piece comes back: the sender releases it with EDGE (R272). (Log entry 69 DEDUCED.) -/
def Dev.returned (d : Dev) (n : Nat) : Dev :=
  match d.cex.forwarded.find? (fun p => p.num = n) with
  | some p =>
    (({ d with cex := { d.cex with forwarded := d.cex.forwarded.filter (fun q => q.num ≠ n) } }).releasePiece p recEdge).countSettled
  | none => d

/-- The RETURN record for a PIECE record (R269, R272). -/
def Dev.returnBlob (d : Dev) (b : BlobMsg) : BlobMsg :=
  let w0 := b.words.getD 0 0
  { b with src := d.devNum, dest := b.src,
           words := [setFld (setFld (setFld 0 47 46 2) 45 42 (fld w0 45 42)) 31 0 (fld w0 31 0)] }

/-- A BLOB that no link carries: a piece returns to its sender (R112, R272); PROGRESS and RETURN are not asked for again.
(Log entry 170 DEDUCED.) -/
def Dev.blobLost (d : Dev) (b : BlobMsg) : Dev :=
  let w0 := b.words.getD 0 0
  if fld w0 47 46 ≠ 0 then d
  else if b.src = d.devNum then d.returned (fld w0 31 0)
  else
    match d.routeUp b.src false with
    | some p => d.sendPort p (.blob (d.returnBlob b))
    | none => d

/-- A blob for another device goes on. -/
def Dev.passOn (d : Dev) (b : BlobMsg) : Dev :=
  match d.routeUp b.dest false with
  | some p => d.sendPort p (.blob b)
  | none => d.blobLost b

/-- The piece a PIECE record describes (R268). (Log entry 67 DEDUCED.) -/
def Dev.partOf (d : Dev) (b : BlobMsg) (h : Nat) : PiecePart × Nat × Bool :=
  let w (i : Nat) : Word := b.words.getD i 0
  let n := fld (w 0) 41 37
  let k0 := d.lineAt h b.first
  let lo := b.latLo.toNat
  ({ k0 := k0, k1 := d.lineAt h b.last, pos0 := b.first, pos1 := b.last, lo := lo, hi := b.latHi.toNat,
     area := fld (w 1) 31 0, peak := fld (w 2) 35 24, contrast := fld (w 2) 23 0, sumK := (w 3).toNat, sumX := (w 4).toNat,
     edge := (List.range n).map (fun i => (k0 + fld (w (5 + i)) 47 24, fld (w (5 + i)) 23 0)), head := b.head.val,
     near := h },
   fld (w 1) 47 32, bit (w 1) 37)

/-- A PIECE record for this device (R259, R262, R271): merged with every local piece that its edge runs are neighbours of; released
of its own with EDGE where such a piece has already left, or where no more pieces can be held (R275); else it waits for the head on
its left. (Log entries 185 DEDUCED, 206 DESIGN CHOICE.) -/
def Dev.takePiece (d : Dev) (b : BlobMsg) (set tag : Nat) (job : Option Nat) : Dev :=
  let bad := d.scanMap
  let d := bad.2
  let m := d.mapWords
  let x := b.latLo.toNat - 1
  let meets := b.latLo ≠ 0 && mapMerges m x
  let r := d.partOf b (((mapOwner m x).map (fun w => fld w 37 32)).getD 0)
  let n := d.cex.nextPiece
  let p : Piece := { num := n, job := job, set := set, tag := tag, bright := r.2.2, runs := [], parts := [r.1], flags := r.2.1 }
  let touch (q : Piece) : Bool :=
    q.job = job && q.bright = r.2.2 && meets && q.runs.any (fun u => u.x1 = x && r.1.edge.any (fun g => edgeNear g u.k))
  let left := meets && d.cex.late.any (fun e =>
    e.1 = x && e.2.1 = r.2.2 && e.2.2.1 = set && e.2.2.2.1 = tag && r.1.edge.any (fun g => edgeNear g e.2.2.2.2))
  let full := decide ((if job.isSome then 8192 else 32768) ≤ d.openPieces job.isSome)
  if bad.1 then d.releasePiece p (1 ||| recEdge)
  else if (left || full) && !d.cex.pieces.any touch then d.releasePiece p recEdge
  else
    (({ d with cex := { d.cex with pieces := d.joinPiece touch p d.cex.pieces, nextPiece := n + 1 } }).refreshPieces).refreshReady

/-- PIECE (R271, R272): a retro piece of no job here is answered with RETURN. -/
def pieceOp (b : BlobMsg) (d : Dev) : Dev :=
  if b.dest ≠ d.devNum then d.passOn b
  else
    let set := fld (b.words.getD 0 0) 45 42
    let tag := b.tag.toNat / 65536
    if set = 0 then d.takePiece b 0 tag none
    else
      match d.jobOfTag tag with
      | some j => d.takePiece b set tag (some j)
      | none => d.passOn (d.returnBlob b)

/-- PROGRESS (R269, R270): the promise across the boundary is recorded. -/
def progressOp (b : BlobMsg) (d : Dev) : Dev :=
  if b.dest ≠ d.devNum then d.passOn b
  else
    let x := b.latLo.toNat - 1
    let set := fld (b.words.getD 0 0) 45 42
    let tag := b.tag.toNat / 65536
    let l := d.cex.progress.filter (fun q => !(q.1 = x && q.2.1 = set && q.2.2.1 = tag))
    ({ d with cex := { d.cex with progress := l ++ [(x, set, tag, b.last)] } }).refreshReady

/-- RETURN (R272). (Log entry 69 DEDUCED.) -/
def returnRecordOp (b : BlobMsg) (d : Dev) : Dev :=
  if b.dest ≠ d.devNum then d.passOn b else d.returned (fld (b.words.getD 0 0) 31 0)

/-- Every open piece is released with EDGE (R281). -/
def Dev.releaseAll (d : Dev) : Dev :=
  d.cex.pieces.foldl (fun d p => (d.dropPiece p.num).releasePiece p recEdge) d

end Sys2Proof.Machine
end

