-- ==== Sys2Proof/Machine/Chm.lean ====
section
/-! DEFINITION. Chamois (R234–R251): from a line in staging to tile pixels, the bands it fills, calibration, seams, and the
return of staging credits. -/

namespace Sys2Proof.Machine

/-- Chamois' state for head h. -/
def Dev.chmHead (d : Dev) (h : Nat) : ChmHead := tget d.chm.heads {} h

/-- Chamois' state for head h replaced. -/
def Dev.setChm (d : Dev) (h : Nat) (x : ChmHead) : Dev := { d with chm := { d.chm with heads := tset d.chm.heads h x } }

/-! ### Stages (R234–R241, R247) -/

/-- The four pixels of a staging word (R157). -/
def wordPixels (w : Word) : List Nat := [fld w 11 0, fld w 23 12, fld w 35 24, fld w 47 36]

/-- The camera pixels of a line, up to WIDTH (R153, R235). -/
def Dev.linePixels (d : Dev) (l : StgLine) : List Pix × Dev :=
  let n := if l.lost || l.slot.isNone then 0 else min l.pixels l.width
  let r := forUpTo ((n + 3) / 4) (fun i (acc : List Pix × Dev) =>
    let x := acc.2.sramRead (l.addr + i)
    let px := if x.1.status = 0 then (wordPixels x.1.word).map Pix.val else List.replicate 4 Pix.bad
    (acc.1 ++ px, x.2)) ([], d)
  let px := r.1.take n
  (px ++ List.replicate (l.width - px.length) Pix.missing, r.2)

/-- A pixel with data. -/
def Pix.isVal : Pix → Bool
  | .val _ => true
  | _ => false

/-- The number of a pixel, 0 for no data. -/
def Pix.num : Pix → Nat
  | .val v => v
  | _ => 0

/-- Two no-data reasons as one: poison first, then a pixel not received. -/
def Pix.worse : Pix → Pix → Pix
  | .bad, _ => .bad
  | _, .bad => .bad
  | .missing, _ => .missing
  | _, .missing => .missing
  | _, _ => .lone

/-- Stage G (R239). -/
def gainPixel (dark : Nat) (x : Nat) (coef : Word) : Nat :=
  let d16 : Int := 16 * x - dark
  let p : Int := d16 * (fld coef 47 24 : Int) + sfld coef 23 0 * 2 ^ 14
  (clampInt ((p + 2 ^ 19).fdiv (2 ^ 20)) 16 65535).toNat

/-- A coefficient word marks its pixel defective (R238). -/
def coefDefective (coef : Word) : Bool := fld coef 23 0 = 0x800000

/-- Stages D and G for one pixel; the flag says that the pixel is defective and waits for stage P. -/
def Dev.correctPixel (d : Dev) (base dark i : Nat) (x : Pix) : (Pix × Bool) × Dev :=
  match x with
  | .val v =>
    let r := d.sramRead (0x800000 + base + i)
    if r.1.status ≠ 0 then ((.bad, false), r.2)
    else if coefDefective r.1.word then ((.lone, true), r.2)
    else ((.val (gainPixel dark v r.1.word), false), r.2)
  | y => ((y, false), d)

/-- Stages D and G of a line. -/
def Dev.stageG (d : Dev) (base dark : Nat) (px : List Pix) : List (Pix × Bool) × Dev :=
  ((List.range px.length).zip px).foldl (fun (acc : List (Pix × Bool) × Dev) e =>
    let r := acc.2.correctPixel base dark e.1 e.2
    (acc.1 ++ [r.1], r.2)) ([], d)

/-- Stage P (R240): a defective pixel from its neighbours that count. -/
def stageP (l : List (Pix × Bool)) : List Pix :=
  let a := l.toArray
  let at_ (i : Nat) : Pix := match a[i]? with
    | some (c, false) => c
    | _ => .lone
  ((List.range l.length).zip l).map (fun e =>
    if e.2.2 then
      let p := if e.1 = 0 then Pix.lone else at_ (e.1 - 1)
      let q := at_ (e.1 + 1)
      match p, q with
      | .val x, .val y => .val ((x + y + 1) / 2)
      | .val x, _ => .val x
      | _, .val y => .val y
      | _, _ => .lone
    else e.2.1)

/-- The knots of a line (R241): signed readings, none where the word is uncorrectable or poison. -/
def Dev.knots (d : Dev) (base n : Nat) : List (Option Nat) × Dev :=
  forUpTo n (fun b (acc : List (Option Nat) × Dev) =>
    let r := acc.2.sramRead (0x800000 + base + b)
    (acc.1 ++ [if r.1.status = 0 then some (fld r.1.word 31 0) else none], r.2)) ([], d)

/-- Stage S (R241) for output column j. -/
def stageS (width : Nat) (c : Array Pix) (k : Array (Option Nat)) (j : Nat) : Pix :=
  match k.getD (j / 256) none, k.getD (j / 256 + 1) none with
  | some k0, some k1 =>
    let u : Int := (k0 : Int) + (((k1 : Int) - k0) * (j % 256 : Nat)).fdiv 256
    let u := (clampInt u 0 ((width - 1) * 2 ^ 16 : Nat)).toNat
    let i := u / 65536
    let f := u / 1024 % 64
    let x := c.getD i .missing
    let y := c.getD (min (i + 1) (width - 1)) .missing
    if f = 0 then (match x with | .val v => .val ((v * 64 + 32) / 64) | z => z)
    else
      match x, y with
      | .val a, .val b => .val ((a * (64 - f) + b * f + 32) / 64)
      | .val _, z => z
      | z, .val _ => z
      | z, w => z.worse w
  | _, _ => .bad

/-- Output column j takes a camera pixel that was not received (R197, R241). -/
def stageShort (width : Nat) (px : Array Pix) (k : Array (Option Nat)) (j : Nat) : Bool :=
  match k.getD (j / 256) none, k.getD (j / 256 + 1) none with
  | some k0, some k1 =>
    let u : Int := (k0 : Int) + (((k1 : Int) - k0) * (j % 256 : Nat)).fdiv 256
    let u := (clampInt u 0 ((width - 1) * 2 ^ 16 : Nat)).toNat
    let i := u / 65536
    px.getD i .missing = .missing || (u / 1024 % 64 ≠ 0 && px.getD (min (i + 1) (width - 1)) .missing = .missing)
  | _, _ => false

/-- Stage O (R247). -/
def stageO (p : Pix) : Nat :=
  match p with
  | .val y => min ((y + 8) / 16) 4095
  | _ => 0

/-- DARK_LINE after a line (R237): the camera pixels, those without a readable coefficient word among those without data
(R235). -/
def darkNext (cfg dk : Word) (dark : Nat) (px : List Pix) : Nat :=
  let code := fld cfg 9 7
  if code = 0 then fld dk 15 0
  else
    let n := 2 ^ (code - 1)
    let cols := (px.drop (fld dk 29 16)).take n
    if cols.length = n && cols.all Pix.isVal then
      let m : Nat := cols.foldl (fun s p => s + p.num) 0 * 16 / n
      ((dark : Int) + ((m : Int) - (dark : Int)).fdiv (2 ^ fld cfg 12 10)).toNat
    else dark

/-! ### Bands (R185, R187) -/

/-- Column blocks with a pixel that a test picks. -/
def blocksWith (test : Pix → Bool) (l : List Pix) : List Nat :=
  ((((List.range l.length).zip l).filter (fun e => test e.2)).map (fun e => e.1 / 256)).eraseDups

/-- The open band of head h is closed, and the live array takes it. -/
def Dev.finishBand (d : Dev) (h : Nat) : Dev :=
  let r := d.closeBand h
  match r.1 with
  | some b => r.2.liveBand h b
  | none => r.2

/-- The commit spans of R106 and R107 that a fire time falls in. -/
def Dev.straddles (d : Dev) (fire : Word) : Bool :=
  d.hlk.straddle.any (fun s =>
    atOrPast fire s.1 && (match s.2 with | some e => !atOrPast fire e | none => true))

/-- The head has left RUN for the e-th time behind the lines taken so far: the open band closes and its entry, or at once what
entries there are, takes the directory tile to HBM; the stream ends, or goes on afresh where the head runs again (R185, R190, R256,
R262). (Log entry 184 DEDUCED.) -/
def Dev.leaveBand (d : Dev) (h e : Nat) : Dev :=
  let d := d.finishBand h
  let x := d.lb h
  let d := match x.done.reverse with
    | b :: rest => d.setLb h { x with done := (rest.reverse) ++ [{ b with leaves := true }], exit := e }
    | [] => (if x.dirty then d.writeDir h else d).setLb h { (if x.dirty then d.writeDir h else d).lb h with exit := e }
  let d := if d.cexMode h ≠ 1 then d
    else if d.headRuns h then ((d.endStream h).endHeadPieces h).setCexMode h 1 else d.endStream h
  d.markEntry h

/-- A line goes to its band (R185, R186). -/
def Dev.bandTake (d : Dev) (h : Nat) (l : BandLine) : Dev :=
  let d := if l.exit ≠ (d.lb h).exit then d.leaveBand h l.exit else d
  let x := d.lb h
  let d := match x.cur with
    | some b =>
      if b.b ≠ l.line.toNat / 8 || (match x.lastLine with | some k => !strictlyPast l.line k | none => false)
      then d.finishBand h else d
    | none => d
  let d := if (d.lb h).cur.isNone then ((d.openBand h l).skipCatchup h).boundary h (d.lb h).nextS else d
  let d := d.setLb h { d.lb h with
    cur := (d.lb h).cur.map (fun b => { b with lines := b.lines ++ [l] }), lastLine := some l.line }
  if l.line.toNat % 8 = 7 then d.finishBand h else d

/-- Stage O and TFB: a line behind its seams leaves Chamois (R153, R197, R247). -/
def Dev.deliverLine (d : Dev) (h : Nat) (c : ChmLine) : Dev :=
  let raw := d.tpbr h ≠ 0
  let l : BandLine :=
    { line := c.src.line, pos := c.src.pos, fire := c.src.fire, px := c.y.map stageO,
      raw := if raw then c.raw.map Pix.num else [],
      poison := c.poison ++ blocksWith (fun p => p = .bad) c.y, short := c.short,
      rawPoison := if raw then blocksWith (fun p => p = .bad) c.raw else [],
      rawShort := if raw then blocksWith (fun p => p = .missing) c.raw else [],
      unest := c.src.ast = .acquire, straddle := d.straddles c.src.fire, exit := c.src.exit }
  d.bandTake h l

/-! ### Seams (R244–R246) -/

/-- The right partner of head h for a line fired at t. (Log entry 71 DEDUCED.) -/
def Dev.seamRight (d : Dev) (h : Nat) (t : Word) : Option Nat :=
  let w := d.rdAt .chmHdhCfg h t
  if bit w 19 then some (fld w 18 13) else none

/-- The head whose right partner is h for a line fired at t. (Log entry 71 DEDUCED.) -/
def Dev.seamLeft (d : Dev) (h : Nat) (t : Word) : Option Nat :=
  (List.range 64).find? (fun k => d.seamRight k t = some h)

/-- One seam column (R246). -/
def seamPixel (sw t : Nat) (l r : Pix) : Pix :=
  let wl := (256 * (2 * (sw - t) - 1)) / (2 * sw)
  match l, r with
  | .val a, .val b => .val ((a * wl + b * (256 - wl) + 128) / 256)
  | .val a, _ => .val a
  | _, .val b => .val b
  | x, y => x.worse y

/-- The seam of a left and a right line blended into both (R246). -/
def blendSeam (l r : ChmLine) : ChmLine × ChmLine :=
  let sw := l.base + l.outW - r.base
  if sw = 0 || 256 < sw || r.base ≤ l.base then ({ l with rightOpen := false }, { r with leftOpen := false })
  else
    let at_ (c : ChmLine) (x : Nat) : Pix := c.y.getD (x - c.base) .lone
    let cols := (List.range sw).map (fun t => seamPixel sw t (at_ l (r.base + t)) (at_ r (r.base + t)))
    let ly := l.y.take (r.base - l.base) ++ cols
    ({ l with y := ly.take l.outW, rightOpen := false }, { r with y := cols.take r.outW ++ r.y.drop sw, leftOpen := false })

/-- The waiting line of a number. -/
def ChmHead.waitingLine (x : ChmHead) (k : Word) : Option ChmLine := x.waiting.find? (fun c => c.src.line = k)

/-- A waiting line replaced. -/
def Dev.putWaiting (d : Dev) (h : Nat) (c : ChmLine) : Dev :=
  let x := d.chmHead h
  d.setChm h { x with waiting := x.waiting.map (fun y => if y.src.line = c.src.line then c else y) }

/-- A seam missed by the left head (R245): counted, and CHM_SEAM at most once per 1,024 lines. -/
def Dev.seamMiss (d : Dev) (h : Nat) : Dev :=
  let d := d.satF .chmHdhSeamMiss h 31 0 1
  let x := d.chmHead h
  let due := match x.missAt with | some n => decide (1024 ≤ x.count - n) | none => true
  if due then (d.setChm h { x with missAt := some x.count }).raise 651 else d

/-- A head has delivered line k or a later one to its seams, or is not in RUN. -/
def Dev.seamGone (d : Dev) (h : Nat) (k : Word) : Bool :=
  !d.headRuns h || (match (d.chmHead h).last with | some n => atOrPast n k | none => false)

/-- The seams of the oldest waiting line of head h are settled where they can be (R245). (Log entry 71 DEDUCED.) -/
def Dev.trySeams (d : Dev) (h : Nat) : Dev :=
  match (d.chmHead h).waiting with
  | [] => d
  | c :: _ =>
    let d := if c.rightOpen then
        match d.seamRight h c.src.fire with
        | some r =>
          match (d.chmHead r).waitingLine c.src.line with
          | some e => (d.putWaiting h (blendSeam c e).1).putWaiting r (blendSeam c e).2
          | none => if d.seamGone r c.src.line then (d.putWaiting h { c with rightOpen := false }).seamMiss h else d
        | none => d.putWaiting h { c with rightOpen := false }
      else d
    match (d.chmHead h).waiting with
    | [] => d
    | c :: _ =>
      if c.leftOpen then
        match d.seamLeft h c.src.fire with
        | some l =>
          match (d.chmHead l).waitingLine c.src.line with
          | some e =>
            if e.rightOpen then (d.putWaiting l (blendSeam e c).1).putWaiting h (blendSeam e c).2
            else d.putWaiting h { c with leftOpen := false }
          | none => if d.seamGone l c.src.line then d.putWaiting h { c with leftOpen := false } else d
        | none => d.putWaiting h { c with leftOpen := false }
      else d

/-- Lines of head h with no seam open leave Chamois in order; n at most. -/
def Dev.drainSeams (h : Nat) : Nat → Dev → Dev
  | 0, d => d
  | n + 1, d =>
    let d := d.trySeams h
    let x := d.chmHead h
    match x.waiting with
    | c :: rest =>
      if c.leftOpen || c.rightOpen then d
      else drainSeams h n ((d.setChm h { x with waiting := rest }).deliverLine h c)
    | [] => d

/-- Nothing of head h is left in staging or in Chamois. -/
def Dev.drained (d : Dev) (h : Nat) : Bool := (d.head h).lines.all (·.done) && (d.chmHead h).waiting = []

/-- A head that has left RUN and is drained of the lines from before: its open band closes and the stream ends (R185, R190, R262).
(Log entry 184 DEDUCED.) -/
def Dev.closeHead (d : Dev) (h : Nat) : Dev :=
  if d.drained h && decide ((d.lb h).exit < d.headExit h) then d.leaveBand h (d.headExit h) else d

/-- Seams of head h and of its neighbours settle as far as they can, and heads that wait for no more close (R185). -/
def Dev.settleSeams (d : Dev) (h : Nat) : Dev :=
  let near := h :: ((List.range 64).filter (fun k => d.seamRight k d.now = some h || d.seamRight h d.now = some k))
  let d := (near ++ near).foldl (fun d k => Dev.drainSeams k ((d.chmHead k).waiting.length + 1) d) d
  near.foldl (fun d k => d.closeHead k) d

/-! ### Calibration (R251) -/

/-- STATE of CHM_CAL_STAT: 0 IDLE, 1 BUSY, 2 DONE, 3 ABORTED. -/
def Dev.calState (d : Dev) : Nat := d.rdF .chmCalStat 0 1 0

/-- Word i of the calibration result. -/
def calWord (i : Nat) : Nat := 0x975800 + i

/-- A value added to a result word; one that reads uncorrectable or poison stays as it is. (Log entry 205 DEDUCED.) -/
def Dev.calAdd (d : Dev) (i v : Nat) : Dev :=
  let x := d.sramRead (calWord i)
  if x.1.status ≠ 0 then x.2 else x.2.sramWrite (calWord i) (setFld x.1.word 31 0 (fld x.1.word 31 0 + v))

/-- A line counted by a running accumulation. (Log entry 189 DEDUCED.) -/
def Dev.calLine (d : Dev) (h : Nat) (l : StgLine) (dark : Nat) (x c : List Pix) : Dev :=
  if d.calState = 1 && d.chm.cal.1 = h && !l.lost && !l.part && !x.any (fun p => p = .bad) then
    let px := if d.chm.cal.2.1 = 1 then x else c
    let d := ((List.range px.length).zip px).foldl (fun d e => d.calAdd e.1 e.2.num) d
    let d := (d.calAdd 16384 dark).wrapF .chmCalStat 0 28 16 1
    if d.rdF .chmCalStat 0 28 16 = 2 ^ d.chm.cal.2.2 then (d.wrF .chmCalStat 0 1 0 2).raise 652 else d
  else d

/-- CAL_START (R251): HEAD must run, with a mode and a LOG2N of the table; ignored otherwise.
(Log entries 70 DEDUCED, 189 DEDUCED.) -/
def calStartOp (d : Dev) : Dev :=
  let h := d.rdF .chmCalCtl 0 5 0
  let mode := d.rdF .chmCalCtl 0 11 10
  let n := d.rdF .chmCalCtl 0 15 12
  if d.headRuns h && (mode = 1 || mode = 2) && 4 ≤ n && n ≤ 12 && d.calState ≠ 1 then
    let d := forUpTo 16385 (fun i d => d.sramWrite (calWord i) 0) d
    { d.wr .chmCalStat 0 1 with chm := { d.chm with cal := (h, mode, n) } }
  else d

/-! ### A line through Chamois -/

/-- CHAMOIS_LINE_END (R234–R247): the oldest started line, once it has ended, passes stages D to S and goes to its seams. -/
def Dev.chamoisLine (d : Dev) (h : Nat) : Dev :=
  match (d.head h).lines.find? (fun l => !l.done) with
  | some l =>
    if l.started && l.ended then
      let t := l.fire
      let cfg := d.rdAt .chmHdhCfg h t
      let dkw := d.rdAt .chmHdhDark h t
      let coef := d.rdAt .chmHdhCoef h t
      let out := d.rdAt .chmHdhOut h t
      let x := d.chmHead h
      let d := if x.fresh || l.exit ≠ x.exit then d.wr .chmHdhDarkNow h (wordOf (fld dkw 15 0)) else d
      let dark := d.rdF .chmHdhDarkNow h 15 0
      let width := l.width
      let r := d.linePixels l
      let g := r.2.stageG (fld coef 20 0) dark r.1
      let c := stageP g.1
      let outW := (d.lb h).outW
      let k := g.2.knots (fld coef 44 24) ((outW + 255) / 256 + 1)
      let ca := c.toArray
      let ka := k.1.toArray
      let y := (List.range outW).map (stageS width ca ka)
      let seen := (r.1.zip g.1).map (fun e => if e.2.1 = .bad then .bad else e.1)
      let d := k.2.wr .chmHdhDarkNow h (wordOf (darkNext cfg dkw dark seen))
      let d := d.calLine h l dark r.1 c
      let hd := d.head h
      let d := d.setHead h { hd with lines := hd.lines.map (fun m =>
        if m.line = l.line && !m.done && m.started then { m with done := true } else m) }
      let cl : ChmLine :=
        { src := l, y := y, base := fld out 23 0, outW := outW, raw := r.1, endedAt := d.now,
          short := if l.lost then List.range ((outW + 255) / 256)
            else (((List.range outW).filter (stageShort width r.1.toArray ka)).map (· / 256)).eraseDups,
          poison := blocksWith (fun p => p = .bad) y,
          leftOpen := (d.seamLeft h t).isSome, rightOpen := (d.seamRight h t).isSome }
      let x := d.chmHead h
      let d := d.setChm h { x with fresh := false, exit := l.exit, waiting := x.waiting ++ [cl], last := some l.line, count := x.count + 1 }
      d.settleSeams h
    else d
  | none => d

/-- SEAM_TIMEOUT (R245): SEAM_WAIT µs since the left line ended. (Log entry 71 DEDUCED.) -/
def seamTimeoutOp (h : Nat) (d : Dev) : Dev :=
  match (d.chmHead h).waiting with
  | c :: _ =>
    if c.rightOpen && fld (d.rdAt .chmHdhCfg h c.src.fire) 39 24 * 1000 ≤ elapsed d.now c.endedAt then
      ((d.putWaiting h { c with rightOpen := false }).seamMiss h).settleSeams h
    else d
  | [] => d

/-- CREDIT_RETURN (R155, R219, R245): the oldest line of head h, finished by Chamois and its seams, and the writes of its raw
tiles complete, which BAND_COMPLETE says. -/
def creditReturnOp (h : Nat) (d : Dev) : Dev :=
  let x := d.head h
  match x.lines with
  | l :: rest =>
    let busy := (d.chmHead h).waiting.any (fun c => c.src.line = l.line) ||
      (d.lb h).done.any (fun b => b.raw.contains l.line) ||
      (d.tpbr h ≠ 0 && (match (d.lb h).cur with | some b => b.lines.any (fun y => y.line = l.line) | none => false))
    if l.done && !busy then d.setHead h { x with lines := rest } else d
  | [] => d

/-! ### A head enters or leaves RUN -/

/-- Head h enters RUN: DARK_LINE and the background start afresh with its next line, and the stream begins (R237, R256); lines still
staged from before go first. -/
def Dev.enterRun (d : Dev) (h : Nat) : Dev :=
  let d := if d.drained h then d.setChm h { d.chmHead h with fresh := true } else d
  let d := if d.drained h && (d.lb h).exit = d.headExit h then d.markEntry h else d
  if d.cexMode h = 0 then d.setCexMode h 1 else d

/-- Head h leaves RUN: a running accumulation ends ABORTED, and its seams are given up (R245, R251). -/
def Dev.leaveRun (d : Dev) (h : Nat) : Dev :=
  let d := if d.calState = 1 && d.chm.cal.1 = h then (d.wrF .chmCalStat 0 1 0 3).raise 652 else d
  (d.settleSeams h).closeHead h

/-- What follows from the heads that changed between d0 and d. -/
def Dev.followHeads (d0 d : Dev) : Dev :=
  forUpTo 64 (fun h d =>
    if d0.headRuns h && !d.headRuns h then d.leaveRun h
    else if !d0.headRuns h && d.headRuns h then d.enterRun h
    else d) d

/-- CHAMOIS_LINE_END, and the end of a head that has stopped. -/
def chamoisLineEndOp (h : Nat) (d : Dev) : Dev := (d.chamoisLine h).closeHead h

end Sys2Proof.Machine
end

