-- ==== Sys2Proof/Machine/Query.lean ====
section
/-! DEFINITION. Region queries (R205–R214): checks, resolution, delivery and trailer; tile forwarding between devices
(R115–R119). -/

namespace Sys2Proof.Machine

/-- The fields of a region query descriptor (R205). -/
structure QDesc where
  kind : Nat
  range : Bool
  sel : Bool
  window : Bool
  wait : Bool
  clamp : Bool
  accept : Bool
  herd : Bool
  axis : Nat
  tag : Nat
  head : Nat
  dev : Nat
  start : Word
  stop : Word
  lat1 : Nat
  lat0 : Nat
  ref : Nat
  waitUs : Nat
  reserved : Bool
  deriving DecidableEq, Repr

/-- A descriptor's words read (R205). -/
def qdesc (ws : List Word) : QDesc :=
  let w (i : Nat) : Word := ws.getD i 0
  { kind := fld (w 0) 47 44, range := bit (w 0) 43, sel := bit (w 0) 42, window := bit (w 0) 41, wait := bit (w 0) 40,
    clamp := bit (w 0) 39, accept := bit (w 0) 38, herd := bit (w 0) 37, axis := fld (w 0) 33 32, tag := fld (w 0) 31 16,
    head := fld (w 0) 15 10, dev := fld (w 0) 9 0, start := w 1, stop := w 2, lat1 := fld (w 3) 47 24, lat0 := fld (w 3) 23 0,
    ref := fld (w 4) 11 0, waitUs := fld (w 5) 31 0,
    reserved := fld (w 0) 36 34 ≠ 0 || fld (w 4) 47 12 ≠ 0 || fld (w 5) 47 32 ≠ 0 }

/-- Pixels across head h in the plane a query reads. -/
def Dev.planeWidth (d : Dev) (kind h : Nat) : Nat := if kind = 1 then d.camWidth h else (d.lb h).outW

/-- OUT_BASE of head h. -/
def Dev.outBase (d : Dev) (h : Nat) : Nat := d.rdF .chmHdhOut h 23 0

/-- The entries of the lateral map whose coordinates meet a global range, with the meeting range, in ascending order (R207).
(Log entry 220 DEDUCED.) -/
def Dev.mapParts (d : Dev) (lat0 lat1 : Nat) : List (Word × Nat × Nat) :=
  ((mapRanges d.mapWords).filter (fun r => mapNamed r.1 && decide (r.2.1 ≤ lat1) && decide (lat0 ≤ r.2.2))).map
    (fun r => (r.1, max r.2.1 lat0, min r.2.2 lat1))

/-- Entries of the lateral map for one head become one range (R207). (Log entry 177 DEDUCED.) -/
def mergeParts (l : List (Nat × Nat × Nat × Nat)) : List (Nat × Nat × Nat × Nat) :=
  l.foldl (fun acc p =>
    if acc.any (fun e => e.1 = p.1 && e.2.1 = p.2.1) then
      acc.map (fun e => if e.1 = p.1 && e.2.1 = p.2.1 then (e.1, e.2.1, e.2.2.1, p.2.2.2) else e)
    else acc ++ [p]) []

/-- The heads a query selects: device, head, first and last lateral coordinate or column asked (R207).
(Log entry 177 DEDUCED.) -/
def Dev.qSelected (d : Dev) (q : QDesc) : List (Nat × Nat × Nat × Nat) :=
  if q.sel then mergeParts ((d.mapParts q.lat0 q.lat1).map (fun r => (mapDev r.1, fld r.1 37 32, r.2.1, r.2.2)))
  else [(q.dev, q.head, q.lat0, q.lat1)]

/-- Columns of a local head that hold a selected range: none where it holds no pixel of the head. -/
def Dev.qColumns (d : Dev) (q : QDesc) (h x0 x1 : Nat) : Option (Nat × Nat) :=
  let w := d.planeWidth q.kind h
  let b := if q.sel then d.outBase h else 0
  let c0 := x0 - b
  if x1 < b || w ≤ c0 then none else some (c0, min (x1 - b) (w - 1))

/-- R206, but for its last row: the refusal of a descriptor. -/
def Dev.qRefusal (d : Dev) (q : QDesc) : Option (Nat × Nat) :=
  let ref := q.kind = 2
  let sel := d.qSelected q
  let here := sel.filter (fun p => p.1 = d.devNum)
  let away := sel.filter (fun p => p.1 ≠ d.devNum)
  if q.reserved || 4 ≤ q.kind then some (0x12, 0)
  else if (if q.range then decide (q.stop.toNat < q.start.toNat) else strictlyPast q.start q.stop) then some (0x10, 1)
  else if q.lat1 < q.lat0 then some (0x10, 2)
  else if q.sel && q.kind ≠ 0 then some (0x10, 3)
  else if (ref && !q.range) || (q.kind = 3 && q.window) then some (0x10, 4)
  else if !d.domOn 22 || !d.rdB .tfbLbStat 0 0 then some (0x38, 0)
  else if ref then
    if d.refState q.ref = 1 then some (0x38, 1)
    else if 256 * d.refTpb q.ref ≤ q.lat0 then some (0x21, 4)
    else if d.refState q.ref ≠ 2 || d.refBands q.ref ≤ q.stop.toNat then some (0x21, 5)
    else none
  else if (!q.herd && away ≠ []) || here.any (fun p => !d.hasRing p.2.1 || (q.kind = 1 && d.tpbr p.2.1 = 0)) then
    some (0x21, 2)
  else if !q.range && here.any (fun p => d.headAxis p.2.1 ≠ q.axis) then some (0x21, 3)
  else if away = [] && here.all (fun p => (d.qColumns q p.2.1 p.2.2.1 p.2.2.2).isNone) then some (0x21, 4)
  else if away ≠ [] && (q.range || 1 < q.kind) then some (0x21, 6)
  else none

/-- A local part's band range (R208): the outcome of a directory check, HORIZON or SHORT met, and the range; `none` while it
waits for END. -/
structure PartRange where
  status : Nat := 0
  horizon : Option (Nat × P48) := none
  short : Bool := false
  s0 : Nat := 0
  s1 : Nat := 0
  /-- nothing is delivered of the part -/
  empty : Bool := false
  /-- FIRST_POS of the band START resolved to, where END could not be resolved (R212) -/
  missed : Option P48 := none
  deriving DecidableEq, Repr

/-- The bands from START to END of head h (R192, R208). -/
def Dev.partRange (d : Dev) (cls : Nat) (q : QDesc) (h : Nat) : PartRange × Dev :=
  let held := d.holds h
  let pos (p : Word) (d : Dev) : Nat × Held × Dev :=
    if q.range then
      (if (d.lb h).nextS = 0 then (0, .past, d)
       else if p.toNat < d.hznSeq h then (0, .behind, d)
       else if !held || d.newSeq h < p.toNat then (0, .past, d)
       else (0, .at p.toNat, d))
    else d.translate cls h p
  let a := pos q.start d
  if a.1 ≠ 0 then ({ status := a.1, empty := true }, a.2.2)
  else
    let b := pos q.stop a.2.2
    let d := b.2.2
    if b.1 ≠ 0 then
      let first : Option P48 := match a.2.1 with
        | .at s => some (d.bandFirst h s)
        | .behind => some (d.hznPos h)
        | .past => none
      ({ status := b.1, empty := true, missed := first }, d)
    else
      let hz : Option (Nat × P48) := match a.2.1 with
        | .behind => some (if q.clamp then 1 else 2, d.hznPos h)
        | _ => none
      let s0 := match a.2.1 with | .at s => s | .behind => d.hznSeq h | .past => d.newSeq h + 1
      let s1 := match b.2.1 with | .at s => s | .behind => 0 | .past => d.newSeq h
      let short := match b.2.1 with | .past => true | _ => false
      let gone := match b.2.1 with | .behind => true | _ => false
      let nothing := !held || gone || (hz.isSome && !q.clamp) || decide (s1 < s0)
      ({ horizon := hz, short := short, s0 := s0, s1 := s1, empty := nothing }, d)

/-- The heads of this device that a query reads. -/
def Dev.qLocal (d : Dev) (q : QDesc) : List Nat :=
  ((d.qSelected q).filter (fun p => p.1 = d.devNum && (d.qColumns q p.2.1 p.2.2.1 p.2.2.2).isSome)).map (fun p => p.2.1)

/-- A query selects heads of other devices. -/
def Dev.qAway (d : Dev) (q : QDesc) : Bool := (d.qSelected q).any (fun p => p.1 ≠ d.devNum)

/-- END is held on every local part (R208): NEW_END, of a band that is held, is at or past it. -/
def Dev.qEndHeld (d : Dev) (q : QDesc) : Bool :=
  (d.qLocal q).all (fun h =>
    d.holds h && (if q.range then decide (q.stop.toNat ≤ d.newSeq h) else atOrPast (d.newEnd h) q.stop))

/-- START of some local part is behind the horizon (R208). -/
def Dev.qStartBehind (d : Dev) (q : QDesc) : Bool :=
  (d.qLocal q).any (fun h =>
    (d.lb h).nextS ≠ 0 && (if q.range then decide (q.start.toNat < d.hznSeq h) else !atOrPast q.start (d.hznPos h)))

/-- The limit on tiles of a query: 256 for 6300h, 262,144 elsewhere (R206, R233). (Log entry 73 DEDUCED.) -/
def qLimit (src : QuerySrc) : Nat := if src = .dict then 256 else 262144

/-- Tile requests outstanding to all peers (R115), with those whose query has ended. -/
def Dev.tilesOut (d : Dev) : Nat :=
  (d.tfb.remote.filter (fun r => r.sent && r.ended.isNone)).length + d.tfb.orphans.length

/-- The tags of requests outstanding among those that a test picks. -/
def Dev.tagsOut (d : Dev) (test : RemoteReq → Bool) : List (BitVec 16) :=
  (d.tfb.remote.filter (fun r => test r && r.sent && r.ended.isNone)).map (fun r => r.req.tag)

/-- The requests of the queries that a test picks go; those outstanding still wait for their TILE_END (R115). -/
def Dev.dropRemote (d : Dev) (test : RemoteReq → Bool) : Dev :=
  { d with tfb := { d.tfb with remote := d.tfb.remote.filter (fun r => !test r),
                               orphans := d.tfb.orphans ++ d.tagsOut test } }

/-- A request of an ended query is outstanding no more. -/
def Dev.endOrphan (d : Dev) (tag : BitVec 16) : Dev :=
  { d with tfb := { d.tfb with orphans := d.tfb.orphans.erase tag } }

/-- Requests that wait are sent while fewer than 32 are outstanding; one that no link carries ends with LINK_DOWN (R112).
(Log entry 73 DEDUCED.) -/
def Dev.pumpTiles (d : Dev) : Dev :=
  d.tfb.remote.foldl (fun d r =>
    if r.sent || 32 ≤ d.tilesOut then d
    else
      let done (x : RemoteReq) (d : Dev) : Dev :=
        { d with tfb := { d.tfb with remote := d.tfb.remote.map (fun y => if y.req.tag = r.req.tag then x else y) } }
      match d.routeUp r.req.dest true with
      | some p => (done { r with sent := true } d).sendPort p (.tileReq r.req)
      | none => done { r with sent := true, ended := some (0x30, 0) } d) d

/-- The last position of a TILE_REQ from `first` for n column blocks (R116): the range of 4,096 tiles at most. Lines lie at least 16
ticks apart (R51), so the bands of 8 lines that meet a range of 128 × k ticks number at most k + 2. (Log entry 178 DEDUCED.) -/
def tileReqLast (first stop : P48) (n : Nat) : P48 :=
  let last := first + wordOf (128 * (4096 / n - 2) - 1)
  if strictlyPast stop last then last else stop

/-- A remote part's request joins the queue of requests. (Log entry 178 DEDUCED.) -/
def Dev.askTiles (d : Dev) (qid part dev h : Nat) (first stop : P48) (b0 b1 : Nat) : Dev :=
  let tag := d.tfb.nextTag % 65536
  let r : TileReq := { requester := d.devNum, dest := dev, tag := BitVec.ofNat 16 tag, head := Fin.ofNat 64 h,
                       first := first, last := tileReqLast first stop (b1 + 1 - b0), bcol := b0, ecol := b1 }
  { d with tfb := { d.tfb with
      nextTag := tag + 1, remote := d.tfb.remote ++ [{ query := qid, part := part, req := r, stop := stop }] } }

/-- Tiles of a local part, or bands for KIND directory (R206). -/
def partTiles (q : QDesc) (p : QueryPart) : Nat :=
  (p.s1 + 1 - p.s0) * (if q.kind = 3 then 1 else p.col1 / 256 + 1 - p.col0 / 256)

/-- Tiles of the local parts of a query. -/
def Dev.localTiles (d : Dev) (q : QDesc) (ps : List QueryPart) : Nat :=
  (ps.filter (fun p => p.dev = d.devNum)).foldl (fun n p => n + partTiles q p) 0

/-- The lateral coordinate that a part header names for column c of a local head (R210). -/
def Dev.partLat (d : Dev) (kind h c : Nat) : Nat := if kind = 0 then d.outBase h + c else c

/-- One selected head becomes a part (R207, R208): a local one with the outcomes of its resolution; a remote one, whose output
base no message gives, and, without WAIT, not whether END is past its newest band: free values. A check that fails ends the
resolution, unless R200 applies. (Log entry 178 DEDUCED.) -/
def Dev.resolvePart (d : Dev) (q : QDesc) (y : Query) (p : Nat × Nat × Nat × Nat) : Query × Dev :=
  if y.fail.isSome && !q.accept then (y, d)
  else if p.1 = d.devNum then
    match d.qColumns q p.2.1 p.2.2.1 p.2.2.2 with
    | none => (y, d)
    | some (c0, c1) =>
      let r := d.partRange y.cls q p.2.1
      let y := { y with horizon := y.horizon <|> r.1.horizon,
                        short := if r.1.short && y.short.isNone then some (if y.timedOut then 2 else 1) else y.short,
                        missed := y.missed <|> r.1.missed,
                        fail := if r.1.status ≠ 0 && y.fail.isNone then some (r.1.status % 256, r.1.status / 256) else y.fail }
      if r.1.empty then (y, r.2)
      else
        let part : QueryPart := { dev := d.devNum, head := p.2.1, col0 := c0, col1 := c1, s0 := r.1.s0, s1 := r.1.s1,
                                  lat := d.partLat q.kind p.2.1 c0 }
        ({ y with parts := y.parts ++ [part] }, r.2)
  else
    let f := if q.kind = 0 || !q.wait then d.free else (0, d)
    let b := f.1 % 2 ^ 24
    let short := if y.timedOut then some 2 else if !q.wait && (f.1 / 2 ^ 24) % 2 = 1 then some 1 else none
    let c0 := if q.sel then p.2.2.1 - b else p.2.2.1
    let c1 := if q.sel then p.2.2.2 - b else p.2.2.2
    let lat := if q.kind ≠ 0 then c0 else if q.sel then max p.2.2.1 b else b + c0
    let part : QueryPart := { dev := p.1, head := p.2.1, col0 := c0, col1 := c1, s0 := 0, s1 := 0, lat := lat }
    ({ y with parts := y.parts ++ [part], short := y.short <|> short }, f.2)

/-- The requests for a query's remote parts (R207, R208). (Log entry 178 DEDUCED.) -/
def Dev.askParts (d : Dev) (q : QDesc) (y : Query) : Dev :=
  (((List.range y.parts.length).zip y.parts).foldl (fun d (e : Nat × QueryPart) =>
    if e.2.dev = d.devNum then d
    else d.askTiles y.id e.1 e.2.dev e.2.head q.start q.stop (e.2.col0 / 256) (e.2.col1 / 256)) d).pumpTiles

/-- A query holds a claim on the first band of its first local part (R201). -/
def Dev.claimQuery (d : Dev) (y : Query) : Dev :=
  match y.parts.find? (fun p => p.dev = d.devNum) with
  | some p =>
    let claim : InnerClaim := { owner := .query y.id, head := p.head, s := p.s0 }
    { d with tfb := { d.tfb with inner := d.tfb.inner ++ [claim] } }
  | none => d

/-- A reference query's one part, or its refusal (R206, R208). -/
def Dev.resolveRef (d : Dev) (q : QDesc) (x : Query) : Query :=
  let c1 := min q.lat1 (256 * d.refTpb q.ref - 1)
  let p : QueryPart := { dev := d.devNum, head := q.ref, col0 := q.lat0, col1 := c1, s0 := q.start.toNat, s1 := q.stop.toNat,
                         lat := fld (d.refWord q.ref 2) 23 0 + q.lat0 }
  if qLimit x.src < partTiles q p then { x with refused := some (0x21, 1), resolved := true }
  else { x with parts := [p], resolved := true }

/-- A query's parts are resolved (R206–R208), at once where START is behind the horizon without CLAMP. Whether END is held on another
device only QUERY_END_HELD tells. The table tile of a reference is checked before its entry is judged (R198).
(Log entries 72 DESIGN CHOICE, 178 DEDUCED.) -/
def Dev.resolve (d : Dev) (x : Query) : Query × Dev :=
  let q := qdesc x.words
  let tab := if q.kind = 2 then d.checkRef x.cls q.ref else (0, d)
  let badTab : Query × Dev := ({ x with fail := some (tab.1 % 256, tab.1 / 256), resolved := true }, tab.2)
  match d.qRefusal q with
  | some r =>
    if tab.1 ≠ 0 && (r = (0x38, 1) || r.1 = 0x21) then badTab
    else ({ x with refused := some r, resolved := true }, d)
  | none =>
    if q.kind = 2 then (if tab.1 ≠ 0 then badTab else (tab.2.resolveRef q x, tab.2))
    else if q.wait && !x.timedOut && !(d.qEndHeld q && (x.endHeld || !d.qAway q)) && (q.clamp || !d.qStartBehind q) then
      ({ x with waiting := some (x.waiting.getD d.now) }, d)
    else
      let r := (d.qSelected q).foldl (fun (acc : Query × Dev) p => acc.2.resolvePart q acc.1 p)
        ({ x with resolved := true, waiting := none }, d)
      let y := r.1
      let d := r.2
      let stop := (match y.horizon with | some (2, _) => true | _ => false) || (y.fail.isSome && !q.accept)
      let gap := (y.parts.find? (fun p => p.dev = d.devNum)).map (fun p => d.bandFirst p.head p.s0)
      if stop then ({ y with parts := [], missed := gap <|> y.missed }, d)
      else if qLimit x.src < d.localTiles q y.parts then ({ y with refused := some (0x21, 1), parts := [] }, d)
      else (y, (d.claimQuery y).askParts q y)

/-! ### Delivery (R209–R213) -/

/-- What a query has delivered: words, parts, tiles or bands, first band delivered and first not delivered, and the outcomes. -/
structure QOut where
  words : List Word := []
  parts : Nat := 0
  tiles : Nat := 0
  /-- tiles of the local parts, and tiles of remote parts counted so far (R206) -/
  near : Nat := 0
  far : Nat := 0
  first : Option P48 := none
  missed : Option P48 := none
  horizon : Option (Nat × P48) := none
  fail : Option (Nat × Nat) := none
  stopped : Bool := false
  deriving DecidableEq, Repr

/-- A check's outcome, status + 256 × sub-code, noted: a HORIZON outcome or the first failure (R213). -/
def QOut.note (o : QOut) (st : Nat) (hzn : P48) : QOut :=
  if st = 0 then o
  else if st = 0x20 then (if o.horizon.isNone then { o with horizon := some (3, hzn) } else o)
  else if o.fail.isNone then { o with fail := some (st % 256, st / 256) } else o

/-- The 4-word header of a tile in TILE format (R209). -/
def tileHeader (dev h c kind s : Nat) (first : P48) (tag : BitVec 64) : List Word :=
  [setFld (setFld (setFld (setFld (setFld 0 39 30 dev) 29 24 h) 23 18 c) 17 16 kind) 15 0 (tag.toNat / 2 ^ 48),
   wordOf s, first, wordOf tag.toNat]

/-- Pixels of line slot l of a tile. -/
def tileLine (t : Tile) (l : Nat) : List Nat := (List.range 64).flatMap (fun j => wordPixels (t.word (64 * l + j)))

/-- Pixels packed four to a word (R177, R210). -/
def packPixels : List Nat → List Word
  | a :: b :: c :: e :: rest => wordOf (a + b * 2 ^ 12 + c * 2 ^ 24 + e * 2 ^ 36) :: packPixels rest
  | [a, b, c] => [wordOf (a + b * 2 ^ 12 + c * 2 ^ 24)]
  | [a, b] => [wordOf (a + b * 2 ^ 12)]
  | [a] => [wordOf a]
  | [] => []

/-- The rows of one band of a WINDOW (R210): columns col0 to col1 of the tiles from block b0. -/
def windowRows (ts : List Tile) (col0 col1 : Nat) : List Word :=
  let b0 := col0 / 256
  (List.range 8).flatMap (fun l =>
    let px := ts.flatMap (fun t => tileLine t l)
    packPixels ((px.drop (col0 - 256 * b0)).take (col1 + 1 - col0)))

/-- A tile that failed a check, counted by the mover that read it (R461, R472). -/
def Dev.countCheck (d : Dev) (st : Nat) : Dev := if st = 0 then d else d.satF .tmvErr 0 15 0 1

/-- One tile of a local part, in a band of a FIRST_POS, read for use by a mover. (Log entry 181 DEDUCED.) -/
def Dev.qTile (d : Dev) (cls : Nat) (q : QDesc) (p : QueryPart) (s : Nat) (first : P48) (c : Nat) : Nat × Tile × Dev :=
  if q.kind = 2 then
    let r := d.useTile d.readEngine cls (d.refTile q.ref s c) (pchkOf s c) (some (fld (d.refWord q.ref 0) 39 32)) false q.accept
    (r.1, r.2.1, r.2.2.countCheck r.1)
  else
    let h := p.head
    let tile := if q.kind = 1 then d.rawTile h s c else d.imgTile h s c
    let r := d.useTile d.readEngine cls tile (posPchk first c) (some (s / max 1 (d.nb h) % 256)) (decide (s < d.hznSeq h)) q.accept
    (r.1, r.2.1, r.2.2.countCheck r.1)

/-- A band that the horizon has overtaken since the query was resolved (R213). (Log entry 182 DEDUCED.) -/
def Dev.overtaken (d : Dev) (q : QDesc) (p : QueryPart) (s : Nat) : Bool := q.kind ≠ 2 && decide (s < d.hznSeq p.head)

/-- The outcome of one read noted: overtaken first, then the check that failed. -/
def QOut.noteRead (o : QOut) (behind : Bool) (st : Nat) (hzn : P48) : QOut :=
  (if behind then o.note 0x20 hzn else o).note st hzn

/-- One band of a KIND directory part delivered (R200, R211, R213): the words of a damaged directory tile read 0.
(Log entry 182 DEDUCED.) -/
def Dev.qEntry (d : Dev) (cls : Nat) (q : QDesc) (p : QueryPart) (s : Nat) (o : QOut) : QOut × Dev :=
  let h := p.head
  let behind := d.overtaken q p s
  let r := d.entryFor cls h s q.accept
  let e := r.2.1
  let o := o.noteRead behind r.1 (r.2.2.hznPos h)
  if (behind || r.1 ≠ 0) && !q.accept then ({ o with stopped := true, missed := some e.1 }, r.2.2)
  else
    ({ o with words := o.words ++ [wordOf s, e.1, e.2], tiles := o.tiles + 1, first := o.first <|> some e.1 }, r.2.2)

/-- One tile of a band delivered, or what stops the query at it: the output, the band's tiles, and the block (R209, R213).
(Log entry 182 DEDUCED.) -/
def Dev.qBlock (cls : Nat) (q : QDesc) (p : QueryPart) (s : Nat) (first : P48) (acc : QOut × List Tile × Dev) (c : Nat) :
    QOut × List Tile × Dev :=
  if acc.1.stopped then acc
  else
    let d := acc.2.2
    let behind := d.overtaken q p s
    let t := d.qTile cls q p s first c
    let o := acc.1.noteRead behind t.1 (d.hznPos p.head)
    if (behind || t.1 ≠ 0) && !q.accept then ({ o with stopped := true, missed := some first }, acc.2.1, t.2.2)
    else
      let h := if q.kind = 2 then fld (d.refWord q.ref 0) 45 40 else p.head
      let ws := if q.window then [] else tileHeader p.dev h c q.kind s first t.2.1.tag ++ t.2.1.allWords
      ({ o with words := o.words ++ ws, tiles := o.tiles + 1, first := o.first <|> some first },
       acc.2.1 ++ [t.2.1], t.2.2)

/-- FIRST_POS of a band of a local part, with the outcome of the checks of its directory tile (R190, R198); 0 for a reference. -/
def Dev.qFirst (d : Dev) (cls : Nat) (q : QDesc) (p : QueryPart) (s : Nat) : Nat × P48 × Dev :=
  if q.kind = 2 then (0, 0, d)
  else
    let e := d.entryFor cls p.head s q.accept
    (e.1, e.2.1.1, e.2.2.countCheck e.1)

/-- One band of a local part delivered (R209–R211, R213): a WINDOW withholds the rows of a band that a check stopped. -/
def Dev.qBand (d : Dev) (cls : Nat) (q : QDesc) (p : QueryPart) (s : Nat) (o : QOut) : QOut × Dev :=
  if o.stopped then (o, d)
  else if q.kind = 3 then d.qEntry cls q p s o
  else
    let blocks := (List.range (p.col1 / 256 + 1 - p.col0 / 256)).map (· + p.col0 / 256)
    let e := d.qFirst cls q p s
    let o := o.noteRead false e.1 (e.2.2.hznPos p.head)
    if e.1 ≠ 0 && !q.accept then ({ o with stopped := true, missed := some e.2.1 }, e.2.2)
    else
    let r := blocks.foldl (Dev.qBlock cls q p s e.2.1) (o, [], e.2.2)
    if !q.window then (r.1, r.2.2)
    else if r.1.stopped then ({ r.1 with tiles := o.tiles, first := o.first }, r.2.2)
    else ({ r.1 with words := r.1.words ++ windowRows r.2.1 p.col0 p.col1 }, r.2.2)

/-- The 4-word header of a WINDOW part (R210): device, head, first lateral coordinate, S and FIRST_POS of the first band, width
and bands. -/
def windowHeader (dev h lat s : Nat) (first : P48) (width bands : Nat) : List Word :=
  [setFld (setFld (setFld 0 39 30 dev) 29 24 h) 23 0 lat, wordOf s, first, setFld (setFld 0 47 24 width) 23 0 (8 * bands)]

/-- The header of a local part. -/
def Dev.partHeader (d : Dev) (cls : Nat) (q : QDesc) (p : QueryPart) : List Word :=
  let h := if q.kind = 2 then fld (d.refWord q.ref 0) 45 40 else p.head
  windowHeader p.dev h p.lat p.s0 (d.qFirst cls q p p.s0).2.1 (p.col1 + 1 - p.col0) (p.s1 + 1 - p.s0)

/-- A local part delivered: a WINDOW's header goes only before rows. -/
def Dev.qPart (d : Dev) (cls : Nat) (q : QDesc) (p : QueryPart) (o : QOut) : QOut × Dev :=
  let hdr := if q.window then d.partHeader cls q p else []
  let r := (List.range (p.s1 + 1 - p.s0)).foldl (fun (a : QOut × Dev) i => a.2.qBand cls q p (p.s0 + i) a.1)
    ({ o with words := o.words ++ hdr }, d)
  if r.1.tiles = o.tiles then ({ r.1 with words := o.words }, r.2) else ({ r.1 with parts := r.1.parts + 1 }, r.2)

/-- A tile that TILE_DATA brought, as a tile. -/
def tileOfData (t : TileData) : Tile := { words := sparseWords t.words, tag := t.velvet, sev := 0 }

/-- S of the bands of a remote part, which no message gives: free values, one for each (R209, R210). -/
def Dev.freeBands (d : Dev) (bands : List P48) : List (P48 × Nat) × Dev :=
  bands.foldl (fun (acc : List (P48 × Nat) × Dev) b =>
    let f := acc.2.free
    (acc.1 ++ [(b, f.1 % 2 ^ 48)], f.2)) ([], d)

/-- The bands of a remote part whose tiles have all come: as many as the first band brought, or as many as were asked for where
an only band ended early. (Log entry 178 DEDUCED.) -/
def wholeBands (p : QueryPart) (r : RemoteReq) : List P48 :=
  let bands := (r.tiles.map (·.pos)).eraseDups
  let n (b : P48) : Nat := (r.tiles.filter (fun t => t.pos = b)).length
  let ok := match r.ended with | some (0, _) => true | _ => false
  let full := if ok || 1 < bands.length then n (bands.headD 0) else p.col1 / 256 + 1 - p.col0 / 256
  bands.filter (fun b => n b = full)

/-- FIRST_POS of the first band of a remote part not delivered, where a message brought it: that of the first tile past the
limit, of the tile that failed its check here, or of the band left incomplete; or 0. -/
def remoteMissed (p : QueryPart) (r : RemoteReq) (room : Nat) : P48 :=
  match r.tiles[room]?, r.ended with
  | some t, _ => t.pos
  | none, some (0x19, e) => e
  | none, _ => (((r.tiles.map (·.pos)).eraseDups).find? (fun b => !(wholeBands p r).contains b)).getD 0

/-- The end of a remote part noted (R207, R208, R213): the HORIZON on which it was asked once more, or 03h where it was
overtaken; a status that stops the query, unless R200 applies. (Log entry 178 DEDUCED.) -/
def QOut.noteRemote (o : QOut) (q : QDesc) (r : RemoteReq) (missed : P48) : QOut :=
  let gap := o.missed <|> some missed
  let o := match r.again with
    | some e => if o.horizon.isNone then { o with horizon := some e } else o
    | none => o
  match r.ended with
  | some (0, _) => o
  | some (0x20, hz) => { o with horizon := o.horizon <|> some (3, hz), stopped := !q.accept, missed := gap }
  | some (st, _) => { o with fail := o.fail <|> some (st, 0), stopped := !q.accept, missed := gap }
  | none => o

/-- A remote part delivered, its bands told apart by position, in TILE or WINDOW format, up to the limit of R206.
(Log entry 178 DEDUCED.) -/
def Dev.qRemote (d : Dev) (limit : Nat) (q : QDesc) (p : QueryPart) (r : RemoteReq) (o : QOut) : QOut × Dev :=
  if o.stopped then (o, d)
  else
    let room := limit - o.near - o.far
    let ts := r.tiles.take room
    let cut := decide (room < r.tiles.length)
    let missed := remoteMissed p r room
    let ts := if q.window then ts.filter (fun t => (wholeBands p r).contains t.pos && (!cut || t.pos ≠ missed)) else ts
    let bands := (ts.map (·.pos)).eraseDups
    let f := d.freeBands bands
    let width := min (p.col1 + 1 - p.col0) (256 * (ts.filter (fun (t : TileData) => t.pos = bands.headD 0)).length - p.col0 % 256)
    let sOf (b : P48) : Nat := ((f.1.find? (fun e => e.1 = b)).map (·.2)).getD 0
    let body :=
      if ts = [] then []
      else if q.window then
        windowHeader p.dev p.head p.lat (sOf (bands.headD 0)) (bands.headD 0) width bands.length ++
          bands.flatMap (fun b => windowRows ((ts.filter (fun t => t.pos = b)).map tileOfData) p.col0 (p.col0 + width - 1))
      else ts.flatMap (fun t => tileHeader p.dev p.head t.col q.kind (sOf t.pos) t.pos t.velvet ++ t.words)
    let o := { o with words := o.words ++ body, tiles := o.tiles + ts.length, far := o.far + ts.length,
                      first := o.first <|> (ts.head?.map (fun (t : TileData) => t.pos)), parts := o.parts + (if ts = [] then 0 else 1) }
    (if cut then { o with fail := o.fail <|> some (0x21, 1), stopped := true, missed := some missed }
     else o.noteRemote q r missed, f.2)

/-- The 4-word trailer (R212). -/
def qTrailer (q : QDesc) (st sub parts tiles : Nat) (w2 w3 : Word) : List Word :=
  [setFld (setFld (setFld 0 47 40 st) 39 32 sub) 31 16 q.tag, setFld (setFld 0 39 32 parts) 31 0 tiles, w2, w3]

/-- The request of part i of query n. -/
def Dev.remoteOf (d : Dev) (n i : Nat) : Option RemoteReq := d.tfb.remote.find? (fun r => r.query = n && r.part = i)

/-- A remote part whose START was behind the responder's horizon without CLAMP: the horizon (R208). -/
def Dev.remoteBehind (d : Dev) (x : Query) : Option P48 :=
  (List.range x.parts.length).findSome? (fun i =>
    match d.remoteOf x.id i with
    | some r =>
      (match r.ended with
       | some (0x20, hz) => if r.tiles = [] && r.again.isNone then some hz else none
       | _ => none)
    | none => none)

/-- Every part of a query delivered in order. -/
def Dev.qParts (d : Dev) (q : QDesc) (x : Query) : QOut × Dev :=
  ((List.range x.parts.length).zip x.parts).foldl (fun (acc : QOut × Dev) ip =>
    if acc.1.stopped then acc
    else if ip.2.dev = acc.2.devNum then acc.2.qPart x.cls q ip.2 acc.1
    else
      match acc.2.remoteOf x.id ip.1 with
      | some r => acc.2.qRemote (qLimit x.src) q ip.2 r acc.1
      | none => acc) ({ near := d.localTiles q x.parts }, d)

/-- A resolved query delivered whole: its output with the trailer, its status and sub-code, and the block (R209–R213).
(Log entry 73 DEDUCED.) -/
def Dev.runQuery (d : Dev) (x : Query) : List Word × Nat × Nat × Dev :=
  let q := qdesc x.words
  match x.refused, d.remoteBehind x with
  | some (st, sub), _ => (qTrailer q st sub 0 0 0 0, st, sub, d)
  | none, some p => (qTrailer q 0x20 2 0 0 p 0, 0x20, 2, d)
  | none, none =>
    let r := d.qParts q x
    let o := r.1
    let hz := x.horizon <|> o.horizon
    let out := match hz, x.fail <|> o.fail, x.short with
      | some (sub, _), _, _ => (0x20, sub)
      | none, some f, _ => f
      | none, none, some sub => (1, sub)
      | none, none, none => (0, 0)
    let w2 := match hz with | some (_, p) => p | none => (o.missed <|> x.missed).getD 0
    (o.words ++ qTrailer q out.1 out.2 o.parts o.tiles w2 (o.first.getD 0), out.1, out.2, r.2)

/-! ### The queue of queries (R214) -/

/-- A query joins the queue. -/
def Dev.submitQuery (d : Dev) (src : QuerySrc) (cls : Nat) (ws : List Word) : Dev :=
  let n := d.tfb.nextQuery
  { d with tfb := { d.tfb with nextQuery := n + 1, queries := d.tfb.queries ++ [{ id := n, src := src, words := ws, cls := cls }] } }

/-- The query of a number. -/
def Dev.query (d : Dev) (n : Nat) : Option Query := d.tfb.queries.find? (fun q => q.id = n)

/-- A query replaced. -/
def Dev.putQuery (d : Dev) (x : Query) : Dev :=
  { d with tfb := { d.tfb with queries := d.tfb.queries.map (fun q => if q.id = x.id then x else q) } }

/-- The output of a query goes to SRAM through a write engine (R460): not where it goes to a host. -/
def Dev.queryWrites (d : Dev) (x : Query) : Bool :=
  match x.src with
  | .dict => true
  | .ring _ _ _ => false
  | .channel c => match (d.chan c).gather with | some { dest := some (.host _ _), .. } => false | _ => true

/-- A query in service is resolved, as far as it can be; its parts then ask the movers (R206–R208, R461). The words it is to move
count the tiles of its local parts. -/
def Dev.serve (d : Dev) (x : Query) : Dev :=
  let r := d.resolve x
  let d := r.2.putQuery r.1
  if r.1.resolved then d.askMover (.query x.id) (512 * max 1 (d.localTiles (qdesc x.words) r.1.parts)) (d.queryWrites x) else d

/-- A query leaves, with its claim, its requests and its engines. -/
def Dev.dropQuery (d : Dev) (n : Nat) : Dev :=
  let d := (d.dropRemote (fun r => decide (r.query = n))).leaveMover (.query n)
  { d with tfb := { d.tfb with queries := d.tfb.queries.filter (fun q => q.id ≠ n),
                               inner := d.tfb.inner.filter (fun c => c.owner ≠ .query n) } }

/-- QUERY_DEQUEUE (R214): the oldest queued query enters service while fewer than 64 are served, and is resolved. -/
def queryDequeueOp (d : Dev) : Dev :=
  if 64 ≤ (d.tfb.queries.filter (·.service)).length then d
  else
    match d.tfb.queries.find? (fun q => !q.service) with
    | some q =>
      d.serve { q with service := true }
    | none => d

/-- QUERY_END_HELD (R208): a waiting query goes on once END is held. -/
def queryEndHeldOp (n : Nat) (d : Dev) : Dev :=
  match d.query n with
  | some q =>
    if q.waiting.isSome && d.qEndHeld (qdesc q.words) then
      d.serve { q with endHeld := true }
    else d
  | none => d

/-- QUERY_WAIT_TIMEOUT (R208): WAIT_US has passed; what is held is delivered. -/
def queryWaitTimeoutOp (n : Nat) (d : Dev) : Dev :=
  match d.query n with
  | some q =>
    let us := (qdesc q.words).waitUs
    match q.waiting with
    | some t =>
      if us ≠ 0 && us * 1000 ≤ elapsed d.now t then
        d.serve { q with timedOut := true }
      else d
    | none => d
  | none => d

/-- A query is ready to end: resolved, and its remote parts ended. -/
def Dev.queryReady (d : Dev) (q : Query) : Bool :=
  q.resolved && (d.tfb.remote.filter (fun r => r.query = q.id)).all (fun r => r.ended.isSome)

/-! ### Tile forwarding (R115–R119) -/

/-- TILE_DATA (R119): checked against its tag and kept for the query, or the request ends with VELVET_MISMATCH.
(Log entry 178 DEDUCED.) -/
def tileDataOp (m : TileData) (d : Dev) : Dev :=
  if m.requester ≠ d.devNum then
    match d.routeUp m.requester true with | some p => d.sendPort p (.tileData m) | none => d
  else
    let good := decide ((crc32c (bytesOfWords m.words)).toNat = m.velvet.toNat / 2 ^ 32)
    let f (r : RemoteReq) : RemoteReq :=
      if r.req.tag = m.tag && r.ended.isNone then
        (if !good then { r with ended := some (0x19, m.pos) }
         else if r.tiles.any (fun t => t.pos = m.pos && t.col = m.col) then r
         else { r with tiles := r.tiles ++ [m] })
      else r
    let bad := !good && d.tfb.remote.any (fun r => r.req.tag = m.tag && r.sent && r.ended.isNone)
    { d with tfb := { d.tfb with remote := d.tfb.remote.map f,
                                 orphans := d.tfb.orphans ++ (if bad then [m.tag] else []) } }

/-- Tiles that the first band of a request brought: the column blocks served of each band. -/
def RemoteReq.blocks (r : RemoteReq) : Nat :=
  match r.tiles with
  | t :: _ => (r.tiles.filter (fun y => y.pos = t.pos)).length
  | [] => 0

/-- The next request of a part, from a position on (R116, R207). -/
def RemoteReq.from_ (r : RemoteReq) (first : P48) : RemoteReq :=
  { r with sent := false,
           req := { r.req with first := first, last := tileReqLast first r.stop (r.req.ecol + 1 - r.req.bcol) } }

/-- What a TILE_END makes of its request (R116, R118, R207, R208): the next one takes up the range behind the one asked for, or the
band after the last one that the responder could send, and a HORIZON under CLAMP is asked for once more from the horizon.
(Log entry 178 DEDUCED.) -/
def RemoteReq.close (r : RemoteReq) (m : TileEnd) (clamp : Bool) : RemoteReq :=
  let ends : RemoteReq := { r with ended := some (m.status.toNat, m.horizon) }
  if m.status = 0x20 && clamp && r.again.isNone then
    { r with again := some (if r.tiles = [] then 1 else 3, m.horizon) }.from_ m.horizon
  else if m.status ≠ 0 then ends
  else
    match r.tiles.getLast? with
    | some t =>
      if 4096 < m.count + r.blocks then r.from_ (t.pos + 1)
      else if strictlyPast r.stop r.req.last then r.from_ (r.req.last + 1) else ends
    | none => if strictlyPast r.stop r.req.last then r.from_ (r.req.last + 1) else ends

/-- TILE_END (R115, R118, R207, R208): the request ends or goes on. -/
def tileEndOp (m : TileEnd) (d : Dev) : Dev :=
  if m.requester ≠ d.devNum then
    match d.routeUp m.requester true with | some p => d.sendPort p (.tileEnd m) | none => d
  else
    let clamp (n : Nat) : Bool := match d.query n with | some q => (qdesc q.words).clamp | none => false
    let f (r : RemoteReq) : RemoteReq := if r.req.tag = m.tag && r.ended.isNone then r.close m (clamp r.query) else r
    (({ d with tfb := { d.tfb with remote := d.tfb.remote.map f } }).endOrphan m.tag).pumpTiles

/-- A tile request lost with a link (R112). -/
def Dev.tileReqLost (d : Dev) (tag : BitVec 16) : Dev :=
  let f (r : RemoteReq) : RemoteReq := if r.req.tag = tag && r.ended.isNone then { r with ended := some (0x30, 0) } else r
  ({ d with tfb := { d.tfb with remote := d.tfb.remote.map f } }).endOrphan tag

/-- A tile request that cannot go on ends with LINK_DOWN at its requester (R77, R112). (Log entry 170 DEDUCED.) -/
def Dev.tileLost (d : Dev) (m : TileReq) : Dev :=
  if m.requester = d.devNum then d.tileReqLost m.tag
  else
    match d.routeUp m.requester true with
    | some p => d.sendPort p (.tileEnd { requester := m.requester, tag := m.tag, count := 0, status := 0x30, horizon := 0 })
    | none => d

/-- The tiles of a request read and sent, up to the first that fails: how many, the outcome, the block (R117, R118).
(Log entry 178 DEDUCED.) -/
def Dev.serveTiles (d : Dev) (m : TileReq) (port : Nat) (s0 bands ncol : Nat) : Nat × Nat × Dev :=
  let h := m.head.val
  let q : QDesc := qdesc []
  let p : QueryPart := { dev := d.devNum, head := h, col0 := 0, col1 := 0, s0 := s0, s1 := s0 }
  ((List.range bands).flatMap (fun i => (List.range ncol).map (fun j => (s0 + i, m.bcol + j)))).foldl
    (fun (acc : Nat × Nat × Dev) e =>
      if acc.2.1 ≠ 0 then acc
      else
        let f := acc.2.2.qFirst 3 q p e.1
        let t := f.2.2.qTile 3 q p e.1 f.2.1 e.2
        if f.1 ≠ 0 then (acc.1, f.1, f.2.2)
        else if t.1 ≠ 0 then (acc.1, t.1, t.2.2)
        else
          let msg : TileData := { requester := m.requester, tag := m.tag, head := m.head, pos := f.2.1, col := e.2,
                                  velvet := t.2.1.tag, words := t.2.1.allWords }
          (acc.1 + 1, 0, t.2.2.sendPort port (.tileData msg))) (0, 0, d)

/-- TILE_REQ (R116–R118, R461, R472): the responder reads each image tile through a mover under the herd class, sends the good
ones and closes with TILE_END; whole bands, at most 4,096 tiles. (Log entries 170 DEDUCED, 178 DEDUCED.) -/
def tileReqOp (m : TileReq) (d : Dev) : Dev :=
  if m.dest ≠ d.devNum then
    match d.routeUp m.dest true with | some p => d.sendPort p (.tileReq m) | none => d.tileLost m
  else
    match d.routeUp m.requester true with
    | none => d
    | some port =>
      let h := m.head.val
      let finish (d : Dev) (n st : Nat) : Dev :=
        let e : TileEnd := { requester := m.requester, tag := m.tag, count := n, status := BitVec.ofNat 8 st,
                             horizon := if st = 0x20 then d.hznPos h else 0 }
        (d.wrapF .tmvDone 0 31 0 1).sendPort port (.tileEnd e)
      if !d.domOn 22 || !d.rdB .tfbLbStat 0 0 || !d.hasRing h || d.tpb h ≤ m.bcol || m.ecol < m.bcol then finish d 0 0x21
      else
        let r := d.partRange 3 { qdesc [] with start := m.first, stop := m.last } h
        let d := r.2
        if r.1.status ≠ 0 then finish d 0 r.1.status
        else if r.1.horizon.isSome then finish d 0 0x20
        else if r.1.empty then finish d 0 0
        else
          let ncol := min m.ecol (d.tpb h - 1) + 1 - m.bcol
          let d := d.borrowEngine
          let t := d.serveTiles m port r.1.s0 (min (r.1.s1 + 1 - r.1.s0) (4096 / ncol)) ncol
          finish t.2.2 t.1 t.2.1

end Sys2Proof.Machine
end

