-- ==== Sys2Proof/Machine/Look.lean ====
section
/-! DEFINITION. Look-back commands: full layouts (R183), references (R215–R218), retro jobs (R220–R226), coefficient memory
(R285), and the enabling of heads (R131–R133, R184, R242–R249). -/

namespace Sys2Proof.Machine

/-- The status and sub-code that a dictionary access answers. (Log entry 10 DESIGN CHOICE.) -/
def Dev.answer (d : Dev) (st sub : Nat) : Dev := { d with reply := (st, sub) }

/-! ### Retro jobs (R220–R226) -/

/-- Retro job slot j. -/
def Dev.job (d : Dev) (j : Nat) : RetroJob := tget d.cex.jobs {} j

/-- Retro job slot j replaced. -/
def Dev.setJob (d : Dev) (j : Nat) (x : RetroJob) : Dev :=
  { d with cex := { d.cex with jobs := tset d.cex.jobs j x } }

/-- Word i of a job's descriptor. -/
def RetroJob.word (x : RetroJob) (i : Nat) : Word := x.words.getD i 0

/-- The parameter set of a job: 1–8 for PSET 0–7. -/
def RetroJob.set (x : RetroJob) : Nat := fld (x.word 0) 47 45 + 1

/-- TAG of a job. -/
def RetroJob.tag (x : RetroJob) : Nat := fld (x.word 0) 31 16

/-- FOLLOW of a job. -/
def RetroJob.follow (x : RetroJob) : Bool := bit (x.word 0) 44

/-- The heads of this device that own coordinates in a lateral range (R221). -/
def Dev.retroHeads (d : Dev) (lat0 lat1 : Nat) : List Nat :=
  (((d.mapParts lat0 lat1).filter (fun r => mapDev r.1 = d.devNum)).map (fun r => fld r.1 37 32)).eraseDups

/-- Head h has a corrected pixel in a lateral range. -/
def Dev.outMeets (d : Dev) (lat0 lat1 h : Nat) : Bool :=
  decide (d.outBase h ≤ lat1) && decide (lat0 < d.outBase h + (d.lb h).outW)

/-- The refusal of a retro descriptor under the rows of R206 that apply (R221). -/
def Dev.retroRefusal (d : Dev) (ws : List Word) : Option (Nat × Nat) :=
  let w (i : Nat) : Word := ws.getD i 0
  let lat0 := fld (w 3) 23 0
  let lat1 := fld (w 3) 47 24
  let hs := d.retroHeads lat0 lat1
  if fld (w 0) 42 34 ≠ 0 || fld (w 0) 15 0 ≠ 0 || fld (w 4) 47 7 ≠ 0 || (w 5) ≠ 0 then some (0x12, 0)
  else if strictlyPast (w 1) (w 2) then some (0x10, 1)
  else if lat1 < lat0 then some (0x10, 2)
  else if !d.domOn 22 || !d.rdB .tfbLbStat 0 0 then some (0x38, 0)
  else if hs.any (fun h => !d.hasRing h) then some (0x21, 2)
  else if hs.any (fun h => d.headAxis h ≠ fld (w 0) 33 32) then some (0x21, 3)
  else if !hs.any (d.outMeets lat0 lat1) then some (0x21, 4)
  else none

/-- RETRO_SUBMIT (R221, R319): a descriptor queued in its slot, or refused; the status and sub-code. -/
def Dev.retroSubmit (d : Dev) (j : Nat) (ws : List Word) : Nat × Nat × Dev :=
  let st := (d.job j).st
  if st = .queued || st = .running then (0x38, 6, d)
  else
    match d.retroRefusal ws with
    | some r => (r.1, r.2, d)
    | none =>
      let n := d.cex.nextOrder
      let d := d.setJob j { st := .queued, words := ws, order := n }
      (0, 0, { d with cex := { d.cex with nextOrder := n + 1 } })

/-- The job that runs. -/
def Dev.runningJob (d : Dev) : Option Nat := (List.range 16).find? (fun j => (d.job j).st = .running)

/-- A queued job comes before another: PRIO 1 first, then the order of submission (R222). -/
def RetroJob.before (x y : RetroJob) : Bool :=
  let p (z : RetroJob) : Bool := bit (z.word 0) 43
  if p x = p y then decide (x.order < y.order) else p x

/-- The queued job that runs next. (Log entry 77 DEDUCED.) -/
def Dev.nextJob (d : Dev) : Option Nat :=
  (List.range 16).foldl (fun best j =>
    if (d.job j).st ≠ .queued then best
    else
      match best with
      | none => some j
      | some k => if (d.job j).before (d.job k) then some j else some k) none

/-- The claims of a job go. -/
def Dev.dropJobClaims (d : Dev) (j : Nat) : Dev :=
  { d with tfb := { d.tfb with inner := d.tfb.inner.filter (fun c =>
      match c.owner with
      | .retro k _ => k ≠ j
      | _ => true) } }

/-- A job completes with a status (R226, R318): its end waits behind its records, and RETRO_DONE is raised. -/
def Dev.endJob (d : Dev) (j st sub : Nat) : Dev :=
  let x := d.job j
  let e := (d.rdF .cexRqProd 0 12 0, st, sub, x.tag)
  let d := (d.setJob j { x with st := .done, status := st, sub := sub, todo := [], unstarted := [] }).dropJobClaims j
  ({ d with cex := { d.cex with jobEnds := d.cex.jobEnds ++ [e] } }).raise 648

/-- A job ends early (R226): its open pieces go without records. -/
def Dev.abortJob (d : Dev) (j : Nat) : Dev :=
  let d := { d with cex := { d.cex with pieces := d.cex.pieces.filter (fun (p : Piece) => p.job ≠ some j) } }
  (d.refreshPieces).endJob j 0x08 0

/-- RETRO_ABORT (R226): a queued or running job completes with ABORTED. -/
def retroAbortOp (j : Nat) (d : Dev) : Dev :=
  let st := (d.job j).st
  if st = .queued || st = .running then d.abortJob j else d

/-- The parameters a job copied for head h. -/
def RetroJob.paramsOf (x : RetroJob) (h : Nat) : Params :=
  let w (i : Nat) : Word := tget x.params 0 (4 * h + i)
  { w0 := w 0, w1 := w 1, w2 := w 2, w3 := w 3 }

/-- FIRST_POS of the band that holds a position of head h which its ring holds no more: the material position of line slot 0 of
that band. (Log entry 179 DEDUCED.) -/
def Dev.gridBand (d : Dev) (h : Nat) (pos : P48) : P48 :=
  let phase := d.rd .sprTgnPhase (d.headGen h)
  gridPoint phase (d.headPitch h) (8 * (gridIndex phase (d.headPitch h) pos).fdiv 8)

/-- Where START of a job lies on head h (R192, R223, R224): the first S to extract, none while no band holds it yet, and
whether it lies behind the horizon. -/
def Dev.jobStart (d : Dev) (x : RetroJob) (h : Nat) : Option Nat × Bool × Dev :=
  let a := d.translate 2 h (x.word 1)
  match a.2.1 with
  | .at s => (some s, false, a.2.2)
  | .behind => (some (d.hznSeq h), true, a.2.2)
  | .past => (none, false, a.2.2)

/-- Where END of a job lies on head h (R223): the last S, none for a FOLLOW job that waits for it; and whether it lies behind
the horizon. -/
def Dev.jobEnd (d : Dev) (x : RetroJob) (h : Nat) : Option Nat × Bool × Dev :=
  let b := d.translate 2 h (x.word 2)
  match b.2.1 with
  | .at s => (some s, false, b.2.2)
  | .behind => (none, true, b.2.2)
  | .past => (if x.follow then none else some (d.newSeq h), false, b.2.2)

/-- A range skipped from a position (R224). -/
def RetroJob.skip (x : RetroJob) (pos : P48) : RetroJob :=
  { x with skipStart := x.skipStart <|> some pos, skipping := true }

/-- The claim of a job on its current band of a head. -/
def Dev.setJobClaim (d : Dev) (j h : Nat) (s : Option Nat) : Dev :=
  let l := d.tfb.inner.filter (fun c => c.owner ≠ .retro j h)
  let l := match s with
    | some n => l ++ [{ owner := .retro j h, head := h, s := n }]
    | none => l
  { d with tfb := { d.tfb with inner := l } }

/-- Head h joins a starting or running job (R223, R224), its range resolved: nothing where it holds none of the range, a wait
where a FOLLOW job's START is still to come. (Log entries 77 DEDUCED, 179 DEDUCED.) -/
def Dev.joinJob (d : Dev) (j h : Nat) (x : RetroJob) : RetroJob × Dev :=
  let a := d.jobStart x h
  let b := a.2.2.jobEnd x h
  let d := b.2.2
  let x := { x with unstarted := x.unstarted.filter (fun k => k ≠ h) }
  if b.2.1 then (x.skip (d.gridBand h (x.word 1)), d)
  else
    match a.1 with
    | none => (if x.follow then { x with unstarted := x.unstarted ++ [h] } else x, d)
    | some s =>
      let x := if a.2.1 then x.skip (d.gridBand h (x.word 1)) else x
      let none_ := (!x.follow && !d.holds h) || (match b.1 with | some l => decide (l < s) | none => false)
      if none_ then (x, d) else ({ x with todo := x.todo ++ [(h, s, b.1)] }, d.setJobClaim j h (some s))

/-- RETRO_JOB_START (R222, R223): the next queued job starts when none runs: its set is copied, refused where R254 says,
and its range resolved on each head. (Log entry 77 DEDUCED.) -/
def Dev.startJob (d : Dev) : Dev :=
  if d.runningJob.isSome || !d.domOn 20 then d
  else
    match d.nextJob with
    | none => d
    | some j =>
      let x := d.job j
      let hs := d.retroHeads (fld (x.word 3) 23 0) (fld (x.word 3) 47 24)
      let word (h i : Nat) : Word := d.rd (match i with | 0 => .cexPsHdh0 | 1 => .cexPsHdh1 | 2 => .cexPsHdh2 | _ => .cexPsHdh3)
        (64 * x.set + h)
      let ps : Table Word := hs.foldl (fun t h => forUpTo 4 (fun i t => tset t (4 * h + i) (word h i)) t) []
      let x := { x with st := .running, params := ps }
      if hs.any (fun h => !paramsValid (x.paramsOf h) (fun r => decide (d.refState r = 2))) then
        (((d.setJob j x).wrB .cexStat 0 2 true).raise 650).endJob j 0x10 5
      else
        let r := hs.foldl (fun (acc : RetroJob × Dev) h => acc.2.joinJob j h acc.1) (x, d)
        r.2.setJob j r.1

/-- The entry of a job's heads whose current band comes first (R223). -/
def Dev.firstTodo (d : Dev) (ready : List (Nat × Nat × Option Nat)) : Option (Nat × Nat × Option Nat) :=
  ready.foldl (fun best t =>
    match best with
    | none => some t
    | some b => if strictlyPast (d.bandFirst b.1 b.2.1) (d.bandFirst t.1 t.2.1) then some t else some b) none

/-- No band of head h that a job still waits for can come before a position (R223): the band's FIRST_POS where it is known, else
what the head has completed. (Log entry 77 DEDUCED.) -/
def Dev.comesAfter (d : Dev) (h : Nat) (next : Option Nat) (pos : P48) : Bool :=
  let x := d.lb h
  let known := match next with
    | some s => x.done.any (fun b => b.s = s) || (match x.cur with | some b => decide (b.s = s) | none => false)
    | none => false
  if known then atOrPast (d.bandStart h (next.getD 0)) pos else d.holds h && atOrPast (d.newEnd h) pos

/-- The last S of an entry of a FOLLOW job's heads, once END is held: NEW_END is at or past it (R223); the band before the one still
to extract where END lies before that band, or behind the horizon. -/
def Dev.closeTodo (d : Dev) (x : RetroJob) (t : Nat × Nat × Option Nat) : (Nat × Nat × Option Nat) × Dev :=
  match t.2.2 with
  | some _ => (t, d)
  | none =>
    if d.holds t.1 && atOrPast (d.newEnd t.1) (x.word 2) then
      let r := d.translate 2 t.1 (x.word 2)
      match r.2.1 with
      | .at s => ((t.1, t.2.1, some s), r.2.2)
      | .behind => ((t.1, t.2.1, some 0), r.2.2)
      | .past => ((t.1, t.2.1, some (d.newSeq t.1)), r.2.2)
    else (t, d)

/-- Nothing of a job is left on head h: its claim goes, and PROGRESS covers the line after its last one (R262, R269). -/
def Dev.leaveJobHead (d : Dev) (j h : Nat) : Dev :=
  let x := d.job j
  let e := tget x.heads {} h
  let pos := e.lastPos + d.headPitch h
  let d := (d.setJob j { x with heads := tset x.heads h { e with lastPos := pos }, todo := x.todo.filter (fun y => y.1 ≠ h) }).setJobClaim j h none
  (d.sendProgress h x.set x.tag (some j) pos).refreshReady

/-- The open ends of the running job are closed where END is held, and heads on which nothing is left leave it (R223). -/
def Dev.closeEnds (d : Dev) (j : Nat) : Dev :=
  let x := d.job j
  let r := x.todo.foldl (fun (acc : List (Nat × Nat × Option Nat) × Dev) t =>
    let c := acc.2.closeTodo x t
    (acc.1 ++ [c.1], c.2)) ([], d)
  let d := r.2.setJob j { x with todo := r.1 }
  r.1.foldl (fun d t => match t.2.2 with
    | some l => if l < t.2.1 then d.leaveJobHead j t.1 else d
    | none => d) d

/-- Head h's open pieces of a job end (R256). -/
def Dev.endJobPieces (d : Dev) (j h : Nat) : Dev :=
  { d with cex := { d.cex with pieces := d.cex.pieces.map (fun (p : Piece) =>
    if p.job = some j && p.runs.any (fun r => r.head = h) then { p with closed := h :: p.closed } else p) } }

/-- One band of a running job (R223–R225): the claim lost, the job goes on from the horizon; else the band is extracted.
(Log entry 187 DEDUCED.) -/
def Dev.jobBand (d : Dev) (j : Nat) (t : Nat × Nat × Option Nat) : Dev :=
  let x := d.job j
  let h := t.1
  let s := t.2.1
  let lost := match d.tfb.inner.find? (fun c => c.owner = .retro j h) with
    | some c => if c.lost.isSome then some c.first else none
    | none => none
  let move (x : RetroJob) (n : Nat) : RetroJob :=
    let passed := match t.2.2 with | some l => decide (l < n) | none => false
    { x with todo := if passed then x.todo.filter (fun y => y.1 ≠ h)
             else x.todo.map (fun y => if y.1 = h then (h, n, t.2.2) else y) }
  let claim (d : Dev) (x : RetroJob) (n : Nat) : Dev :=
    d.setJobClaim j h (if x.todo.any (fun y => y.1 = h) then some n else none)
  match lost with
  | some first =>
    let n := d.hznSeq h
    let e := tget x.heads {} h
    let x := move { x.skip first with heads := tset x.heads h { e with restart := true } } n
    claim ((d.endJobPieces j h).setJob j x) x n
  | none =>
    let r := (d.checkMap (some j) h).readBand 2 h s
    let epoch := (d.lb h).epochs.contains s
    let d := if epoch then r.2.2.2.2.endJobPieces j h else r.2.2.2.2
    let ls := d.heldExtLines h s r.1 r.2.1 (fun _ => x.paramsOf h)
    let e0 := tget (d.job j).heads {} h
    let e := d.extractBand h x.set x.tag (some j) { e0 with restart := e0.restart || epoch } r.2.2.1 ls
    let d := e.2
    let x := d.job j
    let x := if x.skipping && ls ≠ [] then { x with skipping := false, skipEnd := some r.1.1 } else x
    let x := move { x with heads := tset x.heads h e.1, progress := (ls.getLast?.map (·.pos)).getD x.progress,
                           bad := (x.bad ++ r.2.2.2.1).eraseDups } (s + 1)
    let ends := x.todo.all (fun y => y.1 ≠ h)
    let x := if ends then
        { x with heads := tset x.heads h { e.1 with lastPos := e.1.lastPos + d.headPitch h } } else x
    let d := claim (d.setJob j x) x (s + 1)
    (d.sendProgress h x.set x.tag (some j) (tget x.heads {} h).lastPos).refreshReady

/-- Heads whose START has come join the running job (R223). -/
def Dev.joinLate (d : Dev) (j : Nat) : Dev :=
  let x := d.job j
  let r := (x.unstarted.filter (fun h => d.holds h && atOrPast (d.newEnd h) (x.word 1))).foldl
    (fun (acc : RetroJob × Dev) h => acc.2.joinJob j h acc.1) (x, d)
  r.2.setJob j r.1

/-- The next band of the running job: the first by FIRST_POS of those held, where no band still to come can be before it
(R223). (Log entry 77 DEDUCED.) -/
def Dev.nextBand (d : Dev) (x : RetroJob) : Option (Nat × Nat × Option Nat) :=
  let held (t : Nat × Nat × Option Nat) : Bool := d.holds t.1 && decide (t.2.1 ≤ d.newSeq t.1)
  let waits := (x.todo.filter (fun t => !held t)).map (fun t => (t.1, some t.2.1)) ++ x.unstarted.map (fun h => (h, none))
  (d.firstTodo (x.todo.filter held)).filter (fun t => waits.all (fun w => d.comesAfter w.1 w.2 (d.bandFirst t.1 t.2.1)))

/-- Bands of the running job, n at most, while the retro queue has room (R277). -/
def Dev.pumpRetro : Nat → Dev → Dev
  | 0, d => d
  | n + 1, d =>
    match d.runningJob with
    | none => d
    | some j =>
      if d.retroStalls || !d.domOn 20 then d
      else
        let d := (d.joinLate j).closeEnds j
        let lost (t : Nat × Nat × Option Nat) : Bool :=
          d.tfb.inner.any (fun c => c.owner = .retro j t.1 && c.lost.isSome)
        match (d.job j).todo.find? lost <|> d.nextBand (d.job j) with
        | some t => pumpRetro n (d.jobBand j t)
        | none => d

/-- The bands a running job may still extract. -/
def Dev.retroLeft (d : Dev) : Nat :=
  match d.runningJob with
  | some j =>
    (d.job j).todo.foldl (fun n t => n + (d.newSeq t.1 + 3 - t.2.1))
      ((d.job j).unstarted.foldl (fun n h => n + d.newSeq h + 3) 1)
  | none => 0

/-- Held retro records are written as far as there is room (R277), and the running job goes as far as it can.
(Log entry 77 DEDUCED.) -/
def Dev.runRetro (d : Dev) : Dev :=
  let d := Dev.flushRetro d.cex.heldRetro.length d
  Dev.pumpRetro d.retroLeft d

/-- RETRO_JOB_START. -/
def retroJobStartOp (d : Dev) : Dev := d.startJob.runRetro

/-- The status of a finished job (R226). -/
def RetroJob.outcome (x : RetroJob) : Nat :=
  if x.skipStart.isSome then 0x20
  else if x.bad.any (fun o => o % 256 = 0x1A) then 0x1A
  else if x.bad.contains 0x19 then 0x19
  else if x.bad.contains 0x18 then 0x18
  else 0

/-- RETRO_JOB_COMPLETE (R226, R318): the running job, once its range is extracted and every piece of it has left with its
record. -/
def retroJobCompleteOp (d : Dev) : Dev :=
  let d := d.runRetro
  match d.runningJob with
  | none => d
  | some j =>
    if (d.job j).todo ≠ [] || (d.job j).unstarted ≠ [] then d
    else
      let d := (d.cex.pieces.filter (fun (p : Piece) => p.job = some j)).foldl (fun d p => pieceReleaseOp p.num d) d
      if d.cex.pieces.any (fun (p : Piece) => p.job = some j) || d.cex.heldRetro ≠ [] then d else d.endJob j (d.job j).outcome 0

/-- BAND_COMPLETE: the band's entry is written (R187), the directory tile too where the head has left RUN (R190), and a FOLLOW
job goes on (R223). -/
def bandCompleteOp (h : Nat) (d : Dev) : Dev := (d.completeBand h).runRetro

/-! ### Full layout (R183) -/

/-- A query in service at a full layout ends with HORIZON, sub-code 04h (R213). (Log entry 76 DEDUCED.) -/
def Dev.layoutQuery (d : Dev) (q : Query) : Query :=
  if q.service then
    let p := match q.parts.find? (fun p => p.dev = d.devNum) with
      | some p => d.hznPos p.head
      | none => 0
    { q with resolved := true, waiting := none, parts := [], horizon := q.horizon <|> some (4, p) }
  else q

/-- FULL_LAYOUT (R182, R183, R213, R226, R280): open bands go to extraction, queries in service and the running retro job
end, and every ring starts anew. (Log entries 62 DEDUCED, 76 DEDUCED.) -/
def Dev.fullLayout (d : Dev) : Dev :=
  if !d.domOn 22 then d
  else
    let d := forUpTo 64 (fun h d => if d.cexMode h = 1 && (d.lb h).cur.isSome then d.finishBand h else d) d
    let qs := d.tfb.queries.map d.layoutQuery
    let served := (d.tfb.queries.filter (·.service)).map (·.id)
    let d := { d with tfb := { d.tfb with
      queries := qs, inner := d.tfb.inner.filter (fun c => match c.owner with | .query _ => false | _ => true) } }
    let d := d.dropRemote (fun r => served.contains r.query)
    let d := match d.runningJob with
      | some j => d.abortJob j
      | none => d
    let old := d
    let d := forUpTo 64 (fun h d => d.catchupLayout h ((old.formedEnd h).getD 0) (old.nextCatchup h) (old.catchupDue h)) d.layoutRings
    forUpTo 64 (fun h d => (if d.cexMode h = 1 then d.wr .cexHdhExtSeq h 0 else d).relayEntries h) d

/-- FULL_LAYOUT. (Log entry 76 DEDUCED.) -/
def fullLayoutOp (d : Dev) : Dev := d.fullLayout

/-- RELAYOUT written 1 (R183, R232): stop-required. (Log entry 76 DEDUCED.) -/
def relayoutOp (d : Dev) : Dev := if d.anyRunning then d.wrB .tfbLbStat 0 1 true else d.fullLayout

/-! ### References (R215–R218) -/

/-- A running query, a running retro job or a parameter set reads reference r (R218). -/
def Dev.refInUse (d : Dev) (r : Nat) : Bool :=
  let names (w0 : Word) : Bool := bit w0 28 && fld w0 40 29 = r
  d.tfb.queries.any (fun q => q.service && (qdesc q.words).kind = 2 && (qdesc q.words).ref = r) ||
    (List.range 16).any (fun j => (d.job j).st = .running &&
      (List.range 64).any (fun h => names (tget (d.job j).params 0 (4 * h)))) ||
    (List.range 576).any (fun i => names (d.rd .cexPsHdh0 i))

/-- Tile range of reference r overlaps tiles b to b + n − 1. -/
def Dev.refMeets (d : Dev) (r b n : Nat) : Bool :=
  let rb := fld (d.refWord r 0) 31 0
  decide (rb < b + n) && decide (b < rb + d.refBands r * d.refTpb r)

/-- Tiles of the reference table read for use: the first failing check's outcome as status + 256 × sub-code (R196, R198).
(Log entry 181 DEDUCED.) -/
def Dev.checkRefs (d : Dev) (tables : List Nat) : Nat × Dev :=
  if !d.rdB .tfbLbStat 0 0 then (0, d)
  else tables.foldl (fun (acc : Nat × Dev) q => if acc.1 ≠ 0 then acc else acc.2.checkRef 5 (128 * q)) (0, d)

/-- The table tiles that an access of the reference table needs are read for use: the first failing check's outcome is the answer. -/
def Dev.withRefs (d : Dev) (tables : List Nat) (f : Dev → Dev) : Dev :=
  let r := d.checkRefs tables
  if r.1 ≠ 0 then r.2.answer (r.1 % 256) (r.1 / 256) else f r.2

/-- REF_DEFINE (R216, R218). (Log entry 183 DEDUCED.) -/
def refDefineOp (r : Nat) (ws : List Word) (d : Dev) : Dev :=
  let w (i : Nat) : Word := ws.getD i 0
  let base := fld (w 0) 31 0
  let tpb := fld (w 1) 39 32
  let n := fld (w 1) 31 0
  if !d.domOn 22 then d.answer 0x38 0
  else if 4096 ≤ r || tpb = 0 || 64 < tpb || n = 0 || base < 32 || (d.rd .tfbLbRefTiles).toNat < base + n * tpb then
    d.answer 0x21 0
  else if d.refInUse r then d.answer 0x38 0
  else d.withRefs (List.range 32) fun d =>
    if (List.range 4096).any (fun k => d.refState k ≠ 0 && d.refMeets k base (n * tpb)) then d.answer 0x21 0
    else
    let gen := fld (d.refWord r 0) 39 32 + 1
    let w0 := setFld (setFld (setFld (setFld 0 47 46 1) 45 40 (fld (w 0) 45 40)) 39 32 gen) 31 0 base
    let d := d.putRef r [w0, setFld (w 1) 47 40 0, setFld (w 2) 47 24 0, w 3]
    ({ d with tfb := { d.tfb with refTiles := tset d.tfb.refTiles r [] } }).answer 0 0

/-- Reference r's entry with a STATE. -/
def Dev.setRefState (d : Dev) (r st : Nat) : Dev :=
  d.putRef r [setFld (d.refWord r 0) 47 46 st, d.refWord r 1, d.refWord r 2, d.refWord r 3]

/-- REF_SEAL (R217, R218): VALID once every tile has been written since the define, else SHORT.
(Log entries 74 DEDUCED, 183 DEDUCED.) -/
def refSealOp (r : Nat) (d : Dev) : Dev :=
  if 4096 ≤ r then d.answer 0x21 0
  else if d.refInUse r then d.answer 0x38 0
  else d.withRefs [r / 128] fun d =>
    if d.refState r ≠ 1 then d.answer 0x38 0
    else if (tget d.tfb.refTiles [] r).length < d.refBands r * d.refTpb r then d.answer 0x01 0
    else (d.setRefState r 2).answer 0 0

/-- REF_DELETE (R218). (Log entry 183 DEDUCED.) -/
def refDeleteOp (r : Nat) (d : Dev) : Dev :=
  if 4096 ≤ r then d.answer 0x21 0
  else if d.refInUse r then d.answer 0x38 0
  else d.withRefs [r / 128] fun d => (d.setRefState r 0).answer 0 0

/-- The LOADING reference that holds tile q. -/
def Dev.loadingRef (d : Dev) (q : Nat) : Option Nat :=
  (List.range 4096).find? (fun r => d.refState r = 1 && d.refMeets r q 1)

/-- A whole-tile write by a TMV write engine to a reference that is LOADING (R217): the outcome of a write that fails as status +
256 × sub-code (R412), and the block. (Log entry 74 DEDUCED.) -/
def Dev.refWrite (d : Dev) (cls q : Nat) (ws : List Word) (poisoned : Bool) : Nat × Dev :=
  match d.loadingRef q with
  | none => (0x810, d)
  | some r =>
    let tab := d.checkRef cls r
    if tab.1 ≠ 0 then tab
    else
    let d := tab.2
    let off := q - fld (d.refWord r 0) 31 0
    let tpb := d.refTpb r
    let flags := flagCorrected + flagReference + (if poisoned then 1 else 0)
    let tag := velvetTag ws (pchkOf (off / tpb) (off % tpb)) (fld (d.refWord r 0) 39 32) flags
    let w := d.writeTile d.writeEngine cls (d.placeOf q) ws tag
    let d := w.2
    let seen := tget d.tfb.refTiles [] r
    if w.1 ≠ 0 then w
    else (0, { d with tfb := { d.tfb with refTiles := tset d.tfb.refTiles r (if seen.contains off then seen else off :: seen) } })

/-! ### Coefficient memory (R285) -/

/-- COEF_WRITE: words from an offset of coefficient memory, or refused whole past its end. -/
def coefWriteOp (off : Nat) (ws : List Word) (d : Dev) : Dev :=
  if 1398784 < off + ws.length then d.answer 0x21 0 else (d.sramWrites (0x800000 + off) ws).answer 0 0

/-! ### Enabling a head -/

/-- CFG_ERR of Chamois for head h (R243, R248). -/
def Dev.chmCfgErr (d : Dev) (h : Nat) : Dev := (d.wrB .chmHdhCfg h 0 true).raise 650

/-- R243 for an output register of head h. -/
def outValid (w : Word) : Bool :=
  let n := fld w 38 24
  decide (16 ≤ n) && decide (n ≤ 16384) && decide (fld w 23 0 + n ≤ 0x1000000)

/-- R249: the coefficient and knot ranges of head h lie in its half. -/
def Dev.coefFits (d : Dev) (h : Nat) (coef out : Word) : Bool :=
  let lo := if h < 32 then 0 else 699392
  let hi := lo + 699392
  let cb := fld coef 20 0
  let mb := fld coef 44 24
  decide (lo ≤ cb) && decide (cb + d.camWidth h ≤ hi) && decide (lo ≤ mb) &&
    decide (mb + (fld out 38 24 + 255) / 256 + 1 ≤ hi)

/-- Chamois accepts head h (R243, R249). -/
def Dev.chmValid (d : Dev) (h : Nat) : Bool :=
  outValid (d.rd .chmHdhOut h) && d.coefFits h (d.rd .chmHdhCoef h) (d.rd .chmHdhOut h)

/-- R244 for head h as its settings stand. (Log entry 188 DEDUCED.) -/
def Dev.seamValid (d : Dev) (h : Nat) : Bool :=
  let r := d.rdF .chmHdhCfg h 18 13
  let ob (k : Nat) : Nat := d.rdF .chmHdhOut k 23 0
  let sw := ob h + d.rdF .chmHdhOut h 38 24 - ob r
  let others := (List.range 64).any (fun k => k ≠ h && d.rdB .chmHdhCfg k 19 && d.rdF .chmHdhCfg k 18 13 = r)
  let g := d.headGen h
  let e := d.headGen r
  r ≠ h && !others && d.genAxis g = d.genAxis e && d.rd .sprTgnPitch g = d.rd .sprTgnPitch e &&
    d.rd .sprTgnPhase g = d.rd .sprTgnPhase e && decide (ob h < ob r) && decide (1 ≤ sw) && decide (sw ≤ 256)

/-- Seams of head h refused where R244 fails. (Log entry 188 DEDUCED.) -/
def Dev.checkSeam (d : Dev) (h : Nat) : Dev :=
  if d.rdB .chmHdhCfg h 19 && !d.seamValid h then (d.wrB .chmHdhCfg h 19 false).chmCfgErr h else d

/-- A head, valid under R131, R243 and R249, goes to LINKING, or to FENCED where its link group is off (R133, R184).
(Log entry 188 DEDUCED.) -/
def Dev.enableHead (d : Dev) (h : Nat) : Dev :=
  let ps := d.planes h
  let bad := ps.filter (fun p => !d.chmValid p)
  if !d.headValid h then d.headCfgErr h
  else if bad ≠ [] then bad.foldl (fun d p => d.chmCfgErr p) d
  else
    let d := d.wrB .cxiHdhCfg h 0 true
    let d := (ps.drop 1).foldl (fun d p => (d.setHead p { d.head p with plane := some h }).setHeadState p .plane)
      (d.setHead h { d.head h with plane := none })
    let d := ps.foldl (fun d p => (d.checkSeam p).lateRing p) d
    let d := ps.foldl (fun d p => d.setHead p { d.head p with nextSlot := 0 }) d
    let d := d.refreshStgFree
    if d.domOn (5 + d.headGroup h) then d.startLinking h else (d.setHeadCause h 6).setHeadState h .fenced

/-- A head's EN falls: it and its planes go OFF (R133). -/
def Dev.disableHead (d : Dev) (h : Nat) : Dev :=
  let ps := d.planes h
  let ls := d.headLinks h
  let d := d.setHeadState h .off
  let d := (ps.drop 1).foldl (fun d p => d.setHeadState p .off) d
  let d := d.wrB .cxiHdhCfg h 0 false
  let d := ls.foldl (fun d l => if d.linkState l = 1 then d.setLinkState l 0 else d) d
  d.refreshStgFree

/-- HEAD_ENABLE: EN of head h written (R131–R133). -/
def Dev.headEnable (d : Dev) (h : Nat) (en : Bool) : Dev :=
  if d.headEn h = en then d
  else Dev.followHeads d (if en then d.enableHead h else d.disableHead h)

/-- HEAD_ENABLE. -/
def headEnableOp (h : Nat) (en : Bool) (d : Dev) : Dev := d.headEnable h en

end Sys2Proof.Machine
end

