-- ==== Sys2Proof/Machine/Proc.lean ====
section
/-! DEFINITION. Processor contexts (R341, R344): their numbers, general registers in two banks, and program counters. -/

namespace Sys2Proof.Machine

/-- The number SELF gives (R374). -/
def ctxNum : Ctx → Nat
  | .channel c => c.val
  | .core k => 1024 + k.val
  | .goatherd => 1028

/-- The context of a number. -/
def Dev.proc (d : Dev) (n : Nat) : Proc := tget d.procs {} n

/-- The context of a number replaced. -/
def Dev.setProc (d : Dev) (n : Nat) (p : Proc) : Dev := { d with procs := tset d.procs n p }

/-- Register i of a bank; w0 reads as zero (R344). -/
def Proc.reg (p : Proc) (fast : Bool) (i : Nat) : Word := if i = 0 then 0 else tget (if fast then p.alt else p.w) 0 i

/-- Register i of a bank written; a write to w0 is discarded (R344). -/
def Proc.setReg (p : Proc) (fast : Bool) (i : Nat) (v : Word) : Proc :=
  if i = 0 then p
  else if fast then { p with alt := tset p.alt i v }
  else { p with w := tset p.w i v }

/-- The program area (R287). (Log entry 93 DEDUCED.) -/
def inProgram (a n : Nat) : Bool := decide (0x6AA800 ≤ a) && decide (a + n ≤ 0x7A1000)

/-- A nanosecond passes with PD17 on or not (R23). (Log entry 91 DEDUCED.) -/
def GhdState.passed (g : GhdState) (on : Bool) : GhdState :=
  { g with up := g.up + 1, stopped := if on then g.stopped else g.stopped + 1 }

/-- The ns that the clocks of PD17 have run since supplies good. -/
def Dev.ctlUp (d : Dev) : Nat := d.ghd.up - d.ghd.stopped

end Sys2Proof.Machine
end

