-- ==== Sys2Proof/Machine/Chan.lean ====
section
/-! DEFINITION. Channels (07_channels.md): states, the status word, ownership, starting and completing commands, transfers and
their gathers, and what suspends, resumes, halts, stops and restores a channel (R286–R301, R305–R308, R312–R315, R322,
R324–R331, R336, R467, R468). -/

namespace Sys2Proof.Machine

/-! ### A channel and its parts -/

/-- STATE of a channel: 0 IDLE, 1 RUNNING, 2 WAITING, 3 SUSPENDED, 4 HALTED (R330). -/
def Dev.chState (d : Dev) (c : Nat) : Nat := d.rdF .ibxChcStat c 2 0

/-- REASON of a channel (R330). -/
def Dev.chReason (d : Dev) (c : Nat) : Nat := d.rdF .ibxChcStat c 6 3

/-- STATE and REASON set. -/
def Dev.setChState (d : Dev) (c st reason : Nat) : Dev := (d.wrF .ibxChcStat c 2 0 st).wrF .ibxChcStat c 6 3 reason

/-- The power domain of a channel's cluster is on (R286). -/
def Dev.chOn (d : Dev) (c : Nat) : Bool := d.domOn (13 + c / 128)

/-- A channel takes the next word: RUNNING in a cluster that is on. (Log entry 208 DEDUCED.) -/
def Dev.chRuns (d : Dev) (c : Nat) : Bool := d.chOn c && d.chState c = 1

/-- CLASS of a channel (R315). -/
def Dev.chClass (d : Dev) (c : Nat) : Nat := d.rdF .ibxChcCfg c 28 24

/-- The opcode of the word stored at an address. -/
def Dev.opAt (d : Dev) (a : Word) : Nat := fld (d.cell a.toNat).data 47 40

/-! ### The status word (R330, R331) -/

/-- What a posting of the status word says of its cause: the sticky flag's bit and the event source (R331, R338, R339). -/
inductive CswKind where
  | note | susp | ended | halted
  deriving DecidableEq, Repr

/-- The bit of IBX_CHc_STAT that a posting sets. -/
def CswKind.flag : CswKind → Nat
  | .note => 8 | .susp => 9 | .ended => 10 | .halted => 11

/-- The event source of a posting. -/
def CswKind.source : CswKind → Nat
  | .note => 664 | .susp => 663 | .ended => 661 | .halted => 662

/-- The status word posted (R330, R331). `ring` is the ring for RING_FULL, as 64 × function + ring. (Log entry 97 DEDUCED.) -/
def Dev.postCsw (d : Dev) (c : Nat) (k : CswKind) (st sub resid op : Nat) (addr : Word) (ring : Nat := 0) : Dev :=
  let w := setFld 0 47 40 st
  let w := setFld w 39 32 sub
  let w := setFld w 31 20 resid
  let w := setFld w 19 17 (d.chState c)
  let w := setFld w 16 13 (d.chReason c)
  let w := setBit w 12 (k = .note)
  let w := setBit w 11 (k = .ended)
  let w := setFld w 7 0 op
  let d := d.wr .ibxChcCsw0 c w
  let d := d.wr .ibxChcCsw1 c (setFld (setFld 0 47 41 ring) 39 0 addr.toNat)
  let d := d.wrB .ibxPendi (c / 48) (c % 48) true
  (d.wrB .ibxChcStat c k.flag true).raise k.source

/-! ### Ownership (R324) -/

/-- OWNS follows the owned resources. -/
def Dev.refreshOwns (d : Dev) (c : Nat) : Dev := d.wrB .ibxChcStat c 7 (d.owners.any (fun e => e.2 = c))

/-- A command names a resource: the channel becomes its owner if it is free; whether the channel owns it.
(Log entry 100 DEDUCED.) -/
def Dev.claimRes (d : Dev) (c : Nat) (r : Resource) : Bool × Dev :=
  match d.ownerOf r with
  | some o => (o = c, d)
  | none => (true, ({ d with owners := d.owners ++ [(r, c)] }).refreshOwns c)

/-- The tallies among a channel's resources are dropped with them. -/
def Dev.dropTally (d : Dev) : Resource → Dev
  | .tally h => d.setHead h { d.head h with tally := none }
  | _ => d

/-- The query of a channel leaves. -/
def Dev.dropChanQuery (d : Dev) (c : Nat) : Dev :=
  match (d.chan c).run with
  | some { op := .query id, .. } =>
    let d := d.dropQuery id
    { d with ibx := { d.ibx with done := d.ibx.done.filter (fun (q : QueryDone) => q.id ≠ id) } }
  | _ => d

/-- A channel gives up its resources and latches (R328), and whatever it was in the middle of. -/
def Dev.chRelease (d : Dev) (c : Nat) : Dev :=
  let d := (d.owners.filter (fun e => e.2 = c)).foldl (fun d e => d.dropTally e.1) d
  let d := (d.dropChanQuery c).leaveMover (.move c)
  let d := { d with owners := d.owners.filter (fun e => e.2 ≠ c), wev := tdel d.wev c }
  (d.setChan c {}).refreshOwns c

/-! ### State changes (R326) -/

/-- A channel goes to HALTED and posts its status word. (Log entry 97 DEDUCED.) -/
def Dev.chHalt (d : Dev) (c st sub reason op : Nat) (addr : Word) : Dev :=
  ((d.chRelease c).setChState c 4 reason).postCsw c .halted st sub 0 op addr

/-- A channel goes to SUSPENDED and posts its status word. (Log entry 97 DEDUCED.) -/
def Dev.chSuspend (d : Dev) (c reason op : Nat) (addr : Word) (ring : Nat := 0) : Dev :=
  (d.setChState c 3 reason).postCsw c .susp 0 0 0 op addr ring

/-- A channel suspends at the word its program counter names. -/
def Dev.chSuspendHere (d : Dev) (c reason : Nat) : Dev := d.chSuspend c reason (d.opAt (d.proc c).pc) (d.proc c).pc

/-- The result word (R293). -/
def resultWord (st sub resid value : Nat) : Word :=
  setFld (setFld (setFld (setFld 0 47 40 st) 39 32 sub) 31 20 resid) 19 0 value

/-- A command completes: the result word goes to w31, then the program ends, suspends, or goes on at the next word
(R293–R295, R326). -/
def Dev.chFinish (d : Dev) (c code : Nat) (w : ChWord) (st sub resid value : Nat) : Dev :=
  let p := d.proc c
  let x := d.chan c
  let d := d.setProc c { (p.setReg false 31 (resultWord st sub resid value)) with pc := p.pc + 1 }
  let d := d.wrapF .ibxChcCmds c 31 0 1
  if w.last then ((d.chRelease c).setChState c 0 0).postCsw c .ended st sub resid code p.pc
  else
    let d := d.setChan c { x with run := none, gather := none, suspReq := false }
    if x.suspReq then d.chSuspendHere c 3 else d.setChState c 1 0

/-- A command that does not complete at once (R305). -/
def Dev.chWait (d : Dev) (c code : Nat) (w : ChWord) (op : ChanOp) : Dev :=
  (d.setChan c { d.chan c with run := some { op := op, code := code, w := w, since := d.now } }).setChState c 2 0

/-- The program goes past a word of a gather. -/
def Dev.chNext (d : Dev) (c : Nat) : Dev := d.setProc c { d.proc c with pc := (d.proc c).pc + 1 }

/-- A channel between two words of a gather: a SUSPEND that has come takes effect here (R326). -/
def Dev.chBetween (d : Dev) (c : Nat) : Dev :=
  let x := d.chan c
  let d := (d.setChan c { x with run := none, suspReq := false }).chNext c
  if x.suspReq then d.chSuspendHere c 3 else d.setChState c 1 0

/-- A word of a failed gather is passed over; the last one's END governs (R297). (Log entry 96 DEDUCED.) -/
def Dev.chSkip (d : Dev) (c code : Nat) (w : ChWord) : Dev :=
  let p := d.proc c
  if w.more then d.chNext c
  else if w.last then
    (((d.chNext c).chRelease c).setChState c 0 0).postCsw c .ended (fld (p.reg false 31) 47 40) (fld (p.reg false 31) 39 32)
      (fld (p.reg false 31) 31 20) code p.pc
  else (d.chNext c).setChan c { d.chan c with skip := false }

/-- A command word is reached (R291, R292, R296, R297, R299, R300): its checks, HOLD and NOTE, then what it does. As the repeated
word of a REP that a resumed channel continues, it fails (R380). -/
def Dev.chStart (d : Dev) (c code : Nat) (w : ChWord) (fields : Bool) (body : Dev → Dev) : Dev :=
  let x := d.chan c
  let pc := (d.proc c).pc
  let xfer := code = 0xD0 || code = 0xD1
  let words := (x.gather.map (·.n)).getD 0
  if !d.chRuns c then d
  else if (d.proc c).rep.isSome then d.chHalt c 0x11 4 6 code (pc + 1)
  else if x.skip && xfer then d.chSkip c code w
  else if w.rsv1 ≠ 0 || w.rsv0 ≠ 0 then d.chHalt c 0x12 0 6 code pc
  else if !fields || (xfer && w.hold && x.gather.isSome) || (w.more && 63 ≤ words) then d.chHalt c 0x12 1 6 code pc
  else if (x.skip || x.gather.isSome) && !xfer then d.chHalt c 0x11 1 6 code pc
  else if w.hold && !x.noHold then d.chSuspend c 1 code pc
  else
    let d := d.setChan c { x with noHold := false }
    body (if w.note then d.postCsw c .note 0 0 0 code pc else d)

/-- The address that A names. -/
def Dev.chAddr (d : Dev) (c : Nat) (w : ChWord) : Nat := ((d.proc c).reg false w.a.val).toNat

/-- n words of the program area read for a command: the words, or the status and sub-code it completes with (R288, R423). -/
def Dev.chRead (d : Dev) (a n : Nat) : Except (Nat × Nat) (List Word) × Dev :=
  if !inProgram a n then (.error (0x21, 7), d)
  else
    let r := d.sramReads a n
    (if r.2.1 ≠ 0 then .error (r.2.1, 0) else .ok r.1, r.2.2)

/-- A COUNT shortfall completes with SHORT where STRICT is 1 (R301). -/
def shortOr (w : ChWord) (short : Bool) : Nat := if short && w.strict then 1 else 0

/-! ### Transfers (R312–R314, R296–R298, R467, R468) -/

/-- A transfer descriptor (R312). -/
structure Xfer where
  kind : Nat
  trailer : Bool
  func : Nat
  source : Nat
  dest : Word
  haddr : Nat
  len : Nat
  deriving DecidableEq, Repr

/-- A transfer descriptor's words read. -/
def xferOf (ws : List Word) : Xfer :=
  let w (i : Nat) : Word := ws.getD i 0
  { kind := fld (w 0) 47 45, trailer := bit (w 0) 44, func := fld (w 0) 43 43, source := fld (w 0) 39 0, dest := w 1,
    haddr := fld (w 3) 15 0 * 2 ^ 48 + (w 2).toNat, len := fld (w 3) 47 24 }

/-- A reserved field of a transfer descriptor is nonzero (R312); the destination fields of a gather's later words are ignored (R296).
(Log entry 94 DEDUCED.) -/
def xferReserved (query first : Bool) (ws : List Word) : Bool :=
  let w (i : Nat) : Word := ws.getD i 0
  fld (w 0) 42 40 ≠ 0 || fld (w 3) 23 16 ≠ 0 || (first && fld (w 0) 47 45 = 1 && w 1 ≠ 0) || (query && fld (w 0) 39 0 ≠ 0)

/-- The destination a descriptor names, or the outcome it completes with (R288, R312, R313). (Log entry 94 DEDUCED.) -/
def Dev.xferDest (d : Dev) (x : Xfer) : Except (Nat × Nat) Dest :=
  match x.kind with
  | 0 => if inProgram x.dest.toNat 0 && x.dest.toNat < 0x7A1000 then .ok (.sram x.dest.toNat) else .error (0x21, 7)
  | 1 => if d.attached x.func then .ok (.host x.func x.haddr) else .error (0x38, 9)
  | 2 => if x.dest.toNat < 2 ^ 26 && !x.trailer then .ok (.tiles x.dest.toNat) else .error (0x10, 8)
  | _ => .error (0x10, 8)

/-- n words at offset off fit the destination, with the trailer where one is to follow: inside the program area, to a function that
is attached, or one tile of a LOADING reference (R288, R313, R467). (Log entry 101 DEDUCED.) -/
def Dev.destFits (d : Dev) (off n : Nat) (trailer : Bool) : Dest → Option (Nat × Nat)
  | .sram a => if inProgram (a + off) (n + (if trailer then 2 else 0)) then none else some (0x21, 7)
  | .host f _ => if d.attached f then none else some (0x38, 9)
  | .tiles q => if n = 512 && (d.loadingRef (q + off / 512)).isSome then none else some (0x10, 8)

/-- Words delivered at an offset of a destination: the outcome of a tile write that fails, as status + 256 × sub-code (R412). -/
def Dev.deliver (d : Dev) (cls off : Nat) (ws : List Word) : Dest → Nat × Dev
  | .sram a => (0, d.sramWrites (a + off) ws)
  | .host f a => (0, d.hostWrite f (a + 6 * off) (bytesOfWords ws))
  | .tiles q => d.refWrite cls (q + off / 512) ws false

/-- The CRC trailer over the words delivered (R467, R468). (Log entry 95 DEDUCED.) -/
def crcTrailer (st sub : Nat) (ws : List Word) : List Word :=
  [setFld (setFld (setFld 0 47 40 st) 39 32 sub) 31 0 (crc32c (bytesOfWords ws)).toNat, setFld 0 39 0 ws.length]

/-- A gather ends with its trailer (R467, R468): one is written where some word of it was to deliver, and it fits.
(Log entry 95 DEDUCED.) -/
def Dev.trailerGoes (d : Dev) (g : Gather) : Bool :=
  g.trailer && g.wet && (match g.dest with | some t => (d.destFits g.data.length 2 false t).isNone | none => false)

/-- A whole gather ends: trailer and result word; a failed word with MORE leaves the rest of the gather to be passed over.
(Log entry 95 DEDUCED.) -/
def Dev.xferEnd (d : Dev) (c code : Nat) (w : ChWord) (g : Gather) (st sub : Nat) : Dev :=
  let cls := d.chClass c
  let ends := d.trailerGoes g
  let d := match g.dest with
    | some t => if ends then d.deliver cls g.data.length (crcTrailer st sub g.data) t |>.2 else d
    | none => d
  let placed := g.placed + (if ends then 2 else 0)
  let resid := min g.resid 4095
  let value := min placed 0xFFFFF
  if w.more then
    let d := d.chFinish c code { w with last := false } st sub resid value
    d.setChan c { d.chan c with skip := true }
  else d.chFinish c code w st sub resid value

/-- The units of COUNT that a MOVE's words stand for: RESID counts none where COUNT is 0, and none for a QUERY (R293).
(Log entry 94 DEDUCED.) -/
def moveUnits (code : Nat) (w : ChWord) (n : Nat) : Nat := if code = 0xD0 && w.count ≠ 0 then n else 0

/-- One word of a gather is through: its data, status, units missing, and whether a COUNT limit stopped it.
(Log entries 94 DEDUCED, 95 DEDUCED.) -/
def Dev.xferWord (d : Dev) (c code : Nat) (w : ChWord) (st sub : Nat) (data : List Word) (missing : Nat) (limited : Bool) :
    Dev :=
  let g := (d.chan c).gather.getD {}
  let data := match g.dest with | some (.tiles _) => if st = 0 then data else [] | _ => data
  let bad := match g.dest with
    | some t => if st = 0 || data ≠ [] then d.destFits g.data.length data.length g.trailer t else none
    | none => none
  match bad with
  | some (s, u) => d.xferEnd c code w { g with resid := g.resid + missing + moveUnits code w data.length } s u
  | none =>
    let out : Nat × Dev := match g.dest with
      | some t => if w.dry then (0, d) else d.deliver (d.chClass c) g.data.length data t
      | none => (0, d)
    let d := out.2
    let st := if out.1 = 0 then st else out.1 % 256
    let sub := if out.1 = 0 then sub else out.1 / 256
    let lost := if out.1 = 0 then 0 else moveUnits code w data.length
    let data := if out.1 = 0 then data else []
    let g := { g with data := if w.dry then g.data else g.data ++ data, placed := g.placed + data.length,
                      resid := g.resid + missing + lost, limited := g.limited || limited }
    if st ≠ 0 then d.xferEnd c code w g st sub
    else if w.more then (d.setChan c { d.chan c with gather := some g }).chBetween c
    else d.xferEnd c code w g (shortOr w (g.limited || g.resid ≠ 0)) 0

/-- The gather that a word opens or joins; `wet` once a word of it does not run dry. -/
def Dev.gatherOf (d : Dev) (c : Nat) (w : ChWord) : Gather :=
  let g := (d.chan c).gather.getD {}
  { g with wet := g.wet || !w.dry }

/-- A transfer word fails before any of its words is moved (R293, R297). (Log entry 94 DEDUCED.) -/
def Dev.xferFail (d : Dev) (c code : Nat) (w : ChWord) (st sub : Nat) : Dev :=
  let g := d.gatherOf c w
  d.xferEnd c code w { g with resid := g.resid + moveUnits code w w.count.toNat } st sub

/-- A transfer word starts: the gather it opens or joins, or the outcome of a bad descriptor. (Log entry 94 DEDUCED.) -/
def Dev.xferStart (d : Dev) (c code : Nat) (w : ChWord) (query : Bool) (ws : List Word) (next : Xfer → Dev → Dev) : Dev :=
  let x := xferOf ws
  let g := d.gatherOf c w
  let bad := if xferReserved query (g.n = 0) ws then some (0x12, 0) else if 262144 < x.len then some (0x10, 8) else none
  match bad with
  | some (s, u) => d.xferFail c code w s u
  | none =>
    if g.n ≠ 0 then next x (d.setChan c { d.chan c with gather := some { g with n := g.n + 1 } })
    else
      match d.xferDest x with
      | .error (s, u) => d.xferFail c code w s u
      | .ok t => next x (d.setChan c { d.chan c with gather := some { g with dest := some t, trailer := x.trailer, n := 1 } })

/-- A source range a channel may copy from (R288, R313). -/
def sourceOk (a n : Nat) : Bool :=
  match sramRegion a with
  | some 1 => inProgram a n
  | some 4 => false
  | some r => decide (a + n ≤ regionBase r + regionSize r)
  | none => false

/-- A word of staging may be read by a mover (R167): it lies in no line slot, or within the words written of the line there.
(Log entry 98 DEDUCED.) -/
def Dev.stagedOk (d : Dev) (a : Nat) : Bool :=
  (List.range 64).all (fun p =>
    let base := d.rdF .cxiHdhStg p 16 0 * 64
    let size := d.slotCredits p * 64
    if !d.regionUsed p || size = 0 || a < base || base + d.regionLines p * size ≤ a then true
    else
      let s := (a - base) / size
      match (d.head p).lines.find? (fun l => l.slot = some s) with
      | some l => decide ((a - base) % size < (l.pixels + 3) / 4)
      | none => false)

/-- The words of n from a that a mover may read before R167 stops it. (Log entry 98 DEDUCED.) -/
def Dev.stagedWords (d : Dev) (a : Nat) : Nat → Nat
  | 0 => 0
  | n + 1 => if d.stagedOk a then 1 + d.stagedWords (a + 1) n else 0

/-- SRAM words read through a mover (R167, R423, R472): the words, the status, and the block. -/
def Dev.moverRead (d : Dev) (a n : Nat) : List Word × Nat × Dev :=
  let m := if sramRegion a = some 0 then d.stagedWords a n else n
  let r := d.sramReads a m
  if r.2.1 ≠ 0 then (r.1, r.2.1, r.2.2.satF .tmvErr 0 31 16 1)
  else (r.1, if m < n then 1 else 0, r.2.2)

/-- Words read by a mover from SRAM, through the transfer buffer (R405, R460): the words, the status, and the block. -/
def Dev.fillBuffer (d : Dev) (u : MoverUser) (a n : Nat) : List Word × Nat × Dev :=
  let x := d.moverRead a n
  let y := x.2.2.passBuffer u x.1
  (y.1, if y.2.1 = 0 then x.2.1 else y.2.1, y.2.2)

/-- The transfer of a MOVE takes place. -/
def Dev.runMove (d : Dev) (c : Nat) (r : ChanRun) (src n : Nat) : Dev :=
  let x := d.fillBuffer (.move c) src n
  let d := (x.2.2.leaveMover (.move c)).wrapF .tmvDone 0 31 0 1
  d.xferWord c r.code r.w x.2.1 0 x.1 (moveUnits r.code r.w (n - x.1.length)) false

/-- The output of an ended query is delivered, as far as COUNT lets it (R314). -/
def Dev.runChanQuery (d : Dev) (c : Nat) (r : ChanRun) (q : QueryDone) : Dev :=
  let limit := r.w.count.toNat * 4096
  let cut := limit ≠ 0 && limit < q.words.length
  let d := { d with ibx := { d.ibx with done := d.ibx.done.filter (fun (x : QueryDone) => x.id ≠ q.id) } }
  d.xferWord c r.code r.w q.status q.sub (if cut then q.words.take limit else q.words) 0 cut

/-- TRANSFER_DONE: the MOVE or QUERY in progress has been served by its engines, and its data goes to the destination (R461): a MOVE's
once an engine has taken it. (Log entries 95 DEDUCED, 209 DESIGN CHOICE.) -/
def transferDoneOp (c : Nat) (d : Dev) : Dev :=
  if !d.chOn c || d.chState c ≠ 2 then d
  else
    match (d.chan c).run with
    | some r =>
      match r.op with
      | .move src n =>
        let e := d.engineTurn (.move c)
        if e.1 then e.2.runMove c r src n else e.2
      | .query id =>
        (match d.ibx.done.find? (fun (q : QueryDone) => q.id = id) with
         | some q => d.runChanQuery c r q
         | none => d)
      | _ => d
    | none => d

/-- A transfer in progress ends with an outcome of its own, delivering nothing more. -/
def Dev.xferAbort (d : Dev) (c st sub : Nat) : Dev :=
  match (d.chan c).run with
  | some r => ((d.dropChanQuery c).leaveMover (.move c)).xferFail c r.code r.w st sub
  | none => d

/-! ### Waits and one-shots -/

/-- The command in progress is a wait that a SUSPEND or HALT cancels (R305). -/
def ChanOp.isWait : ChanOp → Bool
  | .move _ _ => false
  | .query _ => false
  | _ => true

/-- A wait completes (or a command of no units): RESID 0. -/
def Dev.endWait (d : Dev) (c : Nat) (r : ChanRun) (st sub resid value : Nat) : Dev :=
  d.chFinish c r.code r.w st sub resid value

/-- The wait in progress is cancelled; its word runs again without its HOLD (R306). -/
def Dev.cancelWait (d : Dev) (c : Nat) : Dev :=
  let d := { d with wev := d.wev.map (fun (e : Nat × WaitLatch) => if e.1 = c then (e.1, { e.2 with waitSrc := none, raised := none }) else e) }
  d.setChan c { d.chan c with run := none, noHold := true, suspReq := false }

/-- The position a FIRE reports: the axis position in ACQUIRE (R55), else its own. -/
def Dev.firedPos (d : Dev) (a : Nat) (pos : P48) : Nat :=
  fld (if d.axisState a = .acquire then d.axisPos a else pos) 19 0

/-- The outcome a FAULT of its axis brought the wait in progress (R302, R308). -/
def Dev.takeCut (d : Dev) (c : Nat) : Dev :=
  match (d.chan c).run with
  | some r => match r.cut with | some (st, sub) => d.endWait c r st sub 0 0 | none => d
  | none => d

/-- A FIRE that is armed: it is fixed within its lead time and fires at the time fixed, in ACQUIRE at the edge; not yet fixed,
it ends where a generator takes its output or where its position is reached out of service (R305, R307, R308). `first` is set
where a SUSPEND or HALT lets a fixed FIRE fire first. (Log entry 191 DEDUCED.) -/
def Dev.pollFire (d : Dev) (c : Nat) (first : Bool) : Dev :=
  let d := d.fixShot c
  match (d.chan c).run with
  | some r =>
    match r.op, r.cut with
    | .fire _ _ pos _ (some t), _ => if first || atOrPast d.now t then d.endWait c r 0 0 0 (fld pos 19 0) else d
    | .fire _ _ _ _ none, some (st, sub) => d.endWait c r st sub 0 0
    | .fire a out pos w1 none, none =>
      if d.axisState a = .fault then d.endWait c r 0x38 5 0 0
      else if (d.outGen out).isSome then d.endWait c r 0x08 1 0 0
      else if d.axisReaches a pos 0 then
        if d.inService then (d.oneShot out w1 d.now).endWait c r 0 0 0 (d.firedPos a pos)
        else d.endWait c r 0x02 2 0 0
      else d
    | _, _ => d
  | none => d

/-- A generator's enabling ends the FIREs armed on its outputs and not yet fixed (R308). -/
def Dev.endFires (d : Dev) : Dev :=
  d.busyChans.foldl (fun d c =>
    match (d.chan c).run with
    | some r =>
      match r.op, r.cut with
      | .fire _ out _ _ none, none => if (d.outGen out).isSome then d.endWait c r 0x08 1 0 0 else d
      | _, _ => d
    | none => d) d

/-- A write of EN of generator g (R51, R52), which ends the FIREs armed on outputs it takes (R308). -/
def tgEnableOp (g : Nat) (en : Bool) (d : Dev) : Dev := (Dev.setGenEn g en d).endFires

/-- What has happened to the command in progress before a SUSPEND or HALT acts: an outcome brought by a FAULT, or a FIRE already
fixed (R302, R305, R308). -/
def Dev.settleWait (d : Dev) (c : Nat) : Dev := if d.chState c = 2 then (d.takeCut c).pollFire c true else d

/-! ### Control (R327–R329) -/

/-- CFG_ERR of a channel. -/
def Dev.chCfgErr (d : Dev) (c : Nat) : Dev := d.wrB .ibxChcStat c 12 true

/-- START accepted (R327). -/
def Dev.chBegin (d : Dev) (c : Nat) : Dev :=
  let p : Proc := { w := tset [] 1 (d.rd .ibxChcArg c), pc := wordOf (0x6AA800 + d.rdF .ibxChcCfg c 20 0) }
  (((d.chRelease c).setProc c p)).setChState c 1 0

/-- START written 1 (R327). -/
def channelStartOp (c : Nat) (d : Dev) : Dev :=
  let st := d.devState
  let ok := (st = .train || st = .ready || st = .run || st = .degraded) && (d.chState c = 0 || d.chState c = 4) &&
    decide (d.rdF .ibxChcCfg c 20 0 < 1009664)
  if !d.chOn c then d else if ok then d.chBegin c else d.chCfgErr c

/-- The words of the transfer in progress that have reached the destination when a HALT stops it at the next tile or 512-word boundary
(R328): how many such parts is a free value. (Log entry 210 DESIGN CHOICE.) -/
def Dev.haltedWords (d : Dev) (c : Nat) (op : ChanOp) : List Word × Dev :=
  let f := d.free
  match op with
  | .move src n =>
    if (d.moverRun? (.move c)).isSome then
      let x := f.2.fillBuffer (.move c) src (min n (512 * (f.1 % (n / 512 + 1))))
      (x.1, x.2.2)
    else ([], d)
  | .query id =>
    (match d.ibx.done.find? (fun (q : QueryDone) => q.id = id), d.query id with
     | some q, _ => (q.words.take (512 * (f.1 % (q.words.length / 512 + 1))), f.2)
     | none, some q =>
       if (d.moverRun? (.query id)).isSome then
         let x := f.2.runQuery q
         (x.1.take (512 * (f.1 % (x.1.length / 512 + 1))), x.2.2.2)
       else ([], d)
     | none, none => ([], d))
  | _ => ([], d)

/-- A HALT stops the MOVE or QUERY in progress: the data delivered stays, and no trailer is written (R328).
(Log entry 210 DESIGN CHOICE.) -/
def Dev.haltXfer (d : Dev) (c : Nat) : Dev :=
  match (d.chan c).run, (d.chan c).gather with
  | some r, some { dest := some t, data := sent, .. } =>
    let x := d.haltedWords c r.op
    if x.1 = [] || r.w.dry || (x.2.destFits sent.length x.1.length false t).isSome then x.2
    else (x.2.deliver (d.chClass c) sent.length x.1 t).2
  | _, _ => d

/-- HALT written 1 (R305, R328, R329). -/
def channelHaltOp (c : Nat) (d : Dev) : Dev :=
  let st := d.chState c
  if !d.chOn c || st = 0 || st = 4 then d
  else
    let d := d.settleWait c
    let d := if d.chState c = 2 then d.haltXfer c else d
    if d.chState c = 0 then d
    else
      let code := match (d.chan c).run with | some r => r.code | none => d.opAt (d.proc c).pc
      d.chHalt c 0x08 0 5 code (d.proc c).pc

/-- SUSPEND written 1 (R305, R306, R326, R329). (Log entry 96 DEDUCED.) -/
def channelSuspendOp (c : Nat) (d : Dev) : Dev :=
  if !d.chOn c then d
  else
    let d := d.settleWait c
    match d.chState c with
    | 1 => d.chSuspendHere c 3
    | 2 =>
      (match (d.chan c).run with
       | some r =>
         if r.op.isWait then (d.cancelWait c).chSuspend c 3 r.code (d.proc c).pc
         else d.setChan c { d.chan c with suspReq := true }
       | none => d)
    | _ => d

/-- A SUSPENDED channel goes on (R299, R321, R326). -/
def Dev.chResume (d : Dev) (c : Nat) : Dev :=
  let x := d.chan c
  let again := d.chReason c = 1 || d.chReason c = 2
  (d.setChan c { x with noHold := x.noHold || again, ring := none }).setChState c 1 0

/-- RESUME written 1 (R329). -/
def channelResumeOp (c : Nat) (d : Dev) : Dev :=
  if d.chOn c && d.chState c = 3 && (d.chReason c = 1 || d.chReason c = 2 || d.chReason c = 3) then d.chResume c else d

/-- CLEAR written 1 (R326, R329). -/
def channelClearOp (c : Nat) (d : Dev) : Dev :=
  if d.chOn c && d.chState c = 4 then d.setChState c 0 0 else d

/-- HIF resumes the channels suspended with RING_FULL on a ring, in ascending number (R322). -/
def Dev.resumeRing (d : Dev) (r : Nat) : Dev :=
  forUpTo 512 (fun c d =>
    if d.chState c = 3 && d.chReason c = 2 && (d.chan c).ring = some (r / 64, r % 64) then d.chResume c else d) d

/-- Channels resume once a ring's holding area has 128 free places (R322). -/
def Dev.resumeIfRoom (d : Dev) (r : Nat) : Dev := if 128 ≤ d.holdFree r then d.resumeRing r else d

/-- Every channel but an IDLE one halts when the device enters FAILED (R326). -/
def Dev.haltAll (d : Dev) : Dev :=
  forUpTo 512 (fun c d =>
    if d.chState c = 0 then d
    else d.chHalt c 0x08 0 7 (match (d.chan c).run with | some r => r.code | none => d.opAt (d.proc c).pc) (d.proc c).pc) d

/-- Channels with AUTOSTART start at the entry to READY (R326). -/
def Dev.autostart (d : Dev) : Dev :=
  forUpTo 512 (fun c d =>
    if d.rdB .ibxChcCfg c 29 && (d.chState c = 0 || d.chState c = 4) then channelStartOp c d else d) d

/-! ### Power states (R336, R337) -/

/-- The words of a channel's context save area. (Log entry 102 DEDUCED.) -/
def Dev.saveArea (d : Dev) (c : Nat) : List Word :=
  let p := d.proc c
  (List.range 31).map (fun i => p.reg false (i + 1)) ++
    [p.pc, wordOf (p.rep.getD 0), setBit (setFld (setFld 0 6 3 (d.chReason c)) 2 0 (d.chState c)) 47 p.rep.isSome]

/-- DAS address of a channel's context save area. (Log entry 102 DEDUCED.) -/
def saveAddr (c : Nat) : Nat := 0x7FBC00 + 34 * c

/-- The requests of a query that are outstanding to other devices end with LINK_DOWN: their links go down with the device (R112,
R123). (Log entry 211 DEDUCED.) -/
def Dev.cutRemote (d : Dev) (n : Nat) : Dev :=
  { d with tfb := { d.tfb with remote := d.tfb.remote.map (fun r =>
      if r.query = n && r.ended.isNone then { r with ended := some (0x30, 0) } else r) } }

/-- A MOVE or QUERY in progress is completed before a stop: a query that has not started, or waits for END, completes with NOT_READY,
sub-code 02h (R336, R469). (Log entry 211 DEDUCED.) -/
def Dev.finishXfer (d : Dev) (c : Nat) : Dev :=
  match (d.chan c).run with
  | some r =>
    match r.op with
    | .move src n => d.runMove c r src n
    | .query id =>
      (match d.ibx.done.find? (fun (q : QueryDone) => q.id = id) with
       | some q => d.runChanQuery c r q
       | none =>
         match d.query id with
         | some q =>
           if q.resolved then
             let x := (d.cutRemote id).runQuery q
             ((x.2.2.2.dropQuery id).wrapF .tmvDone 0 31 0 1).runChanQuery c r
               { id := id, words := x.1, status := x.2.1, sub := x.2.2.1 }
           else d.xferAbort c 0x38 2
         | none => d)
    | _ => d
  | none => d

/-- The power sequencer stops a channel for STANDBY and saves its context (R326, R336). (Log entry 102 DEDUCED.) -/
def Dev.stopChannel (d : Dev) (c : Nat) : Dev :=
  let d := d.settleWait c
  let d :=
    if d.chState c = 2 then
      match (d.chan c).run with
      | some r =>
        if r.op.isWait then (d.cancelWait c).setChState c 1 0
        else (d.setChan c { d.chan c with suspReq := false }).finishXfer c
      | none => d
    else d
  let d := if d.chState c = 1 then d.chSuspendHere c 4 else d
  if d.chState c = 3 then d.sramWrites (saveAddr c) (d.saveArea c) else d

/-- A channel is in the middle of a gather: between its words, or in one that is not the last. -/
def Dev.midGather (d : Dev) (c : Nat) : Bool :=
  let x := d.chan c
  (x.gather.isSome || x.skip) &&
    (d.chState c = 1 || (d.chState c = 2 && (match x.run with | some r => r.w.more | none => false)))

/-- Some channel is in the middle of a gather, which is completed before the channel stops (R336). (Log entry 211 DEDUCED.) -/
def Dev.gathersOpen (d : Dev) : Bool := d.ibx.chans.any (fun e => d.chOn e.1 && d.midGather e.1)

/-- Every channel stopped for STANDBY; each line tally restarts empty (R336). -/
def Dev.stopChannels (d : Dev) : Dev :=
  let d := forUpTo 512 (fun c d => d.stopChannel c) d
  forUpTo 64 (fun h d => if (d.head h).tally.isSome then d.setHead h { d.head h with tally := some [] } else d) d

/-- A channel restored from its context save area, and resumed if it was stopped for STANDBY (R326, R336).
(Log entry 102 DEDUCED.) -/
def Dev.restoreChannel (d : Dev) (c : Nat) : Dev :=
  if d.chState c ≠ 3 then d
  else
    let x := d.sramReadAll (saveAddr c) 34
    let w (i : Nat) : Word := x.1.getD i 0
    let d := x.2.2
    let p : Proc := (List.range 31).foldl (fun (p : Proc) i => p.setReg false (i + 1) (w i)) {}
    let p := { p with pc := w 31, rep := if bit (w 33) 47 then some (w 32).toNat else none }
    let d := d.setProc c p
    if d.chReason c = 4 then d.chResume c else d

/-- Every channel restored on the return to RUN. -/
def Dev.restoreChannels (d : Dev) : Dev := forUpTo 512 (fun c d => d.restoreChannel c) d

end Sys2Proof.Machine
end

