-- ==== Sys2Proof/Machine/Tmv.lean ====
section
/-! DEFINITION. Graze banks, quotas and periods (R446–R458), arbiter priorities (R441, R442), and the control mover queues
(R459–R469). -/

namespace Sys2Proof.Machine

/-! ### Graze -/

/-- The sum of a bank's 32 quotas (R454). -/
def Dev.bankSum (d : Dev) (b : Bool) : Nat := (List.range 32).foldl (fun n c => n + d.quota b c) 0

/-- CAP (R451). -/
def Dev.grzCap (d : Dev) : Nat := d.rdF .tfbGrzStat 0 15 4

/-- OVERCOMMIT set or cleared, with its level (R456, R470). -/
def Dev.setOvercommit (d : Dev) (b : Bool) : Dev := (d.wrB .tfbGrzStat 0 3 b).setLevel 678 b

/-- CAP follows the stacks in use, and the active bank is re-checked (R451, R456). -/
def Dev.refreshCap (d : Dev) : Dev :=
  let d := d.wrF .tfbGrzStat 0 15 4 (14 * 64 * d.stacksInUse.length)
  d.setOvercommit (decide (d.grzCap < d.bankSum d.bankB))

/-- SWAP_ERR (R454, R470). -/
def Dev.swapErr (d : Dev) : Dev := (d.wrB .tfbGrzStat 0 2 true).raise 676

/-- The inactive bank validated for a swap (R454). -/
def Dev.requestSwap (d : Dev) : Dev :=
  if d.grzCap < d.bankSum (!d.bankB) then d.swapErr else d.wrB .tfbGrzCtl 0 0 true

/-- GRAZE_SWAP: SWAP written 1 (R454). -/
def grazeSwapOp (d : Dev) : Dev :=
  if !d.domOn 22 || d.rdB .tfbGrzCtl 0 0 then d
  else
    let d := d.requestSwap
    { d with graze := { d.graze with dictSwap := false } }

/-- A commit loads the inactive bank from dictionary values (R457). (Log entry 133 DEDUCED.) -/
def Dev.loadBank (d : Dev) (quotas : List Nat) (slots : List Word) : Dev :=
  let b := !d.bankB
  let d := forUpTo 32 (fun c d => d.wrF (if b then .tfbQuotabC else .tfbQuotaaC) c 11 0 (quotas.getD c 0)) d
  let d := forUpTo 64 (fun j d => d.wr (if b then .tfbSlotbJ else .tfbSlotaJ) j (slots.getD j 0 &&& 0x3FFFFFFFFF)) d
  let d := (d.wrB .tfbGrzCtl 0 0 false).requestSwap
  { d with graze := { d.graze with dictSwap := d.rdB .tfbGrzCtl 0 0,
                                   matches_ := d.graze.matches_ && d.rdB .tfbGrzCtl 0 0 } }

/-- A pending swap takes effect (R455). (Log entry 133 DEDUCED.) -/
def Dev.swapBanks (d : Dev) : Dev :=
  if d.rdB .tfbGrzCtl 0 0 then
    let d := ((d.wrB .tfbGrzCtl 0 0 false).wrB .tfbGrzCtl 0 1 (!d.bankB)).raise 675
    { d with graze := { d.graze with matches_ := d.graze.dictSwap, dictSwap := false } }
  else d

/-- The slots that a class owns in the active bank (R453). (Log entry 78 DEDUCED.) -/
def Dev.slotsOwned (d : Dev) (c : Nat) : Nat :=
  ((List.range 64).filter (fun j => bit (d.slotEntry d.bankB j) 37 && fld (d.slotEntry d.bankB j) 36 32 = c)).length

/-- A class received fewer transfers in the period than R452 gives one that bids throughout its owned slots.
(Log entry 78 DEDUCED.) -/
def Dev.fellShort (d : Dev) (c : Nat) : Bool :=
  decide (tget d.graze.usedQ 0 c + tget d.graze.usedS 0 c < min (d.quota d.bankB c) (14 * d.stacksInUse.length * d.slotsOwned c))

/-- GRAZE_PERIOD (R450, R452, R455): at a beat instant, USED is written, deficits are counted, a pending swap takes effect and
the quotas reload. `bidders` are the classes that have bid at every port throughout their owned slots with quota left.
(Log entries 78 DEDUCED, 109 DEDUCED.) -/
def grazePeriodOp (bidders : List Nat) (d : Dev) : Dev :=
  let n := d.now.toNat / 1024
  if !d.domOn 22 || d.now.toNat % 1024 ≠ 0 || (n ≠ 0 && (d.rd .tfbGrzPeriod).toNat = n) then d
  else
    let deficit := bidders.filter d.fellShort
    let d := forUpTo 32 (fun c d =>
      let d := d.wrF .tfbGrzcUsed c 15 0 (min (tget d.graze.usedQ 0 c) 65535)
      let d := d.wrF .tfbGrzcUsed c 31 16 (min (tget d.graze.usedS 0 c) 65535)
      if deficit.contains c then d.satF .tfbGrzcUsed c 47 32 1 else d) d
    let d := if deficit = [] then d else d.raise 677
    let d := (d.wr .tfbGrzPeriod 0 (wordOf n)).swapBanks
    { d with graze := { d.graze with left := [], usedQ := [], usedS := [] } }

/-! ### The arbitration phase (R440–R445, R448, R449) -/

/-- The bids held at port p: key, and transfers wanted. -/
def Dev.bidsAt (d : Dev) (p : Nat) : Table Nat := d.graze.bids.filter (fun e => e.1 / 1024 = p)

/-- A bid of class c at port p counts as one with quota left: the class bids at fewer ports below p than it has transfers left
(R449). (Log entry 78 DEDUCED.) -/
def Dev.quotaAt (d : Dev) (p c : Nat) : Bool :=
  let lower := ((List.range p).filter (fun q => (d.bidsAt q).any (fun e => e.1 % 32 = c))).length
  decide (lower < tget d.graze.left (d.quota d.bankB c) c)

/-- The tier of a bid of class c at port p (R448), all in tier 2 before the first entry to READY. (Log entry 78 DEDUCED.) -/
def Dev.tier (d : Dev) (p c : Nat) : Nat :=
  let e := d.slotEntry d.bankB (d.now.toNat / 16 % 64)
  if !d.rdB .tfbGrzCtl 0 3 then 2
  else if bit e 37 && fld e 36 32 = c && d.quotaAt p c then 1
  else if bit e c && d.quotaAt p c then 2
  else if d.rdB .tfbGrzcCfg c 0 then 3
  else 4

/-- The rank of a bid at port p: tier, then higher PRIO, then lower requester number (R441). -/
def Dev.bidRank (d : Dev) (p key : Nat) : Nat :=
  let r := key / 32 % 32
  (8 * d.tier p (key % 32) + (7 - d.rdF .tfbArbPrior r 2 0)) * 32 + r

/-- The bid that port p grants in this phase (R441); none while its HBC holds 512 tile operations (R445). -/
def Dev.portGrant (d : Dev) (p : Nat) : Option Nat :=
  if 512 ≤ (tget d.graze.busy 0 p + 3) / 4 then none
  else
    ((d.bidsAt p).foldl (fun (best : Option Nat) e =>
      match best with
      | some k => if d.bidRank p e.1 < d.bidRank p k then some e.1 else best
      | none => some e.1) none)

/-- A granted transfer moves: the bid keeps the rest, the HBC holds it, and Graze charges it to quota in tiers 1 and 2 and to the
spare count in tiers 3 and 4, from the first entry to READY on (R443, R448, R449). (Log entry 78 DEDUCED.) -/
def Dev.moveTransfer (d : Dev) (key tier : Nat) : Dev :=
  let p := key / 1024
  let c := key % 32
  let n := tget d.graze.bids 0 key
  let g := { d.graze with bids := if n ≤ 1 then tdel d.graze.bids key else tset d.graze.bids key (n - 1),
                          busy := tset d.graze.busy p (tget d.graze.busy 0 p + 1) }
  let g := if !d.rdB .tfbGrzCtl 0 3 then g
    else if tier ≤ 2 then { g with left := tset g.left c (tget g.left (d.quota d.bankB c) c - 1),
                                   usedQ := tset g.usedQ c (tget g.usedQ 0 c + 1) }
    else { g with usedS := tset g.usedS c (tget g.usedS 0 c + 1) }
  { d with graze := g }

/-- One arbitration phase: every port grants one bid, and the losing bids stay (R440, R441, R444).
(Log entries 78 DEDUCED, 192 DESIGN CHOICE.) -/
def Dev.arbPhase (d : Dev) : Dev :=
  let won := (List.range 4).filterMap (fun p => (d.portGrant p).map (fun k => (k, d.tier p (k % 32))))
  won.foldl (fun d w => d.moveTransfer w.1 w.2) d

/-- The HBCs complete one transfer each. (Log entry 192 DESIGN CHOICE.) -/
def Dev.hbcServe (d : Dev) : Dev :=
  { d with graze := { d.graze with
    busy := d.graze.busy.filterMap (fun e => if e.2 ≤ 1 then none else some (e.1, e.2 - 1)) } }

/-- The phases whose core cycles, 6 in 5 ns, begin before ns t. -/
def phasesBefore (t : Nat) : Nat := (6 * t + 4) / 5

/-- The ports arbitrate through a nanosecond (R440, R446). (Log entry 192 DESIGN CHOICE.) -/
def Dev.arbitrate (d : Dev) : Dev :=
  if !d.domOn 22 || (d.graze.bids = [] && d.graze.busy = []) then d
  else
    let t := d.now.toNat
    forUpTo (phasesBefore (t + 1) - phasesBefore t) (fun _ d => d.arbPhase) d.hbcServe

/-- ARB_PRIO_WRITE (R442): PRIO of a requester. -/
def arbPrioWriteOp (r : Nat) (v : Word) (d : Dev) : Dev := if d.domOn 22 then d.wr .tfbArbPrior r (v &&& 7) else d

/-! ### Control mover queues -/

/-- The pending descriptors of queue k, oldest first. -/
def Dev.moverQueue (d : Dev) (k : Nat) : List Nat := tget d.tmv.queues [] k

/-- The descriptors of queue k replaced, PENDING following. -/
def Dev.setMoverQueue (d : Dev) (k : Nat) (l : List Nat) : Dev :=
  ({ d with tmv := { d.tmv with queues := tset d.tmv.queues k l } }).wrF .tmvCqkStat k 4 0 l.length

/-- The front descriptor of queue k asks the movers for its words (R461). -/
def Dev.askQueue (d : Dev) (k : Nat) : Dev :=
  match d.moverQueue k with
  | [] => d
  | a :: _ =>
    let w (i : Nat) : Word := (d.cell (a + i)).data
    let op := fld (w 0) 47 44
    d.askMover (.queue k) (fld (w 3) 47 24) (decide (op ≤ 1) && decide (fld (w 1) 47 45 ≠ 1))

/-- The requester that queue k serves (R465). -/
def moverServes (k : Nat) : Requester → Bool
  | .core c => c.val = k
  | .goatherd => k = 4
  | _ => false

/-- MOVER_SUBMIT (R465). -/
def moverSubmitOp (k : Nat) (by_ : Requester) (addr : Word) (d : Dev) : Dev :=
  let a := fld addr 39 0
  let r := if k = 4 then 4 else 1
  if !d.domOn 22 then d
  else if !moverServes k by_ then d.wrB .tmvCqkStat k 5 true
  else if 16 ≤ (d.moverQueue k).length then d.wrB .tmvCqkStat k 6 true
  else if sramRegion a ≠ some r || regionBase r + regionSize r < a + 8 then d.wrB .tmvCqkStat k 7 true
  else (d.setMoverQueue k (d.moverQueue k ++ [a])).askQueue k

/-- A control mover descriptor (R466). -/
structure MoverDesc where
  op : Nat
  trailer : Bool
  src : Nat
  dkind : Nat
  func : Nat
  dst : Nat
  haddr : Nat
  len : Nat
  cls : Nat
  pattern : Word
  reserved : Bool
  deriving DecidableEq, Repr

/-- A descriptor's words read. -/
def moverDesc (ws : List Word) : MoverDesc :=
  let w (i : Nat) : Word := ws.getD i 0
  { op := fld (w 0) 47 44, trailer := bit (w 0) 43, src := fld (w 0) 39 0, dkind := fld (w 1) 47 45, func := fld (w 1) 44 44,
    dst := fld (w 1) 39 0, haddr := fld (w 3) 15 0 * 2 ^ 48 + (w 2).toNat, len := fld (w 3) 47 24, cls := fld (w 3) 20 16,
    pattern := w 4,
    reserved := fld (w 0) 42 40 ≠ 0 || fld (w 1) 43 40 ≠ 0 || fld (w 3) 23 21 ≠ 0 || fld (w 5) 47 16 ≠ 0 }

/-- The source is an HBM tile by address. -/
def isTileAddr (a : Nat) : Bool := decide (0x100000000 ≤ a) && decide (a < hbmEnd)

/-- Some operand of the descriptor is a tile. -/
def MoverDesc.tiled (m : MoverDesc) : Bool :=
  (m.op ≠ 1 && isTileAddr m.src) || (m.op ≠ 3 && (m.dkind = 2 || m.dkind = 3))

/-- The rules of R466 but for reserved fields. (Log entry 108 DEDUCED.) -/
def MoverDesc.wellFormed (m : MoverDesc) : Bool :=
  let dk := match m.op with
    | 0 => m.dkind ≤ 2
    | 1 => m.dkind = 0 || m.dkind = 2
    | 2 => m.dkind = 0 || m.dkind = 2 || m.dkind = 3
    | _ => m.dkind ≤ 3
  decide (m.op ≤ 3) && dk && (!m.trailer || (m.op = 0 && m.dkind ≤ 1)) && decide (1 ≤ m.len) && decide (m.len ≤ 262144) &&
    (!m.tiled || m.len % 512 = 0) && (m.op = 1 || !isTileAddr m.src || m.src % 512 = 0) &&
    (m.op = 3 || m.dkind ≠ 3 || m.dst % 512 = 0) && (m.op = 3 || m.dkind ≠ 2 || m.dst < 2 ^ 26)

/-- Queue k's processor may load n words at an address (R358, R466): SRAM, or for a control core HBM.
(Log entry 108 DEDUCED.) -/
def moverLoads (k a n : Nat) : Bool :=
  match sramRegion a with
  | some 4 => k = 4 && decide (a + n ≤ 0xAAA800)
  | some r => decide (a + n ≤ regionBase r + regionSize r)
  | none => k ≠ 4 && isTileAddr a && decide (a + n ≤ hbmEnd)

/-- Queue k's processor may store n words of SRAM at an address (R358, R466). (Log entry 108 DEDUCED.) -/
def moverStores (k a n : Nat) : Bool := (sramRegion a).isSome && moverLoads k a n

/-- The outcome of a descriptor that cannot run (R466, R313). (Log entry 108 DEDUCED.) -/
def Dev.moverRefusal (d : Dev) (k : Nat) (m : MoverDesc) : Option (Nat × Nat) :=
  let out := m.len + (if m.trailer then 2 else 0)
  let tiles := d.layoutStacks.length * 12582912
  if m.reserved then some (0x12, 0)
  else if !m.wellFormed then some (0x10, 8)
  else if m.op ≤ 2 && m.dkind = 2 && (k = 4 || tiles < m.dst + m.len / 512) then some (0x21, 7)
  else if m.op ≠ 1 && !moverLoads k m.src m.len then some (0x21, 7)
  else if m.op ≤ 1 && m.dkind = 0 && !moverStores k m.dst out then some (0x21, 7)
  else if m.op = 2 && (m.dkind = 0 || m.dkind = 3) && (!moverLoads k m.dst m.len || isTileAddr m.dst ≠ (m.dkind = 3)) then
    some (0x21, 7)
  else if m.op = 0 && m.dkind = 1 && !d.attached m.func then some (0x38, 9)
  else if m.op ≤ 1 && m.dkind = 2 &&
      (List.range (m.len / 512)).any (fun i => (d.loadingRef (m.dst + i)).isNone) then some (0x10, 8)
  else none

/-- A tile read by address (R462, R464): checks 1, 2 and 4 of R198. -/
def Dev.readTileAt (d : Dev) (cls place : Nat) : Nat × List Word × Dev :=
  let x := d.readTile d.readEngine cls place 4 true
  if x.1 ≠ 0 then (x.1, [], x.2.2)
  else if !x.2.1.crcGood then
    let r := x.2.2.mismatch false
    (r.1, [], r.2)
  else if x.2.1.tag.getLsbD 0 then (0x18, [], x.2.2.satF .tfbLbVcnt 0 47 32 1)
  else (0, x.2.1.allWords, x.2.2)

/-- n tiles read, up to the first that fails a check. -/
def Dev.readTilesAt (d : Dev) (cls : Nat) (place : Nat → Nat) (i : Nat) : Nat → List Word × Nat × Dev
  | 0 => ([], 0, d)
  | n + 1 =>
    let x := d.readTileAt cls (place i)
    if x.1 ≠ 0 then ([], x.1, x.2.2.satF .tmvErr 0 15 0 1)
    else
      let y := x.2.2.readTilesAt cls place (i + 1) n
      (x.2.1 ++ y.1, y.2.1, y.2.2)

/-- len words at an operand, through the transfer buffer: the words read, the status, the block. -/
def Dev.moverOperand (d : Dev) (k cls a len : Nat) : List Word × Nat × Dev :=
  if isTileAddr a then
    let x := d.readTilesAt cls (fun i => (a - 0x100000000) / 512 + i) 0 (len / 512)
    let y := x.2.2.passBuffer (.queue k) x.1
    (y.1, if y.2.1 = 0 then x.2.1 else y.2.1, y.2.2)
  else d.fillBuffer (.queue k) a len

/-- The reference, not FREE, that holds tile q. (Log entry 108 DEDUCED.) -/
def Dev.refHolding (d : Dev) (q : Nat) : Option Nat :=
  (List.range 4096).find? (fun r => d.refState r ≠ 0 && d.refMeets r q 1)

/-- Tile q read by its number under every check of R198 (R462): its position and generation are those of its reference; a tile of no
reference has none to be checked against. (Log entry 108 DEDUCED.) -/
def Dev.readRefTile (d : Dev) (cls q : Nat) : Nat × List Word × Dev :=
  match d.refHolding q with
  | none => d.readTileAt cls (d.placeOf q)
  | some r =>
    let tab := d.checkRef cls r
    if tab.1 ≠ 0 then (tab.1, [], tab.2)
    else
      let d := tab.2
      let off := q - fld (d.refWord r 0) 31 0
      let t := d.useTile d.readEngine cls q (pchkOf (off / d.refTpb r) (off % d.refTpb r)) (some (fld (d.refWord r 0) 39 32)) false false
      (t.1, if t.1 = 0 then t.2.1.allWords else [], t.2.2)

/-- n tiles read by their numbers, up to the first that fails a check. -/
def Dev.readRefTiles (d : Dev) (cls q : Nat) : Nat → List Word × Nat × Dev
  | 0 => ([], 0, d)
  | n + 1 =>
    let x := d.readRefTile cls q
    if x.1 ≠ 0 then ([], x.1, x.2.2.satF .tmvErr 0 15 0 1)
    else
      let y := x.2.2.readRefTiles cls (q + 1) n
      (x.2.1 ++ y.1, y.2.1, y.2.2)

/-- The destination of a COPY or FILL. -/
def MoverDesc.dest (m : MoverDesc) : Dest :=
  match m.dkind with | 0 => .sram m.dst | 1 => .host m.func m.haddr | _ => .tiles m.dst

/-- Words written to tiles, one whole tile after another (R217): the outcome of one that fails, the words written, the block. -/
def Dev.deliverTiles (d : Dev) (cls q : Nat) (ws : List Word) : Nat × Nat × Dev :=
  forUpTo (ws.length / 512) (fun i (r : Nat × Nat × Dev) =>
    if r.1 ≠ 0 then r
    else
      let w := r.2.2.refWrite cls (q + i) ((ws.drop (512 * i)).take 512) false
      (w.1, if w.1 = 0 then r.2.1 + 512 else r.2.1, w.2)) (0, 0, d)

/-- Words delivered to a destination: a stream to SRAM or the host, whole tiles to a reference. -/
def Dev.moverDeliver (d : Dev) (cls off : Nat) (ws : List Word) (t : Dest) : Nat × Nat × Dev :=
  match t with
  | .tiles q => d.deliverTiles cls q ws
  | _ => (0, ws.length, (d.deliver cls off ws t).2)

/-- COPY (R460, R466): words 6 and 7 to be: status, sub-code, MISMATCH, DONE. -/
def Dev.moverCopy (d : Dev) (k : Nat) (m : MoverDesc) : (Nat × Nat × Nat × Nat) × Dev :=
  let x := d.moverOperand k m.cls m.src m.len
  let ws := if m.dkind = 2 then x.1.take (x.1.length / 512 * 512) else x.1
  let y := x.2.2.moverDeliver m.cls 0 ws m.dest
  let o := if x.2.1 ≠ 0 then x.2.1 else y.1
  let d := if m.trailer then (y.2.2.moverDeliver m.cls ws.length (crcTrailer (o % 256) (o / 256) ws) m.dest).2.2 else y.2.2
  ((o % 256, o / 256, 0, y.2.1), d)

/-- FILL (R463). -/
def Dev.moverFill (d : Dev) (m : MoverDesc) : (Nat × Nat × Nat × Nat) × Dev :=
  let y := d.moverDeliver m.cls 0 (List.replicate m.len m.pattern) m.dest
  ((y.1 % 256, y.1 / 256, 0, y.2.1), y.2.2)

/-- The number of words that differ, and the first offset where they do. -/
def compareWords : Nat → List Word → List Word → Nat × Option Nat
  | i, a :: as, b :: bs =>
    let r := compareWords (i + 1) as bs
    if a = b then r else (r.1 + 1, some i)
  | _, _, _ => (0, none)

/-- The result of a compare. -/
def Dev.compared (d : Dev) (m : MoverDesc) (st : Nat) (a b : List Word) : (Nat × Nat × Nat × Nat) × Dev :=
  let r := compareWords 0 a b
  ((st % 256, st / 256, min r.1 (2 ^ 32 - 1), r.2.getD m.len), if r.1 = 0 then d else d.satF .tmvErr 0 47 32 1)

/-- COMPARE (R464). -/
def Dev.moverCompare (d : Dev) (k : Nat) (m : MoverDesc) : (Nat × Nat × Nat × Nat) × Dev :=
  let x := d.moverOperand k m.cls m.src m.len
  let y := if m.dkind = 2 then x.2.2.readRefTiles m.cls m.dst (m.len / 512) else x.2.2.moverOperand k m.cls m.dst m.len
  y.2.2.compared m (if x.2.1 ≠ 0 then x.2.1 else y.2.1) x.1 y.1

/-- COMPARE_PATTERN (R464). -/
def Dev.moverComparePattern (d : Dev) (k : Nat) (m : MoverDesc) : (Nat × Nat × Nat × Nat) × Dev :=
  let x := d.moverOperand k m.cls m.src m.len
  x.2.2.compared m x.2.1 x.1 (List.replicate x.1.length m.pattern)

/-- The work of a descriptor that can run. -/
def Dev.moverWork (d : Dev) (k : Nat) (m : MoverDesc) : (Nat × Nat × Nat × Nat) × Dev :=
  match m.op with
  | 0 => d.moverCopy k m
  | 1 => d.moverFill m
  | 2 => d.moverCompare k m
  | _ => d.moverComparePattern k m

/-- The work of the front descriptor of queue k, where it asks for operation `op`, can run and has its engines (R461); its outcome
waits for MOVER_COMPLETE. -/
def Dev.moverRun (d : Dev) (k op : Nat) (f : MoverDesc → Dev → (Nat × Nat × Nat × Nat) × Dev) : Dev :=
  match d.moverQueue k with
  | [] => d
  | a :: _ =>
    if !d.domOn 22 || (tfind d.tmv.results k).isSome then d
    else
      let r := d.sramReads a 8
      let m := moverDesc r.1
      let e := r.2.2.engineTurn (.queue k)
      if r.2.1 ≠ 0 || m.op ≠ op || (d.moverRefusal k m).isSome then d
      else if !e.1 then e.2
      else
        let x := f m e.2
        { x.2 with tmv := { x.2.tmv with results := tset x.2.tmv.results k x.1 } }

/-- COPY by queue k. -/
def moverCopyOp (k : Nat) (d : Dev) : Dev := d.moverRun k 0 (fun m d => d.moverCopy k m)

/-- FILL by queue k. -/
def moverFillOp (k : Nat) (d : Dev) : Dev := d.moverRun k 1 (fun m d => d.moverFill m)

/-- COMPARE by queue k. -/
def moverCompareOp (k : Nat) (d : Dev) : Dev := d.moverRun k 2 (fun m d => d.moverCompare k m)

/-- COMPARE_PATTERN by queue k. -/
def moverComparePatternOp (k : Nat) (d : Dev) : Dev := d.moverRun k 3 (fun m d => d.moverComparePattern k m)

/-- The front descriptor of queue k completes: words 6 and 7, PENDING, TMV_DONE and the event (R465, R466). -/
def Dev.moverEnd (d : Dev) (k a : Nat) (r : Nat × Nat × Nat × Nat) : Dev :=
  let w6 := setFld (setFld (setFld 0 47 40 r.1) 39 32 r.2.1) 31 0 r.2.2.1
  let d := d.sramWrites (a + 6) [w6, setFld 0 39 0 r.2.2.2]
  let d := d.setMoverQueue k ((d.moverQueue k).drop 1)
  let d := { d with tmv := { d.tmv with results := tdel d.tmv.results k } }
  let d := (d.leaveMover (.queue k)).askQueue k
  (d.wrapF .tmvDone 0 31 0 1).raise (679 + k)

/-- What a descriptor's words make of it before any work: the outcome of one that cannot be read or cannot run. -/
def Dev.moverUnfit (d : Dev) (k a : Nat) : Option (Nat × Nat × Nat × Nat) × MoverDesc × Dev :=
  let x := d.sramReads a 8
  if x.2.1 ≠ 0 then (some (x.2.1, 0, 0, 0), moverDesc x.1, x.2.2.satF .tmvErr 0 31 16 1)
  else
    match x.2.2.moverRefusal k (moverDesc x.1) with
    | some (st, sub) => (some (st, sub, 0, 0), moverDesc x.1, x.2.2)
    | none => (none, moverDesc x.1, x.2.2)

/-- MOVER_COMPLETE: the front descriptor of queue k is done, or its engine finds that it cannot run. -/
def moverCompleteOp (k : Nat) (d : Dev) : Dev :=
  match d.moverQueue k with
  | [] => d
  | a :: _ =>
    if !d.domOn 22 then d
    else
      match tfind d.tmv.results k with
      | some r => d.moverEnd k a r
      | none =>
        if (d.moverRun? (.queue k)).isNone then d
        else
          let x := d.moverUnfit k a
          match x.1 with
          | some r => x.2.2.moverEnd k a r
          | none => x.2.2

/-- The front descriptor of queue k, which an engine has taken, is finished. -/
def Dev.finishQueue (d : Dev) (k a : Nat) : Dev :=
  match tfind d.tmv.results k with
  | some r => d.moverEnd k a r
  | none =>
    let x := d.moverUnfit k a
    match x.1 with
    | some r => x.2.2.moverEnd k a r
    | none =>
      let y := x.2.2.moverWork k x.2.1
      y.2.moverEnd k a y.1

/-- Before PD22 goes off, each descriptor in progress is finished, and the rest complete with NOT_READY, sub-code 02h (R469). -/
def Dev.stopMovers (d : Dev) : Dev :=
  forUpTo 5 (fun k d =>
    let held := (d.moverRun? (.queue k)).isSome
    match d.moverQueue k with
    | [] => d
    | a :: rest =>
      let d := if held then d.finishQueue k a else d.moverEnd k a (0x38, 2, 0, 0)
      rest.foldl (fun d b => d.moverEnd k b (0x38, 2, 0, 0)) d) d

end Sys2Proof.Machine
end

