-- ==== Sys2Proof/Machine/Power.lean ====
section
/-! DEFINITION. Device states, power domains and fences, shared by the memory controllers and Goatherd (R22, R23, R414, R578,
R582). -/

namespace Sys2Proof.Machine

/-- A power domain changes (R23). -/
def Dev.setDomain (d : Dev) (k : Nat) (x : DomState) : Dev := { d with domains := tset d.domains k x }

/-- Several power domains change. -/
def Dev.setDomains (d : Dev) (ks : List Nat) (x : DomState) : Dev := ks.foldl (fun d k => d.setDomain k x) d

/-- Two values in one detail word of a log record: the first in bits 7:0, the second above it. (Log entry 52 DEDUCED.) -/
def detailPair (a b : Nat) : Word := wordOf (a % 256 + 256 * b)

/-- The stacks that are fenced. -/
def Dev.fencedStacks (d : Dev) : List Nat := (List.range 4).filter (fun s => d.rdF .hbcSsStat s 2 0 = 5)

/-- The link groups that are fenced. -/
def Dev.fencedGroups (d : Dev) : List Nat := (List.range 4).filter (fun g => d.rdB .cxiGrpgStat g 1)

/-- A stack or link group is fenced. -/
def Dev.anyFenced (d : Dev) : Bool := d.fencedStacks ≠ [] || d.fencedGroups ≠ []

/-- Cause 7 for a fenced stack, 8 for a fenced group (R578). -/
def Dev.fenceCause (d : Dev) : Nat := if d.fencedStacks ≠ [] then 7 else 8

/-- Every field output driven inactive (R582): pulses active or due, and fires fixed, are gone. (Log entry 162 DEDUCED.) -/
def Dev.outputsInactive (d : Dev) : Dev :=
  let d := { d with spr := { d.spr with gens := d.spr.gens.map (fun e => (e.1, { e.2 with fixed := [], regrid := false })) } }
  forUpTo 48 (fun x d => d.setOutDrv x { d.outDrv x with due := [], active := none }) d

/-- The device enters a state (R578): the cause, the log (R595), DEV_STATE of every bank (R523), GHD_DEGRADED, and the heads
(R133); first every generator passes what its axis has reached (R53). -/
def Dev.enterState (d : Dev) (st : DevState) (cause : Option Nat) : Dev :=
  let old := d.devState
  let d := d.settleAll
  let d := if !d.inService && (st = .run || st = .degraded) then d.markAllLate else d
  let d0 := d
  let d := d.wrF .ghdState 0 2 0 st.code
  let d := match cause with | some c => d.wrF .ghdState 0 15 8 c | none => d
  let d := d.log (if st = .failed then 3 else 0) 0x002 (detailPair old.code st.code) (cause.getD 0)
  let d := forUpTo 5 (fun t d => d.raise (64 * t + 35)) d
  let d := d.setLevel 782 (st = .degraded)
  let d := if st = .train then d.discoveryStarts else d
  d0.followHeads d.headsService

/-- Link group g is powered or off, fenced or not (R172): its heads while its domain still stands (R133), then the domain and
GRPg_FENCED. -/
def Dev.setGroup (d : Dev) (g : Nat) (powered fenced : Bool) : Dev :=
  let was := d.rdB .cxiGrpgStat g 0 && !d.rdB .cxiGrpgStat g 1
  let is := powered && !fenced
  let d0 := d
  let d := (d.wrB .cxiGrpgStat g 0 powered).wrB .cxiGrpgStat g 1 fenced
  let cut (d : Dev) : Dev := (d.setDomain (5 + g) (if is then .on else .off)).setLevel (576 + g) (!is)
  if was = is then cut d
  else if is then
    d0.followHeads (forUpTo 64 (fun h d => if d.headGroup h = g && d.headState h = .fenced then d.startLinking h else d) (cut d))
  else
    let d := d0.followHeads (forUpTo 64 (fun h d =>
      if d.headGroup h ≠ g || d.headState h = .off || d.headState h = .plane then d
      else (d.setHeadCause h 6).setHeadState h .fenced) d)
    cut (forUpTo 16 (fun i d => if d.linkState (16 * g + i) = 4 then d else d.setLinkState (16 * g + i) 0) d)

/-- The domains that FAILED does not keep (R582). -/
def failedOff : List Nat := (List.range 24).filter (fun k => k ≠ 0 && k ≠ 10 && k ≠ 11 && k ≠ 23)

/-- The device enters FAILED (R578, R582, R326, R113): ALERT kind 4, every channel halted, every domain off that is not kept,
every output inactive, FAULT_N low, any power transition over (R600), and with cause 1 the flash pins in high impedance.
(Log entry 162 DEDUCED.) -/
def Dev.fail (d : Dev) (cause : Nat) : Dev :=
  if d.devState = .failed || d.devState = .off then d
  else
    let d := (d.sendAlert 4 cause).enterState .failed (some cause)
    let d := d.haltAll
    let d := forUpTo 4 (fun g d => d.setGroup g false (d.rdB .cxiGrpgStat g 1)) d
    let d := (((d.setDomains failedOff .off).setDomains [10, 11] .on).dropDeadLevels).outputsInactive
    { d with ghd := { d.ghd with faultLow := true, move := none, asked := none, flashHighZ := decide (cause = 1) } }

/-- A fence has arisen: a second one takes the device to FAILED (R414), the first one from RUN to DEGRADED (R578).
(Log entry 147 DEDUCED.) -/
def Dev.afterFence (d : Dev) (second : Bool) (cause : Nat) : Dev :=
  if second then d.fail 4
  else if d.devState = .run then d.enterState .degraded (some cause)
  else d

/-- Link group g is fenced (R430). (Log entry 52 DEDUCED.) -/
def Dev.fenceGroup (d : Dev) (g : Nat) : Dev :=
  let second := d.anyFenced
  let d := (d.setGroup g false true).log 2 0x033 (wordOf (16 + g)) 0
  d.afterFence second 8

/-- The tiles of a stack that has been powered off are gone. (Log entry 148 DEDUCED.) -/
def Dev.loseStack (d : Dev) (s : Nat) : Dev :=
  { d with hbm := d.hbm.filter (fun e => tileStack e.1 ≠ s) }

/-- The rewrites queued for a stack are dropped (R410). -/
def Dev.dropRewrites (d : Dev) (s : Nat) : Dev :=
  (d.satF .hbcSsRewr s 47 32 (d.rewriteQueue s).length).setRewriteQueue s []

/-- What has an operation outstanding to a stack that is fenced completes with UNCORRECTABLE, sub-code 01h (R413, R434). A command
reads or writes HBM within its step, so only a request that an engine serves can have one: whether it has is a free value.
(Log entry 212 DESIGN CHOICE.) -/
def Dev.cutRequest (d : Dev) (u : MoverUser) : Dev :=
  let f := d.free
  let cut := f.1 % 2 = 1
  match u with
  | .query id =>
    (match d.query id with
     | some q =>
       if q.parts = [] then d
       else if cut then f.2.putQuery { q with parts := [], fail := some (0x1A, 1) } else f.2
     | none => d)
  | .move c =>
    (match (d.chan c).gather with
     | some { dest := some (.tiles _), .. } => if cut then f.2.xferAbort c 0x1A 1 else f.2
     | _ => d)
  | .queue k =>
    (match d.moverQueue k, tfind d.tmv.results k with
     | a :: _, none =>
       if !(moverDesc ((List.range 8).map (fun i => (d.cell (a + i)).data))).tiled then d
       else if cut then { f.2 with tmv := { f.2.tmv with results := tset f.2.tmv.results k (0x1A, 1, 0, 0) } } else f.2
     | _, _ => d)

/-- Every request that an engine serves judged so. -/
def Dev.cutRequests (d : Dev) : Dev :=
  (d.tmv.reqs.filter (fun r => r.run.isSome)).foldl (fun d r => d.cutRequest r.user) d

/-- Stack s is fenced with a cause (R413): the requests outstanding to it complete, EDC_HBM_FENCE, its domain off, its look-back
gone, and the full layout of R230 with Graze's capacity (R456). (Log entry 52 DEDUCED.) -/
def Dev.fenceStack (d : Dev) (s cause : Nat) : Dev :=
  let second := d.anyFenced
  let d := d.cutRequests
  let d := (d.wrF .hbcSsStat s 2 0 5).wrF .hbcSsStat s 6 3 cause
  let d := (d.raise 673).log 2 0x033 (wordOf s) cause
  let d := (((d.fullLayout.setDomain (1 + s) .off).loseStack s).dropRewrites s).dropBids s
  (d.refreshCap).afterFence second 7

end Sys2Proof.Machine
end

