-- ==== Sys2Proof/Machine/Hbc.lean ====
section
/-! DEFINITION. Memory integrity commands (10_memory_integrity.md): rewrites, patrol, fences, scrubbing and error injection. -/

namespace Sys2Proof.Machine

/-- The tiles of a stack. -/
def stackTiles : Nat := 12582912

/-- Stack s is ON and powered. (Log entries 7 DEDUCED, 12 DESIGN CHOICE.) -/
def Dev.stackOn (d : Dev) (s : Nat) : Bool := d.domOn (1 + s) && d.rdF .hbcSsStat s 2 0 = 3

/-- HBM_REWRITE (R410): the oldest queued tile is written back corrected; one whose write fails (R412) is dropped.
(Log entry 193 DESIGN CHOICE.) -/
def hbmRewriteOp (s : Nat) (d : Dev) : Dev :=
  if d.stackOn s then
    match d.rewriteQueue s with
    | [] => d
    | q :: rest =>
      let t := d.tile q
      let w := (d.setRewriteQueue s rest).writeTile 21 4 q t.allWords t.tag
      if w.1 = 0 then w.2.satF .hbcSsRewr s 15 0 1 else w.2.satF .hbcSsRewr s 47 32 1
  else d

/-- PATROL_READ (R411): the next tile is read, with the severity the stack reports for it, and the parity faults that this access
and those after it to the stack meet (R412, R417). (Log entries 80 DEDUCED, 193 DESIGN CHOICE.) -/
def patrolReadOp (s : Nat) (r : PatrolReport) (d : Dev) : Dev :=
  if d.stackOn s && d.rdF .hbcCtl 0 11 8 ≠ 0 then
    let t := d.rdF .hbcSsPatrol s 23 0
    let q := s * stackTiles + t
    let d := d.putTile q { d.tile q with sev := r.sev.val, tagSev := min r.tagSev.val r.sev.val }
    let link := r.link
    let d := if link = [] then d else { d with hbc := { d.hbc with link := tset d.hbc.link s (tget d.hbc.link [] s ++ link) } }
    let d := (d.readTile 21 4 q 4 false).2.2
    if t + 1 = stackTiles then (d.wrF .hbcSsPatrol s 23 0 0).wrapF .hbcSsPatrol s 47 32 1
    else d.wrF .hbcSsPatrol s 23 0 (t + 1)
  else d

/-- The device is in a state in which R413 fences. -/
def Dev.fences (d : Dev) : Bool := d.devState = .ready || d.devState = .run || d.devState = .degraded

/-- STACK_FENCE (R413): the condition named holds for stack s. -/
def stackFenceOp (s : Nat) (cause : FenceCause) (d : Dev) : Dev :=
  if d.fences && d.stackOn s then
    match cause with
    | .phy => d.fenceStack s 1
    | .parity => if 64 < (recent d.now 1000000 (tget d.hbc.parity [] s)).length then d.fenceStack s 6 else d
    | .ueLim =>
      let lim := d.rdF .hbcCtl 0 47 32
      if lim ≠ 0 && lim < (recent d.now 1000000000 (tget d.hbc.uncorr [] s)).length then d.fenceStack s 7 else d
  else d

/-- FENCE of HBC_CTL written 1 for stack s, or 6410h.7 (R413): in STANDBY it waits for the return. -/
def fenceWriteOp (s : Nat) (d : Dev) : Dev :=
  if d.powerState = .standby then
    { d with hbc := { d.hbc with fenceLater := d.hbc.fenceLater.filter (fun x => x ≠ s) ++ [s] } }
  else if d.fences && d.rdF .hbcSsStat s 2 0 ≠ 5 then d.fenceStack s 8
  else d

/-- The power domain of a word of region r, none for the transfer buffer (R11). -/
def regionDomain (r off : Nat) : Nat :=
  match r with
  | 0 => 21 | 1 => 17 | 2 => if off < 0xAAC00 then 18 else 19 | 3 => 20 | 4 => 0 | _ => 22

/-- A scrubbed word that reads uncorrectable or poison: counted, recorded where it was not the last one recorded, and reported
(R424, R432). -/
def Dev.scrubBad (d : Dev) (r a : Nat) (poison : Bool) : Dev :=
  let d := if poison then d.satF .edcRrCnt r 47 32 1 else d.satF .edcRrCnt r 31 16 1
  let d := if d.rdF .edcRrLast r 39 0 = a && d.rdF .edcRrLast r 42 40 ≠ 0 then d else d.edcLast r 4 a
  (d.raise 670).log 2 0x030 (wordOf a) (r + 256 * (if poison then 2 else 1))

/-- SCRUB_READ (R424): the next word of region r is read after what upsets did to its stored bits, corrected or left.
(Log entry 80 DEDUCED.) -/
def scrubReadOp (r : Nat) (flip : Word) (flipChk : BitVec 7) (d : Dev) : Dev :=
  let off := d.rdF .edcRrScrub r 23 0
  if d.domOn (regionDomain r off) && d.rdF .edcCtl 0 3 0 ≠ 0 then
    let a := if r = 5 then off else regionBase r + off
    let old := if r = 5 then d.xferCell a else d.cell a
    let m : MemWord := { data := old.data ^^^ flip, chk := old.chk ^^^ flipChk }
    let put (d : Dev) (m : MemWord) : Dev := if r = 5 then d.putXfer a m else d.putCell a m
    let d := put d m
    let d := match decodeWord m with
      | .ok _ => d
      | .corrected w => (put d (goodWord w)).sramCe r
      | .uncorrectable _ => d.scrubBad r a false
      | .poison _ => d.scrubBad r a true
    if off + 1 = regionSize r then (d.wrF .edcRrScrub r 23 0 0).wrapF .edcRrScrub r 47 32 1
    else d.wrF .edcRrScrub r 23 0 (off + 1)
  else d

/-- ARM of EDC_INJ_CTL written 1 (R426): an address outside regions 0–4, or in Goatherd's memory and not by Goatherd, is
refused with CFG_ERR. -/
def injectArmOp (by_ : Requester) (d : Dev) : Dev :=
  match sramRegion (d.rdF .edcInjAddr 0 39 0) with
  | none => d.wrB .edcCtl 0 9 true
  | some 4 => if by_ = .goatherd then d.wrB .edcInjCtl 0 8 true else d.wrB .edcCtl 0 9 true
  | some _ => d.wrB .edcInjCtl 0 8 true

/-- CORRECTED_ERRORS_LOG (R432): one record for each region or stack that corrected errors in the last second. Regions are
numbered 0–5, stacks 8 + s. (Log entry 52 DEDUCED.) -/
def correctedErrorsLogOp (d : Dev) : Dev :=
  let d := d.hbc.corrected.foldl (fun d e => if e.2 = 0 then d else d.log 1 0x031 (wordOf e.1) e.2) d
  { d with hbc := { d.hbc with corrected := [] } }

end Sys2Proof.Machine
end

