-- ==== Sys2Proof/Machine/Hif.lean ====
section
/-! DEFINITION. The host interface (12_host_interface.md): attachment, the mailbox, doorbells, submission rings and their DIRECT
operations, stopping rings, and versions (R475–R516). -/

namespace Sys2Proof.Machine

/-! ### Submission rings -/

/-- A submission ring beyond its registers. -/
def Dev.sq (d : Dev) (r : Nat) : SubRing := tget d.hif.subs {} r

/-- A submission ring replaced, INFLIGHT following (R500). -/
def Dev.setSq (d : Dev) (r : Nat) (x : SubRing) : Dev :=
  ({ d with hif := { d.hif with subs := tset d.hif.subs r x } }).wrF .hifFfSqsStat r 27 21 x.entries.length

/-- STATE of a submission ring: 0 OFF, 1 RUNNING, 2 STOPPING. -/
def Dev.sqState (d : Dev) (r : Nat) : Nat := d.rdF .hifFfSqsStat r 18 17

/-- n of a submission ring. -/
def Dev.sqBits (d : Dev) (r : Nat) : Nat := d.rdF .hifFfSqsCfg r 17 14 + 4

/-- The consumer index C. -/
def Dev.sqCons (d : Dev) (r : Nat) : Nat := d.rdF .hifFfSqsStat r 16 0

/-- MODE of a submission ring is FIRMWARE. -/
def Dev.sqFirmware (d : Dev) (r : Nat) : Bool := d.rdB .hifFfSqsCfg r 18

/-- The completion ring of a submission ring. -/
def Dev.sqComp (d : Dev) (r : Nat) : Nat := r / 64 * 64 + d.rdF .hifFfSqsCfg r 31 26

/-- An outcome that says the entry was malformed or had a reserved field set, counted for its ring (R518). -/
def Dev.noteMalformed (d : Dev) (r st : Nat) : Dev := if st = 0x10 || st = 0x12 then d.satF .hifFfSqsCount r 47 32 1 else d

/-- CONS written into the header: one 8-byte write of bytes 8–15 (R491, R495). -/
def Dev.writeCons (d : Dev) (r : Nat) : Dev :=
  let hdr := d.rdF .hifFfSqsHdrHi r 15 0 * 2 ^ 48 + (d.rd .hifFfSqsHdr r).toNat
  (d.hostWrite (r / 64) (hdr + 8) (bytesOfNat 8 (d.sqCons r))).setSq r { d.sq r with consDue := false }

/-- C stops: the header is brought up to date (R495). -/
def Dev.consStops (d : Dev) (r : Nat) : Dev := if (d.sq r).consDue then d.writeCons r else d

/-- C advances by one; the header follows at every 64th entry taken and when C reaches K (R495). -/
def Dev.advanceCons (d : Dev) (r : Nat) : Dev :=
  let c := (d.sqCons r + 1) % 2 ^ (d.sqBits r + 1)
  let d := (d.wrF .hifFfSqsStat r 16 0 c).wrapF .hifFfSqsCount r 31 0 1
  let d := d.setSq r { d.sq r with consDue := true, taken := (d.sq r).taken + 1 }
  if (d.sq r).taken % 64 = 0 || c = (d.sq r).known then d.writeCons r else d

/-- An entry that has started and has no outcome yet gets one. -/
def DirEntry.ended (e : DirEntry) (r : DirResult) : DirEntry := { e with res := e.res <|> some r }

/-- A ring begins to stop: no entry is taken from here on, and started entries without an outcome end with ABORTED (R511). -/
def Dev.startStop (d : Dev) (r : Nat) (st sub : Nat) : Dev :=
  let x := d.sq r
  let d := x.entries.foldl (fun d (e : DirEntry) => match e.query, e.res with
    | some q, none => d.dropQuery q
    | _, _ => d) d
  let d := d.setSq r { x with bell := false, stopSt := (st, sub),
                              entries := x.entries.map (fun e => e.ended { status := 0x08, sub := 0 }) }
  d.wrF .hifFfSqsStat r 18 17 2

/-- SUBMISSION_DOORBELL (R485). (Log entry 104 DEDUCED.) -/
def submissionDoorbellOp (f s : Nat) (d : Dev) : Dev :=
  let r := 64 * f + s
  if !d.domOn (10 + f) then d
  else if d.sqState r ≠ 1 then d.satF .hifFfStat f 31 16 1
  else d.setSq r { d.sq r with bell := true }

/-- HEADER_READ (R495, R512): the header read that a doorbell calls for. (Log entry 105 DEDUCED.) -/
def headerReadOp (f s : Nat) (prod : Option (BitVec 32)) (d : Dev) : Dev :=
  let r := 64 * f + s
  if d.sqState r ≠ 1 || !(d.sq r).bell then d
  else
    let d := d.setSq r { d.sq r with bell := false }
    let n := d.sqBits r
    match prod with
    | none => d.startStop r 0x1A 4
    | some p =>
      if 2 ^ (n + 1) ≤ p.toNat || 2 ^ n < idxSub n p.toNat (d.sqCons r) then
        ((d.wrB .hifFfSqsStat r 19 true).ringErr f).startStop r 0x10 0x20
      else d.setSq r { d.sq r with known := p.toNat, waits := false }

/-! ### Entries (R492, R498–R500) -/

/-- Byte i of an entry. -/
def entByte (e : List Byte) (i : Nat) : Nat := (e.getD i 0).toNat

/-- n bytes of an entry from byte i, as a number. -/
def entNat (e : List Byte) (i n : Nat) : Nat := natOfBytes ((e.drop i).take n)

/-- The PARAM words of an entry. -/
def entWords (e : List Byte) : List Word := wordsOfBytes 6 (e.drop 20)

/-- An entry's mark shows it owned at index i (R489). -/
def entOwned (n i : Nat) (e : List Byte) : Bool := entByte e 63 % 2 = phaseOf n i

/-- FENCE of an entry. -/
def entFence (e : List Byte) : Bool := entByte e 1 % 2 = 1

/-- Checks 1 to 3 of R499, and the PARAM rules of R498: the outcome of an entry that fails them. (Log entry 107 DEDUCED.) -/
def Dev.entRefusal (d : Dev) (f : Nat) (e : List Byte) : Option (Nat × Nat) :=
  let op := entByte e 0
  let haddr := entNat e 8 8
  let hlen := entNat e 16 4
  let arg := entByte e 56
  let ws := entWords e
  let w (i : Nat) : Word := ws.getD i 0
  let rest0 := (ws.drop 1).all (fun x => x = 0)
  if op = 0 || 5 < op || (op = 5 && d.agreed f < 0x11) then some (0x10, 0x10)
  else if entByte e 1 / 4 ≠ 0 || entNat e 2 2 ≠ 0 || entNat e 57 6 ≠ 0 || entByte e 63 / 2 ≠ 0 then some (0x12, 0)
  else
    let host := op = 2 || op = 4 || op = 5
    let badBuf := if host then haddr % 8 ≠ 0 || hlen % 6 ≠ 0 else haddr ≠ 0 || hlen ≠ 0
    let badLen := match op with
      | 4 => decide (hlen < 6) || decide (1572864 < hlen)
      | 5 => hlen % 3072 ≠ 0 || decide (hlen < 3072) || decide (196608 < hlen)
      | _ => false
    let badParam := match op with
      | 1 => ws.any (fun x => x ≠ 0)
      | 4 => !rest0 || fld (w 0) 47 40 ≠ 0
      | 5 => !rest0 || fld (w 0) 47 26 ≠ 0
      | _ => false
    if badBuf || badLen then some (0x10, 0x11)
    else if (if op = 3 then decide (16 ≤ arg) else arg ≠ 0) then some (0x10, 0x13)
    else if badParam then some (0x10, 0x11)
    else none

/-- INBOX_PROD and INBOX_CONS of a FIRMWARE ring, and m (R503). -/
def Dev.inboxFull (d : Dev) (r : Nat) : Bool :=
  let m := d.rdF .hifFfSqsInbox r 27 24
  idxSub m (d.rdF .hifFfSqsInboxIdx r 10 0) (d.rdF .hifFfSqsInboxIdx r 26 16) = 2 ^ m

/-- STALL of a submission ring. -/
def Dev.setStall (d : Dev) (r : Nat) (b : Bool) : Dev := d.wrB .hifFfSqsStat r 20 b

/-- A FIRMWARE entry is copied into the inbox (R503). -/
def Dev.inboxEntry (d : Dev) (r : Nat) (e : List Byte) : Dev :=
  let m := d.rdF .hifFfSqsInbox r 27 24
  let j := d.rdF .hifFfSqsInboxIdx r 10 0
  let a := 0x6AA800 + d.rdF .hifFfSqsInbox r 19 0 + 11 * (j % 2 ^ m)
  let d := d.sramWrites a (wordsOfBytes 11 (e.take 64))
  let d := d.wrF .hifFfSqsInboxIdx r 10 0 ((j + 1) % 2 ^ (m + 1))
  d.raise (689 + d.rdF .hifFfSqsCfg r 20 19)

/-- STALL of function f's rings that need wait no more clears: a FIRMWARE ring's inbox has room, or a DIRECT ring's completion
would find a place (R503, R506). -/
def Dev.refreshStalls (d : Dev) (f : Nat) : Dev :=
  forUpTo 64 (fun s d =>
    let r := 64 * f + s
    if d.rdB .hifFfSqsStat r 20 && (if d.sqFirmware r then !d.inboxFull r else (d.reserve (d.sqComp r)).isSome) then d.setStall r false
    else d) d

/-- A DIRECT entry starts, its place reserved (R499, R506): refused at once, or waiting for its operation. In STANDBY every
operation but NOP needs TFB or TMV (R516). -/
def Dev.directEntry (d : Dev) (r : Nat) (e : List Byte) (inHold : Bool) : Dev :=
  let op := entByte e 0
  let res := match d.entRefusal (r / 64) e with
    | some (st, sub) => some { status := st, sub := sub }
    | none => if op ≠ 1 && !d.domOn 22 then some { status := 0x38, sub := 0 } else none
  let x : DirEntry := { seq := (d.sq r).taken, op := op, tag := BitVec.ofNat 32 (entNat e 4 4), words := entWords e,
                        haddr := entNat e 8 8, hlen := entNat e 16 4, arg := entByte e 56,
                        trailer := entByte e 1 / 2 % 2 = 1, inHold := inHold, res := res }
  let d := match res with | some x => d.noteMalformed r x.status | none => d
  d.setSq r { d.sq r with entries := (d.sq r).entries ++ [x] }

/-- ENTRY_TAKE (R495, R500, R503, R506, R512): the entry at C, if the ring may take it; one it does not own makes the ring wait for
the next doorbell. (Log entry 105 DEDUCED.) -/
def entryTakeOp (f s : Nat) (e : Option (List Byte)) (d : Dev) : Dev :=
  let r := 64 * f + s
  let c := d.sqCons r
  if d.sqState r ≠ 1 || c = (d.sq r).known || (d.sq r).waits then d
  else
    match e with
    | none => d.startStop r 0x1A 4
    | some e =>
      if !entOwned (d.sqBits r) c e then (d.setSq r { d.sq r with waits := true }).consStops r
      else if d.sqFirmware r then
        if d.inboxFull r then (d.setStall r true).consStops r
        else ((d.setStall r false).inboxEntry r e).advanceCons r
      else if 64 ≤ (d.sq r).entries.length || (entFence e && (d.sq r).entries ≠ []) then d.consStops r
      else
        match d.reserve (d.sqComp r) with
        | none => (d.setStall r true).consStops r
        | some (inHold, d) => ((d.setStall r false).directEntry r e inHold).advanceCons r

/-- The started entry taken after n others that asks for operation `op` and has no outcome yet. (Log entry 217 DEDUCED.) -/
def Dev.openEntry (d : Dev) (r n op : Nat) : Option DirEntry :=
  (d.sq r).entries.find? (fun e => e.seq = n && e.op = op && e.res.isNone)

/-- A started entry replaced. -/
def Dev.putEntryAt (d : Dev) (r : Nat) (e : DirEntry) : Dev :=
  d.setSq r { d.sq r with entries := (d.sq r).entries.map (fun x => if x.seq = e.seq then e else x) }

/-- A started entry whose operation needs TFB or TMV: NOT_READY, sub-code 00h, where they are off, else what it does (R516). -/
def Dev.withUnits (d : Dev) (r : Nat) (e : DirEntry) (go : Dev → Dev) : Dev :=
  if d.domOn 22 then go d else d.putEntryAt r (e.ended { status := 0x38, sub := 0 })

/-- Words written to the host buffer of an entry, with the trailer behind them where it asks for one (R467, R501); the
bytes written. -/
def Dev.entryOut (d : Dev) (f : Nat) (e : DirEntry) (st sub : Nat) (ws : List Word) (trailer : Bool) : Nat × Dev :=
  let all := if trailer then ws ++ crcTrailer st sub ws else ws
  (6 * all.length, d.hostWrite f e.haddr (bytesOfWords all))

/-- HOST_NOP. -/
def hostNopOp (f s n : Nat) (d : Dev) : Dev :=
  match d.openEntry (64 * f + s) n 1 with
  | some e => d.putEntryAt (64 * f + s) (e.ended { status := 0, sub := 0 })
  | none => d

/-- HOST_QUERY (R501): the query joins the queue under the ring's class. -/
def hostQueryOp (f s n : Nat) (d : Dev) : Dev :=
  let r := 64 * f + s
  match d.openEntry r n 2 with
  | some e =>
    if e.query.isSome then d
    else
      d.withUnits r e (fun d =>
        let id := d.tfb.nextQuery
        (d.submitQuery (.ring f s n) (d.rdF .hifFfSqsCfg r 25 21) e.words).putEntryAt r { e with query := some id })
  | none => d

/-- The output of a ring's query written (R501). (Log entry 103 DEDUCED.) -/
def Dev.ringQueryDone (d : Dev) (f s n : Nat) (ws : List Word) (st sub : Nat) : Dev :=
  let r := 64 * f + s
  match d.openEntry r n 2 with
  | none => d
  | some e =>
    let room := e.hlen / 6
    let trailer := e.trailer && decide (2 ≤ room)
    let limit := if trailer then room - 2 else room
    let cut := decide (limit < ws.length)
    let st := if cut then 1 else st
    let sub := if cut then 3 else sub
    let x := (d.noteMalformed r st).entryOut f e st sub (ws.take limit) trailer
    let t := ws.drop (ws.length - 4)
    x.2.putEntryAt r (e.ended { status := st, sub := sub, v0 := x.1,
                                v1 := BitVec.signExtend 64 (t.getD 2 0), v2 := t.getD 1 0 })

/-- HOST_RETRO (R501, R319). -/
def hostRetroOp (f s n : Nat) (d : Dev) : Dev :=
  let r := 64 * f + s
  match d.openEntry r n 3 with
  | some e =>
    d.withUnits r e (fun d =>
      let x := d.retroSubmit e.arg e.words
      (x.2.2.noteMalformed r x.1).putEntryAt r (e.ended { status := x.1, sub := x.2.1, v0 := e.arg }))
  | none => d

/-- HOST_READ (R501). (Log entry 103 DEDUCED.) -/
def hostReadOp (f s n : Nat) (d : Dev) : Dev :=
  let r := 64 * f + s
  match d.openEntry r n 4 with
  | none => d
  | some e =>
    d.withUnits r e (fun d =>
      let a := fld (e.words.getD 0 0) 39 0
      let len := e.hlen / 6
      if !sourceOk a len then d.putEntryAt r (e.ended { status := 0x21, sub := 7 })
      else
        let x := d.moverRead a len
        let y := x.2.2.entryOut f e x.2.1 0 x.1 e.trailer
        (y.2.wrapF .tmvDone 0 31 0 1).putEntryAt r (e.ended { status := x.2.1, sub := 0, v0 := y.1 }))

/-- REF_WRITE with its units there (R501, R217). -/
def Dev.refWriteEntry (d : Dev) (r : Nat) (e : DirEntry) (tiles : List (List Word)) (failed : Bool) : Dev :=
  let q := fld (e.words.getD 0 0) 25 0
  let t := e.hlen / 3072
  if (List.range t).any (fun i => (d.loadingRef (q + i)).isNone) then
    (d.noteMalformed r 0x10).putEntryAt r (e.ended { status := 0x10, sub := 0x12 })
  else
    let good := tiles.take t
    let x := ((List.range good.length).zip good).foldl (fun (acc : Nat × Nat × Dev) it =>
      if acc.1 ≠ 0 then acc
      else
        let w := acc.2.2.refWrite (d.rdF .hifFfSqsCfg r 25 21) (q + it.1)
          ((it.2.take 512) ++ List.replicate (512 - it.2.length) 0) false
        (w.1, if w.1 = 0 then acc.2.1 + 1 else acc.2.1, w.2)) (0, 0, d)
    let short := failed || decide (good.length < t)
    let o := if x.1 ≠ 0 then x.1 else if short then 0x41A else 0
    x.2.2.putEntryAt r (e.ended { status := o % 256, sub := o / 256, v0 := x.2.1 })

/-- REF_WRITE (R501, R516). -/
def refWriteOp (f s n : Nat) (tiles : List (List Word)) (failed : Bool) (d : Dev) : Dev :=
  let r := 64 * f + s
  match d.openEntry r n 5 with
  | none => d
  | some e => d.withUnits r e (fun d => d.refWriteEntry r e tiles failed)

/-- DIRECT_ENTRY_COMPLETE (R502, R506): the completion of an entry with its outcome goes to the place kept for it. -/
def directEntryCompleteOp (f s n : Nat) (d : Dev) : Dev :=
  let r := 64 * f + s
  match (d.sq r).entries.find? (fun e => e.seq = n) with
  | none => d
  | some e =>
    match e.res with
    | none => d
    | some o =>
      let d := d.setSq r { d.sq r with entries := (d.sq r).entries.filter (fun x => x.seq ≠ n) }
      (d.useReserved (d.sqComp r) e.inHold (compEntry o.status o.sub 0 s e.tag o.v0 o.v1.toNat o.v2)).refreshStalls f

/-! ### Completion doorbells, enabling and stopping (R486, R510–R513) -/

/-- COMPLETION_DOORBELL (R486, R504, R322). (Log entry 104 DEDUCED.) -/
def completionDoorbellOp (f c : Nat) (v : BitVec 64) (d : Dev) : Dev :=
  let r := 64 * f + c
  let n := d.cqBits r
  let h := v.toNat % 2 ^ 17
  if !d.domOn (10 + f) then d
  else if d.cqState r ≠ 1 then d.satF .hifFfStat f 31 16 1
  else if h < 2 ^ (n + 1) && idxSub n (d.cqProd r) h ≤ 2 ^ n then
    let before := d.cqProd r
    let d := Dev.cqFlush r (d.cqHeld r) (d.wrF .hifFfCqcHost r 16 0 h)
    ((d.cqAnnounce r before).resumeIfRoom r).refreshStalls f
  else (d.wrB .hifFfCqcStat r 17 true).ringErr f

/-- R510 for both kinds of ring of function f. -/
def Dev.ringsAllowed (d : Dev) (f : Nat) : Bool :=
  let st := d.devState
  (st = .ready || st = .run || st = .degraded || d.powerState = .standby) && d.attached f && d.agreed f ≠ 0

/-- RING_ENABLE of a submission ring (R487, R503, R510). -/
def Dev.enableSq (d : Dev) (r : Nat) : Dev :=
  let m := d.rdF .hifFfSqsInbox r 27 24
  let inbox := !d.sqFirmware r || (decide (4 ≤ m) && decide (m ≤ 10) &&
    decide (d.rdF .hifFfSqsInbox r 19 0 + 11 * 2 ^ m ≤ 1009664))
  let ok := d.ringsAllowed (r / 64) && (d.rd .hifFfSqsBase r).toNat % 64 = 0 && (d.rd .hifFfSqsHdr r).toNat % 64 = 0 &&
    decide (d.rdF .hifFfSqsCfg r 17 14 ≤ 12) && d.cqState (d.sqComp r) = 1 && inbox
  if d.sqState r ≠ 0 then d
  else if ok then
    let d := (d.wrB .hifFfSqsCfg r 0 true).wr .hifFfSqsStat r (setFld (d.rd .hifFfSqsStat r &&& 0x80000) 18 17 1)
    ((d.wr .hifFfSqsInboxIdx r 0).setSq r {}).writeCons r
  else (d.wrB .hifFfSqsCfg r 2 true).ringErr (r / 64)

/-- A completion ring beyond its registers back at its start; a message that waits for COAL still does (R508).
(Log entry 213 DEDUCED.) -/
def Dev.clearCq (d : Dev) (r : Nat) : Dev := d.setCq r { lastMsg := (d.cq r).lastMsg, msgDue := (d.cq r).msgDue }

/-- RING_ENABLE of a completion ring (R487, R510). (Log entry 213 DEDUCED.) -/
def Dev.enableCq (d : Dev) (r : Nat) : Dev :=
  let ok := d.ringsAllowed (r / 64) && (d.rd .hifFfCqcBase r).toNat % 64 = 0 && decide (d.rdF .hifFfCqcCfg r 13 10 ≤ 12)
  if d.cqState r ≠ 0 then d
  else if ok then
    let d := (d.wrB .hifFfCqcCfg r 0 true).wr .hifFfCqcStat r (setFld (d.rd .hifFfCqcStat r &&& 0x20000) 24 23 1)
    ((d.wr .hifFfCqcHost r 0).clearCq r).refreshHold
  else (d.wrB .hifFfCqcCfg r 2 true).ringErr (r / 64)

/-- RING_ENABLE. -/
def ringEnableOp (f : Nat) (sub : Bool) (s : Nat) (d : Dev) : Dev :=
  if sub then d.enableSq (64 * f + s) else d.enableCq (64 * f + s)

/-- SQ_STOP (R511). -/
def sqStopOp (f s : Nat) (d : Dev) : Dev := if d.sqState (64 * f + s) = 1 then d.startStop (64 * f + s) 0 0 else d

/-- The entries from index c up to PROD or the first one not owned (R511 step 4). (Log entry 106 DEDUCED.) -/
def unstarted (n prod : Nat) : Nat → List (List Byte) → List (List Byte)
  | _, [] => []
  | c, e :: es =>
    if c % 2 ^ (n + 1) = prod || !entOwned n (c % 2 ^ (n + 1)) e then [] else e :: unstarted n prod (c + 1) es

/-- The entries read from index c on end before PROD and before one not owned: the read of the next one failed (R512).
(Log entry 106 DEDUCED.) -/
def readFails (n prod : Nat) : Nat → List (List Byte) → Bool
  | c, [] => decide (c % 2 ^ (n + 1) ≠ prod)
  | c, e :: es =>
    if c % 2 ^ (n + 1) = prod || !entOwned n (c % 2 ^ (n + 1)) e then false else readFails n prod (c + 1) es

/-- Steps 3 and 4 of a stop: the header is read once more, C moves behind the entries to abort, and their completions and the stop
marker wait to be written (R511, R512). (Log entry 106 DEDUCED.) -/
def Dev.stopEntries (d : Dev) (r : Nat) (prod : Option (BitVec 32)) (entries : List (List Byte)) : Dev :=
  let n := d.sqBits r
  let c := d.sqCons r
  let (left, failed) := match prod with
    | some p =>
      if p.toNat < 2 ^ (n + 1) && idxSub n p.toNat c ≤ 2 ^ n then (unstarted n p.toNat c entries, readFails n p.toNat c entries)
      else ([], false)
    | none => ([], true)
  let stop := if failed then (0x1A, 4) else (d.sq r).stopSt
  let c' := (c + left.length) % 2 ^ (n + 1)
  let aborted := left.map (fun e => compEntry 0x08 0 0 (r % 64) (BitVec.ofNat 32 (entNat e 4 4)) 0 0 0)
  let marker := compEntry stop.1 stop.2 2 (r % 64) 0 c' left.length 0
  (d.wrF .hifFfSqsStat r 16 0 c').setSq r { d.sq r with stopRead := true, stopQ := aborted ++ [marker] }

/-- One completion of a stop goes to the completion ring or its holding area, if either has a place (R504, R505).
(Log entry 106 DEDUCED.) -/
def Dev.stopPut (d : Dev) (r : Nat) : Dev :=
  let q := d.sqComp r
  match (d.sq r).stopQ with
  | [] => d
  | e :: es =>
    if d.cqRoom q + d.holdFree q = 0 then d
    else
      let d := d.cqPut q [e]
      d.setSq r { d.sq r with stopQ := es, stopAt := (d.cq q).flushed + d.cqHeld q }

/-- STOP_FINISH (R511, R512): once every started entry has completed, the completions of the stop are put where there is room, and
when all of them are written the ring is OFF. (Log entry 106 DEDUCED.) -/
def stopFinishOp (f s : Nat) (prod : Option (BitVec 32)) (entries : List (List Byte)) (d : Dev) : Dev :=
  let r := 64 * f + s
  if d.sqState r ≠ 2 || (d.sq r).entries ≠ [] then d
  else
    let d := if (d.sq r).stopRead then d else d.stopEntries r prod entries
    let d := forUpTo (d.sq r).stopQ.length (fun _ d => d.stopPut r) d
    if (d.sq r).stopQ ≠ [] || (d.cq (d.sqComp r)).flushed < (d.sq r).stopAt then d
    else
      let d := d.writeCons r
      let d := (d.wrF .hifFfSqsStat r 18 17 0).wrB .hifFfSqsCfg r 0 false
      ((d.setSq r {}).setStall r false).ringStopped f

/-- CQ_STOP (R513). (Log entry 213 DEDUCED.) -/
def cqStopOp (f c : Nat) (d : Dev) : Dev :=
  let r := 64 * f + c
  if (List.range 64).any (fun s => d.sqState (64 * f + s) ≠ 0 && d.sqComp (64 * f + s) = r) then
    (d.wrB .hifFfCqcCfg r 2 true).ringErr f
  else if d.cqState r = 0 then d
  else
    let n := d.cqHeld r
    let d := (d.satF .hifFfLost f 31 0 n).satF .hifFfCqcCount r 47 32 n
    let d := (d.setHeld r 0).clearCq r
    let d := ((d.wrF .hifFfCqcStat r 40 34 0).wrF .hifFfCqcStat r 24 23 0).wrB .hifFfCqcCfg r 0 false
    (d.resumeRing r).ringStopped f

/-- HOST_VER_WRITE (R515). -/
def hostVerWriteOp (f v : Nat) (d : Dev) : Dev :=
  let a := if v / 16 = 1 then 0x10 + min (v % 16) 1 else 0
  (d.wrF .hifFfCtl f 15 8 v).wrF .hifFfCtl f 23 16 a

/-! ### Attachment (R477, R481) -/

/-- The link power states of USB4 besides CL0 (R476). -/
inductive ClState where
  | cl0s | cl1 | cl2
  deriving DecidableEq, Repr

/-- The link states that the router allows: CL0s alone, and in STANDBY also CL1 and CL2 (R476). (Log entry 194 DEDUCED.) -/
def Dev.clAllowed (d : Dev) (c : ClState) : Bool :=
  match c with
  | .cl0s => true
  | .cl1 | .cl2 => d.powerState = .standby

/-- LOWPWR of each port: a connected port's link is in a low-power state where CL1 and CL2 are allowed (R23, R476, R518).
(Log entry 194 DEDUCED.) -/
def Dev.refreshLowPower (d : Dev) : Dev :=
  forUpTo 2 (fun p d =>
    d.wrB .hifStat 0 (8 * p + 3) (d.domOn (10 + p) && d.rdF .hifStat 0 (8 * p + 2) (8 * p) ≠ 0 && d.clAllowed .cl1)) d

/-- FUNCTION_ATTACH (R477): the port is connected in a mode, its tunnel stands, Bus Master Enable is 1. -/
def functionAttachOp (f mode : Nat) (d : Dev) : Dev :=
  if !d.domOn (10 + f) || d.attached f || mode = 0 then d
  else
    let d := (d.wrF .hifStat 0 (8 * f + 2) (8 * f) mode).wrB .hifStat 0 (8 * f + 4) true
    ((((d.wrB .hifFfStat f 0 true).wrB .hifFfStat f 1 true).refreshLowPower).flushMsix f).raise (684 + f)

/-- A submission ring of a lost function goes OFF without a completion: those due from started entries and from a stop are lost
(R481). (Log entry 104 DEDUCED.) -/
def Dev.loseSq (d : Dev) (r : Nat) : Dev :=
  let x := d.sq r
  let d := x.entries.foldl (fun d (e : DirEntry) => match e.query with | some q => d.dropQuery q | none => d) d
  let marker := if d.sqState r = 2 && !x.stopRead then 1 else 0
  let d := d.satF .hifFfLost (r / 64) 31 0 (x.entries.length + x.stopQ.length + marker)
  (((d.setSq r {}).wrF .hifFfSqsStat r 18 17 0).wrB .hifFfSqsCfg r 0 false).setStall r false

/-- A completion ring of a lost function goes OFF, its held entries lost (R481). (Log entry 104 DEDUCED.) -/
def Dev.loseCq (d : Dev) (r : Nat) : Dev :=
  let d := (d.satF .hifFfLost (r / 64) 31 0 (d.cqHeld r)).satF .hifFfCqcCount r 47 32 (d.cqHeld r)
  let d := (d.setHeld r 0).setCq r {}
  let d := ((d.wrF .hifFfCqcStat r 40 34 0).wrF .hifFfCqcStat r 24 23 0).wrB .hifFfCqcCfg r 0 false
  d.resumeRing r

/-- The transfers of channels to a lost function end with LINK_DOWN, sub-code 05h (R481). -/
def Dev.loseTransfers (d : Dev) (f : Nat) : Dev :=
  forUpTo 512 (fun c d =>
    let x := d.chan c
    match x.run, x.gather with
    | some r, some g =>
      (match g.dest with
       | some (.host h _) => if h = f && !r.op.isWait then d.xferAbort c 0x30 5 else d
       | _ => d)
    | _, _ => d) d

/-- The HIF registers of a function. -/
def hifFunctionRegs : List Reg :=
  [.hifFfCtl, .hifFfStat, .hifFfLost]

/-- The HIF registers of a ring of a function. -/
def hifRingRegs : List Reg :=
  [.hifFfSqsCfg, .hifFfSqsBase, .hifFfSqsHdr, .hifFfSqsHdrHi, .hifFfSqsStat, .hifFfSqsInbox, .hifFfSqsInboxIdx,
   .hifFfSqsCount, .hifFfCqcCfg, .hifFfCqcBase, .hifFfCqcStat, .hifFfCqcHost, .hifFfCqcCount]

/-- A register returned to its reset value. -/
def Dev.unwrite (d : Dev) (r : Reg) (i : Nat) : Dev := { d with regs := tdel d.regs (regKey r i) }

/-- Every HIF register of function f returned to its reset value (R481). -/
def Dev.resetFunction (d : Dev) (f : Nat) : Dev :=
  let d := hifFunctionRegs.foldl (fun d r => d.unwrite r f) d
  let d := forUpTo 64 (fun s d => hifRingRegs.foldl (fun d r => d.unwrite r (64 * f + s)) d) d
  { d with hif := { d.hif with mbx := tdel d.hif.mbx f, msix := tdel d.hif.msix f } }

/-- The mailbox of function f. -/
def Dev.mbx (d : Dev) (f : Nat) : Mailbox := tget d.hif.mbx {} f

/-- The mailbox of function f replaced. -/
def Dev.setMbx (d : Dev) (f : Nat) (m : Mailbox) : Dev := { d with hif := { d.hif with mbx := tset d.hif.mbx f m } }

/-- Function f stops being attached (R481): nothing is written to its host any more. (Log entry 104 DEDUCED.) -/
def Dev.loseFunction (d : Dev) (f : Nat) : Dev :=
  let d := (d.wrB .hifFfStat f 0 false).wrB .hifStat 0 (8 * f + 4) false
  let d := forUpTo 64 (fun s d => (d.loseSq (64 * f + s)).loseCq (64 * f + s)) d
  let d := d.loseTransfers f
  (d.setMbx f { d.mbx f with busy := false, answer := none }).raise (684 + f)

/-- FUNCTION_DETACH (R481): the cause acts on the function attached or not. (Log entry 104 DEDUCED.) -/
def functionDetachOp (f : Nat) (cause : DetachCause) (d : Dev) : Dev :=
  let d := if d.attached f then d.loseFunction f else d
  match cause with
  | .port => (d.wrF .hifStat 0 (8 * f + 2) (8 * f) 0).refreshLowPower
  | .tunnel => d
  | .busMaster => d.wrB .hifFfStat f 1 false
  | .reset => d.resetFunction f

/-! ### The mailbox (R482, R483) -/

/-- DAS address of the first word of a mailbox area (R482 and the map of Goatherd private memory). -/
def mbxBase (f : Nat) (rsp : Bool) : Nat := 0xA9D350 + 10924 * (2 * f + rsp.toNat)

/-- MBX_GO (R483): a request length outside 1–65,536 is ignored and counted as a bad access. (Log entry 103 DEDUCED.) -/
def mbxGoOp (f len : Nat) (d : Dev) : Dev :=
  let m := d.mbx f
  if !d.attached f then d
  else if m.busy || m.done || len = 0 || 65536 < len then d.badAcc f
  else (d.setMbx f { m with busy := true, reqLen := len, answer := none }).raise 693

/-- MBX_RESPONSE (R483): the answer Goatherd has made is placed, BUSY clears, DONE is set and the vector is sent. -/
def mbxResponseOp (f : Nat) (d : Dev) : Dev :=
  let m := d.mbx f
  match m.answer with
  | some bs =>
    if m.busy then
      let d := d.sramWrites (mbxBase f true) (wordsOfBytes ((bs.length + 5) / 6) bs)
      let d := d.setMbx f { m with busy := false, done := true, rspLen := bs.length, answer := none }
      if m.vecEn then d.sendMsix f m.vec else d
    else d
  | none => d

/-- MBX_DONE_CLEAR (R482, R483). -/
def mbxDoneClearOp (f : Nat) (d : Dev) : Dev := d.setMbx f { d.mbx f with done := false }

/-- Bytes replaced in a word from byte i on. -/
def mergeBytes (i : Nat) (bs : List Byte) (w : Word) : Word :=
  ((List.range bs.length).zip bs).foldl (fun w ib => setFld w (8 * (i + ib.1) + 7) (8 * (i + ib.1)) ib.2.toNat) w

/-- Bytes written into an area from a byte offset, word by word: whole words as such, the rest by read-modify-write (R422,
R482); `fuel` bounds the words. -/
def Dev.writeBytes (base : Nat) : Nat → Nat → List Byte → Dev → Dev
  | 0, _, _, d => d
  | fuel + 1, off, bs, d =>
    if bs = [] then d
    else
      let i := off % 6
      let part := bs.take (6 - i)
      let a := base + off / 6
      let d := if part.length = 6 then d.sramWrite a (mergeBytes 0 part 0) else (d.sramMerge a (mergeBytes i part)).2
      writeBytes base fuel (off + part.length) (bs.drop (6 - i)) d

/-- HOST_MAILBOX_WRITE (R482, R483): a host write to BAR2. -/
def hostMailboxWriteOp (f off : Nat) (bytes : List Byte) (d : Dev) : Dev :=
  let v := natOfBytes (bytes.take 8)
  let m := d.mbx f
  if !d.attached f then d
  else if off = 8 then (if v / 2 ^ 31 % 2 = 1 then mbxGoOp f (v % 2 ^ 17) d else d)
  else if off = 16 then (if v / 2 ^ 31 % 2 = 1 then mbxDoneClearOp f d else d)
  else if off = 24 then d.setMbx f { m with vec := v % 64, vecEn := v / 256 % 2 = 1 }
  else if 0x10000 ≤ off && off < 0x20000 && !m.busy then
    Dev.writeBytes (mbxBase f false) bytes.length (off - 0x10000) (bytes.take (0x20000 - off)) d
  else d

/-- Eight bytes of an area read by a host from a byte offset, by the words they lie in; none where a word of them cannot be read,
which the host sees as Completer Abort (R423, R482). -/
def Dev.areaRead (d : Dev) (base off : Nat) : Option (BitVec 64) × Dev :=
  let r := d.sramReads (base + off / 6) ((off % 6 + 8 + 5) / 6)
  if r.2.1 ≠ 0 then (none, r.2.2)
  else (some (BitVec.ofNat 64 (natOfBytes (((bytesOfWords r.1).drop (off % 6)).take 8))), r.2.2)

/-- A host's 8-byte read of BAR2 of function f (R482): MBX_STAT, MBX_RSP, MBX_VEC and the two areas; every other offset, and all of
them while the function is not attached, read zero. The table has no command for a read. -/
def Dev.mailboxRead (d : Dev) (f off : Nat) : Option (BitVec 64) × Dev :=
  let m := d.mbx f
  let reg (n : Nat) : Option (BitVec 64) × Dev := (some (BitVec.ofNat 64 n), d)
  if !d.attached f then reg 0
  else if off = 0 then reg (m.busy.toNat + 2 * m.done.toNat + 256 * d.devState.code)
  else if off = 16 then reg (m.rspLen + 2 ^ 31 * m.done.toNat)
  else if off = 24 then reg (m.vec + 256 * m.vecEn.toNat)
  else if 0x10000 ≤ off && off + 8 ≤ 0x20000 then d.areaRead (mbxBase f false) (off - 0x10000)
  else if 0x20000 ≤ off && off + 8 ≤ 0x30000 then d.areaRead (mbxBase f true) (off - 0x20000)
  else reg 0

/-- The bytes of a mailbox request. -/
def Dev.mbxRequest (d : Dev) (f : Nat) : List Byte :=
  let n := (d.mbx f).reqLen
  (bytesOfWords ((List.range ((n + 5) / 6)).map (fun i => (d.cell (mbxBase f false + i)).data))).take n

/-! ### Ends of queries (R212, R314, R501) -/

/-- QUERY_DESCRIPTOR (6300h.1): NOT_READY, sub-code 39h, while one is in service or queued; else it joins the queue under
class 5. (Log entry 75 DEDUCED.) -/
def queryDescriptorOp (ws : List Word) (d : Dev) : Dev :=
  if d.tfb.dictState = 1 then d.answer 0x38 0x39
  else
    let d := d.submitQuery .dict 5 ws
    ({ d with tfb := { d.tfb with dictState := 1 } }).answer 0 0

/-- The most words a query through 6300h can leave: 256 directory tiles of 256 bands, and the trailer (R211, R212, R233).
(Log entry 214 DESIGN CHOICE.) -/
def resultRoom : Nat := 196612

/-- The first word of the value of 6300h.2 in SRAM, among the data of Goatherd (R583, R648). (Log entry 214 DESIGN CHOICE.) -/
def resultBase : Nat := 0xA55800 + Config.resultOffset % (293712 - resultRoom + 1)

/-- A query leaves the queue, and its output goes to whoever sent it. (Log entry 75 DEDUCED.) -/
def Dev.finishQuery (d : Dev) (q : Query) : Dev :=
  let x := d.runQuery q
  let y := x.2.2.2.passBuffer (.query q.id) x.1
  let st := if y.2.1 = 0 then x.2.1 else y.2.1
  let sub := if y.2.1 = 0 then x.2.2.1 else 0
  let d := (y.2.2.dropQuery q.id).wrapF .tmvDone 0 31 0 1
  match q.src with
  | .dict =>
    let ws := y.1.take resultRoom
    let d := d.sramWrites resultBase ws
    { d with tfb := { d.tfb with dictLen := ws.length, dictState := 2 } }
  | .channel _ =>
    { d with ibx := { d.ibx with done := d.ibx.done ++ [{ id := q.id, words := y.1, status := st, sub := sub }] } }
  | .ring f s i => d.ringQueryDone f s i y.1 st sub

/-- QUERY_COMPLETE: a query in service that is ready ends, once its engine has served it (R461). -/
def queryCompleteOp (n : Nat) (d : Dev) : Dev :=
  match d.query n with
  | none => d
  | some q =>
    if !q.service || !d.queryReady q then d
    else
      let e := d.engineTurn (.query n)
      if e.1 then e.2.finishQuery q else e.2

end Sys2Proof.Machine
end

