-- ==== Sys2Proof/Machine/Ibx.lean ====
section
/-! DEFINITION. The channel commands (R292, R302–R311, R313, R314, R316–R321). Each is reached by a RUNNING channel at its
program counter; `chStart` does what all of them share. -/

namespace Sys2Proof

/-- No flag but END, HOLD and NOTE (R292). -/
def ChWord.plain (w : ChWord) : Bool := !w.more && !w.dry && !w.strict

/-- TARGET lies below a limit and COUNT is 0 (R292). -/
def ChWord.only (w : ChWord) (limit : Nat) : Bool := decide (w.target.toNat < limit) && w.count = 0

/-- COUNT of a command. -/
def ChWord.n (w : ChWord) : Nat := w.count.toNat

end Sys2Proof

namespace Sys2Proof.Machine

/-- NOP. -/
def chNopOp (c : Nat) (w : ChWord) (d : Dev) : Dev :=
  d.chStart c 0xC0 w (w.plain && w.only 1 && w.a.val = 0) (fun d => d.chFinish c 0xC0 w 0 0 0 0)

/-- POSWAIT meets its position, or its axis's FAULT (R302). (Log entry 98 DEDUCED.) -/
def Dev.pollPoswait (d : Dev) (c : Nat) : Dev :=
  match (d.chan c).run with
  | some r =>
    match r.op, r.cut with
    | .poswait _ _, some (st, sub) => d.endWait c r st sub 0 0
    | .poswait a pos, none =>
      if d.axisReaches a pos 0 then d.endWait c r 0 0 0 0
      else if d.axisState a = .fault then d.endWait c r 0x38 5 0 0
      else d
    | _, _ => d
  | none => d

/-- POSWAIT (R302). -/
def chPoswaitOp (c : Nat) (w : ChWord) (d : Dev) : Dev :=
  d.chStart c 0xC1 w (w.plain && decide (w.target.toNat < 4)) (fun d =>
    match d.chRead (d.chAddr c w) 1 with
    | (.error (st, sub), d) => d.chFinish c 0xC1 w st sub 0 0
    | (.ok ws, d) =>
      let pos := ws.getD 0 0
      if atOrPast (d.axisPos w.target.toNat) pos then d.chFinish c 0xC1 w 0 0 0 0
      else (d.chWait c 0xC1 w (.poswait w.target.toNat pos)).pollPoswait c)

/-- POSWAIT_REACHED. -/
def poswaitReachedOp (c : Nat) (d : Dev) : Dev := if d.chOn c && d.chState c = 2 then d.pollPoswait c else d

/-- The low 20 bits of a time (R293). -/
def low20 (t : Word) : Nat := fld t 19 0

/-- A WAITEV completes, and its source is latched from here on (R303). -/
def Dev.endWaitev (d : Dev) (c code : Nat) (w : ChWord) (src : Nat) (st sub value : Nat) : Dev :=
  let d := { d with wev := tset d.wev c { src := src } }
  d.chFinish c code w st sub 0 value

/-- WAITEV (R303). (Log entry 99 DEDUCED.) -/
def chWaitevOp (c : Nat) (w : ChWord) (d : Dev) : Dev :=
  d.chStart c 0xC2 w (w.plain && w.a.val = 0) (fun d =>
    let i := w.target.toNat
    let l := tget d.wev {} c
    if i < 320 then d.chFinish c 0xC2 w 0x10 6 0 0
    else if srcKind i = .level && (d.source i).e then d.endWaitev c 0xC2 w i 0 0 (low20 (d.source i).rose)
    else
      match (if l.src = i then l.latched else none) with
      | some t => d.endWaitev c 0xC2 w i 0 0 (low20 t)
      | none =>
        ({ d with wev := tset d.wev c { l with waitSrc := some i, raised := none } }).chWait c 0xC2 w (.waitev i))

/-- WAITEV_RAISED (R303): the source waited for has been raised. (Log entry 99 DEDUCED.) -/
def waitevRaisedOp (c : Nat) (d : Dev) : Dev :=
  if !d.chOn c || d.chState c ≠ 2 then d
  else
    match (d.chan c).run with
    | some r =>
      match r.op, (tget d.wev {} c).raised with
      | .waitev i, some t => d.endWaitev c r.code r.w i 0 0 (low20 t)
      | _, _ => d
    | none => d

/-- FIRE (R307, R308, R324). (Log entry 100 DEDUCED.) -/
def chFireOp (c : Nat) (w : ChWord) (d : Dev) : Dev :=
  d.chStart c 0xC3 w (w.plain && w.only 128) (fun d =>
    let a := w.target.toNat / 32
    let out := w.target.toNat % 32
    let own := d.claimRes c (.oneShot out)
    match own.2.chRead (own.2.chAddr c w) 2 with
    | (.error (st, sub), d) => d.chFinish c 0xC3 w st sub 0 0
    | (.ok ws, d) =>
      let pos := ws.getD 0 0
      let w1 := ws.getD 1 0
      if fld w1 47 20 ≠ 0 then d.chFinish c 0xC3 w 0x12 0 0 0
      else if fld w1 11 0 < 8 then d.chFinish c 0xC3 w 0x10 8 0 0
      else if !own.1 || (d.outGen out).isSome then d.chFinish c 0xC3 w 0x38 3 0 0
      else if d.axisState a = .fault then d.chFinish c 0xC3 w 0x38 5 0 0
      else if atOrPast (d.axisPos a) pos then d.chFinish c 0xC3 w 0x02 1 0 0
      else d.chWait c 0xC3 w (.fire a out pos w1 none))

/-- FIRE_ONESHOT: the armed FIRE meets its position, or what ends it (R307, R308). -/
def fireOneshotOp (c : Nat) (d : Dev) : Dev := if d.chOn c && d.chState c = 2 then d.pollFire c false else d

/-- The entries of an ACT pushed in order up to the first refusal: how many, and the outcome (R65, R309). -/
def Dev.pushEntries (d : Dev) (k : Nat) : List Word → Nat × Nat × Nat × Dev
  | p :: w :: rest =>
    match d.pushAct k p w with
    | (.full, d) => (0, 0x38, 7, d)
    | (.notPast, d) => (0, 0x10, 9, d)
    | (.taken, d) =>
      let r := d.pushEntries k rest
      (r.1 + 1, r.2.1, r.2.2.1, r.2.2.2)
  | _ => (0, 0, 0, d)

/-- ACT (R309, R324). -/
def chActOp (c : Nat) (w : ChWord) (d : Dev) : Dev :=
  d.chStart c 0xC4 w (w.plain && decide (w.target.toNat < 16) && decide (w.n ≤ 16)) (fun d =>
    let k := w.target.toNat
    let own := d.claimRes c (.scheduler k)
    let d := own.2
    if !own.1 then d.chFinish c 0xC4 w 0x38 3 w.n 0
    else if !d.rdB .sprActkCfg k 2 then d.chFinish c 0xC4 w 0x38 6 w.n 0
    else
      match d.chRead (d.chAddr c w) (2 * w.n) with
      | (.error (st, sub), d) => d.chFinish c 0xC4 w st sub w.n 0
      | (.ok ws, d) =>
        let r := d.pushEntries k ws
        r.2.2.2.chFinish c 0xC4 w r.2.1 r.2.2.1 (w.n - r.1) r.1)

/-- The tally of a head. -/
def Dev.tally (d : Dev) (h : Nat) : List (Bool × Nat) := ((d.head h).tally).getD []

/-- VALUE of a LINES over the lines it removes (R293). (Log entry 61 DEDUCED.) -/
def linesValue (l : List (Bool × Nat)) : Nat :=
  let damaged := (l.filter (fun x => x.1)).length
  let causes := l.foldl (fun m x => m ||| x.2) 0
  min damaged 4095 + (causes % 128) * 4096

/-- LINES meets its count, or the head goes (R310). -/
def Dev.pollLines (d : Dev) (c : Nat) : Dev :=
  match (d.chan c).run with
  | some r =>
    match r.op with
    | .lines h n exits =>
      let t := d.tally h
      if n ≤ t.length then
        (d.setHead h { d.head h with tally := some (t.drop n) }).endWait c r 0 0 0 (linesValue (t.take n))
      else if exits < (d.head h).exits then
        (d.setHead h { d.head h with tally := some [] }).endWait c r 0x30 4 (n - t.length) (linesValue t)
      else if d.headState h = .off then d.endWait c r 0x38 6 n 0
      else d
    | _ => d
  | none => d

/-- LINES (R310, R324). A tally that already holds COUNT lines completes it at once whatever the head's state.
(Log entries 100 DEDUCED, 191 DEDUCED.) -/
def chLinesOp (c : Nat) (w : ChWord) (d : Dev) : Dev :=
  d.chStart c 0xC8 w (w.plain && decide (w.target.toNat < 64) && w.a.val = 0) (fun d =>
    let h := w.target.toNat
    let own := d.claimRes c (.tally h)
    let d := own.2
    if !own.1 then d.chFinish c 0xC8 w 0x38 3 w.n 0
    else
      let d := d.setHead h { d.head h with tally := some (d.tally h) }
      if d.headState h = .off && (d.tally h).length < w.n then d.chFinish c 0xC8 w 0x38 6 w.n 0
      else (d.chWait c 0xC8 w (.lines h w.n (d.head h).exits)).pollLines c)

/-- LINES_COUNTED. -/
def linesCountedOp (c : Nat) (d : Dev) : Dev := if d.chOn c && d.chState c = 2 then d.pollLines c else d

/-- MSG (R165, R166, R311, R324). (Log entry 175 DEDUCED.) -/
def chMsgOp (c : Nat) (w : ChWord) (d : Dev) : Dev :=
  d.chStart c 0xC9 w (!w.more && decide (w.target.toNat < 64) && decide (1 ≤ w.n)) (fun d =>
    let h := w.target.toNat
    let own := d.claimRes c (.msgFifo h)
    let d := own.2
    let a := d.chAddr c w
    let item := (d.head h).msgs.head?
    let bytes := (item.map (·.bytes)).getD 0
    let len := 1 + (bytes + 5) / 6
    let n := min w.n len
    if !own.1 then d.chFinish c 0xC9 w 0x38 3 w.n 0
    else if !d.headUp h then d.chFinish c 0xC9 w 0x30 0 w.n 0
    else if !inProgram a n then d.chFinish c 0xC9 w 0x21 7 w.n 0
    else
      let d := d.setHead h { d.head h with msgs := (d.head h).msgs.drop 1 }
      let r : List Word × Nat × Dev := match item with
        | some m => d.sramReads (msgAddr h m.slot) n
        | none => ([0], 0, d)
      let d := if w.dry then r.2.2 else r.2.2.sramWrites a r.1
      if r.2.1 ≠ 0 then d.chFinish c 0xC9 w r.2.1 0 (w.n - r.1.length) 0
      else d.chFinish c 0xC9 w (shortOr w (n ≠ len)) 0 (len - n) bytes)

/-- BANDWAIT meets its band, or the horizon (R304). -/
def Dev.pollBandwait (d : Dev) (c : Nat) : Dev :=
  match (d.chan c).run with
  | some r =>
    match r.op with
    | .bandwait h pos =>
      if !d.hasRing h then d.endWait c r 0x21 2 0 0
      else if (d.lb h).nextS ≠ 0 && !atOrPast pos (d.hznPos h) then d.endWait c r 0x20 5 0 0
      else if d.holds h && atOrPast (d.newEnd h) pos then d.endWait c r 0 0 0 0
      else d
    | _ => d
  | none => d

/-- BANDWAIT (R304). -/
def chBandwaitOp (c : Nat) (w : ChWord) (d : Dev) : Dev :=
  d.chStart c 0xCA w (w.plain && decide (w.target.toNat < 64)) (fun d =>
    match d.chRead (d.chAddr c w) 1 with
    | (.error (st, sub), d) => d.chFinish c 0xCA w st sub 0 0
    | (.ok ws, d) => (d.chWait c 0xCA w (.bandwait w.target.toNat (ws.getD 0 0))).pollBandwait c)

/-- BANDWAIT_HELD. -/
def bandwaitHeldOp (c : Nat) (d : Dev) : Dev := if d.chOn c && d.chState c = 2 then d.pollBandwait c else d

/-- WAIT_LIMIT (R302–R304): the limit in COUNT has passed, in ms for POSWAIT and µs for WAITEV and BANDWAIT. -/
def waitLimitOp (c : Nat) (d : Dev) : Dev :=
  if !d.chOn c || d.chState c ≠ 2 then d
  else
    match (d.chan c).run with
    | some r =>
      let unit := match r.op with | .poswait _ _ => 1000000 | .waitev _ => 1000 | .bandwait _ _ => 1000 | _ => 0
      if unit = 0 || r.w.n = 0 || elapsed d.now r.since < r.w.n * unit then d
      else
        (match r.op, r.cut with
         | _, some (st, sub) => d.endWait c r st sub 0 0
         | .waitev i, none => d.endWaitev c r.code r.w i 0x38 4 0
         | _, none => d.endWait c r 0x38 4 0 0)
    | none => d

/-- MOVE (R313): its request joins the queue of the movers (R461). -/
def chMoveOp (c : Nat) (w : ChWord) (d : Dev) : Dev :=
  d.chStart c 0xD0 w (w.target = 0) (fun d =>
    match d.chRead (d.chAddr c w) 4 with
    | (.error (st, sub), d) => d.xferFail c 0xD0 w st sub
    | (.ok ws, d) => d.xferStart c 0xD0 w false ws (fun x d =>
        let n := if w.count = 0 then x.len else w.n
        let g := (d.chan c).gather.getD {}
        if !sourceOk x.source n then d.xferFail c 0xD0 w 0x21 7
        else
          match (match g.dest with | some t => d.destFits g.data.length n g.trailer t | none => none) with
          | some (st, sub) => d.xferFail c 0xD0 w st sub
          | none =>
            let write := match g.dest with | some (.host _ _) => false | _ => true
            (d.askMover (.move c) n write).chWait c 0xD0 w (.move x.source n)))

/-- QUERY (R314): the query joins the queue under the channel's class. -/
def chQueryOp (c : Nat) (w : ChWord) (d : Dev) : Dev :=
  d.chStart c 0xD1 w (w.target = 0) (fun d =>
    match d.chRead (d.chAddr c w) 10 with
    | (.error (st, sub), d) => d.xferFail c 0xD1 w st sub
    | (.ok ws, d) => d.xferStart c 0xD1 w true (ws.drop 6) (fun _ d =>
        let id := d.tfb.nextQuery
        match ((d.chan c).gather.getD {}).dest with
        | some (.tiles _) => d.xferFail c 0xD1 w 0x10 8
        | _ => (d.submitQuery (.channel c) (d.chClass c) (ws.take 6)).chWait c 0xD1 w (.query id)))

/-- Records taken from a queue, n at most: what they deliver, how many were consumed, and the status that stopped it (R316). -/
def Dev.takeRecords (d : Dev) (retro : Bool) : Nat → List Word × Nat × Nat × Dev
  | 0 => ([], 0, 0, d)
  | n + 1 =>
    let r : Reg := if retro then .cexRqCons else .cexLqCons
    let k := d.rdF r 0 12 0
    let x := d.sramReads ((if retro then 0x95D800 else 0x955800) + 8 * (k % 4096)) 8
    let d := x.2.2.wrF r 0 12 0 (k + 1)
    if x.2.1 ≠ 0 then ([], 0, x.2.1, d)
    else
      let y := d.takeRecords retro n
      (x.1 ++ y.1, y.2.1 + 1, y.2.2.1, y.2.2.2)

/-- Up to n records of the `left` that are there (R316). -/
def Dev.takeFor (d : Dev) (c : Nat) (r : ChanRun) (retro : Bool) (n dest left : Nat) : Dev :=
  let x := d.takeRecords retro (min n left)
  let d := if r.w.dry then x.2.2.2 else x.2.2.2.sramWrites dest x.1
  let d := if retro then d.runRetro else d
  let st := if x.2.2.1 ≠ 0 then x.2.2.1 else shortOr r.w (x.2.1 ≠ n)
  d.endWait c r st 0 (n - x.2.1) x.2.1

/-- A QTAKE takes what its queue holds, or the end of a job (R316, R318); with nothing there it waits. -/
def Dev.pollQtake (d : Dev) (c : Nat) : Dev :=
  match (d.chan c).run with
  | some r =>
    match r.op with
    | .qtake retro n dest =>
      let cons := d.rdF (if retro then .cexRqCons else .cexLqCons) 0 12 0
      let have_ := d.cexCount retro
      match (if retro then d.cex.jobEnds.head? else none) with
      | some (p, st, sub, tag) =>
        let left := min have_ ((p + 8192 - cons) % 8192)
        if left = 0 then
          ({ d with cex := { d.cex with jobEnds := d.cex.jobEnds.drop 1 } }).endWait c r st sub 0 (tag + 0x80000)
        else d.takeFor c r retro n dest left
      | none => if have_ = 0 then d else d.takeFor c r retro n dest have_
    | _ => d
  | none => d

/-- QTAKE (R316). (Log entry 101 DEDUCED.) -/
def chQtakeOp (c : Nat) (w : ChWord) (d : Dev) : Dev :=
  d.chStart c 0xD2 w (!w.more && decide (w.target.toNat < 2) && decide (1 ≤ w.n)) (fun d =>
    let a := d.chAddr c w
    if !inProgram a (8 * w.n) then d.chFinish c 0xD2 w 0x21 7 w.n 0
    else (d.chWait c 0xD2 w (.qtake (w.target = 1) w.n a)).pollQtake c)

/-- QTAKE_RECORDS. -/
def qtakeRecordsOp (c : Nat) (d : Dev) : Dev := if d.chOn c && d.chState c = 2 then d.pollQtake c else d

/-- RETRO (R319). -/
def chRetroOp (c : Nat) (w : ChWord) (d : Dev) : Dev :=
  d.chStart c 0xD3 w (w.plain && w.only 16) (fun d =>
    match d.chRead (d.chAddr c w) 6 with
    | (.error (st, sub), d) => d.chFinish c 0xD3 w st sub 0 0
    | (.ok ws, d) =>
      let r := d.retroSubmit w.target.toNat ws
      r.2.2.chFinish c 0xD3 w r.1 r.2.1 0 0)

/-- The entries of a POST as 32 bytes each, with SRC 1 (R320, R494), and whether bytes 32–35 are zero in all.
(Log entry 101 DEDUCED.) -/
def postEntries : Nat → List Word → Bool × List (List Byte)
  | 0, _ => (true, [])
  | n + 1, ws =>
    let bs := bytesOfWords (ws.take 6)
    let r := postEntries n (ws.drop 6)
    let b2 := BitVec.ofNat 8 ((bs.getD 2 0).toNat / 4 * 4 + 1)
    (r.1 && (bs.drop 32).all (fun b => b = 0), (bs.take 2 ++ [b2] ++ (bs.drop 3).take 29) :: r.2)

/-- POST (R320, R321). (Log entry 101 DEDUCED.) -/
def chPostOp (c : Nat) (w : ChWord) (d : Dev) : Dev :=
  d.chStart c 0xD8 w (w.plain && decide (w.target.toNat < 128)) (fun d =>
    let r := w.target.toNat
    if 256 < w.n then d.chFinish c 0xD8 w 0x10 7 w.n 0
    else if d.cqState r ≠ 1 then d.chFinish c 0xD8 w 0x38 8 w.n 0
    else
      match d.chRead (d.chAddr c w) (6 * w.n) with
      | (.error (st, sub), d) => d.chFinish c 0xD8 w st sub w.n 0
      | (.ok ws, d) =>
        let es := postEntries w.n ws
        let room := (if d.cqHeld r = 0 then d.cqRoom r else 0) + d.holdFree r
        if !es.1 then d.chFinish c 0xD8 w 0x10 8 w.n 0
        else if room < w.n then
          (d.setChan c { d.chan c with ring := some (r / 64, r % 64) }).chSuspend c 2 0xD8 (d.proc c).pc r
        else (d.cqPut r es.2).chFinish c 0xD8 w 0 0 0 w.n)

end Sys2Proof.Machine
end

