-- ==== Sys2Proof/Machine/Bus.lean ====
section
/-! DEFINITION. Register accesses: what a read of each register answers and what a write of it does, by the access codes of
R4, the refusals of R644 and the rules that the register tables name; and the power domain of each register (R11, R18). -/

namespace Sys2Proof.Machine

/-! ### Where a register lives -/

/-- One of some power domains is on. (Log entry 16 DEDUCED.) -/
def Dev.anyOn (d : Dev) (ks : List Nat) : Bool := ks.any d.domOn

/-- The domains of which one must be on for a register to answer (R11, R18). (Log entries 16 DEDUCED, 161 DESIGN CHOICE.) -/
def regDomains (r : Reg) (i : Nat) : List Nat :=
  match (regDesc r).win with
  | 2 => [9]
  | 3 =>
    match r with
    | .cxiLklCfg | .cxiLklStat | .cxiLklErr | .cxiLklPcx | .cxiLklPcxLim => [5 + i / 16]
    | _ => [5, 6, 7, 8]
  | 4 => if (regDesc r).count = 64 then [if i < 32 then 18 else 19] else [18, 19]
  | 5 => [20]
  | 6 => [22]
  | 7 => if (regDesc r).count = 4 then [1 + i] else [1, 2, 3, 4]
  | 8 => [22]
  | 9 => if (regDesc r).count = 512 then [13 + i / 128] else if r = .ibxPpCfg then [13 + i / 16] else [13, 14, 15, 16]
  | 10 => [17]
  | 12 =>
    match (regDesc r).count with
    | 2 => [10 + i]
    | 128 => [10 + i / 64]
    | _ => [10, 11]
  | 13 => [12]
  | 15 => [23]
  | _ => [0]

/-- The block of a register is powered. A retained domain answers no access, except that the HBM controllers' registers answer
in STANDBY, where a FENCE bit can be written (R413). (Log entries 16 DEDUCED, 17 DEDUCED, 161 DESIGN CHOICE.) -/
def Dev.regOn (d : Dev) (r : Reg) (i : Nat) : Bool :=
  if (regDesc r).win = 7 then (regDomains r i).any (fun k => d.domain k ≠ .off) else d.anyOn (regDomains r i)

/-! ### Reads -/

/-- SPR_AXn_STAT as it reads (R69). -/
def Dev.axisStat (d : Dev) (a : Nat) : Word :=
  let x := d.axis a
  let w := setFld (d.rd .sprAxnStat a &&& 0xC0000) 2 0 (d.axisState a).code
  let w := setBit w 3 (d.axisBackward a)
  let w := setBit w 4 x.onSec
  let w := setFld w 7 5 x.shadow.st.code
  let w := setBit w 8 x.secBad
  let w := setFld w 14 10 x.main.acqEdges
  let w := setBit w 15 x.everTrack
  let w := setFld w 17 16 x.main.rejRun
  setFld w 23 20 x.cause

/-- The current of leg P or N of output x, in mA: what the load draws is open, within the limit of R608.
(Log entry 33 DEDUCED.) -/
def legCurrent (x : Nat) (p : Bool) (now : Word) : Nat := min 60 (Config.legDraw x p now)

/-- What a read of a register answers, with what the read itself changes. (Log entries 13 DEDUCED, 33 DEDUCED.) -/
def Dev.loadReg (d : Dev) (r : Reg) (i : Nat) : SramRead × Dev :=
  match r with
  | .sprAxnStat => (.ok (d.axisStat i), d)
  | .sprAxnPos => (.ok (d.axisPos i), d)
  | .sprAxnVel => (.ok (d.axisVel i), d)
  | .sprAxnAcc => (.ok (d.axisAcc i), d)
  | .tfbLbAxaHzn => (.ok (d.axisHorizon i), d)
  | .fioOxCur => (.ok (setFld (setFld 0 7 0 (legCurrent i true d.now)) 15 8 (legCurrent i false d.now)), d)
  | .cxiLklPcx => (.ok (d.rd .cxiLklPcx i), d.wrF .cxiLklPcx i 27 16 0)
  | .tmvStat => (.ok d.tmvStat, d)
  | .ibxChcPc => (.ok (d.proc i).pc, d)
  | .ibxStat =>
    let n (f : Nat → Bool) : Nat := ((List.range 512).filter (fun c => f (d.chState c))).length
    (.ok (setFld (setFld (setFld 0 9 0 (n (fun s => s = 1 || s = 2))) 25 16 (n (fun s => s = 3))) 41 32 (n (fun s => s = 4))), d)
  | .evcQqHead0 => d.queueHead i 0
  | .evcQqHead1 => d.queueHead i 1
  | .evcSrciCfg => (.ok (srcCfgWord i (d.source i)), d)
  | .evcPendj => (.ok (d.pendWord i), d)
  | _ => (.ok (d.rd r i), d)

/-! ### Writes -/

/-- A plain write (R4): the RW bits take the value, W1C bits clear where it holds 1, every other bit stays. -/
def plainWrite (r : Reg) (old w : Word) : Word :=
  let rw := wordOf (regDesc r).rw
  let w1c := wordOf (regDesc r).w1c
  (old &&& ~~~rw &&& ~~~(w &&& w1c)) ||| (w &&& rw)

/-- A plain write of a register. -/
def Dev.plainStore (d : Dev) (r : Reg) (i : Nat) (w : Word) : Dev := d.wr r i (plainWrite r (d.rd r i) w)

/-- The value written with the bits of `mask` kept at their present value where they may not be written; true where that
refuses a change (R644). (Log entry 15 DEDUCED.) -/
def keepBits (old w mask : Word) (locked : Bool) : Word × Bool :=
  if locked then ((w &&& ~~~mask) ||| (old &&& mask), (old ^^^ w) &&& mask ≠ 0) else (w, false)

/-- A plain write in which the RW bits of `mask` may not change while `locked`: a change of them is left out and `err` says so
(R644). (Log entry 15 DEDUCED.) -/
def Dev.guardedStore (d : Dev) (r : Reg) (i : Nat) (w mask : Word) (locked : Bool) (err : Dev → Dev) : Dev :=
  let k := keepBits (d.rd r i) w (mask &&& wordOf (regDesc r).rw) locked
  let d := d.plainStore r i k.1
  if k.2 then err d else d

/-- A write of SPR_AXn_CTL (R31, R42, R43, R47, R70). (Log entry 14 DEDUCED.) -/
def Dev.writeAxisCtl (d : Dev) (a : Nat) (w : Word) : Dev :=
  let off := d.rdB .sprAxnCtl a 0 && !bit w 0
  let d := Dev.reread (fun d =>
    d.guardedStore .sprAxnCtl a (setBit w 0 (bit w 0 || off)) 0x7FE (d.axisState a ≠ .idle) (fun d => d.axisCfgErr a)) d
  let d := if off then axisDisableOp a d else d
  let d := if bit w 14 then presetOp a d else d
  let d := if bit w 15 then restartOp a d else d
  let d := if bit w 16 then selPriOp a d else d
  let d := if bit w 17 then secClrOp a d else d
  d.refreshAxis a

/-- A write of SPR_TGn_CFG (R51, R52). (Log entries 14 DEDUCED, 31 DEDUCED.) -/
def Dev.writeGenCfg (d : Dev) (g : Nat) (w : Word) : Dev :=
  let en := d.rdB .sprTgnCfg g 0
  let d := d.guardedStore .sprTgnCfg g (setBit w 0 en) 6 en (fun d => d.genCfgErr g)
  tgEnableOp g (bit w 0) d

/-- A write of HLK_CTL (R80, R94, R126). (Log entry 14 DEDUCED.) -/
def Dev.writeHlkCtl (d : Dev) (w : Word) : Dev :=
  let d := (d.guardedStore .hlkCtl 0 w 0x3A d.anyRunning Dev.hlkCfgErr).refreshHerdRole
  let d := if bit w 6 then resyncOp d else d
  if bit w 7 then herdEnumerateOp d else d

/-! ### Links that go (R78, R112) -/

/-- What a message lost with a link leaves behind (R112): a request ends with LINK_DOWN at its requester; a blob goes back to
the unit that sent it. (Log entries 50 DEDUCED, 170 DEDUCED.) -/
def Dev.loseMsg (d : Dev) (m : HlkMsg) : Dev :=
  match m with
  | .commitReq m => d.commitLost m
  | .tileReq m => d.tileLost m
  | .blob b => d.blobLost b
  | _ => d

/-- PORT_DOWN (R78, R112). (Log entry 50 DEDUCED.) -/
def portDownOp (p : Nat) (cause : PortDownCause) (lost : List HlkMsg) (d : Dev) : Dev :=
  if d.portState p ≠ 2 && d.portState p ≠ 3 then d
  else
    let d := if cause = .disabled then d.wrB .hlkPortpCtl p 0 false else d
    let d := if cause = .replayFailed then d.portError p 31 16 8 else d
    lost.foldl Dev.loseMsg (d.portGone p lost.length)

/-- PORT_RETRAIN: RETRAIN written 1. -/
def portRetrainOp (p : Nat) (lost : List HlkMsg) (d : Dev) : Dev :=
  if d.portLive p then lost.foldl Dev.loseMsg (d.portGone p lost.length) else d

/-- A message that link replay protects (R110). -/
def HlkMsg.replayed : HlkMsg → Bool
  | .beat _ | .hello _ | .delayReq _ | .delayRsp _ _ _ => false
  | _ => true

/-- What this device has sent on port p under link replay. (Log entry 50 DEDUCED.) -/
def Dev.sentOn (d : Dev) (p : Nat) : List HlkMsg :=
  d.outbox.filterMap (fun o => match o with | .hlk q m => if q = p && HlkMsg.replayed m then some m else none | _ => none)

/-- A register write takes port p down: which of the messages sent on it had not been acknowledged only the link knows, a free
value. They are lost as in PORT_DOWN (R78, R112). (Log entry 50 DEDUCED.) -/
def Dev.portCut (d : Dev) (p : Nat) : Dev :=
  let f := d.free
  let sent := f.2.sentOn p
  let lost := (((List.range sent.length).zip sent).filter (fun e => f.1.testBit e.1)).map (·.2)
  lost.foldl Dev.loseMsg (f.2.portGone p lost.length)

/-- A write of HLK_PORTp_CTL (R76, R78, R112). -/
def Dev.writePortCtl (d : Dev) (p : Nat) (w : Word) : Dev :=
  let was := d.rdB .hlkPortpCtl p 0
  let d := d.plainStore .hlkPortpCtl p w
  let d := if was && !bit w 0 then d.portCut p
           else if !was && bit w 0 then d.portRestart p else d
  if bit w 3 && bit w 0 && was then d.portCut p else d

/-- A write of CXI_HDh_CFG (R131, R173): EN takes the head from OFF or to OFF after the other fields are in. -/
def Dev.writeHeadCfg (d : Dev) (h : Nat) (w : Word) : Dev :=
  let en := d.headEn h
  let d := d.guardedStore .cxiHdhCfg h (setBit w 0 en) 0xFFFFF00 (d.headState h ≠ .off) (fun d => d.headCfgErr h)
  let d := d.headEnable h (bit w 0)
  if bit w 3 then retryOp h d else d

/-- A write of CXI_LKl_CFG (R136, R137): a link with EN 0 is UNUSED. -/
def Dev.writeLinkCfg (d : Dev) (l : Nat) (w : Word) : Dev :=
  let was := d.rdB .cxiLklCfg l 0
  let d := d.wrB .cxiLklCfg l 0 (bit w 0)
  let d := if was && !bit w 0 then (cxpLinkChangeOp l false d).setLinkState l 4
           else if !was && bit w 0 then d.setLinkState l 0 else d
  let d := if bit w 1 then pcxEnableOp l d else if d.rdB .cxiLklCfg l 1 then pcxDisable l d else d
  if bit w 3 then pcxRetryOp l d else d

/-- A write of TFB_LB_CTL (R183, R232); REF_UNITS above 8,192 is not taken. (Log entry 117 DEDUCED.) -/
def Dev.writeLbCtl (d : Dev) (w : Word) : Dev :=
  let err (d : Dev) : Dev := d.wrB .tfbLbStat 0 1 true
  let d := if fld w 15 0 ≤ 8192 then d.guardedStore .tfbLbCtl 0 w 0xFFFF d.anyRunning err else err d
  if bit w 16 then relayoutOp d else d

/-- A write of a slot or quota of a bank (R453). -/
def Dev.writeBank (d : Dev) (r : Reg) (i : Nat) (bankB : Bool) (w : Word) : Dev :=
  if d.bankB = bankB || d.rdB .tfbGrzCtl 0 0 then
    if plainWrite r (d.rd r i) w = d.rd r i then d else (d.wrB .tfbGrzStat 0 1 true).raise 676
  else d.plainStore r i w

/-- The configuration bits of CHM_HDh_CFG. -/
def chmCfgBits : Word := 0xFFFF0FFF80

/-- A write of CHM_HDh_CFG (R244, R248). -/
def Dev.writeChmCfg (d : Dev) (h : Nat) (w : Word) : Dev :=
  let was := d.rdB .chmHdhCfg h 19
  let d := d.guardedStore .chmHdhCfg h w chmCfgBits (d.headState h ≠ .off) (fun d => d.chmCfgErr h)
  if bit w 19 && (!was || d.headState h = .off) then d.checkSeam h else d

/-- A write of CHM_HDh_COEF, OUT or DARK (R243, R248, R249): `ok` judges the new value. -/
def Dev.writeChm (d : Dev) (r : Reg) (h : Nat) (w : Word) (ok : Word → Bool) : Dev :=
  let v := plainWrite r (d.rd r h) w
  if v = d.rd r h then d
  else if d.headState h ≠ .off || !ok v then d.chmCfgErr h
  else d.wr r h v

/-- Word j of a parameter set may stand by R254. (Log entry 15 DEDUCED.) -/
def Dev.paramWordOk (d : Dev) (j : Nat) (w : Word) : Bool :=
  let pair (hi lo : Nat) : Bool := hi = 0 || (decide (lo ≤ hi) && lo ≠ 0)
  match j with
  | 0 => fld w 27 16 ≠ 0 && (!bit w 28 || d.refState (fld w 40 29) = 2)
  | 1 => pair (fld w 35 24) (fld w 47 36) && pair (fld w 11 0) (fld w 23 12)
  | 2 => fld w 47 32 ≠ 0
  | _ => true

/-- A write of a parameter word (R254, R282, R284). Words of the sets 1–8 are judged by the job that names them.
(Log entry 15 DEDUCED.) -/
def Dev.writeParam (d : Dev) (r : Reg) (i j : Nat) (w : Word) : Dev :=
  let v := plainWrite r (d.rd r i) w
  if v = d.rd r i then d
  else if i < 64 && (d.headRuns i || !d.paramWordOk j v) then (d.wrB .cexStat 0 2 true).raise 650
  else d.wr r i v

/-- A write of IBX_CHc_CTL (R327–R329). (Log entry 14 DEDUCED.) -/
def writeChanCtl (c : Nat) (w : Word) (d : Dev) : Dev :=
  let d := if bit w 0 then channelStartOp c d else d
  let d := if bit w 1 then channelHaltOp c d else d
  let d := if bit w 2 then channelSuspendOp c d else d
  let d := if bit w 3 then channelResumeOp c d else d
  if bit w 4 then channelClearOp c d else d

/-- A write of IBX_CHc_CFG or IBX_CHc_ARG (R339). -/
def Dev.writeChan (d : Dev) (r : Reg) (c : Nat) (w : Word) : Dev :=
  d.guardedStore r c w 0xFFFFFFFFFFFF (d.chState c ≠ 0 && d.chState c ≠ 4) (fun d => d.chCfgErr c)

/-- RUN of control core k (CTL_COREk_CTL, R382): 1 releases a core in RESET at ENTRY with its registers at reset, 0 holds it in
reset. -/
def coreRunOp (k : Nat) (run : Bool) (d : Dev) : Dev :=
  if !d.domOn 17 || d.rdB .ctlCorekCtl k 0 = run then d
  else if run then
    let d := (d.wrB .ctlCorekCtl k 0 true).wrF .ctlCorekCtl k 3 2 1
    d.setProc (1024 + k) { pc := d.rd .ctlCorekEntry k, released := d.ctlUp }
  else
    let d := (d.wrB .ctlCorekCtl k 0 false).wrF .ctlCorekCtl k 3 2 0
    (d.setProc (1024 + k) {}).setLevel (665 + k) false

/-- A write of HBC_CTL: a reserved code leaves its field (R413, R435). -/
def Dev.writeHbcCtl (d : Dev) (w : Word) : Dev :=
  let old := d.rd .hbcCtl
  let p := fld w 11 8 ≤ 5
  let t := fld w 5 4 ≤ 1
  let w' := if p then w else setFld w 11 8 (fld old 11 8)
  let w' := if t then w' else setFld w' 5 4 (fld old 5 4)
  let d := d.plainStore .hbcCtl 0 w'
  let d := if p && t then d else d.wrB .hbcCtl 0 0 true
  forUpTo 4 (fun s d => if bit w (16 + s) then fenceWriteOp s d else d) d

/-- A write of EDC_CTL: a reserved code leaves its field. -/
def Dev.writeEdcCtl (d : Dev) (w : Word) : Dev :=
  let ok := fld w 3 0 ≤ 4
  let d := d.plainStore .edcCtl 0 (if ok then w else setFld w 3 0 (d.rdF .edcCtl 0 3 0))
  if ok then d else d.wrB .edcCtl 0 9 true

/-- A write of EDC_INJ_CTL (R426). -/
def Dev.writeInjCtl (d : Dev) (q : Requester) (w : Word) : Dev :=
  let was := d.rdB .edcInjCtl 0 8
  let d := d.plainStore .edcInjCtl 0 (setBit w 8 (was && bit w 8))
  if bit w 8 then injectArmOp q d else d

/-- A write of HIF_Ff_SQs_CFG (R510, R511). -/
def Dev.writeSqCfg (d : Dev) (r : Nat) (w : Word) : Dev :=
  let off := d.sqState r = 0
  let d := d.guardedStore .hifFfSqsCfg r w 0xFFFFFFFFC000 (!off) (fun d => (d.wrB .hifFfSqsCfg r 2 true).ringErr (r / 64))
  let d := if bit w 0 && off then d.enableSq r else d
  if bit w 1 then sqStopOp (r / 64) (r % 64) d else d

/-- A write of HIF_Ff_CQc_CFG (R510, R513). -/
def Dev.writeCqCfg (d : Dev) (r : Nat) (w : Word) : Dev :=
  let off := d.cqState r = 0
  let d := d.guardedStore .hifFfCqcCfg r w 0xFFFFFFFC3C00 (!off) (fun d => (d.wrB .hifFfCqcCfg r 2 true).ringErr (r / 64))
  let d := if bit w 0 && off then d.enableCq r else d
  if bit w 1 then cqStopOp (r / 64) (r % 64) d else d

/-- A write of FIO_Ox_CFG (R609, R610, R620, R622). -/
def Dev.writeOutCfg (d : Dev) (x : Nat) (w : Word) : Dev :=
  let err (d : Dev) : Dev := d.wrB .fioOxStat x 13 true
  let k := keepBits (d.rd .fioOxCfg x) w 3 (d.outHeld x)
  let zero := fld w 11 8 = 0
  let v := if zero then setFld k.1 11 8 (d.rdF .fioOxCfg x 11 8) else k.1
  let d := d.plainStore .fioOxCfg x v
  let d := if k.2 || zero then err d else d
  let d := d.applyOutEn x
  let d := if bit w 3 then unlockOp x d else d
  if bit w 4 then polarityCheckOp x d else d

/-- What a write of a register does, by requester q; the register's domain is on and the requester may write it.
(Log entries 13 DEDUCED, 14 DEDUCED.) -/
def Dev.storeReg (d : Dev) (q : Requester) (r : Reg) (i : Nat) (w : Word) : Dev :=
  let gen (d : Dev) : Dev := d.guardedStore r i w 0xFFFFFFFFFFFF (d.rdB .sprTgnCfg i 0) (fun d => d.genCfgErr i)
  let head (d : Dev) : Dev := d.guardedStore r i w 0xFFFFFFFFFFFF (d.headState i ≠ .off) (fun d => d.headCfgErr i)
  match r with
  | .sprAxnCtl => d.writeAxisCtl i w
  | .sprTgnCfg => d.writeGenCfg i w
  | .sprTgnPitch | .sprTgnPhase | .sprTgnStagger | .sprTgnOut | .sprTgnOfs | .sprTgnCxp => gen d
  | .sprActkPush => actPushOp i w d
  | .sprActkCfg =>
    let d0 := d
    let d := d.plainStore r i w
    if d.rd r i = d0.rd r i then d else d.markLate i
  | .hlkCtl => d.writeHlkCtl w
  | .hlkArmLimit =>
    if 1 ≤ fld w 31 0 && fld w 31 0 ≤ 3600000 then d.plainStore r i w else d.hlkCfgErr
  | .hlkPortpCtl => d.writePortCtl i w
  | .cxiHdhCfg => d.writeHeadCfg i w
  | .cxiHdhWidth | .cxiHdhCut | .cxiHdhLat => head d
  | .cxiHdhStg => (head d).refreshStgFree
  | .cxiLklCfg => d.followHeads (d.writeLinkCfg i w)
  | .tfbClmk => claimWriteOp i w d
  | .tfbLbCtl => d.writeLbCtl w
  | .tfbLbhCfg => d.guardedStore r i w 0x1FFFF d.anyRunning (fun d => d.wrB .tfbLbStat 0 1 true)
  | .tfbGrzCtl => if bit w 2 then grazeSwapOp d else d
  | .tfbArbPrior => arbPrioWriteOp i w d
  | .tfbSlotaJ | .tfbQuotaaC => d.writeBank r i false w
  | .tfbSlotbJ | .tfbQuotabC => d.writeBank r i true w
  | .chmCalCtl => let d := d.plainStore r i w; if bit w 7 then calStartOp d else d
  | .chmHdhCfg => d.writeChmCfg i w
  | .chmHdhCoef => d.writeChm r i w (fun v => d.coefFits i v (d.rd .chmHdhOut i))
  | .chmHdhOut => d.writeChm r i w (fun v => outValid v && d.coefFits i (d.rd .chmHdhCoef i) v)
  | .chmHdhDark => d.writeChm r i w (fun _ => true)
  | .cexRqCons => (d.plainStore r i w).runRetro
  | .cexPsHdh0 => d.writeParam r i 0 w
  | .cexPsHdh1 => d.writeParam r i 1 w
  | .cexPsHdh2 => d.writeParam r i 2 w
  | .cexPsHdh3 => d.writeParam r i 3 w
  | .ibxChcCtl => writeChanCtl i w d
  | .ibxChcCfg | .ibxChcArg => d.writeChan r i w
  | .ctlCorekCtl => coreRunOp i (bit w 0) d
  | .hbcCtl => d.writeHbcCtl w
  | .edcCtl => d.writeEdcCtl w
  | .edcInjCtl => d.writeInjCtl q w
  | .tmvCqkSubmit => moverSubmitOp i q w d
  | .hifFfCtl =>
    let d := d.wrF r i 5 0 (fld w 5 0)
    if fld w 15 8 = d.rdF r i 15 8 then d else hostVerWriteOp i (fld w 15 8) d
  | .hifFfSqsCfg => d.writeSqCfg i w
  | .hifFfCqcCfg => d.writeCqCfg i w
  | .hifFfSqsInboxIdx => (d.plainStore r i w).refreshStalls (i / 64)
  | .evcSet => evcSetOp (fld w 9 0) d
  | .evcAck => evcAckOp (fld w 9 0) d
  | .evcClr => evcClrOp (fld w 9 0) d
  | .evcAlmt => alarmArmOp i w d
  | .evcQqCons => queueConsOp i (fld w 8 0) d
  | .evcQqPop => queuePopOp i d
  | .evcSrciCfg => srcCfgWrite i w d
  | .fioPcxScale => if fld w 3 0 = 0 then d.wrB .fioOxStat 0 13 true else d.plainStore r i w
  | .fioEncnCfg => fioEncCfgWriteOp i w d
  | .fioEncnFlt => (d.plainStore r i w).refreshEncFault i
  | .fioFinkCfg =>
    let d := d.plainStore r i w
    d.wrB .fioFinkStat i 9 (d.finLevel i)
  | .fioFinkStat => (d.plainStore r i w).refreshFinFault i
  | .fioOxCfg => d.writeOutCfg i w
  | _ => if (regDesc r).win = 14 then d else d.plainStore r i w

/-! ### Accesses (R15–R18) -/

/-- What a requester meets at a word of block register space: a register, one whose block is off, a word with no register
(R15), or none at all (R15, R16). -/
inductive RegAccess where
  | reg (r : Reg) (i : Nat)
  | off
  | reserved
  | unpopulated
  deriving DecidableEq, Repr

/-- The register at an offset of a window. (Log entry 18 DEDUCED.) -/
def Dev.regAccess (d : Dev) (win off : Nat) : RegAccess :=
  if 16 < win then .unpopulated
  else match regAt win off with
  | none => .reserved
  | some (r, i) => if d.regOn r i then .reg r i else .off

/-- A ring or function register of the other function, which a host may not reach (R480). (Log entry 18 DEDUCED.) -/
def foreignReg (f : Nat) (r : Reg) (i : Nat) : Bool :=
  (regDesc r).win = 12 &&
    match (regDesc r).count with
    | 2 => i ≠ f
    | 128 => i / 64 ≠ f
    | _ => false

/-- A host read through BAR0 by function f, with what the read itself changes: bits 47:0 hold the register (R2); a block that is
off, a word with no register and windows 11h–1Fh read zero (R15, R16, R18), as do a register that function f may not reach and
every offset while the port's domain is off. The function need not be a bus master. None is Completer Abort, the answer to a queue's head word that cannot be read (R423, R534).
The table has no command for a read. (Log entry 104 DEDUCED.) -/
def Dev.hostRead (d : Dev) (f win off : Nat) : Option (BitVec 64) × Dev :=
  match d.regAccess win off with
  | .reg r i =>
    if foreignReg f r i || !d.domOn (10 + f) then (some 0, d)
    else match d.loadReg r i with
      | (.ok w, d) | (.corrected w, d) => (some (w.setWidth 64), d)
      | (_, d) => (none, d)
  | _ => (some 0, d)

/-- A read through BAR0 of function f at a byte offset: 8 bytes on an 8-byte boundary, or 4 bytes that are either half of a slot;
any other reads zero (R479). -/
def Dev.barRead (d : Dev) (f off size : Nat) : Option (BitVec 64) × Dev :=
  let slot := d.hostRead f (off / 8 / 65536) (off / 8 % 65536)
  if size = 8 && off % 8 = 0 then slot
  else if size = 4 && off % 4 = 0 then (slot.1.map (fun (w : BitVec 64) => (w >>> (8 * (off % 8))) &&& 0xFFFFFFFF#64), slot.2)
  else (some 0, d)

/-- A write of one word of block register space: a host's while its port's domain is on (R16–R18, R480), every other requester's
by the DAS; the low 48 bits are the value (R2). Only Goatherd writes the GHD window. (Log entry 104 DEDUCED.) -/
def Dev.busWrite (q : Requester) (win off : Nat) (w : BitVec 64) (d : Dev) : Dev :=
  match d.regAccess win off with
  | .reg r i =>
    if win = 14 && q ≠ .goatherd then d
    else match q with
    | .host f => if foreignReg f.val r i || !d.domOn (10 + f.val) then d else d.storeReg q r i (w.truncate 48)
    | _ => d.storeReg q r i (w.truncate 48)
  | _ => d

/-! ### BAR4 (R484) -/

/-- One 32-bit part of the MSI-X table, by its place: address low and high, data, vector control with the mask in bit 0. -/
def Msix.read (m : Msix) (k : Nat) : Nat :=
  let e := m.vector (k / 4)
  match k % 4 with
  | 0 => e.addr.toNat % 2 ^ 32
  | 1 => e.addr.toNat / 2 ^ 32
  | 2 => e.data.toNat
  | _ => e.masked.toNat

/-- One 32-bit part of the MSI-X table written. (Log entry 110 PRESUMED.) -/
def Msix.write (m : Msix) (k v : Nat) : Msix :=
  let e := m.vector (k / 4)
  let e' : MsixEntry := match k % 4 with
    | 0 => { e with addr := BitVec.ofNat 64 (e.addr.toNat / 2 ^ 32 * 2 ^ 32 + v % 2 ^ 32 / 4 * 4) }
    | 1 => { e with addr := BitVec.ofNat 64 (v % 2 ^ 32 * 2 ^ 32 + e.addr.toNat % 2 ^ 32) }
    | 2 => { e with data := BitVec.ofNat 32 v }
    | _ => { e with masked := v % 2 = 1 }
  { m with vectors := tset m.vectors (k / 4) e' }

/-- A host's write to BAR4 of function f, of 4 bytes or of 8 on its own boundary (R484): a doorbell, or the MSI-X table, after
which the vectors no longer masked are sent; every other is discarded. (Log entries 104 DEDUCED, 110 PRESUMED.) -/
def Dev.bar4Write (d : Dev) (f off : Nat) (wide : Bool) (v : BitVec 64) : Dev :=
  if !d.domOn (10 + f) || off % (if wide then 8 else 4) ≠ 0 then d
  else if off < 0x200 && off % 8 = 0 then submissionDoorbellOp f (off / 8) d
  else if 0x400 ≤ off && off < 0x600 && off % 8 = 0 then completionDoorbellOp f ((off - 0x400) / 8) v d
  else if 0x8000 ≤ off && off < 0x8400 then
    let k := (off - 0x8000) / 4
    let m := (d.msix f).write k (v.toNat % 2 ^ 32)
    let m := if wide then m.write (k + 1) (v.toNat / 2 ^ 32) else m
    (d.setMsix f m).flushMsix f
  else d

/-- 32 bits of BAR4 of function f (R484): the MSI-X table, the pending bits; every other offset reads zero, as do the doorbells. The
table has no command for a read. (Log entry 110 PRESUMED.) -/
def Dev.bar4Word (d : Dev) (f off : Nat) : Nat :=
  if !d.domOn (10 + f) then 0
  else if 0x8000 ≤ off && off < 0x8400 then (d.msix f).read ((off - 0x8000) / 4)
  else if off = 0x9000 then (d.msix f).pba.toNat % 2 ^ 32
  else if off = 0x9004 then (d.msix f).pba.toNat / 2 ^ 32
  else 0

/-- A read of BAR4 of 4 bytes, or of 8 on an 8-byte boundary. -/
def Dev.bar4Read (d : Dev) (f off size : Nat) : BitVec 64 :=
  if size = 8 && off % 8 = 0 then BitVec.ofNat 64 (d.bar4Word f off + 2 ^ 32 * d.bar4Word f (off + 4))
  else if size = 4 && off % 4 = 0 then BitVec.ofNat 64 (d.bar4Word f off)
  else 0

/-- The message control of MSI-X in the configuration space of function f: bit 15 MSI-X Enable, bit 14 Function Mask (R478).
(Log entry 110 PRESUMED.) -/
def Dev.msixControl (d : Dev) (f : Nat) (v : BitVec 64) : Dev :=
  (d.setMsix f { d.msix f with enable := v.getLsbD 15, maskAll := v.getLsbD 14 }).flushMsix f

/-- REGISTER_WRITE: a host's write through BAR0 that is not one of 8 bytes on an 8-byte boundary is discarded and counted in BADACC
(R479); one to BAR4 acts there by its byte offset (R484), one to the message control of MSI-X on its bits; every other writes its
word. (Log entries 18 DEDUCED, 110 PRESUMED.) -/
def registerWriteOp (q : Requester) (win off : Nat) (w : BusWord) (d : Dev) : Dev :=
  match q, w.place with
  | .host f, .ragged => if d.domOn (10 + f.val) then d.badAcc f.val else d
  | .host f, .bar4 wide => d.bar4Write f.val off wide w.bits
  | .host f, .msixControl => if d.domOn (10 + f.val) then d.msixControl f.val w.bits else d
  | _, _ => Dev.busWrite q win off w.bits d

end Sys2Proof.Machine
end

