-- ==== Sys2Proof/Machine/Ghd.lean ====
section
/-! DEFINITION. Goatherd: resets, the boot ROM, self-test and training, service, supervision, the log, updates and keys
(R427–R430, R578–R599, R606, R636–R638). Whether keys and signatures check under R588 is an operand. -/

namespace Sys2Proof.Machine

/-! ### Objects that no register backs -/

/-- The bytes of an object that no register backs, none where it holds its default. -/
def Dev.varBytes (d : Dev) (index sub : Nat) : Option (List Byte) := tfind d.dict.vars (256 * index + sub)

/-- Its value as a number; the default is zero (R549). -/
def Dev.var (d : Dev) (index sub : Nat) : Nat := natOfBytes ((d.varBytes index sub).getD [])

/-- It takes bytes. -/
def Dev.setVarBytes (d : Dev) (index sub : Nat) (bs : List Byte) : Dev :=
  { d with dict := { d.dict with vars := tset d.dict.vars (256 * index + sub) bs } }

/-- It takes a number of n bytes. -/
def Dev.setVar (d : Dev) (index sub n v : Nat) : Dev := d.setVarBytes index sub (bytesOfNat n v)

/-- The full dictionary answers (R22, R552): READY, RUN or DEGRADED, and not HIBERNATE. -/
def Dev.dictReady (d : Dev) : Bool :=
  (d.devState = .ready || d.devState = .run || d.devState = .degraded) && d.powerState ≠ .hibernate

/-- An access to an object beyond identity and status (R552). -/
def Dev.whenReady (d : Dev) (f : Dev → Dev) : Dev := if d.dictReady then f d else d.answer 0x38 0x30

/-! ### The log (R594–R596) -/

/-- The record that five words hold. -/
def logRecordOf (ws : List Word) : LogRecord :=
  { sev := fld (ws.getD 0 0) 47 46, code := fld (ws.getD 0 0) 43 32, seq := fld (ws.getD 0 0) 31 0, time := ws.getD 1 0,
    detail0 := ws.getD 2 0, boot := fld (ws.getD 3 0) 47 32, detail1 := fld (ws.getD 3 0) 31 0, wall := ws.getD 4 0 }

/-- Records of the ring with SEQ from `seq` on, `n` of them. -/
def Dev.ringRecords (d : Dev) (seq : Nat) : Nat → List LogRecord × Dev
  | 0 => ([], d)
  | n + 1 =>
    let r := d.sramReads (logAddr seq) 5
    let rest := Dev.ringRecords r.2.2 (seq + 1) n
    (logRecordOf r.1 :: rest.1, rest.2)

/-- Records the flash log holds: 128 sectors of 2,184 (R584, R596). -/
def flashLogRoom : Nat := 128 * 2184

/-- A record goes to the flash log; when that is full the oldest sector is erased (R596). -/
def Dev.flashRecord (d : Dev) (r : LogRecord) : Dev :=
  let g := d.ghd
  if flashLogRoom ≤ g.flashLog.length then
    { d with ghd := { g with flashLog := g.flashLog.drop 2184 ++ [r], discarded := g.discarded + 2184 } }
  else { d with ghd := { g with flashLog := g.flashLog ++ [r] } }

/-- LOG_FLUSH (R596): the records of the ring not yet there go to the flash log, unless the flash pins are in high impedance
(R582). A record that reading the ring itself logs stays to the next flush. (Log entry 126 DEDUCED.) -/
def logFlushOp (d : Dev) : Dev :=
  if d.powered && !d.ghd.pllHeld && !d.ghd.flashHighZ then
    let s := max d.ghd.flushed (d.ghd.logNext - 1024)
    let r := d.ringRecords s (d.ghd.logNext - s)
    let e := r.1.foldl (fun d x => d.flashRecord x) r.2
    { e with ghd := { e.ghd with flushed := d.ghd.logNext } }
  else d

/-- LOG_WRITE (8100h.5, R595): SEV in byte 0, CODE in bytes 1–2, DETAIL0 in bytes 3–8, DETAIL1 in bytes 9–12. -/
def logWriteOp (bytes : List Byte) (d : Dev) : Dev :=
  let sev := natOfBytes (bytes.take 1)
  let code := natOfBytes ((bytes.drop 1).take 2)
  d.whenReady fun d =>
    if bytes.length = 13 && sev ≤ 3 && 0x800 ≤ code && code ≤ 0xFFF then
      (d.log sev code (wordOf (natOfBytes ((bytes.drop 3).take 6))) (natOfBytes (bytes.drop 9))).answer 0 0
    else d.answer 0x21 0x31

/-! ### Images and the boot record (R584–R589) -/

/-- An image slot. -/
def Dev.imgSlot (d : Dev) (s : Nat) : ImageSlot := tget d.ghd.slots {} s

/-- An image slot replaced. -/
def Dev.setImgSlot (d : Dev) (s : Nat) (x : ImageSlot) : Dev := { d with ghd := { d.ghd with slots := tset d.ghd.slots s x } }

/-- Bytes of a slot as a number, the first the least significant. -/
def ImageSlot.num (x : ImageSlot) (off n : Nat) : Nat := natOfBytes ((x.bytes.drop off).take n)

/-- VERSION, ROLLBACK, KEY_C, LEN_G and LEN_C of an image (R586). -/
def ImageSlot.version (x : ImageSlot) : Nat := x.num 8 4
@[inherit_doc ImageSlot.version] def ImageSlot.rollback (x : ImageSlot) : Nat := x.num 12 1
@[inherit_doc ImageSlot.version] def ImageSlot.keyC (x : ImageSlot) : Nat := x.num 14 1
@[inherit_doc ImageSlot.version] def ImageSlot.lenG (x : ImageSlot) : Nat := x.num 16 4
@[inherit_doc ImageSlot.version] def ImageSlot.lenC (x : ImageSlot) : Nat := x.num 20 4

/-- Byte offset of part C: the next 4,096-byte boundary after part G. -/
def ImageSlot.offC (x : ImageSlot) : Nat := (4096 + x.lenG + 4095) / 4096 * 4096

/-- A key slot of the fuses. -/
def Dev.keySlot (d : Dev) (k : Nat) : KeySlot := tget d.ghd.keys {} k

/-- Key slot k is programmed: slot 0 at manufacture. -/
def Dev.keyProgrammed (d : Dev) (k : Nat) : Bool := k = 0 || (d.keySlot k).digest.isSome

/-- R588, with the digests and signatures judged by `auth`. (Log entry 112 DEDUCED.) -/
def Dev.imageVerifies (d : Dev) (s : Nat) (auth : Bool) : Bool :=
  let x := d.imgSlot s
  let zeros (off n : Nat) : Bool := (List.range n).all (fun i => x.bytes.getD (off + i) 0 = 0)
  let k := x.keyC
  x.bytes.take 8 = [0x42, 0x52, 0x59, 0x4E, 0x49, 0x4D, 0x47, 0x31] && decide (4096 ≤ x.bytes.length) &&
    decide (x.lenG % 6 = 0) && decide (x.lenG ≤ 1762272) && decide (x.lenC % 6 = 0) && decide (x.lenC ≤ 6057984) &&
    decide (x.offC + x.lenC ≤ x.bytes.length) && zeros 15 1 && zeros 216 40 && zeros 448 3648 &&
    x.num 13 1 = 0 && !(d.keySlot 0).revoked && decide (k ≤ 3) && d.keyProgrammed k && !(d.keySlot k).revoked &&
    (k ≠ 0 || [1, 2, 3].all (fun j => !d.keyProgrammed j)) && auth && decide (d.ghd.rollback ≤ x.rollback) &&
    decide (x.rollback ≤ 64)

/-- The copy of the boot record in force, if any, with its number (R585). -/
def Dev.bootCopy (d : Dev) : Option (Nat × BootRecord) :=
  match tfind d.ghd.recs 0, tfind d.ghd.recs 1 with
  | some a, some b => if a.gen < b.gen then some (1, b) else some (0, a)
  | some a, none => some (0, a)
  | none, some b => some (1, b)
  | none, none => none

/-- The boot record in force; with none, slot A is active and unconfirmed nothing. -/
def Dev.bootRec (d : Dev) : BootRecord := (d.bootCopy.map (·.2)).getD {}

/-- The boot record is written to the other copy, its generation one higher (R585). -/
def Dev.writeBootRec (d : Dev) (r : BootRecord) : Dev :=
  let c := match d.bootCopy with | some (i, _) => 1 - i | none => 0
  { d with ghd := { d.ghd with recs := tset d.ghd.recs c { r with gen := d.bootRec.gen + 1 } } }

/-- An update step is logged, and GHD_UPDATE raised (R595, R598, R603): the slot, the step of R598 and the VERSION.
(Log entry 122 DEDUCED.) -/
def Dev.updateStep (d : Dev) (s step : Nat) (ok : Bool) : Dev :=
  (d.log (if ok then 0 else 2) 0x040 (detailPair s step) (d.imgSlot s).version).raise 778

/-! ### Resets (R578, R591, R599, R632) -/

/-- The retained range of Goatherd private memory: retention words and log ring (R427). (Log entry 115 DEDUCED.) -/
def inRetained (a : Nat) : Bool := decide (0xAA7E00 ≤ a) && decide (a ≤ 0xAA93FF)

/-- A line of an encoder input over a reset: its pin stays at its level. (Log entry 34 DEDUCED.) -/
def EncLine.afterReset (l : EncLine) : EncLine := { pin := l.pin, filt := l.pin }

/-- What outlives a reset: the flash, the fuses, the pins, the retained range unless VDD_AON was lost, and the model's own
records; everything else is at its reset value. -/
def Dev.resetTo (d : Dev) (st : DevState) (cause rail : Nat) : Dev :=
  let g := d.ghd
  let slots := g.slots.map (fun e => (e.1, if e.2.st = .writing then { e.2 with st := SlotState.invalid } else e.2))
  let d' : Dev := {
    now := d.now, freeIdx := d.freeIdx, outbox := d.outbox
    sram := if g.aonLost then [] else d.sram.filter (fun e => inRetained e.1)
    ghd := { logNext := g.logNext, flushed := g.flushed, flashLog := g.flashLog, discarded := g.discarded, boots := g.boots,
             up := g.up, stopped := g.stopped, limitFrom := g.up, tripLow := g.tripLow, aonLost := g.aonLost, cause := cause, rail := rail,
             slots := slots, recs := g.recs, stored := g.stored, storedGen := g.storedGen, keys := g.keys,
             rollback := g.rollback }
    fio := { fins := d.fio.fins.map (fun e => (e.1, { pin := e.2.pin, filt := e.2.pin })) }
    spr := { enc := d.spr.enc.map (fun e => (e.1, { la := e.2.la.afterReset, lb := e.2.lb.afterReset, lz := e.2.lz.afterReset })) } }
  let d' := ((d'.wrF .ghdState 0 2 0 st.code).wrF .ghdState 0 23 16 cause).wrF .ghdState 0 31 24 rail
  let d' := d'.setDomains (if st = .off then [] else [0, 23]) .on
  forUpTo 4 (fun g d => d.setLevel (576 + g) true) d'

/-- The device goes OFF (R578). -/
def Dev.goOff (d : Dev) (cause rail : Nat) (aon : Bool) : Dev :=
  let d := { d with ghd := { d.ghd with aonLost := d.ghd.aonLost || aon, tripLow := d.ghd.tripLow && !(aon || cause = 1) } }
  let d := d.resetTo .off cause rail
  { d with ghd := { d.ghd with up := 0, stopped := 0, limitFrom := 0 } }

/-- RAIL_RESET (R591): rail r stays below its reset threshold; VDD_AON takes Goatherd private memory with it.
(Log entry 146 DESIGN CHOICE.) -/
def railResetOp (r : Nat) (d : Dev) : Dev := d.goOff 2 r (r = 2)

/-- RESET_N_ASSERT (R632). -/
def resetNAssertOp (d : Dev) : Dev := d.goOff 1 0 false

/-- A failure of R430 recorded in EDC_ST_RESULT, raised and logged. -/
def Dev.stFailure (d : Dev) (bits : Nat) : Dev :=
  let d := (d.wr .edcStResult 0 (d.rd .edcStResult ||| wordOf bits)).raise 674
  d.log 3 0x034 (d.rd .edcStResult) 0

/-! ### The boot ROM (R427, R589) -/

/-- The CRC over the retention words but the last (R427). (Log entry 115 DEDUCED.) -/
def Dev.retentionCrc (d : Dev) : Nat :=
  (crc32c (bytesOfWords ((List.range 511).map (fun i => (d.cell (0xAA7E00 + i)).data)))).toNat

/-- Goatherd reads the retained range, correcting and counting as every reader does; it survives where no word reads uncorrectable or
poison and the CRC holds (R421, R427 step 1). A word never stored reads good. (Log entry 115 DEDUCED.) -/
def Dev.readRetained (d : Dev) : Bool × Dev :=
  let r := (d.sram.filter (fun e => inRetained e.1)).foldl (fun (acc : Bool × Dev) e =>
    let x := acc.2.sramRead e.1
    (acc.1 && x.1.status = 0, x.2)) (true, d)
  (r.1 && fld (r.2.cell 0xAA7FFF).data 31 0 = r.2.retentionCrc, r.2)

/-- The retention words as Goatherd keeps them: boot count, reset cause, and the CRC last. (Log entry 115 DEDUCED.) -/
def Dev.writeRetention (d : Dev) : Dev :=
  let d := d.sramWrites 0xAA7E00 [wordOf d.ghd.boots, wordOf d.ghd.cause]
  d.sramWrite 0xAA7FFF (wordOf d.retentionCrc)

/-- Goatherd tests region 4 (R427): all of it ends as 0 but a surviving retained range. True where the range was lost. -/
def Dev.testRegion4 (d : Dev) : Bool × Dev :=
  let r := if d.ghd.aonLost then (false, d) else d.readRetained
  let d := r.2
  if r.1 then (false, { d with sram := d.sram.filter (fun e => inRetained e.1) })
  else (true, { d with sram := [], ghd := { d.ghd with aonLost := false, flushed := d.ghd.logNext } })

/-- GHD_BOOT for the image running from slot s. -/
def Dev.refreshBoot (d : Dev) (s : Nat) (trial : Bool) : Dev :=
  let w := setFld (setFld 0 47 16 (d.imgSlot s).version) 10 4 d.ghd.rollback
  d.wr .ghdBoot 0 (setFld (setFld (setFld w 3 2 d.bootRec.attempts) 1 1 trial.toNat) 0 0 s)

/-- Part G of slot s is loaded into region 4, and Goatherd jumps to it. -/
def Dev.loadG (d : Dev) (s : Nat) : Dev :=
  let x := d.imgSlot s
  let d := d.sramWrites (regionBase 4) (wordsOfBytes (x.lenG / 6) (x.bytes.drop 4096))
  let d := d.setProc 1028 { pc := wordOf (regionBase 4), released := d.ghd.up }
  { d with ghd := { d.ghd with keyC := x.keyC } }

/-- The boot ROM (R427, R589, R595), from device state `old`. (Log entries 93 DEDUCED, 126 DEDUCED.) -/
def Dev.bootRom (d : Dev) (old : Nat) (boot : BootReport) : Dev :=
  let t := d.testRegion4
  let d := t.2
  let d := { d with ghd := { d.ghd with boots := d.ghd.boots + 1 } }
  let d := (d.wrF .ghdBootCount 0 31 0 d.ghd.boots).writeRetention
  let d := if t.1 then d.log 1 0x013 0 0 else d
  let d := if d.ghd.cause = 2 then d.log 2 0x012 (wordOf d.ghd.rail) 0 else d
  let d := forUpTo 5 (fun t d => d.raise (64 * t + 35)) (d.log 0 0x002 (detailPair old 1) 0)
  if boot.test ≠ 0 then
    (d.stFailure (16 * (boot.test.getLsbD 0).toNat + 4096 * (boot.test.getLsbD 1).toNat)).fail 2
  else
  let r := d.bootRec
  let fall := r.trial && decide (3 ≤ r.attempts)
  let s := if fall then 1 - r.active else r.active
  let d := if fall then (d.writeBootRec { r with active := s, trial := false }).updateStep s 6 true
           else if r.trial then d.writeBootRec { r with attempts := r.attempts + 1 } else d
  match [s, 1 - s].find? (fun t => d.imageVerifies t (boot.auth.getLsbD t)) with
  | some b =>
    let d := (d.loadG b).refreshBoot b (d.bootRec.trial && b = s)
    logFlushOp (d.log 0 0x001 (detailPair b (d.imgSlot b).version) d.ghd.cause)
  | none => (logFlushOp d).fail 1

/-- SUPPLIES_GOOD (R578, R589, R636): OFF to BOOT. `prog` lists image slots programmed from outside while the device was off.
(Log entries 34 DEDUCED, 112 DEDUCED, 113 DEDUCED, 114 DEDUCED, 150 DEDUCED.) -/
def suppliesGoodOp (pll : Bool) (prog : List (Fin 2 × List Byte)) (boot : BootReport) (d : Dev) : Dev :=
  if d.devState ≠ .off then d
  else
    let d := prog.foldl (fun d e => d.setImgSlot e.1.val { bytes := e.2, st := .invalid }) d
    let d := prog.foldl (fun d e =>
      if d.imageVerifies e.1.val (boot.auth.getLsbD e.1.val) then d.setImgSlot e.1.val { bytes := e.2, st := .valid } else d) d
    let d := { d.resetTo .boot d.ghd.cause d.ghd.rail with now := 0 }
    if pll then d.bootRom 0 boot else { d with ghd := { d.ghd with pllHeld := true } }

/-- A device reset that leaves the supplies: watchdog or 8010h.3 (R578, R583). (Log entry 114 DEDUCED.) -/
def Dev.warmReset (d : Dev) (cause : Nat) (boot : BootReport) : Dev := (d.resetTo .boot cause 0).bootRom d.devState.code boot

/-- WATCHDOG_EXPIRY (R583, R595). -/
def watchdogExpiryOp (boot : BootReport) (d : Dev) : Dev :=
  if !d.powered || d.ghd.pllHeld then d else (d.log 2 0x051 (d.proc 1028).pc 0).warmReset 3 boot

/-- DEVICE_RESET (8010h.3, R578, R599): refused while a flash write is in progress. (Log entry 121 DEDUCED.) -/
def deviceResetOp (boot : BootReport) (d : Dev) : Dev :=
  if !d.powered || d.ghd.pllHeld then d
  else if d.ghd.flashOp.isSome then d.answer 0x38 0x40
  else (d.warmReset 4 boot).answer 0 0

/-- PLL_LOCK_TIMEOUT (R636): FAULT_N goes low. -/
def pllLockTimeoutOp (d : Dev) : Dev :=
  if d.devState = .boot && d.ghd.pllHeld && 10000000 ≤ d.ghd.up then { d with ghd := { d.ghd with faultLow := true } } else d

/-- PLL_LOCK (R636, R637): the always-on PLL releases Goatherd, the SerDes PLL the training. -/
def pllLockOp (serdes : Bool) (boot : BootReport) (d : Dev) : Dev :=
  if serdes then
    if d.devState = .train then { d with ghd := { d.ghd with refHeld := false } } else d
  else if d.devState = .boot && d.ghd.pllHeld then
    { d with ghd := { d.ghd with pllHeld := false, faultLow := false, limitFrom := d.ghd.up } }.bootRom 0 boot
  else d

/-! ### Self-test and training (R415, R427–R430) -/

/-- The lateral map in force is written into extraction memory (R265). -/
def Dev.writeMap (d : Dev) : Dev :=
  let bs := (d.varBytes 0x4300 1).getD []
  let d := d.sramWrites mapBase (wordsOfBytes (bs.length / 6) bs)
  { d with cex := { d.cex with mapLen := bs.length / 6, mapHist := [] } }

/-- Stack s comes ON with its lanes after R415: every tile as pass 6 of R416 leaves it. -/
def Dev.stackReady (d : Dev) (s : Nat) (t : StackTrain) : Dev :=
  let d := ((d.setDomain (1 + s) .on).loseStack s).wrF .hbcSsStat s 6 0 3
  (d.wrF .hbcSsLanes s 7 0 t.repaired.toNat).wrF .hbcSsLanes s 15 8 t.spares.toNat

/-- The bit of EDC_ST_RESULT for a CAUSE of R415. -/
def trainBit (s cause : Nat) : Nat :=
  if cause ≤ 3 then 2 ^ (24 + s) else if cause = 4 then 2 ^ (28 + s) else 2 ^ (32 + s)

/-- What pass p of the pattern test leaves in word i of tile t of stack s, its tag being word 512 (R416). -/
def patternWord (p s t i : Nat) : BitVec 64 :=
  let first : BitVec 64 :=
    if i = 512 then BitVec.ofNat 64 t else BitVec.ofNat 64 (0x100000000 + (s * stackTiles + t) * 512 + i + 2 ^ 40 * s)
  let third : BitVec 64 := if i = 512 then 0x5A5A5A5A5A5A5A5A#64 else 0xA5A5A5A5A5A5#64
  let comp (w : BitVec 64) : BitVec 64 := if i = 512 then ~~~w else w ^^^ 0xFFFFFFFFFFFF#64
  match p with
  | 1 => first
  | 2 => comp first
  | 3 => third
  | 4 => comp third
  | _ => if i = 512 then 0x80#64 else 0

/-- The pattern test fails: in mode 0, a word that pass p read back differs from what pass p − 1 left there (R416). In mode 1 nothing
is read back. -/
def Dev.patternFails (d : Dev) (s : Nat) (t : StackTrain) : Bool :=
  d.rdF .hbcCtl 0 5 4 = 0 &&
    (decide (t.fail = some 5) ||
      (match t.read with
       | some (p, x, i, v) => decide (2 ≤ p.val) && decide (v ≠ patternWord (p.val - 1) s x i)
       | none => false))

/-- The CAUSE of the first step of R415 that fails for stack s, none where all pass. -/
def Dev.trainFail (d : Dev) (s : Nat) (t : StackTrain) : Option Nat :=
  match t.fail with
  | some c => if c.val = 0 || c.val = 5 then (if d.patternFails s t then some 5 else none) else some c.val
  | none => if d.patternFails s t then some 5 else none

/-- Stack s is prepared in TRAIN (R415, R416): ON, or fenced with the CAUSE of the step that failed; nothing more in FAILED. -/
def Dev.trainStack (d : Dev) (s : Nat) (t : StackTrain) : Dev :=
  if d.devState = .failed then d
  else
    match d.trainFail s t with
    | some c => (d.stFailure (trainBit s c)).fenceStack s c
    | none => d.stackReady s t

/-- SELFTEST_COMPLETE (R415, R427–R430, R578): regions 0–3 end as 0, the lateral map is written, and TRAIN begins with its
stacks. (Log entry 150 DEDUCED.) -/
def selftestCompleteOp (t : SelfTest) (s0 s1 s2 s3 : StackTrain) (velvet ref : Bool) (d : Dev) : Dev :=
  if d.devState ≠ .selftest then d
  else
    let d := { d with sram := d.sram.filter (fun e => decide (regionBase 4 ≤ e.1)), hbc := { d.hbc with xfer := [] } }
    if t.checker ≠ 0 || t.march ≠ 0 then (d.stFailure (t.checker.toNat + t.march.toNat * 256)).fail 2
    else
      let d := forUpTo 4 (fun g d =>
        if t.parity.getLsbD g && !d.rdB .cxiGrpgStat g 1 then (d.stFailure (2 ^ (16 + g))).fenceGroup g
        else d) d
      if d.devState = .failed then d
      else
        let d := d.writeMap.enterState .train none
        let d := (((d.trainStack 0 s0).trainStack 1 s1).trainStack 2 s2).trainStack 3 s3
        if d.devState = .failed then d
        else if !velvet then (d.stFailure (2 ^ 40)).fail 3
        else { d.refreshCap with ghd := { d.refreshCap.ghd with refHeld := !ref } }

/-- PART_C_CHECK (R578): part C, read again into the program area, releases the cores whose ENTRY is not 0, or the device
fails with cause 1. -/
def partCCheckOp (same : Bool) (d : Dev) : Dev :=
  if d.devState ≠ .train || d.ghd.partC then d
  else if !same then d.fail 1
  else
    let x := d.imgSlot (d.rdF .ghdBoot 0 0 0)
    let ws := wordsOfBytes (x.lenC / 6) (x.bytes.drop x.offC)
    let d := d.sramWrites 0x6AA800 ws
    let d := forUpTo 4 (fun k d =>
      let e := fld (ws.getD k 0) 39 0
      if e = 0 then d else coreRunOp k true (d.wr .ctlCorekEntry k (wordOf e))) d
    { d with ghd := { d.ghd with partC := true } }

/-! ### Service (R578, R580, R581) -/

/-- The device goes into service (R183, R229, R578): RUN, or DEGRADED with something fenced; the first time with a full layout.
(Log entry 180 DEDUCED.) -/
def Dev.enterService (d : Dev) : Dev :=
  let d := if d.tfb.served then d else { d.fullLayout with tfb := { d.fullLayout.tfb with served := true } }
  if d.anyFenced then d.enterState .degraded (some d.fenceCause) else d.enterState .run (some 9)

/-- READY goes into service while 8010h.1 is 1, in power state RUN with no transition in progress (R578).
(Log entry 147 DEDUCED.) -/
def Dev.settleService (d : Dev) : Dev :=
  if d.devState = .ready && d.var 0x8010 1 = 1 && d.powerState = .run && d.ghd.move.isNone then d.enterService else d

/-- READY is entered, and the channels with AUTOSTART start (R326, R339). -/
def Dev.enterReady (d : Dev) (cause : Option Nat) : Dev := (d.enterState .ready cause).autostart

/-- SERVICE_REQUEST (8010h.1). (Log entry 147 DEDUCED.) -/
def serviceRequestOp (v : Nat) (d : Dev) : Dev :=
  d.whenReady fun d =>
    if 1 < v then d.answer 0x21 0x31
    else
      let d := (d.setVar 0x8010 1 1 v).answer 0 0
      if v = 0 && d.inService then d.enterReady (some 9) else d.settleService

/-- The trial image is confirmed (R598 step 5): TRIAL 0, and rollback fuses blown up to its ROLLBACK. -/
def Dev.confirmImage (d : Dev) : Dev :=
  let r := d.bootRec
  let s := d.rdF .ghdBoot 0 0 0
  if r.trial && r.active = s then
    let d := d.writeBootRec { r with trial := false }
    let n := (d.imgSlot s).rollback
    let d := if d.ghd.rollback < n then
        { d with ghd := { d.ghd with rollback := n } }.log 0 0x041 (wordOf n) 0 else d
    (d.refreshBoot s false).updateStep s 5 true
  else d

/-- TRAIN_COMPLETE (R578, R581): every stack and group ON or fenced, part C released; READY, AUTOSTART, autorun.
(Log entry 150 DEDUCED.) -/
def trainCompleteOp (d : Dev) : Dev :=
  if d.devState ≠ .train || d.ghd.refHeld || !d.ghd.partC then d
  else
    let d := d.enterReady none
    let d := d.wrB .tfbGrzCtl 0 3 true
    let d := if d.var 0x9000 6 = 1 then d.confirmImage else d
    (d.setVar 0x8010 1 1 (d.var 0x8010 2)).settleService

/-- READY_DEADLINE (R579, R637): 2,000 ms have passed before READY. -/
def readyDeadlineOp (d : Dev) : Dev :=
  if (d.devState = .boot || d.devState = .selftest || d.devState = .train) && !d.ghd.pllHeld &&
      2000000000 ≤ d.ghd.up - d.ghd.limitFrom then d.fail 10
  else d

/-- RETURN_FENCED (8010h.4, R580): each fenced stack (3:0) that `v` names, that `pass` passes and in whose training no step of R415 fails
under the pattern mode in force, and each such group (7:4), comes back; with nothing left fenced the device returns to RUN.
(Log entry 148 DEDUCED.) -/
def returnFencedOp (v : Nat) (pass : BitVec 8) (s0 s1 s2 s3 : StackTrain) (d : Dev) : Dev :=
  d.whenReady fun d =>
    if 255 < v then d.answer 0x21 0x31
    else if d.devState ≠ .degraded then d.answer 0 0
    else
      let ts := [s0, s1, s2, s3]
      let back := (List.range 4).filter (fun s =>
        v.testBit s && pass.getLsbD s && (d.trainFail s (ts.getD s s0)).isNone && d.fencedStacks.contains s)
      let d := back.foldl (fun d s => (d.stackReady s (ts.getD s s0)).log 2 0x033 (wordOf s) 0) d
      let d := if back = [] then d else d.fullLayout.refreshCap
      let gs := (List.range 4).filter (fun g => v.testBit (4 + g) && pass.getLsbD (4 + g) && d.fencedGroups.contains g)
      let d := gs.foldl (fun d g => (d.setGroup g true false).log 2 0x033 (wordOf (16 + g)) 0) d
      (if d.anyFenced then d else d.enterState .run (some 9)).answer 0 0

/-! ### Supplies and temperatures (R590–R593, R638) -/

/-- Nominal voltage of a rail and its warning threshold, in units of 0.1 mV (R591). -/
def railLevels (r : Nat) : Nat × Nat :=
  ([(7500, 7125), (8000, 7600), (8000, 7600), (8500, 8075), (12000, 11400), (18000, 17100), (11000, 10450), (4000, 3800),
    (18000, 17100), (12000, 11400), (50000, 47500)] : List (Nat × Nat)).getD r (0, 0)

/-- A reading of rail r: now and lowest (GHD_RAILr). (Log entries 33 DEDUCED, 146 DESIGN CHOICE.) -/
def Dev.railReading (d : Dev) (r mv : Nat) : Dev :=
  let low := d.rdF .ghdRailr r 31 16
  (d.wrF .ghdRailr r 15 0 mv).wrF .ghdRailr r 31 16 (if low = 0 then mv else min low mv)

/-- SUPPLY_WARN of every bank follows the rails in warning (R523). -/
def Dev.refreshWarn (d : Dev) : Dev := forUpTo 5 (fun t d => d.setLevel (64 * t + 32) (d.ghd.warned ≠ [])) d

/-- SUPPLY_WARNING (R590): rail r reads `mv`, below its warning threshold, in two samples. (Log entry 146 DESIGN CHOICE.) -/
def supplyWarningOp (r mv : Nat) (d : Dev) : Dev :=
  if !d.powered || d.ghd.pllHeld || (railLevels r).2 ≤ 10 * mv then d
  else
    let d := d.railReading r mv
    let d := { d with ghd := { d.ghd with warnAt := tset d.ghd.warnAt r d.now } }
    if d.ghd.warned.contains r then d
    else
      let first := d.ghd.warned = []
      let d := { d with ghd := { d.ghd with warned := d.ghd.warned ++ [r], warnings := tset d.ghd.warnings r (tget d.ghd.warnings 0 r + 1) } }
      let d := ((d.wrB .ghdRailr r 32 true).log 1 0x010 (wordOf r) mv).refreshWarn
      if first then logFlushOp (d.sendAlert 1 r) else d

/-- SUPPLY_WARNING_END (R590): rail r has stood 1 ms above nominal −4%. -/
def supplyWarningEndOp (r mv : Nat) (d : Dev) : Dev :=
  if !d.ghd.warned.contains r || 250 * mv ≤ 24 * (railLevels r).1 || elapsed d.now (tget d.ghd.warnAt 0 r) < 1000000 then d
  else
    let d := { d.railReading r mv with ghd := { (d.railReading r mv).ghd with warned := d.ghd.warned.filter (fun x => x ≠ r) } }
    ((d.wrB .ghdRailr r 32 false).log 0 0x011 (wordOf r) mv).refreshWarn

/-- A reading of sensor s in 1/8 °C: now, highest, and whether at or above 100 °C (GHD_TEMPs). (Log entry 33 DEDUCED.) -/
def Dev.tempReading (d : Dev) (s : Nat) (t : Int) : Dev :=
  let w := d.rd .ghdTemps s
  let high := if w = 0 then t else max (sfld w 31 16) t
  let w := setFld (setFld w 15 0 (wordOfInt t).toNat) 31 16 (wordOfInt high).toNat
  let d := d.wr .ghdTemps s (setBit w 32 (decide (800 ≤ t)))
  let hot := (List.range 13).any (fun k => d.rdB .ghdTemps k 32)
  forUpTo 5 (fun b d => d.setLevel (64 * b + 33) hot) d

/-- A temperature in the detail words of the log. -/
def tempDetail (t : Int) : Nat := (BitVec.ofInt 32 t).toNat

/-- THROTTLE_START (R592): sensor s reads 100 °C or more. -/
def throttleStartOp (s : Nat) (t : Int) (d : Dev) : Dev :=
  if !d.powered || d.ghd.pllHeld || t < 800 then d
  else
    let d := d.tempReading s t
    if d.rdF .ghdThrottle 0 2 0 ≠ 0 then d
    else
      let d := (d.wrF .ghdThrottle 0 2 0 1).setLevel 777 true
      let d := { d with ghd := { d.ghd with throttledAt := d.now, episodes := d.ghd.episodes + 1 } }
      (d.log 1 0x020 (wordOf s) (tempDetail t)).sendAlert 2 s

/-- THROTTLE_STEP (R592): 10 ms later a sensor still reads 100 °C or more; down to 1/16. -/
def throttleStepOp (s : Nat) (t : Int) (d : Dev) : Dev :=
  let l := d.rdF .ghdThrottle 0 2 0
  if l = 0 || t < 800 || elapsed d.now d.ghd.throttledAt < 10000000 then d
  else
    let d := (d.tempReading s t).wrF .ghdThrottle 0 2 0 (min (l + 1) 4)
    { d with ghd := { d.ghd with throttledAt := d.now } }

/-- THROTTLE_END (R592): every sensor, the last of them s at t, has read below 97 °C for 100 ms. -/
def throttleEndOp (s : Nat) (t : Int) (d : Dev) : Dev :=
  if d.rdF .ghdThrottle 0 2 0 = 0 || 776 ≤ t || elapsed d.now d.ghd.throttledAt < 100000000 then d
  else
    let d := forUpTo 13 (fun k d => d.wrB .ghdTemps k 32 false) d
    let d := ((d.tempReading s t).wrF .ghdThrottle 0 2 0 0).setLevel 777 false
    d.log 0 0x021 (wordOf s) (tempDetail t)

/-- THERMAL_TRIP (R593, R638): sensor s reads 115 °C or more in two samples. -/
def thermalTripOp (s : Nat) (t : Int) (d : Dev) : Dev :=
  if !d.powered || d.ghd.pllHeld || t < 920 then d
  else
    let d := ((d.tempReading s t).log 3 0x022 (wordOf s) (tempDetail t)).sendAlert 3 s
    let d := d.fail 5
    { d with ghd := { d.ghd with tripLow := true } }

/-- THERMTRIP_COMPARATOR (R638): THERMTRIP_N low without Goatherd. -/
def thermtripComparatorOp (d : Dev) : Dev :=
  if d.powered then { d with ghd := { d.ghd with tripLow := true } } else d

/-! ### Updates (R597–R599) -/

/-- The slot that updates write: the one the boot record does not make active. (Log entry 125 DEDUCED.) -/
def Dev.inactiveSlot (d : Dev) : Nat := 1 - d.bootRec.active

/-- The unfinished transfer of an object in every session dropped. (Log entry 216 DESIGN CHOICE.) -/
def Dev.dropSegs (d : Dev) (key : Nat) : Dev :=
  { d with dict := { d.dict with sessions := d.dict.sessions.map (fun (s : Session) =>
      { s with segs := s.segs.filter (fun (g : SegWrite) => g.key ≠ key) }) } }

/-- IMAGE_WRITE (9000h.2, R597): a segment is programmed as it arrives; LAST starts verification. The slot takes one transfer at a
time: a segment at offset 0 ends that of every session. (Log entry 216 DESIGN CHOICE.) -/
def imageWriteOp (last : Bool) (off : Nat) (bytes : List Byte) (d : Dev) : Dev :=
  d.whenReady fun d =>
    let s := d.inactiveSlot
    let x := d.imgSlot s
    let kept := if off = 0 then [] else if x.st = .writing then x.bytes else []
    if d.bootRec.trial || d.ghd.verifying then d.answer 0x38 0x40
    else if off ≠ kept.length then d.answer 0x10 0x37
    else if 8388608 < off + bytes.length then d.answer 0x21 0x31
    else
      let d := if off = 0 || last then d.dropSegs 0x900002 else d
      let d := d.setImgSlot s { bytes := kept ++ bytes, st := .writing }
      let op := match d.ghd.flashOp with | some o => some o | none => some FlashOp.program
      let d := { d with ghd := { d.ghd with verifying := last, flashOp := op } }
      (if last then d.updateStep s 1 true else d).answer 0 0

/-- IMAGE_VERIFY_DONE (R588, R598 step 2); the coding of 9000h.3 is open. (Log entries 112 DEDUCED, 123 DESIGN CHOICE.) -/
def imageVerifyDoneOp (auth : Bool) (d : Dev) : Dev :=
  if !d.ghd.verifying then d
  else
    let s := d.inactiveSlot
    let ok := d.imageVerifies s auth
    let f := d.free
    let d := f.2.setImgSlot s { d.imgSlot s with st := if ok then .valid else .invalid }
    { d with ghd := { d.ghd with verifying := false, verify := f.1 % 65536 } }.updateStep s 2 ok

/-- ACTIVATE (9000h.4, R598 step 3): refused unless the slot is VALID, which is a step that fails (R603). -/
def activateOp (d : Dev) : Dev :=
  d.whenReady fun d =>
    let s := d.inactiveSlot
    if d.bootRec.trial then d.answer 0x38 0x40
    else if (d.imgSlot s).st ≠ .valid then (d.updateStep s 3 false).answer 0x10 0x40
    else
      let d := d.writeBootRec { d.bootRec with active := s, trial := true, attempts := 0 }
      ((d.wrF .ghdBoot 0 3 2 0).updateStep s 3 true).answer 0 0

/-- CONFIRM (9000h.5, R598 step 5). -/
def confirmOp (d : Dev) : Dev := d.whenReady fun d => d.confirmImage.answer 0 0

/-! ### Keys (R606) -/

/-- A mailbox path. -/
def isMailbox : BopPath → Bool
  | .mailbox _ => true
  | _ => false

/-- KEY_PROGRAM (9010h.2): a slot 1–3, then the 48 bytes of its digest. -/
def keyProgramOp (x : BopPath) (bytes : List Byte) (d : Dev) : Dev :=
  d.whenReady fun d =>
    let k := natOfBytes (bytes.take 1)
    if !isMailbox x then d.answer 0x10 0x35
    else if bytes.length ≠ 49 || k < 1 || 3 < k then d.answer 0x21 0x31
    else if (d.keySlot k).digest.isSome then d.answer 0x10 0x41
    else
      let d := { d with ghd := { d.ghd with keys := tset d.ghd.keys k { d.keySlot k with digest := some (bytes.drop 1) } } }
      (d.log 0 0x042 (wordOf k) 0).answer 0 0

/-- KEY_REVOKE (9010h.3): not the slot that signed the running part C. -/
def keyRevokeOp (x : BopPath) (k : Nat) (d : Dev) : Dev :=
  d.whenReady fun d =>
    if !isMailbox x then d.answer 0x10 0x35
    else if 3 < k then d.answer 0x21 0x31
    else if k = d.ghd.keyC then d.answer 0x10 0x41
    else
      let d := { d with ghd := { d.ghd with keys := tset d.ghd.keys k { d.keySlot k with revoked := true } } }
      (d.log 0 0x042 (wordOf k) 0).answer 0 0

/-! ### Power requests (R600, R602) -/

/-- A transition begins (R578, R600): service ends first. -/
def Dev.startPower (d : Dev) (v : Nat) : Dev :=
  let begin_ (m : PowerMove) : Dev :=
    let d := if d.inService then d.enterReady (some 9) else d
    { d with ghd := { d.ghd with move := some m, moveAt := d.now } }
  match v, d.powerState with
  | 0, .standby => begin_ .toRun
  | 1, .run => begin_ .toStandby
  | 2, .run => begin_ .toHibernate
  | 2, .standby => begin_ .toHibernate
  | _, _ => d

/-- POWER_REQUEST (8020h.1): one transition at a time; a request during one waits, the last one only. -/
def powerRequestOp (v : Nat) (d : Dev) : Dev :=
  d.whenReady fun d =>
    if 2 < v then d.answer 0x21 0x31
    else if d.ghd.move.isSome then { d with ghd := { d.ghd with asked := some v } }.answer 0 0
    else (d.startPower v).answer 0 0

end Sys2Proof.Machine
end

