-- ==== Sys2Proof/Machine/Objects.lean ====
section
/-! DEFINITION. The objects of the dictionary (R546–R549): every object of the chapters' tables (R71, R127, R174, R233, R285,
R340, R437, R473, R520, R545, R577, R605, R626) with its type, access, properties, range, and what holds its value. -/

namespace Sys2Proof.Machine

/-- The access codes of objects (R6), in the order of DESCRIBE (R558). -/
inductive Acc where
  | ro | rw | rws | wo | const
  deriving DecidableEq, Repr

/-- What holds the value of an object. -/
inductive Back where
  /-- bits hi:lo of a register -/
  | field (r : Reg) (i hi lo : Nat)
  /-- the same, signed -/
  | sfield (r : Reg) (i hi lo : Nat)
  /-- bits hi:lo of a register while bit `en` is 1; FFh while it is 0 -/
  | opt (r : Reg) (i en hi lo : Nat)
  /-- 2 to the power of bits hi:lo of a register -/
  | pow (r : Reg) (i hi lo : Nat)
  /-- no register: the dictionary holds it -/
  | var
  /-- fixed bytes -/
  | fixed (bs : List Byte)
  /-- computed where it is read -/
  | calc
  deriving DecidableEq, Repr

/-- An object: type code, access, stop-required, stored and enable properties, what holds it, and its narrower range. -/
structure Obj where
  typ : Nat
  acc : Acc
  stop : Bool := false
  kept : Bool := false
  en : Bool := false
  back : Back := .calc
  range : Option (Int × Int) := none
  deriving DecidableEq, Repr

/-- The type codes of R547. -/
def tBool : Nat := 1
@[inherit_doc tBool] def tU8 : Nat := 2
@[inherit_doc tBool] def tU16 : Nat := 3
@[inherit_doc tBool] def tU32 : Nat := 4
@[inherit_doc tBool] def tU48 : Nat := 5
@[inherit_doc tBool] def tI48 : Nat := 6
@[inherit_doc tBool] def tP48 : Nat := 8
@[inherit_doc tBool] def tStr : Nat := 9
@[inherit_doc tBool] def tDom : Nat := 10
@[inherit_doc tBool] def tTbl : Nat := 11

/-- Bytes of a value of a type; the most for STR, DOM and TBL (R547). -/
def typeBytes (t : Nat) : Nat :=
  ([0, 1, 1, 2, 4, 6, 6, 6, 6, 255, 8388608, 393216] : List Nat).getD t 0

/-- A type of one fixed size. -/
def fixedSize (t : Nat) : Bool := decide (t < tStr)

/-- An RO object. -/
def ro (t : Nat) (b : Back := .calc) : Option Obj := some { typ := t, acc := .ro, back := b }
/-- A CONST object. -/
def con (t : Nat) (b : Back) : Option Obj := some { typ := t, acc := .const, back := b }
/-- A WO object. -/
def wo (t : Nat) : Option Obj := some { typ := t, acc := .wo }
/-- An RW object. -/
def rw_ (t : Nat) (b : Back) : Option Obj := some { typ := t, acc := .rw, back := b }
/-- An RWS object: stored (R548). -/
def rws (t : Nat) (b : Back) : Option Obj := some { typ := t, acc := .rws, kept := true, back := b }
/-- It is stop-required. -/
def stopped (o : Option Obj) : Option Obj := o.map (fun x => { x with stop := true })
/-- It is kept in the stored configuration. -/
def stored (o : Option Obj) : Option Obj := o.map (fun x => { x with kept := true })
/-- It is an enable object. -/
def enables (o : Option Obj) : Option Obj := o.map (fun x => { x with en := true })
/-- Its narrower range. -/
def within (lo hi : Int) (o : Option Obj) : Option Obj := o.map (fun x => { x with range := some (lo, hi) })

/-- The bytes of a text. -/
def textBytes (s : String) : List Byte := s.toList.map (fun c => BitVec.ofNat 8 c.toNat)

/-- 1000h, 1001h, 1010h, 1100h–1101h, 1120h, 1130h and 2400h (R577). -/
def identityObj : Nat → Option Obj
  | 1 => con tStr (.fixed (textBytes "Moadovi Instruments"))
  | 2 => con tStr (.fixed (textBytes "BR4864"))
  | 3 => con tStr (.fixed (textBytes "BR4864-H144"))
  | 4 => con tStr (.fixed (textBytes "B0"))
  | 5 => con tU48 .calc
  | 6 => ro tU32 (.field .ghdBoot 0 47 16)
  | 7 => con tU8 (.fixed [1])
  | 8 => con tU16 (.fixed [0x12, 0x10])
  | 9 => con tU16 (.fixed [0x11, 0x10])
  | 10 => con tU16 (.fixed [2, 1])
  | _ => none

@[inherit_doc identityObj] def statusObj : Nat → Option Obj
  | 1 => ro tU8 (.field .ghdState 0 2 0)
  | 2 => ro tU16 (.field .ghdState 0 15 8)
  | 3 => ro tU8
  | 4 => ro tU8
  | 5 => ro tU48
  | 6 => ro tU48
  | 7 => ro tU16 (.field .hlkStat 0 28 19)
  | _ => none

@[inherit_doc identityObj] def storeObj : Nat → Option Obj
  | 1 => wo tBool
  | 2 => wo tBool
  | 3 => ro tU8
  | 4 => ro tU32
  | _ => none

@[inherit_doc identityObj] def ethObj (p : Nat) : Nat → Option Obj
  | 1 => con tU48 (.field .ethPpMac p 47 0)
  | 2 => ro tBool (.field .ethPpStat p 0 0)
  | 3 => within 0 2 (stored (rw_ tU8 .var))
  | 4 => stored (rw_ tU32 .var)
  | 5 => within 0 32 (stored (rw_ tU8 .var))
  | 6 => stored (rw_ tU32 .var)
  | 7 => stored (rw_ tDom .var)
  | 8 => within 0 128 (stored (rw_ tU8 .var))
  | 9 => ro tU8 (.field .ethPpStat p 12 8)
  | 10 => ro tU48 (.field .ethPpErr p 47 0)
  | _ => none

@[inherit_doc identityObj] def ptpObj : Nat → Option Obj
  | 1 => stored (rw_ tBool .var)
  | 2 => ro tU8 (.field .ethPtpStat 0 1 0)
  | 3 => ro tU8 (.field .ethPtpStat 0 2 2)
  | 4 => ro tDom
  | 5 => ro tDom
  | _ => none

@[inherit_doc identityObj] def commitObj : Nat → Option Obj
  | 1 => ro tU8
  | 2 => ro tU16
  | 3 => ro tU32
  | 4 => ro tU16
  | 5 => ro tP48
  | 6 => ro tU8
  | 7 => ro tU16
  | 8 => ro tTbl
  | 9 => ro tBool
  | 10 => ro tU32
  | 11 => ro tU16 (.field .hlkCommitStat 0 31 16)
  | _ => none

/-- 1800h (R545). -/
def eventObj : Nat → Option Obj
  | 1 => stored (rw_ tTbl .calc)
  | 2 => ro tTbl
  | 3 => ro tTbl
  | 4 => ro tU16 (.field .evcStat 0 9 0)
  | _ => none

/-- 2010h–2013h, 2080h–2087h, 2100h–213Fh, 2200h–220Fh (R71). -/
def axisObj (a : Nat) : Nat → Option Obj
  | 1 => stopped (rws tU8 (.field .sprAxnCtl a 1 1))
  | 2 => stopped (rws tU8 (.field .sprAxnCtl a 6 4))
  | 3 => stopped (rws tU8 (.opt .sprAxnCtl a 7 10 8))
  | 4 => rws tU32 (.field .sprAxnAmax a 31 0)
  | 5 => rws tU32 (.field .sprAxnJmax a 31 0)
  | 6 => rws tU16 (.field .sprAxnEdgeTol a 15 0)
  | 7 => rws tU16 (.field .sprAxnVarLim a 15 0)
  | 8 => rws tU48 (.field .sprAxnSecScale a 47 0)
  | 9 => rws tU32 (.field .sprAxnSlipWin a 31 0)
  | 10 => rws tU32 (.field .sprAxnSlipTol a 31 0)
  | 11 => rws tBool (.field .sprAxnCtl a 11 11)
  | 12 => rws tU8 (.field .sprAxnCtl a 13 12)
  | 13 => rws tU32 (.field .sprAxnStillNs a 31 0)
  | 14 => ro tU8 (.field .sprAxnStat a 2 0)
  | 15 => ro tP48 (.field .sprAxnPos a 47 0)
  | 16 => ro tI48 (.field .sprAxnVel a 47 0)
  | 17 => wo tP48
  | 18 => wo tBool
  | _ => none

@[inherit_doc axisObj] def encObj (n : Nat) : Nat → Option Obj
  | 1 => rws tU8 (.field .sprEncnCfg n 7 0)
  | 2 => stopped (rws tBool (.field .sprEncnCfg n 8 8))
  | 3 => rws tBool (.field .sprEncnCfg n 9 9)
  | 4 => rws tU32 (.field .sprEncnCfg n 31 12)
  | 5 => ro tI48 (.field .sprEncnCount n 47 0)
  | 6 => ro tU16 (.field .sprEncnStat n 15 0)
  | _ => none

@[inherit_doc axisObj] def genObj (g : Nat) : Nat → Option Obj
  | 1 => enables (rws tBool (.field .sprTgnCfg g 0 0))
  | 2 => stopped (rws tU8 (.field .sprTgnCfg g 2 1))
  | 3 => rws tP48 (.field .sprTgnPitch g 31 0)
  | 4 => rws tP48 (.field .sprTgnPhase g 31 0)
  | 5 => rws tP48 (.field .sprTgnStagger g 47 0)
  | 6 => rws tU32 (.field .sprTgnMinInt g 19 0)
  | 7 => stopped (rws tU8 (.field .sprTgnCxp g 13 8))
  | 8 => stopped (rws tU8 (.field .sprTgnOut g 7 0))
  | 9 => stopped (rws tU8 (.field .sprTgnOut g 15 8))
  | 10 => within 8 4095 (rws tU16 (.field .sprTgnOut g 27 16))
  | 11 => rws tI48 (.sfield .sprTgnOfs g 15 0)
  | 12 => rws tI48 (.sfield .sprTgnOfs g 31 16)
  | 13 => rws tBool (.field .sprTgnCxp g 15 15)
  | 14 => rws tBool (.field .sprTgnCxp g 14 14)
  | 15 => ro tU48 (.field .sprTgnLine g 47 0)
  | 16 => ro tP48 (.field .sprTgnHwm g 47 0)
  | 17 => ro tU32 (.field .sprTgnDrop g 31 0)
  | _ => none

@[inherit_doc axisObj] def actObj (k : Nat) : Nat → Option Obj
  | 1 => stopped (rws tU8 (.field .sprActkCfg k 1 0))
  | 2 => enables (rws tBool (.field .sprActkCfg k 2 2))
  | 3 => ro tU32 (.field .sprActkMissed k 31 0)
  | _ => none

/-- 2300h and 2310h–2313h (R127). -/
def herdObj : Nat → Option Obj
  | 1 => stopped (rws tU8 (.field .hlkCtl 0 1 1))
  | 2 => ro tU16 (.field .hlkStat 0 28 19)
  | 3 => ro tU8 (.field .hlkStat 0 31 29)
  | 4 => ro tU8 (.field .hlkStat 0 2 0)
  | 5 => ro tU16 (.field .hlkHerdSize 0 10 0)
  | 6 => ro tU32 (.field .hlkPathDelay 0 31 0)
  | 7 => wo tBool
  | 8 => stopped (rws tU8 (.opt .hlkCtl 0 3 5 4))
  | 9 => ro tU16 (.field .hlkCommitStat 0 31 16)
  | 10 => ro tI48 (.sfield .hlkPhaseErr 0 15 0)
  | 11 => ro tU32 (.field .hlkLostBeats 0 31 0)
  | 12 => ro tU32 (.field .hlkAlertLast 0 31 0)
  | 13 => within 1 3600000 (stored (rw_ tU32 (.field .hlkArmLimit 0 31 0)))
  | _ => none

@[inherit_doc herdObj] def portObj (p : Nat) : Nat → Option Obj
  | 1 => stopped (enables (rws tBool (.field .hlkPortpCtl p 0 0)))
  | 2 => ro tU8 (.field .hlkPortpStat p 2 0)
  | 3 => ro tU8 (.field .hlkPortpStat p 10 10)
  | 4 => ro tU32 (.field .hlkPortpDelay p 15 0)
  | 5 => rws tI48 (.sfield .hlkPortpAsym p 15 0)
  | 6 => ro tU8 (.field .hlkPortpStat p 15 12)
  | 7 => ro tU16 (.field .hlkPortpPeer p 9 0)
  | 8 => ro tU48 (.field .hlkPortpErr p 47 0)
  | 9 => rws tBool (.field .hlkPortpCtl p 2 2)
  | _ => none

/-- 2500h–2507h, 2510h–251Fh, 2540h–256Fh, 2580h (R626). -/
def fioEncObj (n : Nat) : Nat → Option Obj
  | 1 => rws tBool (.field .fioEncnCfg n 0 0)
  | 2 => rws tBool (.field .fioEncnCfg n 5 5)
  | 3 => rws tU8 (.field .fioEncnCfg n 7 6)
  | 4 => rws tBool (.field .fioEncnCfg n 4 4)
  | 5 => ro tU48 (.field .fioEncnFlt n 47 0)
  | _ => none

@[inherit_doc fioEncObj] def fioFinObj (k : Nat) : Nat → Option Obj
  | 1 => rws tBool (.field .fioFinkCfg k 0 0)
  | 2 => rws tU8 (.field .fioFinkCfg k 17 16)
  | 3 => rws tU8 (.field .fioFinkCfg k 15 8)
  | 4 => rws tBool (.field .fioFinkCfg k 2 2)
  | 5 => rws tBool (.field .fioFinkCfg k 3 3)
  | 6 => rws tU8 (.field .fioFinkCfg k 7 4)
  | 7 => rws tBool (.field .fioFinkCfg k 1 1)
  | 8 => ro tBool (.field .fioFinkStat k 9 9)
  | 9 => ro tU16 (.field .fioFinkStat k 15 0)
  | _ => none

@[inherit_doc fioEncObj] def fioOutObj (x : Nat) : Nat → Option Obj
  | 1 => stopped (rws tBool (.field .fioOxCfg x 0 0))
  | 2 => stopped (rws tU8 (.field .fioOxCfg x 1 1))
  | 3 => within 1 15 (rws tU8 (.field .fioOxCfg x 11 8))
  | 4 => wo tBool
  | 5 => wo tBool
  | 6 => ro tU16 (.field .fioOxStat x 15 0)
  | 7 => ro tU48 (.field .fioOxCnt x 47 0)
  | _ => none

@[inherit_doc fioEncObj] def fioCtlObj : Nat → Option Obj
  | 1 => rw_ tBool (.field .fioCtl 0 0 0)
  | 2 => stopped (within 1 15 (rws tU8 (.field .fioPcxScale 0 3 0)))
  | _ => none

/-- 3000h–303Fh, 3100h–313Fh, 3200h–323Fh, 3400h (R174). -/
def headObj (h : Nat) : Nat → Option Obj
  | 1 => enables (rws tBool (.field .cxiHdhCfg h 0 0))
  | 2 => stopped (rws tU8 (.field .cxiHdhCfg h 21 16))
  | 3 => stopped (rws tU8 (.pow .cxiHdhCfg h 15 14))
  | 4 => stopped (within 0 6 (rws tU8 (.field .cxiHdhCfg h 13 11)))
  | 5 => stopped (rws tU8 (.field .cxiHdhCfg h 10 9))
  | 6 => stopped (rws tU16 (.field .cxiHdhWidth h 14 0))
  | 7 => stopped (rws tU8 (.field .cxiHdhCfg h 27 22))
  | 8 => stopped (rws tU32 (.field .cxiHdhStg h 16 0))
  | 9 => stopped (rws tU32 (.field .cxiHdhStg h 40 24))
  | 10 => rws tU8 (.field .cxiHdhCut h 6 0)
  | 11 => rws tU32 (.field .cxiHdhLat h 23 0)
  | 12 => rws tU32 (.field .cxiHdhLat h 47 24)
  | 13 => stopped (rws tBool (.field .cxiHdhCfg h 8 8))
  | 14 => ro tU8 (.field .cxiHdhStat h 2 0)
  | 15 => ro tU48 (.field .cxiHdhLines h 47 0)
  | 16 => ro tU32 (.field .cxiHdhLoss h 15 0)
  | 17 => ro tU32 (.field .cxiHdhLoss h 31 16)
  | 18 => ro tU32 (.field .cxiHdhLoss h 47 32)
  | 19 => ro tU16
  | _ => none

@[inherit_doc headObj] def linkObj (l : Nat) : Nat → Option Obj
  | 1 => stopped (enables (rws tBool (.field .cxiLklCfg l 0 0)))
  | 2 => stored (rw_ tBool (.field .cxiLklCfg l 1 1))
  | 3 => ro tU8 (.field .cxiLklStat l 2 0)
  | 4 => ro tU8 (.field .cxiLklStat l 11 8)
  | 5 => ro tU16 (.field .cxiLklPcx l 11 0)
  | 6 => stored (rw_ tU16 (.field .cxiLklPcxLim l 11 0))
  | 7 => stored (rw_ tU16 (.field .cxiLklPcxLim l 23 12))
  | 8 => stored (rw_ tU16 (.field .cxiLklPcxLim l 35 24))
  | 9 => ro tU48 (.field .cxiLklErr l 47 0)
  | 10 => wo tBool
  | _ => none

@[inherit_doc headObj] def cameraObj : Nat → Option Obj
  | 1 => wo tDom
  | 2 => ro tDom
  | 3 => stored (rw_ tU32 .calc)
  | _ => none

@[inherit_doc headObj] def cxiObj : Nat → Option Obj
  | 1 => stored (rw_ tU8 (.field .cxiCtl 0 7 0))
  | 2 => ro tU32 (.field .cxiMisroute 0 31 0)
  | 3 => ro tU32 (.field .cxiStgFree 0 16 0)
  | _ => none

/-- 4000h–4400h (R285). -/
def chmObj (h : Nat) : Nat → Option Obj
  | 1 => rws tU32 (.field .chmHdhCoef h 20 0)
  | 2 => rws tU32 (.field .chmHdhCoef h 44 24)
  | 3 => stopped (rws tU32 (.field .chmHdhOut h 23 0))
  | 4 => stopped (rws tU16 (.field .chmHdhOut h 38 24))
  | 5 => rws tU16 (.field .chmHdhDark h 15 0)
  | 6 => rws tU16 (.field .chmHdhDark h 29 16)
  | 7 => rws tU8 (.field .chmHdhCfg h 9 7)
  | 8 => rws tU8 (.field .chmHdhCfg h 12 10)
  | 9 => stopped (rws tU8 (.opt .chmHdhCfg h 19 18 13))
  | 10 => rws tU16 (.field .chmHdhCfg h 39 24)
  | 11 => ro tU16 (.field .chmHdhDarkNow h 15 0)
  | 12 => ro tU32 (.field .chmHdhSeamMiss h 31 0)
  | _ => none

@[inherit_doc chmObj] def calObj : Nat → Option Obj
  | 1 => within 0 63 (rw_ tU8 (.field .chmCalCtl 0 5 0))
  | 2 => within 0 2 (rw_ tU8 (.field .chmCalCtl 0 11 10))
  | 3 => within 4 12 (rw_ tU8 (.field .chmCalCtl 0 15 12))
  | 4 => wo tBool
  | 5 => ro tU8 (.field .chmCalStat 0 1 0)
  | 6 => ro tDom
  | _ => none

@[inherit_doc chmObj] def coefObj : Nat → Option Obj
  | 1 => wo tDom
  | 2 => ro tDom
  | 3 => rw_ tU32 .var
  | 4 => rw_ tU16 .var
  | _ => none

@[inherit_doc chmObj] def paramObj (i : Nat) : Nat → Option Obj
  | 1 => rws tU8 (.field .cexPsHdh0 i 28 28)
  | 2 => rws tU16 (.field .cexPsHdh0 i 11 0)
  | 3 => rws tU8 (.field .cexPsHdh0 i 15 12)
  | 4 => within 1 4095 (rws tU16 (.field .cexPsHdh0 i 27 16))
  | 5 => rws tU16 (.field .cexPsHdh0 i 40 29)
  | 6 => rws tU48 (.field .cexPsHdh3 i 47 0)
  | 7 => rws tU16 (.field .cexPsHdh1 i 11 0)
  | 8 => rws tU16 (.field .cexPsHdh1 i 23 12)
  | 9 => rws tU16 (.field .cexPsHdh1 i 35 24)
  | 10 => rws tU16 (.field .cexPsHdh1 i 47 36)
  | 11 => rws tU32 (.field .cexPsHdh2 i 31 0)
  | 12 => rws tU16 (.field .cexPsHdh2 i 47 32)
  | _ => none

@[inherit_doc chmObj] def liveObj (h : Nat) : Nat → Option Obj
  | 13 => ro tU8 (.field .cexHdhStat h 1 0)
  | 14 => ro tU48 (.field .cexHdhExtSeq h 47 0)
  | 15 => ro tU32 (.field .cexHdhCand h 31 0)
  | s => paramObj h s

@[inherit_doc chmObj] def mapObj : Nat → Option Obj
  | 1 => stopped (rws tTbl .var)
  | 2 => ro tU32
  | 3 => rws tU16 (.field .cexMerge 0 15 0)
  | _ => none

@[inherit_doc chmObj] def cexObj : Nat → Option Obj
  | 1 => ro tU16 (.field .cexLqProd 0 12 0)
  | 2 => ro tU48 (.field .cexWeak 0 47 0)
  | 3 => ro tU32 (.field .cexErrs 0 15 0)
  | 4 => ro tU32 (.field .cexErrs 0 31 16)
  | 5 => ro tU32 (.field .cexErrs 0 47 32)
  | 6 => ro tU32
  | 7 => ro tU32
  | _ => none

/-- 5000h–533Fh (R340). -/
def programObj : Nat → Option Obj
  | 1 => wo tDom
  | 2 => ro tDom
  | 3 => rw_ tU32 .var
  | 4 => rw_ tU16 .var
  | 5 => con tU32 (.fixed [0x00, 0x68, 0x0F, 0x00])
  | _ => none

@[inherit_doc programObj] def channelObj (c : Nat) : Nat → Option Obj
  | 1 => rw_ tU32 (.field .ibxChcCfg c 20 0)
  | 2 => rw_ tU8 (.field .ibxChcCfg c 28 24)
  | 3 => rw_ tU48 (.field .ibxChcArg c 47 0)
  | 4 => rw_ tBool (.field .ibxChcCfg c 29 29)
  | 5 => wo tBool
  | 6 => wo tBool
  | 7 => wo tBool
  | 8 => wo tBool
  | 9 => wo tBool
  | 10 => ro tU8 (.field .ibxChcStat c 2 0)
  | 11 => ro tDom
  | 12 => ro tU32 (.field .ibxChcCmds c 31 0)
  | _ => none

@[inherit_doc programObj] def processorObj (p : Nat) : Nat → Option Obj
  | 1 => rw_ tBool (.field .ibxPpCfg p 0 0)
  | _ => none

/-- 6000h–6300h (R233). -/
def lookObj : Nat → Option Obj
  | 1 => stopped (within 0 8192 (rws tU16 (.field .tfbLbCtl 0 15 0)))
  | 2 => ro tU32 (.field .tfbLbPool 0 25 0)
  | 3 => ro tU32 (.field .tfbLbUnused 0 25 0)
  | 4 => stopped (wo tBool)
  | 5 => ro tU8 (.field .tfbLbStat 0 15 8)
  | 6 => ro tP48 (.field .tfbLbAxaHzn 0 47 0)
  | 7 => ro tP48 (.field .tfbLbAxaHzn 1 47 0)
  | 8 => ro tP48 (.field .tfbLbAxaHzn 2 47 0)
  | 9 => ro tP48 (.field .tfbLbAxaHzn 3 47 0)
  | 10 => ro tU48 (.field .tfbLbVcnt 0 47 0)
  | _ => none

@[inherit_doc lookObj] def ringObj (h : Nat) : Nat → Option Obj
  | 1 => stopped (rws tU16 (.field .tfbLbhCfg h 15 0))
  | 2 => stopped (rws tBool (.field .tfbLbhCfg h 16 16))
  | 3 => ro tU32 (.field .tfbLbhNb h 25 0)
  | 4 => ro tP48 (.field .tfbLbhHznPos h 47 0)
  | 5 => ro tU48 (.field .tfbLbhHznSeq h 47 0)
  | 6 => ro tU48 (.field .tfbLbhNewSeq h 47 0)
  | 7 => ro tP48 (.field .tfbLbhNewEnd h 47 0)
  | 8 => ro tU32 (.field .tfbLbhHeld h 25 0)
  | _ => none

@[inherit_doc lookObj] def refObj : Nat → Option Obj
  | 1 => wo tDom
  | 2 => wo tU16
  | 3 => wo tU16
  | 4 => ro tDom
  | _ => none

@[inherit_doc lookObj] def jobObj : Nat → Option Obj
  | 1 => wo tDom
  | 2 => ro tU8
  | 3 => ro tP48
  | 4 => ro tU16
  | 5 => wo tBool
  | 6 => ro tP48
  | 7 => ro tP48
  | 8 => ro tU32
  | _ => none

@[inherit_doc lookObj] def queryObj : Nat → Option Obj
  | 1 => wo tDom
  | 2 => ro tDom
  | 3 => ro tU8
  | _ => none

/-- 6400h–6425h (R437). -/
def integrityObj : Nat → Option Obj
  | 1 => within 0 5 (stored (rw_ tU8 (.field .hbcCtl 0 11 8)))
  | 2 => within 0 1 (stored (rw_ tU8 (.field .hbcCtl 0 5 4)))
  | 3 => within 0 4 (stored (rw_ tU8 (.field .edcCtl 0 3 0)))
  | 4 => ro tU48 (.field .edcStResult 0 47 0)
  | 5 => stored (rw_ tU16 (.field .hbcCtl 0 47 32))
  | _ => none

@[inherit_doc integrityObj] def stackObj (s : Nat) : Nat → Option Obj
  | 1 => ro tU8 (.field .hbcSsStat s 2 0)
  | 2 => ro tU8 (.field .hbcSsStat s 6 3)
  | 3 => ro tU48 (.field .hbcSsSev s 47 0)
  | 4 => ro tU48 (.field .hbcSsRewr s 47 0)
  | 5 => ro tU48 (.field .hbcSsPar s 47 0)
  | 6 => ro tU8 (.field .hbcSsLanes s 7 0)
  | 7 => wo tBool
  | _ => none

@[inherit_doc integrityObj] def regionObj (r : Nat) : Nat → Option Obj
  | 1 => ro tU48 (.field .edcRrCnt r 47 0)
  | 2 => ro tU48 (.field .edcRrLast r 47 0)
  | 3 => ro tU16 (.field .edcRrPwr r 15 0)
  | 4 => ro tU16 (.field .edcRrScrub r 47 32)
  | _ => none

/-- 6500h–6580h (R473). -/
def grazeObj : Nat → Option Obj
  | 1 => ro tU8 (.field .tfbGrzCtl 0 1 1)
  | 2 => ro tU16 (.field .tfbGrzStat 0 15 4)
  | 3 => ro tBool (.field .tfbGrzStat 0 3 3)
  | 4 => ro tU48 (.field .tfbGrzPeriod 0 47 0)
  | 5 => ro tBool
  | _ => none

@[inherit_doc grazeObj] def classObj (c : Nat) : Nat → Option Obj
  | 1 => within 0 4095 (rws tU16 .var)
  | 2 => rws tBool (.field .tfbGrzcCfg c 0 0)
  | 3 => ro tU16 (.field .tfbGrzcUsed c 15 0)
  | 4 => ro tU16 (.field .tfbGrzcUsed c 31 16)
  | 5 => ro tU16 (.field .tfbGrzcUsed c 47 32)
  | _ => none

@[inherit_doc grazeObj] def moverObj : Nat → Option Obj
  | 1 => ro tU32 (.field .tmvDone 0 31 0)
  | 2 => ro tU16 (.field .tmvErr 0 15 0)
  | 3 => ro tU16 (.field .tmvErr 0 31 16)
  | 4 => ro tU16 (.field .tmvStat 0 25 16)
  | _ => none

/-- 7000h–727Fh (R520). -/
def hostObj : Nat → Option Obj
  | 1 => ro tU8 (.field .hifStat 0 2 0)
  | 2 => ro tU8 (.field .hifStat 0 10 8)
  | 3 => ro tBool (.field .hifFfStat 0 0 0)
  | 4 => ro tBool (.field .hifFfStat 1 0 0)
  | 5 => ro tU8 (.field .hifFfCtl 0 23 16)
  | 6 => ro tU8 (.field .hifFfCtl 1 23 16)
  | 7 => ro tU32 (.field .hifFfLost 0 31 0)
  | 8 => ro tU32 (.field .hifFfLost 1 31 0)
  | _ => none

@[inherit_doc hostObj] def subRingObj (r : Nat) : Nat → Option Obj
  | 1 => ro tU8 (.field .hifFfSqsStat r 18 17)
  | 2 => ro tU32 (.field .hifFfSqsStat r 16 0)
  | 3 => ro tU32 (.field .hifFfSqsCount r 31 0)
  | 4 => ro tU16 (.field .hifFfSqsCount r 47 32)
  | 5 => ro tU8 (.field .hifFfSqsCfg r 18 18)
  | _ => none

@[inherit_doc hostObj] def compRingObj (r : Nat) : Nat → Option Obj
  | 1 => ro tU8 (.field .hifFfCqcStat r 24 23)
  | 2 => ro tU32 (.field .hifFfCqcStat r 16 0)
  | 3 => ro tU16 (.field .hifFfCqcStat r 33 25)
  | 4 => ro tU32 (.field .hifFfCqcCount r 31 0)
  | 5 => ro tU16 (.field .hifFfCqcCount r 47 32)
  | _ => none

/-- 8000h–9010h (R605). -/
def mgmtObj : Nat → Option Obj
  | 1 => ro tU8 (.field .ghdState 0 2 0)
  | 2 => ro tU8 (.field .ghdState 0 15 8)
  | 3 => ro tU8 (.field .ghdState 0 23 16)
  | 4 => ro tU32 (.field .ghdBootCount 0 31 0)
  | 5 => ro tU8 (.field .ghdState 0 5 4)
  | _ => none

@[inherit_doc mgmtObj] def serviceObj : Nat → Option Obj
  | 1 => within 0 1 (rw_ tU8 .var)
  | 2 => rws tBool .var
  | 3 => wo tBool
  | 4 => wo tU8
  | _ => none

@[inherit_doc mgmtObj] def powerObj : Nat → Option Obj
  | 1 => within 0 2 (rw_ tU8 (.field .ghdState 0 5 4))
  | 2 => rws tBool .var
  | _ => none

@[inherit_doc mgmtObj] def railObj (r : Nat) : Nat → Option Obj
  | 1 => ro tU16 (.field .ghdRailr r 15 0)
  | 2 => ro tU16 (.field .ghdRailr r 31 16)
  | 3 => ro tU32
  | _ => none

@[inherit_doc mgmtObj] def sensorObj (s : Nat) : Nat → Option Obj
  | 1 => ro tI48 (.sfield .ghdTemps s 15 0)
  | 2 => ro tI48 (.sfield .ghdTemps s 31 16)
  | _ => none

@[inherit_doc mgmtObj] def throttleObj : Nat → Option Obj
  | 1 => ro tU8 (.field .ghdThrottle 0 2 0)
  | 2 => ro tU32
  | _ => none

@[inherit_doc mgmtObj] def logObj : Nat → Option Obj
  | 1 => ro tDom
  | 2 => rw_ tU32 .var
  | 3 => ro tU32 (.field .ghdLogSeq 0 31 0)
  | 4 => ro tU32
  | 5 => wo tDom
  | _ => none

@[inherit_doc mgmtObj] def updateObj : Nat → Option Obj
  | 1 => ro tU16
  | 2 => wo tDom
  | 3 => ro tU16
  | 4 => wo tBool
  | 5 => wo tBool
  | 6 => rws tBool .var
  | 7 => ro tU8
  | 8 => ro tBool
  | 9 => ro tU32
  | 10 => ro tU32
  | 11 => ro tU8
  | _ => none

@[inherit_doc mgmtObj] def keyObj : Nat → Option Obj
  | 1 => ro tTbl
  | 2 => wo tDom
  | 3 => within 0 3 (wo tU8)
  | 4 => ro tU8
  | _ => none

/-- The families of objects: first index, number of indices, highest subindex, and the object at an offset and subindex
(R546). -/
def objFamilies : List (Nat × Nat × Nat × (Nat → Nat → Option Obj)) :=
  [(0x1000, 1, 10, fun _ => identityObj), (0x1001, 1, 7, fun _ => statusObj), (0x1010, 1, 4, fun _ => storeObj),
   (0x1100, 2, 10, ethObj), (0x1120, 1, 5, fun _ => ptpObj), (0x1130, 1, 1, fun _ s => if s = 1 then stored (rw_ tDom .var) else none),
   (0x1800, 1, 4, fun _ => eventObj), (0x2010, 4, 18, axisObj), (0x2080, 8, 6, encObj), (0x2100, 64, 17, genObj),
   (0x2200, 16, 3, actObj), (0x2300, 1, 13, fun _ => herdObj), (0x2310, 4, 9, portObj),
   (0x2400, 1, 11, fun _ => commitObj), (0x2500, 8, 5, fioEncObj), (0x2510, 16, 9, fioFinObj), (0x2540, 48, 7, fioOutObj),
   (0x2580, 1, 2, fun _ => fioCtlObj)] ++
  [(0x3000, 64, 19, headObj), (0x3100, 64, 10, linkObj), (0x3200, 64, 3, fun _ => cameraObj), (0x3400, 1, 3, fun _ => cxiObj),
   (0x4000, 64, 12, chmObj), (0x4080, 1, 6, fun _ => calObj), (0x4100, 1, 4, fun _ => coefObj), (0x4200, 64, 15, liveObj),
   (0x4300, 1, 3, fun _ => mapObj), (0x4310, 1, 7, fun _ => cexObj), (0x4400, 512, 12, fun i => paramObj (64 + i)),
   (0x5000, 1, 5, fun _ => programObj), (0x5100, 512, 12, channelObj), (0x5300, 64, 1, processorObj)] ++
  [(0x6000, 1, 10, fun _ => lookObj), (0x6010, 64, 8, ringObj), (0x6100, 1, 4, fun _ => refObj), (0x6200, 16, 8, fun _ => jobObj),
   (0x6300, 1, 3, fun _ => queryObj), (0x6400, 1, 5, fun _ => integrityObj), (0x6410, 4, 7, stackObj), (0x6420, 6, 4, regionObj),
   (0x6500, 1, 5, fun _ => grazeObj), (0x6510, 32, 5, classObj), (0x6540, 1, 1, fun _ s => if s = 1 then rws tTbl .var else none),
   (0x6550, 1, 1, fun _ s => if s = 1 then rw_ tTbl .calc else none), (0x6580, 1, 4, fun _ => moverObj)] ++
  [(0x7000, 1, 8, fun _ => hostObj), (0x7100, 128, 5, subRingObj), (0x7200, 128, 5, compRingObj),
   (0x8000, 1, 5, fun _ => mgmtObj), (0x8010, 1, 4, fun _ => serviceObj), (0x8020, 1, 2, fun _ => powerObj),
   (0x8030, 11, 3, railObj), (0x8040, 13, 2, sensorObj), (0x8050, 1, 2, fun _ => throttleObj), (0x8100, 1, 5, fun _ => logObj),
   (0x9000, 1, 11, fun _ => updateObj), (0x9010, 1, 4, fun _ => keyObj)]

/-- The object of an index and subindex, if it exists (R546). -/
def objOf (index sub : Nat) : Option Obj :=
  match objFamilies.find? (fun f => decide (f.1 ≤ index) && decide (index < f.1 + f.2.1)) with
  | some f => if sub = 0 then con tU8 (.fixed [BitVec.ofNat 8 f.2.2.1]) else f.2.2.2 (index - f.1) sub
  | none => none

/-- The keys of the stored objects, 256 · index + subindex, rising (R548). -/
def storedKeys : List Nat :=
  objFamilies.flatMap (fun f => (List.range f.2.1).flatMap (fun i => ((List.range (f.2.2.1 + 1)).drop 1).filterMap (fun s =>
    match f.2.2.2 i s with
    | some o => if o.kept then some (256 * (f.1 + i) + s) else none
    | none => none)))

/-! ### Values -/

/-- An object's bytes as a number: signed for I48 and P48. -/
def objNum (o : Obj) (bs : List Byte) : Int :=
  if o.typ = tI48 || o.typ = tP48 then (BitVec.ofNat 48 (natOfBytes bs)).toInt else natOfBytes bs

/-- The range of a numeric object (R547): its narrower one, or its field's, within its type's. (Log entry 130 DEDUCED.) -/
def objRange (o : Obj) : Int × Int :=
  match o.range with
  | some r => r
  | none =>
    match o.back with
    | .field _ _ hi lo =>
      if o.typ = tBool then (0, 1)
      else if hi - lo = 47 then (if o.typ = tP48 || o.typ = tI48 then (-2 ^ 47, 2 ^ 47 - 1) else (0, 2 ^ 48 - 1))
      else (0, min (2 ^ (hi + 1 - lo) - 1) (2 ^ (8 * typeBytes o.typ) - 1))
    | .sfield _ _ hi lo => (-2 ^ (hi - lo), 2 ^ (hi - lo) - 1)
    | _ =>
      if o.typ = tBool then (0, 1)
      else if o.typ = tP48 || o.typ = tI48 then (-2 ^ 47, 2 ^ 47 - 1)
      else (0, 2 ^ (8 * typeBytes o.typ) - 1)

/-- The length of a value fits its object's type (R563: DLEN). -/
def lengthFits (o : Obj) (bs : List Byte) : Bool :=
  if fixedSize o.typ then bs.length = typeBytes o.typ
  else decide (bs.length ≤ typeBytes o.typ) && (o.typ ≠ tTbl || bs.length % 6 = 0)

/-- A numeric value lies in its object's range (R547). -/
def numFits (o : Obj) (bs : List Byte) : Bool :=
  let v := objNum o bs
  match o.back with
  | .opt _ _ _ hi lo => decide (v < 2 ^ (hi + 1 - lo)) || v = 0xFF
  | .pow _ _ _ _ => v = 1 || v = 2 || v = 4 || v = 8
  | _ => decide ((objRange o).1 ≤ v) && decide (v ≤ (objRange o).2)

end Sys2Proof.Machine
end

