-- ==== Sys2Proof/Machine/Dict.lean ====
section
/-! DEFINITION. Values of dictionary objects: what a read answers, and what a write does at once or shadows (R546–R552, R570,
R648). -/

namespace Sys2Proof.Machine

/-! ### Sessions that end (R561, R569) -/

/-- SESSIONS of the field network ports. -/
def Dev.refreshSessions (d : Dev) : Dev :=
  forUpTo 2 (fun p d => d.wrF .ethPpStat p 12 8 (d.dict.sessions.filter (fun s =>
    match s.path with | .eth q => q.val = p | _ => false)).length) d

/-- The sessions that a test picks close; DICT_SESSION for each. -/
def Dev.closeSessions (d : Dev) (test : Session → Bool) : Dev :=
  let gone := d.dict.sessions.filter test
  let d := { d with dict := { d.dict with sessions := d.dict.sessions.filter (fun s => !test s) } }
  gone.foldl (fun d _ => d.raise 804) d.refreshSessions

/-- A session of port p of the field network. -/
def Session.onPort (s : Session) (p : Nat) : Bool :=
  match s.path with
  | .eth q => q.val = p
  | _ => false

/-! ### The commit order (R573) -/

/-- The place of an object in the order of R573: 0 a disable, 1 a setting, 2 an enable. -/
def entryRank (key : Nat) (bs : List Byte) : Nat :=
  match objOf (key / 256) (key % 256) with
  | some o => if !o.en then 1 else if natOfBytes bs = 0 then 0 else 2
  | none => 1

/-- Entries of a pending set or of a stored configuration in the order of R573. -/
def commitOrder (t : Table (List Byte)) : List (Nat × List Byte) :=
  [0, 1, 2].flatMap (fun k => t.filter (fun e => entryRank e.1 e.2 = k))

/-! ### Values in force -/

/-- A register as a read through the dictionary finds it. -/
def Dev.seen (d : Dev) (r : Reg) (i : Nat) : Word := (d.loadReg r i).1.word

/-- The zero value of a type. -/
def zeroValue (t : Nat) : List Byte := if fixedSize t then List.replicate (typeBytes t) 0 else []

/-- The value of an object that no register backs while nothing was written to it (R549; R457, R458 for the budgets). -/
def defaultValue (index sub typ : Nat) : List Byte :=
  if 0x6510 ≤ index && index ≤ 0x652F && sub = 1 then bytesOfNat 2 (quotaReset (index - 0x6510))
  else if index = 0x6540 then bytesOfWords ((List.range 64).map slotReset)
  else if index = 0x1100 || index = 0x1101 then (if sub = 7 then List.replicate 16 0 else zeroValue typ)
  else zeroValue typ

/-- Bits of a list of numbers. -/
def maskOf (l : List Nat) : Nat := l.foldl (fun m i => m ||| 2 ^ i) 0

/-- State code of an image slot (9000h.1). -/
def SlotState.code : SlotState → Nat
  | .empty => 0 | .writing => 1 | .valid => 2 | .invalid => 3

/-- State code of a retro job (6200h.2). -/
def JobState.code : JobState → Nat
  | .free => 0 | .queued => 1 | .running => 2 | .done => 3

/-- The words of an 802.1AS offset object: 8 bytes of ETH_PTP_OFS. -/
def Dev.ptpBytes (d : Dev) : List Byte := bytesOfWord (d.rd .ethPtpOfsLo) ++ bytesOfNat 2 (d.rdF .ethPtpOfsHi 0 15 0)

/-- Objects of the identity and communication chapter that are computed (R577). -/
def Dev.identityValue (d : Dev) (index sub : Nat) : List Byte :=
  match index, sub with
  | 0x1000, _ => bytesOfNat 6 Config.serial.toNat
  | 0x1001, 3 => bytesOfNat 1 (maskOf d.stacksInUse)
  | 0x1001, 4 => bytesOfNat 1 (maskOf ((List.range 4).filter (fun g => d.rdB .cxiGrpgStat g 0 && !d.rdB .cxiGrpgStat g 1)))
  | 0x1001, 5 => bytesOfNat 6 (d.ghd.up / 1000000)
  | 0x1001, _ => bytesOfWord d.now
  | 0x1010, 3 => bytesOfNat 1 d.dict.store
  | 0x1010, _ => bytesOfNat 4 d.ghd.storedGen
  | 0x1120, 4 => d.ptpBytes
  | 0x1120, _ => bytesOfNat 8 d.dict.gm.toNat
  | 0x1800, 1 => bytesOfWords ((List.range 1024).map (fun i => wordOf (fld (srcCfgWord i (d.source i)) 11 0)))
  | 0x1800, 2 => bytesOfWords ((List.range 22).map d.pendWord)
  | _, _ => bytesOfWords ((List.range 10).map (fun q =>
      setBit (setFld (setFld 0 8 0 (d.rdF .evcQqProd q 8 0)) 24 16 (d.rdF .evcQqCons q 8 0)) 32 (d.rdB .evcStat 0 q)))

/-- 2400h (R572, R577). -/
def Dev.commitValue (d : Dev) (sub : Nat) : List Byte :=
  let c := d.commit
  match sub with
  | 1 => bytesOfNat 1 c.state
  | 2 => bytesOfNat 2 (256 * c.status + c.sub)
  | 3 => bytesOfNat 4 c.tag.toNat
  | 4 => bytesOfNat 2 c.epoch.toNat
  | 5 => bytesOfWord c.pos
  | 6 => bytesOfNat 1 c.waves
  | 7 => bytesOfNat 2 d.dict.pending.length
  | 8 => bytesOfWords ((commitOrder d.dict.pending).map (fun e => wordOf e.1))
  | 9 => bytesOfNat 1 d.hlk.frozen.isSome.toNat
  | _ => bytesOfNat 4 d.dict.refused

/-- Objects of references, retro jobs and queries (R233). (Log entry 75 DEDUCED.) -/
def Dev.lookValue (d : Dev) (index sub : Nat) : List Byte :=
  if index = 0x6100 then
    bytesOfWords ((List.range 4096).flatMap (fun r => (List.range 4).map (fun j => d.refWord r j)))
  else if index = 0x6300 then bytesOfNat 1 d.tfb.dictState
  else
    let x := d.job (index - 0x6200)
    match sub with
    | 2 => bytesOfNat 1 x.st.code
    | 3 => bytesOfWord x.progress
    | 4 => bytesOfNat 2 (256 * x.status + x.sub)
    | 6 => bytesOfWord (x.skipStart.getD 0)
    | 7 => bytesOfWord (x.skipEnd.getD 0)
    | _ => bytesOfNat 4 x.count

/-- Management, update and key objects (R605). -/
def Dev.mgmtValue (d : Dev) (index sub : Nat) : List Byte :=
  match index, sub with
  | 0x8050, _ => bytesOfNat 4 d.ghd.episodes
  | 0x8100, _ => bytesOfNat 4 d.ghd.discarded
  | 0x9000, 1 => bytesOfNat 1 (d.imgSlot 0).st.code ++ bytesOfNat 1 (d.imgSlot 1).st.code
  | 0x9000, 3 => bytesOfNat 2 d.ghd.verify
  | 0x9000, 7 => bytesOfNat 1 d.bootRec.active
  | 0x9000, 8 => bytesOfNat 1 d.bootRec.trial.toNat
  | 0x9000, 9 => bytesOfNat 4 (d.imgSlot 0).version
  | 0x9000, 10 => bytesOfNat 4 (d.imgSlot 1).version
  | 0x9000, 11 => bytesOfNat 1 d.ghd.rollback
  | 0x9010, 1 => (List.range 48).map Config.moadoviKey ++
      [1, 2, 3].flatMap (fun k => ((d.keySlot k).digest.getD (List.replicate 48 0)))
  | 0x9010, _ => bytesOfNat 1 (maskOf ((List.range 4).filter (fun k => (d.keySlot k).revoked)))
  | _, _ => bytesOfNat 4 (tget d.ghd.warnings 0 (index - 0x8030))

/-- The response to the last control request of a head (3200h.2): status, sub-code, the camera's code, then the data.
(Log entry 132 DEDUCED.) -/
def Dev.controlBytes (d : Dev) (h : Nat) : List Byte :=
  match (d.head h).resp with
  | some r => bytesOfNat 1 r.status ++ bytesOfNat 1 r.sub ++ bytesOfNat 1 r.ack ++ r.data
  | none => []

/-- The value of a computed object, but for those of R648. -/
def Dev.calcValue (d : Dev) (index sub : Nat) : List Byte :=
  if index < 0x2400 then d.identityValue index sub
  else if index = 0x2400 then d.commitValue sub
  else if 0x3000 ≤ index && index < 0x3040 then bytesOfNat 2 (d.head (index - 0x3000)).version
  else if 0x3200 ≤ index && index < 0x3240 then
    if sub = 2 then d.controlBytes (index - 0x3200) else bytesOfNat 4 (d.head (index - 0x3200)).timeoutMs
  else if index = 0x4300 then bytesOfNat 4 d.cex.mapLen
  else if index = 0x4310 then bytesOfNat 4 (if sub = 6 then d.cex.skips else d.cex.lostAtStandby)
  else if 0x5100 ≤ index && index < 0x5300 then
    bytesOfWords [d.rd .ibxChcCsw0 (index - 0x5100), d.rd .ibxChcCsw1 (index - 0x5100)]
  else if index = 0x6500 then bytesOfNat 1 d.graze.matches_.toNat
  else if index = 0x6550 then bytesOfWords ((List.range 23).map (fun r => d.rd .tfbArbPrior r))
  else if index < 0x6400 then d.lookValue index sub
  else d.mgmtValue index sub

/-- The value in force of an object, as BOP bytes (R6, R547). -/
def Dev.valueOf (d : Dev) (index sub : Nat) (o : Obj) : List Byte :=
  if o.acc = .wo then zeroValue o.typ
  else
    match o.back with
    | .field r i hi lo => bytesOfNat (typeBytes o.typ) (fld (d.seen r i) hi lo)
    | .sfield r i hi lo => bytesOfWord (wordOfInt (sfld (d.seen r i) hi lo))
    | .opt r i en hi lo => if bit (d.seen r i) en then bytesOfNat 1 (fld (d.seen r i) hi lo) else [0xFF]
    | .pow r i hi lo => bytesOfNat 1 (2 ^ fld (d.seen r i) hi lo)
    | .var => (d.varBytes index sub).getD (defaultValue index sub o.typ)
    | .fixed bs => bs
    | .calc => d.calcValue index sub

/-! ### Values held in SRAM (R648) -/

/-- Address and words of a value that SRAM holds. -/
def Dev.sramValue (d : Dev) (index sub : Nat) : Option (Nat × Nat) :=
  let cut (base size : Nat) : Nat × Nat :=
    let off := min (d.var index 3) size
    (base + off, min (d.var index 4) (size - off))
  match index, sub with
  | 0x4080, 6 => some (calWord 0, 16385)
  | 0x4100, 2 => some (cut 0x800000 1398784)
  | 0x5000, 2 => some (cut 0x6AA800 1009664)
  | 0x6300, 2 => some (resultBase, d.tfb.dictLen)
  | _, _ => none

/-- The power domain of an SRAM address is on. -/
def Dev.sramOn (d : Dev) (a : Nat) : Bool :=
  match sramRegion a with
  | some r => d.domOn (regionDomain r (a - regionBase r))
  | none => false

/-- Log records of the ring from SEQ on, `n` of them: their words, and the first failing status. -/
def Dev.ringWords (d : Dev) (seq : Nat) : Nat → Nat × List Word × Dev
  | 0 => (0, [], d)
  | n + 1 =>
    let x := d.sramReadAll (logAddr seq) 5
    let y := Dev.ringWords x.2.2 (seq + 1) n
    (if x.2.1 ≠ 0 then x.2.1 else y.1, x.1 ++ y.2.1, y.2.2)

/-- 8100h.1: the records from the SEQ of 8100h.2 on, of the flash log and then of the ring, 8,388,608 bytes at most. -/
def Dev.logValue (d : Dev) : Nat × List Byte × Dev :=
  let s := d.var 0x8100 2
  let old := (d.ghd.flashLog.filter (fun r => decide (s ≤ r.seq))).flatMap LogRecord.toWords
  let from_ := max (max s d.ghd.flushed) (d.ghd.logNext - 1024)
  let x := d.ringWords from_ (d.ghd.logNext - from_)
  (x.1, if x.1 = 0 then (bytesOfWords (old ++ x.2.1)).take 8388608 else [], x.2.2)

/-- A read of an object: its outcome as status + 256 × sub-code, its bytes, and the block after the reads of R648.
(Log entry 127 DEDUCED.) -/
def Dev.readValue (d : Dev) (index sub : Nat) (o : Obj) : Nat × List Byte × Dev :=
  if index = 0x8100 && sub = 1 then d.logValue
  else if index = 0x6100 then
    let r := d.checkRefs (List.range 32)
    (r.1, if r.1 = 0 then r.2.valueOf index sub o else [], r.2)
  else
    match d.sramValue index sub with
    | some (a, n) =>
      if n = 0 then (0, [], d)
      else if !d.sramOn a || !d.sramOn (a + n - 1) then (0x38, [], d)
      else
        let x := d.sramReadAll a n
        (x.2.1, if x.2.1 = 0 then bytesOfWords x.1 else [], x.2.2)
    | none => (0, d.valueOf index sub o, d)

/-! ### Writes that take effect at once -/

/-- Words of a value of whole words. -/
def wordsOf (bs : List Byte) : List Word := wordsOfBytes (bs.length / 6) bs

/-- The domains of which one must be on for a write that acts on a block (R18). (Log entry 127 DEDUCED.) -/
def objDomains (index : Nat) : List Nat :=
  if 0x2310 ≤ index && index < 0x2314 || index = 0x2300 then [9]
  else if 0x2500 ≤ index && index < 0x2581 then [23]
  else if 0x3100 ≤ index && index < 0x3140 then [5 + (index - 0x3100) / 16]
  else if 0x3200 ≤ index && index < 0x3401 then [5, 6, 7, 8]
  else if 0x4080 ≤ index && index < 0x4101 then [18, 19]
  else if index = 0x5000 then [17]
  else if 0x5100 ≤ index && index < 0x5300 then [13 + (index - 0x5100) / 128]
  else if 0x5300 ≤ index && index < 0x5340 then [13 + (index - 0x5300) / 16]
  else if 0x6000 ≤ index && index < 0x6400 || index = 0x6550 then [22]
  else []

/-- PROGRAM_WRITE (5000h.1, R340): words from an offset of the program area, or refused whole past its end. -/
def programWriteOp (off : Nat) (ws : List Word) (d : Dev) : Dev :=
  d.whenReady fun d =>
    if !d.domOn 17 then d.answer 0x38 0
    else if 1009664 < off + ws.length then d.answer 0x21 0
    else (d.sramWrites (0x6AA800 + off) ws).answer 0 0

/-- The values in force of the stored objects (R550). -/
def Dev.storedValues (d : Dev) : Table (List Byte) :=
  storedKeys.filterMap (fun k =>
    match objOf (k / 256) (k % 256) with
    | some o => some (k, d.valueOf (k / 256) (k % 256) o)
    | none => none)

/-- A store or erase is in progress (R550). -/
def Dev.storing (d : Dev) : Bool := d.dict.store = 1

/-- STORE_CONFIGURATION (1010h.1, R550). -/
def storeConfigurationOp (d : Dev) : Dev :=
  d.whenReady fun d =>
    if d.storing then d.answer 0x38 0x35
    else ({ d with dict := { d.dict with store := 1 },
                   ghd := { d.ghd with flashOp := some (.store d.storedValues) } }).answer 0 0

/-- ERASE_CONFIGURATION (1010h.2, R550). -/
def eraseConfigurationOp (d : Dev) : Dev :=
  d.whenReady fun d =>
    if d.storing then d.answer 0x38 0x35
    else ({ d with dict := { d.dict with store := 1 }, ghd := { d.ghd with flashOp := some .erase } }).answer 0 0

/-- A control request as 3200h.1 carries it: operation (1 a write), 4 bytes of address, 4 of length, then data.
(Log entry 132 DEDUCED.) -/
def controlReqOf (bs : List Byte) : Option ControlReq :=
  let op := natOfBytes (bs.take 1)
  let len := natOfBytes ((bs.drop 5).take 4)
  let data := bs.drop 9
  if bs.length < 9 || 1 < op || (op = 1 && data.length ≠ len) || (op = 0 && data ≠ []) then none
  else some { write := op = 1, addr := natOfBytes ((bs.drop 1).take 4), len := len, data := data }

/-- The IPv6 link-local address formed from a port's MAC address: FE80::/64 with the modified EUI-64 (R564).
(Log entry 215 PRESUMED.) -/
def linkLocal (p : Nat) : HostAddr :=
  let m := (Config.macAddress p).toNat
  let eui := (m / 2 ^ 24 ^^^ 0x20000) * 2 ^ 40 + 0xFFFE * 2 ^ 24 + m % 2 ^ 24
  { v6 := true, addr := 0xFE80 * 2 ^ 112 + eui }

/-- Bytes as a number, the first byte the most significant. -/
def natOfBytesBE (bs : List Byte) : Nat := bs.foldl (fun m b => 256 * m + b.toNat) 0

/-- The static IPv4 address of a port, and its further IPv6 address (1100h.3, .4, .7). (Log entry 215 PRESUMED.) -/
def Dev.setAddrs (d : Dev) (p : Nat) : List HostAddr :=
  let v4 := d.var (0x1100 + p) 4
  let v6 := natOfBytesBE ((d.varBytes (0x1100 + p) 7).getD [])
  (if d.var (0x1100 + p) 3 = 1 && v4 ≠ 0 then [{ v6 := false, addr := v4 }] else []) ++
    (if v6 ≠ 0 then [{ v6 := true, addr := v6 }] else [])

/-- An address of a port (R564). (Log entry 215 PRESUMED.) -/
def Dev.portHas (d : Dev) (p : Nat) (a : HostAddr) : Bool := (d.setAddrs p).contains a || a = linkLocal p

/-- ADDR of ETH_Pp_STAT (R568): a static IPv4 address, or a further IPv6 address. (Log entry 144 PRESUMED.) -/
def Dev.refreshAddr (d : Dev) (p : Nat) : Dev := d.wrB .ethPpStat p 2 (d.setAddrs p ≠ [])

/-- STATE of ETH_PTP_STAT (R568, R569). (Log entry 144 PRESUMED.) -/
def Dev.setPtpState (d : Dev) (v : Nat) : Dev :=
  if d.rdF .ethPtpStat 0 1 0 = v then d else (d.wrF .ethPtpStat 0 1 0 v).raise 772

/-- An entry of the write list stands by R565. -/
def listEntryOk (e : List Byte) : Bool :=
  let f := e.getD 0 0
  let n := (e.getD 1 0).toNat
  e.length = 18 && ((f = 4 && decide (n ≤ 32) && (e.drop 6).all (fun b => b = 0)) || (f = 6 && decide (n ≤ 128)))

/-- A list cut into entries of n bytes, m of them. -/
def chunks (n : Nat) (bs : List Byte) : Nat → List (List Byte)
  | 0 => []
  | m + 1 => bs.take n :: chunks n (bs.drop n) m

/-- The write list 1130h.1 (R565). -/
def Dev.writeList (d : Dev) : List (List Byte) :=
  let bs := (d.varBytes 0x1130 1).getD []
  chunks 18 bs (bs.length / 18)

/-- A value for the write list stands by R565. -/
def writeListOk (bs : List Byte) : Bool :=
  bs.length % 18 = 0 && decide (bs.length ≤ 288) && (chunks 18 bs (bs.length / 18)).all listEntryOk

/-- A path of the field network. -/
def isEth : BopPath → Bool
  | .eth _ => true
  | _ => false

/-- An error counter of ETH_Pp_ERR advances (R568, R569). (Log entry 143 DEDUCED.) -/
def Dev.ethError (d : Dev) (p hi lo : Nat) : Dev := ((d.satF .ethPpErr p hi lo 1).wrB .ethPpStat p 3 true).raise (770 + p)

/-- A record that R565 refuses: over the field network it is counted and raises ETH_DENIED. -/
def Dev.deny (d : Dev) (x : BopPath) : Dev :=
  let d := match x with
    | .eth p => (d.ethError p.val 47 32).raise 773
    | _ => d
  d.answer 0x10 0x35

/-- A value that the dictionary holds takes effect, with what follows from it. -/
def Dev.setValue (d : Dev) (index sub : Nat) (bs : List Byte) : Dev :=
  let d := d.setVarBytes index sub bs
  if index = 0x1100 || index = 0x1101 then
    (d.refreshAddr (index - 0x1100)).closeSessions (fun s => s.onPort (index - 0x1100))
  else if index = 0x1120 then d.setPtpState (if natOfBytes bs = 1 && d.domOn 12 then 1 else 0)
  else d

/-- A write of an RW object that no register field backs. (Log entry 129 DEDUCED.) -/
def Dev.writeVar (d : Dev) (x : BopPath) (index sub : Nat) (bs : List Byte) : Dev :=
  let ws := wordsOf bs
  if index = 0x1130 then
    if isEth x then d.deny x
    else if writeListOk bs then (d.setValue index sub bs).answer 0 0 else d.answer 0x21 0x31
  else if index = 0x1800 then
    if ws.length ≠ 1024 || ws.any (fun w => decide (5 ≤ fld w 7 5)) then d.answer 0x21 0x31
    else (forUpTo 1024 (fun i d => srcCfgWrite i (ws.getD i 0) d) d).answer 0 0
  else if 0x3200 ≤ index && index < 0x3240 then
    (d.setHead (index - 0x3200) { d.head (index - 0x3200) with timeoutMs := natOfBytes bs }).answer 0 0
  else if index = 0x6550 then
    if ws.length ≠ 23 then d.answer 0x21 0x31
    else (forUpTo 23 (fun r d => arbPrioWriteOp r (ws.getD r 0) d) d).answer 0 0
  else if (index = 0x1100 || index = 0x1101) && sub = 7 && bs.length ≠ 16 then d.answer 0x21 0x31
  else if index = 0x8010 then serviceRequestOp (natOfBytes bs) d
  else (d.setValue index sub bs).answer 0 0

/-- A write of an RW object that a register field backs (R563): a block that refuses it keeps the value and sets its CFG_ERR. -/
def Dev.writeField (d : Dev) (r : Reg) (i hi lo v : Nat) : Dev :=
  if !d.regOn r i then d.answer 0x38 0
  else
    let d := d.storeReg .goatherd r i (setFld (d.rd r i &&& wordOf (regDesc r).rw) hi lo v)
    if d.rdF r i hi lo = v then d.answer 0 0 else d.answer 0x21 0x31

/-- Return of fenced resources through 8010h.4 outside RETURN_FENCED: which of them pass, and their lanes, are free.
(Log entry 124 DESIGN CHOICE.) -/
def Dev.returnFreely (d : Dev) (v : Nat) : Dev :=
  let train (n : Nat) : StackTrain := { fail := none, read := none, repaired := BitVec.ofNat 8 n, spares := BitVec.ofNat 8 (n / 256) }
  let p := d.free
  let a := p.2.free
  let b := a.2.free
  let c := b.2.free
  let e := c.2.free
  returnFencedOp v (BitVec.ofNat 8 p.1) (train a.1) (train b.1) (train c.1) (train e.1) e.2

/-- A write of 1 to a BOOL WO object of an axis, the herd, a link, an output or a channel. (Log entry 128 DEDUCED.) -/
def Dev.pulseObj (d : Dev) (index sub : Nat) : Dev :=
  if 0x2010 ≤ index && index < 0x2014 then restartOp (index - 0x2010) d
  else if 0x2540 ≤ index && index < 0x2570 then
    if sub = 4 then unlockOp (index - 0x2540) d else polarityCheckOp (index - 0x2540) d
  else if 0x3100 ≤ index && index < 0x3140 then pcxRetryOp (index - 0x3100) d
  else if index = 0x4080 then calStartOp d
  else if 0x5100 ≤ index && index < 0x5300 then
    let c := index - 0x5100
    match sub with
    | 5 => channelStartOp c d
    | 6 => channelHaltOp c d
    | 7 => channelSuspendOp c d
    | 8 => channelResumeOp c d
    | _ => channelClearOp c d
  else if index = 0x6000 then relayoutOp d
  else if 0x6200 ≤ index && index < 0x6210 then retroAbortOp (index - 0x6200) d
  else if 0x6410 ≤ index && index < 0x6414 then fenceWriteOp (index - 0x6410) d
  else d

/-- A write of a WO object of words: coefficients, programs, references, retro jobs, queries. (Log entry 129 DEDUCED.) -/
def Dev.writeWords (d : Dev) (index sub : Nat) (ws : List Word) : Dev :=
  let off := (ws.getD 0 0).toNat
  if index = 0x4100 then if ws = [] then d.answer 0x21 0x31 else coefWriteOp off ws.tail d
  else if index = 0x5000 then if ws = [] then d.answer 0x21 0x31 else programWriteOp off ws.tail d
  else if index = 0x6100 then if ws.length ≠ 5 then d.answer 0x21 0x31 else refDefineOp off ws.tail d
  else if ws.length ≠ 6 then d.answer 0x21 0x31
  else if index = 0x6300 then queryDescriptorOp ws d
  else
    let r := d.retroSubmit (index - 0x6200) ws
    if sub = 1 then r.2.2.answer r.1 r.2.1 else d

/-- The WO objects whose value is a list of words. (Log entry 129 DEDUCED.) -/
def wordObj (index sub : Nat) : Bool :=
  sub = 1 && (index = 0x4100 || index = 0x5000 || index = 0x6100 || (0x6200 ≤ index && index < 0x6210) || index = 0x6300)

/-- What a write of a WO object does. (Log entries 121 DEDUCED, 128 DEDUCED.) -/
def Dev.act (d : Dev) (x : BopPath) (index sub : Nat) (bs : List Byte) : Dev :=
  let v := natOfBytes bs
  if wordObj index sub then
    if bs.length % 6 ≠ 0 then d.answer 0x21 0x31 else d.writeWords index sub (wordsOf bs)
  else
    match index, sub with
    | 0x1010, 1 => if v = 1 then storeConfigurationOp d else d.answer 0 0
    | 0x1010, _ => if v = 1 then eraseConfigurationOp d else d.answer 0 0
    | 0x6100, 2 => refSealOp v d
    | 0x6100, _ => refDeleteOp v d
    | 0x8010, 3 => if v = 1 then (let f := d.free; deviceResetOp { auth := BitVec.ofNat 2 f.1, test := BitVec.ofNat 2 (f.1 / 4) } f.2) else d.answer 0 0
    | 0x8010, _ => d.returnFreely v
    | 0x8100, _ => logWriteOp bs d
    | 0x9000, 2 => imageWriteOp true 0 bs d
    | 0x9000, 4 => if v = 1 then activateOp d else d.answer 0 0
    | 0x9000, _ => if v = 1 then confirmOp d else d.answer 0 0
    | 0x9010, 2 => keyProgramOp x bs d
    | 0x9010, _ => keyRevokeOp x v d
    | _, _ =>
      if 0x2010 ≤ index && index < 0x2014 && sub = 17 then
        (presetOp (index - 0x2010) (d.wr .sprAxnPreset (index - 0x2010) (wordOf v))).answer 0 0
      else if 0x3200 ≤ index && index < 0x3240 then
        match controlReqOf bs with
        | none => d.answer 0x21 0x31
        | some r =>
          let y := d.controlRequest (index - 0x3200) r
          match y.1 with
          | some e => y.2.answer e.1 e.2
          | none => y.2.answer 0 0
      else if v ≠ 1 then d.answer 0 0
      else if index = 0x2300 then (let r := d.enumerate; r.2.answer r.1 0)
      else (d.pulseObj index sub).answer 0 0

/-! ### Writes (R570) -/

/-- DICT_PENDING and DICT_FROZEN follow the set (R569). -/
def Dev.refreshSet (d : Dev) : Dev :=
  (d.setLevel 801 (d.dict.pending ≠ [])).setLevel 802 d.hlk.frozen.isSome

/-- A shadow of an RWS object (R570). -/
def Dev.shadow (d : Dev) (index sub : Nat) (bs : List Byte) : Dev :=
  let key := 256 * index + sub
  if d.hlk.frozen.isSome then d.answer 0x38 0x32
  else if (tfind d.dict.pending key).isNone && 8192 ≤ d.dict.pending.length then d.answer 0x21 0x32
  else
    let d := { d with dict := { d.dict with pending := tset d.dict.pending key bs } }
    d.refreshSet.answer 0 0

/-- A write of an object whose existence and TYPE are settled (R563, R570): its status in `reply`.
(Log entries 124 DESIGN CHOICE, 127 DEDUCED.) -/
def Dev.writeObject (d : Dev) (x : BopPath) (index sub : Nat) (o : Obj) (bs : List Byte) : Dev :=
  if o.acc = .ro || o.acc = .const then d.answer 0x10 0x33
  else if !lengthFits o bs then d.answer 0x10 0x34
  else if fixedSize o.typ && !numFits o bs then d.answer 0x21 0x31
  else if o.stop && d.anyRunning then d.answer 0x22 0
  else if o.acc = .rws then
    if index = 0x6540 && bs.length ≠ 384 then d.answer 0x21 0x31 else d.shadow index sub bs
  else if objDomains index ≠ [] && !d.anyOn (objDomains index) then d.answer 0x38 0
  else if 0x5100 ≤ index && index < 0x5300 && sub ≤ 4 && d.chState (index - 0x5100) ≠ 0 && d.chState (index - 0x5100) ≠ 4 then
    d.answer 0x38 0
  else if o.acc = .wo then d.act x index sub bs
  else if index = 0x8020 then powerRequestOp (natOfBytes bs) d
  else
    match o.back with
    | .field r i hi lo => d.writeField r i hi lo (natOfBytes bs)
    | _ => d.writeVar x index sub bs

end Sys2Proof.Machine
end

