-- ==== Sys2Proof/Machine/Wave.lean ====
section
/-! DEFINITION. Applying dictionary values: one wave of a commit, and the stored configuration in BOOT (R64, R72, R175, R176,
R183, R242–R249, R254, R264, R265, R457, R550, R573–R575). -/

namespace Sys2Proof.Machine

/-! ### Entries -/

/-- The object number within its family: the index less the family's first. -/
def inFamily (index lo n : Nat) : Option Nat := if lo ≤ index && index < lo + n then some (index - lo) else none

/-- The registers whose committed change reaches lines by their fire time (R248, R284). -/
def timedReg (r : Reg) (i : Nat) : Bool :=
  match r with
  | .chmHdhCoef | .chmHdhOut | .chmHdhDark | .chmHdhCfg => true
  | .cexPsHdh0 | .cexPsHdh1 | .cexPsHdh2 | .cexPsHdh3 => decide (i < 64)
  | _ => false

/-- The word that an entry makes of the register behind its object; none for an object without one. -/
def Dev.entryWord (d : Dev) (o : Obj) (bs : List Byte) : Option (Reg × Nat × Word) :=
  let v := natOfBytes bs
  match o.back with
  | .field r i hi lo => some (r, i, setFld (d.rd r i) hi lo v)
  | .sfield r i hi lo => some (r, i, setFld (d.rd r i) hi lo v)
  | .opt r i en hi lo =>
    some (r, i, if v = 0xFF then setBit (d.rd r i) en false else setBit (setFld (d.rd r i) hi lo v) en true)
  | .pow r i hi lo => some (r, i, setFld (d.rd r i) hi lo (Nat.log2 v))
  | _ => none

/-- An entry stored at instant t, with nothing that follows from it. -/
def Dev.storeEntry (t : Word) (d : Dev) (e : Nat × List Byte) : Dev :=
  match objOf (e.1 / 256) (e.1 % 256) with
  | some o =>
    match d.entryWord o e.2 with
    | some (r, i, w) => if timedReg r i then d.wrAt r i t w else d.wr r i w
    | none => d.setVarBytes (e.1 / 256) (e.1 % 256) e.2
  | none => d

/-- The object of a key in force differs from an entry. -/
def Dev.changes (d : Dev) (e : Nat × List Byte) : Bool :=
  match objOf (e.1 / 256) (e.1 % 256) with
  | some o => d.valueOf (e.1 / 256) (e.1 % 256) o ≠ e.2
  | none => false

/-! ### The lateral map (R264) -/

/-- OWN_LO rises strictly from each entry to the next. -/
def mapRises : List Word → Bool
  | w :: v :: ws => decide (fld w 23 0 < fld v 23 0) && mapRises (v :: ws)
  | _ => true

/-- The generators of two heads lie on equal grids of one axis. -/
def Dev.sameGrid (d : Dev) (h k : Nat) : Bool :=
  let g := d.headGen h
  let e := d.headGen k
  d.genAxis g = d.genAxis e && d.rd .sprTgnPitch g = d.rd .sprTgnPitch e && d.rd .sprTgnPhase g = d.rd .sprTgnPhase e

/-- The heads of this device that a map gives one nonzero GROUP lie on equal grids, whether or not they are neighbours in it
(R264). -/
def Dev.mapJoins (d : Dev) (ws : List Word) : Bool :=
  let own := ((ws.filter (fun w => mapNamed w && mapDev w = d.devNum && fld w 31 24 ≠ 0)).map
    (fun w => (fld w 31 24, fld w 37 32))).eraseDups
  own.all (fun a => own.all (fun b => a.1 ≠ b.1 || d.sameGrid a.2 b.2))

/-- The map may stand on this device (R264). -/
def Dev.mapValid (d : Dev) (ws : List Word) : Bool := mapRises ws && d.mapJoins ws

/-! ### Graze values (R457) -/

/-- Quota of class c as the dictionary has it. -/
def Dev.dictQuota (d : Dev) (c : Nat) : Nat :=
  natOfBytes ((d.varBytes (0x6510 + c) 1).getD (defaultValue (0x6510 + c) 1 tU16))

/-- The slot table as the dictionary has it. -/
def Dev.dictSlots (d : Dev) : List Word := wordsOf ((d.varBytes 0x6540 1).getD (defaultValue 0x6540 1 tTbl))

/-- The dictionary's quotas. -/
def Dev.dictQuotas (d : Dev) : List Nat := (List.range 32).map d.dictQuota

/-- The dictionary's quotas exceed the capacity (R454). -/
def Dev.overQuota (d : Dev) : Bool := decide (d.grzCap < d.dictQuotas.foldl (· + ·) 0)

/-- An object of 6510h–652Fh or 6540h. -/
def grazeKey (k : Nat) : Bool := decide (0x6510 ≤ k / 256) && decide (k / 256 ≤ 0x6540)

/-! ### Refusals (R574) -/

/-- Generator g, enabled and with an object in the wave, fails R51 with the wave's values but those of the generators listed.
(Log entry 202 DEDUCED.) -/
def Dev.failsWith (d : Dev) (es : List (Nat × List Byte)) (t : Word) (out : List Nat) (g : Nat) : Bool :=
  let kept := es.filter (fun e => !out.any (fun h => e.1 / 256 = 0x2100 + h))
  d.rdB .sprTgnCfg g 0 && kept.any (fun e => e.1 / 256 = 0x2100 + g) && !(kept.foldl (Dev.storeEntry t) d).genValid g

/-- The generators whose objects R72 refuses, given those already found, so that the values in force after the wave meet R51
(R574). A generator is refused first where it fails by itself, once the objects of the others that fail are refused; where each
fails only by another, all of them are. (Log entry 202 DEDUCED.) -/
def Dev.refusedGens (d : Dev) (es : List (Nat × List Byte)) (t : Word) : Nat → List Nat → List Nat
  | 0, bad => bad
  | n + 1, bad =>
    let f := (List.range 64).filter (d.failsWith es t bad)
    let own := f.filter (fun g => d.failsWith es t (bad ++ f.filter (· ≠ g)) g)
    if f = [] then bad else d.refusedGens es t n (bad ++ if own = [] then f else own)

/-- The generators that are enabled once the wave's enables have been tried on a block (R647). -/
def Dev.enabledAfter (d : Dev) (ens : List (Nat × List Byte)) : List Nat :=
  let d := ens.foldl (fun d e => match inFamily (e.1 / 256) 0x2100 64 with
    | some g => Dev.setGenEn g true d
    | none => d) d
  (List.range 64).filter (fun g => d.rdB .sprTgnCfg g 0)

/-- A block refuses an entry: `d` stands after the wave's disables, `trial` holds every setting of the wave that no generator
refuses; `gens` are the generators that R72 refuses and `ens` those enabled after the wave; `graze` where the budgets fail
R454. (Log entries 31 DEDUCED, 131 DEDUCED.) -/
def Dev.waveRefuses (d trial : Dev) (gens ens : List Nat) (graze : Bool) (e : Nat × List Byte) : Bool :=
  let index := e.1 / 256
  let sub := e.1 % 256
  match inFamily index 0x2010 4, inFamily index 0x2100 64, inFamily index 0x3000 64, inFamily index 0x4000 64,
    inFamily index 0x4200 64, inFamily index 0x2540 48 with
  | some a, _, _, _, _, _ => decide (sub ≤ 3) && d.axisState a ≠ .idle && d.changes e
  | _, some g, _, _, _, _ => gens.contains g || (sub = 2 && ens.contains g && d.changes e)
  | _, _, some h, _, _, _ =>
    d.headState h ≠ .off && d.changes e &&
      ((2 ≤ sub && sub ≤ 9) || sub = 13 ||
       (sub = 10 && !(decide (1 ≤ natOfBytes e.2) && decide (natOfBytes e.2 ≤ (d.camWidth h + 255) / 256))))
  | _, _, _, some h, _, _ =>
    if sub = 1 || sub = 2 then !trial.coefFits h (trial.rd .chmHdhCoef h) (trial.rd .chmHdhOut h)
    else if sub = 3 || sub = 4 then
      !outValid (trial.rd .chmHdhOut h) || !trial.coefFits h (trial.rd .chmHdhCoef h) (trial.rd .chmHdhOut h)
    else sub = 9 && e.2 ≠ [0xFF] && !trial.seamValid h
  | _, _, _, _, some h, _ =>
    let p : Params := { w0 := trial.rd .cexPsHdh0 h, w1 := trial.rd .cexPsHdh1 h, w2 := trial.rd .cexPsHdh2 h, w3 := trial.rd .cexPsHdh3 h }
    !paramsValid p (fun r => trial.refState r = 2)
  | _, _, _, _, _, some x => decide (sub ≤ 2) && d.outHeld x && d.changes e
  | _, _, _, _, _, _ =>
    if grazeKey e.1 then graze
    else if e.1 = 0x430001 then !trial.mapValid (wordsOf e.2)
    else false

/-- What the refusing block sets and raises, once for each group (R72, R174, R175, R243, R244, R254, R264, R457). -/
def Dev.refusalOf (d : Dev) (index : Nat) : Dev :=
  match inFamily index 0x2010 4, inFamily index 0x2100 64, inFamily index 0x3000 64, inFamily index 0x4000 64,
    inFamily index 0x4200 64, inFamily index 0x2540 48 with
  | some a, _, _, _, _, _ => d.axisCfgErr a
  | _, some g, _, _, _, _ => d.genCfgErr g
  | _, _, some h, _, _, _ => d.headCfgErr h
  | _, _, _, some h, _, _ => d.chmCfgErr h
  | _, _, _, _, some _, _ => (d.wrB .cexStat 0 2 true).raise 650
  | _, _, _, _, _, some x => d.wrB .fioOxStat x 13 true
  | _, _, _, _, _, _ => if index = 0x4300 then (d.wrB .cexStat 0 2 true).raise 650 else d

/-! ### Effects of a setting -/

/-- Cut-through and pairing limits of a running head wait for the next line start (R176); true where the entry is one of
them. (Log entry 174 DEDUCED.) -/
def Dev.laterEntry (d : Dev) (e : Nat × List Byte) : Option Dev :=
  match inFamily (e.1 / 256) 0x3000 64 with
  | some h =>
    let sub := e.1 % 256
    if 10 ≤ sub && sub ≤ 12 && d.headState h = .run then
      let v := natOfBytes e.2
      let p := ((d.head h).later).getD (d.rd .cxiHdhCut h, d.rd .cxiHdhLat h)
      let q := if sub = 10 then (setFld p.1 6 0 v, p.2)
               else if sub = 11 then (p.1, setFld p.2 23 0 v) else (p.1, setFld p.2 47 24 v)
      some (d.setHead h { d.head h with later := some q })
    else none
  | none => none

/-- The lateral map takes its new words at instant t (R265). -/
def Dev.mapEntry (t : Word) (bs : List Byte) (d : Dev) : Dev :=
  let hist := d.cex.mapHist ++ [(t, d.mapWords)]
  let d := (d.setVarBytes 0x4300 1 bs).writeMap
  { d with cex := { d.cex with mapHist := hist } }

/-- A setting applied at instant t. (Log entry 221 DEDUCED.) -/
def Dev.applySetting (t : Word) (d : Dev) (e : Nat × List Byte) : Dev :=
  match d.laterEntry e with
  | some d => d
  | none =>
    if e.1 = 0x430001 then d.mapEntry t e.2
    else
      match objOf (e.1 / 256) (e.1 % 256) with
      | none => d
      | some o =>
        match d.entryWord o e.2 with
        | none => if o.acc = .rws then d.setVarBytes (e.1 / 256) (e.1 % 256) e.2 else d
        | some (r, i, w) =>
          match r with
          | .fioEncnCfg => fioEncCfgWriteOp i w d
          | .fioFinkCfg => let d := d.wr r i w; d.wrB .fioFinkStat i 9 (d.finLevel i)
          | .fioOxCfg => (d.wr r i w).applyOutEn i
          | .hlkCtl => (d.wr r i w).refreshHerdRole
          | .sprAxnCtl => (Dev.reread (fun d => d.wr r i w) d).refreshAxis i
          | .sprActkCfg => (d.wr r i w).markLate i
          | .cxiHdhStg => (d.wr r i w).refreshStgFree
          | _ => if timedReg r i then d.wrAt r i t w else d.wr r i w

/-- An enable object takes v; whether it was taken. -/
def Dev.applyEnable (d : Dev) (key v : Nat) : Bool × Dev :=
  let index := key / 256
  let on := v = 1
  match inFamily index 0x2100 64, inFamily index 0x2200 16, inFamily index 0x2310 4, inFamily index 0x3000 64,
    inFamily index 0x3100 64 with
  | some g, _, _, _, _ =>
    let d := tgEnableOp g on d
    (d.rdB .sprTgnCfg g 0 = on, d)
  | _, some k, _, _, _ => (true, d.actEnable k on)
  | _, _, some p, _, _ => (true, d.writePortCtl p (setBit (d.rd .hlkPortpCtl p &&& wordOf (regDesc .hlkPortpCtl).rw) 0 on))
  | _, _, _, some h, _ =>
    let d := d.headEnable h on
    (d.headEn h = on, d)
  | _, _, _, _, some l =>
    (true, d.followHeads (d.writeLinkCfg l (setBit (d.rd .cxiLklCfg l &&& wordOf (regDesc .cxiLklCfg).rw) 0 on)))
  | _, _, _, _, _ => (true, d)

/-- Enables or disables of a wave, refusals counted (R574). -/
def Dev.applyEnables (d : Dev) (es : List (Nat × List Byte)) : Dev :=
  es.foldl (fun d e =>
    let r := d.applyEnable e.1 (natOfBytes e.2)
    if r.1 then r.2 else { r.2 with dict := { r.2.dict with refused := r.2.dict.refused + 1 } }) d

/-- The settings `es` of a wave whose enables are `ens`, refusals left out and counted (R574); `lastGraze` where no later wave
carries a budget object. -/
def Dev.applySettings (d : Dev) (es ens : List (Nat × List Byte)) (t : Word) (lastGraze : Bool) : Dev :=
  let badGens := d.refusedGens es t 65 []
  let trial := (es.filter (fun e => !badGens.any (fun g => e.1 / 256 = 0x2100 + g))).foldl (Dev.storeEntry t) d
  let onGens := trial.enabledAfter ens
  let graze := lastGraze && es.any (fun e => grazeKey e.1)
  let overQ := graze && trial.overQuota
  let bad := es.filter (fun e => d.waveRefuses trial badGens onGens overQ e)
  let good := es.filter (fun e => !d.waveRefuses trial badGens onGens overQ e)
  let layout := good.any (fun e => d.changes e && (e.1 = 0x600001 || (inFamily (e.1 / 256) 0x6010 64).isSome))
  let gens := (List.range 64).filter (fun g => good.any (fun e => e.1 / 256 = 0x2100 + g && d.changes e))
  let d := gens.foldl Dev.settleGen d
  let d := good.foldl (Dev.applySetting t) d
  let d := gens.foldl (fun d g => if d.rdB .sprTgnCfg g 0 then d.regridLater g else d) d
  let d := ((bad.map (fun e => e.1 / 256)).eraseDups).foldl Dev.refusalOf d
  let d := { d with dict := { d.dict with refused := d.dict.refused + bad.length } }
  let d := if graze then
      let d := (d.loadBank trial.dictQuotas trial.dictSlots).swapBanks
      { d with graze := { d.graze with left := [] } }
    else d
  if !layout then d
  else if d.domOn 22 then d.fullLayout
  else { d with tfb := { d.tfb with layoutDue := true } }

/-- The entries of one wave applied (R573, R574): disables, settings, enables. (Log entry 133 DEDUCED.) -/
def Dev.applyEntries (d : Dev) (es : List (Nat × List Byte)) (t : Word) (lastGraze : Bool) : Dev :=
  let d := d.applyEnables (es.filter (fun e => entryRank e.1 e.2 = 0))
  let ens := es.filter (fun e => entryRank e.1 e.2 = 2)
  let d := d.applySettings (es.filter (fun e => entryRank e.1 e.2 = 1)) ens t lastGraze
  d.applyEnables ens

/-- Wave w of the frozen set at instant t (R105, R573). -/
def Dev.applyWaveAt (d : Dev) (w : Nat) (t : Word) : Dev :=
  let order := commitOrder d.dict.pending
  let es := (order.drop (256 * w)).take 256
  let rest := order.drop (256 * (w + 1))
  d.applyEntries es t (!rest.any (fun e => grazeKey e.1))

/-- Stored values that R548 keeps of RW objects. (Log entry 118 DEDUCED.) -/
def Dev.applyStoredRw (d : Dev) (e : Nat × List Byte) : Dev :=
  match objOf (e.1 / 256) (e.1 % 256) with
  | some o =>
    if o.acc ≠ .rw then d
    else
      match o.back with
      | .field r i hi lo => d.storeReg .goatherd r i (setFld (d.rd r i &&& wordOf (regDesc r).rw) hi lo (natOfBytes e.2))
      | _ => d.writeVar (.core 0) (e.1 / 256) (e.1 % 256) e.2
  | none => d

/-- Values taken in one step and locally, as R550 takes the stored configuration: no commit, no wave, no STRADDLE.
(Log entry 118 DEDUCED.) -/
def Dev.applyValues (d : Dev) (values : Table (List Byte)) : Dev :=
  let rw_ := values.filter (fun e => match objOf (e.1 / 256) (e.1 % 256) with | some o => o.acc = .rw | none => false)
  let d0 := d
  let d := rw_.foldl Dev.applyStoredRw d
  let shadow := values.filter (fun e => match objOf (e.1 / 256) (e.1 % 256) with | some o => o.acc = .rws | none => false)
  let d := (commitOrder shadow |> fun es => d.applyEntries es d.now true)
  { d with reply := d0.reply, cex := { d.cex with mapHist := [] }, regHist := d0.regHist }

end Sys2Proof.Machine
end

