-- ==== Sys2Proof/Machine/Sleep.lean ====
section
/-! DEFINITION. The end of BOOT, the flash operations, and the power transitions (R171, R228, R281, R336, R469, R516, R541,
R545, R550, R567, R578, R585, R600–R602, R609). -/

namespace Sys2Proof.Machine

/-! ### Domains of the states -/

/-- The domains the sequencer turns on before SELFTEST but for the link groups, in its order. -/
def bootDomains : List Nat := [17, 13, 14, 15, 16, 18, 19, 20, 21, 22, 9, 10, 11, 12]

/-- The link groups that are not fenced come on. -/
def Dev.groupsOn (d : Dev) : Dev :=
  forUpTo 4 (fun g d => if d.rdB .cxiGrpgStat g 1 then d else d.setGroup g true false) d

/-- Every domain of BOOT's end comes on. -/
def Dev.allOn (d : Dev) : Dev := (d.setDomains bootDomains .on).groupsOn

/-! ### BOOT (R545, R550, R578, R609) -/

/-- BOOT_COMPLETE: the stored configuration and routing are in force, HERD_STATE is valid, the outputs live, the domains on,
EST_RUN set; SELFTEST begins. (Log entries 118 DEDUCED, 150 DEDUCED.) -/
def bootCompleteOp (d : Dev) : Dev :=
  if d.devState ≠ .boot || d.ghd.pllHeld then d
  else
    let d := d.applyValues d.ghd.stored
    let d := { d with hlk := { d.hlk with valid := true }, fio := { d.fio with live := true } }
    let d := forUpTo 48 (fun x d => d.applyOutEn x) d.refreshHerdRole
    (d.allOn.wrB .sprGlbCtl 0 0 true).enterState .selftest none

/-! ### Flash operations (R550, R585) -/

/-- FLASH_OPERATION_DONE: a store writes the other copy with the next generation; a failure raises GHD_FLASH_ERR.
(Log entry 126 DEDUCED.) -/
def flashOperationDoneOp (ok : Bool) (d : Dev) : Dev :=
  let d1 := if ok then d else d.raise 780
  match d.ghd.flashOp with
  | none => d
  | some .program => { d1 with ghd := { d1.ghd with flashOp := none } }
  | some .erase =>
    let d := { d1 with dict := { d1.dict with store := if ok then 2 else 3 },
                       ghd := { d1.ghd with flashOp := none, stored := if ok then [] else d1.ghd.stored } }
    d.raise 803
  | some (.store values) =>
    let g := d1.ghd
    let d := { d1 with dict := { d1.dict with store := if ok then 2 else 3 },
                       ghd := { g with flashOp := none, stored := if ok then values else g.stored,
                                       storedGen := if ok then g.storedGen + 1 else g.storedGen } }
    d.raise 803

/-! ### STANDBY (R600) -/

/-- Lines staged for head h pass Chamois; n at most. -/
def Dev.drainLines (h : Nat) : Nat → Dev → Dev
  | 0, d => d
  | n + 1, d => Dev.drainLines h n (chamoisLineEndOp h (chamoisLineStartOp h d))

/-- Every head stops at a line start: a line still being received ends there, and staging drains (R171).
(Log entry 136 DEDUCED.) -/
def Dev.drainStaging (d : Dev) : Dev :=
  forUpTo 64 (fun h d => (Dev.drainLines h (d.head h).lines.length (d.endLine h 0)).closeHead h) d

/-- Every band closed is complete, its entry written, and each open directory tile is written back (R190, R228). -/
def Dev.completeBands (d : Dev) : Dev :=
  forUpTo 64 (fun h d =>
    let d := (List.range (d.lb h).done.length).foldl (fun d _ => d.completeBand h) d
    if d.hasRing h then d.writeDir h else d) d

/-- Sessions of the field network close and 802.1AS stops (R567). -/
def Dev.stopEth (d : Dev) : Dev :=
  let d := (d.closeSessions (fun s => isEth s.path)).setPtpState 0
  forUpTo 2 (fun p d => if d.rdB .ethPpStat p 0 then (d.wrB .ethPpStat p 0 false).raise (768 + p) else d) d

/-- Records left in the live queue or held behind it are lost with extraction memory, and what waits between devices with CEX
(R281). (Log entry 116 DEDUCED.) -/
def Dev.dropLive (d : Dev) : Dev :=
  let n := d.cexCount false + d.cex.heldRecs.length
  let d := { d with cex := { d.cex with
    lostAtStandby := d.cex.lostAtStandby + n, heldRecs := [], heldRetro := [], forwarded := [], progress := [], late := [] } }
  ((d.wrF .cexLqCons 0 12 0 (d.rdF .cexLqProd 0 12 0)).wrB .cexStat 0 0 false).setLevel 655 false

/-- A power state is entered: GHD_STATE, the log and GHD_POWER (R595, R603). -/
def Dev.setPower (d : Dev) (v : Nat) : Dev :=
  let old := d.rdF .ghdState 0 5 4
  (((d.wrF .ghdState 0 5 4 v).log 0 0x003 (detailPair old v) 0).raise 776).refreshLowPower

/-- Steps 1 and 2 of R600's example: the heads stop at their next line start, staging drains, bands close, the running retro job
ends and every open piece is released with EDGE (R171, R228, R281). (Log entry 207 DEDUCED.) -/
def Dev.quiesce (d : Dev) : Dev :=
  let d := d.drainStaging
  (match d.runningJob with | some j => d.abortJob j | none => d).releaseAll

/-- Step 3: extraction memory is held until the live queue is empty, with nothing held behind it, or for 100 ms from the beginning of
the transition (R281). (Log entry 207 DEDUCED.) -/
def Dev.queueWaits (d : Dev) : Bool :=
  (d.cexCount false ≠ 0 || d.cex.heldRecs ≠ []) && decide (elapsed d.now d.ghd.moveAt < 100000000)

/-- Steps 4 to 7, the domains last. (Log entries 17 DEDUCED, 77 DEDUCED, 116 DEDUCED.) -/
def Dev.standby (d : Dev) : Dev :=
  let d := d.stopChannels.stopMovers
  let d := d.tfb.queries.foldl (fun d q =>
    if q.resolved then (d.cutRemote q.id).finishQuery q else d.finishQuery { q with refused := some (0x38, 2) }) d
  let d := d.completeBands.dropLive
  let d := forUpTo 4 (fun s d =>
    if d.rdF .hbcSsStat s 2 0 = 3 then (d.wrF .hbcSsStat s 2 0 4).setDomain (1 + s) .retained else d) d.stopEth
  let d := forUpTo 4 (fun g d => d.setGroup g false (d.rdB .cxiGrpgStat g 1)) d
  let d := (d.setDomains [17, 18, 19, 21] .retained).setDomains [12, 13, 14, 15, 16, 20, 22] .off
  { d with sram := d.sram.filter (fun e => sramRegion e.1 ≠ some 3), hbc := { d.hbc with xfer := [], link := [], parity := [] },
           graze := { d.graze with bids := [], busy := [] } }.dropDeadLevels

/-! ### HIBERNATE (R337, R469, R516, R601) -/

/-- The windows of the blocks that HIBERNATE turns off, and their stored values but for the budgets. -/
def sleepWindows : List Nat := [2, 3, 4, 5, 6, 8, 9, 10, 12, 13]

/-- A key's object is held in a block that goes off. -/
def inSleeping (k : Nat) : Bool :=
  if grazeKey k then false
  else
    match objOf (k / 256) (k % 256) with
    | some o =>
      (match o.back with
       | .field r _ _ _ | .sfield r _ _ _ | .opt r _ _ _ _ | .pow r _ _ _ => sleepWindows.contains (regDesc r).win
       | .calc => (inFamily (k / 256) 0x3200 64).isSome
       | _ => false)
    | none => false

/-- A stored value put back without what follows from it: RW objects, and RWS settings under applyValues.
(Log entries 17 DEDUCED, 135 DEDUCED.) -/
def Dev.putBack (d : Dev) (values : Table (List Byte)) : Dev :=
  let rws := values.filter (fun e => match objOf (e.1 / 256) (e.1 % 256) with | some o => o.acc = .rws | none => false)
  let rw_ := values.filter (fun e => match objOf (e.1 / 256) (e.1 % 256) with | some o => o.acc ≠ .rws | none => false)
  let d := rw_.foldl (fun d e =>
    match inFamily (e.1 / 256) 0x3200 64 with
    | some h => d.setHead h { d.head h with timeoutMs := natOfBytes e.2 }
    | none => d.storeEntry d.now e) d
  d.applyValues rws

/-- The block after every domain but PD00 and PD23 has gone off: blocks at their reset state, the values in force of their
stored objects put back. (Log entries 17 DEDUCED, 135 DEDUCED.) -/
def Dev.hibernate (d : Dev) : Dev :=
  let d := ((d.sendAlert 5 0).commitLinkDown).releaseFrozen
  let d := forUpTo 2 (fun f d => functionDetachOp f .port d) d
  let d := forUpTo 4 (fun s d => d.dropRewrites s) (d.closeSessions (fun _ => true))
  let values := d.storedValues.filter (fun e => inSleeping e.1)
  let d := d.setDomains ((List.range 24).filter (fun k => k ≠ 0 && k ≠ 23)) .off
  let d := { d with
    regs := d.regs.filter (fun e => !sleepWindows.contains (e.1 / 65536))
    sram := d.sram.filter (fun e => sramRegion e.1 = some 4)
    hbm := []
    hbc := { d.hbc with rewrites := [], xfer := [], fenceLater := [], link := [], parity := [] }
    owners := [], cxi := {}, hlk := { valid := true, lastEpoch := d.hlk.lastEpoch }, tfb := {}, chm := {}
    cex := { lostAtStandby := d.cex.lostAtStandby, skips := d.cex.skips }
    graze := {}, tmv := {}, hif := {}, ibx := {}, wev := []
    procs := d.procs.filter (fun e => e.1 = 1028)
    dict := { d.dict with vars := d.dict.vars.filter (fun e => !grazeKey e.1) } }
  let d := forUpTo 4 (fun s d => d.wrF .hbcSsStat s 6 0 0) d
  (d.refreshHerdRole.putBack values).dropDeadLevels

/-! ### Back to RUN (R281, R336, R413, R469, R602) -/

/-- Bank A holds the dictionary's budgets and is active (R469). (Log entry 134 DEDUCED.) -/
def Dev.bankFromDict (d : Dev) : Dev :=
  let quotas := d.dictQuotas
  let slots := d.dictSlots
  let d := forUpTo 32 (fun c d => d.wrF .tfbQuotaaC c 11 0 (quotas.getD c 0)) d
  let d := forUpTo 64 (fun j d => d.wr .tfbSlotaJ j (slots.getD j 0 &&& 0x3FFFFFFFFF)) d
  let d := (d.wrB .tfbGrzCtl 0 0 false).wrB .tfbGrzCtl 0 1 false
  { d with graze := { d.graze with left := [], dictSwap := false, matches_ := true } }.refreshCap

/-- Stack s comes out of self-refresh, or is fenced: its PHY failed to lock, or its FENCE was written in STANDBY (R413). -/
def Dev.wakeStack (phy : BitVec 4) (later : List Nat) (s : Nat) (d : Dev) : Dev :=
  if d.rdF .hbcSsStat s 2 0 ≠ 4 then d
  else
    let d := (d.wrF .hbcSsStat s 2 0 3).setDomain (1 + s) .on
    if !phy.getLsbD s then d.fenceStack s 1 else if later.contains s then d.fenceStack s 8 else d

/-- What the blocks that were off take up again; the levels of CEX still active are new activations (R265, R281, R336, R469, R541,
R567). (Log entries 17 DEDUCED, 116 DEDUCED, 134 DEDUCED.) -/
def Dev.wakeBlocks (d : Dev) : Dev :=
  let d := d.bankFromDict.writeMap
  let d := { d with cex := { d.cex with heads := d.cex.heads.map (fun (e : Nat × ExtHead) => (e.1, { e.2 with restart := true })) } }
  let due := d.tfb.layoutDue
  let d := { d with tfb := { d.tfb with layoutDue := false } }
  let d := if due then d.fullLayout else d
  let d := (d.setLevel 655 (d.rdB .cexStat 0 0)).setLevel 656 (d.rdB .cexStat 0 1)
  (d.setPtpState (if d.var 0x1120 1 = 1 then 1 else 0)).restoreChannels

/-- The domains return from STANDBY (R602). (Log entry 135 DEDUCED.) -/
def Dev.wakeStandby (d : Dev) (phy : BitVec 4) : Dev :=
  let later := d.hbc.fenceLater
  let d := { d with hbc := { d.hbc with fenceLater := [] } }.allOn
  let d := forUpTo 4 (Dev.wakeStack phy later) d
  match d.devState with
  | .failed => d
  | _ => d.wakeBlocks

/-- What a request that waited behind a transition then starts (R600). -/
def Dev.nextPower (d : Dev) : Dev :=
  match d.ghd.asked with
  | some v => { d with ghd := { d.ghd with asked := none } }.startPower v
  | none => d

/-- POWER_TRANSITION_END (R281, R336, R600–R602): out of RUN the transition goes on while the live queue is emptied and while a gather
is completed. (Log entries 136 DEDUCED, 207 DEDUCED, 211 DEDUCED.) -/
def powerTransitionEndOp (phy : BitVec 4) (d : Dev) : Dev :=
  match d.ghd.move with
  | none => d
  | some m =>
    let over_ (d : Dev) : Dev := { d with ghd := { d.ghd with move := none } }
    let q := d.quiesce
    match m with
    | .toStandby => if q.queueWaits || q.gathersOpen then q else ((over_ q).standby.setPower 1).nextPower
    | .toHibernate =>
      if d.powerState ≠ .run then ((over_ d).hibernate.setPower 2).nextPower
      else if q.queueWaits || q.gathersOpen then q
      else ((over_ q).standby.hibernate.setPower 2).nextPower
    | .toRun =>
      let d := ((over_ d).setPower 0).wakeStandby phy
      d.nextPower.settleService

/-- WAKE_REQUEST (R543, R602, R603): a committed record of a WAKE source has asked; STANDBY follows 8020h.2, HIBERNATE wakes
into SELFTEST. (Log entry 136 DEDUCED.) -/
def wakeRequestOp (d : Dev) : Dev :=
  if !d.ghd.wakeAsked then d
  else
    let d := { d with ghd := { d.ghd with wakeAsked := false } }
    match d.powerState with
    | .standby => if d.ghd.move.isNone && d.var 0x8020 2 = 1 then (d.raise 781).startPower 0 else d
    | .hibernate =>
      let d := ((d.raise 781).setPower 0).allOn
      let d := { d with ghd := { d.ghd with limitFrom := d.ghd.up, partC := false, refHeld := false } }
      let d := forUpTo 64 (fun l d => if d.rdB .cxiLklCfg l 1 then d.pcxStart l else d) d
      d.enterState .selftest none
    | .run => d

end Sys2Proof.Machine
end

