-- ==== Sys2Proof/Machine/Herd.lean ====
section
/-! DEFINITION. The beat and herd commits (R48, R79, R84–R89, R91–R109, R112, R121, R123, R572, R575). A device composes,
receives, votes and applies here; the effects of a beat on axes and on HLK_BEAT_SEQ fall at its instant. -/

namespace Sys2Proof.Machine

/-! ### The lead's commits (R97, R98, R102–R104) -/

/-- The lead takes a request: the next epoch, PREPARE in the next beat. -/
def Dev.leadTake (d : Dev) (m : CommitReq) : Dev :=
  let e := d.hlk.lastEpoch + 1
  { d with hlk := { d.hlk with commit := some { req := m, epoch := e }, lastEpoch := e } }

/-- COMMIT_REQ (R97): taken, held behind the running one, or refused; a device that is not the lead passes it up.
(Log entry 170 DEDUCED.) -/
def commitReqOp (m : CommitReq) (d : Dev) : Dev :=
  if !d.hlkOn then d
  else if d.isLead then
    match d.hlk.commit, d.hlk.held with
    | none, _ => d.leadTake m
    | some _, none => { d with hlk := { d.hlk with held := some m } }
    | some _, some _ =>
      commitDoneOp { requester := m.requester, tag := m.tag, epoch := 0, status := 0x38, sub := 0x33, applySeq := 0,
                     pos := 0, waves := 0 } d
  else if d.portState d.upPort = 2 then d.sendPort d.upPort (.commitReq m)
  else d.commitLost m

/-- The lead's commit replaced. -/
def Dev.setLead (d : Dev) (c : Option LeadCommit) : Dev := { d with hlk := { d.hlk with commit := c } }

/-- The lead cancels with a result: four CANCEL beats follow. -/
def Dev.leadCancel (d : Dev) (c : LeadCommit) (st sub : Nat) : Dev :=
  d.setLead (some { c with phase := .cancel 4, status := BitVec.ofNat 8 st, sub := BitVec.ofNat 8 sub })

/-- Every vote is in (R102): ARMED, or CANCEL with the refusal of the lowest-numbered refusing device. -/
def Dev.leadDecide (d : Dev) (v : VoteMsg) : Dev :=
  match d.hlk.commit with
  | some c =>
    if c.phase = .prepare then
      match v.refuser with
      | some r => d.leadCancel c r.2.toNat 0
      | none => d.setLead (some { c with phase := .armed, lastWave := min 15 ((v.largest + 255) / 256 - 1) })
    else d
  | none => d

/-! ### Votes (R99, R101, R109) -/

/-- The lower-numbered of two refusals. -/
def lowerRefuser : Option (Nat × BitVec 8) → Option (Nat × BitVec 8) → Option (Nat × BitVec 8)
  | some a, some b => if b.1 < a.1 then some b else some a
  | some a, none => some a
  | none, b => b

/-- Two votes together. -/
def joinVotes (a b : VoteMsg) : VoteMsg :=
  { a with voting := a.voting + b.voting, abstain := a.abstain + b.abstain, largest := max a.largest b.largest,
           refuser := lowerRefuser a.refuser b.refuser }

/-- With nothing awaited, the vote goes up, or the lead acts on it. -/
def Dev.sendVote (d : Dev) : Dev :=
  match d.hlk.votes with
  | some v =>
    if v.waiting = [] && !v.sent then
      let d := { d with hlk := { d.hlk with votes := some { v with sent := true } } }
      if d.isLead then d.leadDecide v.acc
      else if d.portState d.upPort = 2 then d.sendPort d.upPort (.vote v.acc) else d
    else d
  | none => d

/-- A device that votes or joins compares its last applied epoch with LAST_DONE (R109). -/
def Dev.checkEpoch (d : Dev) (lastDone : BitVec 16) : Dev :=
  if d.rdF .hlkCommitStat 0 31 16 = lastDone.toNat then d else (d.wrB .hlkStat 0 39 true).raise 436

/-- This device votes (R99); STANDBY reads READY. -/
def Dev.mayVote (d : Dev) : Bool :=
  (d.devState = .ready || d.devState = .run || d.devState = .degraded) && d.powerState ≠ .hibernate &&
    d.herdState ≠ 0 && d.herdState ≠ 4

/-- The pending set holds a stop-required object. -/
def Dev.pendingStops (d : Dev) : Bool :=
  d.dict.pending.any (fun e => match objOf (e.1 / 256) (e.1 % 256) with | some o => o.stop | none => false)

/-- This device's own vote (R99). -/
def Dev.ownVote (d : Dev) (e : BitVec 16) : VoteMsg :=
  let n := d.dict.pending.length
  if !d.mayVote then { epoch := e, voting := 0, abstain := 1, largest := 0, refuser := none }
  else
    let code : Option (BitVec 8) := if d.pendingStops && d.anyRunning then some 0x22 else if 4096 < n then some 0x21 else none
    { epoch := e, voting := 1, abstain := 0, largest := n, refuser := code.map (fun c => (d.devNum, c)) }

/-- PREPARE (R99): the set is frozen where the device votes, and the votes of the children are awaited.
(Log entry 203 DEDUCED.) -/
def Dev.prepare (d : Dev) (b : Beat) : Dev :=
  let v := d.ownVote b.epoch
  let d := { d with hlk := { d.hlk with votes := some { acc := v, waiting := d.downPorts, prepSeq := b.seq }, cancelled := none } }
  let d := if d.mayVote then
      let d := { d with hlk := { d.hlk with frozen := some { epoch := b.epoch, caxis := b.caxis } } }
      ((d.wrB .hlkCommitStat 0 6 true).checkEpoch b.lastDone).refreshSet
    else d
  d.sendVote

/-- VOTE of the child on port p. -/
def voteOp (p : Nat) (m : VoteMsg) (d : Dev) : Dev :=
  match d.hlk.votes with
  | some v =>
    if d.hlkOn && v.acc.epoch = m.epoch && v.waiting.contains p then
      { d with hlk := { d.hlk with votes := some { v with acc := joinVotes v.acc m,
                                                          waiting := v.waiting.filter (fun q => q ≠ p) } } }.sendVote
    else d
  | none => d

/-- Beats since PREPARE. -/
def Dev.beatsSince (d : Dev) (v : VoteRun) : Nat := (d.hlk.lastSeq - v.prepSeq).toNat

/-- The numbers of the devices below port p: moved there, or enumerated there and not moved away (R101, R122). -/
def Dev.childNumbers (d : Dev) (p : Nat) : List Nat := (List.range 1024).filter (d.portLeadsTo p)

/-- CHILD_VOTE_TIMEOUT (R101): 48 beats after PREPARE the child's range votes HERD_TIMEOUT. -/
def childVoteTimeoutOp (p : Nat) (d : Dev) : Dev :=
  match d.hlk.votes with
  | some v =>
    if d.hlkOn && v.waiting.contains p && 48 ≤ d.beatsSince v then
      let ns := d.childNumbers p
      voteOp p { epoch := v.acc.epoch, voting := ns.length, abstain := 0, largest := 0,
                 refuser := ns.head?.map (fun n => (n, 0x31)) } d
    else d
  | none => d

/-- LEAD_VOTE_TIMEOUT (R102): 64 beats after PREPARE, with votes missing. (Log entry 203 DEDUCED.) -/
def leadVoteTimeoutOp (d : Dev) : Dev :=
  match d.hlk.votes, d.hlk.commit with
  | some v, some c =>
    if d.hlkOn && d.isLead && c.phase = .prepare && !v.sent && 64 ≤ d.beatsSince v then
      { d with hlk := { d.hlk with votes := some { v with sent := true } } }.leadCancel c 0x31 0
    else d
  | _, _ => d

/-- ARM_LIMIT_EXPIRY (R104). -/
def armLimitExpiryOp (d : Dev) : Dev :=
  match d.hlk.commit with
  | some c =>
    match c.armedAt with
    | some t =>
      if d.hlkOn && d.isLead && c.phase = .armed && !c.req.next &&
          d.rdF .hlkArmLimit 0 31 0 * 1000000 ≤ elapsed d.now t then d.leadCancel c 0x38 0x36
      else d
    | none => d
  | none => d

/-! ### Applying (R105–R107, R575) -/

/-- The frozen commit replaced. -/
def Dev.setFrozen (d : Dev) (f : FrozenCommit) : Dev := { d with hlk := { d.hlk with frozen := some f } }

/-- The last wave of this device: its applied objects leave, the set is released, HERD_COMMIT (R100, R108, R125, R575).
(Log entries 47 DESIGN CHOICE, 48 DEDUCED.) -/
def Dev.lastWaveDone (d : Dev) (f : FrozenCommit) : Dev :=
  let p := match f.pos with
    | some p => (p, d)
    | none => (wordOf d.free.1, d.free.2)
  let d := { p.2 with dict := { p.2.dict with pending := [] } }.releaseFrozen
  let d := (d.wrF .hlkCommitStat 0 31 16 f.epoch.toNat).wrF .hlkCommitStat 0 15 8 0
  ((d.wr .hlkApplyPos 0 p.1).raise 435).refreshSet

/-- The waves that this device's own set needs. -/
def Dev.ownWaves (d : Dev) : Nat := max 1 ((d.dict.pending.length + 255) / 256)

/-- The instant of wave w. -/
def waveInstant (start : Word) (w : Nat) : Word := start + wordOf (1024 * w)

/-- The next wave of the frozen set, at an instant. -/
def Dev.nextWave (d : Dev) (f : FrozenCommit) (t : Word) : Dev :=
  let n := d.ownWaves
  let d := (d.applyWaveAt f.waves t).setFrozen { f with waves := f.waves + 1 }
  if n ≤ f.waves + 1 then d.lastWaveDone f else d

/-- The lead tells the requester at the instant of the last wave (R108). (Log entry 48 DEDUCED.) -/
def Dev.tellDone (d : Dev) (c : LeadCommit) : Dev :=
  let d := (d.setLead (some { c with told := true })).wr .hlkApplyPos 0 c.applyPos
  commitDoneOp { requester := c.req.requester, tag := c.req.tag, epoch := c.epoch, status := c.status, sub := c.sub,
                 applySeq := c.applySeq, pos := c.applyPos, waves := c.lastWave + 1 } d

/-- Nanoseconds by which the low bits of time t have passed the instant of beat SEQ, as R25 compares them: the instant. -/
def seqInstant (now : Word) (seq : BitVec 16) : Word :=
  let n : BitVec 16 := BitVec.ofNat 16 (now.toNat / 1024)
  wordOfInt ((now.toNat / 1024 : Nat) + (seq - n).toInt) * 1024

/-- The lead's last wave is due and not yet told. (Log entry 45 DEDUCED.) -/
def Dev.leadDue (d : Dev) : Option LeadCommit :=
  match d.hlk.commit with
  | some c =>
    let sent := match c.phase with | .trailing _ => true | _ => false
    if d.isLead && sent && !c.told && atOrPast d.now (waveInstant (seqInstant d.now c.applySeq) c.lastWave) then some c else none
  | none => none

/-- WAVE_APPLY (R105, R108): the next wave of the frozen set once its instant has come; on the lead, COMMIT_DONE at the
instant of the last wave. (Log entry 48 DEDUCED.) -/
def waveApplyOp (d : Dev) : Dev :=
  if !d.hlkOn then d
  else
    let d := match d.hlk.frozen with
      | some f =>
        (match f.start with
         | some s => if atOrPast d.now (waveInstant s f.waves) then d.nextWave f (waveInstant s f.waves) else d
         | none => d)
      | none => d
    match d.leadDue with
    | some c => d.tellDone c
    | none => d

/-- Waves applied one after another at once; n at most. (Log entry 49 DEDUCED.) -/
def Dev.allWaves : Nat → Dev → Dev
  | 0, d => d
  | n + 1, d =>
    match d.hlk.frozen with
    | some f => Dev.allWaves n (d.nextWave f d.now)
    | none => d

/-- Where the lead's axis a stands now (R30, R48, R107): a follower reads it from the last beat whose instant has come, else from
the beat in hand. (Log entry 49 DEDUCED.) -/
def Dev.leadAxisPos (d : Dev) (a : Nat) : P48 × Dev :=
  if d.isLead then (d.axisPos a, d)
  else
    match d.hlk.lastBeat <|> d.hlk.beats.getLast? with
    | some b =>
      let x := b.axisOf a
      let k : Tracker := { p := x.pos, v := wordOfInt (x.vel.toInt * 256), t := b.time }
      (if x.st = 2 || x.st = 3 then k.beatAt d.now else x.pos, d)
    | none => (wordOf d.free.1, d.free.2)

/-- The apply instant was learned too late (R107): every wave now, LATE, HLK_LATE_POS, HERD_EPOCH and the ALERT.
(Log entry 49 DEDUCED.) -/
def Dev.applyLate (d : Dev) (f : FrozenCommit) : Dev :=
  let x := d.leadAxisPos f.caxis.toNat
  let d := ((x.2.wrB .hlkCommitStat 0 7 true).wr .hlkLatePos 0 x.1).raise 436
  let d := { d with hlk := { d.hlk with straddle := d.hlk.straddle ++ [(d.now, some (d.now + 1))] } }
  (Dev.allWaves 17 (d.setFrozen f)).sendAlert 6 (f.epoch.toNat % 256)

/-- The first CANCEL beat of an epoch is seen (R100, R125, R575): the set released with its shadows pending; the lead knows the result, a follower's RESULT is
open. (Log entry 47 DESIGN CHOICE.) -/
def Dev.seeCancel (d : Dev) (e : BitVec 16) : Dev :=
  let r := match d.hlk.commit, d.isLead with
    | some c, true => (c.status.toNat, d)
    | _, _ => d.free
  let d := r.2.releaseFrozen.wrF .hlkCommitStat 0 15 8 r.1
  ((({ d with hlk := { d.hlk with votes := none, cancelled := some e } })).raise 435).refreshSet

/-- What a beat says of the commit, on the lead as it composes it and on a follower as it receives it. -/
def Dev.takeCommit (d : Dev) (b : Beat) : Dev :=
  match b.cstate.toNat, d.hlk.frozen with
  | 1, _ =>
    (match d.hlk.votes with
     | some v => if v.acc.epoch = b.epoch then d else d.prepare b
     | none => d.prepare b)
  | 2, some f =>
    if b.seqValid && f.epoch = b.epoch then
      let f := if b.seq = b.applySeq then { f with pos := some (b.axisOf b.caxis.toNat).pos } else f
      match f.start with
      | some _ => d.setFrozen f
      | none =>
        let t := b.time - wordOf (1024 * (b.seq - b.applySeq).toNat)
        let f := { f with start := some t, lastWave := b.lastWave.toNat }
        if strictlyPast d.now t then d.applyLate f
        else
          let e := waveInstant t f.lastWave
          let d := if f.lastWave = 0 then d else { d with hlk := { d.hlk with straddle := d.hlk.straddle ++ [(t, some e)] } }
          d.setFrozen f
    else d
  | 3, _ => if d.hlk.cancelled = some b.epoch then d else d.seeCancel b.epoch
  | 0, some f =>
    if b.lastDone = f.epoch && f.start.isNone then d.applyLate f else d
  | _, _ => d

/-! ### Composing a beat (R84, R86, R87, R98, R102, R103) -/

/-- The code of an axis state as a beat carries it, and back. -/
def axStateOf : Nat → AxState
  | 0 => .idle | 1 => .acquire | 2 => .track | 3 => .coast | _ => .fault

/-- Lead axis a for instant t (R87); VEL drops the low eight bits of the velocity's magnitude. (Log entry 171 DESIGN CHOICE.) -/
def Dev.beatAxis (d : Dev) (a : Nat) (t : Word) : BeatAxis :=
  let k := (d.axis (d.axisOf a)).main
  let moving := k.st = .track || k.st = .coast
  { pos := if k.st = .track then k.p + wordOfInt (k.travel t) else if k.st = .coast then k.coastAt t else d.axisPos a
    st := BitVec.ofNat 3 k.st.code
    back := d.axisBackward a
    vel := if moving then BitVec.ofInt 32 (k.v.toInt.tdiv 256) else 0 }

/-- The commit fields of the next beat: CSTATE, APPLYING, WAVE, SEQ_VALID, and the lead's commit after it; none in IDLE. -/
structure BeatCommit where
  cstate : Nat
  applying : Bool := false
  wave : Nat := 0
  seqValid : Bool := false
  next : LeadCommit
  deriving DecidableEq, Repr

/-- The step of a running commit at the beat of a SEQ whose CAXIS stands as `ax` says.
(Log entries 45 DEDUCED, 46 DESIGN CHOICE.) -/
def composeCommit (c : LeadCommit) (seq : BitVec 16) (ax : BeatAxis) (now : Word) : Option BeatCommit :=
  match c.phase with
  | .start => some { cstate := 1, next := { c with phase := .prepare, prepSeq := seq } }
  | .prepare => some { cstate := 1, next := c }
  | .armed =>
    let c' := { c with armedAt := some (c.armedAt.getD now) }
    if !c.req.next && (c.faulted || ax.st = 4) then
      some { cstate := 3, next := { c with phase := .cancel 3, status := 0x38, sub := 0x37 } }
    else if (c.req.next && c.armedAt.isSome) || (!c.req.next && atOrPast ax.pos c.req.target) then
      let p : LeadPhase := if c.lastWave = 0 then .trailing 4 else .applying 1
      some { cstate := 2, applying := true, seqValid := true, next := { c' with phase := p, applySeq := seq, applyPos := ax.pos } }
    else some { cstate := 2, next := c' }
  | .applying w =>
    let p : LeadPhase := if w = c.lastWave then .trailing 4 else .applying (w + 1)
    some { cstate := 2, applying := true, wave := w, seqValid := true, next := { c with phase := p } }
  | .trailing (n + 1) => some { cstate := 2, seqValid := true, next := { c with phase := .trailing n } }
  | .cancel (n + 1) => some { cstate := 3, next := { c with phase := .cancel n } }
  | .trailing 0 | .cancel 0 => none

/-- A commit of the lead is over: the result told if it was not, LAST_DONE, and the held request is taken.
(Log entry 48 DEDUCED.) -/
def Dev.leadOver (d : Dev) (c : LeadCommit) : Dev :=
  let done := c.phase = .trailing 0
  let d := if done && !c.told then d.tellDone c else d
  let d := if done then { d with hlk := { d.hlk with lastDone := c.epoch } } else d
  let h := d.hlk.held
  let d := { d with hlk := { d.hlk with commit := none, held := none, votes := none } }
  match h with
  | some m => d.leadTake m
  | none => d

/-- The first CANCEL beat carries the result to the requester (R108). -/
def Dev.tellCancel (d : Dev) (c : LeadCommit) : Dev :=
  commitDoneOp { requester := c.req.requester, tag := c.req.tag, epoch := c.epoch, status := c.status, sub := c.sub,
                 applySeq := 0, pos := 0, waves := 0 } (d.setLead (some { c with told := true }))

/-! ### The beat on a link (R86, R89) -/

/-- A number at a bit position. -/
def atBit (x n : Nat) : Nat := x * 2 ^ n

/-- The block of one lead axis: POS, STATE, DIR. -/
def axisBlock (x : BeatAxis) : BitVec 64 := BitVec.ofNat 64 (atBit x.pos.toNat 16 + atBit x.st.toNat 13 + atBit x.back.toNat 12)

/-- The blocks of a beat on a link of a version, as R86's table lays them out. -/
def beatBlocks (b : Beat) (ver : Nat) : List (BitVec 64) :=
  [ BitVec.ofNat 64 (atBit 1 56 + atBit (ver % 16) 52 + atBit b.seq.toNat 32)
  , BitVec.ofNat 64 (atBit b.time.toNat 16)
  , BitVec.ofNat 64 (atBit b.corr.toNat 32 + atBit b.sender.toNat 22 + atBit b.depth.toNat 19)
  , axisBlock b.a0, axisBlock b.a1, axisBlock b.a2, axisBlock b.a3
  , BitVec.ofNat 64 (atBit b.a0.vel.toNat 32 + b.a1.vel.toNat)
  , BitVec.ofNat 64 (atBit b.a2.vel.toNat 32 + b.a3.vel.toNat)
  , BitVec.ofNat 64 (atBit b.epoch.toNat 48 + atBit b.cstate.toNat 46 + atBit b.caxis.toNat 44 + atBit b.applying.toNat 43 +
      atBit b.wave.toNat 39 + atBit b.lastWave.toNat 35 + atBit b.seqValid.toNat 34 + atBit b.applySeq.toNat 16 + b.lastDone.toNat)
  , BitVec.ofNat 64 (atBit b.target.toNat 16) ]

/-- Bits hi to lo of block i. -/
def blockFld (l : List (BitVec 64)) (i hi lo : Nat) : Nat := (l.getD i 0).toNat / 2 ^ lo % 2 ^ (hi + 1 - lo)

/-- A lead axis read from its block, and its velocity. -/
def axisOfBlocks (l : List (BitVec 64)) (a : Nat) : BeatAxis :=
  { pos := BitVec.ofNat 48 (blockFld l (3 + a) 63 16), st := BitVec.ofNat 3 (blockFld l (3 + a) 15 13)
    back := blockFld l (3 + a) 12 12 = 1
    vel := BitVec.ofNat 32 (if a % 2 = 0 then blockFld l (7 + a / 2) 63 32 else blockFld l (7 + a / 2) 31 0) }

/-- What the blocks of a beat say. -/
def beatOfBlocks (l : List (BitVec 64)) : Beat :=
  { seq := BitVec.ofNat 16 (blockFld l 0 47 32), time := BitVec.ofNat 48 (blockFld l 1 63 16)
    corr := BitVec.ofNat 32 (blockFld l 2 63 32), sender := BitVec.ofNat 10 (blockFld l 2 31 22)
    depth := BitVec.ofNat 3 (blockFld l 2 21 19)
    a0 := axisOfBlocks l 0, a1 := axisOfBlocks l 1, a2 := axisOfBlocks l 2, a3 := axisOfBlocks l 3
    epoch := BitVec.ofNat 16 (blockFld l 9 63 48), cstate := BitVec.ofNat 2 (blockFld l 9 47 46)
    caxis := BitVec.ofNat 2 (blockFld l 9 45 44), applying := blockFld l 9 43 43 = 1
    wave := BitVec.ofNat 4 (blockFld l 9 42 39), lastWave := BitVec.ofNat 4 (blockFld l 9 38 35)
    seqValid := blockFld l 9 34 34 = 1, applySeq := BitVec.ofNat 16 (blockFld l 9 31 16)
    lastDone := BitVec.ofNat 16 (blockFld l 9 15 0), target := BitVec.ofNat 48 (blockFld l 10 63 16) }

/-- The 88 bytes of eleven blocks, the most significant byte of each first. (Log entry 169 DESIGN CHOICE.) -/
def blockBytes (l : List (BitVec 64)) : List Byte :=
  l.flatMap (fun x => (List.range 8).map (fun i => BitVec.ofNat 8 (x.toNat / 2 ^ (56 - 8 * i))))

/-- A beat as it leaves on a link of a version. (Log entry 169 DESIGN CHOICE.) -/
def beatFrame (b : Beat) (ver : Nat) : BeatFrame :=
  { blocks := beatBlocks b ver, crc := crc32c (blockBytes (beatBlocks b ver)) }

/-- The CRC-32C of the terminate block holds. (Log entry 169 DESIGN CHOICE.) -/
def frameCrc (f : BeatFrame) : Bool := f.crc = crc32c (blockBytes f.blocks)

/-- R89's checks on a link of a version: the CRC, TYPE, VER, and every reserved field zero. -/
def frameGood (f : BeatFrame) (ver : Nat) : Bool := frameCrc f && f.blocks = beatBlocks (beatOfBlocks f.blocks) ver

/-- A beat leaves on every downstream and standby port but those of a list, with the version of each link (R84, R85). -/
def Dev.sendBeat (d : Dev) (b : Beat) (except : List Nat) : Dev :=
  let ports := (List.range 4).filter (fun p => !except.contains p &&
    ((d.portState p = 2 && d.portRole p = 2) || (d.portState p = 3 && d.altPort ≠ some p)))
  ports.foldl (fun d p => d.sendPort p (.beat (beatFrame b (d.portVersion p)))) d

/-- BEAT_SEND (R84, R87): at T_n − 4,096 ns, a multiple of 1,024 ns, once for each beat. Fields that say nothing in this beat
hold free values. (Log entry 46 DESIGN CHOICE.) -/
def beatSendOp (d : Dev) : Dev :=
  let t := d.now + 4096
  if !d.hlkOn || !d.isLead || d.now.toNat % 1024 ≠ 0 || d.hlk.expect = some t then d
  else
    let seq : BitVec 16 := BitVec.ofNat 16 (t.toNat / 1024)
    let f := d.free
    let d := f.2
    let ends := match d.hlk.commit with
      | some c => (composeCommit c seq (d.beatAxis c.req.axis.val t) d.now).isNone
      | none => false
    let epoch := d.hlk.lastEpoch
    let base : Beat := {
      seq := seq, time := t, corr := 0, sender := 0, depth := 0
      a0 := d.beatAxis 0 t, a1 := d.beatAxis 1 t, a2 := d.beatAxis 2 t, a3 := d.beatAxis 3 t
      epoch := epoch, cstate := 0, caxis := BitVec.ofNat 2 f.1, applying := false, wave := BitVec.ofNat 4 (f.1 / 4)
      lastWave := BitVec.ofNat 4 (f.1 / 64), seqValid := false, applySeq := BitVec.ofNat 16 (f.1 / 1024)
      lastDone := d.hlk.lastDone, target := BitVec.ofNat 48 (f.1 / 2 ^ 26) }
    let r : Beat × Dev := match d.hlk.commit with
      | none => (base, d)
      | some c =>
        match composeCommit c seq (d.beatAxis c.req.axis.val t) d.now with
        | none =>
          let d := d.leadOver c
          ({ base with lastDone := d.hlk.lastDone, epoch := c.epoch }, d)
        | some k =>
          let n := k.next
          let b := { base with
            epoch := c.epoch, cstate := BitVec.ofNat 2 k.cstate, caxis := BitVec.ofNat 2 c.req.axis.val, applying := k.applying
            wave := if k.applying then BitVec.ofNat 4 k.wave else base.wave
            lastWave := if k.cstate = 2 then BitVec.ofNat 4 n.lastWave else base.lastWave
            seqValid := k.seqValid, applySeq := if k.seqValid then n.applySeq else base.applySeq
            target := if k.cstate = 2 && !c.req.next then c.req.target else base.target }
          let first := k.cstate = 3 && !c.told
          let d := d.setLead (some n)
          (b, if first then d.tellCancel n else d)
    let b := r.1
    let d := r.2
    let d := { d with hlk := { d.hlk with lastSeq := seq, expect := some t, beats := d.hlk.beats ++ [b] } }
    let d := d.sendBeat b []
    if ends then d else d.takeCommit b

/-! ### Receiving a beat (R79, R85, R88, R89, R91, R92, R94, R121) -/

/-- A follower joins, from UNJOINED, LOST or HERD_COAST (R92, R94, R109). -/
def Dev.joinHerd (d : Dev) (b : Beat) (phase : Int) (step : Bool) : Dev :=
  let d := d.setHerdState 1
  let d := if step then d.stepTime phase else d
  d.checkEpoch b.lastDone

/-- The herd state after a good beat from upstream with a phase error in 1/64 ns (R94). -/
def Dev.goodBeat (d : Dev) (b : Beat) (phase : Int) : Dev :=
  let near := decide (-128 ≤ phase) && decide (phase ≤ 128)
  match d.herdState with
  | 0 => if d.hlk.numbered then d.joinHerd b phase true else d
  | 4 => d.joinHerd b phase true
  | 3 => if near then d.setHerdState 2 else d.joinHerd b phase false
  | 1 =>
    let n := if near then d.hlk.goodRun + 1 else 0
    let d := { d with hlk := { d.hlk with goodRun := n } }
    if 16 ≤ n then d.setHerdState 2 else d
  | _ => d

/-- One more beat missed upstream (R94, R121): HERD_COAST, LOST at 32 in a row, failover at four while good ones
arrive on the alternative. (Log entries 41 DEDUCED, 42 DEDUCED.) -/
def Dev.missBeat (d : Dev) : Dev :=
  let n := d.hlk.missed + 1
  let d := { d with hlk := { d.hlk with missed := n, goodRun := 0, expect := d.hlk.expect.map (· + 1024) } }
  let d := if d.herdState = 1 || d.herdState = 2 then d.setHerdState 3 else d
  if 32 ≤ n then d.setHerdState 4
  else
    match d.usableAlt with
    | some q => if 4 ≤ n && 1 ≤ d.hlk.altGood then d.failover q else d
    | none => d

/-- BEAT_MISSED (R94): the beat expected has not come by its instant less 1,024 ns. (Log entry 41 DEDUCED.) -/
def beatMissedOp (d : Dev) : Dev :=
  match d.hlk.expect with
  | some t =>
    if d.hlkOn && (d.herdState = 1 || d.herdState = 2 || d.herdState = 3) && atOrPast d.now (t - 1024) then d.missBeat else d
  | none => d

/-- In JOINING and LOCKED the time stamp is corrected by steering within 200 ppm; the loop's law is open, and HERD_COAST holds
what it left (R92, R95). (Log entry 44 DESIGN CHOICE.) -/
def Dev.steerClock (d : Dev) : Dev :=
  if d.herdState = 1 || d.herdState = 2 then
    let f := d.free
    { f.2 with hlk := { f.2.hlk with steer := (f.1 % 400001 : Nat) - (200000 : Int) } }
  else d

/-- A good beat from upstream: delays, phase, state, the commit, and the beat forwarded (R85, R91).
(Log entries 39 DEDUCED, 40 DESIGN CHOICE.) -/
def Dev.upBeat (d : Dev) (p : Nat) (b : Beat) (frac : BitVec 6) (residence : Nat) : Dev :=
  let delay := b.corr.toNat + d.rdF .hlkPortpDelay p 15 0
  let phase : Int := (d.now - (b.time - 4096)).toInt * 64 + frac.toNat - delay
  let fits := decide (-32768 ≤ phase) && decide (phase ≤ 32767)
  let e := if fits then ((wordOfInt phase).toNat, d) else d.free
  let d := (e.2.wrF .hlkPhaseErr 0 15 0 e.1).wrF .hlkPathDelay 0 31 0 delay
  let d := { d with hlk := { d.hlk with phase := phase, missed := 0, altGood := 0 } }
  let d := ((d.notePeer p b.sender.toNat b.depth.toNat).goodBeat b phase).steerClock
  let d := { d with hlk := { d.hlk with lastSeq := b.seq, expect := some (b.time + 1024), beats := d.hlk.beats ++ [b] } }
  let d := d.sendBeat { b with corr := BitVec.ofNat 32 (delay + residence), sender := BitVec.ofNat 10 d.devNum,
                               depth := BitVec.ofNat 3 (d.rdF .hlkStat 0 31 29) } [p]
  if d.herdState = 0 || d.herdState = 4 then d else d.takeCommit b

/-- A good beat on the alternative upstream: what it says of the peer, and failover where four have been missed upstream or
the herd is LOST (R94, R120, R121). (Log entry 42 DEDUCED.) -/
def Dev.altBeat (d : Dev) (p : Nat) (b : Beat) (frac : BitVec 6) (residence : Nat) : Dev :=
  let d := (d.notePeer p b.sender.toNat b.depth.toNat).judgeAlt p
  let d := { d with hlk := { d.hlk with altGood := d.hlk.altGood + 1 } }
  if d.usableAlt = some p && (d.herdState = 4 || (4 ≤ d.hlk.missed && d.herdState = 3)) then
    (d.failover p).upBeat p b frac residence
  else d

/-- BEAT: checked first on every device (R89); on a lead a good one is a conflict (R79). (Log entry 41 DEDUCED.) -/
def beatOp (p : Nat) (f : BeatFrame) (frac : BitVec 6) (residence : Nat) (d : Dev) : Dev :=
  if !d.hlkOn || (d.portState p ≠ 2 && d.portState p ≠ 3) then d
  else
    let up := d.follower && d.hlk.numbered && p = d.upPort
    if !frameGood f (d.portVersion p) then
      let d := d.satF .hlkLostBeats 0 31 0 1
      let d := if frameCrc f then d else d.portError p 15 0 1
      if up && d.hlk.expect.isSome then d.missBeat else d
    else
      let b := beatOfBlocks f.blocks
      if !d.follower then ((d.wrB .hlkStat 0 38 true).raise 439).setPortState p 5
      else if up then d.upBeat p b frac residence
      else if d.altPort = some p && d.portState p = 3 then d.altBeat p b frac residence
      else d

/-! ### The instant of a beat (R48, R87, R88) -/

/-- A herd-sourced axis takes the lead's at the beat's instant; an axis in FAULT by a lost herd position stays there until
RESTART (R31, R48). In ACQUIRE a beat is an accepted edge where its POS is not the previous one (R88).
(Log entries 23 DEDUCED, 43 DEDUCED.) -/
def Dev.herdAxis (d : Dev) (a : Nat) (b : Beat) : Dev :=
  let k := (d.axis a).main
  let x := b.axisOf (d.rdF .sprAxnCtl a 3 2)
  if k.st = .fault && (d.axis a).cause = 5 then d
  else
    let st := axStateOf x.st.toNat
    let v := wordOfInt (x.vel.toInt * 256)
    let d := if st = .fault && k.st ≠ .fault then d.setCause a .main 0 else d
    let coastPos := if st = .coast && k.st ≠ .coast then x.pos else k.coastPos
    let d := (d.forGens a Dev.settleGen).moveAxis a
      { k with st := st, p := x.pos, v := v, a := 0, t := b.time, fwd := !x.back, coastPos := coastPos }
    if st = .acquire && x.pos = k.p then d else (d.forGens a Dev.edgeGen).freshenActs a

/-- A beat's instant: HLK_BEAT_SEQ, and on a follower the axes that follow the herd. (Log entry 39 DEDUCED.) -/
def Dev.beatInstant (d : Dev) (b : Beat) : Dev :=
  let d := { d.wr .hlkBeatSeq 0 (wordOf b.seq.toNat) with hlk := { d.hlk with lastBeat := some b } }
  if d.isLead || d.herdState = 0 || d.herdState = 4 then d
  else forUpTo 4 (fun a d => if d.axisHerd a && d.rdB .sprAxnCtl a 0 then d.herdAxis a b else d) d

/-- The nanoseconds by which the time stamp advances in one of the reference: one, and now and then one more or less as the
steering gathers (R92). (Log entry 44 DESIGN CHOICE.) -/
def Dev.steerTick (d : Dev) : Int × Dev :=
  let a := d.hlk.steerAcc + d.hlk.steer
  let k : Int := if 1000000000 ≤ a then 1 else if a ≤ -1000000000 then -1 else 0
  (1 + k, { d with hlk := { d.hlk with steerAcc := a - k * 1000000000 } })

/-- The beats whose instant has come. (Log entry 5 DESIGN CHOICE.) -/
def Dev.passBeats (d : Dev) : Dev :=
  if d.domOn 9 then
    let due := d.hlk.beats.filter (fun b => atOrPast d.now b.time)
    let d := { d with hlk := { d.hlk with beats := d.hlk.beats.filter (fun b => !atOrPast d.now b.time) } }
    due.foldl Dev.beatInstant d
  else d

end Sys2Proof.Machine
end

