-- ==== Sys2Proof/Machine/Bop.lean ====
section
/-! DEFINITION. The Brynlar Object Protocol and the field network ports (R551–R568, R571, R572, R576). Each record operation
leaves its status and sub-code in `reply` and its response data in `dict.data`; a frame gathers them into a response. -/

namespace Sys2Proof.Machine

/-! ### Sessions -/

/-- Session n of a path. -/
def Dev.session (d : Dev) (x : BopPath) (n : Nat) : Option Session :=
  d.dict.sessions.find? (fun (s : Session) => decide (s.path = x) && s.num = n)

/-- Session n of a path changed. -/
def Dev.mapSession (d : Dev) (x : BopPath) (n : Nat) (f : Session → Session) : Dev :=
  { d with dict := { d.dict with sessions := d.dict.sessions.map (fun (s : Session) =>
      if s.path = x ∧ s.num = n then f s else s) } }

/-- A record completes: status, sub-code and response data. -/
def Dev.say (d : Dev) (st sub : Nat) (data : List Byte := []) : Dev :=
  { d with reply := (st, sub), dict := { d.dict with data := data } }

/-- The largest frame of a path (R551). (Log entry 141 DEDUCED.) -/
def largestFrame (x : BopPath) : Nat := if isEth x then 1452 else 65536

/-- The path is there (R551): PD12 on, the function attached, the core running, or waiting in WFE; Goatherd runs. -/
def Dev.pathUp (d : Dev) (x : BopPath) : Bool :=
  d.powered && !d.ghd.pllHeld &&
    match x with
    | .eth _ => d.domOn 12
    | .mailbox f => d.attached f.val
    | .core k => d.domOn 17 && (d.rdF .ctlCorekCtl k.val 3 2 = 1 || d.rdF .ctlCorekCtl k.val 3 2 = 2)

/-- A session opens on a path with a number that no open session has; which one is free (R559).
(Log entry 137 DESIGN CHOICE.) -/
def Dev.openSession (d : Dev) (x : BopPath) (src : HostAddr) (minor : Nat) : Nat × Dev :=
  let f := d.free
  let cand := (List.range 64).map (fun i => (f.1 + i) % 65535 + 1)
  let n := (cand.find? (fun n => d.dict.sessions.all (fun (s : Session) => s.num ≠ n))).getD 1
  let s : Session := { path := x, num := n, minor := minor, src := src, heard := d.now }
  let d := { f.2 with dict := { f.2.dict with sessions := f.2.dict.sessions ++ [s] } }
  (n, d.refreshSessions.raise 804)

/-- CONNECT (R559): the number of the session opened, 0 for none. On the mailbox and control-core paths it closes the path's previous
session whatever comes of it. -/
def Dev.connect (d : Dev) (x : BopPath) (src : HostAddr) (lo hi : Nat) : Nat × Dev :=
  let d := if isEth x then d else d.closeSessions (fun s => decide (s.path = x))
  if hi < lo || 0x12 < lo || hi < 0x10 then (0, d.say 0x10 0x38)
  else if isEth x && decide (16 ≤ (d.dict.sessions.filter (fun (s : Session) => decide (s.path = x))).length) then
    (0, d.say 0x38 0x31)
  else
    let agreed := min hi 0x12
    let r := d.openSession x src (agreed % 16)
    (r.1, r.2.say 0 0 (bytesOfNat 2 agreed ++ bytesOfNat 2 (if isEth x then 10 else 0) ++ bytesOfNat 4 (largestFrame x)))

/-- CONNECT sent on a path. -/
def connectOp (x : BopPath) (src : HostAddr) (lo hi : BitVec 8) (d : Dev) : Dev :=
  if d.pathUp x then (d.connect x src lo.toNat hi.toNat).2 else d

/-- CLOSE (R561). -/
def Dev.close (d : Dev) (s : Session) : Dev :=
  (d.closeSessions (fun t => decide (t.path = s.path) && t.num = s.num)).say 0 0

/-- A record of session n of a path, by itself: the path is up and the session open, or it is refused (R556).
(Log entry 140 DEDUCED.) -/
def Dev.inSession (d : Dev) (x : BopPath) (n : Nat) (f : Session → Dev → Dev) : Dev :=
  if !d.pathUp x then d
  else
    match d.session x n with
    | none => d.say 0x10 0x31
    | some s => f s (d.mapSession x n (fun s => { s with heard := d.now }))

/-! ### The write list (R565) -/

/-- An address matches an entry of the write list. -/
def entryMatches (a : HostAddr) (e : List Byte) : Bool :=
  let n := (e.getD 1 0).toNat
  let w := if a.v6 then 128 else 32
  let v := ((e.drop 2).take (w / 8)).foldl (fun m (b : Byte) => 256 * m + b.toNat) 0
  decide ((e.getD 0 0).toNat = if a.v6 then 6 else 4) && a.addr >>> (w - n) = v >>> (w - n)

/-- A session may write: on the field network its source stands in the write list. (Log entry 139 DEDUCED.) -/
def Dev.mayWrite (d : Dev) (s : Session) : Bool := !isEth s.path || d.writeList.any (entryMatches s.src)

/-- The refusal as a record completes with it. -/
def Dev.refuse (d : Dev) (x : BopPath) : Dev := (d.deny x).say 0x10 0x35

/-! ### Records (R552, R558, R562, R571, R572, R576) -/

/-- An object that a record may name now (R546, R552): before READY and in FAILED only identity and status. -/
def Dev.withObj (d : Dev) (o : ObjName) (read : Bool) (f : Obj → Dev) : Dev :=
  let i := o.index.toNat
  if !d.dictReady && !(read && (i = 0x1000 || i = 0x1001)) then d.say 0x38 0x30
  else
    match objOf i o.sub.toNat with
    | none => d.say 0x21 0x30
    | some x => f x

/-- TYPE is the object's, and the operation suits it: `seg` for those of DOM and TBL objects (R558, R563). -/
def Dev.withType (d : Dev) (o : ObjName) (x : Obj) (seg : Bool) (f : Dev) : Dev :=
  if o.typ.toNat ≠ x.typ then d.say 0x10 0x34
  else if (x.typ = tDom || x.typ = tTbl) ≠ seg then d.say 0x10 0x36
  else f

/-- READ. -/
def Dev.readRec (d : Dev) (o : ObjName) : Dev :=
  d.withObj o true fun x => d.withType o x false (
    let r := d.readValue o.index.toNat o.sub.toNat x
    r.2.2.say (r.1 % 256) (r.1 / 256) r.2.1)

/-- WRITE. -/
def Dev.writeRec (d : Dev) (s : Session) (o : ObjName) (bs : List Byte) : Dev :=
  if !d.dictReady then d.say 0x38 0x30
  else if !d.mayWrite s then d.refuse s.path
  else d.withObj o false fun x => d.withType o x false ((d.say 0 0).writeObject s.path o.index.toNat o.sub.toNat x bs)

/-- READ_SEG: `room` bounds the bytes that the response frame still holds. Offset 0 takes a snapshot.
(Log entry 142 DEDUCED.) -/
def Dev.readSegRec (d : Dev) (s : Session) (o : ObjName) (off len room : Nat) : Dev :=
  d.withObj o true fun x => d.withType o x true (
    let key := 256 * o.index.toNat + o.sub.toNat
    let part (v : List Byte) (d : Dev) : Dev :=
      d.say 0 0 (bytesOfNat 4 off ++ bytesOfNat 4 v.length ++ ((v.drop off).take (min len room)))
    if off = 0 then
      let r := d.readValue o.index.toNat o.sub.toNat x
      if r.1 ≠ 0 then r.2.2.say (r.1 % 256) (r.1 / 256)
      else part r.2.1 (r.2.2.mapSession s.path s.num (fun s => { s with snaps := tset s.snaps key r.2.1 }))
    else
      match (d.session s.path s.num).bind (fun (t : Session) => tfind t.snaps key) with
      | some v => part v d
      | none => d.say 0x10 0x37)

/-- The bytes a session holds of an object (R562). -/
def Dev.heldSeg (d : Dev) (s : Session) (key : Nat) : List Byte :=
  match (d.session s.path s.num).bind (fun (t : Session) => t.segs.find? (fun (g : SegWrite) => g.key = key)) with
  | some g => g.bytes
  | none => []

/-- The unfinished transfer of an object in a session replaced, or dropped. -/
def Dev.setSeg (d : Dev) (s : Session) (key : Nat) (bs : Option (List Byte)) : Dev :=
  d.mapSession s.path s.num (fun s =>
    let rest := s.segs.filter (fun (g : SegWrite) => g.key ≠ key)
    { s with segs := match bs with
        | some b => rest ++ [{ key := key, bytes := b, last := d.now }]
        | none => rest })

/-- A session holds an unfinished transfer of an object. -/
def Dev.hasSeg (d : Dev) (s : Session) (key : Nat) : Bool :=
  ((d.session s.path s.num).map (fun (t : Session) => t.segs.any (fun (g : SegWrite) => g.key = key))).getD false

/-- WRITE_SEG of 9000h.2: the session's transfer lies in flash already, so the session holds only that it is unfinished (R562,
R597). (Log entry 216 DESIGN CHOICE.) -/
def Dev.imageSeg (d : Dev) (s : Session) (last : Bool) (off : Nat) (bs : List Byte) : Dev :=
  if off ≠ 0 && !d.hasSeg s 0x900002 then d.say 0x10 0x37
  else
    let r := imageWriteOp last off bs (d.say 0 0)
    if r.reply.1 ≠ 0 then r
    else
      let r := if last then r else r.setSeg s 0x900002 (some [])
      r.say 0 0 (bytesOfNat 4 (off + bs.length))

/-- WRITE_SEG: segments gather in the session, and LAST makes one write of them; an image goes to flash as it comes (R597).
(Log entry 142 DEDUCED.) -/
def Dev.writeSegRec (d : Dev) (s : Session) (o : ObjName) (last : Bool) (off : Nat) (bs : List Byte) : Dev :=
  if !d.dictReady then d.say 0x38 0x30
  else if last && !d.mayWrite s then d.refuse s.path
  else d.withObj o false fun x => d.withType o x true (
    let key := 256 * o.index.toNat + o.sub.toNat
    let held := if off = 0 then [] else d.heldSeg s key
    let all := held ++ bs
    if key = 0x900002 then d.imageSeg s last off bs
    else if off ≠ held.length then d.say 0x10 0x37
    else if !last then (d.setSeg s key (some all)).say 0 0 (bytesOfNat 4 all.length)
    else
      let r := ((d.setSeg s key none).say 0 0).writeObject s.path o.index.toNat o.sub.toNat x all
      r.say r.reply.1 r.reply.2 (bytesOfNat 4 all.length))

/-- COMMIT_REQ goes to the lead (R97, R572): this device's own lead, or up the tree; LINK_DOWN where the way is not UP.
(Log entry 143 DEDUCED.) -/
def Dev.sendCommit (d : Dev) (m : CommitReq) : Dev :=
  let d := { d with commit := { d.commit with state := 1, tag := m.tag } }
  if d.isLead || d.portState d.upPort = 2 then commitReqOp m d else d.commitLinkDown

/-- COMMIT (R571, R572). (Log entries 119 DEDUCED, 142 DEDUCED.) -/
def Dev.commitRec (d : Dev) (s : Session) (bs : List Byte) : Dev :=
  let mode := natOfBytes (bs.take 1)
  let axis := natOfBytes ((bs.drop 1).take 1)
  let target := natOfBytes ((bs.drop 4).take 6)
  let tag := (bs.drop 12).take 4
  if !d.dictReady then d.say 0x38 0x30
  else if !d.mayWrite s then d.refuse s.path
  else if bs.length ≠ 16 then d.say 0x10 0x34
  else if mode = 1 && s.minor < 2 then d.say 0x10 0x30
  else if natOfBytes ((bs.drop 2).take 2) ≠ 0 || natOfBytes ((bs.drop 10).take 2) ≠ 0 then d.say 0x12 0 tag
  else if 1 < mode || (mode = 1 && (axis ≠ 0 || target ≠ 0)) then d.say 0x21 0x31 tag
  else if h : axis < 4 then
    if d.commit.state = 1 then d.say 0x38 0x33 tag
    else if d.herdState = 0 || d.herdState = 4 then d.say 0x38 0x34 tag
    else (d.sendCommit { requester := d.devNum, tag := BitVec.ofNat 32 (natOfBytes tag), next := mode = 1, axis := ⟨axis, h⟩,
                         target := BitVec.ofNat 48 target }).say 0 0 tag
  else d.say 0x21 0x31 tag

/-- DISCARD (R576). -/
def Dev.discardRec (d : Dev) (s : Session) : Dev :=
  if !d.dictReady then d.say 0x38 0x30
  else if !d.mayWrite s then d.refuse s.path
  else if d.hlk.frozen.isSome then d.say 0x38 0x32 (bytesOfNat 4 0)
  else
    let n := d.dict.pending.length
    ({ d with dict := { d.dict with pending := [] } }).refreshSet.say 0 0 (bytesOfNat 4 n)

/-- The access code of DESCRIBE (R558). -/
def Acc.code : Acc → Nat
  | .ro => 0 | .rw => 1 | .rws => 2 | .wo => 3 | .const => 4

/-- DESCRIBE, from version 1.1. (Log entry 119 DEDUCED.) -/
def Dev.describeRec (d : Dev) (s : Session) (o : ObjName) : Dev :=
  if s.minor < 1 then d.say 0x10 0x30
  else d.withObj o true fun x =>
    d.say 0 0 (bytesOfNat 1 x.typ ++ bytesOfNat 1 x.acc.code ++
      bytesOfNat 2 (x.stop.toNat + 2 * x.kept.toNat + 4 * x.en.toNat) ++ bytesOfNat 4 (typeBytes x.typ))

/-- Bytes of data that a response of one record holds. (Log entry 142 DEDUCED.) -/
def roomOf (x : BopPath) : Nat := largestFrame x - 28

/-- CLOSE on a path. -/
def closeOp (x : BopPath) (n : Nat) (d : Dev) : Dev := d.inSession x n fun s d => d.close s
/-- READ on a path. (Log entry 140 DEDUCED.) -/
def readOp (x : BopPath) (n : Nat) (o : ObjName) (d : Dev) : Dev := d.inSession x n fun _ d => d.readRec o
/-- WRITE on a path. (Log entry 140 DEDUCED.) -/
def writeOp (x : BopPath) (n : Nat) (o : ObjName) (bs : List Byte) (d : Dev) : Dev :=
  d.inSession x n fun s d => d.writeRec s o bs
/-- READ_SEG on a path. (Log entry 140 DEDUCED.) -/
def readSegOp (x : BopPath) (n : Nat) (o : ObjName) (off len : Nat) (d : Dev) : Dev :=
  d.inSession x n fun s d => d.readSegRec s o off len (roomOf x - 8)
/-- WRITE_SEG on a path. (Log entry 140 DEDUCED.) -/
def writeSegOp (x : BopPath) (n : Nat) (o : ObjName) (last : Bool) (off : Nat) (bs : List Byte) (d : Dev) : Dev :=
  d.inSession x n fun s d => d.writeSegRec s o last off bs
/-- COMMIT on a path. (Log entry 140 DEDUCED.) -/
def commitOp (x : BopPath) (n : Nat) (bs : List Byte) (d : Dev) : Dev := d.inSession x n fun s d => d.commitRec s bs
/-- DISCARD on a path. (Log entry 140 DEDUCED.) -/
def discardOp (x : BopPath) (n : Nat) (d : Dev) : Dev := d.inSession x n fun s d => d.discardRec s
/-- DESCRIBE on a path. (Log entry 140 DEDUCED.) -/
def describeOp (x : BopPath) (n : Nat) (o : ObjName) (d : Dev) : Dev := d.inSession x n fun s d => d.describeRec s o

/-- SESSION_TIMEOUT (R561): 10 s without a request on a field network session. -/
def sessionTimeoutOp (x : BopPath) (n : Nat) (d : Dev) : Dev :=
  match d.session x n with
  | some s =>
    if isEth x && decide (10000000000 ≤ elapsed d.now s.heard) then
      d.closeSessions (fun t => decide (t.path = x) && t.num = n)
    else d
  | none => d

/-- SEGMENT_TIMEOUT (R562). (Log entry 2 DESIGN CHOICE.) -/
def segmentTimeoutOp (x : BopPath) (n index sub : Nat) (d : Dev) : Dev :=
  d.mapSession x n (fun s => { s with segs := s.segs.filter (fun (g : SegWrite) =>
    !(g.key = 256 * index + sub && decide (10000000000 ≤ elapsed d.now g.last))) })

/-! ### Frames (R553–R557, R560) -/

/-- A request record (R557). -/
structure BopRec where
  op : Nat
  flags : Nat
  obj : ObjName
  data : List Byte
  deriving DecidableEq, Repr

/-- The n records of a frame, none where they do not fill it exactly. (Log entry 138 DEDUCED.) -/
def parseRecs : Nat → List Byte → Option (List BopRec)
  | 0, bs => if bs = [] then some [] else none
  | n + 1, bs =>
    let len := natOfBytes ((bs.drop 6).take 2)
    if bs.length < 8 + len then none
    else
      let r : BopRec := { op := natOfBytes (bs.take 1), flags := natOfBytes ((bs.drop 1).take 1),
                          obj := { index := BitVec.ofNat 16 (natOfBytes ((bs.drop 2).take 2)),
                                   sub := bs.getD 4 0, typ := bs.getD 5 0 },
                          data := (bs.drop 8).take len }
      (parseRecs n (bs.drop (8 + len))).map (fun l => r :: l)

/-- A response record: what `reply` and `dict.data` hold. -/
def recBytes (op : Nat) (o : ObjName) (st sub : Nat) (data : List Byte) : List Byte :=
  bytesOfNat 1 op ++ bytesOfNat 1 st ++ bytesOfNat 2 o.index.toNat ++ bytesOfNat 1 o.sub.toNat ++ bytesOfNat 1 sub ++
    bytesOfNat 2 data.length ++ data

/-- A response frame (R555). -/
def frameBytes (ver session seq : Nat) (recs : List (List Byte)) : List Byte :=
  let body := recs.flatten
  let h := bytesOfNat 1 ver ++ bytesOfNat 1 1 ++ bytesOfNat 2 session ++ bytesOfNat 4 seq ++ bytesOfNat 2 recs.length ++
    bytesOfNat 2 0 ++ bytesOfNat 4 (20 + body.length) ++ body
  h ++ bytesOfNat 4 (crc32c h).toNat

/-- A record that names no object. -/
def noObj (o : ObjName) : Bool := o.index = 0 && o.sub = 0 && o.typ = 0

/-- A record that may be executed before READY and in FAILED (R552). -/
def BopRec.early (r : BopRec) : Bool :=
  r.op = 1 || r.op = 2 || ((r.op = 0x10 || r.op = 0x12 || r.op = 0x30) && (r.obj.index = 0x1000 || r.obj.index = 0x1001))

/-- One record of a frame. -/
def Dev.execRec (d : Dev) (s : Session) (r : BopRec) (room : Nat) : Dev :=
  let off := natOfBytes (r.data.take 4)
  let d := d.say 0 0
  let free_ := r.op = 1 || r.op = 2 || r.op = 0x20 || r.op = 0x21
  if !d.dictReady && !r.early then d.say 0x38 0x30
  else if !(r.op = 1 || r.op = 2 || (0x10 ≤ r.op && r.op ≤ 0x13) || r.op = 0x20 || r.op = 0x21 ||
      (r.op = 0x30 && 1 ≤ s.minor)) then d.say 0x10 0x30
  else if 2 ≤ r.flags || (free_ && !noObj r.obj) then d.say 0x12 0
  else if (r.op = 2 || r.op = 0x10 || r.op = 0x21 || r.op = 0x30) && r.data ≠ [] then d.say 0x10 0x34
  else if (r.op = 0x12 && r.data.length ≠ 8) || (r.op = 0x13 && r.data.length < 4) then d.say 0x10 0x34
  else
    match r.op with
    | 0x01 => d.say 0x10 0x31
    | 0x02 => d.close s
    | 0x10 => d.readRec r.obj
    | 0x11 => d.writeRec s r.obj r.data
    | 0x12 => d.readSegRec s r.obj off (natOfBytes (r.data.drop 4)) (room - 8)
    | 0x13 => d.writeSegRec s r.obj (r.flags = 1) off (r.data.drop 4)
    | 0x20 => d.commitRec s r.data
    | 0x21 => d.discardRec s
    | _ => d.describeRec s r.obj

/-- The records of a frame in order: their responses. (Log entry 139 DEDUCED.) -/
def Dev.execRecs (s : Session) : List BopRec → Nat → Dev → List (List Byte) × Dev
  | [], _, d => ([], d)
  | r :: rs, room, d =>
    let d := d.execRec s r room
    let b := recBytes r.op r.obj d.reply.1 d.reply.2 d.dict.data
    let y := Dev.execRecs s rs (room - d.dict.data.length) d
    (b :: y.1, y.2)

/-- A name that no record gives. -/
def noName : ObjName := { index := 0, sub := 0, typ := 0 }

/-- A response of one record, OP 00h unless given. (Log entry 138 DEDUCED.) -/
def oneRec (ver session seq st sub : Nat) (op : Nat := 0) : List Byte :=
  frameBytes ver session seq [recBytes op noName st sub []]

/-- A frame that stands alone as CONNECT: SESSION 0, one record. -/
def connectFrame (session : Nat) (recs : List BopRec) : Bool :=
  session = 0 && match recs with
    | [r] => r.op = 1
    | _ => false

/-- CONNECT in a frame. (Log entry 139 DEDUCED.) -/
def Dev.connectRec (d : Dev) (x : BopPath) (src : HostAddr) (ver seq : Nat) (r : BopRec) : List Byte × Dev :=
  if r.flags ≠ 0 || !noObj r.obj then (oneRec ver 0 seq 0x12 0 1, d.say 0x12 0)
  else if r.data.length ≠ 2 then (oneRec ver 0 seq 0x10 0x34 1, d.say 0x10 0x34)
  else
    let y := d.connect x src (r.data.getD 0 0).toNat (r.data.getD 1 0).toNat
    let d := y.2
    let v := if y.1 = 0 then ver else natOfBytes (d.dict.data.take 1)
    let out := frameBytes v y.1 seq [recBytes 1 noName d.reply.1 d.reply.2 d.dict.data]
    (out, d.mapSession x y.1 (fun s => { s with seq := seq, kept := out }))

/-- A whole frame that is not bad, of an open session or a CONNECT: the response (R559, R560). -/
def Dev.goodFrame (d : Dev) (x : BopPath) (src : HostAddr) (bs : List Byte) (recs : List BopRec) : List Byte × Dev :=
  let ver := natOfBytes (bs.take 1)
  let n := natOfBytes ((bs.drop 2).take 2)
  let seq := natOfBytes ((bs.drop 4).take 4)
  if (bs.getD 1 0 ≠ 0) || natOfBytes ((bs.drop 10).take 2) ≠ 0 then (oneRec ver n seq 0x12 0, d)
  else if connectFrame n recs then
    match recs with
    | r :: _ => d.connectRec x src ver seq r
    | [] => ([], d)
  else
    match d.session x n with
    | none => ([], d)
    | some s =>
      let d := d.mapSession x n (fun s => { s with heard := d.now })
      if seq = s.seq then (s.kept, d)
      else if seq ≠ (s.seq + 1) % 2 ^ 32 then (oneRec (16 + s.minor) n seq 0x10 0x32, d)
      else
        let y := Dev.execRecs s recs (largestFrame x - 20 - 8 * recs.length) d
        let out := frameBytes (16 + s.minor) n seq y.1
        (out, y.2.mapSession x n (fun s => { s with seq := seq, kept := out }))

/-- The records of a frame that is not bad (R556), none for a bad one; `n` bytes came. (Log entry 138 DEDUCED.) -/
def Dev.checkFrame (d : Dev) (x : BopPath) (bs : List Byte) : Option (List BopRec) :=
  let len := bs.length
  let nrec := natOfBytes ((bs.drop 8).take 2)
  let session := natOfBytes ((bs.drop 2).take 2)
  if len < 20 || largestFrame x < len || natOfBytes ((bs.drop 12).take 4) ≠ len || (bs.getD 0 0).toNat / 16 ≠ 1 ||
      (crc32c (bs.take (len - 4))).toNat ≠ natOfBytes (bs.drop (len - 4)) || nrec = 0 || 1024 < nrec then none
  else
    match parseRecs nrec ((bs.drop 16).take (len - 20)) with
    | none => none
    | some recs => if connectFrame session recs || (d.session x session).isSome then some recs else none

/-- A frame on a path: the response, none for a bad frame of the field network, which is discarded and counted.
(Log entry 138 DEDUCED.) -/
def Dev.frame (d : Dev) (x : BopPath) (src : HostAddr) (bs : List Byte) : Option (List Byte) × Dev :=
  match d.checkFrame x bs with
  | some recs =>
    let y := d.goodFrame x src bs recs
    (some y.1, y.2)
  | none =>
    match x with
    | .eth p => (none, d.ethError p.val 31 16)
    | _ => (some (oneRec (natOfBytes (bs.take 1)) (natOfBytes ((bs.drop 2).take 2)) (natOfBytes ((bs.drop 4).take 4)) 0x10 0x31),
            d)

/-! ### The carriers (R482, R483, R551, R554) -/

/-- A frame leaves by an ETH port, to a MAC address. (Log entry 145 DEDUCED.) -/
def Dev.ethSend (d : Dev) (p : Nat) (mac : BitVec 48) (x : EthBody) : Dev :=
  (d.wrapF .ethPpTx p 31 0 1).emit (.ethFrame p { dest := mac, source := Config.macAddress p, body := x })

/-- A frame of the field network to an address of the port: the response goes from that address to the sender's (R564). -/
def Dev.ethBop (d : Dev) (p : Fin 2) (x : EthPeer) (bs : List Byte) : Dev :=
  let y := d.frame (.eth p) x.src bs
  match y.1 with
  | some out => y.2.ethSend p.val x.mac (.bop x.dst x.src out)
  | none => y.2

/-- No source address: the other paths. -/
def noAddr : HostAddr := { v6 := false, addr := 0 }

/-- Bytes of SRAM from a word address on: none where a word cannot be read. -/
def Dev.sramBytes (d : Dev) (a n : Nat) : Option (List Byte) × Dev :=
  let x := d.sramReads a ((n + 5) / 6)
  if x.2.1 = 0 then (some ((bytesOfWords x.1).take n), x.2.2) else (none, x.2.2)

/-- A frame in the mailbox of a function: the answer waits to be placed (R483). (Log entry 141 DEDUCED.) -/
def Dev.mailboxBop (d : Dev) (f : Fin 2) : Dev :=
  let m := d.mbx f.val
  if !d.attached f.val || !m.busy || m.answer.isSome then d
  else
    let r := d.sramBytes (mbxBase f.val false) m.reqLen
    let y := r.2.frame (.mailbox f) noAddr (r.1.getD [])
    y.2.setMbx f.val { y.2.mbx f.val with answer := y.1.map (fun o => o.take 65536) }

/-- The request frame of control core k, at the address its word names (R554): its own LEN says how long it is.
(Log entry 141 DEDUCED.) -/
def Dev.coreRequest (d : Dev) (a : Nat) : List Byte × Dev :=
  if !inProgram a 3 then ([], d)
  else
    let h := d.sramBytes a 18
    let len := natOfBytes (((h.1.getD []).drop 12).take 4)
    if 65536 < len || !inProgram a ((len + 5) / 6) then ((h.1.getD []), h.2)
    else
      let b := h.2.sramBytes a len
      (b.1.getD [], b.2)

/-- A frame of control core k (R554): executed where it has rung, the response placed, the ring acknowledged, SWk_31 set.
(Log entry 141 DEDUCED.) -/
def Dev.coreBop (d : Dev) (k : Fin 4) : Dev :=
  if !(d.source (256 + k.val)).sw then d
  else
    let w := d.sramReads (0x7A0FF8 + 2 * k.val) 2
    let q := w.2.2.coreRequest (fld (w.1.getD 0 0) 39 0)
    let y := q.2.frame (.core k) noAddr q.1
    let out := ((y.1.getD []).take 65536)
    let n := (out.length + 5) / 6
    let rsp := fld (w.1.getD 1 0) 39 0
    let d := if w.2.1 = 0 && inProgram rsp n then y.2.sramWrites rsp (wordsOfBytes n out) else y.2
    evcSetOp (64 * k.val + 31) (evcAckOp (256 + k.val) d)

/-- BOP_FRAME (R553, R564). -/
def bopFrameOp (x : BopCarrier) (d : Dev) : Dev :=
  match x with
  | .eth p peer bytes => if d.pathUp (.eth p) && d.portHas p.val peer.dst then d.ethBop p peer bytes else d
  | .mailbox f => if d.pathUp (.mailbox f) then d.mailboxBop f else d
  | .core k => if d.pathUp (.core k) then d.coreBop k else d

/-! ### The field network ports (R561, R564, R566) -/

/-- The answer of port p to a frame that it accepts, or none where it drops the frame (R564).
(Log entries 143 DEDUCED, 215 PRESUMED.) -/
def Dev.ethAccept (d : Dev) (p : Fin 2) (x : EthPayload) : Option (Dev → Dev) :=
  let send (b : EthBody) (d : Dev) : Dev := d.ethSend p.val x.source b
  match x.body with
  | .arpRequest src target =>
    some (if d.portHas p.val { v6 := false, addr := target.toNat } then send (.arpReply target src) else id)
  | .solicit src target =>
    some (if d.portHas p.val { v6 := true, addr := target.toNat } then send (.advertise target src) else id)
  | .arpReply _ _ | .advertise _ _ | .resolution | .ptp => some id
  | .echo src dst data => if d.portHas p.val dst then some (send (.echoReply dst src data)) else none
  | .bop src dst bytes =>
    if d.portHas p.val dst then
      some (fun d => if d.pathUp (.eth p) then d.ethBop p { mac := x.source, src := src, dst := dst } bytes else d)
    else none
  | .echoReply _ _ _ | .fragment | .other => none

/-- A frame is sent to port p: to a group or to its own MAC address. (Log entry 215 PRESUMED.) -/
def toPort (p : Nat) (mac : BitVec 48) : Bool := mac.getLsbD 40 || mac = Config.macAddress p

/-- ETH_FRAME (R564). (Log entries 143 DEDUCED, 215 PRESUMED.) -/
def ethFrameOp (p : Fin 2) (len : Nat) (fcsOk tagged : Bool) (x : EthPayload) (d : Dev) : Dev :=
  let i := p.val
  if !d.domOn 12 || !d.rdB .ethPpStat i 0 then d
  else if !fcsOk then d.ethError i 15 0
  else
    match (if tagged || decide (1518 < len) || !toPort i x.dest then none else d.ethAccept p x) with
    | some act => act (d.wrapF .ethPpRx i 31 0 1)
    | none => d.satF .ethPpRx i 47 32 1

/-- ETH_LINK_CHANGE (R561, R568): the sessions of a port that loses link close. -/
def ethLinkChangeOp (p : Nat) (up present : Bool) (d : Dev) : Dev :=
  if !d.domOn 12 then d
  else
    let was := d.rdB .ethPpStat p 0
    let d := (d.wrB .ethPpStat p 1 present).wrB .ethPpStat p 0 up
    if was = up then d
    else
      let d := d.raise (768 + p)
      if up then d else d.closeSessions (fun s => s.onPort p)

/-- PTP_SYNC (R566): ETH_PTP_OFS, the port that takes time, the grandmaster. (Log entry 144 PRESUMED.) -/
def ptpSyncOp (p : Nat) (time gm : BitVec 64) (d : Dev) : Dev :=
  if d.var 0x1120 1 ≠ 1 || !d.domOn 12 then d
  else
    let ofs := time - BitVec.setWidth 64 d.now
    let d := (d.wr .ethPtpOfsLo 0 (BitVec.setWidth 48 ofs)).wrF .ethPtpOfsHi 0 15 0 (ofs.toNat >>> 48)
    let d := (d.wrF .ethPtpStat 0 2 2 p).setPtpState 2
    { d with dict := { d.dict with gm := gm }, ghd := { d.ghd with ptpEver := true } }

end Sys2Proof.Machine
end

