-- ==== Sys2Proof/Machine/F48.lean ====
section
/-! DEFINITION. F48 arithmetic (R391–R399, R376, R377): the format, one rounding of an exact result, and the results and
sticky flags of every operation. Flags are the low five bits of FCSR: NV 16, DZ 8, OF 4, UF 2, NX 1. -/

namespace Sys2Proof.Machine

/-- What an F48 value is (R392): a finite one is sign, mantissa and exponent of its unit. -/
inductive F48 where
  | fin (neg : Bool) (m : Nat) (e : Int)
  | inf (neg : Bool)
  | qnan
  | snan
  deriving DecidableEq, Repr

/-- A word read as an F48 value (R391, R392). -/
def f48 (w : Word) : F48 :=
  let s := bit w 47
  let e := fld w 46 36
  let f := fld w 35 0
  if e = 0 then .fin s f (-1058)
  else if e < 2047 then .fin s (2 ^ 36 + f) ((e : Int) - 1059)
  else if f = 0 then .inf s
  else if bit w 35 then .qnan
  else .snan

/-- The canonical NaN. -/
def f48NaN : Word := 0x7FF800000000

/-- A zero, an infinity and the largest finite value of a sign. -/
def f48Zero (neg : Bool) : Word := setBit 0 47 neg

/-- An infinity. -/
def f48Inf (neg : Bool) : Word := setBit 0x7FF000000000 47 neg

/-- The largest finite value. -/
def f48Max (neg : Bool) : Word := setBit 0x7FEFFFFFFFFF 47 neg

/-- The rounding modes of FCSR.RM and func9 (R375). -/
inductive RMode where
  | rne | rtz | rup | rdn
  deriving DecidableEq, Repr

/-- The mode of an RM code. -/
def rmode (n : Nat) : RMode := match n with | 0 => .rne | 1 => .rtz | 2 => .rup | _ => .rdn

/-- The number of bits of n. -/
def bitLen (n : Nat) : Nat := if n = 0 then 0 else Nat.log2 n + 1

/-- (m + part) · 2^e, where 0 < part < 1 if `sticky` and part = 0 otherwise, rounded to a multiple of 2^q: the multiple, and
whether it differs (R393). -/
def roundTo (mode : RMode) (neg : Bool) (m : Nat) (e : Int) (sticky : Bool) (q : Int) : Nat × Bool :=
  if q ≤ e then
    let n := m <<< (e - q).toNat
    let up := sticky && ((mode = .rup && !neg) || (mode = .rdn && neg))
    (if up then n + 1 else n, sticky)
  else
    let k := (q - e).toNat
    let n := m >>> k
    let r := m % 2 ^ k
    let inexact := r ≠ 0 || sticky
    let half := 2 ^ (k - 1)
    let up := match mode with
      | .rne => r > half || (r = half && (sticky || n % 2 = 1))
      | .rtz => false
      | .rup => inexact && !neg
      | .rdn => inexact && neg
    (if up then n + 1 else n, inexact)

/-- An exact nonzero result rounded once, with its flags (R393–R397). With `sticky`, m has at least 40 bits. -/
def f48Round (mode : RMode) (neg : Bool) (m : Nat) (e : Int) (sticky : Bool) : Word × Nat :=
  let q := (bitLen m : Int) + e - 37
  let x := roundTo mode neg m e sticky q
  -- n · 2^q with 37 bits, or the next power of two
  let n := if x.1 = 2 ^ 37 then 2 ^ 36 else x.1
  let q := if x.1 = 2 ^ 37 then q + 1 else q
  if q + 36 > 1023 then
    (match mode with
      | .rne => f48Inf neg
      | .rtz => f48Max neg
      | .rup => if neg then f48Max true else f48Inf false
      | .rdn => if neg then f48Inf true else f48Max false, 5)
  else if q + 36 < -1022 then
    let y := roundTo mode neg m e sticky (-1058)
    (setBit (wordOf y.1) 47 neg, if y.2 then 3 else 0)
  else
    (setBit (setFld (wordOf (n - 2 ^ 36)) 46 36 (q + 36 + 1023).toNat) 47 neg, if x.2 then 1 else 0)

/-- A finite value rounded, a zero keeping the sign given. -/
def f48Fin (mode : RMode) (neg : Bool) (m : Nat) (e : Int) (sticky : Bool := false) : Word × Nat :=
  if m = 0 && !sticky then (f48Zero neg, 0) else f48Round mode neg m e sticky

/-- A signalling NaN among the operands. -/
def anySnan (l : List F48) : Bool := l.any (fun x => x = .snan)

/-- A NaN among the operands. -/
def anyNan (l : List F48) : Bool := l.any (fun x => x = .snan || x = .qnan)

/-- x with the sign inverted. -/
def F48.neg : F48 → F48
  | .fin s m e => .fin (!s) m e
  | .inf s => .inf (!s)
  | x => x

/-- The sum of two values, neither NaN (R394–R396, the tables FADD and FMA). -/
def f48Sum (mode : RMode) : F48 → F48 → Word × Nat
  | .inf s, .inf t => if s = t then (f48Inf s, 0) else (f48NaN, 16)
  | .inf s, _ => (f48Inf s, 0)
  | _, .inf t => (f48Inf t, 0)
  | .fin s m e, .fin t n f =>
    let q := min e f
    let a := m <<< (e - q).toNat
    let b := n <<< (f - q).toNat
    let i : Int := (if s then -(a : Int) else a) + (if t then -(b : Int) else b)
    if i = 0 then
      (if a = 0 && b = 0 && s = t then f48Zero s else f48Zero (mode = .rdn), 0)
    else f48Round mode (i < 0) i.natAbs q false
  | _, _ => (f48NaN, 0)

/-- FADD. -/
def fadd (mode : RMode) (a b : F48) : Word × Nat :=
  if anySnan [a, b] then (f48NaN, 16) else if anyNan [a, b] then (f48NaN, 0) else f48Sum mode a b

/-- FSUB: FADD of a and −b (R399). -/
def fsub (mode : RMode) (a b : F48) : Word × Nat := fadd mode a b.neg

/-- The product of two values, neither NaN, before rounding; none for 0 × ∞. -/
def f48Product : F48 → F48 → Option F48
  | .inf s, .inf t => some (.inf (s != t))
  | .inf s, .fin t n _ => if n = 0 then none else some (.inf (s != t))
  | .fin s m _, .inf t => if m = 0 then none else some (.inf (s != t))
  | .fin s m e, .fin t n f => some (.fin (s != t) (m * n) (e + f))
  | x, _ => some x

/-- FMUL. -/
def fmul (mode : RMode) (a b : F48) : Word × Nat :=
  if anySnan [a, b] then (f48NaN, 16) else if anyNan [a, b] then (f48NaN, 0)
  else match f48Product a b with
    | none => (f48NaN, 16)
    | some (.fin s m e) => f48Fin mode s m e
    | some (.inf s) => (f48Inf s, 0)
    | some _ => (f48NaN, 0)

/-- 1.0 / +M as the FDIV table has it (R399): 0008_0000_0000h, and one unit more where the mode rounds away from 0.
(Log entry 82 DEDUCED.) -/
def oneByMax (mode : RMode) (neg : Bool) : Word × Nat :=
  let away := (mode = .rup && !neg) || (mode = .rdn && neg)
  (setBit (wordOf (0x800000000 + away.toNat)) 47 neg, 3)

/-- FDIV. (Log entry 82 DEDUCED.) -/
def fdiv (mode : RMode) (a b : F48) : Word × Nat :=
  if anySnan [a, b] then (f48NaN, 16) else if anyNan [a, b] then (f48NaN, 0)
  else match a, b with
    | .inf _, .inf _ => (f48NaN, 16)
    | .inf s, .fin t _ _ => (f48Inf (s != t), 0)
    | .fin s _ _, .inf t => (f48Zero (s != t), 0)
    | .fin s m e, .fin t n f =>
      if n = 0 then (if m = 0 then (f48NaN, 16) else (f48Inf (s != t), 8))
      else if m = 0 then (f48Zero (s != t), 0)
      else if m = 2 ^ 36 && e = -36 && n = 2 ^ 37 - 1 && f = 987 then oneByMax mode (s != t)
      else f48Round mode (s != t) ((m <<< 80) / n) (e - f - 80) ((m <<< 80) % n ≠ 0)
    | _, _ => (f48NaN, 0)

/-- The integer square root of n below 2^136. -/
def isqrt (n : Nat) : Nat :=
  (List.range 68).foldl (fun r i => let c := r + 2 ^ (67 - i); if c * c ≤ n then c else r) 0

/-- FSQRT. -/
def fsqrt (mode : RMode) (a : F48) : Word × Nat :=
  match a with
  | .snan => (f48NaN, 16)
  | .qnan => (f48NaN, 0)
  | .inf s => if s then (f48NaN, 16) else (f48Inf false, 0)
  | .fin s m e =>
    if m = 0 then (f48Zero s, 0)
    else if s then (f48NaN, 16)
    else
      let k := if e % 2 = 0 then 90 else 91
      let n := m <<< k
      let r := isqrt n
      f48Round mode false r ((e - k) / 2) (r * r ≠ n)

/-- FMA: a × b + d, rounded once; an invalid product is found before a quiet NaN in d (R398, the FMA table). -/
def fma (mode : RMode) (a b d : F48) : Word × Nat :=
  if anySnan [a, b, d] then (f48NaN, 16)
  else if anyNan [a, b] then (f48NaN, 0)
  else match f48Product a b with
    | none => (f48NaN, 16)
    | some p => if anyNan [d] then (f48NaN, 0) else f48Sum mode p d

/-- a < b, a = b of values that are not NaN, zeros being equal. -/
def f48Key : F48 → F48 → Int × Int
  | .fin s m e, .fin t n f =>
    let q := min e f
    let a : Int := m <<< (e - q).toNat
    let b : Int := n <<< (f - q).toNat
    (if s then -a else a, if t then -b else b)
  | .inf s, .inf t => (if s then -1 else 1, if t then -1 else 1)
  | .inf s, _ => (if s then -1 else 1, 0)
  | _, .inf t => (0, if t then -1 else 1)
  | _, _ => (0, 0)

/-- FMIN, or FMAX with `max` true (R376): −0 orders below +0. -/
def fminmax (mx : Bool) (wa wb : Word) : Word × Nat :=
  let a := f48 wa
  let b := f48 wb
  let fl := if anySnan [a, b] then 16 else 0
  if anyNan [a] && anyNan [b] then (f48NaN, fl)
  else if anyNan [a] then (wb, fl)
  else if anyNan [b] then (wa, fl)
  else
    let k := f48Key a b
    let aLess := k.1 < k.2 || (k.1 = k.2 && bit wa 47 && !bit wb 47)
    (if aLess != mx then wa else wb, fl)

/-- ITOF of a signed integer value. -/
def itof (mode : RMode) (i : Int) : Word × Nat := f48Fin mode (i < 0) i.natAbs 0

/-- FTOI to the range lo..hi, with the saturated results for values above and below it. -/
def ftoi (mode : RMode) (signed : Bool) (a : F48) : Word × Nat :=
  let hi : Int := if signed then 2 ^ 47 - 1 else 2 ^ 48 - 1
  let lo : Int := if signed then -(2 ^ 47) else 0
  match a with
  | .inf true => (wordOfInt lo, 16)
  | .inf false => (wordOfInt hi, 16)
  | .qnan => (wordOfInt hi, 16)
  | .snan => (wordOfInt hi, 16)
  | .fin s m e =>
    if 64 < (bitLen m : Int) + e then (wordOfInt (if s then lo else hi), 16)
    else
      let x := roundTo mode s m e false 0
      let i : Int := if s then -(x.1 : Int) else x.1
      if i < lo then (wordOfInt lo, 16)
      else if hi < i then (wordOfInt hi, 16)
      else (wordOfInt i, if x.2 then 1 else 0)

/-- The compare conditions FEQ, FLT, FLE and FUN (R372, the table Compare conditions): 10, 11, 12, 13. -/
def fcompare (cond : Nat) (a b : F48) : Bool × Nat :=
  let k := f48Key a b
  if anyNan [a, b] then (cond = 13, if anySnan [a, b] || cond = 11 || cond = 12 then 16 else 0)
  else (match cond with | 10 => k.1 = k.2 | 11 => k.1 < k.2 | 12 => k.1 ≤ k.2 | _ => false, 0)

/-- FCLASS (R377). -/
def fclass (w : Word) : Word :=
  let c := match f48 w with
    | .fin _ m _ => if m = 0 then 0 else if fld w 46 36 = 0 then 1 else 2
    | .inf _ => 3
    | .qnan => 4
    | .snan => 5
  setBit (wordOf c) 3 (bit w 47)

end Sys2Proof.Machine
end

