-- ==== Sys2Proof/Machine/Isa.lean ====
section
/-! DEFINITION. The instruction set (R341–R389): contexts, special registers, the checks of R347, faults and traps, memory
access, and what each instruction does. An instruction command carries the fields of the word that its context executes. -/

namespace Sys2Proof

/-- An immediate, sign-extended and zero-extended. -/
def RI.sx (f : RI) : Word := f.imm.signExtend 48
@[inherit_doc RI.sx] def RI.zx (f : RI) : Word := f.imm.setWidth 48

end Sys2Proof

namespace Sys2Proof.Machine

/-- A signed immediate as a word. -/
def sx {n : Nat} (v : BitVec n) : Word := v.signExtend 48

/-- The defined opcodes (R345). -/
def opcodeDefined (op : Nat) : Bool :=
  (1 ≤ op && op ≤ 0xE) || op = 0x10 || (0x12 ≤ op && op ≤ 0x1A) || (0x20 ≤ op && op ≤ 0x22) || (0x24 ≤ op && op ≤ 0x27) ||
  (0x30 ≤ op && op ≤ 0x3D) || (0x40 ≤ op && op ≤ 0x42) || op = 0x50 || op = 0x51 || op = 0x60 || op = 0x61 ||
  (0x70 ≤ op && op ≤ 0x74) || (0x80 ≤ op && op ≤ 0x8B) || (0x90 ≤ op && op ≤ 0x96) || op = 0xA0 ||
  (0xC0 ≤ op && op ≤ 0xC4) || (0xC8 ≤ op && op ≤ 0xCA) || (0xD0 ≤ op && op ≤ 0xD3) || op = 0xD8 || (0xF0 ≤ op && op ≤ 0xF7)

/-- The words that may not follow a REP (R379). -/
def repForbidden (op : Nat) : Bool :=
  op = 0x50 || op = 0x51 || op = 0x60 || op = 0x61 || op = 0x92 || op = 0x93 || op = 0x96 || op = 0xA0 ||
  (0xC0 ≤ op && op ≤ 0xDF)

/-! ### Contexts (R341, R344, R388) -/

/-- The context runs the control profile (R341). -/
def isControl : Ctx → Bool
  | .channel _ => false
  | _ => true

/-- The target number of a control context's queues (R523). -/
def ctxTarget : Ctx → Nat
  | .core k => k.val
  | _ => 4

/-- Who the context is as a requester. -/
def ctxRequester : Ctx → Requester
  | .channel c => .channel c
  | .core k => .core k
  | .goatherd => .goatherd

/-- The context takes its next instruction. (Log entries 93 DEDUCED, 208 DEDUCED.) -/
def Dev.ctxRuns (d : Dev) (x : Ctx) : Bool :=
  match x with
  | .channel c => d.chRuns c.val
  | .core k => d.domOn 17 && d.rdF .ctlCorekCtl k.val 3 2 = 1
  | .goatherd => d.powered && !d.ghd.pllHeld && !(d.proc 1028).waiting

/-- The processor context of x. -/
def Dev.ctx (d : Dev) (x : Ctx) : Proc := d.proc (ctxNum x)

/-- The processor context of x replaced. -/
def Dev.setCtx (d : Dev) (x : Ctx) (p : Proc) : Dev := d.setProc (ctxNum x) p

/-- The reset value of a special register (R382, R447). -/
def spReset (k : Nat) : Word := match k with | 0 => 0x101 | 15 => 5 | _ => 0

/-- A special register as stored. (Log entries 83 DEDUCED, 92 DEDUCED.) -/
def Proc.special (p : Proc) (k : Nat) : Word := tget p.sp (spReset k) k

/-- A special register stored. (Log entry 83 DEDUCED.) -/
def Proc.setSpecial (p : Proc) (k : Nat) (v : Word) : Proc := { p with sp := tset p.sp k v }

/-- STATUS: REPA tells a repeat in progress (R380). -/
def Proc.status (p : Proc) : Word := setBit (p.special 1) 5 p.rep.isSome

/-- The alternate bank is in use (R344). -/
def Proc.fast (p : Proc) : Bool := bit (p.special 1) 2

/-- A general register of a context, in the bank in use. (Log entry 4 DESIGN CHOICE.) -/
def Dev.gpr (d : Dev) (x : Ctx) (i : Fin 32) : Word := (d.ctx x).reg (isControl x && (d.ctx x).fast) i.val

/-- A general register written. -/
def Dev.setGpr (d : Dev) (x : Ctx) (i : Fin 32) (v : Word) : Dev :=
  d.setCtx x ((d.ctx x).setReg (isControl x && (d.ctx x).fast) i.val v)

/-- Core clock cycles since release, of clocks that no beat steers (R8): 1.6 GHz on a control core while its domain is on, 400 MHz on
Goatherd. (Log entry 91 DEDUCED.) -/
def Dev.cycles (d : Dev) (x : Ctx) : Word :=
  let since := (d.ctx x).released
  wordOf (match x with | .goatherd => (d.ghd.up - since) * 2 / 5 | _ => (d.ctlUp - since) * 8 / 5)

/-- A special register as MFS reads it (R382). (Log entry 92 DEDUCED.) -/
def Dev.readSpecial (d : Dev) (x : Ctx) (k : Nat) : Word :=
  match k with
  | 0 => 0x101
  | 1 => (d.ctx x).status
  | 16 => d.cycles x
  | _ => (d.ctx x).special k

/-- The bits of a special register that MTS writes; none for an RO register. -/
def specialMask (k : Nat) : Option Word :=
  match k with
  | 0 => none
  | 1 => some 0x3
  | 3 => some 0x3F
  | 5 => some 0x3F
  | 6 => some 0xFFFFC0000000
  | 8 => some 0xFFFFFFFFFF
  | 9 => some 0xFFFFFFFFFF
  | 10 => some 0x7F
  | 15 => some 0x1F
  | 16 => none
  | 17 => some 0x1
  | _ => some 0xFFFFFFFFFFFF

/-! ### Faults and traps (R348, R349, R383, R384, R386) -/

/-- A double fault: a core stops and DFAULT is active; on Goatherd the device fails. (Log entry 86 DEDUCED.) -/
def Dev.doubleFault (d : Dev) (x : Ctx) (cause : Word) : Dev :=
  match x with
  | .core k =>
    let d := (d.wr .ctlCorekDcause k.val cause).wr .ctlCorekDpc k.val (d.ctx x).pc
    (d.wrF .ctlCorekCtl k.val 3 2 3).setLevel (665 + k.val) true
  | _ => d.fail 6

/-- A normal trap: KIND, status, sub-code and TDATA; `pc` is what RPC_N takes. (Log entry 85 DESIGN CHOICE.) -/
def Dev.normalTrap (d : Dev) (x : Ctx) (kind st sub : Nat) (datum pc : Word) : Dev :=
  let p := d.ctx x
  let cause := setFld (setFld (setFld 0 47 40 st) 39 32 sub) 31 30 kind
  let s := p.status
  if bit s 4 then d.doubleFault x cause
  else
    let p := (((p.setSpecial 2 pc).setSpecial 3 s).setSpecial 11 (wordOf (p.rep.getD 0))).setSpecial 6 cause
    let s' := setBit (setBit (setBit (setBit s 3 true) 4 true) 0 false) 5 false
    let p := (p.setSpecial 7 datum).setSpecial 1 s'
    d.setCtx x { p with pc := p.special 8, rep := none }

/-- A fast trap. -/
def Dev.fastTrap (d : Dev) (x : Ctx) : Dev :=
  let p := d.ctx x
  let s := p.status
  let p := ((p.setSpecial 4 p.pc).setSpecial 5 s).setSpecial 12 (wordOf (p.rep.getD 0))
  let s' := setBit (setBit (setBit (setBit (setBit s 2 true) 3 false) 1 false) 0 false) 5 false
  let p := p.setSpecial 1 s'
  d.setCtx x { p with pc := p.special 9, rep := none }

/-- A fault: a channel halts with reason 6, naming the word; a control context takes a normal trap of KIND 0.
(Log entry 85 DESIGN CHOICE.) -/
def Dev.instrFault (d : Dev) (x : Ctx) (op : Nat) (addr : Word) (st sub : Nat) (datum : Word) : Dev :=
  match x with
  | .channel c => d.chHalt c.val st sub 6 op addr
  | _ => d.normalTrap x 0 st sub datum (d.ctx x).pc

/-- The address of the word a context executes: the word after its REP in a repeat. -/
def Proc.at_ (p : Proc) : Word := if p.rep.isSome then p.pc + 1 else p.pc

/-- The checks 2 to 6 of R347 that a word has to pass: `undef` is the sub-code of one that fails check 2 or 3 whatever follows; outside
the control profile a word fails check 3 where `control`, after a REP check 4 where `norep`; `zero` is check 5 and `value` check 6.
`hint` marks a word that never fails (R350). -/
structure Checks where
  undef : Option Nat := none
  hint : Bool := false
  control : Bool := false
  norep : Bool := false
  zero : Bool := true
  value : Bool := true
  deriving DecidableEq, Repr

/-- What an instruction comes to: the block, the fault of check 7 as status, sub-code and TDATA, the address to go on at where
it is not the next word, and a register write that takes place once it is complete. -/
structure Effect where
  dev : Dev
  fault : Option (Nat × Nat × Word) := none
  jump : Option Word := none
  store : Option (Nat × Word) := none

/-- The instruction is complete: the next word, or the next iteration (R378). (Log entry 89 DEDUCED.) -/
def Dev.advance (d : Dev) (x : Ctx) (rep : Option Nat) (jump : Option Word) : Dev :=
  let p := d.ctx x
  match rep with
  | none => d.setCtx x { p with pc := jump.getD (p.pc + 1) }
  | some n => if n ≤ 1 then d.setCtx x { p with pc := p.pc + 2, rep := none } else d.setCtx x { p with rep := some (n - 1) }

/-- A register write of an instruction, by its DAS address. (Log entry 89 DEDUCED.) -/
def Dev.storeAt (d : Dev) (x : Ctx) (s : Option (Nat × Word)) : Dev :=
  match s with
  | some (a, w) => Dev.busWrite (ctxRequester x) ((a - 0x1000000) / 65536) (a % 65536) (w.setWidth 64) d
  | none => d

/-- A channel that stands in a gather may meet transfer words only (R296), once the checks of R347 are passed, and hints (R350).
(Log entry 88 DEDUCED.) -/
def Dev.inGather (d : Dev) (x : Ctx) : Bool :=
  match x with
  | .channel c => (d.chan c.val).skip || (d.chan c.val).gather.isSome
  | _ => false

/-- A channel has passed the word whose HOLD it took (R299). -/
def Dev.passHold (d : Dev) (x : Ctx) : Dev :=
  match x with
  | .channel c => if (d.chan c.val).noHold then d.setChan c.val { d.chan c.val with noHold := false } else d
  | _ => d

/-- A context executes the word w: the checks of R347 in order, then its effect.
(Log entries 81 DEDUCED, 88 DEDUCED, 208 DEDUCED.) -/
def Dev.issue (d : Dev) (x : Ctx) (w : Word) (c : Checks) (body : Dev → Effect) : Dev :=
  let p := d.ctx x
  let fail (d : Dev) (st sub : Nat) (datum : Word) : Dev := d.instrFault x (fld w 47 40) p.at_ st sub datum
  if !d.ctxRuns x then d
  else if let some sub := c.undef then fail d 0x11 sub w
  else if c.control && !isControl x then fail d 0x11 3 w
  else if c.norep && p.rep.isSome then fail d 0x11 4 w
  else if !c.zero then fail d 0x12 0 w
  else if !c.value then fail d 0x12 1 w
  else if d.inGather x && !c.hint then fail d 0x11 1 w
  else
    let r := body (d.passHold x)
    match r.fault with
    | some f => fail r.dev f.1 f.2.1 f.2.2
    | none => (r.dev.advance x p.rep r.jump).storeAt x r.store

/-! ### Register instructions (R351–R354, R374) -/

/-- An RR instruction of two sources and one result; func9 is must-be-zero (R351, R353). -/
def Dev.alu (d : Dev) (x : Ctx) (op : Nat) (f : RR) (g : Word → Word → Word) : Dev :=
  d.issue x (f.word op) { zero := f.rsv = 0 && f.func = 0 } fun d => { dev := d.setGpr x f.d (g (d.gpr x f.a) (d.gpr x f.b)) }

/-- An RI instruction of one source, an immediate and one result. -/
def Dev.aluImm (d : Dev) (x : Ctx) (op : Nat) (f : RI) (ok : Bool) (g : Word → Word) : Dev :=
  d.issue x (f.word op) { value := ok } fun d => { dev := d.setGpr x f.d (g (d.gpr x f.a)) }

/-- −1, 0 or +1. -/
def cmpWord (lt eq : Bool) : Word := if lt then 0xFFFFFFFFFFFF else if eq then 0 else 1

/-- CMPS and CMPU. -/
def cmps (a b : Word) : Word := cmpWord (a.slt b) (a = b)
@[inherit_doc cmps] def cmpu (a b : Word) : Word := cmpWord (a.ult b) (a = b)

/-- Shifts by n (R352). -/
def shl (a : Word) (n : Nat) : Word := a <<< n
@[inherit_doc shl] def shr (a : Word) (n : Nat) : Word := a >>> n
@[inherit_doc shl] def sar (a : Word) (n : Nat) : Word := a.sshiftRight n

/-- INSH. -/
def insh (a : Word) (imm : BitVec 30) : Word := (a &&& 0x3FFFF) ||| (imm.setWidth 48 <<< 18)

/-- The quotients and remainders of R353 and R354. -/
def divs (a b : Word) : Word := if b = 0 then 0xFFFFFFFFFFFF else a.sdiv b
@[inherit_doc divs] def divu (a b : Word) : Word := if b = 0 then 0xFFFFFFFFFFFF else a / b
@[inherit_doc divs] def rems (a b : Word) : Word := if b = 0 then a else a.srem b
@[inherit_doc divs] def remu (a b : Word) : Word := if b = 0 then a else a % b

/-- The register after i; MULD requires i below 31. -/
def nextReg (i : Fin 32) : Fin 32 := ⟨(i.val + 1) % 32, Nat.mod_lt _ (by decide)⟩

/-- MULD and MULDU: the 96-bit product into d and d+1. -/
def Dev.mulDouble (d : Dev) (x : Ctx) (op : Nat) (f : RR) (g : Word → Word → Int) : Dev :=
  d.issue x (f.word op) { zero := f.rsv = 0 && f.func = 0, value := 1 ≤ f.d.val && f.d.val ≤ 30 } fun d =>
    let p := BitVec.ofInt 96 (g (d.gpr x f.a) (d.gpr x f.b))
    { dev := (d.setGpr x f.d (p.setWidth 48)).setGpr x (nextReg f.d) ((p >>> 48).setWidth 48) }

/-- An instruction whose value is read from the block (R374): a must be w0. -/
def Dev.readIn (d : Dev) (x : Ctx) (op : Nat) (f : RI) (ok : Bool) (g : Dev → Word) : Dev :=
  d.issue x (f.word op) { zero := f.a.val = 0, value := ok } fun d => { dev := d.setGpr x f.d (g d) }

/-- RDPOS and RDVEL: the axis register as it reads, where its block is on (R18). -/
def Dev.readAxis (d : Dev) (x : Ctx) (op : Nat) (f : RI) (r : Reg) : Dev :=
  d.issue x (f.word op) { zero := f.a.val = 0, value := f.imm.toNat < 4 } fun d =>
    if d.regOn r f.imm.toNat then { dev := d.setGpr x f.d (d.loadReg r f.imm.toNat).1.word }
    else
      let t := d.free
      { dev := t.2, fault := some (0x38, 0, wordOf t.1) }

/-- PDIFF: the low w bits of a − b, sign-extended. -/
def pdiff (w : Nat) (a b : Word) : Word := ((a - b).setWidth w).signExtend 48

/-! ### Memory (R355–R365) -/

/-- Why an access that R358 and R359 do not allow fails; `whole` tells a word access from a lane access or an atomic. -/
def Dev.accessFault (d : Dev) (x : Ctx) (ea : Word) (store whole : Bool) : Option (Nat × Nat) :=
  let a := ea.toNat
  let ch := !isControl x
  if 2 ^ 40 ≤ a then some (0x21, 0)
  else
    match dasArea a with
    | .sram r =>
      let allowed :=
        match x with
        | .channel _ => if r = 1 then inProgram a 1 else r ≠ 4 && !store
        | .core _ => r ≠ 4
        | .goatherd => true
      if !allowed then some (0x21, 7)
      else if d.domOn (regionDomain r (a - regionBase r)) then none else some (0x38, 0)
    | .reg win off =>
      if 16 < win then some (0x21, if ch then 7 else 0)
      else if !whole then some (0x21, if ch then 7 else 8)
      else if d.regAccess win off = .off then some (0x38, 0)
      else none
    | .hbm q _ | .tagView q _ =>
      if ch then some (0x21, 7)
      else if store then some (0x21, 9)
      else if x = .goatherd then some (0x21, 7)
      else if d.domOn 22 && d.domOn (1 + tileStack q) then none else some (0x38, 0)
    | .unpopulated => some (0x21, if ch then 7 else 0)

/-- A word read from HBM or the Velvet tag view (R12, R362), one transfer (R438): no tag is checked. (Log entry 90 DEDUCED.) -/
def Dev.hbmLoad (d : Dev) (x : Ctx) (q : Nat) (tag : Bool) (v : Tile → Word) : Nat × Word × Dev :=
  let cls := fld ((d.ctx x).special 15) 4 0
  let r := if tag then d.readTag 22 cls q 1 else d.readTile 22 cls q 1 false
  (r.1, v r.2.1, r.2.2)

/-- A word read by an instruction: the status (R360), the word and the block. (Log entry 90 DEDUCED.) -/
def Dev.memRead (d : Dev) (x : Ctx) (ea : Word) : Nat × Word × Dev :=
  let a := ea.toNat
  match dasArea a with
  | .sram _ =>
    let r := d.sramRead a
    (r.1.status, r.1.word, r.2)
  | .reg win off =>
    (match d.regAccess win off with
     | .reg r i =>
       let v := d.loadReg r i
       (v.1.status, v.1.word, v.2)
     | _ => (0, 0, d))
  | .hbm q i => d.hbmLoad x q false (fun t => t.word i)
  | .tagView q i => d.hbmLoad x q true (fun t => if i = 0 then t.tag.setWidth 48 else (t.tag >>> 48).setWidth 48)
  | .unpopulated => (0, 0, d)

/-- A load: what follows with the word read, or its fault. -/
def Dev.load (d : Dev) (x : Ctx) (ea : Word) (whole : Bool) (k : Word → Dev → Effect) : Effect :=
  match d.accessFault x ea false whole with
  | some f => { dev := d, fault := some (f.1, f.2, ea) }
  | none =>
    let r := d.memRead x ea
    if r.1 ≠ 0 then { dev := r.2.2, fault := some (r.1 % 256, r.1 / 256, ea) } else k r.2.1 r.2.2

/-- A word store: into SRAM now, into a register once the instruction is complete; then what follows, or its fault. -/
def Dev.storeWord (d : Dev) (x : Ctx) (ea w : Word) (k : Dev → Dev) : Effect :=
  match d.accessFault x ea true true with
  | some f => { dev := d, fault := some (f.1, f.2, ea) }
  | none =>
    match dasArea ea.toNat with
    | .sram _ => { dev := k (d.sramWrite ea.toNat w) }
    | _ => { dev := k d, store := some (ea.toNat, w) }

/-- A lane store (R356, R361): an error in the word leaves the poison check pattern and fails under R360. -/
def Dev.storeLane (d : Dev) (x : Ctx) (ea : Word) (hi lo : Nat) (w : Word) : Effect :=
  match d.accessFault x ea true false with
  | some f => { dev := d, fault := some (f.1, f.2, ea) }
  | none =>
    let r := d.sramMerge ea.toNat (fun old => setFld old hi lo w.toNat)
    match r.1 with
    | some e => { dev := r.2, fault := some (e.status, 0, ea) }
    | none => { dev := r.2 }

/-- An atomic (R364, R365): the word before goes to d; `f` is the word after, none to leave it. -/
def Dev.atomic (d : Dev) (x : Ctx) (op : Nat) (f : RR) (g : Word → Option Word) : Dev :=
  d.issue x (f.word op) { zero := f.rsv = 0 && f.func = 0 } fun d =>
    let ea := d.gpr x f.a
    match d.accessFault x ea true false with
    | some e => { dev := d, fault := some (e.1, e.2, ea) }
    | none =>
      let r := d.memRead x ea
      if r.1 ≠ 0 then { dev := r.2.2, fault := some (r.1 % 256, r.1 / 256, ea) }
      else
        let d := match g r.2.1 with
          | some w => r.2.2.sramWrite ea.toNat w
          | none => r.2.2
        { dev := d.setGpr x f.d r.2.1 }

/-- A lane load of `width` bits: lanes 0 to `last`. -/
def Dev.loadLane (d : Dev) (x : Ctx) (op : Nat) (f : RR) (width last : Nat) : Dev :=
  let lane := f.func.toNat % 8
  d.issue x (f.word op) { zero := f.rsv = 0 && f.func.toNat < 8, value := lane ≤ last } fun d =>
    d.load x (d.gpr x f.a + d.gpr x f.b) false fun w d =>
      { dev := d.setGpr x f.d (wordOf (fld w (width * lane + width - 1) (width * lane))) }

/-- A lane store of `width` bits: lanes 0 to `last`. -/
def Dev.laneStore (d : Dev) (x : Ctx) (op : Nat) (f : RR) (width last : Nat) : Dev :=
  let lane := f.func.toNat % 8
  d.issue x (f.word op) { zero := f.rsv = 0 && f.func.toNat < 8, value := lane ≤ last } fun d =>
    d.storeLane x (d.gpr x f.a + d.gpr x f.b) (width * lane + width - 1) (width * lane) (d.gpr x f.d)

/-- CRC-32C stepped by the six bytes of a word (R363). -/
def crcStep (c : BitVec 32) (w : Word) : BitVec 32 := (bytesOfWord w).foldl crcByte c

/-! ### Fetch (R347 check 1, R358, R359) -/

/-- Why a context may not fetch from an address. -/
def fetchFaultOf (x : Ctx) (a : Word) : Option (Nat × Nat) :=
  let bad := match dasArea a.toNat with | .unpopulated => true | _ => false
  let ok : Bool := match x with
    | .goatherd => sramRegion a.toNat = some 4
    | _ => inProgram a.toNat 1
  if ok then none
  else
    match x with
    | .channel _ => some (0x21, 7)
    | _ => some (0x21, if bad || 2 ^ 40 ≤ a.toNat then 0 else 7)

/-- The word at an address fetched: status and sub-code of a failure, the word, the block. -/
def Dev.fetchWord (d : Dev) (x : Ctx) (a : Word) : Option (Nat × Nat) × Word × Dev :=
  match fetchFaultOf x a with
  | some e => (some e, 0, d)
  | none =>
    let r := d.sramRead a.toNat
    (if r.1.status ≠ 0 then some (r.1.status, 0) else none, r.1.word, r.2)

/-! ### Conditions (R372) -/

/-- The conditions 0 to 9 and 14 over two values; `hit` is what BSET tests. (Log entry 87 DEDUCED.) -/
def condHolds (cond : Nat) (a b : Word) (hit : Bool) : Bool :=
  match cond with
  | 0 => a = b
  | 1 => a ≠ b
  | 2 => a.slt b
  | 3 => !a.slt b
  | 4 => a.ult b
  | 5 => !a.ult b
  | 6 => atOrPast a b
  | 7 => !atOrPast a b
  | 8 => hit
  | 9 => !hit
  | _ => true

/-- Sticky flags ORed into FCSR (R375). -/
def Dev.orFlags (d : Dev) (x : Ctx) (flags : Nat) : Dev :=
  d.setCtx x ((d.ctx x).setSpecial 10 ((d.ctx x).special 10 ||| wordOf flags))

/-- A taken branch goes to pc + offset. (Log entry 87 DEDUCED.) -/
def Dev.branch (d : Dev) (x : Ctx) (taken : Bool) (off : Word) : Effect :=
  if taken then { dev := d, jump := some ((d.ctx x).pc + off) } else { dev := d }

/-! ### F48 (R375–R377) -/

/-- The rounding mode that func9 selects. -/
def Dev.roundMode (d : Dev) (x : Ctx) (func : BitVec 9) : RMode :=
  match func.toNat % 8 with
  | 0 => rmode (fld ((d.ctx x).special 10) 6 5)
  | n => rmode (n - 1)

/-- An F48 instruction: `high` is what func9 must be below, `zero` its other must-be-zero fields. -/
def Dev.float (d : Dev) (x : Ctx) (op : Nat) (f : RR) (high : Nat) (zero : Bool) (g : Dev → RMode → Word × Nat) : Dev :=
  d.issue x (f.word op) { control := true, zero := f.rsv = 0 && f.func.toNat < high && zero, value := f.func.toNat % 8 ≤ 4 }
    fun d =>
      let r := g d (d.roundMode x f.func)
      { dev := (d.setGpr x f.d r.1).orFlags x r.2 }

/-- FADD, FSUB, FMUL and FDIV. -/
def Dev.float2 (d : Dev) (x : Ctx) (op : Nat) (f : RR) (g : RMode → F48 → F48 → Word × Nat) : Dev :=
  d.float x op f 8 true fun d m => g m (f48 (d.gpr x f.a)) (f48 (d.gpr x f.b))

/-- FMIN and FMAX. -/
def Dev.floatMinMax (d : Dev) (x : Ctx) (op : Nat) (f : RR) (mx : Bool) : Dev :=
  d.issue x (f.word op) { control := true, zero := f.rsv = 0 && f.func = 0 } fun d =>
    let r := fminmax mx (d.gpr x f.a) (d.gpr x f.b)
    { dev := (d.setGpr x f.d r.1).orFlags x r.2 }

/-! ### The instructions -/

/-- ADD. -/
def addOp (x : Ctx) (f : RR) (d : Dev) : Dev := d.alu x 0x01 f (fun a b => a + b)
/-- SUB. -/
def subOp (x : Ctx) (f : RR) (d : Dev) : Dev := d.alu x 0x02 f (fun a b => a - b)
/-- AND. -/
def andOp (x : Ctx) (f : RR) (d : Dev) : Dev := d.alu x 0x03 f (fun a b => a &&& b)
/-- OR. -/
def orOp (x : Ctx) (f : RR) (d : Dev) : Dev := d.alu x 0x04 f (fun a b => a ||| b)
/-- XOR. -/
def xorOp (x : Ctx) (f : RR) (d : Dev) : Dev := d.alu x 0x05 f (fun a b => a ^^^ b)
/-- SHL: by b[5:0] (R352). -/
def shlOp (x : Ctx) (f : RR) (d : Dev) : Dev := d.alu x 0x06 f (fun a b => shl a (fld b 5 0))
/-- SHR. -/
def shrOp (x : Ctx) (f : RR) (d : Dev) : Dev := d.alu x 0x07 f (fun a b => shr a (fld b 5 0))
/-- SAR. -/
def sarOp (x : Ctx) (f : RR) (d : Dev) : Dev := d.alu x 0x08 f (fun a b => sar a (fld b 5 0))
/-- CMPS. -/
def cmpsOp (x : Ctx) (f : RR) (d : Dev) : Dev := d.alu x 0x09 f cmps
/-- CMPU. -/
def cmpuOp (x : Ctx) (f : RR) (d : Dev) : Dev := d.alu x 0x0A f cmpu
/-- MINS. -/
def minsOp (x : Ctx) (f : RR) (d : Dev) : Dev := d.alu x 0x0B f (fun a b => if a.slt b then a else b)
/-- MAXS. -/
def maxsOp (x : Ctx) (f : RR) (d : Dev) : Dev := d.alu x 0x0C f (fun a b => if a.slt b then b else a)
/-- MINU. -/
def minuOp (x : Ctx) (f : RR) (d : Dev) : Dev := d.alu x 0x0D f (fun a b => if a.ult b then a else b)
/-- MAXU. -/
def maxuOp (x : Ctx) (f : RR) (d : Dev) : Dev := d.alu x 0x0E f (fun a b => if a.ult b then b else a)

/-- ADDI. -/
def addiOp (x : Ctx) (f : RI) (d : Dev) : Dev := d.aluImm x 0x10 f true (fun a => a + f.sx)
/-- ANDI. -/
def andiOp (x : Ctx) (f : RI) (d : Dev) : Dev := d.aluImm x 0x12 f true (fun a => a &&& f.zx)
/-- ORI. -/
def oriOp (x : Ctx) (f : RI) (d : Dev) : Dev := d.aluImm x 0x13 f true (fun a => a ||| f.zx)
/-- XORI. -/
def xoriOp (x : Ctx) (f : RI) (d : Dev) : Dev := d.aluImm x 0x14 f true (fun a => a ^^^ f.zx)
/-- SHLI: 0–47 (R352). -/
def shliOp (x : Ctx) (f : RI) (d : Dev) : Dev := d.aluImm x 0x15 f (f.imm.toNat < 48) (fun a => shl a f.imm.toNat)
/-- SHRI. -/
def shriOp (x : Ctx) (f : RI) (d : Dev) : Dev := d.aluImm x 0x16 f (f.imm.toNat < 48) (fun a => shr a f.imm.toNat)
/-- SARI. -/
def sariOp (x : Ctx) (f : RI) (d : Dev) : Dev := d.aluImm x 0x17 f (f.imm.toNat < 48) (fun a => sar a f.imm.toNat)
/-- CMPSI. -/
def cmpsiOp (x : Ctx) (f : RI) (d : Dev) : Dev := d.aluImm x 0x18 f true (fun a => cmps a f.sx)
/-- CMPUI. -/
def cmpuiOp (x : Ctx) (f : RI) (d : Dev) : Dev := d.aluImm x 0x19 f true (fun a => cmpu a f.sx)
/-- INSH. -/
def inshOp (x : Ctx) (f : RI) (d : Dev) : Dev := d.aluImm x 0x1A f true (fun a => insh a f.imm)

/-- MUL (R353). -/
def mulOp (x : Ctx) (f : RR) (d : Dev) : Dev := d.alu x 0x20 f (fun a b => a * b)
/-- MULD. -/
def muldOp (x : Ctx) (f : RR) (d : Dev) : Dev := d.mulDouble x 0x21 f (fun a b => a.toInt * b.toInt)
/-- MULDU. -/
def mulduOp (x : Ctx) (f : RR) (d : Dev) : Dev := d.mulDouble x 0x22 f (fun a b => ((a.toNat * b.toNat : Nat) : Int))
/-- DIV. -/
def divOp (x : Ctx) (f : RR) (d : Dev) : Dev := d.alu x 0x24 f divs
/-- DIVU. -/
def divuOp (x : Ctx) (f : RR) (d : Dev) : Dev := d.alu x 0x25 f divu
/-- REM. -/
def remOp (x : Ctx) (f : RR) (d : Dev) : Dev := d.alu x 0x26 f rems
/-- REMU. -/
def remuOp (x : Ctx) (f : RR) (d : Dev) : Dev := d.alu x 0x27 f remu

/-- LD (R355, R356). -/
def ldOp (x : Ctx) (f : RI) (d : Dev) : Dev :=
  d.issue x (f.word 0x30) {} fun d => d.load x (d.gpr x f.a + f.sx) true fun w d => { dev := d.setGpr x f.d w }
/-- ST. -/
def stOp (x : Ctx) (f : RI) (d : Dev) : Dev :=
  d.issue x (f.word 0x31) {} fun d => d.storeWord x (d.gpr x f.a + f.sx) (d.gpr x f.d) (fun d => d)
/-- LDB. -/
def ldbOp (x : Ctx) (f : RR) (d : Dev) : Dev := d.loadLane x 0x32 f 8 5
/-- LDS. -/
def ldsOp (x : Ctx) (f : RR) (d : Dev) : Dev := d.loadLane x 0x33 f 16 2
/-- LDT. -/
def ldtOp (x : Ctx) (f : RR) (d : Dev) : Dev := d.loadLane x 0x34 f 24 1
/-- STB. -/
def stbOp (x : Ctx) (f : RR) (d : Dev) : Dev := d.laneStore x 0x35 f 8 5
/-- STS. -/
def stsOp (x : Ctx) (f : RR) (d : Dev) : Dev := d.laneStore x 0x36 f 16 2
/-- STT. -/
def sttOp (x : Ctx) (f : RR) (d : Dev) : Dev := d.laneStore x 0x37 f 24 1
/-- LDINC (R357): the step of a is written first. -/
def ldincOp (x : Ctx) (f : RI) (d : Dev) : Dev :=
  d.issue x (f.word 0x38) { zero := f.a.val ≠ 0 } fun d =>
    let t := d.gpr x f.a
    d.load x t true fun w d => { dev := (d.setGpr x f.a (t + f.sx)).setGpr x f.d w }
/-- STINC (R357). -/
def stincOp (x : Ctx) (f : RI) (d : Dev) : Dev :=
  d.issue x (f.word 0x39) { zero := f.a.val ≠ 0 } fun d =>
    let t := d.gpr x f.a
    d.storeWord x t (d.gpr x f.d) fun d => d.setGpr x f.a (t + f.sx)
/-- MOVW (R357). (Log entry 89 DEDUCED.) -/
def movwOp (x : Ctx) (f : RR) (d : Dev) : Dev :=
  d.issue x (f.word 0x3A) { zero := f.rsv = 0 && f.func = 0 && f.d.val = 0 } fun d =>
    let a := d.gpr x f.a
    let b := d.gpr x f.b
    match d.accessFault x b false true, d.accessFault x a true true with
    | none, some e => { dev := d, fault := some (e.1, e.2, a) }
    | _, _ => d.load x b true fun w d => d.storeWord x a w fun d =>
        let d := d.setGpr x f.a (a + 1)
        if f.b = f.a then d else d.setGpr x f.b (b + 1)
/-- FILLW (R357). -/
def fillwOp (x : Ctx) (f : RR) (d : Dev) : Dev :=
  d.issue x (f.word 0x3B) { zero := f.rsv = 0 && f.func = 0 && f.b.val = 0 } fun d =>
    let a := d.gpr x f.a
    d.storeWord x a (d.gpr x f.d) fun d => d.setGpr x f.a (a + 1)
/-- CRCM (R363). -/
def crcmOp (x : Ctx) (f : RR) (d : Dev) : Dev :=
  d.issue x (f.word 0x3C) { zero := f.rsv = 0 && f.func = 0 && f.b.val = 0 } fun d =>
    let a := d.gpr x f.a
    d.load x a true fun w d =>
      let c := crcStep ((d.gpr x f.d).setWidth 32) w
      { dev := (d.setGpr x f.d (c.setWidth 48)).setGpr x f.a (a + 1) }
/-- FENCE (R368): every access of the model is complete at its command. (Log entry 111 DEDUCED.) -/
def fenceOp (x : Ctx) (f : RR) (d : Dev) : Dev :=
  d.issue x (f.word 0x3D) { zero := f.rsv = 0 && f.func = 0 && f.d.val = 0 && f.a.val = 0 && f.b.val = 0 } fun d => { dev := d }
/-- SWAP (R364). -/
def swapOp (x : Ctx) (f : RR) (d : Dev) : Dev := d.atomic x 0x40 f (fun _ => some (d.gpr x f.b))
/-- ADDM. -/
def addmOp (x : Ctx) (f : RR) (d : Dev) : Dev := d.atomic x 0x41 f (fun t => some (t + d.gpr x f.b))
/-- CAS. -/
def casOp (x : Ctx) (f : RR) (d : Dev) : Dev :=
  d.atomic x 0x42 f (fun t => if t = d.gpr x f.d then some (d.gpr x f.b) else none)

/-- JMPL (R373). -/
def jmplOp (x : Ctx) (f : RI) (d : Dev) : Dev :=
  d.issue x (f.word 0x50) { norep := true, zero := f.a.val = 0 } fun d =>
    let pc := (d.ctx x).pc
    { dev := d.setGpr x f.d (pc + 1), jump := some (pc + f.sx) }
/-- JMPR. -/
def jmprOp (x : Ctx) (f : RI) (d : Dev) : Dev :=
  d.issue x (f.word 0x51) { norep := true } fun d =>
    { dev := d.setGpr x f.d ((d.ctx x).pc + 1), jump := some (d.gpr x f.a + f.sx) }
/-- BR (R371, R372). -/
def brOp (x : Ctx) (f : CB) (d : Dev) : Dev :=
  let c := f.cond.val
  let float := 10 ≤ c && c ≤ 13
  d.issue x (f.word 0x60) { control := float, norep := true, zero := c ≠ 14 || (f.a.val = 0 && f.b.val = 0), value := c ≠ 15 }
    fun d =>
      let a := d.gpr x f.a
      let b := d.gpr x f.b
      if float then
        let r := fcompare c (f48 a) (f48 b)
        (d.orFlags x r.2).branch x r.1 (sx f.off)
      else d.branch x (condHolds c a b (a &&& b ≠ 0)) (sx f.off)
/-- BRI. (Log entry 87 DEDUCED.) -/
def briOp (x : Ctx) (f : CBI) (d : Dev) : Dev :=
  let c := f.cond.val
  let float := 10 ≤ c && c ≤ 13
  let bitTest := c = 8 || c = 9
  let n := f.imm.toNat
  d.issue x (f.word 0x61)
    { control := float, norep := true, zero := (c ≠ 14 || (f.a.val = 0 && f.imm = 0)) && (!bitTest || n < 64),
      value := c ≠ 15 && !float && (!bitTest || n < 48) } fun d =>
    let a := d.gpr x f.a
    d.branch x (condHolds c a (sx f.imm) (bit a n)) (sx f.off)

/-- RDPOS (R374). -/
def rdposOp (x : Ctx) (f : RI) (d : Dev) : Dev := d.readAxis x 0x70 f .sprAxnPos
/-- RDVEL. -/
def rdvelOp (x : Ctx) (f : RI) (d : Dev) : Dev := d.readAxis x 0x71 f .sprAxnVel
/-- RDTIME. -/
def rdtimeOp (x : Ctx) (f : RI) (d : Dev) : Dev := d.readIn x 0x72 f (f.imm = 0) (fun d => d.now)
/-- PDIFF. -/
def pdiffOp (x : Ctx) (f : RR) (d : Dev) : Dev :=
  let w := f.func.toNat
  d.issue x (f.word 0x73) { zero := f.rsv = 0, value := 1 ≤ w && w ≤ 48 } fun d =>
    { dev := d.setGpr x f.d (pdiff w (d.gpr x f.a) (d.gpr x f.b)) }
/-- SELF. -/
def selfOp (x : Ctx) (f : RI) (d : Dev) : Dev := d.readIn x 0x74 f (f.imm = 0) (fun _ => wordOf (ctxNum x))

/-- FADD (R375, R393). -/
def faddOp (x : Ctx) (f : RR) (d : Dev) : Dev := d.float2 x 0x80 f fadd
/-- FSUB. -/
def fsubOp (x : Ctx) (f : RR) (d : Dev) : Dev := d.float2 x 0x81 f fsub
/-- FMUL. -/
def fmulOp (x : Ctx) (f : RR) (d : Dev) : Dev := d.float2 x 0x82 f fmul
/-- FDIV. -/
def fdivOp (x : Ctx) (f : RR) (d : Dev) : Dev := d.float2 x 0x83 f fdiv
/-- FSQRT. -/
def fsqrtOp (x : Ctx) (f : RR) (d : Dev) : Dev :=
  d.float x 0x84 f 8 (f.b.val = 0) fun d m => fsqrt m (f48 (d.gpr x f.a))
/-- FMA. -/
def fmaOp (x : Ctx) (f : RR) (d : Dev) : Dev :=
  d.float x 0x85 f 8 true fun d m => fma m (f48 (d.gpr x f.a)) (f48 (d.gpr x f.b)) (f48 (d.gpr x f.d))
/-- FMIN (R376). -/
def fminOp (x : Ctx) (f : RR) (d : Dev) : Dev := d.floatMinMax x 0x86 f false
/-- FMAX. -/
def fmaxOp (x : Ctx) (f : RR) (d : Dev) : Dev := d.floatMinMax x 0x87 f true
/-- ITOF: signed where func9[3] is 0. -/
def itofOp (x : Ctx) (f : RR) (d : Dev) : Dev :=
  d.float x 0x88 f 16 (f.b.val = 0) fun d m =>
    itof m (if f.func.toNat < 8 then (d.gpr x f.a).toInt else ((d.gpr x f.a).toNat : Int))
/-- FTOI: signed where func9[3] is 0. -/
def ftoiOp (x : Ctx) (f : RR) (d : Dev) : Dev :=
  d.float x 0x89 f 16 (f.b.val = 0) fun d m => ftoi m (f.func.toNat < 8) (f48 (d.gpr x f.a))
/-- FSGN (R377). -/
def fsgnOp (x : Ctx) (f : RR) (d : Dev) : Dev :=
  let k := f.func.toNat
  d.issue x (f.word 0x8A) { control := true, zero := f.rsv = 0 && k < 4 && (2 ≤ k || f.b.val = 0), value := k ≠ 3 } fun d =>
    let a := d.gpr x f.a
    let s := match k with | 0 => !bit a 47 | 1 => false | _ => bit (d.gpr x f.b) 47
    { dev := d.setGpr x f.d (setBit a 47 s) }
/-- FCLASS. -/
def fclassOp (x : Ctx) (f : RR) (d : Dev) : Dev :=
  d.issue x (f.word 0x8B) { control := true, zero := f.rsv = 0 && f.func = 0 && f.b.val = 0 } fun d =>
    { dev := d.setGpr x f.d (fclass (d.gpr x f.a)) }

/-- MFS (R382). -/
def mfsOp (x : Ctx) (f : RI) (d : Dev) : Dev :=
  d.issue x (f.word 0x90) { control := true, zero := f.a.val = 0, value := f.imm.toNat ≤ 17 } fun d =>
    { dev := d.setGpr x f.d (d.readSpecial x f.imm.toNat) }
/-- MTS: an RO register fails; what TDATA then holds is free. (Log entry 85 DESIGN CHOICE.) -/
def mtsOp (x : Ctx) (f : RI) (d : Dev) : Dev :=
  d.issue x (f.word 0x91) { control := true, zero := f.d.val = 0, value := f.imm.toNat ≤ 17 } fun d =>
    let k := f.imm.toNat
    match specialMask k with
    | none =>
      let t := d.free
      { dev := t.2, fault := some (0x12, 2, wordOf t.1) }
    | some m =>
      let p := d.ctx x
      { dev := d.setCtx x (p.setSpecial k ((p.special k &&& ~~~m &&& (if k = 1 then 0x3F else 0)) ||| (d.gpr x f.a &&& m))) }
/-- ERET (R384): outside a trap frame it fails; what TDATA then holds is free. (Log entries 84 DEDUCED, 85 DESIGN CHOICE.) -/
def eretOp (x : Ctx) (f : RR) (d : Dev) : Dev :=
  d.issue x (f.word 0x92)
    { control := true, norep := true, zero := f.rsv = 0 && f.func = 0 && f.d.val = 0 && f.a.val = 0 && f.b.val = 0 } fun d =>
    let p := d.ctx x
    let back (status pc count : Word) : Effect :=
      let rep := if bit status 5 && count ≠ 0 then some count.toNat else none
      let pc' := if bit status 5 && count = 0 then pc + 2 else pc
      { dev := d.setCtx x { (p.setSpecial 1 status) with rep := rep }, jump := some pc' }
    if bit p.status 3 then back (p.special 3) (p.special 2) (p.special 11)
    else if bit p.status 2 then back (p.special 5) (p.special 4) (p.special 12)
    else
      let t := d.free
      { dev := t.2, fault := some (0x11, 2, wordOf t.1) }

/-- A record is in either queue of a control context (R385, R535). -/
def Dev.hasRecord (d : Dev) (x : Ctx) : Bool := !d.queueEmpty (2 * ctxTarget x) || !d.queueEmpty (2 * ctxTarget x + 1)

/-- A control context waits in WFE, or has left it. -/
def Dev.setWaiting (d : Dev) (x : Ctx) (b : Bool) : Dev :=
  match x with
  | .core k => d.wrF .ctlCorekCtl k.val 3 2 (if b then 2 else 1)
  | _ => d.setCtx x { d.ctx x with waiting := b }

/-- A control context waits in WFE. -/
def Dev.isWaiting (d : Dev) (x : Ctx) : Bool :=
  match x with
  | .core k => d.domOn 17 && d.rdF .ctlCorekCtl k.val 3 2 = 2
  | .goatherd => d.powered && (d.ctx x).waiting
  | .channel _ => false

/-- WFE (R385). -/
def wfeOp (x : Ctx) (f : RR) (d : Dev) : Dev :=
  d.issue x (f.word 0x93)
    { control := true, norep := true, zero := f.rsv = 0 && f.func = 0 && f.d.val = 0 && f.a.val = 0 && f.b.val = 0 } fun d =>
    if d.hasRecord x then { dev := d } else { dev := d.setWaiting x true, jump := some (d.ctx x).pc }
/-- WFE_WAKE: the WFE of a waiting context completes. -/
def wfeWakeOp (x : Ctx) (d : Dev) : Dev :=
  if d.isWaiting x && d.hasRecord x then
    let d := d.setWaiting x false
    d.setCtx x { d.ctx x with pc := (d.ctx x).pc + 1 }
  else d
/-- MFA (R385). -/
def mfaOp (x : Ctx) (f : RR) (d : Dev) : Dev :=
  d.issue x (f.word 0x94) { control := true, zero := f.rsv = 0 && f.func = 0 && f.b.val = 0 } fun d =>
    { dev := d.setGpr x f.d ((d.ctx x).reg (!(d.ctx x).fast) f.a.val) }
/-- MTA. -/
def mtaOp (x : Ctx) (f : RR) (d : Dev) : Dev :=
  d.issue x (f.word 0x95) { control := true, zero := f.rsv = 0 && f.func = 0 && f.b.val = 0 } fun d =>
    { dev := d.setCtx x ((d.ctx x).setReg (!(d.ctx x).fast) f.d.val (d.gpr x f.a)) }
/-- TRAP (R385). (Log entry 86 DEDUCED.) -/
def trapOp (x : Ctx) (f : RI) (d : Dev) : Dev :=
  d.issue x (f.word 0x96) { control := true, norep := true, zero := f.d.val = 0 && f.a.val = 0 } fun d =>
    let t := d.normalTrap x 1 0 0 f.sx ((d.ctx x).pc + 1)
    { dev := t, jump := some (t.ctx x).pc }

/-- REP (R378, R379): the word after it is fetched first; a failure is raised here. -/
def repOp (x : Ctx) (f : RepWord) (d : Dev) : Dev :=
  let p := d.ctx x
  let a := p.pc + 1
  let w := d.fetchWord x a
  if d.ctxRuns x && p.rep.isNone && w.1.isSome then
    match w.1 with
    | some e => w.2.2.instrFault x 0 a e.1 e.2 a
    | none => d
  else
    let d := if d.ctxRuns x && p.rep.isNone then w.2.2 else d
    let bad := p.rep.isNone && repForbidden (fld w.2.1 47 40)
    if bad && d.ctxRuns x then d.instrFault x 0xA0 p.pc 0x11 4 f.word
    else
      d.issue x f.word
        { norep := true, zero := (f.mode.val ≠ 0 || f.a.val = 0) && (f.mode.val ≠ 1 || f.imm = 0), value := f.mode.val ≤ 1 }
        fun d =>
          let n := if f.mode.val = 0 then f.imm.toNat else (d.gpr x f.a).toNat
          if n = 0 then { dev := d, jump := some (p.pc + 2) }
          else { dev := d.setCtx x { d.ctx x with rep := some n }, jump := some p.pc }

/-- HINT (R350): no operation. -/
def hintOp (x : Ctx) (op : Nat) (rest : BitVec 40) (d : Dev) : Dev :=
  d.issue x (setFld (rest.setWidth 48) 47 40 (0xF0 + op)) { hint := true } fun d => { dev := d }

/-- FAST_TRAP (R383): a record in the fast-class queue with IE_F set, at a boundary. -/
def fastTrapOp (x : Ctx) (d : Dev) : Dev :=
  if isControl x && d.ctxRuns x && bit (d.ctx x).status 1 && !d.queueEmpty (2 * ctxTarget x + 1) then d.fastTrap x else d

/-- NORMAL_TRAP (R383): KIND 2, where no fast trap is due. -/
def normalTrapOp (x : Ctx) (d : Dev) : Dev :=
  let s := (d.ctx x).status
  if isControl x && d.ctxRuns x && bit s 0 && !d.queueEmpty (2 * ctxTarget x) &&
      !(bit s 1 && !d.queueEmpty (2 * ctxTarget x + 1)) then
    d.normalTrap x 2 0 0 0 (d.ctx x).pc
  else d

/-- UNDEFINED_OPCODE (R345, R347): check 2, or check 3 for the channel command space in the control profile.
(Log entry 81 DEDUCED.) -/
def undefinedOpcodeOp (x : Ctx) (w : Word) (d : Dev) : Dev :=
  let op := fld w 47 40
  let command := 0xC0 ≤ op && op ≤ 0xDF
  if opcodeDefined op && !(command && isControl x) then d
  else
    d.issue x w { undef := some (if command && isControl x then 3 else 0) } fun d => { dev := d }

/-- FETCH_FAULT (R347 check 1, R349, R359): ADDR and TDATA name the address whose fetch failed. (Log entry 81 DEDUCED.) -/
def fetchFaultOp (x : Ctx) (why : FetchFail) (d : Dev) : Dev :=
  let a := (d.ctx x).at_
  let e : Nat × Nat := match why with
    | .unpopulated => (0x21, if isControl x then 0 else 7)
    | .area => (0x21, 7)
    | .uncorrectable => (0x1A, 0)
    | .poison => (0x18, 0)
  if !d.ctxRuns x then d else d.instrFault x 0 a e.1 e.2 a

end Sys2Proof.Machine
end

