-- ==== Sys2Proof/WellFormed.lean ====
section
/-! DEFINITION. The well-formed commands: those whose operands some party can give. An operand that its type already bounds is
not judged here. -/

namespace Sys2Proof

/-- A device number of a herd (R80). -/
def deviceNumber (n : Nat) : Bool := decide (n < 1024)

/-- An IP address has the width of its family. -/
def HostAddr.wf (a : HostAddr) : Bool := decide (a.addr < 2 ^ (if a.v6 then 128 else 32))

/-- The carrier of a frame gives addresses of their families' widths. -/
def BopCarrier.wf : BopCarrier → Bool
  | .eth _ peer _ => peer.src.wf && peer.dst.wf
  | _ => true

/-- The payload of an Ethernet frame likewise. -/
def EthPayload.wf (x : EthPayload) : Bool :=
  match x.body with
  | .echo src dst _ | .echoReply src dst _ | .bop src dst _ => src.wf && dst.wf
  | _ => true

/-- A blob message names two devices of the herd and carries 1 to 32 words (R114). -/
def BlobMsg.wf (b : BlobMsg) : Bool :=
  deviceNumber b.src && deviceNumber b.dest && decide (1 ≤ b.words.length) && decide (b.words.length ≤ 32)

/-- An ENUM gives a number up to the one that is refused as the 1,025th device's, and a depth up to 7 (R81). -/
def EnumMsg.wf (m : EnumMsg) : Bool :=
  decide (m.number ≤ 1024) && decide (m.depth < 8) && m.below.all (fun x => deviceNumber x.number)

/-- A queue entry is 64 bytes (R490). -/
def entryBytes (e : List (BitVec 8)) : Bool := e.length = 64

/-- A tile is 512 words. -/
def wholeTile (t : List Word) : Bool := t.length = 512

/-- A well-formed command. (Log entries 6 DEDUCED, 8 DESIGN CHOICE.) -/
def Instr.wf : Instr → Bool
  | .enum _ m => m.wf
  | .beat _ f _ _ => f.blocks.length = 11
  | .enumRsp _ m => m.members.all (fun x => deviceNumber x.number)
  | .commitReq m => deviceNumber m.msg.requester
  | .commitDone m => deviceNumber m.msg.requester
  | .tileReq _ m => deviceNumber m.requester && deviceNumber m.dest
  | .tileData m => deviceNumber m.msg.requester && wholeTile m.msg.words
  | .tileEnd m => deviceNumber m.msg.requester
  | .piece b => b.msg.wf
  | .progress b => b.msg.wf
  | .returnRecord b => b.msg.wf
  | .queryDescriptor ws => ws.length = 6
  | .refDefine _ ws => ws.length = 4
  | .retroSubmit _ ws => ws.length = 6
  | .mbxGo _ len => decide (len < 2 ^ 17)
  | .entryTake _ _ e => e.all entryBytes
  | .refWrite _ _ _ tiles _ => tiles.all wholeTile
  | .stopFinish _ _ _ entries => entries.all entryBytes
  | .bopFrame x => x.wf
  | .connect _ src _ _ => src.wf
  | .ethFrame _ _ _ _ x => x.wf
  | _ => true

end Sys2Proof
end

