-- ==== Sys2Proof/Machine/Run.lean ====
section
/-! DEFINITION. How a command acts on the machine: on the block, with the queue left alone; and what time does when no command
waits. -/

namespace Sys2Proof.Machine

/-- The block changes whatever its state; the queue stays. So act the supplies and the levels at the pins.
(Log entry 163 DEDUCED.) -/
def State.runAlways (s : State) (f : Dev → Dev) : Host.Outcome State Fault Refusal := .next { s with dev := f s.dev }

/-- The block changes while supplies stand: in OFF all three planes are off and a command finds nothing that acts (R22).
(Log entries 7 DEDUCED, 149 DESIGN CHOICE, 163 DEDUCED.) -/
def State.run (s : State) (f : Dev → Dev) : Host.Outcome State Fault Refusal :=
  s.runAlways (fun d => if d.powered then f d else d)

/-- The same for a command that could be ill-formed. (Log entry 8 DESIGN CHOICE.) -/
def State.runWf (s : State) (ok : Bool) (f : Dev → Dev) : Host.Outcome State Fault Refusal :=
  if ok then s.run f else .fault .illFormed

/-- The same for a command after which heads may have entered or left RUN (R133, R171). -/
def State.runHeads (s : State) (f : Dev → Dev) : Host.Outcome State Fault Refusal := s.run (fun d => d.followHeads (f d))

/-- FUNCTION_DETACH, and the mailbox session that goes with the function (R561). -/
def detachOp (f : Fin 2) (cause : DetachCause) (d : Dev) : Dev :=
  let d := functionDetachOp f.val cause d
  if d.attached f.val then d else d.closeSessions (fun s => decide (s.path = .mailbox f))

/-- RETRO_SUBMIT through 6200h.1 (R221): the outcome is the record's. -/
def retroSubmitOp (j : Nat) (ws : List Word) (d : Dev) : Dev :=
  let r := d.retroSubmit j ws
  r.2.2.answer r.1 r.2.1

/-- A nanosecond passes with nothing commanded (R9): while supplies stand the time stamp advances, the HELLOs of training ports
leave (R76), the ports of the tile fabric arbitrate (R440), and the beats whose instant has come take effect (R48, R92).
(Log entries 2 DESIGN CHOICE, 5 DESIGN CHOICE, 44 DESIGN CHOICE.) -/
def tickOp (d : Dev) : Dev :=
  if d.powered then
    let k := d.arbitrate.steerTick
    let d := { k.2 with now := d.now + wordOfInt k.1, ghd := d.ghd.passed (d.domOn 17) }
    (forUpTo 4 Dev.helloDue d).passBeats
  else d

end Sys2Proof.Machine
end

