-- ==== Sys2Proof/Machine/ExecBus.lean ====
section
/-! DEFINITION. The meanings of the commands of register writes (01_line_to_candidate.md),
one for each row of the table. -/

namespace Sys2Proof.Machine

/-- REGISTER_WRITE (R4): A write to a register field that has no row of its own stores, ignores, sets or clears the field
according to its access code, including discards and refusals of R2, R5, R15–R18, R70, R126, R173, R232, R339, R453 and R479.
-/
def execRegisterWrite (by_ : Requester) (win : Fin 256) (off : BitVec 16) (w : BusWord) (s : State) :
    Host.Outcome State Fault Refusal :=
  s.run (registerWriteOp by_ win.val off.toNat w)

end Sys2Proof.Machine
end

