-- ==== Sys2Proof/Machine/ExecChm.lean ====
section
/-! DEFINITION. The meanings of the commands of correction and extraction (06_correction_extraction.md),
one for each row of the table. -/

namespace Sys2Proof.Machine

/-- CAL_START (R251): A write of 1 to START begins a dark or flat accumulation for a running head. -/
def execCalStart (s : State) : Host.Outcome State Fault Refusal := s.run calStartOp

/-- COEF_WRITE (R285): A write to 4100h.1 writes coefficient words, or is refused whole if it passes the end. -/
def execCoefWrite (off : Nat) (ws : List Word) (s : State) : Host.Outcome State Fault Refusal := s.run (coefWriteOp off ws)

/-- PIECE_RELEASE (R262): A piece becomes complete and is forwarded, released as a candidate or counted weak. -/
def execPieceRelease (n : Nat) (s : State) : Host.Outcome State Fault Refusal := s.run (pieceReleaseOp n)

/-- MERGE_TIMEOUT (R270): MERGE_WAIT passes without PROGRESS covering a piece and it is settled with EDGE. -/
def execMergeTimeout (n : Nat) (s : State) : Host.Outcome State Fault Refusal := s.run (mergeTimeoutOp n)

/-- CATCHUP_RESUME (R279): At least 1,024 live queue entries are free and CEX writes held records and extracts heads in
CATCHUP. -/
def execCatchupResume (s : State) : Host.Outcome State Fault Refusal := s.run catchupResumeOp

end Sys2Proof.Machine
end

