-- ==== Sys2Proof/Machine/ExecCxi.lean ====
section
/-! DEFINITION. The meanings of the commands of camera ingest (04_camera_ingest.md),
one for each row of the table. -/

namespace Sys2Proof.Machine

/-- HEAD_ENABLE (R131): A write of EN of a head enables it subject to R131, starting LINKING, or takes it OFF. -/
def execHeadEnable (h : Fin 64) (en : Bool) (s : State) : Host.Outcome State Fault Refusal := s.run (headEnableOp h.val en)

/-- RETRY (R133): A write of 1 to RETRY takes a head from FAULT to LINKING at once. -/
def execRetry (h : Fin 64) (s : State) : Host.Outcome State Fault Refusal := s.runHeads (retryOp h.val)

/-- HEAD_FAULT_RETRY (R133): One second after a head enters FAULT it returns to LINKING. -/
def execHeadFaultRetry (h : Fin 64) (s : State) : Host.Outcome State Fault Refusal := s.runHeads (headFaultRetryOp h.val)

/-- HEAD_LINK_LOSS (R133): A link of a LINKED or RUN head has been DOWN for 100 ms and the head enters FAULT with CAUSE 5. -/
def execHeadLinkLoss (h : Fin 64) (s : State) : Host.Outcome State Fault Refusal := s.runHeads (headLinkLossOp h.val)

/-- PCX_ENABLE (R136): PCX_EN of a link is written 1, PCX_EN_n is asserted and supervision starts in INRUSH. -/
def execPcxEnable (l : Fin 64) (s : State) : Host.Outcome State Fault Refusal := s.run (pcxEnableOp l.val)

/-- PCX_SHORT (R136): In the inrush window the link's current meets SHORT_MA with the group fault low, or stays at it for 1
ms, and the switch is turned off. -/
def execPcxShort (l : Fin 64) (ma : Nat) (fltLow : Bool) (held : Bool) (s : State) : Host.Outcome State Fault Refusal :=
  s.run (pcxShortOp l.val ma fltLow held)

/-- PCX_OVERCURRENT (R136): OC_MA is exceeded for 10 ms and the switch is turned off. -/
def execPcxOvercurrent (l : Fin 64) (ma : Nat) (s : State) : Host.Outcome State Fault Refusal :=
  s.run (pcxOvercurrentOp l.val ma)

/-- PCX_OPEN (R138): The current stays below OPEN_MA for a 100 ms window and the switch is turned off, retried every 2 s. -/
def execPcxOpen (l : Fin 64) (ma : Nat) (s : State) : Host.Outcome State Fault Refusal := s.run (pcxOpenOp l.val ma)

/-- PCX_ON (R136): 500 ms after assertion PCX_STATE becomes ON and CXI starts discovery on the link. -/
def execPcxOn (l : Fin 64) (s : State) : Host.Outcome State Fault Refusal := s.run (pcxOnOp l.val)

/-- PCX_AUTO_RETRY (R137): The retry interval after a failure passes and FIO asserts PCX_EN_n again, or enters LOCKOUT after
the third failure. -/
def execPcxAutoRetry (l : Fin 64) (s : State) : Host.Outcome State Fault Refusal := s.run (pcxAutoRetryOp l.val)

/-- PCX_RETRY (R137): A write of 1 to PCX_RETRY leaves LOCKOUT. -/
def execPcxRetry (l : Fin 64) (s : State) : Host.Outcome State Fault Refusal := s.run (pcxRetryOp l.val)

/-- PCX_FLT_ASSERT (R138): A group's PCX_FLT_N goes low; with no link at SHORT_MA it is counted in CXI_GRPg_STAT. -/
def execPcxFltAssert (g : Fin 4) (s : State) : Host.Outcome State Fault Refusal := s.run (pcxFltAssertOp g.val)

/-- DISCOVERY_POLL (R139): Every 100 ms CXI reads the camera's version and connection number on each link until it answers. -/
def execDiscoveryPoll (h : Fin 64) (s : State) : Host.Outcome State Fault Refusal := s.run (discoveryPollOp h.val)

/-- DISCOVERY_TIMEOUT (R139): DISC_TMO passes without an answer and the head enters FAULT with CAUSE 1. -/
def execDiscoveryTimeout (h : Fin 64) (s : State) : Host.Outcome State Fault Refusal := s.run (discoveryTimeoutOp h.val)

/-- HEARTBEAT (R143): Every HB_MS ms CXI sends a heartbeat packet with the device time stamp on each LINKED or RUN head. -/
def execHeartbeat (s : State) : Host.Outcome State Fault Refusal := s.run heartbeatOp

/-- CONTROL_REQUEST (R144): A write to 3200h.1 sends a control command to the camera, or is refused. -/
def execControlRequest (h : Fin 64) (req : ControlReq) (s : State) : Host.Outcome State Fault Refusal :=
  s.run (controlRequestOp h.val req)

/-- CONTROL_ACK (R144): The camera's acknowledgement arrives and completes the control request, or a CRC failure resends it.
-/
def execControlAck (h : Fin 64) (crcOk : Bool) (code : Nat) (data : List (BitVec 8)) (s : State) :
    Host.Outcome State Fault Refusal :=
  s.run (controlAckOp h.val crcOk code data)

/-- CONTROL_TIMEOUT (R144): No acknowledgement arrives within the timeout and the request completes with LINK_DOWN 01h. -/
def execControlTimeout (h : Fin 64) (s : State) : Host.Outcome State Fault Refusal := s.run (controlTimeoutOp h.val)

/-- EVENT_PACKET (R146): A good event packet is stored in the head's message FIFO and acknowledged, or withheld while the FIFO
is full. -/
def execEventPacket (h : Fin 64) (payload : List (BitVec 8)) (s : State) : Host.Outcome State Fault Refusal :=
  s.run (eventPacketOp h.val payload)

/-- STREAM_PACKET (R157): A stream packet is deframed, reassembled and packed into staging words under credits. -/
def execStreamPacket (l : Fin 64) (p : StreamPacket) (s : State) : Host.Outcome State Fault Refusal :=
  s.run (streamPacketOp l.val p)

/-- GAP_TIMEOUT (R147): A missing tag stays missing 2 µs after a later tag arrived and CXI ends the line PARTIAL with cause
GAP. -/
def execGapTimeout (h : Fin 64) (s : State) : Host.Outcome State Fault Refusal := s.run (gapTimeoutOp h.val)

/-- LINE_LOST_TIMEOUT (R151): A record stays unpaired LAT_MAX ns after its fire and becomes a lost line with cause NO_LINE. -/
def execLineLostTimeout (h : Fin 64) (s : State) : Host.Outcome State Fault Refusal := s.run (lineLostTimeoutOp h.val)

/-- CHAMOIS_LINE_START (R160): CUT credits of a line are in staging, or the line has ended, and Chamois starts correcting it.
-/
def execChamoisLineStart (h : Fin 64) (s : State) : Host.Outcome State Fault Refusal := s.run (chamoisLineStartOp h.val)

/-- CHAMOIS_LINE_END (R234): Chamois finishes a line's correction stages and passes its pixels to tiles and live extraction.
-/
def execChamoisLineEnd (h : Fin 64) (s : State) : Host.Outcome State Fault Refusal := s.run (chamoisLineEndOp h.val)

/-- SEAM_TIMEOUT (R245): SEAM_WAIT passes without the partner's line and the seam is counted as a miss. -/
def execSeamTimeout (h : Fin 64) (s : State) : Host.Outcome State Fault Refusal := s.run (seamTimeoutOp h.val)

/-- CREDIT_RETURN (R155): Once a line is no longer needed Chamois returns all its staging credits. -/
def execCreditReturn (h : Fin 64) (s : State) : Host.Outcome State Fault Refusal := s.run (creditReturnOp h.val)

/-- CXP_LINK_CHANGE (R133): A CoaXPress link gains or loses its footing and goes UP or DOWN, ending a line in progress with
cause LINK and starting the 100 ms loss count. -/
def execCxpLinkChange (l : Fin 64) (up : Bool) (s : State) : Host.Outcome State Fault Refusal :=
  s.runHeads (cxpLinkChangeOp l.val up)

/-- DISCOVERY_ANSWER (R139): The camera answers the discovery read or acknowledges the connection configuration, moving
discovery on or the head to LINKED. -/
def execDiscoveryAnswer (x : DiscAnswer) (s : State) : Host.Outcome State Fault Refusal := s.runHeads (discoveryAnswerOp x)

end Sys2Proof.Machine
end

