-- ==== Sys2Proof/Machine/ExecDict.lean ====
section
/-! DEFINITION. The meanings of the commands of the dictionary and the field network (14_object_dictionary.md),
one for each row of the table. -/

namespace Sys2Proof.Machine

/-- BOP_FRAME (R553): A whole BOP frame from a path is checked and its records executed in order. -/
def execBopFrame (x : BopCarrier) (s : State) : Host.Outcome State Fault Refusal := s.runWf (x.wf) (bopFrameOp x)

/-- CONNECT (R559): Opens a session with an agreed version, or refuses. -/
def execConnect (x : BopPath) (src : HostAddr) (lo : BitVec 8) (hi : BitVec 8) (s : State) :
    Host.Outcome State Fault Refusal :=
  s.runWf (src.wf) (connectOp x src lo hi)

/-- CLOSE (R561): Closes the session. -/
def execClose (x : BopPath) (s : Nat) (st : State) : Host.Outcome State Fault Refusal := st.run (closeOp x s)

/-- READ (R558): Reads a scalar or STR object's value in effect. -/
def execRead (x : BopPath) (s : Nat) (o : ObjName) (st : State) : Host.Outcome State Fault Refusal := st.run (readOp x s o)

/-- WRITE (R570): Writes a scalar or STR object, taking effect or shadowed. -/
def execWrite (x : BopPath) (s : Nat) (o : ObjName) (value : List (BitVec 8)) (st : State) :
    Host.Outcome State Fault Refusal :=
  st.run (writeOp x s o value)

/-- READ_SEG (R562): Reads a segment of a DOM or TBL object, taking a snapshot at offset 0. -/
def execReadSeg (x : BopPath) (s : Nat) (o : ObjName) (off : Nat) (len : Nat) (st : State) :
    Host.Outcome State Fault Refusal :=
  st.run (readSegOp x s o off len)

/-- WRITE_SEG (R562): Writes a segment of a DOM or TBL object, applying it at LAST. -/
def execWriteSeg (x : BopPath) (s : Nat) (o : ObjName) (last : Bool) (off : Nat) (bytes : List (BitVec 8)) (st : State) :
    Host.Outcome State Fault Refusal :=
  st.run (writeSegOp x s o last off bytes)

/-- COMMIT (R572): Sends a commit request to the lead, or refuses it. -/
def execCommit (x : BopPath) (s : Nat) (data : List (BitVec 8)) (st : State) : Host.Outcome State Fault Refusal :=
  st.run (commitOp x s data)

/-- DISCARD (R576): Empties the pending set, or is refused while frozen. -/
def execDiscard (x : BopPath) (s : Nat) (st : State) : Host.Outcome State Fault Refusal := st.run (discardOp x s)

/-- DESCRIBE (R558): Returns an object's type, access, properties and size. -/
def execDescribe (x : BopPath) (s : Nat) (o : ObjName) (st : State) : Host.Outcome State Fault Refusal :=
  st.run (describeOp x s o)

/-- SESSION_TIMEOUT (R561): 10 s pass with no request and a field network session closes. -/
def execSessionTimeout (x : BopPath) (s : Nat) (st : State) : Host.Outcome State Fault Refusal :=
  st.run (sessionTimeoutOp x s)

/-- SEGMENT_TIMEOUT (R562): A segment transfer with no segment for 10 s is discarded. -/
def execSegmentTimeout (x : BopPath) (s : Nat) (index : BitVec 16) (sub : BitVec 8) (st : State) :
    Host.Outcome State Fault Refusal :=
  st.run (segmentTimeoutOp x s index.toNat sub.toNat)

/-- PROGRAM_WRITE (R340): A write to 5000h.1 writes words into the program area, or is refused. -/
def execProgramWrite (off : Nat) (ws : List Word) (s : State) : Host.Outcome State Fault Refusal :=
  s.run (programWriteOp off ws)

/-- STORE_CONFIGURATION (R550): A write of 1 to 1010h.1 writes the values in force of stored objects to flash. -/
def execStoreConfiguration (s : State) : Host.Outcome State Fault Refusal := s.run storeConfigurationOp

/-- ERASE_CONFIGURATION (R550): A write of 1 to 1010h.2 erases the stored configuration. -/
def execEraseConfiguration (s : State) : Host.Outcome State Fault Refusal := s.run eraseConfigurationOp

/-- FLASH_OPERATION_DONE (R585): A flash store, erase or program ends and its state is reported. -/
def execFlashOperationDone (ok : Bool) (s : State) : Host.Outcome State Fault Refusal := s.run (flashOperationDoneOp ok)

/-- ETH_FRAME (R564): An Ethernet frame is accepted and answered or passed to BOP, or dropped and counted. -/
def execEthFrame (p : Fin 2) (len : Nat) (fcsOk : Bool) (tagged : Bool) (x : EthPayload) (s : State) :
    Host.Outcome State Fault Refusal :=
  s.runWf (x.wf) (ethFrameOp p len fcsOk tagged x)

/-- ETH_LINK_CHANGE (R561): An ETH port gains or loses link, closing its sessions on loss. -/
def execEthLinkChange (p : Fin 2) (up : Bool) (present : Bool) (s : State) : Host.Outcome State Fault Refusal :=
  s.run (ethLinkChangeOp p.val up present)

/-- PTP_SYNC (R566): An 802.1AS synchronisation sets ETH_PTP_OFS. -/
def execPtpSync (p : Fin 2) (time : BitVec 64) (gm : BitVec 64) (s : State) : Host.Outcome State Fault Refusal :=
  s.run (ptpSyncOp p.val time gm)

end Sys2Proof.Machine
end

