-- ==== Sys2Proof/Machine/ExecEvc.lean ====
section
/-! DEFINITION. The meanings of the commands of the event controller (13_events.md),
one for each row of the table. -/

namespace Sys2Proof.Machine

/-- EVENT_RAISE (R526): A pulse is raised or a level activates and the source becomes pending with its stamp, or merges. -/
def execEventRaise (i : Fin 1024) (s : State) : Host.Outcome State Fault Refusal := s.run (eventRaiseOp i.val)

/-- LEVEL_INACTIVE (R527): A level source's input goes inactive. -/
def execLevelInactive (i : Fin 1024) (s : State) : Host.Outcome State Fault Refusal := s.run (levelInactiveOp i.val)

/-- EVENT_COMMIT (R531): A queue with room commits one record of a pending unmasked source. -/
def execEventCommit (q : Fin 10) (s : State) : Host.Outcome State Fault Refusal := s.run (eventCommitOp q.val)

/-- EVC_SET (R537): A write to EVC_SET sets SW of a source. -/
def execEvcSet (i : Fin 1024) (s : State) : Host.Outcome State Fault Refusal := s.run (evcSetOp i.val)

/-- EVC_ACK (R537): A write to EVC_ACK clears S and SW and re-pends a held active level. -/
def execEvcAck (i : Fin 1024) (s : State) : Host.Outcome State Fault Refusal := s.run (evcAckOp i.val)

/-- EVC_CLR (R537): A write to EVC_CLR discards an uncommitted fact. -/
def execEvcClr (i : Fin 1024) (s : State) : Host.Outcome State Fault Refusal := s.run (evcClrOp i.val)

/-- QUEUE_POP (R533): A write to EVC_Qq_POP advances CONS by one. -/
def execQueuePop (q : Fin 10) (s : State) : Host.Outcome State Fault Refusal := s.run (queuePopOp q.val)

/-- QUEUE_CONS_WRITE (R533): A write to EVC_Qq_CONS sets CONS, or is refused. -/
def execQueueConsWrite (q : Fin 10) (v : Word) (s : State) : Host.Outcome State Fault Refusal :=
  s.run (queueConsOp q.val (fld v 8 0))

/-- ALARM_ARM (R540): A write to EVC_ALMt arms the target's alarm. -/
def execAlarmArm (t : Fin 5) (time : Word) (s : State) : Host.Outcome State Fault Refusal := s.run (alarmArmOp t.val time)

/-- ALARM_FIRE (R540): The device time stamp reaches the alarm time and source ALARM is raised. -/
def execAlarmFire (t : Fin 5) (s : State) : Host.Outcome State Fault Refusal := s.run (alarmFireOp t.val)

end Sys2Proof.Machine
end

