-- ==== Sys2Proof/Machine/ExecFio.lean ====
section
/-! DEFINITION. The meanings of the commands of the field I/O die (16_field_io.md),
one for each row of the table. -/

namespace Sys2Proof.Machine

/-- WIRE_PROBE (R611): Every 1 ms FIO shifts each input pair's common mode and judges OPEN. -/
def execWireProbe (follow : List (Fin 40)) (s : State) : Host.Outcome State Fault Refusal := s.run (wireProbeOp follow)

/-- PAIR_FAULT_DETECT (R611): A pair fault holds for its judging time and FIO sets the NOW and LATCHED bits. -/
def execPairFaultDetect (pair : FieldPair) (fault : PairFault) (s : State) : Host.Outcome State Fault Refusal :=
  s.run (pairFaultDetectOp pair fault)

/-- PAIR_FAULT_CLEAR (R612): A fault condition absent for 100 ms clears its NOW bit. -/
def execPairFaultClear (pair : FieldPair) (fault : PairFault) (s : State) : Host.Outcome State Fault Refusal :=
  s.run (pairFaultClearOp pair fault)

/-- FIO_ENC_CFG_WRITE (R616): A write to FIO_ENCn_CFG configures the input and clears its polarity and direction flags. -/
def execFioEncCfgWrite (n : Fin 8) (v : Word) (s : State) : Host.Outcome State Fault Refusal :=
  s.run (fioEncCfgWriteOp n.val v)

/-- FIELD_INPUT_PIN (R618): A field input crosses its threshold and the crossing is stamped. -/
def execFieldInputPin (k : Fin 16) (level : Bool) (s : State) : Host.Outcome State Fault Refusal :=
  s.runAlways (fieldInputPinOp k.val level)

/-- FIELD_INPUT_ACCEPT (R618): A field input holds its new level for FILT_US and FIO raises FINk for a selected edge. -/
def execFieldInputAccept (k : Fin 16) (s : State) : Host.Outcome State Fault Refusal := s.run (fieldInputAcceptOp k.val)

/-- REVERSED_DETECT (R619): The level stays opposite to REST for REST_T seconds and FIO sets REVERSED. -/
def execReversedDetect (k : Fin 16) (s : State) : Host.Outcome State Fault Refusal := s.run (reversedDetectOp k.val)

/-- POLARITY_CHECK (R620): A write of 1 to PCHK places the driver in high impedance to measure the far-end bias, or is
refused. -/
def execPolarityCheck (x : Fin 48) (s : State) : Host.Outcome State Fault Refusal := s.run (polarityCheckOp x.val)

/-- POLARITY_CHECK_DONE (R620): After 20 µs FIO restores the driver and sets the PCHK result. -/
def execPolarityCheckDone (x : Fin 48) (mv : Int) (s : State) : Host.Outcome State Fault Refusal :=
  s.run (polarityCheckDoneOp x.val mv)

/-- DRIVER_SHUTOFF (R621): A leg at the current limit for 100 µs places the driver in SHUTOFF, or in LOCKOUT at the eighth
within 1 s. -/
def execDriverShutoff (x : Fin 48) (s : State) : Host.Outcome State Fault Refusal := s.run (driverShutoffOp x.val)

/-- DRIVER_OVERTEMP (R622): A driver reaches 150 °C and goes to SHUTOFF with THERM set. -/
def execDriverOvertemp (x : Fin 48) (s : State) : Host.Outcome State Fault Refusal := s.run (driverOvertempOp x.val)

/-- DRIVER_RETRY (R621): RETRY_MS passes after a shutoff and the driver tries again. -/
def execDriverRetry (x : Fin 48) (temp : Int) (s : State) : Host.Outcome State Fault Refusal :=
  s.run (driverRetryOp x.val temp)

/-- UNLOCK (R622): A write of 1 to UNLOCK returns a driver from LOCKOUT to DRIVING. -/
def execUnlock (x : Fin 48) (s : State) : Host.Outcome State Fault Refusal := s.run (unlockOp x.val)

end Sys2Proof.Machine
end

