-- ==== Sys2Proof/Machine/ExecGhd.lean ====
section
/-! DEFINITION. The meanings of the commands of Goatherd (15_management_power.md, 17_electrical_package.md),
one for each row of the table. -/

namespace Sys2Proof.Machine

/-- SUPPLIES_GOOD (R578): Every rail has stood above its reset threshold for 1 ms with RESET_N high and the device enters
BOOT. -/
def execSuppliesGood (pll : Bool) (prog : List (Fin 2 × List (BitVec 8))) (boot : BootReport) (s : State) :
    Host.Outcome State Fault Refusal :=
  s.runAlways (suppliesGoodOp pll prog boot)

/-- RAIL_RESET (R591): A rail stays below its reset threshold for more than 2 µs and the device is held in OFF. -/
def execRailReset (r : Fin 11) (s : State) : Host.Outcome State Fault Refusal := s.runAlways (railResetOp r.val)

/-- RESET_N_ASSERT (R632): RESET_N is low for 1 µs or more and the device goes to OFF. -/
def execResetNAssert (s : State) : Host.Outcome State Fault Refusal := s.runAlways resetNAssertOp

/-- WATCHDOG_EXPIRY (R583): The 1,000 ms watchdog expires and resets the device to BOOT with reset cause 3. -/
def execWatchdogExpiry (boot : BootReport) (s : State) : Host.Outcome State Fault Refusal := s.run (watchdogExpiryOp boot)

/-- DEVICE_RESET (R599): A write of 1 to 8010h.3 resets the device to BOOT, or is refused during a flash write. -/
def execDeviceReset (boot : BootReport) (s : State) : Host.Outcome State Fault Refusal := s.run (deviceResetOp boot)

/-- SELFTEST_COMPLETE (R427): Self-test ends and the device enters TRAIN, or FAILED. -/
def execSelftestComplete (t : SelfTest) (s0 : StackTrain) (s1 : StackTrain) (s2 : StackTrain) (s3 : StackTrain) (velvet : Bool) (ref : Bool) (s : State) :
    Host.Outcome State Fault Refusal :=
  s.run (selftestCompleteOp t s0 s1 s2 s3 velvet ref)

/-- TRAIN_COMPLETE (R578): Every stack and link group is ON or fenced and the device enters READY. -/
def execTrainComplete (s : State) : Host.Outcome State Fault Refusal := s.run trainCompleteOp

/-- READY_DEADLINE (R579): READY is not reached 2,000 ms after supplies good and the device enters FAILED with cause 10. -/
def execReadyDeadline (s : State) : Host.Outcome State Fault Refusal := s.run readyDeadlineOp

/-- PLL_LOCK_TIMEOUT (R636): The always-on PLL has not locked 10 ms after supplies good and FAULT_N goes low. -/
def execPllLockTimeout (s : State) : Host.Outcome State Fault Refusal := s.run pllLockTimeoutOp

/-- SERVICE_REQUEST (R578): A write to 8010h.1 takes the device between READY and RUN or DEGRADED. -/
def execServiceRequest (v : Nat) (s : State) : Host.Outcome State Fault Refusal := s.run (serviceRequestOp v)

/-- RETURN_FENCED (R580): A write to 8010h.4 powers, trains and returns fenced stacks and link groups. -/
def execReturnFenced (v : Nat) (pass : BitVec 8) (s0 : StackTrain) (s1 : StackTrain) (s2 : StackTrain) (s3 : StackTrain) (s : State) :
    Host.Outcome State Fault Refusal :=
  s.run (returnFencedOp v pass s0 s1 s2 s3)

/-- POWER_REQUEST (R600): A write to 8020h.1 requests a power state and starts a transition. -/
def execPowerRequest (v : Nat) (s : State) : Host.Outcome State Fault Refusal := s.run (powerRequestOp v)

/-- POWER_TRANSITION_END (R600): A power transition finishes and any waiting request is acted on. -/
def execPowerTransitionEnd (phy : BitVec 4) (s : State) : Host.Outcome State Fault Refusal := s.run (powerTransitionEndOp phy)

/-- WAKE_REQUEST (R602): A committed record from a WAKE source sends Goatherd a wake request. -/
def execWakeRequest (s : State) : Host.Outcome State Fault Refusal := s.run wakeRequestOp

/-- SUPPLY_WARNING (R590): A rail reads below its warning threshold in two samples, raising SUPPLY_WARN and ALERT kind 1. -/
def execSupplyWarning (r : Fin 11) (mv : Nat) (s : State) : Host.Outcome State Fault Refusal :=
  s.run (supplyWarningOp r.val mv)

/-- SUPPLY_WARNING_END (R590): A rail in warning has stood 1 ms above nominal minus 4% and leaves warning. -/
def execSupplyWarningEnd (r : Fin 11) (mv : Nat) (s : State) : Host.Outcome State Fault Refusal :=
  s.run (supplyWarningEndOp r.val mv)

/-- THROTTLE_START (R592): A sensor reads 100 °C or more and Goatherd halves the retro array's issue rate. -/
def execThrottleStart (s : Fin 13) (t : Int) (st : State) : Host.Outcome State Fault Refusal :=
  st.run (throttleStartOp s.val t)

/-- THROTTLE_STEP (R592): Each 10 ms with a sensor still at 100 °C halves the retro rate again. -/
def execThrottleStep (s : Fin 13) (t : Int) (st : State) : Host.Outcome State Fault Refusal := st.run (throttleStepOp s.val t)

/-- THROTTLE_END (R592): Every sensor has read below 97 °C for 100 ms and the full rate is restored. -/
def execThrottleEnd (s : Fin 13) (t : Int) (st : State) : Host.Outcome State Fault Refusal := st.run (throttleEndOp s.val t)

/-- THERMAL_TRIP (R593): A sensor reads 115 °C or more in two samples and the device enters FAILED with cause 5. -/
def execThermalTrip (s : Fin 13) (t : Int) (st : State) : Host.Outcome State Fault Refusal := st.run (thermalTripOp s.val t)

/-- LOG_FLUSH (R596): Log records are written to the flash log within 1 s. -/
def execLogFlush (s : State) : Host.Outcome State Fault Refusal := s.run logFlushOp

/-- LOG_WRITE (R595): A write to 8100h.5 writes a log record with a code 800h–FFFh. -/
def execLogWrite (bytes : List (BitVec 8)) (s : State) : Host.Outcome State Fault Refusal := s.run (logWriteOp bytes)

/-- IMAGE_WRITE (R597): A segment of 9000h.2 is programmed into the inactive slot, and LAST starts verification. -/
def execImageWrite (last : Bool) (off : Nat) (bytes : List (BitVec 8)) (s : State) : Host.Outcome State Fault Refusal :=
  s.run (imageWriteOp last off bytes)

/-- IMAGE_VERIFY_DONE (R598): Verification ends and the slot becomes VALID or INVALID. -/
def execImageVerifyDone (auth : Bool) (s : State) : Host.Outcome State Fault Refusal := s.run (imageVerifyDoneOp auth)

/-- ACTIVATE (R598): A write of 1 to 9000h.4 makes the valid inactive slot active on trial. -/
def execActivate (s : State) : Host.Outcome State Fault Refusal := s.run activateOp

/-- CONFIRM (R598): A write of 1 to 9000h.5 confirms the trial image and blows rollback fuses. -/
def execConfirm (s : State) : Host.Outcome State Fault Refusal := s.run confirmOp

/-- KEY_PROGRAM (R606): A write to 9010h.2 programs an owner key slot, or is refused. -/
def execKeyProgram (x : BopPath) (bytes : List (BitVec 8)) (s : State) : Host.Outcome State Fault Refusal :=
  s.run (keyProgramOp x bytes)

/-- KEY_REVOKE (R606): A write to 9010h.3 revokes a key slot, or is refused. -/
def execKeyRevoke (x : BopPath) (slot : Nat) (s : State) : Host.Outcome State Fault Refusal := s.run (keyRevokeOp x slot)

/-- BOOT_COMPLETE (R578): Goatherd has applied the stored configuration and routing, sets EST_RUN and the device passes from
BOOT to SELFTEST. -/
def execBootComplete (s : State) : Host.Outcome State Fault Refusal := s.run bootCompleteOp

/-- PART_C_CHECK (R578): The second read of part C in TRAIN ends and its digest is compared with the first, releasing the
cores or taking the device to FAILED with cause 1. -/
def execPartCCheck (same : Bool) (s : State) : Host.Outcome State Fault Refusal := s.run (partCCheckOp same)

/-- PLL_LOCK (R636): The always-on PLL, or the SerDes reference PLL in TRAIN, locks, releasing Goatherd or the training and
starting the READY limit. -/
def execPllLock (serdes : Bool) (boot : BootReport) (s : State) : Host.Outcome State Fault Refusal :=
  s.run (pllLockOp serdes boot)

/-- THERMTRIP_COMPARATOR (R638): The analog comparator on the channel die reaches 125 °C and drives THERMTRIP_N low without
Goatherd. -/
def execThermtripComparator (s : State) : Host.Outcome State Fault Refusal := s.run thermtripComparatorOp

/-- CORRECTED_ERRORS_LOG (R432): Each second Goatherd writes one log record with the count of corrected errors for each region
or stack that had any. -/
def execCorrectedErrorsLog (s : State) : Host.Outcome State Fault Refusal := s.run correctedErrorsLogOp

end Sys2Proof.Machine
end

