-- ==== Sys2Proof/Machine/ExecHbc.lean ====
section
/-! DEFINITION. The meanings of the commands of memory integrity (10_memory_integrity.md),
one for each row of the table. -/

namespace Sys2Proof.Machine

/-- HBM_REWRITE (R410): A queued rewrite of a corrected tile issues, unless cancelled by a newer write. -/
def execHbmRewrite (s : Fin 4) (st : State) : Host.Outcome State Fault Refusal := st.run (hbmRewriteOp s.val)

/-- PATROL_READ (R411): The patrol reads the next tile of a stack at the pace of PATROL_PER. -/
def execPatrolRead (s : Fin 4) (r : PatrolReport) (st : State) : Host.Outcome State Fault Refusal :=
  st.run (patrolReadOp s.val r)

/-- STACK_FENCE (R413): PHY lock loss, excess parity errors or UE_LIM fence a stack, complete its requests and power it off.
-/
def execStackFence (s : Fin 4) (cause : FenceCause) (st : State) : Host.Outcome State Fault Refusal :=
  st.run (stackFenceOp s.val cause)

/-- FENCE_WRITE (R413): A FENCE bit written 1 fences the named stack. -/
def execFenceWrite (s : Fin 4) (st : State) : Host.Outcome State Fault Refusal := st.run (fenceWriteOp s.val)

/-- SCRUB_READ (R424): The scrubber reads the next word of its region at the pace of SCRUB_PER, correcting and writing back.
-/
def execScrubRead (r : Fin 6) (flip : Word) (flipChk : BitVec 7) (s : State) : Host.Outcome State Fault Refusal :=
  s.run (scrubReadOp r.val flip flipChk)

/-- INJECT_ARM (R426): A write of ARM arms an error injection at EDC_INJ_ADDR, or is refused with CFG_ERR. -/
def execInjectArm (by_ : Requester) (s : State) : Host.Outcome State Fault Refusal := s.run (injectArmOp by_)

end Sys2Proof.Machine
end

