-- ==== Sys2Proof/Machine/ExecHif.lean ====
section
/-! DEFINITION. The meanings of the commands of the host interface (12_host_interface.md),
one for each row of the table. -/

namespace Sys2Proof.Machine

/-- FUNCTION_ATTACH (R477): A PCIe function becomes attached and FNf_LINK is raised. -/
def execFunctionAttach (f : Fin 2) (mode : Fin 7) (s : State) : Host.Outcome State Fault Refusal :=
  s.run (functionAttachOp f.val mode.val)

/-- FUNCTION_DETACH (R481): A function stops being attached, its rings stop, transfers fail and suspended channels resume. -/
def execFunctionDetach (f : Fin 2) (cause : DetachCause) (s : State) : Host.Outcome State Fault Refusal :=
  s.run (detachOp f cause)

/-- MBX_GO (R483): A write with GO passes a mailbox request to Goatherd and sets BUSY, or is ignored. -/
def execMbxGo (f : Fin 2) (len : Nat) (s : State) : Host.Outcome State Fault Refusal :=
  s.runWf (decide (len < 2 ^ 17)) (mbxGoOp f.val len)

/-- MBX_RESPONSE (R483): Goatherd places the response, clears BUSY, sets DONE and sends the vector. -/
def execMbxResponse (f : Fin 2) (s : State) : Host.Outcome State Fault Refusal := s.run (mbxResponseOp f.val)

/-- MBX_DONE_CLEAR (R483): A write of 1 to DONE of MBX_RSP clears DONE. -/
def execMbxDoneClear (f : Fin 2) (s : State) : Host.Outcome State Fault Refusal := s.run (mbxDoneClearOp f.val)

/-- HOST_MAILBOX_WRITE (R483): A host write to the BAR2 request area is stored by read-modify-write or discarded while BUSY.
-/
def execHostMailboxWrite (f : Fin 2) (off : Nat) (bytes : List (BitVec 8)) (s : State) : Host.Outcome State Fault Refusal :=
  s.run (hostMailboxWriteOp f.val off bytes)

/-- SUBMISSION_DOORBELL (R485): A write to a submission doorbell sets the ring's doorbell flag, or is discarded. -/
def execSubmissionDoorbell (f : Fin 2) (s : Fin 64) (st : State) : Host.Outcome State Fault Refusal :=
  st.run (submissionDoorbellOp f.val s.val)

/-- HEADER_READ (R495): The header read for a doorbell completes and the ring's known producer index is updated, or the ring
stops. -/
def execHeaderRead (f : Fin 2) (s : Fin 64) (prod : Option (BitVec 32)) (st : State) : Host.Outcome State Fault Refusal :=
  st.run (headerReadOp f.val s.val prod)

/-- ENTRY_TAKE (R495): An owned submission entry up to the known producer index is taken when the ring may take it. -/
def execEntryTake (f : Fin 2) (s : Fin 64) (e : Option (List (BitVec 8))) (st : State) : Host.Outcome State Fault Refusal :=
  st.runWf (e.all entryBytes) (entryTakeOp f.val s.val e)

/-- COMPLETION_DOORBELL (R486): A write to a completion doorbell accepts the host consumer index, writes held entries and may
resume channels. -/
def execCompletionDoorbell (f : Fin 2) (c : Fin 64) (v : BitVec 64) (s : State) : Host.Outcome State Fault Refusal :=
  s.run (completionDoorbellOp f.val c.val v)

/-- HOST_NOP (R498): DIRECT operation 01h completes OK. -/
def execHostNop (f : Fin 2) (s : Fin 64) (n : Nat) (st : State) : Host.Outcome State Fault Refusal :=
  st.run (hostNopOp f.val s.val n)

/-- HOST_QUERY (R501): DIRECT operation 02h runs a region query into the host buffer. -/
def execHostQuery (f : Fin 2) (s : Fin 64) (n : Nat) (st : State) : Host.Outcome State Fault Refusal :=
  st.run (hostQueryOp f.val s.val n)

/-- HOST_RETRO (R501): DIRECT operation 03h writes a retro descriptor into a job slot. -/
def execHostRetro (f : Fin 2) (s : Fin 64) (n : Nat) (st : State) : Host.Outcome State Fault Refusal :=
  st.run (hostRetroOp f.val s.val n)

/-- HOST_READ (R501): DIRECT operation 04h copies SRAM words to the host buffer. -/
def execHostRead (f : Fin 2) (s : Fin 64) (n : Nat) (st : State) : Host.Outcome State Fault Refusal :=
  st.run (hostReadOp f.val s.val n)

/-- REF_WRITE (R501): DIRECT operation 05h writes reference tiles from host memory. -/
def execRefWrite (f : Fin 2) (s : Fin 64) (n : Nat) (tiles : List (List Word)) (failed : Bool) (st : State) :
    Host.Outcome State Fault Refusal :=
  st.runWf (tiles.all wholeTile) (refWriteOp f.val s.val n tiles failed)

/-- DIRECT_ENTRY_COMPLETE (R502): A started DIRECT entry finishes its transfer and HIF writes its data, trailer and completion
into the reserved place. -/
def execDirectEntryComplete (f : Fin 2) (s : Fin 64) (n : Nat) (st : State) : Host.Outcome State Fault Refusal :=
  st.run (directEntryCompleteOp f.val s.val n)

/-- QUERY_COMPLETE (R212): A region query in service delivers its last part and trailer and ends, freeing its service place
and reporting its status. -/
def execQueryComplete (n : Nat) (s : State) : Host.Outcome State Fault Refusal := s.run (queryCompleteOp n)

/-- COAL_MESSAGE (R508): The coalescing interval ends and HIF sends the ring's MSI-X message. -/
def execCoalMessage (f : Fin 2) (c : Fin 64) (s : State) : Host.Outcome State Fault Refusal :=
  s.run (coalMessageOp f.val c.val)

/-- RING_ENABLE (R510): A write of 1 to EN of a ring in OFF sets it RUNNING, or is refused. -/
def execRingEnable (f : Fin 2) (sub : Bool) (r : Fin 64) (s : State) : Host.Outcome State Fault Refusal :=
  s.run (ringEnableOp f.val sub r.val)

/-- SQ_STOP (R511): A write of 1 to STOP of a submission ring starts stopping it. -/
def execSqStop (f : Fin 2) (s : Fin 64) (st : State) : Host.Outcome State Fault Refusal := st.run (sqStopOp f.val s.val)

/-- STOP_FINISH (R511): All completions of a ring stop are written, the stop marker goes out and the ring is OFF. -/
def execStopFinish (f : Fin 2) (s : Fin 64) (prod : Option (BitVec 32)) (entries : List (List (BitVec 8))) (st : State) :
    Host.Outcome State Fault Refusal :=
  st.runWf (entries.all entryBytes) (stopFinishOp f.val s.val prod entries)

/-- CQ_STOP (R513): A write of 1 to STOP of a completion ring discards held entries and stops it, or is refused. -/
def execCqStop (f : Fin 2) (c : Fin 64) (s : State) : Host.Outcome State Fault Refusal := s.run (cqStopOp f.val c.val)

/-- HOST_VER_WRITE (R515): A write to HOST_VER sets AGREED. -/
def execHostVerWrite (f : Fin 2) (v : BitVec 8) (s : State) : Host.Outcome State Fault Refusal :=
  s.run (hostVerWriteOp f.val v.toNat)

end Sys2Proof.Machine
end

