-- ==== Sys2Proof/Machine/ExecHlk.lean ====
section
/-! DEFINITION. The meanings of the commands of the herd link (03_herd_link.md),
one for each row of the table. -/

namespace Sys2Proof.Machine

/-- PORT_SIGNAL_DETECT (R76): Signal is detected on both receive lanes of an HLK port and training begins. -/
def execPortSignalDetect (p : Fin 4) (s : State) : Host.Outcome State Fault Refusal := s.run (portSignalDetectOp p.val)

/-- LANE_LOCK_TIMEOUT (R74): One lane fails to reach block lock within 10 ms while the other locks, and the port runs on one
lane if X1_OK. -/
def execLaneLockTimeout (p : Fin 4) (s : State) : Host.Outcome State Fault Refusal := s.run (laneLockTimeoutOp p.val)

/-- PORT_TRAIN_RETRY (R76): 100 ms after a training failure the port returns to step 1 of training. -/
def execPortTrainRetry (p : Fin 4) (s : State) : Host.Outcome State Fault Refusal := s.run (portTrainRetryOp p.val)

/-- PORT_DOWN (R78): A port leaves UP or STANDBY for DOWN on lock loss, replay failure or EN 0, discards unacknowledged
messages and retrains. -/
def execPortDown (p : Fin 4) (cause : PortDownCause) (lost : List HlkMsg) (s : State) : Host.Outcome State Fault Refusal :=
  s.run (portDownOp p.val cause lost)

/-- PORT_RETRAIN (R78): A write of 1 to RETRAIN takes the port to DOWN and retrains it. -/
def execPortRetrain (p : Fin 4) (lost : List HlkMsg) (s : State) : Host.Outcome State Fault Refusal :=
  s.run (portRetrainOp p.val lost)

/-- HELLO (R76): A HELLO message gives the peer's versions, role, number, depth and serial, and the port negotiates its
version. -/
def execHello (r : Arrival) (m : HelloMsg) (s : State) : Host.Outcome State Fault Refusal :=
  s.run (fun d => d.arrive r [1] (helloOp r.port.val m))

/-- DELAY_PROBE_SEND (R90): Every 256 beats each side of a link sends a delay probe. -/
def execDelayProbeSend (p : Fin 4) (t1 : Nat) (s : State) : Host.Outcome State Fault Refusal :=
  s.run (delayProbeSendOp p.val t1)

/-- DELAY_REQ (R90): A delay request is stamped at arrival and answered with its arrival and departure stamps. -/
def execDelayReq (r : Arrival) (t1 : Nat) (t2 : Nat) (t3 : Nat) (s : State) : Host.Outcome State Fault Refusal :=
  s.run (fun d => d.arrive r [1, 2, 3] (delayReqOp r.port.val t1 t2 t3))

/-- DELAY_RSP (R90): A delay response completes a probe and updates HLK_PORTp_DELAY with the mean of the last 16 results. -/
def execDelayRsp (r : Arrival) (t1 : Nat) (t2 : Nat) (t3 : Nat) (t4 : Nat) (s : State) : Host.Outcome State Fault Refusal :=
  s.run (fun d => d.arrive r [1, 2, 3] (delayRspOp r.port.val t1 t2 t3 t4))

/-- HERD_ENUMERATE (R80): A write of 1 to ENUM on the lead numbers the herd in depth-first pre-order, or is refused. -/
def execHerdEnumerate (s : State) : Host.Outcome State Fault Refusal := s.run herdEnumerateOp

/-- ENUM (R80): An ENUM message gives a device its number, depth and upstream port, and is passed down its ports. -/
def execEnum (r : Arrival) (m : EnumMsg) (s : State) : Host.Outcome State Fault Refusal :=
  s.runWf (m.wf) (fun d => d.arrive r [2] (enumOp r.port.val m))

/-- ENUM_RSP (R81): An ENUM_RSP returns subtree size and refusals upstream. -/
def execEnumRsp (r : Arrival) (m : EnumRsp) (s : State) : Host.Outcome State Fault Refusal :=
  s.runWf (m.members.all (fun x => deviceNumber x.number)) (fun d => d.arrive r [2] (enumRspOp r.port.val m))

/-- BEAT_SEND (R84): At T_n minus 4,096 ns the lead composes beat n with positions, velocities and commit state and transmits
it. -/
def execBeatSend (s : State) : Host.Outcome State Fault Refusal := s.run beatSendOp

/-- BEAT (R85): A follower receives a beat, checks it, forwards it with CORR updated, steers its time and takes the commit and
axis information. -/
def execBeat (p : Fin 4) (f : BeatFrame) (phase : BitVec 6) (residence : Nat) (s : State) :
    Host.Outcome State Fault Refusal :=
  s.runWf (f.blocks.length = 11) (beatOp p.val f phase residence)

/-- BEAT_MISSED (R94): An expected beat is not received by its lead instant minus 1,024 ns, and the follower enters
HERD_COAST, fails over or after 32 misses reaches LOST. -/
def execBeatMissed (s : State) : Host.Outcome State Fault Refusal := s.run beatMissedOp

/-- RESYNC (R94): A write of 1 to RESYNC takes a LOST follower to JOINING when a good beat has been received. -/
def execResync (s : State) : Host.Outcome State Fault Refusal := s.run resyncOp

/-- COMMIT_REQ (R97): The lead takes a commit request, assigns the next epoch and composes PREPARE, or holds or refuses the
request. -/
def execCommitReq (m : Received CommitReq) (s : State) : Host.Outcome State Fault Refusal :=
  s.runWf (deviceNumber m.msg.requester) (fun d => d.arrive m.via [2] (commitReqOp m.msg))

/-- VOTE (R101): A vote arrives from a child; once all are in a device votes upstream, and the lead arms or cancels the
commit. -/
def execVote (r : Arrival) (m : VoteMsg) (s : State) : Host.Outcome State Fault Refusal :=
  s.run (fun d => d.arrive r [2] (voteOp r.port.val m))

/-- CHILD_VOTE_TIMEOUT (R101): A child has not voted within 48 beats of PREPARE and its range is voted HERD_TIMEOUT. -/
def execChildVoteTimeout (p : Fin 4) (s : State) : Host.Outcome State Fault Refusal := s.run (childVoteTimeoutOp p.val)

/-- LEAD_VOTE_TIMEOUT (R102): 64 beats after PREPARE the lead acts on the votes it holds and cancels with HERD_TIMEOUT. -/
def execLeadVoteTimeout (s : State) : Host.Outcome State Fault Refusal := s.run leadVoteTimeoutOp

/-- ARM_LIMIT_EXPIRY (R104): ARM_LIMIT ms pass after ARMED without reaching TARGET and the lead cancels the commit with
NOT_READY 36h. -/
def execArmLimitExpiry (s : State) : Host.Outcome State Fault Refusal := s.run armLimitExpiryOp

/-- WAVE_APPLY (R105): At the lead instant of wave w each voting device applies its next 256 pending objects atomically. -/
def execWaveApply (s : State) : Host.Outcome State Fault Refusal := s.run waveApplyOp

/-- COMMIT_DONE (R108): A COMMIT_DONE reaches the requester, which sets 2400h to DONE with the result and raises DICT_COMMIT.
-/
def execCommitDone (m : Received CommitDone) (s : State) : Host.Outcome State Fault Refusal :=
  s.runWf (deviceNumber m.msg.requester) (fun d => d.arrive m.via [2] (commitDoneOp m.msg))

/-- ALERT (R113): An ALERT message is recorded in HLK_ALERT_LAST, raises HERD_ALERT and is flooded on. -/
def execAlert (r : Arrival) (m : AlertMsg) (s : State) : Host.Outcome State Fault Refusal :=
  s.run (fun d => d.arrive r [2] (alertOp r.port.val m))

/-- REPARENT (R122): A REPARENT adds the moved range to the port on which it arrived along the new path. -/
def execReparent (r : Arrival) (m : MovedRange) (s : State) : Host.Outcome State Fault Refusal :=
  s.run (fun d => d.arrive r [2, 3] (reparentOp r.port.val m))

/-- ROUTE_DROP (R122): A ROUTE_DROP removes the moved range from the old path. -/
def execRouteDrop (r : Arrival) (m : MovedRange) (s : State) : Host.Outcome State Fault Refusal :=
  s.run (fun d => d.arrive r [2] (routeDropOp r.port.val m))

/-- TILE_REQ (R117): A responder serves a tile request, reading each tile under the herd class and sending TILE_DATA and a
closing TILE_END. -/
def execTileReq (r : Arrival) (m : TileReq) (s : State) : Host.Outcome State Fault Refusal :=
  s.runWf (deviceNumber m.requester && deviceNumber m.dest) (fun d => d.arrive r [2] (tileReqOp m))

/-- TILE_DATA (R119): The requester checks a forwarded tile's CRC against its tag and passes it to the requesting mover. -/
def execTileData (m : Received TileData) (s : State) : Host.Outcome State Fault Refusal :=
  s.runWf (deviceNumber m.msg.requester && wholeTile m.msg.words) (fun d => d.arrive m.via [2] (tileDataOp m.msg))

/-- TILE_END (R118): A TILE_END ends a tile request with its count and status. -/
def execTileEnd (m : Received TileEnd) (s : State) : Host.Outcome State Fault Refusal :=
  s.runWf (deviceNumber m.msg.requester) (fun d => d.arrive m.via [2] (tileEndOp m.msg))

/-- PIECE (R271): A received edge record of KIND PIECE merges with neighbouring local pieces or is released with EDGE. -/
def execPiece (b : Received BlobMsg) (s : State) : Host.Outcome State Fault Refusal :=
  s.runWf (b.msg.wf) (fun d => d.arrive b.via [2] (pieceOp b.msg))

/-- PROGRESS (R270): A PROGRESS record settles local pieces whose edge lines it covers. -/
def execProgress (b : Received BlobMsg) (s : State) : Host.Outcome State Fault Refusal :=
  s.runWf (b.msg.wf) (fun d => d.arrive b.via [2] (progressOp b.msg))

/-- RETURN (R272): A RETURN record makes the sender release its retro piece itself with EDGE set. -/
def execReturnRecord (b : Received BlobMsg) (s : State) : Host.Outcome State Fault Refusal :=
  s.runWf (b.msg.wf) (fun d => d.arrive b.via [2] (returnRecordOp b.msg))

/-- HLK_TRAINING_TIMEOUT (R76): A training step of an HLK port exceeds its limit and the step fails. -/
def execHlkTrainingTimeout (p : Fin 4) (lanes : LaneLock) (s : State) : Host.Outcome State Fault Refusal :=
  s.run (hlkTrainingTimeoutOp p.val lanes.count.val lanes.skewed)

end Sys2Proof.Machine
end

