-- ==== Sys2Proof/Machine/ExecIbx.lean ====
section
/-! DEFINITION. The meanings of the commands of channels (07_channels.md),
one for each row of the table. -/

namespace Sys2Proof.Machine

/-- NOP (R292): Channel command C0h completes at once. -/
def execChNop (c : Fin 512) (w : ChWord) (s : State) : Host.Outcome State Fault Refusal := s.run (chNopOp c.val w)

/-- POSWAIT (R302): Channel command C1h waits for the axis to reach a position, completing at once if passed. -/
def execChPoswait (c : Fin 512) (w : ChWord) (s : State) : Host.Outcome State Fault Refusal := s.run (chPoswaitOp c.val w)

/-- POSWAIT_REACHED (R302): The axis reaches the position moving forward, or enters FAULT, and POSWAIT completes. -/
def execPoswaitReached (c : Fin 512) (s : State) : Host.Outcome State Fault Refusal := s.run (poswaitReachedOp c.val)

/-- WAITEV (R303): Channel command C2h waits for a shared source, completing at once on an active level or set latch. -/
def execChWaitev (c : Fin 512) (w : ChWord) (s : State) : Host.Outcome State Fault Refusal := s.run (chWaitevOp c.val w)

/-- WAITEV_RAISED (R303): The named source is raised or activated and WAITEV completes. -/
def execWaitevRaised (c : Fin 512) (s : State) : Host.Outcome State Fault Refusal := s.run (waitevRaisedOp c.val)

/-- FIRE (R307): Channel command C3h arms a one-shot pulse on an output or completes at once under R308. -/
def execChFire (c : Fin 512) (w : ChWord) (s : State) : Host.Outcome State Fault Refusal := s.run (chFireOp c.val w)

/-- FIRE_ONESHOT (R307): The armed position is reached and the one-shot fires, or is skipped or aborted, completing FIRE. -/
def execFireOneshot (c : Fin 512) (s : State) : Host.Outcome State Fault Refusal := s.run (fireOneshotOp c.val)

/-- ACT (R309): Channel command C4h pushes entries into an actuator scheduler. -/
def execChAct (c : Fin 512) (w : ChWord) (s : State) : Host.Outcome State Fault Refusal := s.run (chActOp c.val w)

/-- LINES (R310): Channel command C8h starts or reads a head's line tally. -/
def execChLines (c : Fin 512) (w : ChWord) (s : State) : Host.Outcome State Fault Refusal := s.run (chLinesOp c.val w)

/-- LINES_COUNTED (R310): The tally holds COUNT lines, or the head leaves RUN, and LINES completes. -/
def execLinesCounted (c : Fin 512) (s : State) : Host.Outcome State Fault Refusal := s.run (linesCountedOp c.val)

/-- MSG (R311): Channel command C9h takes the oldest item of a head's message FIFO. -/
def execChMsg (c : Fin 512) (w : ChWord) (s : State) : Host.Outcome State Fault Refusal := s.run (chMsgOp c.val w)

/-- BANDWAIT (R304): Channel command CAh waits until the band that holds a position is complete. -/
def execChBandwait (c : Fin 512) (w : ChWord) (s : State) : Host.Outcome State Fault Refusal := s.run (chBandwaitOp c.val w)

/-- BANDWAIT_HELD (R304): NEW_END reaches the position and BANDWAIT completes. -/
def execBandwaitHeld (c : Fin 512) (s : State) : Host.Outcome State Fault Refusal := s.run (bandwaitHeldOp c.val)

/-- WAIT_LIMIT (R302): The wait limit of a POSWAIT, WAITEV or BANDWAIT passes and it completes with NOT_READY 04h. -/
def execWaitLimit (c : Fin 512) (s : State) : Host.Outcome State Fault Refusal := s.run (waitLimitOp c.val)

/-- MOVE (R313): Channel command D0h starts a copy from SRAM through the tile movers, possibly gathered. -/
def execChMove (c : Fin 512) (w : ChWord) (s : State) : Host.Outcome State Fault Refusal := s.run (chMoveOp c.val w)

/-- QUERY (R314): Channel command D1h starts a region query delivered to the destination. -/
def execChQuery (c : Fin 512) (w : ChWord) (s : State) : Host.Outcome State Fault Refusal := s.run (chQueryOp c.val w)

/-- TRANSFER_DONE (R297): A MOVE or QUERY transfer ends, writing its CRC trailer and the result word. -/
def execTransferDone (c : Fin 512) (s : State) : Host.Outcome State Fault Refusal := s.run (transferDoneOp c.val)

/-- QTAKE (R316): Channel command D2h waits for records on the live or retro queue. -/
def execChQtake (c : Fin 512) (w : ChWord) (s : State) : Host.Outcome State Fault Refusal := s.run (chQtakeOp c.val w)

/-- QTAKE_RECORDS (R316): Records are present and QTAKE copies them and advances the consumer index, or reports a job end. -/
def execQtakeRecords (c : Fin 512) (s : State) : Host.Outcome State Fault Refusal := s.run (qtakeRecordsOp c.val)

/-- RETRO (R319): Channel command D3h writes a retro descriptor into a job slot. -/
def execChRetro (c : Fin 512) (w : ChWord) (s : State) : Host.Outcome State Fault Refusal := s.run (chRetroOp c.val w)

/-- POST (R320): Channel command D8h writes completion entries to a ring or its holding area, or suspends with RING_FULL. -/
def execChPost (c : Fin 512) (w : ChWord) (s : State) : Host.Outcome State Fault Refusal := s.run (chPostOp c.val w)

/-- CHANNEL_START (R327): A write of 1 to START starts an IDLE or HALTED channel at ENTRY. -/
def execChannelStart (c : Fin 512) (s : State) : Host.Outcome State Fault Refusal := s.run (channelStartOp c.val)

/-- CHANNEL_HALT (R328): A write of 1 to HALT halts the channel and releases its resources. -/
def execChannelHalt (c : Fin 512) (s : State) : Host.Outcome State Fault Refusal := s.run (channelHaltOp c.val)

/-- CHANNEL_SUSPEND (R305): A write of 1 to SUSPEND suspends the channel, cancelling a wait command. -/
def execChannelSuspend (c : Fin 512) (s : State) : Host.Outcome State Fault Refusal := s.run (channelSuspendOp c.val)

/-- CHANNEL_RESUME (R329): A write of 1 to RESUME resumes a SUSPENDED channel. -/
def execChannelResume (c : Fin 512) (s : State) : Host.Outcome State Fault Refusal := s.run (channelResumeOp c.val)

/-- CHANNEL_CLEAR (R326): A write of 1 to CLEAR takes a HALTED channel to IDLE. -/
def execChannelClear (c : Fin 512) (s : State) : Host.Outcome State Fault Refusal := s.run (channelClearOp c.val)

end Sys2Proof.Machine
end

