-- ==== Sys2Proof/Machine/ExecIsa.lean ====
section
/-! DEFINITION. The meanings of the commands of instructions (08_instruction_set.md, 09_arithmetic.md),
one for each row of the table. -/

namespace Sys2Proof.Machine

/-- ADD (R351): d := a + b. -/
def execIsaAdd (x : Ctx) (f : RR) (s : State) : Host.Outcome State Fault Refusal := s.run (addOp x f)

/-- SUB (R351): d := a - b. -/
def execIsaSub (x : Ctx) (f : RR) (s : State) : Host.Outcome State Fault Refusal := s.run (subOp x f)

/-- AND (R351): d := a and b. -/
def execIsaAnd (x : Ctx) (f : RR) (s : State) : Host.Outcome State Fault Refusal := s.run (andOp x f)

/-- OR (R351): d := a or b. -/
def execIsaOr (x : Ctx) (f : RR) (s : State) : Host.Outcome State Fault Refusal := s.run (orOp x f)

/-- XOR (R351): d := a xor b. -/
def execIsaXor (x : Ctx) (f : RR) (s : State) : Host.Outcome State Fault Refusal := s.run (xorOp x f)

/-- SHL (R352): d := a shifted left by b[5:0]. -/
def execIsaShl (x : Ctx) (f : RR) (s : State) : Host.Outcome State Fault Refusal := s.run (shlOp x f)

/-- SHR (R352): d := a shifted right with zero fill. -/
def execIsaShr (x : Ctx) (f : RR) (s : State) : Host.Outcome State Fault Refusal := s.run (shrOp x f)

/-- SAR (R352): d := a shifted right with sign fill. -/
def execIsaSar (x : Ctx) (f : RR) (s : State) : Host.Outcome State Fault Refusal := s.run (sarOp x f)

/-- CMPS (R351): Signed three-way compare of a and b. -/
def execIsaCmps (x : Ctx) (f : RR) (s : State) : Host.Outcome State Fault Refusal := s.run (cmpsOp x f)

/-- CMPU (R351): Unsigned three-way compare of a and b. -/
def execIsaCmpu (x : Ctx) (f : RR) (s : State) : Host.Outcome State Fault Refusal := s.run (cmpuOp x f)

/-- MINS (R351): Signed minimum. -/
def execIsaMins (x : Ctx) (f : RR) (s : State) : Host.Outcome State Fault Refusal := s.run (minsOp x f)

/-- MAXS (R351): Signed maximum. -/
def execIsaMaxs (x : Ctx) (f : RR) (s : State) : Host.Outcome State Fault Refusal := s.run (maxsOp x f)

/-- MINU (R351): Unsigned minimum. -/
def execIsaMinu (x : Ctx) (f : RR) (s : State) : Host.Outcome State Fault Refusal := s.run (minuOp x f)

/-- MAXU (R351): Unsigned maximum. -/
def execIsaMaxu (x : Ctx) (f : RR) (s : State) : Host.Outcome State Fault Refusal := s.run (maxuOp x f)

/-- ADDI (R351): d := a + sx(imm30). -/
def execIsaAddi (x : Ctx) (f : RI) (s : State) : Host.Outcome State Fault Refusal := s.run (addiOp x f)

/-- ANDI (R351): d := a and zero-extended imm30. -/
def execIsaAndi (x : Ctx) (f : RI) (s : State) : Host.Outcome State Fault Refusal := s.run (andiOp x f)

/-- ORI (R351): d := a or zero-extended imm30. -/
def execIsaOri (x : Ctx) (f : RI) (s : State) : Host.Outcome State Fault Refusal := s.run (oriOp x f)

/-- XORI (R351): d := a xor zero-extended imm30. -/
def execIsaXori (x : Ctx) (f : RI) (s : State) : Host.Outcome State Fault Refusal := s.run (xoriOp x f)

/-- SHLI (R352): Shift left by an immediate. -/
def execIsaShli (x : Ctx) (f : RI) (s : State) : Host.Outcome State Fault Refusal := s.run (shliOp x f)

/-- SHRI (R352): Logical shift right by an immediate. -/
def execIsaShri (x : Ctx) (f : RI) (s : State) : Host.Outcome State Fault Refusal := s.run (shriOp x f)

/-- SARI (R352): Arithmetic shift right by an immediate. -/
def execIsaSari (x : Ctx) (f : RI) (s : State) : Host.Outcome State Fault Refusal := s.run (sariOp x f)

/-- CMPSI (R351): Signed compare with sx(imm30). -/
def execIsaCmpsi (x : Ctx) (f : RI) (s : State) : Host.Outcome State Fault Refusal := s.run (cmpsiOp x f)

/-- CMPUI (R351): Unsigned compare with sx(imm30). -/
def execIsaCmpui (x : Ctx) (f : RI) (s : State) : Host.Outcome State Fault Refusal := s.run (cmpuiOp x f)

/-- INSH (R351): Replaces bits 47:18 of a with imm30. -/
def execIsaInsh (x : Ctx) (f : RI) (s : State) : Host.Outcome State Fault Refusal := s.run (inshOp x f)

/-- MUL (R353): d := low 48 bits of a*b. -/
def execIsaMul (x : Ctx) (f : RR) (s : State) : Host.Outcome State Fault Refusal := s.run (mulOp x f)

/-- MULD (R353): Signed 96-bit product into d and d+1. -/
def execIsaMuld (x : Ctx) (f : RR) (s : State) : Host.Outcome State Fault Refusal := s.run (muldOp x f)

/-- MULDU (R353): Unsigned 96-bit product into d and d+1. -/
def execIsaMuldu (x : Ctx) (f : RR) (s : State) : Host.Outcome State Fault Refusal := s.run (mulduOp x f)

/-- DIV (R354): Signed division truncated toward zero, defined for a zero divisor. -/
def execIsaDiv (x : Ctx) (f : RR) (s : State) : Host.Outcome State Fault Refusal := s.run (divOp x f)

/-- DIVU (R354): Unsigned division. -/
def execIsaDivu (x : Ctx) (f : RR) (s : State) : Host.Outcome State Fault Refusal := s.run (divuOp x f)

/-- REM (R354): Signed remainder. -/
def execIsaRem (x : Ctx) (f : RR) (s : State) : Host.Outcome State Fault Refusal := s.run (remOp x f)

/-- REMU (R354): Unsigned remainder. -/
def execIsaRemu (x : Ctx) (f : RR) (s : State) : Host.Outcome State Fault Refusal := s.run (remuOp x f)

/-- LD (R356): Loads a word from a + sx(imm30). -/
def execIsaLd (x : Ctx) (f : RI) (s : State) : Host.Outcome State Fault Refusal := s.run (ldOp x f)

/-- ST (R356): Stores d to a + sx(imm30). -/
def execIsaSt (x : Ctx) (f : RI) (s : State) : Host.Outcome State Fault Refusal := s.run (stOp x f)

/-- LDB (R356): Loads a byte lane of mem[a + b]. -/
def execIsaLdb (x : Ctx) (f : RR) (s : State) : Host.Outcome State Fault Refusal := s.run (ldbOp x f)

/-- LDS (R356): Loads a 16-bit lane of mem[a + b]. -/
def execIsaLds (x : Ctx) (f : RR) (s : State) : Host.Outcome State Fault Refusal := s.run (ldsOp x f)

/-- LDT (R356): Loads a 24-bit lane of mem[a + b]. -/
def execIsaLdt (x : Ctx) (f : RR) (s : State) : Host.Outcome State Fault Refusal := s.run (ldtOp x f)

/-- STB (R361): Merges a byte into a word by read-modify-write. -/
def execIsaStb (x : Ctx) (f : RR) (s : State) : Host.Outcome State Fault Refusal := s.run (stbOp x f)

/-- STS (R361): Merges a 16-bit lane into a word. -/
def execIsaSts (x : Ctx) (f : RR) (s : State) : Host.Outcome State Fault Refusal := s.run (stsOp x f)

/-- STT (R361): Merges a 24-bit lane into a word. -/
def execIsaStt (x : Ctx) (f : RR) (s : State) : Host.Outcome State Fault Refusal := s.run (sttOp x f)

/-- LDINC (R357): Loads mem[a] and steps a. -/
def execIsaLdinc (x : Ctx) (f : RI) (s : State) : Host.Outcome State Fault Refusal := s.run (ldincOp x f)

/-- STINC (R357): Stores d to mem[a] and steps a. -/
def execIsaStinc (x : Ctx) (f : RI) (s : State) : Host.Outcome State Fault Refusal := s.run (stincOp x f)

/-- MOVW (R357): Copies mem[b] to mem[a] and steps both. -/
def execIsaMovw (x : Ctx) (f : RR) (s : State) : Host.Outcome State Fault Refusal := s.run (movwOp x f)

/-- FILLW (R357): Stores d to mem[a] and steps a. -/
def execIsaFillw (x : Ctx) (f : RR) (s : State) : Host.Outcome State Fault Refusal := s.run (fillwOp x f)

/-- CRCM (R363): Steps a CRC-32C in d by the 6 bytes of mem[a] and steps a. -/
def execIsaCrcm (x : Ctx) (f : RR) (s : State) : Host.Outcome State Fault Refusal := s.run (crcmOp x f)

/-- FENCE (R368): Completes when every earlier load and store of the context has completed at its target. -/
def execIsaFence (x : Ctx) (f : RR) (s : State) : Host.Outcome State Fault Refusal := s.run (fenceOp x f)

/-- SWAP (R364): Atomically exchanges mem[a] with b. -/
def execIsaSwap (x : Ctx) (f : RR) (s : State) : Host.Outcome State Fault Refusal := s.run (swapOp x f)

/-- ADDM (R364): Atomically adds b to mem[a], returning the old value. -/
def execIsaAddm (x : Ctx) (f : RR) (s : State) : Host.Outcome State Fault Refusal := s.run (addmOp x f)

/-- CAS (R364): Atomic compare-and-swap of mem[a]. -/
def execIsaCas (x : Ctx) (f : RR) (s : State) : Host.Outcome State Fault Refusal := s.run (casOp x f)

/-- JMPL (R373): Relative jump and link. -/
def execIsaJmpl (x : Ctx) (f : RI) (s : State) : Host.Outcome State Fault Refusal := s.run (jmplOp x f)

/-- JMPR (R373): Jump and link through a register. -/
def execIsaJmpr (x : Ctx) (f : RI) (s : State) : Host.Outcome State Fault Refusal := s.run (jmprOp x f)

/-- BR (R371): Branches by offset26 when cond(a, b) holds. -/
def execIsaBr (x : Ctx) (f : CB) (s : State) : Host.Outcome State Fault Refusal := s.run (brOp x f)

/-- BRI (R371): Branches by offset22 when cond(a, imm9) holds. -/
def execIsaBri (x : Ctx) (f : CBI) (s : State) : Host.Outcome State Fault Refusal := s.run (briOp x f)

/-- RDPOS (R374): Reads SPR_AXn_POS of an axis. -/
def execIsaRdpos (x : Ctx) (f : RI) (s : State) : Host.Outcome State Fault Refusal := s.run (rdposOp x f)

/-- RDVEL (R374): Reads SPR_AXn_VEL of an axis. -/
def execIsaRdvel (x : Ctx) (f : RI) (s : State) : Host.Outcome State Fault Refusal := s.run (rdvelOp x f)

/-- RDTIME (R374): Reads the device time stamp. -/
def execIsaRdtime (x : Ctx) (f : RI) (s : State) : Host.Outcome State Fault Refusal := s.run (rdtimeOp x f)

/-- PDIFF (R374): d := low w bits of a - b, sign-extended. -/
def execIsaPdiff (x : Ctx) (f : RR) (s : State) : Host.Outcome State Fault Refusal := s.run (pdiffOp x f)

/-- SELF (R374): Returns the channel, core or Goatherd identity. -/
def execIsaSelf (x : Ctx) (f : RI) (s : State) : Host.Outcome State Fault Refusal := s.run (selfOp x f)

/-- FADD (R393): F48 addition, rounded once. -/
def execIsaFadd (x : Ctx) (f : RR) (s : State) : Host.Outcome State Fault Refusal := s.run (faddOp x f)

/-- FSUB (R393): F48 subtraction, rounded once. -/
def execIsaFsub (x : Ctx) (f : RR) (s : State) : Host.Outcome State Fault Refusal := s.run (fsubOp x f)

/-- FMUL (R393): F48 multiplication, rounded once. -/
def execIsaFmul (x : Ctx) (f : RR) (s : State) : Host.Outcome State Fault Refusal := s.run (fmulOp x f)

/-- FDIV (R393): F48 division, rounded once. -/
def execIsaFdiv (x : Ctx) (f : RR) (s : State) : Host.Outcome State Fault Refusal := s.run (fdivOp x f)

/-- FSQRT (R393): F48 square root, rounded once. -/
def execIsaFsqrt (x : Ctx) (f : RR) (s : State) : Host.Outcome State Fault Refusal := s.run (fsqrtOp x f)

/-- FMA (R393): Fused a × b + d, rounded once. -/
def execIsaFma (x : Ctx) (f : RR) (s : State) : Host.Outcome State Fault Refusal := s.run (fmaOp x f)

/-- FMIN (R376): F48 minimum with -0 below +0. -/
def execIsaFmin (x : Ctx) (f : RR) (s : State) : Host.Outcome State Fault Refusal := s.run (fminOp x f)

/-- FMAX (R376): F48 maximum with -0 below +0. -/
def execIsaFmax (x : Ctx) (f : RR) (s : State) : Host.Outcome State Fault Refusal := s.run (fmaxOp x f)

/-- ITOF (R375): Converts a signed or unsigned integer to F48. -/
def execIsaItof (x : Ctx) (f : RR) (s : State) : Host.Outcome State Fault Refusal := s.run (itofOp x f)

/-- FTOI (R375): Rounds an F48 value to a signed or unsigned integer, saturating. -/
def execIsaFtoi (x : Ctx) (f : RR) (s : State) : Host.Outcome State Fault Refusal := s.run (ftoiOp x f)

/-- FSGN (R377): Negates, clears or copies the sign of an F48 value. -/
def execIsaFsgn (x : Ctx) (f : RR) (s : State) : Host.Outcome State Fault Refusal := s.run (fsgnOp x f)

/-- FCLASS (R377): Writes the class code and sign of an F48 value. -/
def execIsaFclass (x : Ctx) (f : RR) (s : State) : Host.Outcome State Fault Refusal := s.run (fclassOp x f)

/-- MFS (R382): Reads a special register. -/
def execIsaMfs (x : Ctx) (f : RI) (s : State) : Host.Outcome State Fault Refusal := s.run (mfsOp x f)

/-- MTS (R382): Writes a special register. -/
def execIsaMts (x : Ctx) (f : RI) (s : State) : Host.Outcome State Fault Refusal := s.run (mtsOp x f)

/-- ERET (R384): Returns from the normal or fast trap frame, restoring STATUS and any repeat. -/
def execIsaEret (x : Ctx) (f : RR) (s : State) : Host.Outcome State Fault Refusal := s.run (eretOp x f)

/-- WFE (R385): Waits until a record is in either event queue of the core. -/
def execIsaWfe (x : Ctx) (f : RR) (s : State) : Host.Outcome State Fault Refusal := s.run (wfeOp x f)

/-- WFE_WAKE (R385): A record reaches a queue of a core waiting in WFE and the WFE completes. -/
def execWfeWake (x : Ctx) (s : State) : Host.Outcome State Fault Refusal := s.run (wfeWakeOp x)

/-- MFA (R385): Reads a register of the other bank. -/
def execIsaMfa (x : Ctx) (f : RR) (s : State) : Host.Outcome State Fault Refusal := s.run (mfaOp x f)

/-- MTA (R385): Writes a register of the other bank. -/
def execIsaMta (x : Ctx) (f : RR) (s : State) : Host.Outcome State Fault Refusal := s.run (mtaOp x f)

/-- TRAP (R385): Takes a normal trap with KIND 1 and TDATA := sx(imm30). -/
def execIsaTrap (x : Ctx) (f : RI) (s : State) : Host.Outcome State Fault Refusal := s.run (trapOp x f)

/-- REP (R378): Latches a count and executes the following word that many times. -/
def execIsaRep (x : Ctx) (f : RepWord) (s : State) : Host.Outcome State Fault Refusal := s.run (repOp x f)

/-- HINT (R350): Opcodes F0h–F7h execute as a no-op. -/
def execIsaHint (x : Ctx) (op : Fin 8) (rest : BitVec 40) (s : State) : Host.Outcome State Fault Refusal :=
  s.run (hintOp x op.val rest)

/-- FAST_TRAP (R384): At a boundary a core with a fast-class record and IE_F set enters its fast handler in the alternate
bank. -/
def execFastTrap (x : Ctx) (s : State) : Host.Outcome State Fault Refusal := s.run (fastTrapOp x)

/-- NORMAL_TRAP (R384): At a boundary a core with a normal-class record and IE_N set enters its normal handler with KIND 2. -/
def execNormalTrap (x : Ctx) (s : State) : Host.Outcome State Fault Refusal := s.run (normalTrapOp x)

/-- CORE_RUN (R389): A write to RUN of CTL_COREk_CTL releases a core at ENTRY or holds it in reset. -/
def execCoreRun (k : Fin 4) (run : Bool) (s : State) : Host.Outcome State Fault Refusal := s.run (coreRunOp k.val run)

/-- UNDEFINED_OPCODE (R345): A processor reaches a word whose opcode is undefined or outside its profile and faults with
ILLEGAL_INSTRUCTION. -/
def execUndefinedOpcode (x : Ctx) (w : Word) (s : State) : Host.Outcome State Fault Refusal := s.run (undefinedOpcodeOp x w)

/-- FETCH_FAULT (R347): The fetch of the next instruction word fails as out of range, uncorrectable or poisoned, and the
processor faults. -/
def execFetchFault (x : Ctx) (why : FetchFail) (s : State) : Host.Outcome State Fault Refusal := s.run (fetchFaultOp x why)

end Sys2Proof.Machine
end

