-- ==== Sys2Proof/Machine/ExecLook.lean ====
section
/-! DEFINITION. The meanings of the commands of the look-back (05_lookback_memory.md),
one for each row of the table. -/

namespace Sys2Proof.Machine

/-- BAND_COMPLETE (R187): The last tile write of a band completes and TFB writes its directory entry, making the band
findable. -/
def execBandComplete (h : Fin 64) (s : State) : Host.Outcome State Fault Refusal := s.run (bandCompleteOp h.val)

/-- CLAIM_WRITE (R203): A write to TFB_CLMk sets, moves or releases a claim, marking it LOST if already behind the horizon. -/
def execClaimWrite (k : Fin 128) (v : Word) (s : State) : Host.Outcome State Fault Refusal := s.run (claimWriteOp k.val v)

/-- RELAYOUT (R183): A write of 1 to RELAYOUT makes a full layout. -/
def execRelayout (s : State) : Host.Outcome State Fault Refusal := s.run relayoutOp

/-- FULL_LAYOUT (R182): The BR4864 gives each enabled head a ring, discarding ring contents and ending queries and retro jobs.
-/
def execFullLayout (s : State) : Host.Outcome State Fault Refusal := s.run fullLayoutOp

/-- QUERY_DEQUEUE (R214): A queued region query enters service when fewer than 64 are served. -/
def execQueryDequeue (s : State) : Host.Outcome State Fault Refusal := s.run queryDequeueOp

/-- QUERY_END_HELD (R208): A waiting query finds NEW_END at or past END and goes on. -/
def execQueryEndHeld (n : Nat) (s : State) : Host.Outcome State Fault Refusal := s.run (queryEndHeldOp n)

/-- QUERY_WAIT_TIMEOUT (R208): WAIT_US passes first and the query delivers what is held with SHORT 02h. -/
def execQueryWaitTimeout (n : Nat) (s : State) : Host.Outcome State Fault Refusal := s.run (queryWaitTimeoutOp n)

/-- QUERY_DESCRIPTOR (R233): A write to 6300h.1 starts a region query whose output goes to 6300h.2, or is refused. -/
def execQueryDescriptor (ws : List Word) (s : State) : Host.Outcome State Fault Refusal :=
  s.runWf (ws.length = 6) (queryDescriptorOp ws)

/-- REF_DEFINE (R216): A write to 6100h.1 defines a reference as LOADING, or refuses it. -/
def execRefDefine (r : Nat) (ws : List Word) (s : State) : Host.Outcome State Fault Refusal :=
  s.runWf (ws.length = 4) (refDefineOp r ws)

/-- REF_SEAL (R217): A write to 6100h.2 seals a fully written reference as VALID, or is refused with SHORT. -/
def execRefSeal (r : Nat) (s : State) : Host.Outcome State Fault Refusal := s.run (refSealOp r)

/-- REF_DELETE (R218): A write to 6100h.3 deletes a reference, or is refused while in use. -/
def execRefDelete (r : Nat) (s : State) : Host.Outcome State Fault Refusal := s.run (refDeleteOp r)

/-- RETRO_SUBMIT (R221): A write to 6200h.1 queues a retro job in its slot or refuses it. -/
def execRetroSubmit (j : Fin 16) (ws : List Word) (s : State) : Host.Outcome State Fault Refusal :=
  s.runWf (ws.length = 6) (retroSubmitOp j.val ws)

/-- RETRO_JOB_START (R223): A queued retro job starts when none runs, copying its parameter set and resolving its range. -/
def execRetroJobStart (s : State) : Host.Outcome State Fault Refusal := s.run retroJobStartOp

/-- RETRO_ABORT (R226): A write to 6200h.5 aborts a retro job, which completes with ABORTED. -/
def execRetroAbort (j : Fin 16) (s : State) : Host.Outcome State Fault Refusal := s.run (retroAbortOp j.val)

/-- RETRO_JOB_COMPLETE (R226): A retro job finishes its range and completes with its status, raising RETRO_DONE. -/
def execRetroJobComplete (s : State) : Host.Outcome State Fault Refusal := s.run retroJobCompleteOp

end Sys2Proof.Machine
end

