-- ==== Sys2Proof/Machine/ExecSpr.lean ====
section
/-! DEFINITION. The meanings of the commands of the position domain (02_position_domain.md),
one for each row of the table. -/

namespace Sys2Proof.Machine

/-- ENCODER_PIN_CROSSING (R26): A transition of A, B or Z of an encoder input crosses its receiver threshold and is stamped
with the device time stamp. -/
def execEncoderPinCrossing (n : Fin 8) (ch : EncCh) (level : Bool) (s : State) : Host.Outcome State Fault Refusal :=
  s.runAlways (encoderPinCrossingOp n.val ch level)

/-- ENCODER_EDGE_ACCEPT (R26): The glitch filter expires after GLITCH_NS and FIO passes the transition to SPR, which decodes
it and updates every tracker using the input. -/
def execEncoderEdgeAccept (n : Fin 8) (ch : EncCh) (s : State) : Host.Outcome State Fault Refusal :=
  s.run (encoderEdgeAcceptOp n.val ch)

/-- OVERDUE_EDGE (R35): No edge has arrived by t_late, and the axis enters COAST with CAUSE 1. -/
def execOverdueEdge (a : Fin 4) (tr : TrackerSel) (s : State) : Host.Outcome State Fault Refusal :=
  s.run (overdueEdgeOp a.val tr)

/-- COAST_TIME_LIMIT (R31): 20 ms pass since COAST entry, and the axis enters FAULT with CAUSE 3. -/
def execCoastTimeLimit (a : Fin 4) (tr : TrackerSel) (s : State) : Host.Outcome State Fault Refusal :=
  s.run (coastTimeLimitOp a.val tr)

/-- COAST_TRAVEL_LIMIT (R31): 1,024 ct of extrapolated travel pass since COAST entry, and the axis enters FAULT with CAUSE 4.
-/
def execCoastTravelLimit (a : Fin 4) (tr : TrackerSel) (s : State) : Host.Outcome State Fault Refusal :=
  s.run (coastTravelLimitOp a.val tr)

/-- STANDSTILL_TIMEOUT (R31): No edge arrives for STILL_NS in TRACK or ACQUIRE, and the axis goes to IDLE with velocity 0. -/
def execStandstillTimeout (a : Fin 4) (tr : TrackerSel) (s : State) : Host.Outcome State Fault Refusal :=
  s.run (standstillOp a.val tr)

/-- AXIS_DISABLE (R31): EN of an axis is written 0, and the axis goes to IDLE and ignores edges. -/
def execAxisDisable (a : Fin 4) (s : State) : Host.Outcome State Fault Refusal := s.run (axisDisableOp a.val)

/-- RESTART (R42): A write of 1 to RESTART in FAULT takes the axis to IDLE at the held or preset position. -/
def execRestart (a : Fin 4) (s : State) : Host.Outcome State Fault Refusal := s.run (restartOp a.val)

/-- PRESET (R43): A write of 1 to PRESET loads SPR_AXn_PRESET, rounded to a whole count, as the position of the current raw
count in IDLE or FAULT. -/
def execPreset (a : Fin 4) (s : State) : Host.Outcome State Fault Refusal := s.run (presetOp a.val)

/-- SEL_PRI (R47): A write of 1 to SEL_PRI returns the axis from the secondary to the primary without a step when the
primary's shadow is in TRACK. -/
def execSelPri (a : Fin 4) (s : State) : Host.Outcome State Fault Refusal := s.run (selPriOp a.val)

/-- SEC_CLR (R47): A write of 1 to SEC_CLR clears SEC_BAD. -/
def execSecClr (a : Fin 4) (s : State) : Host.Outcome State Fault Refusal := s.run (secClrOp a.val)

/-- SLIP_WINDOW_END (R45): A window of SLIP_WIN ct of primary travel ends, and SPR writes the travel difference into
SPR_AXn_SLIP_DIFF. -/
def execSlipWindowEnd (a : Fin 4) (s : State) : Host.Outcome State Fault Refusal := s.run (slipWindowEndOp a.val)

/-- TG_ENABLE (R51): A write of EN of a trigger generator enables it subject to R51, setting HWM and NEXT, or disables it. -/
def execTgEnable (g : Fin 64) (en : Bool) (s : State) : Host.Outcome State Fault Refusal := s.run (tgEnableOp g.val en)

/-- TRIGGER_FIX (R54): The lead time L before a computed fire time arrives, and SPR fixes the fire so that it can no longer
move or be cancelled. -/
def execTriggerFix (g : Fin 64) (s : State) : Host.Outcome State Fault Refusal := s.run (triggerFixOp g.val)

/-- TRIGGER_FIRE (R56): A fixed fire time arrives and the generator fires its grid point, sends its trigger record and starts
its CXP trigger packet. -/
def execTriggerFire (g : Fin 64) (s : State) : Host.Outcome State Fault Refusal := s.run (triggerFireOp g.val)

/-- OUTPUT_PULSE_START (R59): An output becomes active at the fire time plus its offset, or a pulse due at a non-driving
output is counted in MISSED. -/
def execOutputPulseStart (x : Fin 48) (s : State) : Host.Outcome State Fault Refusal := s.run (outputPulseStartOp x.val)

/-- OUTPUT_PULSE_END (R59): WIDTH ns after the latest start the output returns to its inactive level. -/
def execOutputPulseEnd (x : Fin 48) (s : State) : Host.Outcome State Fault Refusal := s.run (outputPulseEndOp x.val)

/-- CXP_TRIGGER_PACKET (R141): A trigger packet starts at the first upconnection character boundary after the fire time or
after the previous packet, with the delay field set, or is dropped with TRIG_LATE. -/
def execCxpTriggerPacket (l : Fin 64) (s : State) : Host.Outcome State Fault Refusal := s.run (cxpTriggerPacketOp l.val)

/-- CXP_FALL_PACKET (R62): WIDTH ns after a fire with FALL_EN, CXI sends a falling-edge trigger packet. -/
def execCxpFallPacket (l : Fin 64) (s : State) : Host.Outcome State Fault Refusal := s.run (cxpFallPacketOp l.val)

/-- ACT_PUSH (R65): A write to SPR_ACTk_PUSH queues an actuator entry or refuses it with QERR. -/
def execActPush (k : Fin 16) (w : Word) (s : State) : Host.Outcome State Fault Refusal := s.run (actPushOp k.val w)

/-- ACT_FIRE (R66): The axis reaches the head entry's position moving forward and the scheduler drives the output to the
entry's level for its width. -/
def execActFire (k : Fin 16) (s : State) : Host.Outcome State Fault Refusal := s.run (actFireOp k.val)

end Sys2Proof.Machine
end

