-- ==== Sys2Proof/Machine/ExecTmv.lean ====
section
/-! DEFINITION. The meanings of the commands of budgets and movers (11_budgets_arbitration.md),
one for each row of the table. -/

namespace Sys2Proof.Machine

/-- GRAZE_PERIOD (R450): A Graze period begins at a beat instant, quotas reload, USED is written and any pending swap takes
effect. -/
def execGrazePeriod (bidders : List (Fin 32)) (s : State) : Host.Outcome State Fault Refusal :=
  s.run (grazePeriodOp (bidders.map (fun c => c.val)))

/-- GRAZE_SWAP (R454): A write of 1 to SWAP validates the inactive bank and sets SWAP_PEND, or sets SWAP_ERR. -/
def execGrazeSwap (s : State) : Host.Outcome State Fault Refusal := s.run grazeSwapOp

/-- ARB_PRIO_WRITE (R442): A write to TFB_ARB_PRIOr takes effect at the next arbitration phase. -/
def execArbPrioWrite (r : Fin 23) (v : Word) (s : State) : Host.Outcome State Fault Refusal := s.run (arbPrioWriteOp r.val v)

/-- MOVER_SUBMIT (R465): A write to TMV_CQk_SUBMIT queues a control mover descriptor or sets an error. -/
def execMoverSubmit (k : Fin 5) (by_ : Requester) (addr : Word) (s : State) : Host.Outcome State Fault Refusal :=
  s.run (moverSubmitOp k.val by_ addr)

/-- COPY (R466): A control mover copies LEN words from source to destination, optionally with a CRC trailer. -/
def execMoverCopy (k : Fin 5) (s : State) : Host.Outcome State Fault Refusal := s.run (moverCopyOp k.val)

/-- FILL (R463): A control mover writes PATTERN into LEN destination words. -/
def execMoverFill (k : Fin 5) (s : State) : Host.Outcome State Fault Refusal := s.run (moverFillOp k.val)

/-- COMPARE (R464): A control mover compares LEN words at SRC and DST. -/
def execMoverCompare (k : Fin 5) (s : State) : Host.Outcome State Fault Refusal := s.run (moverCompareOp k.val)

/-- COMPARE_PATTERN (R464): A control mover compares LEN words at SRC with PATTERN. -/
def execMoverComparePattern (k : Fin 5) (s : State) : Host.Outcome State Fault Refusal := s.run (moverComparePatternOp k.val)

/-- MOVER_COMPLETE (R465): A control mover descriptor completes, its words 6 and 7 are written and TMV_CQk is raised. -/
def execMoverComplete (k : Fin 5) (s : State) : Host.Outcome State Fault Refusal := s.run (moverCompleteOp k.val)

end Sys2Proof.Machine
end

