-- ==== Sys2Proof/Machine/Dispatch.lean ====
section
/-! DEFINITION. The dispatch: one arm for each command, one direct call of its meaning. -/

namespace Sys2Proof.Machine

def exec (i : Instr) (s : State) : Host.Outcome State Fault Refusal :=
  match i with
  | .encoderPinCrossing n ch level => Sys2Proof.Machine.execEncoderPinCrossing n ch level s
  | .encoderEdgeAccept n ch => Sys2Proof.Machine.execEncoderEdgeAccept n ch s
  | .overdueEdge a tr => Sys2Proof.Machine.execOverdueEdge a tr s
  | .coastTimeLimit a tr => Sys2Proof.Machine.execCoastTimeLimit a tr s
  | .coastTravelLimit a tr => Sys2Proof.Machine.execCoastTravelLimit a tr s
  | .standstillTimeout a tr => Sys2Proof.Machine.execStandstillTimeout a tr s
  | .axisDisable a => Sys2Proof.Machine.execAxisDisable a s
  | .restart a => Sys2Proof.Machine.execRestart a s
  | .preset a => Sys2Proof.Machine.execPreset a s
  | .selPri a => Sys2Proof.Machine.execSelPri a s
  | .secClr a => Sys2Proof.Machine.execSecClr a s
  | .slipWindowEnd a => Sys2Proof.Machine.execSlipWindowEnd a s
  | .tgEnable g en => Sys2Proof.Machine.execTgEnable g en s
  | .triggerFix g => Sys2Proof.Machine.execTriggerFix g s
  | .triggerFire g => Sys2Proof.Machine.execTriggerFire g s
  | .outputPulseStart x => Sys2Proof.Machine.execOutputPulseStart x s
  | .outputPulseEnd x => Sys2Proof.Machine.execOutputPulseEnd x s
  | .cxpTriggerPacket l => Sys2Proof.Machine.execCxpTriggerPacket l s
  | .cxpFallPacket l => Sys2Proof.Machine.execCxpFallPacket l s
  | .actPush k w => Sys2Proof.Machine.execActPush k w s
  | .actFire k => Sys2Proof.Machine.execActFire k s
  | .portSignalDetect p => Sys2Proof.Machine.execPortSignalDetect p s
  | .laneLockTimeout p => Sys2Proof.Machine.execLaneLockTimeout p s
  | .portTrainRetry p => Sys2Proof.Machine.execPortTrainRetry p s
  | .portDown p cause lost => Sys2Proof.Machine.execPortDown p cause lost s
  | .portRetrain p lost => Sys2Proof.Machine.execPortRetrain p lost s
  | .hello r m => Sys2Proof.Machine.execHello r m s
  | .delayProbeSend p t1 => Sys2Proof.Machine.execDelayProbeSend p t1 s
  | .delayReq r t1 t2 t3 => Sys2Proof.Machine.execDelayReq r t1 t2 t3 s
  | .delayRsp r t1 t2 t3 t4 => Sys2Proof.Machine.execDelayRsp r t1 t2 t3 t4 s
  | .herdEnumerate => Sys2Proof.Machine.execHerdEnumerate s
  | .enum r m => Sys2Proof.Machine.execEnum r m s
  | .enumRsp r m => Sys2Proof.Machine.execEnumRsp r m s
  | .beatSend => Sys2Proof.Machine.execBeatSend s
  | .beat p f phase residence => Sys2Proof.Machine.execBeat p f phase residence s
  | .beatMissed => Sys2Proof.Machine.execBeatMissed s
  | .resync => Sys2Proof.Machine.execResync s
  | .commitReq m => Sys2Proof.Machine.execCommitReq m s
  | .vote r m => Sys2Proof.Machine.execVote r m s
  | .childVoteTimeout p => Sys2Proof.Machine.execChildVoteTimeout p s
  | .leadVoteTimeout => Sys2Proof.Machine.execLeadVoteTimeout s
  | .armLimitExpiry => Sys2Proof.Machine.execArmLimitExpiry s
  | .waveApply => Sys2Proof.Machine.execWaveApply s
  | .commitDone m => Sys2Proof.Machine.execCommitDone m s
  | .alert r m => Sys2Proof.Machine.execAlert r m s
  | .reparent r m => Sys2Proof.Machine.execReparent r m s
  | .routeDrop r m => Sys2Proof.Machine.execRouteDrop r m s
  | .tileReq r m => Sys2Proof.Machine.execTileReq r m s
  | .tileData m => Sys2Proof.Machine.execTileData m s
  | .tileEnd m => Sys2Proof.Machine.execTileEnd m s
  | .piece b => Sys2Proof.Machine.execPiece b s
  | .progress b => Sys2Proof.Machine.execProgress b s
  | .returnRecord b => Sys2Proof.Machine.execReturnRecord b s
  | .hlkTrainingTimeout p lanes => Sys2Proof.Machine.execHlkTrainingTimeout p lanes s
  | .headEnable h en => Sys2Proof.Machine.execHeadEnable h en s
  | .retry h => Sys2Proof.Machine.execRetry h s
  | .headFaultRetry h => Sys2Proof.Machine.execHeadFaultRetry h s
  | .headLinkLoss h => Sys2Proof.Machine.execHeadLinkLoss h s
  | .pcxEnable l => Sys2Proof.Machine.execPcxEnable l s
  | .pcxShort l ma fltLow held => Sys2Proof.Machine.execPcxShort l ma fltLow held s
  | .pcxOvercurrent l ma => Sys2Proof.Machine.execPcxOvercurrent l ma s
  | .pcxOpen l ma => Sys2Proof.Machine.execPcxOpen l ma s
  | .pcxOn l => Sys2Proof.Machine.execPcxOn l s
  | .pcxAutoRetry l => Sys2Proof.Machine.execPcxAutoRetry l s
  | .pcxRetry l => Sys2Proof.Machine.execPcxRetry l s
  | .pcxFltAssert g => Sys2Proof.Machine.execPcxFltAssert g s
  | .discoveryPoll h => Sys2Proof.Machine.execDiscoveryPoll h s
  | .discoveryTimeout h => Sys2Proof.Machine.execDiscoveryTimeout h s
  | .heartbeat => Sys2Proof.Machine.execHeartbeat s
  | .controlRequest h req => Sys2Proof.Machine.execControlRequest h req s
  | .controlAck h crcOk code data => Sys2Proof.Machine.execControlAck h crcOk code data s
  | .controlTimeout h => Sys2Proof.Machine.execControlTimeout h s
  | .eventPacket h payload => Sys2Proof.Machine.execEventPacket h payload s
  | .streamPacket l p => Sys2Proof.Machine.execStreamPacket l p s
  | .gapTimeout h => Sys2Proof.Machine.execGapTimeout h s
  | .lineLostTimeout h => Sys2Proof.Machine.execLineLostTimeout h s
  | .chamoisLineStart h => Sys2Proof.Machine.execChamoisLineStart h s
  | .chamoisLineEnd h => Sys2Proof.Machine.execChamoisLineEnd h s
  | .seamTimeout h => Sys2Proof.Machine.execSeamTimeout h s
  | .creditReturn h => Sys2Proof.Machine.execCreditReturn h s
  | .cxpLinkChange l up => Sys2Proof.Machine.execCxpLinkChange l up s
  | .discoveryAnswer x => Sys2Proof.Machine.execDiscoveryAnswer x s
  | .bandComplete h => Sys2Proof.Machine.execBandComplete h s
  | .claimWrite k v => Sys2Proof.Machine.execClaimWrite k v s
  | .relayout => Sys2Proof.Machine.execRelayout s
  | .fullLayout => Sys2Proof.Machine.execFullLayout s
  | .queryDequeue => Sys2Proof.Machine.execQueryDequeue s
  | .queryEndHeld n => Sys2Proof.Machine.execQueryEndHeld n s
  | .queryWaitTimeout n => Sys2Proof.Machine.execQueryWaitTimeout n s
  | .queryDescriptor ws => Sys2Proof.Machine.execQueryDescriptor ws s
  | .refDefine r ws => Sys2Proof.Machine.execRefDefine r ws s
  | .refSeal r => Sys2Proof.Machine.execRefSeal r s
  | .refDelete r => Sys2Proof.Machine.execRefDelete r s
  | .retroSubmit j ws => Sys2Proof.Machine.execRetroSubmit j ws s
  | .retroJobStart => Sys2Proof.Machine.execRetroJobStart s
  | .retroAbort j => Sys2Proof.Machine.execRetroAbort j s
  | .retroJobComplete => Sys2Proof.Machine.execRetroJobComplete s
  | .calStart => Sys2Proof.Machine.execCalStart s
  | .coefWrite off ws => Sys2Proof.Machine.execCoefWrite off ws s
  | .pieceRelease n => Sys2Proof.Machine.execPieceRelease n s
  | .mergeTimeout n => Sys2Proof.Machine.execMergeTimeout n s
  | .catchupResume => Sys2Proof.Machine.execCatchupResume s
  | .chNop c w => Sys2Proof.Machine.execChNop c w s
  | .chPoswait c w => Sys2Proof.Machine.execChPoswait c w s
  | .poswaitReached c => Sys2Proof.Machine.execPoswaitReached c s
  | .chWaitev c w => Sys2Proof.Machine.execChWaitev c w s
  | .waitevRaised c => Sys2Proof.Machine.execWaitevRaised c s
  | .chFire c w => Sys2Proof.Machine.execChFire c w s
  | .fireOneshot c => Sys2Proof.Machine.execFireOneshot c s
  | .chAct c w => Sys2Proof.Machine.execChAct c w s
  | .chLines c w => Sys2Proof.Machine.execChLines c w s
  | .linesCounted c => Sys2Proof.Machine.execLinesCounted c s
  | .chMsg c w => Sys2Proof.Machine.execChMsg c w s
  | .chBandwait c w => Sys2Proof.Machine.execChBandwait c w s
  | .bandwaitHeld c => Sys2Proof.Machine.execBandwaitHeld c s
  | .waitLimit c => Sys2Proof.Machine.execWaitLimit c s
  | .chMove c w => Sys2Proof.Machine.execChMove c w s
  | .chQuery c w => Sys2Proof.Machine.execChQuery c w s
  | .transferDone c => Sys2Proof.Machine.execTransferDone c s
  | .chQtake c w => Sys2Proof.Machine.execChQtake c w s
  | .qtakeRecords c => Sys2Proof.Machine.execQtakeRecords c s
  | .chRetro c w => Sys2Proof.Machine.execChRetro c w s
  | .chPost c w => Sys2Proof.Machine.execChPost c w s
  | .channelStart c => Sys2Proof.Machine.execChannelStart c s
  | .channelHalt c => Sys2Proof.Machine.execChannelHalt c s
  | .channelSuspend c => Sys2Proof.Machine.execChannelSuspend c s
  | .channelResume c => Sys2Proof.Machine.execChannelResume c s
  | .channelClear c => Sys2Proof.Machine.execChannelClear c s
  | .isaAdd x f => Sys2Proof.Machine.execIsaAdd x f s
  | .isaSub x f => Sys2Proof.Machine.execIsaSub x f s
  | .isaAnd x f => Sys2Proof.Machine.execIsaAnd x f s
  | .isaOr x f => Sys2Proof.Machine.execIsaOr x f s
  | .isaXor x f => Sys2Proof.Machine.execIsaXor x f s
  | .isaShl x f => Sys2Proof.Machine.execIsaShl x f s
  | .isaShr x f => Sys2Proof.Machine.execIsaShr x f s
  | .isaSar x f => Sys2Proof.Machine.execIsaSar x f s
  | .isaCmps x f => Sys2Proof.Machine.execIsaCmps x f s
  | .isaCmpu x f => Sys2Proof.Machine.execIsaCmpu x f s
  | .isaMins x f => Sys2Proof.Machine.execIsaMins x f s
  | .isaMaxs x f => Sys2Proof.Machine.execIsaMaxs x f s
  | .isaMinu x f => Sys2Proof.Machine.execIsaMinu x f s
  | .isaMaxu x f => Sys2Proof.Machine.execIsaMaxu x f s
  | .isaAddi x f => Sys2Proof.Machine.execIsaAddi x f s
  | .isaAndi x f => Sys2Proof.Machine.execIsaAndi x f s
  | .isaOri x f => Sys2Proof.Machine.execIsaOri x f s
  | .isaXori x f => Sys2Proof.Machine.execIsaXori x f s
  | .isaShli x f => Sys2Proof.Machine.execIsaShli x f s
  | .isaShri x f => Sys2Proof.Machine.execIsaShri x f s
  | .isaSari x f => Sys2Proof.Machine.execIsaSari x f s
  | .isaCmpsi x f => Sys2Proof.Machine.execIsaCmpsi x f s
  | .isaCmpui x f => Sys2Proof.Machine.execIsaCmpui x f s
  | .isaInsh x f => Sys2Proof.Machine.execIsaInsh x f s
  | .isaMul x f => Sys2Proof.Machine.execIsaMul x f s
  | .isaMuld x f => Sys2Proof.Machine.execIsaMuld x f s
  | .isaMuldu x f => Sys2Proof.Machine.execIsaMuldu x f s
  | .isaDiv x f => Sys2Proof.Machine.execIsaDiv x f s
  | .isaDivu x f => Sys2Proof.Machine.execIsaDivu x f s
  | .isaRem x f => Sys2Proof.Machine.execIsaRem x f s
  | .isaRemu x f => Sys2Proof.Machine.execIsaRemu x f s
  | .isaLd x f => Sys2Proof.Machine.execIsaLd x f s
  | .isaSt x f => Sys2Proof.Machine.execIsaSt x f s
  | .isaLdb x f => Sys2Proof.Machine.execIsaLdb x f s
  | .isaLds x f => Sys2Proof.Machine.execIsaLds x f s
  | .isaLdt x f => Sys2Proof.Machine.execIsaLdt x f s
  | .isaStb x f => Sys2Proof.Machine.execIsaStb x f s
  | .isaSts x f => Sys2Proof.Machine.execIsaSts x f s
  | .isaStt x f => Sys2Proof.Machine.execIsaStt x f s
  | .isaLdinc x f => Sys2Proof.Machine.execIsaLdinc x f s
  | .isaStinc x f => Sys2Proof.Machine.execIsaStinc x f s
  | .isaMovw x f => Sys2Proof.Machine.execIsaMovw x f s
  | .isaFillw x f => Sys2Proof.Machine.execIsaFillw x f s
  | .isaCrcm x f => Sys2Proof.Machine.execIsaCrcm x f s
  | .isaFence x f => Sys2Proof.Machine.execIsaFence x f s
  | .isaSwap x f => Sys2Proof.Machine.execIsaSwap x f s
  | .isaAddm x f => Sys2Proof.Machine.execIsaAddm x f s
  | .isaCas x f => Sys2Proof.Machine.execIsaCas x f s
  | .isaJmpl x f => Sys2Proof.Machine.execIsaJmpl x f s
  | .isaJmpr x f => Sys2Proof.Machine.execIsaJmpr x f s
  | .isaBr x f => Sys2Proof.Machine.execIsaBr x f s
  | .isaBri x f => Sys2Proof.Machine.execIsaBri x f s
  | .isaRdpos x f => Sys2Proof.Machine.execIsaRdpos x f s
  | .isaRdvel x f => Sys2Proof.Machine.execIsaRdvel x f s
  | .isaRdtime x f => Sys2Proof.Machine.execIsaRdtime x f s
  | .isaPdiff x f => Sys2Proof.Machine.execIsaPdiff x f s
  | .isaSelf x f => Sys2Proof.Machine.execIsaSelf x f s
  | .isaFadd x f => Sys2Proof.Machine.execIsaFadd x f s
  | .isaFsub x f => Sys2Proof.Machine.execIsaFsub x f s
  | .isaFmul x f => Sys2Proof.Machine.execIsaFmul x f s
  | .isaFdiv x f => Sys2Proof.Machine.execIsaFdiv x f s
  | .isaFsqrt x f => Sys2Proof.Machine.execIsaFsqrt x f s
  | .isaFma x f => Sys2Proof.Machine.execIsaFma x f s
  | .isaFmin x f => Sys2Proof.Machine.execIsaFmin x f s
  | .isaFmax x f => Sys2Proof.Machine.execIsaFmax x f s
  | .isaItof x f => Sys2Proof.Machine.execIsaItof x f s
  | .isaFtoi x f => Sys2Proof.Machine.execIsaFtoi x f s
  | .isaFsgn x f => Sys2Proof.Machine.execIsaFsgn x f s
  | .isaFclass x f => Sys2Proof.Machine.execIsaFclass x f s
  | .isaMfs x f => Sys2Proof.Machine.execIsaMfs x f s
  | .isaMts x f => Sys2Proof.Machine.execIsaMts x f s
  | .isaEret x f => Sys2Proof.Machine.execIsaEret x f s
  | .isaWfe x f => Sys2Proof.Machine.execIsaWfe x f s
  | .wfeWake x => Sys2Proof.Machine.execWfeWake x s
  | .isaMfa x f => Sys2Proof.Machine.execIsaMfa x f s
  | .isaMta x f => Sys2Proof.Machine.execIsaMta x f s
  | .isaTrap x f => Sys2Proof.Machine.execIsaTrap x f s
  | .isaRep x f => Sys2Proof.Machine.execIsaRep x f s
  | .isaHint x op rest => Sys2Proof.Machine.execIsaHint x op rest s
  | .fastTrap x => Sys2Proof.Machine.execFastTrap x s
  | .normalTrap x => Sys2Proof.Machine.execNormalTrap x s
  | .coreRun k run => Sys2Proof.Machine.execCoreRun k run s
  | .undefinedOpcode x w => Sys2Proof.Machine.execUndefinedOpcode x w s
  | .fetchFault x why => Sys2Proof.Machine.execFetchFault x why s
  | .hbmRewrite y => Sys2Proof.Machine.execHbmRewrite y s
  | .patrolRead y r => Sys2Proof.Machine.execPatrolRead y r s
  | .stackFence y cause => Sys2Proof.Machine.execStackFence y cause s
  | .fenceWrite y => Sys2Proof.Machine.execFenceWrite y s
  | .scrubRead r flip flipChk => Sys2Proof.Machine.execScrubRead r flip flipChk s
  | .injectArm by_ => Sys2Proof.Machine.execInjectArm by_ s
  | .grazePeriod bidders => Sys2Proof.Machine.execGrazePeriod bidders s
  | .grazeSwap => Sys2Proof.Machine.execGrazeSwap s
  | .arbPrioWrite r v => Sys2Proof.Machine.execArbPrioWrite r v s
  | .moverSubmit k by_ addr => Sys2Proof.Machine.execMoverSubmit k by_ addr s
  | .moverCopy k => Sys2Proof.Machine.execMoverCopy k s
  | .moverFill k => Sys2Proof.Machine.execMoverFill k s
  | .moverCompare k => Sys2Proof.Machine.execMoverCompare k s
  | .moverComparePattern k => Sys2Proof.Machine.execMoverComparePattern k s
  | .moverComplete k => Sys2Proof.Machine.execMoverComplete k s
  | .functionAttach f mode => Sys2Proof.Machine.execFunctionAttach f mode s
  | .functionDetach f cause => Sys2Proof.Machine.execFunctionDetach f cause s
  | .mbxGo f len => Sys2Proof.Machine.execMbxGo f len s
  | .mbxResponse f => Sys2Proof.Machine.execMbxResponse f s
  | .mbxDoneClear f => Sys2Proof.Machine.execMbxDoneClear f s
  | .hostMailboxWrite f off bytes => Sys2Proof.Machine.execHostMailboxWrite f off bytes s
  | .submissionDoorbell f y => Sys2Proof.Machine.execSubmissionDoorbell f y s
  | .headerRead f y prod => Sys2Proof.Machine.execHeaderRead f y prod s
  | .entryTake f y e => Sys2Proof.Machine.execEntryTake f y e s
  | .completionDoorbell f c v => Sys2Proof.Machine.execCompletionDoorbell f c v s
  | .hostNop f y n => Sys2Proof.Machine.execHostNop f y n s
  | .hostQuery f y n => Sys2Proof.Machine.execHostQuery f y n s
  | .hostRetro f y n => Sys2Proof.Machine.execHostRetro f y n s
  | .hostRead f y n => Sys2Proof.Machine.execHostRead f y n s
  | .refWrite f y n tiles failed => Sys2Proof.Machine.execRefWrite f y n tiles failed s
  | .directEntryComplete f y n => Sys2Proof.Machine.execDirectEntryComplete f y n s
  | .queryComplete n => Sys2Proof.Machine.execQueryComplete n s
  | .coalMessage f c => Sys2Proof.Machine.execCoalMessage f c s
  | .ringEnable f sub r => Sys2Proof.Machine.execRingEnable f sub r s
  | .sqStop f y => Sys2Proof.Machine.execSqStop f y s
  | .stopFinish f y prod entries => Sys2Proof.Machine.execStopFinish f y prod entries s
  | .cqStop f c => Sys2Proof.Machine.execCqStop f c s
  | .hostVerWrite f v => Sys2Proof.Machine.execHostVerWrite f v s
  | .eventRaise z => Sys2Proof.Machine.execEventRaise z s
  | .levelInactive z => Sys2Proof.Machine.execLevelInactive z s
  | .eventCommit q => Sys2Proof.Machine.execEventCommit q s
  | .evcSet z => Sys2Proof.Machine.execEvcSet z s
  | .evcAck z => Sys2Proof.Machine.execEvcAck z s
  | .evcClr z => Sys2Proof.Machine.execEvcClr z s
  | .queuePop q => Sys2Proof.Machine.execQueuePop q s
  | .queueConsWrite q v => Sys2Proof.Machine.execQueueConsWrite q v s
  | .alarmArm t time => Sys2Proof.Machine.execAlarmArm t time s
  | .alarmFire t => Sys2Proof.Machine.execAlarmFire t s
  | .bopFrame x => Sys2Proof.Machine.execBopFrame x s
  | .connect x src lo hi => Sys2Proof.Machine.execConnect x src lo hi s
  | .close x y => Sys2Proof.Machine.execClose x y s
  | .read x y o => Sys2Proof.Machine.execRead x y o s
  | .write x y o value => Sys2Proof.Machine.execWrite x y o value s
  | .readSeg x y o off len => Sys2Proof.Machine.execReadSeg x y o off len s
  | .writeSeg x y o last off bytes => Sys2Proof.Machine.execWriteSeg x y o last off bytes s
  | .commit x y data => Sys2Proof.Machine.execCommit x y data s
  | .discard x y => Sys2Proof.Machine.execDiscard x y s
  | .describe x y o => Sys2Proof.Machine.execDescribe x y o s
  | .sessionTimeout x y => Sys2Proof.Machine.execSessionTimeout x y s
  | .segmentTimeout x y index sub => Sys2Proof.Machine.execSegmentTimeout x y index sub s
  | .programWrite off ws => Sys2Proof.Machine.execProgramWrite off ws s
  | .storeConfiguration => Sys2Proof.Machine.execStoreConfiguration s
  | .eraseConfiguration => Sys2Proof.Machine.execEraseConfiguration s
  | .flashOperationDone ok => Sys2Proof.Machine.execFlashOperationDone ok s
  | .ethFrame p len fcsOk tagged x => Sys2Proof.Machine.execEthFrame p len fcsOk tagged x s
  | .ethLinkChange p up present => Sys2Proof.Machine.execEthLinkChange p up present s
  | .ptpSync p time gm => Sys2Proof.Machine.execPtpSync p time gm s
  | .suppliesGood pll prog boot => Sys2Proof.Machine.execSuppliesGood pll prog boot s
  | .railReset r => Sys2Proof.Machine.execRailReset r s
  | .resetNAssert => Sys2Proof.Machine.execResetNAssert s
  | .watchdogExpiry boot => Sys2Proof.Machine.execWatchdogExpiry boot s
  | .deviceReset boot => Sys2Proof.Machine.execDeviceReset boot s
  | .selftestComplete t s0 s1 s2 s3 velvet ref => Sys2Proof.Machine.execSelftestComplete t s0 s1 s2 s3 velvet ref s
  | .trainComplete => Sys2Proof.Machine.execTrainComplete s
  | .readyDeadline => Sys2Proof.Machine.execReadyDeadline s
  | .pllLockTimeout => Sys2Proof.Machine.execPllLockTimeout s
  | .serviceRequest v => Sys2Proof.Machine.execServiceRequest v s
  | .returnFenced v pass s0 s1 s2 s3 => Sys2Proof.Machine.execReturnFenced v pass s0 s1 s2 s3 s
  | .powerRequest v => Sys2Proof.Machine.execPowerRequest v s
  | .powerTransitionEnd phy => Sys2Proof.Machine.execPowerTransitionEnd phy s
  | .wakeRequest => Sys2Proof.Machine.execWakeRequest s
  | .supplyWarning r mv => Sys2Proof.Machine.execSupplyWarning r mv s
  | .supplyWarningEnd r mv => Sys2Proof.Machine.execSupplyWarningEnd r mv s
  | .throttleStart y t => Sys2Proof.Machine.execThrottleStart y t s
  | .throttleStep y t => Sys2Proof.Machine.execThrottleStep y t s
  | .throttleEnd y t => Sys2Proof.Machine.execThrottleEnd y t s
  | .thermalTrip y t => Sys2Proof.Machine.execThermalTrip y t s
  | .logFlush => Sys2Proof.Machine.execLogFlush s
  | .logWrite bytes => Sys2Proof.Machine.execLogWrite bytes s
  | .imageWrite last off bytes => Sys2Proof.Machine.execImageWrite last off bytes s
  | .imageVerifyDone auth => Sys2Proof.Machine.execImageVerifyDone auth s
  | .activate => Sys2Proof.Machine.execActivate s
  | .confirm => Sys2Proof.Machine.execConfirm s
  | .keyProgram x bytes => Sys2Proof.Machine.execKeyProgram x bytes s
  | .keyRevoke x slot => Sys2Proof.Machine.execKeyRevoke x slot s
  | .bootComplete => Sys2Proof.Machine.execBootComplete s
  | .partCCheck same => Sys2Proof.Machine.execPartCCheck same s
  | .pllLock serdes boot => Sys2Proof.Machine.execPllLock serdes boot s
  | .thermtripComparator => Sys2Proof.Machine.execThermtripComparator s
  | .correctedErrorsLog => Sys2Proof.Machine.execCorrectedErrorsLog s
  | .registerWrite by_ win off w => Sys2Proof.Machine.execRegisterWrite by_ win off w s
  | .wireProbe follow => Sys2Proof.Machine.execWireProbe follow s
  | .pairFaultDetect pair fault => Sys2Proof.Machine.execPairFaultDetect pair fault s
  | .pairFaultClear pair fault => Sys2Proof.Machine.execPairFaultClear pair fault s
  | .fioEncCfgWrite n v => Sys2Proof.Machine.execFioEncCfgWrite n v s
  | .fieldInputPin k level => Sys2Proof.Machine.execFieldInputPin k level s
  | .fieldInputAccept k => Sys2Proof.Machine.execFieldInputAccept k s
  | .reversedDetect k => Sys2Proof.Machine.execReversedDetect k s
  | .polarityCheck x => Sys2Proof.Machine.execPolarityCheck x s
  | .polarityCheckDone x mv => Sys2Proof.Machine.execPolarityCheckDone x mv s
  | .driverShutoff x => Sys2Proof.Machine.execDriverShutoff x s
  | .driverOvertemp x => Sys2Proof.Machine.execDriverOvertemp x s
  | .driverRetry x temp => Sys2Proof.Machine.execDriverRetry x temp s
  | .unlock x => Sys2Proof.Machine.execUnlock x s

end Sys2Proof.Machine
end

