-- ==== Sys2Proof/Machine/Step.lean ====
section
/-! DEFINITION. The step: the command at the front of the queue, or a nanosecond of idling. -/

namespace Sys2Proof.Machine

/-- One step: the command at the front runs on the machine with the queue's rest; on an empty queue a nanosecond passes.
(Log entries 1 DESIGN CHOICE, 5 DESIGN CHOICE.) -/
def step (s : State) : Host.Outcome State Fault Refusal :=
  match s.pending with
  | [] => s.run tickOp
  | c :: rest => exec c { s with pending := rest }

/-- The machine with the command that a word of the table spells in front of its queue; the table gives no row bits, so no word
spells a command. (Log entry 150 DEDUCED.) -/
def State.withFetchWord (s : State) (_nbits _w : Nat) : State := s

end Sys2Proof.Machine
end

