-- ==== Sys2Proof/Safety.lean ====
section
/-! DEFINITION. What a safe run is, and what a command leaves alone, in the terms statements use. -/

namespace Sys2Proof

open Machine

/-- A step answers a next state. -/
def GoesOn (s : State) : Prop := ∃ t, Machine.step s = .next t

/-- Every command that waits is well-formed. -/
def QueueWf (s : State) : Prop := ∀ c ∈ s.pending, c.wf = true

/-- The memories of the block keep their canonical form: keys strictly rising, no entry equal to what an unlisted one reads
as. -/
def MemoriesWf (d : Dev) : Prop :=
  memWf MemWord.blank d.sram = true ∧ memWf Tile.blank d.hbm = true ∧ memWf MemWord.blank d.hbc.xfer = true

/-- The parts of the block, one for each field of Dev. -/
inductive Part where
  | now | regs | domains | freeIdx | spr | fio | evc | wev | sram | hbm | hbc | ghd | owners | cxi
  | hlk | commit | dict | tfb | chm | cex | graze | tmv | hif | ibx | procs | regHist | reply | outbox
  deriving DecidableEq, Repr

/-- A part is the same in two blocks. -/
def Part.same (d t : Dev) : Part → Prop
  | .now => t.now = d.now
  | .regs => t.regs = d.regs
  | .domains => t.domains = d.domains
  | .freeIdx => t.freeIdx = d.freeIdx
  | .spr => t.spr = d.spr
  | .fio => t.fio = d.fio
  | .evc => t.evc = d.evc
  | .wev => t.wev = d.wev
  | .sram => t.sram = d.sram
  | .hbm => t.hbm = d.hbm
  | .hbc => t.hbc = d.hbc
  | .ghd => t.ghd = d.ghd
  | .owners => t.owners = d.owners
  | .cxi => t.cxi = d.cxi
  | .hlk => t.hlk = d.hlk
  | .commit => t.commit = d.commit
  | .dict => t.dict = d.dict
  | .tfb => t.tfb = d.tfb
  | .chm => t.chm = d.chm
  | .cex => t.cex = d.cex
  | .graze => t.graze = d.graze
  | .tmv => t.tmv = d.tmv
  | .hif => t.hif = d.hif
  | .ibx => t.ibx = d.ibx
  | .procs => t.procs = d.procs
  | .regHist => t.regHist = d.regHist
  | .reply => t.reply = d.reply
  | .outbox => t.outbox = d.outbox

/-- From s to t only the parts listed may differ: the queue and every other part of the block are as before. -/
def Only (ps : List Part) (s t : State) : Prop := t.pending = s.pending ∧ ∀ p, p ∉ ps → p.same s.dev t.dev

/-- What a change of state of an axis may reach: Spoor, the pulses and trigger packets of fires fixed with it, the channels that
wait on it, the lead's commit, events and registers. -/
def axisParts : List Part := [.spr, .regs, .evc, .wev, .fio, .cxi, .ibx, .hlk]

/-- A message has come whole on a port that is live and in one of the states listed (R110): no CRC failed on the way, its type
is one of the table's and its reserved fields are zero. -/
def Arrives (r : Arrival) (states : List Nat) (s : State) : Prop :=
  s.dev.powered = true ∧ s.dev.portLive r.port = true ∧ s.dev.portState r.port ∈ states ∧ r.fails = 0 ∧ r.known = true ∧
  r.reservedZero = true

/-- The TILE_END in something that leaves the block, with its port. -/
def tileEndOf : OutMsg → Option (Nat × TileEnd)
  | .hlk p (.tileEnd e) => some (p, e)
  | _ => none

/-- No channel has a command in progress. -/
def ChannelsIdle (s : State) : Prop := s.dev.busyChans = []

/-- From s to t only the registers at the keys listed may differ. -/
def RegsOnly (ks : List Nat) (s t : State) : Prop := ∀ k, k ∉ ks → tfind t.dev.regs k = tfind s.dev.regs k

/-- From s to t no SRAM word outside the n from address a differs. -/
def SramOnly (a n : Nat) (s t : State) : Prop := ∀ b, b < a ∨ a + n ≤ b → t.dev.cell b = s.dev.cell b

/-- An engine holds the front descriptor of queue k and works it to its end (R461): nothing of it is done yet, the domain of the
movers is on, and no word of the transfer buffer is in error. -/
def MoverHeld (k : Fin 5) (s : State) : Prop :=
  s.dev.powered = true ∧ s.dev.domOn 22 = true ∧ tfind s.dev.tmv.results k = none ∧ s.dev.hbc.xfer = [] ∧
  (s.dev.moverRun? (.queue k)).isSome = true ∧
  ((s.dev.moverReq (.queue k)).any (fun q => decide (q.words ≤ segmentWords)) = true ∨ s.dev.moverWaits = false)

/-- What leaves the block when function f's vector v is to be sent: the message of an attached function whose vector is not masked
(R477, R486). -/
def msixOut (d : Dev) (f v : Nat) : List OutMsg :=
  if d.attached f && (d.msix f).unmasked v then [.msix f v ((d.msix f).vector v).addr ((d.msix f).vector v).data] else []

/-- What it leaves in MSI-X of the function: the pending bit of a vector that is masked (R486). -/
def msixHeld (d : Dev) (f v : Nat) : Msix :=
  if d.attached f && !(d.msix f).unmasked v then (d.msix f).mark v true else d.msix f

/-- A command word with no flag and no reserved bit set (R290). -/
def ChWord.bare (w : ChWord) : Bool :=
  w.plain && !w.last && !w.hold && !w.note && decide (w.rsv1 = 0) && decide (w.rsv0 = 0)

/-- Channel c takes the next word: RUNNING in a cluster that is on, no gather open, no repeat in progress and no SUSPEND
waiting. -/
def ChFresh (c : Fin 512) (s : State) : Prop :=
  s.dev.powered = true ∧ s.dev.chRuns c = true ∧ (s.dev.proc c).rep = none ∧ (s.dev.chan c).gather = none ∧
  (s.dev.chan c).skip = false ∧ (s.dev.chan c).suspReq = false

/-- Channel c is WAITING in operation op of a word without END, no FAULT of its axis has ended the wait, and no SUSPEND
waits. -/
def ChWaiting (c : Fin 512) (op : ChanOp) (r : ChanRun) (s : State) : Prop :=
  s.dev.powered = true ∧ s.dev.chOn c = true ∧ s.dev.chState c = 2 ∧ (s.dev.chan c).run = some r ∧ r.op = op ∧
  r.cut = none ∧ r.w.last = false ∧ (s.dev.chan c).suspReq = false

/-- Channel c has gone on to the next word, with the result word in w31 (R293–R295). -/
def ChDone (c : Fin 512) (st sub resid value : Nat) (s t : State) : Prop :=
  t.dev.chState c = 1 ∧ (t.dev.chan c).run = none ∧ (t.dev.proc c).pc = (s.dev.proc c).pc + 1 ∧
  (t.dev.proc c).reg false 31 = resultWord st sub resid value ∧
  (∀ i : Fin 31, (t.dev.proc c).reg false i = (s.dev.proc c).reg false i)

/-- Channel c has become WAITING in operation op, its program counter still at the word (R305). -/
def ChWaits (c : Fin 512) (code : Nat) (w : ChWord) (op : ChanOp) (s t : State) : Prop :=
  t.dev.chState c = 2 ∧ (t.dev.chan c).run = some { op := op, code := code, w := w, since := s.dev.now } ∧
  t.dev.procs = s.dev.procs

/-- Context x executes its next word: it runs, stands in no gather (R296) and in no repeat (R378). -/
def IsaReady (x : Ctx) (s : State) : Prop :=
  s.dev.powered = true ∧ s.dev.ctxRuns x = true ∧ s.dev.inGather x = false ∧ (s.dev.ctx x).rep = none

/-- Context x has gone on to the address pc, with v in general register d of the bank in use; nothing else of its processor
differs. -/
def IsaTo (x : Ctx) (d : Fin 32) (v pc : Word) (s t : State) : Prop :=
  t.dev.ctx x = { (s.dev.ctx x).setReg (isControl x && (s.dev.ctx x).fast) d.val v with pc := pc }

/-- The same at the next word. -/
def IsaWrites (x : Ctx) (d : Fin 32) (v : Word) (s t : State) : Prop := IsaTo x d v ((s.dev.ctx x).pc + 1) s t

/-- Context x has gone on to the next word; nothing else of its processor differs. -/
def IsaPasses (x : Ctx) (s t : State) : Prop := t.dev.ctx x = { s.dev.ctx x with pc := (s.dev.ctx x).pc + 1 }

/-- The processor of every other context is as before, and beside the parts listed only x's own processor and its channel. -/
def IsaOnly (x : Ctx) (ps : List Part) (s t : State) : Prop :=
  (∀ n, n ≠ ctxNum x → t.dev.proc n = s.dev.proc n) ∧ (∀ n, n ≠ ctxNum x → t.dev.chan n = s.dev.chan n) ∧
  Only (.procs :: .ibx :: ps) s t

/-- Session n is open on path x, which is there (R551, R559). -/
def BopOpen (x : BopPath) (n : Nat) (r : Session) (s : State) : Prop :=
  s.dev.pathUp x = true ∧ s.dev.session x n = some r

/-- The dictionary answers (R552), and the record names object x by index, subindex and TYPE. -/
def BopNames (o : ObjName) (x : Obj) (s : State) : Prop :=
  s.dev.dictReady = true ∧ objOf o.index.toNat o.sub.toNat = some x ∧ o.typ.toNat = x.typ

/-- The key of an object in the pending set and among the values kept. -/
def ObjName.key (o : ObjName) : Nat := 256 * o.index.toNat + o.sub.toNat

/-- A record has completed with status, sub-code and response data. -/
def BopSays (st sub : Nat) (data : List Byte) (t : State) : Prop := t.dev.reply = (st, sub) ∧ t.dev.dict.data = data

/-- A record has completed and changed nothing else: the pending set, every value kept and every part of the block beside the
sessions stand. -/
def BopOnlySays (st sub : Nat) (data : List Byte) (s t : State) : Prop :=
  BopSays st sub data t ∧ t.dev.dict.pending = s.dev.dict.pending ∧ t.dev.dict.vars = s.dev.dict.vars ∧
  t.dev.dict.store = s.dev.dict.store ∧ Only [.dict, .reply] s t

/-- The response frame of the field network to a request's sender, from the address it was sent to (R564). -/
def bopAnswer (p : Fin 2) (x : EthPeer) (out : List Byte) : OutMsg :=
  .ethFrame p { dest := x.mac, source := Config.macAddress p, body := .bop x.dst x.src out }

/-- A frame of the field network comes from an address to one of the port's (R564). -/
def BopArrives (p : Fin 2) (x : EthPeer) (s : State) : Prop :=
  x.src.wf = true ∧ x.dst.wf = true ∧ s.dev.portHas p x.dst = true

/-- A stored SRAM word with one of its 55 bits inverted: 0–47 its data bits, 48–54 its check bits c0–c6. -/
def flipBit (m : MemWord) (i : Fin 55) : MemWord :=
  if i.val < 48 then { m with data := m.data ^^^ (1#48 <<< i.val) } else { m with chk := m.chk ^^^ (1#7 <<< (i.val - 48)) }

end Sys2Proof
end

