-- ==== Sys2Proof/Certificates/Slice0/Obligations.lean ====
section
/-! DEFINITION. The statements about the block, for the provers. -/

open Sys2Proof Sys2Proof.Machine

/-! ### The block as a whole -/

/-- The step: the command at the front of the queue runs on the machine with the queue's rest; an empty queue passes one
nanosecond of the reference while supplies stand (the model's own tick, log entry 5): the time stamp advances by 1 ns, or by 2 ns
where the steering has gathered one, and the HELLO of a training port leaves when it is due. -/
def Obligations.BlockStep : Prop :=
  (∀ (c : Instr) (rest : List Instr) (s : State), s.pending = c :: rest → Machine.step s = exec c { s with pending := rest }) ∧
  (∀ (s : State), s.pending = [] → s.dev.powered = false → Machine.step s = .next s) ∧
  (∀ (s : State), s.pending = [] → s.dev.powered = true → s.dev.hlk.beats = [] → (∀ p : Fin 4, s.dev.portState p ≠ 1) →
    s.dev.graze.bids = [] → s.dev.graze.busy = [] → s.dev.hlk.steer = 0 → -1000000000 < s.dev.hlk.steerAcc →
    s.dev.hlk.steerAcc < 1000000000 →
    Machine.step s = .next { s with dev := { s.dev with now := s.dev.now + 1, ghd := s.dev.ghd.passed (s.dev.domOn 17) } }) ∧
  (∀ (s : State), s.pending = [] → s.dev.powered = true → s.dev.hlk.beats = [] → (∀ p : Fin 4, s.dev.portState p ≠ 1) →
    s.dev.graze.bids = [] → s.dev.graze.busy = [] → 0 < s.dev.hlk.steer → 1000000000 ≤ s.dev.hlk.steerAcc + s.dev.hlk.steer →
    ∃ t, Machine.step s = .next t ∧ t.dev.now = s.dev.now + 2 ∧ t.dev.ghd.up = s.dev.ghd.up + 1 ∧ Only [.now, .ghd, .hlk] s t) ∧
  (∀ (p : Fin 4) (u : Word) (s : State), s.pending = [] → s.dev.powered = true → s.dev.hlk.beats = [] →
    (∀ q : Fin 4, q ≠ p → s.dev.portState q ≠ 1) → s.dev.portState p = 1 → s.dev.portLive p = true →
    s.dev.graze.bids = [] → s.dev.graze.busy = [] → s.dev.hlk.steer = 0 → s.dev.hlk.steerAcc = 0 →
    (s.dev.port p).helloAt = some u → atOrPast (s.dev.now + 1) u = true →
    ∃ t, Machine.step s = .next t ∧ t.dev.outbox = s.dev.outbox ++ [.hlk p (.hello (s.dev.ownHello p))] ∧
      (t.dev.port p).helloAt = some (s.dev.now + 1 + 10000) ∧ t.dev.now = s.dev.now + 1 ∧ Only [.now, .ghd, .hlk, .outbox] s t)

/-- Every command whose operands some party can give answers a next state and leaves the queue alone; a command whose operands
nobody can give is the only one that stops (the model's own fault, log entry 8). -/
def Obligations.CommandsAnswer : Prop :=
  (∀ (c : Instr) (s : State), c.wf = true → ∃ t, exec c s = .next t ∧ t.pending = s.pending) ∧
  (∀ (c : Instr) (s : State), c.wf = false → exec c s = .fault .illFormed)

/-- The block never stops: from every state whose queue holds well-formed commands, each step answers a next state whose queue holds
well-formed commands and is one command shorter; so any number of steps goes on. -/
def Obligations.BlockNeverStops : Prop :=
  (∀ (s : State), QueueWf s → ∃ t, Machine.step s = .next t ∧ QueueWf t ∧ t.pending = s.pending.tail) ∧
  (∀ (n : Nat) (s : State), QueueWf s → ∃ t, Host.Core.run Sys2Proof.core n s = .next t ∧ QueueWf t ∧
    t.pending = s.pending.drop n)

/-- R194, R418, R436, R459: the memories of the block keep their canonical form through every step, from every state in which they
have it, whatever command runs. -/
def Obligations.MemoriesKeepTheirForm : Prop :=
  (∀ (s t : State), MemoriesWf s.dev → Machine.step s = .next t → MemoriesWf t.dev)

/-- R458: at reset both banks hold the quotas and the slot table that it gives, each of the classes 0–5 owns slots enough for its
quota, and a slot of LIVE begins at most 96 ns on; the machine is OFF with every domain off, nothing
waits, and the memories stand in their form. -/
def Obligations.ResetLeaves : Prop :=
  ((List.range 32).map (fun c => State.reset.dev.rdF .tfbQuotaaC c 11 0) = [256, 640, 1024, 128, 64, 64] ++ List.replicate 26 0) ∧
  ((List.range 32).map (fun c => State.reset.dev.rdF .tfbQuotabC c 11 0) = [256, 640, 1024, 128, 64, 64] ++ List.replicate 26 0) ∧
  (((List.range 32).map (fun c => State.reset.dev.rdF .tfbQuotaaC c 11 0)).sum = 2176) ∧
  ((List.range 64).map (fun j => State.reset.dev.rd .tfbSlotbJ j) = (List.range 64).map (fun j => State.reset.dev.rd .tfbSlotaJ j)) ∧
  (∀ j : Fin 64, fld (State.reset.dev.rd .tfbSlotaJ j) 31 0 = 0x3F) ∧
  (∀ j : Fin 64, j.val % 16 = 11 ∨ j.val % 16 = 14 ∨ j.val % 16 = 15 → bit (State.reset.dev.rd .tfbSlotaJ j) 37 = false) ∧
  (∀ (j : Fin 64) (m c : Nat), (m, c) ∈ [(0, 1), (5, 1), (10, 1), (1, 0), (9, 0), (2, 2), (3, 2), (7, 2), (8, 2), (12, 2), (13, 2),
    (4, 3)] → j.val % 16 = m →
    bit (State.reset.dev.rd .tfbSlotaJ j) 37 = true ∧ fld (State.reset.dev.rd .tfbSlotaJ j) 36 32 = c) ∧
  (∀ j : Fin 64, j.val % 16 = 6 → bit (State.reset.dev.rd .tfbSlotaJ j) 37 = true ∧
    fld (State.reset.dev.rd .tfbSlotaJ j) 36 32 = if j.val % 32 = 6 then 4 else 5) ∧
  ((List.range 6).map (fun c => ((List.range 64).filter (fun j => bit (State.reset.dev.rd .tfbSlotaJ j) 37 &&
    fld (State.reset.dev.rd .tfbSlotaJ j) 36 32 = c)).length) = [8, 12, 24, 4, 2, 2]) ∧
  (∀ c : Fin 6, State.reset.dev.rdF .tfbQuotaaC c 11 0 ≤ 56 * ((List.range 64).filter (fun j =>
    bit (State.reset.dev.rd .tfbSlotaJ j) 37 && fld (State.reset.dev.rd .tfbSlotaJ j) 36 32 = c.val)).length) ∧
  (∀ j : Fin 64, ∃ k : Fin 6, bit (State.reset.dev.rd .tfbSlotaJ ((j.val + k.val) % 64)) 37 = true ∧
    fld (State.reset.dev.rd .tfbSlotaJ ((j.val + k.val) % 64)) 36 32 = 1) ∧
  (State.reset.dev.devState = .off) ∧
  ((List.range 24).all (fun k => !State.reset.dev.domOn k) = true) ∧
  (State.reset.pending = [] ∧ QueueWf State.reset ∧ MemoriesWf State.reset.dev)

/-- R418–R420: the data bits lie in the codeword at the positions that are no powers of two, each of c0–c5 is the XOR of the data
bits whose position has its bit, and c6 makes the XOR of all 55 bits zero; a read decodes by s and p as the table says, and the
poison pattern as poison. So of every word each single inverted bit is corrected, and each two are found. -/
def Obligations.SecdedCode : Prop :=
  (dataPositions = (List.range 55).filter (fun p => p ∉ [0, 1, 2, 4, 8, 16, 32])) ∧
  (∀ (w : Word) (i : Fin 6), (checkField w).getLsbD i = decide ((((List.range 48).zip dataPositions).filter
    (fun e => e.2.testBit i && w.getLsbD e.1)).length % 2 = 1)) ∧
  (∀ (w : Word), (parity 48 w.toNat ^^ parity 7 (checkField w).toNat) = false) ∧
  (∀ (m : MemWord) (s : Nat) (p : Bool), s = (m.chk.toNat % 64) ^^^ ((checkField m.data).toNat % 64) →
    p = (parity 48 m.data.toNat ^^ parity 7 m.chk.toNat) →
    decodeWord m =
      if p = false then (if s = 0 then .ok m.data else .uncorrectable m.data)
      else if s = 63 then .poison m.data
      else if 55 ≤ s then .uncorrectable m.data
      else match (List.range 48).find? (fun i => dataPositions.getD i 0 = s) with
        | some i => .corrected (m.data ^^^ (1#48 <<< i))
        | none => .corrected m.data) ∧
  (poisonWord = { data := 0, chk := 0x7F } ∧ decodeWord poisonWord = .poison 0 ∧ goodWord 0 = { data := 0, chk := 0 }) ∧
  (∀ (w : Word), decodeWord (goodWord w) = .ok w) ∧
  (∀ (w : Word) (i : Fin 55), decodeWord (flipBit (goodWord w) i) = .corrected w) ∧
  (∀ (w : Word) (i j : Fin 55), i ≠ j → ∃ v, decodeWord (flipBit (flipBit (goodWord w) i) j) = .uncorrectable v)

/-! ### Events -/

/-- R526–R528: a pulse source with P = 0 that is raised becomes pending with its stamp, and with P = 1 it is merged; a level
source whose input becomes active records the activation, unless E was active already, and its fall records nothing. A number
that names no source, a source whose owner is off and a level that is active already take no raising. -/
def Obligations.EventRaisePends : Prop :=
  (∀ (i : Fin 1024) (s : State), s.dev.powered = true → srcKind i = .pulse → s.dev.srcLive i = true → (s.dev.source i).p = false →
    ∃ t, exec (.eventRaise i) s = .next t ∧
      t.dev.source i = { s.dev.source i with
        p := true, cause := .raising, stampTime := s.dev.now,
        stampPos := (s.dev.axisPos (s.dev.source i).posAxis).setWidth 32 } ∧
      (∀ j : Fin 1024, j ≠ i → t.dev.source j = s.dev.source j) ∧ Only [.evc, .wev] s t) ∧
  (∀ (i : Fin 1024) (s : State), s.dev.powered = true → srcKind i = .pulse → s.dev.srcLive i = true → (s.dev.source i).p = true →
    ∃ t, exec (.eventRaise i) s = .next t ∧ t.dev.source i = { s.dev.source i with m := true } ∧
      (∀ j : Fin 1024, j ≠ i → t.dev.source j = s.dev.source j) ∧ Only [.evc, .wev] s t) ∧
  (∀ (i : Fin 1024) (s : State), s.dev.powered = true → srcKind i = .level → s.dev.srcLive i = true → (s.dev.source i).l = false →
    (s.dev.source i).sw = false → (s.dev.source i).p = false →
    ∃ t, exec (.eventRaise i) s = .next t ∧
      t.dev.source i = { s.dev.source i with
        l := true, p := true, cause := .activation, stampTime := s.dev.now, rose := s.dev.now,
        stampPos := (s.dev.axisPos (s.dev.source i).posAxis).setWidth 32 } ∧
      (∀ j : Fin 1024, j ≠ i → t.dev.source j = s.dev.source j) ∧ Only [.evc, .wev] s t) ∧
  (∀ (i : Fin 1024) (s : State), s.dev.powered = true → srcKind i = .level → s.dev.srcLive i = true →
    (s.dev.source i).l = false → (s.dev.source i).sw = false → (s.dev.source i).p = true →
    ∃ t, exec (.eventRaise i) s = .next t ∧
      t.dev.source i = { s.dev.source i with l := true, m := true, rose := s.dev.now } ∧
      (∀ j : Fin 1024, j ≠ i → t.dev.source j = s.dev.source j) ∧ Only [.evc, .wev] s t) ∧
  (∀ (i : Fin 1024) (s : State), s.dev.powered = true → srcKind i = .level → s.dev.srcLive i = true →
    (s.dev.source i).sw = true →
    ∃ t, exec (.eventRaise i) s = .next t ∧ t.dev.source i = { s.dev.source i with l := true } ∧
      (∀ j : Fin 1024, j ≠ i → t.dev.source j = s.dev.source j) ∧ Only [.evc, .wev] s t) ∧
  (∀ (i : Fin 1024) (s : State), srcKind i = .none ∨ s.dev.srcLive i = false ∨
      (srcKind i = .level ∧ (s.dev.source i).l = true) →
    exec (.eventRaise i) s = .next s) ∧
  (∀ (i : Fin 1024) (s : State), srcKind i ≠ .level ∨ (s.dev.source i).l = false →
    exec (.levelInactive i) s = .next s) ∧
  (∀ (i : Fin 1024) (s : State), s.dev.powered = true → srcKind i = .level →
    ∃ t, exec (.levelInactive i) s = .next t ∧ t.dev.source i = { s.dev.source i with l := false } ∧
      (∀ j : Fin 1024, j ≠ i → t.dev.source j = s.dev.source j) ∧ Only [.evc, .wev] s t)

/-- R537, R538: a write of EVC_SET, EVC_ACK or EVC_CLR, by any requester, acts on the source that bits 9:0 name. SET sets SW, and E
rises if it was inactive: a fact with its stamp, or M where one is pending already, whatever the kind of the source and its EN. ACK
clears S and SW, and a held level still active is a fact again; where S is 0 it only clears SW. CLR discards a fact not yet
committed, clears neither S nor SW, and the level of EVC_QFULL of the source's queue follows what waits (R539). R524: a write of
EVC_SRCi_CFG that places 5 to 7 in the TARGET of a shared source is ignored with CFG_ERR. -/
def Obligations.EventSoftwareActs : Prop :=
  (∀ (q : Requester) (w : Word) (d : Dev), d.storeReg q .evcSet 0 w = evcSetOp (fld w 9 0) d ∧
    d.storeReg q .evcAck 0 w = evcAckOp (fld w 9 0) d ∧ d.storeReg q .evcClr 0 w = evcClrOp (fld w 9 0) d) ∧
  (∀ (q : Requester) (i : Fin 1024) (w : Word) (d : Dev), 320 ≤ i.val → 5 ≤ fld w 7 5 →
    d.storeReg q .evcSrciCfg i w = d.wrB .evcStat 0 10 true) ∧
  (∀ (i : Fin 1024) (s : State), s.dev.powered = true → (s.dev.source i).e = true →
    ∃ t, exec (.evcSet i) s = .next t ∧ t.dev.source i = { s.dev.source i with sw := true } ∧
      (∀ j : Fin 1024, j ≠ i → t.dev.source j = s.dev.source j) ∧ Only [.evc] s t) ∧
  (∀ (i : Fin 1024) (s : State), s.dev.powered = true → (s.dev.source i).e = false → (s.dev.source i).p = false →
    ∃ t, exec (.evcSet i) s = .next t ∧
      t.dev.source i = { s.dev.source i with
        sw := true, p := true, cause := .activation, stampTime := s.dev.now, rose := s.dev.now,
        stampPos := (s.dev.axisPos (s.dev.source i).posAxis).setWidth 32 } ∧
      (∀ j : Fin 1024, j ≠ i → t.dev.source j = s.dev.source j) ∧ Only [.evc, .wev] s t) ∧
  (∀ (i : Fin 1024) (s : State), s.dev.powered = true → (s.dev.source i).e = false → (s.dev.source i).p = true →
    ∃ t, exec (.evcSet i) s = .next t ∧ t.dev.source i = { s.dev.source i with sw := true, m := true, rose := s.dev.now } ∧
      (∀ j : Fin 1024, j ≠ i → t.dev.source j = s.dev.source j) ∧ Only [.evc, .wev] s t) ∧
  (∀ (i : Fin 1024) (s : State), s.dev.powered = true → (s.dev.source i).s = false ∨ (s.dev.source i).l = false →
    ∃ t, exec (.evcAck i) s = .next t ∧ t.dev.source i = { s.dev.source i with s := false, sw := false } ∧
      (∀ j : Fin 1024, j ≠ i → t.dev.source j = s.dev.source j) ∧ Only [.evc] s t) ∧
  (∀ (i : Fin 1024) (s : State), s.dev.powered = true → (s.dev.source i).s = true → (s.dev.source i).l = true → (s.dev.source i).p = false →
    ∃ t, exec (.evcAck i) s = .next t ∧
      t.dev.source i = { s.dev.source i with
        s := false, sw := false, p := true, cause := .activation, stampTime := s.dev.now,
        stampPos := (s.dev.axisPos (s.dev.source i).posAxis).setWidth 32 } ∧
      (∀ j : Fin 1024, j ≠ i → t.dev.source j = s.dev.source j) ∧ Only [.evc] s t) ∧
  (∀ (i : Fin 1024) (s : State), s.dev.powered = true → (s.dev.source i).s = true → (s.dev.source i).l = true → (s.dev.source i).p = true →
    ∃ t, exec (.evcAck i) s = .next t ∧ t.dev.source i = { s.dev.source i with s := false, sw := false, m := true } ∧
      (∀ j : Fin 1024, j ≠ i → t.dev.source j = s.dev.source j) ∧ Only [.evc] s t) ∧
  (∀ (i : Fin 1024) (s : State), s.dev.powered = true → i.val ≠ 816 + (s.dev.source i).queue →
    ∃ t, exec (.evcClr i) s = .next t ∧
      t.dev.source i = { s.dev.source i with p := false, m := false, d := false } ∧
      (s.dev.queueFull (s.dev.source i).queue = false → srcKind (816 + (s.dev.source i).queue) = .level →
        (t.dev.source (816 + (s.dev.source i).queue)).l = false) ∧
      (∀ j : Fin 1024, j ≠ i → j.val ≠ 816 + (s.dev.source i).queue → t.dev.source j = s.dev.source j) ∧
      Only [.evc, .wev] s t) ∧
  (∀ (i : Fin 1024) (s : State), s.dev.powered = true → i.val = 816 + (s.dev.source i).queue →
    s.dev.queueFull (s.dev.source i).queue = false → srcKind i = .level →
    ∃ t, exec (.evcClr i) s = .next t ∧
      t.dev.source i = { s.dev.source i with p := false, m := false, d := false, l := false } ∧
      (∀ j : Fin 1024, j ≠ i → t.dev.source j = s.dev.source j) ∧ Only [.evc] s t) ∧
  (∀ (i : Fin 1024) (s : State), s.dev.powered = true → i.val = 816 + (s.dev.source i).queue →
    s.dev.queueFull (s.dev.source i).queue = true →
    ∃ t, exec (.evcClr i) s = .next t ∧ (t.dev.source i).s = (s.dev.source i).s ∧ (t.dev.source i).sw = (s.dev.source i).sw ∧
      (∀ j : Fin 1024, j ≠ i → t.dev.source j = s.dev.source j) ∧ Only [.evc, .wev] s t)

/-- R526, R529, R531–R533, R539, R540: a decision of a queue with room commits the chosen source: PROD advances, the record's
words are stored at PROD's place, P, M and D clear and S takes E; a source that is masked, or that waits at a full queue, gets D
and stays pending, and the full queue is counted and EVC_QFULL is active; a full queue for which nothing waits only has it
inactive; POP and an accepted CONS move the consumer index; an alarm written for a time
still ahead arms, one written for a time passed fires at once, and one due fires once. -/
def Obligations.EventQueuesAndAlarms : Prop :=
  (∀ (q : Fin 10) (i : Fin 1024) (s : State), s.dev.powered = true → s.dev.queueFull q = false → (s.dev.markDelayed q false).chooseSource q = some i.val →
    i.val ≠ 816 + q.val → s.dev.rdB .edcInjCtl 0 8 = false → memWf MemWord.blank s.dev.sram = true →
    ∃ t, exec (.eventCommit q) s = .next t ∧
      t.dev.rdF .evcQqProd q 8 0 = (s.dev.rdF .evcQqProd q 8 0 + 1) % 512 ∧
      t.dev.cell (queueWord q (2 * (s.dev.rdF .evcQqProd q 8 0 % 256))) = goodWord (recordWord0 i (s.dev.source i)) ∧
      t.dev.cell (queueWord q (2 * (s.dev.rdF .evcQqProd q 8 0 % 256)) + 1) = goodWord (s.dev.source i).stampTime ∧
      (t.dev.source i).p = false ∧ (t.dev.source i).m = false ∧ (t.dev.source i).d = false ∧
      (t.dev.source i).s = (s.dev.source i).e ∧
      t.dev.rdF .evcQqCount q 31 0 = (s.dev.rdF .evcQqCount q 31 0 + 1) % 2 ^ 32 ∧
      (∀ j : Fin 1024, j ≠ i → j.val ≠ 816 + q.val → s.dev.waitsFor q j = false ∨ (s.dev.source j).en = true →
        t.dev.source j = s.dev.source j) ∧
      SramOnly (queueWord q (2 * (s.dev.rdF .evcQqProd q 8 0 % 256))) 2 s t ∧
      RegsOnly [regKey .evcQqProd q, regKey .evcQqCount q] s t ∧ Only [.regs, .evc, .wev, .sram, .ghd] s t) ∧
  (∀ (q : Fin 10) (s : State), s.dev.powered = true → s.dev.queueFull q = true → s.dev.anyWaiting q = true →
    ∃ t, exec (.eventCommit q) s = .next t ∧ t.dev.rdB .evcStat 0 q = true ∧
      t.dev.rdF .evcQqCount q 47 32 = min (s.dev.rdF .evcQqCount q 47 32 + 1) (2 ^ 16 - 1) ∧
      (∀ i : Fin 1024, s.dev.waitsFor q i = true → (t.dev.source i).p = true ∧ (t.dev.source i).d = true) ∧
      (t.dev.source (816 + q.val)).l = true ∧
      (∀ j : Fin 1024, j.val ≠ 816 + q.val → s.dev.waitsFor q j = false → t.dev.source j = s.dev.source j) ∧
      RegsOnly [regKey .evcStat 0, regKey .evcQqCount q] s t ∧ Only [.regs, .evc, .wev] s t) ∧
  (∀ (q : Fin 10) (s : State), s.dev.powered = true → s.dev.queueFull q = true → s.dev.anyWaiting q = false →
    ∃ t, exec (.eventCommit q) s = .next t ∧ t.dev.source (816 + q.val) = { s.dev.source (816 + q.val) with l := false } ∧
      (∀ j : Fin 1024, j.val ≠ 816 + q.val → t.dev.source j = s.dev.source j) ∧ Only [.evc] s t) ∧
  (∀ (q : Fin 10) (s : State), s.dev.powered = true → s.dev.queueFull q = false →
    (∀ i : Fin 1024, s.dev.waitsFor q i = true → (s.dev.source i).en = false) →
    ∃ t, exec (.eventCommit q) s = .next t ∧
      (∀ i : Fin 1024, i.val ≠ 816 + q.val → s.dev.waitsFor q i = true →
        t.dev.source i = { s.dev.source i with d := true }) ∧
      (∀ i : Fin 1024, i.val ≠ 816 + q.val → s.dev.waitsFor q i = false → t.dev.source i = s.dev.source i) ∧
      (t.dev.source (816 + q.val)).l = false ∧ Only [.evc] s t) ∧
  (∀ (q : Fin 10) (s : State), s.dev.powered = true → s.dev.queueEmpty q = false →
    ∃ t, exec (.queuePop q) s = .next t ∧ t.dev.rdF .evcQqCons q 8 0 = (s.dev.rdF .evcQqCons q 8 0 + 1) % 512 ∧
      ((s.dev.rdF .evcQqProd q 8 0 + 512 - s.dev.rdF .evcQqCons q 8 0) % 512 ≤ 256 → (t.dev.source (816 + q.val)).l = false) ∧
      (∀ j : Fin 1024, j.val ≠ 816 + q.val → t.dev.source j = s.dev.source j) ∧
      RegsOnly [regKey .evcQqCons q] s t ∧ Only [.regs, .evc, .wev] s t) ∧
  (∀ (q : Fin 10) (s : State), s.dev.queueEmpty q = true → exec (.queuePop q) s = .next s) ∧
  (∀ (q : Fin 10) (v : Word) (s : State), s.dev.powered = true → (s.dev.rdF .evcQqProd q 8 0 + 512 - fld v 8 0) % 512 ≤ 256 →
    ∃ t, exec (.queueConsWrite q v) s = .next t ∧ t.dev.rdF .evcQqCons q 8 0 = fld v 8 0 ∧
      ((s.dev.rdF .evcQqProd q 8 0 + 512 - fld v 8 0) % 512 < 256 → (t.dev.source (816 + q.val)).l = false) ∧
      (∀ j : Fin 1024, j.val ≠ 816 + q.val → t.dev.source j = s.dev.source j) ∧
      RegsOnly [regKey .evcQqCons q] s t ∧ Only [.regs, .evc, .wev] s t) ∧
  (∀ (q : Fin 10) (v : Word) (s : State), s.dev.powered = true → 256 < (s.dev.rdF .evcQqProd q 8 0 + 512 - fld v 8 0) % 512 →
    ∃ t, exec (.queueConsWrite q v) s = .next t ∧ t.dev.rdB .evcStat 0 10 = true ∧
      RegsOnly [regKey .evcStat 0] s t ∧ Only [.regs] s t) ∧
  (∀ (k : Fin 5) (time : Word) (s : State), s.dev.powered = true → atOrPast s.dev.now time = false →
    ∃ t, exec (.alarmArm k time) s = .next t ∧ tget t.dev.evc.armed false k = true ∧ t.dev.rd .evcAlmt k = time ∧
      (∀ j : Fin 5, j ≠ k → tget t.dev.evc.armed false j = tget s.dev.evc.armed false j) ∧
      (∀ j : Fin 1024, t.dev.source j = s.dev.source j) ∧
      RegsOnly [regKey .evcAlmt k] s t ∧ Only [.regs, .evc] s t) ∧
  (∀ (k : Fin 5) (time : Word) (s : State), s.dev.powered = true → atOrPast s.dev.now time = true →
    ∃ t, exec (.alarmArm k time) s = .next t ∧ tget t.dev.evc.armed false k = false ∧ t.dev.rd .evcAlmt k = time ∧
      (t.dev.source (64 * k + 34)).p = true ∧
      (∀ j : Fin 5, j ≠ k → tget t.dev.evc.armed false j = tget s.dev.evc.armed false j) ∧
      (∀ j : Fin 1024, j.val ≠ 64 * k.val + 34 → t.dev.source j = s.dev.source j) ∧
      RegsOnly [regKey .evcAlmt k] s t ∧ Only [.regs, .evc, .wev] s t) ∧
  (∀ (k : Fin 5) (s : State), s.dev.alarmDue k = false → exec (.alarmFire k) s = .next s) ∧
  (∀ (k : Fin 5) (s : State), s.dev.powered = true → s.dev.alarmDue k = true →
    ∃ t, exec (.alarmFire k) s = .next t ∧ tget t.dev.evc.armed false k = false ∧
      (t.dev.source (64 * k + 34)).p = true ∧
      (∀ j : Fin 5, j ≠ k → tget t.dev.evc.armed false j = tget s.dev.evc.armed false j) ∧
      (∀ j : Fin 1024, j.val ≠ 64 * k.val + 34 → t.dev.source j = s.dev.source j) ∧ Only [.evc, .wev] s t)

/-! ### The position domain -/

/-- R31, R35, R36, R38: the time limits of a tracker of a local axis. An overdue edge starts COAST with the velocity held; the
limits of COAST lead to FAULT and a standstill to IDLE, with velocity 0 and the position held at its estimate; EN = 0 leads to
IDLE. -/
def Obligations.AxisLimits : Prop :=
  (∀ (a : Fin 4) (tr : TrackerSel) (s : State), s.dev.powered = true → s.dev.axisLocal a = true →
    (s.dev.tracker a tr).st = .track →
    overdueApplies (s.dev.tracker a tr) (s.dev.rd .sprAxnAmax a).toNat (s.dev.spacingQ a tr) = true →
    overdueNow (s.dev.tracker a tr) (s.dev.rd .sprAxnEdgeTol a).toNat (s.dev.rd .sprAxnAmax a).toNat (s.dev.spacingQ a tr)
      s.dev.now = true →
    ∃ t, exec (.overdueEdge a tr) s = .next t ∧ (t.dev.tracker a tr).st = .coast ∧
      (t.dev.tracker a tr).v = (s.dev.tracker a tr).v ∧ (t.dev.tracker a tr).a = 0 ∧
      (t.dev.tracker a tr).entered = s.dev.now ∧
      (tr = .main → (t.dev.axis a).cause = 1 ∧ t.dev.rd .sprAxnCoastPos a = (s.dev.tracker a tr).coastAt s.dev.now) ∧
      (∀ b : Fin 4, b ≠ a → s.dev.axisOf b ≠ a → t.dev.axis b = s.dev.axis b) ∧ Only axisParts s t) ∧
  (∀ (a : Fin 4) (tr : TrackerSel) (s : State), s.dev.powered = true → s.dev.axisLocal a = true →
    (s.dev.tracker a tr).st = .coast → 20000000 ≤ elapsed s.dev.now (s.dev.tracker a tr).entered →
    ∃ t, exec (.coastTimeLimit a tr) s = .next t ∧ (t.dev.tracker a tr).st = .fault ∧ (t.dev.tracker a tr).v = 0 ∧
      (t.dev.tracker a tr).p = (s.dev.tracker a tr).coastAt s.dev.now ∧
      (tr = .main → (t.dev.axis a).cause = (if s.dev.coastFar a tr then 4 else 3) ∧
        t.dev.rd .sprAxnCoastEnd a = (s.dev.tracker a tr).coastAt s.dev.now) ∧
      (∀ b : Fin 4, b ≠ a → s.dev.axisOf b ≠ a → t.dev.axis b = s.dev.axis b) ∧ Only axisParts s t) ∧
  (∀ (a : Fin 4) (tr : TrackerSel) (s : State), s.dev.powered = true → s.dev.axisLocal a = true →
    (s.dev.tracker a tr).st = .coast →
    1024 * 256 ≤ ((s.dev.tracker a tr).coastAt s.dev.now - (s.dev.tracker a tr).coastPos).toInt.natAbs →
    ∃ t, exec (.coastTravelLimit a tr) s = .next t ∧ (t.dev.tracker a tr).st = .fault ∧ (t.dev.tracker a tr).v = 0 ∧
      (t.dev.tracker a tr).p = (s.dev.tracker a tr).coastAt s.dev.now ∧
      (tr = .main → (t.dev.axis a).cause = 4 ∧
        t.dev.rd .sprAxnCoastEnd a = (s.dev.tracker a tr).coastAt s.dev.now) ∧
      (∀ b : Fin 4, b ≠ a → s.dev.axisOf b ≠ a → t.dev.axis b = s.dev.axis b) ∧ Only axisParts s t) ∧
  (∀ (a : Fin 4) (tr : TrackerSel) (s : State), s.dev.powered = true → s.dev.axisLocal a = true →
    (s.dev.rd .sprAxnStillNs a).toNat ≤ elapsed s.dev.now (s.dev.tracker a tr).seen →
    ((s.dev.tracker a tr).st = .acquire ∨ ((s.dev.tracker a tr).st = .track ∧
      overdueApplies (s.dev.tracker a tr) (s.dev.rd .sprAxnAmax a).toNat (s.dev.spacingQ a tr) = false)) →
    ∃ t, exec (.standstillTimeout a tr) s = .next t ∧ (t.dev.tracker a tr).st = .idle ∧ (t.dev.tracker a tr).v = 0 ∧
      (t.dev.tracker a tr).a = 0 ∧ (t.dev.tracker a tr).p = s.dev.trackerAt a tr s.dev.now ∧
      (∀ b : Fin 4, b ≠ a → s.dev.axisOf b ≠ a → t.dev.axis b = s.dev.axis b) ∧ Only axisParts s t) ∧
  (∀ (a : Fin 4) (s : State), s.dev.powered = true →
    ∃ t, exec (.axisDisable a) s = .next t ∧ t.dev.rdB .sprAxnCtl a 0 = false ∧
      (t.dev.tracker a .main).st = .idle ∧ (t.dev.tracker a .main).v = 0 ∧ (t.dev.tracker a .main).a = 0 ∧
      (t.dev.tracker a .main).p = s.dev.axisPos a ∧ (t.dev.tracker a .shadow).st = .idle ∧
      (∀ b : Fin 4, b ≠ a → s.dev.axisOf b ≠ a → t.dev.axis b = s.dev.axis b) ∧ Only axisParts s t)

/-- R42, R43, R45–R47: RESTART leaves FAULT at the held position, or at the preset one, as a whole count, and takes a shadow
tracker in FAULT to IDLE; PRESET in IDLE and FAULT gives a position, in every other state it is CFG_ERR; SEL_PRI returns to the
primary without a step in the estimate; SEC_CLR clears SEC_BAD; the end of a slip window reports the difference, and where it
exceeds SLIP_TOL sets the slip flag, marks a secondary that slips bad and gives up a primary that does. -/
def Obligations.AxisCommands : Prop :=
  (∀ (a : Fin 4) (s : State), s.dev.powered = true → (s.dev.tracker a .main).st = .fault →
    ∃ t, exec (.restart a) s = .next t ∧ (t.dev.tracker a .main).st = .idle ∧ (t.dev.tracker a .main).v = 0 ∧
      (t.dev.tracker a .main).p =
        wholeCount (if (s.dev.axis a).presetPend then s.dev.rd .sprAxnPreset a else (s.dev.tracker a .main).p) ∧
      (∀ b : Fin 4, b ≠ a → s.dev.axisOf b ≠ a → t.dev.axis b = s.dev.axis b) ∧ Only axisParts s t) ∧
  (∀ (a : Fin 4) (s : State), s.dev.powered = true → (s.dev.tracker a .shadow).st = .fault →
    ∃ t, exec (.restart a) s = .next t ∧ (t.dev.tracker a .shadow).st = .idle ∧ (t.dev.tracker a .shadow).v = 0 ∧
      (t.dev.tracker a .shadow).p = wholeCount (s.dev.tracker a .shadow).p ∧
      (∀ b : Fin 4, b ≠ a → s.dev.axisOf b ≠ a → t.dev.axis b = s.dev.axis b) ∧ Only axisParts s t) ∧
  (∀ (a : Fin 4) (s : State), s.dev.powered = true → (s.dev.tracker a .main).st ≠ .fault →
    (s.dev.tracker a .shadow).st ≠ .fault → exec (.restart a) s = .next s) ∧
  (∀ (a : Fin 4) (s : State), s.dev.powered = true →
    (s.dev.tracker a .main).st = .idle ∨ (s.dev.tracker a .main).st = .fault →
    ∃ t, exec (.preset a) s = .next t ∧ (t.dev.tracker a .main).p = wholeCount (s.dev.rd .sprAxnPreset a) ∧
      (t.dev.tracker a .main).st = (s.dev.tracker a .main).st ∧
      ((s.dev.tracker a .main).st = .fault → (t.dev.axis a).presetPend = true) ∧
      (∀ b : Fin 4, b ≠ a → t.dev.axis b = s.dev.axis b) ∧ Only [.spr] s t) ∧
  (∀ (a : Fin 4) (s : State), s.dev.powered = true →
    (s.dev.tracker a .main).st = .acquire ∨ (s.dev.tracker a .main).st = .track ∨ (s.dev.tracker a .main).st = .coast →
    ∃ t, exec (.preset a) s = .next t ∧ t.dev.rdB .sprAxnStat a 18 = true ∧ RegsOnly [regKey .sprAxnStat a] s t ∧
      Only [.regs] s t) ∧
  (∀ (a : Fin 4) (s : State), s.dev.powered = true → (s.dev.axis a).onSec = true → (s.dev.axis a).shadow.st = .track →
    ∃ t, exec (.selPri a) s = .next t ∧ (t.dev.axis a).onSec = false ∧ (t.dev.axis a).shadow = {} ∧
      (t.dev.axis a).main.st = (s.dev.axis a).main.st ∧
      (s.dev.axisHerd a = false → t.dev.trackerAt a .main s.dev.now = s.dev.trackerAt a .main s.dev.now) ∧
      (∀ b : Fin 4, b ≠ a → t.dev.axis b = s.dev.axis b) ∧ Only [.spr, .evc, .wev] s t) ∧
  (∀ (a : Fin 4) (s : State), s.dev.powered = true → (s.dev.axis a).onSec = false ∨ (s.dev.axis a).shadow.st ≠ .track →
    exec (.selPri a) s = .next s) ∧
  (∀ (a : Fin 4) (s : State), s.dev.powered = true → ∃ t, exec (.secClr a) s = .next t ∧
      t.dev.axis a = { s.dev.axis a with secBad := false } ∧
      (∀ b : Fin 4, b ≠ a → t.dev.axis b = s.dev.axis b) ∧ Only [.spr] s t) ∧
  (∀ (a : Fin 4) (s : State) (p0 s0 : Word) (tp ts : Int), s.dev.powered = true → (s.dev.axis a).slip = some (p0, s0) →
    tp = (s.dev.rd .sprEncnCount (s.dev.rdF .sprAxnCtl a 6 4) - p0).toInt * 256 →
    ts = (s.dev.secTicks a (s.dev.rd .sprEncnCount (s.dev.rdF .sprAxnCtl a 10 8)) - s.dev.secTicks a s0).toInt →
    (s.dev.rd .sprAxnSlipWin a).toNat * 256 ≤ tp.natAbs →
    ∃ t, exec (.slipWindowEnd a) s = .next t ∧ t.dev.rd .sprAxnSlipDiff a = wordOfInt (ts - tp) ∧
      ((ts - tp).natAbs ≤ (s.dev.rd .sprAxnSlipTol a).toNat → (t.dev.axis a).secBad = (s.dev.axis a).secBad ∧ (t.dev.axis a).onSec = (s.dev.axis a).onSec ∧
        (t.dev.axis a).slip =
          some (s.dev.rd .sprEncnCount (s.dev.rdF .sprAxnCtl a 6 4), s.dev.rd .sprEncnCount (s.dev.rdF .sprAxnCtl a 10 8))) ∧
      ((s.dev.rd .sprAxnSlipTol a).toNat < (ts - tp).natAbs → t.dev.rdB .sprAxnStat a 19 = true ∧
        (s.dev.srcLive (324 + 8 * a.val) = true → (t.dev.source (324 + 8 * a.val)).p = true) ∧
        (ts.natAbs < tp.natAbs → (t.dev.axis a).secBad = true) ∧
        (tp.natAbs ≤ ts.natAbs → s.dev.rdB .sprAxnCtl a 11 = true → s.dev.secUsable a = true →
          (t.dev.axis a).onSec = true)) ∧
      (∀ b : Fin 4, b ≠ a → t.dev.axis b = s.dev.axis b) ∧ RegsOnly [regKey .sprAxnSlipDiff a, regKey .sprAxnStat a] s t ∧
      Only [.spr, .regs, .evc, .wev] s t)

/-- R51–R56, R58, R65, R66: an enable with valid settings starts the grid at the first point past the material position, one
with invalid settings is CFG_ERR, and a disable clears EN; a fire that the estimate reaches within the lead time is fixed between
16 ns ahead and the lead time, a point already reached 16 ns ahead; a fixed fire takes place at its time with its record;
schedulers take entries in rising positions and fire the first. -/
def Obligations.TriggersAndSchedulers : Prop :=
  (∀ (g : Fin 64) (s : State), s.dev.powered = true → s.dev.rdB .sprTgnCfg g 0 = false → s.dev.genValid g = true →
    ∃ t, exec (.tgEnable g true) s = .next t ∧ t.dev.rdB .sprTgnCfg g 0 = true ∧
      t.dev.rd .sprTgnHwm g = s.dev.material g ∧
      t.dev.rd .sprTgnNext g = s.dev.gridPt g (s.dev.gridIdx g (s.dev.material g) + 1) ∧
      (ChannelsIdle s → RegsOnly [regKey .sprTgnCfg g, regKey .sprTgnHwm g, regKey .sprTgnNext g] s t ∧ Only [.regs] s t)) ∧
  (∀ (g : Fin 64) (s : State), s.dev.powered = true → s.dev.rdB .sprTgnCfg g 0 = false → s.dev.genValid g = false →
    ∃ t, exec (.tgEnable g true) s = .next t ∧ t.dev.rdB .sprTgnCfg g 0 = false ∧ t.dev.rdB .sprTgnCfg g 3 = true ∧
      (ChannelsIdle s → RegsOnly [regKey .sprTgnCfg g] s t ∧ Only [.regs, .evc, .wev] s t)) ∧
  (∀ (g : Fin 64) (s : State), s.dev.powered = true → s.dev.rdB .sprTgnCfg g 0 = true → ChannelsIdle s →
    exec (.tgEnable g true) s = .next s) ∧
  (∀ (g : Fin 64) (s : State), s.dev.powered = true →
    ∃ t, exec (.tgEnable g false) s = .next t ∧ t.dev.rdB .sprTgnCfg g 0 = false ∧
      (∀ f ∈ (t.dev.gen g).fixed, f.counted = true) ∧ (t.dev.gen g).regrid = false ∧
      (∀ b : Fin 64, b ≠ g → t.dev.gen b = s.dev.gen b) ∧
      (ChannelsIdle s → RegsOnly [regKey .sprTgnCfg g, regKey .sprTgnHwm g, regKey .sprTgnNext g, regKey .sprTgnDrop g] s t ∧
        Only [.regs, .spr, .fio, .evc, .wev] s t)) ∧
  (∀ (g : Fin 64) (s : State), s.dev.powered = true → s.dev.inService = true → s.dev.genTracks g = true →
    s.dev.axisBackward (s.dev.genAxis g) = false → (s.dev.gen g).fixed = [] → (s.dev.gen g).regrid = false →
    atOrPast (s.dev.material g) (s.dev.rd .sprTgnNext g) = false → s.dev.minIntWait g ≤ 0 →
    atOrPast (s.dev.axisPosAt (s.dev.genAxis g) (s.dev.now + wordOf (s.dev.leadTime g)) - s.dev.rd .sprTgnStagger g)
      (s.dev.gridPt g (s.dev.gridIdx g (s.dev.rd .sprTgnNext g))) = true →
    ∃ t, exec (.triggerFix g) s = .next t ∧
      (∃ f ∈ (t.dev.gen g).fixed.head?, 16 ≤ (f.time - s.dev.now).toNat ∧ (f.time - s.dev.now).toNat ≤ s.dev.leadTime g ∧
        f.pos = s.dev.gridPt g (s.dev.gridIdx g (s.dev.rd .sprTgnNext g)) ∧ f.counted = false) ∧
      (∀ b : Fin 64, b ≠ g → t.dev.gen b = s.dev.gen b) ∧ Only [.spr, .fio] s t) ∧
  (∀ (g : Fin 64) (s : State) (k : Int), s.dev.powered = true → s.dev.inService = true → s.dev.genTracks g = true →
    s.dev.axisBackward (s.dev.genAxis g) = false → (s.dev.gen g).fixed = [] → (s.dev.gen g).regrid = false →
    atOrPast (s.dev.material g) (s.dev.rd .sprTgnNext g) = true → k = s.dev.gridIdx g (s.dev.material g) →
    s.dev.minIntOk g (s.dev.reachedAt (s.dev.genAxis g) (s.dev.gridPt g k + s.dev.rd .sprTgnStagger g)) = true →
    ∃ t, exec (.triggerFix g) s = .next t ∧
      (∃ f ∈ (t.dev.gen g).fixed.head?, f.time = s.dev.now + 16 ∧ f.pos = s.dev.gridPt g k ∧ f.counted = true) ∧
      t.dev.rd .sprTgnNext g = s.dev.gridPt g (k + 1) ∧ t.dev.rd .sprTgnHwm g = s.dev.gridPt g k ∧
      t.dev.rdF .sprTgnDrop g 31 0 = min (s.dev.rdF .sprTgnDrop g 31 0 +
        ((k - s.dev.gridIdx g (s.dev.rd .sprTgnNext g) + 1).toNat - 1)) (2 ^ 32 - 1) ∧
      (∀ b : Fin 64, b ≠ g → t.dev.gen b = s.dev.gen b) ∧ Only [.spr, .fio, .regs, .evc, .wev] s t) ∧
  (∀ (g : Fin 64) (s : State) (f : FixedFire) (rest : List FixedFire), s.dev.powered = true →
    (s.dev.gen g).fixed = f :: rest → atOrPast s.dev.now f.time = true →
    ∃ t, exec (.triggerFire g) s = .next t ∧ t.dev.rd .sprTgnLine g = f.line ∧ (t.dev.gen g).fixed = rest ∧
      (t.dev.gen g).lastFire = some f.time ∧
      (f.counted = false → (s.dev.gen g).regrid = false → atOrPast f.pos (s.dev.rd .sprTgnNext g) = true →
        t.dev.rd .sprTgnNext g = f.pos + f.pitch ∧ t.dev.rd .sprTgnHwm g = f.pos) ∧
      (∀ b : Fin 64, b ≠ g → t.dev.gen b = s.dev.gen b) ∧ Only [.spr, .regs, .cxi, .evc, .wev] s t) ∧
  (∀ (g h : Fin 64) (s : State) (f : FixedFire) (rest : List FixedFire), s.dev.powered = true →
    (s.dev.gen g).fixed = f :: rest → atOrPast s.dev.now f.time = true → s.dev.headOfGen g = some h.val →
    s.dev.headUp h = true → (s.dev.head h).records.length < 32 →
    ∃ t, exec (.triggerFire g) s = .next t ∧ (t.dev.head h).records = (s.dev.head h).records ++
      [{ gen := g.val, line := f.line, pos := f.pos, st := f.st, time := f.time }]) ∧
  (∀ (k : Fin 16) (w : Word) (s : State), s.dev.powered = true → (s.dev.actQueue k).length < 16 →
    (∀ e, (s.dev.actQueue k).getLast? = some e → strictlyPast (s.dev.rd .sprActkPos k) e.pos = true) →
    ∃ t, exec (.actPush k w) s = .next t ∧
      t.dev.actQueue k = s.dev.actQueue k ++ [{
        pos := s.dev.rd .sprActkPos k, widthUs := fld w 31 16, level := bit w 0,
        late := atOrPast (s.dev.axisPos (s.dev.rdF .sprActkCfg k 1 0)) (s.dev.rd .sprActkPos k) }] ∧
      (∀ b : Fin 16, b ≠ k → t.dev.actQueue b = s.dev.actQueue b) ∧ Only [.spr] s t) ∧
  (∀ (k : Fin 16) (w : Word) (s : State), s.dev.powered = true → 16 ≤ (s.dev.actQueue k).length ∨
    (∃ e ∈ (s.dev.actQueue k).getLast?, strictlyPast (s.dev.rd .sprActkPos k) e.pos = false) →
    ∃ t, exec (.actPush k w) s = .next t ∧ t.dev.rdB .sprActkMissed k 47 = true ∧
      RegsOnly [regKey .sprActkMissed k] s t ∧ Only [.regs, .evc, .wev] s t) ∧
  (∀ (k : Fin 16) (s : State) (e : ActEntry) (rest : List ActEntry), s.dev.powered = true → s.dev.actQueue k = e :: rest →
    s.dev.rdB .sprActkCfg k 2 = true → s.dev.inService = true → e.late = false →
    (s.dev.axisState (s.dev.rdF .sprActkCfg k 1 0) = .acquire ∨ s.dev.axisState (s.dev.rdF .sprActkCfg k 1 0) = .track ∨
      s.dev.axisState (s.dev.rdF .sprActkCfg k 1 0) = .coast) →
    s.dev.axisBackward (s.dev.rdF .sprActkCfg k 1 0) = false →
    atOrPast (s.dev.axisPos (s.dev.rdF .sprActkCfg k 1 0)) e.pos = true →
    ∃ t, exec (.actFire k) s = .next t ∧ t.dev.actQueue k = rest ∧
      { start := s.dev.now, width := e.widthUs * 1000, level := e.level } ∈ (t.dev.outDrv (32 + k)).due ∧
      (∀ b : Fin 16, b ≠ k → t.dev.actQueue b = s.dev.actQueue b) ∧ Only [.spr, .fio] s t)

/-- R26–R29, R59, R61, R62, R140–R142: a pin crossing is stamped; a transition of A or B in sequence counts one up or down, a
skipped state sets QERR and counts nothing, a rising Z with ZEN copies the count; a due pulse starts and ends, or is MISSED; a
trigger packet leaves with its wait, or is dropped where its wait exceeds the delay field or its head has left LINKED and RUN. -/
def Obligations.EncodersPulsesPackets : Prop :=
  (∀ (n : Fin 8) (ch : EncCh) (level : Bool) (s : State),
    ∃ t, exec (.encoderPinCrossing n ch level) s = .next t ∧
      (t.dev.encIn n).line ch = (if ((s.dev.encIn n).line ch).pin = level then (s.dev.encIn n).line ch
        else { (s.dev.encIn n).line ch with pin := level, stamp := s.dev.now }) ∧
      (∀ c : EncCh, c ≠ ch → (t.dev.encIn n).line c = (s.dev.encIn n).line c) ∧
      (∀ m : Fin 8, m ≠ n → t.dev.encIn m = s.dev.encIn m) ∧ Only [.spr] s t) ∧
  (∀ (n : Fin 8) (s : State), s.dev.powered = true → (s.dev.encIn n).la.pin ≠ (s.dev.encIn n).la.filt →
    ((s.dev.encIn n).lb.pin = (s.dev.encIn n).lb.filt ∨ (s.dev.encIn n).lb.stamp ≠ (s.dev.encIn n).la.stamp) →
    s.dev.rdF .sprEncnCfg n 7 0 ≤ elapsed s.dev.now (s.dev.encIn n).la.stamp →
    (s.dev.encIn n).last.any (fun u => decide (elapsed (s.dev.encIn n).la.stamp u < 20)) = false →
    ∃ t, exec (.encoderEdgeAccept n .a) s = .next t ∧
      t.dev.rd .sprEncnCount n =
        (if ((s.dev.encIn n).la.pin != (s.dev.encIn n).lb.filt) != s.dev.rdB .sprEncnCfg n 8
          then s.dev.rd .sprEncnCount n + 1 else s.dev.rd .sprEncnCount n - 1) ∧
      (t.dev.encIn n).la.filt = (s.dev.encIn n).la.pin ∧ (t.dev.encIn n).last = some (s.dev.encIn n).la.stamp ∧
      (∀ m : Fin 8, m ≠ n → t.dev.rd .sprEncnCount m = s.dev.rd .sprEncnCount m ∧ t.dev.encIn m = s.dev.encIn m)) ∧
  (∀ (n : Fin 8) (s : State), s.dev.powered = true → (s.dev.encIn n).lb.pin ≠ (s.dev.encIn n).lb.filt →
    ((s.dev.encIn n).la.pin = (s.dev.encIn n).la.filt ∨ (s.dev.encIn n).la.stamp ≠ (s.dev.encIn n).lb.stamp) →
    s.dev.rdF .sprEncnCfg n 7 0 ≤ elapsed s.dev.now (s.dev.encIn n).lb.stamp →
    (s.dev.encIn n).last.any (fun u => decide (elapsed (s.dev.encIn n).lb.stamp u < 20)) = false →
    ∃ t, exec (.encoderEdgeAccept n .b) s = .next t ∧
      t.dev.rd .sprEncnCount n =
        (if ((s.dev.encIn n).lb.pin == (s.dev.encIn n).la.filt) != s.dev.rdB .sprEncnCfg n 8
          then s.dev.rd .sprEncnCount n + 1 else s.dev.rd .sprEncnCount n - 1) ∧
      (t.dev.encIn n).lb.filt = (s.dev.encIn n).lb.pin ∧ (t.dev.encIn n).last = some (s.dev.encIn n).lb.stamp ∧
      (∀ m : Fin 8, m ≠ n → t.dev.rd .sprEncnCount m = s.dev.rd .sprEncnCount m ∧ t.dev.encIn m = s.dev.encIn m)) ∧
  (∀ (n : Fin 8) (ch other : EncCh) (s : State), s.dev.powered = true → (ch, other) = (.a, .b) ∨ (ch, other) = (.b, .a) →
    ((s.dev.encIn n).line ch).pin ≠ ((s.dev.encIn n).line ch).filt →
    s.dev.rdF .sprEncnCfg n 7 0 ≤ elapsed s.dev.now ((s.dev.encIn n).line ch).stamp →
    ((((s.dev.encIn n).line other).pin ≠ ((s.dev.encIn n).line other).filt ∧
        ((s.dev.encIn n).line other).stamp = ((s.dev.encIn n).line ch).stamp) ∨
      (s.dev.encIn n).last.any (fun u => decide (elapsed ((s.dev.encIn n).line ch).stamp u < 20)) = true) →
    ∃ t, exec (.encoderEdgeAccept n ch) s = .next t ∧ t.dev.rd .sprEncnCount n = s.dev.rd .sprEncnCount n ∧
      t.dev.rdB .sprEncnStat n 0 = true ∧ ((t.dev.encIn n).line ch).filt = ((s.dev.encIn n).line ch).pin ∧
      t.dev.rdB .sprEncnStat n 1 = (s.dev.rdB .sprEncnStat n 1 ||
        (s.dev.encIn n).last.any (fun u => decide (elapsed ((s.dev.encIn n).line ch).stamp u < 20)))) ∧
  (∀ (n : Fin 8) (s : State), s.dev.powered = true → (s.dev.encIn n).lz.pin = true → (s.dev.encIn n).lz.filt = false →
    s.dev.rdF .sprEncnCfg n 7 0 ≤ elapsed s.dev.now (s.dev.encIn n).lz.stamp →
    ∃ t, exec (.encoderEdgeAccept n .z) s = .next t ∧ t.dev.rd .sprEncnZcnt n =
        (if s.dev.rdB .sprEncnCfg n 9 then s.dev.rd .sprEncnCount n else s.dev.rd .sprEncnZcnt n) ∧
      t.dev.rd .sprEncnCount n = s.dev.rd .sprEncnCount n ∧ (t.dev.encIn n).lz.filt = true) ∧
  (∀ (n : Fin 8) (s : State), s.dev.powered = true → (s.dev.encIn n).lz.pin = false → (s.dev.encIn n).lz.filt = true →
    s.dev.rdF .sprEncnCfg n 7 0 ≤ elapsed s.dev.now (s.dev.encIn n).lz.stamp →
    ∃ t, exec (.encoderEdgeAccept n .z) s = .next t ∧ t.dev.rd .sprEncnZcnt n = s.dev.rd .sprEncnZcnt n ∧
      t.dev.rd .sprEncnCount n = s.dev.rd .sprEncnCount n ∧ (t.dev.encIn n).lz.filt = false) ∧
  (∀ (x : Fin 48) (s : State) (p : Pulse) (rest : List Pulse), s.dev.powered = true → (s.dev.outDrv x).due = p :: rest →
    atOrPast s.dev.now p.start = true → s.dev.outDrives x = true →
    ∃ t, exec (.outputPulseStart x) s = .next t ∧
      t.dev.outDrv x = { s.dev.outDrv x with due := rest, active := some (p.start + wordOf p.width, p.level) } ∧
      (∀ y : Fin 48, y ≠ x → t.dev.outDrv y = s.dev.outDrv y) ∧ Only [.fio] s t) ∧
  (∀ (x : Fin 48) (s : State) (p : Pulse) (rest : List Pulse), s.dev.powered = true → (s.dev.outDrv x).due = p :: rest →
    atOrPast s.dev.now p.start = true → s.dev.outDrives x = false →
    ∃ t, exec (.outputPulseStart x) s = .next t ∧ t.dev.outDrv x = { s.dev.outDrv x with due := rest } ∧
      t.dev.rdF .fioOxCnt x 47 16 = min (s.dev.rdF .fioOxCnt x 47 16 + 1) (2 ^ 32 - 1) ∧
      (∀ y : Fin 48, y ≠ x → t.dev.outDrv y = s.dev.outDrv y) ∧ RegsOnly [regKey .fioOxCnt x] s t ∧ Only [.fio, .regs] s t) ∧
  (∀ (x : Fin 48) (s : State) (e : Word) (l : Bool), s.dev.powered = true → (s.dev.outDrv x).active = some (e, l) →
    atOrPast s.dev.now e = true →
    ∃ t, exec (.outputPulseEnd x) s = .next t ∧ t.dev.outDrv x = { s.dev.outDrv x with active := none } ∧
      (∀ y : Fin 48, y ≠ x → t.dev.outDrv y = s.dev.outDrv y) ∧ Only [.fio] s t) ∧
  (∀ (c : Instr) (l h : Fin 64) (rise : Bool) (s : State) (p : TrigPkt) (rest : List TrigPkt), s.dev.powered = true →
    (c, rise) = (.cxpTriggerPacket l, true) ∨ (c, rise) = (.cxpFallPacket l, false) →
    tget s.dev.cxi.trigQ [] l = p :: rest → p.rising = rise → atOrPast s.dev.now p.fire = true →
    s.dev.headOfLink l = some h.val → s.dev.headUp h = true → s.dev.rdF .cxiHdhCfg h 21 16 = l.val →
    ∃ t, exec c s = .next t ∧ tget t.dev.cxi.trigQ [] l = rest ∧
      (elapsed s.dev.now p.fire ≤ Config.trigDelayMax → Only [.cxi, .outbox] s t ∧
        t.dev.outbox = s.dev.outbox ++ [.cxp l (.trigger rise (elapsed s.dev.now p.fire))]) ∧
      (Config.trigDelayMax < elapsed s.dev.now p.fire → Only [.cxi, .regs, .evc, .wev] s t ∧
        t.dev.rdB .cxiHdhStat h 9 = true ∧ RegsOnly [regKey .cxiHdhStat h] s t)) ∧
  (∀ (c : Instr) (l : Fin 64) (rise : Bool) (s : State) (p : TrigPkt) (rest : List TrigPkt), s.dev.powered = true →
    (c, rise) = (.cxpTriggerPacket l, true) ∨ (c, rise) = (.cxpFallPacket l, false) →
    tget s.dev.cxi.trigQ [] l = p :: rest → p.rising = rise → atOrPast s.dev.now p.fire = true →
    s.dev.trigLink l = false →
    ∃ t, exec c s = .next t ∧ tget t.dev.cxi.trigQ [] l = rest ∧
      t.dev.rdF .cxiMisroute 0 31 0 = min (s.dev.rdF .cxiMisroute 0 31 0 + 1) (2 ^ 32 - 1) ∧
      RegsOnly [regKey .cxiMisroute 0] s t ∧ Only [.cxi, .regs] s t)

/-! ### The herd link -/

/-- R74–R76, R90: a port that detects a signal trains; one locked lane is taken where X1_OK allows it and fails the step
otherwise; a step that takes too long fails; a failed port starts again; HELLO gives the version; probes are sent, answered
and averaged; the sixteenth probe of training ends it, REFUSED beyond 200 ns. -/
def Obligations.PortTraining : Prop :=
  (∀ (p : Fin 4) (s : State), s.dev.powered = true → s.dev.portLive p = true → s.dev.portState p = 0 →
    (s.dev.port p).step = 1 →
    ∃ t, exec (.portSignalDetect p) s = .next t ∧ t.dev.portState p = 1 ∧ (t.dev.port p).step = 2 ∧
      (t.dev.port p).stepAt = s.dev.now ∧ (t.dev.port p).helloAt = some s.dev.now ∧
      (∀ q : Fin 4, q ≠ p → t.dev.port q = s.dev.port q) ∧
      RegsOnly [regKey .hlkPortpStat p] s t ∧ Only [.regs, .hlk, .evc, .wev] s t) ∧
  (∀ (p : Fin 4) (s : State), s.dev.powered = true → s.dev.portState p = 1 → (s.dev.port p).step = 2 →
    10000000 ≤ elapsed s.dev.now (s.dev.port p).stepAt → s.dev.rdB .hlkPortpCtl p 2 = true →
    ∃ t, exec (.laneLockTimeout p) s = .next t ∧ (t.dev.port p).step = 3 ∧ t.dev.rdB .hlkPortpStat p 10 = true ∧
      t.dev.portState p = 1 ∧ (∀ q : Fin 4, q ≠ p → t.dev.port q = s.dev.port q) ∧
      RegsOnly [regKey .hlkPortpStat p] s t ∧ Only [.regs, .hlk, .evc, .wev] s t) ∧
  (∀ (p : Fin 4) (s : State), s.dev.powered = true → s.dev.portState p = 1 → (s.dev.port p).step = 2 →
    10000000 ≤ elapsed s.dev.now (s.dev.port p).stepAt → s.dev.rdB .hlkPortpCtl p 2 = false →
    ∃ t, exec (.laneLockTimeout p) s = .next t ∧ (t.dev.port p).failedAt = some s.dev.now ∧ t.dev.portState p = 0 ∧
      (∀ q : Fin 4, q ≠ p → t.dev.port q = s.dev.port q) ∧
      RegsOnly [regKey .hlkPortpStat p] s t ∧ Only [.regs, .hlk, .evc, .wev] s t) ∧
  (∀ (p : Fin 4) (lanes : Fin 3) (skewed : Bool) (s : State), s.dev.powered = true → s.dev.portState p = 1 →
    ((s.dev.port p).step = 2 ∧ lanes = 0 ∧ 1000000 ≤ elapsed s.dev.now (s.dev.port p).stepAt) ∨
      ((s.dev.port p).step = 2 ∧ lanes = 2 ∧ (skewed = true ∨ 1000000 ≤ elapsed s.dev.now (s.dev.port p).stepAt)) ∨
      (((s.dev.port p).step = 3 ∨ (s.dev.port p).step = 6) ∧ 1000000 ≤ elapsed s.dev.now (s.dev.port p).stepAt) →
    ∃ t, exec (.hlkTrainingTimeout p ⟨lanes, skewed⟩) s = .next t ∧ (t.dev.port p).failedAt = some s.dev.now ∧
      t.dev.portState p = 0 ∧ (∀ q : Fin 4, q ≠ p → t.dev.port q = s.dev.port q) ∧
      RegsOnly [regKey .hlkPortpStat p] s t ∧ Only [.regs, .hlk, .evc, .wev] s t) ∧
  (∀ (p : Fin 4) (s : State) (u : Word), s.dev.powered = true → (s.dev.port p).failedAt = some u → s.dev.portLive p = true →
    100000000 ≤ elapsed s.dev.now u →
    ∃ t, exec (.portTrainRetry p) s = .next t ∧ (t.dev.port p).step = 1 ∧ (t.dev.port p).failedAt = none ∧
      t.dev.portState p = 0 ∧ t.dev.portRole p = 0 ∧ (∀ q : Fin 4, q ≠ p → t.dev.port q = s.dev.port q) ∧
      RegsOnly [regKey .hlkPortpStat p] s t ∧ Only [.regs, .hlk, .evc, .wev] s t) ∧
  (∀ (r : Arrival) (m : HelloMsg) (s : State), Arrives r [1] s → (s.dev.port r.port).step < 6 →
    max m.verLo 1 ≤ min m.verHi (s.dev.rdF .hlkVersion 0 7 0) → m.verHi < 16 →
    ∃ t, exec (.hello r m) s = .next t ∧ (t.dev.port r.port).step = 6 ∧ (t.dev.port r.port).peer = some m ∧
      t.dev.portVersion r.port = min m.verHi (s.dev.rdF .hlkVersion 0 7 0) ∧
      RegsOnly [regKey .hlkPortpStat r.port, regKey .hlkPortpPeer r.port] s t ∧ Only [.regs, .hlk] s t) ∧
  (∀ (r : Arrival) (m : HelloMsg) (s : State), Arrives r [1] s → (s.dev.port r.port).step < 6 →
    min m.verHi (s.dev.rdF .hlkVersion 0 7 0) < max m.verLo 1 →
    ∃ t, exec (.hello r m) s = .next t ∧ t.dev.portState r.port = 5 ∧
      RegsOnly [regKey .hlkPortpStat r.port] s t ∧ Only [.regs, .hlk, .evc, .wev] s t) ∧
  (∀ (p : Fin 4) (t1 : Nat) (s : State), s.dev.powered = true → s.dev.portLive p = true →
    (s.dev.portState p = 1 ∧ (s.dev.port p).step = 6) ∨
      ((s.dev.portState p = 2 ∨ s.dev.portState p = 3) ∧ 262144 ≤ elapsed s.dev.now (s.dev.port p).probeAt) →
    ∃ t, exec (.delayProbeSend p t1) s = .next t ∧ t.dev.outbox = s.dev.outbox ++ [.hlk p (.delayReq t1)] ∧
      t.dev.port p = { s.dev.port p with probeAt := s.dev.now } ∧ (∀ q : Fin 4, q ≠ p → t.dev.port q = s.dev.port q) ∧
      Only [.hlk, .outbox] s t) ∧
  (∀ (r : Arrival) (t1 t2 t3 : Nat) (s : State), Arrives r [1, 2, 3] s →
    ∃ t, exec (.delayReq r t1 t2 t3) s = .next t ∧ t.dev.outbox = s.dev.outbox ++ [.hlk r.port (.delayRsp t1 t2 t3)] ∧
      Only [.outbox] s t) ∧
  (∀ (r : Arrival) (t1 t2 t3 t4 : Nat) (s : State), Arrives r [2, 3] s →
    ∃ t, exec (.delayRsp r t1 t2 t3 t4) s = .next t ∧
      (t.dev.port r.port).delays = (s.dev.probeDelay r.port t1 t2 t3 t4 :: (s.dev.port r.port).delays).take 16 ∧
      t.dev.rdF .hlkPortpDelay r.port 15 0 = (wordOfInt (meanDelay (t.dev.port r.port).delays)).toNat % 65536 ∧
      RegsOnly [regKey .hlkPortpDelay r.port] s t ∧ Only [.regs, .hlk] s t) ∧
  (∀ (r : Arrival) (t1 t2 t3 t4 : Nat) (s : State), Arrives r [1] s → (s.dev.port r.port).step = 6 →
    (s.dev.port r.port).delays.length < 15 →
    ∃ t, exec (.delayRsp r t1 t2 t3 t4) s = .next t ∧
      t.dev.port r.port = { s.dev.port r.port with
        delays := s.dev.probeDelay r.port t1 t2 t3 t4 :: (s.dev.port r.port).delays } ∧
      Only [.hlk] s t) ∧
  (∀ (r : Arrival) (t1 t2 t3 t4 : Nat) (l : List Int) (s : State), Arrives r [1] s → (s.dev.port r.port).step = 6 →
    l = s.dev.probeDelay r.port t1 t2 t3 t4 :: (s.dev.port r.port).delays → l.length = 16 →
    ∃ t, exec (.delayRsp r t1 t2 t3 t4) s = .next t ∧ (t.dev.port r.port).step = 7 ∧
      t.dev.rdF .hlkPortpDelay r.port 15 0 = (wordOfInt (medianDelay l)).toNat % 65536 ∧
      (12800 < medianDelay l → t.dev.portState r.port = 5) ∧
      (medianDelay l ≤ 12800 → s.dev.altPort ≠ some r.port.val → (∀ h, (s.dev.port r.port).peer = some h → h.alt = false) →
        t.dev.portState r.port = 2))

/-- R78, R80–R83, R112, R113, R122: a port that leaves UP or STANDBY goes DOWN and trains again, or is DISABLED; the lead's
enumeration asks its first UP port and is refused on a follower and while a head runs; a follower takes its number or refuses
it, a parent the range below a port; alerts are recorded and flooded; moved ranges are routed to the port they came on and leave
the old path. -/
def Obligations.PortsAndRouting : Prop :=
  (∀ (p : Fin 4) (cause : PortDownCause) (lost : List HlkMsg) (s : State), s.dev.powered = true →
    (s.dev.portState p = 2 ∨ s.dev.portState p = 3) → cause ≠ .disabled → s.dev.rdB .hlkPortpCtl p 0 = true →
    ∃ t, exec (.portDown p cause lost) s = .next t ∧ t.dev.portState p = 0 ∧ t.dev.portRole p = 0 ∧
      (t.dev.port p).step = 1 ∧
      t.dev.rdF .hlkPortpErr p 47 32 = min (s.dev.rdF .hlkPortpErr p 47 32 + lost.length) (2 ^ 16 - 1) ∧
      (lost = [] → Only (.outbox :: axisParts) s t)) ∧
  (∀ (p : Fin 4) (lost : List HlkMsg) (s : State), s.dev.powered = true →
    (s.dev.portState p = 2 ∨ s.dev.portState p = 3) →
    ∃ t, exec (.portDown p .disabled lost) s = .next t ∧ t.dev.portState p = 4 ∧ t.dev.rdB .hlkPortpCtl p 0 = false ∧
      t.dev.rdF .hlkPortpErr p 47 32 = min (s.dev.rdF .hlkPortpErr p 47 32 + lost.length) (2 ^ 16 - 1) ∧
      (lost = [] → Only (.outbox :: axisParts) s t)) ∧
  (∀ (p : Fin 4) (lost : List HlkMsg) (s : State), s.dev.powered = true → s.dev.portLive p = true →
    ∃ t, exec (.portRetrain p lost) s = .next t ∧ t.dev.portState p = 0 ∧ (t.dev.port p).step = 1 ∧
      t.dev.rdF .hlkPortpErr p 47 32 = min (s.dev.rdF .hlkPortpErr p 47 32 + lost.length) (2 ^ 16 - 1) ∧
      (lost = [] → Only (.outbox :: axisParts) s t)) ∧
  (∀ (p : Fin 4) (rest : List Nat) (s : State), s.dev.powered = true → s.dev.hlkOn = true → s.dev.follower = false →
    s.dev.isLead = true → s.dev.rdF .hlkHerdSize 0 10 0 ≤ 1 → s.dev.anyRunning = false → s.dev.upPorts = p.val :: rest →
    ∃ t, exec .herdEnumerate s = .next t ∧
      t.dev.hlk.enumRun = some { todo := rest, cur := some p.val, base := 1, next := 1 } ∧
      t.dev.outbox = s.dev.outbox ++ [.hlk p (.enum ⟨1, s.dev.rdF .hlkStat 0 31 29 + 1, false, []⟩)] ∧
      Only [.regs, .hlk, .outbox] s t) ∧
  (∀ (p : Fin 4) (rest : List Nat) (s : State), s.dev.powered = true → s.dev.hlkOn = true → s.dev.follower = false →
    s.dev.isLead = true → 1 < s.dev.rdF .hlkHerdSize 0 10 0 → s.dev.anyRunning = false → s.dev.upPorts = p.val :: rest →
    ∃ t, exec .herdEnumerate s = .next t ∧
      (t.dev.rdB .hlkStat 0 37 = true ∨ t.dev.hlk.enumRun = some { todo := rest, cur := some p.val, base := 1, next := 1 }) ∧
      Only [.regs, .hlk, .outbox, .evc, .wev, .freeIdx] s t) ∧
  (∀ (s : State), s.dev.powered = true → s.dev.hlkOn = true →
    s.dev.follower = true ∨ (s.dev.isLead = true ∧ s.dev.anyRunning = true ∧ s.dev.rdF .hlkHerdSize 0 10 0 ≤ 1) →
    ∃ t, exec .herdEnumerate s = .next t ∧ t.dev.rdB .hlkStat 0 37 = true ∧ RegsOnly [regKey .hlkStat 0] s t ∧
      Only [.regs, .evc, .wev] s t) ∧
  (∀ (r : Arrival) (m : EnumMsg) (s : State), Arrives r [2] s → s.dev.follower = true → m.wf = true →
    m.number < 1024 → m.depth < 7 → (m.former = false ∨ (s.dev.port r.port).retired = false) →
    ∃ t, exec (.enum r m) s = .next t ∧ t.dev.hlk.numbered = true ∧ t.dev.devNum = m.number ∧ t.dev.upPort = r.port ∧
      t.dev.rdF .hlkStat 0 31 29 = m.depth ∧ t.dev.portRole r.port = 1 ∧ t.dev.rdB .hlkStat 0 36 = false ∧
      Only [.regs, .hlk, .outbox, .evc, .wev] s t) ∧
  (∀ (r : Arrival) (m : EnumMsg) (s : State), Arrives r [2] s → s.dev.follower = true → m.wf = true → m.former = false →
    (1024 ≤ m.number ∨ 7 ≤ m.depth) →
    ∃ t, exec (.enum r m) s = .next t ∧ t.dev.hlk.numbered = false ∧ t.dev.rdB .hlkStat 0 36 = true ∧ t.dev.herdState = 0 ∧
      t.dev.outbox = s.dev.outbox ++ [.hlk r.port (.enumRsp ⟨[], true⟩)] ∧ Only (.outbox :: axisParts) s t) ∧
  (∀ (r : Arrival) (m : EnumRsp) (s : State) (e : EnumRun), Arrives r [2] s → s.dev.hlk.enumRun = some e →
    e.cur = some r.port.val → m.refused = false → m.members ≠ [] → e.base + m.members.length ≤ 1024 →
    m.members.all (fun x => deviceNumber x.number) = true →
    ∃ t, exec (.enumRsp r m) s = .next t ∧
      t.dev.portRange r.port = some { lo := e.base, hi := e.base + m.members.length - 1 } ∧
      (t.dev.port r.port).members = m.members ∧ t.dev.portRole r.port = 2 ∧
      (e.todo = [] → s.dev.isLead = true → t.dev.rdF .hlkHerdSize 0 10 0 = e.base + m.members.length) ∧
      Only [.regs, .hlk, .outbox, .evc, .wev] s t) ∧
  (∀ (r : Arrival) (m : EnumRsp) (s : State) (e : EnumRun), Arrives r [2] s → s.dev.hlk.enumRun = some e →
    e.cur = some r.port.val → m.refused = true → m.members.all (fun x => deviceNumber x.number) = true →
    ∃ t, exec (.enumRsp r m) s = .next t ∧ t.dev.portState r.port = 5 ∧
      Only [.regs, .hlk, .outbox, .evc, .wev] s t) ∧
  (∀ (r : Arrival) (m : AlertMsg) (s : State), Arrives r [2] s →
    ∃ t, exec (.alert r m) s = .next t ∧ t.dev.rdB .hlkAlertLast 0 47 = true ∧
      t.dev.rdF .hlkAlertLast 0 9 0 = m.source % 1024 ∧ t.dev.rdF .hlkAlertLast 0 13 10 = m.kind.toNat ∧
      t.dev.rdF .hlkAlertLast 0 21 14 = m.detail.toNat ∧
      t.dev.outbox = s.dev.outbox ++ (s.dev.upPorts.filter (fun q => q ≠ r.port.val)).map (fun q => .hlk q (.alert m)) ∧
      RegsOnly [regKey .hlkAlertLast 0] s t ∧ Only [.regs, .outbox, .evc, .wev] s t) ∧
  (∀ (r : Arrival) (m : MovedRange) (s : State), Arrives r [2, 3] s → s.dev.isLead = false →
    s.dev.portState s.dev.upPort = 2 → 2 ≤ s.dev.portVersion s.dev.upPort →
    ∃ t, exec (.reparent r m) s = .next t ∧ (t.dev.port r.port).moved.head? = some m ∧ t.dev.portRole r.port = 2 ∧
      t.dev.portState r.port = 2 ∧ t.dev.outbox = s.dev.outbox ++ [.hlk s.dev.upPort (.reparent m)] ∧
      RegsOnly [regKey .hlkPortpStat r.port] s t ∧ Only [.regs, .hlk, .outbox, .evc, .wev] s t) ∧
  (∀ (r : Arrival) (q : Fin 4) (m : MovedRange) (s : State), Arrives r [2, 3] s → s.dev.isLead = true →
    s.dev.route m.lo = some q.val → q ≠ r.port → s.dev.portState q = 2 → 2 ≤ s.dev.portVersion q →
    ∃ t, exec (.reparent r m) s = .next t ∧ (t.dev.port r.port).moved.head? = some m ∧ t.dev.portState r.port = 2 ∧
      (t.dev.port q).dropped = m :: (s.dev.port q).dropped ∧
      t.dev.outbox = s.dev.outbox ++ [.hlk q (.routeDrop m)] ∧
      RegsOnly [regKey .hlkPortpStat r.port] s t ∧ Only [.regs, .hlk, .outbox, .evc, .wev] s t) ∧
  (∀ (r : Arrival) (q : Fin 4) (m : MovedRange) (s : State), Arrives r [2] s → s.dev.oldPath m = some q.val →
    (s.dev.port q).moved.contains m = false → s.dev.portState q = 2 → 2 ≤ s.dev.portVersion q →
    ∃ t, exec (.routeDrop r m) s = .next t ∧ (t.dev.port q).dropped = m :: (s.dev.port q).dropped ∧
      t.dev.outbox = s.dev.outbox ++ [.hlk q (.routeDrop m)] ∧
      (∀ k : Fin 4, k ≠ q → t.dev.port k = s.dev.port k) ∧ Only [.hlk, .outbox] s t)

/-- R84–R86, R88, R89, R91, R92, R94: the lead composes the beat for its instant and sends it on its downstream and standby
ports; a follower takes a good beat from upstream, joins by it, and counts a bad one; on a lead a good beat is a conflict; a
missing beat leads to HERD_COAST, the 32nd in a row to LOST; RESYNC rejoins and steps the time stamp. The model's own choices are
the free fields of a beat that says nothing (log entry 46) and the rounding of the step (log entry 168). -/
def Obligations.Beats : Prop :=
  (∀ (s : State), s.dev.powered = true → s.dev.hlkOn = true → s.dev.isLead = true → s.dev.now.toNat % 1024 = 0 →
    s.dev.hlk.expect ≠ some (s.dev.now + 4096) → s.dev.hlk.commit = none → s.dev.hlk.frozen = none →
    ∃ t, exec .beatSend s = .next t ∧
      (∃ b ∈ t.dev.hlk.beats.getLast?, t.dev.hlk.beats = s.dev.hlk.beats ++ [b] ∧ b.time = s.dev.now + 4096 ∧
        b.seq = BitVec.ofNat 16 ((s.dev.now + 4096).toNat / 1024) ∧ b.cstate = 0 ∧ b.lastDone = s.dev.hlk.lastDone ∧
        b.corr = 0 ∧ (∀ a : Fin 4, b.axisOf a = s.dev.beatAxis a (s.dev.now + 4096)) ∧
        t.dev.outbox = s.dev.outbox ++ ((List.range 4).filter (fun p => (s.dev.portState p = 2 && s.dev.portRole p = 2) ||
          (s.dev.portState p = 3 && s.dev.altPort ≠ some p))).map (fun p =>
            .hlk p (.beat (beatFrame b (s.dev.portVersion p))))) ∧
      t.dev.hlk.expect = some (s.dev.now + 4096) ∧ Only [.freeIdx, .hlk, .outbox] s t) ∧
  (∀ (s : State) (c : LeadCommit) (k : BeatCommit), s.dev.powered = true → s.dev.hlkOn = true → s.dev.isLead = true →
    s.dev.now.toNat % 1024 = 0 → s.dev.hlk.expect ≠ some (s.dev.now + 4096) → s.dev.hlk.commit = some c →
    composeCommit c (BitVec.ofNat 16 ((s.dev.now + 4096).toNat / 1024)) (s.dev.beatAxis c.req.axis (s.dev.now + 4096))
      s.dev.now = some k →
    ∃ t, exec .beatSend s = .next t ∧
      (∃ b ∈ t.dev.hlk.beats.getLast?, b.time = s.dev.now + 4096 ∧ b.cstate = BitVec.ofNat 2 k.cstate ∧ b.epoch = c.epoch ∧
        b.applying = k.applying ∧ b.seqValid = k.seqValid ∧ b.caxis = BitVec.ofNat 2 c.req.axis)) ∧
  (∀ (p : Fin 4) (f : BeatFrame) (b : Beat) (phase : BitVec 6) (residence : Nat) (s : State), s.dev.powered = true →
    s.dev.hlkOn = true → s.dev.portState p = 2 → s.dev.follower = true → s.dev.hlk.numbered = true → s.dev.upPort = p →
    frameGood f (s.dev.portVersion p) = true → b = beatOfBlocks f.blocks → s.dev.herdState = 2 → b.cstate = 0 →
    s.dev.hlk.frozen = none →
    ∃ t, exec (.beat p f phase residence) s = .next t ∧ t.dev.hlk.missed = 0 ∧ t.dev.hlk.lastSeq = b.seq ∧
      t.dev.hlk.expect = some (b.time + 1024) ∧ t.dev.hlk.beats = s.dev.hlk.beats ++ [b] ∧ t.dev.herdState = 2 ∧
      t.dev.rdF .hlkPathDelay 0 31 0 = (b.corr.toNat + s.dev.rdF .hlkPortpDelay p 15 0) % 2 ^ 32 ∧
      RegsOnly [regKey .hlkPhaseErr 0, regKey .hlkPathDelay 0, regKey .hlkPortpPeer p] s t ∧
      Only [.regs, .freeIdx, .hlk, .outbox] s t) ∧
  (∀ (p : Fin 4) (f : BeatFrame) (b : Beat) (phase : BitVec 6) (residence : Nat) (s : State), s.dev.powered = true →
    s.dev.hlkOn = true → s.dev.portState p = 2 → s.dev.follower = true → s.dev.hlk.numbered = true → s.dev.upPort = p →
    frameGood f (s.dev.portVersion p) = true → b = beatOfBlocks f.blocks → s.dev.herdState = 0 ∨ s.dev.herdState = 4 →
    b.cstate = 0 → s.dev.hlk.frozen = none →
    ∃ t, exec (.beat p f phase residence) s = .next t ∧ t.dev.herdState = 1 ∧ t.dev.hlk.missed = 0 ∧
      t.dev.hlk.beats = s.dev.hlk.beats ++ [b]) ∧
  (∀ (p : Fin 4) (f : BeatFrame) (phase : BitVec 6) (residence : Nat) (s : State), s.dev.powered = true →
    f.blocks.length = 11 → s.dev.hlkOn = true → s.dev.portState p = 2 ∨ s.dev.portState p = 3 →
    frameGood f (s.dev.portVersion p) = false →
    ∃ t, exec (.beat p f phase residence) s = .next t ∧
      t.dev.rdF .hlkLostBeats 0 31 0 = min (s.dev.rdF .hlkLostBeats 0 31 0 + 1) (2 ^ 32 - 1) ∧
      t.dev.hlk.lastSeq = s.dev.hlk.lastSeq ∧ Only (.outbox :: axisParts) s t) ∧
  (∀ (p : Fin 4) (f : BeatFrame) (phase : BitVec 6) (residence : Nat) (s : State), s.dev.powered = true →
    s.dev.hlkOn = true → s.dev.portState p = 2 ∨ s.dev.portState p = 3 → frameGood f (s.dev.portVersion p) = true →
    s.dev.follower = false →
    ∃ t, exec (.beat p f phase residence) s = .next t ∧ t.dev.rdB .hlkStat 0 38 = true ∧ t.dev.portState p = 5 ∧
      RegsOnly [regKey .hlkStat 0, regKey .hlkPortpStat p] s t ∧ Only [.regs, .evc, .wev] s t) ∧
  (∀ (s : State) (u : Word), s.dev.powered = true → s.dev.hlk.expect = some u → s.dev.hlkOn = true →
    (s.dev.herdState = 1 ∨ s.dev.herdState = 2) → atOrPast s.dev.now (u - 1024) = true → s.dev.hlk.missed < 31 →
    s.dev.usableAlt = none →
    ∃ t, exec .beatMissed s = .next t ∧ t.dev.herdState = 3 ∧ t.dev.hlk.missed = s.dev.hlk.missed + 1 ∧
      t.dev.hlk.expect = some (u + 1024) ∧ RegsOnly [regKey .hlkStat 0] s t ∧ Only [.regs, .hlk, .evc, .wev] s t) ∧
  (∀ (s : State) (u : Word), s.dev.powered = true → s.dev.hlk.expect = some u → s.dev.hlkOn = true → s.dev.herdState = 3 →
    atOrPast s.dev.now (u - 1024) = true → 31 ≤ s.dev.hlk.missed →
    ∃ t, exec .beatMissed s = .next t ∧ t.dev.herdState = 4 ∧ t.dev.hlk.frozen = none ∧ Only axisParts s t) ∧
  (∀ (s : State), s.dev.powered = true → s.dev.hlkOn = true → s.dev.herdState = 4 → s.dev.hlk.goodInLost = true →
    ∃ t, exec .resync s = .next t ∧ t.dev.herdState = 1 ∧
      t.dev.now = s.dev.now - wordOfInt (s.dev.hlk.phase.fdiv 64) ∧
      Only [.now, .regs, .hlk, .evc, .wev, .sram, .ghd] s t)

/-- R97, R100–R102, R104, R105, R108, R112: the lead takes a request with the next epoch, holds it behind the running one, or refuses
it with NOT_READY, sub-code 33h; a follower passes it up, or ends its own with LINK_DOWN where it cannot; a vote of another epoch or
of a port that is not awaited is nothing; votes are joined, and the last one goes up, arms the commit or cancels it with the refusal;
after 48 beats a child's range votes HERD_TIMEOUT, after 64 the lead cancels with it; a POSITION commit expires; each wave applies the
next 256 objects of the frozen set at its instant, and the last one releases the set; COMMIT_DONE ends the requester's commit or is
routed on. -/
def Obligations.HerdCommits : Prop :=
  (∀ (r : Arrival) (m : CommitReq) (s : State), m.requester < 1024 → Arrives r [2] s → s.dev.isLead = true →
    s.dev.hlk.commit = none →
    ∃ t, exec (.commitReq ⟨r, m⟩) s = .next t ∧
      t.dev.hlk.commit = some { req := m, epoch := s.dev.hlk.lastEpoch + 1 } ∧
      t.dev.hlk.lastEpoch = s.dev.hlk.lastEpoch + 1 ∧ Only [.hlk] s t) ∧
  (∀ (r : Arrival) (m : CommitReq) (c : LeadCommit) (s : State), m.requester < 1024 → Arrives r [2] s →
    s.dev.isLead = true → s.dev.hlk.commit = some c → s.dev.hlk.held = none →
    ∃ t, exec (.commitReq ⟨r, m⟩) s = .next t ∧ t.dev.hlk.held = some m ∧ t.dev.hlk.commit = some c ∧ Only [.hlk] s t) ∧
  (∀ (r : Arrival) (m h : CommitReq) (c : LeadCommit) (q : Nat) (s : State), m.requester < 1024 → Arrives r [2] s →
    s.dev.isLead = true → s.dev.hlk.commit = some c → s.dev.hlk.held = some h → m.requester ≠ s.dev.devNum →
    s.dev.routeUp m.requester false = some q →
    ∃ t, exec (.commitReq ⟨r, m⟩) s = .next t ∧
      t.dev.outbox = s.dev.outbox ++ [.hlk q (.commitDone ⟨m.requester, m.tag, 0, 0x38, 0x33, 0, 0, 0⟩)] ∧
      Only [.outbox] s t) ∧
  (∀ (r : Arrival) (m h : CommitReq) (c : LeadCommit) (s : State), m.requester < 1024 → Arrives r [2] s →
    s.dev.isLead = true → s.dev.hlk.commit = some c → s.dev.hlk.held = some h → m.requester = s.dev.devNum →
    s.dev.commit.state = 1 →
    ∃ t, exec (.commitReq ⟨r, m⟩) s = .next t ∧
      t.dev.commit = { s.dev.commit with state := 2, status := 0x38, sub := 0x33, epoch := 0, pos := 0, waves := 0 } ∧
      Only [.commit, .evc, .wev] s t) ∧
  (∀ (r : Arrival) (m : CommitReq) (s : State), m.requester < 1024 → Arrives r [2] s → s.dev.isLead = false →
    s.dev.portState s.dev.upPort ≠ 2 → m.requester = s.dev.devNum → s.dev.commit.state = 1 →
    ∃ t, exec (.commitReq ⟨r, m⟩) s = .next t ∧
      t.dev.commit = { s.dev.commit with state := 2, status := 0x30, sub := 0 } ∧ Only [.commit, .evc, .wev] s t) ∧
  (∀ (r : Arrival) (m : CommitReq) (s : State), m.requester < 1024 → Arrives r [2] s → s.dev.isLead = false →
    s.dev.portState s.dev.upPort = 2 →
    ∃ t, exec (.commitReq ⟨r, m⟩) s = .next t ∧ t.dev.outbox = s.dev.outbox ++ [.hlk s.dev.upPort (.commitReq m)] ∧
      Only [.outbox] s t) ∧
  (∀ (r : Arrival) (m : VoteMsg) (s : State), Arrives r [2] s →
    (∀ v ∈ s.dev.hlk.votes, v.acc.epoch ≠ m.epoch ∨ v.waiting.contains r.port.val = false) →
    exec (.vote r m) s = .next s) ∧
  (∀ (r : Arrival) (m : VoteMsg) (v : VoteRun) (s : State), s.dev.hlk.votes = some v → Arrives r [2] s →
    v.acc.epoch = m.epoch → v.waiting.contains r.port.val = true → v.waiting.filter (fun q => q ≠ r.port.val) ≠ [] →
    ∃ t, exec (.vote r m) s = .next t ∧
      t.dev.hlk.votes = some { v with acc := joinVotes v.acc m, waiting := v.waiting.filter (fun q => q ≠ r.port.val) } ∧
      Only [.hlk] s t) ∧
  (∀ (r : Arrival) (m : VoteMsg) (v : VoteRun) (s : State), s.dev.hlk.votes = some v → Arrives r [2] s →
    s.dev.isLead = false → v.acc.epoch = m.epoch → v.waiting = [r.port.val] → v.sent = false →
    s.dev.portState s.dev.upPort = 2 →
    ∃ t, exec (.vote r m) s = .next t ∧ t.dev.outbox = s.dev.outbox ++ [.hlk s.dev.upPort (.vote (joinVotes v.acc m))] ∧
      t.dev.hlk.votes = some { v with acc := joinVotes v.acc m, waiting := [], sent := true } ∧ Only [.hlk, .outbox] s t) ∧
  (∀ (r : Arrival) (m : VoteMsg) (v : VoteRun) (c : LeadCommit) (s : State), s.dev.hlk.votes = some v → Arrives r [2] s →
    s.dev.isLead = true → v.acc.epoch = m.epoch → v.waiting = [r.port.val] → v.sent = false → s.dev.hlk.commit = some c →
    c.phase = .prepare → v.acc.refuser = none → m.refuser = none →
    ∃ t, exec (.vote r m) s = .next t ∧
      t.dev.hlk.commit = some { c with phase := .armed, lastWave := min 15 ((max v.acc.largest m.largest + 255) / 256 - 1) } ∧
      Only [.hlk] s t) ∧
  (∀ (r : Arrival) (m : VoteMsg) (v : VoteRun) (c : LeadCommit) (n : Nat) (code : BitVec 8) (s : State),
    s.dev.hlk.votes = some v → Arrives r [2] s → s.dev.isLead = true → v.acc.epoch = m.epoch → v.waiting = [r.port.val] →
    v.sent = false → s.dev.hlk.commit = some c → c.phase = .prepare → lowerRefuser v.acc.refuser m.refuser = some (n, code) →
    ∃ t, exec (.vote r m) s = .next t ∧
      t.dev.hlk.commit = some { c with phase := .cancel 4, status := code, sub := 0 } ∧ Only [.hlk] s t) ∧
  (∀ (p : Fin 4) (v : VoteRun) (s : State), s.dev.powered = true → s.dev.hlk.votes = some v → s.dev.hlkOn = true →
    v.waiting.contains p.val = true → 48 ≤ s.dev.beatsSince v →
    ∃ t, exec (.childVoteTimeout p) s = .next t ∧
      (∃ w ∈ t.dev.hlk.votes, w.waiting = v.waiting.filter (fun q => q ≠ p.val) ∧
        w.acc = joinVotes v.acc { epoch := v.acc.epoch, voting := (s.dev.childNumbers p).length, abstain := 0, largest := 0,
                                  refuser := (s.dev.childNumbers p).head?.map (fun n => (n, 0x31)) }) ∧
      Only [.hlk, .outbox] s t) ∧
  (∀ (v : VoteRun) (c : LeadCommit) (s : State), s.dev.powered = true → s.dev.hlk.votes = some v →
    s.dev.hlk.commit = some c → s.dev.hlkOn = true → s.dev.isLead = true → c.phase = .prepare → v.sent = false →
    64 ≤ s.dev.beatsSince v →
    ∃ t, exec .leadVoteTimeout s = .next t ∧
      t.dev.hlk.commit = some { c with phase := .cancel 4, status := 0x31, sub := 0 } ∧ Only [.hlk] s t) ∧
  (∀ (c : LeadCommit) (u : Word) (s : State), s.dev.powered = true → s.dev.hlk.commit = some c → c.armedAt = some u →
    s.dev.hlkOn = true → s.dev.isLead = true → c.phase = .armed → c.req.next = false →
    s.dev.rdF .hlkArmLimit 0 31 0 * 1000000 ≤ elapsed s.dev.now u →
    ∃ t, exec .armLimitExpiry s = .next t ∧
      t.dev.hlk.commit = some { c with phase := .cancel 4, status := 0x38, sub := 0x36 } ∧ Only [.hlk] s t) ∧
  (∀ (f : FrozenCommit) (u : Word) (s : State), s.dev.powered = true → s.dev.hlkOn = true → s.dev.hlk.frozen = some f →
    f.start = some u → atOrPast s.dev.now (waveInstant u f.waves) = true → f.waves + 1 < s.dev.ownWaves →
    ∃ t, exec .waveApply s = .next t ∧ t.pending = s.pending ∧
      (∀ e : Dev, e = (s.dev.applyWaveAt f.waves (waveInstant u f.waves)).setFrozen { f with waves := f.waves + 1 } →
        (e.leadDue = none → t.dev = e) ∧ (∀ c : LeadCommit, e.leadDue = some c → t.dev = e.tellDone c))) ∧
  (∀ (f : FrozenCommit) (u : Word) (s : State), s.dev.powered = true → s.dev.hlkOn = true → s.dev.hlk.frozen = some f →
    f.start = some u → atOrPast s.dev.now (waveInstant u f.waves) = true → s.dev.ownWaves ≤ f.waves + 1 →
    ∃ t, exec .waveApply s = .next t ∧ t.dev.hlk.frozen = none ∧ t.dev.dict.pending = [] ∧
      t.dev.rdF .hlkCommitStat 0 31 16 = f.epoch.toNat ∧ t.dev.rdF .hlkCommitStat 0 15 8 = 0 ∧
      (s.dev.hlk.commit = none → ∀ x ∈ f.pos, t.dev.rd .hlkApplyPos 0 = x) ∧ t.pending = s.pending) ∧
  (∀ (c : LeadCommit) (s : State), s.dev.powered = true → s.dev.hlkOn = true → s.dev.hlk.frozen = none →
    s.dev.leadDue = some c →
    ∃ t, exec .waveApply s = .next t ∧ t.dev.hlk.commit = some { c with told := true } ∧
      t.dev.rd .hlkApplyPos 0 = c.applyPos ∧ RegsOnly [regKey .hlkApplyPos 0] s t ∧
      Only [.hlk, .regs, .commit, .outbox, .evc, .wev] s t) ∧
  (∀ (s : State), s.dev.powered = true → s.dev.leadDue = none →
    s.dev.hlk.frozen.all (fun f => f.start.all (fun u => !atOrPast s.dev.now (waveInstant u f.waves))) = true →
    exec .waveApply s = .next s) ∧
  (∀ (r : Arrival) (m : CommitDone) (s : State), m.requester < 1024 → Arrives r [2] s → m.requester = s.dev.devNum →
    s.dev.commit.state = 1 →
    ∃ t, exec (.commitDone ⟨r, m⟩) s = .next t ∧
      t.dev.commit = { s.dev.commit with
        state := 2, status := m.status.toNat, sub := m.sub.toNat, epoch := m.epoch, pos := m.pos, waves := m.waves } ∧
      Only [.commit, .evc, .wev] s t) ∧
  (∀ (r : Arrival) (m : CommitDone) (q : Nat) (s : State), m.requester < 1024 → Arrives r [2] s →
    m.requester ≠ s.dev.devNum → s.dev.routeUp m.requester false = some q →
    ∃ t, exec (.commitDone ⟨r, m⟩) s = .next t ∧ t.dev.outbox = s.dev.outbox ++ [.hlk q (.commitDone m)] ∧ Only [.outbox] s t)

/-- R110, R112, R116–R119, R268, R270, R272: an undefined message is discarded and counted; messages for another device go on; a
responder closes a tile request with TILE_END; a good tile joins its request, a bad one and TILE_END end it; a PIECE becomes an
open piece, PROGRESS is recorded and a RETURN takes the forwarded piece back. -/
def Obligations.HerdMessages : Prop :=
  (∀ (c : Instr) (r : Arrival) (s : State) (al : AlertMsg) (vo : VoteMsg) (mv : MovedRange) (t1 t2 t3 : Nat),
    c = .alert r al ∨ c = .vote r vo ∨ c = .reparent r mv ∨ c = .routeDrop r mv ∨ c = .delayReq r t1 t2 t3 →
    s.dev.powered = true → s.dev.portLive r.port = true → s.dev.portState r.port = 2 →
    r.known = false ∨ r.reservedZero = false →
    ∃ t, exec c s = .next t ∧
      t.dev.rdF .hlkPortpErr r.port 47 32 = min (s.dev.rdF .hlkPortpErr r.port 47 32 + 1) (2 ^ 16 - 1) ∧
      t.dev.rdF .hlkPortpErr r.port 15 0 = min (s.dev.rdF .hlkPortpErr r.port 15 0 + r.fails) (2 ^ 16 - 1) ∧
      RegsOnly [regKey .hlkPortpErr r.port, regKey .hlkPortpStat r.port] s t ∧ Only [.regs, .evc, .wev] s t) ∧
  (∀ (r : Arrival) (m : TileReq) (q : Nat) (s : State), m.requester < 1024 → m.dest < 1024 → Arrives r [2] s →
    m.dest ≠ s.dev.devNum → s.dev.routeUp m.dest true = some q →
    ∃ t, exec (.tileReq r m) s = .next t ∧ t.dev.outbox = s.dev.outbox ++ [.hlk q (.tileReq m)] ∧ Only [.outbox] s t) ∧
  (∀ (r : Arrival) (m : TileReq) (q : Nat) (s : State), m.requester < 1024 → m.dest < 1024 → Arrives r [2] s →
    m.dest = s.dev.devNum → s.dev.routeUp m.requester true = some q →
    ∃ t, exec (.tileReq r m) s = .next t ∧
      (∃ e ∈ t.dev.outbox.getLast?.bind tileEndOf, e.1 = q ∧ e.2.requester = m.requester ∧ e.2.tag = m.tag ∧
        e.2.count ≤ 4096)) ∧
  (∀ (r : Arrival) (m : TileData) (x : RemoteReq) (s : State), m.requester < 1024 → m.words.length = 512 →
    Arrives r [2] s → m.requester = s.dev.devNum → s.dev.tfb.remote = [x] → x.req.tag = m.tag → x.ended = none →
    (crc32c (bytesOfWords m.words)).toNat = m.velvet.toNat / 2 ^ 32 →
    x.tiles.any (fun y => y.pos = m.pos && y.col = m.col) = false →
    ∃ t, exec (.tileData ⟨r, m⟩) s = .next t ∧ t.dev.tfb.remote = [{ x with tiles := x.tiles ++ [m] }] ∧ Only [.tfb] s t) ∧
  (∀ (r : Arrival) (m : TileData) (x : RemoteReq) (s : State), m.requester < 1024 → m.words.length = 512 →
    Arrives r [2] s → m.requester = s.dev.devNum → s.dev.tfb.remote = [x] → x.req.tag = m.tag → x.ended = none →
    (crc32c (bytesOfWords m.words)).toNat ≠ m.velvet.toNat / 2 ^ 32 →
    ∃ t, exec (.tileData ⟨r, m⟩) s = .next t ∧ t.dev.tfb.remote = [{ x with ended := some (0x19, m.pos) }] ∧ Only [.tfb] s t) ∧
  (∀ (r : Arrival) (m : TileData) (q : Nat) (s : State), m.requester < 1024 → m.words.length = 512 → Arrives r [2] s →
    m.requester ≠ s.dev.devNum → s.dev.routeUp m.requester true = some q →
    ∃ t, exec (.tileData ⟨r, m⟩) s = .next t ∧ t.dev.outbox = s.dev.outbox ++ [.hlk q (.tileData m)] ∧ Only [.outbox] s t) ∧
  (∀ (r : Arrival) (m : TileEnd) (x : RemoteReq) (s : State), m.requester < 1024 → Arrives r [2] s →
    m.requester = s.dev.devNum → s.dev.tfb.remote = [x] → x.req.tag = m.tag → x.ended = none → x.sent = true →
    m.status ≠ 0x20 → (m.status ≠ 0 ∨ x.tiles = [] ∨ m.count + x.blocks ≤ 4096) →
    ∃ t, exec (.tileEnd ⟨r, m⟩) s = .next t ∧ t.dev.tfb.remote = [{ x with ended := some (m.status.toNat, m.horizon) }] ∧
      Only [.tfb] s t) ∧
  (∀ (r : Arrival) (m : TileEnd) (x : RemoteReq) (y : TileData) (s : State), m.requester < 1024 → Arrives r [2] s →
    m.requester = s.dev.devNum → s.dev.tfb.remote = [x] → x.req.tag = m.tag → x.ended = none → m.status = 0 →
    x.tiles.getLast? = some y → 4096 < m.count + x.blocks →
    ∃ t, exec (.tileEnd ⟨r, m⟩) s = .next t ∧ t.dev.tfb.remote.map (fun z => (z.req.first, z.tiles)) = [(y.pos + 1, x.tiles)] ∧
      Only [.tfb, .outbox] s t) ∧
  (∀ (r : Arrival) (m : TileEnd) (q : Nat) (s : State), m.requester < 1024 → Arrives r [2] s →
    m.requester ≠ s.dev.devNum → s.dev.routeUp m.requester true = some q →
    ∃ t, exec (.tileEnd ⟨r, m⟩) s = .next t ∧ t.dev.outbox = s.dev.outbox ++ [.hlk q (.tileEnd m)] ∧ Only [.outbox] s t) ∧
  (∀ (c : Instr) (r : Arrival) (b : BlobMsg) (q : Nat) (s : State), c = .piece ⟨r, b⟩ ∨ c = .progress ⟨r, b⟩ ∨ c = .returnRecord ⟨r, b⟩ →
    b.wf = true → Arrives r [2] s → b.dest ≠ s.dev.devNum → s.dev.routeUp b.dest false = some q →
    ∃ t, exec c s = .next t ∧ t.dev.outbox = s.dev.outbox ++ [.hlk q (.blob b)] ∧ Only [.outbox] s t) ∧
  (∀ (r : Arrival) (b : BlobMsg) (s : State), b.wf = true → Arrives r [2] s → b.dest = s.dev.devNum →
    fld (b.words.getD 0 0) 45 42 = 0 → s.dev.cex.pieces = [] → s.dev.cex.heads = [] → s.dev.cex.late = [] →
    ∃ t, exec (.piece ⟨r, b⟩) s = .next t ∧
      (∃ x ∈ t.dev.cex.pieces.head?, t.dev.cex.pieces = [x] ∧ x.num = s.dev.cex.nextPiece ∧ x.job = none ∧ x.runs = []) ∧
      t.dev.cex.nextPiece = s.dev.cex.nextPiece + 1 ∧ RegsOnly [regKey .cexPieces 0] s t ∧ Only [.cex, .regs] s t) ∧
  (∀ (r : Arrival) (b : BlobMsg) (s : State), b.wf = true → Arrives r [2] s → b.dest = s.dev.devNum →
    ∃ t, exec (.progress ⟨r, b⟩) s = .next t ∧
      (b.latLo.toNat - 1, fld (b.words.getD 0 0) 45 42, b.tag.toNat / 65536, b.last) ∈ t.dev.cex.progress ∧
      Only [.cex] s t) ∧
  (∀ (r : Arrival) (b : BlobMsg) (s : State), b.wf = true → Arrives r [2] s → b.dest = s.dev.devNum →
    ∃ t, exec (.returnRecord ⟨r, b⟩) s = .next t ∧
      (∀ x ∈ t.dev.cex.forwarded, x.num ≠ fld (b.words.getD 0 0) 31 0))

/-! ### Cameras -/

/-- R131–R133, R139: a head with valid settings starts discovery when it is enabled, or is FENCED while its link group is off; one
with invalid settings is CFG_ERR; it goes OFF when it is disabled; a head in FAULT starts again at RETRY or after 1 s; a lost
link, a failed discovery and a timeout lead to FAULT with their CAUSE; discovery asks every open link, takes the answers, sends
the connection configuration and goes on to LINKED once it is accepted and the links are UP. -/
def Obligations.HeadsAndDiscovery : Prop :=
  (∀ (h : Fin 64) (s : State), s.dev.powered = true → s.dev.headEn h = false → s.dev.headValid h = true →
    (s.dev.planes h).filter (fun p => !s.dev.chmValid p) = [] → s.dev.domOn (5 + s.dev.headGroup h) = true →
    ∃ t, exec (.headEnable h true) s = .next t ∧ t.dev.headEn h = true ∧ t.dev.headState h = .linking ∧
      (t.dev.head h).phase = .reading ∧ (t.dev.head h).discStart = s.dev.now) ∧
  (∀ (h : Fin 64) (s : State), s.dev.powered = true → s.dev.headEn h = false → s.dev.headValid h = true →
    (s.dev.planes h).filter (fun p => !s.dev.chmValid p) = [] → s.dev.domOn (5 + s.dev.headGroup h) = false →
    ∃ t, exec (.headEnable h true) s = .next t ∧ t.dev.headEn h = true ∧ t.dev.headState h = .fenced ∧
      t.dev.rdF .cxiHdhStat h 15 12 = 6) ∧
  (∀ (h : Fin 64) (s : State), s.dev.powered = true → s.dev.headEn h = false → s.dev.headValid h = false →
    ∃ t, exec (.headEnable h true) s = .next t ∧ t.dev.headEn h = false ∧ t.dev.rdB .cxiHdhCfg h 2 = true ∧
      RegsOnly [regKey .cxiHdhCfg h] s t ∧ Only [.regs, .evc, .wev] s t) ∧
  (∀ (h : Fin 64) (s : State), s.dev.powered = true → s.dev.headEn h = true →
    ∃ t, exec (.headEnable h false) s = .next t ∧ t.dev.headEn h = false ∧ t.dev.headState h = .off) ∧
  (∀ (h : Fin 64) (en : Bool) (s : State), s.dev.powered = true → s.dev.headEn h = en →
    exec (.headEnable h en) s = .next s) ∧
  (∀ (h : Fin 64) (s : State), s.dev.powered = true → s.dev.headState h = .fault →
    ∃ t, exec (.retry h) s = .next t ∧ t.dev.headState h = .linking ∧ (t.dev.head h).phase = .reading ∧
      (t.dev.head h).discStart = s.dev.now ∧
      (∀ k : Fin 64, k ≠ h → t.dev.head k = s.dev.head k) ∧ Only [.regs, .cxi, .evc, .wev] s t) ∧
  (∀ (h : Fin 64) (s : State), s.dev.powered = true → s.dev.headState h = .fault →
    1000000000 ≤ elapsed s.dev.now (s.dev.head h).faultAt →
    ∃ t, exec (.headFaultRetry h) s = .next t ∧ t.dev.headState h = .linking ∧ (t.dev.head h).phase = .reading ∧
      (t.dev.head h).discStart = s.dev.now ∧
      (∀ k : Fin 64, k ≠ h → t.dev.head k = s.dev.head k) ∧ Only [.regs, .cxi, .evc, .wev] s t) ∧
  (∀ (h l : Fin 64) (s : State), s.dev.powered = true → s.dev.headUp h = true → l.val ∈ s.dev.headLinks h →
    s.dev.linkState l = 0 → 100000000 ≤ elapsed s.dev.now (s.dev.link l).downAt →
    ∃ t, exec (.headLinkLoss h) s = .next t ∧ t.dev.headState h = .fault ∧ t.dev.rdF .cxiHdhStat h 15 12 = 5 ∧
      (t.dev.head h).faultAt = s.dev.now) ∧
  (∀ (l : Fin 64) (s : State), s.dev.powered = true →
    ∃ t, exec (.cxpLinkChange l true) s = .next t ∧ t.dev.linkState l = 2) ∧
  (∀ (l h : Fin 64) (s : State), s.dev.powered = true → s.dev.headOfLink l = some h.val → s.dev.headState h = .linking →
    (s.dev.head h).phase = .retraining → (s.dev.headLinks h).all (fun k => k = l.val || s.dev.linkState k = 2) = true →
    ∃ t, exec (.cxpLinkChange l true) s = .next t ∧
      t.dev.headState h = (if s.dev.inService then .run else .linked)) ∧
  (∀ (l : Fin 64) (s : State), s.dev.powered = true → s.dev.linkState l ≠ 0 →
    ∃ t, exec (.cxpLinkChange l false) s = .next t ∧ t.dev.linkState l = 0 ∧ (t.dev.link l).downAt = s.dev.now) ∧
  (∀ (h : Fin 64) (s : State), s.dev.powered = true → (s.dev.headLinks h).filter (s.dev.reading h) ≠ [] →
    (s.dev.head h).polledAt.all (fun u => decide (100000000 ≤ elapsed s.dev.now u)) = true →
    ∃ t, exec (.discoveryPoll h) s = .next t ∧
      t.dev.outbox = s.dev.outbox ++ ((s.dev.headLinks h).filter (s.dev.reading h)).map (fun l => .cxp l .discoveryRead) ∧
      t.dev.head h = { s.dev.head h with polledAt := some s.dev.now } ∧ Only [.cxi, .outbox] s t) ∧
  (∀ (l h k : Fin 64) (v conn cam : Nat) (s : State), s.dev.powered = true → s.dev.headOfLink l = some h.val →
    s.dev.reading h l = true → 2 * 256 ≤ v → k.val ∈ s.dev.headLinks h → k ≠ l → (s.dev.link k).answer = none →
    ∃ t, exec (.discoveryAnswer (.read l v conn cam)) s = .next t ∧ (t.dev.link l).answer = some (v, conn, cam) ∧
      t.dev.rdF .cxiLklStat l 15 12 = conn % 16 ∧ (t.dev.head h).phase = .reading ∧ (t.dev.head h).version = v ∧
      RegsOnly [regKey .cxiLklStat l] s t ∧ Only [.regs, .cxi] s t) ∧
  (∀ (l h : Fin 64) (v conn cam : Nat) (s : State), s.dev.powered = true → s.dev.headOfLink l = some h.val →
    s.dev.reading h l = true → 2 * 256 ≤ v → s.dev.headLinks h = [l.val] →
    ∃ t, exec (.discoveryAnswer (.read l v conn cam)) s = .next t ∧
      (conn = 0 → (t.dev.head h).phase = .configuring ∧ t.dev.outbox = s.dev.outbox ++
        [.cxp (s.dev.rdF .cxiHdhCfg h 21 16) (.connConfig 1 (s.dev.rdF .cxiHdhCfg h 13 11) 16384)]) ∧
      (conn ≠ 0 → t.dev.headState h = .fault ∧ t.dev.rdF .cxiHdhStat h 15 12 = 3)) ∧
  (∀ (l h : Fin 64) (v conn cam : Nat) (s : State), s.dev.powered = true → s.dev.headOfLink l = some h.val →
    s.dev.reading h l = true → v < 2 * 256 →
    ∃ t, exec (.discoveryAnswer (.read l v conn cam)) s = .next t ∧ t.dev.headState h = .fault ∧
      t.dev.rdF .cxiHdhStat h 15 12 = 2 ∧ t.dev.linkState l = 3) ∧
  (∀ (h : Fin 64) (s : State), s.dev.powered = true → s.dev.headState h = .linking → (s.dev.head h).phase = .configuring →
    ∃ t, exec (.discoveryAnswer (.config h true)) s = .next t ∧ (t.dev.head h).phase = .retraining ∧
      t.dev.headState h = (if s.dev.linksUp h then (if s.dev.inService then .run else .linked) else .linking)) ∧
  (∀ (h : Fin 64) (s : State), s.dev.powered = true → s.dev.headState h = .linking → (s.dev.head h).phase = .configuring →
    ∃ t, exec (.discoveryAnswer (.config h false)) s = .next t ∧ t.dev.headState h = .fault ∧
      t.dev.rdF .cxiHdhStat h 15 12 = 4 ∧ Only [.regs, .cxi, .evc, .wev] s t) ∧
  (∀ (h l : Fin 64) (s : State), s.dev.powered = true → l.val ∈ s.dev.headLinks h → s.dev.reading h l = true →
    10000000000 ≤ elapsed s.dev.now (s.dev.head h).discStart →
    (s.dev.rdB .cxiLklCfg l 1 = false ∨ 10000000000 ≤ elapsed s.dev.now (s.dev.link l).onAt) →
    ∃ t, exec (.discoveryTimeout h) s = .next t ∧ t.dev.headState h = .fault ∧ t.dev.rdF .cxiHdhStat h 15 12 = 1 ∧
      (t.dev.head h).faultAt = s.dev.now ∧ Only [.regs, .cxi, .evc, .wev] s t)

/-- R136–R138: supervision of a PoCXP supply. PCX_EN starts INRUSH; SHORT, OVERCURRENT and OPEN turn the switch off, each in the
windows it is judged in; 500 ms after assertion the link is powered; a failed link tries again after its time, and RETRY leaves
LOCKOUT; a fault of the group with no link at SHORT_MA is counted. -/
def Obligations.PoCxpSupervision : Prop :=
  (∀ (l : Fin 64) (s : State), s.dev.powered = true → s.dev.rdB .cxiLklCfg l 1 = false → s.dev.pcxState l = 6 →
    ∃ t, exec (.pcxEnable l) s = .next t ∧ t.dev.rdB .cxiLklCfg l 1 = true ∧ t.dev.pcxState l = 6 ∧
      RegsOnly [regKey .cxiLklCfg l] s t ∧ Only [.regs] s t) ∧
  (∀ (l : Fin 64) (s : State), s.dev.powered = true → s.dev.rdB .cxiLklCfg l 1 = false → s.dev.pcxState l ≠ 6 →
    ∃ t, exec (.pcxEnable l) s = .next t ∧ t.dev.rdB .cxiLklCfg l 1 = true ∧ t.dev.pcxState l = 1 ∧
      (t.dev.link l).pcxFails = 0 ∧ (t.dev.link l).pcxAt = s.dev.now ∧
      RegsOnly [regKey .cxiLklCfg l, regKey .cxiLklStat l] s t ∧ Only [.regs, .cxi, .evc, .wev] s t) ∧
  (∀ (l : Fin 64) (ma : Nat) (fltLow held : Bool) (s : State), s.dev.powered = true → s.dev.pcxState l = 1 →
    elapsed s.dev.now (s.dev.link l).pcxAt ≤ 2000000 → s.dev.rdF .cxiLklPcxLim l 35 24 ≤ ma →
    (fltLow = true ∨ held = true) →
    ∃ t, exec (.pcxShort l ma fltLow held) s = .next t ∧
      t.dev.pcxState l = (if 2 ≤ (s.dev.link l).pcxFails then 6 else 4) ∧
      (t.dev.link l).pcxFails = (s.dev.link l).pcxFails + 1 ∧ t.dev.rdF .cxiLklPcx l 11 0 = ma % 4096 ∧
      RegsOnly [regKey .cxiLklPcx l, regKey .cxiLklStat l] s t ∧ Only [.regs, .cxi, .evc, .wev] s t) ∧
  (∀ (l : Fin 64) (ma : Nat) (s : State), s.dev.powered = true →
    (s.dev.pcxState l = 2 ∨ (s.dev.pcxState l = 1 ∧ 2000000 ≤ elapsed s.dev.now (s.dev.link l).pcxAt)) →
    s.dev.rdF .cxiLklPcxLim l 23 12 < ma →
    ∃ t, exec (.pcxOvercurrent l ma) s = .next t ∧
      t.dev.pcxState l = (if 2 ≤ (s.dev.link l).pcxFails then 6 else 5) ∧
      (t.dev.link l).pcxFails = (s.dev.link l).pcxFails + 1 ∧ (t.dev.link l).pcxFailAt = s.dev.now ∧
      RegsOnly [regKey .cxiLklPcx l, regKey .cxiLklStat l] s t ∧ Only [.regs, .cxi, .evc, .wev] s t) ∧
  (∀ (l : Fin 64) (ma : Nat) (s : State), s.dev.powered = true →
    (s.dev.pcxState l = 2 ∨ (s.dev.pcxState l = 1 ∧ 500000000 ≤ elapsed s.dev.now (s.dev.link l).pcxAt)) →
    ma < s.dev.rdF .cxiLklPcxLim l 11 0 →
    ∃ t, exec (.pcxOpen l ma) s = .next t ∧ t.dev.pcxState l = 3 ∧ (t.dev.link l).pcxFailAt = s.dev.now ∧
      RegsOnly [regKey .cxiLklPcx l, regKey .cxiLklStat l] s t ∧ Only [.regs, .cxi, .evc, .wev] s t) ∧
  (∀ (l : Fin 64) (s : State), s.dev.powered = true → s.dev.pcxState l = 1 →
    500000000 ≤ elapsed s.dev.now (s.dev.link l).pcxAt →
    ∃ t, exec (.pcxOn l) s = .next t ∧ t.dev.pcxState l = 2 ∧ (t.dev.link l).pcxFails = 0 ∧
      (t.dev.link l).onAt = s.dev.now ∧ RegsOnly [regKey .cxiLklStat l] s t ∧ Only [.regs, .cxi, .evc, .wev] s t) ∧
  (∀ (l : Fin 64) (s : State), s.dev.powered = true →
    ((s.dev.pcxState l = 4 ∨ s.dev.pcxState l = 5) ∧ 1000000000 ≤ elapsed s.dev.now (s.dev.link l).pcxFailAt) ∨
      (s.dev.pcxState l = 3 ∧ 2000000000 ≤ elapsed s.dev.now (s.dev.link l).pcxFailAt) →
    ∃ t, exec (.pcxAutoRetry l) s = .next t ∧ t.dev.pcxState l = 1 ∧ (t.dev.link l).pcxAt = s.dev.now ∧
      RegsOnly [regKey .cxiLklStat l] s t ∧ Only [.regs, .cxi, .evc, .wev] s t) ∧
  (∀ (l : Fin 64) (s : State), s.dev.powered = true → s.dev.pcxState l = 6 → s.dev.rdB .cxiLklCfg l 1 = false →
    ∃ t, exec (.pcxRetry l) s = .next t ∧ t.dev.pcxState l = 0 ∧ (t.dev.link l).pcxFails = 0 ∧
      RegsOnly [regKey .cxiLklStat l] s t ∧ Only [.regs, .cxi, .evc, .wev] s t) ∧
  (∀ (l : Fin 64) (s : State), s.dev.powered = true → s.dev.pcxState l = 6 → s.dev.rdB .cxiLklCfg l 1 = true →
    ∃ t, exec (.pcxRetry l) s = .next t ∧ t.dev.pcxState l = 1 ∧ (t.dev.link l).pcxFails = 0 ∧
      (t.dev.link l).pcxAt = s.dev.now ∧ RegsOnly [regKey .cxiLklStat l] s t ∧ Only [.regs, .cxi, .evc, .wev] s t) ∧
  (∀ (g : Fin 4) (s : State), s.dev.powered = true → (∀ i : Fin 16, s.dev.rdF .cxiLklPcx (16 * g + i) 11 0 <
      s.dev.rdF .cxiLklPcxLim (16 * g + i) 35 24) →
    ∃ t, exec (.pcxFltAssert g) s = .next t ∧
      t.dev.rdF .cxiGrpgStat g 31 16 = min (s.dev.rdF .cxiGrpgStat g 31 16 + 1) 65535 ∧
      RegsOnly [regKey .cxiGrpgStat g] s t ∧ Only [.regs] s t)

/-- R143–R146, R287: heartbeats leave on the first link of each head in LINKED or RUN; a control request is sent or refused,
answered, resent after a bad acknowledgement and given up in time; an event packet is stored in its entry and acknowledged, and
withheld while the FIFO is full. -/
def Obligations.Upconnection : Prop :=
  (∀ (s : State), s.dev.powered = true → s.dev.rdF .cxiCtl 0 7 0 ≠ 0 →
    s.dev.rdF .cxiCtl 0 7 0 * 1000000 ≤ elapsed s.dev.now s.dev.cxi.lastHb →
    ∃ t, exec .heartbeat s = .next t ∧ t.dev.cxi = { s.dev.cxi with lastHb := s.dev.now } ∧
      t.dev.outbox = s.dev.outbox ++ ((List.range 64).filter s.dev.headUp).map (fun h =>
        .cxp (s.dev.rdF .cxiHdhCfg h 21 16) (.heartbeat s.dev.now)) ∧ Only [.cxi, .outbox] s t) ∧
  (∀ (h : Fin 64) (r : ControlReq) (s : State), s.dev.powered = true → (s.dev.head h).ctrl = none → s.dev.headUp h = true →
    r.write = false →
    ∃ t, exec (.controlRequest h r) s = .next t ∧
      t.dev.head h = { s.dev.head h with ctrl := some { req := r, sent := s.dev.now }, resp := none } ∧
      t.dev.outbox = s.dev.outbox ++ [.cxp (s.dev.rdF .cxiHdhCfg h 21 16) (.control r)] ∧
      (∀ k : Fin 64, k ≠ h → t.dev.head k = s.dev.head k) ∧ Only [.cxi, .outbox] s t) ∧
  (∀ (h : Fin 64) (r : ControlReq) (s : State), s.dev.powered = true → (s.dev.head h).ctrl = none → s.dev.headUp h = true →
    r.write = true →
    ∃ t, exec (.controlRequest h r) s = .next t ∧
      (if (List.range r.data.length).any (fun i => Config.managedRegister (r.addr + i)) then
        (t.dev.head h).resp = some { status := 0x10, sub := 4, ack := 0, data := [] } ∧ Only [.cxi, .evc, .wev] s t
      else
        t.dev.head h = { s.dev.head h with ctrl := some { req := r, sent := s.dev.now }, resp := none } ∧
          t.dev.outbox = s.dev.outbox ++ [.cxp (s.dev.rdF .cxiHdhCfg h 21 16) (.control r)] ∧ Only [.cxi, .outbox] s t) ∧
      (∀ k : Fin 64, k ≠ h → t.dev.head k = s.dev.head k)) ∧
  (∀ (h : Fin 64) (r : ControlReq) (s : State), s.dev.powered = true → (s.dev.head h).ctrl = none →
    s.dev.headUp h = false →
    ∃ t, exec (.controlRequest h r) s = .next t ∧
      (t.dev.head h).resp = some { status := 0x30, sub := 2, ack := 0, data := [] } ∧
      (∀ k : Fin 64, k ≠ h → t.dev.head k = s.dev.head k) ∧ Only [.cxi, .evc, .wev] s t) ∧
  (∀ (h : Fin 64) (r : ControlReq) (s : State), s.dev.powered = true → (s.dev.head h).ctrl ≠ none →
    exec (.controlRequest h r) s = .next s) ∧
  (∀ (h : Fin 64) (code : Nat) (data : List (BitVec 8)) (c : CtrlReq) (s : State), s.dev.powered = true →
    (s.dev.head h).ctrl = some c →
    ∃ t, exec (.controlAck h true code data) s = .next t ∧
      t.dev.head h = { s.dev.head h with ctrl := none, resp := some { status := 0, sub := 0, ack := code, data := data } } ∧
      (∀ k : Fin 64, k ≠ h → t.dev.head k = s.dev.head k) ∧ Only [.cxi, .evc, .wev] s t) ∧
  (∀ (h : Fin 64) (code : Nat) (data : List (BitVec 8)) (c : CtrlReq) (s : State), s.dev.powered = true →
    (s.dev.head h).ctrl = some c → c.resends < 3 →
    ∃ t, exec (.controlAck h false code data) s = .next t ∧
      (t.dev.head h).ctrl = some { c with resends := c.resends + 1, sent := s.dev.now } ∧
      t.dev.outbox = s.dev.outbox ++ [.cxp (s.dev.rdF .cxiHdhCfg h 21 16) (.control c.req)] ∧
      (∀ k : Fin 64, k ≠ h → t.dev.head k = s.dev.head k) ∧ Only [.cxi, .outbox] s t) ∧
  (∀ (h : Fin 64) (code : Nat) (data : List (BitVec 8)) (c : CtrlReq) (s : State), s.dev.powered = true →
    (s.dev.head h).ctrl = some c → 3 ≤ c.resends →
    ∃ t, exec (.controlAck h false code data) s = .next t ∧
      t.dev.head h = { s.dev.head h with ctrl := none, resp := some { status := 0x30, sub := 3, ack := 0, data := [] } } ∧
      (∀ k : Fin 64, k ≠ h → t.dev.head k = s.dev.head k) ∧ Only [.cxi, .evc, .wev] s t) ∧
  (∀ (h : Fin 64) (c : CtrlReq) (s : State), s.dev.powered = true → (s.dev.head h).ctrl = some c →
    (s.dev.head h).timeoutMs * 1000000 ≤ elapsed s.dev.now c.sent →
    ∃ t, exec (.controlTimeout h) s = .next t ∧
      t.dev.head h = { s.dev.head h with ctrl := none, resp := some { status := 0x30, sub := 1, ack := 0, data := [] } } ∧
      (∀ k : Fin 64, k ≠ h → t.dev.head k = s.dev.head k) ∧ Only [.cxi, .evc, .wev] s t) ∧
  (∀ (h : Fin 64) (payload : List (BitVec 8)) (n : Nat) (s : State), s.dev.powered = true →
    (s.dev.head h).msgs.length < 16 → s.dev.headState h ≠ .off → s.dev.headState h ≠ .fenced → s.dev.headState h ≠ .plane →
    n = (s.dev.head h).nextMsg % 16 → s.dev.rdB .edcInjCtl 0 8 = false → memWf MemWord.blank s.dev.sram = true →
    ∃ t, exec (.eventPacket h payload) s = .next t ∧
      (t.dev.head h).msgs = (s.dev.head h).msgs ++ [⟨n, min 1020 payload.length, decide (1020 < payload.length)⟩] ∧
      t.dev.cell (msgAddr h n) = goodWord (wordOf (2 ^ 40 + (if 1020 < payload.length then 2 ^ 39 else 0) +
        min 1020 payload.length)) ∧
      (∀ i : Fin 170, i.val < (min 1020 payload.length + 5) / 6 → t.dev.cell (msgAddr h n + 1 + i) =
        goodWord ((wordsOfBytes ((min 1020 payload.length + 5) / 6) (payload.take 1020)).getD i 0)) ∧
      t.dev.outbox = s.dev.outbox ++ [.cxp (s.dev.rdF .cxiHdhCfg h 21 16) .eventAck] ∧
      SramOnly (msgAddr h n) 171 s t ∧
      (∀ k : Fin 64, k ≠ h → t.dev.head k = s.dev.head k) ∧ Only [.cxi, .outbox, .sram, .evc, .wev] s t) ∧
  (∀ (h : Fin 64) (payload : List (BitVec 8)) (s : State), s.dev.powered = true →
    16 ≤ (s.dev.head h).msgs.length ∨ s.dev.headState h = .off ∨ s.dev.headState h = .fenced ∨ s.dev.headState h = .plane →
    exec (.eventPacket h payload) s = .next s)

/-- R135, R147, R150–R155, R160, R161, R234, R245: a line marker pairs with the oldest record of sufficient age and is EXTRA
without one; a packet whose tag comes early is held, and a missing tag is given up after 2 µs; a record unpaired for LAT_MAX is a
LOST line; Chamois starts and ends the lines of a head in order; a seam that waits too long is missed; the credits of the oldest
finished line return. -/
def Obligations.LinesThroughStaging : Prop :=
  (∀ (l h : Fin 64) (p : StreamPacket) (r : TrigRecord) (rest : List TrigRecord) (s : State), s.dev.powered = true →
    s.dev.domOn (5 + l / 16) = true → s.dev.headOfLink l = some h.val → p.crcOk = true → p.violations = 0 →
    p.items = [.lineMarker] → (s.dev.head h).nextTag.getD p.tag = p.tag → (s.dev.head h).held = [] →
    s.dev.headState h = .run → (s.dev.head h).cur = none → (s.dev.head h).later = none → (s.dev.head h).imageBad = false →
    (s.dev.head h).records = r :: rest → s.dev.headRgb h = false → elapsed s.dev.now r.time < s.dev.rdF .cxiHdhLat h 47 24 →
    atOrPast s.dev.now (r.time + wordOf (s.dev.rdF .cxiHdhLat h 23 0)) = true →
    ∃ t, exec (.streamPacket l p) s = .next t ∧ t.dev.rd .cxiHdhLast h = r.line ∧
      t.dev.rd .cxiHdhLines h = s.dev.rd .cxiHdhLines h + 1 ∧ (t.dev.head h).records = rest ∧
      (t.dev.head h).nextTag = some (p.tag + 1) ∧
      (∃ x ∈ (t.dev.head h).lines.getLast?, (t.dev.head h).lines = (s.dev.head h).lines ++ [x] ∧ x.line = r.line ∧
        x.pos = r.pos ∧ x.fire = r.time ∧ x.lost = false ∧ x.ended = false) ∧
      RegsOnly [regKey .cxiHdhLast h, regKey .cxiHdhLines h, regKey .cxiHdhRecq h, regKey .cxiHdhStat h] s t ∧
      Only [.regs, .cxi] s t) ∧
  (∀ (l h : Fin 64) (p : StreamPacket) (s : State), s.dev.powered = true → s.dev.domOn (5 + l / 16) = true →
    s.dev.headOfLink l = some h.val → p.crcOk = true → p.violations = 0 → p.items = [.lineMarker] →
    (s.dev.head h).nextTag.getD p.tag = p.tag → (s.dev.head h).held = [] → (s.dev.head h).cur = none →
    s.dev.headState h ≠ .run ∨ ((s.dev.head h).later = none ∧ (s.dev.head h).records = []) →
    ∃ t, exec (.streamPacket l p) s = .next t ∧ (t.dev.head h).discard = true ∧ (t.dev.head h).cur = none ∧
      t.dev.rdF .cxiHdhLoss h 47 32 = min (s.dev.rdF .cxiHdhLoss h 47 32 + 1) (2 ^ 16 - 1) ∧
      (t.dev.head h).lines = (s.dev.head h).lines ∧ Only [.regs, .cxi, .evc, .wev] s t) ∧
  (∀ (l h : Fin 64) (p : StreamPacket) (g : BitVec 8) (s : State), s.dev.powered = true → s.dev.domOn (5 + l / 16) = true →
    s.dev.headOfLink l = some h.val → p.crcOk = true → p.violations = 0 → (s.dev.head h).nextTag = some g → p.tag ≠ g →
    (s.dev.head h).held = [] →
    ∃ t, exec (.streamPacket l p) s = .next t ∧ t.dev.head h = { s.dev.head h with held := [(p, l.val, s.dev.now)] } ∧
      Only [.cxi] s t) ∧
  (∀ (h : Fin 64) (g : BitVec 8) (p : StreamPacket) (l : Nat) (u : Word) (s : State), s.dev.powered = true →
    (s.dev.head h).nextTag = some g → (s.dev.head h).held = [(p, l, u)] → p.tag ≠ g → p.items = [] → p.crcOk = true →
    2000 ≤ elapsed s.dev.now u →
    ∃ t, exec (.gapTimeout h) s = .next t ∧ (t.dev.head h).held = [] ∧ (t.dev.head h).nextTag = some (p.tag + 1) ∧
      (t.dev.head h).cur = none ∧ (t.dev.head h).discard = true) ∧
  (∀ (h : Fin 64) (r : TrigRecord) (s : State), s.dev.powered = true → (s.dev.head h).records = [r] →
    s.dev.rdF .cxiHdhLat h 47 24 ≤ elapsed s.dev.now r.time →
    ∃ t, exec (.lineLostTimeout h) s = .next t ∧ (t.dev.head h).records = [] ∧
      t.dev.rdF .cxiHdhLoss h 15 0 = min (s.dev.rdF .cxiHdhLoss h 15 0 + 1) 65535 ∧
      (∃ x ∈ (t.dev.head h).lines, x.line = r.line ∧ x.lost = true ∧ x.cause = 1) ∧
      Only [.regs, .cxi, .evc, .wev] s t) ∧
  (∀ (h : Fin 64) (l : StgLine) (rest : List StgLine) (s : State), s.dev.powered = true → (s.dev.head h).lines = l :: rest →
    l.started = false →
    (l.ended = true ∨ (l.fallback = false ∧ s.dev.cutPixels h ≤ l.pixels ∧ 0 < l.pixels)) →
    ∃ t, exec (.chamoisLineStart h) s = .next t ∧ (t.dev.head h).lines = { l with started := true } :: rest ∧
      (∀ k : Fin 64, k ≠ h → t.dev.head k = s.dev.head k) ∧ Only [.cxi] s t) ∧
  (∀ (h : Fin 64) (l : StgLine) (s : State), s.dev.powered = true →
    (s.dev.head h).lines.find? (fun x => !x.done) = some l → l.started = true → l.ended = true →
    ∃ t, exec (.chamoisLineEnd h) s = .next t ∧
      (∀ x ∈ (t.dev.head h).lines, x.line = l.line → x.started = true → x.done = true) ∧
      (t.dev.chmHead h).last = some l.line ∧ (t.dev.chmHead h).count = (s.dev.chmHead h).count + 1) ∧
  (∀ (h : Fin 64) (c : ChmLine) (s : State), s.dev.powered = true → (s.dev.chmHead h).waiting = [c] → c.rightOpen = true →
    c.leftOpen = false → fld (s.dev.rdAt .chmHdhCfg h c.src.fire) 39 24 * 1000 ≤ elapsed s.dev.now c.endedAt →
    ∃ t, exec (.seamTimeout h) s = .next t ∧ (t.dev.chmHead h).waiting = [] ∧
      t.dev.rdF .chmHdhSeamMiss h 31 0 = min (s.dev.rdF .chmHdhSeamMiss h 31 0 + 1) (2 ^ 32 - 1)) ∧
  (∀ (h : Fin 64) (l : StgLine) (rest : List StgLine) (s : State), s.dev.powered = true → (s.dev.head h).lines = l :: rest →
    l.done = true → (∀ c ∈ (s.dev.chmHead h).waiting, c.src.line ≠ l.line) →
    (∀ b ∈ (s.dev.lb h).done, b.raw.contains l.line = false) →
    (s.dev.tpbr h = 0 ∨ ∀ b ∈ (s.dev.lb h).cur, b.lines.any (fun y => y.line = l.line) = false) →
    ∃ t, exec (.creditReturn h) s = .next t ∧ (t.dev.head h).lines = rest ∧
      (∀ k : Fin 64, k ≠ h → t.dev.head k = s.dev.head k) ∧ Only [.cxi] s t)

/-! ### The look-back, references and retro jobs -/

/-- R182, R183, R187, R189, R202, R203, R208, R214, R233: a complete band becomes the newest held, with its directory entry; a
claim set behind the horizon is LOST at once; a layout is made unless RELAYOUT finds a head running, each enabled head with its
share; a query enters service while fewer than 64 are served, is resolved when END is held or its wait ends, and joins the queue
from 6300h, which takes one at a time. -/
def Obligations.BandsClaimsQueries : Prop :=
  (∀ (h : Fin 64) (b : BandDone) (rest : List BandDone) (s : State), s.dev.powered = true → (s.dev.lb h).done = b :: rest →
    s.dev.runningJob = none →
    ∃ t, exec (.bandComplete h) s = .next t ∧ t.dev.rd .tfbLbhNewSeq h = wordOf b.s ∧
      t.dev.rd .tfbLbhNewEnd h = b.lastPos ∧ (t.dev.lb h).held = true ∧ (t.dev.lb h).done = rest ∧
      tget (t.dev.lb h).dirWords 0 (2 * (b.s % s.dev.nb h % 256)) = b.w0 ∧
      tget (t.dev.lb h).dirWords 0 (2 * (b.s % s.dev.nb h % 256) + 1) = b.w1) ∧
  (∀ (h : Fin 64) (b : BandDone) (rest : List BandDone) (s : State), s.dev.powered = true → (s.dev.lb h).done = b :: rest →
    s.dev.runningJob = none → s.dev.headRuns h = true → (s.dev.lb h).dirIndex = some (b.s % s.dev.nb h / 256) →
    b.s % s.dev.nb h % 256 ≠ 255 →
    ∃ t, exec (.bandComplete h) s = .next t ∧
      RegsOnly [regKey .tfbLbhNewSeq h, regKey .tfbLbhNewEnd h, regKey .tfbLbhHeld h] s t ∧ Only [.regs, .tfb] s t) ∧
  (∀ (k : Fin 128) (v : Word) (s : State), s.dev.powered = true → bit v 47 = true →
    (bit (s.dev.rd .tfbClmk k) 46 = false ∨ bit v 46 = true ∨ bit (s.dev.rd .tfbClmk k) 47 = false ∨
      fld (s.dev.rd .tfbClmk k) 39 0 ≠ fld v 39 0 ∨ fld (s.dev.rd .tfbClmk k) 45 40 ≠ fld v 45 40) →
    s.dev.hasRing (fld v 45 40) = true →
    seqBehind (fld v 39 0) (s.dev.hznSeq (fld v 45 40)) = true →
    ∃ t, exec (.claimWrite k v) s = .next t ∧ t.dev.rdB .tfbClmk k 46 = true ∧
      t.dev.rd .tfbClmkHzn k = s.dev.hznPos (fld v 45 40) ∧ t.dev.rdB .tfbLbhStat (fld v 45 40) 2 = true ∧
      Only [.regs, .tfb, .evc, .wev] s t) ∧
  (∀ (k : Fin 128) (v : Word) (s : State), s.dev.powered = true →
    bit v 47 = false ∨ s.dev.hasRing (fld v 45 40) = false ∨ seqBehind (fld v 39 0) (s.dev.hznSeq (fld v 45 40)) = false →
    ∃ t, exec (.claimWrite k v) s = .next t ∧
      t.dev.rd .tfbClmk k = setBit v 46 (bit (s.dev.rd .tfbClmk k) 46 && !bit v 46) ∧
      RegsOnly [regKey .tfbClmk k] s t ∧ Only [.regs] s t) ∧
  (∀ (s : State), s.dev.powered = true → s.dev.anyRunning = true →
    ∃ t, exec .relayout s = .next t ∧ t.dev.rdB .tfbLbStat 0 1 = true ∧ RegsOnly [regKey .tfbLbStat 0] s t ∧
      Only [.regs] s t) ∧
  (∀ (s : State), s.dev.powered = true → s.dev.anyRunning = false → s.dev.domOn 22 = true →
    ∃ t, exec .relayout s = .next t ∧ t.dev.rdB .tfbLbStat 0 0 = true ∧ t.dev.tfb.laidOut = true ∧
      t.dev.rdF .tfbLbStat 0 15 8 = (s.dev.rdF .tfbLbStat 0 15 8 + 1) % 256) ∧
  (∀ (s : State), s.dev.powered = true → s.dev.domOn 22 = true →
    ∃ t, exec .fullLayout s = .next t ∧ t.dev.rdB .tfbLbStat 0 0 = true ∧ t.dev.tfb.laidOut = true ∧
      t.dev.rdF .tfbLbStat 0 15 8 = (s.dev.rdF .tfbLbStat 0 15 8 + 1) % 256 ∧
      t.dev.rd .tfbLbRefTiles 0 = wordOf (4096 * s.dev.rdF .tfbLbCtl 0 15 0) ∧
      (∀ h : Fin 64, s.dev.lbEnabled h = false → t.dev.hasRing h = false) ∧
      (∀ h : Fin 64, s.dev.lbEnabled h = true → t.dev.rd .tfbLbhNb h =
        wordOf (256 * s.dev.layoutShare h (12582912 * s.dev.stacksInUse.length - 4096 * s.dev.rdF .tfbLbCtl 0 15 0))) ∧
      (∀ h : Fin 64, (t.dev.lb h).cur = none ∧ (t.dev.lb h).done = [] ∧ (t.dev.lb h).nextS = 0 ∧
        (t.dev.lb h).held = false)) ∧
  (∀ (s : State), s.dev.domOn 22 = false → exec .fullLayout s = .next s) ∧
  (∀ (q : Query) (s : State), s.dev.powered = true → (s.dev.tfb.queries.filter (·.service)).length < 64 →
    s.dev.tfb.queries.find? (fun x => !x.service) = some q →
    ∃ t, exec .queryDequeue s = .next t ∧ t.dev.tfb.queries.any (fun x => decide (x.id = q.id) && x.service) = true) ∧
  (∀ (q : Query) (r : Nat × Nat) (s : State), s.dev.powered = true → (s.dev.tfb.queries.filter (·.service)).length < 64 →
    s.dev.tfb.queries.find? (fun x => !x.service) = some q → s.dev.qRefusal (qdesc q.words) = some r →
    ∃ t, exec .queryDequeue s = .next t ∧
      (∀ x ∈ t.dev.tfb.queries, x.id = q.id → x.resolved = true ∧ x.refused = some r) ∧ Only [.tfb, .tmv] s t) ∧
  (∀ (s : State), 64 ≤ (s.dev.tfb.queries.filter (·.service)).length ∨ s.dev.tfb.queries.all (·.service) = true →
    exec .queryDequeue s = .next s) ∧
  (∀ (n : Nat) (q : Query) (s : State), s.dev.query n = some q → q.waiting = none ∨ s.dev.qEndHeld (qdesc q.words) = false →
    exec (.queryEndHeld n) s = .next s) ∧
  (∀ (n : Nat) (q : Query) (s : State), s.dev.powered = true → s.dev.query n = some q → q.waiting.isSome = true →
    s.dev.qEndHeld (qdesc q.words) = true →
    ∃ t, exec (.queryEndHeld n) s = .next t ∧ (∀ x ∈ t.dev.tfb.queries, x.id = n → x.resolved = true)) ∧
  (∀ (n : Nat) (q : Query) (u : Word) (s : State), s.dev.powered = true → s.dev.query n = some q → q.waiting = some u →
    (qdesc q.words).waitUs ≠ 0 → (qdesc q.words).waitUs * 1000 ≤ elapsed s.dev.now u →
    ∃ t, exec (.queryWaitTimeout n) s = .next t ∧
      (∀ x ∈ t.dev.tfb.queries, x.id = n → x.resolved = true ∧ x.timedOut = true)) ∧
  (∀ (ws : List Word) (s : State), ws.length = 6 → s.dev.powered = true → s.dev.tfb.dictState = 1 →
    ∃ t, exec (.queryDescriptor ws) s = .next t ∧ t.dev.reply = (0x38, 0x39) ∧ Only [.reply] s t) ∧
  (∀ (ws : List Word) (s : State), s.dev.powered = true → ws.length = 6 → s.dev.tfb.dictState ≠ 1 →
    ∃ t, exec (.queryDescriptor ws) s = .next t ∧ t.dev.tfb.dictState = 1 ∧ t.dev.reply = (0, 0) ∧
      t.dev.tfb.queries = s.dev.tfb.queries ++ [{ id := s.dev.tfb.nextQuery, src := .dict, words := ws, cls := 5 }] ∧
      Only [.tfb, .reply] s t)

/-- R216–R218, R221–R223, R226, R254: a reference is defined, sealed once loaded and deleted, and refused where it does not fit,
is in use or has a table tile that fails its checks (R196, R198); a retro job is queued in its slot unless its descriptor is refused or a job waits or runs there, runs when none
runs and its copied sets are valid, is aborted, and completes when its range is extracted. -/
def Obligations.ReferencesAndRetro : Prop :=
  (∀ (r : Nat) (ws : List Word) (s : State), s.dev.powered = true →
    ws.length = 4 → s.dev.domOn 22 = true →
    r < 4096 → fld (ws.getD 1 0) 39 32 ≠ 0 → fld (ws.getD 1 0) 39 32 ≤ 64 → fld (ws.getD 1 0) 31 0 ≠ 0 →
    32 ≤ fld (ws.getD 0 0) 31 0 →
    fld (ws.getD 0 0) 31 0 + fld (ws.getD 1 0) 31 0 * fld (ws.getD 1 0) 39 32 ≤ (s.dev.rd .tfbLbRefTiles).toNat →
    s.dev.refInUse r = false → (s.dev.checkRefs (List.range 32)).1 = 0 →
    memWf Tile.blank (s.dev.checkRefs (List.range 32)).2.hbm = true →
    (∀ k : Fin 4096, (s.dev.checkRefs (List.range 32)).2.refState k = 0 ∨
      (s.dev.checkRefs (List.range 32)).2.refMeets k (fld (ws.getD 0 0) 31 0)
        (fld (ws.getD 1 0) 31 0 * fld (ws.getD 1 0) 39 32) = false) →
    ∃ t, exec (.refDefine r ws) s = .next t ∧ t.dev.refState r = 1 ∧ tget t.dev.tfb.refTiles [0] r = [] ∧
      t.dev.reply = (0, 0)) ∧
  (∀ (r : Nat) (ws : List Word) (s : State), ws.length = 4 → s.dev.powered = true → s.dev.domOn 22 = false →
    ∃ t, exec (.refDefine r ws) s = .next t ∧ t.dev.reply = (0x38, 0) ∧ Only [.reply] s t) ∧
  (∀ (r : Nat) (ws : List Word) (s : State), ws.length = 4 → s.dev.powered = true → s.dev.domOn 22 = true →
    4096 ≤ r ∨ fld (ws.getD 1 0) 39 32 = 0 ∨ 64 < fld (ws.getD 1 0) 39 32 ∨ fld (ws.getD 1 0) 31 0 = 0 ∨
      fld (ws.getD 0 0) 31 0 < 32 ∨
      (s.dev.rd .tfbLbRefTiles).toNat < fld (ws.getD 0 0) 31 0 + fld (ws.getD 1 0) 31 0 * fld (ws.getD 1 0) 39 32 →
    ∃ t, exec (.refDefine r ws) s = .next t ∧ t.dev.reply = (0x21, 0) ∧ Only [.reply] s t) ∧
  (∀ (c : Instr) (r : Nat) (s : State), s.dev.powered = true → r < 4096 → s.dev.refInUse r = true →
    c = .refSeal r ∨ c = .refDelete r →
    ∃ t, exec c s = .next t ∧ t.dev.reply = (0x38, 0) ∧ Only [.reply] s t) ∧
  (∀ (r : Nat) (s : State), s.dev.powered = true → r < 4096 → s.dev.refInUse r = false →
    (s.dev.checkRefs [r / 128]).1 = 0 → (s.dev.checkRefs [r / 128]).2.refState r = 1 →
    (s.dev.checkRefs [r / 128]).2.refBands r * (s.dev.checkRefs [r / 128]).2.refTpb r ≤
      (tget (s.dev.checkRefs [r / 128]).2.tfb.refTiles [] r).length →
    memWf Tile.blank (s.dev.checkRefs [r / 128]).2.hbm = true →
    ∃ t, exec (.refSeal r) s = .next t ∧ t.dev.refState r = 2 ∧ t.dev.reply = (0, 0)) ∧
  (∀ (r : Nat) (s : State), s.dev.powered = true → r < 4096 → s.dev.refInUse r = false →
    (s.dev.checkRefs [r / 128]).1 = 0 → (s.dev.checkRefs [r / 128]).2.refState r = 1 →
    (tget (s.dev.checkRefs [r / 128]).2.tfb.refTiles [] r).length <
      (s.dev.checkRefs [r / 128]).2.refBands r * (s.dev.checkRefs [r / 128]).2.refTpb r →
    ∃ t, exec (.refSeal r) s = .next t ∧ t.dev = { (s.dev.checkRefs [r / 128]).2 with reply := (1, 0) }) ∧
  (∀ (r : Nat) (s : State), s.dev.powered = true → r < 4096 → s.dev.refInUse r = false →
    (s.dev.checkRefs [r / 128]).1 = 0 → memWf Tile.blank (s.dev.checkRefs [r / 128]).2.hbm = true →
    ∃ t, exec (.refDelete r) s = .next t ∧ t.dev.refState r = 0 ∧ t.dev.reply = (0, 0)) ∧
  (∀ (c : Instr) (r : Nat) (s : State), s.dev.powered = true → r < 4096 → s.dev.refInUse r = false →
    (s.dev.checkRefs [r / 128]).1 ≠ 0 → c = .refSeal r ∨ c = .refDelete r →
    ∃ t, exec c s = .next t ∧ t.dev = { (s.dev.checkRefs [r / 128]).2 with
      reply := ((s.dev.checkRefs [r / 128]).1 % 256, (s.dev.checkRefs [r / 128]).1 / 256) }) ∧
  (∀ (j : Fin 16) (ws : List Word) (s : State), s.dev.powered = true →
    ws.length = 6 → (s.dev.job j).st ≠ .queued → (s.dev.job j).st ≠ .running →
    s.dev.retroRefusal ws = none →
    ∃ t, exec (.retroSubmit j ws) s = .next t ∧
      t.dev.job j = { st := .queued, words := ws, order := s.dev.cex.nextOrder } ∧ t.dev.reply = (0, 0) ∧
      (∀ k : Fin 16, k ≠ j → t.dev.job k = s.dev.job k) ∧ Only [.cex, .reply] s t) ∧
  (∀ (j : Fin 16) (ws : List Word) (r : Nat × Nat) (s : State), s.dev.powered = true →
    ws.length = 6 → (s.dev.job j).st ≠ .queued →
    (s.dev.job j).st ≠ .running → s.dev.retroRefusal ws = some r →
    ∃ t, exec (.retroSubmit j ws) s = .next t ∧ t.dev.reply = r ∧ Only [.reply] s t) ∧
  (∀ (j : Fin 16) (ws : List Word) (s : State), ws.length = 6 → s.dev.powered = true →
    (s.dev.job j).st = .queued ∨ (s.dev.job j).st = .running →
    ∃ t, exec (.retroSubmit j ws) s = .next t ∧ t.dev.reply = (0x38, 6) ∧ Only [.reply] s t) ∧
  (∀ (j : Fin 16) (s : State), s.dev.powered = true →
    s.dev.runningJob = none → s.dev.domOn 20 = true → s.dev.nextJob = some j.val →
    (∀ h ∈ s.dev.retroHeads (fld ((s.dev.job j).word 3) 23 0) (fld ((s.dev.job j).word 3) 47 24),
      paramsValid ⟨s.dev.rd .cexPsHdh0 (64 * (s.dev.job j).set + h), s.dev.rd .cexPsHdh1 (64 * (s.dev.job j).set + h),
        s.dev.rd .cexPsHdh2 (64 * (s.dev.job j).set + h), s.dev.rd .cexPsHdh3 (64 * (s.dev.job j).set + h)⟩
        (fun r => decide (s.dev.refState r = 2)) = true) →
    ∃ t, exec .retroJobStart s = .next t ∧ (t.dev.job j).st = .running) ∧
  (∀ (j : Fin 16) (s : State), s.dev.powered = true → (s.dev.job j).st = .queued ∨ (s.dev.job j).st = .running →
    ∃ t, exec (.retroAbort j) s = .next t ∧ (t.dev.job j).st = .done ∧ (t.dev.job j).status = 8 ∧
      (∀ x ∈ t.dev.cex.pieces, x.job ≠ some j.val) ∧ RegsOnly [regKey .cexPieces 0] s t ∧
      Only [.cex, .tfb, .regs, .evc, .wev] s t) ∧
  (∀ (j : Fin 16) (s : State), s.dev.powered = true → (s.dev.job j).st ≠ .queued → (s.dev.job j).st ≠ .running →
    exec (.retroAbort j) s = .next s) ∧
  (∀ (j : Fin 16) (s : State), s.dev.powered = true → s.dev.runningJob = some j.val → (s.dev.job j).todo = [] →
    (s.dev.job j).unstarted = [] → (∀ x ∈ s.dev.cex.pieces, x.job ≠ some j.val) →
    ∃ t, exec .retroJobComplete s = .next t ∧ (t.dev.job j).st = .done ∧
      (t.dev.job j).status = (s.dev.job j).outcome)

/-- R251, R259, R262, R267, R270, R278, R279, R285: CAL_START clears the result and counts from 0, and does nothing for a head
that does not run or a mode that is none; coefficient words are stored, or refused whole past the end; a complete piece leaves
with its record, or counted as WEAK, or for the device on its left; a merge that waits too long is settled; catch-up resumes when the
queue has room. -/
def Obligations.CalibrationAndPieces : Prop :=
  (∀ (s : State), s.dev.powered = true → s.dev.headRuns (s.dev.rdF .chmCalCtl 0 5 0) = true →
    (s.dev.rdF .chmCalCtl 0 11 10 = 1 ∨ s.dev.rdF .chmCalCtl 0 11 10 = 2) → 4 ≤ s.dev.rdF .chmCalCtl 0 15 12 →
    s.dev.rdF .chmCalCtl 0 15 12 ≤ 12 → s.dev.calState ≠ 1 → memWf MemWord.blank s.dev.sram = true →
    s.dev.rdB .edcInjCtl 0 8 = false →
    ∃ t, exec .calStart s = .next t ∧ t.dev.rd .chmCalStat 0 = 1 ∧
      t.dev.chm.cal = (s.dev.rdF .chmCalCtl 0 5 0, s.dev.rdF .chmCalCtl 0 11 10, s.dev.rdF .chmCalCtl 0 15 12) ∧
      (∀ i : Fin 16385, t.dev.cell (calWord i) = goodWord 0) ∧ RegsOnly [regKey .chmCalStat 0] s t ∧
      Only [.sram, .regs, .chm] s t) ∧
  (∀ (s : State), s.dev.headRuns (s.dev.rdF .chmCalCtl 0 5 0) = false ∨ s.dev.calState = 1 ∨
      s.dev.rdF .chmCalCtl 0 11 10 = 0 ∨ s.dev.rdF .chmCalCtl 0 11 10 = 3 ∨ s.dev.rdF .chmCalCtl 0 15 12 < 4 ∨
      12 < s.dev.rdF .chmCalCtl 0 15 12 →
    exec .calStart s = .next s) ∧
  (∀ (off : Nat) (ws : List Word) (s : State), s.dev.powered = true →
    off + ws.length ≤ 1398784 → memWf MemWord.blank s.dev.sram = true →
    s.dev.rdB .edcInjCtl 0 8 = false →
    ∃ t, exec (.coefWrite off ws) s = .next t ∧ t.dev.reply = (0, 0) ∧
      (∀ i : Fin ws.length, t.dev.cell (0x800000 + off + i) = goodWord (ws.getD i 0)) ∧
      SramOnly (0x800000 + off) ws.length s t ∧
      Only [.sram, .reply] s t) ∧
  (∀ (off : Nat) (ws : List Word) (s : State), s.dev.powered = true → 1398784 < off + ws.length →
    ∃ t, exec (.coefWrite off ws) s = .next t ∧ t.dev.reply = (0x21, 0) ∧ Only [.reply] s t) ∧
  (∀ (n : Nat) (p : Piece) (s : State), s.dev.powered = true →
    s.dev.cex.pieces.find? (fun x => decide (x.num = n)) = some p → (p.job.isSome && s.dev.retroStalls) = false →
    s.dev.scanMap = (false, s.dev) → s.dev.pieceReady s.dev.mapWords p = true →
    s.dev.edgesSettled s.dev.mapWords p = true → s.dev.leftDevice s.dev.mapWords p = none →
    ∃ t, exec (.pieceRelease n) s = .next t ∧ (∀ x ∈ t.dev.cex.pieces, x.num ≠ n) ∧
      (s.dev.pieceSeed p = false →
        t.dev.rdF .cexWeak 0 47 0 = min (s.dev.rdF .cexWeak 0 47 0 + 1) (2 ^ 48 - 1) ∧ Only [.cex, .regs] s t)) ∧
  (∀ (n : Nat) (p : Piece) (s : State), s.dev.powered = true → s.dev.cex.pieces.find? (fun x => decide (x.num = n)) = some p →
    p.job = none → s.dev.scanMap = (false, s.dev) → s.dev.pieceReady s.dev.mapWords p = true →
    s.dev.edgesSettled s.dev.mapWords p = true → s.dev.leftDevice s.dev.mapWords p = none → s.dev.pieceSeed p = true →
    fld (s.dev.pieceWord p 2) 31 0 ≤ p.area → s.dev.cex.heldRecs = [] → s.dev.cexFull false = false →
    ∃ t, exec (.pieceRelease n) s = .next t ∧ (∀ x ∈ t.dev.cex.pieces, x.num ≠ n) ∧
      t.dev.rdF .cexLqProd 0 12 0 = (s.dev.rdF .cexLqProd 0 12 0 + 1) % 8192 ∧
      t.dev.rdF .cexHdhCand p.localHead 31 0 = (s.dev.rdF .cexHdhCand p.localHead 31 0 + 1) % 2 ^ 32) ∧
  (∀ (n j : Nat) (p : Piece) (s : State), s.dev.powered = true → s.dev.cex.pieces.find? (fun x => decide (x.num = n)) = some p →
    p.job = some j → s.dev.retroStalls = false → s.dev.scanMap = (false, s.dev) →
    s.dev.pieceReady s.dev.mapWords p = true → s.dev.edgesSettled s.dev.mapWords p = true →
    s.dev.leftDevice s.dev.mapWords p = none → s.dev.pieceSeed p = true → fld (s.dev.pieceWord p 2) 31 0 ≤ p.area →
    ∃ t, exec (.pieceRelease n) s = .next t ∧ (∀ x ∈ t.dev.cex.pieces, x.num ≠ n) ∧
      t.dev.rdF .cexRqProd 0 12 0 = (s.dev.rdF .cexRqProd 0 12 0 + 1) % 8192 ∧
      (t.dev.job j).count = (s.dev.job j).count + 1) ∧
  (∀ (n : Nat) (p : Piece) (s : State), s.dev.cex.pieces.find? (fun x => decide (x.num = n)) = some p →
    p.job.isSome = true → s.dev.retroStalls = true → exec (.pieceRelease n) s = .next s) ∧
  (∀ (n : Nat) (p : Piece) (s : State), s.dev.powered = true → s.dev.cex.pieces.find? (fun x => decide (x.num = n)) = some p →
    (p.job.isSome && s.dev.retroStalls) = false → s.dev.scanMap.1 = true →
    ∃ t, exec (.pieceRelease n) s = .next t ∧ ∀ x ∈ t.dev.cex.pieces, x.num ≠ n) ∧
  (∀ (n : Nat) (p : Piece) (dest port : Nat) (s : State), s.dev.powered = true →
    s.dev.cex.pieces.find? (fun x => decide (x.num = n)) = some p → (p.job.isSome && s.dev.retroStalls) = false →
    s.dev.scanMap = (false, s.dev) → s.dev.pieceReady s.dev.mapWords p = true →
    s.dev.edgesSettled s.dev.mapWords p = true →
    s.dev.leftDevice s.dev.mapWords p = some dest → s.dev.routeUp dest false = some port →
    ∃ t, exec (.pieceRelease n) s = .next t ∧ (∀ x ∈ t.dev.cex.pieces, x.num ≠ n) ∧
      t.dev.cex.forwarded = s.dev.cex.forwarded ++ [if p.truncated then { p with flags := p.flags ||| recTrunc } else p] ∧
      t.dev.outbox.contains (.hlk port (.blob (s.dev.pieceBlob p dest))) = true ∧ Only [.cex, .regs, .outbox] s t) ∧
  (∀ (n : Nat) (s : State), s.dev.scanMap = (false, s.dev) →
    s.dev.cex.pieces.all (fun x => x.num ≠ n || !s.dev.pieceReady s.dev.mapWords x ||
      !s.dev.edgesSettled s.dev.mapWords x) = true →
    exec (.pieceRelease n) s = .next s) ∧
  (∀ (n : Nat) (p : Piece) (u : Word) (s : State), s.dev.powered = true →
    s.dev.cex.pieces.find? (fun x => decide (x.num = n)) = some p →
    p.readyAt = some u → s.dev.rdF .cexMerge 0 15 0 * 1000 ≤ elapsed s.dev.now u →
    s.dev.edgesSettled s.dev.mapWords p = false →
    ∃ t, exec (.mergeTimeout n) s = .next t ∧ (∀ x ∈ t.dev.cex.pieces, x.num = n → x.settled = true) ∧
      t.dev.rdF .cexErrs 0 31 16 = min (s.dev.rdF .cexErrs 0 31 16 + 1) 65535 ∧
      RegsOnly [regKey .cexErrs 0] s t ∧ Only [.cex, .regs, .evc, .wev] s t) ∧
  (∀ (n : Nat) (s : State), s.dev.cex.pieces.all (fun x => x.num ≠ n || s.dev.edgesSettled s.dev.mapWords x ||
      x.readyAt.all (fun u => decide (elapsed s.dev.now u < s.dev.rdF .cexMerge 0 15 0 * 1000))) = true →
    exec (.mergeTimeout n) s = .next s) ∧
  (∀ (s : State), 3072 < s.dev.cexCount false ∨ (s.dev.cex.heldRecs = [] ∧ s.dev.rdB .cexStat 0 1 = false) →
    exec .catchupResume s = .next s) ∧
  (∀ (r : List Word) (s : State), s.dev.powered = true → s.dev.cexCount false ≤ 3072 → s.dev.cex.heldRecs = [r] →
    (∀ h : Fin 64, s.dev.cexMode h ≠ 2) →
    ∃ t, exec .catchupResume s = .next t ∧ t.dev.cex.heldRecs = [] ∧ t.dev.rdB .cexStat 0 0 = false ∧
      t.dev.rdF .cexLqProd 0 12 0 = (s.dev.rdF .cexLqProd 0 12 0 + 1) % 8192)

/-! ### Channels -/

/-- R292–R295, R302–R304: NOP completes at once; POSWAIT, WAITEV and BANDWAIT complete at once or wait, complete when what they
wait for comes, or with the outcome of what ends the wait, and with NOT_READY when their limit passes; a completed command leaves
its result word in w31. -/
def Obligations.ChannelWaits : Prop :=
  (∀ (c : Fin 512) (w : ChWord) (s : State), ChFresh c s → w.bare = true → w.target = 0 → w.count = 0 → w.a = 0 →
    ∃ t, exec (.chNop c w) s = .next t ∧ ChDone c 0 0 0 0 s t ∧
      RegsOnly [regKey .ibxChcStat c, regKey .ibxChcCmds c] s t ∧ Only [.procs, .regs, .ibx] s t) ∧
  (∀ (c : Fin 512) (w : ChWord) (v : Word) (s : State), ChFresh c s → w.bare = true → w.target.toNat < 4 →
    inProgram (s.dev.chAddr c w) 1 = true → decodeWord (s.dev.cell (s.dev.chAddr c w)) = .ok v →
    atOrPast (s.dev.axisPos w.target.toNat) v = true →
    ∃ t, exec (.chPoswait c w) s = .next t ∧ ChDone c 0 0 0 0 s t ∧ Only [.procs, .regs, .ibx] s t) ∧
  (∀ (c : Fin 512) (w : ChWord) (v : Word) (s : State), ChFresh c s → w.bare = true → w.target.toNat < 4 →
    inProgram (s.dev.chAddr c w) 1 = true → decodeWord (s.dev.cell (s.dev.chAddr c w)) = .ok v →
    atOrPast (s.dev.axisPos w.target.toNat) v = false → s.dev.axisState w.target.toNat ≠ .fault →
    ∃ t, exec (.chPoswait c w) s = .next t ∧ ChWaits c 0xC1 w (.poswait w.target.toNat v) s t ∧
      Only [.regs, .ibx] s t) ∧
  (∀ (c : Fin 512) (a : Nat) (v : P48) (r : ChanRun) (s : State), ChWaiting c (.poswait a v) r s →
    s.dev.axisReaches a v 0 = true →
    ∃ t, exec (.poswaitReached c) s = .next t ∧ ChDone c 0 0 0 0 s t ∧ Only [.procs, .regs, .ibx] s t) ∧
  (∀ (c : Fin 512) (a : Nat) (v : P48) (r : ChanRun) (s : State), ChWaiting c (.poswait a v) r s →
    s.dev.axisState a = .fault →
    ∃ t, exec (.poswaitReached c) s = .next t ∧ ChDone c 0x38 5 0 0 s t ∧ Only [.procs, .regs, .ibx] s t) ∧
  (∀ (c : Fin 512) (w : ChWord) (s : State), ChFresh c s → w.bare = true → w.a = 0 → 320 ≤ w.target.toNat →
    srcKind w.target.toNat = .level → (s.dev.source w.target.toNat).e = true →
    ∃ t, exec (.chWaitev c w) s = .next t ∧ ChDone c 0 0 0 (fld (s.dev.source w.target.toNat).rose 19 0) s t ∧
      tget t.dev.wev {} c = { src := w.target.toNat } ∧ Only [.procs, .regs, .ibx, .wev] s t) ∧
  (∀ (c : Fin 512) (w : ChWord) (s : State), ChFresh c s → w.bare = true → w.a = 0 → 320 ≤ w.target.toNat →
    srcKind w.target.toNat ≠ .level ∨ (s.dev.source w.target.toNat).e = false →
    (tget s.dev.wev {} c).src ≠ w.target.toNat ∨ (tget s.dev.wev {} c).latched = none →
    ∃ t, exec (.chWaitev c w) s = .next t ∧ ChWaits c 0xC2 w (.waitev w.target.toNat) s t ∧
      Only [.regs, .ibx, .wev] s t) ∧
  (∀ (c : Fin 512) (w : ChWord) (u : Word) (s : State), ChFresh c s → w.bare = true → w.a = 0 → 320 ≤ w.target.toNat →
    srcKind w.target.toNat ≠ .level ∨ (s.dev.source w.target.toNat).e = false →
    (tget s.dev.wev {} c).src = w.target.toNat → (tget s.dev.wev {} c).latched = some u →
    ∃ t, exec (.chWaitev c w) s = .next t ∧ ChDone c 0 0 0 (fld u 19 0) s t ∧
      tget t.dev.wev {} c = { src := w.target.toNat } ∧ Only [.procs, .regs, .ibx, .wev] s t) ∧
  (∀ (c : Fin 512) (w : ChWord) (s : State), ChFresh c s → w.bare = true → w.a = 0 → w.target.toNat < 320 →
    ∃ t, exec (.chWaitev c w) s = .next t ∧ ChDone c 0x10 6 0 0 s t ∧ Only [.procs, .regs, .ibx] s t) ∧
  (∀ (c : Fin 512) (i : Nat) (r : ChanRun) (u : Word) (s : State), ChWaiting c (.waitev i) r s →
    (tget s.dev.wev {} c).raised = some u →
    ∃ t, exec (.waitevRaised c) s = .next t ∧ ChDone c 0 0 0 (fld u 19 0) s t ∧ tget t.dev.wev {} c = { src := i } ∧
      Only [.procs, .regs, .ibx, .wev] s t) ∧
  (∀ (c : Fin 512) (w : ChWord) (v : Word) (s : State), ChFresh c s → w.bare = true → w.target.toNat < 64 →
    inProgram (s.dev.chAddr c w) 1 = true → decodeWord (s.dev.cell (s.dev.chAddr c w)) = .ok v →
    s.dev.hasRing w.target.toNat = true → (s.dev.lb w.target.toNat).nextS = 0 → s.dev.holds w.target.toNat = false →
    ∃ t, exec (.chBandwait c w) s = .next t ∧ ChWaits c 0xCA w (.bandwait w.target.toNat v) s t ∧
      Only [.regs, .ibx] s t) ∧
  (∀ (c : Fin 512) (h : Nat) (v : P48) (r : ChanRun) (s : State), ChWaiting c (.bandwait h v) r s →
    s.dev.hasRing h = true → s.dev.holds h = true → atOrPast v (s.dev.hznPos h) = true →
    atOrPast (s.dev.newEnd h) v = true →
    ∃ t, exec (.bandwaitHeld c) s = .next t ∧ ChDone c 0 0 0 0 s t ∧ Only [.procs, .regs, .ibx] s t) ∧
  (∀ (c : Fin 512) (h : Nat) (v : P48) (r : ChanRun) (s : State), ChWaiting c (.bandwait h v) r s →
    s.dev.hasRing h = true → (s.dev.lb h).nextS ≠ 0 → atOrPast v (s.dev.hznPos h) = false →
    ∃ t, exec (.bandwaitHeld c) s = .next t ∧ ChDone c 0x20 5 0 0 s t ∧ Only [.procs, .regs, .ibx] s t) ∧
  (∀ (c : Fin 512) (h : Nat) (v : P48) (r : ChanRun) (s : State), ChWaiting c (.bandwait h v) r s →
    s.dev.hasRing h = false →
    ∃ t, exec (.bandwaitHeld c) s = .next t ∧ ChDone c 0x21 2 0 0 s t ∧ Only [.procs, .regs, .ibx] s t) ∧
  (∀ (c : Fin 512) (i : Nat) (r : ChanRun) (s : State), ChWaiting c (.waitev i) r s → 0 < r.w.count.toNat →
    r.w.count.toNat * 1000 ≤ elapsed s.dev.now r.since →
    ∃ t, exec (.waitLimit c) s = .next t ∧ ChDone c 0x38 4 0 0 s t ∧ tget t.dev.wev {} c = { src := i } ∧
      Only [.procs, .regs, .ibx, .wev] s t) ∧
  (∀ (c : Fin 512) (a : Nat) (v : P48) (r : ChanRun) (s : State), ChWaiting c (.poswait a v) r s → 0 < r.w.count.toNat →
    r.w.count.toNat * 1000000 ≤ elapsed s.dev.now r.since →
    ∃ t, exec (.waitLimit c) s = .next t ∧ ChDone c 0x38 4 0 0 s t ∧ Only [.procs, .regs, .ibx] s t) ∧
  (∀ (c : Fin 512) (h : Nat) (v : P48) (r : ChanRun) (s : State), ChWaiting c (.bandwait h v) r s → 0 < r.w.count.toNat →
    r.w.count.toNat * 1000 ≤ elapsed s.dev.now r.since →
    ∃ t, exec (.waitLimit c) s = .next t ∧ ChDone c 0x38 4 0 0 s t ∧ Only [.procs, .regs, .ibx] s t)

/-- R54, R55, R307–R311, R324: FIRE takes its output and arms; in TRACK and COAST its one-shot is fixed 16 ns ahead and completes
at that time, in ACQUIRE it makes the pulse at the edge, and it completes without one where its axis is in FAULT, a generator has
its output, the position has been passed or the device is out of service; ACT pushes an entry; LINES waits on a head's tally and
takes its lines off; MSG takes the oldest item of a head's FIFO, header first. -/
def Obligations.ChannelActions : Prop :=
  (∀ (c : Fin 512) (w : ChWord) (v w1 : Word) (s : State), ChFresh c s → w.bare = true → w.target.toNat < 128 →
    w.count = 0 → inProgram (s.dev.chAddr c w) 2 = true → decodeWord (s.dev.cell (s.dev.chAddr c w)) = .ok v →
    decodeWord (s.dev.cell (s.dev.chAddr c w + 1)) = .ok w1 → fld w1 47 20 = 0 → 8 ≤ fld w1 11 0 →
    s.dev.ownerOf (.oneShot (w.target.toNat % 32)) = none → s.dev.outGen (w.target.toNat % 32) = none →
    s.dev.axisState (w.target.toNat / 32) ≠ .fault → atOrPast (s.dev.axisPos (w.target.toNat / 32)) v = false →
    ∃ t, exec (.chFire c w) s = .next t ∧
      ChWaits c 0xC3 w (.fire (w.target.toNat / 32) (w.target.toNat % 32) v w1 none) s t ∧
      t.dev.ownerOf (.oneShot (w.target.toNat % 32)) = some c.val ∧ t.dev.rdB .ibxChcStat c 7 = true ∧
      Only [.regs, .ibx, .owners] s t) ∧
  (∀ (c : Fin 512) (w : ChWord) (v w1 : Word) (s : State), ChFresh c s → w.bare = true → w.target.toNat < 128 →
    w.count = 0 → inProgram (s.dev.chAddr c w) 2 = true → decodeWord (s.dev.cell (s.dev.chAddr c w)) = .ok v →
    decodeWord (s.dev.cell (s.dev.chAddr c w + 1)) = .ok w1 → fld w1 47 20 = 0 → 8 ≤ fld w1 11 0 →
    s.dev.ownerOf (.oneShot (w.target.toNat % 32)) = none → s.dev.outGen (w.target.toNat % 32) = none →
    s.dev.axisState (w.target.toNat / 32) ≠ .fault → atOrPast (s.dev.axisPos (w.target.toNat / 32)) v = true →
    ∃ t, exec (.chFire c w) s = .next t ∧ ChDone c 0x02 1 0 0 s t ∧ Only [.procs, .regs, .ibx, .owners] s t) ∧
  (∀ (c : Fin 512) (a out : Nat) (v : P48) (w1 : Word) (r : ChanRun) (s : State),
    ChWaiting c (.fire a out v w1 none) r s → s.dev.axisState a = .track ∨ s.dev.axisState a = .coast →
    s.dev.outGen out = none → s.dev.axisReaches a v 16 = true → s.dev.inService = true → bit w1 13 = false →
    ∃ t, exec (.fireOneshot c) s = .next t ∧ t.dev.chState c = 2 ∧
      (t.dev.chan c).run = some { r with op := .fire a out v w1 (some (s.dev.now + 16)) } ∧
      { start := s.dev.now + 16, width := fld w1 11 0, level := !bit w1 12 } ∈ (t.dev.outDrv out).due ∧
      Only [.ibx, .fio] s t) ∧
  (∀ (c : Fin 512) (a out : Nat) (v : P48) (w1 u : Word) (r : ChanRun) (s : State),
    ChWaiting c (.fire a out v w1 (some u)) r s → atOrPast s.dev.now u = true →
    ∃ t, exec (.fireOneshot c) s = .next t ∧ ChDone c 0 0 0 (fld v 19 0) s t ∧ Only [.procs, .regs, .ibx] s t) ∧
  (∀ (c : Fin 512) (a out : Nat) (v : P48) (w1 : Word) (r : ChanRun) (s : State),
    ChWaiting c (.fire a out v w1 none) r s → s.dev.axisState a = .acquire → s.dev.outGen out = none →
    s.dev.axisReaches a v 0 = true → s.dev.inService = true → bit w1 13 = false →
    ∃ t, exec (.fireOneshot c) s = .next t ∧ ChDone c 0 0 0 (fld (s.dev.axisPos a) 19 0) s t ∧
      { start := s.dev.now, width := fld w1 11 0, level := !bit w1 12 } ∈ (t.dev.outDrv out).due ∧
      Only [.procs, .regs, .ibx, .fio] s t) ∧
  (∀ (c : Fin 512) (a out : Nat) (v : P48) (w1 : Word) (r : ChanRun) (s : State),
    ChWaiting c (.fire a out v w1 none) r s → s.dev.outGen out = none → s.dev.axisReaches a v 0 = true →
    s.dev.inService = false →
    ∃ t, exec (.fireOneshot c) s = .next t ∧ ChDone c 0x02 2 0 0 s t ∧ Only [.procs, .regs, .ibx] s t) ∧
  (∀ (c : Fin 512) (a out : Nat) (v : P48) (w1 : Word) (r : ChanRun) (s : State),
    ChWaiting c (.fire a out v w1 none) r s → s.dev.axisState a = .fault →
    ∃ t, exec (.fireOneshot c) s = .next t ∧ ChDone c 0x38 5 0 0 s t ∧ Only [.procs, .regs, .ibx] s t) ∧
  (∀ (c : Fin 512) (a out : Nat) (v : P48) (w1 : Word) (r : ChanRun) (s : State),
    ChWaiting c (.fire a out v w1 none) r s → s.dev.axisState a ≠ .fault → (s.dev.outGen out).isSome = true →
    ∃ t, exec (.fireOneshot c) s = .next t ∧ ChDone c 0x08 1 0 0 s t ∧ Only [.procs, .regs, .ibx] s t) ∧
  (∀ (c : Fin 512) (w : ChWord) (v w1 : Word) (s : State), ChFresh c s → w.bare = true → w.target.toNat < 16 →
    w.count = 1 → inProgram (s.dev.chAddr c w) 2 = true → decodeWord (s.dev.cell (s.dev.chAddr c w)) = .ok v →
    decodeWord (s.dev.cell (s.dev.chAddr c w + 1)) = .ok w1 → s.dev.ownerOf (.scheduler w.target.toNat) = some c.val →
    s.dev.rdB .sprActkCfg w.target.toNat 2 = true → s.dev.actQueue w.target.toNat = [] →
    ∃ t, exec (.chAct c w) s = .next t ∧ ChDone c 0 0 0 1 s t ∧
      t.dev.actQueue w.target.toNat = [{ pos := v, widthUs := fld w1 31 16, level := bit w1 0 }] ∧
      (∀ b : Fin 16, b.val ≠ w.target.toNat → t.dev.actQueue b = s.dev.actQueue b) ∧ Only [.procs, .regs, .ibx, .spr] s t) ∧
  (∀ (c : Fin 512) (w : ChWord) (s : State), ChFresh c s → w.bare = true → w.target.toNat < 64 → w.a = 0 →
    0 < w.count.toNat → s.dev.ownerOf (.tally w.target.toNat) = none → (s.dev.head w.target.toNat).tally = none →
    s.dev.headState w.target.toNat = .run →
    ∃ t, exec (.chLines c w) s = .next t ∧
      ChWaits c 0xC8 w (.lines w.target.toNat w.count.toNat (s.dev.head w.target.toNat).exits) s t ∧
      t.dev.ownerOf (.tally w.target.toNat) = some c.val ∧ (t.dev.head w.target.toNat).tally = some [] ∧
      Only [.regs, .ibx, .owners, .cxi] s t) ∧
  (∀ (c : Fin 512) (h n exits : Nat) (l : List (Bool × Nat)) (r : ChanRun) (s : State), ChWaiting c (.lines h n exits) r s →
    (s.dev.head h).tally = some l → n ≤ l.length →
    ∃ t, exec (.linesCounted c) s = .next t ∧ ChDone c 0 0 0 (linesValue (l.take n)) s t ∧
      t.dev.head h = { s.dev.head h with tally := some (l.drop n) } ∧ Only [.procs, .regs, .ibx, .cxi] s t) ∧
  (∀ (c : Fin 512) (h n exits : Nat) (l : List (Bool × Nat)) (r : ChanRun) (s : State), ChWaiting c (.lines h n exits) r s →
    (s.dev.head h).tally = some l → l.length < n → exits < (s.dev.head h).exits →
    ∃ t, exec (.linesCounted c) s = .next t ∧ ChDone c 0x30 4 (n - l.length) (linesValue l) s t ∧
      (t.dev.head h).tally = some [] ∧ Only [.procs, .regs, .ibx, .cxi] s t) ∧
  (∀ (c : Fin 512) (h n exits : Nat) (r : ChanRun) (s : State), ChWaiting c (.lines h n exits) r s →
    (s.dev.tally h).length < n → exits = (s.dev.head h).exits → s.dev.headState h = .off →
    ∃ t, exec (.linesCounted c) s = .next t ∧ ChDone c 0x38 6 n 0 s t ∧ Only [.procs, .regs, .ibx] s t) ∧
  (∀ (c : Fin 512) (w : ChWord) (m : MsgItem) (l : List MsgItem) (ws : List Word) (n : Nat) (s : State), ChFresh c s →
    w.bare = true → w.target.toNat < 64 → 1 ≤ w.count.toNat → s.dev.ownerOf (.msgFifo w.target.toNat) = some c.val →
    s.dev.headUp w.target.toNat = true → (s.dev.head w.target.toNat).msgs = m :: l →
    n = min w.count.toNat (1 + (m.bytes + 5) / 6) → inProgram (s.dev.chAddr c w) n = true →
    s.dev.sramReads (msgAddr w.target.toNat m.slot) n = (ws, 0, s.dev) → s.dev.rdB .edcInjCtl 0 8 = false →
    memWf .blank s.dev.sram = true →
    ∃ t, exec (.chMsg c w) s = .next t ∧ ChDone c 0 0 (1 + (m.bytes + 5) / 6 - n) m.bytes s t ∧
      (t.dev.head w.target.toNat).msgs = l ∧
      (∀ i : Fin n, t.dev.cell (s.dev.chAddr c w + i) = goodWord (ws.getD i 0)) ∧
      SramOnly (s.dev.chAddr c w) n s t ∧ Only [.procs, .regs, .ibx, .cxi, .sram] s t)

/-- R297, R312–R314, R316, R318–R320, R461, R467: MOVE and QUERY start a transfer whose words TRANSFER_DONE places at the destination
once an engine serves it; a long MOVE goes to the tail of the movers' queue at the end of a segment where another request waits;
QTAKE waits for records and reports the end of a retro job; RETRO writes a job slot; POST puts entries on a completion ring. -/
def Obligations.ChannelTransfers : Prop :=
  (∀ (c : Fin 512) (w : ChWord) (ws : List Word) (src dest n : Nat) (s : State), ChFresh c s → w.bare = true →
    w.target = 0 → w.count.toNat = n → 0 < n → s.dev.chRead (s.dev.chAddr c w) 4 = (.ok ws, s.dev) →
    xferOf ws = { kind := 0, trailer := false, func := 0, source := src, dest := wordOf dest, haddr := 0, len := 0 } →
    xferReserved false true ws = false → dest < 0x7A1000 → inProgram dest n = true → sourceOk src n = true →
    s.dev.moverReq (.move c) = none →
    ∃ t, exec (.chMove c w) s = .next t ∧ ChWaits c 0xD0 w (.move src n) s t ∧
      (t.dev.chan c).gather = some { dest := some (.sram dest), trailer := false, n := 1, wet := true } ∧
      (∃ q ∈ t.dev.moverReq (.move c), q.words = n ∧ q.write = true) ∧ Only [.regs, .ibx, .tmv, .hbc] s t) ∧
  (∀ (c : Fin 512) (w : ChWord) (ws : List Word) (s : State), ChFresh c s → w.bare = true → w.target = 0 →
    s.dev.chRead (s.dev.chAddr c w) 10 = (.ok ws, s.dev) → xferReserved true true (ws.drop 6) = false →
    (xferOf (ws.drop 6)).len ≤ 262144 → (xferOf (ws.drop 6)).kind = 0 →
    inProgram (xferOf (ws.drop 6)).dest.toNat 0 = true → (xferOf (ws.drop 6)).dest.toNat < 0x7A1000 →
    ∃ t, exec (.chQuery c w) s = .next t ∧ ChWaits c 0xD1 w (.query s.dev.tfb.nextQuery) s t ∧
      t.dev.tfb.queries = s.dev.tfb.queries ++
        [{ id := s.dev.tfb.nextQuery, src := .channel c, words := ws.take 6, cls := s.dev.chClass c }] ∧
      Only [.regs, .ibx, .tfb] s t) ∧
  (∀ (c : Fin 512) (src dest n : Nat) (wet : Bool) (ws : List Word) (q : MoverReq) (r : ChanRun) (s : State),
    ChWaiting c (.move src n) r s → r.w.bare = true → r.w.count.toNat = n →
    (s.dev.chan c).gather = some { dest := some (.sram dest), trailer := false, n := 1, wet := wet } →
    s.dev.moverReq (.move c) = some q → q.run.isSome = true → (q.words ≤ segmentWords ∨ s.dev.moverWaits = false) →
    s.dev.hbc.xfer = [] → sramRegion src ≠ some 0 → ws.length = n →
    (∀ i : Fin n, decodeWord (s.dev.cell (src + i)) = .ok (ws.getD i 0)) → inProgram dest n = true →
    ∃ t, exec (.transferDone c) s = .next t ∧ ChDone c 0 0 0 (min n 0xFFFFF) s t ∧
      t.dev.sram = (s.dev.sramWrites dest ws).sram ∧ SramOnly dest n s t ∧ t.dev.moverReq (.move c) = none ∧
      Only [.procs, .regs, .ibx, .sram, .tmv, .hbc] s t) ∧
  (∀ (c : Fin 512) (src n : Nat) (q : MoverReq) (r : ChanRun) (s : State), ChWaiting c (.move src n) r s →
    s.dev.moverReq (.move c) = some q → q.run.isSome = true → segmentWords < q.words → s.dev.moverWaits = true →
    ∃ t, exec (.transferDone c) s = .next t ∧ t.dev.chState c = 2 ∧
      (∃ x ∈ t.dev.moverReq (.move c), x.words = q.words - segmentWords ∧ x.write = q.write) ∧ Only [.tmv, .hbc] s t) ∧
  (∀ (c : Fin 512) (src n : Nat) (r : ChanRun) (s : State), ChWaiting c (.move src n) r s →
    s.dev.moverRun? (.move c) = none → exec (.transferDone c) s = .next s) ∧
  (∀ (c : Fin 512) (id dest : Nat) (wet : Bool) (q : QueryDone) (r : ChanRun) (s : State), ChWaiting c (.query id) r s →
    r.w.bare = true → r.w.count = 0 → s.dev.ibx.done.find? (fun (x : QueryDone) => x.id = id) = some q → q.status = 0 →
    (s.dev.chan c).gather = some { dest := some (.sram dest), trailer := false, n := 1, wet := wet } →
    inProgram dest q.words.length = true →
    ∃ t, exec (.transferDone c) s = .next t ∧ ChDone c 0 0 0 (min q.words.length 0xFFFFF) s t ∧
      t.dev.sram = (s.dev.sramWrites dest q.words).sram ∧ Only [.procs, .regs, .ibx, .sram] s t) ∧
  (∀ (c : Fin 512) (w : ChWord) (s : State), ChFresh c s → w.bare = true → w.target.toNat < 2 → 0 < w.count.toNat →
    inProgram (s.dev.chAddr c w) (8 * w.count.toNat) = true → s.dev.cex.jobEnds = [] →
    s.dev.cexCount (decide (w.target.toNat = 1)) = 0 →
    ∃ t, exec (.chQtake c w) s = .next t ∧
      ChWaits c 0xD2 w (.qtake (decide (w.target.toNat = 1)) w.count.toNat (s.dev.chAddr c w)) s t ∧
      Only [.regs, .ibx] s t) ∧
  (∀ (c : Fin 512) (n dest st sub tag p : Nat) (l : List (Nat × Nat × Nat × Nat)) (r : ChanRun) (s : State),
    ChWaiting c (.qtake true n dest) r s → s.dev.cex.jobEnds = (p, st, sub, tag) :: l → s.dev.cexCount true = 0 →
    ∃ t, exec (.qtakeRecords c) s = .next t ∧ ChDone c st sub 0 (tag + 0x80000) s t ∧ t.dev.cex.jobEnds = l ∧
      Only [.procs, .regs, .ibx, .cex] s t) ∧
  (∀ (c : Fin 512) (dest : Nat) (ws : List Word) (r : ChanRun) (s : State), ChWaiting c (.qtake false 1 dest) r s →
    r.w.dry = false → 0 < s.dev.cexCount false →
    s.dev.sramReads (0x955800 + 8 * (s.dev.rdF .cexLqCons 0 12 0 % 4096)) 8 = (ws, 0, s.dev) →
    ∃ t, exec (.qtakeRecords c) s = .next t ∧ ChDone c 0 0 0 1 s t ∧
      t.dev.rdF .cexLqCons 0 12 0 = (s.dev.rdF .cexLqCons 0 12 0 + 1) % 8192 ∧
      t.dev.sram = (s.dev.sramWrites dest ws).sram ∧ SramOnly dest 8 s t ∧
      Only [.procs, .regs, .ibx, .sram] s t) ∧
  (∀ (c : Fin 512) (w : ChWord) (ws : List Word) (s : State), ChFresh c s → w.bare = true → w.target.toNat < 16 →
    w.count = 0 → s.dev.chRead (s.dev.chAddr c w) 6 = (.ok ws, s.dev) →
    ∃ t, exec (.chRetro c w) s = .next t ∧
      ChDone c (s.dev.retroSubmit w.target.toNat ws).1 (s.dev.retroSubmit w.target.toNat ws).2.1 0 0 s t ∧
      t.dev.cex = (s.dev.retroSubmit w.target.toNat ws).2.2.cex ∧ Only [.procs, .regs, .ibx, .cex] s t) ∧
  (∀ (c : Fin 512) (w : ChWord) (ws : List Word) (s : State), ChFresh c s → w.bare = true → w.target.toNat < 128 →
    w.count.toNat ≤ 256 → s.dev.cqState w.target.toNat = 1 →
    s.dev.chRead (s.dev.chAddr c w) (6 * w.count.toNat) = (.ok ws, s.dev) →
    (postEntries w.count.toNat ws).1 = true → s.dev.cqHeld w.target.toNat = 0 →
    w.count.toNat ≤ s.dev.cqRoom w.target.toNat →
    ∃ t, exec (.chPost c w) s = .next t ∧ ChDone c 0 0 0 w.count.toNat s t ∧
      (s.dev.attached (w.target.toNat / 64) = true → s.dev.cqBits w.target.toNat ≤ 16 →
        s.dev.cqProd w.target.toNat < 2 ^ (s.dev.cqBits w.target.toNat + 1) →
        t.dev.cqProd w.target.toNat =
          (s.dev.cqProd w.target.toNat + w.count.toNat) % 2 ^ (s.dev.cqBits w.target.toNat + 1) ∧
        (∀ i : Fin w.count.toNat,
          .hostWrite (w.target.toNat / 64) (s.dev.rdF .hifFfCqcCfg w.target.toNat 47 32 * 2 ^ 48 +
              (s.dev.rd .hifFfCqcBase w.target.toNat).toNat +
              32 * ((s.dev.cqProd w.target.toNat + i) % 2 ^ s.dev.cqBits w.target.toNat))
            (withPhase ((postEntries w.count.toNat ws).2.getD i []) (phaseOf (s.dev.cqBits w.target.toNat)
              ((s.dev.cqProd w.target.toNat + i) % 2 ^ (s.dev.cqBits w.target.toNat + 1)))) ∈ t.dev.outbox)) ∧
      Only [.procs, .regs, .ibx, .hif, .sram, .evc, .wev, .outbox] s t)

/-- R291, R292, R295, R299, R305, R306, R326–R331: START, HALT, SUSPEND, RESUME and CLEAR move a channel between its states and
post its status word; END ends a program; HOLD suspends before a command; a word with a reserved bit set halts. -/
def Obligations.ChannelStates : Prop :=
  (∀ (c : Fin 512) (s : State), s.dev.powered = true → s.dev.chOn c = true →
    (s.dev.devState = .train ∨ s.dev.devState = .ready ∨ s.dev.devState = .run ∨ s.dev.devState = .degraded) →
    (s.dev.chState c = 0 ∨ s.dev.chState c = 4) →
    s.dev.rdF .ibxChcCfg c 20 0 < 1009664 →
    ∃ t, exec (.channelStart c) s = .next t ∧ t.dev.chState c = 1 ∧
      (t.dev.proc c).pc = wordOf (0x6AA800 + s.dev.rdF .ibxChcCfg c 20 0) ∧
      (t.dev.proc c).reg false 1 = s.dev.rd .ibxChcArg c ∧
      (∀ i : Fin 32, i ≠ 1 → (t.dev.proc c).reg false i = 0) ∧ t.dev.chan c = {} ∧
      Only [.procs, .regs, .ibx, .owners, .cxi, .tfb, .wev] s t) ∧
  (∀ (c : Fin 512) (s : State), s.dev.powered = true → s.dev.chOn c = true →
    (s.dev.chState c = 1 ∨ s.dev.chState c = 2 ∨ s.dev.chState c = 3 ∨ 1009664 ≤ s.dev.rdF .ibxChcCfg c 20 0 ∨
      s.dev.devState = .boot ∨ s.dev.devState = .selftest ∨ s.dev.devState = .failed) →
    ∃ t, exec (.channelStart c) s = .next t ∧ t.dev.rdB .ibxChcStat c 12 = true ∧
      t.dev.chState c = s.dev.chState c ∧ RegsOnly [regKey .ibxChcStat c] s t ∧ Only [.regs] s t) ∧
  (∀ (c : Fin 512) (s : State), s.dev.powered = true → s.dev.chOn c = true → (s.dev.chState c = 1 ∨ s.dev.chState c = 3) →
    ∃ t, exec (.channelHalt c) s = .next t ∧ t.dev.chState c = 4 ∧ t.dev.chReason c = 5 ∧
      (∀ e ∈ t.dev.owners, e.2 ≠ c.val) ∧ t.dev.rdF .ibxChcCsw0 c 47 40 = 0x08 ∧ t.dev.rdB .ibxChcStat c 11 = true ∧
      Only [.regs, .ibx, .owners, .cxi, .tfb, .evc, .wev] s t) ∧
  (∀ (c : Fin 512) (i : Nat) (r : ChanRun) (s : State), ChWaiting c (.waitev i) r s →
    ∃ t, exec (.channelHalt c) s = .next t ∧ t.dev.chState c = 4 ∧ t.dev.chReason c = 5 ∧ t.dev.chan c = {} ∧
      t.dev.rdF .ibxChcCsw0 c 47 40 = 0x08 ∧ t.dev.rdF .ibxChcCsw0 c 7 0 = r.code % 256 ∧
      Only [.regs, .ibx, .owners, .cxi, .tfb, .tmv, .hbc, .evc, .wev] s t) ∧
  (∀ (c : Fin 512) (src n : Nat) (r : ChanRun) (s : State), ChWaiting c (.move src n) r s →
    s.dev.moverRun? (.move c) = none →
    ∃ t, exec (.channelHalt c) s = .next t ∧ t.dev.chState c = 4 ∧ t.dev.chReason c = 5 ∧ t.dev.chan c = {} ∧
      t.dev.moverReq (.move c) = none ∧ Only [.regs, .ibx, .owners, .cxi, .tfb, .tmv, .hbc, .evc, .wev] s t) ∧
  (∀ (c : Fin 512) (s : State), s.dev.powered = true → s.dev.chOn c = true → s.dev.chState c = 1 →
    ∃ t, exec (.channelSuspend c) s = .next t ∧ t.dev.chState c = 3 ∧ t.dev.chReason c = 3 ∧
      t.dev.rdB .ibxChcStat c 9 = true ∧ t.dev.rdF .ibxChcCsw1 c 39 0 = fld (s.dev.proc c).pc 39 0 ∧
      Only [.regs, .evc, .wev] s t) ∧
  (∀ (c : Fin 512) (src n : Nat) (r : ChanRun) (s : State), ChWaiting c (.move src n) r s →
    ∃ t, exec (.channelSuspend c) s = .next t ∧ t.dev.chState c = 2 ∧
      t.dev.chan c = { s.dev.chan c with suspReq := true } ∧ Only [.ibx] s t) ∧
  (∀ (c : Fin 512) (s : State), s.dev.chOn c = false ∨ s.dev.chState c = 0 ∨ s.dev.chState c = 4 →
    exec (.channelHalt c) s = .next s) ∧
  (∀ (c : Fin 512) (s : State), s.dev.chOn c = false ∨ (s.dev.chState c ≠ 1 ∧ s.dev.chState c ≠ 2) →
    exec (.channelSuspend c) s = .next s) ∧
  (∀ (c : Fin 512) (s : State), s.dev.chOn c = false ∨ s.dev.chState c ≠ 3 ∨ s.dev.chReason c = 0 ∨ 4 ≤ s.dev.chReason c →
    exec (.channelResume c) s = .next s) ∧
  (∀ (c : Fin 512) (s : State), s.dev.chOn c = false ∨ s.dev.chState c ≠ 4 → exec (.channelClear c) s = .next s) ∧
  (∀ (c : Fin 512) (i : Nat) (r : ChanRun) (s : State), ChWaiting c (.waitev i) r s →
    ∃ t, exec (.channelSuspend c) s = .next t ∧ t.dev.chState c = 3 ∧ t.dev.chReason c = 3 ∧
      (t.dev.chan c).run = none ∧ (t.dev.chan c).noHold = true ∧ Only [.regs, .ibx, .evc, .wev] s t) ∧
  (∀ (c : Fin 512) (s : State), s.dev.powered = true → s.dev.chOn c = true → s.dev.chState c = 3 →
    (s.dev.chReason c = 1 ∨ s.dev.chReason c = 2 ∨ s.dev.chReason c = 3) →
    ∃ t, exec (.channelResume c) s = .next t ∧ t.dev.chState c = 1 ∧ t.dev.chReason c = 0 ∧
      (s.dev.chReason c = 1 → (t.dev.chan c).noHold = true) ∧ RegsOnly [regKey .ibxChcStat c] s t ∧
      Only [.regs, .ibx] s t) ∧
  (∀ (c : Fin 512) (s : State), s.dev.powered = true → s.dev.chOn c = true → s.dev.chState c = 4 →
    ∃ t, exec (.channelClear c) s = .next t ∧ t.dev.chState c = 0 ∧ t.dev.chReason c = 0 ∧
      RegsOnly [regKey .ibxChcStat c] s t ∧ Only [.regs] s t) ∧
  (∀ (c : Fin 512) (w : ChWord) (s : State), ChFresh c s → w.last = true → w.rsv1 = 0 → w.rsv0 = 0 → w.hold = false →
    w.note = false → w.plain = true → w.target = 0 → w.count = 0 → w.a = 0 →
    ∃ t, exec (.chNop c w) s = .next t ∧ t.dev.chState c = 0 ∧ t.dev.chan c = {} ∧ (∀ e ∈ t.dev.owners, e.2 ≠ c.val) ∧
      t.dev.rdB .ibxChcStat c 10 = true ∧ t.dev.rdF .ibxChcCsw0 c 7 0 = 0xC0 ∧
      Only [.procs, .regs, .ibx, .owners, .cxi, .tfb, .evc, .wev] s t) ∧
  (∀ (c : Fin 512) (w : ChWord) (s : State), ChFresh c s → w.hold = true → (s.dev.chan c).noHold = false → w.rsv1 = 0 →
    w.rsv0 = 0 → w.plain = true → w.target = 0 → w.count = 0 → w.a = 0 →
    ∃ t, exec (.chNop c w) s = .next t ∧ t.dev.chState c = 3 ∧ t.dev.chReason c = 1 ∧ Only [.regs, .evc, .wev] s t) ∧
  (∀ (c : Fin 512) (w : ChWord) (s : State), ChFresh c s → (w.rsv1 ≠ 0 ∨ w.rsv0 ≠ 0) →
    ∃ t, exec (.chNop c w) s = .next t ∧ t.dev.chState c = 4 ∧ t.dev.chReason c = 6 ∧
      t.dev.rdF .ibxChcCsw0 c 47 40 = 0x12 ∧ t.dev.rdF .ibxChcCsw0 c 39 32 = 0 ∧
      Only [.regs, .ibx, .owners, .cxi, .tfb, .evc, .wev] s t)

/-! ### Instructions and arithmetic -/

/-- R351–R354: a register instruction writes its result to d and goes on at the next word; nothing else changes. -/
def Obligations.RegisterInstructions : Prop :=
  (∀ (x : Ctx) (f : RR) (a b : Word) (s : State), IsaReady x s → f.rsv = 0 → f.func = 0 → s.dev.gpr x f.a = a →
    s.dev.gpr x f.b = b →
    (∃ t, exec (.isaAdd x f) s = .next t ∧ IsaWrites x f.d (a + b) s t ∧ IsaOnly x [] s t) ∧
    (∃ t, exec (.isaSub x f) s = .next t ∧ IsaWrites x f.d (a - b) s t ∧ IsaOnly x [] s t) ∧
    (∃ t, exec (.isaAnd x f) s = .next t ∧ IsaWrites x f.d (a &&& b) s t ∧ IsaOnly x [] s t) ∧
    (∃ t, exec (.isaOr x f) s = .next t ∧ IsaWrites x f.d (a ||| b) s t ∧ IsaOnly x [] s t) ∧
    (∃ t, exec (.isaXor x f) s = .next t ∧ IsaWrites x f.d (a ^^^ b) s t ∧ IsaOnly x [] s t) ∧
    (∃ t, exec (.isaShl x f) s = .next t ∧ IsaWrites x f.d (a <<< fld b 5 0) s t ∧ IsaOnly x [] s t) ∧
    (∃ t, exec (.isaShr x f) s = .next t ∧ IsaWrites x f.d (a >>> fld b 5 0) s t ∧ IsaOnly x [] s t) ∧
    (∃ t, exec (.isaSar x f) s = .next t ∧ IsaWrites x f.d (a.sshiftRight (fld b 5 0)) s t ∧ IsaOnly x [] s t) ∧
    (∃ t, exec (.isaCmps x f) s = .next t ∧ IsaWrites x f.d (if a.toInt < b.toInt then -1 else if a = b then 0 else 1) s t ∧
      IsaOnly x [] s t) ∧
    (∃ t, exec (.isaCmpu x f) s = .next t ∧ IsaWrites x f.d (if a < b then -1 else if a = b then 0 else 1) s t ∧
      IsaOnly x [] s t) ∧
    (∃ t, exec (.isaMins x f) s = .next t ∧ IsaWrites x f.d (if a.toInt < b.toInt then a else b) s t ∧ IsaOnly x [] s t) ∧
    (∃ t, exec (.isaMaxs x f) s = .next t ∧ IsaWrites x f.d (if a.toInt < b.toInt then b else a) s t ∧ IsaOnly x [] s t) ∧
    (∃ t, exec (.isaMinu x f) s = .next t ∧ IsaWrites x f.d (if a < b then a else b) s t ∧ IsaOnly x [] s t) ∧
    (∃ t, exec (.isaMaxu x f) s = .next t ∧ IsaWrites x f.d (if a < b then b else a) s t ∧ IsaOnly x [] s t) ∧
    (∃ t, exec (.isaMul x f) s = .next t ∧ IsaWrites x f.d (a * b) s t ∧ IsaOnly x [] s t) ∧
    (∃ t, exec (.isaDiv x f) s = .next t ∧ IsaWrites x f.d (if b = 0 then -1 else wordOfInt (a.toInt.tdiv b.toInt)) s t ∧
      IsaOnly x [] s t) ∧
    (∃ t, exec (.isaDivu x f) s = .next t ∧ IsaWrites x f.d (if b = 0 then -1 else a / b) s t ∧ IsaOnly x [] s t) ∧
    (∃ t, exec (.isaRem x f) s = .next t ∧ IsaWrites x f.d (if b = 0 then a else wordOfInt (a.toInt.tmod b.toInt)) s t ∧
      IsaOnly x [] s t) ∧
    (∃ t, exec (.isaRemu x f) s = .next t ∧ IsaWrites x f.d (if b = 0 then a else a % b) s t ∧ IsaOnly x [] s t)) ∧
  (∀ (x : Ctx) (f : RI) (a : Word) (s : State), IsaReady x s → s.dev.gpr x f.a = a →
    (∃ t, exec (.isaAddi x f) s = .next t ∧ IsaWrites x f.d (a + f.imm.signExtend 48) s t ∧ IsaOnly x [] s t) ∧
    (∃ t, exec (.isaAndi x f) s = .next t ∧ IsaWrites x f.d (a &&& f.imm.setWidth 48) s t ∧ IsaOnly x [] s t) ∧
    (∃ t, exec (.isaOri x f) s = .next t ∧ IsaWrites x f.d (a ||| f.imm.setWidth 48) s t ∧ IsaOnly x [] s t) ∧
    (∃ t, exec (.isaXori x f) s = .next t ∧ IsaWrites x f.d (a ^^^ f.imm.setWidth 48) s t ∧ IsaOnly x [] s t) ∧
    (∃ t, exec (.isaCmpsi x f) s = .next t ∧
      IsaWrites x f.d (if a.toInt < f.imm.toInt then -1 else if a.toInt = f.imm.toInt then 0 else 1) s t ∧ IsaOnly x [] s t) ∧
    (∃ t, exec (.isaCmpui x f) s = .next t ∧
      IsaWrites x f.d (if a < f.imm.signExtend 48 then -1 else if a = f.imm.signExtend 48 then 0 else 1) s t ∧ IsaOnly x [] s t) ∧
    (∃ t, exec (.isaInsh x f) s = .next t ∧ IsaWrites x f.d (setFld a 47 18 f.imm.toNat) s t ∧ IsaOnly x [] s t)) ∧
  (∀ (x : Ctx) (f : RI) (a : Word) (s : State), IsaReady x s → f.imm.toNat < 48 → s.dev.gpr x f.a = a →
    (∃ t, exec (.isaShli x f) s = .next t ∧ IsaWrites x f.d (a <<< f.imm.toNat) s t ∧ IsaOnly x [] s t) ∧
    (∃ t, exec (.isaShri x f) s = .next t ∧ IsaWrites x f.d (a >>> f.imm.toNat) s t ∧ IsaOnly x [] s t) ∧
    (∃ t, exec (.isaSari x f) s = .next t ∧ IsaWrites x f.d (a.sshiftRight f.imm.toNat) s t ∧ IsaOnly x [] s t)) ∧
  (∀ (x : Ctx) (f : RR) (a b : Word) (s : State), IsaReady x s → f.rsv = 0 → f.func = 0 → 1 ≤ f.d.val → f.d.val ≤ 30 →
    s.dev.gpr x f.a = a → s.dev.gpr x f.b = b →
    (∃ t, exec (.isaMuld x f) s = .next t ∧ t.dev.gpr x f.d = wordOfInt (a.toInt * b.toInt) ∧
      t.dev.gpr x (nextReg f.d) = wordOfInt (a.toInt * b.toInt / 2 ^ 48) ∧
      (∀ i : Fin 32, i ≠ f.d → i ≠ nextReg f.d → t.dev.gpr x i = s.dev.gpr x i) ∧
      (t.dev.ctx x).pc = (s.dev.ctx x).pc + 1 ∧ (t.dev.ctx x).sp = (s.dev.ctx x).sp ∧ IsaOnly x [] s t) ∧
    (∃ t, exec (.isaMuldu x f) s = .next t ∧ t.dev.gpr x f.d = wordOfInt ((a.toNat : Int) * (b.toNat : Int)) ∧
      t.dev.gpr x (nextReg f.d) = wordOfInt ((a.toNat : Int) * (b.toNat : Int) / 2 ^ 48) ∧
      (∀ i : Fin 32, i ≠ f.d → i ≠ nextReg f.d → t.dev.gpr x i = s.dev.gpr x i) ∧
      (t.dev.ctx x).pc = (s.dev.ctx x).pc + 1 ∧ (t.dev.ctx x).sp = (s.dev.ctx x).sp ∧ IsaOnly x [] s t))

/-- R344, R378, R379: w0 reads as zero and discards writes; REP with a count starts a repeat, with count zero it skips the next
word; a repeated word runs until its count is used up, and then the program goes on after it. -/
def Obligations.RegisterZeroAndRepeat : Prop :=
  (∀ (x : Ctx) (s : State), s.dev.gpr x 0 = 0) ∧
  (∀ (x : Ctx) (v : Word) (s : State), s.dev.setGpr x 0 v = s.dev.setCtx x (s.dev.ctx x)) ∧
  (∀ (x : Ctx) (d i : Fin 32) (v : Word) (s : State), i ≠ d → (s.dev.setGpr x d v).gpr x i = s.dev.gpr x i) ∧
  (∀ (x : Ctx) (d : Fin 32) (v : Word) (s : State), d ≠ 0 → (s.dev.setGpr x d v).gpr x d = v) ∧
  (∀ (x : Ctx) (f : RepWord) (v : Word) (s : State), IsaReady x s → f.mode = 0 → f.a = 0 → f.imm ≠ 0 →
    s.dev.fetchWord x ((s.dev.ctx x).pc + 1) = (none, v, s.dev) → repForbidden (fld v 47 40) = false →
    ∃ t, exec (.isaRep x f) s = .next t ∧ t.dev.ctx x = { s.dev.ctx x with rep := some f.imm.toNat } ∧
      IsaOnly x [] s t) ∧
  (∀ (x : Ctx) (f : RepWord) (v : Word) (s : State), IsaReady x s → f.mode = 1 → f.imm = 0 →
    s.dev.fetchWord x ((s.dev.ctx x).pc + 1) = (none, v, s.dev) → repForbidden (fld v 47 40) = false →
    s.dev.gpr x f.a = 0 →
    ∃ t, exec (.isaRep x f) s = .next t ∧ t.dev.ctx x = { s.dev.ctx x with pc := (s.dev.ctx x).pc + 2 } ∧
      IsaOnly x [] s t) ∧
  (∀ (x : Ctx) (f : RR) (n : Nat) (s : State), s.dev.powered = true → s.dev.ctxRuns x = true → s.dev.inGather x = false →
    (s.dev.ctx x).rep = some (n + 2) → f.rsv = 0 → f.func = 0 →
    ∃ t, exec (.isaAdd x f) s = .next t ∧ (t.dev.ctx x).rep = some (n + 1) ∧ (t.dev.ctx x).pc = (s.dev.ctx x).pc ∧
      t.dev.gpr x f.d = (if f.d = 0 then 0 else s.dev.gpr x f.a + s.dev.gpr x f.b) ∧ IsaOnly x [] s t) ∧
  (∀ (x : Ctx) (f : RR) (s : State), s.dev.powered = true → s.dev.ctxRuns x = true → s.dev.inGather x = false →
    (s.dev.ctx x).rep = some 1 → f.rsv = 0 → f.func = 0 →
    ∃ t, exec (.isaAdd x f) s = .next t ∧ (t.dev.ctx x).rep = none ∧ (t.dev.ctx x).pc = (s.dev.ctx x).pc + 2 ∧
      t.dev.gpr x f.d = (if f.d = 0 then 0 else s.dev.gpr x f.a + s.dev.gpr x f.b) ∧ IsaOnly x [] s t)

/-- R355–R358, R363, R368: loads and stores of whole words and lanes in SRAM, with and without increment, MOVW, FILLW, CRCM and
FENCE; a store changes only the word at its address, and a store to a register is a write of that register. -/
def Obligations.MemoryInstructions : Prop :=
  (∀ (x : Ctx) (f : RI) (ea v : Word) (s : State), IsaReady x s → s.dev.gpr x f.a + f.imm.signExtend 48 = ea →
    s.dev.accessFault x ea false true = none → (sramRegion ea.toNat).isSome = true →
    decodeWord (s.dev.cell ea.toNat) = .ok v →
    ∃ t, exec (.isaLd x f) s = .next t ∧ IsaWrites x f.d v s t ∧ IsaOnly x [] s t) ∧
  (∀ (x : Ctx) (f : RI) (ea : Word) (s : State), IsaReady x s → s.dev.gpr x f.a + f.imm.signExtend 48 = ea →
    s.dev.accessFault x ea true true = none → (sramRegion ea.toNat).isSome = true → s.dev.rdB .edcInjCtl 0 8 = false →
    memWf .blank s.dev.sram = true →
    ∃ t, exec (.isaSt x f) s = .next t ∧ t.dev.cell ea.toNat = goodWord (s.dev.gpr x f.d) ∧ IsaPasses x s t ∧
      SramOnly ea.toNat 1 s t ∧ IsaOnly x [.sram] s t) ∧
  (∀ (x : Ctx) (f : RI) (ea : Word) (win off : Nat) (s : State), IsaReady x s → s.dev.gpr x f.a + f.imm.signExtend 48 = ea →
    s.dev.accessFault x ea true true = none → dasArea ea.toNat = .reg win off →
    ∃ t, exec (.isaSt x f) s = .next t ∧ t.pending = s.pending ∧
      t.dev = Dev.busWrite (ctxRequester x) win off ((s.dev.gpr x f.d).setWidth 64)
        ((s.dev.passHold x).setCtx x { s.dev.ctx x with pc := (s.dev.ctx x).pc + 1 })) ∧
  (∀ (x : Ctx) (f : RI) (ea : Word) (e : Nat × Nat) (s : State), IsaReady x s → s.dev.gpr x f.a + f.imm.signExtend 48 = ea →
    s.dev.accessFault x ea false true = some e →
    ∃ t, exec (.isaLd x f) s = .next t ∧
      t.dev = (s.dev.passHold x).instrFault x 0x30 (s.dev.ctx x).pc e.1 e.2 ea) ∧
  (∀ (x : Ctx) (f : RI) (ea : Word) (e : Nat × Nat) (s : State), IsaReady x s → s.dev.gpr x f.a + f.imm.signExtend 48 = ea →
    s.dev.accessFault x ea true true = some e →
    ∃ t, exec (.isaSt x f) s = .next t ∧
      t.dev = (s.dev.passHold x).instrFault x 0x31 (s.dev.ctx x).pc e.1 e.2 ea) ∧
  (∀ (x : Ctx) (f : RR) (ea v : Word) (lane : Nat) (s : State), IsaReady x s → f.rsv = 0 → f.func.toNat = lane →
    s.dev.gpr x f.a + s.dev.gpr x f.b = ea → s.dev.accessFault x ea false false = none →
    (sramRegion ea.toNat).isSome = true → decodeWord (s.dev.cell ea.toNat) = .ok v →
    (lane < 6 → ∃ t, exec (.isaLdb x f) s = .next t ∧ IsaWrites x f.d (wordOf (v.toNat / 2 ^ (8 * lane) % 2 ^ 8)) s t ∧
      IsaOnly x [] s t) ∧
    (lane < 3 → ∃ t, exec (.isaLds x f) s = .next t ∧ IsaWrites x f.d (wordOf (v.toNat / 2 ^ (16 * lane) % 2 ^ 16)) s t ∧
      IsaOnly x [] s t) ∧
    (lane < 2 → ∃ t, exec (.isaLdt x f) s = .next t ∧ IsaWrites x f.d (wordOf (v.toNat / 2 ^ (24 * lane) % 2 ^ 24)) s t ∧
      IsaOnly x [] s t)) ∧
  (∀ (x : Ctx) (f : RR) (ea v : Word) (lane : Nat) (s : State), IsaReady x s → f.rsv = 0 → f.func.toNat = lane →
    s.dev.gpr x f.a + s.dev.gpr x f.b = ea → s.dev.accessFault x ea true false = none →
    (sramRegion ea.toNat).isSome = true → decodeWord (s.dev.cell ea.toNat) = .ok v → s.dev.rdB .edcInjCtl 0 8 = false →
    memWf .blank s.dev.sram = true →
    (lane < 6 → ∃ t, exec (.isaStb x f) s = .next t ∧
      t.dev.cell ea.toNat = goodWord (setFld v (8 * lane + 7) (8 * lane) (s.dev.gpr x f.d).toNat) ∧
      IsaPasses x s t ∧ SramOnly ea.toNat 1 s t ∧ IsaOnly x [.sram] s t) ∧
    (lane < 3 → ∃ t, exec (.isaSts x f) s = .next t ∧
      t.dev.cell ea.toNat = goodWord (setFld v (16 * lane + 15) (16 * lane) (s.dev.gpr x f.d).toNat) ∧
      IsaPasses x s t ∧ SramOnly ea.toNat 1 s t ∧ IsaOnly x [.sram] s t) ∧
    (lane < 2 → ∃ t, exec (.isaStt x f) s = .next t ∧
      t.dev.cell ea.toNat = goodWord (setFld v (24 * lane + 23) (24 * lane) (s.dev.gpr x f.d).toNat) ∧
      IsaPasses x s t ∧ SramOnly ea.toNat 1 s t ∧ IsaOnly x [.sram] s t)) ∧
  (∀ (x : Ctx) (f : RI) (ea v : Word) (s : State), IsaReady x s → f.a ≠ 0 → f.d ≠ 0 → f.d ≠ f.a → s.dev.gpr x f.a = ea →
    s.dev.accessFault x ea false true = none → (sramRegion ea.toNat).isSome = true →
    decodeWord (s.dev.cell ea.toNat) = .ok v →
    ∃ t, exec (.isaLdinc x f) s = .next t ∧ t.dev.gpr x f.d = v ∧ t.dev.gpr x f.a = ea + f.imm.signExtend 48 ∧
      (∀ i : Fin 32, i ≠ f.a → i ≠ f.d → t.dev.gpr x i = s.dev.gpr x i) ∧
      (t.dev.ctx x).pc = (s.dev.ctx x).pc + 1 ∧ (t.dev.ctx x).sp = (s.dev.ctx x).sp ∧ IsaOnly x [] s t) ∧
  (∀ (x : Ctx) (f : RI) (ea : Word) (s : State), IsaReady x s → f.a ≠ 0 → s.dev.gpr x f.a = ea →
    s.dev.accessFault x ea true true = none → (sramRegion ea.toNat).isSome = true → s.dev.rdB .edcInjCtl 0 8 = false →
    memWf .blank s.dev.sram = true →
    ∃ t, exec (.isaStinc x f) s = .next t ∧ t.dev.cell ea.toNat = goodWord (s.dev.gpr x f.d) ∧
      IsaWrites x f.a (ea + f.imm.signExtend 48) s t ∧ SramOnly ea.toNat 1 s t ∧ IsaOnly x [.sram] s t) ∧
  (∀ (x : Ctx) (f : RR) (a b v : Word) (s : State), IsaReady x s → f.rsv = 0 → f.func = 0 → f.d = 0 → f.a ≠ 0 → f.b ≠ 0 →
    f.a ≠ f.b → s.dev.gpr x f.a = a → s.dev.gpr x f.b = b → s.dev.accessFault x b false true = none →
    s.dev.accessFault x a true true = none → (sramRegion a.toNat).isSome = true → (sramRegion b.toNat).isSome = true →
    decodeWord (s.dev.cell b.toNat) = .ok v → s.dev.rdB .edcInjCtl 0 8 = false → memWf .blank s.dev.sram = true →
    ∃ t, exec (.isaMovw x f) s = .next t ∧ t.dev.cell a.toNat = goodWord v ∧ t.dev.gpr x f.a = a + 1 ∧
      t.dev.gpr x f.b = b + 1 ∧ (∀ i : Fin 32, i ≠ f.a → i ≠ f.b → t.dev.gpr x i = s.dev.gpr x i) ∧
      (t.dev.ctx x).pc = (s.dev.ctx x).pc + 1 ∧ SramOnly a.toNat 1 s t ∧ IsaOnly x [.sram] s t) ∧
  (∀ (x : Ctx) (f : RR) (a : Word) (s : State), IsaReady x s → f.rsv = 0 → f.func = 0 → f.b = 0 → s.dev.gpr x f.a = a →
    s.dev.accessFault x a true true = none → (sramRegion a.toNat).isSome = true → s.dev.rdB .edcInjCtl 0 8 = false →
    memWf .blank s.dev.sram = true →
    ∃ t, exec (.isaFillw x f) s = .next t ∧ t.dev.cell a.toNat = goodWord (s.dev.gpr x f.d) ∧
      IsaWrites x f.a (a + 1) s t ∧ SramOnly a.toNat 1 s t ∧ IsaOnly x [.sram] s t) ∧
  (∀ (x : Ctx) (f : RR) (a v : Word) (s : State), IsaReady x s → f.rsv = 0 → f.func = 0 → f.b = 0 → f.a ≠ 0 → f.d ≠ 0 →
    f.a ≠ f.d → s.dev.gpr x f.a = a → s.dev.accessFault x a false true = none → (sramRegion a.toNat).isSome = true →
    decodeWord (s.dev.cell a.toNat) = .ok v →
    ∃ t, exec (.isaCrcm x f) s = .next t ∧
      t.dev.gpr x f.d = ((bytesOfWord v).foldl crcByte ((s.dev.gpr x f.d).setWidth 32)).setWidth 48 ∧
      t.dev.gpr x f.a = a + 1 ∧ (∀ i : Fin 32, i ≠ f.a → i ≠ f.d → t.dev.gpr x i = s.dev.gpr x i) ∧
      (t.dev.ctx x).pc = (s.dev.ctx x).pc + 1 ∧ IsaOnly x [] s t) ∧
  (∀ (x : Ctx) (f : RR) (s : State), IsaReady x s → f.rsv = 0 → f.func = 0 → f.d = 0 → f.a = 0 → f.b = 0 →
    ∃ t, exec (.isaFence x f) s = .next t ∧ IsaPasses x s t ∧ IsaOnly x [] s t)

/-- R364, R365: SWAP, ADDM and CAS give the word before to d and put the word after in its place in one step; CAS leaves the
word where it does not match d. -/
def Obligations.AtomicInstructions : Prop :=
  (∀ (x : Ctx) (f : RR) (ea v : Word) (s : State), IsaReady x s → f.rsv = 0 → f.func = 0 →
    s.dev.gpr x f.a = ea → s.dev.accessFault x ea true false = none → (sramRegion ea.toNat).isSome = true →
    decodeWord (s.dev.cell ea.toNat) = .ok v → s.dev.rdB .edcInjCtl 0 8 = false → memWf .blank s.dev.sram = true →
    (∃ t, exec (.isaSwap x f) s = .next t ∧ decodeWord (t.dev.cell ea.toNat) = .ok (s.dev.gpr x f.b) ∧
      IsaWrites x f.d v s t ∧ SramOnly ea.toNat 1 s t ∧ IsaOnly x [.sram] s t) ∧
    (∃ t, exec (.isaAddm x f) s = .next t ∧ decodeWord (t.dev.cell ea.toNat) = .ok (v + s.dev.gpr x f.b) ∧
      IsaWrites x f.d v s t ∧ SramOnly ea.toNat 1 s t ∧ IsaOnly x [.sram] s t) ∧
    (∃ t, exec (.isaCas x f) s = .next t ∧
      decodeWord (t.dev.cell ea.toNat) = .ok (if v = s.dev.gpr x f.d then s.dev.gpr x f.b else v) ∧
      IsaWrites x f.d v s t ∧ SramOnly ea.toNat 1 s t ∧ IsaOnly x [.sram] s t)) ∧
  (∀ (x : Ctx) (f : RR) (ea v : Word) (s : State), IsaReady x s → f.rsv = 0 → f.func = 0 →
    s.dev.gpr x f.a = ea → s.dev.accessFault x ea true false = none → (sramRegion ea.toNat).isSome = true →
    decodeWord (s.dev.cell ea.toNat) = .ok v → v ≠ s.dev.gpr x f.d →
    ∃ t, exec (.isaCas x f) s = .next t ∧ IsaWrites x f.d v s t ∧ IsaOnly x [] s t)

/-- R350, R371–R374: JMPL and JMPR link and jump; BR and BRI go to pc plus their offset where the condition holds and to the next
word where it does not; RDPOS, RDVEL, RDTIME, PDIFF and SELF give their values; a HINT only passes. -/
def Obligations.JumpsAndReads : Prop :=
  (∀ (x : Ctx) (f : RI) (s : State), IsaReady x s → f.a = 0 →
    ∃ t, exec (.isaJmpl x f) s = .next t ∧
      IsaTo x f.d ((s.dev.ctx x).pc + 1) ((s.dev.ctx x).pc + f.imm.signExtend 48) s t ∧ IsaOnly x [] s t) ∧
  (∀ (x : Ctx) (f : RI) (s : State), IsaReady x s →
    ∃ t, exec (.isaJmpr x f) s = .next t ∧
      IsaTo x f.d ((s.dev.ctx x).pc + 1) (s.dev.gpr x f.a + f.imm.signExtend 48) s t ∧ IsaOnly x [] s t) ∧
  (∀ (x : Ctx) (f : CB) (a b : Word) (c : Bool) (s : State), IsaReady x s → s.dev.gpr x f.a = a → s.dev.gpr x f.b = b →
    (f.cond.val, c) ∈ [(0, decide (a = b)), (1, decide (a ≠ b)), (2, decide (a.toInt < b.toInt)),
      (3, decide (b.toInt ≤ a.toInt)), (4, decide (a < b)), (5, decide (b ≤ a)), (6, decide (0 ≤ (a - b).toInt)),
      (7, decide ((a - b).toInt < 0)), (8, decide (a &&& b ≠ 0)), (9, decide (a &&& b = 0))] →
    ∃ t, exec (.isaBr x f) s = .next t ∧ IsaTo x 0 0
      (if c then (s.dev.ctx x).pc + f.off.signExtend 48 else (s.dev.ctx x).pc + 1) s t ∧ IsaOnly x [] s t) ∧
  (∀ (x : Ctx) (f : CB) (s : State), IsaReady x s → f.cond = 14 → f.a = 0 → f.b = 0 →
    ∃ t, exec (.isaBr x f) s = .next t ∧ IsaTo x 0 0 ((s.dev.ctx x).pc + f.off.signExtend 48) s t ∧ IsaOnly x [] s t) ∧
  (∀ (x : Ctx) (f : CB) (a b : Word) (s : State), IsaReady x s → isControl x = true → s.dev.gpr x f.a = a →
    s.dev.gpr x f.b = b → 10 ≤ f.cond.val → f.cond.val ≤ 13 →
    ∃ t, exec (.isaBr x f) s = .next t ∧
      (t.dev.ctx x).pc = (if (fcompare f.cond.val (f48 a) (f48 b)).1 then (s.dev.ctx x).pc + f.off.signExtend 48
        else (s.dev.ctx x).pc + 1) ∧
      (t.dev.ctx x).special 10 = (s.dev.ctx x).special 10 ||| wordOf (fcompare f.cond.val (f48 a) (f48 b)).2 ∧
      (∀ i : Fin 32, t.dev.gpr x i = s.dev.gpr x i) ∧ IsaOnly x [] s t) ∧
  (∀ (x : Ctx) (f : CBI) (s : State), IsaReady x s → f.cond = 14 → f.a = 0 → f.imm = 0 →
    ∃ t, exec (.isaBri x f) s = .next t ∧ IsaTo x 0 0 ((s.dev.ctx x).pc + f.off.signExtend 48) s t ∧ IsaOnly x [] s t) ∧
  (∀ (x : Ctx) (f : CBI) (a b : Word) (c : Bool) (s : State), IsaReady x s → s.dev.gpr x f.a = a →
    f.imm.signExtend 48 = b →
    (f.cond.val, c) ∈ [(0, decide (a = b)), (1, decide (a ≠ b)), (2, decide (a.toInt < b.toInt)),
      (3, decide (b.toInt ≤ a.toInt)), (4, decide (a < b)), (5, decide (b ≤ a)), (6, decide (0 ≤ (a - b).toInt)),
      (7, decide ((a - b).toInt < 0))] →
    ∃ t, exec (.isaBri x f) s = .next t ∧ IsaTo x 0 0
      (if c then (s.dev.ctx x).pc + f.off.signExtend 48 else (s.dev.ctx x).pc + 1) s t ∧ IsaOnly x [] s t) ∧
  (∀ (x : Ctx) (f : CBI) (s : State), IsaReady x s → (f.cond = 8 ∨ f.cond = 9) → f.imm.toNat < 48 →
    ∃ t, exec (.isaBri x f) s = .next t ∧ IsaTo x 0 0
      (if bit (s.dev.gpr x f.a) f.imm.toNat = decide (f.cond = 8) then (s.dev.ctx x).pc + f.off.signExtend 48
       else (s.dev.ctx x).pc + 1) s t ∧ IsaOnly x [] s t) ∧
  (∀ (x : Ctx) (f : RI) (s : State), IsaReady x s → f.a = 0 → f.imm.toNat < 4 → s.dev.regOn .sprAxnPos f.imm.toNat = true →
    ∃ t, exec (.isaRdpos x f) s = .next t ∧ IsaWrites x f.d (s.dev.axisPos f.imm.toNat) s t ∧ IsaOnly x [] s t) ∧
  (∀ (x : Ctx) (f : RI) (s : State), IsaReady x s → f.a = 0 → f.imm.toNat < 4 → s.dev.regOn .sprAxnVel f.imm.toNat = true →
    ∃ t, exec (.isaRdvel x f) s = .next t ∧ IsaWrites x f.d (s.dev.axisVel f.imm.toNat) s t ∧ IsaOnly x [] s t) ∧
  (∀ (x : Ctx) (f : RI) (s : State), IsaReady x s → f.a = 0 → f.imm = 0 →
    (∃ t, exec (.isaRdtime x f) s = .next t ∧ IsaWrites x f.d (s.dev.now) s t ∧ IsaOnly x [] s t) ∧
    (∃ t, exec (.isaSelf x f) s = .next t ∧ IsaWrites x f.d (wordOf (ctxNum x)) s t ∧ IsaOnly x [] s t)) ∧
  (∀ (x : Ctx) (f : RR) (s : State), IsaReady x s → f.rsv = 0 → 1 ≤ f.func.toNat → f.func.toNat ≤ 48 →
    ∃ t, exec (.isaPdiff x f) s = .next t ∧
      IsaWrites x f.d (((s.dev.gpr x f.a - s.dev.gpr x f.b).setWidth f.func.toNat).signExtend 48) s t ∧
      IsaOnly x [] s t) ∧
  (∀ (x : Ctx) (k : Fin 8) (r : BitVec 40) (s : State), s.dev.powered = true → s.dev.ctxRuns x = true →
    (s.dev.ctx x).rep = none →
    ∃ t, exec (.isaHint x k r) s = .next t ∧ IsaPasses x s t ∧ IsaOnly x [] s t)

/-- R375–R377: in the control profile an F48 instruction writes its result, rounded in the mode that func9 or FCSR selects, and
ORs its flags into FCSR; FSGN and FCLASS set no flag; in the channel profile each of them is fault 11h/03h. -/
def Obligations.FloatInstructions : Prop :=
  (∀ (x : Ctx) (f : RR) (a b d : Word) (m : RMode) (s : State), IsaReady x s → isControl x = true → f.rsv = 0 →
    s.dev.gpr x f.a = a → s.dev.gpr x f.b = b → s.dev.gpr x f.d = d →
    (f.func.toNat, m) ∈ [(0, rmode (fld ((s.dev.ctx x).special 10) 6 5)), (1, .rne), (2, .rtz), (3, .rup), (4, .rdn)] →
    (∃ t, exec (.isaFadd x f) s = .next t ∧ t.dev.gpr x f.d = (if f.d = 0 then 0 else (fadd m (f48 a) (f48 b)).1) ∧
      (t.dev.ctx x).special 10 = (s.dev.ctx x).special 10 ||| wordOf (fadd m (f48 a) (f48 b)).2 ∧
      (∀ i : Fin 32, i ≠ f.d → t.dev.gpr x i = s.dev.gpr x i) ∧ (t.dev.ctx x).pc = (s.dev.ctx x).pc + 1 ∧ IsaOnly x [] s t) ∧
    (∃ t, exec (.isaFsub x f) s = .next t ∧ t.dev.gpr x f.d = (if f.d = 0 then 0 else (fsub m (f48 a) (f48 b)).1) ∧
      (t.dev.ctx x).special 10 = (s.dev.ctx x).special 10 ||| wordOf (fsub m (f48 a) (f48 b)).2 ∧
      (∀ i : Fin 32, i ≠ f.d → t.dev.gpr x i = s.dev.gpr x i) ∧ (t.dev.ctx x).pc = (s.dev.ctx x).pc + 1 ∧ IsaOnly x [] s t) ∧
    (∃ t, exec (.isaFmul x f) s = .next t ∧ t.dev.gpr x f.d = (if f.d = 0 then 0 else (fmul m (f48 a) (f48 b)).1) ∧
      (t.dev.ctx x).special 10 = (s.dev.ctx x).special 10 ||| wordOf (fmul m (f48 a) (f48 b)).2 ∧
      (∀ i : Fin 32, i ≠ f.d → t.dev.gpr x i = s.dev.gpr x i) ∧ (t.dev.ctx x).pc = (s.dev.ctx x).pc + 1 ∧ IsaOnly x [] s t) ∧
    (∃ t, exec (.isaFdiv x f) s = .next t ∧ t.dev.gpr x f.d = (if f.d = 0 then 0 else (fdiv m (f48 a) (f48 b)).1) ∧
      (t.dev.ctx x).special 10 = (s.dev.ctx x).special 10 ||| wordOf (fdiv m (f48 a) (f48 b)).2 ∧
      (∀ i : Fin 32, i ≠ f.d → t.dev.gpr x i = s.dev.gpr x i) ∧ (t.dev.ctx x).pc = (s.dev.ctx x).pc + 1 ∧ IsaOnly x [] s t) ∧
    (∃ t, exec (.isaFma x f) s = .next t ∧ t.dev.gpr x f.d = (if f.d = 0 then 0 else (fma m (f48 a) (f48 b) (f48 d)).1) ∧
      (t.dev.ctx x).special 10 = (s.dev.ctx x).special 10 ||| wordOf (fma m (f48 a) (f48 b) (f48 d)).2 ∧
      (∀ i : Fin 32, i ≠ f.d → t.dev.gpr x i = s.dev.gpr x i) ∧ (t.dev.ctx x).pc = (s.dev.ctx x).pc + 1 ∧ IsaOnly x [] s t) ∧
    (f.b = 0 → ∃ t, exec (.isaFsqrt x f) s = .next t ∧ t.dev.gpr x f.d = (if f.d = 0 then 0 else (fsqrt m (f48 a)).1) ∧
      (t.dev.ctx x).special 10 = (s.dev.ctx x).special 10 ||| wordOf (fsqrt m (f48 a)).2 ∧
      (∀ i : Fin 32, i ≠ f.d → t.dev.gpr x i = s.dev.gpr x i) ∧ (t.dev.ctx x).pc = (s.dev.ctx x).pc + 1 ∧ IsaOnly x [] s t) ∧
    (f.b = 0 → ∃ t, exec (.isaItof x f) s = .next t ∧ t.dev.gpr x f.d = (if f.d = 0 then 0 else (itof m a.toInt).1) ∧
      (t.dev.ctx x).special 10 = (s.dev.ctx x).special 10 ||| wordOf (itof m a.toInt).2 ∧
      (∀ i : Fin 32, i ≠ f.d → t.dev.gpr x i = s.dev.gpr x i) ∧ (t.dev.ctx x).pc = (s.dev.ctx x).pc + 1 ∧ IsaOnly x [] s t) ∧
    (f.b = 0 → ∃ t, exec (.isaFtoi x f) s = .next t ∧ t.dev.gpr x f.d = (if f.d = 0 then 0 else (ftoi m true (f48 a)).1) ∧
      (t.dev.ctx x).special 10 = (s.dev.ctx x).special 10 ||| wordOf (ftoi m true (f48 a)).2 ∧
      (∀ i : Fin 32, i ≠ f.d → t.dev.gpr x i = s.dev.gpr x i) ∧ (t.dev.ctx x).pc = (s.dev.ctx x).pc + 1 ∧ IsaOnly x [] s t)) ∧
  (∀ (x : Ctx) (f : RR) (a : Word) (m : RMode) (s : State), IsaReady x s → isControl x = true → f.rsv = 0 → f.b = 0 →
    s.dev.gpr x f.a = a →
    (f.func.toNat, m) ∈ [(8, rmode (fld ((s.dev.ctx x).special 10) 6 5)), (9, .rne), (10, .rtz), (11, .rup), (12, .rdn)] →
    (∃ t, exec (.isaItof x f) s = .next t ∧ t.dev.gpr x f.d = (if f.d = 0 then 0 else (itof m (a.toNat : Int)).1) ∧
      (t.dev.ctx x).special 10 = (s.dev.ctx x).special 10 ||| wordOf (itof m (a.toNat : Int)).2 ∧
      (∀ i : Fin 32, i ≠ f.d → t.dev.gpr x i = s.dev.gpr x i) ∧ (t.dev.ctx x).pc = (s.dev.ctx x).pc + 1 ∧ IsaOnly x [] s t) ∧
    (∃ t, exec (.isaFtoi x f) s = .next t ∧ t.dev.gpr x f.d = (if f.d = 0 then 0 else (ftoi m false (f48 a)).1) ∧
      (t.dev.ctx x).special 10 = (s.dev.ctx x).special 10 ||| wordOf (ftoi m false (f48 a)).2 ∧
      (∀ i : Fin 32, i ≠ f.d → t.dev.gpr x i = s.dev.gpr x i) ∧ (t.dev.ctx x).pc = (s.dev.ctx x).pc + 1 ∧ IsaOnly x [] s t)) ∧
  (∀ (x : Ctx) (f : RR) (a b : Word) (s : State), IsaReady x s → isControl x = true → f.rsv = 0 → f.func = 0 →
    s.dev.gpr x f.a = a → s.dev.gpr x f.b = b →
    (∃ t, exec (.isaFmin x f) s = .next t ∧ t.dev.gpr x f.d = (if f.d = 0 then 0 else (fminmax false a b).1) ∧
      (t.dev.ctx x).special 10 = (s.dev.ctx x).special 10 ||| wordOf (fminmax false a b).2 ∧
      (∀ i : Fin 32, i ≠ f.d → t.dev.gpr x i = s.dev.gpr x i) ∧ (t.dev.ctx x).pc = (s.dev.ctx x).pc + 1 ∧ IsaOnly x [] s t) ∧
    (∃ t, exec (.isaFmax x f) s = .next t ∧ t.dev.gpr x f.d = (if f.d = 0 then 0 else (fminmax true a b).1) ∧
      (t.dev.ctx x).special 10 = (s.dev.ctx x).special 10 ||| wordOf (fminmax true a b).2 ∧
      (∀ i : Fin 32, i ≠ f.d → t.dev.gpr x i = s.dev.gpr x i) ∧ (t.dev.ctx x).pc = (s.dev.ctx x).pc + 1 ∧ IsaOnly x [] s t)) ∧
  (∀ (x : Ctx) (f : RR) (a b : Word) (c : Bool) (s : State), IsaReady x s → isControl x = true → f.rsv = 0 →
    s.dev.gpr x f.a = a → s.dev.gpr x f.b = b →
    ((f.func = 0 ∧ f.b = 0 ∧ c = !bit a 47) ∨ (f.func = 1 ∧ f.b = 0 ∧ c = false) ∨ (f.func = 2 ∧ c = bit b 47)) →
    ∃ t, exec (.isaFsgn x f) s = .next t ∧ IsaWrites x f.d (setBit a 47 c) s t ∧ IsaOnly x [] s t) ∧
  (∀ (x : Ctx) (f : RR) (s : State), IsaReady x s → isControl x = true → f.rsv = 0 → f.func = 0 → f.b = 0 →
    ∃ t, exec (.isaFclass x f) s = .next t ∧ IsaWrites x f.d (fclass (s.dev.gpr x f.a)) s t ∧ IsaOnly x [] s t) ∧
  (∀ (c : Fin 512) (f : RR) (s : State) (i : Instr), IsaReady (.channel c) s →
    i ∈ [.isaFadd (.channel c) f, .isaFsub (.channel c) f, .isaFmul (.channel c) f, .isaFdiv (.channel c) f,
      .isaFsqrt (.channel c) f, .isaFma (.channel c) f, .isaFmin (.channel c) f, .isaFmax (.channel c) f,
      .isaItof (.channel c) f, .isaFtoi (.channel c) f, .isaFsgn (.channel c) f, .isaFclass (.channel c) f] →
    ∃ t, exec i s = .next t ∧ t.dev.chState c = 4 ∧ t.dev.chReason c = 6 ∧ t.dev.rdF .ibxChcCsw0 c 47 40 = 0x11 ∧
      t.dev.rdF .ibxChcCsw0 c 39 32 = 3)

/-- R382–R385: MFS and MTS read and write the special registers, MFA and MTA the other bank; ERET leaves a trap; WFE passes while
a record is there, else waits, and WFE_WAKE ends the wait; TRAP takes a normal trap of KIND 1 that returns after it. -/
def Obligations.SystemInstructions : Prop :=
  (∀ (x : Ctx) (f : RI) (s : State), IsaReady x s → isControl x = true → f.a = 0 → f.imm.toNat ≤ 17 →
    ∃ t, exec (.isaMfs x f) s = .next t ∧ IsaWrites x f.d
      (if f.imm = 0 then 0x101 else if f.imm = 1 then (s.dev.ctx x).status else if f.imm = 16 then s.dev.cycles x
        else (s.dev.ctx x).special f.imm.toNat) s t ∧ IsaOnly x [] s t) ∧
  (∀ (x : Ctx) (f : RI) (s : State), IsaReady x s → isControl x = true → f.d = 0 → f.imm = 0 ∨ f.imm = 16 →
    bit (s.dev.ctx x).status 4 = false →
    ∃ t, exec (.isaMts x f) s = .next t ∧ (t.dev.ctx x).pc = (s.dev.ctx x).special 8 ∧
      (t.dev.ctx x).special 2 = (s.dev.ctx x).pc ∧ (t.dev.ctx x).special 6 = setFld (setFld 0 47 40 0x12) 39 32 2) ∧
  (∀ (x : Ctx) (f : RI) (m : Word) (s : State), IsaReady x s → isControl x = true → f.d = 0 → f.imm.toNat ≤ 17 →
    f.imm.toNat ≠ 1 → specialMask f.imm.toNat = some m →
    ∃ t, exec (.isaMts x f) s = .next t ∧
      (t.dev.ctx x).special f.imm.toNat = s.dev.gpr x f.a &&& m ∧
      (∀ k : Fin 18, k.val ≠ f.imm.toNat → (t.dev.ctx x).special k = (s.dev.ctx x).special k) ∧
      (t.dev.ctx x).pc = (s.dev.ctx x).pc + 1 ∧ (∀ i : Fin 32, t.dev.gpr x i = s.dev.gpr x i) ∧ IsaOnly x [] s t) ∧
  (∀ (x : Ctx) (f : RI) (s : State), IsaReady x s → isControl x = true → f.d = 0 → f.imm = 1 →
    ∃ t, exec (.isaMts x f) s = .next t ∧ bit (t.dev.ctx x).status 0 = bit (s.dev.gpr x f.a) 0 ∧
      bit (t.dev.ctx x).status 1 = bit (s.dev.gpr x f.a) 1 ∧
      (∀ k : Fin 6, 2 ≤ k.val → bit (t.dev.ctx x).status k = bit (s.dev.ctx x).status k) ∧ IsaOnly x [] s t) ∧
  (∀ (x : Ctx) (f : RR) (s : State), IsaReady x s → isControl x = true → f.rsv = 0 → f.func = 0 → f.d = 0 → f.a = 0 →
    f.b = 0 → bit (s.dev.ctx x).status 3 = true → bit ((s.dev.ctx x).special 3) 5 = false →
    ∃ t, exec (.isaEret x f) s = .next t ∧ (t.dev.ctx x).pc = (s.dev.ctx x).special 2 ∧
      (t.dev.ctx x).special 1 = (s.dev.ctx x).special 3 ∧ (t.dev.ctx x).rep = none ∧
      (t.dev.ctx x).w = (s.dev.ctx x).w ∧ (t.dev.ctx x).alt = (s.dev.ctx x).alt ∧ IsaOnly x [] s t) ∧
  (∀ (x : Ctx) (f : RR) (s : State), IsaReady x s → isControl x = true → f.rsv = 0 → f.func = 0 → f.d = 0 → f.a = 0 →
    f.b = 0 → bit (s.dev.ctx x).status 3 = false → bit (s.dev.ctx x).status 2 = true →
    bit ((s.dev.ctx x).special 5) 5 = true → (s.dev.ctx x).special 12 ≠ 0 →
    ∃ t, exec (.isaEret x f) s = .next t ∧ (t.dev.ctx x).pc = (s.dev.ctx x).special 4 ∧
      (t.dev.ctx x).special 1 = (s.dev.ctx x).special 5 ∧ (t.dev.ctx x).rep = some ((s.dev.ctx x).special 12).toNat ∧
      IsaOnly x [] s t) ∧
  (∀ (x : Ctx) (f : RR) (s : State), IsaReady x s → isControl x = true → f.rsv = 0 → f.func = 0 → f.d = 0 → f.a = 0 →
    f.b = 0 → bit (s.dev.ctx x).status 3 = false → bit (s.dev.ctx x).status 2 = false → bit (s.dev.ctx x).status 4 = false →
    ∃ t, exec (.isaEret x f) s = .next t ∧ (t.dev.ctx x).pc = (s.dev.ctx x).special 8 ∧
      (t.dev.ctx x).special 2 = (s.dev.ctx x).pc ∧ (t.dev.ctx x).special 6 = setFld (setFld 0 47 40 0x11) 39 32 2) ∧
  (∀ (x : Ctx) (f : RR) (s : State), IsaReady x s → isControl x = true → f.rsv = 0 → f.func = 0 → f.d = 0 → f.a = 0 →
    f.b = 0 → s.dev.hasRecord x = true →
    ∃ t, exec (.isaWfe x f) s = .next t ∧ IsaPasses x s t ∧ IsaOnly x [] s t) ∧
  (∀ (k : Fin 4) (f : RR) (s : State), IsaReady (.core k) s → f.rsv = 0 → f.func = 0 → f.d = 0 → f.a = 0 → f.b = 0 →
    s.dev.hasRecord (.core k) = false →
    ∃ t, exec (.isaWfe (.core k) f) s = .next t ∧ t.dev.isWaiting (.core k) = true ∧
      (t.dev.ctx (.core k)).pc = (s.dev.ctx (.core k)).pc ∧ RegsOnly [regKey .ctlCorekCtl k] s t ∧
      IsaOnly (.core k) [.regs] s t) ∧
  (∀ (f : RR) (s : State), IsaReady .goatherd s → f.rsv = 0 → f.func = 0 → f.d = 0 → f.a = 0 → f.b = 0 →
    s.dev.hasRecord .goatherd = false →
    ∃ t, exec (.isaWfe .goatherd f) s = .next t ∧ t.dev.ctx .goatherd = { s.dev.ctx .goatherd with waiting := true } ∧
      IsaOnly .goatherd [] s t) ∧
  (∀ (x : Ctx) (s : State), s.dev.isWaiting x = false ∨ s.dev.hasRecord x = false → exec (.wfeWake x) s = .next s) ∧
  (∀ (x : Ctx) (s : State), s.dev.powered = true → s.dev.isWaiting x = true → s.dev.hasRecord x = true →
    ∃ t, exec (.wfeWake x) s = .next t ∧ t.dev.isWaiting x = false ∧ (t.dev.ctx x).pc = (s.dev.ctx x).pc + 1 ∧
      (∀ i : Fin 32, t.dev.gpr x i = s.dev.gpr x i) ∧ IsaOnly x [.regs] s t) ∧
  (∀ (x : Ctx) (f : RR) (s : State), IsaReady x s → isControl x = true → f.rsv = 0 → f.func = 0 → f.b = 0 →
    ∃ t, exec (.isaMfa x f) s = .next t ∧ IsaWrites x f.d ((s.dev.ctx x).reg (!(s.dev.ctx x).fast) f.a) s t ∧
      IsaOnly x [] s t) ∧
  (∀ (x : Ctx) (f : RR) (s : State), IsaReady x s → isControl x = true → f.rsv = 0 → f.func = 0 → f.b = 0 →
    ∃ t, exec (.isaMta x f) s = .next t ∧ t.dev.ctx x =
        { (s.dev.ctx x).setReg (!(s.dev.ctx x).fast) f.d (s.dev.gpr x f.a) with pc := (s.dev.ctx x).pc + 1 } ∧
      IsaOnly x [] s t) ∧
  (∀ (x : Ctx) (f : RI) (s : State), IsaReady x s → isControl x = true → f.d = 0 → f.a = 0 →
    bit (s.dev.ctx x).status 4 = false →
    ∃ t, exec (.isaTrap x f) s = .next t ∧ (t.dev.ctx x).pc = (s.dev.ctx x).special 8 ∧
      (t.dev.ctx x).special 2 = (s.dev.ctx x).pc + 1 ∧ (t.dev.ctx x).special 3 = (s.dev.ctx x).status ∧
      (t.dev.ctx x).special 6 = setFld 0 31 30 1 ∧ (t.dev.ctx x).special 7 = f.imm.signExtend 48 ∧
      bit (t.dev.ctx x).status 3 = true ∧ bit (t.dev.ctx x).status 4 = true ∧ bit (t.dev.ctx x).status 0 = false ∧
      (t.dev.ctx x).w = (s.dev.ctx x).w ∧ (t.dev.ctx x).alt = (s.dev.ctx x).alt ∧ IsaOnly x [] s t)

/-- R345, R347–R349, R383, R384: a record with IE_F set takes a fast trap into the alternate bank, one with IE_N a normal trap of
KIND 2; an undefined opcode and a failed fetch halt a channel and trap a core with their status and sub-code; a fault while a
normal trap may not nest stops a core with DFAULT. In an open gather the checks of a word come first, and a good word that is no
command fails with 11h/01h (R296, R347). R342, R345, R346: the word of a command is that command again, with every field at every
value, and a word of an undefined opcode is UNDEFINED_OPCODE. -/
def Obligations.TrapsAndFaults : Prop :=
  (∀ (x : Ctx) (s : State), s.dev.powered = true → isControl x = true → s.dev.ctxRuns x = true → bit (s.dev.ctx x).status 1 = true →
    s.dev.queueEmpty (2 * ctxTarget x + 1) = false →
    ∃ t, exec (.fastTrap x) s = .next t ∧ (t.dev.ctx x).pc = (s.dev.ctx x).special 9 ∧
      (t.dev.ctx x).special 4 = (s.dev.ctx x).pc ∧ (t.dev.ctx x).special 5 = (s.dev.ctx x).status ∧
      (t.dev.ctx x).special 12 = wordOf ((s.dev.ctx x).rep.getD 0) ∧ (t.dev.ctx x).rep = none ∧
      (t.dev.ctx x).fast = true ∧ bit (t.dev.ctx x).status 1 = false ∧ bit (t.dev.ctx x).status 0 = false ∧
      (t.dev.ctx x).w = (s.dev.ctx x).w ∧ (t.dev.ctx x).alt = (s.dev.ctx x).alt ∧ IsaOnly x [] s t) ∧
  (∀ (x : Ctx) (s : State), s.dev.powered = true → isControl x = true → s.dev.ctxRuns x = true → bit (s.dev.ctx x).status 0 = true →
    bit (s.dev.ctx x).status 1 = false → bit (s.dev.ctx x).status 4 = false → s.dev.queueEmpty (2 * ctxTarget x) = false →
    ∃ t, exec (.normalTrap x) s = .next t ∧ (t.dev.ctx x).pc = (s.dev.ctx x).special 8 ∧
      (t.dev.ctx x).special 2 = (s.dev.ctx x).pc ∧ (t.dev.ctx x).special 3 = (s.dev.ctx x).status ∧
      fld ((t.dev.ctx x).special 6) 31 30 = 2 ∧ (t.dev.ctx x).rep = none ∧ bit (t.dev.ctx x).status 3 = true ∧
      bit (t.dev.ctx x).status 4 = true ∧ bit (t.dev.ctx x).status 0 = false ∧ IsaOnly x [] s t) ∧
  (∀ (k : Fin 4) (w : Word) (s : State), IsaReady (.core k) s → opcodeDefined (fld w 47 40) = false →
    ¬(0xC0 ≤ fld w 47 40 ∧ fld w 47 40 ≤ 0xDF) → bit (s.dev.ctx (.core k)).status 4 = false →
    ∃ t, exec (.undefinedOpcode (.core k) w) s = .next t ∧ (t.dev.ctx (.core k)).pc = (s.dev.ctx (.core k)).special 8 ∧
      (t.dev.ctx (.core k)).special 2 = (s.dev.ctx (.core k)).pc ∧ (t.dev.ctx (.core k)).special 6 = setFld 0 47 40 0x11 ∧
      (t.dev.ctx (.core k)).special 7 = w ∧ IsaOnly (.core k) [] s t) ∧
  (∀ (c : Fin 512) (w : Word) (s : State), IsaReady (.channel c) s → opcodeDefined (fld w 47 40) = false →
    ∃ t, exec (.undefinedOpcode (.channel c) w) s = .next t ∧ t.dev.chState c = 4 ∧ t.dev.chReason c = 6 ∧
      t.dev.rdF .ibxChcCsw0 c 47 40 = 0x11 ∧ t.dev.rdF .ibxChcCsw0 c 39 32 = 0 ∧
      t.dev.rdF .ibxChcCsw0 c 7 0 = fld w 47 40) ∧
  (∀ (x : Ctx) (s : State), isControl x = false ∨ s.dev.ctxRuns x = false ∨ bit (s.dev.ctx x).status 1 = false ∨
      s.dev.queueEmpty (2 * ctxTarget x + 1) = true →
    exec (.fastTrap x) s = .next s) ∧
  (∀ (x : Ctx) (s : State), isControl x = false ∨ s.dev.ctxRuns x = false ∨ bit (s.dev.ctx x).status 0 = false ∨
      s.dev.queueEmpty (2 * ctxTarget x) = true →
    exec (.normalTrap x) s = .next s) ∧
  (∀ (c : Fin 512) (f : RR) (s : State), IsaReady (.channel c) s → f.rsv ≠ 0 ∨ f.func ≠ 0 →
    ∃ t, exec (.isaAdd (.channel c) f) s = .next t ∧ t.dev.chState c = 4 ∧ t.dev.chReason c = 6 ∧
      t.dev.rdF .ibxChcCsw0 c 47 40 = 0x12 ∧ t.dev.rdF .ibxChcCsw0 c 39 32 = 0) ∧
  (∀ (c : Fin 512) (f : RI) (s : State), IsaReady (.channel c) s → 48 ≤ f.imm.toNat →
    ∃ t, exec (.isaShli (.channel c) f) s = .next t ∧ t.dev.chState c = 4 ∧ t.dev.chReason c = 6 ∧
      t.dev.rdF .ibxChcCsw0 c 47 40 = 0x12 ∧ t.dev.rdF .ibxChcCsw0 c 39 32 = 1) ∧
  (∀ (c : Fin 512) (f : RR) (s : State), s.dev.powered = true → s.dev.ctxRuns (.channel c) = true →
    s.dev.inGather (.channel c) = true → (s.dev.proc c).rep = none → f.rsv ≠ 0 ∨ f.func ≠ 0 →
    ∃ t, exec (.isaAdd (.channel c) f) s = .next t ∧ t.dev.chState c = 4 ∧ t.dev.chReason c = 6 ∧
      t.dev.rdF .ibxChcCsw0 c 47 40 = 0x12 ∧ t.dev.rdF .ibxChcCsw0 c 39 32 = 0) ∧
  (∀ (c : Fin 512) (f : RR) (s : State), s.dev.powered = true → s.dev.ctxRuns (.channel c) = true →
    s.dev.inGather (.channel c) = true → (s.dev.proc c).rep = none → f.rsv = 0 → f.func = 0 →
    ∃ t, exec (.isaAdd (.channel c) f) s = .next t ∧ t.dev.chState c = 4 ∧ t.dev.chReason c = 6 ∧
      t.dev.rdF .ibxChcCsw0 c 47 40 = 0x11 ∧ t.dev.rdF .ibxChcCsw0 c 39 32 = 1) ∧
  (∀ (x : Ctx) (r : RR) (i : RI) (b : CB) (n : CBI) (p : RepWord),
    decodeInstruction x (r.word 1) = .isaAdd x r ∧ decodeInstruction x (i.word 0x10) = .isaAddi x i ∧
    decodeInstruction x (b.word 0x60) = .isaBr x b ∧ decodeInstruction x (n.word 0x61) = .isaBri x n ∧
    decodeInstruction x p.word = .isaRep x p) ∧
  (∀ (c : Fin 512) (f : ChWord), decodeInstruction (.channel c) (f.word 0xC0) = .chNop c f ∧
    decodeInstruction (.channel c) (f.word 0xD0) = .chMove c f) ∧
  (∀ (x : Ctx) (f : ChWord), isControl x = true →
    decodeInstruction x (f.word 0xC0) = .undefinedOpcode x (f.word 0xC0)) ∧
  (∀ (x : Ctx) (w : Word), opcodeDefined (fld w 47 40) = false → decodeInstruction x w = .undefinedOpcode x w) ∧
  (∀ (x : Ctx) (f : RR) (s : State), IsaReady x s → isControl x = true → f.rsv ≠ 0 ∨ f.func ≠ 0 →
    bit (s.dev.ctx x).status 4 = false →
    ∃ t, exec (.isaAdd x f) s = .next t ∧ (t.dev.ctx x).pc = (s.dev.ctx x).special 8 ∧
      (t.dev.ctx x).special 2 = (s.dev.ctx x).pc ∧ (t.dev.ctx x).special 3 = (s.dev.ctx x).status ∧
      (t.dev.ctx x).special 6 = setFld 0 47 40 0x12 ∧ (t.dev.ctx x).special 7 = f.word 1 ∧ IsaOnly x [] s t) ∧
  (∀ (c : Fin 512) (s : State), IsaReady (.channel c) s →
    ∃ t, exec (.fetchFault (.channel c) .area) s = .next t ∧ t.dev.chState c = 4 ∧ t.dev.chReason c = 6 ∧
      t.dev.rdF .ibxChcCsw0 c 47 40 = 0x21 ∧ t.dev.rdF .ibxChcCsw0 c 39 32 = 7 ∧
      t.dev.rdF .ibxChcCsw1 c 39 0 = fld (s.dev.proc c).pc 39 0) ∧
  (∀ (k : Fin 4) (s : State), IsaReady (.core k) s → bit (s.dev.ctx (.core k)).status 4 = true →
    ∃ t, exec (.fetchFault (.core k) .poison) s = .next t ∧ t.dev.rdF .ctlCorekCtl k 3 2 = 3 ∧
      t.dev.rd .ctlCorekDcause k = setFld 0 47 40 0x18 ∧ t.dev.rd .ctlCorekDpc k = (s.dev.ctx (.core k)).pc ∧
      RegsOnly [regKey .ctlCorekDcause k, regKey .ctlCorekDpc k, regKey .ctlCorekCtl k] s t ∧
      IsaOnly (.core k) [.regs, .evc, .wev] s t)

/-- R376: FMIN and FMAX give the operand that is no NaN, the canonical NaN for two, NV for a signalling one and no other flag, the
lesser or greater operand otherwise, and order −0 below +0. Beside it, from R396–R399: FADD, FSUB, FMUL and FDIV give the canonical
NaN for a NaN operand; sums and products do not depend on the order of their operands; FSUB is FADD of the negated operand;
division by zero and roots of negatives. -/
def Obligations.FloatRules : Prop :=
  (∀ (mx : Bool) (a b : Word), (f48 a = .qnan ∨ f48 a = .snan) → f48 b ≠ .qnan → f48 b ≠ .snan →
    (fminmax mx a b).1 = b ∧ (fminmax mx b a).1 = b) ∧
  (∀ (mx : Bool) (a b : Word), (f48 a = .qnan ∨ f48 a = .snan) → (f48 b = .qnan ∨ f48 b = .snan) →
    (fminmax mx a b).1 = f48NaN) ∧
  (∀ (mx : Bool) (a b : Word), (fminmax mx a b).2 = if f48 a = .snan ∨ f48 b = .snan then 16 else 0) ∧
  (∀ (a b : Word) (s t : Bool) (m n : Nat) (e f : Int), f48 a = .fin s m e → f48 b = .fin t n f →
    (if s then -(m : ℚ) else m) * 2 ^ e < (if t then -(n : ℚ) else n) * 2 ^ f →
    (fminmax false a b).1 = a ∧ (fminmax false b a).1 = a ∧ (fminmax true a b).1 = b ∧ (fminmax true b a).1 = b) ∧
  (∀ (a : Word) (s : Bool) (m : Nat) (e : Int), f48 a = .fin s m e →
    (fminmax false a (f48Inf true)).1 = f48Inf true ∧ (fminmax true a (f48Inf true)).1 = a ∧
    (fminmax false a (f48Inf false)).1 = a ∧ (fminmax true a (f48Inf false)).1 = f48Inf false) ∧
  ((fminmax false 0 0x800000000000).1 = 0x800000000000 ∧ (fminmax false 0x800000000000 0).1 = 0x800000000000 ∧
    (fminmax true 0 0x800000000000).1 = 0 ∧ (fminmax true 0x800000000000 0).1 = 0) ∧
  (∀ (m : RMode) (a b : F48), (a = .qnan ∨ a = .snan ∨ b = .qnan ∨ b = .snan) →
    fadd m a b = (f48NaN, if a = .snan ∨ b = .snan then 16 else 0) ∧
    fsub m a b = (f48NaN, if a = .snan ∨ b = .snan then 16 else 0) ∧
    fmul m a b = (f48NaN, if a = .snan ∨ b = .snan then 16 else 0) ∧
    fdiv m a b = (f48NaN, if a = .snan ∨ b = .snan then 16 else 0)) ∧
  (∀ (m : RMode) (a b : F48), fadd m a b = fadd m b a ∧ fmul m a b = fmul m b a) ∧
  (∀ (m : RMode) (a b : Word), fsub m (f48 a) (f48 b) = fadd m (f48 a) (f48 (b ^^^ 0x800000000000)) ∨
    f48 b = .qnan ∨ f48 b = .snan) ∧
  (∀ (m : RMode) (s t : Bool) (a : Nat) (e f : Int),
    fdiv m (.fin s (a + 1) e) (.fin t 0 f) = (f48Inf (s != t), 8) ∧ fdiv m (.fin s 0 e) (.fin t 0 f) = (f48NaN, 16) ∧
    fdiv m (.inf s) (.inf t) = (f48NaN, 16) ∧ fsqrt m (.fin true (a + 1) e) = (f48NaN, 16) ∧
    fsqrt m (.fin s 0 e) = (f48Zero s, 0)) ∧
  (∀ (m : RMode) (w : Word), f48 w ≠ .qnan → f48 w ≠ .snan → fmul m (f48 w) (f48 0x3FF000000000) = (w, 0))

/-! ### Memory integrity, budgets, movers, field input and output, registers -/

/-- R410–R413, R417, R424, R426: a queued rewrite is written back clean unless its access fails; the patrol and the scrubber go
through their tiles and words, correcting single errors and counting parity faults; a fence marks its stack, powers it off and
empties it, and a second one fails the device; INJECT_ARM arms or is refused. -/
def Obligations.MemoryIntegrity : Prop :=
  (∀ (k : Fin 4) (q : Nat) (l : List Nat) (s : State), s.dev.powered = true → s.dev.stackOn k = true →
    s.dev.rewriteQueue k = q :: l → q ∉ l → tileStack q = k.val → tget s.dev.hbc.link [] k = [] → memWf .blank s.dev.hbm = true →
    ∃ t, exec (.hbmRewrite k) s = .next t ∧ t.dev.rewriteQueue k = l ∧
      (∀ i : Fin 512, (t.dev.tile q).word i = (s.dev.tile q).word i) ∧ (t.dev.tile q).tag = (s.dev.tile q).tag ∧
      (t.dev.tile q).sev = 0 ∧ t.dev.rdF .hbcSsRewr k 15 0 = min 65535 (s.dev.rdF .hbcSsRewr k 15 0 + 1) ∧
      RegsOnly [regKey .hbcSsRewr k] s t ∧ Only [.hbm, .hbc, .graze, .regs] s t) ∧
  (∀ (k : Fin 4) (q : Nat) (l : List Nat) (fs : List LinkFault) (s : State), s.dev.powered = true → s.dev.stackOn k = true →
    s.dev.rewriteQueue k = q :: l → tileStack q = k.val → tget s.dev.hbc.link [] k = .failed :: fs →
    ∃ t, exec (.hbmRewrite k) s = .next t ∧ t.dev.rewriteQueue k = l ∧ t.dev.hbm = s.dev.hbm ∧
      tget t.dev.hbc.link [] k = fs ∧ t.dev.rdF .hbcSsPar k 31 16 = min 65535 (s.dev.rdF .hbcSsPar k 31 16 + 1) ∧
      t.dev.rdF .hbcSsRewr k 47 32 = min 65535 (s.dev.rdF .hbcSsRewr k 47 32 + 1) ∧
      RegsOnly [regKey .hbcSsPar k, regKey .hbcSsRewr k] s t ∧ Only [.hbc, .graze, .regs, .evc, .wev] s t) ∧
  (∀ (k : Fin 4) (s : State), s.dev.stackOn k = false ∨ s.dev.rewriteQueue k = [] →
    exec (.hbmRewrite k) s = .next s) ∧
  (∀ (k sev ts : Fin 4) (n : Nat) (s : State), s.dev.powered = true → s.dev.stackOn k = true → s.dev.rdF .hbcCtl 0 11 8 ≠ 0 →
    s.dev.rdF .hbcSsPatrol k 23 0 = n → n + 1 < 12582912 → tget s.dev.hbc.link [] k = [] →
    ∃ t, exec (.patrolRead k ⟨sev, ts, []⟩) s = .next t ∧ t.dev.rdF .hbcSsPatrol k 23 0 = n + 1 ∧
      t.dev.rdF .hbcSsPatrol k 47 32 = s.dev.rdF .hbcSsPatrol k 47 32 ∧
      (sev = 0 → RegsOnly [regKey .hbcSsPatrol k] s t ∧ Only [.hbm, .graze, .regs] s t) ∧
      (sev = 1 → t.dev.rdF .hbcSsSev k 15 0 = min 65535 (s.dev.rdF .hbcSsSev k 15 0 + 1)) ∧
      (sev = 2 → t.dev.rdF .hbcSsSev k 31 16 = min 65535 (s.dev.rdF .hbcSsSev k 31 16 + 1)) ∧
      (sev = 3 → t.dev.rdF .hbcSsSev k 47 32 = min 65535 (s.dev.rdF .hbcSsSev k 47 32 + 1)) ∧
      (sev ≠ 3 → Only [.hbm, .hbc, .graze, .regs, .evc, .wev] s t)) ∧
  (∀ (k : Fin 4) (f : LinkFault) (i : Fin 512) (x : Word) (s : State), s.dev.powered = true → s.dev.stackOn k = true →
    s.dev.rdF .hbcCtl 0 11 8 ≠ 0 → s.dev.rdF .hbcSsPatrol k 23 0 + 1 < 12582912 → tget s.dev.hbc.link [] k = [] →
    (f = .retried ∨ f = .failed ∨ f = .queue i x) →
    ∃ t, exec (.patrolRead k ⟨0, 0, [f]⟩) s = .next t ∧
      t.dev.rdF .hbcSsPatrol k 23 0 = s.dev.rdF .hbcSsPatrol k 23 0 + 1 ∧
      t.dev.rdF .hbcSsPar k 15 0 = min 65535 (s.dev.rdF .hbcSsPar k 15 0 + if f = .retried then 1 else 0) ∧
      t.dev.rdF .hbcSsPar k 31 16 = min 65535 (s.dev.rdF .hbcSsPar k 31 16 + if f = .failed then 1 else 0) ∧
      t.dev.rdF .hbcSsPar k 47 32 = min 65535 (s.dev.rdF .hbcSsPar k 47 32 + if f = .queue i x then 1 else 0) ∧
      tget t.dev.hbc.link [] k = [] ∧ Only [.hbm, .hbc, .graze, .regs, .evc, .wev, .sram, .ghd] s t) ∧
  (∀ (k : Fin 4) (s : State), s.dev.powered = true → s.dev.stackOn k = true → s.dev.rdF .hbcCtl 0 11 8 ≠ 0 →
    s.dev.rdF .hbcSsPatrol k 23 0 = 12582911 → tget s.dev.hbc.link [] k = [] →
    ∃ t, exec (.patrolRead k ⟨0, 0, []⟩) s = .next t ∧ t.dev.rdF .hbcSsPatrol k 23 0 = 0 ∧
      t.dev.rdF .hbcSsPatrol k 47 32 = (s.dev.rdF .hbcSsPatrol k 47 32 + 1) % 65536 ∧ Only [.hbm, .graze, .regs] s t) ∧
  (∀ (k sev : Fin 4) (l : List LinkFault) (s : State), s.dev.stackOn k = false ∨ s.dev.rdF .hbcCtl 0 11 8 = 0 →
    exec (.patrolRead k ⟨sev, 0, l⟩) s = .next s) ∧
  (∀ (k : Fin 4) (c : FenceCause) (n : Nat) (s : State), s.dev.fences = true → s.dev.stackOn k = true →
    ((c = .phy ∧ n = 1) ∨ (c = .parity ∧ n = 6 ∧ 64 < (recent s.dev.now 1000000 (tget s.dev.hbc.parity [] k)).length) ∨
      (c = .ueLim ∧ n = 7 ∧ s.dev.rdF .hbcCtl 0 47 32 ≠ 0 ∧
        s.dev.rdF .hbcCtl 0 47 32 < (recent s.dev.now 1000000000 (tget s.dev.hbc.uncorr [] k)).length)) →
    ∃ t, exec (.stackFence k c) s = .next t ∧ t.dev.rdF .hbcSsStat k 2 0 = 5 ∧ t.dev.rdF .hbcSsStat k 6 3 = n ∧
      t.dev.domain (1 + k) = .off ∧ (∀ e ∈ t.dev.hbm, tileStack e.1 ≠ k) ∧
      t.dev.rewriteQueue k = [] ∧ (s.dev.anyFenced = true → t.dev.devState = .failed) ∧
      (s.dev.anyFenced = false → t.dev.devState = if s.dev.devState = .run then .degraded else s.dev.devState) ∧
      (s.dev.anyFenced = false → s.dev.devState = .ready → s.dev.rdB .tfbLbStat 0 0 = false →
        s.dev.anyRunning = false → s.dev.engineRuns = [] →
          Only [.regs, .domains, .hbm, .hbc, .sram, .ghd, .evc, .wev, .tfb, .graze, .tmv] s t)) ∧
  (∀ (k : Fin 4) (c : FenceCause) (s : State), s.dev.fences = false ∨ s.dev.stackOn k = false ∨
      (c = .parity ∧ (recent s.dev.now 1000000 (tget s.dev.hbc.parity [] k)).length ≤ 64) ∨
      (c = .ueLim ∧ (s.dev.rdF .hbcCtl 0 47 32 = 0 ∨
        (recent s.dev.now 1000000000 (tget s.dev.hbc.uncorr [] k)).length ≤ s.dev.rdF .hbcCtl 0 47 32)) →
    exec (.stackFence k c) s = .next s) ∧
  (∀ (k : Fin 4) (s : State), s.dev.powered = true → s.dev.powerState = .standby →
    ∃ t, exec (.fenceWrite k) s = .next t ∧ k.val ∈ t.dev.hbc.fenceLater ∧ Only [.hbc] s t) ∧
  (∀ (k : Fin 4) (s : State), s.dev.powerState ≠ .standby → s.dev.fences = true → s.dev.rdF .hbcSsStat k 2 0 ≠ 5 →
    ∃ t, exec (.fenceWrite k) s = .next t ∧ t.dev.rdF .hbcSsStat k 2 0 = 5 ∧ t.dev.rdF .hbcSsStat k 6 3 = 8 ∧
      t.dev.domain (1 + k) = .off ∧ (∀ e ∈ t.dev.hbm, tileStack e.1 ≠ k) ∧
      (s.dev.anyFenced = true → t.dev.devState = .failed)) ∧
  (∀ (k : Fin 4) (s : State), s.dev.powerState ≠ .standby → (s.dev.fences = false ∨ s.dev.rdF .hbcSsStat k 2 0 = 5) →
    exec (.fenceWrite k) s = .next s) ∧
  (∀ (r : Fin 6) (off : Nat) (w : Word) (s : State), s.dev.powered = true → s.dev.rdF .edcRrScrub r 23 0 = off →
    s.dev.domOn (regionDomain r off) = true → s.dev.rdF .edcCtl 0 3 0 ≠ 0 → MemoriesWf s.dev →
    decodeWord (if r = 5 then s.dev.xferCell off else s.dev.cell (regionBase r + off)) = .ok w →
    ∃ t, exec (.scrubRead r 0 0) s = .next t ∧
      t.dev.rdF .edcRrScrub r 23 0 = (if off + 1 = regionSize r then 0 else (off + 1) % 2 ^ 24) ∧
      t.dev.rdF .edcRrScrub r 47 32 = (s.dev.rdF .edcRrScrub r 47 32 + if off + 1 = regionSize r then 1 else 0) % 65536 ∧
      t.dev.sram = s.dev.sram ∧ t.dev.hbc = s.dev.hbc ∧ RegsOnly [regKey .edcRrScrub r] s t ∧ Only [.regs, .sram, .hbc] s t) ∧
  (∀ (r : Fin 5) (f : Word) (g : BitVec 7) (off : Nat) (w : Word) (s : State), s.dev.powered = true →
    s.dev.rdF .edcRrScrub r 23 0 = off → off + 1 < regionSize r → s.dev.domOn (regionDomain r off) = true →
    s.dev.rdF .edcCtl 0 3 0 ≠ 0 → MemoriesWf s.dev →
    decodeWord { data := (s.dev.cell (regionBase r + off)).data ^^^ f, chk := (s.dev.cell (regionBase r + off)).chk ^^^ g }
      = .corrected w →
    ∃ t, exec (.scrubRead r.castSucc f g) s = .next t ∧ t.dev.rdF .edcRrScrub r 23 0 = off + 1 ∧
      t.dev.cell (regionBase r + off) = goodWord w ∧
      t.dev.rdF .edcRrCnt r 15 0 = min 65535 (s.dev.rdF .edcRrCnt r 15 0 + 1) ∧
      SramOnly (regionBase r + off) 1 s t ∧ RegsOnly [regKey .edcRrScrub r, regKey .edcRrCnt r] s t ∧
      Only [.regs, .sram, .hbc, .evc, .wev] s t) ∧
  (∀ (f : Word) (g : BitVec 7) (off : Nat) (w : Word) (s : State), s.dev.powered = true →
    s.dev.rdF .edcRrScrub 5 23 0 = off → off + 1 < regionSize 5 → s.dev.domOn 22 = true → s.dev.rdF .edcCtl 0 3 0 ≠ 0 →
    MemoriesWf s.dev →
    decodeWord { data := (s.dev.xferCell off).data ^^^ f, chk := (s.dev.xferCell off).chk ^^^ g } = .corrected w →
    ∃ t, exec (.scrubRead 5 f g) s = .next t ∧ t.dev.rdF .edcRrScrub 5 23 0 = off + 1 ∧ t.dev.xferCell off = goodWord w ∧
      t.dev.rdF .edcRrCnt 5 15 0 = min 65535 (s.dev.rdF .edcRrCnt 5 15 0 + 1) ∧
      RegsOnly [regKey .edcRrScrub 5, regKey .edcRrCnt 5] s t ∧ Only [.regs, .hbc, .evc, .wev] s t) ∧
  (∀ (r : Fin 6) (f x : Word) (g : BitVec 7) (p : Bool) (off : Nat) (s : State), s.dev.powered = true → r.val < 4 →
    s.dev.rdF .edcRrScrub r 23 0 = off → off + 1 < regionSize r → s.dev.domOn (regionDomain r off) = true →
    s.dev.rdF .edcCtl 0 3 0 ≠ 0 → MemoriesWf s.dev → s.dev.rdB .edcInjCtl 0 8 = false →
    decodeWord { data := (s.dev.cell (regionBase r + off)).data ^^^ f, chk := (s.dev.cell (regionBase r + off)).chk ^^^ g }
      = (if p = true then .poison x else .uncorrectable x) →
    ∃ t, exec (.scrubRead r f g) s = .next t ∧ t.dev.rdF .edcRrScrub r 23 0 = off + 1 ∧
      t.dev.cell (regionBase r + off) =
        { data := (s.dev.cell (regionBase r + off)).data ^^^ f, chk := (s.dev.cell (regionBase r + off)).chk ^^^ g } ∧
      t.dev.rdF .edcRrCnt r 31 16 = min 65535 (s.dev.rdF .edcRrCnt r 31 16 + if p then 0 else 1) ∧
      t.dev.rdF .edcRrCnt r 47 32 = min 65535 (s.dev.rdF .edcRrCnt r 47 32 + if p then 1 else 0) ∧
      t.dev.rdF .edcRrLast r 39 0 = regionBase r + off ∧ Only [.regs, .sram, .hbc, .evc, .wev, .ghd] s t) ∧
  (∀ (r : Fin 6) (f : Word) (g : BitVec 7) (s : State),
    s.dev.domOn (regionDomain r (s.dev.rdF .edcRrScrub r 23 0)) = false ∨ s.dev.rdF .edcCtl 0 3 0 = 0 →
    exec (.scrubRead r f g) s = .next s) ∧
  (∀ (q : Requester) (r : Nat) (s : State), s.dev.powered = true → sramRegion (s.dev.rdF .edcInjAddr 0 39 0) = some r →
    (r ≠ 4 ∨ q = .goatherd) →
    ∃ t, exec (.injectArm q) s = .next t ∧ t.dev.rdB .edcInjCtl 0 8 = true ∧ RegsOnly [regKey .edcInjCtl 0] s t ∧
      Only [.regs] s t) ∧
  (∀ (q : Requester) (s : State), s.dev.powered = true → (sramRegion (s.dev.rdF .edcInjAddr 0 39 0) = none ∨
      (sramRegion (s.dev.rdF .edcInjAddr 0 39 0) = some 4 ∧ q ≠ .goatherd)) →
    ∃ t, exec (.injectArm q) s = .next t ∧ t.dev.rdB .edcCtl 0 9 = true ∧ RegsOnly [regKey .edcCtl 0] s t ∧
      Only [.regs] s t)

/-- R441, R442, R444, R445, R450, R452, R454, R455: a port grants the bid of the least rank it holds, none at 512 operations, and
a bid that loses stays; a Graze period writes USED, swaps a pending bank and reloads the quotas; SWAP validates the inactive bank
against CAP; a priority write takes PRIO alone. -/
def Obligations.GrazeAndArbiter : Prop :=
  (∀ (p : Fin 4) (k : Nat) (s : State), s.dev.portGrant p = some k →
    (s.dev.bidsAt p).any (fun e => e.1 = k) = true ∧ (∀ e ∈ s.dev.bidsAt p, s.dev.bidRank p k ≤ s.dev.bidRank p e.1) ∧
      tget s.dev.graze.busy 0 p ≤ 2044) ∧
  (∀ (p : Fin 4) (s : State), s.dev.portGrant p = none ↔ (s.dev.bidsAt p = [] ∨ 2045 ≤ tget s.dev.graze.busy 0 p)) ∧
  (∀ (p : Fin 4) (a b : Nat) (s : State),
    (s.dev.tier p (a % 32) < s.dev.tier p (b % 32) ∨ (s.dev.tier p (a % 32) = s.dev.tier p (b % 32) ∧
      (s.dev.rdF .tfbArbPrior (b / 32 % 32) 2 0 < s.dev.rdF .tfbArbPrior (a / 32 % 32) 2 0 ∨
        (s.dev.rdF .tfbArbPrior (b / 32 % 32) 2 0 = s.dev.rdF .tfbArbPrior (a / 32 % 32) 2 0 ∧ a / 32 % 32 < b / 32 % 32)))) →
    s.dev.bidRank p a < s.dev.bidRank p b) ∧
  (∀ (k : Nat) (s : State), (∀ p : Fin 4, s.dev.portGrant p ≠ some k) →
    tget s.dev.arbPhase.graze.bids 0 k = tget s.dev.graze.bids 0 k) ∧
  (∀ (p : Fin 4) (k n : Nat) (s : State), s.dev.portGrant p = some k → tget s.dev.graze.bids 0 k = n → k / 1024 = p →
    tget s.dev.arbPhase.graze.bids 0 k = n - 1 ∧
      tget s.dev.arbPhase.graze.busy 0 p = tget s.dev.graze.busy 0 p + 1) ∧
  (∀ (l : List (Fin 32)) (n : Nat) (c : Fin 32) (s : State), s.dev.powered = true → s.dev.domOn 22 = true →
    s.dev.now.toNat = 1024 * n → (n = 0 ∨ (s.dev.rd .tfbGrzPeriod).toNat ≠ n) →
    ∃ t, exec (.grazePeriod l) s = .next t ∧ (t.dev.rd .tfbGrzPeriod).toNat = n ∧ t.dev.graze.left = [] ∧
      t.dev.graze.usedQ = [] ∧ t.dev.graze.usedS = [] ∧ t.dev.graze.bids = s.dev.graze.bids ∧
      t.dev.rdF .tfbGrzcUsed c 15 0 = min (tget s.dev.graze.usedQ 0 c) 65535 ∧
      t.dev.rdF .tfbGrzcUsed c 31 16 = min (tget s.dev.graze.usedS 0 c) 65535 ∧
      t.dev.rdF .tfbGrzcUsed c 47 32 = min 65535 (s.dev.rdF .tfbGrzcUsed c 47 32 + if c ∈ l ∧
        tget s.dev.graze.usedQ 0 c + tget s.dev.graze.usedS 0 c <
          min (s.dev.quota s.dev.bankB c) (14 * s.dev.stacksInUse.length * s.dev.slotsOwned c) then 1 else 0) ∧
      t.dev.rdB .tfbGrzCtl 0 0 = false ∧ t.dev.bankB = (s.dev.bankB != s.dev.rdB .tfbGrzCtl 0 0) ∧
      Only [.regs, .graze, .evc, .wev] s t) ∧
  (∀ (l : List (Fin 32)) (s : State), s.dev.domOn 22 = false ∨ s.dev.now.toNat % 1024 ≠ 0 ∨
      (s.dev.now.toNat ≠ 0 ∧ 1024 * (s.dev.rd .tfbGrzPeriod).toNat = s.dev.now.toNat) →
    exec (.grazePeriod l) s = .next s) ∧
  (∀ (s : State), s.dev.powered = true → s.dev.domOn 22 = true → s.dev.rdB .tfbGrzCtl 0 0 = false →
    s.dev.bankSum (!s.dev.bankB) ≤ s.dev.grzCap →
    ∃ t, exec .grazeSwap s = .next t ∧ t.dev.rdB .tfbGrzCtl 0 0 = true ∧ t.dev.bankB = s.dev.bankB ∧
      RegsOnly [regKey .tfbGrzCtl 0] s t ∧ Only [.regs, .graze] s t) ∧
  (∀ (s : State), s.dev.powered = true → s.dev.domOn 22 = true → s.dev.rdB .tfbGrzCtl 0 0 = false →
    s.dev.grzCap < s.dev.bankSum (!s.dev.bankB) →
    ∃ t, exec .grazeSwap s = .next t ∧ t.dev.rdB .tfbGrzStat 0 2 = true ∧ t.dev.rdB .tfbGrzCtl 0 0 = false ∧
      RegsOnly [regKey .tfbGrzStat 0] s t ∧ Only [.regs, .graze, .evc, .wev] s t) ∧
  (∀ (s : State), s.dev.domOn 22 = false ∨ s.dev.rdB .tfbGrzCtl 0 0 = true →
    exec .grazeSwap s = .next s) ∧
  (∀ (r : Fin 23) (v : Word) (s : State), s.dev.powered = true → s.dev.domOn 22 = true →
    ∃ t, exec (.arbPrioWrite r v) s = .next t ∧ t.dev.rd .tfbArbPrior r = v &&& 7 ∧ RegsOnly [regKey .tfbArbPrior r] s t ∧
      Only [.regs] s t) ∧
  (∀ (r : Fin 23) (v : Word) (s : State), s.dev.domOn 22 = false →
    exec (.arbPrioWrite r v) s = .next s)

/-- R460, R463–R467: SUBMIT queues a descriptor or sets its error; COPY, FILL, COMPARE and COMPARE_PATTERN do the front
descriptor's work, to SRAM, to the host or against tiles; completion writes words 6 and 7, takes the descriptor off and raises
TMV_CQ. -/
def Obligations.ControlMovers : Prop :=
  (∀ (k : Fin 5) (q : Requester) (a : Word) (n : Nat) (s : State), s.dev.powered = true → s.dev.domOn 22 = true →
    moverServes k q = true → (s.dev.moverQueue k).length < 16 → (if k = 4 then 4 else 1) = n →
    sramRegion (fld a 39 0) = some n → fld a 39 0 + 8 ≤ regionBase n + regionSize n →
    ∃ t, exec (.moverSubmit k q a) s = .next t ∧ t.dev.moverQueue k = s.dev.moverQueue k ++ [fld a 39 0] ∧
      t.dev.rdF .tmvCqkStat k 4 0 = (s.dev.moverQueue k).length + 1 ∧ RegsOnly [regKey .tmvCqkStat k] s t ∧
      (s.dev.moverReq (.queue k) ≠ none → t.dev.tmv.reqs = s.dev.tmv.reqs) ∧
      (s.dev.moverReq (.queue k) = none → s.dev.tmv.reqs = [] → s.dev.moverQueue k = [] →
        ∃ r, t.dev.moverRun? (.queue k) = some r ∧ r.reader = 0) ∧ Only [.tmv, .regs, .hbc] s t) ∧
  (∀ (k : Fin 5) (q : Requester) (a : Word) (s : State), s.dev.powered = true → s.dev.domOn 22 = true →
    moverServes k q = false →
    ∃ t, exec (.moverSubmit k q a) s = .next t ∧ t.dev.rdB .tmvCqkStat k 5 = true ∧ RegsOnly [regKey .tmvCqkStat k] s t ∧
      Only [.regs] s t) ∧
  (∀ (k : Fin 5) (q : Requester) (a : Word) (s : State), s.dev.powered = true → s.dev.domOn 22 = true →
    moverServes k q = true → 16 ≤ (s.dev.moverQueue k).length →
    ∃ t, exec (.moverSubmit k q a) s = .next t ∧ t.dev.rdB .tmvCqkStat k 6 = true ∧ RegsOnly [regKey .tmvCqkStat k] s t ∧
      Only [.regs] s t) ∧
  (∀ (k : Fin 5) (q : Requester) (a : Word) (n : Nat) (s : State), s.dev.powered = true → s.dev.domOn 22 = true →
    moverServes k q = true → (s.dev.moverQueue k).length < 16 → (if k = 4 then 4 else 1) = n →
    (sramRegion (fld a 39 0) ≠ some n ∨ regionBase n + regionSize n < fld a 39 0 + 8) →
    ∃ t, exec (.moverSubmit k q a) s = .next t ∧ t.dev.rdB .tmvCqkStat k 7 = true ∧ RegsOnly [regKey .tmvCqkStat k] s t ∧
      Only [.regs] s t) ∧
  (∀ (k : Fin 5) (q : Requester) (a : Word) (s : State), s.dev.domOn 22 = false →
    exec (.moverSubmit k q a) s = .next s) ∧
  (∀ (k : Fin 5) (a : Nat) (l : List Nat) (ws xs : List Word) (m : MoverDesc) (s : State), MoverHeld k s →
    s.dev.moverQueue k = a :: l → s.dev.sramReads a 8 = (ws, 0, s.dev) → moverDesc ws = m → m.op = 0 → m.dkind = 0 → m.trailer = false →
    s.dev.moverRefusal k m = none → isTileAddr m.src = false → s.dev.moverRead m.src m.len = (xs, 0, s.dev) →
    xs.length = m.len →
    ∃ t, exec (.moverCopy k) s = .next t ∧ t.dev.sram = (s.dev.sramWrites m.dst xs).sram ∧
      tfind t.dev.tmv.results k = some (0, 0, 0, m.len) ∧ t.dev.moverQueue k = a :: l ∧ SramOnly m.dst m.len s t ∧
      Only [.sram, .tmv, .regs] s t) ∧
  (∀ (k : Fin 5) (f : Fin 2) (a : Nat) (l : List Nat) (ws xs : List Word) (m : MoverDesc) (s : State), MoverHeld k s →
    s.dev.moverQueue k = a :: l → s.dev.sramReads a 8 = (ws, 0, s.dev) → moverDesc ws = m → m.op = 0 → m.dkind = 1 → m.func = f →
    s.dev.moverRefusal k m = none → isTileAddr m.src = false → s.dev.moverRead m.src m.len = (xs, 0, s.dev) →
    xs.length = m.len →
    ∃ t, exec (.moverCopy k) s = .next t ∧ tfind t.dev.tmv.results k = some (0, 0, 0, m.len) ∧
      t.dev.outbox = ((s.dev.hostWrite f m.haddr (bytesOfWords xs)).hostWrite f (m.haddr + 6 * xs.length)
        (bytesOfWords (if m.trailer then crcTrailer 0 0 xs else []))).outbox ∧
      t.dev.sram = s.dev.sram ∧ t.dev.moverQueue k = a :: l ∧ Only [.outbox, .tmv] s t) ∧
  (∀ (k : Fin 5) (a : Nat) (l : List Nat) (ws : List Word) (m : MoverDesc) (s : State), MoverHeld k s →
    s.dev.moverQueue k = a :: l → s.dev.sramReads a 8 = (ws, 0, s.dev) → moverDesc ws = m → m.op = 1 → m.dkind = 0 → s.dev.moverRefusal k m = none →
    s.dev.rdB .edcInjCtl 0 8 = false → memWf .blank s.dev.sram = true →
    ∃ t, exec (.moverFill k) s = .next t ∧ (∀ i, i < m.len → t.dev.cell (m.dst + i) = goodWord m.pattern) ∧
      tfind t.dev.tmv.results k = some (0, 0, 0, m.len) ∧ SramOnly m.dst m.len s t ∧ Only [.sram, .tmv] s t) ∧
  (∀ (k : Fin 5) (a : Nat) (l : List Nat) (ws xs : List Word) (m : MoverDesc) (s : State), MoverHeld k s →
    s.dev.moverQueue k = a :: l → s.dev.sramReads a 8 = (ws, 0, s.dev) → moverDesc ws = m → m.op = 2 → m.dkind = 0 → s.dev.moverRefusal k m = none →
    isTileAddr m.src = false → s.dev.moverRead m.src m.len = (xs, 0, s.dev) →
    s.dev.moverRead m.dst m.len = (xs, 0, s.dev) →
    ∃ t, exec (.moverCompare k) s = .next t ∧ tfind t.dev.tmv.results k = some (0, 0, 0, m.len) ∧ Only [.tmv] s t) ∧
  (∀ (k : Fin 5) (a : Nat) (l : List Nat) (ws xs ys ps : List Word) (x y : Word) (m : MoverDesc) (s : State),
    MoverHeld k s → s.dev.moverQueue k = a :: l →
    s.dev.sramReads a 8 = (ws, 0, s.dev) → moverDesc ws = m → m.op = 2 → m.dkind = 0 → s.dev.moverRefusal k m = none →
    isTileAddr m.src = false → s.dev.moverRead m.src m.len = (ps ++ x :: xs, 0, s.dev) →
    s.dev.moverRead m.dst m.len = (ps ++ y :: ys, 0, s.dev) → x ≠ y → xs.length = ys.length → xs.length < 2 ^ 31 →
    ∃ t, exec (.moverCompare k) s = .next t ∧
      tfind t.dev.tmv.results k = some (0, 0, 1 + ((xs.zip ys).filter (fun e => e.1 ≠ e.2)).length, ps.length) ∧
      t.dev.rdF .tmvErr 0 47 32 = min 65535 (s.dev.rdF .tmvErr 0 47 32 + 1) ∧ Only [.tmv, .regs] s t) ∧
  (∀ (k : Fin 5) (a n : Nat) (l : List Nat) (ws : List Word) (x : Word) (xs : List Word) (m : MoverDesc) (s : State),
    MoverHeld k s → s.dev.moverQueue k = a :: l →
    s.dev.sramReads a 8 = (ws, 0, s.dev) → moverDesc ws = m → m.op = 3 → s.dev.moverRefusal k m = none →
    isTileAddr m.src = false → s.dev.moverRead m.src m.len = (List.replicate n m.pattern ++ x :: xs, 0, s.dev) →
    x ≠ m.pattern → xs.length < 2 ^ 31 →
    ∃ t, exec (.moverComparePattern k) s = .next t ∧
      tfind t.dev.tmv.results k = some (0, 0, 1 + (xs.filter (fun w => w ≠ m.pattern)).length, n) ∧
      t.dev.rdF .tmvErr 0 47 32 = min 65535 (s.dev.rdF .tmvErr 0 47 32 + 1) ∧ Only [.tmv, .regs] s t) ∧
  (∀ (k : Fin 5) (a : Nat) (l : List Nat) (ws xs : List Word) (m : MoverDesc) (s : State), MoverHeld k s →
    s.dev.moverQueue k = a :: l → s.dev.sramReads a 8 = (ws, 0, s.dev) → moverDesc ws = m → m.op = 3 → s.dev.moverRefusal k m = none →
    isTileAddr m.src = false → s.dev.moverRead m.src m.len = (xs, 0, s.dev) → (xs.all (fun w => w = m.pattern)) = true →
    ∃ t, exec (.moverComparePattern k) s = .next t ∧ tfind t.dev.tmv.results k = some (0, 0, 0, m.len) ∧ Only [.tmv] s t) ∧
  (∀ (k : Fin 5) (s : State), s.dev.domOn 22 = false ∨ s.dev.moverQueue k = [] ∨ (tfind s.dev.tmv.results k).isSome = true →
    exec (.moverCopy k) s = .next s ∧
    exec (.moverFill k) s = .next s ∧
    exec (.moverCompare k) s = .next s ∧
    exec (.moverComparePattern k) s = .next s) ∧
  (∀ (k : Fin 5) (a : Nat) (l : List Nat) (r : Nat × Nat × Nat × Nat) (s : State), s.dev.powered = true →
    s.dev.domOn 22 = true → s.dev.moverQueue k = a :: l → tfind s.dev.tmv.results k = some r →
    s.dev.rdB .edcInjCtl 0 8 = false → memWf .blank s.dev.sram = true → keysRising s.dev.tmv.results = true →
    ∃ t, exec (.moverComplete k) s = .next t ∧ t.dev.moverQueue k = l ∧ tfind t.dev.tmv.results k = none ∧
      t.dev.cell (a + 6) = goodWord (setFld (setFld (setFld 0 47 40 r.1) 39 32 r.2.1) 31 0 r.2.2.1) ∧
      t.dev.cell (a + 7) = goodWord (setFld 0 39 0 r.2.2.2) ∧
      t.dev.rdF .tmvDone 0 31 0 = (s.dev.rdF .tmvDone 0 31 0 + 1) % 2 ^ 32 ∧ SramOnly (a + 6) 2 s t ∧
      RegsOnly [regKey .tmvCqkStat k, regKey .tmvDone 0] s t ∧ Only [.tmv, .hbc, .sram, .regs, .evc, .wev] s t) ∧
  (∀ (k : Fin 5) (a : Nat) (l : List Nat) (ws : List Word) (r : Nat × Nat) (s : State), s.dev.powered = true →
    s.dev.domOn 22 = true → s.dev.moverQueue k = a :: l → tfind s.dev.tmv.results k = none →
    (s.dev.moverRun? (.queue k)).isSome = true →
    s.dev.sramReads a 8 = (ws, 0, s.dev) → s.dev.moverRefusal k (moverDesc ws) = some r →
    s.dev.rdB .edcInjCtl 0 8 = false → memWf .blank s.dev.sram = true →
    ∃ t, exec (.moverComplete k) s = .next t ∧ t.dev.moverQueue k = l ∧
      t.dev.cell (a + 6) = goodWord (setFld (setFld 0 47 40 r.1) 39 32 r.2) ∧ t.dev.cell (a + 7) = goodWord 0 ∧
      t.dev.rdF .tmvDone 0 31 0 = (s.dev.rdF .tmvDone 0 31 0 + 1) % 2 ^ 32 ∧ SramOnly (a + 6) 2 s t ∧
      RegsOnly [regKey .tmvCqkStat k, regKey .tmvDone 0] s t ∧ Only [.tmv, .hbc, .sram, .regs, .evc, .wev] s t) ∧
  (∀ (k : Fin 5) (s : State), s.dev.domOn 22 = false ∨ s.dev.moverQueue k = [] ∨
      (tfind s.dev.tmv.results k = none ∧ s.dev.moverRun? (.queue k) = none) →
    exec (.moverComplete k) s = .next s)

/-- R611, R612, R616, R618, R619: probes find open wires; a pair fault sets NOW and LATCHED and, absent for 100 ms, clears NOW
alone; a write of FIO_ENCn_CFG clears the polarity flags; a field input is stamped, filtered, raised and checked for reversal. -/
def Obligations.FieldInputs : Prop :=
  (∀ (l : List (Fin 40)) (s : State), s.dev.powered = true → s.dev.rdB .fioCtl 0 0 = true →
    (∀ i ∈ l, s.dev.fio.probed.contains i.val = false) →
    ∃ t, exec (.wireProbe l) s = .next t ∧ t.dev.fio.probed = l.map (fun i => i.val) ∧ Only [.fio] s t) ∧
  (∀ (k : Fin 16) (i : Fin 40) (s : State), s.dev.powered = true → s.dev.rdB .fioCtl 0 0 = true → i.val = 24 + k.val →
    s.dev.fio.probed.contains i.val = true →
    ∃ t, exec (.wireProbe [i]) s = .next t ∧ t.dev.fio.probed = [i.val] ∧ t.dev.rdB .fioFinkStat k 0 = true ∧
      t.dev.rdB .fioFinkStat k 4 = true ∧ RegsOnly [regKey .fioFinkStat k] s t ∧ Only [.fio, .regs, .evc, .wev] s t) ∧
  (∀ (n : Fin 8) (ch : EncCh) (i : Fin 40) (s : State), s.dev.powered = true → s.dev.rdB .fioCtl 0 0 = true →
    i.val = 3 * n.val + encChNum ch → s.dev.fio.probed.contains i.val = true →
    ∃ t, exec (.wireProbe [i]) s = .next t ∧ t.dev.fio.probed = [i.val] ∧ t.dev.rdB .fioEncnFlt n (4 * encChNum ch) = true ∧
      t.dev.rdB .fioEncnFlt n (16 + 4 * encChNum ch) = true) ∧
  (∀ (l : List (Fin 40)) (s : State), s.dev.rdB .fioCtl 0 0 = false →
    exec (.wireProbe l) s = .next s) ∧
  (∀ (k : Fin 16) (f : PairFault) (s : State), s.dev.powered = true → (f = .openWire → s.dev.rdB .fioCtl 0 0 = true) →
    ∃ t, exec (.pairFaultDetect (.fin k) f) s = .next t ∧ t.dev.rdB .fioFinkStat k (pairFaultBit f) = true ∧
      t.dev.rdB .fioFinkStat k (4 + pairFaultBit f) = true ∧ RegsOnly [regKey .fioFinkStat k] s t ∧
      Only [.fio, .regs, .evc, .wev] s t) ∧
  (∀ (x : Fin 48) (f : PairFault) (s : State), s.dev.powered = true → s.dev.outState x = 1 → (s.dev.outDrv x).pchk = none →
    ∃ t, exec (.pairFaultDetect (.out x) f) s = .next t ∧ t.dev.rdB .fioOxStat x (4 + pairFaultBit f) = true ∧
      t.dev.rdB .fioOxStat x (8 + pairFaultBit f) = true ∧ RegsOnly [regKey .fioOxStat x, regKey .fioStat 0] s t ∧
      Only [.fio, .regs, .evc, .wev] s t) ∧
  (∀ (n : Fin 8) (ch : EncCh) (f : PairFault) (s : State), s.dev.powered = true →
    (f = .openWire → s.dev.rdB .fioCtl 0 0 = true) →
    ∃ t, exec (.pairFaultDetect (.enc n ch) f) s = .next t ∧
      t.dev.rdB .fioEncnFlt n (4 * encChNum ch + pairFaultBit f) = true ∧
      t.dev.rdB .fioEncnFlt n (16 + (4 * encChNum ch + pairFaultBit f)) = true ∧
      (ch ≠ .z → t.dev.encFault n = true) ∧
      (s.dev.encFault n = true → RegsOnly [regKey .fioEncnFlt n, regKey .sprEncnStat n] s t ∧
        Only [.fio, .regs, .evc, .wev] s t)) ∧
  (∀ (p : FieldPair) (f : PairFault) (s : State), s.dev.judges p f = false →
    exec (.pairFaultDetect p f) s = .next s) ∧
  (∀ (x : Fin 48) (f : PairFault) (t0 : Word) (s : State), s.dev.powered = true →
    tfind s.dev.fio.faultAt (4 * (40 + x.val) + pairFaultBit f) = some t0 → 100000000 ≤ elapsed s.dev.now t0 →
    ∃ t, exec (.pairFaultClear (.out x) f) s = .next t ∧ t.dev.rdB .fioOxStat x (4 + pairFaultBit f) = false ∧
      (∀ j : Fin 48, j.val ≠ 4 + pairFaultBit f → t.dev.rdB .fioOxStat x j = s.dev.rdB .fioOxStat x j) ∧
      RegsOnly [regKey .fioOxStat x, regKey .fioStat 0] s t ∧ Only [.fio, .regs, .evc, .wev] s t) ∧
  (∀ (n : Fin 8) (ch : EncCh) (f : PairFault) (t0 : Word) (b : Nat) (s : State), s.dev.powered = true →
    4 * encChNum ch + pairFaultBit f = b → tfind s.dev.fio.faultAt (4 * (3 * n.val + encChNum ch) + pairFaultBit f) = some t0 →
    100000000 ≤ elapsed s.dev.now t0 →
    ∃ t, exec (.pairFaultClear (.enc n ch) f) s = .next t ∧ t.dev.rdB .fioEncnFlt n b = false ∧
      (∀ j : Fin 48, j.val ≠ b → t.dev.rdB .fioEncnFlt n j = s.dev.rdB .fioEncnFlt n j)) ∧
  (∀ (k : Fin 16) (f : PairFault) (t0 : Word) (s : State), s.dev.powered = true →
    tfind s.dev.fio.faultAt (4 * (24 + k.val) + pairFaultBit f) = some t0 → 100000000 ≤ elapsed s.dev.now t0 →
    ∃ t, exec (.pairFaultClear (.fin k) f) s = .next t ∧ t.dev.rdB .fioFinkStat k (pairFaultBit f) = false ∧
      t.dev.rdB .fioFinkStat k (4 + pairFaultBit f) = s.dev.rdB .fioFinkStat k (4 + pairFaultBit f) ∧
      RegsOnly [regKey .fioFinkStat k] s t ∧ Only [.fio, .regs, .evc, .wev] s t) ∧
  (∀ (p : FieldPair) (f : PairFault) (s : State),
    tfind s.dev.fio.faultAt (4 * pairNum p + pairFaultBit f) = none ∨
      (tfind s.dev.fio.faultAt (4 * pairNum p + pairFaultBit f)).any (fun t => decide (elapsed s.dev.now t < 100000000)) = true →
    exec (.pairFaultClear p f) s = .next s) ∧
  (∀ (n : Fin 8) (v : Word) (s : State), s.dev.powered = true →
    ∃ t, exec (.fioEncCfgWrite n v) s = .next t ∧ t.dev.rd .fioEncnCfg n = v &&& wordOf (regDesc .fioEncnCfg).rw ∧
      t.dev.rdF .fioEncnFlt n 36 32 = 0 ∧ (t.dev.encIn n).zMiss = (0, 0) ∧ (t.dev.encIn n).dirNet = none ∧
      (s.dev.encFault n = true → RegsOnly [regKey .fioEncnCfg n, regKey .fioEncnFlt n, regKey .sprEncnStat n] s t ∧
        Only [.regs, .spr, .evc, .wev] s t)) ∧
  (∀ (k : Fin 16) (b : Bool) (s : State), (s.dev.fieldIn k).pin ≠ b →
    ∃ t, exec (.fieldInputPin k b) s = .next t ∧
      t.dev.fieldIn k = { s.dev.fieldIn k with pin := b, stamp := s.dev.now } ∧ Only [.fio] s t) ∧
  (∀ (k : Fin 16) (b : Bool) (s : State), (s.dev.fieldIn k).pin = b →
    exec (.fieldInputPin k b) s = .next s) ∧
  (∀ (k : Fin 16) (s : State), s.dev.powered = true → (s.dev.fieldIn k).pin ≠ (s.dev.fieldIn k).filt →
    s.dev.rdF .fioFinkCfg k 15 8 * 1000 ≤ elapsed s.dev.now (s.dev.fieldIn k).stamp →
    ∃ t, exec (.fieldInputAccept k) s = .next t ∧
      t.dev.fieldIn k = { s.dev.fieldIn k with filt := (s.dev.fieldIn k).pin, since := s.dev.now } ∧
      t.dev.rdB .fioFinkStat k 9 = ((s.dev.fieldIn k).pin != s.dev.rdB .fioFinkCfg k 2) ∧
      (s.dev.rdB .fioFinkCfg k 0 = true →
        (s.dev.rdF .fioFinkCfg k 17 16 = 3 ∨ (s.dev.rdF .fioFinkCfg k 17 16 = 1 ∧ t.dev.rdB .fioFinkStat k 9 = true) ∨
          (s.dev.rdF .fioFinkCfg k 17 16 = 2 ∧ t.dev.rdB .fioFinkStat k 9 = false)) →
        (s.dev.source (702 + k)).p = false → (t.dev.source (702 + k)).p = true ∧
          (t.dev.source (702 + k)).stampTime = (s.dev.fieldIn k).stamp) ∧
      (s.dev.rdB .fioFinkCfg k 0 = false ∨ s.dev.rdF .fioFinkCfg k 17 16 = 0 → t.dev.evc = s.dev.evc) ∧
      RegsOnly [regKey .fioFinkStat k] s t ∧ Only [.fio, .regs, .evc, .wev] s t) ∧
  (∀ (k : Fin 16) (s : State), (s.dev.fieldIn k).pin = (s.dev.fieldIn k).filt ∨
      elapsed s.dev.now (s.dev.fieldIn k).stamp < s.dev.rdF .fioFinkCfg k 15 8 * 1000 →
    exec (.fieldInputAccept k) s = .next s) ∧
  (∀ (k : Fin 16) (s : State), s.dev.powered = true → s.dev.rdF .fioFinkCfg k 7 4 ≠ 0 →
    s.dev.finLevel k ≠ s.dev.rdB .fioFinkCfg k 3 →
    s.dev.rdF .fioFinkCfg k 7 4 * 1000000000 ≤ elapsed s.dev.now (s.dev.fieldIn k).since →
    ∃ t, exec (.reversedDetect k) s = .next t ∧ t.dev.rdB .fioFinkStat k 8 = true ∧
      RegsOnly [regKey .fioFinkStat k] s t ∧ Only [.regs, .evc, .wev] s t) ∧
  (∀ (k : Fin 16) (s : State), s.dev.rdF .fioFinkCfg k 7 4 = 0 ∨ s.dev.finLevel k = s.dev.rdB .fioFinkCfg k 3 ∨
      elapsed s.dev.now (s.dev.fieldIn k).since < s.dev.rdF .fioFinkCfg k 7 4 * 1000000000 →
    exec (.reversedDetect k) s = .next s)

/-- R609, R620–R623: a polarity check takes an idle driver for 20 µs and reports the far-end bias; a driver at its limit or its
temperature shuts off, at the eighth shutoff within a second locks out, retries after RETRY_MS and leaves LOCKOUT by UNLOCK, to DRIVING where EN is 1. -/
def Obligations.OutputDrivers : Prop :=
  (∀ (x : Fin 48) (s : State), s.dev.powered = true → s.dev.outState x ≤ 1 → (s.dev.outDrv x).active = none →
    (s.dev.outDrv x).pchk = none →
    ∃ t, exec (.polarityCheck x) s = .next t ∧ t.dev.outDrv x = { s.dev.outDrv x with pchk := some s.dev.now } ∧
      t.dev.outDrives x = false ∧ Only [.fio] s t) ∧
  (∀ (x : Fin 48) (s : State), s.dev.powered = true → (2 ≤ s.dev.outState x ∨ (s.dev.outDrv x).active.isSome = true ∨
      (s.dev.outDrv x).pchk.isSome = true) →
    ∃ t, exec (.polarityCheck x) s = .next t ∧ t.dev.rdB .fioOxStat x 13 = true ∧ RegsOnly [regKey .fioOxStat x] s t ∧
      Only [.regs] s t) ∧
  (∀ (x : Fin 48) (mv : Int) (t0 : Word) (s : State), s.dev.powered = true → (s.dev.outDrv x).pchk = some t0 →
    20000 ≤ elapsed s.dev.now t0 →
    ∃ t, exec (.polarityCheckDone x mv) s = .next t ∧ (t.dev.outDrv x).pchk = none ∧ t.dev.outState x = s.dev.outState x ∧
      t.dev.rdF .fioOxStat x 15 14 = (if 50 ≤ mv then 1 else if mv ≤ -50 then 2 else 3) ∧
      RegsOnly [regKey .fioOxStat x] s t ∧ Only [.fio, .regs, .evc, .wev] s t) ∧
  (∀ (x : Fin 48) (mv : Int) (s : State), (s.dev.outDrv x).pchk = none ∨
      (s.dev.outDrv x).pchk.any (fun t0 => decide (elapsed s.dev.now t0 < 20000)) = true →
    exec (.polarityCheckDone x mv) s = .next s) ∧
  (∀ (x : Fin 48) (n : Nat) (s : State), s.dev.powered = true → s.dev.outState x = 1 → (s.dev.outDrv x).pchk = none →
    1 + (recent s.dev.now 1000000000 (s.dev.outDrv x).shutoffs).length = n →
    ∃ t, exec (.driverShutoff x) s = .next t ∧ t.dev.outState x = (if 8 ≤ n then 3 else 2) ∧
      (t.dev.outDrv x).active = none ∧ t.dev.rdB .fioOxStat x 12 = s.dev.rdB .fioOxStat x 12 ∧
      t.dev.rdF .fioOxCnt x 15 0 = min 65535 (s.dev.rdF .fioOxCnt x 15 0 + 1) ∧
      RegsOnly [regKey .fioOxStat x, regKey .fioOxCnt x, regKey .fioStat 0] s t ∧ Only [.fio, .regs, .evc, .wev] s t) ∧
  (∀ (x : Fin 48) (s : State), s.dev.outState x ≠ 1 ∨ (s.dev.outDrv x).pchk.isSome = true →
    exec (.driverShutoff x) s = .next s) ∧
  (∀ (x : Fin 48) (n : Nat) (s : State), s.dev.powered = true → s.dev.outState x = 1 →
    1 + (recent s.dev.now 1000000000 (s.dev.outDrv x).shutoffs).length = n →
    ∃ t, exec (.driverOvertemp x) s = .next t ∧ t.dev.outState x = (if 8 ≤ n then 3 else 2) ∧
      (t.dev.outDrv x).active = none ∧ t.dev.rdB .fioOxStat x 12 = true ∧
      t.dev.rdF .fioOxCnt x 15 0 = min 65535 (s.dev.rdF .fioOxCnt x 15 0 + 1) ∧
      RegsOnly [regKey .fioOxStat x, regKey .fioOxCnt x, regKey .fioStat 0] s t ∧ Only [.fio, .regs, .evc, .wev] s t) ∧
  (∀ (x : Fin 48) (s : State), s.dev.powered = true → s.dev.outState x = 2 →
    ∃ t, exec (.driverOvertemp x) s = .next t ∧ t.dev.outState x = 2 ∧ t.dev.rdB .fioOxStat x 12 = true ∧
      RegsOnly [regKey .fioOxStat x, regKey .fioStat 0] s t ∧ Only [.regs, .evc, .wev] s t) ∧
  (∀ (x : Fin 48) (temp : Int) (s : State), s.dev.powered = true → s.dev.outState x = 2 →
    s.dev.rdF .fioOxCfg x 11 8 * 1000000 ≤ elapsed s.dev.now (s.dev.outDrv x).shutAt →
    (s.dev.rdB .fioOxStat x 12 = false ∨ temp < 130) →
    ∃ t, exec (.driverRetry x temp) s = .next t ∧ t.dev.outState x = (s.dev.rdB .fioOxCfg x 0).toNat ∧ t.dev.rdB .fioOxStat x 12 = false ∧
      RegsOnly [regKey .fioOxStat x, regKey .fioStat 0] s t ∧ Only [.regs, .evc, .wev] s t) ∧
  (∀ (x : Fin 48) (temp : Int) (s : State), s.dev.outState x ≠ 2 ∨
      elapsed s.dev.now (s.dev.outDrv x).shutAt < s.dev.rdF .fioOxCfg x 11 8 * 1000000 ∨
      (s.dev.rdB .fioOxStat x 12 = true ∧ 130 ≤ temp) →
    exec (.driverRetry x temp) s = .next s) ∧
  (∀ (x : Fin 48) (s : State), s.dev.powered = true → s.dev.outState x = 3 →
    ∃ t, exec (.unlock x) s = .next t ∧ t.dev.outState x = (s.dev.rdB .fioOxCfg x 0).toNat ∧ (t.dev.outDrv x).shutoffs = [] ∧
      t.dev.rdB .fioOxStat x 12 = false ∧ RegsOnly [regKey .fioOxStat x, regKey .fioStat 0] s t ∧
      Only [.fio, .regs, .evc, .wev] s t) ∧
  (∀ (x : Fin 48) (s : State), s.dev.outState x ≠ 3 →
    exec (.unlock x) s = .next s)

/-- R2, R4, R15–R18, R479, R480: a register write takes the low 48 bits into the RW bits, clears W1C bits where it holds 1 and
leaves every other bit; a word with no register, a register whose block is off, the GHD window for all but Goatherd, a host's
write of another shape and another function's registers take nothing, and a host reads zero there. R389: RUN written 1 starts a
control core at its ENTRY, and RUN written 0 holds it in reset. -/
def Obligations.RegisterWrites : Prop :=
  (∀ (r : Reg) (old w : Word) (i : Fin 48), bit (plainWrite r old w) i =
    (if bit (wordOf (regDesc r).rw) i then bit w i
     else bit old i && !(bit w i && bit (wordOf (regDesc r).w1c) i))) ∧
  (∀ (q : Requester) (win : Fin 256) (off : BitVec 16) (w : BitVec 64) (g : RegPlace) (r : Reg) (i : Nat) (s : State),
    s.dev.powered = true → s.dev.regAccess win off.toNat = .reg r i →
    (∀ f : Fin 2, q = .host f → g = .slot ∧ s.dev.domOn (10 + f) = true ∧ foreignReg f r i = false) →
    r ∈ [.sprAxnAmax, .sprEncnCfg, .hlkPortpErr, .cxiLklPcxLim, .edcInjAddr, .edcInjData, .ctlCorekEntry, .evcStat, .cexLqCons] →
    ∃ t, exec (.registerWrite q win off ⟨w, g⟩) s = .next t ∧ t.dev.rd r i = plainWrite r (s.dev.rd r i) (w.truncate 48) ∧
      RegsOnly [regKey r i] s t ∧ Only [.regs] s t) ∧
  (∀ (q : Requester) (win : Fin 256) (off : BitVec 16) (w : BitVec 64) (s : State),
    (match s.dev.regAccess win off.toNat with | .reg _ _ => false | _ => true) = true →
    exec (.registerWrite q win off ⟨w, .slot⟩) s = .next s) ∧
  (∀ (q : Requester) (off : BitVec 16) (w : BitVec 64) (s : State), q ≠ .goatherd →
    exec (.registerWrite q 14 off ⟨w, .slot⟩) s = .next s) ∧
  (∀ (f : Fin 2) (win : Fin 256) (off : BitVec 16) (w : BitVec 64) (r : Reg) (i : Nat) (s : State),
    s.dev.regAccess win off.toNat = .reg r i → (foreignReg f r i = true ∨ s.dev.domOn (10 + f) = false) →
    exec (.registerWrite (.host f) win off ⟨w, .slot⟩) s = .next s) ∧
  (∀ (f : Fin 2) (win : Fin 256) (off : BitVec 16) (w : BitVec 64) (s : State), s.dev.powered = true →
    s.dev.domOn (10 + f) = true →
    ∃ t, exec (.registerWrite (.host f) win off ⟨w, .ragged⟩) s = .next t ∧ t.dev = s.dev.badAcc f ∧ t.pending = s.pending) ∧
  (∀ (f : Fin 2) (win : Fin 256) (off : BitVec 16) (w : BitVec 64) (s : State), s.dev.domOn (10 + f) = false →
    exec (.registerWrite (.host f) win off ⟨w, .ragged⟩) s = .next s) ∧
  (∀ (f : Fin 2) (win : Fin 256) (off : BitVec 16) (w : BitVec 64) (b : Bool) (s : State),
    (s.dev.domOn (10 + f) = false ∨ 0x200 ≤ off.toNat ∧ off.toNat < 0x400 ∨ 0x600 ≤ off.toNat ∧ off.toNat < 0x8000 ∨
      0x8400 ≤ off.toNat) →
    exec (.registerWrite (.host f) win off ⟨w, .bar4 b⟩) s = .next s) ∧
  (∀ (f : Fin 2) (win : Fin 256) (v : Fin 64) (off : BitVec 16) (w : BitVec 64) (s : State), s.dev.powered = true →
    s.dev.domOn (10 + f) = true → off.toNat = 0x8000 + 16 * v.val + 12 → w.getLsbD 0 = true →
    ∃ t, exec (.registerWrite (.host f) win off ⟨w, .bar4 false⟩) s = .next t ∧
      ((t.dev.msix f).vector v).masked = true ∧ (∀ k : Fin 64, k ≠ v → (t.dev.msix f).vector k = (s.dev.msix f).vector k)) ∧
  (∀ (f : Fin 2) (win off : Nat) (s : State),
    (match s.dev.regAccess win off with
     | .reg r i => foreignReg f r i || !s.dev.domOn (10 + f)
     | _ => true) = true →
    s.dev.hostRead f win off = (some 0, s.dev)) ∧
  (∀ (win : Fin 256) (off : Nat) (s : State), 16 < win.val → s.dev.regAccess win off = .unpopulated) ∧
  (∀ (f : Fin 2) (off size : Nat) (s : State), ¬(size = 8 ∧ off % 8 = 0) → ¬(size = 4 ∧ off % 4 = 0) →
    s.dev.barRead f off size = (some 0, s.dev)) ∧
  (∀ (k : Fin 4) (s : State), s.dev.powered = true → s.dev.domOn 17 = true → s.dev.rdB .ctlCorekCtl k 0 = false →
    ∃ t, exec (.coreRun k true) s = .next t ∧
      t.dev.proc (1024 + k) = { pc := s.dev.rd .ctlCorekEntry k, released := s.dev.ctlUp } ∧
      t.dev.rdB .ctlCorekCtl k 0 = true ∧ t.dev.rdF .ctlCorekCtl k 3 2 = 1 ∧ RegsOnly [regKey .ctlCorekCtl k] s t ∧
      Only [.regs, .procs] s t) ∧
  (∀ (k : Fin 4) (s : State), s.dev.powered = true → s.dev.domOn 17 = true → s.dev.rdB .ctlCorekCtl k 0 = true →
    ∃ t, exec (.coreRun k false) s = .next t ∧ t.dev.proc (1024 + k) = {} ∧ t.dev.rdB .ctlCorekCtl k 0 = false ∧
      t.dev.rdF .ctlCorekCtl k 3 2 = 0 ∧ RegsOnly [regKey .ctlCorekCtl k] s t ∧ Only [.regs, .procs, .evc] s t) ∧
  (∀ (k : Fin 4) (b : Bool) (s : State), s.dev.domOn 17 = false ∨ s.dev.rdB .ctlCorekCtl k 0 = b →
    exec (.coreRun k b) s = .next s)

/-! ### The host interface -/

/-- R477, R481–R483, R515: attaching and detaching a function, whose rings go OFF; HOST_VER gives the agreed version; a mailbox
request and its answer, with their words, BUSY, DONE and vector, as the host reads them; a request out of turn counts as a bad
access. -/
def Obligations.HostFunctions : Prop :=
  (∀ (f : Fin 2) (m : Fin 7) (s : State), s.dev.powered = true → s.dev.domOn (10 + f) = true → s.dev.attached f = false →
    m ≠ 0 →
    ∃ t, exec (.functionAttach f m) s = .next t ∧ t.dev.attached f = true ∧ t.dev.rdB .hifFfStat f 1 = true ∧
      t.dev.rdF .hifStat 0 (8 * f + 2) (8 * f) = m ∧ t.dev.rdB .hifStat 0 (8 * f + 4) = true ∧
      t.dev.hif.subs = s.dev.hif.subs ∧ t.dev.hif.comps = s.dev.hif.comps ∧ t.dev.hif.mbx = s.dev.hif.mbx ∧
      t.dev.msix (1 - f) = s.dev.msix (1 - f) ∧
      (∀ v : Fin 64, (t.dev.msix f).pba.getLsbD v = true → (s.dev.msix f).unmasked v = false) ∧
      RegsOnly [regKey .hifStat 0, regKey .hifFfStat f] s t ∧ Only [.regs, .evc, .wev, .hif, .outbox] s t) ∧
  (∀ (f : Fin 2) (m : Fin 7) (s : State), s.dev.domOn (10 + f) = false ∨ s.dev.attached f = true ∨ m = 0 →
    exec (.functionAttach f m) s = .next s) ∧
  (∀ (f : Fin 2) (c : DetachCause) (s : State), s.dev.powered = true → s.dev.attached f = true →
    ∃ t, exec (.functionDetach f c) s = .next t ∧ t.dev.attached f = false ∧
      t.dev.rdB .hifStat 0 (8 * f + 4) = false ∧ (c = .port → t.dev.rdF .hifStat 0 (8 * f + 2) (8 * f) = 0) ∧
      (c = .busMaster → t.dev.rdB .hifFfStat f 1 = false) ∧ t.dev.attached (1 - f) = s.dev.attached (1 - f) ∧
      (∀ r : Fin 64, t.dev.sqState (64 * f + r) = 0 ∧ t.dev.cqState (64 * f + r) = 0)) ∧
  (∀ (f : Fin 2) (c : DetachCause) (s : State), s.dev.powered = true → s.dev.attached f = false →
    ∃ t, exec (.functionDetach f c) s = .next t ∧ t.dev.attached f = false ∧
      (c = .port → t.dev.rdF .hifStat 0 (8 * f + 2) (8 * f) = 0) ∧ (c = .busMaster → t.dev.rdB .hifFfStat f 1 = false) ∧
      (c = .reset → t.dev.mbx f = {} ∧ t.dev.msix f = {} ∧
        (∀ r ∈ hifFunctionRegs, t.dev.rd r f = resetReg r f) ∧
        (∀ r ∈ hifRingRegs, ∀ k : Fin 64, t.dev.rd r (64 * f + k) = resetReg r (64 * f + k))) ∧
      (c ≠ .reset → t.dev.hif = s.dev.hif) ∧ Only [.dict, .hif, .regs, .evc, .wev] s t) ∧
  (∀ (f : Fin 2) (v : BitVec 8) (s : State), s.dev.powered = true →
    ∃ t, exec (.hostVerWrite f v) s = .next t ∧ t.dev.rdF .hifFfCtl f 15 8 = v.toNat ∧
      t.dev.agreed f = (if v.toNat / 16 = 1 then 0x10 + min (v.toNat % 16) 1 else 0) ∧
      RegsOnly [regKey .hifFfCtl f] s t ∧ Only [.regs] s t) ∧
  (∀ (f : Fin 2) (n : Nat) (s : State), s.dev.powered = true → s.dev.attached f = true → (s.dev.mbx f).busy = false →
    (s.dev.mbx f).done = false → 1 ≤ n → n ≤ 65536 →
    ∃ t, exec (.mbxGo f n) s = .next t ∧
      t.dev.mbx f = { s.dev.mbx f with busy := true, reqLen := n, answer := none } ∧ Only [.hif, .evc, .wev] s t) ∧
  (∀ (f : Fin 2) (n : Nat) (s : State), s.dev.powered = true → s.dev.attached f = true → n < 2 ^ 17 →
    ((s.dev.mbx f).busy = true ∨ (s.dev.mbx f).done = true ∨ n = 0 ∨ 65536 < n) →
    ∃ t, exec (.mbxGo f n) s = .next t ∧
      t.dev.rdF .hifFfStat f 47 32 = min 65535 (s.dev.rdF .hifFfStat f 47 32 + 1) ∧
      t.dev.mbx f = s.dev.mbx f ∧
      RegsOnly [regKey .hifFfStat f] s t ∧ Only [.hif, .regs, .evc, .wev, .outbox] s t) ∧
  (∀ (f : Fin 2) (n : Nat) (s : State), s.dev.attached f = false → n < 2 ^ 17 →
    exec (.mbxGo f n) s = .next s) ∧
  (∀ (f : Fin 2) (bs : List Byte) (s : State), s.dev.powered = true → (s.dev.mbx f).answer = some bs →
    (s.dev.mbx f).busy = true →
    ∃ t, exec (.mbxResponse f) s = .next t ∧
      t.dev.mbx f = { s.dev.mbx f with busy := false, done := true, rspLen := bs.length, answer := none } ∧
      t.dev.sram = (s.dev.sramWrites (mbxBase f true) (wordsOfBytes ((bs.length + 5) / 6) bs)).sram ∧
      t.dev.outbox = s.dev.outbox ++ (if (s.dev.mbx f).vecEn then msixOut s.dev f (s.dev.mbx f).vec else []) ∧
      t.dev.msix f = (if (s.dev.mbx f).vecEn then msixHeld s.dev f (s.dev.mbx f).vec else s.dev.msix f) ∧
      SramOnly (mbxBase f true) ((bs.length + 5) / 6) s t ∧ Only [.hif, .sram, .regs, .outbox] s t) ∧
  (∀ (f : Fin 2) (s : State), (s.dev.mbx f).answer = none ∨ (s.dev.mbx f).busy = false →
    exec (.mbxResponse f) s = .next s) ∧
  (∀ (f : Fin 2) (s : State), s.dev.powered = true →
    ∃ t, exec (.mbxDoneClear f) s = .next t ∧ t.dev.mbx f = { s.dev.mbx f with done := false } ∧ Only [.hif] s t) ∧
  (∀ (f : Fin 2) (v : BitVec 64) (s : State), s.dev.powered = true → s.dev.attached f = true →
    ∃ t, exec (.hostMailboxWrite f 24 (bytesOfNat 8 v.toNat)) s = .next t ∧
      t.dev.mbx f = { s.dev.mbx f with vec := v.toNat % 64, vecEn := v.getLsbD 8 } ∧ Only [.hif] s t) ∧
  (∀ (f : Fin 2) (v : BitVec 64) (s : State), s.dev.powered = true → s.dev.attached f = true → 2 ^ 31 ≤ v.toNat % 2 ^ 32 →
    ∃ t, exec (.hostMailboxWrite f 16 (bytesOfNat 8 v.toNat)) s = .next t ∧
      t.dev.mbx f = { s.dev.mbx f with done := false } ∧ Only [.hif] s t) ∧
  (∀ (f : Fin 2) (w : Word) (k : Nat) (s : State), s.dev.powered = true → s.dev.attached f = true →
    (s.dev.mbx f).busy = false → k < 10922 → s.dev.rdB .edcInjCtl 0 8 = false → memWf .blank s.dev.sram = true →
    ∃ t, exec (.hostMailboxWrite f (0x10000 + 6 * k) (bytesOfWord w)) s = .next t ∧
      t.dev.cell (mbxBase f false + k) = goodWord w ∧ SramOnly (mbxBase f false + k) 1 s t ∧ Only [.sram] s t) ∧
  (∀ (f : Fin 2) (off : Nat) (bs : List Byte) (s : State),
    s.dev.attached f = false ∨ (0x10000 ≤ off ∧ (s.dev.mbx f).busy = true) ∨ 0x20000 ≤ off ∨
      (off < 0x10000 ∧ off ≠ 8 ∧ off ≠ 16 ∧ off ≠ 24) →
    exec (.hostMailboxWrite f off bs) s = .next s) ∧
  (∀ (f : Fin 2) (m : Mailbox) (s : State), s.dev.attached f = true → s.dev.mbx f = m →
    s.dev.mailboxRead f 0 = (some (BitVec.ofNat 64 (m.busy.toNat + 2 * m.done.toNat + 256 * s.dev.devState.code)), s.dev) ∧
      s.dev.mailboxRead f 16 = (some (BitVec.ofNat 64 (m.rspLen + 2 ^ 31 * m.done.toNat)), s.dev) ∧
      s.dev.mailboxRead f 24 = (some (BitVec.ofNat 64 (m.vec + 256 * m.vecEn.toNat)), s.dev)) ∧
  (∀ (f : Fin 2) (off : Nat) (s : State), s.dev.attached f = false → s.dev.mailboxRead f off = (some 0, s.dev))

/-- R485, R495, R498–R503, R506, R512: a doorbell asks for a header read, which gives the producer index; entries are taken in
order into a DIRECT ring or a FIRMWARE inbox; NOP, QUERY, RETRO, READ and REF_WRITE give an entry its outcome, and its
completion goes into the completion ring. -/
def Obligations.SubmissionRings : Prop :=
  (∀ (f : Fin 2) (r : Fin 64) (s : State), s.dev.powered = true → s.dev.domOn (10 + f) = true →
    s.dev.sqState (64 * f + r) = 1 →
    ∃ t, exec (.submissionDoorbell f r) s = .next t ∧
      t.dev.sq (64 * f + r) = { s.dev.sq (64 * f + r) with bell := true } ∧
      RegsOnly [regKey .hifFfSqsStat (64 * f + r)] s t ∧ Only [.hif, .regs] s t) ∧
  (∀ (f : Fin 2) (r : Fin 64) (s : State), s.dev.powered = true → s.dev.domOn (10 + f) = true →
    s.dev.sqState (64 * f + r) ≠ 1 →
    ∃ t, exec (.submissionDoorbell f r) s = .next t ∧
      t.dev.rdF .hifFfStat f 31 16 = min 65535 (s.dev.rdF .hifFfStat f 31 16 + 1) ∧
      RegsOnly [regKey .hifFfStat f] s t ∧ Only [.regs] s t) ∧
  (∀ (f : Fin 2) (r : Fin 64) (s : State), s.dev.domOn (10 + f) = false →
    exec (.submissionDoorbell f r) s = .next s) ∧
  (∀ (f : Fin 2) (r : Fin 64) (p : BitVec 32) (s : State), s.dev.powered = true → s.dev.sqState (64 * f + r) = 1 →
    (s.dev.sq (64 * f + r)).bell = true → p.toNat < 2 ^ (s.dev.sqBits (64 * f + r) + 1) →
    idxSub (s.dev.sqBits (64 * f + r)) p.toNat (s.dev.sqCons (64 * f + r)) ≤ 2 ^ s.dev.sqBits (64 * f + r) →
    ∃ t, exec (.headerRead f r (some p)) s = .next t ∧
      t.dev.sq (64 * f + r) = { s.dev.sq (64 * f + r) with bell := false, known := p.toNat, waits := false } ∧
      RegsOnly [regKey .hifFfSqsStat (64 * f + r)] s t ∧ Only [.hif, .regs] s t) ∧
  (∀ (f : Fin 2) (r : Fin 64) (p : BitVec 32) (s : State), s.dev.powered = true → s.dev.sqState (64 * f + r) = 1 →
    (s.dev.sq (64 * f + r)).bell = true → (2 ^ (s.dev.sqBits (64 * f + r) + 1) ≤ p.toNat ∨
      2 ^ s.dev.sqBits (64 * f + r) < idxSub (s.dev.sqBits (64 * f + r)) p.toNat (s.dev.sqCons (64 * f + r))) →
    ∃ t, exec (.headerRead f r (some p)) s = .next t ∧ t.dev.sqState (64 * f + r) = 2 ∧
      (t.dev.sq (64 * f + r)).stopSt = (0x10, 0x20) ∧ t.dev.rdB .hifFfSqsStat (64 * f + r) 19 = true ∧
      ((t.dev.sq (64 * f + r)).entries.all (fun e => e.res.isSome)) = true) ∧
  (∀ (f : Fin 2) (r : Fin 64) (s : State), s.dev.powered = true → s.dev.sqState (64 * f + r) = 1 →
    (s.dev.sq (64 * f + r)).bell = true →
    ∃ t, exec (.headerRead f r none) s = .next t ∧ t.dev.sqState (64 * f + r) = 2 ∧
      (t.dev.sq (64 * f + r)).stopSt = (0x1A, 4) ∧ (∀ e ∈ (t.dev.sq (64 * f + r)).entries, e.res.isSome = true) ∧
      RegsOnly [regKey .hifFfSqsStat (64 * f + r)] s t ∧ Only [.hif, .regs, .tfb, .tmv, .hbc] s t) ∧
  (∀ (f : Fin 2) (r : Fin 64) (p : Option (BitVec 32)) (s : State), s.dev.sqState (64 * f + r) ≠ 1 ∨
      (s.dev.sq (64 * f + r)).bell = false →
    exec (.headerRead f r p) s = .next s) ∧
  (∀ (f : Fin 2) (r : Fin 64) (e : List Byte) (s : State), s.dev.powered = true → e.length = 64 →
    s.dev.sqState (64 * f + r) = 1 → s.dev.sqCons (64 * f + r) ≠ (s.dev.sq (64 * f + r)).known → (s.dev.sq (64 * f + r)).waits = false →
    entOwned (s.dev.sqBits (64 * f + r)) (s.dev.sqCons (64 * f + r)) e = true → s.dev.sqFirmware (64 * f + r) = false →
    (s.dev.sq (64 * f + r)).entries = [] → s.dev.entRefusal f e = none → (entByte e 0 = 1 ∨ s.dev.domOn 22 = true) →
    s.dev.cqHeld (s.dev.sqComp (64 * f + r)) = 0 → 0 < s.dev.cqRoom (s.dev.sqComp (64 * f + r)) →
    s.dev.cqRsvd (s.dev.sqComp (64 * f + r)) < 64 → s.dev.sqBits (64 * f + r) ≤ 16 →
    ∃ t, exec (.entryTake f r (some e)) s = .next t ∧
      t.dev.sqCons (64 * f + r) = (s.dev.sqCons (64 * f + r) + 1) % 2 ^ (s.dev.sqBits (64 * f + r) + 1) ∧
      (t.dev.sq (64 * f + r)).entries = [⟨(s.dev.sq (64 * f + r)).taken, entByte e 0, BitVec.ofNat 32 (entNat e 4 4), entWords e,
        entNat e 8 8, entNat e 16 4, entByte e 56, decide (entByte e 1 / 2 % 2 = 1), false, none, none⟩] ∧
      (t.dev.sq (64 * f + r)).taken = (s.dev.sq (64 * f + r)).taken + 1 ∧
      t.dev.cqRsvd (s.dev.sqComp (64 * f + r)) = s.dev.cqRsvd (s.dev.sqComp (64 * f + r)) + 1 ∧
      t.dev.rdF .hifFfSqsStat (64 * f + r) 27 21 = 1 ∧ Only [.hif, .regs, .outbox] s t) ∧
  (∀ (f : Fin 2) (r : Fin 64) (e : List Byte) (o : Nat × Nat) (s : State), s.dev.powered = true → e.length = 64 →
    s.dev.sqState (64 * f + r) = 1 → s.dev.sqCons (64 * f + r) ≠ (s.dev.sq (64 * f + r)).known → (s.dev.sq (64 * f + r)).waits = false →
    entOwned (s.dev.sqBits (64 * f + r)) (s.dev.sqCons (64 * f + r)) e = true → s.dev.sqFirmware (64 * f + r) = false →
    (s.dev.sq (64 * f + r)).entries = [] → s.dev.entRefusal f e = some o →
    s.dev.cqHeld (s.dev.sqComp (64 * f + r)) = 0 → 0 < s.dev.cqRoom (s.dev.sqComp (64 * f + r)) →
    s.dev.cqRsvd (s.dev.sqComp (64 * f + r)) < 64 →
    ∃ t, exec (.entryTake f r (some e)) s = .next t ∧
      ((t.dev.sq (64 * f + r)).entries.map (fun x => x.res)) = [some { status := o.1, sub := o.2 }] ∧
      Only [.hif, .regs, .outbox] s t) ∧
  (∀ (f : Fin 2) (r : Fin 64) (e : List Byte) (m j : Nat) (s : State), s.dev.powered = true → e.length = 64 →
    s.dev.sqState (64 * f + r) = 1 → s.dev.sqCons (64 * f + r) ≠ (s.dev.sq (64 * f + r)).known → (s.dev.sq (64 * f + r)).waits = false →
    entOwned (s.dev.sqBits (64 * f + r)) (s.dev.sqCons (64 * f + r)) e = true → s.dev.sqFirmware (64 * f + r) = true →
    s.dev.inboxFull (64 * f + r) = false → s.dev.rdF .hifFfSqsInbox (64 * f + r) 27 24 = m → m ≤ 10 →
    s.dev.rdF .hifFfSqsInboxIdx (64 * f + r) 10 0 = j →
    ∃ t, exec (.entryTake f r (some e)) s = .next t ∧
      t.dev.rdF .hifFfSqsInboxIdx (64 * f + r) 10 0 = (j + 1) % 2 ^ (m + 1) % 2 ^ 11 ∧
      t.dev.sram = (s.dev.sramWrites (0x6AA800 + s.dev.rdF .hifFfSqsInbox (64 * f + r) 19 0 + 11 * (j % 2 ^ m))
        (wordsOfBytes 11 e)).sram ∧
      (t.dev.sq (64 * f + r)).entries = (s.dev.sq (64 * f + r)).entries ∧
      Only [.hif, .regs, .outbox, .sram, .evc, .wev] s t) ∧
  (∀ (f : Fin 2) (r : Fin 64) (e : List Byte) (s : State), s.dev.powered = true → e.length = 64 →
    s.dev.sqState (64 * f + r) = 1 → s.dev.sqCons (64 * f + r) ≠ (s.dev.sq (64 * f + r)).known → (s.dev.sq (64 * f + r)).waits = false →
    entOwned (s.dev.sqBits (64 * f + r)) (s.dev.sqCons (64 * f + r)) e = true → s.dev.sqFirmware (64 * f + r) = true →
    s.dev.inboxFull (64 * f + r) = true →
    ∃ t, exec (.entryTake f r (some e)) s = .next t ∧ t.dev.rdB .hifFfSqsStat (64 * f + r) 20 = true ∧
      t.dev.sqCons (64 * f + r) = s.dev.sqCons (64 * f + r) ∧ Only [.hif, .regs, .outbox] s t) ∧
  (∀ (f : Fin 2) (r : Fin 64) (s : State), s.dev.powered = true → s.dev.sqState (64 * f + r) = 1 →
    s.dev.sqCons (64 * f + r) ≠ (s.dev.sq (64 * f + r)).known → (s.dev.sq (64 * f + r)).waits = false →
    ∃ t, exec (.entryTake f r none) s = .next t ∧ t.dev.sqState (64 * f + r) = 2 ∧
      (t.dev.sq (64 * f + r)).stopSt = (0x1A, 4) ∧ Only [.hif, .regs, .tfb, .tmv, .hbc] s t) ∧
  (∀ (f : Fin 2) (r : Fin 64) (e : List Byte) (s : State), s.dev.powered = true → e.length = 64 →
    s.dev.sqState (64 * f + r) = 1 → s.dev.sqCons (64 * f + r) ≠ (s.dev.sq (64 * f + r)).known →
    (s.dev.sq (64 * f + r)).waits = false → entOwned (s.dev.sqBits (64 * f + r)) (s.dev.sqCons (64 * f + r)) e = false →
    ∃ t, exec (.entryTake f r (some e)) s = .next t ∧
      t.dev.sq (64 * f + r) = { s.dev.sq (64 * f + r) with waits := true, consDue := false } ∧
      t.dev.sqCons (64 * f + r) = s.dev.sqCons (64 * f + r) ∧ Only [.hif, .regs, .outbox] s t) ∧
  (∀ (f : Fin 2) (r : Fin 64) (e : Option (List Byte)) (s : State), e.all entryBytes = true →
    (s.dev.sqState (64 * f + r) ≠ 1 ∨ s.dev.sqCons (64 * f + r) = (s.dev.sq (64 * f + r)).known ∨
      (s.dev.sq (64 * f + r)).waits = true) →
    exec (.entryTake f r e) s = .next s) ∧
  (∀ (f : Fin 2) (r : Fin 64) (n : Nat) (e : DirEntry) (s : State), s.dev.powered = true →
    s.dev.openEntry (64 * f + r) n 1 = some e →
    ∃ t, exec (.hostNop f r n) s = .next t ∧ (t.dev.sq (64 * f + r)).entries = (s.dev.sq (64 * f + r)).entries.map
        (fun x => if x.seq = n then { e with res := some { status := 0, sub := 0 } } else x) ∧
      RegsOnly [regKey .hifFfSqsStat (64 * f + r)] s t ∧ Only [.hif, .regs] s t) ∧
  (∀ (f : Fin 2) (r : Fin 64) (n : Nat) (e : DirEntry) (s : State), s.dev.powered = true →
    s.dev.domOn 22 = true → s.dev.openEntry (64 * f + r) n 2 = some e → e.query = none →
    ∃ t, exec (.hostQuery f r n) s = .next t ∧ (t.dev.sq (64 * f + r)).entries = (s.dev.sq (64 * f + r)).entries.map
        (fun x => if x.seq = n then { e with query := some s.dev.tfb.nextQuery } else x) ∧
      t.dev.tfb.queries = s.dev.tfb.queries ++ [({
        id := s.dev.tfb.nextQuery, src := .ring f r n, words := e.words,
        cls := s.dev.rdF .hifFfSqsCfg (64 * f + r) 25 21 } : Query)] ∧ Only [.hif, .regs, .tfb, .tmv, .hbc] s t) ∧
  (∀ (f : Fin 2) (r : Fin 64) (n : Nat) (e : DirEntry) (o : Nat × Nat × Dev) (s : State), s.dev.powered = true →
    s.dev.domOn 22 = true → s.dev.openEntry (64 * f + r) n 3 = some e → s.dev.retroSubmit e.arg e.words = o →
    o.2.2.hif = s.dev.hif →
    ∃ t, exec (.hostRetro f r n) s = .next t ∧ (t.dev.sq (64 * f + r)).entries = (s.dev.sq (64 * f + r)).entries.map
        (fun x => if x.seq = n then { e with res := some ⟨o.1, o.2.1, e.arg, 0, 0⟩ } else x)) ∧
  (∀ (f : Fin 2) (r : Fin 64) (n : Nat) (e : DirEntry) (ws : List Word) (s : State), s.dev.powered = true →
    s.dev.domOn 22 = true → s.dev.attached f = true → s.dev.openEntry (64 * f + r) n 4 = some e →
    sourceOk (fld (e.words.getD 0 0) 39 0) (e.hlen / 6) = true → ws ≠ [] →
    s.dev.moverRead (fld (e.words.getD 0 0) 39 0) (e.hlen / 6) = (ws, 0, s.dev) →
    ∃ t, exec (.hostRead f r n) s = .next t ∧
      t.dev.outbox = s.dev.outbox ++ [.hostWrite f e.haddr (bytesOfWords (if e.trailer then ws ++ crcTrailer 0 0 ws else ws))] ∧
      (t.dev.sq (64 * f + r)).entries = (s.dev.sq (64 * f + r)).entries.map (fun x => if x.seq = n then
        { e with res := some { status := 0, sub := 0, v0 := 6 * (ws.length + if e.trailer then 2 else 0) } } else x) ∧
      Only [.hif, .regs, .outbox] s t) ∧
  (∀ (f : Fin 2) (r : Fin 64) (n : Nat) (e : DirEntry) (s : State), s.dev.powered = true →
    s.dev.domOn 22 = true → s.dev.openEntry (64 * f + r) n 4 = some e → sourceOk (fld (e.words.getD 0 0) 39 0) (e.hlen / 6) = false →
    ∃ t, exec (.hostRead f r n) s = .next t ∧ (t.dev.sq (64 * f + r)).entries = (s.dev.sq (64 * f + r)).entries.map
        (fun x => if x.seq = n then { e with res := some { status := 0x21, sub := 7 } } else x) ∧
      RegsOnly [regKey .hifFfSqsStat (64 * f + r)] s t ∧ Only [.hif, .regs] s t) ∧
  (∀ (f : Fin 2) (r : Fin 64) (n : Nat) (e : DirEntry) (w : List Word) (b : Bool) (s : State), s.dev.powered = true →
    w.length = 512 → s.dev.domOn 22 = true → s.dev.openEntry (64 * f + r) n 5 = some e → e.hlen = 3072 → s.dev.hbc.link = [] →
    (s.dev.loadingRef (fld (e.words.getD 0 0) 25 0)).isSome = true →
    ∃ t, exec (.refWrite f r n [w] b) s = .next t ∧ (t.dev.sq (64 * f + r)).entries = (s.dev.sq (64 * f + r)).entries.map
        (fun x => if x.seq = n then { e with res := some ⟨if b then 0x1A else 0, if b then 4 else 0, 1, 0, 0⟩ } else x) ∧
      (∀ i : Fin 512, (t.dev.tile (s.dev.placeOf (fld (e.words.getD 0 0) 25 0))).word i = w.getD i 0)) ∧
  (∀ (f : Fin 2) (r : Fin 64) (n : Nat) (e : DirEntry) (s : State), s.dev.powered = true →
    s.dev.domOn 22 = true → s.dev.openEntry (64 * f + r) n 5 = some e → e.hlen = 3072 → s.dev.loadingRef (fld (e.words.getD 0 0) 25 0) = none →
    ∃ t, exec (.refWrite f r n [] false) s = .next t ∧ (t.dev.sq (64 * f + r)).entries =
        (s.dev.sq (64 * f + r)).entries.map (fun x => if x.seq = n then { e with res := some ⟨0x10, 0x12, 0, 0, 0⟩ } else x) ∧
      t.dev.rdF .hifFfSqsCount (64 * f + r) 47 32 = min 65535 (s.dev.rdF .hifFfSqsCount (64 * f + r) 47 32 + 1) ∧
      Only [.hif, .regs] s t) ∧
  (∀ (f : Fin 2) (r : Fin 64) (n : Nat) (op : Fin 4) (e : DirEntry) (l : List (List Word)) (b : Bool) (s : State),
    s.dev.powered = true → l.all wholeTile = true → s.dev.domOn 22 = false →
    s.dev.openEntry (64 * f + r) n (2 + op) = some e → (op = 0 → e.query = none) →
    ∃ t, exec (if op = 0 then .hostQuery f r n else if op = 1 then .hostRetro f r n else if op = 2 then .hostRead f r n
        else .refWrite f r n l b) s = .next t ∧
      (t.dev.sq (64 * f + r)).entries = (s.dev.sq (64 * f + r)).entries.map
        (fun x => if x.seq = n then { e with res := some { status := 0x38, sub := 0 } } else x) ∧
      RegsOnly [regKey .hifFfSqsStat (64 * f + r)] s t ∧ Only [.hif, .regs] s t) ∧
  (∀ (f : Fin 2) (r : Fin 64) (n : Nat) (l : List (List Word)) (b : Bool) (s : State), l.all wholeTile = true →
    (s.dev.sq (64 * f + r)).entries.all (fun e => e.seq ≠ n || e.res.isSome) = true →
    exec (.hostNop f r n) s = .next s ∧
    exec (.hostQuery f r n) s = .next s ∧
    exec (.hostRetro f r n) s = .next s ∧
    exec (.hostRead f r n) s = .next s ∧
    exec (.refWrite f r n l b) s = .next s) ∧
  (∀ (f : Fin 2) (r : Fin 64) (n : Nat) (e : DirEntry) (o : DirResult) (s : State), s.dev.powered = true →
    s.dev.attached f = true → (s.dev.sq (64 * f + r)).entries = [e] → e.seq = n → e.res = some o → e.inHold = false →
    s.dev.cqHeld (s.dev.sqComp (64 * f + r)) = 0 →
    idxSub (s.dev.cqBits (s.dev.sqComp (64 * f + r))) (s.dev.cqProd (s.dev.sqComp (64 * f + r)))
      (s.dev.rdF .hifFfCqcHost (s.dev.sqComp (64 * f + r)) 16 0) + s.dev.cqRsvd (s.dev.sqComp (64 * f + r)) <
      2 ^ s.dev.cqBits (s.dev.sqComp (64 * f + r)) →
    ∃ t, exec (.directEntryComplete f r n) s = .next t ∧ (t.dev.sq (64 * f + r)).entries = [] ∧
      .hostWrite f (s.dev.rdF .hifFfCqcCfg (s.dev.sqComp (64 * f + r)) 47 32 * 2 ^ 48 +
          (s.dev.rd .hifFfCqcBase (s.dev.sqComp (64 * f + r))).toNat +
          32 * (s.dev.cqProd (s.dev.sqComp (64 * f + r)) % 2 ^ s.dev.cqBits (s.dev.sqComp (64 * f + r))))
        (withPhase (compEntry o.status o.sub 0 r e.tag o.v0 o.v1.toNat o.v2)
          (phaseOf (s.dev.cqBits (s.dev.sqComp (64 * f + r))) (s.dev.cqProd (s.dev.sqComp (64 * f + r))))) ∈ t.dev.outbox) ∧
  (∀ (f : Fin 2) (r : Fin 64) (n : Nat) (s : State),
    (s.dev.sq (64 * f + r)).entries.all (fun e => e.seq ≠ n || e.res.isNone) = true →
    exec (.directEntryComplete f r n) s = .next s) ∧
  (∀ (n : Nat) (q : Query) (d : Dev) (s : State), s.dev.powered = true → s.dev.query n = some q → q.service = true →
    s.dev.queryReady q = true → s.dev.engineTurn (.query n) = (true, d) →
    ∃ t, exec (.queryComplete n) s = .next t ∧ t.dev = d.finishQuery q ∧ t.dev.query n = none ∧
      (q.src = .dict → t.dev.tfb.dictState = 2 ∧ t.dev.tfb.dictLen ≤ resultRoom)) ∧
  (∀ (n : Nat) (q : Query) (d : Dev) (s : State), s.dev.powered = true → s.dev.query n = some q → q.service = true →
    s.dev.queryReady q = true → s.dev.engineTurn (.query n) = (false, d) →
    ∃ t, exec (.queryComplete n) s = .next t ∧ t.dev = d ∧ t.dev.tfb = s.dev.tfb ∧ Only [.tmv, .hbc] s t) ∧
  (∀ (n : Nat) (s : State), (s.dev.query n).all (fun q => !q.service || !s.dev.queryReady q) = true →
    exec (.queryComplete n) s = .next s)

/-- R486, R504, R508, R510–R513: a completion doorbell takes HOST or is refused; a due message is sent; rings are enabled or
refused; a submission ring stops, and at the end of its stop has its marker and is OFF; a completion ring stops. -/
def Obligations.CompletionRings : Prop :=
  (∀ (f : Fin 2) (c : Fin 64) (v : BitVec 64) (s : State), s.dev.powered = true → s.dev.domOn (10 + f) = true →
    s.dev.cqState (64 * f + c) = 1 → v.toNat % 2 ^ 17 < 2 ^ (s.dev.cqBits (64 * f + c) + 1) →
    idxSub (s.dev.cqBits (64 * f + c)) (s.dev.cqProd (64 * f + c)) (v.toNat % 2 ^ 17) ≤ 2 ^ s.dev.cqBits (64 * f + c) →
    s.dev.cqHeld (64 * f + c) = 0 →
    ∃ t, exec (.completionDoorbell f c v) s = .next t ∧ t.dev.rdF .hifFfCqcHost (64 * f + c) 16 0 = v.toNat % 2 ^ 17 ∧
      t.dev.cqProd (64 * f + c) = s.dev.cqProd (64 * f + c) ∧ Only [.regs, .ibx] s t) ∧
  (∀ (f : Fin 2) (c : Fin 64) (v : BitVec 64) (s : State), s.dev.powered = true → s.dev.domOn (10 + f) = true →
    s.dev.cqState (64 * f + c) = 1 → (2 ^ (s.dev.cqBits (64 * f + c) + 1) ≤ v.toNat % 2 ^ 17 ∨
      2 ^ s.dev.cqBits (64 * f + c) < idxSub (s.dev.cqBits (64 * f + c)) (s.dev.cqProd (64 * f + c)) (v.toNat % 2 ^ 17)) →
    ∃ t, exec (.completionDoorbell f c v) s = .next t ∧ t.dev.rdB .hifFfCqcStat (64 * f + c) 17 = true ∧
      RegsOnly [regKey .hifFfCqcStat (64 * f + c)] s t ∧ Only [.hif, .regs, .evc, .wev, .outbox] s t) ∧
  (∀ (f : Fin 2) (c : Fin 64) (v : BitVec 64) (s : State), s.dev.powered = true → s.dev.domOn (10 + f) = true →
    s.dev.cqState (64 * f + c) ≠ 1 →
    ∃ t, exec (.completionDoorbell f c v) s = .next t ∧
      t.dev.rdF .hifFfStat f 31 16 = min 65535 (s.dev.rdF .hifFfStat f 31 16 + 1) ∧
      RegsOnly [regKey .hifFfStat f] s t ∧ Only [.regs] s t) ∧
  (∀ (f : Fin 2) (c : Fin 64) (v : BitVec 64) (s : State), s.dev.domOn (10 + f) = false →
    exec (.completionDoorbell f c v) s = .next s) ∧
  (∀ (f : Fin 2) (c : Fin 64) (s : State), s.dev.powered = true → s.dev.attached f = true →
    (s.dev.cq (64 * f + c)).msgDue = true → s.dev.coalDone (64 * f + c) = true →
    ∃ t, exec (.coalMessage f c) s = .next t ∧
      t.dev.outbox = s.dev.outbox ++ msixOut s.dev f (s.dev.rdF .hifFfCqcCfg (64 * f + c) 23 18) ∧
      t.dev.msix f = msixHeld s.dev f (s.dev.rdF .hifFfCqcCfg (64 * f + c) 23 18) ∧
      t.dev.cq (64 * f + c) = { s.dev.cq (64 * f + c) with lastMsg := some s.dev.now, msgDue := false } ∧
      Only [.hif, .outbox] s t) ∧
  (∀ (f : Fin 2) (c : Fin 64) (s : State), (s.dev.cq (64 * f + c)).msgDue = false ∨ s.dev.coalDone (64 * f + c) = false →
    exec (.coalMessage f c) s = .next s) ∧
  (∀ (f : Fin 2) (c : Fin 64) (s : State), s.dev.powered = true → s.dev.ringsAllowed f = true →
    s.dev.cqState (64 * f + c) = 0 → (s.dev.rd .hifFfCqcBase (64 * f + c)).toNat % 64 = 0 →
    s.dev.rdF .hifFfCqcCfg (64 * f + c) 13 10 ≤ 12 →
    ∃ t, exec (.ringEnable f false c) s = .next t ∧ t.dev.cqState (64 * f + c) = 1 ∧ t.dev.cqProd (64 * f + c) = 0 ∧
      t.dev.rd .hifFfCqcHost (64 * f + c) = 0 ∧ t.dev.rdB .hifFfCqcCfg (64 * f + c) 0 = true ∧
      t.dev.cq (64 * f + c) = { lastMsg := (s.dev.cq (64 * f + c)).lastMsg, msgDue := (s.dev.cq (64 * f + c)).msgDue } ∧
      RegsOnly [regKey .hifFfCqcCfg (64 * f + c), regKey .hifFfCqcStat (64 * f + c), regKey .hifFfCqcHost (64 * f + c)] s t ∧
      Only [.hif, .regs, .evc, .wev] s t) ∧
  (∀ (f : Fin 2) (r : Fin 64) (m : Nat) (s : State), s.dev.powered = true → s.dev.ringsAllowed f = true →
    s.dev.sqState (64 * f + r) = 0 → (s.dev.rd .hifFfSqsBase (64 * f + r)).toNat % 64 = 0 →
    (s.dev.rd .hifFfSqsHdr (64 * f + r)).toNat % 64 = 0 → s.dev.rdF .hifFfSqsCfg (64 * f + r) 17 14 ≤ 12 →
    s.dev.cqState (s.dev.sqComp (64 * f + r)) = 1 → s.dev.rdF .hifFfSqsInbox (64 * f + r) 27 24 = m →
    (s.dev.sqFirmware (64 * f + r) = false ∨ (4 ≤ m ∧ m ≤ 10 ∧
      s.dev.rdF .hifFfSqsInbox (64 * f + r) 19 0 + 11 * 2 ^ m ≤ 1009664)) →
    ∃ t, exec (.ringEnable f true r) s = .next t ∧ t.dev.sqState (64 * f + r) = 1 ∧ t.dev.sqCons (64 * f + r) = 0 ∧
      t.dev.rdB .hifFfSqsCfg (64 * f + r) 0 = true ∧ t.dev.sq (64 * f + r) = {} ∧ Only [.hif, .regs, .outbox] s t) ∧
  (∀ (f : Fin 2) (r : Fin 64) (s : State), s.dev.powered = true → s.dev.sqState (64 * f + r) = 0 →
    (s.dev.ringsAllowed f = false ∨ (s.dev.rd .hifFfSqsBase (64 * f + r)).toNat % 64 ≠ 0 ∨
      (s.dev.rd .hifFfSqsHdr (64 * f + r)).toNat % 64 ≠ 0 ∨ 12 < s.dev.rdF .hifFfSqsCfg (64 * f + r) 17 14 ∨
      s.dev.cqState (s.dev.sqComp (64 * f + r)) ≠ 1) →
    ∃ t, exec (.ringEnable f true r) s = .next t ∧ t.dev.rdB .hifFfSqsCfg (64 * f + r) 2 = true ∧
      t.dev.sqState (64 * f + r) = 0 ∧ RegsOnly [regKey .hifFfSqsCfg (64 * f + r)] s t ∧
      Only [.hif, .regs, .evc, .wev, .outbox] s t) ∧
  (∀ (f : Fin 2) (c : Fin 64) (s : State), s.dev.powered = true → s.dev.cqState (64 * f + c) = 0 →
    (s.dev.ringsAllowed f = false ∨ (s.dev.rd .hifFfCqcBase (64 * f + c)).toNat % 64 ≠ 0 ∨
      12 < s.dev.rdF .hifFfCqcCfg (64 * f + c) 13 10) →
    ∃ t, exec (.ringEnable f false c) s = .next t ∧ t.dev.rdB .hifFfCqcCfg (64 * f + c) 2 = true ∧
      t.dev.cqState (64 * f + c) = 0 ∧ RegsOnly [regKey .hifFfCqcCfg (64 * f + c)] s t ∧
      Only [.hif, .regs, .evc, .wev, .outbox] s t) ∧
  (∀ (f : Fin 2) (sub : Bool) (r : Fin 64) (s : State),
    (if sub then s.dev.sqState (64 * f + r) ≠ 0 else s.dev.cqState (64 * f + r) ≠ 0) →
    exec (.ringEnable f sub r) s = .next s) ∧
  (∀ (f : Fin 2) (r : Fin 64) (s : State), s.dev.powered = true → s.dev.sqState (64 * f + r) = 1 →
    ∃ t, exec (.sqStop f r) s = .next t ∧ t.dev.sqState (64 * f + r) = 2 ∧
      (t.dev.sq (64 * f + r)).stopSt = (0, 0) ∧
      (t.dev.sq (64 * f + r)).entries =
        (s.dev.sq (64 * f + r)).entries.map (fun e => if e.res.isSome then e else { e with res := some ⟨0x08, 0, 0, 0, 0⟩ }) ∧
      RegsOnly [regKey .hifFfSqsStat (64 * f + r)] s t ∧ Only [.hif, .regs, .tfb, .tmv, .hbc] s t) ∧
  (∀ (f : Fin 2) (r : Fin 64) (s : State), s.dev.sqState (64 * f + r) ≠ 1 →
    exec (.sqStop f r) s = .next s) ∧
  (∀ (f : Fin 2) (r : Fin 64) (p : BitVec 32) (s : State), s.dev.powered = true → s.dev.sqState (64 * f + r) = 2 →
    (s.dev.sq (64 * f + r)).entries = [] → (s.dev.sq (64 * f + r)).stopRead = false →
    p.toNat = s.dev.sqCons (64 * f + r) → s.dev.sqBits (64 * f + r) ≤ 16 → p.toNat < 2 ^ (s.dev.sqBits (64 * f + r) + 1) →
    s.dev.cqHeld (s.dev.sqComp (64 * f + r)) = 0 → 0 < s.dev.cqRoom (s.dev.sqComp (64 * f + r)) →
    ∃ t, exec (.stopFinish f r (some p) []) s = .next t ∧ t.dev.sqState (64 * f + r) = 0 ∧
      t.dev.rdB .hifFfSqsCfg (64 * f + r) 0 = false ∧ t.dev.sqCons (64 * f + r) = p.toNat ∧
      t.dev.sq (64 * f + r) = {} ∧
      (s.dev.attached f = true → .hostWrite f (s.dev.rdF .hifFfCqcCfg (s.dev.sqComp (64 * f + r)) 47 32 * 2 ^ 48 +
          (s.dev.rd .hifFfCqcBase (s.dev.sqComp (64 * f + r))).toNat +
          32 * (s.dev.cqProd (s.dev.sqComp (64 * f + r)) % 2 ^ s.dev.cqBits (s.dev.sqComp (64 * f + r))))
        (withPhase (compEntry (s.dev.sq (64 * f + r)).stopSt.1 (s.dev.sq (64 * f + r)).stopSt.2 2 r 0 p.toNat 0 0)
          (phaseOf (s.dev.cqBits (s.dev.sqComp (64 * f + r))) (s.dev.cqProd (s.dev.sqComp (64 * f + r))))) ∈ t.dev.outbox) ∧
      Only [.hif, .regs, .evc, .wev, .sram, .ghd, .hbc, .outbox] s t) ∧
  (∀ (f : Fin 2) (r : Fin 64) (p : Option (BitVec 32)) (l : List (List Byte)) (s : State), s.dev.powered = true →
    s.dev.sqState (64 * f + r) = 2 → (s.dev.sq (64 * f + r)).entries = [] → l.all entryBytes = true →
    s.dev.cqRoom (s.dev.sqComp (64 * f + r)) = 0 → s.dev.holdFree (s.dev.sqComp (64 * f + r)) = 0 →
    ((s.dev.sq (64 * f + r)).stopRead = true → (s.dev.sq (64 * f + r)).stopQ ≠ []) →
    ∃ t, exec (.stopFinish f r p l) s = .next t ∧ t.dev.sqState (64 * f + r) = 2 ∧
      (t.dev.sq (64 * f + r)).stopQ ≠ [] ∧ RegsOnly [regKey .hifFfSqsStat (64 * f + r)] s t ∧ Only [.hif, .regs] s t) ∧
  (∀ (f : Fin 2) (r : Fin 64) (p : Option (BitVec 32)) (l : List (List Byte)) (s : State), l.all entryBytes = true →
    (s.dev.sqState (64 * f + r) ≠ 2 ∨ (s.dev.sq (64 * f + r)).entries ≠ []) →
    exec (.stopFinish f r p l) s = .next s) ∧
  (∀ (f : Fin 2) (c : Fin 64) (s : State), s.dev.powered = true →
    (∀ r : Fin 64, s.dev.sqState (64 * f + r) = 0 ∨ s.dev.sqComp (64 * f + r) ≠ 64 * f + c) →
    s.dev.cqState (64 * f + c) ≠ 0 →
    ∃ t, exec (.cqStop f c) s = .next t ∧ t.dev.cqState (64 * f + c) = 0 ∧ t.dev.cqHeld (64 * f + c) = 0 ∧
      t.dev.rdB .hifFfCqcCfg (64 * f + c) 0 = false ∧
      t.dev.cq (64 * f + c) = { lastMsg := (s.dev.cq (64 * f + c)).lastMsg, msgDue := (s.dev.cq (64 * f + c)).msgDue } ∧
      t.dev.rdF .hifFfLost f 31 0 = min (2 ^ 32 - 1) (s.dev.rdF .hifFfLost f 31 0 + s.dev.cqHeld (64 * f + c)) ∧
      Only [.hif, .regs, .ibx, .evc, .wev, .outbox] s t) ∧
  (∀ (f : Fin 2) (c r : Fin 64) (s : State), s.dev.powered = true → s.dev.sqState (64 * f + r) ≠ 0 →
    s.dev.sqComp (64 * f + r) = 64 * f + c →
    ∃ t, exec (.cqStop f c) s = .next t ∧ t.dev.rdB .hifFfCqcCfg (64 * f + c) 2 = true ∧
      RegsOnly [regKey .hifFfCqcCfg (64 * f + c)] s t ∧ Only [.hif, .regs, .evc, .wev, .outbox] s t) ∧
  (∀ (f : Fin 2) (c : Fin 64) (s : State), (∀ r : Fin 64, s.dev.sqComp (64 * f + r) ≠ 64 * f + c) →
    s.dev.cqState (64 * f + c) = 0 →
    exec (.cqStop f c) s = .next s)

/-! ### The dictionary and the field network -/

/-- R551, R556, R559, R561: a CONNECT whose range of versions meets 1.0 to 1.2 opens one more session, with the agreed version, and
answers it; a range that does not meet them and a seventeenth session of a port are refused; CONNECT on a mailbox or core path
closes the path's session before; CLOSE ends the session, and a field network session ends after 10 s without a request; a record
of a session that is not open is refused; an unfinished transfer is dropped after 10 s. -/
def Obligations.DictSessions : Prop :=
  (∀ (x : BopPath) (src : HostAddr) (lo hi : BitVec 8) (s : State), src.wf = true → s.dev.pathUp x = true →
    lo ≤ hi → lo ≤ 0x12 → 0x10 ≤ hi → isEth x = true →
    (s.dev.dict.sessions.filter (fun r => decide (r.path = x))).length < 16 →
    ∃ t, exec (.connect x src lo hi) s = .next t ∧
      BopSays 0 0 (bytesOfNat 2 (min hi.toNat 0x12) ++ bytesOfNat 2 10 ++ bytesOfNat 4 1452) t ∧
      t.dev.dict.sessions.dropLast = s.dev.dict.sessions ∧
      t.dev.dict.sessions.getLast?.map (fun r => (r.path, r.minor, r.src, r.heard)) =
        some (x, min hi.toNat 0x12 % 16, src, s.dev.now) ∧
      t.dev.dict.pending = s.dev.dict.pending ∧ t.dev.dict.vars = s.dev.dict.vars ∧
      Only [.dict, .reply, .regs, .evc, .wev, .freeIdx] s t) ∧
  (∀ (x : BopPath) (src : HostAddr) (lo hi : BitVec 8) (s : State), src.wf = true → s.dev.pathUp x = true →
    lo ≤ hi → lo ≤ 0x12 → 0x10 ≤ hi → isEth x = false →
    ∃ t, exec (.connect x src lo hi) s = .next t ∧
      BopSays 0 0 (bytesOfNat 2 (min hi.toNat 0x12) ++ bytesOfNat 2 0 ++ bytesOfNat 4 65536) t ∧
      t.dev.dict.sessions.dropLast = s.dev.dict.sessions.filter (fun r => decide (r.path ≠ x)) ∧
      t.dev.dict.sessions.getLast?.map (fun r => (r.path, r.minor)) = some (x, min hi.toNat 0x12 % 16) ∧
      t.dev.dict.pending = s.dev.dict.pending ∧ t.dev.dict.vars = s.dev.dict.vars ∧
      Only [.dict, .reply, .regs, .evc, .wev, .freeIdx] s t) ∧
  (∀ (x : BopPath) (src : HostAddr) (lo hi : BitVec 8) (s : State), src.wf = true → s.dev.pathUp x = true →
    (hi < lo ∨ 0x12 < lo ∨ hi < 0x10) →
    ∃ t, exec (.connect x src lo hi) s = .next t ∧ BopSays 0x10 0x38 [] t ∧
      (isEth x = true → BopOnlySays 0x10 0x38 [] s t ∧ t.dev.dict.sessions = s.dev.dict.sessions) ∧
      (isEth x = false → t.dev.dict.sessions = s.dev.dict.sessions.filter (fun r => decide (r.path ≠ x))) ∧
      t.dev.dict.pending = s.dev.dict.pending ∧ t.dev.dict.vars = s.dev.dict.vars ∧ Only [.dict, .reply, .regs, .evc, .wev] s t) ∧
  (∀ (x : BopPath) (src : HostAddr) (lo hi : BitVec 8) (s : State), src.wf = true → s.dev.pathUp x = true →
    lo ≤ hi → lo ≤ 0x12 → 0x10 ≤ hi → isEth x = true →
    16 ≤ (s.dev.dict.sessions.filter (fun r => decide (r.path = x))).length →
    ∃ t, exec (.connect x src lo hi) s = .next t ∧ BopOnlySays 0x38 0x31 [] s t ∧
      t.dev.dict.sessions = s.dev.dict.sessions) ∧
  (∀ (x : BopPath) (n : Nat) (r : Session) (s : State), BopOpen x n r s →
    ∃ t, exec (.close x n) s = .next t ∧ t.dev.session x n = none ∧ BopSays 0 0 [] t ∧
      t.dev.dict.sessions = s.dev.dict.sessions.filter (fun q => !(decide (q.path = x) && q.num = n)) ∧
      t.dev.dict.pending = s.dev.dict.pending ∧ Only [.dict, .reply, .regs, .evc, .wev] s t) ∧
  (∀ (x : BopPath) (n off len : Nat) (o : ObjName) (b : Bool) (bs : List (BitVec 8)) (s : State), s.dev.pathUp x = true →
    s.dev.session x n = none →
    (∃ t, exec (.read x n o) s = .next t ∧ BopOnlySays 0x10 0x31 [] s t ∧ t.dev.dict.sessions = s.dev.dict.sessions) ∧
    (∃ t, exec (.write x n o bs) s = .next t ∧ BopOnlySays 0x10 0x31 [] s t ∧ t.dev.dict.sessions = s.dev.dict.sessions) ∧
    (∃ t, exec (.readSeg x n o off len) s = .next t ∧ BopOnlySays 0x10 0x31 [] s t) ∧
    (∃ t, exec (.writeSeg x n o b off bs) s = .next t ∧ BopOnlySays 0x10 0x31 [] s t) ∧
    (∃ t, exec (.describe x n o) s = .next t ∧ BopOnlySays 0x10 0x31 [] s t) ∧
    (∃ t, exec (.commit x n bs) s = .next t ∧ BopOnlySays 0x10 0x31 [] s t) ∧
    (∃ t, exec (.discard x n) s = .next t ∧ BopOnlySays 0x10 0x31 [] s t) ∧
    (∃ t, exec (.close x n) s = .next t ∧ BopOnlySays 0x10 0x31 [] s t)) ∧
  (∀ (x : BopPath) (n off len : Nat) (o : ObjName) (b : Bool) (bs : List (BitVec 8)) (src : HostAddr) (lo hi : BitVec 8)
    (s : State), s.dev.pathUp x = false → src.wf = true →
    exec (.connect x src lo hi) s = .next s ∧
    exec (.close x n) s = .next s ∧
    exec (.read x n o) s = .next s ∧
    exec (.write x n o bs) s = .next s ∧
    exec (.readSeg x n o off len) s = .next s ∧
    exec (.writeSeg x n o b off bs) s = .next s ∧
    exec (.commit x n bs) s = .next s ∧
    exec (.discard x n) s = .next s ∧
    exec (.describe x n o) s = .next s) ∧
  (∀ (x : BopPath) (n : Nat) (r : Session) (s : State), s.dev.powered = true → s.dev.session x n = some r → isEth x = true →
    10000000000 ≤ elapsed s.dev.now r.heard →
    ∃ t, exec (.sessionTimeout x n) s = .next t ∧ t.dev.session x n = none ∧
      t.dev.dict.sessions = s.dev.dict.sessions.filter (fun q => !(decide (q.path = x) && q.num = n)) ∧
      t.dev.dict.pending = s.dev.dict.pending ∧ Only [.dict, .regs, .evc, .wev] s t) ∧
  (∀ (x : BopPath) (n : Nat) (r : Session) (s : State), s.dev.session x n = some r →
    (isEth x = false ∨ elapsed s.dev.now r.heard < 10000000000) →
    exec (.sessionTimeout x n) s = .next s) ∧
  (∀ (x : BopPath) (n : Nat) (s : State), s.dev.session x n = none →
    exec (.sessionTimeout x n) s = .next s) ∧
  (∀ (x : BopPath) (n : Nat) (index : BitVec 16) (sub : BitVec 8) (r : Session) (s : State), s.dev.powered = true →
    s.dev.session x n = some r →
    ∃ t, exec (.segmentTimeout x n index sub) s = .next t ∧
      t.dev.session x n = some { r with segs := r.segs.filter (fun g =>
        !(g.key = 256 * index.toNat + sub.toNat && decide (10000000000 ≤ elapsed s.dev.now g.last))) } ∧
      Only [.dict] s t)

/-- R559: the number of a session that a CONNECT opens is from 1 to 65,535, and no open session has it. -/
def Obligations.SessionNumberUnused : Prop :=
  (∀ (x : BopPath) (src : HostAddr) (lo hi : BitVec 8) (s : State), src.wf = true → s.dev.pathUp x = true →
    lo ≤ hi → lo ≤ 0x12 → 0x10 ≤ hi → isEth x = true →
    (s.dev.dict.sessions.filter (fun r => decide (r.path = x))).length < 16 → s.dev.dict.sessions.length < 64 →
    ∃ t, exec (.connect x src lo hi) s = .next t ∧
      (∀ r ∈ t.dev.dict.sessions.getLast?, 1 ≤ r.num ∧ r.num ≤ 65535 ∧ (∀ q ∈ s.dev.dict.sessions, q.num ≠ r.num)))

/-- R553–R556, R560, R564, R566, R568: a bad frame on a field network port is counted and not answered; a good one whose SEQ is the
last one's gets the kept answer again, one that is out of sequence is refused, and the next one has its records executed in order,
its answer kept; a frame of a mailbox leaves its answer there, and one of a core acknowledges the ring and sets SWk_31; frames with
a bad FCS, and tagged ones, are dropped and counted; an echo is answered; the sessions of a port that loses link close; an
802.1AS synchronisation sets the offset. -/
def Obligations.FramesAndPorts : Prop :=
  (∀ (p : Fin 2) (x : EthPeer) (bs : List (BitVec 8)) (s : State), BopArrives p x s → s.dev.pathUp (.eth p) = true →
    s.dev.checkFrame (.eth p) bs = none →
    ∃ t, exec (.bopFrame (.eth p x bs)) s = .next t ∧
      t.dev.rdF .ethPpErr p 31 16 = min (s.dev.rdF .ethPpErr p 31 16 + 1) 65535 ∧
      RegsOnly [regKey .ethPpErr p, regKey .ethPpStat p] s t ∧ Only [.regs, .evc, .wev] s t) ∧
  (∀ (p : Fin 2) (x : EthPeer) (bs : List (BitVec 8)) (recs : List BopRec) (r : Session) (s : State), BopArrives p x s →
    s.dev.checkFrame (.eth p) bs = some recs → bs.getD 1 0 = 0 → natOfBytes ((bs.drop 10).take 2) = 0 →
    connectFrame (natOfBytes ((bs.drop 2).take 2)) recs = false →
    BopOpen (.eth p) (natOfBytes ((bs.drop 2).take 2)) r s → natOfBytes ((bs.drop 4).take 4) = r.seq →
    ∃ t, exec (.bopFrame (.eth p x bs)) s = .next t ∧
      t.dev.outbox = s.dev.outbox ++ [bopAnswer p x r.kept] ∧
      t.dev.dict = { s.dev.dict with sessions := s.dev.dict.sessions.map (fun q =>
        if q.path = .eth p ∧ q.num = natOfBytes ((bs.drop 2).take 2) then { q with heard := s.dev.now } else q) } ∧
      RegsOnly [regKey .ethPpTx p] s t ∧ Only [.regs, .outbox, .dict] s t) ∧
  (∀ (p : Fin 2) (x : EthPeer) (bs : List (BitVec 8)) (recs : List BopRec) (r : Session) (s : State), BopArrives p x s →
    s.dev.checkFrame (.eth p) bs = some recs → bs.getD 1 0 = 0 → natOfBytes ((bs.drop 10).take 2) = 0 →
    connectFrame (natOfBytes ((bs.drop 2).take 2)) recs = false →
    BopOpen (.eth p) (natOfBytes ((bs.drop 2).take 2)) r s → natOfBytes ((bs.drop 4).take 4) ≠ r.seq →
    natOfBytes ((bs.drop 4).take 4) ≠ (r.seq + 1) % 2 ^ 32 →
    ∃ t, exec (.bopFrame (.eth p x bs)) s = .next t ∧
      t.dev.outbox = s.dev.outbox ++ [bopAnswer p x (oneRec (16 + r.minor) (natOfBytes ((bs.drop 2).take 2))
        (natOfBytes ((bs.drop 4).take 4)) 0x10 0x32)] ∧
      t.dev.dict.pending = s.dev.dict.pending ∧ RegsOnly [regKey .ethPpTx p] s t ∧ Only [.regs, .outbox, .dict] s t) ∧
  (∀ (p : Fin 2) (x : EthPeer) (bs : List (BitVec 8)) (q : BopRec) (r : Session) (s : State), BopArrives p x s →
    s.dev.checkFrame (.eth p) bs = some [q] → bs.getD 1 0 = 0 → natOfBytes ((bs.drop 10).take 2) = 0 →
    connectFrame (natOfBytes ((bs.drop 2).take 2)) [q] = false →
    BopOpen (.eth p) (natOfBytes ((bs.drop 2).take 2)) r s → s.dev.dictReady = true →
    natOfBytes ((bs.drop 4).take 4) ≠ r.seq → natOfBytes ((bs.drop 4).take 4) = (r.seq + 1) % 2 ^ 32 →
    q.op = 0x7F →
    ∃ t, exec (.bopFrame (.eth p x bs)) s = .next t ∧
      t.dev.outbox = s.dev.outbox ++ [bopAnswer p x (frameBytes (16 + r.minor) (natOfBytes ((bs.drop 2).take 2))
        (natOfBytes ((bs.drop 4).take 4)) [recBytes 0x7F q.obj 0x10 0x30 []])] ∧
      (t.dev.session (.eth p) (natOfBytes ((bs.drop 2).take 2))).map (fun u => (u.seq, u.kept)) =
        some (natOfBytes ((bs.drop 4).take 4), frameBytes (16 + r.minor) (natOfBytes ((bs.drop 2).take 2))
        (natOfBytes ((bs.drop 4).take 4)) [recBytes 0x7F q.obj 0x10 0x30 []]) ∧
      t.dev.dict.pending = s.dev.dict.pending ∧ Only [.regs, .outbox, .dict, .reply] s t) ∧
  (∀ (p : Fin 2) (x : EthPeer) (bs : List (BitVec 8)) (recs : List BopRec) (r : Session) (s : State), BopArrives p x s →
    s.dev.checkFrame (.eth p) bs = some recs → bs.getD 1 0 = 0 → natOfBytes ((bs.drop 10).take 2) = 0 →
    connectFrame (natOfBytes ((bs.drop 2).take 2)) recs = false →
    BopOpen (.eth p) (natOfBytes ((bs.drop 2).take 2)) r s →
    natOfBytes ((bs.drop 4).take 4) ≠ r.seq → natOfBytes ((bs.drop 4).take 4) = (r.seq + 1) % 2 ^ 32 →
    ∃ t, exec (.bopFrame (.eth p x bs)) s = .next t ∧ t.pending = s.pending ∧
      t.dev.outbox.getLast? = some (bopAnswer p x (frameBytes (16 + r.minor) (natOfBytes ((bs.drop 2).take 2))
        (natOfBytes ((bs.drop 4).take 4))
        (Dev.execRecs { r with heard := s.dev.now } recs (1432 - 8 * recs.length)
          (s.dev.mapSession (.eth p) (natOfBytes ((bs.drop 2).take 2)) (fun q => { q with heard := s.dev.now }))).1)) ∧
      t.dev.ghd = (Dev.execRecs { r with heard := s.dev.now } recs (1432 - 8 * recs.length)
          (s.dev.mapSession (.eth p) (natOfBytes ((bs.drop 2).take 2)) (fun q => { q with heard := s.dev.now }))).2.ghd ∧
      t.dev.dict.pending = (Dev.execRecs { r with heard := s.dev.now } recs (1432 - 8 * recs.length)
          (s.dev.mapSession (.eth p) (natOfBytes ((bs.drop 2).take 2)) (fun q => { q with heard := s.dev.now }))).2.dict.pending) ∧
  (∀ (f : Fin 2) (s : State), s.dev.pathUp (.mailbox f) = true → (s.dev.mbx f).busy = true → (s.dev.mbx f).answer = none →
    ∃ t, exec (.bopFrame (.mailbox f)) s = .next t ∧ (t.dev.mbx f).answer.isSome = true ∧ t.pending = s.pending) ∧
  (∀ (f : Fin 2) (s : State), (s.dev.mbx f).busy = false ∨ (s.dev.mbx f).answer.isSome = true →
    exec (.bopFrame (.mailbox f)) s = .next s) ∧
  (∀ (k : Fin 4) (s : State), s.dev.pathUp (.core k) = true → (s.dev.source (256 + k)).sw = true →
    ∃ t, exec (.bopFrame (.core k)) s = .next t ∧ (t.dev.source (64 * k + 31)).sw = true ∧
      (t.dev.source (256 + k)).sw = false ∧ t.pending = s.pending) ∧
  (∀ (k : Fin 4) (s : State), (s.dev.source (256 + k)).sw = false →
    exec (.bopFrame (.core k)) s = .next s) ∧
  (∀ (p : Fin 2) (x : EthPeer) (bs : List (BitVec 8)) (s : State), x.src.wf = true → x.dst.wf = true →
    (s.dev.pathUp (.eth p) = false ∨ s.dev.portHas p x.dst = false) →
    exec (.bopFrame (.eth p x bs)) s = .next s) ∧
  (∀ (f : Fin 2) (s : State), s.dev.pathUp (.mailbox f) = false →
    exec (.bopFrame (.mailbox f)) s = .next s) ∧
  (∀ (k : Fin 4) (s : State), s.dev.pathUp (.core k) = false →
    exec (.bopFrame (.core k)) s = .next s) ∧
  (∀ (p : Fin 2) (len : Nat) (tagged : Bool) (x : EthPayload) (s : State), x.wf = true → s.dev.powered = true → s.dev.domOn 12 = true →
    s.dev.rdB .ethPpStat p 0 = true →
    ∃ t, exec (.ethFrame p len false tagged x) s = .next t ∧
      t.dev.rdF .ethPpErr p 15 0 = min (s.dev.rdF .ethPpErr p 15 0 + 1) 65535 ∧ t.dev.rdB .ethPpStat p 3 = true ∧
      RegsOnly [regKey .ethPpErr p, regKey .ethPpStat p] s t ∧ Only [.regs, .evc, .wev] s t) ∧
  (∀ (p : Fin 2) (len : Nat) (tagged : Bool) (x : EthPayload) (s : State), x.wf = true → s.dev.powered = true → s.dev.domOn 12 = true →
    s.dev.rdB .ethPpStat p 0 = true → tagged = true ∨ 1518 < len →
    ∃ t, exec (.ethFrame p len true tagged x) s = .next t ∧
      t.dev.rdF .ethPpRx p 47 32 = min (s.dev.rdF .ethPpRx p 47 32 + 1) 65535 ∧
      t.dev.rdF .ethPpRx p 31 0 = s.dev.rdF .ethPpRx p 31 0 ∧
      RegsOnly [regKey .ethPpRx p] s t ∧ Only [.regs] s t) ∧
  (∀ (p : Fin 2) (len : Nat) (a b : BitVec 48) (src dst : HostAddr) (data : List (BitVec 8)) (s : State),
    src.wf = true → dst.wf = true → s.dev.powered = true → s.dev.domOn 12 = true → s.dev.rdB .ethPpStat p 0 = true →
    len ≤ 1518 → toPort p a = true → s.dev.portHas p dst = true →
    ∃ t, exec (.ethFrame p len true false ⟨a, b, .echo src dst data⟩) s = .next t ∧
      t.dev.rdF .ethPpRx p 31 0 = (s.dev.rdF .ethPpRx p 31 0 + 1) % 2 ^ 32 ∧
      t.dev.rdF .ethPpTx p 31 0 = (s.dev.rdF .ethPpTx p 31 0 + 1) % 2 ^ 32 ∧
      t.dev.outbox = s.dev.outbox ++ [.ethFrame p ⟨b, Config.macAddress p, .echoReply dst src data⟩] ∧
      RegsOnly [regKey .ethPpRx p, regKey .ethPpTx p] s t ∧ Only [.regs, .outbox] s t) ∧
  (∀ (p : Fin 2) (len : Nat) (a b : BitVec 48) (src target : BitVec 32) (s : State),
    s.dev.powered = true → s.dev.domOn 12 = true → s.dev.rdB .ethPpStat p 0 = true → len ≤ 1518 → toPort p a = true →
    s.dev.portHas p ⟨false, target.toNat⟩ = true →
    ∃ t, exec (.ethFrame p len true false ⟨a, b, .arpRequest src target⟩) s = .next t ∧
      t.dev.rdF .ethPpRx p 31 0 = (s.dev.rdF .ethPpRx p 31 0 + 1) % 2 ^ 32 ∧
      t.dev.outbox = s.dev.outbox ++ [.ethFrame p ⟨b, Config.macAddress p, .arpReply target src⟩] ∧
      RegsOnly [regKey .ethPpRx p, regKey .ethPpTx p] s t ∧ Only [.regs, .outbox] s t) ∧
  (∀ (p : Fin 2) (len : Nat) (a b : BitVec 48) (src target : BitVec 128) (s : State),
    s.dev.powered = true → s.dev.domOn 12 = true → s.dev.rdB .ethPpStat p 0 = true → len ≤ 1518 → toPort p a = true →
    s.dev.portHas p ⟨true, target.toNat⟩ = true →
    ∃ t, exec (.ethFrame p len true false ⟨a, b, .solicit src target⟩) s = .next t ∧
      t.dev.outbox = s.dev.outbox ++ [.ethFrame p ⟨b, Config.macAddress p, .advertise target src⟩] ∧
      RegsOnly [regKey .ethPpRx p, regKey .ethPpTx p] s t ∧ Only [.regs, .outbox] s t) ∧
  (∀ (p : Fin 2) (len : Nat) (a b : BitVec 48) (x : EthBody) (s : State), (EthPayload.mk a b x).wf = true →
    s.dev.powered = true → s.dev.domOn 12 = true → s.dev.rdB .ethPpStat p 0 = true → len ≤ 1518 →
    (toPort p a = false ∨ (match x with
      | .echo _ dst _ => !s.dev.portHas p dst
      | .bop _ dst _ => !s.dev.portHas p dst
      | .echoReply _ _ _ => true
      | .fragment => true
      | .other => true
      | _ => false) = true) →
    ∃ t, exec (.ethFrame p len true false ⟨a, b, x⟩) s = .next t ∧
      t.dev.rdF .ethPpRx p 47 32 = min (s.dev.rdF .ethPpRx p 47 32 + 1) 65535 ∧
      RegsOnly [regKey .ethPpRx p] s t ∧ Only [.regs] s t) ∧
  (∀ (p : Fin 2) (len : Nat) (a b : BitVec 48) (x : EthBody) (s : State), s.dev.powered = true → s.dev.domOn 12 = true →
    s.dev.rdB .ethPpStat p 0 = true → len ≤ 1518 → toPort p a = true →
    (match x with
      | .arpRequest _ v => !s.dev.portHas p ⟨false, v.toNat⟩
      | .solicit _ v => !s.dev.portHas p ⟨true, v.toNat⟩
      | .arpReply _ _ => true
      | .advertise _ _ => true
      | .resolution => true
      | .ptp => true
      | _ => false) = true →
    ∃ t, exec (.ethFrame p len true false ⟨a, b, x⟩) s = .next t ∧
      t.dev.rdF .ethPpRx p 31 0 = (s.dev.rdF .ethPpRx p 31 0 + 1) % 2 ^ 32 ∧
      RegsOnly [regKey .ethPpRx p] s t ∧ Only [.regs] s t) ∧
  (∀ (p : Fin 2) (len : Nat) (a b : BitVec 48) (src dst : HostAddr) (bs : List (BitVec 8)) (s : State),
    src.wf = true → dst.wf = true → s.dev.powered = true → s.dev.domOn 12 = true → s.dev.rdB .ethPpStat p 0 = true →
    len ≤ 1518 → toPort p a = true → s.dev.portHas p dst = true →
    exec (.ethFrame p len true false ⟨a, b, .bop src dst bs⟩) s =
      exec (.bopFrame (.eth p ⟨b, src, dst⟩ bs)) { s with dev := s.dev.wrapF .ethPpRx p 31 0 1 }) ∧
  (∀ (p : Fin 2) (len : Nat) (ok tagged : Bool) (x : EthPayload) (s : State), x.wf = true →
    s.dev.domOn 12 = false ∨ s.dev.rdB .ethPpStat p 0 = false →
    exec (.ethFrame p len ok tagged x) s = .next s) ∧
  (∀ (p : Fin 2) (up present : Bool) (s : State), s.dev.powered = true → s.dev.domOn 12 = true →
    s.dev.rdB .ethPpStat p 0 = up →
    ∃ t, exec (.ethLinkChange p up present) s = .next t ∧ t.dev.rdB .ethPpStat p 0 = up ∧
      t.dev.rdB .ethPpStat p 1 = present ∧ RegsOnly [regKey .ethPpStat p] s t ∧ Only [.regs] s t) ∧
  (∀ (p : Fin 2) (up present : Bool) (s : State), s.dev.domOn 12 = false →
    exec (.ethLinkChange p up present) s = .next s) ∧
  (∀ (p : Fin 2) (time gm : BitVec 64) (s : State), s.dev.domOn 12 = false ∨ s.dev.var 0x1120 1 ≠ 1 →
    exec (.ptpSync p time gm) s = .next s) ∧
  (∀ (p : Fin 2) (present : Bool) (s : State), s.dev.powered = true → s.dev.domOn 12 = true → s.dev.rdB .ethPpStat p 0 = true →
    ∃ t, exec (.ethLinkChange p false present) s = .next t ∧ t.dev.rdB .ethPpStat p 0 = false ∧
      t.dev.rdB .ethPpStat p 1 = present ∧
      t.dev.dict.sessions = s.dev.dict.sessions.filter (fun r => !r.onPort p) ∧
      t.dev.dict.pending = s.dev.dict.pending ∧ Only [.regs, .dict, .evc, .wev] s t) ∧
  (∀ (p : Fin 2) (present : Bool) (s : State), s.dev.powered = true → s.dev.domOn 12 = true → s.dev.rdB .ethPpStat p 0 = false →
    ∃ t, exec (.ethLinkChange p true present) s = .next t ∧ t.dev.rdB .ethPpStat p 0 = true ∧
      t.dev.rdB .ethPpStat p 1 = present ∧ RegsOnly [regKey .ethPpStat p] s t ∧ Only [.regs, .evc, .wev] s t) ∧
  (∀ (p : Fin 2) (time gm : BitVec 64) (s : State), s.dev.powered = true → s.dev.domOn 12 = true → s.dev.var 0x1120 1 = 1 →
    ∃ t, exec (.ptpSync p time gm) s = .next t ∧
      t.dev.rd .ethPtpOfsLo 0 = (time - s.dev.now.setWidth 64).setWidth 48 ∧
      t.dev.rdF .ethPtpOfsHi 0 15 0 = (time - s.dev.now.setWidth 64).toNat >>> 48 ∧
      t.dev.rdF .ethPtpStat 0 1 0 = 2 ∧ t.dev.rdF .ethPtpStat 0 2 2 = p ∧ t.dev.dict.gm = gm ∧
      t.dev.dict.pending = s.dev.dict.pending ∧
      RegsOnly [regKey .ethPtpOfsLo 0, regKey .ethPtpOfsHi 0, regKey .ethPtpStat 0] s t ∧
      Only [.regs, .dict, .ghd, .evc, .wev] s t)

/-- R546, R552, R556, R558, R562: READ answers the value in force and changes nothing; an object that does not exist, another TYPE,
and an access before READY are refused, as the table of R563 says; READ_SEG at offset 0 takes a snapshot, from which a later one is
answered; WRITE_SEG gathers a value in order; DESCRIBE answers TYPE, access and size. -/
def Obligations.RecordsThatRead : Prop :=
  (∀ (x : BopPath) (n : Nat) (o : ObjName) (r : Session) (b : Obj) (s : State), BopOpen x n r s → BopNames o b s →
    b.typ ≠ tDom → b.typ ≠ tTbl →
    (o.index = 0x6100 → (s.dev.mapSession x n (fun q => { q with heard := s.dev.now })).checkRefs (List.range 32) =
      (0, s.dev.mapSession x n (fun q => { q with heard := s.dev.now }))) →
    ∃ t, exec (.read x n o) s = .next t ∧
      BopOnlySays 0 0 ((s.dev.mapSession x n (fun q => { q with heard := s.dev.now })).valueOf o.index.toNat o.sub.toNat b) s t) ∧
  (∀ (x : BopPath) (n : Nat) (o : ObjName) (r : Session) (s : State), BopOpen x n r s → s.dev.dictReady = true →
    objOf o.index.toNat o.sub.toNat = none → ∃ t, exec (.read x n o) s = .next t ∧ BopOnlySays 0x21 0x30 [] s t) ∧
  (∀ (x : BopPath) (n : Nat) (o : ObjName) (r : Session) (b : Obj) (s : State), BopOpen x n r s → s.dev.dictReady = true →
    objOf o.index.toNat o.sub.toNat = some b → o.typ.toNat ≠ b.typ →
    ∃ t, exec (.read x n o) s = .next t ∧ BopOnlySays 0x10 0x34 [] s t) ∧
  (∀ (x : BopPath) (n : Nat) (o : ObjName) (r : Session) (s : State), BopOpen x n r s → s.dev.dictReady = false →
    o.index ≠ 0x1000 → o.index ≠ 0x1001 → ∃ t, exec (.read x n o) s = .next t ∧ BopOnlySays 0x38 0x30 [] s t) ∧
  (∀ (x : BopPath) (n : Nat) (o : ObjName) (len : Nat) (r : Session) (b : Obj) (s : State), BopOpen x n r s → BopNames o b s →
    b.typ = tDom ∨ b.typ = tTbl → s.dev.sramValue o.index.toNat o.sub.toNat = none → (o.index = 0x8100 → o.sub ≠ 1) →
    (o.index = 0x6100 → (s.dev.mapSession x n (fun q => { q with heard := s.dev.now })).checkRefs (List.range 32) =
      (0, s.dev.mapSession x n (fun q => { q with heard := s.dev.now }))) →
    ∃ t, exec (.readSeg x n o 0 len) s = .next t ∧
      BopOnlySays 0 0 (bytesOfNat 4 0 ++ bytesOfNat 4 ((s.dev.mapSession x n (fun q => { q with heard := s.dev.now })).valueOf
          o.index.toNat o.sub.toNat b).length ++
        ((s.dev.mapSession x n (fun q => { q with heard := s.dev.now })).valueOf o.index.toNat o.sub.toNat b).take
          (min len (roomOf x - 8))) s t ∧
      (t.dev.session x n).bind (fun q => tfind q.snaps o.key) =
        some ((s.dev.mapSession x n (fun q => { q with heard := s.dev.now })).valueOf o.index.toNat o.sub.toNat b)) ∧
  (∀ (x : BopPath) (n : Nat) (o : ObjName) (len a m : Nat) (ws : List Word) (r : Session) (b : Obj) (s : State),
    BopOpen x n r s → BopNames o b s → b.typ = tDom ∨ b.typ = tTbl → s.dev.sramValue o.index.toNat o.sub.toNat = some (a, m) →
    m ≠ 0 → s.dev.sramOn a = true → s.dev.sramOn (a + m - 1) = true → s.dev.sramReadAll a m = (ws, 0, s.dev) →
    ∃ t, exec (.readSeg x n o 0 len) s = .next t ∧
      BopOnlySays 0 0 (bytesOfNat 4 0 ++ bytesOfNat 4 (bytesOfWords ws).length ++
        (bytesOfWords ws).take (min len (roomOf x - 8))) s t) ∧
  (∀ (x : BopPath) (n : Nat) (o : ObjName) (len a m : Nat) (r : Session) (b : Obj) (s : State),
    BopOpen x n r s → BopNames o b s → b.typ = tDom ∨ b.typ = tTbl → s.dev.sramValue o.index.toNat o.sub.toNat = some (a, m) →
    m ≠ 0 → s.dev.sramOn a = false →
    ∃ t, exec (.readSeg x n o 0 len) s = .next t ∧ BopOnlySays 0x38 0 [] s t) ∧
  (∀ (x : BopPath) (n : Nat) (o : ObjName) (off len : Nat) (r : Session) (b : Obj) (s : State),
    BopOpen x n r s → BopNames o b s → b.typ = tDom ∨ b.typ = tTbl → 0 < off → tfind r.snaps o.key = none →
    ∃ t, exec (.readSeg x n o off len) s = .next t ∧ BopOnlySays 0x10 0x37 [] s t) ∧
  (∀ (x : BopPath) (n : Nat) (o : ObjName) (bs : List (BitVec 8)) (r : Session) (b : Obj) (s : State), BopOpen x n r s →
    BopNames o b s → b.typ = tDom ∨ b.typ = tTbl →
    (∃ t, exec (.read x n o) s = .next t ∧ BopOnlySays 0x10 0x36 [] s t) ∧
    (s.dev.mayWrite r = true → ∃ t, exec (.write x n o bs) s = .next t ∧ BopOnlySays 0x10 0x36 [] s t)) ∧
  (∀ (x : BopPath) (n : Nat) (o : ObjName) (off len : Nat) (last : Bool) (bs : List (BitVec 8)) (r : Session) (b : Obj)
    (s : State), BopOpen x n r s → BopNames o b s → b.typ ≠ tDom → b.typ ≠ tTbl →
    (∃ t, exec (.readSeg x n o off len) s = .next t ∧ BopOnlySays 0x10 0x36 [] s t) ∧
    (s.dev.mayWrite r = true → ∃ t, exec (.writeSeg x n o last off bs) s = .next t ∧ BopOnlySays 0x10 0x36 [] s t)) ∧
  (∀ (x : BopPath) (n : Nat) (o : ObjName) (off len : Nat) (v : List (BitVec 8)) (r : Session) (b : Obj) (s : State),
    BopOpen x n r s → BopNames o b s → b.typ = tDom ∨ b.typ = tTbl → 0 < off → tfind r.snaps o.key = some v →
    ∃ t, exec (.readSeg x n o off len) s = .next t ∧
      BopOnlySays 0 0 (bytesOfNat 4 off ++ bytesOfNat 4 v.length ++ (v.drop off).take (min len (roomOf x - 8))) s t) ∧
  (∀ (x : BopPath) (n : Nat) (o : ObjName) (off : Nat) (bs : List (BitVec 8)) (r : Session) (b : Obj) (s : State),
    BopOpen x n r s → BopNames o b s → b.typ = tDom ∨ b.typ = tTbl → o.index ≠ 0x9000 →
    (off = 0 ∨ 0 < off ∧ ((r.segs.find? (fun g => g.key = o.key)).map (fun g => g.bytes.length)) = some off) →
    ∃ t, exec (.writeSeg x n o false off bs) s = .next t ∧
      BopOnlySays 0 0 (bytesOfNat 4 (off + bs.length)) s t ∧
      ((t.dev.session x n).bind (fun q => q.segs.find? (fun g => g.key = o.key))).map (fun g => (g.bytes, g.last)) =
        some (((r.segs.find? (fun g => g.key = o.key)).elim [] (fun g => g.bytes)).take off ++ bs, s.dev.now)) ∧
  (∀ (x : BopPath) (n : Nat) (o : ObjName) (off : Nat) (bs : List (BitVec 8)) (r : Session) (b : Obj) (s : State),
    BopOpen x n r s → BopNames o b s → o.key = 0x900002 → 0 < off → r.segs.all (fun g => g.key ≠ 0x900002) = true →
    ∃ t, exec (.writeSeg x n o false off bs) s = .next t ∧ BopOnlySays 0x10 0x37 [] s t) ∧
  (∀ (x : BopPath) (n : Nat) (o : ObjName) (r : Session) (b : Obj) (s : State), BopOpen x n r s → BopNames o b s →
    1 ≤ r.minor →
    ∃ t, exec (.describe x n o) s = .next t ∧ BopOnlySays 0 0 (bytesOfNat 1 b.typ ++ bytesOfNat 1 b.acc.code ++
      bytesOfNat 2 (b.stop.toNat + 2 * b.kept.toNat + 4 * b.en.toNat) ++ bytesOfNat 4 (typeBytes b.typ)) s t) ∧
  (∀ (x : BopPath) (n : Nat) (o : ObjName) (r : Session) (s : State), BopOpen x n r s → r.minor = 0 →
    ∃ t, exec (.describe x n o) s = .next t ∧ BopOnlySays 0x10 0x30 [] s t)

/-- R563, R565, R570–R572, R576: a WRITE of an RWS object puts its shadow into the pending set, and is refused while the set is
frozen or full; a write of an RO object, of another length, from an address outside the write list, and of an object for
stopped heads while a head runs are refused; COMMIT sends the request and answers TAG, or says why not; DISCARD empties the set. -/
def Obligations.RecordsThatWrite : Prop :=
  (∀ (x : BopPath) (n : Nat) (o : ObjName) (bs : List (BitVec 8)) (r : Session) (b : Obj) (s : State), BopOpen x n r s →
    BopNames o b s → s.dev.mayWrite r = true → b.acc = .rws → b.typ ≠ tDom → b.typ ≠ tTbl → o.index ≠ 0x6540 →
    lengthFits b bs = true → (fixedSize b.typ = true → numFits b bs = true) → (b.stop = true → s.dev.anyRunning = false) →
    s.dev.hlk.frozen = none → s.dev.dict.pending.length < 8192 → keysRising s.dev.dict.pending = true →
    ∃ t, exec (.write x n o bs) s = .next t ∧ BopSays 0 0 [] t ∧
      tfind t.dev.dict.pending o.key = some bs ∧
      (∀ k, k ≠ o.key → tfind t.dev.dict.pending k = tfind s.dev.dict.pending k) ∧
      t.dev.dict.vars = s.dev.dict.vars ∧ Only [.dict, .reply, .evc, .wev] s t) ∧
  (∀ (x : BopPath) (n : Nat) (o : ObjName) (bs : List (BitVec 8)) (r : Session) (b : Obj)
    (s : State), BopOpen x n r s → BopNames o b s → s.dev.mayWrite r = true → b.acc = .rws → b.typ ≠ tDom → b.typ ≠ tTbl →
    o.index ≠ 0x6540 → lengthFits b bs = true → (fixedSize b.typ = true → numFits b bs = true) →
    (b.stop = true → s.dev.anyRunning = false) → s.dev.hlk.frozen.isSome = true →
    ∃ t, exec (.write x n o bs) s = .next t ∧ BopOnlySays 0x38 0x32 [] s t) ∧
  (∀ (x : BopPath) (n : Nat) (o : ObjName) (bs : List (BitVec 8)) (r : Session) (b : Obj)
    (s : State), BopOpen x n r s → BopNames o b s → s.dev.mayWrite r = true → b.acc = .rws → b.typ ≠ tDom → b.typ ≠ tTbl →
    o.index ≠ 0x6540 → lengthFits b bs = true → (fixedSize b.typ = true → numFits b bs = true) →
    (b.stop = true → s.dev.anyRunning = false) → s.dev.hlk.frozen = none → 8192 ≤ s.dev.dict.pending.length →
    tfind s.dev.dict.pending o.key = none →
    ∃ t, exec (.write x n o bs) s = .next t ∧ BopOnlySays 0x21 0x32 [] s t) ∧
  (∀ (x : BopPath) (n : Nat) (o : ObjName) (bs : List (BitVec 8)) (r : Session) (b : Obj) (s : State), BopOpen x n r s →
    BopNames o b s → s.dev.mayWrite r = true → b.acc = .ro ∨ b.acc = .const → b.typ ≠ tDom → b.typ ≠ tTbl →
    ∃ t, exec (.write x n o bs) s = .next t ∧ BopOnlySays 0x10 0x33 [] s t) ∧
  (∀ (x : BopPath) (n : Nat) (o : ObjName) (bs : List (BitVec 8)) (r : Session) (b : Obj) (s : State), BopOpen x n r s →
    BopNames o b s → s.dev.mayWrite r = true → b.acc = .rw ∨ b.acc = .rws ∨ b.acc = .wo → b.typ ≠ tDom → b.typ ≠ tTbl →
    lengthFits b bs = false → ∃ t, exec (.write x n o bs) s = .next t ∧ BopOnlySays 0x10 0x34 [] s t) ∧
  (∀ (x : BopPath) (n : Nat) (o : ObjName) (bs : List (BitVec 8)) (r : Session) (b : Obj) (s : State), BopOpen x n r s →
    BopNames o b s → s.dev.mayWrite r = true → b.acc = .rw ∨ b.acc = .rws ∨ b.acc = .wo → b.typ ≠ tDom → b.typ ≠ tTbl →
    lengthFits b bs = true → (fixedSize b.typ = true → numFits b bs = true) → b.stop = true → s.dev.anyRunning = true →
    ∃ t, exec (.write x n o bs) s = .next t ∧ BopOnlySays 0x22 0 [] s t) ∧
  (∀ (p : Fin 2) (n : Nat) (o : ObjName) (bs : List (BitVec 8)) (r : Session) (s : State), BopOpen (.eth p) n r s →
    s.dev.dictReady = true → s.dev.mayWrite r = false →
    ∃ t, exec (.write (.eth p) n o bs) s = .next t ∧ BopSays 0x10 0x35 [] t ∧
      t.dev.rdF .ethPpErr p 47 32 = min (s.dev.rdF .ethPpErr p 47 32 + 1) 65535 ∧
      t.dev.dict.pending = s.dev.dict.pending ∧ t.dev.dict.vars = s.dev.dict.vars ∧
      Only [.dict, .reply, .regs, .evc, .wev] s t) ∧
  (∀ (x : BopPath) (n : Nat) (o : ObjName) (off : Nat) (bs : List (BitVec 8)) (r : Session) (s : State), BopOpen x n r s →
    s.dev.dictReady = false →
    (∃ t, exec (.write x n o bs) s = .next t ∧ BopOnlySays 0x38 0x30 [] s t) ∧
    (∃ t, exec (.writeSeg x n o true off bs) s = .next t ∧ BopOnlySays 0x38 0x30 [] s t) ∧
    (∃ t, exec (.commit x n bs) s = .next t ∧ BopOnlySays 0x38 0x30 [] s t) ∧
    (∃ t, exec (.discard x n) s = .next t ∧ BopOnlySays 0x38 0x30 [] s t)) ∧
  (∀ (p : Fin 2) (n off : Nat) (o : ObjName) (bs : List (BitVec 8)) (r : Session) (s : State), BopOpen (.eth p) n r s →
    s.dev.dictReady = true → s.dev.mayWrite r = false →
    (∃ t, exec (.writeSeg (.eth p) n o true off bs) s = .next t ∧ BopSays 0x10 0x35 [] t ∧
      t.dev.dict.pending = s.dev.dict.pending) ∧
    (∃ t, exec (.commit (.eth p) n bs) s = .next t ∧ BopSays 0x10 0x35 [] t ∧ t.dev.commit = s.dev.commit) ∧
    (∃ t, exec (.discard (.eth p) n) s = .next t ∧ BopSays 0x10 0x35 [] t ∧ t.dev.dict.pending = s.dev.dict.pending)) ∧
  (∀ (x : BopPath) (n off : Nat) (o : ObjName) (bs all : List (BitVec 8)) (r : Session) (b : Obj) (s : State),
    BopOpen x n r s → BopNames o b s → s.dev.mayWrite r = true → b.acc = .rws → b.typ = tDom ∨ b.typ = tTbl →
    ((r.segs.find? (fun g => g.key = o.key)).elim [] (fun g => g.bytes)).take off ++ bs = all →
    (off = 0 ∨ ((r.segs.find? (fun g => g.key = o.key)).map (fun g => g.bytes.length)) = some off) →
    (o.index = 0x6540 → all.length = 384) → lengthFits b all = true → (b.stop = true → s.dev.anyRunning = false) →
    s.dev.hlk.frozen = none → s.dev.dict.pending.length < 8192 →
    ∃ t, exec (.writeSeg x n o true off bs) s = .next t ∧ BopSays 0 0 (bytesOfNat 4 all.length) t ∧
      tfind t.dev.dict.pending o.key = some all ∧
      ((t.dev.session x n).bind (fun q => q.segs.find? (fun g => g.key = o.key))) = none ∧
      t.dev.dict.vars = s.dev.dict.vars ∧ Only [.dict, .reply, .evc, .wev] s t) ∧
  (∀ (x : BopPath) (n i hi lo : Nat) (g : Reg) (o : ObjName) (bs : List (BitVec 8)) (r : Session) (b : Obj) (s : State),
    BopOpen x n r s → BopNames o b s → s.dev.mayWrite r = true → b.acc = .rw → b.back = .field g i hi lo →
    b.typ ≠ tDom → b.typ ≠ tTbl → lengthFits b bs = true → (fixedSize b.typ = true → numFits b bs = true) →
    (b.stop = true → s.dev.anyRunning = false) → objDomains o.index.toNat = [] ∨ s.dev.anyOn (objDomains o.index.toNat) = true →
    (0x5100 ≤ o.index.toNat ∧ o.index.toNat < 0x5300 → s.dev.chState (o.index.toNat - 0x5100) = 0) → o.index ≠ 0x8020 →
    ∃ t, exec (.write x n o bs) s = .next t ∧ t.pending = s.pending ∧
      t.dev.reply = (if s.dev.regOn g i = false then (0x38, 0) else if t.dev.rdF g i hi lo = natOfBytes bs then (0, 0)
        else (0x21, 0x31))) ∧
  (∀ (x : BopPath) (n : Nat) (bs : List (BitVec 8)) (r : Session) (s : State), BopOpen x n r s → s.dev.dictReady = true →
    s.dev.mayWrite r = true → bs.length ≠ 16 →
    ∃ t, exec (.commit x n bs) s = .next t ∧ BopOnlySays 0x10 0x34 [] s t) ∧
  (∀ (x : BopPath) (n axis : Nat) (target tag : Nat) (r : Session) (s : State), BopOpen x n r s →
    s.dev.dictReady = true → s.dev.mayWrite r = true → 4 ≤ axis → axis < 256 → target < 2 ^ 48 → tag < 2 ^ 32 →
    ∃ t, exec (.commit x n (bytesOfNat 1 0 ++ bytesOfNat 1 axis ++ bytesOfNat 2 0 ++ bytesOfNat 6 target ++ bytesOfNat 2 0 ++
        bytesOfNat 4 tag)) s = .next t ∧ BopOnlySays 0x21 0x31 (bytesOfNat 4 tag) s t) ∧
  (∀ (x : BopPath) (n : Nat) (axis : Fin 4) (target tag : Nat) (r : Session) (s : State), BopOpen x n r s →
    s.dev.dictReady = true → s.dev.mayWrite r = true → target < 2 ^ 48 → tag < 2 ^ 32 → s.dev.commit.state ≠ 1 →
    s.dev.herdState ≠ 0 → s.dev.herdState ≠ 4 → s.dev.isLead = false → s.dev.portState s.dev.upPort ≠ 2 →
    ∃ t, exec (.commit x n (bytesOfNat 1 0 ++ bytesOfNat 1 axis ++ bytesOfNat 2 0 ++ bytesOfNat 6 target ++ bytesOfNat 2 0 ++
        bytesOfNat 4 tag)) s = .next t ∧ BopSays 0 0 (bytesOfNat 4 tag) t ∧ t.dev.commit.state = 2 ∧
      t.dev.commit.status = 0x30 ∧ t.dev.commit.tag = BitVec.ofNat 32 tag ∧ t.dev.outbox = s.dev.outbox ∧
      Only [.dict, .reply, .commit, .evc, .wev] s t) ∧
  (∀ (x : BopPath) (n : Nat) (axis : Fin 4) (target tag : Nat) (r : Session) (m : CommitReq) (s : State), BopOpen x n r s →
    s.dev.dictReady = true → s.dev.mayWrite r = true → target < 2 ^ 48 → tag < 2 ^ 32 → s.dev.commit.state ≠ 1 →
    s.dev.herdState ≠ 0 → s.dev.herdState ≠ 4 → s.dev.hlkOn = true → s.dev.isLead = true → s.dev.hlk.commit.isSome = true →
    s.dev.hlk.held = none → m = ⟨s.dev.devNum, BitVec.ofNat 32 tag, false, axis, BitVec.ofNat 48 target⟩ →
    ∃ t, exec (.commit x n (bytesOfNat 1 0 ++ bytesOfNat 1 axis ++ bytesOfNat 2 0 ++ bytesOfNat 6 target ++ bytesOfNat 2 0 ++
        bytesOfNat 4 tag)) s = .next t ∧ BopSays 0 0 (bytesOfNat 4 tag) t ∧ t.dev.commit.state = 1 ∧
      t.dev.commit.tag = BitVec.ofNat 32 tag ∧ t.dev.hlk.held = some m ∧ Only [.dict, .reply, .commit, .hlk] s t) ∧
  (∀ (x : BopPath) (n : Nat) (axis : Fin 4) (target tag : Nat) (r : Session) (s : State), BopOpen x n r s →
    s.dev.dictReady = true → s.dev.mayWrite r = true → target < 2 ^ 48 → tag < 2 ^ 32 → s.dev.commit.state ≠ 1 →
    s.dev.herdState ≠ 0 → s.dev.herdState ≠ 4 → s.dev.hlkOn = true → s.dev.isLead = false →
    s.dev.portState s.dev.upPort = 2 →
    ∃ t, exec (.commit x n (bytesOfNat 1 0 ++ bytesOfNat 1 axis ++ bytesOfNat 2 0 ++ bytesOfNat 6 target ++ bytesOfNat 2 0 ++
        bytesOfNat 4 tag)) s = .next t ∧
      BopSays 0 0 (bytesOfNat 4 tag) t ∧ t.dev.commit.state = 1 ∧ t.dev.commit.tag = BitVec.ofNat 32 tag ∧
      t.dev.dict.pending = s.dev.dict.pending ∧
      t.dev.outbox = s.dev.outbox ++ [.hlk s.dev.upPort (.commitReq
        ⟨s.dev.devNum, BitVec.ofNat 32 tag, false, axis, BitVec.ofNat 48 target⟩)] ∧
      Only [.dict, .reply, .commit, .outbox] s t) ∧
  (∀ (x : BopPath) (n : Nat) (axis : Fin 4) (target tag : Nat) (r : Session) (s : State), BopOpen x n r s →
    s.dev.dictReady = true → s.dev.mayWrite r = true → target < 2 ^ 48 → tag < 2 ^ 32 → s.dev.commit.state = 1 →
    ∃ t, exec (.commit x n (bytesOfNat 1 0 ++ bytesOfNat 1 axis ++ bytesOfNat 2 0 ++ bytesOfNat 6 target ++ bytesOfNat 2 0 ++
        bytesOfNat 4 tag)) s = .next t ∧ BopOnlySays 0x38 0x33 (bytesOfNat 4 tag) s t) ∧
  (∀ (x : BopPath) (n : Nat) (axis : Fin 4) (target tag : Nat) (r : Session) (s : State), BopOpen x n r s →
    s.dev.dictReady = true → s.dev.mayWrite r = true → target < 2 ^ 48 → tag < 2 ^ 32 → s.dev.commit.state ≠ 1 →
    s.dev.herdState = 0 ∨ s.dev.herdState = 4 →
    ∃ t, exec (.commit x n (bytesOfNat 1 0 ++ bytesOfNat 1 axis ++ bytesOfNat 2 0 ++ bytesOfNat 6 target ++ bytesOfNat 2 0 ++
        bytesOfNat 4 tag)) s = .next t ∧ BopOnlySays 0x38 0x34 (bytesOfNat 4 tag) s t) ∧
  (∀ (x : BopPath) (n : Nat) (r : Session) (s : State), BopOpen x n r s → s.dev.dictReady = true → s.dev.mayWrite r = true →
    s.dev.hlk.frozen = none →
    ∃ t, exec (.discard x n) s = .next t ∧ BopSays 0 0 (bytesOfNat 4 s.dev.dict.pending.length) t ∧
      t.dev.dict.pending = [] ∧ t.dev.dict.vars = s.dev.dict.vars ∧ Only [.dict, .reply, .evc, .wev] s t) ∧
  (∀ (x : BopPath) (n : Nat) (r : Session) (s : State), BopOpen x n r s → s.dev.dictReady = true → s.dev.mayWrite r = true →
    s.dev.hlk.frozen.isSome = true →
    ∃ t, exec (.discard x n) s = .next t ∧ BopOnlySays 0x38 0x32 (bytesOfNat 4 0) s t)

/-- R340, R550, R585: words written to the program area lie in SRAM in order, and a write past its end is refused whole; a store and
an erase of the configuration start one flash operation, not a second one, and its end is reported and, where it succeeded, leaves
the values in force stored, or none. -/
def Obligations.ProgramsAndStore : Prop :=
  (∀ (off n : Nat) (ws : List Word) (s : State), s.dev.dictReady = true → s.dev.domOn 17 = true → ws.length = n →
    off + n ≤ 1009664 → s.dev.rdB .edcInjCtl 0 8 = false → memWf MemWord.blank s.dev.sram = true →
    ∃ t, exec (.programWrite off ws) s = .next t ∧ t.dev.reply = (0, 0) ∧
      (∀ i : Fin n, t.dev.cell (0x6AA800 + off + i) = goodWord (ws.getD i 0)) ∧ SramOnly (0x6AA800 + off) n s t ∧
      Only [.sram, .reply] s t) ∧
  (∀ (off : Nat) (ws : List Word) (s : State), s.dev.dictReady = true → s.dev.domOn 17 = true → 1009664 < off + ws.length →
    ∃ t, exec (.programWrite off ws) s = .next t ∧ t.dev.reply = (0x21, 0) ∧ Only [.reply] s t) ∧
  (∀ (off : Nat) (ws : List Word) (s : State), s.dev.dictReady = true → s.dev.domOn 17 = false →
    ∃ t, exec (.programWrite off ws) s = .next t ∧ t.dev.reply = (0x38, 0) ∧ Only [.reply] s t) ∧
  (∀ (off : Nat) (ws : List Word) (s : State), s.dev.powered = true → s.dev.dictReady = false →
    (∃ t, exec (.programWrite off ws) s = .next t ∧ t.dev.reply = (0x38, 0x30) ∧ Only [.reply] s t) ∧
    (∃ t, exec .storeConfiguration s = .next t ∧ t.dev.reply = (0x38, 0x30) ∧ Only [.reply] s t) ∧
    (∃ t, exec .eraseConfiguration s = .next t ∧ t.dev.reply = (0x38, 0x30) ∧ Only [.reply] s t)) ∧
  (∀ (s : State), s.dev.dictReady = true → s.dev.dict.store ≠ 1 →
    ∃ t, exec .storeConfiguration s = .next t ∧ t.dev.reply = (0, 0) ∧ t.dev.dict = { s.dev.dict with store := 1 } ∧
      t.dev.ghd = { s.dev.ghd with flashOp := some (.store s.dev.storedValues) } ∧ Only [.reply, .dict, .ghd] s t) ∧
  (∀ (s : State), s.dev.dictReady = true → s.dev.dict.store ≠ 1 →
    ∃ t, exec .eraseConfiguration s = .next t ∧ t.dev.reply = (0, 0) ∧ t.dev.dict = { s.dev.dict with store := 1 } ∧
      t.dev.ghd = { s.dev.ghd with flashOp := some .erase } ∧ Only [.reply, .dict, .ghd] s t) ∧
  (∀ (s : State), s.dev.dictReady = true → s.dev.dict.store = 1 →
    ∃ t, exec .storeConfiguration s = .next t ∧ t.dev.reply = (0x38, 0x35) ∧ Only [.reply] s t) ∧
  (∀ (s : State), s.dev.dictReady = true → s.dev.dict.store = 1 →
    ∃ t, exec .eraseConfiguration s = .next t ∧ t.dev.reply = (0x38, 0x35) ∧ Only [.reply] s t) ∧
  (∀ (values : List (Nat × List (BitVec 8))) (s : State), s.dev.powered = true → s.dev.ghd.flashOp = some (.store values) →
    ∃ t, exec (.flashOperationDone true) s = .next t ∧ t.dev.dict = { s.dev.dict with store := 2 } ∧
      t.dev.ghd = { s.dev.ghd with flashOp := none, stored := values, storedGen := s.dev.ghd.storedGen + 1 } ∧
      (s.dev.srcLive 803 = true → (t.dev.source 803).p = true) ∧ Only [.dict, .ghd, .evc, .wev] s t) ∧
  (∀ (s : State), s.dev.powered = true → s.dev.ghd.flashOp = some .erase →
    ∃ t, exec (.flashOperationDone false) s = .next t ∧ t.dev.dict = { s.dev.dict with store := 3 } ∧
      t.dev.ghd = { s.dev.ghd with flashOp := none } ∧ Only [.dict, .ghd, .evc, .wev] s t) ∧
  (∀ (ok : Bool) (s : State), s.dev.powered = true → s.dev.ghd.flashOp = some .program →
    ∃ t, exec (.flashOperationDone ok) s = .next t ∧ t.dev.ghd = { s.dev.ghd with flashOp := none } ∧
      (ok = true → Only [.ghd] s t) ∧ Only [.ghd, .evc, .wev] s t) ∧
  (∀ (ok : Bool) (s : State), s.dev.ghd.flashOp = none →
    exec (.flashOperationDone ok) s = .next s) ∧
  (∀ (s : State), s.dev.powered = true → s.dev.ghd.flashOp = some .erase →
    ∃ t, exec (.flashOperationDone true) s = .next t ∧ t.dev.dict = { s.dev.dict with store := 2 } ∧
      t.dev.ghd = { s.dev.ghd with flashOp := none, stored := [] } ∧
      (s.dev.srcLive 803 = true → (t.dev.source 803).p = true) ∧ Only [.dict, .ghd, .evc, .wev] s t) ∧
  (∀ (values : List (Nat × List (BitVec 8))) (s : State), s.dev.powered = true → s.dev.ghd.flashOp = some (.store values) →
    ∃ t, exec (.flashOperationDone false) s = .next t ∧ t.dev.dict = { s.dev.dict with store := 3 } ∧
      t.dev.ghd = { s.dev.ghd with flashOp := none } ∧ Only [.dict, .ghd, .evc, .wev] s t)

/-! ### Management and power -/

/-- R22, R578: a device state that is entered stands in STATE of GHD_STATE with its cause, whatever follows from it; a device
that fails is in FAILED with its cause, with FAULT_N low and every domain off but PD00, PD10, PD11 and PD23, and one already in
FAILED or OFF is left alone. R582: every output drives its inactive level, and a failure with cause 1 leaves the flash
pins in high impedance. -/
def Obligations.StatesEntered : Prop :=
  (∀ (d : Dev) (st : DevState) (c : Nat), c < 256 →
    (d.enterState st (some c)).devState = st ∧ (d.enterState st (some c)).rdF .ghdState 0 15 8 = c) ∧
  (∀ (d : Dev) (st : DevState), (d.enterState st none).devState = st ∧
    (d.enterState st none).rdF .ghdState 0 15 8 = d.rdF .ghdState 0 15 8) ∧
  (∀ (d : Dev) (c : Nat), c < 256 → d.devState ≠ .failed → d.devState ≠ .off →
    (d.fail c).devState = .failed ∧ (d.fail c).rdF .ghdState 0 15 8 = c) ∧
  (∀ (d : Dev) (c : Nat), d.devState ≠ .failed → d.devState ≠ .off →
    (d.fail c).ghd.faultLow = true ∧ (d.fail c).ghd.move = none ∧ (∀ k ∈ failedOff, k ≠ 10 → k ≠ 11 → (d.fail c).domOn k = false) ∧
    (d.fail c).domOn 10 = true ∧ (d.fail c).domOn 11 = true ∧ (d.fail c).domain 0 = d.domain 0 ∧
    (d.fail c).domain 23 = d.domain 23 ∧ (d.fail c).ghd.flashHighZ = decide (c = 1) ∧
    (∀ x : Fin 48, (d.fail c).outLevel x = some (!(d.fail c).outActiveHigh x) ∧ ((d.fail c).outDrv x).due = [])) ∧
  (∀ (d : Dev) (c : Nat), d.devState = .failed ∨ d.devState = .off → d.fail c = d)

/-- R578, R591, R599, R632, R636: RESET_N and a rail below its threshold take the device to OFF with the cause, every domain off and
what the flash and the retained range hold kept; supplies good hold it in BOOT until the always-on PLL locks; a watchdog reset and a
device reset start BOOT with causes 3 and 4, but not while a flash operation runs. -/
def Obligations.Resets : Prop :=
  (∀ (r : Fin 11) (s : State), ∃ t, exec (.railReset r) s = .next t ∧ t.dev.devState = .off ∧
      t.dev.rdF .ghdState 0 23 16 = 2 ∧ t.dev.rdF .ghdState 0 31 24 = r ∧ (∀ k, t.dev.domOn k = false) ∧
      t.dev.ghd.aonLost = (s.dev.ghd.aonLost || decide (r.val = 2)) ∧ t.dev.ghd.stored = s.dev.ghd.stored ∧
      t.dev.ghd.flashLog = s.dev.ghd.flashLog ∧ t.dev.ghd.keys = s.dev.ghd.keys ∧ t.dev.ghd.recs = s.dev.ghd.recs ∧
      t.dev.sram = (if t.dev.ghd.aonLost then [] else s.dev.sram.filter (fun e => inRetained e.1)) ∧
      t.dev.ghd.rollback = s.dev.ghd.rollback ∧ t.dev.procs = [] ∧ t.dev.dict.sessions = [] ∧ t.pending = s.pending) ∧
  (∀ (s : State), ∃ t, exec .resetNAssert s = .next t ∧ t.dev.devState = .off ∧ t.dev.rdF .ghdState 0 23 16 = 1 ∧
      (∀ k, t.dev.domOn k = false) ∧ t.dev.ghd.aonLost = s.dev.ghd.aonLost ∧
      t.dev.sram = (if s.dev.ghd.aonLost then [] else s.dev.sram.filter (fun e => inRetained e.1)) ∧
      t.dev.ghd.stored = s.dev.ghd.stored ∧ t.dev.ghd.flashLog = s.dev.ghd.flashLog ∧ t.dev.ghd.keys = s.dev.ghd.keys ∧
      t.dev.procs = [] ∧ t.dev.dict.sessions = [] ∧ t.pending = s.pending) ∧
  (∀ (boot : BootReport) (s : State), s.dev.devState = .off → s.dev.ghd.cause < 256 →
    ∃ t, exec (.suppliesGood false [] boot) s = .next t ∧ t.dev.devState = .boot ∧ t.dev.ghd.pllHeld = true ∧ t.dev.now = 0 ∧
      t.dev.rdF .ghdState 0 23 16 = s.dev.ghd.cause ∧ t.dev.domOn 0 = true ∧ t.dev.domOn 23 = true ∧
      (∀ k, k ≠ 0 → k ≠ 23 → t.dev.domOn k = false) ∧ t.dev.procs = [] ∧ t.pending = s.pending) ∧
  (∀ (pll : Bool) (p : List (Fin 2 × List (BitVec 8))) (boot : BootReport) (s : State), s.dev.devState ≠ .off →
    exec (.suppliesGood pll p boot) s = .next s) ∧
  (∀ (boot : BootReport) (s : State), s.dev.devState = .off →
    ∃ t, exec (.suppliesGood true [] boot) s = .next t ∧ t.pending = s.pending ∧
      t.dev = ({ s.dev.resetTo .boot s.dev.ghd.cause s.dev.ghd.rail with now := 0 }).bootRom 0 boot) ∧
  (∀ (serdes : Bool) (boot : BootReport) (s : State), serdes = false → s.dev.devState = .boot → s.dev.ghd.pllHeld = true →
    ∃ t, exec (.pllLock serdes boot) s = .next t ∧ t.pending = s.pending ∧
      t.dev = ({ s.dev with ghd := { s.dev.ghd with pllHeld := false, faultLow := false, limitFrom := s.dev.ghd.up } }).bootRom 0 boot) ∧
  (∀ (serdes : Bool) (boot : BootReport) (s : State),
    (if serdes then s.dev.devState ≠ .train else s.dev.devState ≠ .boot ∨ s.dev.ghd.pllHeld = false) →
    exec (.pllLock serdes boot) s = .next s) ∧
  (∀ (s : State), s.dev.devState ≠ .boot ∨ s.dev.ghd.pllHeld = false ∨ s.dev.ghd.up < 10000000 →
    exec .pllLockTimeout s = .next s) ∧
  (∀ (boot : BootReport) (s : State), s.dev.powered = false ∨ s.dev.ghd.pllHeld = true →
    exec (.watchdogExpiry boot) s = .next s ∧
    exec (.deviceReset boot) s = .next s) ∧
  (∀ (boot : BootReport) (s : State), s.dev.devState = .train →
    ∃ t, exec (.pllLock true boot) s = .next t ∧ t.dev.ghd = { s.dev.ghd with refHeld := false } ∧ Only [.ghd] s t) ∧
  (∀ (s : State), s.dev.devState = .boot → s.dev.ghd.pllHeld = true → 10000000 ≤ s.dev.ghd.up →
    ∃ t, exec .pllLockTimeout s = .next t ∧ t.dev.ghd = { s.dev.ghd with faultLow := true } ∧ Only [.ghd] s t) ∧
  (∀ (boot : BootReport) (s : State), s.dev.powered = true → s.dev.ghd.pllHeld = false →
    ∃ t, exec (.watchdogExpiry boot) s = .next t ∧ t.pending = s.pending ∧
      t.dev = ((s.dev.log 2 0x051 (s.dev.proc 1028).pc 0).resetTo .boot 3 0).bootRom s.dev.devState.code boot) ∧
  (∀ (boot : BootReport) (s : State), s.dev.powered = true → s.dev.ghd.pllHeld = false → s.dev.ghd.flashOp = none →
    ∃ t, exec (.deviceReset boot) s = .next t ∧ t.pending = s.pending ∧
      t.dev = ((s.dev.resetTo .boot 4 0).bootRom s.dev.devState.code boot).answer 0 0) ∧
  (∀ (boot : BootReport) (s : State), s.dev.powered = true → s.dev.ghd.pllHeld = false → s.dev.ghd.flashOp.isSome = true →
    ∃ t, exec (.deviceReset boot) s = .next t ∧ t.dev.reply = (0x38, 0x40) ∧ Only [.reply] s t) ∧
  (∀ (d : Dev) (old : Nat) (boot : BootReport), (d.bootRom old boot).ghd.boots = d.ghd.boots + 1) ∧
  (∀ (d : Dev) (old : Nat) (boot : BootReport), d.bootRec.trial = false → d.bootRec.active ≤ 1 →
    d.imageVerifies d.bootRec.active (boot.auth.getLsbD d.bootRec.active) = true → boot.test = 0 →
    ((d.bootRom old boot).proc 1028).pc = wordOf (regionBase 4) ∧
    (d.bootRom old boot).ghd.keyC = (d.imgSlot d.bootRec.active).keyC) ∧
  (∀ (d : Dev) (old : Nat) (boot : BootReport), d.devState = .boot → boot.test ≠ 0 →
    (d.bootRom old boot).devState = .failed ∧ (d.bootRom old boot).rdF .ghdState 0 15 8 = 2)

/-- R427, R545, R578–R580, R637: BOOT passes to SELFTEST with its domains on and the outputs live; a self-test that passes leads to
TRAIN with the stacks ON, one that fails to FAILED with cause 2; part C releases the cores or fails with cause 1; READY follows
training, and a READY not reached in 2,000 ms fails with cause 10; service is entered and left as asked, and a fenced stack that
passes comes back. -/
def Obligations.TrainingAndService : Prop :=
  (∀ (s : State), s.dev.devState = .boot → s.dev.ghd.pllHeld = false →
    ∃ t, exec .bootComplete s = .next t ∧ t.dev.devState = .selftest ∧ (∀ k ∈ bootDomains, t.dev.domOn k = true) ∧
      t.dev.fio.live = true ∧ t.dev.hlk.valid = true ∧ t.pending = s.pending) ∧
  (∀ (s : State), s.dev.devState ≠ .boot ∨ s.dev.ghd.pllHeld = true →
    exec .bootComplete s = .next s) ∧
  (∀ (t : SelfTest) (a b c e : StackTrain) (velvet ref : Bool) (s : State), s.dev.devState ≠ .selftest →
    exec (.selftestComplete t a b c e velvet ref) s = .next s) ∧
  (∀ (t : SelfTest) (a b c e : StackTrain) (ref : Bool) (s : State), s.dev.devState = .selftest → t.checker = 0 → t.march = 0 →
    t.parity = 0 → s.dev.trainFail 0 a = none → s.dev.trainFail 1 b = none → s.dev.trainFail 2 c = none → s.dev.trainFail 3 e = none →
    ∃ u, exec (.selftestComplete t a b c e false ref) s = .next u ∧ u.dev.devState = .failed ∧
      u.dev.rdF .ghdState 0 15 8 = 3 ∧ u.dev.rdB .edcStResult 0 40 = true ∧ u.pending = s.pending) ∧
  (∀ (t : SelfTest) (f : Nat) (a b c e : StackTrain) (ref : Bool) (s : State), s.dev.devState = .selftest → t.checker = 0 →
    t.march = 0 → t.parity = 0 → s.dev.trainFail 0 a = none → s.dev.trainFail 1 b = some f → s.dev.trainFail 2 c = none → s.dev.trainFail 3 e = none → f < 16 →
    s.dev.anyFenced = false →
    ∃ u, exec (.selftestComplete t a b c e true ref) s = .next u ∧ u.dev.devState = .train ∧
      u.dev.rdF .hbcSsStat 1 2 0 = 5 ∧ u.dev.rdF .hbcSsStat 1 6 3 = f ∧ u.dev.domOn 2 = false ∧
      (∀ k : Fin 4, k ≠ 1 → u.dev.rdF .hbcSsStat k 2 0 = 3) ∧ u.pending = s.pending) ∧
  (∀ (t : SelfTest) (a b c e : StackTrain) (ref : Bool) (s : State), s.dev.devState = .selftest → t.checker = 0 → t.march = 0 →
    t.parity = 0 → s.dev.trainFail 0 a = none → s.dev.trainFail 1 b = none → s.dev.trainFail 2 c = none → s.dev.trainFail 3 e = none →
    ∃ u, exec (.selftestComplete t a b c e true ref) s = .next u ∧ u.dev.devState = .train ∧ u.dev.ghd.refHeld = !ref ∧
      (∀ k : Fin 4, u.dev.rdF .hbcSsStat k 2 0 = 3 ∧ u.dev.domOn (1 + k) = true) ∧ u.pending = s.pending) ∧
  (∀ (t : SelfTest) (a b c e : StackTrain) (velvet ref : Bool) (s : State), s.dev.devState = .selftest →
    t.checker ≠ 0 ∨ t.march ≠ 0 →
    ∃ u, exec (.selftestComplete t a b c e velvet ref) s = .next u ∧ u.dev.devState = .failed ∧
      u.dev.rdF .ghdState 0 15 8 = 2 ∧ u.pending = s.pending) ∧
  (∀ (k : Fin 4) (t : StackTrain) (d : Dev),
    (∀ c, t.fail = some c → c ≠ 0 → c ≠ 5 → d.trainFail k t = some c.val) ∧
    (d.rdF .hbcCtl 0 5 4 ≠ 0 → (t.fail = none ∨ t.fail = some 5) → d.trainFail k t = none) ∧
    (d.rdF .hbcCtl 0 5 4 = 0 → t.fail = some 5 → d.trainFail k t = some 5) ∧
    (∀ (p : Fin 6) (q i : Nat) (v : BitVec 64), d.rdF .hbcCtl 0 5 4 = 0 → t.fail = none → t.read = some (p, q, i, v) → 2 ≤ p →
      d.trainFail k t = if v = patternWord (p - 1) k q i then none else some 5)) ∧
  (∀ (s : State), s.dev.devState = .train → s.dev.ghd.partC = false →
    ∃ t, exec (.partCCheck true) s = .next t ∧ t.dev.ghd.partC = true ∧ t.dev.devState = .train ∧ t.pending = s.pending) ∧
  (∀ (k : Fin 4) (x : ImageSlot) (e : Nat) (s : State), s.dev.devState = .train → s.dev.ghd.partC = false →
    s.dev.domOn 17 = true → s.dev.rdB .ctlCorekCtl k 0 = false → x = s.dev.imgSlot (s.dev.rdF .ghdBoot 0 0 0) →
    e = fld ((wordsOfBytes (x.lenC / 6) (x.bytes.drop x.offC)).getD k 0) 39 0 →
    ∃ t, exec (.partCCheck true) s = .next t ∧ t.dev.rdB .ctlCorekCtl k 0 = decide (e ≠ 0) ∧
      (e ≠ 0 → (t.dev.proc (1024 + k)).pc = wordOf e)) ∧
  (∀ (s : State), s.dev.devState = .train → s.dev.ghd.partC = false →
    ∃ t, exec (.partCCheck false) s = .next t ∧ t.dev = s.dev.fail 1 ∧ t.pending = s.pending) ∧
  (∀ (b : Bool) (s : State), s.dev.devState ≠ .train ∨ s.dev.ghd.partC = true →
    exec (.partCCheck b) s = .next s) ∧
  (∀ (s : State), s.dev.devState ≠ .train ∨ s.dev.ghd.refHeld = true ∨ s.dev.ghd.partC = false →
    exec .trainComplete s = .next s) ∧
  (∀ (s : State), s.dev.devState = .train → s.dev.ghd.refHeld = false → s.dev.ghd.partC = true → s.dev.var 0x8010 2 = 1 →
    s.dev.powerState = .run → s.dev.ghd.move = none → s.dev.anyFenced = false →
    ∃ t, exec .trainComplete s = .next t ∧ t.dev.devState = .run ∧ t.dev.var 0x8010 1 = 1 ∧ t.dev.tfb.served = true ∧
      t.pending = s.pending) ∧
  (∀ (s : State), s.dev.devState = .train → s.dev.ghd.refHeld = false → s.dev.ghd.partC = true → s.dev.var 0x8010 2 = 0 →
    s.dev.var 0x9000 6 = 0 →
    ∃ t, exec .trainComplete s = .next t ∧ t.dev.devState = .ready ∧ t.dev.var 0x8010 1 = 0 ∧ t.pending = s.pending) ∧
  (∀ (s : State), s.dev.devState = .boot ∨ s.dev.devState = .selftest ∨ s.dev.devState = .train → s.dev.ghd.pllHeld = false →
    2000000000 ≤ s.dev.ghd.up - s.dev.ghd.limitFrom →
    ∃ t, exec .readyDeadline s = .next t ∧ t.dev = s.dev.fail 10 ∧ t.pending = s.pending) ∧
  (∀ (s : State), (s.dev.devState ≠ .boot ∧ s.dev.devState ≠ .selftest ∧ s.dev.devState ≠ .train) ∨ s.dev.ghd.pllHeld = true ∨
      s.dev.ghd.up - s.dev.ghd.limitFrom < 2000000000 →
    exec .readyDeadline s = .next s) ∧
  (∀ (s : State), s.dev.dictReady = true → s.dev.devState = .ready → s.dev.powerState = .run → s.dev.ghd.move = none →
    ∃ t, exec (.serviceRequest 1) s = .next t ∧ t.dev.devState = (if s.dev.anyFenced then .degraded else .run) ∧
      t.dev.tfb.served = true ∧ (s.dev.tfb.served = false → t.dev.rdB .tfbLbStat 0 0 = true) ∧ t.dev.reply = (0, 0) ∧
      t.pending = s.pending) ∧
  (∀ (v : Nat) (s : State), s.dev.powered = true → s.dev.dictReady = false →
    ∃ t, exec (.serviceRequest v) s = .next t ∧ t.dev.reply = (0x38, 0x30) ∧ Only [.reply] s t) ∧
  (∀ (s : State), s.dev.dictReady = true → s.dev.inService = false →
    ∃ t, exec (.serviceRequest 0) s = .next t ∧ t.dev.reply = (0, 0) ∧ t.dev.var 0x8010 1 = 0 ∧ Only [.reply, .dict] s t) ∧
  (∀ (s : State), s.dev.dictReady = true → s.dev.devState = .ready → s.dev.powerState = .run → s.dev.ghd.move = none →
    s.dev.tfb.served = true → s.dev.anyFenced = false →
    ∃ t, exec (.serviceRequest 1) s = .next t ∧ t.pending = s.pending ∧
      t.dev = ((s.dev.setVar 0x8010 1 1 1).answer 0 0).enterState .run (some 9)) ∧
  (∀ (s : State), s.dev.dictReady = true → s.dev.inService = true →
    ∃ t, exec (.serviceRequest 0) s = .next t ∧ t.pending = s.pending ∧
      t.dev = ((s.dev.setVar 0x8010 1 1 0).answer 0 0).enterReady (some 9)) ∧
  (∀ (v : Nat) (s : State), s.dev.dictReady = true → 1 < v →
    ∃ t, exec (.serviceRequest v) s = .next t ∧ t.dev.reply = (0x21, 0x31) ∧ Only [.reply] s t) ∧
  (∀ (v : Nat) (pass : BitVec 8) (a b c e : StackTrain) (k : Fin 4) (s : State), s.dev.dictReady = true →
    s.dev.devState = .degraded → v ≤ 255 → s.dev.fencedStacks = [k.val] → s.dev.fencedGroups = [] → v.testBit k = true →
    pass.getLsbD k = true → s.dev.trainFail k ([a, b, c, e].getD k a) = none →
    ∃ t, exec (.returnFenced v pass a b c e) s = .next t ∧ t.dev.devState = .run ∧ t.dev.rdF .hbcSsStat k 2 0 = 3 ∧
      t.dev.domOn (1 + k) = true ∧ t.dev.reply = (0, 0) ∧ t.pending = s.pending) ∧
  (∀ (v : Nat) (pass : BitVec 8) (a b c e : StackTrain) (g : Fin 4) (s : State), s.dev.dictReady = true →
    s.dev.devState = .degraded → v ≤ 255 → s.dev.fencedStacks = [] → s.dev.fencedGroups = [g.val] → v.testBit (4 + g) = true →
    pass.getLsbD (4 + g) = true →
    ∃ t, exec (.returnFenced v pass a b c e) s = .next t ∧ t.dev.devState = .run ∧ t.dev.rdB .cxiGrpgStat g 1 = false ∧
      t.dev.rdB .cxiGrpgStat g 0 = true ∧ t.dev.domOn (5 + g) = true ∧ t.dev.reply = (0, 0) ∧ t.pending = s.pending) ∧
  (∀ (v : Nat) (pass : BitVec 8) (a b c e : StackTrain) (s : State), s.dev.dictReady = true → 255 < v →
    ∃ t, exec (.returnFenced v pass a b c e) s = .next t ∧ t.dev.reply = (0x21, 0x31) ∧ Only [.reply] s t) ∧
  (∀ (v : Nat) (pass : BitVec 8) (a b c e : StackTrain) (s : State), s.dev.powered = true → s.dev.dictReady = false →
    ∃ t, exec (.returnFenced v pass a b c e) s = .next t ∧ t.dev.reply = (0x38, 0x30) ∧ Only [.reply] s t) ∧
  (∀ (v : Nat) (pass : BitVec 8) (a b c e : StackTrain) (s : State), s.dev.dictReady = true → s.dev.devState ≠ .degraded →
    v ≤ 255 →
    ∃ t, exec (.returnFenced v pass a b c e) s = .next t ∧ t.dev.reply = (0, 0) ∧ Only [.reply] s t) ∧
  (∀ (v : Nat) (pass : BitVec 8) (a b c e : StackTrain) (s : State), s.dev.dictReady = true → s.dev.devState = .degraded →
    s.dev.anyFenced = true → v ≤ 255 →
    (∀ k : Fin 4, v.testBit k = true → pass.getLsbD k = false ∨ (s.dev.trainFail k ([a, b, c, e].getD k a)).isSome = true) →
    (∀ g : Fin 4, v.testBit (4 + g) = true → pass.getLsbD (4 + g) = false) →
    ∃ t, exec (.returnFenced v pass a b c e) s = .next t ∧ t.dev.reply = (0, 0) ∧ Only [.reply] s t)

/-- R432, R590, R592, R593, R638: a rail that falls below its warning threshold is in warning, counted and reported, until it has
recovered; a sensor at 100 °C starts throttling at one half, each 10 ms halves the rate again down to 1/16, and the end below
97 °C gives it back; 115 °C fails the device with cause 5, and the comparator drives THERMTRIP_N by itself. -/
def Obligations.Supervision : Prop :=
  (∀ (r : Fin 11) (mv : Nat) (s : State), s.dev.powered = true → s.dev.ghd.pllHeld = false → 10 * mv < (railLevels r).2 →
    s.dev.ghd.warned.contains r.val = false →
    ∃ t, exec (.supplyWarning r mv) s = .next t ∧ t.dev.rdF .ghdRailr r 15 0 = mv ∧ t.dev.rdB .ghdRailr r 32 = true ∧
      t.dev.ghd.warned = s.dev.ghd.warned ++ [r.val] ∧
      tget t.dev.ghd.warnings 0 r = tget s.dev.ghd.warnings 0 r + 1 ∧ s.dev.ghd.logNext < t.dev.ghd.logNext ∧
      (∀ b : Fin 5, (t.dev.source (64 * b + 32)).l = true) ∧ t.pending = s.pending) ∧
  (∀ (r : Fin 11) (mv : Nat) (s : State), s.dev.powered = true → s.dev.ghd.pllHeld = false → 10 * mv < (railLevels r).2 →
    s.dev.ghd.warned.contains r.val = true →
    ∃ t, exec (.supplyWarning r mv) s = .next t ∧ t.dev.rdF .ghdRailr r 15 0 = mv ∧
      t.dev.ghd = { s.dev.ghd with warnAt := tset s.dev.ghd.warnAt r s.dev.now } ∧ RegsOnly [regKey .ghdRailr r] s t ∧
      Only [.regs, .ghd] s t) ∧
  (∀ (r : Fin 11) (mv : Nat) (s : State), s.dev.powered = false ∨ s.dev.ghd.pllHeld = true ∨ (railLevels r).2 ≤ 10 * mv →
    exec (.supplyWarning r mv) s = .next s) ∧
  (∀ (r : Fin 11) (mv : Nat) (s : State), s.dev.ghd.warned.contains r.val = false ∨ 250 * mv ≤ 24 * (railLevels r).1 ∨
      elapsed s.dev.now (tget s.dev.ghd.warnAt 0 r) < 1000000 →
    exec (.supplyWarningEnd r mv) s = .next s) ∧
  (∀ (r : Fin 11) (mv : Nat) (s : State), s.dev.powered = true → s.dev.ghd.warned.contains r.val = true →
    24 * (railLevels r).1 < 250 * mv → mv < 65536 → 1000000 ≤ elapsed s.dev.now (tget s.dev.ghd.warnAt 0 r) →
    ∃ t, exec (.supplyWarningEnd r mv) s = .next t ∧ t.dev.rdF .ghdRailr r 15 0 = mv ∧ t.dev.rdB .ghdRailr r 32 = false ∧
      t.dev.ghd.warned = s.dev.ghd.warned.filter (fun x => x ≠ r.val) ∧ t.dev.ghd.logNext = s.dev.ghd.logNext + 1 ∧
      t.pending = s.pending) ∧
  (∀ (k : Fin 13) (x : Int) (s : State), s.dev.powered = true → s.dev.ghd.pllHeld = false → 800 ≤ x → x < 32768 →
    s.dev.rdF .ghdThrottle 0 2 0 = 0 →
    ∃ t, exec (.throttleStart k x) s = .next t ∧ t.dev.rdF .ghdThrottle 0 2 0 = 1 ∧ t.dev.ghd.throttledAt = s.dev.now ∧
      t.dev.ghd.episodes = s.dev.ghd.episodes + 1 ∧ (t.dev.source 777).l = true ∧
      t.dev.ghd.logNext = s.dev.ghd.logNext + 1 ∧ sfld (t.dev.rd .ghdTemps k) 15 0 = x ∧ t.dev.rdB .ghdTemps k 32 = true ∧
      t.pending = s.pending) ∧
  (∀ (k : Fin 13) (x : Int) (s : State), s.dev.powered = true → s.dev.ghd.pllHeld = false → 800 ≤ x → x < 32768 →
    s.dev.rdF .ghdThrottle 0 2 0 ≠ 0 →
    ∃ t, exec (.throttleStart k x) s = .next t ∧ sfld (t.dev.rd .ghdTemps k) 15 0 = x ∧ t.dev.rdB .ghdTemps k 32 = true ∧
      RegsOnly [regKey .ghdTemps k] s t ∧ Only [.regs, .evc, .wev] s t) ∧
  (∀ (k : Fin 13) (x : Int) (s : State), s.dev.powered = false ∨ s.dev.ghd.pllHeld = true ∨ x < 800 →
    exec (.throttleStart k x) s = .next s) ∧
  (∀ (k : Fin 13) (x : Int) (s : State), s.dev.rdF .ghdThrottle 0 2 0 = 0 ∨ x < 800 ∨
      elapsed s.dev.now s.dev.ghd.throttledAt < 10000000 →
    exec (.throttleStep k x) s = .next s) ∧
  (∀ (k : Fin 13) (x : Int) (s : State), s.dev.rdF .ghdThrottle 0 2 0 = 0 ∨ 776 ≤ x ∨
      elapsed s.dev.now s.dev.ghd.throttledAt < 100000000 →
    exec (.throttleEnd k x) s = .next s) ∧
  (∀ (k : Fin 13) (x : Int) (s : State), s.dev.powered = false ∨ s.dev.ghd.pllHeld = true ∨ x < 920 →
    exec (.thermalTrip k x) s = .next s) ∧
  (∀ (s : State), s.dev.powered = false →
    exec .thermtripComparator s = .next s) ∧
  (∀ (s : State), s.dev.hbc.corrected = [] →
    exec .correctedErrorsLog s = .next s) ∧
  (∀ (k : Fin 13) (x : Int) (s : State), s.dev.powered = true → s.dev.rdF .ghdThrottle 0 2 0 ≠ 0 → 800 ≤ x →
    10000000 ≤ elapsed s.dev.now s.dev.ghd.throttledAt →
    ∃ t, exec (.throttleStep k x) s = .next t ∧
      t.dev.rdF .ghdThrottle 0 2 0 = min (s.dev.rdF .ghdThrottle 0 2 0 + 1) 4 ∧ t.dev.ghd.throttledAt = s.dev.now ∧
      RegsOnly [regKey .ghdTemps k, regKey .ghdThrottle 0] s t ∧ Only [.regs, .ghd, .evc, .wev] s t) ∧
  (∀ (k : Fin 13) (x : Int) (s : State), s.dev.powered = true → s.dev.rdF .ghdThrottle 0 2 0 ≠ 0 → x < 776 →
    100000000 ≤ elapsed s.dev.now s.dev.ghd.throttledAt →
    ∃ t, exec (.throttleEnd k x) s = .next t ∧ t.dev.rdF .ghdThrottle 0 2 0 = 0 ∧
      (∀ j : Fin 13, t.dev.rdB .ghdTemps j 32 = false) ∧ (t.dev.source 777).l = false ∧
      t.dev.ghd.logNext = s.dev.ghd.logNext + 1 ∧ t.pending = s.pending) ∧
  (∀ (k : Fin 13) (x : Int) (s : State), s.dev.powered = true → s.dev.ghd.pllHeld = false → s.dev.devState ≠ .failed → 920 ≤ x →
    ∃ t, exec (.thermalTrip k x) s = .next t ∧ t.dev.devState = .failed ∧ t.dev.rdF .ghdState 0 15 8 = 5 ∧
      t.dev.ghd.tripLow = true ∧ t.pending = s.pending) ∧
  (∀ (s : State), s.dev.powered = true →
    ∃ t, exec .thermtripComparator s = .next t ∧ t.dev.ghd = { s.dev.ghd with tripLow := true } ∧ Only [.ghd] s t) ∧
  (∀ (k n : Nat) (s : State), s.dev.powered = true → s.dev.hbc.corrected = [(k, n)] → n ≠ 0 →
    ∃ t, exec .correctedErrorsLog s = .next t ∧ t.dev.hbc = { s.dev.hbc with corrected := [] } ∧
      t.dev.ghd = { s.dev.ghd with logNext := s.dev.ghd.logNext + 1 } ∧ RegsOnly [regKey .ghdLogSeq 0, regKey .edcInjCtl 0] s t ∧
      Only [.hbc, .ghd, .sram, .regs] s t)

/-- R594–R596: a record of the log is five words at its place of the ring, with the next SEQ; GHD_LOG is raised for SEV 2 and 3; a
write of 8100h.5 that does not say such a record is refused; a flush leaves no record of the ring out of the flash log, and one with
nothing new writes nothing. -/
def Obligations.LogRecords : Prop :=
  (∀ (d : Dev) (sev code : Nat) (a : Word) (b : Nat), memWf MemWord.blank d.sram = true → d.rdB .edcInjCtl 0 8 = false →
    (∀ i : Fin 5, (d.log sev code a b).cell (logAddr d.ghd.logNext + i) =
      goodWord ((LogRecord.mk sev code d.ghd.logNext d.now a (d.rdF .ghdBootCount 0 15 0) b d.wall).toWords.getD i 0)) ∧
    (d.log sev code a b).ghd = { d.ghd with logNext := d.ghd.logNext + 1 } ∧
    (d.log sev code a b).rdF .ghdLogSeq 0 31 0 = d.ghd.logNext % 2 ^ 32 ∧
    (2 ≤ sev → d.srcLive 779 = true → ((d.log sev code a b).source 779).p = true)) ∧
  (∀ (sev code : Nat) (a : Word) (b : BitVec 32) (s : State), s.dev.dictReady = true → sev ≤ 3 → 0x800 ≤ code → code ≤ 0xFFF →
    ∃ t, exec (.logWrite (bytesOfNat 1 sev ++ bytesOfNat 2 code ++ bytesOfWord a ++ bytesOfNat 4 b.toNat)) s = .next t ∧
      t.dev = (s.dev.log sev code a b.toNat).answer 0 0 ∧ t.pending = s.pending) ∧
  (∀ (bs : List (BitVec 8)) (s : State), s.dev.dictReady = true → bs.length ≠ 13 →
    ∃ t, exec (.logWrite bs) s = .next t ∧ t.dev.reply = (0x21, 0x31) ∧ Only [.reply] s t) ∧
  (∀ (bs : List (BitVec 8)) (s : State), s.dev.powered = true → s.dev.dictReady = false →
    ∃ t, exec (.logWrite bs) s = .next t ∧ t.dev.reply = (0x38, 0x30) ∧ Only [.reply] s t) ∧
  (∀ (s : State), s.dev.powered = false ∨ s.dev.ghd.pllHeld = true ∨ s.dev.ghd.flashHighZ = true →
    exec .logFlush s = .next s) ∧
  (∀ (s : State), s.dev.powered = true → s.dev.ghd.pllHeld = false → s.dev.ghd.flashHighZ = false →
    ∃ t, exec .logFlush s = .next t ∧ t.dev.ghd.flushed = s.dev.ghd.logNext ∧ t.pending = s.pending) ∧
  (∀ (m n : Nat) (s : State), s.dev.powered = true → s.dev.ghd.pllHeld = false → s.dev.ghd.flashHighZ = false →
    m = max s.dev.ghd.flushed (s.dev.ghd.logNext - 1024) → m + n = s.dev.ghd.logNext → (s.dev.ringRecords m n).2 = s.dev →
    s.dev.ghd.flashLog.length + n ≤ flashLogRoom →
    ∃ t, exec .logFlush s = .next t ∧
      t.dev.ghd = { s.dev.ghd with flashLog := s.dev.ghd.flashLog ++ (s.dev.ringRecords m n).1, flushed := s.dev.ghd.logNext } ∧
      Only [.ghd] s t) ∧
  (∀ (s : State), s.dev.powered = true → s.dev.ghd.pllHeld = false → s.dev.ghd.flushed = s.dev.ghd.logNext →
    exec .logFlush s = .next s)

/-- R597–R599, R606: a first segment of an image starts the inactive slot over, one out of order and one on trial are refused; the
verification makes the slot VALID or INVALID; ACTIVATE puts a valid slot on trial and logs a step that
fails, and CONFIRM ends the trial and blows the rollback
fuses up to the image's; a key slot is programmed once, from the mailbox only, and revoked unless it signed the running image. -/
def Obligations.UpdatesAndKeys : Prop :=
  (∀ (bs : List (BitVec 8)) (s : State), s.dev.dictReady = true → s.dev.bootRec.trial = false → s.dev.ghd.verifying = false →
    bs.length ≤ 8388608 → s.dev.ghd.flashOp = none →
    ∃ t, exec (.imageWrite false 0 bs) s = .next t ∧ t.dev.reply = (0, 0) ∧
      t.dev.imgSlot s.dev.inactiveSlot = { bytes := bs, st := .writing } ∧
      t.dev.ghd = { s.dev.ghd with slots := tset s.dev.ghd.slots s.dev.inactiveSlot { bytes := bs, st := .writing }, flashOp := some .program } ∧
      t.dev.dict.sessions = s.dev.dict.sessions.map (fun r => { r with segs := r.segs.filter (fun g => g.key ≠ 0x900002) }) ∧
      t.dev.dict.pending = s.dev.dict.pending ∧ t.dev.dict.vars = s.dev.dict.vars ∧ Only [.ghd, .dict, .reply] s t) ∧
  (∀ (last : Bool) (off : Nat) (bs : List (BitVec 8)) (s : State), s.dev.dictReady = true → s.dev.bootRec.trial = false →
    s.dev.ghd.verifying = false → 0 < off → (s.dev.imgSlot s.dev.inactiveSlot).st = .writing →
    off ≠ (s.dev.imgSlot s.dev.inactiveSlot).bytes.length →
    ∃ t, exec (.imageWrite last off bs) s = .next t ∧ t.dev.reply = (0x10, 0x37) ∧ Only [.reply] s t) ∧
  (∀ (last : Bool) (off : Nat) (bs : List (BitVec 8)) (s : State), s.dev.dictReady = true →
    s.dev.bootRec.trial = true ∨ s.dev.ghd.verifying = true →
    ∃ t, exec (.imageWrite last off bs) s = .next t ∧ t.dev.reply = (0x38, 0x40) ∧ Only [.reply] s t) ∧
  (∀ (bs kept : List (BitVec 8)) (s : State), s.dev.dictReady = true → s.dev.bootRec.trial = false →
    s.dev.ghd.verifying = false → (s.dev.imgSlot s.dev.inactiveSlot).st = .writing →
    (s.dev.imgSlot s.dev.inactiveSlot).bytes = kept → 0 < kept.length → kept.length + bs.length ≤ 8388608 →
    ∃ t, exec (.imageWrite true kept.length bs) s = .next t ∧ t.dev.reply = (0, 0) ∧
      t.dev.imgSlot s.dev.inactiveSlot = { bytes := kept ++ bs, st := .writing } ∧ t.dev.ghd.verifying = true ∧
      t.dev.ghd.flashOp.isSome = true ∧ t.dev.ghd.logNext = s.dev.ghd.logNext + 1 ∧ t.pending = s.pending) ∧
  (∀ (last : Bool) (off : Nat) (bs : List (BitVec 8)) (k : Fin 4) (x : BopPath) (s : State), s.dev.powered = true →
    s.dev.dictReady = false →
    (∃ t, exec (.imageWrite last off bs) s = .next t ∧ t.dev.reply = (0x38, 0x30) ∧ Only [.reply] s t) ∧
    (∃ t, exec .activate s = .next t ∧ t.dev.reply = (0x38, 0x30) ∧ Only [.reply] s t) ∧
    (∃ t, exec .confirm s = .next t ∧ t.dev.reply = (0x38, 0x30) ∧ Only [.reply] s t) ∧
    (∃ t, exec (.keyProgram x bs) s = .next t ∧ t.dev.reply = (0x38, 0x30) ∧ Only [.reply] s t) ∧
    (∃ t, exec (.keyRevoke x k) s = .next t ∧ t.dev.reply = (0x38, 0x30) ∧ Only [.reply] s t)) ∧
  (∀ (auth : Bool) (s : State), s.dev.ghd.verifying = false →
    exec (.imageVerifyDone auth) s = .next s) ∧
  (∀ (s : State), s.dev.dictReady = true → s.dev.bootRec.trial = true →
    ∃ t, exec .activate s = .next t ∧ t.dev.reply = (0x38, 0x40) ∧ Only [.reply] s t) ∧
  (∀ (f : Fin 2) (bs : List (BitVec 8)) (s : State), s.dev.dictReady = true → bs.length ≠ 49 →
    ∃ t, exec (.keyProgram (.mailbox f) bs) s = .next t ∧ t.dev.reply = (0x21, 0x31) ∧ Only [.reply] s t) ∧
  (∀ (x : BopPath) (k : Nat) (s : State), s.dev.dictReady = true → isMailbox x = false →
    ∃ t, exec (.keyRevoke x k) s = .next t ∧ t.dev.reply = (0x10, 0x35) ∧ Only [.reply] s t) ∧
  (∀ (f : Fin 2) (k : Nat) (s : State), s.dev.dictReady = true → 3 < k →
    ∃ t, exec (.keyRevoke (.mailbox f) k) s = .next t ∧ t.dev.reply = (0x21, 0x31) ∧ Only [.reply] s t) ∧
  (∀ (auth : Bool) (s : State), s.dev.powered = true → s.dev.ghd.verifying = true →
    ∃ t, exec (.imageVerifyDone auth) s = .next t ∧ t.dev.ghd.verifying = false ∧
      (t.dev.imgSlot s.dev.inactiveSlot).st = (if s.dev.imageVerifies s.dev.inactiveSlot auth then .valid else .invalid) ∧
      (t.dev.imgSlot s.dev.inactiveSlot).bytes = (s.dev.imgSlot s.dev.inactiveSlot).bytes ∧
      t.dev.ghd.logNext = s.dev.ghd.logNext + 1 ∧ t.pending = s.pending) ∧
  (∀ (s : State), s.dev.dictReady = true → s.dev.bootRec.trial = false → (s.dev.imgSlot s.dev.inactiveSlot).st = .valid →
    ∃ t, exec .activate s = .next t ∧ t.dev.reply = (0, 0) ∧
      t.dev.bootRec = { active := s.dev.inactiveSlot, trial := true, attempts := 0, gen := s.dev.bootRec.gen + 1 } ∧
      t.dev.rdF .ghdBoot 0 3 2 = 0 ∧ t.dev.ghd.slots = s.dev.ghd.slots ∧ t.pending = s.pending) ∧
  (∀ (s : State), s.dev.dictReady = true → s.dev.bootRec.trial = false → (s.dev.imgSlot s.dev.inactiveSlot).st ≠ .valid →
    ∃ t, exec .activate s = .next t ∧ t.dev.reply = (0x10, 0x40) ∧ t.dev.bootRec = s.dev.bootRec ∧
      t.dev.ghd = { s.dev.ghd with logNext := s.dev.ghd.logNext + 1 } ∧ t.pending = s.pending) ∧
  (∀ (s : State), s.dev.dictReady = true → s.dev.bootRec.trial = true → s.dev.bootRec.active = s.dev.rdF .ghdBoot 0 0 0 →
    ∃ t, exec .confirm s = .next t ∧ t.dev.reply = (0, 0) ∧
      t.dev.bootRec = { s.dev.bootRec with trial := false, gen := s.dev.bootRec.gen + 1 } ∧
      t.dev.ghd.rollback = max s.dev.ghd.rollback (s.dev.imgSlot s.dev.bootRec.active).rollback ∧
      t.dev.rdF .ghdBoot 0 1 1 = 0 ∧ t.pending = s.pending) ∧
  (∀ (s : State), s.dev.dictReady = true → s.dev.bootRec.trial = false →
    ∃ t, exec .confirm s = .next t ∧ t.dev.reply = (0, 0) ∧ Only [.reply] s t) ∧
  (∀ (f : Fin 2) (k : Fin 4) (bs : List (BitVec 8)) (s : State), s.dev.dictReady = true → 0 < k.val → bs.length = 48 →
    (s.dev.keySlot k).digest = none →
    ∃ t, exec (.keyProgram (.mailbox f) (bytesOfNat 1 k ++ bs)) s = .next t ∧ t.dev.reply = (0, 0) ∧
      t.dev.keySlot k = { s.dev.keySlot k with digest := some bs } ∧ (∀ j, j ≠ k.val → t.dev.keySlot j = s.dev.keySlot j) ∧
      t.dev.ghd.logNext = s.dev.ghd.logNext + 1 ∧ t.pending = s.pending) ∧
  (∀ (f : Fin 2) (k : Fin 4) (bs : List (BitVec 8)) (s : State), s.dev.dictReady = true → 0 < k.val → bs.length = 48 →
    (s.dev.keySlot k).digest.isSome = true →
    ∃ t, exec (.keyProgram (.mailbox f) (bytesOfNat 1 k ++ bs)) s = .next t ∧ t.dev.reply = (0x10, 0x41) ∧ Only [.reply] s t) ∧
  (∀ (x : BopPath) (bs : List (BitVec 8)) (s : State), s.dev.dictReady = true → isMailbox x = false →
    ∃ t, exec (.keyProgram x bs) s = .next t ∧ t.dev.reply = (0x10, 0x35) ∧ Only [.reply] s t) ∧
  (∀ (f : Fin 2) (k : Fin 4) (s : State), s.dev.dictReady = true → k.val ≠ s.dev.ghd.keyC →
    ∃ t, exec (.keyRevoke (.mailbox f) k) s = .next t ∧ t.dev.reply = (0, 0) ∧
      t.dev.keySlot k = { s.dev.keySlot k with revoked := true } ∧ (∀ j, j ≠ k.val → t.dev.keySlot j = s.dev.keySlot j) ∧
      t.pending = s.pending) ∧
  (∀ (f : Fin 2) (k : Nat) (s : State), s.dev.dictReady = true → k = s.dev.ghd.keyC → k ≤ 3 →
    ∃ t, exec (.keyRevoke (.mailbox f) k) s = .next t ∧ t.dev.reply = (0x10, 0x41) ∧ Only [.reply] s t)

/-- R600–R603: a request for a power state starts its transition, one made while a transition runs waits, and one for no power state
is refused; STANDBY ends with its memories retained and the other blocks off, HIBERNATE with every domain but PD00 and PD23 off; a
wake request takes STANDBY back to RUN, and HIBERNATE through SELFTEST. -/
def Obligations.PowerStates : Prop :=
  (∀ (s : State), s.dev.dictReady = true → s.dev.ghd.move = none → s.dev.powerState = .run → s.dev.inService = false →
    ∃ t, exec (.powerRequest 1) s = .next t ∧ t.dev.reply = (0, 0) ∧ t.dev.ghd = { s.dev.ghd with move := some .toStandby, moveAt := s.dev.now } ∧
      Only [.ghd, .reply] s t) ∧
  (∀ (s : State), s.dev.dictReady = true → s.dev.ghd.move = none → s.dev.powerState = .run → s.dev.inService = true →
    ∃ t, exec (.powerRequest 2) s = .next t ∧ t.dev.reply = (0, 0) ∧ t.dev.ghd.move = some .toHibernate ∧
      t.dev.devState = .ready ∧ t.pending = s.pending) ∧
  (∀ (v : Nat) (m : PowerMove) (s : State), s.dev.dictReady = true → s.dev.ghd.move = some m → v ≤ 2 →
    ∃ t, exec (.powerRequest v) s = .next t ∧ t.dev.reply = (0, 0) ∧ t.dev.ghd = { s.dev.ghd with asked := some v } ∧
      Only [.ghd, .reply] s t) ∧
  (∀ (v : Nat) (s : State), s.dev.dictReady = true → 2 < v →
    ∃ t, exec (.powerRequest v) s = .next t ∧ t.dev.reply = (0x21, 0x31) ∧ Only [.reply] s t) ∧
  (∀ (v : Nat) (s : State), s.dev.powered = true → s.dev.dictReady = false →
    ∃ t, exec (.powerRequest v) s = .next t ∧ t.dev.reply = (0x38, 0x30) ∧ Only [.reply] s t) ∧
  (∀ (v : Nat) (s : State), s.dev.dictReady = true → s.dev.ghd.move = none → v ≤ 2 →
    ((v = 0 ∧ s.dev.powerState ≠ .standby) ∨ (v = 1 ∧ s.dev.powerState ≠ .run)) →
    ∃ t, exec (.powerRequest v) s = .next t ∧ t.dev.reply = (0, 0) ∧ Only [.reply] s t) ∧
  (∀ (phy : BitVec 4) (s : State), s.dev.ghd.move = none →
    exec (.powerTransitionEnd phy) s = .next s) ∧
  (∀ (s : State), s.dev.ghd.wakeAsked = false →
    exec .wakeRequest s = .next s) ∧
  (∀ (s : State), s.dev.powered = true → s.dev.ghd.wakeAsked = true → s.dev.powerState = .standby →
    s.dev.var 0x8020 2 ≠ 1 ∨ s.dev.ghd.move.isSome = true →
    ∃ t, exec .wakeRequest s = .next t ∧ t.dev.ghd = { s.dev.ghd with wakeAsked := false } ∧ Only [.ghd] s t) ∧
  (∀ (s : State), s.dev.powered = true → s.dev.ghd.wakeAsked = true → s.dev.powerState = .run →
    ∃ t, exec .wakeRequest s = .next t ∧ t.dev.ghd = { s.dev.ghd with wakeAsked := false } ∧ Only [.ghd] s t) ∧
  (∀ (phy : BitVec 4) (s : State), s.dev.powered = true → s.dev.ghd.move = some .toStandby → s.dev.ghd.asked = none →
    s.dev.quiesce.queueWaits = false → s.dev.quiesce.gathersOpen = false →
    ∃ t, exec (.powerTransitionEnd phy) s = .next t ∧ t.dev.powerState = .standby ∧ t.dev.ghd.move = none ∧
      (∀ k ∈ ([17, 18, 19, 21] : List Nat), t.dev.domain k = .retained) ∧ (∀ k ∈ ([12, 13, 14, 15, 16, 20, 22] : List Nat), t.dev.domain k = .off) ∧
      (∀ k : Fin 4, t.dev.domOn (5 + k) = false ∧ t.dev.rdF .hbcSsStat k 2 0 ≠ 3) ∧
      t.pending = s.pending) ∧
  (∀ (phy : BitVec 4) (s : State), s.dev.powered = true → s.dev.ghd.move = some .toHibernate → s.dev.ghd.asked = none → s.dev.powerState = .standby →
    ∃ t, exec (.powerTransitionEnd phy) s = .next t ∧ t.dev.powerState = .hibernate ∧
      (∀ k : Fin 24, k.val ≠ 0 → k.val ≠ 23 → t.dev.domain k = .off) ∧ t.pending = s.pending) ∧
  (∀ (phy : BitVec 4) (s : State), s.dev.powered = true → s.dev.ghd.move = some .toHibernate → s.dev.ghd.asked = none →
    s.dev.powerState = .run → s.dev.quiesce.queueWaits = false → s.dev.quiesce.gathersOpen = false →
    ∃ t, exec (.powerTransitionEnd phy) s = .next t ∧ t.dev.powerState = .hibernate ∧
      (∀ k : Fin 24, k.val ≠ 0 → k.val ≠ 23 → t.dev.domain k = .off) ∧ t.pending = s.pending) ∧
  (∀ (phy : BitVec 4) (m : PowerMove) (s : State), s.dev.powered = true → s.dev.ghd.move = some m → s.dev.powerState = .run →
    m ≠ .toRun → (s.dev.quiesce.queueWaits = true ∨ s.dev.quiesce.gathersOpen = true) →
    ∃ t, exec (.powerTransitionEnd phy) s = .next t ∧ t.dev = s.dev.quiesce ∧ t.dev.ghd.move = some m ∧ t.pending = s.pending) ∧
  (∀ (phy : BitVec 4) (s : State), s.dev.powered = true → s.dev.ghd.move = some .toRun → s.dev.ghd.asked = none → phy = 0xF →
    s.dev.hbc.fenceLater = [] → s.dev.var 0x8010 1 = 0 →
    ∃ t, exec (.powerTransitionEnd phy) s = .next t ∧ t.dev.powerState = .run ∧ t.dev.ghd.move = none ∧
      (∀ k ∈ bootDomains, t.dev.domOn k = true) ∧ t.pending = s.pending) ∧
  (∀ (s : State), s.dev.powered = true → s.dev.ghd.wakeAsked = true → s.dev.powerState = .standby → s.dev.ghd.move = none → s.dev.var 0x8020 2 = 1 →
    s.dev.inService = false →
    ∃ t, exec .wakeRequest s = .next t ∧ t.dev.ghd = { s.dev.ghd with wakeAsked := false, move := some .toRun, moveAt := s.dev.now } ∧
      (s.dev.srcLive 781 = true → (t.dev.source 781).p = true) ∧ Only [.ghd, .evc, .wev] s t) ∧
  (∀ (s : State), s.dev.powered = true → s.dev.ghd.wakeAsked = true → s.dev.powerState = .hibernate →
    ∃ t, exec .wakeRequest s = .next t ∧ t.dev.devState = .selftest ∧ t.dev.powerState = .run ∧
      (∀ k ∈ bootDomains, t.dev.domOn k = true) ∧ t.pending = s.pending)
end

