-- ==== Sys2Proof/Laws/Bits.lean ====
section
/-! SUPPORT. Laws of the bit fields: reading a field after writing it, or after writing a field that does not meet it. -/

namespace Sys2Proof.Machine

/-- The bits of a field that was read. -/
theorem testBit_fld (w : Word) (hi lo j : Nat) : (fld w hi lo).testBit j = (decide (j < hi + 1 - lo) && w.getLsbD (lo + j)) := by
  simp [fld, Nat.testBit_mod_two_pow, Nat.testBit_shiftRight, BitVec.getLsbD]

/-- The bits of a field mask. -/
theorem getLsbD_fieldMask (hi lo k : Nat) :
    (fieldMask hi lo).getLsbD k = (decide (k < 48) && decide (lo ≤ k) && decide (k < hi + 1)) := by
  simp only [fieldMask, BitVec.getLsbD_ofNat, Nat.testBit_shiftLeft, Nat.testBit_two_pow_sub_one]
  by_cases h1 : k < 48 <;> by_cases h2 : lo ≤ k <;> simp [h1, h2]
  omega

/-- The bits of a word with a field written. -/
theorem getLsbD_setFld (w : Word) (hi lo v k : Nat) :
    (setFld w hi lo v).getLsbD k =
      if k < 48 ∧ lo ≤ k ∧ k < hi + 1 then v.testBit (k - lo) else w.getLsbD k := by
  simp only [setFld, BitVec.getLsbD_or, BitVec.getLsbD_and, BitVec.getLsbD_not, getLsbD_fieldMask, BitVec.getLsbD_ofNat,
    Nat.testBit_shiftLeft]
  by_cases h1 : k < 48
  · by_cases h2 : lo ≤ k <;> by_cases h3 : k < hi + 1 <;> simp [h1, h2, h3]
  · have : w.getLsbD k = false := BitVec.getLsbD_of_ge w k (by omega)
    simp [h1, this]

/-- A field read after it was written. -/
theorem fld_setFld_same (w : Word) {hi lo : Nat} (v : Nat) (h : lo ≤ hi) (h' : hi < 48) :
    fld (setFld w hi lo v) hi lo = v % 2 ^ (hi + 1 - lo) := by
  apply Nat.eq_of_testBit_eq
  intro j
  rw [testBit_fld, getLsbD_setFld, Nat.testBit_mod_two_pow]
  by_cases hj : j < hi + 1 - lo
  · rw [if_pos ⟨by omega, by omega, by omega⟩]
    simp [hj]
  · simp [hj]

/-- A field read after one beside it was written. -/
theorem fld_setFld_disj (w : Word) {hi lo hi' lo' : Nat} (v : Nat) (h : hi < lo' ∨ hi' < lo) :
    fld (setFld w hi lo v) hi' lo' = fld w hi' lo' := by
  apply Nat.eq_of_testBit_eq
  intro j
  rw [testBit_fld, testBit_fld, getLsbD_setFld]
  by_cases hj : j < hi' + 1 - lo'
  · rw [if_neg (by omega)]
  · simp [hj]

/-- A bit read after it was written. -/
theorem bit_setBit_same (w : Word) {i : Nat} (b : Bool) (h : i < 48) : bit (setBit w i b) i = b := by
  simp only [bit, setBit, getLsbD_setFld]
  rw [if_pos ⟨h, by omega, by omega⟩]
  cases b <;> simp

/-- A bit read after another bit was written. -/
theorem bit_setBit_ne (w : Word) {i j : Nat} (b : Bool) (h : i ≠ j) : bit (setBit w i b) j = bit w j := by
  simp only [bit, setBit, getLsbD_setFld]
  rw [if_neg (by omega)]

/-- A bit read after a field that it does not lie in was written. -/
theorem bit_setFld_disj (w : Word) {hi lo j : Nat} (v : Nat) (h : j < lo ∨ hi < j) : bit (setFld w hi lo v) j = bit w j := by
  simp only [bit, getLsbD_setFld]
  rw [if_neg (by omega)]

/-- A field read after a bit outside it was written. -/
theorem fld_setBit_disj (w : Word) {i hi lo : Nat} (b : Bool) (h : i < lo ∨ hi < i) : fld (setBit w i b) hi lo = fld w hi lo :=
  fld_setFld_disj w _ (by omega)

/-- A bit read as a field. -/
theorem fld_one (w : Word) (i : Nat) : fld w i i = (bit w i).toNat := by
  have h : i + 1 - i = 1 := by omega
  rcases Nat.mod_two_eq_zero_or_one (w.toNat / 2 ^ i) with e | e <;>
    simp [fld, bit, BitVec.getLsbD, Nat.testBit_eq_decide_div_mod_eq, Nat.shiftRight_eq_div_pow, h, e]

/-- A field is smaller than its width allows. -/
theorem fld_lt (w : Word) (hi lo : Nat) : fld w hi lo < 2 ^ (hi + 1 - lo) := Nat.mod_lt _ (by positivity)

end Sys2Proof.Machine
end

