-- ==== Sys2Proof/Laws/State.lean ====
section
/-! SUPPORT. One lemma for each part of the block that each of the small updates leaves alone. -/

namespace Sys2Proof.Machine

@[simp] theorem Dev.wr_now (d : Dev) (r : Reg) (i : Nat) (v : Word) : (d.wr r i v).now = d.now := rfl
@[simp] theorem Dev.wr_domains (d : Dev) (r : Reg) (i : Nat) (v : Word) : (d.wr r i v).domains = d.domains := rfl
@[simp] theorem Dev.wr_freeIdx (d : Dev) (r : Reg) (i : Nat) (v : Word) : (d.wr r i v).freeIdx = d.freeIdx := rfl
@[simp] theorem Dev.wr_spr (d : Dev) (r : Reg) (i : Nat) (v : Word) : (d.wr r i v).spr = d.spr := rfl
@[simp] theorem Dev.wr_fio (d : Dev) (r : Reg) (i : Nat) (v : Word) : (d.wr r i v).fio = d.fio := rfl
@[simp] theorem Dev.wr_evc (d : Dev) (r : Reg) (i : Nat) (v : Word) : (d.wr r i v).evc = d.evc := rfl
@[simp] theorem Dev.wr_wev (d : Dev) (r : Reg) (i : Nat) (v : Word) : (d.wr r i v).wev = d.wev := rfl
@[simp] theorem Dev.wr_sram (d : Dev) (r : Reg) (i : Nat) (v : Word) : (d.wr r i v).sram = d.sram := rfl
@[simp] theorem Dev.wr_hbm (d : Dev) (r : Reg) (i : Nat) (v : Word) : (d.wr r i v).hbm = d.hbm := rfl
@[simp] theorem Dev.wr_hbc (d : Dev) (r : Reg) (i : Nat) (v : Word) : (d.wr r i v).hbc = d.hbc := rfl
@[simp] theorem Dev.wr_ghd (d : Dev) (r : Reg) (i : Nat) (v : Word) : (d.wr r i v).ghd = d.ghd := rfl
@[simp] theorem Dev.wr_owners (d : Dev) (r : Reg) (i : Nat) (v : Word) : (d.wr r i v).owners = d.owners := rfl
@[simp] theorem Dev.wr_cxi (d : Dev) (r : Reg) (i : Nat) (v : Word) : (d.wr r i v).cxi = d.cxi := rfl
@[simp] theorem Dev.wr_hlk (d : Dev) (r : Reg) (i : Nat) (v : Word) : (d.wr r i v).hlk = d.hlk := rfl
@[simp] theorem Dev.wr_commit (d : Dev) (r : Reg) (i : Nat) (v : Word) : (d.wr r i v).commit = d.commit := rfl
@[simp] theorem Dev.wr_dict (d : Dev) (r : Reg) (i : Nat) (v : Word) : (d.wr r i v).dict = d.dict := rfl
@[simp] theorem Dev.wr_tfb (d : Dev) (r : Reg) (i : Nat) (v : Word) : (d.wr r i v).tfb = d.tfb := rfl
@[simp] theorem Dev.wr_chm (d : Dev) (r : Reg) (i : Nat) (v : Word) : (d.wr r i v).chm = d.chm := rfl
@[simp] theorem Dev.wr_cex (d : Dev) (r : Reg) (i : Nat) (v : Word) : (d.wr r i v).cex = d.cex := rfl
@[simp] theorem Dev.wr_graze (d : Dev) (r : Reg) (i : Nat) (v : Word) : (d.wr r i v).graze = d.graze := rfl
@[simp] theorem Dev.wr_tmv (d : Dev) (r : Reg) (i : Nat) (v : Word) : (d.wr r i v).tmv = d.tmv := rfl
@[simp] theorem Dev.wr_hif (d : Dev) (r : Reg) (i : Nat) (v : Word) : (d.wr r i v).hif = d.hif := rfl
@[simp] theorem Dev.wr_ibx (d : Dev) (r : Reg) (i : Nat) (v : Word) : (d.wr r i v).ibx = d.ibx := rfl
@[simp] theorem Dev.wr_procs (d : Dev) (r : Reg) (i : Nat) (v : Word) : (d.wr r i v).procs = d.procs := rfl
@[simp] theorem Dev.wr_regHist (d : Dev) (r : Reg) (i : Nat) (v : Word) : (d.wr r i v).regHist = d.regHist := rfl
@[simp] theorem Dev.wr_reply (d : Dev) (r : Reg) (i : Nat) (v : Word) : (d.wr r i v).reply = d.reply := rfl
@[simp] theorem Dev.wr_outbox (d : Dev) (r : Reg) (i : Nat) (v : Word) : (d.wr r i v).outbox = d.outbox := rfl

@[simp] theorem Dev.setAxis_now (d : Dev) (a : Nat) (x : Axis) : (d.setAxis a x).now = d.now := rfl
@[simp] theorem Dev.setAxis_regs (d : Dev) (a : Nat) (x : Axis) : (d.setAxis a x).regs = d.regs := rfl
@[simp] theorem Dev.setAxis_domains (d : Dev) (a : Nat) (x : Axis) : (d.setAxis a x).domains = d.domains := rfl
@[simp] theorem Dev.setAxis_freeIdx (d : Dev) (a : Nat) (x : Axis) : (d.setAxis a x).freeIdx = d.freeIdx := rfl
@[simp] theorem Dev.setAxis_fio (d : Dev) (a : Nat) (x : Axis) : (d.setAxis a x).fio = d.fio := rfl
@[simp] theorem Dev.setAxis_evc (d : Dev) (a : Nat) (x : Axis) : (d.setAxis a x).evc = d.evc := rfl
@[simp] theorem Dev.setAxis_wev (d : Dev) (a : Nat) (x : Axis) : (d.setAxis a x).wev = d.wev := rfl
@[simp] theorem Dev.setAxis_sram (d : Dev) (a : Nat) (x : Axis) : (d.setAxis a x).sram = d.sram := rfl
@[simp] theorem Dev.setAxis_hbm (d : Dev) (a : Nat) (x : Axis) : (d.setAxis a x).hbm = d.hbm := rfl
@[simp] theorem Dev.setAxis_hbc (d : Dev) (a : Nat) (x : Axis) : (d.setAxis a x).hbc = d.hbc := rfl
@[simp] theorem Dev.setAxis_ghd (d : Dev) (a : Nat) (x : Axis) : (d.setAxis a x).ghd = d.ghd := rfl
@[simp] theorem Dev.setAxis_owners (d : Dev) (a : Nat) (x : Axis) : (d.setAxis a x).owners = d.owners := rfl
@[simp] theorem Dev.setAxis_cxi (d : Dev) (a : Nat) (x : Axis) : (d.setAxis a x).cxi = d.cxi := rfl
@[simp] theorem Dev.setAxis_hlk (d : Dev) (a : Nat) (x : Axis) : (d.setAxis a x).hlk = d.hlk := rfl
@[simp] theorem Dev.setAxis_commit (d : Dev) (a : Nat) (x : Axis) : (d.setAxis a x).commit = d.commit := rfl
@[simp] theorem Dev.setAxis_dict (d : Dev) (a : Nat) (x : Axis) : (d.setAxis a x).dict = d.dict := rfl
@[simp] theorem Dev.setAxis_tfb (d : Dev) (a : Nat) (x : Axis) : (d.setAxis a x).tfb = d.tfb := rfl
@[simp] theorem Dev.setAxis_chm (d : Dev) (a : Nat) (x : Axis) : (d.setAxis a x).chm = d.chm := rfl
@[simp] theorem Dev.setAxis_cex (d : Dev) (a : Nat) (x : Axis) : (d.setAxis a x).cex = d.cex := rfl
@[simp] theorem Dev.setAxis_graze (d : Dev) (a : Nat) (x : Axis) : (d.setAxis a x).graze = d.graze := rfl
@[simp] theorem Dev.setAxis_tmv (d : Dev) (a : Nat) (x : Axis) : (d.setAxis a x).tmv = d.tmv := rfl
@[simp] theorem Dev.setAxis_hif (d : Dev) (a : Nat) (x : Axis) : (d.setAxis a x).hif = d.hif := rfl
@[simp] theorem Dev.setAxis_ibx (d : Dev) (a : Nat) (x : Axis) : (d.setAxis a x).ibx = d.ibx := rfl
@[simp] theorem Dev.setAxis_procs (d : Dev) (a : Nat) (x : Axis) : (d.setAxis a x).procs = d.procs := rfl
@[simp] theorem Dev.setAxis_regHist (d : Dev) (a : Nat) (x : Axis) : (d.setAxis a x).regHist = d.regHist := rfl
@[simp] theorem Dev.setAxis_reply (d : Dev) (a : Nat) (x : Axis) : (d.setAxis a x).reply = d.reply := rfl
@[simp] theorem Dev.setAxis_outbox (d : Dev) (a : Nat) (x : Axis) : (d.setAxis a x).outbox = d.outbox := rfl

@[simp] theorem Dev.setGen_now (d : Dev) (g : Nat) (x : Gen) : (d.setGen g x).now = d.now := rfl
@[simp] theorem Dev.setGen_regs (d : Dev) (g : Nat) (x : Gen) : (d.setGen g x).regs = d.regs := rfl
@[simp] theorem Dev.setGen_domains (d : Dev) (g : Nat) (x : Gen) : (d.setGen g x).domains = d.domains := rfl
@[simp] theorem Dev.setGen_freeIdx (d : Dev) (g : Nat) (x : Gen) : (d.setGen g x).freeIdx = d.freeIdx := rfl
@[simp] theorem Dev.setGen_fio (d : Dev) (g : Nat) (x : Gen) : (d.setGen g x).fio = d.fio := rfl
@[simp] theorem Dev.setGen_evc (d : Dev) (g : Nat) (x : Gen) : (d.setGen g x).evc = d.evc := rfl
@[simp] theorem Dev.setGen_wev (d : Dev) (g : Nat) (x : Gen) : (d.setGen g x).wev = d.wev := rfl
@[simp] theorem Dev.setGen_sram (d : Dev) (g : Nat) (x : Gen) : (d.setGen g x).sram = d.sram := rfl
@[simp] theorem Dev.setGen_hbm (d : Dev) (g : Nat) (x : Gen) : (d.setGen g x).hbm = d.hbm := rfl
@[simp] theorem Dev.setGen_hbc (d : Dev) (g : Nat) (x : Gen) : (d.setGen g x).hbc = d.hbc := rfl
@[simp] theorem Dev.setGen_ghd (d : Dev) (g : Nat) (x : Gen) : (d.setGen g x).ghd = d.ghd := rfl
@[simp] theorem Dev.setGen_owners (d : Dev) (g : Nat) (x : Gen) : (d.setGen g x).owners = d.owners := rfl
@[simp] theorem Dev.setGen_cxi (d : Dev) (g : Nat) (x : Gen) : (d.setGen g x).cxi = d.cxi := rfl
@[simp] theorem Dev.setGen_hlk (d : Dev) (g : Nat) (x : Gen) : (d.setGen g x).hlk = d.hlk := rfl
@[simp] theorem Dev.setGen_commit (d : Dev) (g : Nat) (x : Gen) : (d.setGen g x).commit = d.commit := rfl
@[simp] theorem Dev.setGen_dict (d : Dev) (g : Nat) (x : Gen) : (d.setGen g x).dict = d.dict := rfl
@[simp] theorem Dev.setGen_tfb (d : Dev) (g : Nat) (x : Gen) : (d.setGen g x).tfb = d.tfb := rfl
@[simp] theorem Dev.setGen_chm (d : Dev) (g : Nat) (x : Gen) : (d.setGen g x).chm = d.chm := rfl
@[simp] theorem Dev.setGen_cex (d : Dev) (g : Nat) (x : Gen) : (d.setGen g x).cex = d.cex := rfl
@[simp] theorem Dev.setGen_graze (d : Dev) (g : Nat) (x : Gen) : (d.setGen g x).graze = d.graze := rfl
@[simp] theorem Dev.setGen_tmv (d : Dev) (g : Nat) (x : Gen) : (d.setGen g x).tmv = d.tmv := rfl
@[simp] theorem Dev.setGen_hif (d : Dev) (g : Nat) (x : Gen) : (d.setGen g x).hif = d.hif := rfl
@[simp] theorem Dev.setGen_ibx (d : Dev) (g : Nat) (x : Gen) : (d.setGen g x).ibx = d.ibx := rfl
@[simp] theorem Dev.setGen_procs (d : Dev) (g : Nat) (x : Gen) : (d.setGen g x).procs = d.procs := rfl
@[simp] theorem Dev.setGen_regHist (d : Dev) (g : Nat) (x : Gen) : (d.setGen g x).regHist = d.regHist := rfl
@[simp] theorem Dev.setGen_reply (d : Dev) (g : Nat) (x : Gen) : (d.setGen g x).reply = d.reply := rfl
@[simp] theorem Dev.setGen_outbox (d : Dev) (g : Nat) (x : Gen) : (d.setGen g x).outbox = d.outbox := rfl

@[simp] theorem Dev.setEncIn_now (d : Dev) (n : Nat) (e : EncIn) : (d.setEncIn n e).now = d.now := rfl
@[simp] theorem Dev.setEncIn_regs (d : Dev) (n : Nat) (e : EncIn) : (d.setEncIn n e).regs = d.regs := rfl
@[simp] theorem Dev.setEncIn_domains (d : Dev) (n : Nat) (e : EncIn) : (d.setEncIn n e).domains = d.domains := rfl
@[simp] theorem Dev.setEncIn_freeIdx (d : Dev) (n : Nat) (e : EncIn) : (d.setEncIn n e).freeIdx = d.freeIdx := rfl
@[simp] theorem Dev.setEncIn_fio (d : Dev) (n : Nat) (e : EncIn) : (d.setEncIn n e).fio = d.fio := rfl
@[simp] theorem Dev.setEncIn_evc (d : Dev) (n : Nat) (e : EncIn) : (d.setEncIn n e).evc = d.evc := rfl
@[simp] theorem Dev.setEncIn_wev (d : Dev) (n : Nat) (e : EncIn) : (d.setEncIn n e).wev = d.wev := rfl
@[simp] theorem Dev.setEncIn_sram (d : Dev) (n : Nat) (e : EncIn) : (d.setEncIn n e).sram = d.sram := rfl
@[simp] theorem Dev.setEncIn_hbm (d : Dev) (n : Nat) (e : EncIn) : (d.setEncIn n e).hbm = d.hbm := rfl
@[simp] theorem Dev.setEncIn_hbc (d : Dev) (n : Nat) (e : EncIn) : (d.setEncIn n e).hbc = d.hbc := rfl
@[simp] theorem Dev.setEncIn_ghd (d : Dev) (n : Nat) (e : EncIn) : (d.setEncIn n e).ghd = d.ghd := rfl
@[simp] theorem Dev.setEncIn_owners (d : Dev) (n : Nat) (e : EncIn) : (d.setEncIn n e).owners = d.owners := rfl
@[simp] theorem Dev.setEncIn_cxi (d : Dev) (n : Nat) (e : EncIn) : (d.setEncIn n e).cxi = d.cxi := rfl
@[simp] theorem Dev.setEncIn_hlk (d : Dev) (n : Nat) (e : EncIn) : (d.setEncIn n e).hlk = d.hlk := rfl
@[simp] theorem Dev.setEncIn_commit (d : Dev) (n : Nat) (e : EncIn) : (d.setEncIn n e).commit = d.commit := rfl
@[simp] theorem Dev.setEncIn_dict (d : Dev) (n : Nat) (e : EncIn) : (d.setEncIn n e).dict = d.dict := rfl
@[simp] theorem Dev.setEncIn_tfb (d : Dev) (n : Nat) (e : EncIn) : (d.setEncIn n e).tfb = d.tfb := rfl
@[simp] theorem Dev.setEncIn_chm (d : Dev) (n : Nat) (e : EncIn) : (d.setEncIn n e).chm = d.chm := rfl
@[simp] theorem Dev.setEncIn_cex (d : Dev) (n : Nat) (e : EncIn) : (d.setEncIn n e).cex = d.cex := rfl
@[simp] theorem Dev.setEncIn_graze (d : Dev) (n : Nat) (e : EncIn) : (d.setEncIn n e).graze = d.graze := rfl
@[simp] theorem Dev.setEncIn_tmv (d : Dev) (n : Nat) (e : EncIn) : (d.setEncIn n e).tmv = d.tmv := rfl
@[simp] theorem Dev.setEncIn_hif (d : Dev) (n : Nat) (e : EncIn) : (d.setEncIn n e).hif = d.hif := rfl
@[simp] theorem Dev.setEncIn_ibx (d : Dev) (n : Nat) (e : EncIn) : (d.setEncIn n e).ibx = d.ibx := rfl
@[simp] theorem Dev.setEncIn_procs (d : Dev) (n : Nat) (e : EncIn) : (d.setEncIn n e).procs = d.procs := rfl
@[simp] theorem Dev.setEncIn_regHist (d : Dev) (n : Nat) (e : EncIn) : (d.setEncIn n e).regHist = d.regHist := rfl
@[simp] theorem Dev.setEncIn_reply (d : Dev) (n : Nat) (e : EncIn) : (d.setEncIn n e).reply = d.reply := rfl
@[simp] theorem Dev.setEncIn_outbox (d : Dev) (n : Nat) (e : EncIn) : (d.setEncIn n e).outbox = d.outbox := rfl

@[simp] theorem Dev.setActQueue_now (d : Dev) (k : Nat) (l : List ActEntry) : (d.setActQueue k l).now = d.now := rfl
@[simp] theorem Dev.setActQueue_regs (d : Dev) (k : Nat) (l : List ActEntry) : (d.setActQueue k l).regs = d.regs := rfl
@[simp] theorem Dev.setActQueue_domains (d : Dev) (k : Nat) (l : List ActEntry) : (d.setActQueue k l).domains = d.domains := rfl
@[simp] theorem Dev.setActQueue_freeIdx (d : Dev) (k : Nat) (l : List ActEntry) : (d.setActQueue k l).freeIdx = d.freeIdx := rfl
@[simp] theorem Dev.setActQueue_fio (d : Dev) (k : Nat) (l : List ActEntry) : (d.setActQueue k l).fio = d.fio := rfl
@[simp] theorem Dev.setActQueue_evc (d : Dev) (k : Nat) (l : List ActEntry) : (d.setActQueue k l).evc = d.evc := rfl
@[simp] theorem Dev.setActQueue_wev (d : Dev) (k : Nat) (l : List ActEntry) : (d.setActQueue k l).wev = d.wev := rfl
@[simp] theorem Dev.setActQueue_sram (d : Dev) (k : Nat) (l : List ActEntry) : (d.setActQueue k l).sram = d.sram := rfl
@[simp] theorem Dev.setActQueue_hbm (d : Dev) (k : Nat) (l : List ActEntry) : (d.setActQueue k l).hbm = d.hbm := rfl
@[simp] theorem Dev.setActQueue_hbc (d : Dev) (k : Nat) (l : List ActEntry) : (d.setActQueue k l).hbc = d.hbc := rfl
@[simp] theorem Dev.setActQueue_ghd (d : Dev) (k : Nat) (l : List ActEntry) : (d.setActQueue k l).ghd = d.ghd := rfl
@[simp] theorem Dev.setActQueue_owners (d : Dev) (k : Nat) (l : List ActEntry) : (d.setActQueue k l).owners = d.owners := rfl
@[simp] theorem Dev.setActQueue_cxi (d : Dev) (k : Nat) (l : List ActEntry) : (d.setActQueue k l).cxi = d.cxi := rfl
@[simp] theorem Dev.setActQueue_hlk (d : Dev) (k : Nat) (l : List ActEntry) : (d.setActQueue k l).hlk = d.hlk := rfl
@[simp] theorem Dev.setActQueue_commit (d : Dev) (k : Nat) (l : List ActEntry) : (d.setActQueue k l).commit = d.commit := rfl
@[simp] theorem Dev.setActQueue_dict (d : Dev) (k : Nat) (l : List ActEntry) : (d.setActQueue k l).dict = d.dict := rfl
@[simp] theorem Dev.setActQueue_tfb (d : Dev) (k : Nat) (l : List ActEntry) : (d.setActQueue k l).tfb = d.tfb := rfl
@[simp] theorem Dev.setActQueue_chm (d : Dev) (k : Nat) (l : List ActEntry) : (d.setActQueue k l).chm = d.chm := rfl
@[simp] theorem Dev.setActQueue_cex (d : Dev) (k : Nat) (l : List ActEntry) : (d.setActQueue k l).cex = d.cex := rfl
@[simp] theorem Dev.setActQueue_graze (d : Dev) (k : Nat) (l : List ActEntry) : (d.setActQueue k l).graze = d.graze := rfl
@[simp] theorem Dev.setActQueue_tmv (d : Dev) (k : Nat) (l : List ActEntry) : (d.setActQueue k l).tmv = d.tmv := rfl
@[simp] theorem Dev.setActQueue_hif (d : Dev) (k : Nat) (l : List ActEntry) : (d.setActQueue k l).hif = d.hif := rfl
@[simp] theorem Dev.setActQueue_ibx (d : Dev) (k : Nat) (l : List ActEntry) : (d.setActQueue k l).ibx = d.ibx := rfl
@[simp] theorem Dev.setActQueue_procs (d : Dev) (k : Nat) (l : List ActEntry) : (d.setActQueue k l).procs = d.procs := rfl
@[simp] theorem Dev.setActQueue_regHist (d : Dev) (k : Nat) (l : List ActEntry) : (d.setActQueue k l).regHist = d.regHist := rfl
@[simp] theorem Dev.setActQueue_reply (d : Dev) (k : Nat) (l : List ActEntry) : (d.setActQueue k l).reply = d.reply := rfl
@[simp] theorem Dev.setActQueue_outbox (d : Dev) (k : Nat) (l : List ActEntry) : (d.setActQueue k l).outbox = d.outbox := rfl

@[simp] theorem Dev.setSource_now (d : Dev) (i : Nat) (s : Source) : (d.setSource i s).now = d.now := rfl
@[simp] theorem Dev.setSource_regs (d : Dev) (i : Nat) (s : Source) : (d.setSource i s).regs = d.regs := rfl
@[simp] theorem Dev.setSource_domains (d : Dev) (i : Nat) (s : Source) : (d.setSource i s).domains = d.domains := rfl
@[simp] theorem Dev.setSource_freeIdx (d : Dev) (i : Nat) (s : Source) : (d.setSource i s).freeIdx = d.freeIdx := rfl
@[simp] theorem Dev.setSource_spr (d : Dev) (i : Nat) (s : Source) : (d.setSource i s).spr = d.spr := rfl
@[simp] theorem Dev.setSource_fio (d : Dev) (i : Nat) (s : Source) : (d.setSource i s).fio = d.fio := rfl
@[simp] theorem Dev.setSource_wev (d : Dev) (i : Nat) (s : Source) : (d.setSource i s).wev = d.wev := rfl
@[simp] theorem Dev.setSource_sram (d : Dev) (i : Nat) (s : Source) : (d.setSource i s).sram = d.sram := rfl
@[simp] theorem Dev.setSource_hbm (d : Dev) (i : Nat) (s : Source) : (d.setSource i s).hbm = d.hbm := rfl
@[simp] theorem Dev.setSource_hbc (d : Dev) (i : Nat) (s : Source) : (d.setSource i s).hbc = d.hbc := rfl
@[simp] theorem Dev.setSource_ghd (d : Dev) (i : Nat) (s : Source) : (d.setSource i s).ghd = d.ghd := rfl
@[simp] theorem Dev.setSource_owners (d : Dev) (i : Nat) (s : Source) : (d.setSource i s).owners = d.owners := rfl
@[simp] theorem Dev.setSource_cxi (d : Dev) (i : Nat) (s : Source) : (d.setSource i s).cxi = d.cxi := rfl
@[simp] theorem Dev.setSource_hlk (d : Dev) (i : Nat) (s : Source) : (d.setSource i s).hlk = d.hlk := rfl
@[simp] theorem Dev.setSource_commit (d : Dev) (i : Nat) (s : Source) : (d.setSource i s).commit = d.commit := rfl
@[simp] theorem Dev.setSource_dict (d : Dev) (i : Nat) (s : Source) : (d.setSource i s).dict = d.dict := rfl
@[simp] theorem Dev.setSource_tfb (d : Dev) (i : Nat) (s : Source) : (d.setSource i s).tfb = d.tfb := rfl
@[simp] theorem Dev.setSource_chm (d : Dev) (i : Nat) (s : Source) : (d.setSource i s).chm = d.chm := rfl
@[simp] theorem Dev.setSource_cex (d : Dev) (i : Nat) (s : Source) : (d.setSource i s).cex = d.cex := rfl
@[simp] theorem Dev.setSource_graze (d : Dev) (i : Nat) (s : Source) : (d.setSource i s).graze = d.graze := rfl
@[simp] theorem Dev.setSource_tmv (d : Dev) (i : Nat) (s : Source) : (d.setSource i s).tmv = d.tmv := rfl
@[simp] theorem Dev.setSource_hif (d : Dev) (i : Nat) (s : Source) : (d.setSource i s).hif = d.hif := rfl
@[simp] theorem Dev.setSource_ibx (d : Dev) (i : Nat) (s : Source) : (d.setSource i s).ibx = d.ibx := rfl
@[simp] theorem Dev.setSource_procs (d : Dev) (i : Nat) (s : Source) : (d.setSource i s).procs = d.procs := rfl
@[simp] theorem Dev.setSource_regHist (d : Dev) (i : Nat) (s : Source) : (d.setSource i s).regHist = d.regHist := rfl
@[simp] theorem Dev.setSource_reply (d : Dev) (i : Nat) (s : Source) : (d.setSource i s).reply = d.reply := rfl
@[simp] theorem Dev.setSource_outbox (d : Dev) (i : Nat) (s : Source) : (d.setSource i s).outbox = d.outbox := rfl

@[simp] theorem Dev.latchWaits_now (d : Dev) (i : Nat) : (d.latchWaits i).now = d.now := rfl
@[simp] theorem Dev.latchWaits_regs (d : Dev) (i : Nat) : (d.latchWaits i).regs = d.regs := rfl
@[simp] theorem Dev.latchWaits_domains (d : Dev) (i : Nat) : (d.latchWaits i).domains = d.domains := rfl
@[simp] theorem Dev.latchWaits_freeIdx (d : Dev) (i : Nat) : (d.latchWaits i).freeIdx = d.freeIdx := rfl
@[simp] theorem Dev.latchWaits_spr (d : Dev) (i : Nat) : (d.latchWaits i).spr = d.spr := rfl
@[simp] theorem Dev.latchWaits_fio (d : Dev) (i : Nat) : (d.latchWaits i).fio = d.fio := rfl
@[simp] theorem Dev.latchWaits_evc (d : Dev) (i : Nat) : (d.latchWaits i).evc = d.evc := rfl
@[simp] theorem Dev.latchWaits_sram (d : Dev) (i : Nat) : (d.latchWaits i).sram = d.sram := rfl
@[simp] theorem Dev.latchWaits_hbm (d : Dev) (i : Nat) : (d.latchWaits i).hbm = d.hbm := rfl
@[simp] theorem Dev.latchWaits_hbc (d : Dev) (i : Nat) : (d.latchWaits i).hbc = d.hbc := rfl
@[simp] theorem Dev.latchWaits_ghd (d : Dev) (i : Nat) : (d.latchWaits i).ghd = d.ghd := rfl
@[simp] theorem Dev.latchWaits_owners (d : Dev) (i : Nat) : (d.latchWaits i).owners = d.owners := rfl
@[simp] theorem Dev.latchWaits_cxi (d : Dev) (i : Nat) : (d.latchWaits i).cxi = d.cxi := rfl
@[simp] theorem Dev.latchWaits_hlk (d : Dev) (i : Nat) : (d.latchWaits i).hlk = d.hlk := rfl
@[simp] theorem Dev.latchWaits_commit (d : Dev) (i : Nat) : (d.latchWaits i).commit = d.commit := rfl
@[simp] theorem Dev.latchWaits_dict (d : Dev) (i : Nat) : (d.latchWaits i).dict = d.dict := rfl
@[simp] theorem Dev.latchWaits_tfb (d : Dev) (i : Nat) : (d.latchWaits i).tfb = d.tfb := rfl
@[simp] theorem Dev.latchWaits_chm (d : Dev) (i : Nat) : (d.latchWaits i).chm = d.chm := rfl
@[simp] theorem Dev.latchWaits_cex (d : Dev) (i : Nat) : (d.latchWaits i).cex = d.cex := rfl
@[simp] theorem Dev.latchWaits_graze (d : Dev) (i : Nat) : (d.latchWaits i).graze = d.graze := rfl
@[simp] theorem Dev.latchWaits_tmv (d : Dev) (i : Nat) : (d.latchWaits i).tmv = d.tmv := rfl
@[simp] theorem Dev.latchWaits_hif (d : Dev) (i : Nat) : (d.latchWaits i).hif = d.hif := rfl
@[simp] theorem Dev.latchWaits_ibx (d : Dev) (i : Nat) : (d.latchWaits i).ibx = d.ibx := rfl
@[simp] theorem Dev.latchWaits_procs (d : Dev) (i : Nat) : (d.latchWaits i).procs = d.procs := rfl
@[simp] theorem Dev.latchWaits_regHist (d : Dev) (i : Nat) : (d.latchWaits i).regHist = d.regHist := rfl
@[simp] theorem Dev.latchWaits_reply (d : Dev) (i : Nat) : (d.latchWaits i).reply = d.reply := rfl
@[simp] theorem Dev.latchWaits_outbox (d : Dev) (i : Nat) : (d.latchWaits i).outbox = d.outbox := rfl

@[simp] theorem Dev.setOutDrv_now (d : Dev) (x : Nat) (o : OutDrv) : (d.setOutDrv x o).now = d.now := rfl
@[simp] theorem Dev.setOutDrv_regs (d : Dev) (x : Nat) (o : OutDrv) : (d.setOutDrv x o).regs = d.regs := rfl
@[simp] theorem Dev.setOutDrv_domains (d : Dev) (x : Nat) (o : OutDrv) : (d.setOutDrv x o).domains = d.domains := rfl
@[simp] theorem Dev.setOutDrv_freeIdx (d : Dev) (x : Nat) (o : OutDrv) : (d.setOutDrv x o).freeIdx = d.freeIdx := rfl
@[simp] theorem Dev.setOutDrv_spr (d : Dev) (x : Nat) (o : OutDrv) : (d.setOutDrv x o).spr = d.spr := rfl
@[simp] theorem Dev.setOutDrv_evc (d : Dev) (x : Nat) (o : OutDrv) : (d.setOutDrv x o).evc = d.evc := rfl
@[simp] theorem Dev.setOutDrv_wev (d : Dev) (x : Nat) (o : OutDrv) : (d.setOutDrv x o).wev = d.wev := rfl
@[simp] theorem Dev.setOutDrv_sram (d : Dev) (x : Nat) (o : OutDrv) : (d.setOutDrv x o).sram = d.sram := rfl
@[simp] theorem Dev.setOutDrv_hbm (d : Dev) (x : Nat) (o : OutDrv) : (d.setOutDrv x o).hbm = d.hbm := rfl
@[simp] theorem Dev.setOutDrv_hbc (d : Dev) (x : Nat) (o : OutDrv) : (d.setOutDrv x o).hbc = d.hbc := rfl
@[simp] theorem Dev.setOutDrv_ghd (d : Dev) (x : Nat) (o : OutDrv) : (d.setOutDrv x o).ghd = d.ghd := rfl
@[simp] theorem Dev.setOutDrv_owners (d : Dev) (x : Nat) (o : OutDrv) : (d.setOutDrv x o).owners = d.owners := rfl
@[simp] theorem Dev.setOutDrv_cxi (d : Dev) (x : Nat) (o : OutDrv) : (d.setOutDrv x o).cxi = d.cxi := rfl
@[simp] theorem Dev.setOutDrv_hlk (d : Dev) (x : Nat) (o : OutDrv) : (d.setOutDrv x o).hlk = d.hlk := rfl
@[simp] theorem Dev.setOutDrv_commit (d : Dev) (x : Nat) (o : OutDrv) : (d.setOutDrv x o).commit = d.commit := rfl
@[simp] theorem Dev.setOutDrv_dict (d : Dev) (x : Nat) (o : OutDrv) : (d.setOutDrv x o).dict = d.dict := rfl
@[simp] theorem Dev.setOutDrv_tfb (d : Dev) (x : Nat) (o : OutDrv) : (d.setOutDrv x o).tfb = d.tfb := rfl
@[simp] theorem Dev.setOutDrv_chm (d : Dev) (x : Nat) (o : OutDrv) : (d.setOutDrv x o).chm = d.chm := rfl
@[simp] theorem Dev.setOutDrv_cex (d : Dev) (x : Nat) (o : OutDrv) : (d.setOutDrv x o).cex = d.cex := rfl
@[simp] theorem Dev.setOutDrv_graze (d : Dev) (x : Nat) (o : OutDrv) : (d.setOutDrv x o).graze = d.graze := rfl
@[simp] theorem Dev.setOutDrv_tmv (d : Dev) (x : Nat) (o : OutDrv) : (d.setOutDrv x o).tmv = d.tmv := rfl
@[simp] theorem Dev.setOutDrv_hif (d : Dev) (x : Nat) (o : OutDrv) : (d.setOutDrv x o).hif = d.hif := rfl
@[simp] theorem Dev.setOutDrv_ibx (d : Dev) (x : Nat) (o : OutDrv) : (d.setOutDrv x o).ibx = d.ibx := rfl
@[simp] theorem Dev.setOutDrv_procs (d : Dev) (x : Nat) (o : OutDrv) : (d.setOutDrv x o).procs = d.procs := rfl
@[simp] theorem Dev.setOutDrv_regHist (d : Dev) (x : Nat) (o : OutDrv) : (d.setOutDrv x o).regHist = d.regHist := rfl
@[simp] theorem Dev.setOutDrv_reply (d : Dev) (x : Nat) (o : OutDrv) : (d.setOutDrv x o).reply = d.reply := rfl
@[simp] theorem Dev.setOutDrv_outbox (d : Dev) (x : Nat) (o : OutDrv) : (d.setOutDrv x o).outbox = d.outbox := rfl

@[simp] theorem Dev.setFieldIn_now (d : Dev) (k : Nat) (f : FieldIn) : (d.setFieldIn k f).now = d.now := rfl
@[simp] theorem Dev.setFieldIn_regs (d : Dev) (k : Nat) (f : FieldIn) : (d.setFieldIn k f).regs = d.regs := rfl
@[simp] theorem Dev.setFieldIn_domains (d : Dev) (k : Nat) (f : FieldIn) : (d.setFieldIn k f).domains = d.domains := rfl
@[simp] theorem Dev.setFieldIn_freeIdx (d : Dev) (k : Nat) (f : FieldIn) : (d.setFieldIn k f).freeIdx = d.freeIdx := rfl
@[simp] theorem Dev.setFieldIn_spr (d : Dev) (k : Nat) (f : FieldIn) : (d.setFieldIn k f).spr = d.spr := rfl
@[simp] theorem Dev.setFieldIn_evc (d : Dev) (k : Nat) (f : FieldIn) : (d.setFieldIn k f).evc = d.evc := rfl
@[simp] theorem Dev.setFieldIn_wev (d : Dev) (k : Nat) (f : FieldIn) : (d.setFieldIn k f).wev = d.wev := rfl
@[simp] theorem Dev.setFieldIn_sram (d : Dev) (k : Nat) (f : FieldIn) : (d.setFieldIn k f).sram = d.sram := rfl
@[simp] theorem Dev.setFieldIn_hbm (d : Dev) (k : Nat) (f : FieldIn) : (d.setFieldIn k f).hbm = d.hbm := rfl
@[simp] theorem Dev.setFieldIn_hbc (d : Dev) (k : Nat) (f : FieldIn) : (d.setFieldIn k f).hbc = d.hbc := rfl
@[simp] theorem Dev.setFieldIn_ghd (d : Dev) (k : Nat) (f : FieldIn) : (d.setFieldIn k f).ghd = d.ghd := rfl
@[simp] theorem Dev.setFieldIn_owners (d : Dev) (k : Nat) (f : FieldIn) : (d.setFieldIn k f).owners = d.owners := rfl
@[simp] theorem Dev.setFieldIn_cxi (d : Dev) (k : Nat) (f : FieldIn) : (d.setFieldIn k f).cxi = d.cxi := rfl
@[simp] theorem Dev.setFieldIn_hlk (d : Dev) (k : Nat) (f : FieldIn) : (d.setFieldIn k f).hlk = d.hlk := rfl
@[simp] theorem Dev.setFieldIn_commit (d : Dev) (k : Nat) (f : FieldIn) : (d.setFieldIn k f).commit = d.commit := rfl
@[simp] theorem Dev.setFieldIn_dict (d : Dev) (k : Nat) (f : FieldIn) : (d.setFieldIn k f).dict = d.dict := rfl
@[simp] theorem Dev.setFieldIn_tfb (d : Dev) (k : Nat) (f : FieldIn) : (d.setFieldIn k f).tfb = d.tfb := rfl
@[simp] theorem Dev.setFieldIn_chm (d : Dev) (k : Nat) (f : FieldIn) : (d.setFieldIn k f).chm = d.chm := rfl
@[simp] theorem Dev.setFieldIn_cex (d : Dev) (k : Nat) (f : FieldIn) : (d.setFieldIn k f).cex = d.cex := rfl
@[simp] theorem Dev.setFieldIn_graze (d : Dev) (k : Nat) (f : FieldIn) : (d.setFieldIn k f).graze = d.graze := rfl
@[simp] theorem Dev.setFieldIn_tmv (d : Dev) (k : Nat) (f : FieldIn) : (d.setFieldIn k f).tmv = d.tmv := rfl
@[simp] theorem Dev.setFieldIn_hif (d : Dev) (k : Nat) (f : FieldIn) : (d.setFieldIn k f).hif = d.hif := rfl
@[simp] theorem Dev.setFieldIn_ibx (d : Dev) (k : Nat) (f : FieldIn) : (d.setFieldIn k f).ibx = d.ibx := rfl
@[simp] theorem Dev.setFieldIn_procs (d : Dev) (k : Nat) (f : FieldIn) : (d.setFieldIn k f).procs = d.procs := rfl
@[simp] theorem Dev.setFieldIn_regHist (d : Dev) (k : Nat) (f : FieldIn) : (d.setFieldIn k f).regHist = d.regHist := rfl
@[simp] theorem Dev.setFieldIn_reply (d : Dev) (k : Nat) (f : FieldIn) : (d.setFieldIn k f).reply = d.reply := rfl
@[simp] theorem Dev.setFieldIn_outbox (d : Dev) (k : Nat) (f : FieldIn) : (d.setFieldIn k f).outbox = d.outbox := rfl

@[simp] theorem Dev.putCell_now (d : Dev) (a : Nat) (m : MemWord) : (d.putCell a m).now = d.now := rfl
@[simp] theorem Dev.putCell_regs (d : Dev) (a : Nat) (m : MemWord) : (d.putCell a m).regs = d.regs := rfl
@[simp] theorem Dev.putCell_domains (d : Dev) (a : Nat) (m : MemWord) : (d.putCell a m).domains = d.domains := rfl
@[simp] theorem Dev.putCell_freeIdx (d : Dev) (a : Nat) (m : MemWord) : (d.putCell a m).freeIdx = d.freeIdx := rfl
@[simp] theorem Dev.putCell_spr (d : Dev) (a : Nat) (m : MemWord) : (d.putCell a m).spr = d.spr := rfl
@[simp] theorem Dev.putCell_fio (d : Dev) (a : Nat) (m : MemWord) : (d.putCell a m).fio = d.fio := rfl
@[simp] theorem Dev.putCell_evc (d : Dev) (a : Nat) (m : MemWord) : (d.putCell a m).evc = d.evc := rfl
@[simp] theorem Dev.putCell_wev (d : Dev) (a : Nat) (m : MemWord) : (d.putCell a m).wev = d.wev := rfl
@[simp] theorem Dev.putCell_hbm (d : Dev) (a : Nat) (m : MemWord) : (d.putCell a m).hbm = d.hbm := rfl
@[simp] theorem Dev.putCell_hbc (d : Dev) (a : Nat) (m : MemWord) : (d.putCell a m).hbc = d.hbc := rfl
@[simp] theorem Dev.putCell_ghd (d : Dev) (a : Nat) (m : MemWord) : (d.putCell a m).ghd = d.ghd := rfl
@[simp] theorem Dev.putCell_owners (d : Dev) (a : Nat) (m : MemWord) : (d.putCell a m).owners = d.owners := rfl
@[simp] theorem Dev.putCell_cxi (d : Dev) (a : Nat) (m : MemWord) : (d.putCell a m).cxi = d.cxi := rfl
@[simp] theorem Dev.putCell_hlk (d : Dev) (a : Nat) (m : MemWord) : (d.putCell a m).hlk = d.hlk := rfl
@[simp] theorem Dev.putCell_commit (d : Dev) (a : Nat) (m : MemWord) : (d.putCell a m).commit = d.commit := rfl
@[simp] theorem Dev.putCell_dict (d : Dev) (a : Nat) (m : MemWord) : (d.putCell a m).dict = d.dict := rfl
@[simp] theorem Dev.putCell_tfb (d : Dev) (a : Nat) (m : MemWord) : (d.putCell a m).tfb = d.tfb := rfl
@[simp] theorem Dev.putCell_chm (d : Dev) (a : Nat) (m : MemWord) : (d.putCell a m).chm = d.chm := rfl
@[simp] theorem Dev.putCell_cex (d : Dev) (a : Nat) (m : MemWord) : (d.putCell a m).cex = d.cex := rfl
@[simp] theorem Dev.putCell_graze (d : Dev) (a : Nat) (m : MemWord) : (d.putCell a m).graze = d.graze := rfl
@[simp] theorem Dev.putCell_tmv (d : Dev) (a : Nat) (m : MemWord) : (d.putCell a m).tmv = d.tmv := rfl
@[simp] theorem Dev.putCell_hif (d : Dev) (a : Nat) (m : MemWord) : (d.putCell a m).hif = d.hif := rfl
@[simp] theorem Dev.putCell_ibx (d : Dev) (a : Nat) (m : MemWord) : (d.putCell a m).ibx = d.ibx := rfl
@[simp] theorem Dev.putCell_procs (d : Dev) (a : Nat) (m : MemWord) : (d.putCell a m).procs = d.procs := rfl
@[simp] theorem Dev.putCell_regHist (d : Dev) (a : Nat) (m : MemWord) : (d.putCell a m).regHist = d.regHist := rfl
@[simp] theorem Dev.putCell_reply (d : Dev) (a : Nat) (m : MemWord) : (d.putCell a m).reply = d.reply := rfl
@[simp] theorem Dev.putCell_outbox (d : Dev) (a : Nat) (m : MemWord) : (d.putCell a m).outbox = d.outbox := rfl

@[simp] theorem Dev.putTile_now (d : Dev) (q : Nat) (t : Tile) : (d.putTile q t).now = d.now := rfl
@[simp] theorem Dev.putTile_regs (d : Dev) (q : Nat) (t : Tile) : (d.putTile q t).regs = d.regs := rfl
@[simp] theorem Dev.putTile_domains (d : Dev) (q : Nat) (t : Tile) : (d.putTile q t).domains = d.domains := rfl
@[simp] theorem Dev.putTile_freeIdx (d : Dev) (q : Nat) (t : Tile) : (d.putTile q t).freeIdx = d.freeIdx := rfl
@[simp] theorem Dev.putTile_spr (d : Dev) (q : Nat) (t : Tile) : (d.putTile q t).spr = d.spr := rfl
@[simp] theorem Dev.putTile_fio (d : Dev) (q : Nat) (t : Tile) : (d.putTile q t).fio = d.fio := rfl
@[simp] theorem Dev.putTile_evc (d : Dev) (q : Nat) (t : Tile) : (d.putTile q t).evc = d.evc := rfl
@[simp] theorem Dev.putTile_wev (d : Dev) (q : Nat) (t : Tile) : (d.putTile q t).wev = d.wev := rfl
@[simp] theorem Dev.putTile_sram (d : Dev) (q : Nat) (t : Tile) : (d.putTile q t).sram = d.sram := rfl
@[simp] theorem Dev.putTile_hbc (d : Dev) (q : Nat) (t : Tile) : (d.putTile q t).hbc = d.hbc := rfl
@[simp] theorem Dev.putTile_ghd (d : Dev) (q : Nat) (t : Tile) : (d.putTile q t).ghd = d.ghd := rfl
@[simp] theorem Dev.putTile_owners (d : Dev) (q : Nat) (t : Tile) : (d.putTile q t).owners = d.owners := rfl
@[simp] theorem Dev.putTile_cxi (d : Dev) (q : Nat) (t : Tile) : (d.putTile q t).cxi = d.cxi := rfl
@[simp] theorem Dev.putTile_hlk (d : Dev) (q : Nat) (t : Tile) : (d.putTile q t).hlk = d.hlk := rfl
@[simp] theorem Dev.putTile_commit (d : Dev) (q : Nat) (t : Tile) : (d.putTile q t).commit = d.commit := rfl
@[simp] theorem Dev.putTile_dict (d : Dev) (q : Nat) (t : Tile) : (d.putTile q t).dict = d.dict := rfl
@[simp] theorem Dev.putTile_tfb (d : Dev) (q : Nat) (t : Tile) : (d.putTile q t).tfb = d.tfb := rfl
@[simp] theorem Dev.putTile_chm (d : Dev) (q : Nat) (t : Tile) : (d.putTile q t).chm = d.chm := rfl
@[simp] theorem Dev.putTile_cex (d : Dev) (q : Nat) (t : Tile) : (d.putTile q t).cex = d.cex := rfl
@[simp] theorem Dev.putTile_graze (d : Dev) (q : Nat) (t : Tile) : (d.putTile q t).graze = d.graze := rfl
@[simp] theorem Dev.putTile_tmv (d : Dev) (q : Nat) (t : Tile) : (d.putTile q t).tmv = d.tmv := rfl
@[simp] theorem Dev.putTile_hif (d : Dev) (q : Nat) (t : Tile) : (d.putTile q t).hif = d.hif := rfl
@[simp] theorem Dev.putTile_ibx (d : Dev) (q : Nat) (t : Tile) : (d.putTile q t).ibx = d.ibx := rfl
@[simp] theorem Dev.putTile_procs (d : Dev) (q : Nat) (t : Tile) : (d.putTile q t).procs = d.procs := rfl
@[simp] theorem Dev.putTile_regHist (d : Dev) (q : Nat) (t : Tile) : (d.putTile q t).regHist = d.regHist := rfl
@[simp] theorem Dev.putTile_reply (d : Dev) (q : Nat) (t : Tile) : (d.putTile q t).reply = d.reply := rfl
@[simp] theorem Dev.putTile_outbox (d : Dev) (q : Nat) (t : Tile) : (d.putTile q t).outbox = d.outbox := rfl

@[simp] theorem Dev.setRewriteQueue_now (d : Dev) (s : Nat) (l : List Nat) : (d.setRewriteQueue s l).now = d.now := rfl
@[simp] theorem Dev.setRewriteQueue_regs (d : Dev) (s : Nat) (l : List Nat) : (d.setRewriteQueue s l).regs = d.regs := rfl
@[simp] theorem Dev.setRewriteQueue_domains (d : Dev) (s : Nat) (l : List Nat) : (d.setRewriteQueue s l).domains = d.domains := rfl
@[simp] theorem Dev.setRewriteQueue_freeIdx (d : Dev) (s : Nat) (l : List Nat) : (d.setRewriteQueue s l).freeIdx = d.freeIdx := rfl
@[simp] theorem Dev.setRewriteQueue_spr (d : Dev) (s : Nat) (l : List Nat) : (d.setRewriteQueue s l).spr = d.spr := rfl
@[simp] theorem Dev.setRewriteQueue_fio (d : Dev) (s : Nat) (l : List Nat) : (d.setRewriteQueue s l).fio = d.fio := rfl
@[simp] theorem Dev.setRewriteQueue_evc (d : Dev) (s : Nat) (l : List Nat) : (d.setRewriteQueue s l).evc = d.evc := rfl
@[simp] theorem Dev.setRewriteQueue_wev (d : Dev) (s : Nat) (l : List Nat) : (d.setRewriteQueue s l).wev = d.wev := rfl
@[simp] theorem Dev.setRewriteQueue_sram (d : Dev) (s : Nat) (l : List Nat) : (d.setRewriteQueue s l).sram = d.sram := rfl
@[simp] theorem Dev.setRewriteQueue_hbm (d : Dev) (s : Nat) (l : List Nat) : (d.setRewriteQueue s l).hbm = d.hbm := rfl
@[simp] theorem Dev.setRewriteQueue_ghd (d : Dev) (s : Nat) (l : List Nat) : (d.setRewriteQueue s l).ghd = d.ghd := rfl
@[simp] theorem Dev.setRewriteQueue_owners (d : Dev) (s : Nat) (l : List Nat) : (d.setRewriteQueue s l).owners = d.owners := rfl
@[simp] theorem Dev.setRewriteQueue_cxi (d : Dev) (s : Nat) (l : List Nat) : (d.setRewriteQueue s l).cxi = d.cxi := rfl
@[simp] theorem Dev.setRewriteQueue_hlk (d : Dev) (s : Nat) (l : List Nat) : (d.setRewriteQueue s l).hlk = d.hlk := rfl
@[simp] theorem Dev.setRewriteQueue_commit (d : Dev) (s : Nat) (l : List Nat) : (d.setRewriteQueue s l).commit = d.commit := rfl
@[simp] theorem Dev.setRewriteQueue_dict (d : Dev) (s : Nat) (l : List Nat) : (d.setRewriteQueue s l).dict = d.dict := rfl
@[simp] theorem Dev.setRewriteQueue_tfb (d : Dev) (s : Nat) (l : List Nat) : (d.setRewriteQueue s l).tfb = d.tfb := rfl
@[simp] theorem Dev.setRewriteQueue_chm (d : Dev) (s : Nat) (l : List Nat) : (d.setRewriteQueue s l).chm = d.chm := rfl
@[simp] theorem Dev.setRewriteQueue_cex (d : Dev) (s : Nat) (l : List Nat) : (d.setRewriteQueue s l).cex = d.cex := rfl
@[simp] theorem Dev.setRewriteQueue_graze (d : Dev) (s : Nat) (l : List Nat) : (d.setRewriteQueue s l).graze = d.graze := rfl
@[simp] theorem Dev.setRewriteQueue_tmv (d : Dev) (s : Nat) (l : List Nat) : (d.setRewriteQueue s l).tmv = d.tmv := rfl
@[simp] theorem Dev.setRewriteQueue_hif (d : Dev) (s : Nat) (l : List Nat) : (d.setRewriteQueue s l).hif = d.hif := rfl
@[simp] theorem Dev.setRewriteQueue_ibx (d : Dev) (s : Nat) (l : List Nat) : (d.setRewriteQueue s l).ibx = d.ibx := rfl
@[simp] theorem Dev.setRewriteQueue_procs (d : Dev) (s : Nat) (l : List Nat) : (d.setRewriteQueue s l).procs = d.procs := rfl
@[simp] theorem Dev.setRewriteQueue_regHist (d : Dev) (s : Nat) (l : List Nat) : (d.setRewriteQueue s l).regHist = d.regHist := rfl
@[simp] theorem Dev.setRewriteQueue_reply (d : Dev) (s : Nat) (l : List Nat) : (d.setRewriteQueue s l).reply = d.reply := rfl
@[simp] theorem Dev.setRewriteQueue_outbox (d : Dev) (s : Nat) (l : List Nat) : (d.setRewriteQueue s l).outbox = d.outbox := rfl

@[simp] theorem Dev.emit_now (d : Dev) (m : OutMsg) : (d.emit m).now = d.now := rfl
@[simp] theorem Dev.emit_regs (d : Dev) (m : OutMsg) : (d.emit m).regs = d.regs := rfl
@[simp] theorem Dev.emit_domains (d : Dev) (m : OutMsg) : (d.emit m).domains = d.domains := rfl
@[simp] theorem Dev.emit_freeIdx (d : Dev) (m : OutMsg) : (d.emit m).freeIdx = d.freeIdx := rfl
@[simp] theorem Dev.emit_spr (d : Dev) (m : OutMsg) : (d.emit m).spr = d.spr := rfl
@[simp] theorem Dev.emit_fio (d : Dev) (m : OutMsg) : (d.emit m).fio = d.fio := rfl
@[simp] theorem Dev.emit_evc (d : Dev) (m : OutMsg) : (d.emit m).evc = d.evc := rfl
@[simp] theorem Dev.emit_wev (d : Dev) (m : OutMsg) : (d.emit m).wev = d.wev := rfl
@[simp] theorem Dev.emit_sram (d : Dev) (m : OutMsg) : (d.emit m).sram = d.sram := rfl
@[simp] theorem Dev.emit_hbm (d : Dev) (m : OutMsg) : (d.emit m).hbm = d.hbm := rfl
@[simp] theorem Dev.emit_hbc (d : Dev) (m : OutMsg) : (d.emit m).hbc = d.hbc := rfl
@[simp] theorem Dev.emit_ghd (d : Dev) (m : OutMsg) : (d.emit m).ghd = d.ghd := rfl
@[simp] theorem Dev.emit_owners (d : Dev) (m : OutMsg) : (d.emit m).owners = d.owners := rfl
@[simp] theorem Dev.emit_cxi (d : Dev) (m : OutMsg) : (d.emit m).cxi = d.cxi := rfl
@[simp] theorem Dev.emit_hlk (d : Dev) (m : OutMsg) : (d.emit m).hlk = d.hlk := rfl
@[simp] theorem Dev.emit_commit (d : Dev) (m : OutMsg) : (d.emit m).commit = d.commit := rfl
@[simp] theorem Dev.emit_dict (d : Dev) (m : OutMsg) : (d.emit m).dict = d.dict := rfl
@[simp] theorem Dev.emit_tfb (d : Dev) (m : OutMsg) : (d.emit m).tfb = d.tfb := rfl
@[simp] theorem Dev.emit_chm (d : Dev) (m : OutMsg) : (d.emit m).chm = d.chm := rfl
@[simp] theorem Dev.emit_cex (d : Dev) (m : OutMsg) : (d.emit m).cex = d.cex := rfl
@[simp] theorem Dev.emit_graze (d : Dev) (m : OutMsg) : (d.emit m).graze = d.graze := rfl
@[simp] theorem Dev.emit_tmv (d : Dev) (m : OutMsg) : (d.emit m).tmv = d.tmv := rfl
@[simp] theorem Dev.emit_hif (d : Dev) (m : OutMsg) : (d.emit m).hif = d.hif := rfl
@[simp] theorem Dev.emit_ibx (d : Dev) (m : OutMsg) : (d.emit m).ibx = d.ibx := rfl
@[simp] theorem Dev.emit_procs (d : Dev) (m : OutMsg) : (d.emit m).procs = d.procs := rfl
@[simp] theorem Dev.emit_regHist (d : Dev) (m : OutMsg) : (d.emit m).regHist = d.regHist := rfl
@[simp] theorem Dev.emit_reply (d : Dev) (m : OutMsg) : (d.emit m).reply = d.reply := rfl

@[simp] theorem Dev.setHead_now (d : Dev) (h : Nat) (x : CxiHead) : (d.setHead h x).now = d.now := rfl
@[simp] theorem Dev.setHead_regs (d : Dev) (h : Nat) (x : CxiHead) : (d.setHead h x).regs = d.regs := rfl
@[simp] theorem Dev.setHead_domains (d : Dev) (h : Nat) (x : CxiHead) : (d.setHead h x).domains = d.domains := rfl
@[simp] theorem Dev.setHead_freeIdx (d : Dev) (h : Nat) (x : CxiHead) : (d.setHead h x).freeIdx = d.freeIdx := rfl
@[simp] theorem Dev.setHead_spr (d : Dev) (h : Nat) (x : CxiHead) : (d.setHead h x).spr = d.spr := rfl
@[simp] theorem Dev.setHead_fio (d : Dev) (h : Nat) (x : CxiHead) : (d.setHead h x).fio = d.fio := rfl
@[simp] theorem Dev.setHead_evc (d : Dev) (h : Nat) (x : CxiHead) : (d.setHead h x).evc = d.evc := rfl
@[simp] theorem Dev.setHead_wev (d : Dev) (h : Nat) (x : CxiHead) : (d.setHead h x).wev = d.wev := rfl
@[simp] theorem Dev.setHead_sram (d : Dev) (h : Nat) (x : CxiHead) : (d.setHead h x).sram = d.sram := rfl
@[simp] theorem Dev.setHead_hbm (d : Dev) (h : Nat) (x : CxiHead) : (d.setHead h x).hbm = d.hbm := rfl
@[simp] theorem Dev.setHead_hbc (d : Dev) (h : Nat) (x : CxiHead) : (d.setHead h x).hbc = d.hbc := rfl
@[simp] theorem Dev.setHead_ghd (d : Dev) (h : Nat) (x : CxiHead) : (d.setHead h x).ghd = d.ghd := rfl
@[simp] theorem Dev.setHead_owners (d : Dev) (h : Nat) (x : CxiHead) : (d.setHead h x).owners = d.owners := rfl
@[simp] theorem Dev.setHead_hlk (d : Dev) (h : Nat) (x : CxiHead) : (d.setHead h x).hlk = d.hlk := rfl
@[simp] theorem Dev.setHead_commit (d : Dev) (h : Nat) (x : CxiHead) : (d.setHead h x).commit = d.commit := rfl
@[simp] theorem Dev.setHead_dict (d : Dev) (h : Nat) (x : CxiHead) : (d.setHead h x).dict = d.dict := rfl
@[simp] theorem Dev.setHead_tfb (d : Dev) (h : Nat) (x : CxiHead) : (d.setHead h x).tfb = d.tfb := rfl
@[simp] theorem Dev.setHead_chm (d : Dev) (h : Nat) (x : CxiHead) : (d.setHead h x).chm = d.chm := rfl
@[simp] theorem Dev.setHead_cex (d : Dev) (h : Nat) (x : CxiHead) : (d.setHead h x).cex = d.cex := rfl
@[simp] theorem Dev.setHead_graze (d : Dev) (h : Nat) (x : CxiHead) : (d.setHead h x).graze = d.graze := rfl
@[simp] theorem Dev.setHead_tmv (d : Dev) (h : Nat) (x : CxiHead) : (d.setHead h x).tmv = d.tmv := rfl
@[simp] theorem Dev.setHead_hif (d : Dev) (h : Nat) (x : CxiHead) : (d.setHead h x).hif = d.hif := rfl
@[simp] theorem Dev.setHead_ibx (d : Dev) (h : Nat) (x : CxiHead) : (d.setHead h x).ibx = d.ibx := rfl
@[simp] theorem Dev.setHead_procs (d : Dev) (h : Nat) (x : CxiHead) : (d.setHead h x).procs = d.procs := rfl
@[simp] theorem Dev.setHead_regHist (d : Dev) (h : Nat) (x : CxiHead) : (d.setHead h x).regHist = d.regHist := rfl
@[simp] theorem Dev.setHead_reply (d : Dev) (h : Nat) (x : CxiHead) : (d.setHead h x).reply = d.reply := rfl
@[simp] theorem Dev.setHead_outbox (d : Dev) (h : Nat) (x : CxiHead) : (d.setHead h x).outbox = d.outbox := rfl

@[simp] theorem Dev.setLink_now (d : Dev) (l : Nat) (x : CxiLink) : (d.setLink l x).now = d.now := rfl
@[simp] theorem Dev.setLink_regs (d : Dev) (l : Nat) (x : CxiLink) : (d.setLink l x).regs = d.regs := rfl
@[simp] theorem Dev.setLink_domains (d : Dev) (l : Nat) (x : CxiLink) : (d.setLink l x).domains = d.domains := rfl
@[simp] theorem Dev.setLink_freeIdx (d : Dev) (l : Nat) (x : CxiLink) : (d.setLink l x).freeIdx = d.freeIdx := rfl
@[simp] theorem Dev.setLink_spr (d : Dev) (l : Nat) (x : CxiLink) : (d.setLink l x).spr = d.spr := rfl
@[simp] theorem Dev.setLink_fio (d : Dev) (l : Nat) (x : CxiLink) : (d.setLink l x).fio = d.fio := rfl
@[simp] theorem Dev.setLink_evc (d : Dev) (l : Nat) (x : CxiLink) : (d.setLink l x).evc = d.evc := rfl
@[simp] theorem Dev.setLink_wev (d : Dev) (l : Nat) (x : CxiLink) : (d.setLink l x).wev = d.wev := rfl
@[simp] theorem Dev.setLink_sram (d : Dev) (l : Nat) (x : CxiLink) : (d.setLink l x).sram = d.sram := rfl
@[simp] theorem Dev.setLink_hbm (d : Dev) (l : Nat) (x : CxiLink) : (d.setLink l x).hbm = d.hbm := rfl
@[simp] theorem Dev.setLink_hbc (d : Dev) (l : Nat) (x : CxiLink) : (d.setLink l x).hbc = d.hbc := rfl
@[simp] theorem Dev.setLink_ghd (d : Dev) (l : Nat) (x : CxiLink) : (d.setLink l x).ghd = d.ghd := rfl
@[simp] theorem Dev.setLink_owners (d : Dev) (l : Nat) (x : CxiLink) : (d.setLink l x).owners = d.owners := rfl
@[simp] theorem Dev.setLink_hlk (d : Dev) (l : Nat) (x : CxiLink) : (d.setLink l x).hlk = d.hlk := rfl
@[simp] theorem Dev.setLink_commit (d : Dev) (l : Nat) (x : CxiLink) : (d.setLink l x).commit = d.commit := rfl
@[simp] theorem Dev.setLink_dict (d : Dev) (l : Nat) (x : CxiLink) : (d.setLink l x).dict = d.dict := rfl
@[simp] theorem Dev.setLink_tfb (d : Dev) (l : Nat) (x : CxiLink) : (d.setLink l x).tfb = d.tfb := rfl
@[simp] theorem Dev.setLink_chm (d : Dev) (l : Nat) (x : CxiLink) : (d.setLink l x).chm = d.chm := rfl
@[simp] theorem Dev.setLink_cex (d : Dev) (l : Nat) (x : CxiLink) : (d.setLink l x).cex = d.cex := rfl
@[simp] theorem Dev.setLink_graze (d : Dev) (l : Nat) (x : CxiLink) : (d.setLink l x).graze = d.graze := rfl
@[simp] theorem Dev.setLink_tmv (d : Dev) (l : Nat) (x : CxiLink) : (d.setLink l x).tmv = d.tmv := rfl
@[simp] theorem Dev.setLink_hif (d : Dev) (l : Nat) (x : CxiLink) : (d.setLink l x).hif = d.hif := rfl
@[simp] theorem Dev.setLink_ibx (d : Dev) (l : Nat) (x : CxiLink) : (d.setLink l x).ibx = d.ibx := rfl
@[simp] theorem Dev.setLink_procs (d : Dev) (l : Nat) (x : CxiLink) : (d.setLink l x).procs = d.procs := rfl
@[simp] theorem Dev.setLink_regHist (d : Dev) (l : Nat) (x : CxiLink) : (d.setLink l x).regHist = d.regHist := rfl
@[simp] theorem Dev.setLink_reply (d : Dev) (l : Nat) (x : CxiLink) : (d.setLink l x).reply = d.reply := rfl
@[simp] theorem Dev.setLink_outbox (d : Dev) (l : Nat) (x : CxiLink) : (d.setLink l x).outbox = d.outbox := rfl

@[simp] theorem Dev.setPort_now (d : Dev) (p : Nat) (x : HlkPort) : (d.setPort p x).now = d.now := rfl
@[simp] theorem Dev.setPort_regs (d : Dev) (p : Nat) (x : HlkPort) : (d.setPort p x).regs = d.regs := rfl
@[simp] theorem Dev.setPort_domains (d : Dev) (p : Nat) (x : HlkPort) : (d.setPort p x).domains = d.domains := rfl
@[simp] theorem Dev.setPort_freeIdx (d : Dev) (p : Nat) (x : HlkPort) : (d.setPort p x).freeIdx = d.freeIdx := rfl
@[simp] theorem Dev.setPort_spr (d : Dev) (p : Nat) (x : HlkPort) : (d.setPort p x).spr = d.spr := rfl
@[simp] theorem Dev.setPort_fio (d : Dev) (p : Nat) (x : HlkPort) : (d.setPort p x).fio = d.fio := rfl
@[simp] theorem Dev.setPort_evc (d : Dev) (p : Nat) (x : HlkPort) : (d.setPort p x).evc = d.evc := rfl
@[simp] theorem Dev.setPort_wev (d : Dev) (p : Nat) (x : HlkPort) : (d.setPort p x).wev = d.wev := rfl
@[simp] theorem Dev.setPort_sram (d : Dev) (p : Nat) (x : HlkPort) : (d.setPort p x).sram = d.sram := rfl
@[simp] theorem Dev.setPort_hbm (d : Dev) (p : Nat) (x : HlkPort) : (d.setPort p x).hbm = d.hbm := rfl
@[simp] theorem Dev.setPort_hbc (d : Dev) (p : Nat) (x : HlkPort) : (d.setPort p x).hbc = d.hbc := rfl
@[simp] theorem Dev.setPort_ghd (d : Dev) (p : Nat) (x : HlkPort) : (d.setPort p x).ghd = d.ghd := rfl
@[simp] theorem Dev.setPort_owners (d : Dev) (p : Nat) (x : HlkPort) : (d.setPort p x).owners = d.owners := rfl
@[simp] theorem Dev.setPort_cxi (d : Dev) (p : Nat) (x : HlkPort) : (d.setPort p x).cxi = d.cxi := rfl
@[simp] theorem Dev.setPort_commit (d : Dev) (p : Nat) (x : HlkPort) : (d.setPort p x).commit = d.commit := rfl
@[simp] theorem Dev.setPort_dict (d : Dev) (p : Nat) (x : HlkPort) : (d.setPort p x).dict = d.dict := rfl
@[simp] theorem Dev.setPort_tfb (d : Dev) (p : Nat) (x : HlkPort) : (d.setPort p x).tfb = d.tfb := rfl
@[simp] theorem Dev.setPort_chm (d : Dev) (p : Nat) (x : HlkPort) : (d.setPort p x).chm = d.chm := rfl
@[simp] theorem Dev.setPort_cex (d : Dev) (p : Nat) (x : HlkPort) : (d.setPort p x).cex = d.cex := rfl
@[simp] theorem Dev.setPort_graze (d : Dev) (p : Nat) (x : HlkPort) : (d.setPort p x).graze = d.graze := rfl
@[simp] theorem Dev.setPort_tmv (d : Dev) (p : Nat) (x : HlkPort) : (d.setPort p x).tmv = d.tmv := rfl
@[simp] theorem Dev.setPort_hif (d : Dev) (p : Nat) (x : HlkPort) : (d.setPort p x).hif = d.hif := rfl
@[simp] theorem Dev.setPort_ibx (d : Dev) (p : Nat) (x : HlkPort) : (d.setPort p x).ibx = d.ibx := rfl
@[simp] theorem Dev.setPort_procs (d : Dev) (p : Nat) (x : HlkPort) : (d.setPort p x).procs = d.procs := rfl
@[simp] theorem Dev.setPort_regHist (d : Dev) (p : Nat) (x : HlkPort) : (d.setPort p x).regHist = d.regHist := rfl
@[simp] theorem Dev.setPort_reply (d : Dev) (p : Nat) (x : HlkPort) : (d.setPort p x).reply = d.reply := rfl
@[simp] theorem Dev.setPort_outbox (d : Dev) (p : Nat) (x : HlkPort) : (d.setPort p x).outbox = d.outbox := rfl

@[simp] theorem Dev.setLead_now (d : Dev) (c : Option LeadCommit) : (d.setLead c).now = d.now := rfl
@[simp] theorem Dev.setLead_regs (d : Dev) (c : Option LeadCommit) : (d.setLead c).regs = d.regs := rfl
@[simp] theorem Dev.setLead_domains (d : Dev) (c : Option LeadCommit) : (d.setLead c).domains = d.domains := rfl
@[simp] theorem Dev.setLead_freeIdx (d : Dev) (c : Option LeadCommit) : (d.setLead c).freeIdx = d.freeIdx := rfl
@[simp] theorem Dev.setLead_spr (d : Dev) (c : Option LeadCommit) : (d.setLead c).spr = d.spr := rfl
@[simp] theorem Dev.setLead_fio (d : Dev) (c : Option LeadCommit) : (d.setLead c).fio = d.fio := rfl
@[simp] theorem Dev.setLead_evc (d : Dev) (c : Option LeadCommit) : (d.setLead c).evc = d.evc := rfl
@[simp] theorem Dev.setLead_wev (d : Dev) (c : Option LeadCommit) : (d.setLead c).wev = d.wev := rfl
@[simp] theorem Dev.setLead_sram (d : Dev) (c : Option LeadCommit) : (d.setLead c).sram = d.sram := rfl
@[simp] theorem Dev.setLead_hbm (d : Dev) (c : Option LeadCommit) : (d.setLead c).hbm = d.hbm := rfl
@[simp] theorem Dev.setLead_hbc (d : Dev) (c : Option LeadCommit) : (d.setLead c).hbc = d.hbc := rfl
@[simp] theorem Dev.setLead_ghd (d : Dev) (c : Option LeadCommit) : (d.setLead c).ghd = d.ghd := rfl
@[simp] theorem Dev.setLead_owners (d : Dev) (c : Option LeadCommit) : (d.setLead c).owners = d.owners := rfl
@[simp] theorem Dev.setLead_cxi (d : Dev) (c : Option LeadCommit) : (d.setLead c).cxi = d.cxi := rfl
@[simp] theorem Dev.setLead_commit (d : Dev) (c : Option LeadCommit) : (d.setLead c).commit = d.commit := rfl
@[simp] theorem Dev.setLead_dict (d : Dev) (c : Option LeadCommit) : (d.setLead c).dict = d.dict := rfl
@[simp] theorem Dev.setLead_tfb (d : Dev) (c : Option LeadCommit) : (d.setLead c).tfb = d.tfb := rfl
@[simp] theorem Dev.setLead_chm (d : Dev) (c : Option LeadCommit) : (d.setLead c).chm = d.chm := rfl
@[simp] theorem Dev.setLead_cex (d : Dev) (c : Option LeadCommit) : (d.setLead c).cex = d.cex := rfl
@[simp] theorem Dev.setLead_graze (d : Dev) (c : Option LeadCommit) : (d.setLead c).graze = d.graze := rfl
@[simp] theorem Dev.setLead_tmv (d : Dev) (c : Option LeadCommit) : (d.setLead c).tmv = d.tmv := rfl
@[simp] theorem Dev.setLead_hif (d : Dev) (c : Option LeadCommit) : (d.setLead c).hif = d.hif := rfl
@[simp] theorem Dev.setLead_ibx (d : Dev) (c : Option LeadCommit) : (d.setLead c).ibx = d.ibx := rfl
@[simp] theorem Dev.setLead_procs (d : Dev) (c : Option LeadCommit) : (d.setLead c).procs = d.procs := rfl
@[simp] theorem Dev.setLead_regHist (d : Dev) (c : Option LeadCommit) : (d.setLead c).regHist = d.regHist := rfl
@[simp] theorem Dev.setLead_reply (d : Dev) (c : Option LeadCommit) : (d.setLead c).reply = d.reply := rfl
@[simp] theorem Dev.setLead_outbox (d : Dev) (c : Option LeadCommit) : (d.setLead c).outbox = d.outbox := rfl

@[simp] theorem Dev.setFrozen_now (d : Dev) (f : FrozenCommit) : (d.setFrozen f).now = d.now := rfl
@[simp] theorem Dev.setFrozen_regs (d : Dev) (f : FrozenCommit) : (d.setFrozen f).regs = d.regs := rfl
@[simp] theorem Dev.setFrozen_domains (d : Dev) (f : FrozenCommit) : (d.setFrozen f).domains = d.domains := rfl
@[simp] theorem Dev.setFrozen_freeIdx (d : Dev) (f : FrozenCommit) : (d.setFrozen f).freeIdx = d.freeIdx := rfl
@[simp] theorem Dev.setFrozen_spr (d : Dev) (f : FrozenCommit) : (d.setFrozen f).spr = d.spr := rfl
@[simp] theorem Dev.setFrozen_fio (d : Dev) (f : FrozenCommit) : (d.setFrozen f).fio = d.fio := rfl
@[simp] theorem Dev.setFrozen_evc (d : Dev) (f : FrozenCommit) : (d.setFrozen f).evc = d.evc := rfl
@[simp] theorem Dev.setFrozen_wev (d : Dev) (f : FrozenCommit) : (d.setFrozen f).wev = d.wev := rfl
@[simp] theorem Dev.setFrozen_sram (d : Dev) (f : FrozenCommit) : (d.setFrozen f).sram = d.sram := rfl
@[simp] theorem Dev.setFrozen_hbm (d : Dev) (f : FrozenCommit) : (d.setFrozen f).hbm = d.hbm := rfl
@[simp] theorem Dev.setFrozen_hbc (d : Dev) (f : FrozenCommit) : (d.setFrozen f).hbc = d.hbc := rfl
@[simp] theorem Dev.setFrozen_ghd (d : Dev) (f : FrozenCommit) : (d.setFrozen f).ghd = d.ghd := rfl
@[simp] theorem Dev.setFrozen_owners (d : Dev) (f : FrozenCommit) : (d.setFrozen f).owners = d.owners := rfl
@[simp] theorem Dev.setFrozen_cxi (d : Dev) (f : FrozenCommit) : (d.setFrozen f).cxi = d.cxi := rfl
@[simp] theorem Dev.setFrozen_commit (d : Dev) (f : FrozenCommit) : (d.setFrozen f).commit = d.commit := rfl
@[simp] theorem Dev.setFrozen_dict (d : Dev) (f : FrozenCommit) : (d.setFrozen f).dict = d.dict := rfl
@[simp] theorem Dev.setFrozen_tfb (d : Dev) (f : FrozenCommit) : (d.setFrozen f).tfb = d.tfb := rfl
@[simp] theorem Dev.setFrozen_chm (d : Dev) (f : FrozenCommit) : (d.setFrozen f).chm = d.chm := rfl
@[simp] theorem Dev.setFrozen_cex (d : Dev) (f : FrozenCommit) : (d.setFrozen f).cex = d.cex := rfl
@[simp] theorem Dev.setFrozen_graze (d : Dev) (f : FrozenCommit) : (d.setFrozen f).graze = d.graze := rfl
@[simp] theorem Dev.setFrozen_tmv (d : Dev) (f : FrozenCommit) : (d.setFrozen f).tmv = d.tmv := rfl
@[simp] theorem Dev.setFrozen_hif (d : Dev) (f : FrozenCommit) : (d.setFrozen f).hif = d.hif := rfl
@[simp] theorem Dev.setFrozen_ibx (d : Dev) (f : FrozenCommit) : (d.setFrozen f).ibx = d.ibx := rfl
@[simp] theorem Dev.setFrozen_procs (d : Dev) (f : FrozenCommit) : (d.setFrozen f).procs = d.procs := rfl
@[simp] theorem Dev.setFrozen_regHist (d : Dev) (f : FrozenCommit) : (d.setFrozen f).regHist = d.regHist := rfl
@[simp] theorem Dev.setFrozen_reply (d : Dev) (f : FrozenCommit) : (d.setFrozen f).reply = d.reply := rfl
@[simp] theorem Dev.setFrozen_outbox (d : Dev) (f : FrozenCommit) : (d.setFrozen f).outbox = d.outbox := rfl

@[simp] theorem Dev.setLb_now (d : Dev) (h : Nat) (x : TfbHead) : (d.setLb h x).now = d.now := rfl
@[simp] theorem Dev.setLb_regs (d : Dev) (h : Nat) (x : TfbHead) : (d.setLb h x).regs = d.regs := rfl
@[simp] theorem Dev.setLb_domains (d : Dev) (h : Nat) (x : TfbHead) : (d.setLb h x).domains = d.domains := rfl
@[simp] theorem Dev.setLb_freeIdx (d : Dev) (h : Nat) (x : TfbHead) : (d.setLb h x).freeIdx = d.freeIdx := rfl
@[simp] theorem Dev.setLb_spr (d : Dev) (h : Nat) (x : TfbHead) : (d.setLb h x).spr = d.spr := rfl
@[simp] theorem Dev.setLb_fio (d : Dev) (h : Nat) (x : TfbHead) : (d.setLb h x).fio = d.fio := rfl
@[simp] theorem Dev.setLb_evc (d : Dev) (h : Nat) (x : TfbHead) : (d.setLb h x).evc = d.evc := rfl
@[simp] theorem Dev.setLb_wev (d : Dev) (h : Nat) (x : TfbHead) : (d.setLb h x).wev = d.wev := rfl
@[simp] theorem Dev.setLb_sram (d : Dev) (h : Nat) (x : TfbHead) : (d.setLb h x).sram = d.sram := rfl
@[simp] theorem Dev.setLb_hbm (d : Dev) (h : Nat) (x : TfbHead) : (d.setLb h x).hbm = d.hbm := rfl
@[simp] theorem Dev.setLb_hbc (d : Dev) (h : Nat) (x : TfbHead) : (d.setLb h x).hbc = d.hbc := rfl
@[simp] theorem Dev.setLb_ghd (d : Dev) (h : Nat) (x : TfbHead) : (d.setLb h x).ghd = d.ghd := rfl
@[simp] theorem Dev.setLb_owners (d : Dev) (h : Nat) (x : TfbHead) : (d.setLb h x).owners = d.owners := rfl
@[simp] theorem Dev.setLb_cxi (d : Dev) (h : Nat) (x : TfbHead) : (d.setLb h x).cxi = d.cxi := rfl
@[simp] theorem Dev.setLb_hlk (d : Dev) (h : Nat) (x : TfbHead) : (d.setLb h x).hlk = d.hlk := rfl
@[simp] theorem Dev.setLb_commit (d : Dev) (h : Nat) (x : TfbHead) : (d.setLb h x).commit = d.commit := rfl
@[simp] theorem Dev.setLb_dict (d : Dev) (h : Nat) (x : TfbHead) : (d.setLb h x).dict = d.dict := rfl
@[simp] theorem Dev.setLb_chm (d : Dev) (h : Nat) (x : TfbHead) : (d.setLb h x).chm = d.chm := rfl
@[simp] theorem Dev.setLb_cex (d : Dev) (h : Nat) (x : TfbHead) : (d.setLb h x).cex = d.cex := rfl
@[simp] theorem Dev.setLb_graze (d : Dev) (h : Nat) (x : TfbHead) : (d.setLb h x).graze = d.graze := rfl
@[simp] theorem Dev.setLb_tmv (d : Dev) (h : Nat) (x : TfbHead) : (d.setLb h x).tmv = d.tmv := rfl
@[simp] theorem Dev.setLb_hif (d : Dev) (h : Nat) (x : TfbHead) : (d.setLb h x).hif = d.hif := rfl
@[simp] theorem Dev.setLb_ibx (d : Dev) (h : Nat) (x : TfbHead) : (d.setLb h x).ibx = d.ibx := rfl
@[simp] theorem Dev.setLb_procs (d : Dev) (h : Nat) (x : TfbHead) : (d.setLb h x).procs = d.procs := rfl
@[simp] theorem Dev.setLb_regHist (d : Dev) (h : Nat) (x : TfbHead) : (d.setLb h x).regHist = d.regHist := rfl
@[simp] theorem Dev.setLb_reply (d : Dev) (h : Nat) (x : TfbHead) : (d.setLb h x).reply = d.reply := rfl
@[simp] theorem Dev.setLb_outbox (d : Dev) (h : Nat) (x : TfbHead) : (d.setLb h x).outbox = d.outbox := rfl

@[simp] theorem Dev.setChm_now (d : Dev) (h : Nat) (x : ChmHead) : (d.setChm h x).now = d.now := rfl
@[simp] theorem Dev.setChm_regs (d : Dev) (h : Nat) (x : ChmHead) : (d.setChm h x).regs = d.regs := rfl
@[simp] theorem Dev.setChm_domains (d : Dev) (h : Nat) (x : ChmHead) : (d.setChm h x).domains = d.domains := rfl
@[simp] theorem Dev.setChm_freeIdx (d : Dev) (h : Nat) (x : ChmHead) : (d.setChm h x).freeIdx = d.freeIdx := rfl
@[simp] theorem Dev.setChm_spr (d : Dev) (h : Nat) (x : ChmHead) : (d.setChm h x).spr = d.spr := rfl
@[simp] theorem Dev.setChm_fio (d : Dev) (h : Nat) (x : ChmHead) : (d.setChm h x).fio = d.fio := rfl
@[simp] theorem Dev.setChm_evc (d : Dev) (h : Nat) (x : ChmHead) : (d.setChm h x).evc = d.evc := rfl
@[simp] theorem Dev.setChm_wev (d : Dev) (h : Nat) (x : ChmHead) : (d.setChm h x).wev = d.wev := rfl
@[simp] theorem Dev.setChm_sram (d : Dev) (h : Nat) (x : ChmHead) : (d.setChm h x).sram = d.sram := rfl
@[simp] theorem Dev.setChm_hbm (d : Dev) (h : Nat) (x : ChmHead) : (d.setChm h x).hbm = d.hbm := rfl
@[simp] theorem Dev.setChm_hbc (d : Dev) (h : Nat) (x : ChmHead) : (d.setChm h x).hbc = d.hbc := rfl
@[simp] theorem Dev.setChm_ghd (d : Dev) (h : Nat) (x : ChmHead) : (d.setChm h x).ghd = d.ghd := rfl
@[simp] theorem Dev.setChm_owners (d : Dev) (h : Nat) (x : ChmHead) : (d.setChm h x).owners = d.owners := rfl
@[simp] theorem Dev.setChm_cxi (d : Dev) (h : Nat) (x : ChmHead) : (d.setChm h x).cxi = d.cxi := rfl
@[simp] theorem Dev.setChm_hlk (d : Dev) (h : Nat) (x : ChmHead) : (d.setChm h x).hlk = d.hlk := rfl
@[simp] theorem Dev.setChm_commit (d : Dev) (h : Nat) (x : ChmHead) : (d.setChm h x).commit = d.commit := rfl
@[simp] theorem Dev.setChm_dict (d : Dev) (h : Nat) (x : ChmHead) : (d.setChm h x).dict = d.dict := rfl
@[simp] theorem Dev.setChm_tfb (d : Dev) (h : Nat) (x : ChmHead) : (d.setChm h x).tfb = d.tfb := rfl
@[simp] theorem Dev.setChm_cex (d : Dev) (h : Nat) (x : ChmHead) : (d.setChm h x).cex = d.cex := rfl
@[simp] theorem Dev.setChm_graze (d : Dev) (h : Nat) (x : ChmHead) : (d.setChm h x).graze = d.graze := rfl
@[simp] theorem Dev.setChm_tmv (d : Dev) (h : Nat) (x : ChmHead) : (d.setChm h x).tmv = d.tmv := rfl
@[simp] theorem Dev.setChm_hif (d : Dev) (h : Nat) (x : ChmHead) : (d.setChm h x).hif = d.hif := rfl
@[simp] theorem Dev.setChm_ibx (d : Dev) (h : Nat) (x : ChmHead) : (d.setChm h x).ibx = d.ibx := rfl
@[simp] theorem Dev.setChm_procs (d : Dev) (h : Nat) (x : ChmHead) : (d.setChm h x).procs = d.procs := rfl
@[simp] theorem Dev.setChm_regHist (d : Dev) (h : Nat) (x : ChmHead) : (d.setChm h x).regHist = d.regHist := rfl
@[simp] theorem Dev.setChm_reply (d : Dev) (h : Nat) (x : ChmHead) : (d.setChm h x).reply = d.reply := rfl
@[simp] theorem Dev.setChm_outbox (d : Dev) (h : Nat) (x : ChmHead) : (d.setChm h x).outbox = d.outbox := rfl

@[simp] theorem Dev.setChan_now (d : Dev) (c : Nat) (x : Chan) : (d.setChan c x).now = d.now := rfl
@[simp] theorem Dev.setChan_regs (d : Dev) (c : Nat) (x : Chan) : (d.setChan c x).regs = d.regs := rfl
@[simp] theorem Dev.setChan_domains (d : Dev) (c : Nat) (x : Chan) : (d.setChan c x).domains = d.domains := rfl
@[simp] theorem Dev.setChan_freeIdx (d : Dev) (c : Nat) (x : Chan) : (d.setChan c x).freeIdx = d.freeIdx := rfl
@[simp] theorem Dev.setChan_spr (d : Dev) (c : Nat) (x : Chan) : (d.setChan c x).spr = d.spr := rfl
@[simp] theorem Dev.setChan_fio (d : Dev) (c : Nat) (x : Chan) : (d.setChan c x).fio = d.fio := rfl
@[simp] theorem Dev.setChan_evc (d : Dev) (c : Nat) (x : Chan) : (d.setChan c x).evc = d.evc := rfl
@[simp] theorem Dev.setChan_wev (d : Dev) (c : Nat) (x : Chan) : (d.setChan c x).wev = d.wev := rfl
@[simp] theorem Dev.setChan_sram (d : Dev) (c : Nat) (x : Chan) : (d.setChan c x).sram = d.sram := rfl
@[simp] theorem Dev.setChan_hbm (d : Dev) (c : Nat) (x : Chan) : (d.setChan c x).hbm = d.hbm := rfl
@[simp] theorem Dev.setChan_hbc (d : Dev) (c : Nat) (x : Chan) : (d.setChan c x).hbc = d.hbc := rfl
@[simp] theorem Dev.setChan_ghd (d : Dev) (c : Nat) (x : Chan) : (d.setChan c x).ghd = d.ghd := rfl
@[simp] theorem Dev.setChan_owners (d : Dev) (c : Nat) (x : Chan) : (d.setChan c x).owners = d.owners := rfl
@[simp] theorem Dev.setChan_cxi (d : Dev) (c : Nat) (x : Chan) : (d.setChan c x).cxi = d.cxi := rfl
@[simp] theorem Dev.setChan_hlk (d : Dev) (c : Nat) (x : Chan) : (d.setChan c x).hlk = d.hlk := rfl
@[simp] theorem Dev.setChan_commit (d : Dev) (c : Nat) (x : Chan) : (d.setChan c x).commit = d.commit := rfl
@[simp] theorem Dev.setChan_dict (d : Dev) (c : Nat) (x : Chan) : (d.setChan c x).dict = d.dict := rfl
@[simp] theorem Dev.setChan_tfb (d : Dev) (c : Nat) (x : Chan) : (d.setChan c x).tfb = d.tfb := rfl
@[simp] theorem Dev.setChan_chm (d : Dev) (c : Nat) (x : Chan) : (d.setChan c x).chm = d.chm := rfl
@[simp] theorem Dev.setChan_cex (d : Dev) (c : Nat) (x : Chan) : (d.setChan c x).cex = d.cex := rfl
@[simp] theorem Dev.setChan_graze (d : Dev) (c : Nat) (x : Chan) : (d.setChan c x).graze = d.graze := rfl
@[simp] theorem Dev.setChan_tmv (d : Dev) (c : Nat) (x : Chan) : (d.setChan c x).tmv = d.tmv := rfl
@[simp] theorem Dev.setChan_hif (d : Dev) (c : Nat) (x : Chan) : (d.setChan c x).hif = d.hif := rfl
@[simp] theorem Dev.setChan_procs (d : Dev) (c : Nat) (x : Chan) : (d.setChan c x).procs = d.procs := rfl
@[simp] theorem Dev.setChan_regHist (d : Dev) (c : Nat) (x : Chan) : (d.setChan c x).regHist = d.regHist := rfl
@[simp] theorem Dev.setChan_reply (d : Dev) (c : Nat) (x : Chan) : (d.setChan c x).reply = d.reply := rfl
@[simp] theorem Dev.setChan_outbox (d : Dev) (c : Nat) (x : Chan) : (d.setChan c x).outbox = d.outbox := rfl

@[simp] theorem Dev.setCq_now (d : Dev) (r : Nat) (x : CompRing) : (d.setCq r x).now = d.now := rfl
@[simp] theorem Dev.setCq_regs (d : Dev) (r : Nat) (x : CompRing) : (d.setCq r x).regs = d.regs := rfl
@[simp] theorem Dev.setCq_domains (d : Dev) (r : Nat) (x : CompRing) : (d.setCq r x).domains = d.domains := rfl
@[simp] theorem Dev.setCq_freeIdx (d : Dev) (r : Nat) (x : CompRing) : (d.setCq r x).freeIdx = d.freeIdx := rfl
@[simp] theorem Dev.setCq_spr (d : Dev) (r : Nat) (x : CompRing) : (d.setCq r x).spr = d.spr := rfl
@[simp] theorem Dev.setCq_fio (d : Dev) (r : Nat) (x : CompRing) : (d.setCq r x).fio = d.fio := rfl
@[simp] theorem Dev.setCq_evc (d : Dev) (r : Nat) (x : CompRing) : (d.setCq r x).evc = d.evc := rfl
@[simp] theorem Dev.setCq_wev (d : Dev) (r : Nat) (x : CompRing) : (d.setCq r x).wev = d.wev := rfl
@[simp] theorem Dev.setCq_sram (d : Dev) (r : Nat) (x : CompRing) : (d.setCq r x).sram = d.sram := rfl
@[simp] theorem Dev.setCq_hbm (d : Dev) (r : Nat) (x : CompRing) : (d.setCq r x).hbm = d.hbm := rfl
@[simp] theorem Dev.setCq_hbc (d : Dev) (r : Nat) (x : CompRing) : (d.setCq r x).hbc = d.hbc := rfl
@[simp] theorem Dev.setCq_ghd (d : Dev) (r : Nat) (x : CompRing) : (d.setCq r x).ghd = d.ghd := rfl
@[simp] theorem Dev.setCq_owners (d : Dev) (r : Nat) (x : CompRing) : (d.setCq r x).owners = d.owners := rfl
@[simp] theorem Dev.setCq_cxi (d : Dev) (r : Nat) (x : CompRing) : (d.setCq r x).cxi = d.cxi := rfl
@[simp] theorem Dev.setCq_hlk (d : Dev) (r : Nat) (x : CompRing) : (d.setCq r x).hlk = d.hlk := rfl
@[simp] theorem Dev.setCq_commit (d : Dev) (r : Nat) (x : CompRing) : (d.setCq r x).commit = d.commit := rfl
@[simp] theorem Dev.setCq_dict (d : Dev) (r : Nat) (x : CompRing) : (d.setCq r x).dict = d.dict := rfl
@[simp] theorem Dev.setCq_tfb (d : Dev) (r : Nat) (x : CompRing) : (d.setCq r x).tfb = d.tfb := rfl
@[simp] theorem Dev.setCq_chm (d : Dev) (r : Nat) (x : CompRing) : (d.setCq r x).chm = d.chm := rfl
@[simp] theorem Dev.setCq_cex (d : Dev) (r : Nat) (x : CompRing) : (d.setCq r x).cex = d.cex := rfl
@[simp] theorem Dev.setCq_graze (d : Dev) (r : Nat) (x : CompRing) : (d.setCq r x).graze = d.graze := rfl
@[simp] theorem Dev.setCq_tmv (d : Dev) (r : Nat) (x : CompRing) : (d.setCq r x).tmv = d.tmv := rfl
@[simp] theorem Dev.setCq_ibx (d : Dev) (r : Nat) (x : CompRing) : (d.setCq r x).ibx = d.ibx := rfl
@[simp] theorem Dev.setCq_procs (d : Dev) (r : Nat) (x : CompRing) : (d.setCq r x).procs = d.procs := rfl
@[simp] theorem Dev.setCq_regHist (d : Dev) (r : Nat) (x : CompRing) : (d.setCq r x).regHist = d.regHist := rfl
@[simp] theorem Dev.setCq_reply (d : Dev) (r : Nat) (x : CompRing) : (d.setCq r x).reply = d.reply := rfl
@[simp] theorem Dev.setCq_outbox (d : Dev) (r : Nat) (x : CompRing) : (d.setCq r x).outbox = d.outbox := rfl

@[simp] theorem Dev.setMsix_now (d : Dev) (f : Nat) (m : Msix) : (d.setMsix f m).now = d.now := rfl
@[simp] theorem Dev.setMsix_regs (d : Dev) (f : Nat) (m : Msix) : (d.setMsix f m).regs = d.regs := rfl
@[simp] theorem Dev.setMsix_domains (d : Dev) (f : Nat) (m : Msix) : (d.setMsix f m).domains = d.domains := rfl
@[simp] theorem Dev.setMsix_freeIdx (d : Dev) (f : Nat) (m : Msix) : (d.setMsix f m).freeIdx = d.freeIdx := rfl
@[simp] theorem Dev.setMsix_spr (d : Dev) (f : Nat) (m : Msix) : (d.setMsix f m).spr = d.spr := rfl
@[simp] theorem Dev.setMsix_fio (d : Dev) (f : Nat) (m : Msix) : (d.setMsix f m).fio = d.fio := rfl
@[simp] theorem Dev.setMsix_evc (d : Dev) (f : Nat) (m : Msix) : (d.setMsix f m).evc = d.evc := rfl
@[simp] theorem Dev.setMsix_wev (d : Dev) (f : Nat) (m : Msix) : (d.setMsix f m).wev = d.wev := rfl
@[simp] theorem Dev.setMsix_sram (d : Dev) (f : Nat) (m : Msix) : (d.setMsix f m).sram = d.sram := rfl
@[simp] theorem Dev.setMsix_hbm (d : Dev) (f : Nat) (m : Msix) : (d.setMsix f m).hbm = d.hbm := rfl
@[simp] theorem Dev.setMsix_hbc (d : Dev) (f : Nat) (m : Msix) : (d.setMsix f m).hbc = d.hbc := rfl
@[simp] theorem Dev.setMsix_ghd (d : Dev) (f : Nat) (m : Msix) : (d.setMsix f m).ghd = d.ghd := rfl
@[simp] theorem Dev.setMsix_owners (d : Dev) (f : Nat) (m : Msix) : (d.setMsix f m).owners = d.owners := rfl
@[simp] theorem Dev.setMsix_cxi (d : Dev) (f : Nat) (m : Msix) : (d.setMsix f m).cxi = d.cxi := rfl
@[simp] theorem Dev.setMsix_hlk (d : Dev) (f : Nat) (m : Msix) : (d.setMsix f m).hlk = d.hlk := rfl
@[simp] theorem Dev.setMsix_commit (d : Dev) (f : Nat) (m : Msix) : (d.setMsix f m).commit = d.commit := rfl
@[simp] theorem Dev.setMsix_dict (d : Dev) (f : Nat) (m : Msix) : (d.setMsix f m).dict = d.dict := rfl
@[simp] theorem Dev.setMsix_tfb (d : Dev) (f : Nat) (m : Msix) : (d.setMsix f m).tfb = d.tfb := rfl
@[simp] theorem Dev.setMsix_chm (d : Dev) (f : Nat) (m : Msix) : (d.setMsix f m).chm = d.chm := rfl
@[simp] theorem Dev.setMsix_cex (d : Dev) (f : Nat) (m : Msix) : (d.setMsix f m).cex = d.cex := rfl
@[simp] theorem Dev.setMsix_graze (d : Dev) (f : Nat) (m : Msix) : (d.setMsix f m).graze = d.graze := rfl
@[simp] theorem Dev.setMsix_tmv (d : Dev) (f : Nat) (m : Msix) : (d.setMsix f m).tmv = d.tmv := rfl
@[simp] theorem Dev.setMsix_ibx (d : Dev) (f : Nat) (m : Msix) : (d.setMsix f m).ibx = d.ibx := rfl
@[simp] theorem Dev.setMsix_procs (d : Dev) (f : Nat) (m : Msix) : (d.setMsix f m).procs = d.procs := rfl
@[simp] theorem Dev.setMsix_regHist (d : Dev) (f : Nat) (m : Msix) : (d.setMsix f m).regHist = d.regHist := rfl
@[simp] theorem Dev.setMsix_reply (d : Dev) (f : Nat) (m : Msix) : (d.setMsix f m).reply = d.reply := rfl
@[simp] theorem Dev.setMsix_outbox (d : Dev) (f : Nat) (m : Msix) : (d.setMsix f m).outbox = d.outbox := rfl

@[simp] theorem Dev.putXfer_now (d : Dev) (i : Nat) (m : MemWord) : (d.putXfer i m).now = d.now := rfl
@[simp] theorem Dev.putXfer_regs (d : Dev) (i : Nat) (m : MemWord) : (d.putXfer i m).regs = d.regs := rfl
@[simp] theorem Dev.putXfer_domains (d : Dev) (i : Nat) (m : MemWord) : (d.putXfer i m).domains = d.domains := rfl
@[simp] theorem Dev.putXfer_freeIdx (d : Dev) (i : Nat) (m : MemWord) : (d.putXfer i m).freeIdx = d.freeIdx := rfl
@[simp] theorem Dev.putXfer_spr (d : Dev) (i : Nat) (m : MemWord) : (d.putXfer i m).spr = d.spr := rfl
@[simp] theorem Dev.putXfer_fio (d : Dev) (i : Nat) (m : MemWord) : (d.putXfer i m).fio = d.fio := rfl
@[simp] theorem Dev.putXfer_evc (d : Dev) (i : Nat) (m : MemWord) : (d.putXfer i m).evc = d.evc := rfl
@[simp] theorem Dev.putXfer_wev (d : Dev) (i : Nat) (m : MemWord) : (d.putXfer i m).wev = d.wev := rfl
@[simp] theorem Dev.putXfer_sram (d : Dev) (i : Nat) (m : MemWord) : (d.putXfer i m).sram = d.sram := rfl
@[simp] theorem Dev.putXfer_hbm (d : Dev) (i : Nat) (m : MemWord) : (d.putXfer i m).hbm = d.hbm := rfl
@[simp] theorem Dev.putXfer_ghd (d : Dev) (i : Nat) (m : MemWord) : (d.putXfer i m).ghd = d.ghd := rfl
@[simp] theorem Dev.putXfer_owners (d : Dev) (i : Nat) (m : MemWord) : (d.putXfer i m).owners = d.owners := rfl
@[simp] theorem Dev.putXfer_cxi (d : Dev) (i : Nat) (m : MemWord) : (d.putXfer i m).cxi = d.cxi := rfl
@[simp] theorem Dev.putXfer_hlk (d : Dev) (i : Nat) (m : MemWord) : (d.putXfer i m).hlk = d.hlk := rfl
@[simp] theorem Dev.putXfer_commit (d : Dev) (i : Nat) (m : MemWord) : (d.putXfer i m).commit = d.commit := rfl
@[simp] theorem Dev.putXfer_dict (d : Dev) (i : Nat) (m : MemWord) : (d.putXfer i m).dict = d.dict := rfl
@[simp] theorem Dev.putXfer_tfb (d : Dev) (i : Nat) (m : MemWord) : (d.putXfer i m).tfb = d.tfb := rfl
@[simp] theorem Dev.putXfer_chm (d : Dev) (i : Nat) (m : MemWord) : (d.putXfer i m).chm = d.chm := rfl
@[simp] theorem Dev.putXfer_cex (d : Dev) (i : Nat) (m : MemWord) : (d.putXfer i m).cex = d.cex := rfl
@[simp] theorem Dev.putXfer_graze (d : Dev) (i : Nat) (m : MemWord) : (d.putXfer i m).graze = d.graze := rfl
@[simp] theorem Dev.putXfer_tmv (d : Dev) (i : Nat) (m : MemWord) : (d.putXfer i m).tmv = d.tmv := rfl
@[simp] theorem Dev.putXfer_hif (d : Dev) (i : Nat) (m : MemWord) : (d.putXfer i m).hif = d.hif := rfl
@[simp] theorem Dev.putXfer_ibx (d : Dev) (i : Nat) (m : MemWord) : (d.putXfer i m).ibx = d.ibx := rfl
@[simp] theorem Dev.putXfer_procs (d : Dev) (i : Nat) (m : MemWord) : (d.putXfer i m).procs = d.procs := rfl
@[simp] theorem Dev.putXfer_regHist (d : Dev) (i : Nat) (m : MemWord) : (d.putXfer i m).regHist = d.regHist := rfl
@[simp] theorem Dev.putXfer_reply (d : Dev) (i : Nat) (m : MemWord) : (d.putXfer i m).reply = d.reply := rfl
@[simp] theorem Dev.putXfer_outbox (d : Dev) (i : Nat) (m : MemWord) : (d.putXfer i m).outbox = d.outbox := rfl

@[simp] theorem Dev.setSq_now (d : Dev) (r : Nat) (x : SubRing) : (d.setSq r x).now = d.now := rfl
@[simp] theorem Dev.setSq_domains (d : Dev) (r : Nat) (x : SubRing) : (d.setSq r x).domains = d.domains := rfl
@[simp] theorem Dev.setSq_freeIdx (d : Dev) (r : Nat) (x : SubRing) : (d.setSq r x).freeIdx = d.freeIdx := rfl
@[simp] theorem Dev.setSq_spr (d : Dev) (r : Nat) (x : SubRing) : (d.setSq r x).spr = d.spr := rfl
@[simp] theorem Dev.setSq_fio (d : Dev) (r : Nat) (x : SubRing) : (d.setSq r x).fio = d.fio := rfl
@[simp] theorem Dev.setSq_evc (d : Dev) (r : Nat) (x : SubRing) : (d.setSq r x).evc = d.evc := rfl
@[simp] theorem Dev.setSq_wev (d : Dev) (r : Nat) (x : SubRing) : (d.setSq r x).wev = d.wev := rfl
@[simp] theorem Dev.setSq_sram (d : Dev) (r : Nat) (x : SubRing) : (d.setSq r x).sram = d.sram := rfl
@[simp] theorem Dev.setSq_hbm (d : Dev) (r : Nat) (x : SubRing) : (d.setSq r x).hbm = d.hbm := rfl
@[simp] theorem Dev.setSq_hbc (d : Dev) (r : Nat) (x : SubRing) : (d.setSq r x).hbc = d.hbc := rfl
@[simp] theorem Dev.setSq_ghd (d : Dev) (r : Nat) (x : SubRing) : (d.setSq r x).ghd = d.ghd := rfl
@[simp] theorem Dev.setSq_owners (d : Dev) (r : Nat) (x : SubRing) : (d.setSq r x).owners = d.owners := rfl
@[simp] theorem Dev.setSq_cxi (d : Dev) (r : Nat) (x : SubRing) : (d.setSq r x).cxi = d.cxi := rfl
@[simp] theorem Dev.setSq_hlk (d : Dev) (r : Nat) (x : SubRing) : (d.setSq r x).hlk = d.hlk := rfl
@[simp] theorem Dev.setSq_commit (d : Dev) (r : Nat) (x : SubRing) : (d.setSq r x).commit = d.commit := rfl
@[simp] theorem Dev.setSq_dict (d : Dev) (r : Nat) (x : SubRing) : (d.setSq r x).dict = d.dict := rfl
@[simp] theorem Dev.setSq_tfb (d : Dev) (r : Nat) (x : SubRing) : (d.setSq r x).tfb = d.tfb := rfl
@[simp] theorem Dev.setSq_chm (d : Dev) (r : Nat) (x : SubRing) : (d.setSq r x).chm = d.chm := rfl
@[simp] theorem Dev.setSq_cex (d : Dev) (r : Nat) (x : SubRing) : (d.setSq r x).cex = d.cex := rfl
@[simp] theorem Dev.setSq_graze (d : Dev) (r : Nat) (x : SubRing) : (d.setSq r x).graze = d.graze := rfl
@[simp] theorem Dev.setSq_tmv (d : Dev) (r : Nat) (x : SubRing) : (d.setSq r x).tmv = d.tmv := rfl
@[simp] theorem Dev.setSq_ibx (d : Dev) (r : Nat) (x : SubRing) : (d.setSq r x).ibx = d.ibx := rfl
@[simp] theorem Dev.setSq_procs (d : Dev) (r : Nat) (x : SubRing) : (d.setSq r x).procs = d.procs := rfl
@[simp] theorem Dev.setSq_regHist (d : Dev) (r : Nat) (x : SubRing) : (d.setSq r x).regHist = d.regHist := rfl
@[simp] theorem Dev.setSq_reply (d : Dev) (r : Nat) (x : SubRing) : (d.setSq r x).reply = d.reply := rfl
@[simp] theorem Dev.setSq_outbox (d : Dev) (r : Nat) (x : SubRing) : (d.setSq r x).outbox = d.outbox := rfl

@[simp] theorem Dev.setMbx_now (d : Dev) (f : Nat) (m : Mailbox) : (d.setMbx f m).now = d.now := rfl
@[simp] theorem Dev.setMbx_regs (d : Dev) (f : Nat) (m : Mailbox) : (d.setMbx f m).regs = d.regs := rfl
@[simp] theorem Dev.setMbx_domains (d : Dev) (f : Nat) (m : Mailbox) : (d.setMbx f m).domains = d.domains := rfl
@[simp] theorem Dev.setMbx_freeIdx (d : Dev) (f : Nat) (m : Mailbox) : (d.setMbx f m).freeIdx = d.freeIdx := rfl
@[simp] theorem Dev.setMbx_spr (d : Dev) (f : Nat) (m : Mailbox) : (d.setMbx f m).spr = d.spr := rfl
@[simp] theorem Dev.setMbx_fio (d : Dev) (f : Nat) (m : Mailbox) : (d.setMbx f m).fio = d.fio := rfl
@[simp] theorem Dev.setMbx_evc (d : Dev) (f : Nat) (m : Mailbox) : (d.setMbx f m).evc = d.evc := rfl
@[simp] theorem Dev.setMbx_wev (d : Dev) (f : Nat) (m : Mailbox) : (d.setMbx f m).wev = d.wev := rfl
@[simp] theorem Dev.setMbx_sram (d : Dev) (f : Nat) (m : Mailbox) : (d.setMbx f m).sram = d.sram := rfl
@[simp] theorem Dev.setMbx_hbm (d : Dev) (f : Nat) (m : Mailbox) : (d.setMbx f m).hbm = d.hbm := rfl
@[simp] theorem Dev.setMbx_hbc (d : Dev) (f : Nat) (m : Mailbox) : (d.setMbx f m).hbc = d.hbc := rfl
@[simp] theorem Dev.setMbx_ghd (d : Dev) (f : Nat) (m : Mailbox) : (d.setMbx f m).ghd = d.ghd := rfl
@[simp] theorem Dev.setMbx_owners (d : Dev) (f : Nat) (m : Mailbox) : (d.setMbx f m).owners = d.owners := rfl
@[simp] theorem Dev.setMbx_cxi (d : Dev) (f : Nat) (m : Mailbox) : (d.setMbx f m).cxi = d.cxi := rfl
@[simp] theorem Dev.setMbx_hlk (d : Dev) (f : Nat) (m : Mailbox) : (d.setMbx f m).hlk = d.hlk := rfl
@[simp] theorem Dev.setMbx_commit (d : Dev) (f : Nat) (m : Mailbox) : (d.setMbx f m).commit = d.commit := rfl
@[simp] theorem Dev.setMbx_dict (d : Dev) (f : Nat) (m : Mailbox) : (d.setMbx f m).dict = d.dict := rfl
@[simp] theorem Dev.setMbx_tfb (d : Dev) (f : Nat) (m : Mailbox) : (d.setMbx f m).tfb = d.tfb := rfl
@[simp] theorem Dev.setMbx_chm (d : Dev) (f : Nat) (m : Mailbox) : (d.setMbx f m).chm = d.chm := rfl
@[simp] theorem Dev.setMbx_cex (d : Dev) (f : Nat) (m : Mailbox) : (d.setMbx f m).cex = d.cex := rfl
@[simp] theorem Dev.setMbx_graze (d : Dev) (f : Nat) (m : Mailbox) : (d.setMbx f m).graze = d.graze := rfl
@[simp] theorem Dev.setMbx_tmv (d : Dev) (f : Nat) (m : Mailbox) : (d.setMbx f m).tmv = d.tmv := rfl
@[simp] theorem Dev.setMbx_ibx (d : Dev) (f : Nat) (m : Mailbox) : (d.setMbx f m).ibx = d.ibx := rfl
@[simp] theorem Dev.setMbx_procs (d : Dev) (f : Nat) (m : Mailbox) : (d.setMbx f m).procs = d.procs := rfl
@[simp] theorem Dev.setMbx_regHist (d : Dev) (f : Nat) (m : Mailbox) : (d.setMbx f m).regHist = d.regHist := rfl
@[simp] theorem Dev.setMbx_reply (d : Dev) (f : Nat) (m : Mailbox) : (d.setMbx f m).reply = d.reply := rfl
@[simp] theorem Dev.setMbx_outbox (d : Dev) (f : Nat) (m : Mailbox) : (d.setMbx f m).outbox = d.outbox := rfl

@[simp] theorem Dev.setProc_now (d : Dev) (n : Nat) (p : Proc) : (d.setProc n p).now = d.now := rfl
@[simp] theorem Dev.setProc_regs (d : Dev) (n : Nat) (p : Proc) : (d.setProc n p).regs = d.regs := rfl
@[simp] theorem Dev.setProc_domains (d : Dev) (n : Nat) (p : Proc) : (d.setProc n p).domains = d.domains := rfl
@[simp] theorem Dev.setProc_freeIdx (d : Dev) (n : Nat) (p : Proc) : (d.setProc n p).freeIdx = d.freeIdx := rfl
@[simp] theorem Dev.setProc_spr (d : Dev) (n : Nat) (p : Proc) : (d.setProc n p).spr = d.spr := rfl
@[simp] theorem Dev.setProc_fio (d : Dev) (n : Nat) (p : Proc) : (d.setProc n p).fio = d.fio := rfl
@[simp] theorem Dev.setProc_evc (d : Dev) (n : Nat) (p : Proc) : (d.setProc n p).evc = d.evc := rfl
@[simp] theorem Dev.setProc_wev (d : Dev) (n : Nat) (p : Proc) : (d.setProc n p).wev = d.wev := rfl
@[simp] theorem Dev.setProc_sram (d : Dev) (n : Nat) (p : Proc) : (d.setProc n p).sram = d.sram := rfl
@[simp] theorem Dev.setProc_hbm (d : Dev) (n : Nat) (p : Proc) : (d.setProc n p).hbm = d.hbm := rfl
@[simp] theorem Dev.setProc_hbc (d : Dev) (n : Nat) (p : Proc) : (d.setProc n p).hbc = d.hbc := rfl
@[simp] theorem Dev.setProc_ghd (d : Dev) (n : Nat) (p : Proc) : (d.setProc n p).ghd = d.ghd := rfl
@[simp] theorem Dev.setProc_owners (d : Dev) (n : Nat) (p : Proc) : (d.setProc n p).owners = d.owners := rfl
@[simp] theorem Dev.setProc_cxi (d : Dev) (n : Nat) (p : Proc) : (d.setProc n p).cxi = d.cxi := rfl
@[simp] theorem Dev.setProc_hlk (d : Dev) (n : Nat) (p : Proc) : (d.setProc n p).hlk = d.hlk := rfl
@[simp] theorem Dev.setProc_commit (d : Dev) (n : Nat) (p : Proc) : (d.setProc n p).commit = d.commit := rfl
@[simp] theorem Dev.setProc_dict (d : Dev) (n : Nat) (p : Proc) : (d.setProc n p).dict = d.dict := rfl
@[simp] theorem Dev.setProc_tfb (d : Dev) (n : Nat) (p : Proc) : (d.setProc n p).tfb = d.tfb := rfl
@[simp] theorem Dev.setProc_chm (d : Dev) (n : Nat) (p : Proc) : (d.setProc n p).chm = d.chm := rfl
@[simp] theorem Dev.setProc_cex (d : Dev) (n : Nat) (p : Proc) : (d.setProc n p).cex = d.cex := rfl
@[simp] theorem Dev.setProc_graze (d : Dev) (n : Nat) (p : Proc) : (d.setProc n p).graze = d.graze := rfl
@[simp] theorem Dev.setProc_tmv (d : Dev) (n : Nat) (p : Proc) : (d.setProc n p).tmv = d.tmv := rfl
@[simp] theorem Dev.setProc_hif (d : Dev) (n : Nat) (p : Proc) : (d.setProc n p).hif = d.hif := rfl
@[simp] theorem Dev.setProc_ibx (d : Dev) (n : Nat) (p : Proc) : (d.setProc n p).ibx = d.ibx := rfl
@[simp] theorem Dev.setProc_regHist (d : Dev) (n : Nat) (p : Proc) : (d.setProc n p).regHist = d.regHist := rfl
@[simp] theorem Dev.setProc_reply (d : Dev) (n : Nat) (p : Proc) : (d.setProc n p).reply = d.reply := rfl
@[simp] theorem Dev.setProc_outbox (d : Dev) (n : Nat) (p : Proc) : (d.setProc n p).outbox = d.outbox := rfl

@[simp] theorem Dev.setDomain_now (d : Dev) (k : Nat) (x : DomState) : (d.setDomain k x).now = d.now := rfl
@[simp] theorem Dev.setDomain_regs (d : Dev) (k : Nat) (x : DomState) : (d.setDomain k x).regs = d.regs := rfl
@[simp] theorem Dev.setDomain_freeIdx (d : Dev) (k : Nat) (x : DomState) : (d.setDomain k x).freeIdx = d.freeIdx := rfl
@[simp] theorem Dev.setDomain_spr (d : Dev) (k : Nat) (x : DomState) : (d.setDomain k x).spr = d.spr := rfl
@[simp] theorem Dev.setDomain_fio (d : Dev) (k : Nat) (x : DomState) : (d.setDomain k x).fio = d.fio := rfl
@[simp] theorem Dev.setDomain_evc (d : Dev) (k : Nat) (x : DomState) : (d.setDomain k x).evc = d.evc := rfl
@[simp] theorem Dev.setDomain_wev (d : Dev) (k : Nat) (x : DomState) : (d.setDomain k x).wev = d.wev := rfl
@[simp] theorem Dev.setDomain_sram (d : Dev) (k : Nat) (x : DomState) : (d.setDomain k x).sram = d.sram := rfl
@[simp] theorem Dev.setDomain_hbm (d : Dev) (k : Nat) (x : DomState) : (d.setDomain k x).hbm = d.hbm := rfl
@[simp] theorem Dev.setDomain_hbc (d : Dev) (k : Nat) (x : DomState) : (d.setDomain k x).hbc = d.hbc := rfl
@[simp] theorem Dev.setDomain_ghd (d : Dev) (k : Nat) (x : DomState) : (d.setDomain k x).ghd = d.ghd := rfl
@[simp] theorem Dev.setDomain_owners (d : Dev) (k : Nat) (x : DomState) : (d.setDomain k x).owners = d.owners := rfl
@[simp] theorem Dev.setDomain_cxi (d : Dev) (k : Nat) (x : DomState) : (d.setDomain k x).cxi = d.cxi := rfl
@[simp] theorem Dev.setDomain_hlk (d : Dev) (k : Nat) (x : DomState) : (d.setDomain k x).hlk = d.hlk := rfl
@[simp] theorem Dev.setDomain_commit (d : Dev) (k : Nat) (x : DomState) : (d.setDomain k x).commit = d.commit := rfl
@[simp] theorem Dev.setDomain_dict (d : Dev) (k : Nat) (x : DomState) : (d.setDomain k x).dict = d.dict := rfl
@[simp] theorem Dev.setDomain_tfb (d : Dev) (k : Nat) (x : DomState) : (d.setDomain k x).tfb = d.tfb := rfl
@[simp] theorem Dev.setDomain_chm (d : Dev) (k : Nat) (x : DomState) : (d.setDomain k x).chm = d.chm := rfl
@[simp] theorem Dev.setDomain_cex (d : Dev) (k : Nat) (x : DomState) : (d.setDomain k x).cex = d.cex := rfl
@[simp] theorem Dev.setDomain_graze (d : Dev) (k : Nat) (x : DomState) : (d.setDomain k x).graze = d.graze := rfl
@[simp] theorem Dev.setDomain_tmv (d : Dev) (k : Nat) (x : DomState) : (d.setDomain k x).tmv = d.tmv := rfl
@[simp] theorem Dev.setDomain_hif (d : Dev) (k : Nat) (x : DomState) : (d.setDomain k x).hif = d.hif := rfl
@[simp] theorem Dev.setDomain_ibx (d : Dev) (k : Nat) (x : DomState) : (d.setDomain k x).ibx = d.ibx := rfl
@[simp] theorem Dev.setDomain_procs (d : Dev) (k : Nat) (x : DomState) : (d.setDomain k x).procs = d.procs := rfl
@[simp] theorem Dev.setDomain_regHist (d : Dev) (k : Nat) (x : DomState) : (d.setDomain k x).regHist = d.regHist := rfl
@[simp] theorem Dev.setDomain_reply (d : Dev) (k : Nat) (x : DomState) : (d.setDomain k x).reply = d.reply := rfl
@[simp] theorem Dev.setDomain_outbox (d : Dev) (k : Nat) (x : DomState) : (d.setDomain k x).outbox = d.outbox := rfl

@[simp] theorem Dev.answer_now (d : Dev) (st sub : Nat) : (d.answer st sub).now = d.now := rfl
@[simp] theorem Dev.answer_regs (d : Dev) (st sub : Nat) : (d.answer st sub).regs = d.regs := rfl
@[simp] theorem Dev.answer_domains (d : Dev) (st sub : Nat) : (d.answer st sub).domains = d.domains := rfl
@[simp] theorem Dev.answer_freeIdx (d : Dev) (st sub : Nat) : (d.answer st sub).freeIdx = d.freeIdx := rfl
@[simp] theorem Dev.answer_spr (d : Dev) (st sub : Nat) : (d.answer st sub).spr = d.spr := rfl
@[simp] theorem Dev.answer_fio (d : Dev) (st sub : Nat) : (d.answer st sub).fio = d.fio := rfl
@[simp] theorem Dev.answer_evc (d : Dev) (st sub : Nat) : (d.answer st sub).evc = d.evc := rfl
@[simp] theorem Dev.answer_wev (d : Dev) (st sub : Nat) : (d.answer st sub).wev = d.wev := rfl
@[simp] theorem Dev.answer_sram (d : Dev) (st sub : Nat) : (d.answer st sub).sram = d.sram := rfl
@[simp] theorem Dev.answer_hbm (d : Dev) (st sub : Nat) : (d.answer st sub).hbm = d.hbm := rfl
@[simp] theorem Dev.answer_hbc (d : Dev) (st sub : Nat) : (d.answer st sub).hbc = d.hbc := rfl
@[simp] theorem Dev.answer_ghd (d : Dev) (st sub : Nat) : (d.answer st sub).ghd = d.ghd := rfl
@[simp] theorem Dev.answer_owners (d : Dev) (st sub : Nat) : (d.answer st sub).owners = d.owners := rfl
@[simp] theorem Dev.answer_cxi (d : Dev) (st sub : Nat) : (d.answer st sub).cxi = d.cxi := rfl
@[simp] theorem Dev.answer_hlk (d : Dev) (st sub : Nat) : (d.answer st sub).hlk = d.hlk := rfl
@[simp] theorem Dev.answer_commit (d : Dev) (st sub : Nat) : (d.answer st sub).commit = d.commit := rfl
@[simp] theorem Dev.answer_dict (d : Dev) (st sub : Nat) : (d.answer st sub).dict = d.dict := rfl
@[simp] theorem Dev.answer_tfb (d : Dev) (st sub : Nat) : (d.answer st sub).tfb = d.tfb := rfl
@[simp] theorem Dev.answer_chm (d : Dev) (st sub : Nat) : (d.answer st sub).chm = d.chm := rfl
@[simp] theorem Dev.answer_cex (d : Dev) (st sub : Nat) : (d.answer st sub).cex = d.cex := rfl
@[simp] theorem Dev.answer_graze (d : Dev) (st sub : Nat) : (d.answer st sub).graze = d.graze := rfl
@[simp] theorem Dev.answer_tmv (d : Dev) (st sub : Nat) : (d.answer st sub).tmv = d.tmv := rfl
@[simp] theorem Dev.answer_hif (d : Dev) (st sub : Nat) : (d.answer st sub).hif = d.hif := rfl
@[simp] theorem Dev.answer_ibx (d : Dev) (st sub : Nat) : (d.answer st sub).ibx = d.ibx := rfl
@[simp] theorem Dev.answer_procs (d : Dev) (st sub : Nat) : (d.answer st sub).procs = d.procs := rfl
@[simp] theorem Dev.answer_regHist (d : Dev) (st sub : Nat) : (d.answer st sub).regHist = d.regHist := rfl
@[simp] theorem Dev.answer_outbox (d : Dev) (st sub : Nat) : (d.answer st sub).outbox = d.outbox := rfl

@[simp] theorem Dev.setJob_now (d : Dev) (j : Nat) (x : RetroJob) : (d.setJob j x).now = d.now := rfl
@[simp] theorem Dev.setJob_regs (d : Dev) (j : Nat) (x : RetroJob) : (d.setJob j x).regs = d.regs := rfl
@[simp] theorem Dev.setJob_domains (d : Dev) (j : Nat) (x : RetroJob) : (d.setJob j x).domains = d.domains := rfl
@[simp] theorem Dev.setJob_freeIdx (d : Dev) (j : Nat) (x : RetroJob) : (d.setJob j x).freeIdx = d.freeIdx := rfl
@[simp] theorem Dev.setJob_spr (d : Dev) (j : Nat) (x : RetroJob) : (d.setJob j x).spr = d.spr := rfl
@[simp] theorem Dev.setJob_fio (d : Dev) (j : Nat) (x : RetroJob) : (d.setJob j x).fio = d.fio := rfl
@[simp] theorem Dev.setJob_evc (d : Dev) (j : Nat) (x : RetroJob) : (d.setJob j x).evc = d.evc := rfl
@[simp] theorem Dev.setJob_wev (d : Dev) (j : Nat) (x : RetroJob) : (d.setJob j x).wev = d.wev := rfl
@[simp] theorem Dev.setJob_sram (d : Dev) (j : Nat) (x : RetroJob) : (d.setJob j x).sram = d.sram := rfl
@[simp] theorem Dev.setJob_hbm (d : Dev) (j : Nat) (x : RetroJob) : (d.setJob j x).hbm = d.hbm := rfl
@[simp] theorem Dev.setJob_hbc (d : Dev) (j : Nat) (x : RetroJob) : (d.setJob j x).hbc = d.hbc := rfl
@[simp] theorem Dev.setJob_ghd (d : Dev) (j : Nat) (x : RetroJob) : (d.setJob j x).ghd = d.ghd := rfl
@[simp] theorem Dev.setJob_owners (d : Dev) (j : Nat) (x : RetroJob) : (d.setJob j x).owners = d.owners := rfl
@[simp] theorem Dev.setJob_cxi (d : Dev) (j : Nat) (x : RetroJob) : (d.setJob j x).cxi = d.cxi := rfl
@[simp] theorem Dev.setJob_hlk (d : Dev) (j : Nat) (x : RetroJob) : (d.setJob j x).hlk = d.hlk := rfl
@[simp] theorem Dev.setJob_commit (d : Dev) (j : Nat) (x : RetroJob) : (d.setJob j x).commit = d.commit := rfl
@[simp] theorem Dev.setJob_dict (d : Dev) (j : Nat) (x : RetroJob) : (d.setJob j x).dict = d.dict := rfl
@[simp] theorem Dev.setJob_tfb (d : Dev) (j : Nat) (x : RetroJob) : (d.setJob j x).tfb = d.tfb := rfl
@[simp] theorem Dev.setJob_chm (d : Dev) (j : Nat) (x : RetroJob) : (d.setJob j x).chm = d.chm := rfl
@[simp] theorem Dev.setJob_graze (d : Dev) (j : Nat) (x : RetroJob) : (d.setJob j x).graze = d.graze := rfl
@[simp] theorem Dev.setJob_tmv (d : Dev) (j : Nat) (x : RetroJob) : (d.setJob j x).tmv = d.tmv := rfl
@[simp] theorem Dev.setJob_hif (d : Dev) (j : Nat) (x : RetroJob) : (d.setJob j x).hif = d.hif := rfl
@[simp] theorem Dev.setJob_ibx (d : Dev) (j : Nat) (x : RetroJob) : (d.setJob j x).ibx = d.ibx := rfl
@[simp] theorem Dev.setJob_procs (d : Dev) (j : Nat) (x : RetroJob) : (d.setJob j x).procs = d.procs := rfl
@[simp] theorem Dev.setJob_regHist (d : Dev) (j : Nat) (x : RetroJob) : (d.setJob j x).regHist = d.regHist := rfl
@[simp] theorem Dev.setJob_reply (d : Dev) (j : Nat) (x : RetroJob) : (d.setJob j x).reply = d.reply := rfl
@[simp] theorem Dev.setJob_outbox (d : Dev) (j : Nat) (x : RetroJob) : (d.setJob j x).outbox = d.outbox := rfl

@[simp] theorem Dev.setMoverQueue_now (d : Dev) (k : Nat) (l : List Nat) : (d.setMoverQueue k l).now = d.now := rfl
@[simp] theorem Dev.setMoverQueue_domains (d : Dev) (k : Nat) (l : List Nat) : (d.setMoverQueue k l).domains = d.domains := rfl
@[simp] theorem Dev.setMoverQueue_freeIdx (d : Dev) (k : Nat) (l : List Nat) : (d.setMoverQueue k l).freeIdx = d.freeIdx := rfl
@[simp] theorem Dev.setMoverQueue_spr (d : Dev) (k : Nat) (l : List Nat) : (d.setMoverQueue k l).spr = d.spr := rfl
@[simp] theorem Dev.setMoverQueue_fio (d : Dev) (k : Nat) (l : List Nat) : (d.setMoverQueue k l).fio = d.fio := rfl
@[simp] theorem Dev.setMoverQueue_evc (d : Dev) (k : Nat) (l : List Nat) : (d.setMoverQueue k l).evc = d.evc := rfl
@[simp] theorem Dev.setMoverQueue_wev (d : Dev) (k : Nat) (l : List Nat) : (d.setMoverQueue k l).wev = d.wev := rfl
@[simp] theorem Dev.setMoverQueue_sram (d : Dev) (k : Nat) (l : List Nat) : (d.setMoverQueue k l).sram = d.sram := rfl
@[simp] theorem Dev.setMoverQueue_hbm (d : Dev) (k : Nat) (l : List Nat) : (d.setMoverQueue k l).hbm = d.hbm := rfl
@[simp] theorem Dev.setMoverQueue_hbc (d : Dev) (k : Nat) (l : List Nat) : (d.setMoverQueue k l).hbc = d.hbc := rfl
@[simp] theorem Dev.setMoverQueue_ghd (d : Dev) (k : Nat) (l : List Nat) : (d.setMoverQueue k l).ghd = d.ghd := rfl
@[simp] theorem Dev.setMoverQueue_owners (d : Dev) (k : Nat) (l : List Nat) : (d.setMoverQueue k l).owners = d.owners := rfl
@[simp] theorem Dev.setMoverQueue_cxi (d : Dev) (k : Nat) (l : List Nat) : (d.setMoverQueue k l).cxi = d.cxi := rfl
@[simp] theorem Dev.setMoverQueue_hlk (d : Dev) (k : Nat) (l : List Nat) : (d.setMoverQueue k l).hlk = d.hlk := rfl
@[simp] theorem Dev.setMoverQueue_commit (d : Dev) (k : Nat) (l : List Nat) : (d.setMoverQueue k l).commit = d.commit := rfl
@[simp] theorem Dev.setMoverQueue_dict (d : Dev) (k : Nat) (l : List Nat) : (d.setMoverQueue k l).dict = d.dict := rfl
@[simp] theorem Dev.setMoverQueue_tfb (d : Dev) (k : Nat) (l : List Nat) : (d.setMoverQueue k l).tfb = d.tfb := rfl
@[simp] theorem Dev.setMoverQueue_chm (d : Dev) (k : Nat) (l : List Nat) : (d.setMoverQueue k l).chm = d.chm := rfl
@[simp] theorem Dev.setMoverQueue_cex (d : Dev) (k : Nat) (l : List Nat) : (d.setMoverQueue k l).cex = d.cex := rfl
@[simp] theorem Dev.setMoverQueue_graze (d : Dev) (k : Nat) (l : List Nat) : (d.setMoverQueue k l).graze = d.graze := rfl
@[simp] theorem Dev.setMoverQueue_hif (d : Dev) (k : Nat) (l : List Nat) : (d.setMoverQueue k l).hif = d.hif := rfl
@[simp] theorem Dev.setMoverQueue_ibx (d : Dev) (k : Nat) (l : List Nat) : (d.setMoverQueue k l).ibx = d.ibx := rfl
@[simp] theorem Dev.setMoverQueue_procs (d : Dev) (k : Nat) (l : List Nat) : (d.setMoverQueue k l).procs = d.procs := rfl
@[simp] theorem Dev.setMoverQueue_regHist (d : Dev) (k : Nat) (l : List Nat) : (d.setMoverQueue k l).regHist = d.regHist := rfl
@[simp] theorem Dev.setMoverQueue_reply (d : Dev) (k : Nat) (l : List Nat) : (d.setMoverQueue k l).reply = d.reply := rfl
@[simp] theorem Dev.setMoverQueue_outbox (d : Dev) (k : Nat) (l : List Nat) : (d.setMoverQueue k l).outbox = d.outbox := rfl

@[simp] theorem Dev.setImgSlot_now (d : Dev) (s : Nat) (x : ImageSlot) : (d.setImgSlot s x).now = d.now := rfl
@[simp] theorem Dev.setImgSlot_regs (d : Dev) (s : Nat) (x : ImageSlot) : (d.setImgSlot s x).regs = d.regs := rfl
@[simp] theorem Dev.setImgSlot_domains (d : Dev) (s : Nat) (x : ImageSlot) : (d.setImgSlot s x).domains = d.domains := rfl
@[simp] theorem Dev.setImgSlot_freeIdx (d : Dev) (s : Nat) (x : ImageSlot) : (d.setImgSlot s x).freeIdx = d.freeIdx := rfl
@[simp] theorem Dev.setImgSlot_spr (d : Dev) (s : Nat) (x : ImageSlot) : (d.setImgSlot s x).spr = d.spr := rfl
@[simp] theorem Dev.setImgSlot_fio (d : Dev) (s : Nat) (x : ImageSlot) : (d.setImgSlot s x).fio = d.fio := rfl
@[simp] theorem Dev.setImgSlot_evc (d : Dev) (s : Nat) (x : ImageSlot) : (d.setImgSlot s x).evc = d.evc := rfl
@[simp] theorem Dev.setImgSlot_wev (d : Dev) (s : Nat) (x : ImageSlot) : (d.setImgSlot s x).wev = d.wev := rfl
@[simp] theorem Dev.setImgSlot_sram (d : Dev) (s : Nat) (x : ImageSlot) : (d.setImgSlot s x).sram = d.sram := rfl
@[simp] theorem Dev.setImgSlot_hbm (d : Dev) (s : Nat) (x : ImageSlot) : (d.setImgSlot s x).hbm = d.hbm := rfl
@[simp] theorem Dev.setImgSlot_hbc (d : Dev) (s : Nat) (x : ImageSlot) : (d.setImgSlot s x).hbc = d.hbc := rfl
@[simp] theorem Dev.setImgSlot_owners (d : Dev) (s : Nat) (x : ImageSlot) : (d.setImgSlot s x).owners = d.owners := rfl
@[simp] theorem Dev.setImgSlot_cxi (d : Dev) (s : Nat) (x : ImageSlot) : (d.setImgSlot s x).cxi = d.cxi := rfl
@[simp] theorem Dev.setImgSlot_hlk (d : Dev) (s : Nat) (x : ImageSlot) : (d.setImgSlot s x).hlk = d.hlk := rfl
@[simp] theorem Dev.setImgSlot_commit (d : Dev) (s : Nat) (x : ImageSlot) : (d.setImgSlot s x).commit = d.commit := rfl
@[simp] theorem Dev.setImgSlot_dict (d : Dev) (s : Nat) (x : ImageSlot) : (d.setImgSlot s x).dict = d.dict := rfl
@[simp] theorem Dev.setImgSlot_tfb (d : Dev) (s : Nat) (x : ImageSlot) : (d.setImgSlot s x).tfb = d.tfb := rfl
@[simp] theorem Dev.setImgSlot_chm (d : Dev) (s : Nat) (x : ImageSlot) : (d.setImgSlot s x).chm = d.chm := rfl
@[simp] theorem Dev.setImgSlot_cex (d : Dev) (s : Nat) (x : ImageSlot) : (d.setImgSlot s x).cex = d.cex := rfl
@[simp] theorem Dev.setImgSlot_graze (d : Dev) (s : Nat) (x : ImageSlot) : (d.setImgSlot s x).graze = d.graze := rfl
@[simp] theorem Dev.setImgSlot_tmv (d : Dev) (s : Nat) (x : ImageSlot) : (d.setImgSlot s x).tmv = d.tmv := rfl
@[simp] theorem Dev.setImgSlot_hif (d : Dev) (s : Nat) (x : ImageSlot) : (d.setImgSlot s x).hif = d.hif := rfl
@[simp] theorem Dev.setImgSlot_ibx (d : Dev) (s : Nat) (x : ImageSlot) : (d.setImgSlot s x).ibx = d.ibx := rfl
@[simp] theorem Dev.setImgSlot_procs (d : Dev) (s : Nat) (x : ImageSlot) : (d.setImgSlot s x).procs = d.procs := rfl
@[simp] theorem Dev.setImgSlot_regHist (d : Dev) (s : Nat) (x : ImageSlot) : (d.setImgSlot s x).regHist = d.regHist := rfl
@[simp] theorem Dev.setImgSlot_reply (d : Dev) (s : Nat) (x : ImageSlot) : (d.setImgSlot s x).reply = d.reply := rfl
@[simp] theorem Dev.setImgSlot_outbox (d : Dev) (s : Nat) (x : ImageSlot) : (d.setImgSlot s x).outbox = d.outbox := rfl

@[simp] theorem Dev.setVarBytes_now (d : Dev) (index sub : Nat) (bs : List Byte) : (d.setVarBytes index sub bs).now = d.now := rfl
@[simp] theorem Dev.setVarBytes_regs (d : Dev) (index sub : Nat) (bs : List Byte) : (d.setVarBytes index sub bs).regs = d.regs := rfl
@[simp] theorem Dev.setVarBytes_domains (d : Dev) (index sub : Nat) (bs : List Byte) : (d.setVarBytes index sub bs).domains = d.domains := rfl
@[simp] theorem Dev.setVarBytes_freeIdx (d : Dev) (index sub : Nat) (bs : List Byte) : (d.setVarBytes index sub bs).freeIdx = d.freeIdx := rfl
@[simp] theorem Dev.setVarBytes_spr (d : Dev) (index sub : Nat) (bs : List Byte) : (d.setVarBytes index sub bs).spr = d.spr := rfl
@[simp] theorem Dev.setVarBytes_fio (d : Dev) (index sub : Nat) (bs : List Byte) : (d.setVarBytes index sub bs).fio = d.fio := rfl
@[simp] theorem Dev.setVarBytes_evc (d : Dev) (index sub : Nat) (bs : List Byte) : (d.setVarBytes index sub bs).evc = d.evc := rfl
@[simp] theorem Dev.setVarBytes_wev (d : Dev) (index sub : Nat) (bs : List Byte) : (d.setVarBytes index sub bs).wev = d.wev := rfl
@[simp] theorem Dev.setVarBytes_sram (d : Dev) (index sub : Nat) (bs : List Byte) : (d.setVarBytes index sub bs).sram = d.sram := rfl
@[simp] theorem Dev.setVarBytes_hbm (d : Dev) (index sub : Nat) (bs : List Byte) : (d.setVarBytes index sub bs).hbm = d.hbm := rfl
@[simp] theorem Dev.setVarBytes_hbc (d : Dev) (index sub : Nat) (bs : List Byte) : (d.setVarBytes index sub bs).hbc = d.hbc := rfl
@[simp] theorem Dev.setVarBytes_ghd (d : Dev) (index sub : Nat) (bs : List Byte) : (d.setVarBytes index sub bs).ghd = d.ghd := rfl
@[simp] theorem Dev.setVarBytes_owners (d : Dev) (index sub : Nat) (bs : List Byte) : (d.setVarBytes index sub bs).owners = d.owners := rfl
@[simp] theorem Dev.setVarBytes_cxi (d : Dev) (index sub : Nat) (bs : List Byte) : (d.setVarBytes index sub bs).cxi = d.cxi := rfl
@[simp] theorem Dev.setVarBytes_hlk (d : Dev) (index sub : Nat) (bs : List Byte) : (d.setVarBytes index sub bs).hlk = d.hlk := rfl
@[simp] theorem Dev.setVarBytes_commit (d : Dev) (index sub : Nat) (bs : List Byte) : (d.setVarBytes index sub bs).commit = d.commit := rfl
@[simp] theorem Dev.setVarBytes_tfb (d : Dev) (index sub : Nat) (bs : List Byte) : (d.setVarBytes index sub bs).tfb = d.tfb := rfl
@[simp] theorem Dev.setVarBytes_chm (d : Dev) (index sub : Nat) (bs : List Byte) : (d.setVarBytes index sub bs).chm = d.chm := rfl
@[simp] theorem Dev.setVarBytes_cex (d : Dev) (index sub : Nat) (bs : List Byte) : (d.setVarBytes index sub bs).cex = d.cex := rfl
@[simp] theorem Dev.setVarBytes_graze (d : Dev) (index sub : Nat) (bs : List Byte) : (d.setVarBytes index sub bs).graze = d.graze := rfl
@[simp] theorem Dev.setVarBytes_tmv (d : Dev) (index sub : Nat) (bs : List Byte) : (d.setVarBytes index sub bs).tmv = d.tmv := rfl
@[simp] theorem Dev.setVarBytes_hif (d : Dev) (index sub : Nat) (bs : List Byte) : (d.setVarBytes index sub bs).hif = d.hif := rfl
@[simp] theorem Dev.setVarBytes_ibx (d : Dev) (index sub : Nat) (bs : List Byte) : (d.setVarBytes index sub bs).ibx = d.ibx := rfl
@[simp] theorem Dev.setVarBytes_procs (d : Dev) (index sub : Nat) (bs : List Byte) : (d.setVarBytes index sub bs).procs = d.procs := rfl
@[simp] theorem Dev.setVarBytes_regHist (d : Dev) (index sub : Nat) (bs : List Byte) : (d.setVarBytes index sub bs).regHist = d.regHist := rfl
@[simp] theorem Dev.setVarBytes_reply (d : Dev) (index sub : Nat) (bs : List Byte) : (d.setVarBytes index sub bs).reply = d.reply := rfl
@[simp] theorem Dev.setVarBytes_outbox (d : Dev) (index sub : Nat) (bs : List Byte) : (d.setVarBytes index sub bs).outbox = d.outbox := rfl

@[simp] theorem Dev.setExtHead_now (d : Dev) (h : Nat) (x : ExtHead) : (d.setExtHead h x).now = d.now := rfl
@[simp] theorem Dev.setExtHead_regs (d : Dev) (h : Nat) (x : ExtHead) : (d.setExtHead h x).regs = d.regs := rfl
@[simp] theorem Dev.setExtHead_domains (d : Dev) (h : Nat) (x : ExtHead) : (d.setExtHead h x).domains = d.domains := rfl
@[simp] theorem Dev.setExtHead_freeIdx (d : Dev) (h : Nat) (x : ExtHead) : (d.setExtHead h x).freeIdx = d.freeIdx := rfl
@[simp] theorem Dev.setExtHead_spr (d : Dev) (h : Nat) (x : ExtHead) : (d.setExtHead h x).spr = d.spr := rfl
@[simp] theorem Dev.setExtHead_fio (d : Dev) (h : Nat) (x : ExtHead) : (d.setExtHead h x).fio = d.fio := rfl
@[simp] theorem Dev.setExtHead_evc (d : Dev) (h : Nat) (x : ExtHead) : (d.setExtHead h x).evc = d.evc := rfl
@[simp] theorem Dev.setExtHead_wev (d : Dev) (h : Nat) (x : ExtHead) : (d.setExtHead h x).wev = d.wev := rfl
@[simp] theorem Dev.setExtHead_sram (d : Dev) (h : Nat) (x : ExtHead) : (d.setExtHead h x).sram = d.sram := rfl
@[simp] theorem Dev.setExtHead_hbm (d : Dev) (h : Nat) (x : ExtHead) : (d.setExtHead h x).hbm = d.hbm := rfl
@[simp] theorem Dev.setExtHead_hbc (d : Dev) (h : Nat) (x : ExtHead) : (d.setExtHead h x).hbc = d.hbc := rfl
@[simp] theorem Dev.setExtHead_ghd (d : Dev) (h : Nat) (x : ExtHead) : (d.setExtHead h x).ghd = d.ghd := rfl
@[simp] theorem Dev.setExtHead_owners (d : Dev) (h : Nat) (x : ExtHead) : (d.setExtHead h x).owners = d.owners := rfl
@[simp] theorem Dev.setExtHead_cxi (d : Dev) (h : Nat) (x : ExtHead) : (d.setExtHead h x).cxi = d.cxi := rfl
@[simp] theorem Dev.setExtHead_hlk (d : Dev) (h : Nat) (x : ExtHead) : (d.setExtHead h x).hlk = d.hlk := rfl
@[simp] theorem Dev.setExtHead_commit (d : Dev) (h : Nat) (x : ExtHead) : (d.setExtHead h x).commit = d.commit := rfl
@[simp] theorem Dev.setExtHead_dict (d : Dev) (h : Nat) (x : ExtHead) : (d.setExtHead h x).dict = d.dict := rfl
@[simp] theorem Dev.setExtHead_tfb (d : Dev) (h : Nat) (x : ExtHead) : (d.setExtHead h x).tfb = d.tfb := rfl
@[simp] theorem Dev.setExtHead_chm (d : Dev) (h : Nat) (x : ExtHead) : (d.setExtHead h x).chm = d.chm := rfl
@[simp] theorem Dev.setExtHead_graze (d : Dev) (h : Nat) (x : ExtHead) : (d.setExtHead h x).graze = d.graze := rfl
@[simp] theorem Dev.setExtHead_tmv (d : Dev) (h : Nat) (x : ExtHead) : (d.setExtHead h x).tmv = d.tmv := rfl
@[simp] theorem Dev.setExtHead_hif (d : Dev) (h : Nat) (x : ExtHead) : (d.setExtHead h x).hif = d.hif := rfl
@[simp] theorem Dev.setExtHead_ibx (d : Dev) (h : Nat) (x : ExtHead) : (d.setExtHead h x).ibx = d.ibx := rfl
@[simp] theorem Dev.setExtHead_procs (d : Dev) (h : Nat) (x : ExtHead) : (d.setExtHead h x).procs = d.procs := rfl
@[simp] theorem Dev.setExtHead_regHist (d : Dev) (h : Nat) (x : ExtHead) : (d.setExtHead h x).regHist = d.regHist := rfl
@[simp] theorem Dev.setExtHead_reply (d : Dev) (h : Nat) (x : ExtHead) : (d.setExtHead h x).reply = d.reply := rfl
@[simp] theorem Dev.setExtHead_outbox (d : Dev) (h : Nat) (x : ExtHead) : (d.setExtHead h x).outbox = d.outbox := rfl

@[simp] theorem Dev.putQuery_now (d : Dev) (x : Query) : (d.putQuery x).now = d.now := rfl
@[simp] theorem Dev.putQuery_regs (d : Dev) (x : Query) : (d.putQuery x).regs = d.regs := rfl
@[simp] theorem Dev.putQuery_domains (d : Dev) (x : Query) : (d.putQuery x).domains = d.domains := rfl
@[simp] theorem Dev.putQuery_freeIdx (d : Dev) (x : Query) : (d.putQuery x).freeIdx = d.freeIdx := rfl
@[simp] theorem Dev.putQuery_spr (d : Dev) (x : Query) : (d.putQuery x).spr = d.spr := rfl
@[simp] theorem Dev.putQuery_fio (d : Dev) (x : Query) : (d.putQuery x).fio = d.fio := rfl
@[simp] theorem Dev.putQuery_evc (d : Dev) (x : Query) : (d.putQuery x).evc = d.evc := rfl
@[simp] theorem Dev.putQuery_wev (d : Dev) (x : Query) : (d.putQuery x).wev = d.wev := rfl
@[simp] theorem Dev.putQuery_sram (d : Dev) (x : Query) : (d.putQuery x).sram = d.sram := rfl
@[simp] theorem Dev.putQuery_hbm (d : Dev) (x : Query) : (d.putQuery x).hbm = d.hbm := rfl
@[simp] theorem Dev.putQuery_hbc (d : Dev) (x : Query) : (d.putQuery x).hbc = d.hbc := rfl
@[simp] theorem Dev.putQuery_ghd (d : Dev) (x : Query) : (d.putQuery x).ghd = d.ghd := rfl
@[simp] theorem Dev.putQuery_owners (d : Dev) (x : Query) : (d.putQuery x).owners = d.owners := rfl
@[simp] theorem Dev.putQuery_cxi (d : Dev) (x : Query) : (d.putQuery x).cxi = d.cxi := rfl
@[simp] theorem Dev.putQuery_hlk (d : Dev) (x : Query) : (d.putQuery x).hlk = d.hlk := rfl
@[simp] theorem Dev.putQuery_commit (d : Dev) (x : Query) : (d.putQuery x).commit = d.commit := rfl
@[simp] theorem Dev.putQuery_dict (d : Dev) (x : Query) : (d.putQuery x).dict = d.dict := rfl
@[simp] theorem Dev.putQuery_chm (d : Dev) (x : Query) : (d.putQuery x).chm = d.chm := rfl
@[simp] theorem Dev.putQuery_cex (d : Dev) (x : Query) : (d.putQuery x).cex = d.cex := rfl
@[simp] theorem Dev.putQuery_graze (d : Dev) (x : Query) : (d.putQuery x).graze = d.graze := rfl
@[simp] theorem Dev.putQuery_tmv (d : Dev) (x : Query) : (d.putQuery x).tmv = d.tmv := rfl
@[simp] theorem Dev.putQuery_hif (d : Dev) (x : Query) : (d.putQuery x).hif = d.hif := rfl
@[simp] theorem Dev.putQuery_ibx (d : Dev) (x : Query) : (d.putQuery x).ibx = d.ibx := rfl
@[simp] theorem Dev.putQuery_procs (d : Dev) (x : Query) : (d.putQuery x).procs = d.procs := rfl
@[simp] theorem Dev.putQuery_regHist (d : Dev) (x : Query) : (d.putQuery x).regHist = d.regHist := rfl
@[simp] theorem Dev.putQuery_reply (d : Dev) (x : Query) : (d.putQuery x).reply = d.reply := rfl
@[simp] theorem Dev.putQuery_outbox (d : Dev) (x : Query) : (d.putQuery x).outbox = d.outbox := rfl

end Sys2Proof.Machine
end

