-- ==== Sys2Proof/Laws/Table.lean ====
section
/-! SUPPORT. Laws of the sparse tables: a read after a write, and the canonical form of the memories. -/

namespace Sys2Proof.Machine

variable {α : Type}

/-- Reading after a write, at the key written. -/
theorem tfind_tset_same (t : Table α) (i : Nat) (a : α) : tfind (tset t i a) i = some a := by
  induction t with
  | nil => simp [tset, tfind]
  | cons e t ih =>
    obtain ⟨k, v⟩ := e
    simp only [tset]
    split
    · simp [tfind]
    · split
      · simp [tfind]
      · simp [tfind, *]

/-- Reading after a write, at another key. -/
theorem tfind_tset_ne (t : Table α) {i j : Nat} (a : α) (h : i ≠ j) : tfind (tset t i a) j = tfind t j := by
  induction t with
  | nil => simp [tset, tfind, h]
  | cons e t ih =>
    obtain ⟨k, v⟩ := e
    simp only [tset]
    split
    · next hk => subst hk; simp [tfind, h]
    · split
      · simp [tfind, h]
      · simp [tfind, ih]

/-- Reading after a write. -/
@[simp] theorem tfind_tset (t : Table α) (i j : Nat) (a : α) : tfind (tset t i a) j = if i = j then some a else tfind t j := by
  split
  · next h => subst h; exact tfind_tset_same t i a
  · next h => exact tfind_tset_ne t a h

/-- The value after a write. -/
@[simp] theorem tget_tset (t : Table α) (d : α) (i j : Nat) (a : α) : tget (tset t i a) d j = if i = j then a else tget t d j := by
  simp only [tget, tfind_tset]
  split <;> rfl

/-- A key that was removed reads as the default; the others as before, where keys rise. -/
theorem tfind_tdel_ne (t : Table α) {i j : Nat} (h : i ≠ j) : tfind (tdel t i) j = tfind t j := by
  induction t with
  | nil => rfl
  | cons e t ih =>
    obtain ⟨k, v⟩ := e
    simp only [tdel]
    split
    · next hk => subst hk; simp [tfind, h]
    · simp [tfind, ih]

/-- The first key, where there is one. -/
def tableHead : Table α → Option Nat
  | [] => none
  | (k, _) :: _ => some k

/-- Keys rise from above a bound. -/
theorem keysRising_cons (k : Nat) (v : α) (t : Table α) :
    keysRising ((k, v) :: t) = true ↔ (∀ e ∈ t, k < e.1) ∧ keysRising t = true := by
  induction t generalizing k v with
  | nil => simp [keysRising]
  | cons e t ih =>
    obtain ⟨k', v'⟩ := e
    simp only [keysRising, Bool.and_eq_true, decide_eq_true_eq, List.mem_cons, forall_eq_or_imp]
    constructor
    · rintro ⟨h, h2⟩
      exact ⟨⟨h, fun e he => lt_trans h (((ih k' v').1 h2).1 e he)⟩, h2⟩
    · rintro ⟨⟨h, _⟩, h2⟩
      exact ⟨h, h2⟩

/-- The entries after a write: the written one, and old ones. -/
theorem mem_tset (t : Table α) (i : Nat) (a : α) (e : Nat × α) (h : e ∈ tset t i a) : e = (i, a) ∨ e ∈ t := by
  induction t with
  | nil => simpa [tset] using h
  | cons x t ih =>
    obtain ⟨k, v⟩ := x
    simp only [tset] at h
    split at h
    · rcases List.mem_cons.1 h with h | h
      · exact .inl h
      · exact .inr (by simp [h])
    · split at h
      · rcases List.mem_cons.1 h with h | h
        · exact .inl h
        · exact .inr h
      · rcases List.mem_cons.1 h with h | h
        · exact .inr (by simp [h])
        · rcases ih h with h | h
          · exact .inl h
          · exact .inr (by simp [h])

/-- The entries after a removal are old ones. -/
theorem mem_tdel (t : Table α) (i : Nat) (e : Nat × α) (h : e ∈ tdel t i) : e ∈ t := by
  induction t with
  | nil => simp [tdel] at h
  | cons x t ih =>
    obtain ⟨k, v⟩ := x
    simp only [tdel] at h
    split at h
    · simp [h]
    · rcases List.mem_cons.1 h with h | h
      · simp [h]
      · simp [ih h]

/-- A write keeps the keys rising. -/
theorem keysRising_tset (t : Table α) (i : Nat) (a : α) (h : keysRising t = true) : keysRising (tset t i a) = true := by
  induction t with
  | nil => rfl
  | cons x t ih =>
    obtain ⟨k, v⟩ := x
    have hc := (keysRising_cons k v t).1 h
    simp only [tset]
    split
    · next hk => subst hk; exact (keysRising_cons _ _ _).2 hc
    · split
      · next hk hlt =>
        refine (keysRising_cons _ _ _).2 ⟨fun e he => ?_, h⟩
        rcases List.mem_cons.1 he with he | he
        · subst he; exact hlt
        · exact lt_trans hlt (hc.1 e he)
      · next hk hlt =>
        refine (keysRising_cons _ _ _).2 ⟨fun e he => ?_, ih hc.2⟩
        rcases mem_tset t i a e he with he | he
        · subst he; simp only; omega
        · exact hc.1 e he

/-- A removal keeps the keys rising. -/
theorem keysRising_tdel (t : Table α) (i : Nat) (h : keysRising t = true) : keysRising (tdel t i) = true := by
  induction t with
  | nil => rfl
  | cons x t ih =>
    obtain ⟨k, v⟩ := x
    have hc := (keysRising_cons k v t).1 h
    simp only [tdel]
    split
    · exact hc.2
    · exact (keysRising_cons _ _ _).2 ⟨fun e he => hc.1 e (mem_tdel t i e he), ih hc.2⟩

/-- A key below every entry is not listed. -/
theorem tfind_none_of_lt (t : Table α) (i : Nat) (h : ∀ e ∈ t, i < e.1) : tfind t i = none := by
  induction t with
  | nil => rfl
  | cons x t ih =>
    obtain ⟨k, v⟩ := x
    have h1 := h (k, v) (by simp)
    have : ¬ k = i := by simp only at h1; omega
    simp [tfind, this, ih (fun e he => h e (by simp [he]))]

/-- A key that was removed is not listed. -/
theorem tfind_tdel_same (t : Table α) (i : Nat) (h : keysRising t = true) : tfind (tdel t i) i = none := by
  induction t with
  | nil => rfl
  | cons x t ih =>
    obtain ⟨k, v⟩ := x
    have hc := (keysRising_cons k v t).1 h
    simp only [tdel]
    split
    · next hk => subst hk; exact tfind_none_of_lt t k hc.1
    · next hk => simp [tfind, hk, ih hc.2]

variable [DecidableEq α]

/-- A memory write keeps the canonical form. -/
theorem memWf_memPut (d : α) (t : Table α) (i : Nat) (a : α) (h : memWf d t = true) : memWf d (memPut d t i a) = true := by
  simp only [memWf, Bool.and_eq_true, List.all_eq_true, decide_eq_true_eq] at h ⊢
  simp only [memPut]
  split
  · exact ⟨keysRising_tdel t i h.1, fun e he => h.2 e (mem_tdel t i e he)⟩
  · next ha =>
    refine ⟨keysRising_tset t i a h.1, fun e he => ?_⟩
    rcases mem_tset t i a e he with he | he
    · subst he; exact ha
    · exact h.2 e he

/-- A memory read after a write to the same place gives the value written. -/
theorem tget_memPut_same (d : α) (t : Table α) (i : Nat) (a : α) (h : memWf d t = true) : tget (memPut d t i a) d i = a := by
  simp only [memWf, Bool.and_eq_true] at h
  simp only [memPut]
  split
  · next ha => simp [tget, tfind_tdel_same t i h.1, ha]
  · simp

/-- A memory write leaves every other place alone. -/
theorem tget_memPut_ne (d : α) (t : Table α) {i j : Nat} (a : α) (h : i ≠ j) :
    tget (memPut d t i a) d j = tget t d j := by
  simp only [memPut]
  split
  · simp [tget, tfind_tdel_ne t h]
  · simp [h]

end Sys2Proof.Machine
end

