-- ==== Sys2Proof/Laws/Ops.lean ====
section
/-! SUPPORT. Laws of the shared operations: registers and numbered things read after they were written, events raised, and what
each operation leaves alone. -/

namespace Sys2Proof.Machine

/-! ### Registers -/

/-- A register read after a register was written. -/
@[simp] theorem Dev.rd_wr (d : Dev) (r r' : Reg) (i i' : Nat) (v : Word) :
    (d.wr r i v).rd r' i' = if regKey r i = regKey r' i' then v else d.rd r' i' := by
  simp [Dev.rd, Dev.wr]

/-- Registers equal to those of another block read the same. -/
theorem Dev.rd_congr {d t : Dev} (h : t.regs = d.regs) (r : Reg) (i : Nat) : t.rd r i = d.rd r i := by
  simp [Dev.rd, h]

/-! ### Events -/

/-- A source read after a source was written. -/
@[simp] theorem Dev.source_setSource (d : Dev) (i j : Nat) (x : Source) :
    (d.setSource i x).source j = if i = j then x else d.source j := by
  simp [Dev.source, Dev.setSource]

/-- Latching a raising for channels leaves the sources alone. -/
@[simp] theorem Dev.source_latchWaits (d : Dev) (i j : Nat) : (d.latchWaits i).source j = d.source j := rfl

/-- What Dev.raiseAt leaves alone. -/
@[simp] theorem Dev.raiseAt_keeps (d : Dev) (i : Nat) (time : Word) :
    (d.raiseAt i time).now = d.now ∧ (d.raiseAt i time).regs = d.regs ∧ (d.raiseAt i time).domains = d.domains ∧
    (d.raiseAt i time).freeIdx = d.freeIdx ∧ (d.raiseAt i time).spr = d.spr ∧ (d.raiseAt i time).fio = d.fio ∧
    (d.raiseAt i time).sram = d.sram ∧ (d.raiseAt i time).hbm = d.hbm ∧ (d.raiseAt i time).hbc = d.hbc ∧
    (d.raiseAt i time).ghd = d.ghd ∧ (d.raiseAt i time).owners = d.owners ∧ (d.raiseAt i time).cxi = d.cxi ∧
    (d.raiseAt i time).hlk = d.hlk ∧ (d.raiseAt i time).commit = d.commit ∧ (d.raiseAt i time).dict = d.dict ∧
    (d.raiseAt i time).tfb = d.tfb ∧ (d.raiseAt i time).chm = d.chm ∧ (d.raiseAt i time).cex = d.cex ∧
    (d.raiseAt i time).graze = d.graze ∧ (d.raiseAt i time).tmv = d.tmv ∧ (d.raiseAt i time).hif = d.hif ∧
    (d.raiseAt i time).ibx = d.ibx ∧ (d.raiseAt i time).procs = d.procs ∧ (d.raiseAt i time).regHist = d.regHist ∧
    (d.raiseAt i time).reply = d.reply ∧ (d.raiseAt i time).outbox = d.outbox ∧ (∀ r j, (d.raiseAt i time).rd r j = d.rd r j) := by
  unfold Dev.raiseAt; split <;> simp [Dev.rd]
/-- What Dev.raise leaves alone. -/
@[simp] theorem Dev.raise_keeps (d : Dev) (i : Nat) :
    (d.raise i).now = d.now ∧ (d.raise i).regs = d.regs ∧ (d.raise i).domains = d.domains ∧ (d.raise i).freeIdx = d.freeIdx ∧
    (d.raise i).spr = d.spr ∧ (d.raise i).fio = d.fio ∧ (d.raise i).sram = d.sram ∧ (d.raise i).hbm = d.hbm ∧
    (d.raise i).hbc = d.hbc ∧ (d.raise i).ghd = d.ghd ∧ (d.raise i).owners = d.owners ∧ (d.raise i).cxi = d.cxi ∧
    (d.raise i).hlk = d.hlk ∧ (d.raise i).commit = d.commit ∧ (d.raise i).dict = d.dict ∧ (d.raise i).tfb = d.tfb ∧
    (d.raise i).chm = d.chm ∧ (d.raise i).cex = d.cex ∧ (d.raise i).graze = d.graze ∧ (d.raise i).tmv = d.tmv ∧
    (d.raise i).hif = d.hif ∧ (d.raise i).ibx = d.ibx ∧ (d.raise i).procs = d.procs ∧ (d.raise i).regHist = d.regHist ∧
    (d.raise i).reply = d.reply ∧ (d.raise i).outbox = d.outbox ∧ (∀ r j, (d.raise i).rd r j = d.rd r j) := by
  unfold Dev.raise; simp
/-- What Dev.setLevel leaves alone. -/
@[simp] theorem Dev.setLevel_keeps (d : Dev) (i : Nat) (b : Bool) :
    (d.setLevel i b).now = d.now ∧ (d.setLevel i b).regs = d.regs ∧ (d.setLevel i b).domains = d.domains ∧
    (d.setLevel i b).freeIdx = d.freeIdx ∧ (d.setLevel i b).spr = d.spr ∧ (d.setLevel i b).fio = d.fio ∧
    (d.setLevel i b).sram = d.sram ∧ (d.setLevel i b).hbm = d.hbm ∧ (d.setLevel i b).hbc = d.hbc ∧
    (d.setLevel i b).ghd = d.ghd ∧ (d.setLevel i b).owners = d.owners ∧ (d.setLevel i b).cxi = d.cxi ∧
    (d.setLevel i b).hlk = d.hlk ∧ (d.setLevel i b).commit = d.commit ∧ (d.setLevel i b).dict = d.dict ∧
    (d.setLevel i b).tfb = d.tfb ∧ (d.setLevel i b).chm = d.chm ∧ (d.setLevel i b).cex = d.cex ∧
    (d.setLevel i b).graze = d.graze ∧ (d.setLevel i b).tmv = d.tmv ∧ (d.setLevel i b).hif = d.hif ∧
    (d.setLevel i b).ibx = d.ibx ∧ (d.setLevel i b).procs = d.procs ∧ (d.setLevel i b).regHist = d.regHist ∧
    (d.setLevel i b).reply = d.reply ∧ (d.setLevel i b).outbox = d.outbox ∧ (∀ r j, (d.setLevel i b).rd r j = d.rd r j) := by
  unfold Dev.setLevel; (repeat' split) <;> simp [Dev.rd] <;> (repeat' split) <;> simp

end Sys2Proof.Machine
end

