-- ==== Sys2Proof/Laws/Mem.lean ====
section
/-! SUPPORT. Laws of the memories: every operation on them keeps their canonical form, and a word or tile reads as it was written. -/

namespace Sys2Proof

open Machine

/-! ### The canonical form -/

/-- A memory with entries left out keeps its form. -/
theorem memWf_filter {α : Type} [DecidableEq α] (z : α) (t : Table α) (f : Nat × α → Bool) (h : memWf z t = true) :
    memWf z (t.filter f) = true := by
  simp only [memWf, Bool.and_eq_true, List.all_eq_true, decide_eq_true_eq] at h ⊢
  refine ⟨?_, fun e he => h.2 e (List.mem_filter.1 he).1⟩
  have hk := h.1
  clear h
  induction t with
  | nil => rfl
  | cons x t ih =>
    have hc := (keysRising_cons x.1 x.2 t).1 hk
    simp only [List.filter_cons]
    split
    · exact (keysRising_cons _ _ _).2 ⟨fun e he => hc.1 e (List.mem_filter.1 he).1, ih hc.2⟩
    · exact ih hc.2

/-- The memories of two blocks are the same. -/
def SameMemories (d t : Dev) : Prop := t.sram = d.sram ∧ t.hbm = d.hbm ∧ t.hbc.xfer = d.hbc.xfer

/-- Blocks with the same memories have them in the same form. -/
theorem MemoriesWf.same {d t : Dev} (h : MemoriesWf d) (e : SameMemories d t) : MemoriesWf t := by
  obtain ⟨e1, e2, e3⟩ := e
  unfold MemoriesWf at *
  rw [e1, e2, e3]
  exact h

/-- At reset the memories have their form. -/
theorem memoriesWf_reset : MemoriesWf State.reset.dev := by unfold MemoriesWf; decide

/-- A register written leaves the memories. -/
theorem sameMemories_wr (d : Dev) (r : Reg) (i : Nat) (v : Word) : SameMemories d (d.wr r i v) := ⟨rfl, rfl, rfl⟩

/-- An event raised leaves the memories. -/
theorem sameMemories_raise (d : Dev) (i : Nat) : SameMemories d (d.raise i) := by
  have h := d.raise_keeps i
  exact ⟨h.2.2.2.2.2.2.1, h.2.2.2.2.2.2.2.1, by rw [h.2.2.2.2.2.2.2.2.1]⟩

/-- A level set leaves the memories. -/
theorem sameMemories_setLevel (d : Dev) (i : Nat) (b : Bool) : SameMemories d (d.setLevel i b) := by
  have h := d.setLevel_keeps i b
  exact ⟨h.2.2.2.2.2.2.1, h.2.2.2.2.2.2.2.1, by rw [h.2.2.2.2.2.2.2.2.1]⟩

/-- Sameness of memories is transitive. -/
theorem SameMemories.trans {d t u : Dev} (h : SameMemories d t) (g : SameMemories t u) : SameMemories d u :=
  ⟨g.1.trans h.1, g.2.1.trans h.2.1, g.2.2.trans h.2.2⟩

/-- A stored SRAM word replaced. -/
theorem MemoriesWf.putCell {d : Dev} (h : MemoriesWf d) (a : Nat) (m : MemWord) : MemoriesWf (d.putCell a m) :=
  ⟨memWf_memPut _ _ _ _ h.1, h.2⟩

/-- A tile replaced. -/
theorem MemoriesWf.putTile {d : Dev} (h : MemoriesWf d) (q : Nat) (t : Tile) : MemoriesWf (d.putTile q t) :=
  ⟨h.1, memWf_memPut _ _ _ _ h.2.1, h.2.2⟩

/-- A word of the transfer buffer replaced. -/
theorem MemoriesWf.putXfer {d : Dev} (h : MemoriesWf d) (a : Nat) (m : MemWord) : MemoriesWf (d.putXfer a m) :=
  ⟨h.1, h.2.1, memWf_memPut _ _ _ _ h.2.2⟩

/-- A full-word write of data and check bits. -/
theorem MemoriesWf.sramStore {d : Dev} (h : MemoriesWf d) (a : Nat) (x : MemWord) : MemoriesWf (d.sramStore a x) := by
  unfold Dev.sramStore
  split
  · exact (h.putCell a _).same ⟨rfl, rfl, rfl⟩
  · exact h.putCell a _

/-- A full-word write. -/
theorem MemoriesWf.sramWrite {d : Dev} (h : MemoriesWf d) (a : Nat) (w : Word) : MemoriesWf (d.sramWrite a w) :=
  h.sramStore a (goodWord w)

/-- A full-word write of the poison pattern. -/
theorem MemoriesWf.sramPoison {d : Dev} (h : MemoriesWf d) (a : Nat) : MemoriesWf (d.sramPoison a) := h.sramStore a poisonWord

/-- Full-word writes to successive addresses. -/
theorem MemoriesWf.sramWrites {d : Dev} (h : MemoriesWf d) (a : Nat) (ws : List Word) : MemoriesWf (d.sramWrites a ws) := by
  induction ws generalizing d a with
  | nil => exact h
  | cons w ws ih => exact ih (h.sramWrite a w) (a + 1)

/-- A log record. -/
theorem MemoriesWf.log {d : Dev} (h : MemoriesWf d) (sev code : Nat) (a : Word) (b : Nat) : MemoriesWf (d.log sev code a b) := by
  simp only [Dev.log]
  have h1 := h.sramWrites (logAddr d.ghd.logNext) (LogRecord.mk sev code d.ghd.logNext d.now a
    (d.rdF .ghdBootCount 0 15 0) b d.wall).toWords
  generalize d.sramWrites _ _ = e at h1 ⊢
  have h2 : MemoriesWf ({ e with ghd := { e.ghd with logNext := d.ghd.logNext + 1 } }) := h1.same ⟨rfl, rfl, rfl⟩
  have h3 := h2.same (sameMemories_wr _ .ghdLogSeq 0 (setFld (Dev.rd { e with ghd := { e.ghd with logNext := d.ghd.logNext + 1 } }
    .ghdLogSeq 0) 31 0 d.ghd.logNext))
  split
  · exact h3.same (sameMemories_raise _ _)
  · exact h3

/-- A pulse at most once per ms leaves the memories. -/
theorem sameMemories_raisePerMs (d : Dev) (l : Option Word) (i : Nat) : SameMemories d (d.raisePerMs l i).2 := by
  unfold Dev.raisePerMs
  split
  · split
    · exact ⟨rfl, rfl, rfl⟩
    · exact sameMemories_raise d i
  · exact sameMemories_raise d i

/-- The report of a correctable read leaves the memories. -/
theorem sameMemories_sramCe (d : Dev) (r : Nat) : SameMemories d (d.sramCe r) := by
  have h := sameMemories_raisePerMs ((d.satF .edcRrCnt r 15 0 1).countCorrected r)
    (tfind ((d.satF .edcRrCnt r 15 0 1).countCorrected r).hbc.lastSramCe r) 669
  unfold Dev.sramCe
  simp only
  split
  · exact ⟨h.1, h.2.1, h.2.2⟩
  · exact ⟨rfl, rfl, rfl⟩

/-- The report of a read that failed. -/
theorem MemoriesWf.sramUe {d : Dev} (h : MemoriesWf d) (r kind a : Nat) : MemoriesWf (d.sramUe r kind a) := by
  unfold Dev.sramUe
  simp only
  refine MemoriesWf.log (MemoriesWf.same ?_ (sameMemories_raise _ _)) _ _ _ _
  split <;> exact h.same ⟨rfl, rfl, rfl⟩

/-- The report of a poison pattern written. -/
theorem MemoriesWf.poisonReport {d : Dev} (h : MemoriesWf d) (r a : Nat) : MemoriesWf (d.poisonReport r a) := by
  have h1 : MemoriesWf (d.satF .edcRrPwr r 15 0 1) := h.same (sameMemories_wr _ _ _ _)
  have h2 : MemoriesWf ((d.satF .edcRrPwr r 15 0 1).edcLast r 3 a) := h1.same (sameMemories_wr _ _ _ _)
  exact MemoriesWf.log (h2.same (sameMemories_raise _ 670)) _ _ _ _

/-- A read of an SRAM word. -/
theorem MemoriesWf.sramRead {d : Dev} (h : MemoriesWf d) (a : Nat) : MemoriesWf (d.sramRead a).2 := by
  unfold Dev.sramRead
  simp only
  split
  · exact h
  · exact (h.putCell a _).same (sameMemories_sramCe _ _)
  · exact h.sramUe _ _ _
  · exact h.sramUe _ _ _

/-- Successive words read. -/
theorem MemoriesWf.sramReads {d : Dev} (h : MemoriesWf d) (a n : Nat) : MemoriesWf (d.sramReads a n).2.2 := by
  induction n generalizing d a with
  | zero => exact h
  | succ n ih =>
    have h1 := h.sramRead a
    simp only [Dev.sramReads]
    generalize d.sramRead a = x at h1 ⊢
    split
    · exact h1
    · exact ih h1 (a + 1)

/-- Successive words read whatever they decode to. -/
theorem MemoriesWf.sramReadAll {d : Dev} (h : MemoriesWf d) (a n : Nat) : MemoriesWf (d.sramReadAll a n).2.2 := by
  induction n generalizing d a with
  | zero => exact h
  | succ n ih =>
    have h1 := h.sramRead a
    simp only [Dev.sramReadAll]
    generalize d.sramRead a = x at h1 ⊢
    exact ih h1 (a + 1)

/-- A write of fewer than 6 bytes. -/
theorem MemoriesWf.sramMerge {d : Dev} (h : MemoriesWf d) (a : Nat) (f : Word → Word) : MemoriesWf (d.sramMerge a f).2 := by
  have hc := h.same (sameMemories_sramCe d ((sramRegion a).getD 0))
  unfold Dev.sramMerge
  simp only
  generalize d.sramCe ((sramRegion a).getD 0) = e at hc ⊢
  split
  · exact h.putCell a _
  · exact hc.putCell a _
  · exact (h.putCell a _).poisonReport _ _
  · exact (h.putCell a _).poisonReport _ _

/-- A queued rewrite cancelled leaves the memories. -/
theorem sameMemories_cancelRewrite (d : Dev) (q : Nat) : SameMemories d (d.cancelRewrite q) := by
  unfold Dev.cancelRewrite
  simp only
  split <;> exact ⟨rfl, rfl, rfl⟩

/-- The parity checks of an access leave the memories. -/
theorem sameMemories_linkCheck (d : Dev) (s : Nat) : SameMemories d (d.linkCheck s).2 := by
  unfold Dev.linkCheck
  split
  · exact ⟨rfl, rfl, rfl⟩
  · rename_i f rest _
    cases f
    · exact ⟨rfl, rfl, rfl⟩
    · exact ⟨rfl, rfl, rfl⟩
    · exact SameMemories.trans ⟨rfl, rfl, rfl⟩ (sameMemories_raise _ 672)
    · exact ⟨rfl, rfl, rfl⟩

/-- A whole-tile write. -/
theorem MemoriesWf.writeTile {d : Dev} (h : MemoriesWf d) (r c q : Nat) (ws : List Word) (tag : BitVec 64) :
    MemoriesWf (d.writeTile r c q ws tag).2 := by
  have h1 : MemoriesWf ((d.bid r c q 4).linkCheck (tileStack q)).2 :=
    (h.same (t := d.bid r c q 4) ⟨rfl, rfl, rfl⟩).same (sameMemories_linkCheck _ _)
  unfold Dev.writeTile
  simp only
  split
  · exact h1
  · exact (h1.putTile q _).same (sameMemories_cancelRewrite _ q)
  · exact (h1.putTile q _).same (sameMemories_cancelRewrite _ q)

/-- A stack's tiles lost. -/
theorem MemoriesWf.loseStack {d : Dev} (h : MemoriesWf d) (s : Nat) : MemoriesWf (d.loseStack s) :=
  ⟨h.1, memWf_filter _ _ _ h.2.1, h.2.2⟩

/-- The report of a tile's severity. -/
theorem MemoriesWf.reportSev {d : Dev} (h : MemoriesWf d) (q sev : Nat) : MemoriesWf (d.reportSev q sev) := by
  have ce : ∀ (e : Dev), MemoriesWf e → MemoriesWf
      (let e := e.countCorrected (8 + tileStack q)
       let x := e.raisePerMs (tfind e.hbc.lastHbmCe (tileStack q)) 671
       let e := if x.1 then { x.2 with hbc := { x.2.hbc with lastHbmCe := tset x.2.hbc.lastHbmCe (tileStack q) e.now } } else e
       let l := e.rewriteQueue (tileStack q)
       if l.contains q then e
       else if 64 ≤ l.length then e.satF .hbcSsRewr (tileStack q) 47 32 1
       else e.setRewriteQueue (tileStack q) (l ++ [q])) := by
    intro e he
    have h0 : MemoriesWf (e.countCorrected (8 + tileStack q)) := he.same ⟨rfl, rfl, rfl⟩
    have h1 := sameMemories_raisePerMs (e.countCorrected (8 + tileStack q))
      (tfind (e.countCorrected (8 + tileStack q)).hbc.lastHbmCe (tileStack q)) 671
    simp only
    by_cases hx : ((e.countCorrected (8 + tileStack q)).raisePerMs
      (tfind (e.countCorrected (8 + tileStack q)).hbc.lastHbmCe (tileStack q)) 671).1 = true
    · simp only [hx, if_true]
      split
      · exact h0.same ⟨h1.1, h1.2.1, h1.2.2⟩
      · split <;> exact h0.same ⟨h1.1, h1.2.1, h1.2.2⟩
    · simp only [hx, Bool.false_eq_true, if_false]
      split
      · exact h0
      · split <;> exact h0.same ⟨rfl, rfl, rfl⟩
  unfold Dev.reportSev
  simp only
  split
  · exact h
  · exact ce _ (h.same ⟨rfl, rfl, rfl⟩)
  · exact ce _ (h.same ⟨rfl, rfl, rfl⟩)
  · refine MemoriesWf.log (MemoriesWf.same ?_ (sameMemories_raise _ _)) _ _ _ _
    exact h.same ⟨rfl, rfl, rfl⟩

/-- The bursts of a tile read. -/
theorem MemoriesWf.readBursts {d : Dev} (h : MemoriesWf d) (r c q n : Nat) (u : Bool) (f : Tile → Nat) :
    MemoriesWf (d.readBursts r c q n u f).2.2 := by
  have h1 : MemoriesWf ((d.bid r c q n).linkCheck (tileStack q)).2 :=
    (h.same (t := d.bid r c q n) ⟨rfl, rfl, rfl⟩).same (sameMemories_linkCheck _ _)
  unfold Dev.readBursts
  simp only
  generalize (d.bid r c q n).linkCheck (tileStack q) = x at h1 ⊢
  split
  · exact h1.log _ _ _ _
  · split
    · exact h1.reportSev _ _
    · exact h1.log _ _ _ _
  · exact h1.reportSev _ _

/-- A tile read whole. -/
theorem MemoriesWf.readTile {d : Dev} (h : MemoriesWf d) (r c q n : Nat) (u : Bool) : MemoriesWf (d.readTile r c q n u).2.2 :=
  h.readBursts r c q n u _

/-- A tag read alone. -/
theorem MemoriesWf.readTag {d : Dev} (h : MemoriesWf d) (r c q n : Nat) : MemoriesWf (d.readTag r c q n).2.2 :=
  h.readBursts r c q n false _

/-- A scrubbed word that cannot be read. -/
theorem MemoriesWf.scrubBad {d : Dev} (h : MemoriesWf d) (r a : Nat) (p : Bool) : MemoriesWf (d.scrubBad r a p) := by
  unfold Dev.scrubBad
  simp only
  refine MemoriesWf.log (MemoriesWf.same ?_ (sameMemories_raise _ _)) _ _ _ _
  cases p <;> simp only [Bool.false_eq_true, if_false, if_true] <;> split <;> exact h.same ⟨rfl, rfl, rfl⟩

/-- A word scrubbed. -/
theorem MemoriesWf.scrubReadOp {d : Dev} (h : MemoriesWf d) (r : Nat) (f : Word) (c : BitVec 7) :
    MemoriesWf (scrubReadOp r f c d) := by
  have put : ∀ (e : Dev) (a : Nat) (m : MemWord), MemoriesWf e → MemoriesWf (if r = 5 then e.putXfer a m else e.putCell a m) := by
    intro e a m he
    split
    · exact he.putXfer a m
    · exact he.putCell a m
  unfold Machine.scrubReadOp
  simp only
  split
  · have key : ∀ (e : Dev), MemoriesWf e → MemoriesWf
        (if d.rdF .edcRrScrub r 23 0 + 1 = regionSize r then (e.wrF .edcRrScrub r 23 0 0).wrapF .edcRrScrub r 47 32 1
         else e.wrF .edcRrScrub r 23 0 (d.rdF .edcRrScrub r 23 0 + 1)) := by
      intro e he
      split <;> exact he.same ⟨rfl, rfl, rfl⟩
    apply key
    split
    · exact put _ _ _ h
    · exact (put _ _ _ (put _ _ _ h)).same (sameMemories_sramCe _ _)
    · exact (put _ _ _ h).scrubBad _ _ _
    · exact (put _ _ _ h).scrubBad _ _ _
  · exact h

/-- The retained range over a reset. -/
theorem MemoriesWf.resetTo {d : Dev} (h : MemoriesWf d) (st : DevState) (c r : Nat) : MemoriesWf (d.resetTo st c r) := by
  have key : ∀ (ks : List Nat) (e : Dev), SameMemories e (e.setDomains ks .on) := by
    intro ks
    induction ks with
    | nil => exact fun e => ⟨rfl, rfl, rfl⟩
    | cons k ks ih => exact fun e => SameMemories.trans (t := e.setDomain k .on) ⟨rfl, rfl, rfl⟩ (ih _)
  have lev : ∀ (l : List Nat) (e : Dev), SameMemories e (l.foldl (fun e g => e.setLevel (576 + g) true) e) := by
    intro l
    induction l with
    | nil => exact fun e => ⟨rfl, rfl, rfl⟩
    | cons g l ih => exact fun e => SameMemories.trans (sameMemories_setLevel e (576 + g) true) (ih _)
  unfold Dev.resetTo forUpTo
  simp only
  refine MemoriesWf.same ?_ (lev _ _)
  refine MemoriesWf.same ?_ (key _ _)
  refine MemoriesWf.same (d := { sram := if d.ghd.aonLost then [] else d.sram.filter (fun e => inRetained e.1) }) ?_ ⟨rfl, rfl, rfl⟩
  refine ⟨?_, rfl, rfl⟩
  simp only
  split
  · rfl
  · exact memWf_filter _ _ _ h.1

/-- The retained range read. -/
theorem MemoriesWf.readRetained {d : Dev} (h : MemoriesWf d) : MemoriesWf d.readRetained.2 := by
  have key : ∀ (l : List (Nat × MemWord)) (acc : Bool × Dev), MemoriesWf acc.2 →
      MemoriesWf (l.foldl (fun (acc : Bool × Dev) e =>
        let x := acc.2.sramRead e.1
        (acc.1 && x.1.status = 0, x.2)) acc).2 := by
    intro l
    induction l with
    | nil => exact fun acc h => h
    | cons e l ih =>
      intro acc h
      have h1 := h.sramRead e.1
      simp only [List.foldl_cons]
      generalize acc.2.sramRead e.1 = x at h1 ⊢
      exact ih _ h1
  exact key _ _ h

/-- Goatherd's test of region 4. -/
theorem MemoriesWf.testRegion4 {d : Dev} (h : MemoriesWf d) : MemoriesWf d.testRegion4.2 := by
  have hr : MemoriesWf (if d.ghd.aonLost then (false, d) else d.readRetained).2 := by
    split
    · exact h
    · exact h.readRetained
  unfold Dev.testRegion4
  simp only
  generalize (if d.ghd.aonLost then (false, d) else d.readRetained) = r at hr ⊢
  split
  · exact ⟨memWf_filter _ _ _ hr.1, hr.2⟩
  · exact ⟨rfl, hr.2⟩

/-! ### Reads after writes -/

/-- A stored word read after one was replaced. -/
theorem Machine.Dev.cell_putCell {d : Dev} (h : memWf MemWord.blank d.sram = true) (a b : Nat) (m : MemWord) :
    (d.putCell a m).cell b = if a = b then m else d.cell b := by
  unfold Dev.putCell Dev.cell
  simp only
  split
  · next e => subst e; exact tget_memPut_same _ _ _ _ h
  · next e => exact tget_memPut_ne _ _ _ e

/-- A stored word read after a full-word write, no injection armed. -/
theorem Machine.Dev.cell_sramWrite {d : Dev} (h : memWf MemWord.blank d.sram = true) (hi : d.rdB .edcInjCtl 0 8 = false) (a b : Nat)
    (w : Word) : (d.sramWrite a w).cell b = if a = b then goodWord w else d.cell b := by
  unfold Dev.sramWrite Dev.sramStore
  simp [hi, Dev.cell_putCell h]

/-- A full-word write with no injection armed replaces the word and nothing else. -/
theorem Machine.Dev.sramWrite_eq {d : Dev} (hi : d.rdB .edcInjCtl 0 8 = false) (a : Nat) (w : Word) :
    d.sramWrite a w = d.putCell a (goodWord w) := by
  unfold Dev.sramWrite Dev.sramStore; simp [hi]

/-- A stored word read after successive full-word writes, no injection armed. -/
theorem Machine.Dev.cell_sramWrites {d : Dev} (h : memWf MemWord.blank d.sram = true) (hi : d.rdB .edcInjCtl 0 8 = false) (a b : Nat)
    (ws : List Word) :
    (d.sramWrites a ws).cell b = if a ≤ b ∧ b < a + ws.length then goodWord (ws.getD (b - a) 0) else d.cell b := by
  induction ws generalizing d a with
  | nil => simp only [Dev.sramWrites, List.length_nil, Nat.add_zero]; rw [if_neg (by omega)]
  | cons w ws ih =>
    simp only [Dev.sramWrites, Dev.sramWrite_eq hi]
    rw [ih (d := d.putCell a (goodWord w)) (memWf_memPut _ _ _ _ h) hi (a + 1), Dev.cell_putCell h]
    simp only [List.length_cons]
    by_cases h1 : a = b
    · subst h1
      rw [if_neg (by omega), if_pos rfl, if_pos (by omega)]
      simp
    · by_cases h2 : a + 1 ≤ b ∧ b < a + 1 + ws.length
      · rw [if_pos h2, if_pos (by omega)]
        obtain ⟨k, hk⟩ : ∃ k, b - a = k + 1 := ⟨b - a - 1, by omega⟩
        rw [hk, show b - (a + 1) = k by omega]
        simp
      · rw [if_neg h2, if_neg h1, if_neg (by omega)]

/-- A tile read after one was replaced. -/
theorem Machine.Dev.tile_putTile {d : Dev} (h : memWf Tile.blank d.hbm = true) (q x : Nat) (t : Tile) :
    (d.putTile q t).tile x = if q = x then t else d.tile x := by
  unfold Dev.putTile Dev.tile
  simp only
  split
  · next e => subst e; exact tget_memPut_same _ _ _ _ h
  · next e => exact tget_memPut_ne _ _ _ e

/-- A property that every pass keeps holds after a loop. -/
theorem forUpTo_keeps {α : Type} (P : α → Prop) (n : Nat) (f : Nat → α → α) (a : α) (h : P a)
    (hs : ∀ i b, P b → P (f i b)) : P (forUpTo n f a) := by
  unfold forUpTo
  generalize List.range n = l
  induction l generalizing a with
  | nil => exact h
  | cons i l ih => exact ih (f i a) (hs i a h)

end Sys2Proof
end

