-- ==== Sys2Proof/Laws/Run.lean ====
section
/-! SUPPORT. Laws of how a command acts: what each way of running a command answers, what a message that came whole does, and what
the arbiter's grant is. -/

namespace Sys2Proof.Machine

open Sys2Proof

/-! ### Running a command -/

/-- While supplies stand, a command changes the block by its operation and leaves the queue. -/
theorem State.run_powered {s : State} (h : s.dev.powered = true) (f : Dev → Dev) : s.run f = .next { s with dev := f s.dev } := by
  simp [State.run, State.runAlways, h]

/-- In OFF a command leaves the machine as it is (R22). -/
theorem State.run_off {s : State} (h : s.dev.powered = false) (f : Dev → Dev) : s.run f = .next s := by
  simp [State.run, State.runAlways, h]

/-- Every run answers a next state with the same queue. -/
theorem State.run_next (s : State) (f : Dev → Dev) : ∃ t, s.run f = .next t ∧ t.pending = s.pending := ⟨_, rfl, rfl⟩

/-- A well-formed command runs. -/
@[simp] theorem State.runWf_true (s : State) (f : Dev → Dev) : s.runWf true f = s.run f := rfl

/-- An ill-formed one stops. -/
@[simp] theorem State.runWf_false (s : State) (f : Dev → Dev) : s.runWf false f = .fault .illFormed := rfl

/-! ### Counters and messages -/

/-- A counter that advances by nothing stands. -/
theorem satFld_zero (w : Word) {hi lo : Nat} (h : lo ≤ hi) (h' : hi < 48) : fld (satFld w hi lo 0) hi lo = fld w hi lo := by
  have b := fld_lt w hi lo
  rw [satFld, fld_setFld_same w _ h h', satAdd, Nat.add_zero, Nat.min_eq_left (by omega), Nat.mod_eq_of_lt b]

/-- An error counter of a port that advances by nothing changes nothing. -/
@[simp] theorem Dev.portError_zero (d : Dev) (p : Nat) : d.portError p 15 0 0 = d := by
  have h : (d.satF .hlkPortpErr p 15 0 0).rdF .hlkPortpErr p 15 0 = d.rdF .hlkPortpErr p 15 0 := by
    simp only [Dev.rdF, Dev.satF, Dev.rd_wr, ↓reduceIte]
    exact satFld_zero _ (by omega) (by omega)
  simp [Dev.portError, h]

/-- A message that came whole on a live port in a state that takes it acts, and nothing else happens (R110). -/
theorem Dev.arrive_whole {r : Arrival} {l : List Nat} {s : State} (h : Arrives r l s) (f : Dev → Dev) :
    s.dev.arrive r l f = f s.dev := by
  obtain ⟨-, hp, hs, hf, hk, hz⟩ := h
  simp only [Dev.portLive, Bool.and_eq_true] at hp
  simp [Dev.arrive, hp.1, hp.2, hs, hf, hk, hz]

/-! ### The arbiter -/

/-- The better of the bid held so far and the next one, by rank. -/
def Dev.betterBid (d : Dev) (p : Nat) (best : Option Nat) (e : Nat × Nat) : Option Nat :=
  match best with
  | some k => if d.bidRank p e.1 < d.bidRank p k then some e.1 else best
  | none => some e.1

/-- What a fold of Dev.betterBid from a bid finds: that bid or one of the list, of no higher rank than any of them. -/
theorem Dev.foldl_betterBid (d : Dev) (p : Nat) (l : List (Nat × Nat)) (a : Nat) :
    ∃ k, l.foldl (d.betterBid p) (some a) = some k ∧ (k = a ∨ ∃ e ∈ l, e.1 = k) ∧ d.bidRank p k ≤ d.bidRank p a ∧
      ∀ e ∈ l, d.bidRank p k ≤ d.bidRank p e.1 := by
  induction l generalizing a with
  | nil => exact ⟨a, rfl, .inl rfl, le_rfl, nofun⟩
  | cons e l ih =>
    by_cases h : d.bidRank p e.1 < d.bidRank p a
    · obtain ⟨k, hk, hm, hr, hl⟩ := ih e.1
      refine ⟨k, by simpa [Dev.betterBid, h] using hk, ?_, by omega, ?_⟩
      · rcases hm with rfl | ⟨x, hx, rfl⟩
        · exact .inr ⟨e, by simp, rfl⟩
        · exact .inr ⟨x, by simp [hx], rfl⟩
      · simpa [hr] using hl
    · obtain ⟨k, hk, hm, hr, hl⟩ := ih a
      refine ⟨k, by simpa [Dev.betterBid, h] using hk, ?_, hr, ?_⟩
      · rcases hm with rfl | ⟨x, hx, rfl⟩
        · exact .inl rfl
        · exact .inr ⟨x, by simp [hx], rfl⟩
      · intro x hx
        rcases List.mem_cons.1 hx with rfl | hx
        · omega
        · exact hl x hx

/-- A port's grant is the fold of the better bid over the bids held there, while its HBC holds fewer than 512 tile operations. -/
theorem Dev.portGrant_eq (d : Dev) (p : Nat) :
    d.portGrant p = if 512 ≤ (tget d.graze.busy 0 p + 3) / 4 then none else (d.bidsAt p).foldl (d.betterBid p) none := rfl

end Sys2Proof.Machine
end

