-- ==== Sys2Proof/Tests/Slice0.lean ====
section
/-! SUPPORT. Tests: ill-formed commands refused, values worked out in the spec, and for every statement values that meet its
hypotheses. -/

namespace Sys2Proof

open Machine

set_option Elab.async false

/-! ### Ill-formed commands: each check of Instr.wf refuses one, and exec stops on it -/

/-- A message that link replay brought whole. -/
def wWhole : Arrival := { port := 0, fails := 0, known := true, reservedZero := true }

/-- For each check of Instr.wf a command with an operand that nobody can give. -/
theorem test_illFormed : ∀ c ∈ ([
    .enum wWhole ⟨1025, 0, false, []⟩,
    .enum wWhole ⟨0, 8, false, []⟩,
    .beat 0 ⟨[], 0⟩ 0 0,
    .enumRsp wWhole ⟨[⟨5, [], 1024⟩], false⟩,
    .commitReq ⟨wWhole, ⟨1024, 0, false, 0, 0⟩⟩,
    .commitDone ⟨wWhole, { requester := 2000, tag := 1, epoch := 2, status := 3, sub := 4, applySeq := 5, pos := 6, waves := 7 }⟩,
    .tileReq wWhole ⟨0, 1024, 0, 0, 0, 0, 0, 0⟩,
    .tileData ⟨wWhole, ⟨0, 0, 0, 0, 0, 0, [5]⟩⟩,
    .tileEnd ⟨wWhole, ⟨1024, 0, 0, 0, 0⟩⟩,
    .piece ⟨wWhole, ⟨0, 0, 0, 0, 0, 0, 0, 0, []⟩⟩,
    .progress ⟨wWhole, ⟨1024, 0, 0, 0, 0, 0, 0, 0, [0]⟩⟩,
    .returnRecord ⟨wWhole, ⟨0, 1024, 0, 0, 0, 0, 0, 0, [0]⟩⟩,
    .queryDescriptor [0, 0],
    .refDefine 0 [0],
    .retroSubmit 0 [],
    .mbxGo 0 131072,
    .entryTake 0 0 (some [1, 2]),
    .refWrite 0 0 0 [[0]] false,
    .stopFinish 0 0 none [[1]],
    .bopFrame (.eth 0 ⟨0, ⟨false, 4294967296⟩, ⟨false, 0⟩⟩ []),
    .connect (.eth 0) ⟨false, 4294967296⟩ 0 0,
    .ethFrame 0 60 true false ⟨0, 0, .bop ⟨false, 4294967296⟩ ⟨false, 0⟩ []⟩] : List Instr), c.wf = false ∧ exec c {} = .fault .illFormed := by
  iterate 22 refine List.forall_mem_cons.2 (And.intro ⟨rfl, rfl⟩ ?_)
  exact List.forall_mem_nil _

/-! ### Values the spec works out -/

/-- R195: CRC-32C over the ASCII bytes "123456789" is E306_9283h. -/
theorem test_crc32c : crc32c [0x31, 0x32, 0x33, 0x34, 0x35, 0x36, 0x37, 0x38, 0x39] = 0xE3069283 := by decide +kernel

/-- The example of R418–R420: the word 0000_0000_0001h has check field 43h, and d10 inverted is corrected. -/
theorem test_secded_example : checkField 1 = 0x43 ∧ decodeWord { data := 1 ^^^ (1#48 <<< 10), chk := 0x43 } = .corrected 1 := by
  decide +kernel

/-- The example of 09_arithmetic.md: ITOF of 1,319,413,953 is 41D3_A92A_3040h, exactly. -/
theorem test_itof_example : itof .rne 1319413953 = (0x41D3A92A3040, 0) := by decide +kernel

/-- The same example: times 2^−32 it is 3FD3_A92A_3040h, with no flag. -/
theorem test_fmul_example : fmul .rne (f48 0x41D3A92A3040) (f48 0x3DF000000000) = (0x3FD3A92A3040, 0) := by decide +kernel

/-- The example of R255: with B = 599,168 and a pixel of 2,342 the next B is 599,174 (shift 6). -/
theorem test_background_example : bgStep (setFld (setFld 0 15 12 6) 27 16 64) 599168 2342 = 599174 := by decide +kernel

/-! ### The states of the witnesses -/

/-- The block in RUN with every domain on. -/
def wDev : Dev := Dev.wrF { domains := (List.range 24).map (fun k => (k, DomState.on)) } .ghdState 0 2 0 5

/-- A machine with a block made from it, and nothing waiting. -/
def wState (f : Dev → Dev) : State := { dev := f wDev }

/-- An image of nothing but its magic and n zero bytes. -/
def wImage (n : Nat) : List (BitVec 8) := [0x42, 0x52, 0x59, 0x4E, 0x49, 0x4D, 0x47, 0x31] ++ List.replicate n 0
/-- A device with that image in slot 0. -/
def wImageDev (n : Nat) : Dev := { ghd := { slots := [(0, { bytes := wImage n, st := .valid })] } }
/-- Its bytes after the magic are zero. -/
theorem wImage_zero (n k : Nat) (h : 8 ≤ k) : (wImage n).getD k 0 = 0 := by
  obtain ⟨j, rfl⟩ : ∃ j, k = j + 8 := ⟨k - 8, by omega⟩
  show (List.replicate n (0 : BitVec 8)).getD j 0 = 0
  rw [List.getD_eq_getElem?_getD, List.getElem?_replicate]
  split <;> rfl
/-- Zero bytes spell zero. -/
theorem natOfBytes_zeros (m : Nat) : natOfBytes (List.replicate m (0 : BitVec 8)) = 0 := by
  induction m with
  | zero => rfl
  | succ m ih => rw [List.replicate_succ, natOfBytes, ih]; rfl
/-- Its numbers after the magic are zero. -/
theorem wImage_num (n off m : Nat) (h : 8 ≤ off) : ((wImageDev n).imgSlot 0).num off m = 0 := by
  obtain ⟨j, rfl⟩ : ∃ j, off = j + 8 := ⟨off - 8, by omega⟩
  show natOfBytes ((List.drop (j + 8) (wImage n)).take m) = 0
  rw [show List.drop (j + 8) (wImage n) = List.drop j (List.replicate n 0) from rfl, List.drop_replicate, List.take_replicate,
    natOfBytes_zeros]
/-- It verifies, given its signature. -/
theorem wImage_verifies (n : Nat) (h : 4088 ≤ n) : (wImageDev n).imageVerifies 0 true = true := by
  have hz : ∀ off m, 8 ≤ off → ((List.range m).all (fun i => (wImage n).getD (off + i) 0 = 0)) = true := by
    intro off m ho
    simp only [List.all_eq_true, decide_eq_true_eq]
    intro i _
    exact wImage_zero n _ (by omega)
  have hl : ((wImageDev n).imgSlot 0).bytes = wImage n := rfl
  have hlen : (wImage n).length = 8 + n := by simp [wImage]; omega
  have h1 : ((wImageDev n).imgSlot 0).lenG = 0 := wImage_num n 16 4 (by omega)
  have h2 : ((wImageDev n).imgSlot 0).lenC = 0 := wImage_num n 20 4 (by omega)
  have h3 : ((wImageDev n).imgSlot 0).rollback = 0 := wImage_num n 12 1 (by omega)
  have h4 : ((wImageDev n).imgSlot 0).keyC = 0 := wImage_num n 14 1 (by omega)
  have h5 : ((wImageDev n).imgSlot 0).num 13 1 = 0 := wImage_num n 13 1 (by omega)
  have h6 : ((wImageDev n).imgSlot 0).offC = 4096 := by unfold ImageSlot.offC; rw [h1]
  have h7 : (wImage n).take 8 = [0x42, 0x52, 0x59, 0x4E, 0x49, 0x4D, 0x47, 0x31] := rfl
  have hk : ∀ k, (wImageDev n).keySlot k = {} := fun _ => rfl
  have hp : ∀ k, (wImageDev n).keyProgrammed k = decide (k = 0) := by
    intro k; simp [Dev.keyProgrammed, hk]
  unfold Dev.imageVerifies
  simp only [hl, h1, h2, h3, h4, h5, h6, h7, hlen, hk, hp, hz _ _ (show 8 ≤ 15 by omega), hz _ _ (show 8 ≤ 216 by omega),
    hz _ _ (show 8 ≤ 448 by omega)]
  simp [wImageDev]
  omega

/-- A Velvet tag that is nothing but its CRC carries that CRC. -/
theorem wVelvet (c : BitVec 32) : c.toNat = (BitVec.ofNat 64 (c.toNat * 2 ^ 32)).toNat / 2 ^ 32 := by
  have h := c.isLt
  simp only [BitVec.toNat_ofNat]
  omega

/-! ### Witnesses of the statements about the whole block -/

/-- The block in RUN at a time past its reset. -/
def wIdle (f : Dev → Dev) : State := wState (fun d => f { d with now := 7 })

/-- The block with port 2 in training and its HELLO due. -/
def wHello : State := wIdle (fun d => (d.wrF .hlkPortpStat 2 2 0 1).setPort 2 { helloAt := some 8 })

/-- Values that meet the hypotheses of every clause of Obligations.BlockStep. -/
theorem witness_BlockStep :
    ({ pending := [.grazeSwap, .logFlush] } : State).pending = .grazeSwap :: [.logFlush] ∧
    (State.reset.pending = [] ∧ State.reset.dev.powered = false) ∧
    ((wIdle id).pending = [] ∧ (wIdle id).dev.powered = true ∧ (wIdle id).dev.hlk.beats = [] ∧
      (∀ p : Fin 4, (wIdle id).dev.portState p ≠ 1) ∧ (wIdle id).dev.graze.bids = [] ∧ (wIdle id).dev.graze.busy = [] ∧
      (wIdle id).dev.hlk.steer = 0 ∧ (wIdle id).dev.hlk.steerAcc = 0) ∧
    (let s := wIdle (fun d => { d with hlk := { d.hlk with steer := 5, steerAcc := 999999999 } });
      s.pending = [] ∧ s.dev.powered = true ∧ s.dev.hlk.beats = [] ∧ (∀ p : Fin 4, s.dev.portState p ≠ 1) ∧
      s.dev.graze.bids = [] ∧ s.dev.graze.busy = [] ∧ 0 < s.dev.hlk.steer ∧
      1000000000 ≤ s.dev.hlk.steerAcc + s.dev.hlk.steer) ∧
    (wHello.pending = [] ∧ wHello.dev.powered = true ∧ wHello.dev.hlk.beats = [] ∧
      (∀ q : Fin 4, q ≠ 2 → wHello.dev.portState q ≠ 1) ∧ wHello.dev.portState 2 = 1 ∧ wHello.dev.portLive 2 = true ∧
      wHello.dev.graze.bids = [] ∧ wHello.dev.graze.busy = [] ∧ wHello.dev.hlk.steer = 0 ∧ wHello.dev.hlk.steerAcc = 0 ∧
      (wHello.dev.port 2).helloAt = some 8 ∧ atOrPast (wHello.dev.now + 1) 8 = true) := by decide +kernel

/-- Commands that meet the hypotheses of Obligations.CommandsAnswer. -/
theorem witness_CommandsAnswer : Instr.wf .grazeSwap = true ∧ Instr.wf (.mbxGo 0 131072) = false := by decide

/-- A queue that meets the hypothesis of Obligations.BlockNeverStops. -/
theorem witness_BlockNeverStops : QueueWf { pending := [.grazeSwap, .mbxGo 1 65536] } := by
  unfold QueueWf; decide

/-- States that meet the hypotheses of Obligations.MemoriesKeepTheirForm. -/
theorem witness_MemoriesKeepTheirForm : MemoriesWf State.reset.dev ∧ Machine.step State.reset = .next State.reset :=
  ⟨memoriesWf_reset, rfl⟩

/-- Slots that meet the hypotheses of every clause of Obligations.ResetLeaves. -/
theorem witness_ResetLeaves : (11 : Fin 64).val % 16 = 11 ∧ (22 : Fin 64).val % 16 = 6 ∧
    ((0, 1) ∈ ([(0, 1), (5, 1), (10, 1), (1, 0), (9, 0), (2, 2), (3, 2), (7, 2), (8, 2), (12, 2), (13, 2), (4, 3)] : List (Nat × Nat)) ∧
      (48 : Fin 64).val % 16 = 0) := by decide

/-- A stored word and two bits that meet the hypotheses of Obligations.SecdedCode. -/
theorem witness_SecdedCode :
    (63 = (poisonWord.chk.toNat % 64) ^^^ ((checkField poisonWord.data).toNat % 64) ∧
      true = (parity 48 poisonWord.data.toNat ^^ parity 7 poisonWord.chk.toNat)) ∧ (0 : Fin 55) ≠ 54 := by decide +kernel

namespace Tests.Evc

def wS0 : Source := { en := false, cls := false, target := 0 }
def wSrc (i : Nat) (x : Source) : State := wState (fun d => d.setSource i x)

/-- Values that meet the hypotheses of every clause of Obligations.EventRaisePends. -/
theorem witness_EventRaisePends :
    (let i : Fin 1024 := 352; let s : State := wState (fun d => d);
     (s.dev.powered = true) ∧ (srcKind i = .pulse) ∧ (s.dev.srcLive i = true) ∧ ((s.dev.source i).p = false)) ∧
    (let i : Fin 1024 := 352; let s : State := wSrc 352 { en := true, cls := false, target := 0, p := true };
     (s.dev.powered = true) ∧ (srcKind i = .pulse) ∧ (s.dev.srcLive i = true) ∧ ((s.dev.source i).p = true)) ∧
    (let i : Fin 1024 := 321; let s : State := wState (fun d => d);
     (s.dev.powered = true) ∧ (srcKind i = .level) ∧ (s.dev.srcLive i = true) ∧ ((s.dev.source i).l = false) ∧ ((s.dev.source i).sw = false) ∧ ((s.dev.source i).p = false)) ∧
    (let i : Fin 1024 := 321; let s : State := wSrc 321 { wS0 with p := true };
     (s.dev.powered = true) ∧ (srcKind i = .level) ∧ (s.dev.srcLive i = true) ∧ ((s.dev.source i).l = false) ∧ ((s.dev.source i).sw = false) ∧ ((s.dev.source i).p = true)) ∧
    (let i : Fin 1024 := 321; let s : State := wSrc 321 { wS0 with sw := true };
     (s.dev.powered = true) ∧ (srcKind i = .level) ∧ (s.dev.srcLive i = true) ∧ ((s.dev.source i).sw = true)) ∧
    (let i : Fin 1024 := 0; let s : State := wState (fun d => d);
     (srcKind i = .none ∨ s.dev.srcLive i = false ∨ (srcKind i = .level ∧ (s.dev.source i).l = true))) ∧
    (let i : Fin 1024 := 600; let s : State := wState (fun d => { d with domains := [] });
     (srcKind i = .none ∨ s.dev.srcLive i = false ∨ (srcKind i = .level ∧ (s.dev.source i).l = true))) ∧
    (let i : Fin 1024 := 321; let s : State := wSrc 321 { wS0 with l := true };
     (srcKind i = .none ∨ s.dev.srcLive i = false ∨ (srcKind i = .level ∧ (s.dev.source i).l = true))) ∧
    (let i : Fin 1024 := 352; let s : State := wState (fun d => d);
     (srcKind i ≠ .level ∨ (s.dev.source i).l = false)) ∧
    (let i : Fin 1024 := 321; let s : State := wState (fun d => d);
     (srcKind i ≠ .level ∨ (s.dev.source i).l = false)) ∧
    (let i : Fin 1024 := 321; let s : State := wSrc 321 { wS0 with l := true };
     (s.dev.powered = true) ∧ (srcKind i = .level)) := by
  iterate 10 refine And.intro (by decide +kernel) ?_
  decide +kernel

/-- Values that meet the hypotheses of every clause of Obligations.EventSoftwareActs. -/
theorem witness_EventSoftwareActs :
    (let i : Fin 1024 := 400; let w : Word := 0xA0;
     (320 ≤ i.val) ∧ (5 ≤ fld w 7 5)) ∧
    (let i : Fin 1024 := 7; let s : State := wSrc 7 { wS0 with l := true };
     (s.dev.powered = true) ∧ ((s.dev.source i).e = true)) ∧
    (let i : Fin 1024 := 7; let s : State := wState (fun d => d);
     (s.dev.powered = true) ∧ ((s.dev.source i).e = false) ∧ ((s.dev.source i).p = false)) ∧
    (let i : Fin 1024 := 7; let s : State := wSrc 7 { wS0 with p := true };
     (s.dev.powered = true) ∧ ((s.dev.source i).e = false) ∧ ((s.dev.source i).p = true)) ∧
    (let i : Fin 1024 := 7; let s : State := wSrc 7 { wS0 with sw := true, l := true };
     (s.dev.powered = true) ∧ ((s.dev.source i).s = false ∨ (s.dev.source i).l = false)) ∧
    (let i : Fin 1024 := 7; let s : State := wSrc 7 { wS0 with s := true };
     (s.dev.powered = true) ∧ ((s.dev.source i).s = false ∨ (s.dev.source i).l = false)) ∧
    (let i : Fin 1024 := 321; let s : State := wSrc 321 { wS0 with l := true, s := true, sw := true };
     (s.dev.powered = true) ∧ ((s.dev.source i).s = true) ∧ ((s.dev.source i).l = true) ∧ ((s.dev.source i).p = false)) ∧
    (let i : Fin 1024 := 321; let s : State := wSrc 321 { wS0 with l := true, s := true, p := true };
     (s.dev.powered = true) ∧ ((s.dev.source i).s = true) ∧ ((s.dev.source i).l = true) ∧ ((s.dev.source i).p = true)) ∧
    (let i : Fin 1024 := 9; let s : State := wSrc 9 { wS0 with p := true, m := true, s := true, sw := true };
     (s.dev.powered = true) ∧ (i.val ≠ 816 + (s.dev.source i).queue)) ∧
    (let i : Fin 1024 := 816; let s : State := wSrc 816 { wS0 with p := true, l := true };
     (s.dev.powered = true) ∧ (i.val = 816 + (s.dev.source i).queue) ∧ (s.dev.queueFull (s.dev.source i).queue = false) ∧ (srcKind i = .level)) ∧
    (let i : Fin 1024 := 816; let s : State := wState (fun d => (d.wr .evcQqProd 0 256).setSource 816 { wS0 with p := true, l := true });
     (s.dev.powered = true) ∧ (i.val = 816 + (s.dev.source i).queue) ∧ (s.dev.queueFull (s.dev.source i).queue = true)) := by
  iterate 10 refine And.intro (by decide +kernel) ?_
  decide +kernel

set_option maxRecDepth 20000 in
/-- Values that meet the hypotheses of every clause of Obligations.EventQueuesAndAlarms. -/
theorem witness_EventQueuesAndAlarms :
    (let q : Fin 10 := 0; let i : Fin 1024 := 352; let s : State := wSrc 352 { en := true, cls := false, target := 0, p := true, stampTime := 77 };
     (s.dev.powered = true) ∧ (s.dev.queueFull q = false) ∧ ((s.dev.markDelayed q false).chooseSource q = some i.val) ∧ (i.val ≠ 816 + q.val) ∧ (s.dev.rdB .edcInjCtl 0 8 = false) ∧ (memWf MemWord.blank s.dev.sram = true)) ∧
    (let q : Fin 10 := 0; let s : State := wState (fun d => (d.wr .evcQqProd 0 256).setSource 352 { wS0 with p := true });
     (s.dev.powered = true) ∧ (s.dev.queueFull q = true) ∧ (s.dev.anyWaiting q = true)) ∧
    (let q : Fin 10 := 0; let s : State := wState (fun d => d.wr .evcQqProd 0 256);
     (s.dev.powered = true) ∧ (s.dev.queueFull q = true) ∧ (s.dev.anyWaiting q = false)) ∧
    (let q : Fin 10 := 0; let s : State := wSrc 352 { wS0 with p := true };
     (s.dev.powered = true) ∧ (s.dev.queueFull q = false) ∧ ((∀ i : Fin 1024, s.dev.waitsFor q i = true → (s.dev.source i).en = false))) ∧
    (let q : Fin 10 := 3; let s : State := wState (fun d => d.wr .evcQqProd 3 5);
     (s.dev.powered = true) ∧ (s.dev.queueEmpty q = false)) ∧
    (let q : Fin 10 := 3; let s : State := wState (fun d => d);
     (s.dev.queueEmpty q = true)) ∧
    (let q : Fin 10 := 3; let v : Word := 300; let s : State := wState (fun d => d.wr .evcQqProd 3 310);
     (s.dev.powered = true) ∧ ((s.dev.rdF .evcQqProd q 8 0 + 512 - fld v 8 0) % 512 ≤ 256)) ∧
    (let q : Fin 10 := 3; let v : Word := 100; let s : State := wState (fun d => d.wr .evcQqProd 3 5);
     (s.dev.powered = true) ∧ (256 < (s.dev.rdF .evcQqProd q 8 0 + 512 - fld v 8 0) % 512)) ∧
    (let time : Word := 50; let s : State := wState (fun d => d);
     (s.dev.powered = true) ∧ (atOrPast s.dev.now time = false)) ∧
    (let time : Word := 50; let s : State := wState (fun d => { d with now := 60 });
     (s.dev.powered = true) ∧ (atOrPast s.dev.now time = true)) ∧
    (let k : Fin 5 := 2; let s : State := wState (fun d => d);
     (s.dev.alarmDue k = false)) ∧
    (let k : Fin 5 := 2; let s : State := wState (fun d => { d with now := 60, evc := { d.evc with armed := [(2, true)] } });
     (s.dev.powered = true) ∧ (s.dev.alarmDue k = true)) := by
  iterate 11 refine And.intro (by decide +kernel) ?_
  decide +kernel

end Tests.Evc

namespace Tests.Spr

def wAxis (x : Axis) (f : Dev → Dev) : State := wState (fun d => f ((d.wrB .sprAxnCtl 1 0 true).setAxis 1 x))
def wTrack : Tracker := { st := .track, v := 42949673, p := 5000 }
def wFix : FixedFire := { time := 10, line := 3, pos := 768, st := .track, counted := true, cxp := 0, out := 0, pitch := 256 }
def wHead (h : Nat) (st : HeadState) (d : Dev) : Dev := ((d.wrB .cxiHdhCfg h 0 true).wrF .cxiHdhCfg h 21 16 4).wrF .cxiHdhStat h 2 0 st.code

/-- Values that meet the hypotheses of every clause of Obligations.AxisLimits. -/
theorem witness_AxisLimits :
    (let a : Fin 4 := 1; let tr : TrackerSel := .main; let s : State := wAxis { main := { wTrack with v := 4294967296 } } (fun d => { d with now := 3000000000 });
     (s.dev.powered = true) ∧ (s.dev.axisLocal a = true) ∧ ((s.dev.tracker a tr).st = .track) ∧ (overdueApplies (s.dev.tracker a tr) (s.dev.rd .sprAxnAmax a).toNat (s.dev.spacingQ a tr) = true) ∧ (overdueNow (s.dev.tracker a tr) (s.dev.rd .sprAxnEdgeTol a).toNat (s.dev.rd .sprAxnAmax a).toNat (s.dev.spacingQ a tr) s.dev.now = true)) ∧
    (let a : Fin 4 := 1; let tr : TrackerSel := .main; let s : State := wAxis { main := { wTrack with st := .coast, v := 0 } } (fun d => { d with now := 3000000000 });
     (s.dev.powered = true) ∧ (s.dev.axisLocal a = true) ∧ ((s.dev.tracker a tr).st = .coast) ∧ (20000000 ≤ elapsed s.dev.now (s.dev.tracker a tr).entered)) ∧
    (let a : Fin 4 := 1; let tr : TrackerSel := .shadow; let s : State := wAxis { shadow := { wTrack with st := .coast } } (fun d => { d with now := 3000000000 });
     (s.dev.powered = true) ∧ (s.dev.axisLocal a = true) ∧ ((s.dev.tracker a tr).st = .coast) ∧ (1024 * 256 ≤ ((s.dev.tracker a tr).coastAt s.dev.now - (s.dev.tracker a tr).coastPos).toInt.natAbs)) ∧
    (let a : Fin 4 := 1; let tr : TrackerSel := .main; let s : State := wAxis { main := { wTrack with st := .coast } } (fun d => { d with now := 3000000000 });
     (s.dev.powered = true) ∧ (s.dev.axisLocal a = true) ∧ ((s.dev.tracker a tr).st = .coast) ∧ (1024 * 256 ≤ ((s.dev.tracker a tr).coastAt s.dev.now - (s.dev.tracker a tr).coastPos).toInt.natAbs)) ∧
    (let a : Fin 4 := 1; let tr : TrackerSel := .main; let s : State := wAxis { main := { wTrack with st := .acquire } } (fun d => { d with now := 3000000000 });
     (s.dev.powered = true) ∧ (s.dev.axisLocal a = true) ∧ ((s.dev.rd .sprAxnStillNs a).toNat ≤ elapsed s.dev.now (s.dev.tracker a tr).seen) ∧ (((s.dev.tracker a tr).st = .acquire ∨ ((s.dev.tracker a tr).st = .track ∧ overdueApplies (s.dev.tracker a tr) (s.dev.rd .sprAxnAmax a).toNat (s.dev.spacingQ a tr) = false)))) ∧
    (let a : Fin 4 := 1; let tr : TrackerSel := .shadow; let s : State := wAxis { shadow := { wTrack with v := 0 } } (fun d => { d with now := 3000000000 });
     (s.dev.powered = true) ∧ (s.dev.axisLocal a = true) ∧ ((s.dev.rd .sprAxnStillNs a).toNat ≤ elapsed s.dev.now (s.dev.tracker a tr).seen) ∧ (((s.dev.tracker a tr).st = .acquire ∨ ((s.dev.tracker a tr).st = .track ∧ overdueApplies (s.dev.tracker a tr) (s.dev.rd .sprAxnAmax a).toNat (s.dev.spacingQ a tr) = false)))) ∧
    (let s : State := wAxis { main := wTrack } (fun d => { d with now := 3000000000 });
     (s.dev.powered = true)) := by
  iterate 6 refine And.intro (by decide +kernel) ?_
  decide +kernel

/-- Values that meet the hypotheses of every clause of Obligations.AxisCommands. -/
theorem witness_AxisCommands :
    (let a : Fin 4 := 1; let s : State := wAxis { main := { wTrack with st := .fault, v := 0 } } (fun d => { d with now := 3000000000 });
     (s.dev.powered = true) ∧ ((s.dev.tracker a .main).st = .fault)) ∧
    (let a : Fin 4 := 1; let s : State := wAxis { shadow := { wTrack with st := .fault, v := 0 } } (fun d => { d with now := 3000000000 });
     (s.dev.powered = true) ∧ ((s.dev.tracker a .shadow).st = .fault)) ∧
    (let a : Fin 4 := 1; let s : State := wState (fun d => d);
     (s.dev.powered = true) ∧ ((s.dev.tracker a .main).st ≠ .fault) ∧ ((s.dev.tracker a .shadow).st ≠ .fault)) ∧
    (let a : Fin 4 := 1; let s : State := wAxis { main := { wTrack with st := .fault } } (fun d => d.wr .sprAxnPreset 1 1000);
     (s.dev.powered = true) ∧ ((s.dev.tracker a .main).st = .idle ∨ (s.dev.tracker a .main).st = .fault)) ∧
    (let a : Fin 4 := 2; let s : State := wState (fun d => d.wr .sprAxnPreset 2 1000);
     (s.dev.powered = true) ∧ ((s.dev.tracker a .main).st = .idle ∨ (s.dev.tracker a .main).st = .fault)) ∧
    (let a : Fin 4 := 1; let s : State := wAxis { main := wTrack } (fun d => { d with now := 3000000000 });
     (s.dev.powered = true) ∧ ((s.dev.tracker a .main).st = .acquire ∨ (s.dev.tracker a .main).st = .track ∨ (s.dev.tracker a .main).st = .coast)) ∧
    (let a : Fin 4 := 1; let s : State := wAxis { main := wTrack, shadow := wTrack, onSec := true } (fun d => { d with now := 3000000000 });
     (s.dev.powered = true) ∧ ((s.dev.axis a).onSec = true) ∧ ((s.dev.axis a).shadow.st = .track)) ∧
    (let a : Fin 4 := 1; let s : State := wAxis { main := { wTrack with st := .coast, v := 5 }, shadow := wTrack, onSec := true } (fun d => { d with now := 3000000000 });
     (s.dev.powered = true) ∧ ((s.dev.axis a).onSec = true) ∧ ((s.dev.axis a).shadow.st = .track)) ∧
    (let a : Fin 4 := 1; let s : State := wState (fun d => d);
     (s.dev.powered = true) ∧ ((s.dev.axis a).onSec = false ∨ (s.dev.axis a).shadow.st ≠ .track)) ∧
    (let s : State := wAxis { secBad := true } (fun d => { d with now := 3000000000 });
     (s.dev.powered = true)) ∧
    (let a : Fin 4 := 1; let s : State := wAxis { slip := some (0, 0) } (fun d => d.wr .sprEncnCount 2 5000); let p0 : Word := 0; let s0 : Word := 0; let tp : Int := (s.dev.rd .sprEncnCount (s.dev.rdF .sprAxnCtl a 6 4) - p0).toInt * 256; let ts : Int := (s.dev.secTicks a (s.dev.rd .sprEncnCount (s.dev.rdF .sprAxnCtl a 10 8)) - s.dev.secTicks a s0).toInt;
     (s.dev.powered = true) ∧ ((s.dev.axis a).slip = some (p0, s0)) ∧ (tp = (s.dev.rd .sprEncnCount (s.dev.rdF .sprAxnCtl a 6 4) - p0).toInt * 256) ∧ (ts = (s.dev.secTicks a (s.dev.rd .sprEncnCount (s.dev.rdF .sprAxnCtl a 10 8)) - s.dev.secTicks a s0).toInt) ∧ ((s.dev.rd .sprAxnSlipWin a).toNat * 256 ≤ tp.natAbs)) ∧
    (let a : Fin 4 := 1; let s : State := wAxis { slip := some (0, 0) } (fun d => (d.wr .sprEncnCount 2 5000).wr .sprAxnSlipTol 1 0xFFFFFFFF); let p0 : Word := 0; let s0 : Word := 0; let tp : Int := (s.dev.rd .sprEncnCount (s.dev.rdF .sprAxnCtl a 6 4) - p0).toInt * 256; let ts : Int := (s.dev.secTicks a (s.dev.rd .sprEncnCount (s.dev.rdF .sprAxnCtl a 10 8)) - s.dev.secTicks a s0).toInt;
     (s.dev.powered = true) ∧ ((s.dev.axis a).slip = some (p0, s0)) ∧ (tp = (s.dev.rd .sprEncnCount (s.dev.rdF .sprAxnCtl a 6 4) - p0).toInt * 256) ∧ (ts = (s.dev.secTicks a (s.dev.rd .sprEncnCount (s.dev.rdF .sprAxnCtl a 10 8)) - s.dev.secTicks a s0).toInt) ∧ ((s.dev.rd .sprAxnSlipWin a).toNat * 256 ≤ tp.natAbs)) ∧
    (let a : Fin 4 := 1; let s : State := wAxis { slip := some (0, 0), shadow := wTrack, main := wTrack } (fun d => ((d.wr .sprEncnCount 2 5000).wrF .sprAxnCtl 1 11 7 27).wr .sprEncnCount 3 10000); let p0 : Word := 0; let s0 : Word := 0; let tp : Int := (s.dev.rd .sprEncnCount (s.dev.rdF .sprAxnCtl a 6 4) - p0).toInt * 256; let ts : Int := (s.dev.secTicks a (s.dev.rd .sprEncnCount (s.dev.rdF .sprAxnCtl a 10 8)) - s.dev.secTicks a s0).toInt;
     (s.dev.powered = true) ∧ ((s.dev.axis a).slip = some (p0, s0)) ∧ (tp = (s.dev.rd .sprEncnCount (s.dev.rdF .sprAxnCtl a 6 4) - p0).toInt * 256) ∧ (ts = (s.dev.secTicks a (s.dev.rd .sprEncnCount (s.dev.rdF .sprAxnCtl a 10 8)) - s.dev.secTicks a s0).toInt) ∧ ((s.dev.rd .sprAxnSlipWin a).toNat * 256 ≤ tp.natAbs)) := by
  iterate 12 refine And.intro (by decide +kernel) ?_
  decide +kernel

/-- Values that meet the hypotheses of every clause of Obligations.TriggersAndSchedulers. -/
theorem witness_TriggersAndSchedulers :
    (let g : Fin 64 := 7; let s : State := wState (fun d => (d.wr .sprTgnPitch 7 256).wr .sprTgnMinInt 7 100000);
     (s.dev.powered = true) ∧ (s.dev.rdB .sprTgnCfg g 0 = false) ∧ (s.dev.genValid g = true)) ∧
    (let g : Fin 64 := 7; let s : State := wState (fun d => d.wr .sprTgnPitch 7 1);
     (s.dev.powered = true) ∧ (s.dev.rdB .sprTgnCfg g 0 = false) ∧ (s.dev.genValid g = false)) ∧
    (let g : Fin 64 := 7; let s : State := wState (fun d => d.wrB .sprTgnCfg 7 0 true);
     (s.dev.powered = true) ∧ (s.dev.rdB .sprTgnCfg g 0 = true) ∧ (ChannelsIdle s)) ∧
    (let s : State := wState (fun d => d.wrB .sprTgnCfg 7 0 true);
     (s.dev.powered = true)) ∧
    (let s : State := wAxis { main := { wTrack with v := 4294967296 } } (fun d => (((d.wr .sprTgnPitch 7 256).wr .sprTgnMinInt 7 1000).wr .sprTgnCfg 7 3).wr .sprTgnNext 7 4608);
     (s.dev.powered = true)) ∧
    (let g : Fin 64 := 7; let s : State := wAxis { main := { wTrack with v := 4294967296 } } (fun d => (((d.wr .sprTgnPitch 7 256).wr .sprTgnMinInt 7 1000).wr .sprTgnCfg 7 3).wr .sprTgnNext 7 5014);
     (s.dev.powered = true) ∧ (s.dev.inService = true) ∧ (s.dev.genTracks g = true) ∧ (s.dev.axisBackward (s.dev.genAxis g) = false) ∧ ((s.dev.gen g).fixed = []) ∧ ((s.dev.gen g).regrid = false) ∧ (atOrPast (s.dev.material g) (s.dev.rd .sprTgnNext g) = false) ∧ (s.dev.minIntWait g ≤ 0) ∧ (atOrPast (s.dev.axisPosAt (s.dev.genAxis g) (s.dev.now + wordOf (s.dev.leadTime g)) - s.dev.rd .sprTgnStagger g) (s.dev.gridPt g (s.dev.gridIdx g (s.dev.rd .sprTgnNext g))) = true)) ∧
    (let g : Fin 64 := 7; let s : State := wAxis { main := { wTrack with v := 4294967296 } } (fun d => (((d.wr .sprTgnPitch 7 256).wr .sprTgnMinInt 7 1000).wr .sprTgnCfg 7 3).wr .sprTgnNext 7 4608); let k : Int := 19;
     (s.dev.powered = true) ∧ (s.dev.inService = true) ∧ (s.dev.genTracks g = true) ∧ (s.dev.axisBackward (s.dev.genAxis g) = false) ∧ ((s.dev.gen g).fixed = []) ∧ ((s.dev.gen g).regrid = false) ∧ (atOrPast (s.dev.material g) (s.dev.rd .sprTgnNext g) = true) ∧ (k = s.dev.gridIdx g (s.dev.material g)) ∧ (s.dev.minIntOk g (s.dev.reachedAt (s.dev.genAxis g) (s.dev.gridPt g k + s.dev.rd .sprTgnStagger g)) = true)) ∧
    (let g : Fin 64 := 7; let s : State := wState (fun d => { (d.setGen 7 { fixed := [wFix] }) with now := 10 }); let f : FixedFire := wFix; let rest : List FixedFire := [];
     (s.dev.powered = true) ∧ ((s.dev.gen g).fixed = f :: rest) ∧ (atOrPast s.dev.now f.time = true)) ∧
    (let g : Fin 64 := 7; let s : State := wState (fun d => { (d.setGen 7 { fixed := [{ wFix with counted := false }] }) with now := 10 }); let f : FixedFire := { wFix with counted := false }; let rest : List FixedFire := [];
     (s.dev.powered = true) ∧ ((s.dev.gen g).fixed = f :: rest) ∧ (atOrPast s.dev.now f.time = true)) ∧
    (let g : Fin 64 := 3; let h : Fin 64 := 3; let s : State := wState (fun d => { ((wHead 3 .run d).setGen 3 { fixed := [wFix] }) with now := 10 }); let f : FixedFire := wFix; let rest : List FixedFire := [];
     (s.dev.powered = true) ∧ ((s.dev.gen g).fixed = f :: rest) ∧ (atOrPast s.dev.now f.time = true) ∧ (s.dev.headOfGen g = some h.val) ∧ (s.dev.headUp h = true) ∧ ((s.dev.head h).records.length < 32)) ∧
    (let k : Fin 16 := 3; let s : State := wState (fun d => (d.setActQueue 3 [{ pos := 5, widthUs := 1, level := true }]).wr .sprActkPos 3 9);
     (s.dev.powered = true) ∧ ((s.dev.actQueue k).length < 16) ∧ ((∀ e, (s.dev.actQueue k).getLast? = some e → strictlyPast (s.dev.rd .sprActkPos k) e.pos = true))) ∧
    (let k : Fin 16 := 3; let s : State := wState (fun d => d.setActQueue 3 (List.replicate 16 { pos := 5, widthUs := 1, level := true }));
     (s.dev.powered = true) ∧ (16 ≤ (s.dev.actQueue k).length ∨ (∃ e ∈ (s.dev.actQueue k).getLast?, strictlyPast (s.dev.rd .sprActkPos k) e.pos = false))) ∧
    (let k : Fin 16 := 3; let s : State := wState (fun d => d.setActQueue 3 [{ pos := 5, widthUs := 1, level := true }]);
     (s.dev.powered = true) ∧ (16 ≤ (s.dev.actQueue k).length ∨ (∃ e ∈ (s.dev.actQueue k).getLast?, strictlyPast (s.dev.rd .sprActkPos k) e.pos = false))) ∧
    (let k : Fin 16 := 3; let s : State := wAxis { main := { wTrack with st := .acquire } } (fun d => (d.setActQueue 3 [{ pos := 100, widthUs := 1, level := true }]).wr .sprActkCfg 3 5); let e : ActEntry := { pos := 100, widthUs := 1, level := true }; let rest : List ActEntry := [];
     (s.dev.powered = true) ∧ (s.dev.actQueue k = e :: rest) ∧ (s.dev.rdB .sprActkCfg k 2 = true) ∧ (s.dev.inService = true) ∧ (e.late = false) ∧ ((s.dev.axisState (s.dev.rdF .sprActkCfg k 1 0) = .acquire ∨ s.dev.axisState (s.dev.rdF .sprActkCfg k 1 0) = .track ∨ s.dev.axisState (s.dev.rdF .sprActkCfg k 1 0) = .coast)) ∧ (s.dev.axisBackward (s.dev.rdF .sprActkCfg k 1 0) = false) ∧ (atOrPast (s.dev.axisPos (s.dev.rdF .sprActkCfg k 1 0)) e.pos = true)) := by
  iterate 2 refine And.intro (by decide +kernel) ?_
  refine And.intro (by unfold ChannelsIdle; decide +kernel) ?_
  iterate 10 refine And.intro (by decide +kernel) ?_
  decide +kernel

/-- Values that meet the hypotheses of every clause of Obligations.EncodersPulsesPackets. -/
theorem witness_EncodersPulsesPackets :
    (let n : Fin 8 := 2; let s : State := wState (fun d => { (d.setEncIn 2 { la := { pin := true, stamp := 100 } }) with now := 500 });
     (s.dev.powered = true) ∧ ((s.dev.encIn n).la.pin ≠ (s.dev.encIn n).la.filt) ∧ (((s.dev.encIn n).lb.pin = (s.dev.encIn n).lb.filt ∨ (s.dev.encIn n).lb.stamp ≠ (s.dev.encIn n).la.stamp)) ∧ (s.dev.rdF .sprEncnCfg n 7 0 ≤ elapsed s.dev.now (s.dev.encIn n).la.stamp) ∧ ((s.dev.encIn n).last.any (fun u => decide (elapsed (s.dev.encIn n).la.stamp u < 20)) = false)) ∧
    (let n : Fin 8 := 2; let s : State := wState (fun d => { (d.setEncIn 2 { lb := { pin := true, stamp := 100 } }) with now := 500 });
     (s.dev.powered = true) ∧ ((s.dev.encIn n).lb.pin ≠ (s.dev.encIn n).lb.filt) ∧ (((s.dev.encIn n).la.pin = (s.dev.encIn n).la.filt ∨ (s.dev.encIn n).la.stamp ≠ (s.dev.encIn n).lb.stamp)) ∧ (s.dev.rdF .sprEncnCfg n 7 0 ≤ elapsed s.dev.now (s.dev.encIn n).lb.stamp) ∧ ((s.dev.encIn n).last.any (fun u => decide (elapsed (s.dev.encIn n).lb.stamp u < 20)) = false)) ∧
    (let n : Fin 8 := 2; let ch : EncCh := .b; let other : EncCh := .a; let s : State := wState (fun d => { (d.setEncIn 2 { la := { pin := true, stamp := 100 }, lb := { pin := true, stamp := 100 } }) with now := 500 });
     (s.dev.powered = true) ∧ ((ch, other) = (.a, .b) ∨ (ch, other) = (.b, .a)) ∧ (((s.dev.encIn n).line ch).pin ≠ ((s.dev.encIn n).line ch).filt) ∧ (s.dev.rdF .sprEncnCfg n 7 0 ≤ elapsed s.dev.now ((s.dev.encIn n).line ch).stamp) ∧ (((((s.dev.encIn n).line other).pin ≠ ((s.dev.encIn n).line other).filt ∧ ((s.dev.encIn n).line other).stamp = ((s.dev.encIn n).line ch).stamp) ∨ (s.dev.encIn n).last.any (fun u => decide (elapsed ((s.dev.encIn n).line ch).stamp u < 20)) = true))) ∧
    (let n : Fin 8 := 2; let ch : EncCh := .a; let other : EncCh := .b; let s : State := wState (fun d => { (d.setEncIn 2 { la := { pin := true, stamp := 100 }, last := some 90 }) with now := 500 });
     (s.dev.powered = true) ∧ ((ch, other) = (.a, .b) ∨ (ch, other) = (.b, .a)) ∧ (((s.dev.encIn n).line ch).pin ≠ ((s.dev.encIn n).line ch).filt) ∧ (s.dev.rdF .sprEncnCfg n 7 0 ≤ elapsed s.dev.now ((s.dev.encIn n).line ch).stamp) ∧ (((((s.dev.encIn n).line other).pin ≠ ((s.dev.encIn n).line other).filt ∧ ((s.dev.encIn n).line other).stamp = ((s.dev.encIn n).line ch).stamp) ∨ (s.dev.encIn n).last.any (fun u => decide (elapsed ((s.dev.encIn n).line ch).stamp u < 20)) = true))) ∧
    (let n : Fin 8 := 2; let s : State := wState (fun d => { ((d.setEncIn 2 { lz := { pin := true, stamp := 100 } }).wrB .sprEncnCfg 2 9 true).wr .sprEncnCount 2 77 with now := 500 });
     (s.dev.powered = true) ∧ ((s.dev.encIn n).lz.pin = true) ∧ ((s.dev.encIn n).lz.filt = false) ∧ (s.dev.rdF .sprEncnCfg n 7 0 ≤ elapsed s.dev.now (s.dev.encIn n).lz.stamp)) ∧
    (let n : Fin 8 := 2; let s : State := wState (fun d => { ((d.setEncIn 2 { lz := { pin := true, stamp := 100 } }).wrB .sprEncnCfg 2 9 false).wr .sprEncnCount 2 77 with now := 500 });
     (s.dev.powered = true) ∧ ((s.dev.encIn n).lz.pin = true) ∧ ((s.dev.encIn n).lz.filt = false) ∧ (s.dev.rdF .sprEncnCfg n 7 0 ≤ elapsed s.dev.now (s.dev.encIn n).lz.stamp)) ∧
    (let n : Fin 8 := 2; let s : State := wState (fun d => { (d.setEncIn 2 { lz := { filt := true, stamp := 100 } }) with now := 500 });
     (s.dev.powered = true) ∧ ((s.dev.encIn n).lz.pin = false) ∧ ((s.dev.encIn n).lz.filt = true) ∧ (s.dev.rdF .sprEncnCfg n 7 0 ≤ elapsed s.dev.now (s.dev.encIn n).lz.stamp)) ∧
    (let x : Fin 48 := 5; let s : State := wState (fun d => { ((d.wrF .fioOxStat 5 2 0 1).setOutDrv 5 { due := [{ start := 10, width := 5, level := true }] }) with now := 10 }); let p : Pulse := { start := 10, width := 5, level := true }; let rest : List Pulse := [];
     (s.dev.powered = true) ∧ ((s.dev.outDrv x).due = p :: rest) ∧ (atOrPast s.dev.now p.start = true) ∧ (s.dev.outDrives x = true)) ∧
    (let x : Fin 48 := 5; let s : State := wState (fun d => { (d.setOutDrv 5 { due := [{ start := 10, width := 5, level := true }] }) with now := 10 }); let p : Pulse := { start := 10, width := 5, level := true }; let rest : List Pulse := [];
     (s.dev.powered = true) ∧ ((s.dev.outDrv x).due = p :: rest) ∧ (atOrPast s.dev.now p.start = true) ∧ (s.dev.outDrives x = false)) ∧
    (let x : Fin 48 := 5; let s : State := wState (fun d => { (d.setOutDrv 5 { active := some (9, true) }) with now := 10 }); let e : Word := 9; let l : Bool := true;
     (s.dev.powered = true) ∧ ((s.dev.outDrv x).active = some (e, l)) ∧ (atOrPast s.dev.now e = true)) ∧
    (let c : Instr := .cxpTriggerPacket 4; let l : Fin 64 := 4; let h : Fin 64 := 3; let rise : Bool := true; let s : State := wState (fun d => let d := wHead 3 .run d; { d with cxi := { d.cxi with trigQ := [(4, [{ fire := 0, rising := true }])] } }); let p : TrigPkt := { fire := 0, rising := true }; let rest : List TrigPkt := [];
     (s.dev.powered = true) ∧ ((c, rise) = (.cxpTriggerPacket l, true) ∨ (c, rise) = (.cxpFallPacket l, false)) ∧ (tget s.dev.cxi.trigQ [] l = p :: rest) ∧ (p.rising = rise) ∧ (atOrPast s.dev.now p.fire = true) ∧ (s.dev.headOfLink l = some h.val) ∧ (s.dev.headUp h = true) ∧ (s.dev.rdF .cxiHdhCfg h 21 16 = l.val)) ∧
    (let c : Instr := .cxpFallPacket 4; let l : Fin 64 := 4; let h : Fin 64 := 3; let rise : Bool := false; let s : State := wState (fun d => let d := wHead 3 .linked d; { d with cxi := { d.cxi with trigQ := [(4, [{ fire := 0, rising := false }])] } }); let p : TrigPkt := { fire := 0, rising := false }; let rest : List TrigPkt := [];
     (s.dev.powered = true) ∧ ((c, rise) = (.cxpTriggerPacket l, true) ∨ (c, rise) = (.cxpFallPacket l, false)) ∧ (tget s.dev.cxi.trigQ [] l = p :: rest) ∧ (p.rising = rise) ∧ (atOrPast s.dev.now p.fire = true) ∧ (s.dev.headOfLink l = some h.val) ∧ (s.dev.headUp h = true) ∧ (s.dev.rdF .cxiHdhCfg h 21 16 = l.val)) ∧
    (let c : Instr := .cxpTriggerPacket 4; let l : Fin 64 := 4; let rise : Bool := true; let s : State := wState (fun d => let d := d; { d with cxi := { d.cxi with trigQ := [(4, [{ fire := 0, rising := true }])] } }); let p : TrigPkt := { fire := 0, rising := true }; let rest : List TrigPkt := [];
     (s.dev.powered = true) ∧ ((c, rise) = (.cxpTriggerPacket l, true) ∨ (c, rise) = (.cxpFallPacket l, false)) ∧ (tget s.dev.cxi.trigQ [] l = p :: rest) ∧ (p.rising = rise) ∧ (atOrPast s.dev.now p.fire = true) ∧ (s.dev.trigLink l = false)) ∧
    (let c : Instr := .cxpFallPacket 4; let l : Fin 64 := 4; let rise : Bool := false; let s : State := wState (fun d => let d := d; { d with cxi := { d.cxi with trigQ := [(4, [{ fire := 0, rising := false }])] } }); let p : TrigPkt := { fire := 0, rising := false }; let rest : List TrigPkt := [];
     (s.dev.powered = true) ∧ ((c, rise) = (.cxpTriggerPacket l, true) ∨ (c, rise) = (.cxpFallPacket l, false)) ∧ (tget s.dev.cxi.trigQ [] l = p :: rest) ∧ (p.rising = rise) ∧ (atOrPast s.dev.now p.fire = true) ∧ (s.dev.trigLink l = false)) := by
  iterate 13 refine And.intro (by decide +kernel) ?_
  decide +kernel

end Tests.Spr

namespace Tests.Hlk

def wHlk (f : Dev → Dev) : State := wState (fun d => f ((d.wrB .hlkCtl 0 0 true).wr .hlkVersion 0 2))
def wPort (p st step : Nat) (f : Dev → Dev) : State :=
  wHlk (fun d => f { (((d.wrB .hlkPortpCtl p 0 true).wrF .hlkPortpStat p 2 0 st).setPort p { step := step }) with now := 200000000 })
def wHello : HelloMsg := { verLo := 1, verHi := 3, follower := true, joined := none, serial := 5, port := 1, alt := false }
def wLead (f : Dev → Dev) : State := wPort 2 2 7 (fun d => f (d.wrF .hlkStat 0 2 0 5))
def wFollow (st : Nat) (f : Dev → Dev) : State := wPort 2 2 7 (fun d =>
  f ({ (((d.wrF .hlkStat 0 2 0 st).wrF .hlkStat 0 17 16 2).wrB .hlkCtl 0 1 true) with hlk := { d.hlk with numbered := true } }))
def wAx : BeatAxis := { pos := 0, st := 2, back := false, vel := 0 }
def wBeat : Beat := { seq := 9, time := 200001024, corr := 5, sender := 0, depth := 0, a0 := wAx, a1 := wAx, a2 := wAx, a3 := wAx, epoch := 0, cstate := 0, caxis := 0, applying := false, wave := 0, lastWave := 0, seqValid := false, applySeq := 0, lastDone := 0, target := 0 }
def wFrame : BeatFrame := beatFrame wBeat 0
def wBad : BeatFrame := { wFrame with crc := 0 }
def wArr : Arrival := { port := 2, fails := 0, known := true, reservedZero := true }
def wReq : CommitReq := { requester := 3, tag := 7, next := false, axis := 1, target := 5 }
def wVote : VoteMsg := { epoch := 4, voting := 1, abstain := 0, largest := 3, refuser := none }
def wRun (w : List Nat) : VoteRun := { acc := wVote, waiting := w, prepSeq := 1 }
def wCom (ph : LeadPhase) : LeadCommit := { req := wReq, epoch := 4, phase := ph, armedAt := some 5 }
def wDone : CommitDone := { requester := 0, tag := 1, epoch := 4, status := 0, sub := 0, applySeq := 1, pos := 5, waves := 1 }
def wBlob (dst : Nat) : BlobMsg := { src := 1, dest := dst, tag := 0, head := 2, first := 0, last := 10, latLo := 5, latHi := 9, words := [0, 0] }
def wTile (r dst : Nat) : TileReq := { requester := r, dest := dst, tag := 3, head := 1, first := 0, last := 1, bcol := 0, ecol := 0 }
def wRem : RemoteReq := { query := 0, part := 0, req := wTile 0 9, sent := true }

/-- Values that meet the hypotheses of every clause of Obligations.PortTraining. -/
theorem witness_PortTraining :
    (let p : Fin 4 := 2; let s : State := wPort 2 0 1 id;
     (s.dev.powered = true) ∧ (s.dev.portLive p = true) ∧ (s.dev.portState p = 0) ∧ ((s.dev.port p).step = 1)) ∧
    (let p : Fin 4 := 2; let s : State := wPort 2 1 2 (fun d => d.wrB .hlkPortpCtl 2 2 true);
     (s.dev.powered = true) ∧ (s.dev.portState p = 1) ∧ ((s.dev.port p).step = 2) ∧ (10000000 ≤ elapsed s.dev.now (s.dev.port p).stepAt) ∧ (s.dev.rdB .hlkPortpCtl p 2 = true)) ∧
    (let p : Fin 4 := 2; let s : State := wPort 2 1 2 (fun d => d.wrB .hlkPortpCtl 2 2 false);
     (s.dev.powered = true) ∧ (s.dev.portState p = 1) ∧ ((s.dev.port p).step = 2) ∧ (10000000 ≤ elapsed s.dev.now (s.dev.port p).stepAt) ∧ (s.dev.rdB .hlkPortpCtl p 2 = false)) ∧
    (let p : Fin 4 := 2; let lanes : Fin 3 := 0; let skewed : Bool := false; let s : State := wPort 2 1 2 id;
     (s.dev.powered = true) ∧ (s.dev.portState p = 1) ∧ (((s.dev.port p).step = 2 ∧ lanes = 0 ∧ 1000000 ≤ elapsed s.dev.now (s.dev.port p).stepAt) ∨ ((s.dev.port p).step = 2 ∧ lanes = 2 ∧ (skewed = true ∨ 1000000 ≤ elapsed s.dev.now (s.dev.port p).stepAt)) ∨ (((s.dev.port p).step = 3 ∨ (s.dev.port p).step = 6) ∧ 1000000 ≤ elapsed s.dev.now (s.dev.port p).stepAt))) ∧
    (let p : Fin 4 := 2; let lanes : Fin 3 := 2; let skewed : Bool := true; let s : State := wPort 2 1 2 (fun d => { d with now := 5 });
     (s.dev.powered = true) ∧ (s.dev.portState p = 1) ∧ (((s.dev.port p).step = 2 ∧ lanes = 0 ∧ 1000000 ≤ elapsed s.dev.now (s.dev.port p).stepAt) ∨ ((s.dev.port p).step = 2 ∧ lanes = 2 ∧ (skewed = true ∨ 1000000 ≤ elapsed s.dev.now (s.dev.port p).stepAt)) ∨ (((s.dev.port p).step = 3 ∨ (s.dev.port p).step = 6) ∧ 1000000 ≤ elapsed s.dev.now (s.dev.port p).stepAt))) ∧
    (let p : Fin 4 := 2; let lanes : Fin 3 := 1; let skewed : Bool := false; let s : State := wPort 2 1 6 id;
     (s.dev.powered = true) ∧ (s.dev.portState p = 1) ∧ (((s.dev.port p).step = 2 ∧ lanes = 0 ∧ 1000000 ≤ elapsed s.dev.now (s.dev.port p).stepAt) ∨ ((s.dev.port p).step = 2 ∧ lanes = 2 ∧ (skewed = true ∨ 1000000 ≤ elapsed s.dev.now (s.dev.port p).stepAt)) ∨ (((s.dev.port p).step = 3 ∨ (s.dev.port p).step = 6) ∧ 1000000 ≤ elapsed s.dev.now (s.dev.port p).stepAt))) ∧
    (let p : Fin 4 := 2; let s : State := wPort 2 0 0 (fun d => d.setPort 2 { step := 0, failedAt := some 5 }); let u : Word := 5;
     (s.dev.powered = true) ∧ ((s.dev.port p).failedAt = some u) ∧ (s.dev.portLive p = true) ∧ (100000000 ≤ elapsed s.dev.now u)) ∧
    (let r : Arrival := wArr; let m : HelloMsg := wHello; let s : State := wPort 2 1 4 id;
     (Arrives r [1] s) ∧ ((s.dev.port r.port).step < 6) ∧ (max m.verLo 1 ≤ min m.verHi (s.dev.rdF .hlkVersion 0 7 0)) ∧ (m.verHi < 16)) ∧
    (let r : Arrival := wArr; let m : HelloMsg := { wHello with verLo := 9, verHi := 12 }; let s : State := wPort 2 1 4 id;
     (Arrives r [1] s) ∧ ((s.dev.port r.port).step < 6) ∧ (min m.verHi (s.dev.rdF .hlkVersion 0 7 0) < max m.verLo 1)) ∧
    (let p : Fin 4 := 2; let s : State := wPort 2 1 6 id;
     (s.dev.powered = true) ∧ (s.dev.portLive p = true) ∧ ((s.dev.portState p = 1 ∧ (s.dev.port p).step = 6) ∨ ((s.dev.portState p = 2 ∨ s.dev.portState p = 3) ∧ 262144 ≤ elapsed s.dev.now (s.dev.port p).probeAt))) ∧
    (let p : Fin 4 := 2; let s : State := wPort 2 2 7 id;
     (s.dev.powered = true) ∧ (s.dev.portLive p = true) ∧ ((s.dev.portState p = 1 ∧ (s.dev.port p).step = 6) ∨ ((s.dev.portState p = 2 ∨ s.dev.portState p = 3) ∧ 262144 ≤ elapsed s.dev.now (s.dev.port p).probeAt))) ∧
    (let r : Arrival := wArr; let s : State := wPort 2 2 7 id;
     (Arrives r [1, 2, 3] s)) ∧
    (let r : Arrival := wArr; let s : State := wPort 2 3 7 id;
     (Arrives r [2, 3] s)) ∧
    (let r : Arrival := wArr; let s : State := wPort 2 1 6 id;
     (Arrives r [1] s) ∧ ((s.dev.port r.port).step = 6) ∧ ((s.dev.port r.port).delays.length < 15)) ∧
    (let r : Arrival := wArr; let t1 : Nat := 1; let t2 : Nat := 20; let t3 : Nat := 30; let t4 : Nat := 60; let l : List Int := (wPort 2 1 6 id).dev.probeDelay r.port t1 t2 t3 t4 :: List.replicate 15 77; let s : State := wPort 2 1 6 (fun d => d.setPort 2 { step := 6, delays := List.replicate 15 77 });
     (Arrives r [1] s) ∧ ((s.dev.port r.port).step = 6) ∧ (l = s.dev.probeDelay r.port t1 t2 t3 t4 :: (s.dev.port r.port).delays) ∧ (l.length = 16)) ∧
    (let r : Arrival := wArr; let t1 : Nat := 1; let t2 : Nat := 20; let t3 : Nat := 30; let t4 : Nat := 60; let l : List Int := (wPort 2 1 6 id).dev.probeDelay r.port t1 t2 t3 t4 :: List.replicate 15 77777; let s : State := wPort 2 1 6 (fun d => d.setPort 2 { step := 6, delays := List.replicate 15 77777 });
     (Arrives r [1] s) ∧ ((s.dev.port r.port).step = 6) ∧ (l = s.dev.probeDelay r.port t1 t2 t3 t4 :: (s.dev.port r.port).delays) ∧ (l.length = 16)) := by
  iterate 7 refine And.intro (by decide +kernel) ?_
  iterate 2 refine And.intro (by unfold Arrives; decide +kernel) ?_
  iterate 2 refine And.intro (by decide +kernel) ?_
  iterate 4 refine And.intro (by unfold Arrives; decide +kernel) ?_
  unfold Arrives; decide +kernel

/-- Values that meet the hypotheses of every clause of Obligations.PortsAndRouting. -/
theorem witness_PortsAndRouting :
    (let p : Fin 4 := 2; let cause : PortDownCause := .lockLost; let s : State := wPort 2 2 7 id;
     (s.dev.powered = true) ∧ ((s.dev.portState p = 2 ∨ s.dev.portState p = 3)) ∧ (cause ≠ .disabled) ∧ (s.dev.rdB .hlkPortpCtl p 0 = true)) ∧
    (let p : Fin 4 := 2; let cause : PortDownCause := .replayFailed; let s : State := wFollow 2 id;
     (s.dev.powered = true) ∧ ((s.dev.portState p = 2 ∨ s.dev.portState p = 3)) ∧ (cause ≠ .disabled) ∧ (s.dev.rdB .hlkPortpCtl p 0 = true)) ∧
    (let p : Fin 4 := 2; let s : State := wPort 2 3 7 id;
     (s.dev.powered = true) ∧ ((s.dev.portState p = 2 ∨ s.dev.portState p = 3))) ∧
    (let p : Fin 4 := 2; let s : State := wFollow 2 id;
     (s.dev.powered = true) ∧ ((s.dev.portState p = 2 ∨ s.dev.portState p = 3))) ∧
    (let p : Fin 4 := 2; let s : State := wPort 2 1 7 id;
     (s.dev.powered = true) ∧ (s.dev.portLive p = true)) ∧
    (let p : Fin 4 := 2; let s : State := wFollow 2 id;
     (s.dev.powered = true) ∧ (s.dev.portLive p = true)) ∧
    (let p : Fin 4 := 2; let rest : List Nat := []; let s : State := wLead id;
     (s.dev.powered = true) ∧ (s.dev.hlkOn = true) ∧ (s.dev.follower = false) ∧ (s.dev.isLead = true) ∧ (s.dev.rdF .hlkHerdSize 0 10 0 ≤ 1) ∧ (s.dev.anyRunning = false) ∧ (s.dev.upPorts = p.val :: rest)) ∧
    (let p : Fin 4 := 2; let rest : List Nat := []; let s : State := wLead (fun d => d.wrF .hlkHerdSize 0 10 0 5);
     (s.dev.powered = true) ∧ (s.dev.hlkOn = true) ∧ (s.dev.follower = false) ∧ (s.dev.isLead = true) ∧ (1 < s.dev.rdF .hlkHerdSize 0 10 0) ∧ (s.dev.anyRunning = false) ∧ (s.dev.upPorts = p.val :: rest)) ∧
    (let s : State := wFollow 2 id;
     (s.dev.powered = true) ∧ (s.dev.hlkOn = true) ∧ (s.dev.follower = true ∨ (s.dev.isLead = true ∧ s.dev.anyRunning = true ∧ s.dev.rdF .hlkHerdSize 0 10 0 ≤ 1))) ∧
    (let s : State := wLead (fun d => d.wrF .cxiHdhStat 4 2 0 3);
     (s.dev.powered = true) ∧ (s.dev.hlkOn = true) ∧ (s.dev.follower = true ∨ (s.dev.isLead = true ∧ s.dev.anyRunning = true ∧ s.dev.rdF .hlkHerdSize 0 10 0 ≤ 1))) ∧
    (let r : Arrival := wArr; let m : EnumMsg := { number := 5, depth := 2, former := false }; let s : State := wFollow 0 id;
     (Arrives r [2] s) ∧ (s.dev.follower = true) ∧ (m.wf = true) ∧ (m.number < 1024) ∧ (m.depth < 7) ∧ ((m.former = false ∨ (s.dev.port r.port).retired = false))) ∧
    (let r : Arrival := wArr; let m : EnumMsg := { number := 5, depth := 2, former := true, below := [{ serial := 9, path := [1], number := 6 }] }; let s : State := wFollow 0 id;
     (Arrives r [2] s) ∧ (s.dev.follower = true) ∧ (m.wf = true) ∧ (m.number < 1024) ∧ (m.depth < 7) ∧ ((m.former = false ∨ (s.dev.port r.port).retired = false))) ∧
    (let r : Arrival := wArr; let m : EnumMsg := { number := 1024, depth := 2, former := false }; let s : State := wFollow 2 id;
     (Arrives r [2] s) ∧ (s.dev.follower = true) ∧ (m.wf = true) ∧ (m.former = false) ∧ ((1024 ≤ m.number ∨ 7 ≤ m.depth))) ∧
    (let r : Arrival := wArr; let m : EnumMsg := { number := 5, depth := 7, former := false }; let s : State := wFollow 0 id;
     (Arrives r [2] s) ∧ (s.dev.follower = true) ∧ (m.wf = true) ∧ (m.former = false) ∧ ((1024 ≤ m.number ∨ 7 ≤ m.depth))) ∧
    (let r : Arrival := wArr; let m : EnumRsp := { members := [{ serial := 9, path := [], number := 6 }], refused := false }; let s : State := wLead (fun d => { d with hlk := { d.hlk with enumRun := some { todo := [], cur := some 2, base := 6, next := 6 } } }); let e : EnumRun := { todo := [], cur := some 2, base := 6, next := 6 };
     (Arrives r [2] s) ∧ (s.dev.hlk.enumRun = some e) ∧ (e.cur = some r.port.val) ∧ (m.refused = false) ∧ (m.members ≠ []) ∧ (e.base + m.members.length ≤ 1024) ∧ (m.members.all (fun x => deviceNumber x.number) = true)) ∧
    (let r : Arrival := wArr; let m : EnumRsp := { members := [], refused := true }; let s : State := wLead (fun d => { d with hlk := { d.hlk with enumRun := some { todo := [], cur := some 2, base := 6, next := 6 } } }); let e : EnumRun := { todo := [], cur := some 2, base := 6, next := 6 };
     (Arrives r [2] s) ∧ (s.dev.hlk.enumRun = some e) ∧ (e.cur = some r.port.val) ∧ (m.refused = true) ∧ (m.members.all (fun x => deviceNumber x.number) = true)) ∧
    (let r : Arrival := wArr; let s : State := wFollow 2 id;
     (Arrives r [2] s)) ∧
    (let r : Arrival := wArr; let s : State := wFollow 2 (fun d => d.wrF .hlkPortpStat 2 15 12 2);
     (Arrives r [2, 3] s) ∧ (s.dev.isLead = false) ∧ (s.dev.portState s.dev.upPort = 2) ∧ (2 ≤ s.dev.portVersion s.dev.upPort)) ∧
    (let r : Arrival := wArr; let q : Fin 4 := 1; let m : MovedRange := { lo := 5, hi := 8 }; let s : State := wLead (fun d => (((d.wrF .hlkPortpStat 1 2 0 2).wrF .hlkPortpStat 1 15 12 2).setPort 1 { moved := [{ lo := 5, hi := 8 }] }));
     (Arrives r [2, 3] s) ∧ (s.dev.isLead = true) ∧ (s.dev.route m.lo = some q.val) ∧ (q ≠ r.port) ∧ (s.dev.portState q = 2) ∧ (2 ≤ s.dev.portVersion q)) ∧
    (let r : Arrival := wArr; let q : Fin 4 := 1; let m : MovedRange := { lo := 5, hi := 8 }; let s : State := wFollow 2 (fun d => (((d.wrF .hlkPortpStat 1 2 0 2).wrF .hlkPortpStat 1 15 12 2).setPort 1 { moved := [{ lo := 4, hi := 8 }] }));
     (Arrives r [2] s) ∧ (s.dev.oldPath m = some q.val) ∧ ((s.dev.port q).moved.contains m = false) ∧ (s.dev.portState q = 2) ∧ (2 ≤ s.dev.portVersion q)) := by
  iterate 10 refine And.intro (by decide +kernel) ?_
  iterate 9 refine And.intro (by unfold Arrives; decide +kernel) ?_
  unfold Arrives; decide +kernel

set_option maxRecDepth 100000 in
/-- Values that meet the hypotheses of every clause of Obligations.Beats. -/
theorem witness_Beats :
    (let s : State := wLead (fun d => { d with now := 204800 });
     (s.dev.powered = true) ∧ (s.dev.hlkOn = true) ∧ (s.dev.isLead = true) ∧ (s.dev.now.toNat % 1024 = 0) ∧ (s.dev.hlk.expect ≠ some (s.dev.now + 4096)) ∧ (s.dev.hlk.commit = none) ∧ (s.dev.hlk.frozen = none)) ∧
    (let s : State := wLead (fun d => { (((d.wrF .hlkPortpStat 1 2 0 2).wrF .hlkPortpStat 1 9 8 2).wrF .hlkPortpStat 3 2 0 3) with now := 204800 });
     (s.dev.powered = true) ∧ (s.dev.hlkOn = true) ∧ (s.dev.isLead = true) ∧ (s.dev.now.toNat % 1024 = 0) ∧ (s.dev.hlk.expect ≠ some (s.dev.now + 4096)) ∧ (s.dev.hlk.commit = none) ∧ (s.dev.hlk.frozen = none)) ∧
    (let s : State := wLead (fun d => { d with now := 204800, hlk := { d.hlk with commit := some (wCom .start) } }); let c : LeadCommit := wCom .start; let k : BeatCommit := { cstate := 1, next := { (wCom .start) with phase := .prepare, prepSeq := 204 } };
     (s.dev.powered = true) ∧ (s.dev.hlkOn = true) ∧ (s.dev.isLead = true) ∧ (s.dev.now.toNat % 1024 = 0) ∧ (s.dev.hlk.expect ≠ some (s.dev.now + 4096)) ∧ (s.dev.hlk.commit = some c) ∧ (composeCommit c (BitVec.ofNat 16 ((s.dev.now + 4096).toNat / 1024)) (s.dev.beatAxis c.req.axis (s.dev.now + 4096)) s.dev.now = some k)) ∧
    (let s : State := wLead (fun d => { d with now := 204800, hlk := { d.hlk with commit := some (wCom (.cancel 4)) } }); let c : LeadCommit := wCom (.cancel 4); let k : BeatCommit := { cstate := 3, next := wCom (.cancel 3) };
     (s.dev.powered = true) ∧ (s.dev.hlkOn = true) ∧ (s.dev.isLead = true) ∧ (s.dev.now.toNat % 1024 = 0) ∧ (s.dev.hlk.expect ≠ some (s.dev.now + 4096)) ∧ (s.dev.hlk.commit = some c) ∧ (composeCommit c (BitVec.ofNat 16 ((s.dev.now + 4096).toNat / 1024)) (s.dev.beatAxis c.req.axis (s.dev.now + 4096)) s.dev.now = some k)) ∧
    (let p : Fin 4 := 2; let f : BeatFrame := wFrame; let b : Beat := wBeat; let s : State := wFollow 2 id;
     (s.dev.powered = true) ∧ (s.dev.hlkOn = true) ∧ (s.dev.portState p = 2) ∧ (s.dev.follower = true) ∧ (s.dev.hlk.numbered = true) ∧ (s.dev.upPort = p) ∧ (frameGood f (s.dev.portVersion p) = true) ∧ (b = beatOfBlocks f.blocks) ∧ (s.dev.herdState = 2) ∧ (b.cstate = 0) ∧ (s.dev.hlk.frozen = none)) ∧
    (let p : Fin 4 := 2; let f : BeatFrame := wFrame; let b : Beat := wBeat; let s : State := wFollow 0 id;
     (s.dev.powered = true) ∧ (s.dev.hlkOn = true) ∧ (s.dev.portState p = 2) ∧ (s.dev.follower = true) ∧ (s.dev.hlk.numbered = true) ∧ (s.dev.upPort = p) ∧ (frameGood f (s.dev.portVersion p) = true) ∧ (b = beatOfBlocks f.blocks) ∧ (s.dev.herdState = 0 ∨ s.dev.herdState = 4) ∧ (b.cstate = 0) ∧ (s.dev.hlk.frozen = none)) ∧
    (let p : Fin 4 := 2; let f : BeatFrame := wFrame; let b : Beat := wBeat; let s : State := wFollow 4 id;
     (s.dev.powered = true) ∧ (s.dev.hlkOn = true) ∧ (s.dev.portState p = 2) ∧ (s.dev.follower = true) ∧ (s.dev.hlk.numbered = true) ∧ (s.dev.upPort = p) ∧ (frameGood f (s.dev.portVersion p) = true) ∧ (b = beatOfBlocks f.blocks) ∧ (s.dev.herdState = 0 ∨ s.dev.herdState = 4) ∧ (b.cstate = 0) ∧ (s.dev.hlk.frozen = none)) ∧
    (let p : Fin 4 := 2; let f : BeatFrame := wBad; let s : State := wFollow 2 id;
     (s.dev.powered = true) ∧ (f.blocks.length = 11) ∧ (s.dev.hlkOn = true) ∧ (s.dev.portState p = 2 ∨ s.dev.portState p = 3) ∧ (frameGood f (s.dev.portVersion p) = false)) ∧
    (let p : Fin 4 := 2; let f : BeatFrame := wBad; let s : State := wLead id;
     (s.dev.powered = true) ∧ (f.blocks.length = 11) ∧ (s.dev.hlkOn = true) ∧ (s.dev.portState p = 2 ∨ s.dev.portState p = 3) ∧ (frameGood f (s.dev.portVersion p) = false)) ∧
    (let p : Fin 4 := 2; let f : BeatFrame := wFrame; let s : State := wLead id;
     (s.dev.powered = true) ∧ (s.dev.hlkOn = true) ∧ (s.dev.portState p = 2 ∨ s.dev.portState p = 3) ∧ (frameGood f (s.dev.portVersion p) = true) ∧ (s.dev.follower = false)) ∧
    (let s : State := wFollow 2 (fun d => { d with hlk := { d.hlk with expect := some 200000000 } }); let u : Word := 200000000;
     (s.dev.powered = true) ∧ (s.dev.hlk.expect = some u) ∧ (s.dev.hlkOn = true) ∧ ((s.dev.herdState = 1 ∨ s.dev.herdState = 2)) ∧ (atOrPast s.dev.now (u - 1024) = true) ∧ (s.dev.hlk.missed < 31) ∧ (s.dev.usableAlt = none)) ∧
    (let s : State := wFollow 3 (fun d => { d with hlk := { d.hlk with expect := some 200000000, missed := 31 } }); let u : Word := 200000000;
     (s.dev.powered = true) ∧ (s.dev.hlk.expect = some u) ∧ (s.dev.hlkOn = true) ∧ (s.dev.herdState = 3) ∧ (atOrPast s.dev.now (u - 1024) = true) ∧ (31 ≤ s.dev.hlk.missed)) ∧
    (let s : State := wFollow 4 (fun d => { d with hlk := { d.hlk with goodInLost := true, phase := 6400 } });
     (s.dev.powered = true) ∧ (s.dev.hlkOn = true) ∧ (s.dev.herdState = 4) ∧ (s.dev.hlk.goodInLost = true)) := by
  iterate 12 refine And.intro (by decide +kernel) ?_
  decide +kernel

/-- Values that meet the hypotheses of every clause of Obligations.HerdCommits. -/
theorem witness_HerdCommits :
    (let r : Arrival := wArr; let m : CommitReq := wReq; let s : State := wLead id;
     (m.requester < 1024) ∧ (Arrives r [2] s) ∧ (s.dev.isLead = true) ∧ (s.dev.hlk.commit = none)) ∧
    (let r : Arrival := wArr; let m : CommitReq := wReq; let c : LeadCommit := wCom .armed; let s : State := wLead (fun d => { d with hlk := { d.hlk with commit := some (wCom .armed) } });
     (m.requester < 1024) ∧ (Arrives r [2] s) ∧ (s.dev.isLead = true) ∧ (s.dev.hlk.commit = some c) ∧ (s.dev.hlk.held = none)) ∧
    (let r : Arrival := wArr; let m : CommitReq := wReq; let h : CommitReq := wReq; let c : LeadCommit := wCom .armed; let q : Nat := 2; let s : State := wLead (fun d => { ((d.wr .hlkPortpRange 2 (setBit (setFld (setFld 0 9 0 1) 25 16 9) 47 true))) with hlk := { d.hlk with commit := some (wCom .armed), held := some wReq } });
     (m.requester < 1024) ∧ (Arrives r [2] s) ∧ (s.dev.isLead = true) ∧ (s.dev.hlk.commit = some c) ∧ (s.dev.hlk.held = some h) ∧ (m.requester ≠ s.dev.devNum) ∧ (s.dev.routeUp m.requester false = some q)) ∧
    (let r : Arrival := wArr; let m : CommitReq := { wReq with requester := 0 }; let h : CommitReq := wReq; let c : LeadCommit := wCom .armed; let s : State := wLead (fun d => { d with commit := { d.commit with state := 1 }, hlk := { d.hlk with commit := some (wCom .armed), held := some wReq } });
     (m.requester < 1024) ∧ (Arrives r [2] s) ∧ (s.dev.isLead = true) ∧ (s.dev.hlk.commit = some c) ∧ (s.dev.hlk.held = some h) ∧ (m.requester = s.dev.devNum) ∧ (s.dev.commit.state = 1)) ∧
    (let r : Arrival := wArr; let m : CommitReq := { wReq with requester := 0 }; let s : State := wFollow 2 (fun d => { (d.wrF .hlkStat 0 17 16 1) with commit := { d.commit with state := 1 } });
     (m.requester < 1024) ∧ (Arrives r [2] s) ∧ (s.dev.isLead = false) ∧ (s.dev.portState s.dev.upPort ≠ 2) ∧ (m.requester = s.dev.devNum) ∧ (s.dev.commit.state = 1)) ∧
    (let r : Arrival := wArr; let m : CommitReq := wReq; let s : State := wFollow 2 id;
     (m.requester < 1024) ∧ (Arrives r [2] s) ∧ (s.dev.isLead = false) ∧ (s.dev.portState s.dev.upPort = 2)) ∧
    (let r : Arrival := wArr; let m : VoteMsg := wVote; let s : State := wFollow 2 id;
     (Arrives r [2] s) ∧ ((∀ v ∈ s.dev.hlk.votes, v.acc.epoch ≠ m.epoch ∨ v.waiting.contains r.port.val = false))) ∧
    (let r : Arrival := wArr; let m : VoteMsg := { wVote with epoch := 5 }; let s : State := wFollow 2 (fun d => { d with hlk := { d.hlk with votes := some (wRun [2]) } });
     (Arrives r [2] s) ∧ ((∀ v ∈ s.dev.hlk.votes, v.acc.epoch ≠ m.epoch ∨ v.waiting.contains r.port.val = false))) ∧
    (let r : Arrival := wArr; let m : VoteMsg := wVote; let s : State := wFollow 2 (fun d => { d with hlk := { d.hlk with votes := some (wRun [1]) } });
     (Arrives r [2] s) ∧ ((∀ v ∈ s.dev.hlk.votes, v.acc.epoch ≠ m.epoch ∨ v.waiting.contains r.port.val = false))) ∧
    (let r : Arrival := wArr; let m : VoteMsg := wVote; let v : VoteRun := wRun [1, 2]; let s : State := wFollow 2 (fun d => { d with hlk := { d.hlk with votes := some (wRun [1, 2]) } });
     (s.dev.hlk.votes = some v) ∧ (Arrives r [2] s) ∧ (v.acc.epoch = m.epoch) ∧ (v.waiting.contains r.port.val = true) ∧ (v.waiting.filter (fun q => q ≠ r.port.val) ≠ [])) ∧
    (let r : Arrival := wArr; let m : VoteMsg := wVote; let v : VoteRun := wRun [2]; let s : State := wFollow 2 (fun d => { d with hlk := { d.hlk with votes := some (wRun [2]) } });
     (s.dev.hlk.votes = some v) ∧ (Arrives r [2] s) ∧ (s.dev.isLead = false) ∧ (v.acc.epoch = m.epoch) ∧ (v.waiting = [r.port.val]) ∧ (v.sent = false) ∧ (s.dev.portState s.dev.upPort = 2)) ∧
    (let r : Arrival := wArr; let m : VoteMsg := wVote; let v : VoteRun := wRun [2]; let c : LeadCommit := wCom .prepare; let s : State := wLead (fun d => { d with hlk := { d.hlk with votes := some (wRun [2]), commit := some (wCom .prepare) } });
     (s.dev.hlk.votes = some v) ∧ (Arrives r [2] s) ∧ (s.dev.isLead = true) ∧ (v.acc.epoch = m.epoch) ∧ (v.waiting = [r.port.val]) ∧ (v.sent = false) ∧ (s.dev.hlk.commit = some c) ∧ (c.phase = .prepare) ∧ (v.acc.refuser = none) ∧ (m.refuser = none)) ∧
    (let r : Arrival := wArr; let m : VoteMsg := { wVote with refuser := some (5, 0x22) }; let v : VoteRun := wRun [2]; let c : LeadCommit := wCom .prepare; let n : Nat := 5; let code : BitVec 8 := 0x22; let s : State := wLead (fun d => { d with hlk := { d.hlk with votes := some (wRun [2]), commit := some (wCom .prepare) } });
     (s.dev.hlk.votes = some v) ∧ (Arrives r [2] s) ∧ (s.dev.isLead = true) ∧ (v.acc.epoch = m.epoch) ∧ (v.waiting = [r.port.val]) ∧ (v.sent = false) ∧ (s.dev.hlk.commit = some c) ∧ (c.phase = .prepare) ∧ (lowerRefuser v.acc.refuser m.refuser = some (n, code))) ∧
    (let p : Fin 4 := 1; let v : VoteRun := wRun [1]; let s : State := wFollow 2 (fun d => { ((d.wr .hlkPortpRange 1 (setBit (setFld (setFld 0 9 0 3) 25 16 9) 47 true))) with hlk := { d.hlk with votes := some (wRun [1]), lastSeq := 60 } });
     (s.dev.powered = true) ∧ (s.dev.hlk.votes = some v) ∧ (s.dev.hlkOn = true) ∧ (v.waiting.contains p.val = true) ∧ (48 ≤ s.dev.beatsSince v)) ∧
    (let v : VoteRun := wRun [1]; let c : LeadCommit := wCom .prepare; let s : State := wLead (fun d => { d with hlk := { d.hlk with votes := some (wRun [1]), commit := some (wCom .prepare), lastSeq := 80 } });
     (s.dev.powered = true) ∧ (s.dev.hlk.votes = some v) ∧ (s.dev.hlk.commit = some c) ∧ (s.dev.hlkOn = true) ∧ (s.dev.isLead = true) ∧ (c.phase = .prepare) ∧ (v.sent = false) ∧ (64 ≤ s.dev.beatsSince v)) ∧
    (let c : LeadCommit := wCom .armed; let u : Word := 5; let s : State := wLead (fun d => { (d.wr .hlkArmLimit 0 1) with hlk := { d.hlk with commit := some (wCom .armed) } });
     (s.dev.powered = true) ∧ (s.dev.hlk.commit = some c) ∧ (c.armedAt = some u) ∧ (s.dev.hlkOn = true) ∧ (s.dev.isLead = true) ∧ (c.phase = .armed) ∧ (c.req.next = false) ∧ (s.dev.rdF .hlkArmLimit 0 31 0 * 1000000 ≤ elapsed s.dev.now u)) ∧
    (let f : FrozenCommit := { epoch := 4, start := some 9, pos := some 5 }; let u : Word := 9; let s : State := wFollow 2 (fun d => { d with hlk := { d.hlk with frozen := some { epoch := 4, start := some 9, pos := some 5 } }, dict := { d.dict with pending := (List.range 300).map (fun k => (k, [])) } });
     (s.dev.powered = true) ∧ (s.dev.hlkOn = true) ∧ (s.dev.hlk.frozen = some f) ∧ (f.start = some u) ∧ (atOrPast s.dev.now (waveInstant u f.waves) = true) ∧ (f.waves + 1 < s.dev.ownWaves)) ∧
    (let f : FrozenCommit := { epoch := 4, start := some 9, pos := some 5 }; let u : Word := 9; let s : State := wFollow 2 (fun d => { d with hlk := { d.hlk with frozen := some { epoch := 4, start := some 9, pos := some 5 } } });
     (s.dev.powered = true) ∧ (s.dev.hlkOn = true) ∧ (s.dev.hlk.frozen = some f) ∧ (f.start = some u) ∧ (atOrPast s.dev.now (waveInstant u f.waves) = true) ∧ (s.dev.ownWaves ≤ f.waves + 1)) ∧
    (let c : LeadCommit := { (wCom (.trailing 2)) with applySeq := 64000 }; let s : State := wLead (fun d => { d with hlk := { d.hlk with commit := some { (wCom (.trailing 2)) with applySeq := 64000 } } });
     (s.dev.powered = true) ∧ (s.dev.hlkOn = true) ∧ (s.dev.hlk.frozen = none) ∧ (s.dev.leadDue = some c)) ∧
    (let s : State := wFollow 2 id;
     (s.dev.powered = true) ∧ (s.dev.leadDue = none) ∧ (s.dev.hlk.frozen.all (fun f => f.start.all (fun u => !atOrPast s.dev.now (waveInstant u f.waves))) = true)) ∧
    (let s : State := wFollow 2 (fun d => { d with hlk := { d.hlk with frozen := some { epoch := 4, start := some 300000000 } } });
     (s.dev.powered = true) ∧ (s.dev.leadDue = none) ∧ (s.dev.hlk.frozen.all (fun f => f.start.all (fun u => !atOrPast s.dev.now (waveInstant u f.waves))) = true)) ∧
    (let s : State := wFollow 2 (fun d => { d with hlk := { d.hlk with frozen := some { epoch := 4, start := none } } });
     (s.dev.powered = true) ∧ (s.dev.leadDue = none) ∧ (s.dev.hlk.frozen.all (fun f => f.start.all (fun u => !atOrPast s.dev.now (waveInstant u f.waves))) = true)) ∧
    (let r : Arrival := wArr; let m : CommitDone := wDone; let s : State := wFollow 2 (fun d => { d with commit := { d.commit with state := 1 } });
     (m.requester < 1024) ∧ (Arrives r [2] s) ∧ (m.requester = s.dev.devNum) ∧ (s.dev.commit.state = 1)) ∧
    (let r : Arrival := wArr; let m : CommitDone := { wDone with requester := 3 }; let q : Nat := 2; let s : State := wFollow 2 id;
     (m.requester < 1024) ∧ (Arrives r [2] s) ∧ (m.requester ≠ s.dev.devNum) ∧ (s.dev.routeUp m.requester false = some q)) := by
  iterate 13 refine And.intro (by unfold Arrives; decide +kernel) ?_
  iterate 9 refine And.intro (by decide +kernel) ?_
  refine And.intro (by unfold Arrives; decide +kernel) ?_
  unfold Arrives; decide +kernel

set_option maxRecDepth 100000 in
/-- Values that meet the hypotheses of every clause of Obligations.HerdMessages. -/
theorem witness_HerdMessages :
    (let c : Instr := .alert { wArr with known := false, fails := 2 } { source := 5, kind := 3, detail := 200, time := 9 }; let r : Arrival := { wArr with known := false, fails := 2 }; let s : State := wFollow 2 id; let al : AlertMsg := { source := 5, kind := 3, detail := 200, time := 9 }; let vo : VoteMsg := wVote; let mv : MovedRange := { lo := 5, hi := 8 }; let t1 : Nat := 1; let t2 : Nat := 2; let t3 : Nat := 3;
     (c = .alert r al ∨ c = .vote r vo ∨ c = .reparent r mv ∨ c = .routeDrop r mv ∨ c = .delayReq r t1 t2 t3) ∧ (s.dev.powered = true) ∧ (s.dev.portLive r.port = true) ∧ (s.dev.portState r.port = 2) ∧ (r.known = false ∨ r.reservedZero = false)) ∧
    (let c : Instr := .vote { wArr with known := false, fails := 2 } wVote; let r : Arrival := { wArr with known := false, fails := 2 }; let s : State := wFollow 2 id; let al : AlertMsg := { source := 5, kind := 3, detail := 200, time := 9 }; let vo : VoteMsg := wVote; let mv : MovedRange := { lo := 5, hi := 8 }; let t1 : Nat := 1; let t2 : Nat := 2; let t3 : Nat := 3;
     (c = .alert r al ∨ c = .vote r vo ∨ c = .reparent r mv ∨ c = .routeDrop r mv ∨ c = .delayReq r t1 t2 t3) ∧ (s.dev.powered = true) ∧ (s.dev.portLive r.port = true) ∧ (s.dev.portState r.port = 2) ∧ (r.known = false ∨ r.reservedZero = false)) ∧
    (let c : Instr := .reparent { wArr with known := false, fails := 2 } { lo := 5, hi := 8 }; let r : Arrival := { wArr with known := false, fails := 2 }; let s : State := wFollow 2 id; let al : AlertMsg := { source := 5, kind := 3, detail := 200, time := 9 }; let vo : VoteMsg := wVote; let mv : MovedRange := { lo := 5, hi := 8 }; let t1 : Nat := 1; let t2 : Nat := 2; let t3 : Nat := 3;
     (c = .alert r al ∨ c = .vote r vo ∨ c = .reparent r mv ∨ c = .routeDrop r mv ∨ c = .delayReq r t1 t2 t3) ∧ (s.dev.powered = true) ∧ (s.dev.portLive r.port = true) ∧ (s.dev.portState r.port = 2) ∧ (r.known = false ∨ r.reservedZero = false)) ∧
    (let r : Arrival := wArr; let m : TileReq := wTile 9 5; let q : Nat := 2; let s : State := wFollow 2 (fun d => (d.wrF .hlkPortpStat 2 15 12 2));
     (m.requester < 1024) ∧ (m.dest < 1024) ∧ (Arrives r [2] s) ∧ (m.dest ≠ s.dev.devNum) ∧ (s.dev.routeUp m.dest true = some q)) ∧
    (let r : Arrival := wArr; let m : TileReq := wTile 9 0; let q : Nat := 2; let s : State := wFollow 2 (fun d => (d.wrF .hlkPortpStat 2 15 12 2));
     (m.requester < 1024) ∧ (m.dest < 1024) ∧ (Arrives r [2] s) ∧ (m.dest = s.dev.devNum) ∧ (s.dev.routeUp m.requester true = some q)) ∧
    (let r : Arrival := wArr; let m : TileData := { requester := 0, tag := 3, head := 1, pos := 0, col := 0, velvet := 2354610348520112128, words := List.replicate 512 0 }; let x : RemoteReq := wRem; let s : State := wFollow 2 (fun d => { d with tfb := { d.tfb with remote := [wRem] } });
     (m.requester < 1024) ∧ (m.words.length = 512) ∧ (Arrives r [2] s) ∧ (m.requester = s.dev.devNum) ∧ (s.dev.tfb.remote = [x]) ∧ (x.req.tag = m.tag) ∧ (x.ended = none) ∧ ((crc32c (bytesOfWords m.words)).toNat = m.velvet.toNat / 2 ^ 32) ∧ (x.tiles.any (fun y => y.pos = m.pos && y.col = m.col) = false)) ∧
    (let r : Arrival := wArr; let m : TileData := { requester := 0, tag := 3, head := 1, pos := 0, col := 0, velvet := 0, words := List.replicate 512 0 }; let x : RemoteReq := wRem; let s : State := wFollow 2 (fun d => { d with tfb := { d.tfb with remote := [wRem] } });
     (m.requester < 1024) ∧ (m.words.length = 512) ∧ (Arrives r [2] s) ∧ (m.requester = s.dev.devNum) ∧ (s.dev.tfb.remote = [x]) ∧ (x.req.tag = m.tag) ∧ (x.ended = none) ∧ ((crc32c (bytesOfWords m.words)).toNat ≠ m.velvet.toNat / 2 ^ 32)) ∧
    (let r : Arrival := wArr; let m : TileData := { requester := 9, tag := 3, head := 1, pos := 0, col := 0, velvet := 0, words := List.replicate 512 0 }; let q : Nat := 2; let s : State := wFollow 2 (fun d => (d.wrF .hlkPortpStat 2 15 12 2));
     (m.requester < 1024) ∧ (m.words.length = 512) ∧ (Arrives r [2] s) ∧ (m.requester ≠ s.dev.devNum) ∧ (s.dev.routeUp m.requester true = some q)) ∧
    (let r : Arrival := wArr; let m : TileEnd := { requester := 0, tag := 3, count := 4, status := 0, horizon := 0 }; let x : RemoteReq := wRem; let s : State := wFollow 2 (fun d => { d with tfb := { d.tfb with remote := [wRem] } });
     (m.requester < 1024) ∧ (Arrives r [2] s) ∧ (m.requester = s.dev.devNum) ∧ (s.dev.tfb.remote = [x]) ∧ (x.req.tag = m.tag) ∧ (x.ended = none) ∧ (x.sent = true) ∧ (m.status ≠ 0x20) ∧ ((m.status ≠ 0 ∨ x.tiles = [] ∨ m.count + x.blocks ≤ 4096))) ∧
    (let r : Arrival := wArr; let m : TileEnd := { requester := 0, tag := 3, count := 4096, status := 0, horizon := 0 }; let x : RemoteReq := { wRem with tiles := [{ requester := 0, tag := 3, head := 1, pos := 0, col := 0, velvet := 2354610348520112128, words := List.replicate 512 0 }] }; let y : TileData := { requester := 0, tag := 3, head := 1, pos := 0, col := 0, velvet := 2354610348520112128, words := List.replicate 512 0 }; let s : State := wFollow 2 (fun d => { d with tfb := { d.tfb with remote := [{ wRem with tiles := [{ requester := 0, tag := 3, head := 1, pos := 0, col := 0, velvet := 2354610348520112128, words := List.replicate 512 0 }] }] } });
     (m.requester < 1024) ∧ (Arrives r [2] s) ∧ (m.requester = s.dev.devNum) ∧ (s.dev.tfb.remote = [x]) ∧ (x.req.tag = m.tag) ∧ (x.ended = none) ∧ (m.status = 0) ∧ (x.tiles.getLast? = some y) ∧ (4096 < m.count + x.blocks)) ∧
    (let r : Arrival := wArr; let m : TileEnd := { requester := 9, tag := 3, count := 4, status := 0, horizon := 0 }; let q : Nat := 2; let s : State := wFollow 2 (fun d => (d.wrF .hlkPortpStat 2 15 12 2));
     (m.requester < 1024) ∧ (Arrives r [2] s) ∧ (m.requester ≠ s.dev.devNum) ∧ (s.dev.routeUp m.requester true = some q)) ∧
    (let c : Instr := .piece ⟨wArr, wBlob 7⟩; let r : Arrival := wArr; let b : BlobMsg := wBlob 7; let q : Nat := 2; let s : State := wFollow 2 id;
     (c = .piece ⟨r, b⟩ ∨ c = .progress ⟨r, b⟩ ∨ c = .returnRecord ⟨r, b⟩) ∧ (b.wf = true) ∧ (Arrives r [2] s) ∧ (b.dest ≠ s.dev.devNum) ∧ (s.dev.routeUp b.dest false = some q)) ∧
    (let c : Instr := .progress ⟨wArr, wBlob 7⟩; let r : Arrival := wArr; let b : BlobMsg := wBlob 7; let q : Nat := 2; let s : State := wFollow 2 id;
     (c = .piece ⟨r, b⟩ ∨ c = .progress ⟨r, b⟩ ∨ c = .returnRecord ⟨r, b⟩) ∧ (b.wf = true) ∧ (Arrives r [2] s) ∧ (b.dest ≠ s.dev.devNum) ∧ (s.dev.routeUp b.dest false = some q)) ∧
    (let c : Instr := .returnRecord ⟨wArr, wBlob 7⟩; let r : Arrival := wArr; let b : BlobMsg := wBlob 7; let q : Nat := 2; let s : State := wFollow 2 id;
     (c = .piece ⟨r, b⟩ ∨ c = .progress ⟨r, b⟩ ∨ c = .returnRecord ⟨r, b⟩) ∧ (b.wf = true) ∧ (Arrives r [2] s) ∧ (b.dest ≠ s.dev.devNum) ∧ (s.dev.routeUp b.dest false = some q)) ∧
    (let r : Arrival := wArr; let b : BlobMsg := wBlob 0; let s : State := wFollow 2 id;
     (b.wf = true) ∧ (Arrives r [2] s) ∧ (b.dest = s.dev.devNum) ∧ (fld (b.words.getD 0 0) 45 42 = 0) ∧ (s.dev.cex.pieces = []) ∧ (s.dev.cex.heads = []) ∧ (s.dev.cex.late = [])) ∧
    (let r : Arrival := wArr; let b : BlobMsg := wBlob 0; let s : State := wFollow 2 id;
     (b.wf = true) ∧ (Arrives r [2] s) ∧ (b.dest = s.dev.devNum)) ∧
    (let r : Arrival := wArr; let b : BlobMsg := wBlob 0; let s : State := wFollow 2 id;
     (b.wf = true) ∧ (Arrives r [2] s) ∧ (b.dest = s.dev.devNum)) := by
  iterate 3 refine And.intro (by decide +kernel) ?_
  iterate 13 refine And.intro (by unfold Arrives; decide +kernel) ?_
  unfold Arrives; decide +kernel

end Tests.Hlk

namespace Tests.Cxi

def wHead (st : Nat) (x : CxiHead) (f : Dev → Dev) : State :=
  wState (fun d => { (f (((d.wrF .cxiHdhStat 4 2 0 st).wr .cxiHdhCfg 4 0x12C0000).setHead 4 x)) with now := 20000000000 })
def wPcx (st : Nat) (f : Dev → Dev) : State := wState (fun d => f { (d.wrF .cxiLklStat 9 11 8 st) with now := 3000000000 })
def wReqC : ControlReq := { write := false, addr := 4, len := 4, data := [] }
def wCtl : CtrlReq := { req := wReqC, sent := 5 }
def wRec : TrigRecord := { gen := 4, line := 17, pos := 512, st := .track, time := 19999990000 }
def wLine : StgLine := { line := 17, pos := 512, fire := 5, ast := .track, lost := true, part := true, ended := true }
def wPk (t : BitVec 8) (i : List StreamItem) : StreamPacket := { tag := t, crcOk := true, sizeOk := true, violations := 0, items := i }
def wChmLine : ChmLine := { src := wLine, y := [], base := 0, outW := 16, endedAt := 5, rightOpen := true }

/-- Values that meet the hypotheses of every clause of Obligations.HeadsAndDiscovery. -/
theorem witness_HeadsAndDiscovery :
    (let h : Fin 64 := 4; let s : State := wHead 0 {} (fun d => ((((d.wr .cxiHdhCfg 4 0x12C0000).wr .cxiHdhWidth 4 1024).wr .cxiHdhStg 4 (wordOf (8 * 2^24 + 100))).wr .cxiHdhCut 4 1).wr .chmHdhOut 4 (wordOf (1024 * 2^24)));
     (s.dev.powered = true) ∧ (s.dev.headEn h = false) ∧ (s.dev.headValid h = true) ∧ ((s.dev.planes h).filter (fun p => !s.dev.chmValid p) = []) ∧ (s.dev.domOn (5 + s.dev.headGroup h) = true)) ∧
    (let h : Fin 64 := 4; let s : State := wHead 0 {} (fun d => { (((((d.wr .cxiHdhCfg 4 0x12C0000).wr .cxiHdhWidth 4 1024).wr .cxiHdhStg 4 (wordOf (8 * 2^24 + 100))).wr .cxiHdhCut 4 1).wr .chmHdhOut 4 (wordOf (1024 * 2^24))) with domains := tset d.domains 7 .off });
     (s.dev.powered = true) ∧ (s.dev.headEn h = false) ∧ (s.dev.headValid h = true) ∧ ((s.dev.planes h).filter (fun p => !s.dev.chmValid p) = []) ∧ (s.dev.domOn (5 + s.dev.headGroup h) = false)) ∧
    (let h : Fin 64 := 4; let s : State := wHead 0 {} id;
     (s.dev.powered = true) ∧ (s.dev.headEn h = false) ∧ (s.dev.headValid h = false)) ∧
    (let h : Fin 64 := 4; let s : State := wHead 2 {} (fun d => d.wrB .cxiHdhCfg 4 0 true);
     (s.dev.powered = true) ∧ (s.dev.headEn h = true)) ∧
    (let h : Fin 64 := 4; let en : Bool := true; let s : State := wHead 2 {} (fun d => d.wrB .cxiHdhCfg 4 0 true);
     (s.dev.powered = true) ∧ (s.dev.headEn h = en)) ∧
    (let h : Fin 64 := 4; let en : Bool := false; let s : State := wHead 0 {} id;
     (s.dev.powered = true) ∧ (s.dev.headEn h = en)) ∧
    (let h : Fin 64 := 4; let s : State := wHead 5 {} id;
     (s.dev.powered = true) ∧ (s.dev.headState h = .fault)) ∧
    (let h : Fin 64 := 4; let s : State := wHead 5 {} id;
     (s.dev.powered = true) ∧ (s.dev.headState h = .fault) ∧ (1000000000 ≤ elapsed s.dev.now (s.dev.head h).faultAt)) ∧
    (let h : Fin 64 := 4; let l : Fin 64 := 44; let s : State := wHead 2 {} id;
     (s.dev.powered = true) ∧ (s.dev.headUp h = true) ∧ (l.val ∈ s.dev.headLinks h) ∧ (s.dev.linkState l = 0) ∧ (100000000 ≤ elapsed s.dev.now (s.dev.link l).downAt)) ∧
    (let s : State := wHead 1 {} id;
     (s.dev.powered = true)) ∧
    (let l : Fin 64 := 44; let h : Fin 64 := 4; let s : State := wHead 1 { phase := .retraining } (fun d => (d.wr .cxiHdhCfg 4 0x12C0001).wrB .cxiLklCfg 44 0 true);
     (s.dev.powered = true) ∧ (s.dev.headOfLink l = some h.val) ∧ (s.dev.headState h = .linking) ∧ ((s.dev.head h).phase = .retraining) ∧ ((s.dev.headLinks h).all (fun k => k = l.val || s.dev.linkState k = 2) = true)) ∧
    (let l : Fin 64 := 44; let s : State := wHead 1 {} (fun d => d.wrF .cxiLklStat 44 2 0 2);
     (s.dev.powered = true) ∧ (s.dev.linkState l ≠ 0)) ∧
    (let h : Fin 64 := 4; let s : State := wHead 1 {} (fun d => (d.wr .cxiHdhCfg 4 0x12C0001).wrB .cxiLklCfg 44 0 true);
     (s.dev.powered = true) ∧ ((s.dev.headLinks h).filter (s.dev.reading h) ≠ []) ∧ ((s.dev.head h).polledAt.all (fun u => decide (100000000 ≤ elapsed s.dev.now u)) = true)) ∧
    (let h : Fin 64 := 4; let s : State := wHead 1 { polledAt := some 5 } (fun d => ((d.wr .cxiHdhCfg 4 0x12C4001).wrB .cxiLklCfg 44 0 true).wrB .cxiLklCfg 45 0 true);
     (s.dev.powered = true) ∧ ((s.dev.headLinks h).filter (s.dev.reading h) ≠ []) ∧ ((s.dev.head h).polledAt.all (fun u => decide (100000000 ≤ elapsed s.dev.now u)) = true)) ∧
    (let l : Fin 64 := 44; let h : Fin 64 := 4; let k : Fin 64 := 45; let v : Nat := 770; let s : State := wHead 1 {} (fun d => ((d.wr .cxiHdhCfg 4 0x12C4001).wrB .cxiLklCfg 44 0 true).wrB .cxiLklCfg 45 0 true);
     (s.dev.powered = true) ∧ (s.dev.headOfLink l = some h.val) ∧ (s.dev.reading h l = true) ∧ (2 * 256 ≤ v) ∧ (k.val ∈ s.dev.headLinks h) ∧ (k ≠ l) ∧ ((s.dev.link k).answer = none)) ∧
    (let l : Fin 64 := 44; let h : Fin 64 := 4; let v : Nat := 770; let s : State := wHead 1 {} (fun d => (d.wr .cxiHdhCfg 4 0x12C0001).wrB .cxiLklCfg 44 0 true);
     (s.dev.powered = true) ∧ (s.dev.headOfLink l = some h.val) ∧ (s.dev.reading h l = true) ∧ (2 * 256 ≤ v) ∧ (s.dev.headLinks h = [l.val])) ∧
    (let l : Fin 64 := 44; let h : Fin 64 := 4; let v : Nat := 770; let s : State := wHead 1 {} (fun d => (d.wr .cxiHdhCfg 4 0x12C0001).wrB .cxiLklCfg 44 0 true);
     (s.dev.powered = true) ∧ (s.dev.headOfLink l = some h.val) ∧ (s.dev.reading h l = true) ∧ (2 * 256 ≤ v) ∧ (s.dev.headLinks h = [l.val])) ∧
    (let l : Fin 64 := 44; let h : Fin 64 := 4; let v : Nat := 470; let s : State := wHead 1 {} (fun d => (d.wr .cxiHdhCfg 4 0x12C0001).wrB .cxiLklCfg 44 0 true);
     (s.dev.powered = true) ∧ (s.dev.headOfLink l = some h.val) ∧ (s.dev.reading h l = true) ∧ (v < 2 * 256)) ∧
    (let h : Fin 64 := 4; let s : State := wHead 1 { phase := .configuring } id;
     (s.dev.powered = true) ∧ (s.dev.headState h = .linking) ∧ ((s.dev.head h).phase = .configuring)) ∧
    (let h : Fin 64 := 4; let s : State := wHead 1 { phase := .configuring } (fun d => d.wrF .cxiLklStat 44 2 0 2);
     (s.dev.powered = true) ∧ (s.dev.headState h = .linking) ∧ ((s.dev.head h).phase = .configuring)) ∧
    (let h : Fin 64 := 4; let s : State := wHead 1 { phase := .configuring } id;
     (s.dev.powered = true) ∧ (s.dev.headState h = .linking) ∧ ((s.dev.head h).phase = .configuring)) ∧
    (let h : Fin 64 := 4; let l : Fin 64 := 44; let s : State := wHead 1 {} (fun d => (d.wr .cxiHdhCfg 4 0x12C0001).wrB .cxiLklCfg 44 0 true);
     (s.dev.powered = true) ∧ (l.val ∈ s.dev.headLinks h) ∧ (s.dev.reading h l = true) ∧ (10000000000 ≤ elapsed s.dev.now (s.dev.head h).discStart) ∧ ((s.dev.rdB .cxiLklCfg l 1 = false ∨ 10000000000 ≤ elapsed s.dev.now (s.dev.link l).onAt))) := by
  iterate 21 refine And.intro (by decide +kernel) ?_
  decide +kernel

/-- Values that meet the hypotheses of every clause of Obligations.PoCxpSupervision. -/
theorem witness_PoCxpSupervision :
    (let l : Fin 64 := 9; let s : State := wPcx 6 id;
     (s.dev.powered = true) ∧ (s.dev.rdB .cxiLklCfg l 1 = false) ∧ (s.dev.pcxState l = 6)) ∧
    (let l : Fin 64 := 9; let s : State := wPcx 0 id;
     (s.dev.powered = true) ∧ (s.dev.rdB .cxiLklCfg l 1 = false) ∧ (s.dev.pcxState l ≠ 6)) ∧
    (let l : Fin 64 := 9; let ma : Nat := 3000; let fltLow : Bool := true; let held : Bool := false; let s : State := wPcx 1 (fun d => d.setLink 9 { pcxAt := 2999000000, pcxFails := 2 });
     (s.dev.powered = true) ∧ (s.dev.pcxState l = 1) ∧ (elapsed s.dev.now (s.dev.link l).pcxAt ≤ 2000000) ∧ (s.dev.rdF .cxiLklPcxLim l 35 24 ≤ ma) ∧ ((fltLow = true ∨ held = true))) ∧
    (let l : Fin 64 := 9; let ma : Nat := 4000; let s : State := wPcx 2 id;
     (s.dev.powered = true) ∧ ((s.dev.pcxState l = 2 ∨ (s.dev.pcxState l = 1 ∧ 2000000 ≤ elapsed s.dev.now (s.dev.link l).pcxAt))) ∧ (s.dev.rdF .cxiLklPcxLim l 23 12 < ma)) ∧
    (let l : Fin 64 := 9; let ma : Nat := 4000; let s : State := wPcx 1 id;
     (s.dev.powered = true) ∧ ((s.dev.pcxState l = 2 ∨ (s.dev.pcxState l = 1 ∧ 2000000 ≤ elapsed s.dev.now (s.dev.link l).pcxAt))) ∧ (s.dev.rdF .cxiLklPcxLim l 23 12 < ma)) ∧
    (let l : Fin 64 := 9; let ma : Nat := 0; let s : State := wPcx 2 (fun d => d.wr .cxiLklPcxLim 9 5);
     (s.dev.powered = true) ∧ ((s.dev.pcxState l = 2 ∨ (s.dev.pcxState l = 1 ∧ 500000000 ≤ elapsed s.dev.now (s.dev.link l).pcxAt))) ∧ (ma < s.dev.rdF .cxiLklPcxLim l 11 0)) ∧
    (let l : Fin 64 := 9; let ma : Nat := 0; let s : State := wPcx 1 (fun d => d.wr .cxiLklPcxLim 9 5);
     (s.dev.powered = true) ∧ ((s.dev.pcxState l = 2 ∨ (s.dev.pcxState l = 1 ∧ 500000000 ≤ elapsed s.dev.now (s.dev.link l).pcxAt))) ∧ (ma < s.dev.rdF .cxiLklPcxLim l 11 0)) ∧
    (let l : Fin 64 := 9; let s : State := wPcx 1 id;
     (s.dev.powered = true) ∧ (s.dev.pcxState l = 1) ∧ (500000000 ≤ elapsed s.dev.now (s.dev.link l).pcxAt)) ∧
    (let l : Fin 64 := 9; let s : State := wPcx 5 id;
     (s.dev.powered = true) ∧ (((s.dev.pcxState l = 4 ∨ s.dev.pcxState l = 5) ∧ 1000000000 ≤ elapsed s.dev.now (s.dev.link l).pcxFailAt) ∨ (s.dev.pcxState l = 3 ∧ 2000000000 ≤ elapsed s.dev.now (s.dev.link l).pcxFailAt))) ∧
    (let l : Fin 64 := 9; let s : State := wPcx 3 id;
     (s.dev.powered = true) ∧ (((s.dev.pcxState l = 4 ∨ s.dev.pcxState l = 5) ∧ 1000000000 ≤ elapsed s.dev.now (s.dev.link l).pcxFailAt) ∨ (s.dev.pcxState l = 3 ∧ 2000000000 ≤ elapsed s.dev.now (s.dev.link l).pcxFailAt))) ∧
    (let l : Fin 64 := 9; let s : State := wPcx 6 id;
     (s.dev.powered = true) ∧ (s.dev.pcxState l = 6) ∧ (s.dev.rdB .cxiLklCfg l 1 = false)) ∧
    (let l : Fin 64 := 9; let s : State := wPcx 6 (fun d => d.wrB .cxiLklCfg 9 1 true);
     (s.dev.powered = true) ∧ (s.dev.pcxState l = 6) ∧ (s.dev.rdB .cxiLklCfg l 1 = true)) ∧
    (let g : Fin 4 := 2; let s : State := wPcx 0 (fun d => d);
     (s.dev.powered = true) ∧ ((∀ i : Fin 16, s.dev.rdF .cxiLklPcx (16 * g + i) 11 0 < s.dev.rdF .cxiLklPcxLim (16 * g + i) 35 24))) := by
  iterate 12 refine And.intro (by decide +kernel) ?_
  decide +kernel

/-- Values that meet the hypotheses of every clause of Obligations.Upconnection. -/
theorem witness_Upconnection :
    (let s : State := wHead 3 {} (fun d => d.wr .cxiCtl 0 100);
     (s.dev.powered = true) ∧ (s.dev.rdF .cxiCtl 0 7 0 ≠ 0) ∧ (s.dev.rdF .cxiCtl 0 7 0 * 1000000 ≤ elapsed s.dev.now s.dev.cxi.lastHb)) ∧
    (let h : Fin 64 := 4; let r : ControlReq := wReqC; let s : State := wHead 2 {} id;
     (s.dev.powered = true) ∧ ((s.dev.head h).ctrl = none) ∧ (s.dev.headUp h = true) ∧ (r.write = false)) ∧
    (let h : Fin 64 := 4; let r : ControlReq := { wReqC with write := true, data := [1] }; let s : State := wHead 2 {} id;
     (s.dev.powered = true) ∧ ((s.dev.head h).ctrl = none) ∧ (s.dev.headUp h = true) ∧ (r.write = true)) ∧
    (let h : Fin 64 := 4; let s : State := wHead 1 {} id;
     (s.dev.powered = true) ∧ ((s.dev.head h).ctrl = none) ∧ (s.dev.headUp h = false)) ∧
    (let h : Fin 64 := 4; let s : State := wHead 2 { ctrl := some wCtl } id;
     (s.dev.powered = true) ∧ ((s.dev.head h).ctrl ≠ none)) ∧
    (let h : Fin 64 := 4; let c : CtrlReq := wCtl; let s : State := wHead 2 { ctrl := some wCtl } id;
     (s.dev.powered = true) ∧ ((s.dev.head h).ctrl = some c)) ∧
    (let h : Fin 64 := 4; let c : CtrlReq := wCtl; let s : State := wHead 2 { ctrl := some wCtl } id;
     (s.dev.powered = true) ∧ ((s.dev.head h).ctrl = some c) ∧ (c.resends < 3)) ∧
    (let h : Fin 64 := 4; let c : CtrlReq := { wCtl with resends := 3 }; let s : State := wHead 2 { ctrl := some { wCtl with resends := 3 } } id;
     (s.dev.powered = true) ∧ ((s.dev.head h).ctrl = some c) ∧ (3 ≤ c.resends)) ∧
    (let h : Fin 64 := 4; let c : CtrlReq := wCtl; let s : State := wHead 2 { ctrl := some wCtl } id;
     (s.dev.powered = true) ∧ ((s.dev.head h).ctrl = some c) ∧ ((s.dev.head h).timeoutMs * 1000000 ≤ elapsed s.dev.now c.sent)) ∧
    (let h : Fin 64 := 4; let n : Nat := 0; let s : State := wHead 2 {} id;
     (s.dev.powered = true) ∧ ((s.dev.head h).msgs.length < 16) ∧ (s.dev.headState h ≠ .off) ∧ (s.dev.headState h ≠ .fenced) ∧ (s.dev.headState h ≠ .plane) ∧ (n = (s.dev.head h).nextMsg % 16) ∧ (s.dev.rdB .edcInjCtl 0 8 = false) ∧ (memWf MemWord.blank s.dev.sram = true)) ∧
    (let h : Fin 64 := 4; let s : State := wHead 2 { msgs := List.replicate 16 { slot := 0, bytes := 1, trunc := false } } id;
     (s.dev.powered = true) ∧ (16 ≤ (s.dev.head h).msgs.length ∨ s.dev.headState h = .off ∨ s.dev.headState h = .fenced ∨ s.dev.headState h = .plane)) ∧
    (let h : Fin 64 := 4; let s : State := wHead 0 {} id;
     (s.dev.powered = true) ∧ (16 ≤ (s.dev.head h).msgs.length ∨ s.dev.headState h = .off ∨ s.dev.headState h = .fenced ∨ s.dev.headState h = .plane)) := by
  iterate 11 refine And.intro (by decide +kernel) ?_
  decide +kernel

/-- Values that meet the hypotheses of every clause of Obligations.LinesThroughStaging. -/
theorem witness_LinesThroughStaging :
    (let l : Fin 64 := 44; let h : Fin 64 := 4; let p : StreamPacket := wPk 7 [.lineMarker]; let r : TrigRecord := wRec; let rest : List TrigRecord := []; let s : State := wHead 3 { records := [wRec] } (fun d => (d.wr .cxiHdhLat 4 (wordOf (50000 * 2 ^ 24 + 1000))).wr .cxiHdhCfg 4 0x12C0001);
     (s.dev.powered = true) ∧ (s.dev.domOn (5 + l / 16) = true) ∧ (s.dev.headOfLink l = some h.val) ∧ (p.crcOk = true) ∧ (p.violations = 0) ∧ (p.items = [.lineMarker]) ∧ ((s.dev.head h).nextTag.getD p.tag = p.tag) ∧ ((s.dev.head h).held = []) ∧ (s.dev.headState h = .run) ∧ ((s.dev.head h).cur = none) ∧ ((s.dev.head h).later = none) ∧ ((s.dev.head h).imageBad = false) ∧ ((s.dev.head h).records = r :: rest) ∧ (s.dev.headRgb h = false) ∧ (elapsed s.dev.now r.time < s.dev.rdF .cxiHdhLat h 47 24) ∧ (atOrPast s.dev.now (r.time + wordOf (s.dev.rdF .cxiHdhLat h 23 0)) = true)) ∧
    (let l : Fin 64 := 44; let h : Fin 64 := 4; let p : StreamPacket := wPk 7 [.lineMarker]; let s : State := wHead 3 {} (fun d => (d.wr .cxiHdhLat 4 (wordOf (50000 * 2 ^ 24 + 1000))).wr .cxiHdhCfg 4 0x12C0001);
     (s.dev.powered = true) ∧ (s.dev.domOn (5 + l / 16) = true) ∧ (s.dev.headOfLink l = some h.val) ∧ (p.crcOk = true) ∧ (p.violations = 0) ∧ (p.items = [.lineMarker]) ∧ ((s.dev.head h).nextTag.getD p.tag = p.tag) ∧ ((s.dev.head h).held = []) ∧ ((s.dev.head h).cur = none) ∧ (s.dev.headState h ≠ .run ∨ ((s.dev.head h).later = none ∧ (s.dev.head h).records = []))) ∧
    (let l : Fin 64 := 44; let h : Fin 64 := 4; let p : StreamPacket := wPk 7 [.lineMarker]; let s : State := wHead 2 { records := [wRec] } (fun d => (d.wr .cxiHdhLat 4 (wordOf (50000 * 2 ^ 24 + 1000))).wr .cxiHdhCfg 4 0x12C0001);
     (s.dev.powered = true) ∧ (s.dev.domOn (5 + l / 16) = true) ∧ (s.dev.headOfLink l = some h.val) ∧ (p.crcOk = true) ∧ (p.violations = 0) ∧ (p.items = [.lineMarker]) ∧ ((s.dev.head h).nextTag.getD p.tag = p.tag) ∧ ((s.dev.head h).held = []) ∧ ((s.dev.head h).cur = none) ∧ (s.dev.headState h ≠ .run ∨ ((s.dev.head h).later = none ∧ (s.dev.head h).records = []))) ∧
    (let l : Fin 64 := 44; let h : Fin 64 := 4; let p : StreamPacket := wPk 7 [.lineMarker]; let g : BitVec 8 := 5; let s : State := wHead 3 { nextTag := some 5 } (fun d => (d.wr .cxiHdhLat 4 (wordOf (50000 * 2 ^ 24 + 1000))).wr .cxiHdhCfg 4 0x12C0001);
     (s.dev.powered = true) ∧ (s.dev.domOn (5 + l / 16) = true) ∧ (s.dev.headOfLink l = some h.val) ∧ (p.crcOk = true) ∧ (p.violations = 0) ∧ ((s.dev.head h).nextTag = some g) ∧ (p.tag ≠ g) ∧ ((s.dev.head h).held = [])) ∧
    (let h : Fin 64 := 4; let g : BitVec 8 := 5; let p : StreamPacket := wPk 7 []; let l : Nat := 44; let u : Word := 9; let s : State := wHead 3 { nextTag := some 5, held := [(wPk 7 [], 44, 9)] } id;
     (s.dev.powered = true) ∧ ((s.dev.head h).nextTag = some g) ∧ ((s.dev.head h).held = [(p, l, u)]) ∧ (p.tag ≠ g) ∧ (p.items = []) ∧ (p.crcOk = true) ∧ (2000 ≤ elapsed s.dev.now u)) ∧
    (let h : Fin 64 := 4; let r : TrigRecord := wRec; let s : State := wHead 3 { records := [wRec] } (fun d => d.wr .cxiHdhLat 4 (wordOf (1000 * 2^24)));
     (s.dev.powered = true) ∧ ((s.dev.head h).records = [r]) ∧ (s.dev.rdF .cxiHdhLat h 47 24 ≤ elapsed s.dev.now r.time)) ∧
    (let h : Fin 64 := 4; let l : StgLine := wLine; let rest : List StgLine := []; let s : State := wHead 3 { lines := [wLine] } id;
     (s.dev.powered = true) ∧ ((s.dev.head h).lines = l :: rest) ∧ (l.started = false) ∧ ((l.ended = true ∨ (l.fallback = false ∧ s.dev.cutPixels h ≤ l.pixels ∧ 0 < l.pixels)))) ∧
    (let h : Fin 64 := 4; let l : StgLine := { wLine with ended := false, pixels := 300 }; let rest : List StgLine := []; let s : State := wHead 3 { lines := [{ wLine with ended := false, pixels := 300 }] } (fun d => d.wr .cxiHdhCut 4 1);
     (s.dev.powered = true) ∧ ((s.dev.head h).lines = l :: rest) ∧ (l.started = false) ∧ ((l.ended = true ∨ (l.fallback = false ∧ s.dev.cutPixels h ≤ l.pixels ∧ 0 < l.pixels)))) ∧
    (let h : Fin 64 := 4; let l : StgLine := { wLine with started := true }; let s : State := wHead 3 { lines := [{ wLine with started := true }] } (fun d => (d.setLb 4 { outW := 16 }).wr .cxiHdhWidth 4 16);
     (s.dev.powered = true) ∧ ((s.dev.head h).lines.find? (fun x => !x.done) = some l) ∧ (l.started = true) ∧ (l.ended = true)) ∧
    (let h : Fin 64 := 4; let c : ChmLine := wChmLine; let s : State := wHead 3 {} (fun d => d.setChm 4 { waiting := [wChmLine] });
     (s.dev.powered = true) ∧ ((s.dev.chmHead h).waiting = [c]) ∧ (c.rightOpen = true) ∧ (c.leftOpen = false) ∧ (fld (s.dev.rdAt .chmHdhCfg h c.src.fire) 39 24 * 1000 ≤ elapsed s.dev.now c.endedAt)) ∧
    (let h : Fin 64 := 4; let l : StgLine := { wLine with done := true }; let rest : List StgLine := []; let s : State := wHead 3 { lines := [{ wLine with done := true }] } id;
     (s.dev.powered = true) ∧ ((s.dev.head h).lines = l :: rest) ∧ (l.done = true) ∧ ((∀ c ∈ (s.dev.chmHead h).waiting, c.src.line ≠ l.line)) ∧ ((∀ b ∈ (s.dev.lb h).done, b.raw.contains l.line = false)) ∧ ((s.dev.tpbr h = 0 ∨ ∀ b ∈ (s.dev.lb h).cur, b.lines.any (fun y => y.line = l.line) = false))) := by
  iterate 10 refine And.intro (by decide +kernel) ?_
  decide +kernel

end Tests.Cxi

namespace Tests.Look

def wLay (f : Dev → Dev) : State := wState (fun d => f { ((d.wr .tfbLbStat 0 0xF1).wr .tfbLbRefTiles 0 4096).wr .tfbLbCtl 0 1 with tfb := { d.tfb with laidOut := true }, now := 900000 })
def wBand : BandDone := { s := 5, w0 := 0, w1 := 0, lastPos := 99 }
def wQ : Query := { id := 3, src := .dict, words := [0, 0, 0, 0, 0, 7], waiting := some 5, service := true }
def wJob (st : JobState) : RetroJob := { st := st, words := [0, 0, 0, 0, 0, 0] }
def wPiece : Piece := { num := 6, job := none, set := 0, tag := 0, bright := true, runs := [{ head := 2, k := 1, pos := 0, x0 := 5, x1 := 6, bright := true, seed := false, sumE := 0, peak := 0, flags := 0 }], readyAt := some 5, settled := true }
def wPieceS : Piece := { wPiece with runs := [{ head := 2, k := 1, pos := 0, x0 := 5, x1 := 9, bright := true, seed := true, sumE := 0, peak := 0, flags := 0 }] }
def wRefUsed : State := wLay (fun d => d.wr .cexPsHdh0 5 (wordOf (9 * 2 ^ 29 + 2 ^ 28)))
def wLeft : State := wLay (fun d => { (((d.sramWrites mapBase [wordOf (7 * 2 ^ 38 + 2 ^ 24), wordOf (2 ^ 24 + 2 * 2 ^ 32 + 5)]).wrF .hlkPortpStat 1 2 0 2).wr .hlkPortpRange 1 (wordOf (2 ^ 47 + 7 + 16 * 2 ^ 16))) with cex := { d.cex with mapLen := 2, pieces := [wPiece] } })
def wRef : List Word := [wordOf 32, wordOf (2^32 + 1), 0, 0]

/-- The same before a layout. -/
def wNoLay (f : Dev → Dev) : State := wLay (fun d => f (d.wrB .tfbLbStat 0 0 false))

/-- No tile is stored there. -/
theorem wRef_tile (q : Nat) : ((wNoLay id).dev.checkRefs (List.range 32)).2.tile q = Tile.blank := rfl

/-- No reference is in use there. -/
theorem wRef_free (k : Nat) : ((wNoLay id).dev.checkRefs (List.range 32)).2.refState k = 0 := by
  unfold Dev.refState Dev.refWord
  rw [wRef_tile]
  show fld (0 : Word) 47 46 = 0
  decide

/-- Values that meet the hypotheses of every clause of Obligations.BandsClaimsQueries. -/
theorem witness_BandsClaimsQueries :
    (let h : Fin 64 := 4; let b : BandDone := wBand; let rest : List BandDone := []; let s : State := wLay (fun d => d.setLb 4 { done := [wBand] });
     (s.dev.powered = true) ∧ ((s.dev.lb h).done = b :: rest) ∧ (s.dev.runningJob = none)) ∧
    (let h : Fin 64 := 4; let b : BandDone := wBand; let rest : List BandDone := []; let s : State := wLay (fun d => ((d.setLb 4 { done := [wBand], dirIndex := some 0 }).wr .tfbLbhNb 4 256).wr .cxiHdhStat 4 3);
     (s.dev.powered = true) ∧ ((s.dev.lb h).done = b :: rest) ∧ (s.dev.runningJob = none) ∧ (s.dev.headRuns h = true) ∧ ((s.dev.lb h).dirIndex = some (b.s % s.dev.nb h / 256)) ∧ (b.s % s.dev.nb h % 256 ≠ 255)) ∧
    (let k : Fin 128 := 3; let v : Word := wordOf (2^47 + 4 * 2^40 + 5); let s : State := wLay (fun d => (d.wrB .tfbLbhStat 4 0 true).wr .tfbLbhHznSeq 4 9);
     (s.dev.powered = true) ∧ (bit v 47 = true) ∧ ((bit (s.dev.rd .tfbClmk k) 46 = false ∨ bit v 46 = true ∨ bit (s.dev.rd .tfbClmk k) 47 = false ∨ fld (s.dev.rd .tfbClmk k) 39 0 ≠ fld v 39 0 ∨ fld (s.dev.rd .tfbClmk k) 45 40 ≠ fld v 45 40)) ∧ (s.dev.hasRing (fld v 45 40) = true) ∧ (seqBehind (fld v 39 0) (s.dev.hznSeq (fld v 45 40)) = true)) ∧
    (let v : Word := wordOf (2^47 + 4 * 2^40 + 15); let s : State := wLay (fun d => (d.wrB .tfbLbhStat 4 0 true).wr .tfbLbhHznSeq 4 9);
     (s.dev.powered = true) ∧ (bit v 47 = false ∨ s.dev.hasRing (fld v 45 40) = false ∨ seqBehind (fld v 39 0) (s.dev.hznSeq (fld v 45 40)) = false)) ∧
    (let s : State := wLay (fun d => d.wr .cxiHdhStat 3 3);
     (s.dev.powered = true) ∧ (s.dev.anyRunning = true)) ∧
    (let s : State := wLay id;
     (s.dev.powered = true) ∧ (s.dev.anyRunning = false) ∧ (s.dev.domOn 22 = true)) ∧
    (let s : State := wLay (fun d => (((d.wr .cxiHdhCfg 4 0x12C0001).wr .chmHdhOut 4 (wordOf (1024 * 2^24))).wr .tfbLbhCfg 4 7));
     (s.dev.powered = true) ∧ (s.dev.domOn 22 = true)) ∧
    (let s : State := wLay (fun d => { d with domains := [] });
     (s.dev.domOn 22 = false)) ∧
    (let q : Query := { wQ with service := false }; let s : State := wLay (fun d => { d with tfb := { d.tfb with queries := [{ wQ with service := false }] } });
     (s.dev.powered = true) ∧ ((s.dev.tfb.queries.filter (·.service)).length < 64) ∧ (s.dev.tfb.queries.find? (fun x => !x.service) = some q)) ∧
    (let q : Query := { wQ with service := false, words := [0, 9, 5, 0, 0, 0] }; let r : Nat × Nat := (0x10, 1); let s : State := wLay (fun d => { d with tfb := { d.tfb with queries := [{ wQ with service := false, words := [0, 9, 5, 0, 0, 0] }] } });
     (s.dev.powered = true) ∧ ((s.dev.tfb.queries.filter (·.service)).length < 64) ∧ (s.dev.tfb.queries.find? (fun x => !x.service) = some q) ∧ (s.dev.qRefusal (qdesc q.words) = some r)) ∧
    (let s : State := wLay id;
     (64 ≤ (s.dev.tfb.queries.filter (·.service)).length ∨ s.dev.tfb.queries.all (·.service) = true)) ∧
    (let s : State := wLay (fun d => { d with tfb := { d.tfb with queries := [wQ] } });
     (64 ≤ (s.dev.tfb.queries.filter (·.service)).length ∨ s.dev.tfb.queries.all (·.service) = true)) ∧
    (let n : Nat := 3; let q : Query := wQ; let s : State := wLay (fun d => { d with tfb := { d.tfb with queries := [wQ] } });
     (s.dev.query n = some q) ∧ (q.waiting = none ∨ s.dev.qEndHeld (qdesc q.words) = false)) ∧
    (let n : Nat := 3; let q : Query := wQ; let s : State := wLay (fun d => { (d.setLb 0 { held := true }).wr .tfbLbhNewEnd 0 9 with tfb := { d.tfb with heads := [(0, { held := true })], queries := [wQ] } });
     (s.dev.powered = true) ∧ (s.dev.query n = some q) ∧ (q.waiting.isSome = true) ∧ (s.dev.qEndHeld (qdesc q.words) = true)) ∧
    (let n : Nat := 3; let q : Query := wQ; let u : Word := 5; let s : State := wLay (fun d => { d with tfb := { d.tfb with queries := [wQ] } });
     (s.dev.powered = true) ∧ (s.dev.query n = some q) ∧ (q.waiting = some u) ∧ ((qdesc q.words).waitUs ≠ 0) ∧ ((qdesc q.words).waitUs * 1000 ≤ elapsed s.dev.now u)) ∧
    (let ws : List Word := [0, 0, 0, 0, 0, 0]; let s : State := wLay (fun d => { d with tfb := { d.tfb with dictState := 1 } });
     (ws.length = 6) ∧ (s.dev.powered = true) ∧ (s.dev.tfb.dictState = 1)) ∧
    (let ws : List Word := [0, 0, 0, 0, 0, 0]; let s : State := wLay id;
     (s.dev.powered = true) ∧ (ws.length = 6) ∧ (s.dev.tfb.dictState ≠ 1)) := by
  iterate 16 refine And.intro (by decide +kernel) ?_
  decide +kernel

set_option maxRecDepth 100000 in
/-- Values that meet the hypotheses of every clause of Obligations.ReferencesAndRetro. -/
theorem witness_ReferencesAndRetro :
    (let r : Nat := 9; let ws : List Word := wRef; let s : State := wNoLay id;
     (s.dev.powered = true) ∧ (ws.length = 4) ∧ (s.dev.domOn 22 = true) ∧ (r < 4096) ∧ (fld (ws.getD 1 0) 39 32 ≠ 0) ∧ (fld (ws.getD 1 0) 39 32 ≤ 64) ∧ (fld (ws.getD 1 0) 31 0 ≠ 0) ∧ (32 ≤ fld (ws.getD 0 0) 31 0) ∧ (fld (ws.getD 0 0) 31 0 + fld (ws.getD 1 0) 31 0 * fld (ws.getD 1 0) 39 32 ≤ (s.dev.rd .tfbLbRefTiles).toNat) ∧ (s.dev.refInUse r = false) ∧ ((s.dev.checkRefs (List.range 32)).1 = 0) ∧ (memWf Tile.blank (s.dev.checkRefs (List.range 32)).2.hbm = true) ∧ ((∀ k : Fin 4096, (s.dev.checkRefs (List.range 32)).2.refState k = 0 ∨ (s.dev.checkRefs (List.range 32)).2.refMeets k (fld (ws.getD 0 0) 31 0) (fld (ws.getD 1 0) 31 0 * fld (ws.getD 1 0) 39 32) = false))) ∧
    (let ws : List Word := wRef; let s : State := wLay (fun d => { d with domains := [] });
     (ws.length = 4) ∧ (s.dev.powered = true) ∧ (s.dev.domOn 22 = false)) ∧
    (let r : Nat := 9; let ws : List Word := [5, 1, 0, 0]; let s : State := wLay id;
     (ws.length = 4) ∧ (s.dev.powered = true) ∧ (s.dev.domOn 22 = true) ∧ (4096 ≤ r ∨ fld (ws.getD 1 0) 39 32 = 0 ∨ 64 < fld (ws.getD 1 0) 39 32 ∨ fld (ws.getD 1 0) 31 0 = 0 ∨ fld (ws.getD 0 0) 31 0 < 32 ∨ (s.dev.rd .tfbLbRefTiles).toNat < fld (ws.getD 0 0) 31 0 + fld (ws.getD 1 0) 31 0 * fld (ws.getD 1 0) 39 32)) ∧
    (let r : Nat := 5000; let ws : List Word := wRef; let s : State := wNoLay id;
     (ws.length = 4) ∧ (s.dev.powered = true) ∧ (s.dev.domOn 22 = true) ∧ (4096 ≤ r ∨ fld (ws.getD 1 0) 39 32 = 0 ∨ 64 < fld (ws.getD 1 0) 39 32 ∨ fld (ws.getD 1 0) 31 0 = 0 ∨ fld (ws.getD 0 0) 31 0 < 32 ∨ (s.dev.rd .tfbLbRefTiles).toNat < fld (ws.getD 0 0) 31 0 + fld (ws.getD 1 0) 31 0 * fld (ws.getD 1 0) 39 32)) ∧
    (let c : Instr := .refSeal 9; let r : Nat := 9; let s : State := wRefUsed;
     (s.dev.powered = true) ∧ (r < 4096) ∧ (s.dev.refInUse r = true) ∧ (c = .refSeal r ∨ c = .refDelete r)) ∧
    (let c : Instr := .refDelete 9; let r : Nat := 9; let s : State := wRefUsed;
     (s.dev.powered = true) ∧ (r < 4096) ∧ (s.dev.refInUse r = true) ∧ (c = .refSeal r ∨ c = .refDelete r)) ∧
    (let r : Nat := 9; let s : State := wNoLay (fun d => (d.putRef 9 [wordOf (2^46 + 32), wordOf (2^32), 0, 0]));
     (s.dev.powered = true) ∧ (r < 4096) ∧ (s.dev.refInUse r = false) ∧ ((s.dev.checkRefs [r / 128]).1 = 0) ∧ ((s.dev.checkRefs [r / 128]).2.refState r = 1) ∧ ((s.dev.checkRefs [r / 128]).2.refBands r * (s.dev.checkRefs [r / 128]).2.refTpb r ≤ (tget (s.dev.checkRefs [r / 128]).2.tfb.refTiles [] r).length) ∧ (memWf Tile.blank (s.dev.checkRefs [r / 128]).2.hbm = true)) ∧
    (let r : Nat := 9; let s : State := wNoLay (fun d => (d.putRef 9 [wordOf (2^46 + 32), wordOf (2^32 + 1), 0, 0]));
     (s.dev.powered = true) ∧ (r < 4096) ∧ (s.dev.refInUse r = false) ∧ ((s.dev.checkRefs [r / 128]).1 = 0) ∧ ((s.dev.checkRefs [r / 128]).2.refState r = 1) ∧ ((tget (s.dev.checkRefs [r / 128]).2.tfb.refTiles [] r).length < (s.dev.checkRefs [r / 128]).2.refBands r * (s.dev.checkRefs [r / 128]).2.refTpb r)) ∧
    (let r : Nat := 9; let s : State := wNoLay id;
     (s.dev.powered = true) ∧ (r < 4096) ∧ (s.dev.refInUse r = false) ∧ ((s.dev.checkRefs [r / 128]).1 = 0) ∧ (memWf Tile.blank (s.dev.checkRefs [r / 128]).2.hbm = true)) ∧
    (let c : Instr := .refSeal 9; let r : Nat := 9; let s : State := wLay id;
     (s.dev.powered = true) ∧ (r < 4096) ∧ (s.dev.refInUse r = false) ∧ ((s.dev.checkRefs [r / 128]).1 ≠ 0) ∧ (c = .refSeal r ∨ c = .refDelete r)) ∧
    (let c : Instr := .refDelete 9; let r : Nat := 9; let s : State := wLay id;
     (s.dev.powered = true) ∧ (r < 4096) ∧ (s.dev.refInUse r = false) ∧ ((s.dev.checkRefs [r / 128]).1 ≠ 0) ∧ (c = .refSeal r ∨ c = .refDelete r)) ∧
    (let j : Fin 16 := 3; let ws : List Word := [0, 5, 9, 0, 0, 0]; let s : State := wLay (fun d => ({ d with cex := { d.cex with mapLen := 1 } }).wrB .tfbLbhStat 0 0 true);
     (s.dev.powered = true) ∧ (ws.length = 6) ∧ ((s.dev.job j).st ≠ .queued) ∧ ((s.dev.job j).st ≠ .running) ∧ (s.dev.retroRefusal ws = none)) ∧
    (let j : Fin 16 := 3; let ws : List Word := [0, 5, 2, 0, 0, 0]; let r : Nat × Nat := (0x10, 1); let s : State := wLay id;
     (s.dev.powered = true) ∧ (ws.length = 6) ∧ ((s.dev.job j).st ≠ .queued) ∧ ((s.dev.job j).st ≠ .running) ∧ (s.dev.retroRefusal ws = some r)) ∧
    (let j : Fin 16 := 3; let ws : List Word := [0, 5, 9, 0, 0, 0]; let s : State := wLay (fun d => d.setJob 3 (wJob .queued));
     (ws.length = 6) ∧ (s.dev.powered = true) ∧ ((s.dev.job j).st = .queued ∨ (s.dev.job j).st = .running)) ∧
    (let j : Fin 16 := 3; let s : State := wLay (fun d => d.setJob 3 (wJob .queued));
     (s.dev.powered = true) ∧ (s.dev.runningJob = none) ∧ (s.dev.domOn 20 = true) ∧ (s.dev.nextJob = some j.val) ∧ ((∀ h ∈ s.dev.retroHeads (fld ((s.dev.job j).word 3) 23 0) (fld ((s.dev.job j).word 3) 47 24), paramsValid ⟨s.dev.rd .cexPsHdh0 (64 * (s.dev.job j).set + h), s.dev.rd .cexPsHdh1 (64 * (s.dev.job j).set + h), s.dev.rd .cexPsHdh2 (64 * (s.dev.job j).set + h), s.dev.rd .cexPsHdh3 (64 * (s.dev.job j).set + h)⟩ (fun r => decide (s.dev.refState r = 2)) = true))) ∧
    (let j : Fin 16 := 3; let s : State := wLay (fun d => d.setJob 3 (wJob .running));
     (s.dev.powered = true) ∧ ((s.dev.job j).st = .queued ∨ (s.dev.job j).st = .running)) ∧
    (let j : Fin 16 := 3; let s : State := wLay id;
     (s.dev.powered = true) ∧ ((s.dev.job j).st ≠ .queued) ∧ ((s.dev.job j).st ≠ .running)) ∧
    (let j : Fin 16 := 3; let s : State := wLay (fun d => d.setJob 3 (wJob .running));
     (s.dev.powered = true) ∧ (s.dev.runningJob = some j.val) ∧ ((s.dev.job j).todo = []) ∧ ((s.dev.job j).unstarted = []) ∧ ((∀ x ∈ s.dev.cex.pieces, x.job ≠ some j.val))) := by
  refine And.intro (by intro r ws s; (iterate 12 refine And.intro (by decide +kernel) ?_); exact fun k => Or.inl (wRef_free k)) ?_
  iterate 16 refine And.intro (by decide +kernel) ?_
  decide +kernel

/-- Values that meet the hypotheses of every clause of Obligations.CalibrationAndPieces. -/
theorem witness_CalibrationAndPieces :
    (let s : State := wLay (fun d => (d.wr .chmCalCtl 0 0x4404).wr .cxiHdhStat 4 3);
     (s.dev.powered = true) ∧ (s.dev.headRuns (s.dev.rdF .chmCalCtl 0 5 0) = true) ∧ ((s.dev.rdF .chmCalCtl 0 11 10 = 1 ∨ s.dev.rdF .chmCalCtl 0 11 10 = 2)) ∧ (4 ≤ s.dev.rdF .chmCalCtl 0 15 12) ∧ (s.dev.rdF .chmCalCtl 0 15 12 ≤ 12) ∧ (s.dev.calState ≠ 1) ∧ (memWf MemWord.blank s.dev.sram = true) ∧ (s.dev.rdB .edcInjCtl 0 8 = false)) ∧
    (let s : State := wLay id;
     (s.dev.headRuns (s.dev.rdF .chmCalCtl 0 5 0) = false ∨ s.dev.calState = 1 ∨ s.dev.rdF .chmCalCtl 0 11 10 = 0 ∨ s.dev.rdF .chmCalCtl 0 11 10 = 3 ∨ s.dev.rdF .chmCalCtl 0 15 12 < 4 ∨ 12 < s.dev.rdF .chmCalCtl 0 15 12)) ∧
    (let s : State := wLay (fun d => (d.wr .chmCalCtl 0 0x4004).wr .cxiHdhStat 4 3);
     (s.dev.headRuns (s.dev.rdF .chmCalCtl 0 5 0) = false ∨ s.dev.calState = 1 ∨ s.dev.rdF .chmCalCtl 0 11 10 = 0 ∨ s.dev.rdF .chmCalCtl 0 11 10 = 3 ∨ s.dev.rdF .chmCalCtl 0 15 12 < 4 ∨ 12 < s.dev.rdF .chmCalCtl 0 15 12)) ∧
    (let off : Nat := 7; let ws : List Word := [5, 6, 0]; let s : State := wLay id;
     (s.dev.powered = true) ∧ (off + ws.length ≤ 1398784) ∧ (memWf MemWord.blank s.dev.sram = true) ∧ (s.dev.rdB .edcInjCtl 0 8 = false)) ∧
    (let off : Nat := 1398784; let ws : List Word := [5]; let s : State := wLay id;
     (s.dev.powered = true) ∧ (1398784 < off + ws.length)) ∧
    (let n : Nat := 6; let p : Piece := wPiece; let s : State := wLay (fun d => { d with cex := { d.cex with pieces := [wPiece] } });
     (s.dev.powered = true) ∧ (s.dev.cex.pieces.find? (fun x => decide (x.num = n)) = some p) ∧ ((p.job.isSome && s.dev.retroStalls) = false) ∧ (s.dev.scanMap = (false, s.dev)) ∧ (s.dev.pieceReady s.dev.mapWords p = true) ∧ (s.dev.edgesSettled s.dev.mapWords p = true) ∧ (s.dev.leftDevice s.dev.mapWords p = none)) ∧
    (let n : Nat := 6; let p : Piece := wPieceS; let s : State := wLay (fun d => { d with cex := { d.cex with pieces := [wPieceS] } });
     (s.dev.powered = true) ∧ (s.dev.cex.pieces.find? (fun x => decide (x.num = n)) = some p) ∧ (p.job = none) ∧ (s.dev.scanMap = (false, s.dev)) ∧ (s.dev.pieceReady s.dev.mapWords p = true) ∧ (s.dev.edgesSettled s.dev.mapWords p = true) ∧ (s.dev.leftDevice s.dev.mapWords p = none) ∧ (s.dev.pieceSeed p = true) ∧ (fld (s.dev.pieceWord p 2) 31 0 ≤ p.area) ∧ (s.dev.cex.heldRecs = []) ∧ (s.dev.cexFull false = false)) ∧
    (let n : Nat := 6; let j : Nat := 3; let p : Piece := { wPieceS with job := some 3 }; let s : State := wLay (fun d => { (d.setJob 3 (wJob .running)) with cex := { (d.setJob 3 (wJob .running)).cex with pieces := [{ wPieceS with job := some 3 }] } });
     (s.dev.powered = true) ∧ (s.dev.cex.pieces.find? (fun x => decide (x.num = n)) = some p) ∧ (p.job = some j) ∧ (s.dev.retroStalls = false) ∧ (s.dev.scanMap = (false, s.dev)) ∧ (s.dev.pieceReady s.dev.mapWords p = true) ∧ (s.dev.edgesSettled s.dev.mapWords p = true) ∧ (s.dev.leftDevice s.dev.mapWords p = none) ∧ (s.dev.pieceSeed p = true) ∧ (fld (s.dev.pieceWord p 2) 31 0 ≤ p.area)) ∧
    (let n : Nat := 6; let p : Piece := { wPiece with job := some 3 }; let s : State := wLay (fun d => { (d.wr .cexRqProd 0 4096) with cex := { d.cex with pieces := [{ wPiece with job := some 3 }] } });
     (s.dev.cex.pieces.find? (fun x => decide (x.num = n)) = some p) ∧ (p.job.isSome = true) ∧ (s.dev.retroStalls = true)) ∧
    (let n : Nat := 6; let p : Piece := wPiece; let s : State := wLay (fun d => { (d.putCell mapBase poisonWord) with cex := { d.cex with mapLen := 1, pieces := [wPiece] } });
     (s.dev.powered = true) ∧ (s.dev.cex.pieces.find? (fun x => decide (x.num = n)) = some p) ∧ ((p.job.isSome && s.dev.retroStalls) = false) ∧ (s.dev.scanMap.1 = true)) ∧
    (let n : Nat := 6; let p : Piece := wPiece; let dest : Nat := 7; let port : Nat := 1; let s : State := wLeft;
     (s.dev.powered = true) ∧ (s.dev.cex.pieces.find? (fun x => decide (x.num = n)) = some p) ∧ ((p.job.isSome && s.dev.retroStalls) = false) ∧ (s.dev.scanMap = (false, s.dev)) ∧ (s.dev.pieceReady s.dev.mapWords p = true) ∧ (s.dev.edgesSettled s.dev.mapWords p = true) ∧ (s.dev.leftDevice s.dev.mapWords p = some dest) ∧ (s.dev.routeUp dest false = some port)) ∧
    (let n : Nat := 6; let s : State := wLay id;
     (s.dev.scanMap = (false, s.dev)) ∧ (s.dev.cex.pieces.all (fun x => x.num ≠ n || !s.dev.pieceReady s.dev.mapWords x || !s.dev.edgesSettled s.dev.mapWords x) = true)) ∧
    (let n : Nat := 6; let s : State := wLay (fun d => { (d.sramWrites mapBase [wordOf (2 * 2 ^ 32 + 2 ^ 24), wordOf (5 * 2 ^ 38 + 2 ^ 24 + 7)]) with cex := { d.cex with mapLen := 2, pieces := [{ wPiece with settled := false }] } });
     (s.dev.scanMap = (false, s.dev)) ∧ (s.dev.cex.pieces.all (fun x => x.num ≠ n || !s.dev.pieceReady s.dev.mapWords x || !s.dev.edgesSettled s.dev.mapWords x) = true)) ∧
    (let n : Nat := 6; let p : Piece := { wPiece with settled := false }; let u : Word := 5; let s : State := wLay (fun d => { (d.sramWrites mapBase [wordOf (2 * 2 ^ 32 + 2 ^ 24), wordOf (5 * 2 ^ 38 + 2 ^ 24 + 7)]) with now := 9000000, cex := { d.cex with mapLen := 2, pieces := [{ wPiece with settled := false }] } });
     (s.dev.powered = true) ∧ (s.dev.cex.pieces.find? (fun x => decide (x.num = n)) = some p) ∧ (p.readyAt = some u) ∧ (s.dev.rdF .cexMerge 0 15 0 * 1000 ≤ elapsed s.dev.now u) ∧ (s.dev.edgesSettled s.dev.mapWords p = false)) ∧
    (let n : Nat := 6; let s : State := wLay id;
     (s.dev.cex.pieces.all (fun x => x.num ≠ n || s.dev.edgesSettled s.dev.mapWords x || x.readyAt.all (fun u => decide (elapsed s.dev.now u < s.dev.rdF .cexMerge 0 15 0 * 1000))) = true)) ∧
    (let s : State := wLay id;
     (3072 < s.dev.cexCount false ∨ (s.dev.cex.heldRecs = [] ∧ s.dev.rdB .cexStat 0 1 = false))) ∧
    (let s : State := wLay (fun d => (d.wr .cexLqProd 0 4000).wrB .cexStat 0 1 true);
     (3072 < s.dev.cexCount false ∨ (s.dev.cex.heldRecs = [] ∧ s.dev.rdB .cexStat 0 1 = false))) ∧
    (let r : List Word := [1, 2, 3, 4, 5, 6, 7, 8]; let s : State := wLay (fun d => { d with cex := { d.cex with heldRecs := [[1, 2, 3, 4, 5, 6, 7, 8]] } });
     (s.dev.powered = true) ∧ (s.dev.cexCount false ≤ 3072) ∧ (s.dev.cex.heldRecs = [r]) ∧ ((∀ h : Fin 64, s.dev.cexMode h ≠ 2))) := by
  iterate 17 refine And.intro (by decide +kernel) ?_
  decide +kernel

end Tests.Look

namespace Tests.Ibx

def wCh (f : Dev → Dev) : State := wState (fun d => f (((d.wr .ibxChcStat 5 1).setChan 5 {}).setProc 5 { pc := wordOf 0x6AA800, w := [(3, wordOf 0x6AB000)] }))
def wW (t n a : Nat) (h : a < 32) : ChWord := { last := false, more := false, dry := false, hold := false, note := false, strict := false, rsv1 := 0, target := BitVec.ofNat 10 t, count := BitVec.ofNat 12 n, a := ⟨a, h⟩, rsv0 := 0 }
def wRun (op : ChanOp) (n : Nat) : ChanRun := { op := op, code := 0xC1, w := wW 0 n 0 (by decide), since := 0 }
def wTmv (n : Nat) : MoverState := { reqs := [{ user := .move 5, words := n, write := true, run := some { reader := 0, writer := some 0 } }] }
def wWait (op : ChanOp) (n : Nat) (f : Dev → Dev) : State := wCh (fun d => f ((d.wr .ibxChcStat 5 2).setChan 5 { run := some (wRun op n) }))

/-- Values that meet the hypotheses of every clause of Obligations.ChannelWaits. -/
theorem witness_ChannelWaits :
    (let c : Fin 512 := 5; let w : ChWord := wW 0 0 0 (by decide); let s : State := wCh (fun d => d);
     (ChFresh c s) ∧ (w.bare = true) ∧ (w.target = 0) ∧ (w.count = 0) ∧ (w.a = 0)) ∧
    (let c : Fin 512 := 5; let w : ChWord := wW 1 0 3 (by decide); let v : Word := 3; let s : State := wCh (fun d => (((d.wrB .sprAxnCtl 1 0 true).setAxis 1 { main := { st := .track, v := 42949673, p := 5000 } })).sramWrites 0x6AB000 [3]);
     (ChFresh c s) ∧ (w.bare = true) ∧ (w.target.toNat < 4) ∧ (inProgram (s.dev.chAddr c w) 1 = true) ∧ (decodeWord (s.dev.cell (s.dev.chAddr c w)) = .ok v) ∧ (atOrPast (s.dev.axisPos w.target.toNat) v = true)) ∧
    (let c : Fin 512 := 5; let w : ChWord := wW 1 0 3 (by decide); let v : Word := 10000; let s : State := wCh (fun d => (((d.wrB .sprAxnCtl 1 0 true).setAxis 1 { main := { st := .track, v := 42949673, p := 5000 } })).sramWrites 0x6AB000 [10000]);
     (ChFresh c s) ∧ (w.bare = true) ∧ (w.target.toNat < 4) ∧ (inProgram (s.dev.chAddr c w) 1 = true) ∧ (decodeWord (s.dev.cell (s.dev.chAddr c w)) = .ok v) ∧ (atOrPast (s.dev.axisPos w.target.toNat) v = false) ∧ (s.dev.axisState w.target.toNat ≠ .fault)) ∧
    (let c : Fin 512 := 5; let a : Nat := 1; let v : P48 := 4000; let r : ChanRun := (wRun (.poswait 1 4000) 0); let s : State := wWait (.poswait 1 4000) 0 (fun d => (((d.wrB .sprAxnCtl 1 0 true).setAxis 1 { main := { st := .track, v := 42949673, p := 5000 } })));
     (ChWaiting c (.poswait a v) r s) ∧ (s.dev.axisReaches a v 0 = true)) ∧
    (let c : Fin 512 := 5; let a : Nat := 1; let v : P48 := 4000; let r : ChanRun := (wRun (.poswait 1 4000) 0); let s : State := wWait (.poswait 1 4000) 0 (fun d => (d.wrB .sprAxnCtl 1 0 true).setAxis 1 { main := { st := .fault } });
     (ChWaiting c (.poswait a v) r s) ∧ (s.dev.axisState a = .fault)) ∧
    (let c : Fin 512 := 5; let w : ChWord := wW 434 0 0 (by decide); let s : State := wCh (fun d => d.setLevel 434 true);
     (ChFresh c s) ∧ (w.bare = true) ∧ (w.a = 0) ∧ (320 ≤ w.target.toNat) ∧ (srcKind w.target.toNat = .level) ∧ ((s.dev.source w.target.toNat).e = true)) ∧
    (let c : Fin 512 := 5; let w : ChWord := wW 430 0 0 (by decide); let s : State := wCh (fun d => d);
     (ChFresh c s) ∧ (w.bare = true) ∧ (w.a = 0) ∧ (320 ≤ w.target.toNat) ∧ (srcKind w.target.toNat ≠ .level ∨ (s.dev.source w.target.toNat).e = false) ∧ ((tget s.dev.wev {} c).src ≠ w.target.toNat ∨ (tget s.dev.wev {} c).latched = none)) ∧
    (let c : Fin 512 := 5; let w : ChWord := wW 430 0 0 (by decide); let u : Word := 77; let s : State := wCh (fun d => { d with wev := [(5, { src := 430, latched := some 77 })] });
     (ChFresh c s) ∧ (w.bare = true) ∧ (w.a = 0) ∧ (320 ≤ w.target.toNat) ∧ (srcKind w.target.toNat ≠ .level ∨ (s.dev.source w.target.toNat).e = false) ∧ ((tget s.dev.wev {} c).src = w.target.toNat) ∧ ((tget s.dev.wev {} c).latched = some u)) ∧
    (let c : Fin 512 := 5; let w : ChWord := wW 7 0 0 (by decide); let s : State := wCh (fun d => d);
     (ChFresh c s) ∧ (w.bare = true) ∧ (w.a = 0) ∧ (w.target.toNat < 320)) ∧
    (let c : Fin 512 := 5; let i : Nat := 430; let r : ChanRun := (wRun (.waitev 430) 0); let u : Word := 77; let s : State := wWait (.waitev 430) 0 (fun d => { d with wev := [(5, { waitSrc := some 430, raised := some 77 })] });
     (ChWaiting c (.waitev i) r s) ∧ ((tget s.dev.wev {} c).raised = some u)) ∧
    (let c : Fin 512 := 5; let w : ChWord := wW 2 0 3 (by decide); let v : Word := 10; let s : State := wCh (fun d => (d.wrB .tfbLbhStat 2 0 true).sramWrites 0x6AB000 [10]);
     (ChFresh c s) ∧ (w.bare = true) ∧ (w.target.toNat < 64) ∧ (inProgram (s.dev.chAddr c w) 1 = true) ∧ (decodeWord (s.dev.cell (s.dev.chAddr c w)) = .ok v) ∧ (s.dev.hasRing w.target.toNat = true) ∧ ((s.dev.lb w.target.toNat).nextS = 0) ∧ (s.dev.holds w.target.toNat = false)) ∧
    (let c : Fin 512 := 5; let h : Nat := 2; let v : P48 := 10; let r : ChanRun := (wRun (.bandwait 2 10) 0); let s : State := wWait (.bandwait 2 10) 0 (fun d => ((d.wrB .tfbLbhStat 2 0 true).setLb 2 { d.lb 2 with held := true }).wr .tfbLbhNewEnd 2 20);
     (ChWaiting c (.bandwait h v) r s) ∧ (s.dev.hasRing h = true) ∧ (s.dev.holds h = true) ∧ (atOrPast v (s.dev.hznPos h) = true) ∧ (atOrPast (s.dev.newEnd h) v = true)) ∧
    (let c : Fin 512 := 5; let h : Nat := 2; let v : P48 := 10; let r : ChanRun := (wRun (.bandwait 2 10) 0); let s : State := wWait (.bandwait 2 10) 0 (fun d => ((d.wrB .tfbLbhStat 2 0 true).setLb 2 { d.lb 2 with held := true, nextS := 4 }).wr .tfbLbhHznPos 2 20);
     (ChWaiting c (.bandwait h v) r s) ∧ (s.dev.hasRing h = true) ∧ ((s.dev.lb h).nextS ≠ 0) ∧ (atOrPast v (s.dev.hznPos h) = false)) ∧
    (let c : Fin 512 := 5; let h : Nat := 2; let v : P48 := 10; let r : ChanRun := (wRun (.bandwait 2 10) 0); let s : State := wWait (.bandwait 2 10) 0 id;
     (ChWaiting c (.bandwait h v) r s) ∧ (s.dev.hasRing h = false)) ∧
    (let c : Fin 512 := 5; let i : Nat := 430; let r : ChanRun := (wRun (.waitev 430) 3); let s : State := wWait (.waitev 430) 3 (fun d => { d with now := 3000000000 });
     (ChWaiting c (.waitev i) r s) ∧ (0 < r.w.count.toNat) ∧ (r.w.count.toNat * 1000 ≤ elapsed s.dev.now r.since)) ∧
    (let c : Fin 512 := 5; let a : Nat := 1; let v : P48 := 4000; let r : ChanRun := (wRun (.poswait 1 4000) 3); let s : State := wWait (.poswait 1 4000) 3 (fun d => { d with now := 3000000000 });
     (ChWaiting c (.poswait a v) r s) ∧ (0 < r.w.count.toNat) ∧ (r.w.count.toNat * 1000000 ≤ elapsed s.dev.now r.since)) ∧
    (let c : Fin 512 := 5; let h : Nat := 2; let v : P48 := 10; let r : ChanRun := (wRun (.bandwait 2 10) 3); let s : State := wWait (.bandwait 2 10) 3 (fun d => { d with now := 3000000000 });
     (ChWaiting c (.bandwait h v) r s) ∧ (0 < r.w.count.toNat) ∧ (r.w.count.toNat * 1000 ≤ elapsed s.dev.now r.since)) := by
  iterate 3 refine And.intro (by unfold ChFresh; decide +kernel) ?_
  iterate 2 refine And.intro (by unfold ChWaiting; decide +kernel) ?_
  iterate 4 refine And.intro (by unfold ChFresh; decide +kernel) ?_
  refine And.intro (by unfold ChWaiting; decide +kernel) ?_
  refine And.intro (by unfold ChFresh; decide +kernel) ?_
  iterate 5 refine And.intro (by unfold ChWaiting; decide +kernel) ?_
  unfold ChWaiting; decide +kernel

/-- Values that meet the hypotheses of every clause of Obligations.ChannelActions. -/
theorem witness_ChannelActions :
    (let c : Fin 512 := 5; let w : ChWord := wW 37 0 3 (by decide); let v : Word := 10000; let w1 : Word := 64; let s : State := wCh (fun d => (((d.wrB .sprAxnCtl 1 0 true).setAxis 1 { main := { st := .track, v := 42949673, p := 5000 } })).sramWrites 0x6AB000 [10000,64]);
     (ChFresh c s) ∧ (w.bare = true) ∧ (w.target.toNat < 128) ∧ (w.count = 0) ∧ (inProgram (s.dev.chAddr c w) 2 = true) ∧ (decodeWord (s.dev.cell (s.dev.chAddr c w)) = .ok v) ∧ (decodeWord (s.dev.cell (s.dev.chAddr c w + 1)) = .ok w1) ∧ (fld w1 47 20 = 0) ∧ (8 ≤ fld w1 11 0) ∧ (s.dev.ownerOf (.oneShot (w.target.toNat % 32)) = none) ∧ (s.dev.outGen (w.target.toNat % 32) = none) ∧ (s.dev.axisState (w.target.toNat / 32) ≠ .fault) ∧ (atOrPast (s.dev.axisPos (w.target.toNat / 32)) v = false)) ∧
    (let c : Fin 512 := 5; let w : ChWord := wW 37 0 3 (by decide); let v : Word := 3; let w1 : Word := 64; let s : State := wCh (fun d => (((d.wrB .sprAxnCtl 1 0 true).setAxis 1 { main := { st := .track, v := 42949673, p := 5000 } })).sramWrites 0x6AB000 [3,64]);
     (ChFresh c s) ∧ (w.bare = true) ∧ (w.target.toNat < 128) ∧ (w.count = 0) ∧ (inProgram (s.dev.chAddr c w) 2 = true) ∧ (decodeWord (s.dev.cell (s.dev.chAddr c w)) = .ok v) ∧ (decodeWord (s.dev.cell (s.dev.chAddr c w + 1)) = .ok w1) ∧ (fld w1 47 20 = 0) ∧ (8 ≤ fld w1 11 0) ∧ (s.dev.ownerOf (.oneShot (w.target.toNat % 32)) = none) ∧ (s.dev.outGen (w.target.toNat % 32) = none) ∧ (s.dev.axisState (w.target.toNat / 32) ≠ .fault) ∧ (atOrPast (s.dev.axisPos (w.target.toNat / 32)) v = true)) ∧
    (let c : Fin 512 := 5; let a : Nat := 1; let out : Nat := 5; let v : P48 := 4000; let w1 : Word := 64; let r : ChanRun := (wRun (.fire 1 5 4000 64 none) 0); let s : State := wWait (.fire 1 5 4000 64 none) 0 (fun d => (((d.wrB .sprAxnCtl 1 0 true).setAxis 1 { main := { st := .track, v := 42949673, p := 5000 } })));
     (ChWaiting c (.fire a out v w1 none) r s) ∧ (s.dev.axisState a = .track ∨ s.dev.axisState a = .coast) ∧ (s.dev.outGen out = none) ∧ (s.dev.axisReaches a v 16 = true) ∧ (s.dev.inService = true) ∧ (bit w1 13 = false)) ∧
    (let c : Fin 512 := 5; let a : Nat := 1; let out : Nat := 5; let v : P48 := 4000; let w1 : Word := 64; let u : Word := 9; let r : ChanRun := (wRun (.fire 1 5 4000 64 (some 9)) 0); let s : State := wWait (.fire 1 5 4000 64 (some 9)) 0 (fun d => { d with now := 9 });
     (ChWaiting c (.fire a out v w1 (some u)) r s) ∧ (atOrPast s.dev.now u = true)) ∧
    (let c : Fin 512 := 5; let a : Nat := 1; let out : Nat := 5; let v : P48 := 4000; let w1 : Word := 64; let r : ChanRun := (wRun (.fire 1 5 4000 64 none) 0); let s : State := wWait (.fire 1 5 4000 64 none) 0 (fun d => (((d.wrB .sprAxnCtl 1 0 true).setAxis 1 { main := { st := .acquire, v := 42949673, p := 5000 } })));
     (ChWaiting c (.fire a out v w1 none) r s) ∧ (s.dev.axisState a = .acquire) ∧ (s.dev.outGen out = none) ∧ (s.dev.axisReaches a v 0 = true) ∧ (s.dev.inService = true) ∧ (bit w1 13 = false)) ∧
    (let c : Fin 512 := 5; let a : Nat := 1; let out : Nat := 5; let v : P48 := 4000; let w1 : Word := 64; let r : ChanRun := (wRun (.fire 1 5 4000 64 none) 0); let s : State := wWait (.fire 1 5 4000 64 none) 0 (fun d => ((((d.wrB .sprAxnCtl 1 0 true).setAxis 1 { main := { st := .track, v := 42949673, p := 5000 } }))).wrF .ghdState 0 2 0 4);
     (ChWaiting c (.fire a out v w1 none) r s) ∧ (s.dev.outGen out = none) ∧ (s.dev.axisReaches a v 0 = true) ∧ (s.dev.inService = false)) ∧
    (let c : Fin 512 := 5; let a : Nat := 1; let out : Nat := 5; let v : P48 := 4000; let w1 : Word := 64; let r : ChanRun := (wRun (.fire 1 5 4000 64 none) 0); let s : State := wWait (.fire 1 5 4000 64 none) 0 (fun d => (((d.wrB .sprAxnCtl 1 0 true).setAxis 1 { main := { st := .fault, v := 42949673, p := 5000 } })));
     (ChWaiting c (.fire a out v w1 none) r s) ∧ (s.dev.axisState a = .fault)) ∧
    (let c : Fin 512 := 5; let a : Nat := 1; let out : Nat := 5; let v : P48 := 4000; let w1 : Word := 64; let r : ChanRun := (wRun (.fire 1 5 4000 64 none) 0); let s : State := wWait (.fire 1 5 4000 64 none) 0 (fun d => (d.wrB .sprTgnCfg 2 0 true).wr .sprTgnOut 2 69);
     (ChWaiting c (.fire a out v w1 none) r s) ∧ (s.dev.axisState a ≠ .fault) ∧ ((s.dev.outGen out).isSome = true)) ∧
    (let c : Fin 512 := 5; let w : ChWord := wW 3 1 3 (by decide); let v : Word := 10000; let w1 : Word := 65536; let s : State := wCh (fun d => ({ d.wrB .sprActkCfg 3 2 true with owners := [(.scheduler 3, 5)] } : Dev).sramWrites 0x6AB000 [10000,65536]);
     (ChFresh c s) ∧ (w.bare = true) ∧ (w.target.toNat < 16) ∧ (w.count = 1) ∧ (inProgram (s.dev.chAddr c w) 2 = true) ∧ (decodeWord (s.dev.cell (s.dev.chAddr c w)) = .ok v) ∧ (decodeWord (s.dev.cell (s.dev.chAddr c w + 1)) = .ok w1) ∧ (s.dev.ownerOf (.scheduler w.target.toNat) = some c.val) ∧ (s.dev.rdB .sprActkCfg w.target.toNat 2 = true) ∧ (s.dev.actQueue w.target.toNat = [])) ∧
    (let c : Fin 512 := 5; let w : ChWord := wW 9 4 0 (by decide); let s : State := wCh (fun d => (d.wrF .cxiHdhStat 9 2 0 3).setHead 9 { d.head 9 with tally := none });
     (ChFresh c s) ∧ (w.bare = true) ∧ (w.target.toNat < 64) ∧ (w.a = 0) ∧ (0 < w.count.toNat) ∧ (s.dev.ownerOf (.tally w.target.toNat) = none) ∧ ((s.dev.head w.target.toNat).tally = none) ∧ (s.dev.headState w.target.toNat = .run)) ∧
    (let c : Fin 512 := 5; let h : Nat := 9; let n : Nat := 1; let exits : Nat := 0; let l : List (Bool × Nat) := [(true, 3), (false, 0)]; let r : ChanRun := (wRun (.lines 9 1 0) 0); let s : State := wWait (.lines 9 1 0) 0 (fun d => d.setHead 9 { d.head 9 with tally := some [(true, 3), (false, 0)] });
     (ChWaiting c (.lines h n exits) r s) ∧ ((s.dev.head h).tally = some l) ∧ (n ≤ l.length)) ∧
    (let c : Fin 512 := 5; let h : Nat := 9; let n : Nat := 4; let exits : Nat := 0; let l : List (Bool × Nat) := [(true, 3), (false, 0)]; let r : ChanRun := (wRun (.lines 9 4 0) 0); let s : State := wWait (.lines 9 4 0) 0 (fun d => d.setHead 9 { d.head 9 with tally := some [(true, 3), (false, 0)], exits := 1 });
     (ChWaiting c (.lines h n exits) r s) ∧ ((s.dev.head h).tally = some l) ∧ (l.length < n) ∧ (exits < (s.dev.head h).exits)) ∧
    (let c : Fin 512 := 5; let h : Nat := 9; let n : Nat := 4; let exits : Nat := 0; let r : ChanRun := (wRun (.lines 9 4 0) 0); let s : State := wWait (.lines 9 4 0) 0 id;
     (ChWaiting c (.lines h n exits) r s) ∧ ((s.dev.tally h).length < n) ∧ (exits = (s.dev.head h).exits) ∧ (s.dev.headState h = .off)) ∧
    (let c : Fin 512 := 5; let w : ChWord := wW 9 2 3 (by decide); let m : MsgItem := { slot := 3, bytes := 8, trunc := true }; let l : List MsgItem := []; let ws : List Word := [wordOf (2 ^ 40 + 2 ^ 39 + 8), 66]; let n : Nat := 2; let s : State := wCh (fun d => { ((d.wrF .cxiHdhStat 9 2 0 3).setHead 9 { d.head 9 with msgs := [{ slot := 3, bytes := 8, trunc := true }] }).sramWrites (msgAddr 9 3) [wordOf (2 ^ 40 + 2 ^ 39 + 8), 66, 67] with owners := [(.msgFifo 9, 5)] });
     (ChFresh c s) ∧ (w.bare = true) ∧ (w.target.toNat < 64) ∧ (1 ≤ w.count.toNat) ∧ (s.dev.ownerOf (.msgFifo w.target.toNat) = some c.val) ∧ (s.dev.headUp w.target.toNat = true) ∧ ((s.dev.head w.target.toNat).msgs = m :: l) ∧ (n = min w.count.toNat (1 + (m.bytes + 5) / 6)) ∧ (inProgram (s.dev.chAddr c w) n = true) ∧ (s.dev.sramReads (msgAddr w.target.toNat m.slot) n = (ws, 0, s.dev)) ∧ (s.dev.rdB .edcInjCtl 0 8 = false) ∧ (memWf .blank s.dev.sram = true)) := by
  iterate 2 refine And.intro (by unfold ChFresh; decide +kernel) ?_
  iterate 6 refine And.intro (by unfold ChWaiting; decide +kernel) ?_
  iterate 2 refine And.intro (by unfold ChFresh; decide +kernel) ?_
  iterate 3 refine And.intro (by unfold ChWaiting; decide +kernel) ?_
  unfold ChFresh; decide +kernel

/-- Values that meet the hypotheses of every clause of Obligations.ChannelTransfers. -/
theorem witness_ChannelTransfers :
    (let c : Fin 512 := 5; let w : ChWord := wW 0 2 3 (by decide); let ws : List Word := [wordOf 0x800000, wordOf 0x6AC000, 0, 0]; let src : Nat := 0x800000; let dest : Nat := 0x6AC000; let n : Nat := 2; let s : State := wCh (fun d => d.sramWrites 0x6AB000 [wordOf 0x800000,wordOf 0x6AC000,0,0]);
     (ChFresh c s) ∧ (w.bare = true) ∧ (w.target = 0) ∧ (w.count.toNat = n) ∧ (0 < n) ∧ (s.dev.chRead (s.dev.chAddr c w) 4 = (.ok ws, s.dev)) ∧ (xferOf ws = { kind := 0, trailer := false, func := 0, source := src, dest := wordOf dest, haddr := 0, len := 0 }) ∧ (xferReserved false true ws = false) ∧ (dest < 0x7A1000) ∧ (inProgram dest n = true) ∧ (sourceOk src n = true) ∧ (s.dev.moverReq (.move c) = none)) ∧
    (let c : Fin 512 := 5; let w : ChWord := wW 0 0 3 (by decide); let ws : List Word := [1, 2, 3, 4, 5, 6, 0, wordOf 0x6AC000, 0, 0]; let s : State := wCh (fun d => d.sramWrites 0x6AB000 [1,2,3,4,5,6,0,wordOf 0x6AC000,0,0]);
     (ChFresh c s) ∧ (w.bare = true) ∧ (w.target = 0) ∧ (s.dev.chRead (s.dev.chAddr c w) 10 = (.ok ws, s.dev)) ∧ (xferReserved true true (ws.drop 6) = false) ∧ ((xferOf (ws.drop 6)).len ≤ 262144) ∧ ((xferOf (ws.drop 6)).kind = 0) ∧ (inProgram (xferOf (ws.drop 6)).dest.toNat 0 = true) ∧ ((xferOf (ws.drop 6)).dest.toNat < 0x7A1000)) ∧
    (let c : Fin 512 := 5; let src : Nat := 0x800000; let dest : Nat := 0x6AC000; let n : Nat := 2; let wet : Bool := true; let ws : List Word := [7, 8]; let q : MoverReq := { user := .move 5, words := 2, write := true, run := some { reader := 0, writer := some 0 } }; let r : ChanRun := (wRun (.move 0x800000 2) 2); let s : State := wWait (.move 0x800000 2) 2 (fun d => { ((d.setChan 5 { d.chan 5 with gather := some { dest := some (.sram 0x6AC000), trailer := false, n := 1, wet := true } }).sramWrites 0x800000 [7, 8]) with tmv := wTmv 2 });
     (ChWaiting c (.move src n) r s) ∧ (r.w.bare = true) ∧ (r.w.count.toNat = n) ∧ ((s.dev.chan c).gather = some { dest := some (.sram dest), trailer := false, n := 1, wet := wet }) ∧ (s.dev.moverReq (.move c) = some q) ∧ (q.run.isSome = true) ∧ ((q.words ≤ segmentWords ∨ s.dev.moverWaits = false)) ∧ (s.dev.hbc.xfer = []) ∧ (sramRegion src ≠ some 0) ∧ (ws.length = n) ∧ ((∀ i : Fin n, decodeWord (s.dev.cell (src + i)) = .ok (ws.getD i 0))) ∧ (inProgram dest n = true)) ∧
    (let c : Fin 512 := 5; let src : Nat := 0x800000; let n : Nat := 40000; let q : MoverReq := { user := .move 5, words := 40000, write := true, run := some { reader := 0, writer := some 0 } }; let r : ChanRun := (wRun (.move 0x800000 40000) 2); let s : State := wWait (.move 0x800000 40000) 2 (fun d => { d with tmv := { (wTmv 40000) with reqs := (wTmv 40000).reqs ++ [{ user := .query 3, words := 9, write := false }] } });
     (ChWaiting c (.move src n) r s) ∧ (s.dev.moverReq (.move c) = some q) ∧ (q.run.isSome = true) ∧ (segmentWords < q.words) ∧ (s.dev.moverWaits = true)) ∧
    (let c : Fin 512 := 5; let src : Nat := 0x800000; let n : Nat := 2; let r : ChanRun := (wRun (.move 0x800000 2) 2); let s : State := wWait (.move 0x800000 2) 2 id;
     (ChWaiting c (.move src n) r s) ∧ (s.dev.moverRun? (.move c) = none)) ∧
    (let c : Fin 512 := 5; let src : Nat := 0x800000; let n : Nat := 2; let r : ChanRun := (wRun (.move 0x800000 2) 2); let s : State := wWait (.move 0x800000 2) 2 (fun d => { d with tmv := { d.tmv with reqs := [{ user := .move 5, words := 2, write := true }] } });
     (ChWaiting c (.move src n) r s) ∧ (s.dev.moverRun? (.move c) = none)) ∧
    (let c : Fin 512 := 5; let id : Nat := 4; let dest : Nat := 0x6AC000; let wet : Bool := true; let q : QueryDone := { id := 4, words := [7, 8], status := 0, sub := 0 }; let r : ChanRun := (wRun (.query 4) 0); let s : State := wWait (.query 4) 0 (fun d => { (d.setChan 5 { d.chan 5 with gather := some { dest := some (.sram 0x6AC000), trailer := false, n := 1, wet := true } }) with ibx := { (d.setChan 5 { d.chan 5 with gather := some { dest := some (.sram 0x6AC000), trailer := false, n := 1, wet := true } }).ibx with done := [{ id := 4, words := [7, 8], status := 0, sub := 0 }] } });
     (ChWaiting c (.query id) r s) ∧ (r.w.bare = true) ∧ (r.w.count = 0) ∧ (s.dev.ibx.done.find? (fun (x : QueryDone) => x.id = id) = some q) ∧ (q.status = 0) ∧ ((s.dev.chan c).gather = some { dest := some (.sram dest), trailer := false, n := 1, wet := wet }) ∧ (inProgram dest q.words.length = true)) ∧
    (let c : Fin 512 := 5; let w : ChWord := wW 1 2 3 (by decide); let s : State := wCh (fun d => d);
     (ChFresh c s) ∧ (w.bare = true) ∧ (w.target.toNat < 2) ∧ (0 < w.count.toNat) ∧ (inProgram (s.dev.chAddr c w) (8 * w.count.toNat) = true) ∧ (s.dev.cex.jobEnds = []) ∧ (s.dev.cexCount (decide (w.target.toNat = 1)) = 0)) ∧
    (let c : Fin 512 := 5; let n : Nat := 2; let dest : Nat := 0x6AC000; let st : Nat := 0; let sub : Nat := 0; let tag : Nat := 9; let p : Nat := 3; let l : List (Nat × Nat × Nat × Nat) := []; let r : ChanRun := (wRun (.qtake true 2 0x6AC000) 0); let s : State := wWait (.qtake true 2 0x6AC000) 0 (fun d => { d with cex := { d.cex with jobEnds := [(3, 0, 0, 9)] } });
     (ChWaiting c (.qtake true n dest) r s) ∧ (s.dev.cex.jobEnds = (p, st, sub, tag) :: l) ∧ (s.dev.cexCount true = 0)) ∧
    (let c : Fin 512 := 5; let dest : Nat := 0x6AC000; let ws : List Word := [1, 2, 3, 4, 5, 6, 7, 8]; let r : ChanRun := (wRun (.qtake false 1 0x6AC000) 0); let s : State := wWait (.qtake false 1 0x6AC000) 0 (fun d => (d.wr .cexLqProd 0 1).sramWrites 0x955800 [1, 2, 3, 4, 5, 6, 7, 8]);
     (ChWaiting c (.qtake false 1 dest) r s) ∧ (r.w.dry = false) ∧ (0 < s.dev.cexCount false) ∧ (s.dev.sramReads (0x955800 + 8 * (s.dev.rdF .cexLqCons 0 12 0 % 4096)) 8 = (ws, 0, s.dev))) ∧
    (let c : Fin 512 := 5; let w : ChWord := wW 4 0 3 (by decide); let ws : List Word := [1, 2, 3, 4, 5, 6]; let s : State := wCh (fun d => d.sramWrites 0x6AB000 [1,2,3,4,5,6]);
     (ChFresh c s) ∧ (w.bare = true) ∧ (w.target.toNat < 16) ∧ (w.count = 0) ∧ (s.dev.chRead (s.dev.chAddr c w) 6 = (.ok ws, s.dev))) ∧
    (let c : Fin 512 := 5; let w : ChWord := wW 66 1 3 (by decide); let ws : List Word := [1, 2, 3, 4, 5, 0]; let s : State := wCh (fun d => ((d.wrF .hifFfCqcStat 66 24 23 1).wrB .hifFfStat 1 0 true).sramWrites 0x6AB000 [1,2,3,4,5,0]);
     (ChFresh c s) ∧ (w.bare = true) ∧ (w.target.toNat < 128) ∧ (w.count.toNat ≤ 256) ∧ (s.dev.cqState w.target.toNat = 1) ∧ (s.dev.chRead (s.dev.chAddr c w) (6 * w.count.toNat) = (.ok ws, s.dev)) ∧ ((postEntries w.count.toNat ws).1 = true) ∧ (s.dev.cqHeld w.target.toNat = 0) ∧ (w.count.toNat ≤ s.dev.cqRoom w.target.toNat)) := by
  iterate 2 refine And.intro (by unfold ChFresh; decide +kernel) ?_
  iterate 5 refine And.intro (by unfold ChWaiting; decide +kernel) ?_
  refine And.intro (by unfold ChFresh; decide +kernel) ?_
  iterate 2 refine And.intro (by unfold ChWaiting; decide +kernel) ?_
  refine And.intro (by unfold ChFresh; decide +kernel) ?_
  unfold ChFresh; decide +kernel

/-- Values that meet the hypotheses of every clause of Obligations.ChannelStates. -/
theorem witness_ChannelStates :
    (let c : Fin 512 := 5; let s : State := wCh (fun d => (d.wr .ibxChcStat 5 0).wr .ibxChcArg 5 99);
     (s.dev.powered = true) ∧ (s.dev.chOn c = true) ∧ ((s.dev.devState = .train ∨ s.dev.devState = .ready ∨ s.dev.devState = .run ∨ s.dev.devState = .degraded)) ∧ ((s.dev.chState c = 0 ∨ s.dev.chState c = 4)) ∧ (s.dev.rdF .ibxChcCfg c 20 0 < 1009664)) ∧
    (let c : Fin 512 := 5; let s : State := wCh (fun d => d);
     (s.dev.powered = true) ∧ (s.dev.chOn c = true) ∧ ((s.dev.chState c = 1 ∨ s.dev.chState c = 2 ∨ s.dev.chState c = 3 ∨ 1009664 ≤ s.dev.rdF .ibxChcCfg c 20 0 ∨ s.dev.devState = .boot ∨ s.dev.devState = .selftest ∨ s.dev.devState = .failed))) ∧
    (let c : Fin 512 := 5; let s : State := wCh (fun d => { d with owners := [(.scheduler 3, 5)] });
     (s.dev.powered = true) ∧ (s.dev.chOn c = true) ∧ ((s.dev.chState c = 1 ∨ s.dev.chState c = 3))) ∧
    (let c : Fin 512 := 5; let i : Nat := 430; let r : ChanRun := (wRun (.waitev 430) 0); let s : State := wWait (.waitev 430) 0 (fun d => d);
     (ChWaiting c (.waitev i) r s)) ∧
    (let c : Fin 512 := 5; let src : Nat := 0x800000; let n : Nat := 2; let r : ChanRun := (wRun (.move 0x800000 2) 2); let s : State := wWait (.move 0x800000 2) 2 (fun d => { d with tmv := { d.tmv with reqs := [{ user := .move 5, words := 2, write := true }] } });
     (ChWaiting c (.move src n) r s) ∧ (s.dev.moverRun? (.move c) = none)) ∧
    (let c : Fin 512 := 5; let s : State := wCh (fun d => d);
     (s.dev.powered = true) ∧ (s.dev.chOn c = true) ∧ (s.dev.chState c = 1)) ∧
    (let c : Fin 512 := 5; let src : Nat := 0x800000; let n : Nat := 2; let r : ChanRun := (wRun (.move 0x800000 2) 2); let s : State := wWait (.move 0x800000 2) 2 id;
     (ChWaiting c (.move src n) r s)) ∧
    (let c : Fin 512 := 5; let s : State := wCh (fun d => d.wr .ibxChcStat 5 4);
     (s.dev.chOn c = false ∨ s.dev.chState c = 0 ∨ s.dev.chState c = 4)) ∧
    (let c : Fin 512 := 5; let s : State := wCh (fun d => d.wr .ibxChcStat 5 4);
     (s.dev.chOn c = false ∨ (s.dev.chState c ≠ 1 ∧ s.dev.chState c ≠ 2))) ∧
    (let c : Fin 512 := 5; let s : State := wCh id;
     (s.dev.chOn c = false ∨ s.dev.chState c ≠ 3 ∨ s.dev.chReason c = 0 ∨ 4 ≤ s.dev.chReason c)) ∧
    (let c : Fin 512 := 5; let s : State := wCh id;
     (s.dev.chOn c = false ∨ s.dev.chState c ≠ 4)) ∧
    (let c : Fin 512 := 5; let i : Nat := 430; let r : ChanRun := (wRun (.waitev 430) 0); let s : State := wWait (.waitev 430) 0 (fun d => d);
     (ChWaiting c (.waitev i) r s)) ∧
    (let c : Fin 512 := 5; let s : State := wCh (fun d => d.wr .ibxChcStat 5 11);
     (s.dev.powered = true) ∧ (s.dev.chOn c = true) ∧ (s.dev.chState c = 3) ∧ ((s.dev.chReason c = 1 ∨ s.dev.chReason c = 2 ∨ s.dev.chReason c = 3))) ∧
    (let c : Fin 512 := 5; let s : State := wCh (fun d => d.wr .ibxChcStat 5 44);
     (s.dev.powered = true) ∧ (s.dev.chOn c = true) ∧ (s.dev.chState c = 4)) ∧
    (let c : Fin 512 := 5; let w : ChWord := { wW 0 0 0 (by decide) with last := true }; let s : State := wCh (fun d => { d with owners := [(.scheduler 3, 5)] });
     (ChFresh c s) ∧ (w.last = true) ∧ (w.rsv1 = 0) ∧ (w.rsv0 = 0) ∧ (w.hold = false) ∧ (w.note = false) ∧ (w.plain = true) ∧ (w.target = 0) ∧ (w.count = 0) ∧ (w.a = 0)) ∧
    (let c : Fin 512 := 5; let w : ChWord := { wW 0 0 0 (by decide) with hold := true }; let s : State := wCh (fun d => d);
     (ChFresh c s) ∧ (w.hold = true) ∧ ((s.dev.chan c).noHold = false) ∧ (w.rsv1 = 0) ∧ (w.rsv0 = 0) ∧ (w.plain = true) ∧ (w.target = 0) ∧ (w.count = 0) ∧ (w.a = 0)) ∧
    (let c : Fin 512 := 5; let w : ChWord := { wW 0 0 0 (by decide) with rsv0 := 3 }; let s : State := wCh (fun d => d);
     (ChFresh c s) ∧ ((w.rsv1 ≠ 0 ∨ w.rsv0 ≠ 0))) := by
  iterate 3 refine And.intro (by decide +kernel) ?_
  iterate 2 refine And.intro (by unfold ChWaiting; decide +kernel) ?_
  refine And.intro (by decide +kernel) ?_
  refine And.intro (by unfold ChWaiting; decide +kernel) ?_
  iterate 4 refine And.intro (by decide +kernel) ?_
  refine And.intro (by unfold ChWaiting; decide +kernel) ?_
  iterate 2 refine And.intro (by decide +kernel) ?_
  iterate 2 refine And.intro (by unfold ChFresh; decide +kernel) ?_
  unfold ChFresh; decide +kernel

end Tests.Ibx

namespace Tests.Isa

def wSp (l : List (Nat × Word)) : Proc := { pc := wordOf 0x6AA810, w := [(3, wordOf 0x6AB000), (4, 7), (5, 0xFFFFFFFFFFF0)], alt := [(3, 9)], sp := l }
def wCo (p : Proc) (f : Dev → Dev) : State := wState (fun d => f ((d.wr .ctlCorekCtl 1 4).setProc 1025 p))
def wRR (d a b : Nat) (n : Nat := 0) : RR := { d := Fin.ofNat 32 d, a := Fin.ofNat 32 a, b := Fin.ofNat 32 b, func := BitVec.ofNat 9 n, rsv := 0 }
def wRI (d a : Nat) (n : Nat) : RI := { d := Fin.ofNat 32 d, a := Fin.ofNat 32 a, imm := BitVec.ofNat 30 n }
def wCC (f : Dev → Dev) : State := wState (fun d => f ((d.wr .ibxChcStat 5 1).setProc 5 (wSp [])))

/-- Values that meet the hypotheses of every clause of Obligations.RegisterInstructions. -/
theorem witness_RegisterInstructions :
    (let x : Ctx := (.core 1); let f : RR := wRR 6 5 4; let a : Word := 0xFFFFFFFFFFF0; let b : Word := 7; let s : State := wCo (wSp []) (fun d => d);
     (IsaReady x s) ∧ (f.rsv = 0) ∧ (f.func = 0) ∧ (s.dev.gpr x f.a = a) ∧ (s.dev.gpr x f.b = b)) ∧
    (let x : Ctx := (.core 1); let f : RI := wRI 6 5 1073741821; let a : Word := 0xFFFFFFFFFFF0; let s : State := wCo (wSp []) (fun d => d);
     (IsaReady x s) ∧ (s.dev.gpr x f.a = a)) ∧
    (let x : Ctx := (.channel 5); let f : RI := wRI 6 5 9; let a : Word := 0xFFFFFFFFFFF0; let s : State := wCC (fun d => d);
     (IsaReady x s) ∧ (f.imm.toNat < 48) ∧ (s.dev.gpr x f.a = a)) ∧
    (let x : Ctx := (.channel 5); let f : RR := wRR 6 5 4; let a : Word := 0xFFFFFFFFFFF0; let b : Word := 7; let s : State := wCC (fun d => d);
     (IsaReady x s) ∧ (f.rsv = 0) ∧ (f.func = 0) ∧ (1 ≤ f.d.val) ∧ (f.d.val ≤ 30) ∧ (s.dev.gpr x f.a = a) ∧ (s.dev.gpr x f.b = b)) := by
  iterate 3 refine And.intro (by unfold IsaReady; decide +kernel) ?_
  unfold IsaReady; decide +kernel

/-- Values that meet the hypotheses of every clause of Obligations.RegisterZeroAndRepeat. -/
theorem witness_RegisterZeroAndRepeat :
    (let d : Fin 32 := 6; let i : Fin 32 := 4;
     (i ≠ d)) ∧
    (let d : Fin 32 := 6;
     (d ≠ 0)) ∧
    (let x : Ctx := (.core 1); let f : RepWord := { mode := 0, a := 0, imm := 4 }; let v : Word := wordOf 0x010000000000; let s : State := wCo (wSp []) (fun d => d.sramWrites 0x6AA811 [wordOf 0x010000000000]);
     (IsaReady x s) ∧ (f.mode = 0) ∧ (f.a = 0) ∧ (f.imm ≠ 0) ∧ (s.dev.fetchWord x ((s.dev.ctx x).pc + 1) = (none, v, s.dev)) ∧ (repForbidden (fld v 47 40) = false)) ∧
    (let x : Ctx := (.channel 5); let f : RepWord := { mode := 1, a := 9, imm := 0 }; let v : Word := wordOf 0x010000000000; let s : State := wCC (fun d => d.sramWrites 0x6AA811 [wordOf 0x010000000000]);
     (IsaReady x s) ∧ (f.mode = 1) ∧ (f.imm = 0) ∧ (s.dev.fetchWord x ((s.dev.ctx x).pc + 1) = (none, v, s.dev)) ∧ (repForbidden (fld v 47 40) = false) ∧ (s.dev.gpr x f.a = 0)) ∧
    (let x : Ctx := (.core 1); let f : RR := wRR 6 5 4; let n : Nat := 5; let s : State := wCo { wSp [] with rep := some 7 } (fun d => d);
     (s.dev.powered = true) ∧ (s.dev.ctxRuns x = true) ∧ (s.dev.inGather x = false) ∧ ((s.dev.ctx x).rep = some (n + 2)) ∧ (f.rsv = 0) ∧ (f.func = 0)) ∧
    (let x : Ctx := (.core 1); let f : RR := wRR 6 5 4; let s : State := wCo { wSp [] with rep := some 1 } (fun d => d);
     (s.dev.powered = true) ∧ (s.dev.ctxRuns x = true) ∧ (s.dev.inGather x = false) ∧ ((s.dev.ctx x).rep = some 1) ∧ (f.rsv = 0) ∧ (f.func = 0)) := by
  iterate 2 refine And.intro (by decide +kernel) ?_
  iterate 2 refine And.intro (by unfold IsaReady; decide +kernel) ?_
  refine And.intro (by decide +kernel) ?_
  decide +kernel

/-- Values that meet the hypotheses of every clause of Obligations.MemoryInstructions. -/
theorem witness_MemoryInstructions :
    (let x : Ctx := (.core 1); let f : RI := wRI 6 3 0; let ea : Word := 0x6AB000; let v : Word := 77; let s : State := wCo (wSp []) (fun d => d.sramWrites 0x6AB000 [77]);
     (IsaReady x s) ∧ (s.dev.gpr x f.a + f.imm.signExtend 48 = ea) ∧ (s.dev.accessFault x ea false true = none) ∧ ((sramRegion ea.toNat).isSome = true) ∧ (decodeWord (s.dev.cell ea.toNat) = .ok v)) ∧
    (let x : Ctx := (.core 1); let f : RI := wRI 4 3 2; let ea : Word := 0x6AB002; let s : State := wCo (wSp []) (fun d => d);
     (IsaReady x s) ∧ (s.dev.gpr x f.a + f.imm.signExtend 48 = ea) ∧ (s.dev.accessFault x ea true true = none) ∧ ((sramRegion ea.toNat).isSome = true) ∧ (s.dev.rdB .edcInjCtl 0 8 = false) ∧ (memWf .blank s.dev.sram = true)) ∧
    (let x : Ctx := (.core 1); let f : RI := wRI 4 7 0; let ea : Word := 0x1080100; let win : Nat := 8; let off : Nat := 256; let s : State := wCo { wSp [] with w := [(4, 9), (7, 0x1080100)] } (fun d => d);
     (IsaReady x s) ∧ (s.dev.gpr x f.a + f.imm.signExtend 48 = ea) ∧ (s.dev.accessFault x ea true true = none) ∧ (dasArea ea.toNat = .reg win off)) ∧
    (let x : Ctx := (.core 1); let f : RI := wRI 6 5 16; let ea : Word := 0xA55810; let e : Nat × Nat := (33, 7); let s : State := wCo { wSp [] with w := [(5, 0xA55800)] } (fun d => d);
     (IsaReady x s) ∧ (s.dev.gpr x f.a + f.imm.signExtend 48 = ea) ∧ (s.dev.accessFault x ea false true = some e)) ∧
    (let x : Ctx := (.channel 5); let f : RI := wRI 6 5 0; let ea : Word := 0xFFFFFFFFFFF0; let e : Nat × Nat := (33, 0); let s : State := wCC (fun d => d);
     (IsaReady x s) ∧ (s.dev.gpr x f.a + f.imm.signExtend 48 = ea) ∧ (s.dev.accessFault x ea true true = some e)) ∧
    (let x : Ctx := (.core 1); let f : RR := wRR 6 3 0 1; let ea : Word := 0x6AB000; let v : Word := 0x050403020100; let lane : Nat := 1; let s : State := wCo (wSp []) (fun d => d.sramWrites 0x6AB000 [0x050403020100]);
     (IsaReady x s) ∧ (f.rsv = 0) ∧ (f.func.toNat = lane) ∧ (s.dev.gpr x f.a + s.dev.gpr x f.b = ea) ∧ (s.dev.accessFault x ea false false = none) ∧ ((sramRegion ea.toNat).isSome = true) ∧ (decodeWord (s.dev.cell ea.toNat) = .ok v)) ∧
    (let x : Ctx := (.core 1); let f : RR := wRR 4 3 0 1; let ea : Word := 0x6AB000; let v : Word := 0x050403020100; let lane : Nat := 1; let s : State := wCo (wSp []) (fun d => d.sramWrites 0x6AB000 [0x050403020100]);
     (IsaReady x s) ∧ (f.rsv = 0) ∧ (f.func.toNat = lane) ∧ (s.dev.gpr x f.a + s.dev.gpr x f.b = ea) ∧ (s.dev.accessFault x ea true false = none) ∧ ((sramRegion ea.toNat).isSome = true) ∧ (decodeWord (s.dev.cell ea.toNat) = .ok v) ∧ (s.dev.rdB .edcInjCtl 0 8 = false) ∧ (memWf .blank s.dev.sram = true)) ∧
    (let x : Ctx := (.core 1); let f : RI := wRI 6 3 2; let ea : Word := 0x6AB000; let v : Word := 77; let s : State := wCo (wSp []) (fun d => d.sramWrites 0x6AB000 [77]);
     (IsaReady x s) ∧ (f.a ≠ 0) ∧ (f.d ≠ 0) ∧ (f.d ≠ f.a) ∧ (s.dev.gpr x f.a = ea) ∧ (s.dev.accessFault x ea false true = none) ∧ ((sramRegion ea.toNat).isSome = true) ∧ (decodeWord (s.dev.cell ea.toNat) = .ok v)) ∧
    (let x : Ctx := (.core 1); let f : RI := wRI 4 3 2; let ea : Word := 0x6AB000; let s : State := wCo (wSp []) (fun d => d);
     (IsaReady x s) ∧ (f.a ≠ 0) ∧ (s.dev.gpr x f.a = ea) ∧ (s.dev.accessFault x ea true true = none) ∧ ((sramRegion ea.toNat).isSome = true) ∧ (s.dev.rdB .edcInjCtl 0 8 = false) ∧ (memWf .blank s.dev.sram = true)) ∧
    (let x : Ctx := (.core 1); let f : RR := wRR 0 3 8; let a : Word := 0x6AB000; let b : Word := 0x6AB010; let v : Word := 77; let s : State := wCo { wSp [] with w := [(3, wordOf 0x6AB000), (8, wordOf 0x6AB010)] } (fun d => d.sramWrites 0x6AB010 [77]);
     (IsaReady x s) ∧ (f.rsv = 0) ∧ (f.func = 0) ∧ (f.d = 0) ∧ (f.a ≠ 0) ∧ (f.b ≠ 0) ∧ (f.a ≠ f.b) ∧ (s.dev.gpr x f.a = a) ∧ (s.dev.gpr x f.b = b) ∧ (s.dev.accessFault x b false true = none) ∧ (s.dev.accessFault x a true true = none) ∧ ((sramRegion a.toNat).isSome = true) ∧ ((sramRegion b.toNat).isSome = true) ∧ (decodeWord (s.dev.cell b.toNat) = .ok v) ∧ (s.dev.rdB .edcInjCtl 0 8 = false) ∧ (memWf .blank s.dev.sram = true)) ∧
    (let x : Ctx := (.core 1); let f : RR := wRR 4 3 0; let a : Word := 0x6AB000; let s : State := wCo (wSp []) (fun d => d);
     (IsaReady x s) ∧ (f.rsv = 0) ∧ (f.func = 0) ∧ (f.b = 0) ∧ (s.dev.gpr x f.a = a) ∧ (s.dev.accessFault x a true true = none) ∧ ((sramRegion a.toNat).isSome = true) ∧ (s.dev.rdB .edcInjCtl 0 8 = false) ∧ (memWf .blank s.dev.sram = true)) ∧
    (let x : Ctx := (.core 1); let f : RR := wRR 4 3 0; let a : Word := 0x6AB000; let v : Word := 77; let s : State := wCo (wSp []) (fun d => d.sramWrites 0x6AB000 [77]);
     (IsaReady x s) ∧ (f.rsv = 0) ∧ (f.func = 0) ∧ (f.b = 0) ∧ (f.a ≠ 0) ∧ (f.d ≠ 0) ∧ (f.a ≠ f.d) ∧ (s.dev.gpr x f.a = a) ∧ (s.dev.accessFault x a false true = none) ∧ ((sramRegion a.toNat).isSome = true) ∧ (decodeWord (s.dev.cell a.toNat) = .ok v)) ∧
    (let x : Ctx := (.core 1); let f : RR := wRR 0 0 0; let s : State := wCo (wSp []) (fun d => d);
     (IsaReady x s) ∧ (f.rsv = 0) ∧ (f.func = 0) ∧ (f.d = 0) ∧ (f.a = 0) ∧ (f.b = 0)) := by
  iterate 12 refine And.intro (by unfold IsaReady; decide +kernel) ?_
  unfold IsaReady; decide +kernel

/-- Values that meet the hypotheses of every clause of Obligations.AtomicInstructions. -/
theorem witness_AtomicInstructions :
    (let x : Ctx := (.core 1); let f : RR := wRR 4 3 5; let ea : Word := 0x6AB000; let v : Word := 9; let s : State := wCo (wSp []) (fun d => d.sramWrites 0x6AB000 [9]);
     (IsaReady x s) ∧ (f.rsv = 0) ∧ (f.func = 0) ∧ (s.dev.gpr x f.a = ea) ∧ (s.dev.accessFault x ea true false = none) ∧ ((sramRegion ea.toNat).isSome = true) ∧ (decodeWord (s.dev.cell ea.toNat) = .ok v) ∧ (s.dev.rdB .edcInjCtl 0 8 = false) ∧ (memWf .blank s.dev.sram = true)) ∧
    (let x : Ctx := (.core 1); let f : RR := wRR 4 3 5; let ea : Word := 0x6AB000; let v : Word := 9; let s : State := wCo (wSp []) (fun d => d.sramWrites 0x6AB000 [9]);
     (IsaReady x s) ∧ (f.rsv = 0) ∧ (f.func = 0) ∧ (s.dev.gpr x f.a = ea) ∧ (s.dev.accessFault x ea true false = none) ∧ ((sramRegion ea.toNat).isSome = true) ∧ (decodeWord (s.dev.cell ea.toNat) = .ok v) ∧ (v ≠ s.dev.gpr x f.d)) := by
  refine And.intro (by unfold IsaReady; decide +kernel) ?_
  unfold IsaReady; decide +kernel

/-- Values that meet the hypotheses of every clause of Obligations.JumpsAndReads. -/
theorem witness_JumpsAndReads :
    (let x : Ctx := (.core 1); let f : RI := wRI 6 0 0x3FFFFFF0; let s : State := wCo (wSp []) (fun d => d);
     (IsaReady x s) ∧ (f.a = 0)) ∧
    (let x : Ctx := (.core 1); let s : State := wCo (wSp []) (fun d => d);
     (IsaReady x s)) ∧
    (let x : Ctx := (.core 1); let f : CB := { cond := 0, a := 5, b := 4, off := 20 }; let a : Word := 0xFFFFFFFFFFF0; let b : Word := 7; let c : Bool := false; let s : State := wCo (wSp []) (fun d => d);
     (IsaReady x s) ∧ (s.dev.gpr x f.a = a) ∧ (s.dev.gpr x f.b = b) ∧ ((f.cond.val, c) ∈ [(0, decide (a = b)), (1, decide (a ≠ b)), (2, decide (a.toInt < b.toInt)), (3, decide (b.toInt ≤ a.toInt)), (4, decide (a < b)), (5, decide (b ≤ a)), (6, decide (0 ≤ (a - b).toInt)), (7, decide ((a - b).toInt < 0)), (8, decide (a &&& b ≠ 0)), (9, decide (a &&& b = 0))])) ∧
    (let x : Ctx := (.core 1); let f : CB := { cond := 1, a := 5, b := 4, off := 20 }; let a : Word := 0xFFFFFFFFFFF0; let b : Word := 7; let c : Bool := true; let s : State := wCo (wSp []) (fun d => d);
     (IsaReady x s) ∧ (s.dev.gpr x f.a = a) ∧ (s.dev.gpr x f.b = b) ∧ ((f.cond.val, c) ∈ [(0, decide (a = b)), (1, decide (a ≠ b)), (2, decide (a.toInt < b.toInt)), (3, decide (b.toInt ≤ a.toInt)), (4, decide (a < b)), (5, decide (b ≤ a)), (6, decide (0 ≤ (a - b).toInt)), (7, decide ((a - b).toInt < 0)), (8, decide (a &&& b ≠ 0)), (9, decide (a &&& b = 0))])) ∧
    (let x : Ctx := (.core 1); let f : CB := { cond := 14, a := 0, b := 0, off := 20 }; let s : State := wCo (wSp []) (fun d => d);
     (IsaReady x s) ∧ (f.cond = 14) ∧ (f.a = 0) ∧ (f.b = 0)) ∧
    (let x : Ctx := (.core 1); let f : CB := { cond := 12, a := 3, b := 8, off := 20 }; let a : Word := 0x400800000000; let b : Word := 0x3FF000000001; let s : State := wCo { wSp [] with w := [(3, 0x400800000000), (8, 0x3FF000000001)] } (fun d => d);
     (IsaReady x s) ∧ (isControl x = true) ∧ (s.dev.gpr x f.a = a) ∧ (s.dev.gpr x f.b = b) ∧ (10 ≤ f.cond.val) ∧ (f.cond.val ≤ 13)) ∧
    (let x : Ctx := (.core 1); let f : CBI := { cond := 14, a := 0, imm := 0, off := 20 }; let s : State := wCo (wSp []) (fun d => d);
     (IsaReady x s) ∧ (f.cond = 14) ∧ (f.a = 0) ∧ (f.imm = 0)) ∧
    (let x : Ctx := (.core 1); let f : CBI := { cond := 0, a := 5, imm := 7, off := 20 }; let a : Word := 0xFFFFFFFFFFF0; let b : Word := 7; let c : Bool := false; let s : State := wCo (wSp []) (fun d => d);
     (IsaReady x s) ∧ (s.dev.gpr x f.a = a) ∧ (f.imm.signExtend 48 = b) ∧ ((f.cond.val, c) ∈ [(0, decide (a = b)), (1, decide (a ≠ b)), (2, decide (a.toInt < b.toInt)), (3, decide (b.toInt ≤ a.toInt)), (4, decide (a < b)), (5, decide (b ≤ a)), (6, decide (0 ≤ (a - b).toInt)), (7, decide ((a - b).toInt < 0))])) ∧
    (let x : Ctx := (.core 1); let f : CBI := { cond := 1, a := 5, imm := 7, off := 20 }; let a : Word := 0xFFFFFFFFFFF0; let b : Word := 7; let c : Bool := true; let s : State := wCo (wSp []) (fun d => d);
     (IsaReady x s) ∧ (s.dev.gpr x f.a = a) ∧ (f.imm.signExtend 48 = b) ∧ ((f.cond.val, c) ∈ [(0, decide (a = b)), (1, decide (a ≠ b)), (2, decide (a.toInt < b.toInt)), (3, decide (b.toInt ≤ a.toInt)), (4, decide (a < b)), (5, decide (b ≤ a)), (6, decide (0 ≤ (a - b).toInt)), (7, decide ((a - b).toInt < 0))])) ∧
    (let x : Ctx := (.core 1); let f : CBI := { cond := 9, a := 5, imm := 7, off := 20 }; let s : State := wCo (wSp []) (fun d => d);
     (IsaReady x s) ∧ ((f.cond = 8 ∨ f.cond = 9)) ∧ (f.imm.toNat < 48)) ∧
    (let x : Ctx := (.core 1); let f : RI := wRI 6 0 1; let s : State := wCo (wSp []) (fun d => d);
     (IsaReady x s) ∧ (f.a = 0) ∧ (f.imm.toNat < 4) ∧ (s.dev.regOn .sprAxnPos f.imm.toNat = true)) ∧
    (let x : Ctx := (.core 1); let f : RI := wRI 6 0 1; let s : State := wCo (wSp []) (fun d => d);
     (IsaReady x s) ∧ (f.a = 0) ∧ (f.imm.toNat < 4) ∧ (s.dev.regOn .sprAxnVel f.imm.toNat = true)) ∧
    (let x : Ctx := (.core 1); let f : RI := wRI 6 0 0; let s : State := wCo (wSp []) (fun d => d);
     (IsaReady x s) ∧ (f.a = 0) ∧ (f.imm = 0)) ∧
    (let x : Ctx := (.core 1); let f : RR := wRR 6 4 5 8; let s : State := wCo (wSp []) (fun d => d);
     (IsaReady x s) ∧ (f.rsv = 0) ∧ (1 ≤ f.func.toNat) ∧ (f.func.toNat ≤ 48)) ∧
    (let x : Ctx := (.core 1); let s : State := wCo (wSp []) (fun d => d);
     (s.dev.powered = true) ∧ (s.dev.ctxRuns x = true) ∧ ((s.dev.ctx x).rep = none)) := by
  iterate 14 refine And.intro (by unfold IsaReady; decide +kernel) ?_
  decide +kernel

/-- Values that meet the hypotheses of every clause of Obligations.FloatInstructions. -/
theorem witness_FloatInstructions :
    (let x : Ctx := (.core 1); let f : RR := wRR 6 3 0 3; let a : Word := 0x400800000000; let b : Word := 0; let d : Word := 0; let m : RMode := .rup; let s : State := wCo { wSp [] with w := [(3, 0x400800000000), (8, 0x3FF000000001)] } (fun d => d);
     (IsaReady x s) ∧ (isControl x = true) ∧ (f.rsv = 0) ∧ (s.dev.gpr x f.a = a) ∧ (s.dev.gpr x f.b = b) ∧ (s.dev.gpr x f.d = d) ∧ ((f.func.toNat, m) ∈ [(0, rmode (fld ((s.dev.ctx x).special 10) 6 5)), (1, .rne), (2, .rtz), (3, .rup), (4, .rdn)])) ∧
    (let x : Ctx := (.core 1); let f : RR := wRR 6 5 0 9; let a : Word := 0xFFFFFFFFFFF0; let m : RMode := .rne; let s : State := wCo (wSp []) (fun d => d);
     (IsaReady x s) ∧ (isControl x = true) ∧ (f.rsv = 0) ∧ (f.b = 0) ∧ (s.dev.gpr x f.a = a) ∧ ((f.func.toNat, m) ∈ [(8, rmode (fld ((s.dev.ctx x).special 10) 6 5)), (9, .rne), (10, .rtz), (11, .rup), (12, .rdn)])) ∧
    (let x : Ctx := (.core 1); let f : RR := wRR 6 5 4; let a : Word := 0xFFFFFFFFFFF0; let b : Word := 7; let s : State := wCo (wSp []) (fun d => d);
     (IsaReady x s) ∧ (isControl x = true) ∧ (f.rsv = 0) ∧ (f.func = 0) ∧ (s.dev.gpr x f.a = a) ∧ (s.dev.gpr x f.b = b)) ∧
    (let x : Ctx := (.core 1); let f : RR := wRR 6 5 4 2; let a : Word := 0xFFFFFFFFFFF0; let b : Word := 7; let c : Bool := false; let s : State := wCo (wSp []) (fun d => d);
     (IsaReady x s) ∧ (isControl x = true) ∧ (f.rsv = 0) ∧ (s.dev.gpr x f.a = a) ∧ (s.dev.gpr x f.b = b) ∧ (((f.func = 0 ∧ f.b = 0 ∧ c = !bit a 47) ∨ (f.func = 1 ∧ f.b = 0 ∧ c = false) ∨ (f.func = 2 ∧ c = bit b 47)))) ∧
    (let x : Ctx := (.core 1); let f : RR := wRR 6 5 0; let s : State := wCo (wSp []) (fun d => d);
     (IsaReady x s) ∧ (isControl x = true) ∧ (f.rsv = 0) ∧ (f.func = 0) ∧ (f.b = 0)) ∧
    (let c : Fin 512 := 5; let f : RR := wRR 6 5 4; let s : State := wCC (fun d => d); let i : Instr := .isaFmul (.channel 5) (wRR 6 5 4);
     (IsaReady (.channel c) s) ∧ (i ∈ [.isaFadd (.channel c) f, .isaFsub (.channel c) f, .isaFmul (.channel c) f, .isaFdiv (.channel c) f, .isaFsqrt (.channel c) f, .isaFma (.channel c) f, .isaFmin (.channel c) f, .isaFmax (.channel c) f, .isaItof (.channel c) f, .isaFtoi (.channel c) f, .isaFsgn (.channel c) f, .isaFclass (.channel c) f])) := by
  iterate 5 refine And.intro (by unfold IsaReady; decide +kernel) ?_
  unfold IsaReady; decide +kernel

/-- Values that meet the hypotheses of every clause of Obligations.SystemInstructions. -/
theorem witness_SystemInstructions :
    (let x : Ctx := (.core 1); let f : RI := wRI 6 0 8; let s : State := wCo (wSp [(8, 55)]) (fun d => d);
     (IsaReady x s) ∧ (isControl x = true) ∧ (f.a = 0) ∧ (f.imm.toNat ≤ 17)) ∧
    (let x : Ctx := (.core 1); let f : RI := wRI 6 0 0; let s : State := wCo (wSp []) (fun d => d);
     (IsaReady x s) ∧ (isControl x = true) ∧ (f.a = 0) ∧ (f.imm.toNat ≤ 17)) ∧
    (let x : Ctx := (.core 1); let f : RI := wRI 0 5 16; let s : State := wCo (wSp [(8, 55)]) (fun d => d);
     (IsaReady x s) ∧ (isControl x = true) ∧ (f.d = 0) ∧ (f.imm = 0 ∨ f.imm = 16) ∧ (bit (s.dev.ctx x).status 4 = false)) ∧
    (let x : Ctx := (.core 1); let f : RI := wRI 0 5 8; let m : Word := 0xFFFFFFFFFF; let s : State := wCo (wSp []) (fun d => d);
     (IsaReady x s) ∧ (isControl x = true) ∧ (f.d = 0) ∧ (f.imm.toNat ≤ 17) ∧ (f.imm.toNat ≠ 1) ∧ (specialMask f.imm.toNat = some m)) ∧
    (let x : Ctx := (.core 1); let f : RI := wRI 0 4 1; let s : State := wCo (wSp []) (fun d => d);
     (IsaReady x s) ∧ (isControl x = true) ∧ (f.d = 0) ∧ (f.imm = 1)) ∧
    (let x : Ctx := (.core 1); let f : RR := wRR 0 0 0; let s : State := wCo (wSp [(1, 0x18), (2, 55), (3, 2)]) (fun d => d);
     (IsaReady x s) ∧ (isControl x = true) ∧ (f.rsv = 0) ∧ (f.func = 0) ∧ (f.d = 0) ∧ (f.a = 0) ∧ (f.b = 0) ∧ (bit (s.dev.ctx x).status 3 = true) ∧ (bit ((s.dev.ctx x).special 3) 5 = false)) ∧
    (let x : Ctx := (.core 1); let f : RR := wRR 0 0 0; let s : State := wCo (wSp [(1, 4), (4, 55), (5, 0x22), (12, 8)]) (fun d => d);
     (IsaReady x s) ∧ (isControl x = true) ∧ (f.rsv = 0) ∧ (f.func = 0) ∧ (f.d = 0) ∧ (f.a = 0) ∧ (f.b = 0) ∧ (bit (s.dev.ctx x).status 3 = false) ∧ (bit (s.dev.ctx x).status 2 = true) ∧ (bit ((s.dev.ctx x).special 5) 5 = true) ∧ ((s.dev.ctx x).special 12 ≠ 0)) ∧
    (let x : Ctx := (.core 1); let f : RR := wRR 0 0 0; let s : State := wCo (wSp [(8, 55)]) (fun d => d);
     (IsaReady x s) ∧ (isControl x = true) ∧ (f.rsv = 0) ∧ (f.func = 0) ∧ (f.d = 0) ∧ (f.a = 0) ∧ (f.b = 0) ∧ (bit (s.dev.ctx x).status 3 = false) ∧ (bit (s.dev.ctx x).status 2 = false) ∧ (bit (s.dev.ctx x).status 4 = false)) ∧
    (let x : Ctx := (.core 1); let f : RR := wRR 0 0 0; let s : State := wCo (wSp []) (fun d => (d.wrF .evcQqProd 2 8 0 1).wrF .evcQqProd 3 8 0 1);
     (IsaReady x s) ∧ (isControl x = true) ∧ (f.rsv = 0) ∧ (f.func = 0) ∧ (f.d = 0) ∧ (f.a = 0) ∧ (f.b = 0) ∧ (s.dev.hasRecord x = true)) ∧
    (let k : Fin 4 := 1; let f : RR := wRR 0 0 0; let s : State := wCo (wSp []) (fun d => d);
     (IsaReady (.core k) s) ∧ (f.rsv = 0) ∧ (f.func = 0) ∧ (f.d = 0) ∧ (f.a = 0) ∧ (f.b = 0) ∧ (s.dev.hasRecord (.core k) = false)) ∧
    (let f : RR := wRR 0 0 0; let s : State := wState id;
     (IsaReady .goatherd s) ∧ (f.rsv = 0) ∧ (f.func = 0) ∧ (f.d = 0) ∧ (f.a = 0) ∧ (f.b = 0) ∧ (s.dev.hasRecord .goatherd = false)) ∧
    (let x : Ctx := (.core 1); let s : State := wCo (wSp []) (fun d => d);
     (s.dev.isWaiting x = false ∨ s.dev.hasRecord x = false)) ∧
    (let x : Ctx := (.core 1); let s : State := wCo (wSp []) (fun d => (((d.wrF .evcQqProd 2 8 0 1).wrF .evcQqProd 3 8 0 1).wr .ctlCorekCtl 1 8));
     (s.dev.powered = true) ∧ (s.dev.isWaiting x = true) ∧ (s.dev.hasRecord x = true)) ∧
    (let x : Ctx := (.core 1); let f : RR := wRR 6 3 0; let s : State := wCo (wSp []) (fun d => d);
     (IsaReady x s) ∧ (isControl x = true) ∧ (f.rsv = 0) ∧ (f.func = 0) ∧ (f.b = 0)) ∧
    (let x : Ctx := (.core 1); let f : RR := wRR 6 4 0; let s : State := wCo (wSp []) (fun d => d);
     (IsaReady x s) ∧ (isControl x = true) ∧ (f.rsv = 0) ∧ (f.func = 0) ∧ (f.b = 0)) ∧
    (let x : Ctx := (.core 1); let f : RI := wRI 0 0 5; let s : State := wCo (wSp [(8, 55)]) (fun d => d);
     (IsaReady x s) ∧ (isControl x = true) ∧ (f.d = 0) ∧ (f.a = 0) ∧ (bit (s.dev.ctx x).status 4 = false)) := by
  iterate 11 refine And.intro (by unfold IsaReady; decide +kernel) ?_
  iterate 2 refine And.intro (by decide +kernel) ?_
  iterate 2 refine And.intro (by unfold IsaReady; decide +kernel) ?_
  unfold IsaReady; decide +kernel

/-- Values that meet the hypotheses of every clause of Obligations.TrapsAndFaults. -/
theorem witness_TrapsAndFaults :
    (let x : Ctx := (.core 1); let s : State := wCo { wSp [(1, 2), (9, 55)] with rep := some 3 } (fun d => (d.wrF .evcQqProd 2 8 0 1).wrF .evcQqProd 3 8 0 1);
     (s.dev.powered = true) ∧ (isControl x = true) ∧ (s.dev.ctxRuns x = true) ∧ (bit (s.dev.ctx x).status 1 = true) ∧ (s.dev.queueEmpty (2 * ctxTarget x + 1) = false)) ∧
    (let x : Ctx := (.core 1); let s : State := wCo (wSp [(1, 1), (8, 55)]) (fun d => (d.wrF .evcQqProd 2 8 0 1).wrF .evcQqProd 3 8 0 1);
     (s.dev.powered = true) ∧ (isControl x = true) ∧ (s.dev.ctxRuns x = true) ∧ (bit (s.dev.ctx x).status 0 = true) ∧ (bit (s.dev.ctx x).status 1 = false) ∧ (bit (s.dev.ctx x).status 4 = false) ∧ (s.dev.queueEmpty (2 * ctxTarget x) = false)) ∧
    (let k : Fin 4 := 1; let w : Word := 0xE00000000000; let s : State := wCo (wSp [(8, 55)]) (fun d => d);
     (IsaReady (.core k) s) ∧ (opcodeDefined (fld w 47 40) = false) ∧ (¬(0xC0 ≤ fld w 47 40 ∧ fld w 47 40 ≤ 0xDF)) ∧ (bit (s.dev.ctx (.core k)).status 4 = false)) ∧
    (let c : Fin 512 := 5; let w : Word := 0xE00000000000; let s : State := wCC (fun d => d);
     (IsaReady (.channel c) s) ∧ (opcodeDefined (fld w 47 40) = false)) ∧
    (let x : Ctx := (.core 1); let s : State := wCo (wSp []) (fun d => d);
     (isControl x = false ∨ s.dev.ctxRuns x = false ∨ bit (s.dev.ctx x).status 1 = false ∨ s.dev.queueEmpty (2 * ctxTarget x + 1) = true)) ∧
    (let x : Ctx := (.channel 5); let s : State := wCC (fun d => d);
     (isControl x = false ∨ s.dev.ctxRuns x = false ∨ bit (s.dev.ctx x).status 1 = false ∨ s.dev.queueEmpty (2 * ctxTarget x + 1) = true)) ∧
    (let x : Ctx := (.core 1); let s : State := wCo (wSp []) (fun d => d);
     (isControl x = false ∨ s.dev.ctxRuns x = false ∨ bit (s.dev.ctx x).status 0 = false ∨ s.dev.queueEmpty (2 * ctxTarget x) = true)) ∧
    (let x : Ctx := (.channel 5); let s : State := wCC (fun d => d);
     (isControl x = false ∨ s.dev.ctxRuns x = false ∨ bit (s.dev.ctx x).status 0 = false ∨ s.dev.queueEmpty (2 * ctxTarget x) = true)) ∧
    (let c : Fin 512 := 5; let f : RR := wRR 0 0 0 3; let s : State := wCC (fun d => d);
     (IsaReady (.channel c) s) ∧ (f.rsv ≠ 0 ∨ f.func ≠ 0)) ∧
    (let c : Fin 512 := 5; let f : RI := wRI 6 5 48; let s : State := wCC (fun d => d);
     (IsaReady (.channel c) s) ∧ (48 ≤ f.imm.toNat)) ∧
    (let c : Fin 512 := 5; let f : RR := wRR 0 0 0 3; let s : State := wCC (fun d => d.setChan 5 { d.chan 5 with skip := true });
     (s.dev.powered = true) ∧ (s.dev.ctxRuns (.channel c) = true) ∧ (s.dev.inGather (.channel c) = true) ∧ ((s.dev.proc c).rep = none) ∧ (f.rsv ≠ 0 ∨ f.func ≠ 0)) ∧
    (let c : Fin 512 := 5; let f : RR := wRR 0 0 0 0; let s : State := wCC (fun d => d.setChan 5 { d.chan 5 with skip := true });
     (s.dev.powered = true) ∧ (s.dev.ctxRuns (.channel c) = true) ∧ (s.dev.inGather (.channel c) = true) ∧ ((s.dev.proc c).rep = none) ∧ (f.rsv = 0) ∧ (f.func = 0)) ∧
    (let x : Ctx := (.core 1);
     (isControl x = true)) ∧
    (let w : Word := 0xE00000000000;
     (opcodeDefined (fld w 47 40) = false)) ∧
    (let x : Ctx := (.core 1); let f : RR := wRR 0 0 0 3; let s : State := wCo (wSp [(8, 55)]) (fun d => d);
     (IsaReady x s) ∧ (isControl x = true) ∧ (f.rsv ≠ 0 ∨ f.func ≠ 0) ∧ (bit (s.dev.ctx x).status 4 = false)) ∧
    (let c : Fin 512 := 5; let s : State := wCC (fun d => d);
     (IsaReady (.channel c) s)) ∧
    (let k : Fin 4 := 1; let s : State := wCo (wSp [(1, 16)]) (fun d => d);
     (IsaReady (.core k) s) ∧ (bit (s.dev.ctx (.core k)).status 4 = true)) := by
  iterate 2 refine And.intro (by decide +kernel) ?_
  iterate 2 refine And.intro (by unfold IsaReady; decide +kernel) ?_
  iterate 4 refine And.intro (by decide +kernel) ?_
  iterate 2 refine And.intro (by unfold IsaReady; decide +kernel) ?_
  iterate 4 refine And.intro (by decide +kernel) ?_
  iterate 2 refine And.intro (by unfold IsaReady; decide +kernel) ?_
  unfold IsaReady; decide +kernel

/-- Values that meet the hypotheses of every clause of Obligations.FloatRules. -/
theorem witness_FloatRules :
    (let a : Word := 0x7FF000000001; let b : Word := 5;
     ((f48 a = .qnan ∨ f48 a = .snan)) ∧ (f48 b ≠ .qnan) ∧ (f48 b ≠ .snan)) ∧
    (let a : Word := 0x7FF000000001; let b : Word := 0x7FF800000000;
     ((f48 a = .qnan ∨ f48 a = .snan)) ∧ ((f48 b = .qnan ∨ f48 b = .snan))) ∧
    (f48 0 = .fin false 0 (-1058) ∧ f48 1 = .fin false 1 (-1058) ∧
     (if false then -((0 : Nat) : ℚ) else (0 : Nat)) * 2 ^ (-1058 : Int) < (if false then -((1 : Nat) : ℚ) else (1 : Nat)) * 2 ^ (-1058 : Int)) ∧
    (let a : Word := 5; let s : Bool := false; let m : Nat := 5; let e : Int := -1058;
     (f48 a = .fin s m e)) ∧
    (let a : F48 := .qnan; let b : F48 := .snan;
     ((a = .qnan ∨ a = .snan ∨ b = .qnan ∨ b = .snan))) ∧
    (let w : Word := 0x400800000001;
     (f48 w ≠ .qnan) ∧ (f48 w ≠ .snan)) := by
  iterate 2 refine And.intro (by decide +kernel) ?_
  refine And.intro (by refine ⟨by decide +kernel, by decide +kernel, by simp⟩) ?_
  iterate 2 refine And.intro (by decide +kernel) ?_
  decide +kernel

end Tests.Isa

namespace Tests.Misc

def wMv (op : Nat) (src dst len : Nat) (pat : Word) : List Word := [setFld (wordOf src) 47 44 op, wordOf dst, 0, setFld 0 47 24 len, pat, 0, 0, 0]
def wMvS (ws : List Word) (f : Dev → Dev) : State := wState (fun d => f (((d.setMoverQueue 1 [0x6AB000]).sramWrites 0x6AB000 ws).askQueue 1))
def wMvH : List Word := [wordOf 0x800000, setFld 0 47 45 1, 64, setFld 0 47 24 2, 0, 0, 0, 0]

/-- Values that meet the hypotheses of every clause of Obligations.MemoryIntegrity. -/
theorem witness_MemoryIntegrity :
    (let k : Fin 4 := 2; let q : Nat := 25165829; let l : List Nat := [25165830]; let s : State := wState (fun d => (((d.wrF .hbcSsStat 2 2 0 3).setRewriteQueue 2 [25165829, 25165830]).putTile 25165829 { words := [(1, 2)], tag := 0, sev := 1 }));
     (s.dev.powered = true) ∧ (s.dev.stackOn k = true) ∧ (s.dev.rewriteQueue k = q :: l) ∧ (q ∉ l) ∧ (tileStack q = k.val) ∧ (tget s.dev.hbc.link [] k = []) ∧ (memWf .blank s.dev.hbm = true)) ∧
    (let k : Fin 4 := 2; let q : Nat := 25165829; let l : List Nat := [25165830]; let fs : List LinkFault := [.good]; let s : State := wState (fun d => { (((d.wrF .hbcSsStat 2 2 0 3).setRewriteQueue 2 [25165829, 25165830]).putTile 25165829 { words := [(1, 2)], tag := 0, sev := 1 }) with hbc := { (((d.wrF .hbcSsStat 2 2 0 3).setRewriteQueue 2 [25165829, 25165830]).putTile 25165829 { words := [(1, 2)], tag := 0, sev := 1 }).hbc with link := [(2, [.failed, .good])] } });
     (s.dev.powered = true) ∧ (s.dev.stackOn k = true) ∧ (s.dev.rewriteQueue k = q :: l) ∧ (tileStack q = k.val) ∧ (tget s.dev.hbc.link [] k = .failed :: fs)) ∧
    (let k : Fin 4 := 2; let s : State := wState (fun d => d);
     (s.dev.stackOn k = false ∨ s.dev.rewriteQueue k = [])) ∧
    (let k : Fin 4 := 2; let n : Nat := 7; let s : State := wState (fun d => (((d.wrF .hbcSsStat 2 2 0 3).wrF .hbcCtl 0 11 8 1).wrF .hbcSsPatrol 2 23 0 7));
     (s.dev.powered = true) ∧ (s.dev.stackOn k = true) ∧ (s.dev.rdF .hbcCtl 0 11 8 ≠ 0) ∧ (s.dev.rdF .hbcSsPatrol k 23 0 = n) ∧ (n + 1 < 12582912) ∧ (tget s.dev.hbc.link [] k = [])) ∧
    (let k : Fin 4 := 2; let f : LinkFault := .retried; let i : Fin 512 := 5; let x : Word := 6; let s : State := wState (fun d => (((d.wrF .hbcSsStat 2 2 0 3).wrF .hbcCtl 0 11 8 1).wrF .hbcSsPatrol 2 23 0 7));
     (s.dev.powered = true) ∧ (s.dev.stackOn k = true) ∧ (s.dev.rdF .hbcCtl 0 11 8 ≠ 0) ∧ (s.dev.rdF .hbcSsPatrol k 23 0 + 1 < 12582912) ∧ (tget s.dev.hbc.link [] k = []) ∧ ((f = .retried ∨ f = .failed ∨ f = .queue i x))) ∧
    (let k : Fin 4 := 2; let f : LinkFault := .failed; let i : Fin 512 := 5; let x : Word := 6; let s : State := wState (fun d => (((d.wrF .hbcSsStat 2 2 0 3).wrF .hbcCtl 0 11 8 1).wrF .hbcSsPatrol 2 23 0 7));
     (s.dev.powered = true) ∧ (s.dev.stackOn k = true) ∧ (s.dev.rdF .hbcCtl 0 11 8 ≠ 0) ∧ (s.dev.rdF .hbcSsPatrol k 23 0 + 1 < 12582912) ∧ (tget s.dev.hbc.link [] k = []) ∧ ((f = .retried ∨ f = .failed ∨ f = .queue i x))) ∧
    (let k : Fin 4 := 2; let f : LinkFault := .queue 5 6; let i : Fin 512 := 5; let x : Word := 6; let s : State := wState (fun d => (((d.wrF .hbcSsStat 2 2 0 3).wrF .hbcCtl 0 11 8 1).wrF .hbcSsPatrol 2 23 0 7));
     (s.dev.powered = true) ∧ (s.dev.stackOn k = true) ∧ (s.dev.rdF .hbcCtl 0 11 8 ≠ 0) ∧ (s.dev.rdF .hbcSsPatrol k 23 0 + 1 < 12582912) ∧ (tget s.dev.hbc.link [] k = []) ∧ ((f = .retried ∨ f = .failed ∨ f = .queue i x))) ∧
    (let k : Fin 4 := 2; let s : State := wState (fun d => ((d.wrF .hbcSsStat 2 2 0 3).wrF .hbcCtl 0 11 8 1).wrF .hbcSsPatrol 2 23 0 12582911);
     (s.dev.powered = true) ∧ (s.dev.stackOn k = true) ∧ (s.dev.rdF .hbcCtl 0 11 8 ≠ 0) ∧ (s.dev.rdF .hbcSsPatrol k 23 0 = 12582911) ∧ (tget s.dev.hbc.link [] k = [])) ∧
    (let k : Fin 4 := 2; let s : State := wState (fun d => d);
     (s.dev.stackOn k = false ∨ s.dev.rdF .hbcCtl 0 11 8 = 0)) ∧
    (let k : Fin 4 := 2; let c : FenceCause := .phy; let n : Nat := 1; let s : State := wState (fun d => ((d.wrF .hbcSsStat 2 2 0 3).wrF .ghdState 0 2 0 4).putTile (2 * 12582912) { words := [(1, 2)] });
     (s.dev.fences = true) ∧ (s.dev.stackOn k = true) ∧ (((c = .phy ∧ n = 1) ∨ (c = .parity ∧ n = 6 ∧ 64 < (recent s.dev.now 1000000 (tget s.dev.hbc.parity [] k)).length) ∨ (c = .ueLim ∧ n = 7 ∧ s.dev.rdF .hbcCtl 0 47 32 ≠ 0 ∧ s.dev.rdF .hbcCtl 0 47 32 < (recent s.dev.now 1000000000 (tget s.dev.hbc.uncorr [] k)).length)))) ∧
    (let k : Fin 4 := 2; let c : FenceCause := .phy; let s : State := wState (fun d => d);
     (s.dev.fences = false ∨ s.dev.stackOn k = false ∨ (c = .parity ∧ (recent s.dev.now 1000000 (tget s.dev.hbc.parity [] k)).length ≤ 64) ∨ (c = .ueLim ∧ (s.dev.rdF .hbcCtl 0 47 32 = 0 ∨ (recent s.dev.now 1000000000 (tget s.dev.hbc.uncorr [] k)).length ≤ s.dev.rdF .hbcCtl 0 47 32)))) ∧
    (let k : Fin 4 := 2; let c : FenceCause := .parity; let s : State := wState (fun d => ((d.wrF .hbcSsStat 2 2 0 3).wrF .ghdState 0 2 0 4));
     (s.dev.fences = false ∨ s.dev.stackOn k = false ∨ (c = .parity ∧ (recent s.dev.now 1000000 (tget s.dev.hbc.parity [] k)).length ≤ 64) ∨ (c = .ueLim ∧ (s.dev.rdF .hbcCtl 0 47 32 = 0 ∨ (recent s.dev.now 1000000000 (tget s.dev.hbc.uncorr [] k)).length ≤ s.dev.rdF .hbcCtl 0 47 32)))) ∧
    (let s : State := wState (fun d => d.wrF .ghdState 0 5 4 1);
     (s.dev.powered = true) ∧ (s.dev.powerState = .standby)) ∧
    (let k : Fin 4 := 2; let s : State := wState (fun d => ((d.wrF .hbcSsStat 2 2 0 3).wrF .ghdState 0 2 0 4));
     (s.dev.powerState ≠ .standby) ∧ (s.dev.fences = true) ∧ (s.dev.rdF .hbcSsStat k 2 0 ≠ 5)) ∧
    (let k : Fin 4 := 2; let s : State := wState (fun d => d.wrF .hbcSsStat 2 2 0 5);
     (s.dev.powerState ≠ .standby) ∧ ((s.dev.fences = false ∨ s.dev.rdF .hbcSsStat k 2 0 = 5))) ∧
    (let r : Fin 6 := 3; let off : Nat := 9; let w : Word := 0; let s : State := wState (fun d => (d.wrF .edcCtl 0 3 0 1).wrF .edcRrScrub 3 23 0 9);
     (s.dev.powered = true) ∧ (s.dev.rdF .edcRrScrub r 23 0 = off) ∧ (s.dev.domOn (regionDomain r off) = true) ∧ (s.dev.rdF .edcCtl 0 3 0 ≠ 0) ∧ (MemoriesWf s.dev) ∧ (decodeWord (if r = 5 then s.dev.xferCell off else s.dev.cell (regionBase r + off)) = .ok w)) ∧
    (let r : Fin 5 := 3; let f : Word := 4; let g : BitVec 7 := 0; let off : Nat := 9; let w : Word := 77; let s : State := wState (fun d => ((d.wrF .edcCtl 0 3 0 1).wrF .edcRrScrub 3 23 0 9).sramWrite (0x955800 + 9) 77);
     (s.dev.powered = true) ∧ (s.dev.rdF .edcRrScrub r 23 0 = off) ∧ (off + 1 < regionSize r) ∧ (s.dev.domOn (regionDomain r off) = true) ∧ (s.dev.rdF .edcCtl 0 3 0 ≠ 0) ∧ (MemoriesWf s.dev) ∧ (decodeWord { data := (s.dev.cell (regionBase r + off)).data ^^^ f, chk := (s.dev.cell (regionBase r + off)).chk ^^^ g } = .corrected w)) ∧
    (let f : Word := 4; let g : BitVec 7 := 0; let off : Nat := 9; let w : Word := 0; let s : State := wState (fun d => ((d.wrF .edcCtl 0 3 0 1).wrF .edcRrScrub 5 23 0 9));
     (s.dev.powered = true) ∧ (s.dev.rdF .edcRrScrub 5 23 0 = off) ∧ (off + 1 < regionSize 5) ∧ (s.dev.domOn 22 = true) ∧ (s.dev.rdF .edcCtl 0 3 0 ≠ 0) ∧ (MemoriesWf s.dev) ∧ (decodeWord { data := (s.dev.xferCell off).data ^^^ f, chk := (s.dev.xferCell off).chk ^^^ g } = .corrected w)) ∧
    (let r : Fin 6 := 3; let f : Word := 3; let x : Word := 77 ^^^ 3; let g : BitVec 7 := 0; let p : Bool := false; let off : Nat := 9; let s : State := wState (fun d => ((d.wrF .edcCtl 0 3 0 1).wrF .edcRrScrub 3 23 0 9).sramWrite (0x955800 + 9) 77);
     (s.dev.powered = true) ∧ (r.val < 4) ∧ (s.dev.rdF .edcRrScrub r 23 0 = off) ∧ (off + 1 < regionSize r) ∧ (s.dev.domOn (regionDomain r off) = true) ∧ (s.dev.rdF .edcCtl 0 3 0 ≠ 0) ∧ (MemoriesWf s.dev) ∧ (s.dev.rdB .edcInjCtl 0 8 = false) ∧ (decodeWord { data := (s.dev.cell (regionBase r + off)).data ^^^ f, chk := (s.dev.cell (regionBase r + off)).chk ^^^ g } = (if p = true then .poison x else .uncorrectable x))) ∧
    (let r : Fin 6 := 3; let s : State := wState (fun d => d.wrF .edcCtl 0 3 0 0);
     (s.dev.domOn (regionDomain r (s.dev.rdF .edcRrScrub r 23 0)) = false ∨ s.dev.rdF .edcCtl 0 3 0 = 0)) ∧
    (let q : Requester := .goatherd; let r : Nat := 4; let s : State := wState (fun d => d.wr .edcInjAddr 0 (wordOf 0xA55800));
     (s.dev.powered = true) ∧ (sramRegion (s.dev.rdF .edcInjAddr 0 39 0) = some r) ∧ ((r ≠ 4 ∨ q = .goatherd))) ∧
    (let q : Requester := .channel 3; let s : State := wState (fun d => d.wr .edcInjAddr 0 (wordOf 0xA55800));
     (s.dev.powered = true) ∧ ((sramRegion (s.dev.rdF .edcInjAddr 0 39 0) = none ∨ (sramRegion (s.dev.rdF .edcInjAddr 0 39 0) = some 4 ∧ q ≠ .goatherd)))) := by
  iterate 15 refine And.intro (by decide +kernel) ?_
  iterate 4 refine And.intro (by unfold MemoriesWf; decide +kernel) ?_
  iterate 2 refine And.intro (by decide +kernel) ?_
  decide +kernel

/-- Values that meet the hypotheses of every clause of Obligations.GrazeAndArbiter. -/
theorem witness_GrazeAndArbiter :
    (let p : Fin 4 := 2; let k : Nat := 2 * 1024 + 32 * 3 + 4; let s : State := wState (fun d => { (d.wr .tfbArbPrior 3 7) with graze := { d.graze with bids := [(2 * 1024 + 32 * 3 + 4, 2), (2 * 1024 + 32 * 5 + 4, 1)] } });
     (s.dev.portGrant p = some k)) ∧
    (let p : Fin 4 := 2; let a : Nat := 3 * 32; let b : Nat := 5 * 32; let s : State := wState (fun d => d.wr .tfbArbPrior 3 7);
     ((s.dev.tier p (a % 32) < s.dev.tier p (b % 32) ∨ (s.dev.tier p (a % 32) = s.dev.tier p (b % 32) ∧ (s.dev.rdF .tfbArbPrior (b / 32 % 32) 2 0 < s.dev.rdF .tfbArbPrior (a / 32 % 32) 2 0 ∨ (s.dev.rdF .tfbArbPrior (b / 32 % 32) 2 0 = s.dev.rdF .tfbArbPrior (a / 32 % 32) 2 0 ∧ a / 32 % 32 < b / 32 % 32)))))) ∧
    (let k : Nat := 2 * 1024 + 32 * 5 + 4; let s : State := wState (fun d => { (d.wr .tfbArbPrior 3 7) with graze := { d.graze with bids := [(2 * 1024 + 32 * 3 + 4, 2), (2 * 1024 + 32 * 5 + 4, 1)] } });
     ((∀ p : Fin 4, s.dev.portGrant p ≠ some k))) ∧
    (let p : Fin 4 := 2; let k : Nat := 2 * 1024 + 32 * 3 + 4; let n : Nat := 2; let s : State := wState (fun d => { (d.wr .tfbArbPrior 3 7) with graze := { d.graze with bids := [(2 * 1024 + 32 * 3 + 4, 2), (2 * 1024 + 32 * 5 + 4, 1)] } });
     (s.dev.portGrant p = some k) ∧ (tget s.dev.graze.bids 0 k = n) ∧ (k / 1024 = p)) ∧
    (let n : Nat := 5; let s : State := wState (fun d => { (d.wrB .tfbGrzCtl 0 0 true) with now := 5120, graze := { d.graze with usedQ := [(3, 9)] } });
     (s.dev.powered = true) ∧ (s.dev.domOn 22 = true) ∧ (s.dev.now.toNat = 1024 * n) ∧ ((n = 0 ∨ (s.dev.rd .tfbGrzPeriod).toNat ≠ n))) ∧
    (let s : State := wState (fun d => { d with now := 5121 });
     (s.dev.domOn 22 = false ∨ s.dev.now.toNat % 1024 ≠ 0 ∨ (s.dev.now.toNat ≠ 0 ∧ 1024 * (s.dev.rd .tfbGrzPeriod).toNat = s.dev.now.toNat))) ∧
    (let s : State := wState (fun d => d.wrF .tfbGrzStat 0 15 4 3584);
     (s.dev.powered = true) ∧ (s.dev.domOn 22 = true) ∧ (s.dev.rdB .tfbGrzCtl 0 0 = false) ∧ (s.dev.bankSum (!s.dev.bankB) ≤ s.dev.grzCap)) ∧
    (let s : State := wState (fun d => d.wrF .tfbGrzStat 0 15 4 1);
     (s.dev.powered = true) ∧ (s.dev.domOn 22 = true) ∧ (s.dev.rdB .tfbGrzCtl 0 0 = false) ∧ (s.dev.grzCap < s.dev.bankSum (!s.dev.bankB))) ∧
    (let s : State := wState (fun d => { d with domains := [] });
     (s.dev.domOn 22 = false ∨ s.dev.rdB .tfbGrzCtl 0 0 = true)) ∧
    (let s : State := wState (fun d => d);
     (s.dev.powered = true) ∧ (s.dev.domOn 22 = true)) ∧
    (let s : State := wState (fun d => { d with domains := [] });
     (s.dev.domOn 22 = false)) := by
  iterate 10 refine And.intro (by decide +kernel) ?_
  decide +kernel

/-- Values that meet the hypotheses of every clause of Obligations.ControlMovers. -/
theorem witness_ControlMovers :
    (let k : Fin 5 := 1; let q : Requester := .core 1; let a : Word := wordOf 0x6AB000; let n : Nat := 1; let s : State := wState (fun d => d);
     (s.dev.powered = true) ∧ (s.dev.domOn 22 = true) ∧ (moverServes k q = true) ∧ ((s.dev.moverQueue k).length < 16) ∧ ((if k = 4 then 4 else 1) = n) ∧ (sramRegion (fld a 39 0) = some n) ∧ (fld a 39 0 + 8 ≤ regionBase n + regionSize n)) ∧
    (let k : Fin 5 := 4; let q : Requester := .goatherd; let a : Word := wordOf 0xA55800; let n : Nat := 4; let s : State := wState (fun d => d);
     (s.dev.powered = true) ∧ (s.dev.domOn 22 = true) ∧ (moverServes k q = true) ∧ ((s.dev.moverQueue k).length < 16) ∧ ((if k = 4 then 4 else 1) = n) ∧ (sramRegion (fld a 39 0) = some n) ∧ (fld a 39 0 + 8 ≤ regionBase n + regionSize n)) ∧
    (let k : Fin 5 := 1; let q : Requester := .channel 3; let s : State := wState (fun d => d);
     (s.dev.powered = true) ∧ (s.dev.domOn 22 = true) ∧ (moverServes k q = false)) ∧
    (let k : Fin 5 := 1; let q : Requester := .core 1; let s : State := wState (fun d => d.setMoverQueue 1 (List.replicate 16 5));
     (s.dev.powered = true) ∧ (s.dev.domOn 22 = true) ∧ (moverServes k q = true) ∧ (16 ≤ (s.dev.moverQueue k).length)) ∧
    (let k : Fin 5 := 1; let q : Requester := .core 1; let a : Word := 5; let n : Nat := 1; let s : State := wState (fun d => d);
     (s.dev.powered = true) ∧ (s.dev.domOn 22 = true) ∧ (moverServes k q = true) ∧ ((s.dev.moverQueue k).length < 16) ∧ ((if k = 4 then 4 else 1) = n) ∧ ((sramRegion (fld a 39 0) ≠ some n ∨ regionBase n + regionSize n < fld a 39 0 + 8))) ∧
    (let s : State := wState (fun d => { d with domains := [] });
     (s.dev.domOn 22 = false)) ∧
    (let k : Fin 5 := 1; let a : Nat := 0x6AB000; let l : List Nat := []; let ws : List Word := wMv 0 0x800000 0x6AC000 2 0; let xs : List Word := [7, 8]; let m : MoverDesc := { op := 0, trailer := false, src := 0x800000, dkind := 0, func := 0, dst := 0x6AC000, haddr := 0, len := 2, cls := 0, pattern := 0, reserved := false }; let s : State := wMvS (wMv 0 0x800000 0x6AC000 2 0) (fun d => d.sramWrites 0x800000 [7, 8]);
     (MoverHeld k s) ∧ (s.dev.moverQueue k = a :: l) ∧ (s.dev.sramReads a 8 = (ws, 0, s.dev)) ∧ (moverDesc ws = m) ∧ (m.op = 0) ∧ (m.dkind = 0) ∧ (m.trailer = false) ∧ (s.dev.moverRefusal k m = none) ∧ (isTileAddr m.src = false) ∧ (s.dev.moverRead m.src m.len = (xs, 0, s.dev)) ∧ (xs.length = m.len)) ∧
    (let k : Fin 5 := 1; let f : Fin 2 := 0; let a : Nat := 0x6AB000; let l : List Nat := []; let ws : List Word := wMvH; let xs : List Word := [7, 8]; let m : MoverDesc := { op := 0, trailer := false, src := 0x800000, dkind := 1, func := 0, dst := 0, haddr := 64, len := 2, cls := 0, pattern := 0, reserved := false }; let s : State := wMvS (wMvH) (fun d => (d.wrB .hifFfStat 0 0 true).sramWrites 0x800000 [7, 8]);
     (MoverHeld k s) ∧ (s.dev.moverQueue k = a :: l) ∧ (s.dev.sramReads a 8 = (ws, 0, s.dev)) ∧ (moverDesc ws = m) ∧ (m.op = 0) ∧ (m.dkind = 1) ∧ (m.func = f) ∧ (s.dev.moverRefusal k m = none) ∧ (isTileAddr m.src = false) ∧ (s.dev.moverRead m.src m.len = (xs, 0, s.dev)) ∧ (xs.length = m.len)) ∧
    (let k : Fin 5 := 1; let a : Nat := 0x6AB000; let l : List Nat := []; let ws : List Word := wMv 1 0 0x6AC000 2 7; let m : MoverDesc := { op := 1, trailer := false, src := 0, dkind := 0, func := 0, dst := 0x6AC000, haddr := 0, len := 2, cls := 0, pattern := 7, reserved := false }; let s : State := wMvS (wMv 1 0 0x6AC000 2 7) (fun d => d);
     (MoverHeld k s) ∧ (s.dev.moverQueue k = a :: l) ∧ (s.dev.sramReads a 8 = (ws, 0, s.dev)) ∧ (moverDesc ws = m) ∧ (m.op = 1) ∧ (m.dkind = 0) ∧ (s.dev.moverRefusal k m = none) ∧ (s.dev.rdB .edcInjCtl 0 8 = false) ∧ (memWf .blank s.dev.sram = true)) ∧
    (let k : Fin 5 := 1; let a : Nat := 0x6AB000; let l : List Nat := []; let ws : List Word := wMv 2 0x800000 0x6AC000 2 0; let xs : List Word := [7, 8]; let m : MoverDesc := { op := 2, trailer := false, src := 0x800000, dkind := 0, func := 0, dst := 0x6AC000, haddr := 0, len := 2, cls := 0, pattern := 0, reserved := false }; let s : State := wMvS (wMv 2 0x800000 0x6AC000 2 0) (fun d => (d.sramWrites 0x800000 [7, 8]).sramWrites 0x6AC000 [7, 8]);
     (MoverHeld k s) ∧ (s.dev.moverQueue k = a :: l) ∧ (s.dev.sramReads a 8 = (ws, 0, s.dev)) ∧ (moverDesc ws = m) ∧ (m.op = 2) ∧ (m.dkind = 0) ∧ (s.dev.moverRefusal k m = none) ∧ (isTileAddr m.src = false) ∧ (s.dev.moverRead m.src m.len = (xs, 0, s.dev)) ∧ (s.dev.moverRead m.dst m.len = (xs, 0, s.dev))) ∧
    (let k : Fin 5 := 1; let a : Nat := 0x6AB000; let l : List Nat := []; let ws : List Word := wMv 2 0x800000 0x6AC000 2 0; let xs : List Word := [8]; let ys : List Word := [8]; let ps : List Word := []; let x : Word := 7; let y : Word := 9; let m : MoverDesc := { op := 2, trailer := false, src := 0x800000, dkind := 0, func := 0, dst := 0x6AC000, haddr := 0, len := 2, cls := 0, pattern := 0, reserved := false }; let s : State := wMvS (wMv 2 0x800000 0x6AC000 2 0) (fun d => (d.sramWrites 0x800000 [7, 8]).sramWrites 0x6AC000 [9, 8]);
     (MoverHeld k s) ∧ (s.dev.moverQueue k = a :: l) ∧ (s.dev.sramReads a 8 = (ws, 0, s.dev)) ∧ (moverDesc ws = m) ∧ (m.op = 2) ∧ (m.dkind = 0) ∧ (s.dev.moverRefusal k m = none) ∧ (isTileAddr m.src = false) ∧ (s.dev.moverRead m.src m.len = (ps ++ x :: xs, 0, s.dev)) ∧ (s.dev.moverRead m.dst m.len = (ps ++ y :: ys, 0, s.dev)) ∧ (x ≠ y) ∧ (xs.length = ys.length) ∧ (xs.length < 2 ^ 31)) ∧
    (let k : Fin 5 := 1; let a : Nat := 0x6AB000; let n : Nat := 1; let l : List Nat := []; let ws : List Word := wMv 3 0x800000 0 3 7; let x : Word := 8; let xs : List Word := [7]; let m : MoverDesc := { op := 3, trailer := false, src := 0x800000, dkind := 0, func := 0, dst := 0, haddr := 0, len := 3, cls := 0, pattern := 7, reserved := false }; let s : State := wMvS (wMv 3 0x800000 0 3 7) (fun d => d.sramWrites 0x800000 [7, 8, 7]);
     (MoverHeld k s) ∧ (s.dev.moverQueue k = a :: l) ∧ (s.dev.sramReads a 8 = (ws, 0, s.dev)) ∧ (moverDesc ws = m) ∧ (m.op = 3) ∧ (s.dev.moverRefusal k m = none) ∧ (isTileAddr m.src = false) ∧ (s.dev.moverRead m.src m.len = (List.replicate n m.pattern ++ x :: xs, 0, s.dev)) ∧ (x ≠ m.pattern) ∧ (xs.length < 2 ^ 31)) ∧
    (let k : Fin 5 := 1; let a : Nat := 0x6AB000; let l : List Nat := []; let ws : List Word := wMv 3 0x800000 0 3 7; let xs : List Word := [7, 7, 7]; let m : MoverDesc := { op := 3, trailer := false, src := 0x800000, dkind := 0, func := 0, dst := 0, haddr := 0, len := 3, cls := 0, pattern := 7, reserved := false }; let s : State := wMvS (wMv 3 0x800000 0 3 7) (fun d => d.sramWrites 0x800000 [7, 7, 7]);
     (MoverHeld k s) ∧ (s.dev.moverQueue k = a :: l) ∧ (s.dev.sramReads a 8 = (ws, 0, s.dev)) ∧ (moverDesc ws = m) ∧ (m.op = 3) ∧ (s.dev.moverRefusal k m = none) ∧ (isTileAddr m.src = false) ∧ (s.dev.moverRead m.src m.len = (xs, 0, s.dev)) ∧ ((xs.all (fun w => w = m.pattern)) = true)) ∧
    (let k : Fin 5 := 1; let s : State := wState (fun d => d);
     (s.dev.domOn 22 = false ∨ s.dev.moverQueue k = [] ∨ (tfind s.dev.tmv.results k).isSome = true)) ∧
    (let k : Fin 5 := 1; let a : Nat := 0x6AB000; let l : List Nat := []; let r : Nat × Nat × Nat × Nat := (0x1A, 0, 0, 5); let s : State := wMvS (wMv 0 0x800000 0x6AC000 2 0) (fun d => { d with tmv := { d.tmv with results := [(1, (0x1A, 0, 0, 5))] } });
     (s.dev.powered = true) ∧ (s.dev.domOn 22 = true) ∧ (s.dev.moverQueue k = a :: l) ∧ (tfind s.dev.tmv.results k = some r) ∧ (s.dev.rdB .edcInjCtl 0 8 = false) ∧ (memWf .blank s.dev.sram = true) ∧ (keysRising s.dev.tmv.results = true)) ∧
    (let k : Fin 5 := 1; let a : Nat := 0x6AB000; let l : List Nat := []; let ws : List Word := wMv 9 0 0 2 0; let r : Nat × Nat := (0x10, 8); let s : State := wMvS (wMv 9 0 0 2 0) (fun d => d);
     (s.dev.powered = true) ∧ (s.dev.domOn 22 = true) ∧ (s.dev.moverQueue k = a :: l) ∧ (tfind s.dev.tmv.results k = none) ∧ ((s.dev.moverRun? (.queue k)).isSome = true) ∧ (s.dev.sramReads a 8 = (ws, 0, s.dev)) ∧ (s.dev.moverRefusal k (moverDesc ws) = some r) ∧ (s.dev.rdB .edcInjCtl 0 8 = false) ∧ (memWf .blank s.dev.sram = true)) ∧
    (let k : Fin 5 := 1; let s : State := wState (fun d => d);
     (s.dev.domOn 22 = false ∨ s.dev.moverQueue k = [] ∨ (tfind s.dev.tmv.results k = none ∧ s.dev.moverRun? (.queue k) = none))) := by
  iterate 6 refine And.intro (by decide +kernel) ?_
  iterate 7 refine And.intro (by unfold MoverHeld; decide +kernel) ?_
  iterate 3 refine And.intro (by decide +kernel) ?_
  decide +kernel

/-- Values that meet the hypotheses of every clause of Obligations.FieldInputs. -/
theorem witness_FieldInputs :
    (let l : List (Fin 40) := [3, 30]; let s : State := wState (fun d => d.wrB .fioCtl 0 0 true);
     (s.dev.powered = true) ∧ (s.dev.rdB .fioCtl 0 0 = true) ∧ ((∀ i ∈ l, s.dev.fio.probed.contains i.val = false))) ∧
    (let k : Fin 16 := 6; let i : Fin 40 := 30; let s : State := wState (fun d => { (d.wrB .fioCtl 0 0 true) with fio := { d.fio with probed := [30] } });
     (s.dev.powered = true) ∧ (s.dev.rdB .fioCtl 0 0 = true) ∧ (i.val = 24 + k.val) ∧ (s.dev.fio.probed.contains i.val = true)) ∧
    (let n : Fin 8 := 3; let ch : EncCh := .b; let i : Fin 40 := 10; let s : State := wState (fun d => { (d.wrB .fioCtl 0 0 true) with fio := { d.fio with probed := [10] } });
     (s.dev.powered = true) ∧ (s.dev.rdB .fioCtl 0 0 = true) ∧ (i.val = 3 * n.val + encChNum ch) ∧ (s.dev.fio.probed.contains i.val = true)) ∧
    (let s : State := wState (fun d => d.wrB .fioCtl 0 0 false);
     (s.dev.rdB .fioCtl 0 0 = false)) ∧
    (let f : PairFault := .shortGnd; let s : State := wState (fun d => d);
     (s.dev.powered = true) ∧ ((f = .openWire → s.dev.rdB .fioCtl 0 0 = true))) ∧
    (let x : Fin 48 := 40; let s : State := wState (fun d => d.wrF .fioOxStat 40 2 0 1);
     (s.dev.powered = true) ∧ (s.dev.outState x = 1) ∧ ((s.dev.outDrv x).pchk = none)) ∧
    (let f : PairFault := .shortSupply; let s : State := wState (fun d => d.wrB .sprEncnStat 3 3 true);
     (s.dev.powered = true) ∧ ((f = .openWire → s.dev.rdB .fioCtl 0 0 = true))) ∧
    (let p : FieldPair := .out 40; let f : PairFault := .shortPair; let s : State := wState (fun d => d);
     (s.dev.judges p f = false)) ∧
    (let x : Fin 48 := 40; let f : PairFault := .shortGnd; let t0 : Word := 5; let s : State := wState (fun d => { (d.wr .fioOxStat 40 0x880) with now := 200000000, fio := { d.fio with faultAt := [(4 * 80 + 3, 5)] } });
     (s.dev.powered = true) ∧ (tfind s.dev.fio.faultAt (4 * (40 + x.val) + pairFaultBit f) = some t0) ∧ (100000000 ≤ elapsed s.dev.now t0)) ∧
    (let n : Fin 8 := 3; let ch : EncCh := .b; let f : PairFault := .shortGnd; let t0 : Word := 5; let b : Nat := 7; let s : State := wState (fun d => { (d.wr .fioEncnFlt 3 0x800080) with now := 200000000, fio := { d.fio with faultAt := [(4 * 10 + 3, 5)] } });
     (s.dev.powered = true) ∧ (4 * encChNum ch + pairFaultBit f = b) ∧ (tfind s.dev.fio.faultAt (4 * (3 * n.val + encChNum ch) + pairFaultBit f) = some t0) ∧ (100000000 ≤ elapsed s.dev.now t0)) ∧
    (let k : Fin 16 := 6; let f : PairFault := .shortGnd; let t0 : Word := 5; let s : State := wState (fun d => { (d.wr .fioFinkStat 6 0x88) with now := 200000000, fio := { d.fio with faultAt := [(4 * 30 + 3, 5)] } });
     (s.dev.powered = true) ∧ (tfind s.dev.fio.faultAt (4 * (24 + k.val) + pairFaultBit f) = some t0) ∧ (100000000 ≤ elapsed s.dev.now t0)) ∧
    (let p : FieldPair := .fin 6; let f : PairFault := .shortGnd; let s : State := wState (fun d => d);
     (tfind s.dev.fio.faultAt (4 * pairNum p + pairFaultBit f) = none ∨ (tfind s.dev.fio.faultAt (4 * pairNum p + pairFaultBit f)).any (fun t => decide (elapsed s.dev.now t < 100000000)) = true)) ∧
    (let s : State := wState (fun d => (d.wrB .sprEncnStat 3 3 true).wr .fioEncnFlt 3 0x1F00000000);
     (s.dev.powered = true)) ∧
    (let k : Fin 16 := 6; let b : Bool := true; let s : State := wState (fun d => d);
     ((s.dev.fieldIn k).pin ≠ b)) ∧
    (let k : Fin 16 := 6; let b : Bool := false; let s : State := wState (fun d => d);
     ((s.dev.fieldIn k).pin = b)) ∧
    (let k : Fin 16 := 6; let s : State := wState (fun d => (d.wr .fioFinkCfg 6 0x30001).setFieldIn 6 { pin := true, stamp := 0 });
     (s.dev.powered = true) ∧ ((s.dev.fieldIn k).pin ≠ (s.dev.fieldIn k).filt) ∧ (s.dev.rdF .fioFinkCfg k 15 8 * 1000 ≤ elapsed s.dev.now (s.dev.fieldIn k).stamp)) ∧
    (let k : Fin 16 := 6; let s : State := wState (fun d => d);
     ((s.dev.fieldIn k).pin = (s.dev.fieldIn k).filt ∨ elapsed s.dev.now (s.dev.fieldIn k).stamp < s.dev.rdF .fioFinkCfg k 15 8 * 1000)) ∧
    (let k : Fin 16 := 6; let s : State := wState (fun d => { (d.wr .fioFinkCfg 6 0x10).setFieldIn 6 { pin := true, filt := true, since := 0 } with now := 2000000000 });
     (s.dev.powered = true) ∧ (s.dev.rdF .fioFinkCfg k 7 4 ≠ 0) ∧ (s.dev.finLevel k ≠ s.dev.rdB .fioFinkCfg k 3) ∧ (s.dev.rdF .fioFinkCfg k 7 4 * 1000000000 ≤ elapsed s.dev.now (s.dev.fieldIn k).since)) ∧
    (let k : Fin 16 := 6; let s : State := wState (fun d => d);
     (s.dev.rdF .fioFinkCfg k 7 4 = 0 ∨ s.dev.finLevel k = s.dev.rdB .fioFinkCfg k 3 ∨ elapsed s.dev.now (s.dev.fieldIn k).since < s.dev.rdF .fioFinkCfg k 7 4 * 1000000000)) := by
  iterate 18 refine And.intro (by decide +kernel) ?_
  decide +kernel

/-- Values that meet the hypotheses of every clause of Obligations.OutputDrivers. -/
theorem witness_OutputDrivers :
    (let x : Fin 48 := 40; let s : State := wState (fun d => d);
     (s.dev.powered = true) ∧ (s.dev.outState x ≤ 1) ∧ ((s.dev.outDrv x).active = none) ∧ ((s.dev.outDrv x).pchk = none)) ∧
    (let x : Fin 48 := 40; let s : State := wState (fun d => d.setOutDrv 40 { active := some (5, true) });
     (s.dev.powered = true) ∧ ((2 ≤ s.dev.outState x ∨ (s.dev.outDrv x).active.isSome = true ∨ (s.dev.outDrv x).pchk.isSome = true))) ∧
    (let x : Fin 48 := 40; let t0 : Word := 5; let s : State := wState (fun d => { (d.setOutDrv 40 { pchk := some 5 }) with now := 30000 });
     (s.dev.powered = true) ∧ ((s.dev.outDrv x).pchk = some t0) ∧ (20000 ≤ elapsed s.dev.now t0)) ∧
    (let x : Fin 48 := 40; let s : State := wState (fun d => d);
     ((s.dev.outDrv x).pchk = none ∨ (s.dev.outDrv x).pchk.any (fun t0 => decide (elapsed s.dev.now t0 < 20000)) = true)) ∧
    (let x : Fin 48 := 40; let n : Nat := 1; let s : State := wState (fun d => d.wrF .fioOxStat 40 2 0 1);
     (s.dev.powered = true) ∧ (s.dev.outState x = 1) ∧ ((s.dev.outDrv x).pchk = none) ∧ (1 + (recent s.dev.now 1000000000 (s.dev.outDrv x).shutoffs).length = n)) ∧
    (let x : Fin 48 := 40; let s : State := wState (fun d => d);
     (s.dev.outState x ≠ 1 ∨ (s.dev.outDrv x).pchk.isSome = true)) ∧
    (let x : Fin 48 := 40; let n : Nat := 1; let s : State := wState (fun d => d.wrF .fioOxStat 40 2 0 1);
     (s.dev.powered = true) ∧ (s.dev.outState x = 1) ∧ (1 + (recent s.dev.now 1000000000 (s.dev.outDrv x).shutoffs).length = n)) ∧
    (let x : Fin 48 := 40; let s : State := wState (fun d => d.wrF .fioOxStat 40 2 0 2);
     (s.dev.powered = true) ∧ (s.dev.outState x = 2)) ∧
    (let x : Fin 48 := 40; let temp : Int := 100; let s : State := wState (fun d => { (d.wr .fioOxStat 40 0x1002) with now := 2000000000 });
     (s.dev.powered = true) ∧ (s.dev.outState x = 2) ∧ (s.dev.rdF .fioOxCfg x 11 8 * 1000000 ≤ elapsed s.dev.now (s.dev.outDrv x).shutAt) ∧ ((s.dev.rdB .fioOxStat x 12 = false ∨ temp < 130))) ∧
    (let x : Fin 48 := 40; let temp : Int := 100; let s : State := wState (fun d => d);
     (s.dev.outState x ≠ 2 ∨ elapsed s.dev.now (s.dev.outDrv x).shutAt < s.dev.rdF .fioOxCfg x 11 8 * 1000000 ∨ (s.dev.rdB .fioOxStat x 12 = true ∧ 130 ≤ temp))) ∧
    (let x : Fin 48 := 40; let s : State := wState (fun d => d.wr .fioOxStat 40 0x1003);
     (s.dev.powered = true) ∧ (s.dev.outState x = 3)) ∧
    (let x : Fin 48 := 40; let s : State := wState (fun d => d);
     (s.dev.outState x ≠ 3)) := by
  iterate 11 refine And.intro (by decide +kernel) ?_
  decide +kernel

/-- Values that meet the hypotheses of every clause of Obligations.RegisterWrites. -/
theorem witness_RegisterWrites :
    (let q : Requester := .channel 3; let win : Fin 256 := 1; let off : BitVec 16 := BitVec.ofNat 16 (regDesc .sprAxnAmax).off; let g : RegPlace := .ragged; let r : Reg := .sprAxnAmax; let i : Nat := 0; let s : State := wState (fun d => d);
     (s.dev.powered = true) ∧ (s.dev.regAccess win off.toNat = .reg r i) ∧ ((∀ f : Fin 2, q = .host f → g = .slot ∧ s.dev.domOn (10 + f) = true ∧ foreignReg f r i = false)) ∧ (r ∈ [.sprAxnAmax, .sprEncnCfg, .hlkPortpErr, .cxiLklPcxLim, .edcInjAddr, .edcInjData, .ctlCorekEntry, .evcStat, .cexLqCons])) ∧
    (let win : Fin 256 := 3; let off : BitVec 16 := 0xFFFF; let s : State := wState (fun d => d);
     ((match s.dev.regAccess win off.toNat with | .reg _ _ => false | _ => true) = true)) ∧
    (let q : Requester := .channel 3;
     (q ≠ .goatherd)) ∧
    (let f : Fin 2 := 1; let win : Fin 256 := 1; let off : BitVec 16 := BitVec.ofNat 16 (regDesc .sprAxnAmax).off; let r : Reg := .sprAxnAmax; let i : Nat := 0; let s : State := wState (fun d => { d with domains := d.domains.filter (fun e => e.1 ≠ 11) });
     (s.dev.regAccess win off.toNat = .reg r i) ∧ ((foreignReg f r i = true ∨ s.dev.domOn (10 + f) = false))) ∧
    (let f : Fin 2 := 1; let s : State := wState (fun d => d);
     (s.dev.powered = true) ∧ (s.dev.domOn (10 + f) = true)) ∧
    (let f : Fin 2 := 1; let s : State := wState (fun d => { d with domains := [] });
     (s.dev.domOn (10 + f) = false)) ∧
    (let f : Fin 2 := 1; let off : BitVec 16 := 0x300; let s : State := wState (fun d => d);
     ((s.dev.domOn (10 + f) = false ∨ 0x200 ≤ off.toNat ∧ off.toNat < 0x400 ∨ 0x600 ≤ off.toNat ∧ off.toNat < 0x8000 ∨ 0x8400 ≤ off.toNat))) ∧
    (let f : Fin 2 := 1; let v : Fin 64 := 5; let off : BitVec 16 := 0x805C; let w : BitVec 64 := 1; let s : State := wState (fun d => d);
     (s.dev.powered = true) ∧ (s.dev.domOn (10 + f) = true) ∧ (off.toNat = 0x8000 + 16 * v.val + 12) ∧ (w.getLsbD 0 = true)) ∧
    (let f : Fin 2 := 1; let win : Nat := 17; let off : Nat := 3; let s : State := wState (fun d => d);
     ((match s.dev.regAccess win off with | .reg r i => foreignReg f r i || !s.dev.domOn (10 + f) | _ => true) = true)) ∧
    (let win : Fin 256 := 17;
     (16 < win.val)) ∧
    (let off : Nat := 3; let size : Nat := 8;
     (¬(size = 8 ∧ off % 8 = 0)) ∧ (¬(size = 4 ∧ off % 4 = 0))) ∧
    (let k : Fin 4 := 3; let s : State := wState (fun d => d.wr .ctlCorekEntry 3 0x6AB000);
     (s.dev.powered = true) ∧ (s.dev.domOn 17 = true) ∧ (s.dev.rdB .ctlCorekCtl k 0 = false)) ∧
    (let k : Fin 4 := 3; let s : State := wState (fun d => d.wrB .ctlCorekCtl 3 0 true);
     (s.dev.powered = true) ∧ (s.dev.domOn 17 = true) ∧ (s.dev.rdB .ctlCorekCtl k 0 = true)) ∧
    (let k : Fin 4 := 3; let b : Bool := false; let s : State := wState (fun d => d);
     (s.dev.domOn 17 = false ∨ s.dev.rdB .ctlCorekCtl k 0 = b)) := by
  iterate 13 refine And.intro (by decide +kernel) ?_
  decide +kernel

end Tests.Misc

namespace Tests.Hif

def wHost (f : Dev → Dev) : State := wState (fun d => f (((d.wr .hifFfStat 1 3).wr .hifFfCtl 1 0x111100)))
def wSq (st : Nat) (x : SubRing) (f : Dev → Dev) : State := wHost (fun d => f (((d.setSq 66 x).wrF .hifFfSqsStat 66 18 17 st).wrF .hifFfCqcStat 64 24 23 1))
def wEnt (op : Nat) : DirEntry := { seq := 3, op := op, tag := 9, words := [0x6AB000, 0, 0, 0, 0, 0], haddr := 64, hlen := 12, arg := 0, trailer := false, inHold := false }
def wEntI : List Byte := [9] ++ List.replicate 62 0 ++ [1]
def wEntB : List Byte := [1] ++ List.replicate 62 0 ++ [1]

/-- Values that meet the hypotheses of every clause of Obligations.HostFunctions. -/
theorem witness_HostFunctions :
    (let f : Fin 2 := 1; let m : Fin 7 := 3; let s : State := wState (fun d => d);
     (s.dev.powered = true) ∧ (s.dev.domOn (10 + f) = true) ∧ (s.dev.attached f = false) ∧ (m ≠ 0)) ∧
    (let f : Fin 2 := 1; let m : Fin 7 := 0; let s : State := wState (fun d => d);
     (s.dev.domOn (10 + f) = false ∨ s.dev.attached f = true ∨ m = 0)) ∧
    (let f : Fin 2 := 1; let s : State := wHost (fun d => d);
     (s.dev.powered = true) ∧ (s.dev.attached f = true)) ∧
    (let f : Fin 2 := 1; let s : State := wState (fun d => d);
     (s.dev.powered = true) ∧ (s.dev.attached f = false)) ∧
    (let s : State := wState (fun d => d);
     (s.dev.powered = true)) ∧
    (let f : Fin 2 := 1; let n : Nat := 7; let s : State := wHost (fun d => d);
     (s.dev.powered = true) ∧ (s.dev.attached f = true) ∧ ((s.dev.mbx f).busy = false) ∧ ((s.dev.mbx f).done = false) ∧ (1 ≤ n) ∧ (n ≤ 65536)) ∧
    (let f : Fin 2 := 1; let n : Nat := 0; let s : State := wHost (fun d => d.setMbx 1 { d.mbx 1 with busy := true });
     (s.dev.powered = true) ∧ (s.dev.attached f = true) ∧ (n < 2 ^ 17) ∧ (((s.dev.mbx f).busy = true ∨ (s.dev.mbx f).done = true ∨ n = 0 ∨ 65536 < n))) ∧
    (let f : Fin 2 := 1; let n : Nat := 0; let s : State := wState (fun d => d);
     (s.dev.attached f = false) ∧ (n < 2 ^ 17)) ∧
    (let f : Fin 2 := 1; let bs : List Byte := [1, 2, 3]; let s : State := wHost (fun d => d.setMbx 1 { d.mbx 1 with busy := true, answer := some [1, 2, 3], vecEn := true, vec := 5 });
     (s.dev.powered = true) ∧ ((s.dev.mbx f).answer = some bs) ∧ ((s.dev.mbx f).busy = true)) ∧
    (let f : Fin 2 := 1; let s : State := wHost (fun d => d);
     ((s.dev.mbx f).answer = none ∨ (s.dev.mbx f).busy = false)) ∧
    (let s : State := wHost (fun d => d.setMbx 1 { d.mbx 1 with done := true });
     (s.dev.powered = true)) ∧
    (let f : Fin 2 := 1; let s : State := wHost (fun d => d);
     (s.dev.powered = true) ∧ (s.dev.attached f = true)) ∧
    (let f : Fin 2 := 1; let v : BitVec 64 := 0x80000000; let s : State := wHost (fun d => d.setMbx 1 { d.mbx 1 with done := true });
     (s.dev.powered = true) ∧ (s.dev.attached f = true) ∧ (2 ^ 31 ≤ v.toNat % 2 ^ 32)) ∧
    (let f : Fin 2 := 1; let k : Nat := 4; let s : State := wHost (fun d => d);
     (s.dev.powered = true) ∧ (s.dev.attached f = true) ∧ ((s.dev.mbx f).busy = false) ∧ (k < 10922) ∧ (s.dev.rdB .edcInjCtl 0 8 = false) ∧ (memWf .blank s.dev.sram = true)) ∧
    (let f : Fin 2 := 1; let off : Nat := 12; let s : State := wState (fun d => d);
     (s.dev.attached f = false ∨ (0x10000 ≤ off ∧ (s.dev.mbx f).busy = true) ∨ 0x20000 ≤ off ∨ (off < 0x10000 ∧ off ≠ 8 ∧ off ≠ 16 ∧ off ≠ 24))) ∧
    (let f : Fin 2 := 1; let m : Mailbox := { busy := true, vec := 5 }; let s : State := wHost (fun d => d.setMbx 1 { d.mbx 1 with busy := true, vec := 5 });
     (s.dev.attached f = true) ∧ (s.dev.mbx f = m)) ∧
    (let f : Fin 2 := 1; let s : State := wState (fun d => d);
     (s.dev.attached f = false)) := by
  iterate 16 refine And.intro (by decide +kernel) ?_
  decide +kernel

/-- Values that meet the hypotheses of every clause of Obligations.SubmissionRings. -/
theorem witness_SubmissionRings :
    (let f : Fin 2 := 1; let r : Fin 64 := 2; let s : State := wSq 1 {} (fun d => d);
     (s.dev.powered = true) ∧ (s.dev.domOn (10 + f) = true) ∧ (s.dev.sqState (64 * f + r) = 1)) ∧
    (let f : Fin 2 := 1; let r : Fin 64 := 2; let s : State := wSq 2 {} (fun d => d);
     (s.dev.powered = true) ∧ (s.dev.domOn (10 + f) = true) ∧ (s.dev.sqState (64 * f + r) ≠ 1)) ∧
    (let f : Fin 2 := 1; let s : State := wState (fun d => { d with domains := [] });
     (s.dev.domOn (10 + f) = false)) ∧
    (let f : Fin 2 := 1; let r : Fin 64 := 2; let p : BitVec 32 := 3; let s : State := wSq 1 { bell := true } (fun d => d);
     (s.dev.powered = true) ∧ (s.dev.sqState (64 * f + r) = 1) ∧ ((s.dev.sq (64 * f + r)).bell = true) ∧ (p.toNat < 2 ^ (s.dev.sqBits (64 * f + r) + 1)) ∧ (idxSub (s.dev.sqBits (64 * f + r)) p.toNat (s.dev.sqCons (64 * f + r)) ≤ 2 ^ s.dev.sqBits (64 * f + r))) ∧
    (let f : Fin 2 := 1; let r : Fin 64 := 2; let p : BitVec 32 := 33; let s : State := wSq 1 { bell := true } (fun d => d);
     (s.dev.powered = true) ∧ (s.dev.sqState (64 * f + r) = 1) ∧ ((s.dev.sq (64 * f + r)).bell = true) ∧ ((2 ^ (s.dev.sqBits (64 * f + r) + 1) ≤ p.toNat ∨ 2 ^ s.dev.sqBits (64 * f + r) < idxSub (s.dev.sqBits (64 * f + r)) p.toNat (s.dev.sqCons (64 * f + r))))) ∧
    (let f : Fin 2 := 1; let r : Fin 64 := 2; let s : State := wSq 1 { bell := true } (fun d => d);
     (s.dev.powered = true) ∧ (s.dev.sqState (64 * f + r) = 1) ∧ ((s.dev.sq (64 * f + r)).bell = true)) ∧
    (let f : Fin 2 := 1; let r : Fin 64 := 2; let s : State := wState (fun d => d);
     (s.dev.sqState (64 * f + r) ≠ 1 ∨ (s.dev.sq (64 * f + r)).bell = false)) ∧
    (let f : Fin 2 := 1; let r : Fin 64 := 2; let e : List Byte := wEntB; let s : State := wSq 1 { known := 3 } (fun d => d);
     (s.dev.powered = true) ∧ (e.length = 64) ∧ (s.dev.sqState (64 * f + r) = 1) ∧ (s.dev.sqCons (64 * f + r) ≠ (s.dev.sq (64 * f + r)).known) ∧ ((s.dev.sq (64 * f + r)).waits = false) ∧ (entOwned (s.dev.sqBits (64 * f + r)) (s.dev.sqCons (64 * f + r)) e = true) ∧ (s.dev.sqFirmware (64 * f + r) = false) ∧ ((s.dev.sq (64 * f + r)).entries = []) ∧ (s.dev.entRefusal f e = none) ∧ ((entByte e 0 = 1 ∨ s.dev.domOn 22 = true)) ∧ (s.dev.cqHeld (s.dev.sqComp (64 * f + r)) = 0) ∧ (0 < s.dev.cqRoom (s.dev.sqComp (64 * f + r))) ∧ (s.dev.cqRsvd (s.dev.sqComp (64 * f + r)) < 64) ∧ (s.dev.sqBits (64 * f + r) ≤ 16)) ∧
    (let f : Fin 2 := 1; let r : Fin 64 := 2; let e : List Byte := wEntI; let o : Nat × Nat := (0x10, 0x10); let s : State := wSq 1 { known := 3 } (fun d => d);
     (s.dev.powered = true) ∧ (e.length = 64) ∧ (s.dev.sqState (64 * f + r) = 1) ∧ (s.dev.sqCons (64 * f + r) ≠ (s.dev.sq (64 * f + r)).known) ∧ ((s.dev.sq (64 * f + r)).waits = false) ∧ (entOwned (s.dev.sqBits (64 * f + r)) (s.dev.sqCons (64 * f + r)) e = true) ∧ (s.dev.sqFirmware (64 * f + r) = false) ∧ ((s.dev.sq (64 * f + r)).entries = []) ∧ (s.dev.entRefusal f e = some o) ∧ (s.dev.cqHeld (s.dev.sqComp (64 * f + r)) = 0) ∧ (0 < s.dev.cqRoom (s.dev.sqComp (64 * f + r))) ∧ (s.dev.cqRsvd (s.dev.sqComp (64 * f + r)) < 64)) ∧
    (let f : Fin 2 := 1; let r : Fin 64 := 2; let e : List Byte := wEntB; let m : Nat := 4; let j : Nat := 0; let s : State := wSq 1 { known := 3 } (fun d => (d.wrB .hifFfSqsCfg 66 18 true).wrF .hifFfSqsInbox 66 27 24 4);
     (s.dev.powered = true) ∧ (e.length = 64) ∧ (s.dev.sqState (64 * f + r) = 1) ∧ (s.dev.sqCons (64 * f + r) ≠ (s.dev.sq (64 * f + r)).known) ∧ ((s.dev.sq (64 * f + r)).waits = false) ∧ (entOwned (s.dev.sqBits (64 * f + r)) (s.dev.sqCons (64 * f + r)) e = true) ∧ (s.dev.sqFirmware (64 * f + r) = true) ∧ (s.dev.inboxFull (64 * f + r) = false) ∧ (s.dev.rdF .hifFfSqsInbox (64 * f + r) 27 24 = m) ∧ (m ≤ 10) ∧ (s.dev.rdF .hifFfSqsInboxIdx (64 * f + r) 10 0 = j)) ∧
    (let f : Fin 2 := 1; let r : Fin 64 := 2; let e : List Byte := wEntB; let s : State := wSq 1 { known := 3 } (fun d => ((d.wrB .hifFfSqsCfg 66 18 true).wrF .hifFfSqsInbox 66 27 24 4).wrF .hifFfSqsInboxIdx 66 10 0 16);
     (s.dev.powered = true) ∧ (e.length = 64) ∧ (s.dev.sqState (64 * f + r) = 1) ∧ (s.dev.sqCons (64 * f + r) ≠ (s.dev.sq (64 * f + r)).known) ∧ ((s.dev.sq (64 * f + r)).waits = false) ∧ (entOwned (s.dev.sqBits (64 * f + r)) (s.dev.sqCons (64 * f + r)) e = true) ∧ (s.dev.sqFirmware (64 * f + r) = true) ∧ (s.dev.inboxFull (64 * f + r) = true)) ∧
    (let f : Fin 2 := 1; let r : Fin 64 := 2; let s : State := wSq 1 { known := 3 } (fun d => d);
     (s.dev.powered = true) ∧ (s.dev.sqState (64 * f + r) = 1) ∧ (s.dev.sqCons (64 * f + r) ≠ (s.dev.sq (64 * f + r)).known) ∧ ((s.dev.sq (64 * f + r)).waits = false)) ∧
    (let f : Fin 2 := 1; let r : Fin 64 := 2; let e : List Byte := wEntI.dropLast ++ [0]; let s : State := wSq 1 { known := 3, consDue := true } (fun d => d);
     (s.dev.powered = true) ∧ (e.length = 64) ∧ (s.dev.sqState (64 * f + r) = 1) ∧ (s.dev.sqCons (64 * f + r) ≠ (s.dev.sq (64 * f + r)).known) ∧ ((s.dev.sq (64 * f + r)).waits = false) ∧ (entOwned (s.dev.sqBits (64 * f + r)) (s.dev.sqCons (64 * f + r)) e = false)) ∧
    (let f : Fin 2 := 1; let r : Fin 64 := 2; let e : Option (List Byte) := none; let s : State := wState (fun d => d);
     (e.all entryBytes = true) ∧ ((s.dev.sqState (64 * f + r) ≠ 1 ∨ s.dev.sqCons (64 * f + r) = (s.dev.sq (64 * f + r)).known ∨ (s.dev.sq (64 * f + r)).waits = true))) ∧
    (let f : Fin 2 := 1; let r : Fin 64 := 2; let e : Option (List Byte) := none; let s : State := wSq 1 { known := 3, waits := true } (fun d => d);
     (e.all entryBytes = true) ∧ ((s.dev.sqState (64 * f + r) ≠ 1 ∨ s.dev.sqCons (64 * f + r) = (s.dev.sq (64 * f + r)).known ∨ (s.dev.sq (64 * f + r)).waits = true))) ∧
    (let f : Fin 2 := 1; let r : Fin 64 := 2; let n : Nat := 3; let e : DirEntry := wEnt 1; let s : State := wSq 1 { entries := [wEnt 1] } (fun d => d);
     (s.dev.powered = true) ∧ (s.dev.openEntry (64 * f + r) n 1 = some e)) ∧
    (let f : Fin 2 := 1; let r : Fin 64 := 2; let n : Nat := 3; let e : DirEntry := wEnt 2; let s : State := wSq 1 { entries := [wEnt 2] } (fun d => d);
     (s.dev.powered = true) ∧ (s.dev.domOn 22 = true) ∧ (s.dev.openEntry (64 * f + r) n 2 = some e) ∧ (e.query = none)) ∧
    (let f : Fin 2 := 1; let r : Fin 64 := 2; let n : Nat := 3; let e : DirEntry := wEnt 3; let o : Nat × Nat × Dev := (wSq 1 { entries := [wEnt 3] } (fun d => d)).dev.retroSubmit 0 (wEnt 3).words; let s : State := wSq 1 { entries := [wEnt 3] } (fun d => d);
     (s.dev.powered = true) ∧ (s.dev.domOn 22 = true) ∧ (s.dev.openEntry (64 * f + r) n 3 = some e) ∧ (s.dev.retroSubmit e.arg e.words = o) ∧ (o.2.2.hif = s.dev.hif)) ∧
    (let f : Fin 2 := 1; let r : Fin 64 := 2; let n : Nat := 3; let e : DirEntry := wEnt 4; let ws : List Word := [7, 8]; let s : State := wSq 1 { entries := [wEnt 4] } (fun d => d.sramWrites 0x6AB000 [7, 8]);
     (s.dev.powered = true) ∧ (s.dev.domOn 22 = true) ∧ (s.dev.attached f = true) ∧ (s.dev.openEntry (64 * f + r) n 4 = some e) ∧ (sourceOk (fld (e.words.getD 0 0) 39 0) (e.hlen / 6) = true) ∧ (ws ≠ []) ∧ (s.dev.moverRead (fld (e.words.getD 0 0) 39 0) (e.hlen / 6) = (ws, 0, s.dev))) ∧
    (let f : Fin 2 := 1; let r : Fin 64 := 2; let n : Nat := 3; let e : DirEntry := { wEnt 4 with words := [0xFFFFFFFFF] }; let s : State := wSq 1 { entries := [{ wEnt 4 with words := [0xFFFFFFFFF] }] } (fun d => d);
     (s.dev.powered = true) ∧ (s.dev.domOn 22 = true) ∧ (s.dev.openEntry (64 * f + r) n 4 = some e) ∧ (sourceOk (fld (e.words.getD 0 0) 39 0) (e.hlen / 6) = false)) ∧
    (let f : Fin 2 := 1; let r : Fin 64 := 2; let n : Nat := 3; let e : DirEntry := { wEnt 5 with hlen := 3072, words := [32] }; let w : List Word := List.replicate 512 7; let s : State := wSq 1 { entries := [{ wEnt 5 with hlen := 3072, words := [32] }] } (fun d => d.putRef 9 [wordOf (2^46 + 32), wordOf (2^32 + 1), 0, 0]);
     (s.dev.powered = true) ∧ (w.length = 512) ∧ (s.dev.domOn 22 = true) ∧ (s.dev.openEntry (64 * f + r) n 5 = some e) ∧ (e.hlen = 3072) ∧ (s.dev.hbc.link = []) ∧ ((s.dev.loadingRef (fld (e.words.getD 0 0) 25 0)).isSome = true)) ∧
    (let f : Fin 2 := 1; let r : Fin 64 := 2; let n : Nat := 3; let e : DirEntry := { wEnt 5 with hlen := 3072, words := [32] }; let s : State := wSq 1 { entries := [{ wEnt 5 with hlen := 3072, words := [32] }] } (fun d => d);
     (s.dev.powered = true) ∧ (s.dev.domOn 22 = true) ∧ (s.dev.openEntry (64 * f + r) n 5 = some e) ∧ (e.hlen = 3072) ∧ (s.dev.loadingRef (fld (e.words.getD 0 0) 25 0) = none)) ∧
    (let f : Fin 2 := 1; let r : Fin 64 := 2; let n : Nat := 3; let op : Fin 4 := 0; let e : DirEntry := wEnt 2; let l : List (List Word) := []; let s : State := wSq 1 { entries := [wEnt 2] } (fun d => { d with domains := d.domains.filter (fun e => e.1 ≠ 22) });
     (s.dev.powered = true) ∧ (l.all wholeTile = true) ∧ (s.dev.domOn 22 = false) ∧ (s.dev.openEntry (64 * f + r) n (2 + op) = some e) ∧ ((op = 0 → e.query = none))) ∧
    (let f : Fin 2 := 1; let r : Fin 64 := 2; let n : Nat := 5; let l : List (List Word) := []; let s : State := wState (fun d => d);
     (l.all wholeTile = true) ∧ ((s.dev.sq (64 * f + r)).entries.all (fun e => e.seq ≠ n || e.res.isSome) = true)) ∧
    (let f : Fin 2 := 1; let r : Fin 64 := 2; let n : Nat := 3; let e : DirEntry := { wEnt 1 with res := some { status := 0, sub := 0 } }; let o : DirResult := { status := 0, sub := 0 }; let s : State := wSq 1 { entries := [{ wEnt 1 with res := some { status := 0, sub := 0 } }] } (fun d => d.wrF .hifFfCqcStat 64 40 34 1);
     (s.dev.powered = true) ∧ (s.dev.attached f = true) ∧ ((s.dev.sq (64 * f + r)).entries = [e]) ∧ (e.seq = n) ∧ (e.res = some o) ∧ (e.inHold = false) ∧ (s.dev.cqHeld (s.dev.sqComp (64 * f + r)) = 0) ∧ (idxSub (s.dev.cqBits (s.dev.sqComp (64 * f + r))) (s.dev.cqProd (s.dev.sqComp (64 * f + r))) (s.dev.rdF .hifFfCqcHost (s.dev.sqComp (64 * f + r)) 16 0) + s.dev.cqRsvd (s.dev.sqComp (64 * f + r)) < 2 ^ s.dev.cqBits (s.dev.sqComp (64 * f + r)))) ∧
    (let f : Fin 2 := 1; let r : Fin 64 := 2; let n : Nat := 3; let s : State := wState (fun d => d);
     ((s.dev.sq (64 * f + r)).entries.all (fun e => e.seq ≠ n || e.res.isNone) = true)) ∧
    (let n : Nat := 4; let q : Query := { id := 4, src := .dict, words := [], service := true, resolved := true, refused := some (0x10, 8) }; let d : Dev := ((wHost (fun d => { d with tfb := { d.tfb with queries := [{ id := 4, src := .dict, words := [], service := true, resolved := true, refused := some (0x10, 8) }] }, tmv := { d.tmv with reqs := [{ user := .query 4, words := 40000, write := true, run := some { reader := 0 } }] } })).dev.engineTurn (.query 4)).2; let s : State := (wHost (fun d => { d with tfb := { d.tfb with queries := [{ id := 4, src := .dict, words := [], service := true, resolved := true, refused := some (0x10, 8) }] }, tmv := { d.tmv with reqs := [{ user := .query 4, words := 40000, write := true, run := some { reader := 0 } }] } }));
     (s.dev.powered = true) ∧ (s.dev.query n = some q) ∧ (q.service = true) ∧ (s.dev.queryReady q = true) ∧ (s.dev.engineTurn (.query n) = (true, d))) ∧
    (let n : Nat := 4; let q : Query := { id := 4, src := .dict, words := [], service := true, resolved := true, refused := some (0x10, 8) }; let d : Dev := ((wHost (fun d => { d with tfb := { d.tfb with queries := [{ id := 4, src := .dict, words := [], service := true, resolved := true, refused := some (0x10, 8) }] }, tmv := { d.tmv with reqs := [{ user := .query 4, words := 40000, write := true, run := some { reader := 0 } }, { user := .queue 1, words := 4, write := false }] } })).dev.engineTurn (.query 4)).2; let s : State := (wHost (fun d => { d with tfb := { d.tfb with queries := [{ id := 4, src := .dict, words := [], service := true, resolved := true, refused := some (0x10, 8) }] }, tmv := { d.tmv with reqs := [{ user := .query 4, words := 40000, write := true, run := some { reader := 0 } }, { user := .queue 1, words := 4, write := false }] } }));
     (s.dev.powered = true) ∧ (s.dev.query n = some q) ∧ (q.service = true) ∧ (s.dev.queryReady q = true) ∧ (s.dev.engineTurn (.query n) = (false, d))) ∧
    (let n : Nat := 4; let s : State := wState (fun d => d);
     ((s.dev.query n).all (fun q => !q.service || !s.dev.queryReady q) = true)) := by
  iterate 28 refine And.intro (by decide +kernel) ?_
  decide +kernel

/-- Values that meet the hypotheses of every clause of Obligations.CompletionRings. -/
theorem witness_CompletionRings :
    (let f : Fin 2 := 1; let c : Fin 64 := 0; let v : BitVec 64 := 0; let s : State := wSq 1 {} (fun d => d);
     (s.dev.powered = true) ∧ (s.dev.domOn (10 + f) = true) ∧ (s.dev.cqState (64 * f + c) = 1) ∧ (v.toNat % 2 ^ 17 < 2 ^ (s.dev.cqBits (64 * f + c) + 1)) ∧ (idxSub (s.dev.cqBits (64 * f + c)) (s.dev.cqProd (64 * f + c)) (v.toNat % 2 ^ 17) ≤ 2 ^ s.dev.cqBits (64 * f + c)) ∧ (s.dev.cqHeld (64 * f + c) = 0)) ∧
    (let f : Fin 2 := 1; let c : Fin 64 := 0; let v : BitVec 64 := 0x1F000; let s : State := wSq 1 {} (fun d => d);
     (s.dev.powered = true) ∧ (s.dev.domOn (10 + f) = true) ∧ (s.dev.cqState (64 * f + c) = 1) ∧ ((2 ^ (s.dev.cqBits (64 * f + c) + 1) ≤ v.toNat % 2 ^ 17 ∨ 2 ^ s.dev.cqBits (64 * f + c) < idxSub (s.dev.cqBits (64 * f + c)) (s.dev.cqProd (64 * f + c)) (v.toNat % 2 ^ 17)))) ∧
    (let f : Fin 2 := 1; let c : Fin 64 := 0; let s : State := wHost (fun d => d);
     (s.dev.powered = true) ∧ (s.dev.domOn (10 + f) = true) ∧ (s.dev.cqState (64 * f + c) ≠ 1)) ∧
    (let f : Fin 2 := 1; let s : State := wState (fun d => { d with domains := [] });
     (s.dev.domOn (10 + f) = false)) ∧
    (let f : Fin 2 := 1; let c : Fin 64 := 0; let s : State := wHost (fun d => d.setCq 64 { msgDue := true });
     (s.dev.powered = true) ∧ (s.dev.attached f = true) ∧ ((s.dev.cq (64 * f + c)).msgDue = true) ∧ (s.dev.coalDone (64 * f + c) = true)) ∧
    (let f : Fin 2 := 1; let c : Fin 64 := 0; let s : State := wState (fun d => d);
     ((s.dev.cq (64 * f + c)).msgDue = false ∨ s.dev.coalDone (64 * f + c) = false)) ∧
    (let f : Fin 2 := 1; let c : Fin 64 := 0; let s : State := wHost (fun d => d);
     (s.dev.powered = true) ∧ (s.dev.ringsAllowed f = true) ∧ (s.dev.cqState (64 * f + c) = 0) ∧ ((s.dev.rd .hifFfCqcBase (64 * f + c)).toNat % 64 = 0) ∧ (s.dev.rdF .hifFfCqcCfg (64 * f + c) 13 10 ≤ 12)) ∧
    (let f : Fin 2 := 1; let r : Fin 64 := 2; let m : Nat := 0; let s : State := wSq 0 {} (fun d => d);
     (s.dev.powered = true) ∧ (s.dev.ringsAllowed f = true) ∧ (s.dev.sqState (64 * f + r) = 0) ∧ ((s.dev.rd .hifFfSqsBase (64 * f + r)).toNat % 64 = 0) ∧ ((s.dev.rd .hifFfSqsHdr (64 * f + r)).toNat % 64 = 0) ∧ (s.dev.rdF .hifFfSqsCfg (64 * f + r) 17 14 ≤ 12) ∧ (s.dev.cqState (s.dev.sqComp (64 * f + r)) = 1) ∧ (s.dev.rdF .hifFfSqsInbox (64 * f + r) 27 24 = m) ∧ ((s.dev.sqFirmware (64 * f + r) = false ∨ (4 ≤ m ∧ m ≤ 10 ∧ s.dev.rdF .hifFfSqsInbox (64 * f + r) 19 0 + 11 * 2 ^ m ≤ 1009664)))) ∧
    (let f : Fin 2 := 1; let r : Fin 64 := 2; let s : State := wState (fun d => d);
     (s.dev.powered = true) ∧ (s.dev.sqState (64 * f + r) = 0) ∧ ((s.dev.ringsAllowed f = false ∨ (s.dev.rd .hifFfSqsBase (64 * f + r)).toNat % 64 ≠ 0 ∨ (s.dev.rd .hifFfSqsHdr (64 * f + r)).toNat % 64 ≠ 0 ∨ 12 < s.dev.rdF .hifFfSqsCfg (64 * f + r) 17 14 ∨ s.dev.cqState (s.dev.sqComp (64 * f + r)) ≠ 1))) ∧
    (let f : Fin 2 := 1; let c : Fin 64 := 2; let s : State := wState (fun d => d);
     (s.dev.powered = true) ∧ (s.dev.cqState (64 * f + c) = 0) ∧ ((s.dev.ringsAllowed f = false ∨ (s.dev.rd .hifFfCqcBase (64 * f + c)).toNat % 64 ≠ 0 ∨ 12 < s.dev.rdF .hifFfCqcCfg (64 * f + c) 13 10))) ∧
    (let f : Fin 2 := 1; let sub : Bool := true; let r : Fin 64 := 2; let s : State := wSq 1 {} (fun d => d);
     ((if sub then s.dev.sqState (64 * f + r) ≠ 0 else s.dev.cqState (64 * f + r) ≠ 0))) ∧
    (let f : Fin 2 := 1; let r : Fin 64 := 2; let s : State := wSq 1 { entries := [wEnt 4] } (fun d => d);
     (s.dev.powered = true) ∧ (s.dev.sqState (64 * f + r) = 1)) ∧
    (let f : Fin 2 := 1; let r : Fin 64 := 2; let s : State := wState (fun d => d);
     (s.dev.sqState (64 * f + r) ≠ 1)) ∧
    (let f : Fin 2 := 1; let r : Fin 64 := 2; let p : BitVec 32 := 0; let s : State := wSq 2 {} (fun d => d);
     (s.dev.powered = true) ∧ (s.dev.sqState (64 * f + r) = 2) ∧ ((s.dev.sq (64 * f + r)).entries = []) ∧ ((s.dev.sq (64 * f + r)).stopRead = false) ∧ (p.toNat = s.dev.sqCons (64 * f + r)) ∧ (s.dev.sqBits (64 * f + r) ≤ 16) ∧ (p.toNat < 2 ^ (s.dev.sqBits (64 * f + r) + 1)) ∧ (s.dev.cqHeld (s.dev.sqComp (64 * f + r)) = 0) ∧ (0 < s.dev.cqRoom (s.dev.sqComp (64 * f + r)))) ∧
    (let f : Fin 2 := 1; let r : Fin 64 := 2; let l : List (List Byte) := []; let s : State := wSq 2 {} (fun d => (d.wrF .hifFfCqcStat 64 16 0 16).wrF .hifFfCqcStat 64 33 25 256);
     (s.dev.powered = true) ∧ (s.dev.sqState (64 * f + r) = 2) ∧ ((s.dev.sq (64 * f + r)).entries = []) ∧ (l.all entryBytes = true) ∧ (s.dev.cqRoom (s.dev.sqComp (64 * f + r)) = 0) ∧ (s.dev.holdFree (s.dev.sqComp (64 * f + r)) = 0) ∧ (((s.dev.sq (64 * f + r)).stopRead = true → (s.dev.sq (64 * f + r)).stopQ ≠ []))) ∧
    (let f : Fin 2 := 1; let r : Fin 64 := 2; let l : List (List Byte) := []; let s : State := wState (fun d => d);
     (l.all entryBytes = true) ∧ ((s.dev.sqState (64 * f + r) ≠ 2 ∨ (s.dev.sq (64 * f + r)).entries ≠ []))) ∧
    (let f : Fin 2 := 1; let c : Fin 64 := 0; let s : State := wSq 0 {} (fun d => d);
     (s.dev.powered = true) ∧ ((∀ r : Fin 64, s.dev.sqState (64 * f + r) = 0 ∨ s.dev.sqComp (64 * f + r) ≠ 64 * f + c)) ∧ (s.dev.cqState (64 * f + c) ≠ 0)) ∧
    (let f : Fin 2 := 1; let c : Fin 64 := 0; let r : Fin 64 := 2; let s : State := wSq 1 {} (fun d => d);
     (s.dev.powered = true) ∧ (s.dev.sqState (64 * f + r) ≠ 0) ∧ (s.dev.sqComp (64 * f + r) = 64 * f + c)) ∧
    (let f : Fin 2 := 1; let c : Fin 64 := 5; let s : State := wState (fun d => d);
     ((∀ r : Fin 64, s.dev.sqComp (64 * f + r) ≠ 64 * f + c)) ∧ (s.dev.cqState (64 * f + c) = 0)) := by
  iterate 18 refine And.intro (by decide +kernel) ?_
  decide +kernel

end Tests.Hif

namespace Tests.Dict

def wMb (f : Dev → Dev) : State := wState (fun d => f (d.wrB .hifFfStat 1 0 true))
def wSe : Session := { path := .mailbox 1, num := 7, minor := 2, src := noAddr, seq := 4 }
def wEs : Session := { path := .eth 1, num := 9, minor := 2, src := ⟨false, 0x0A000001⟩, seq := 4, kept := [1, 2, 3], heard := 5 }
def wSes (r : Session) (f : Dev → Dev) : State := wMb (fun d => f { d with dict := { d.dict with sessions := [wEs, r] } })
def wReq (ver ses seq : Nat) (recs : List (List (BitVec 8))) : List (BitVec 8) :=
  let body := recs.flatten
  let h := bytesOfNat 1 ver ++ bytesOfNat 1 0 ++ bytesOfNat 2 ses ++ bytesOfNat 4 seq ++ bytesOfNat 2 recs.length ++
    bytesOfNat 2 0 ++ bytesOfNat 4 (20 + body.length) ++ body
  h ++ bytesOfNat 4 (crc32c h).toNat
def wR (op : Nat) (ix : Nat) (sub : Nat) (typ : Nat) (data : List (BitVec 8)) : List (BitVec 8) :=
  bytesOfNat 1 op ++ bytesOfNat 1 0 ++ bytesOfNat 2 ix ++ bytesOfNat 1 sub ++ bytesOfNat 1 typ ++ bytesOfNat 2 data.length ++ data
def wBopRec (op : Nat) : BopRec := { op := op, flags := 0, obj := ⟨0x1001, 1, 2⟩, data := [] }
def wV4 (d : Dev) : Dev := (d.setVar 0x1101 3 1 1).setVar 0x1101 4 4 0x0A000002
def wGrp : BitVec 48 := 0x010000000000
def wLeadS : State := wSes wSe (fun d => { ((d.wrB .hlkCtl 0 0 true).wrF .hlkStat 0 2 0 5).wrB .hlkCtl 0 1 true with hlk := { d.hlk with commit := some { req := ⟨0, 5, false, 1, 9⟩, epoch := 3 } } })
def wFro : FrozenCommit := { epoch := 3 }
def wO (i k : Nat) : Obj := (objOf i k).getD ⟨0, .ro, false, false, false, .calc, none⟩

/-- Values that meet the hypotheses of every clause of Obligations.DictSessions. -/
theorem witness_DictSessions :
    (let x : BopPath := .eth 0; let src : HostAddr := ⟨false, 0x0A000001⟩; let lo : BitVec 8 := 0x10; let hi : BitVec 8 := 0x1F; let s : State := wMb (fun d => d);
     (src.wf = true) ∧ (s.dev.pathUp x = true) ∧ (lo ≤ hi) ∧ (lo ≤ 0x12) ∧ (0x10 ≤ hi) ∧ (isEth x = true) ∧ ((s.dev.dict.sessions.filter (fun r => decide (r.path = x))).length < 16)) ∧
    (let x : BopPath := .mailbox 1; let src : HostAddr := noAddr; let lo : BitVec 8 := 0x11; let hi : BitVec 8 := 0x11; let s : State := wSes wSe (fun d => d);
     (src.wf = true) ∧ (s.dev.pathUp x = true) ∧ (lo ≤ hi) ∧ (lo ≤ 0x12) ∧ (0x10 ≤ hi) ∧ (isEth x = false)) ∧
    (let x : BopPath := .eth 0; let src : HostAddr := ⟨false, 0x0A000001⟩; let lo : BitVec 8 := 0x13; let hi : BitVec 8 := 0x1F; let s : State := wMb (fun d => d);
     (src.wf = true) ∧ (s.dev.pathUp x = true) ∧ ((hi < lo ∨ 0x12 < lo ∨ hi < 0x10))) ∧
    (let x : BopPath := .eth 0; let src : HostAddr := ⟨false, 0x0A000001⟩; let lo : BitVec 8 := 0x10; let hi : BitVec 8 := 0x12; let s : State := wMb (fun d => { d with dict := { d.dict with sessions := (List.range 16).map (fun i => { wEs with path := .eth 0, num := i + 1 }) } });
     (src.wf = true) ∧ (s.dev.pathUp x = true) ∧ (lo ≤ hi) ∧ (lo ≤ 0x12) ∧ (0x10 ≤ hi) ∧ (isEth x = true) ∧ (16 ≤ (s.dev.dict.sessions.filter (fun r => decide (r.path = x))).length)) ∧
    (let x : BopPath := .mailbox 1; let n : Nat := 7; let r : Session := wSe; let s : State := wSes wSe (fun d => d);
     (BopOpen x n r s)) ∧
    (let x : BopPath := .mailbox 1; let n : Nat := 6; let s : State := wSes wSe (fun d => d);
     (s.dev.pathUp x = true) ∧ (s.dev.session x n = none)) ∧
    (let x : BopPath := .core 1; let src : HostAddr := noAddr; let s : State := wSes wSe (fun d => d);
     (s.dev.pathUp x = false) ∧ (src.wf = true)) ∧
    (let x : BopPath := .eth 1; let n : Nat := 9; let r : Session := wEs; let s : State := wSes wSe (fun d => { d with now := 10000000005 });
     (s.dev.powered = true) ∧ (s.dev.session x n = some r) ∧ (isEth x = true) ∧ (10000000000 ≤ elapsed s.dev.now r.heard)) ∧
    (let x : BopPath := .eth 1; let n : Nat := 9; let r : Session := wEs; let s : State := wSes wSe (fun d => { d with now := 10000000004 });
     (s.dev.session x n = some r) ∧ ((isEth x = false ∨ elapsed s.dev.now r.heard < 10000000000))) ∧
    (let x : BopPath := .mailbox 1; let n : Nat := 7; let r : Session := wSe; let s : State := wSes wSe (fun d => { d with now := 20000000004 });
     (s.dev.session x n = some r) ∧ ((isEth x = false ∨ elapsed s.dev.now r.heard < 10000000000))) ∧
    (let x : BopPath := .eth 1; let n : Nat := 8; let s : State := wSes wSe (fun d => d);
     (s.dev.session x n = none)) ∧
    (let x : BopPath := .mailbox 1; let n : Nat := 7; let r : Session := { wSe with segs := [⟨0x113001, [1], 6⟩, ⟨0x113002, [1], 6⟩] }; let s : State := wSes { wSe with segs := [⟨0x113001, [1], 6⟩, ⟨0x113002, [1], 6⟩] } (fun d => { d with now := 10000000006 });
     (s.dev.powered = true) ∧ (s.dev.session x n = some r)) := by
  iterate 4 refine And.intro (by decide +kernel) ?_
  refine And.intro (by unfold BopOpen; decide +kernel) ?_
  iterate 6 refine And.intro (by decide +kernel) ?_
  decide +kernel

/-- Values that meet the hypotheses of every clause of Obligations.SessionNumberUnused. -/
theorem witness_SessionNumberUnused :
    (let x : BopPath := .eth 0; let src : HostAddr := ⟨false, 0x0A000001⟩; let lo : BitVec 8 := 0x10; let hi : BitVec 8 := 0x1F; let s : State := wSes wSe (fun d => d);
     (src.wf = true) ∧ (s.dev.pathUp x = true) ∧ (lo ≤ hi) ∧ (lo ≤ 0x12) ∧ (0x10 ≤ hi) ∧ (isEth x = true) ∧ ((s.dev.dict.sessions.filter (fun r => decide (r.path = x))).length < 16) ∧ (s.dev.dict.sessions.length < 64)) := by decide +kernel

/-- Values that meet the hypotheses of every clause of Obligations.FramesAndPorts. -/
theorem witness_FramesAndPorts :
    (let p : Fin 2 := 1; let x : EthPeer := ⟨5, ⟨false, 0x0A000001⟩, ⟨false, 0x0A000002⟩⟩; let bs : List (BitVec 8) := [1, 2]; let s : State := wSes wSe wV4;
     (BopArrives p x s) ∧ (s.dev.pathUp (.eth p) = true) ∧ (s.dev.checkFrame (.eth p) bs = none)) ∧
    (let p : Fin 2 := 1; let x : EthPeer := ⟨5, ⟨false, 0x0A000001⟩, ⟨false, 0x0A000002⟩⟩; let bs : List (BitVec 8) := wReq 0x12 9 4 [wR 0x10 0x1001 1 2 []]; let recs : List BopRec := [wBopRec 0x10]; let r : Session := wEs; let s : State := wSes wSe wV4;
     (BopArrives p x s) ∧ (s.dev.checkFrame (.eth p) bs = some recs) ∧ (bs.getD 1 0 = 0) ∧ (natOfBytes ((bs.drop 10).take 2) = 0) ∧ (connectFrame (natOfBytes ((bs.drop 2).take 2)) recs = false) ∧ (BopOpen (.eth p) (natOfBytes ((bs.drop 2).take 2)) r s) ∧ (natOfBytes ((bs.drop 4).take 4) = r.seq)) ∧
    (let p : Fin 2 := 1; let x : EthPeer := ⟨5, ⟨false, 0x0A000001⟩, ⟨false, 0x0A000002⟩⟩; let bs : List (BitVec 8) := wReq 0x12 9 6 [wR 0x10 0x1001 1 2 []]; let recs : List BopRec := [wBopRec 0x10]; let r : Session := wEs; let s : State := wSes wSe wV4;
     (BopArrives p x s) ∧ (s.dev.checkFrame (.eth p) bs = some recs) ∧ (bs.getD 1 0 = 0) ∧ (natOfBytes ((bs.drop 10).take 2) = 0) ∧ (connectFrame (natOfBytes ((bs.drop 2).take 2)) recs = false) ∧ (BopOpen (.eth p) (natOfBytes ((bs.drop 2).take 2)) r s) ∧ (natOfBytes ((bs.drop 4).take 4) ≠ r.seq) ∧ (natOfBytes ((bs.drop 4).take 4) ≠ (r.seq + 1) % 2 ^ 32)) ∧
    (let p : Fin 2 := 1; let x : EthPeer := ⟨5, ⟨false, 0x0A000001⟩, ⟨false, 0x0A000002⟩⟩; let bs : List (BitVec 8) := wReq 0x12 9 5 [wR 0x7F 0x1001 1 2 []]; let q : BopRec := wBopRec 0x7F; let r : Session := wEs; let s : State := wSes wSe wV4;
     (BopArrives p x s) ∧ (s.dev.checkFrame (.eth p) bs = some [q]) ∧ (bs.getD 1 0 = 0) ∧ (natOfBytes ((bs.drop 10).take 2) = 0) ∧ (connectFrame (natOfBytes ((bs.drop 2).take 2)) [q] = false) ∧ (BopOpen (.eth p) (natOfBytes ((bs.drop 2).take 2)) r s) ∧ (s.dev.dictReady = true) ∧ (natOfBytes ((bs.drop 4).take 4) ≠ r.seq) ∧ (natOfBytes ((bs.drop 4).take 4) = (r.seq + 1) % 2 ^ 32) ∧ (q.op = 0x7F)) ∧
    (let p : Fin 2 := 1; let x : EthPeer := ⟨5, ⟨false, 0x0A000001⟩, ⟨false, 0x0A000002⟩⟩; let bs : List (BitVec 8) := wReq 0x12 9 5 [wR 0x10 0x1001 1 2 []]; let recs : List BopRec := [wBopRec 0x10]; let r : Session := wEs; let s : State := wSes wSe wV4;
     (BopArrives p x s) ∧ (s.dev.checkFrame (.eth p) bs = some recs) ∧ (bs.getD 1 0 = 0) ∧ (natOfBytes ((bs.drop 10).take 2) = 0) ∧ (connectFrame (natOfBytes ((bs.drop 2).take 2)) recs = false) ∧ (BopOpen (.eth p) (natOfBytes ((bs.drop 2).take 2)) r s) ∧ (natOfBytes ((bs.drop 4).take 4) ≠ r.seq) ∧ (natOfBytes ((bs.drop 4).take 4) = (r.seq + 1) % 2 ^ 32)) ∧
    (let f : Fin 2 := 1; let s : State := wMb (fun d => d.setMbx 1 { d.mbx 1 with busy := true, reqLen := 24 });
     (s.dev.pathUp (.mailbox f) = true) ∧ ((s.dev.mbx f).busy = true) ∧ ((s.dev.mbx f).answer = none)) ∧
    (let f : Fin 2 := 1; let s : State := wSes wSe (fun d => d);
     ((s.dev.mbx f).busy = false ∨ (s.dev.mbx f).answer.isSome = true)) ∧
    (let k : Fin 4 := 2; let s : State := wState (fun d => (d.wrF .ctlCorekCtl 2 3 2 1).setSource 258 { en := true, cls := false, target := 0, sw := true });
     (s.dev.pathUp (.core k) = true) ∧ ((s.dev.source (256 + k)).sw = true)) ∧
    (let k : Fin 4 := 2; let s : State := wSes wSe (fun d => d);
     ((s.dev.source (256 + k)).sw = false)) ∧
    (let p : Fin 2 := 1; let x : EthPeer := ⟨5, ⟨false, 0x0A000001⟩, ⟨false, 0x0A000002⟩⟩; let s : State := wState (fun d => { d with domains := [] });
     (x.src.wf = true) ∧ (x.dst.wf = true) ∧ ((s.dev.pathUp (.eth p) = false ∨ s.dev.portHas p x.dst = false))) ∧
    (let p : Fin 2 := 1; let x : EthPeer := ⟨5, ⟨false, 0x0A000001⟩, ⟨false, 0x0A000002⟩⟩; let s : State := wSes wSe (fun d => d);
     (x.src.wf = true) ∧ (x.dst.wf = true) ∧ ((s.dev.pathUp (.eth p) = false ∨ s.dev.portHas p x.dst = false))) ∧
    (let f : Fin 2 := 1; let s : State := wState (fun d => d);
     (s.dev.pathUp (.mailbox f) = false)) ∧
    (let k : Fin 4 := 2; let s : State := wSes wSe (fun d => d);
     (s.dev.pathUp (.core k) = false)) ∧
    (let p : Fin 2 := 1; let x : EthPayload := ⟨wGrp, 5, .other⟩; let s : State := wState (fun d => wV4 (d.wrB .ethPpStat 1 0 true));
     (x.wf = true) ∧ (s.dev.powered = true) ∧ (s.dev.domOn 12 = true) ∧ (s.dev.rdB .ethPpStat p 0 = true)) ∧
    (let p : Fin 2 := 1; let len : Nat := 60; let tagged : Bool := true; let x : EthPayload := ⟨wGrp, 5, .other⟩; let s : State := wState (fun d => wV4 (d.wrB .ethPpStat 1 0 true));
     (x.wf = true) ∧ (s.dev.powered = true) ∧ (s.dev.domOn 12 = true) ∧ (s.dev.rdB .ethPpStat p 0 = true) ∧ (tagged = true ∨ 1518 < len)) ∧
    (let p : Fin 2 := 1; let len : Nat := 1519; let tagged : Bool := false; let x : EthPayload := ⟨wGrp, 5, .other⟩; let s : State := wState (fun d => wV4 (d.wrB .ethPpStat 1 0 true));
     (x.wf = true) ∧ (s.dev.powered = true) ∧ (s.dev.domOn 12 = true) ∧ (s.dev.rdB .ethPpStat p 0 = true) ∧ (tagged = true ∨ 1518 < len)) ∧
    (let p : Fin 2 := 1; let len : Nat := 60; let a : BitVec 48 := wGrp; let src : HostAddr := ⟨false, 0x0A000001⟩; let dst : HostAddr := ⟨false, 0x0A000002⟩; let s : State := wState (fun d => wV4 (d.wrB .ethPpStat 1 0 true));
     (src.wf = true) ∧ (dst.wf = true) ∧ (s.dev.powered = true) ∧ (s.dev.domOn 12 = true) ∧ (s.dev.rdB .ethPpStat p 0 = true) ∧ (len ≤ 1518) ∧ (toPort p a = true) ∧ (s.dev.portHas p dst = true)) ∧
    (let p : Fin 2 := 1; let len : Nat := 60; let a : BitVec 48 := wGrp; let target : BitVec 32 := 0x0A000002; let s : State := wState (fun d => wV4 (d.wrB .ethPpStat 1 0 true));
     (s.dev.powered = true) ∧ (s.dev.domOn 12 = true) ∧ (s.dev.rdB .ethPpStat p 0 = true) ∧ (len ≤ 1518) ∧ (toPort p a = true) ∧ (s.dev.portHas p ⟨false, target.toNat⟩ = true)) ∧
    (let p : Fin 2 := 1; let len : Nat := 60; let a : BitVec 48 := wGrp; let target : BitVec 128 := (BitVec.ofNat 128 5); let s : State := wState (fun d => (d.wrB .ethPpStat 1 0 true).setVar 0x1101 7 16 (5 * 2 ^ 120));
     (s.dev.powered = true) ∧ (s.dev.domOn 12 = true) ∧ (s.dev.rdB .ethPpStat p 0 = true) ∧ (len ≤ 1518) ∧ (toPort p a = true) ∧ (s.dev.portHas p ⟨true, target.toNat⟩ = true)) ∧
    (let p : Fin 2 := 1; let len : Nat := 60; let a : BitVec 48 := wGrp; let b : BitVec 48 := 5; let x : EthBody := .other; let s : State := wState (fun d => wV4 (d.wrB .ethPpStat 1 0 true));
     ((EthPayload.mk a b x).wf = true) ∧ (s.dev.powered = true) ∧ (s.dev.domOn 12 = true) ∧ (s.dev.rdB .ethPpStat p 0 = true) ∧ (len ≤ 1518) ∧ ((toPort p a = false ∨ (match x with | .echo _ dst _ => !s.dev.portHas p dst | .bop _ dst _ => !s.dev.portHas p dst | .echoReply _ _ _ => true | .fragment => true | .other => true | _ => false) = true))) ∧
    (let p : Fin 2 := 1; let len : Nat := 60; let a : BitVec 48 := wGrp; let b : BitVec 48 := 5; let x : EthBody := .echo ⟨false, 0x0A000001⟩ ⟨false, 0x0A000001⟩ [1]; let s : State := wState (fun d => wV4 (d.wrB .ethPpStat 1 0 true));
     ((EthPayload.mk a b x).wf = true) ∧ (s.dev.powered = true) ∧ (s.dev.domOn 12 = true) ∧ (s.dev.rdB .ethPpStat p 0 = true) ∧ (len ≤ 1518) ∧ ((toPort p a = false ∨ (match x with | .echo _ dst _ => !s.dev.portHas p dst | .bop _ dst _ => !s.dev.portHas p dst | .echoReply _ _ _ => true | .fragment => true | .other => true | _ => false) = true))) ∧
    (let p : Fin 2 := 1; let len : Nat := 60; let a : BitVec 48 := wGrp; let x : EthBody := .ptp; let s : State := wState (fun d => wV4 (d.wrB .ethPpStat 1 0 true));
     (s.dev.powered = true) ∧ (s.dev.domOn 12 = true) ∧ (s.dev.rdB .ethPpStat p 0 = true) ∧ (len ≤ 1518) ∧ (toPort p a = true) ∧ ((match x with | .arpRequest _ v => !s.dev.portHas p ⟨false, v.toNat⟩ | .solicit _ v => !s.dev.portHas p ⟨true, v.toNat⟩ | .arpReply _ _ => true | .advertise _ _ => true | .resolution => true | .ptp => true | _ => false) = true)) ∧
    (let p : Fin 2 := 1; let len : Nat := 60; let a : BitVec 48 := wGrp; let x : EthBody := .arpRequest 7 0x0A000001; let s : State := wState (fun d => wV4 (d.wrB .ethPpStat 1 0 true));
     (s.dev.powered = true) ∧ (s.dev.domOn 12 = true) ∧ (s.dev.rdB .ethPpStat p 0 = true) ∧ (len ≤ 1518) ∧ (toPort p a = true) ∧ ((match x with | .arpRequest _ v => !s.dev.portHas p ⟨false, v.toNat⟩ | .solicit _ v => !s.dev.portHas p ⟨true, v.toNat⟩ | .arpReply _ _ => true | .advertise _ _ => true | .resolution => true | .ptp => true | _ => false) = true)) ∧
    (let p : Fin 2 := 1; let len : Nat := 60; let a : BitVec 48 := wGrp; let src : HostAddr := ⟨false, 0x0A000001⟩; let dst : HostAddr := ⟨false, 0x0A000002⟩; let s : State := wState (fun d => wV4 (d.wrB .ethPpStat 1 0 true));
     (src.wf = true) ∧ (dst.wf = true) ∧ (s.dev.powered = true) ∧ (s.dev.domOn 12 = true) ∧ (s.dev.rdB .ethPpStat p 0 = true) ∧ (len ≤ 1518) ∧ (toPort p a = true) ∧ (s.dev.portHas p dst = true)) ∧
    (let p : Fin 2 := 1; let x : EthPayload := ⟨wGrp, 5, .other⟩; let s : State := wSes wSe (fun d => d);
     (x.wf = true) ∧ (s.dev.domOn 12 = false ∨ s.dev.rdB .ethPpStat p 0 = false)) ∧
    (let p : Fin 2 := 1; let up : Bool := false; let s : State := wSes wSe (fun d => d);
     (s.dev.powered = true) ∧ (s.dev.domOn 12 = true) ∧ (s.dev.rdB .ethPpStat p 0 = up)) ∧
    (let s : State := wState (fun d => { d with domains := [] });
     (s.dev.domOn 12 = false)) ∧
    (let s : State := wSes wSe (fun d => d);
     (s.dev.domOn 12 = false ∨ s.dev.var 0x1120 1 ≠ 1)) ∧
    (let p : Fin 2 := 1; let s : State := wSes wSe (fun d => d.wrB .ethPpStat 1 0 true);
     (s.dev.powered = true) ∧ (s.dev.domOn 12 = true) ∧ (s.dev.rdB .ethPpStat p 0 = true)) ∧
    (let p : Fin 2 := 1; let s : State := wSes wSe (fun d => d);
     (s.dev.powered = true) ∧ (s.dev.domOn 12 = true) ∧ (s.dev.rdB .ethPpStat p 0 = false)) ∧
    (let s : State := wState (fun d => d.setVar 0x1120 1 1 1);
     (s.dev.powered = true) ∧ (s.dev.domOn 12 = true) ∧ (s.dev.var 0x1120 1 = 1)) := by
  refine And.intro (by unfold BopArrives; decide +kernel) ?_
  iterate 4 refine And.intro (by unfold BopOpen BopArrives; decide +kernel) ?_
  iterate 25 refine And.intro (by decide +kernel) ?_
  decide +kernel

/-- Values that meet the hypotheses of every clause of Obligations.RecordsThatRead. -/
theorem witness_RecordsThatRead :
    (let x : BopPath := .mailbox 1; let n : Nat := 7; let o : ObjName := ⟨0x2010, 4, 4⟩; let r : Session := wSe; let b : Obj := wO 0x2010 4; let s : State := wSes wSe (fun d => d);
     (BopOpen x n r s) ∧ (BopNames o b s) ∧ (b.typ ≠ tDom) ∧ (b.typ ≠ tTbl) ∧ ((o.index = 0x6100 → (s.dev.mapSession x n (fun q => { q with heard := s.dev.now })).checkRefs (List.range 32) = (0, s.dev.mapSession x n (fun q => { q with heard := s.dev.now }))))) ∧
    (let x : BopPath := .mailbox 1; let n : Nat := 7; let o : ObjName := ⟨0x2FFF, 4, 4⟩; let r : Session := wSe; let s : State := wSes wSe (fun d => d);
     (BopOpen x n r s) ∧ (s.dev.dictReady = true) ∧ (objOf o.index.toNat o.sub.toNat = none)) ∧
    (let x : BopPath := .mailbox 1; let n : Nat := 7; let o : ObjName := ⟨0x2010, 4, 5⟩; let r : Session := wSe; let b : Obj := wO 0x2010 4; let s : State := wSes wSe (fun d => d);
     (BopOpen x n r s) ∧ (s.dev.dictReady = true) ∧ (objOf o.index.toNat o.sub.toNat = some b) ∧ (o.typ.toNat ≠ b.typ)) ∧
    (let x : BopPath := .mailbox 1; let n : Nat := 7; let o : ObjName := ⟨0x2010, 4, 4⟩; let r : Session := wSe; let s : State := wSes wSe (fun d => d.wrF .ghdState 0 2 0 1);
     (BopOpen x n r s) ∧ (s.dev.dictReady = false) ∧ (o.index ≠ 0x1000) ∧ (o.index ≠ 0x1001)) ∧
    (let x : BopPath := .mailbox 1; let n : Nat := 7; let o : ObjName := ⟨0x1120, 4, 10⟩; let r : Session := wSe; let b : Obj := wO 0x1120 4; let s : State := wSes wSe (fun d => d);
     (BopOpen x n r s) ∧ (BopNames o b s) ∧ (b.typ = tDom ∨ b.typ = tTbl) ∧ (s.dev.sramValue o.index.toNat o.sub.toNat = none) ∧ ((o.index = 0x8100 → o.sub ≠ 1)) ∧ ((o.index = 0x6100 → (s.dev.mapSession x n (fun q => { q with heard := s.dev.now })).checkRefs (List.range 32) = (0, s.dev.mapSession x n (fun q => { q with heard := s.dev.now }))))) ∧
    (let x : BopPath := .mailbox 1; let n : Nat := 7; let o : ObjName := ⟨0x5000, 2, 10⟩; let a : Nat := 0x6AA800; let m : Nat := 2; let ws : List Word := [7, 8]; let r : Session := wSe; let b : Obj := wO 0x5000 2; let s : State := wSes wSe (fun d => (d.setVar 0x5000 4 4 2).sramWrites 0x6AA800 [7, 8]);
     (BopOpen x n r s) ∧ (BopNames o b s) ∧ (b.typ = tDom ∨ b.typ = tTbl) ∧ (s.dev.sramValue o.index.toNat o.sub.toNat = some (a, m)) ∧ (m ≠ 0) ∧ (s.dev.sramOn a = true) ∧ (s.dev.sramOn (a + m - 1) = true) ∧ (s.dev.sramReadAll a m = (ws, 0, s.dev))) ∧
    (let x : BopPath := .mailbox 1; let n : Nat := 7; let o : ObjName := ⟨0x5000, 2, 10⟩; let a : Nat := 0x6AA800; let m : Nat := 2; let r : Session := wSe; let b : Obj := wO 0x5000 2; let s : State := wSes wSe (fun d => { (d.setVar 0x5000 4 4 2) with domains := [(22, .on)] });
     (BopOpen x n r s) ∧ (BopNames o b s) ∧ (b.typ = tDom ∨ b.typ = tTbl) ∧ (s.dev.sramValue o.index.toNat o.sub.toNat = some (a, m)) ∧ (m ≠ 0) ∧ (s.dev.sramOn a = false)) ∧
    (let x : BopPath := .mailbox 1; let n : Nat := 7; let o : ObjName := ⟨0x1120, 4, 10⟩; let off : Nat := 3; let r : Session := wSe; let b : Obj := wO 0x1120 4; let s : State := wSes wSe (fun d => d);
     (BopOpen x n r s) ∧ (BopNames o b s) ∧ (b.typ = tDom ∨ b.typ = tTbl) ∧ (0 < off) ∧ (tfind r.snaps o.key = none)) ∧
    (let x : BopPath := .mailbox 1; let n : Nat := 7; let o : ObjName := ⟨0x1120, 4, 10⟩; let r : Session := wSe; let b : Obj := wO 0x1120 4; let s : State := wSes wSe (fun d => d);
     (BopOpen x n r s) ∧ (BopNames o b s) ∧ (b.typ = tDom ∨ b.typ = tTbl)) ∧
    (let x : BopPath := .mailbox 1; let n : Nat := 7; let o : ObjName := ⟨0x2010, 4, 4⟩; let r : Session := wSe; let b : Obj := wO 0x2010 4; let s : State := wSes wSe (fun d => d);
     (BopOpen x n r s) ∧ (BopNames o b s) ∧ (b.typ ≠ tDom) ∧ (b.typ ≠ tTbl)) ∧
    (let x : BopPath := .mailbox 1; let n : Nat := 7; let o : ObjName := ⟨0x1120, 4, 10⟩; let off : Nat := 3; let v : List (BitVec 8) := [1, 2, 3, 4, 5, 6, 7, 8, 9]; let r : Session := { wSe with snaps := [(0x112004, [1, 2, 3, 4, 5, 6, 7, 8, 9])] }; let b : Obj := wO 0x1120 4; let s : State := wSes { wSe with snaps := [(0x112004, [1, 2, 3, 4, 5, 6, 7, 8, 9])] } (fun d => d);
     (BopOpen x n r s) ∧ (BopNames o b s) ∧ (b.typ = tDom ∨ b.typ = tTbl) ∧ (0 < off) ∧ (tfind r.snaps o.key = some v)) ∧
    (let x : BopPath := .mailbox 1; let n : Nat := 7; let o : ObjName := ⟨0x1130, 1, 10⟩; let off : Nat := 0; let r : Session := wSe; let b : Obj := wO 0x1130 1; let s : State := wSes wSe (fun d => d);
     (BopOpen x n r s) ∧ (BopNames o b s) ∧ (b.typ = tDom ∨ b.typ = tTbl) ∧ (o.index ≠ 0x9000) ∧ ((off = 0 ∨ 0 < off ∧ ((r.segs.find? (fun g => g.key = o.key)).map (fun g => g.bytes.length)) = some off))) ∧
    (let x : BopPath := .mailbox 1; let n : Nat := 7; let o : ObjName := ⟨0x1130, 1, 10⟩; let off : Nat := 1; let r : Session := { wSe with segs := [⟨0x113001, [1], 6⟩] }; let b : Obj := wO 0x1130 1; let s : State := wSes { wSe with segs := [⟨0x113001, [1], 6⟩] } (fun d => d);
     (BopOpen x n r s) ∧ (BopNames o b s) ∧ (b.typ = tDom ∨ b.typ = tTbl) ∧ (o.index ≠ 0x9000) ∧ ((off = 0 ∨ 0 < off ∧ ((r.segs.find? (fun g => g.key = o.key)).map (fun g => g.bytes.length)) = some off))) ∧
    (let x : BopPath := .mailbox 1; let n : Nat := 7; let o : ObjName := ⟨0x9000, 2, 10⟩; let off : Nat := 5; let r : Session := wSe; let b : Obj := wO 0x9000 2; let s : State := wSes wSe (fun d => d);
     (BopOpen x n r s) ∧ (BopNames o b s) ∧ (o.key = 0x900002) ∧ (0 < off) ∧ (r.segs.all (fun g => g.key ≠ 0x900002) = true)) ∧
    (let x : BopPath := .mailbox 1; let n : Nat := 7; let o : ObjName := ⟨0x2010, 4, 4⟩; let r : Session := wSe; let b : Obj := wO 0x2010 4; let s : State := wSes wSe (fun d => d);
     (BopOpen x n r s) ∧ (BopNames o b s) ∧ (1 ≤ r.minor)) ∧
    (let x : BopPath := .mailbox 1; let n : Nat := 7; let r : Session := { wSe with minor := 0 }; let s : State := wSes { wSe with minor := 0 } (fun d => d);
     (BopOpen x n r s) ∧ (r.minor = 0)) := by
  refine And.intro (by unfold BopOpen BopNames; decide +kernel) ?_
  iterate 3 refine And.intro (by unfold BopOpen; decide +kernel) ?_
  iterate 11 refine And.intro (by unfold BopOpen BopNames; decide +kernel) ?_
  unfold BopOpen; decide +kernel

/-- Values that meet the hypotheses of every clause of Obligations.RecordsThatWrite. -/
theorem witness_RecordsThatWrite :
    (let x : BopPath := .mailbox 1; let n : Nat := 7; let o : ObjName := ⟨0x2010, 4, 4⟩; let bs : List (BitVec 8) := bytesOfNat 4 500; let r : Session := wSe; let b : Obj := wO 0x2010 4; let s : State := wSes wSe (fun d => d);
     (BopOpen x n r s) ∧ (BopNames o b s) ∧ (s.dev.mayWrite r = true) ∧ (b.acc = .rws) ∧ (b.typ ≠ tDom) ∧ (b.typ ≠ tTbl) ∧ (o.index ≠ 0x6540) ∧ (lengthFits b bs = true) ∧ ((fixedSize b.typ = true → numFits b bs = true)) ∧ ((b.stop = true → s.dev.anyRunning = false)) ∧ (s.dev.hlk.frozen = none) ∧ (s.dev.dict.pending.length < 8192) ∧ (keysRising s.dev.dict.pending = true)) ∧
    (let x : BopPath := .mailbox 1; let n : Nat := 7; let o : ObjName := ⟨0x2010, 4, 4⟩; let bs : List (BitVec 8) := bytesOfNat 4 500; let r : Session := wSe; let b : Obj := wO 0x2010 4; let s : State := wSes wSe (fun d => { d with hlk := { d.hlk with frozen := some wFro } });
     (BopOpen x n r s) ∧ (BopNames o b s) ∧ (s.dev.mayWrite r = true) ∧ (b.acc = .rws) ∧ (b.typ ≠ tDom) ∧ (b.typ ≠ tTbl) ∧ (o.index ≠ 0x6540) ∧ (lengthFits b bs = true) ∧ ((fixedSize b.typ = true → numFits b bs = true)) ∧ ((b.stop = true → s.dev.anyRunning = false)) ∧ (s.dev.hlk.frozen.isSome = true)) ∧
    (let x : BopPath := .mailbox 1; let n : Nat := 7; let o : ObjName := ⟨0x2010, 4, 4⟩; let bs : List (BitVec 8) := bytesOfNat 4 500; let r : Session := wSe; let b : Obj := wO 0x2010 4; let s : State := wSes wSe (fun d => { d with dict := { d.dict with pending := (List.replicate 8192 5).map (fun i => (i, [])) } });
     (BopOpen x n r s) ∧ (BopNames o b s) ∧ (s.dev.mayWrite r = true) ∧ (b.acc = .rws) ∧ (b.typ ≠ tDom) ∧ (b.typ ≠ tTbl) ∧ (o.index ≠ 0x6540) ∧ (lengthFits b bs = true) ∧ ((fixedSize b.typ = true → numFits b bs = true)) ∧ ((b.stop = true → s.dev.anyRunning = false)) ∧ (s.dev.hlk.frozen = none) ∧ (8192 ≤ s.dev.dict.pending.length) ∧ (tfind s.dev.dict.pending o.key = none)) ∧
    (let x : BopPath := .mailbox 1; let n : Nat := 7; let o : ObjName := ⟨0x1001, 1, 2⟩; let r : Session := wSe; let b : Obj := wO 0x1001 1; let s : State := wSes wSe (fun d => d);
     (BopOpen x n r s) ∧ (BopNames o b s) ∧ (s.dev.mayWrite r = true) ∧ (b.acc = .ro ∨ b.acc = .const) ∧ (b.typ ≠ tDom) ∧ (b.typ ≠ tTbl)) ∧
    (let x : BopPath := .mailbox 1; let n : Nat := 7; let o : ObjName := ⟨0x2010, 4, 4⟩; let bs : List (BitVec 8) := [1]; let r : Session := wSe; let b : Obj := wO 0x2010 4; let s : State := wSes wSe (fun d => d);
     (BopOpen x n r s) ∧ (BopNames o b s) ∧ (s.dev.mayWrite r = true) ∧ (b.acc = .rw ∨ b.acc = .rws ∨ b.acc = .wo) ∧ (b.typ ≠ tDom) ∧ (b.typ ≠ tTbl) ∧ (lengthFits b bs = false)) ∧
    (let x : BopPath := .mailbox 1; let n : Nat := 7; let o : ObjName := ⟨0x2010, 1, 2⟩; let bs : List (BitVec 8) := [1]; let r : Session := wSe; let b : Obj := wO 0x2010 1; let s : State := wSes wSe (fun d => d.wrF .cxiHdhStat 0 2 0 3);
     (BopOpen x n r s) ∧ (BopNames o b s) ∧ (s.dev.mayWrite r = true) ∧ (b.acc = .rw ∨ b.acc = .rws ∨ b.acc = .wo) ∧ (b.typ ≠ tDom) ∧ (b.typ ≠ tTbl) ∧ (lengthFits b bs = true) ∧ ((fixedSize b.typ = true → numFits b bs = true)) ∧ (b.stop = true) ∧ (s.dev.anyRunning = true)) ∧
    (let p : Fin 2 := 1; let n : Nat := 9; let r : Session := wEs; let s : State := wSes wSe (fun d => d);
     (BopOpen (.eth p) n r s) ∧ (s.dev.dictReady = true) ∧ (s.dev.mayWrite r = false)) ∧
    (let x : BopPath := .mailbox 1; let n : Nat := 7; let r : Session := wSe; let s : State := wSes wSe (fun d => d.wrF .ghdState 0 2 0 1);
     (BopOpen x n r s) ∧ (s.dev.dictReady = false)) ∧
    (let p : Fin 2 := 1; let n : Nat := 9; let r : Session := wEs; let s : State := wSes wSe (fun d => d);
     (BopOpen (.eth p) n r s) ∧ (s.dev.dictReady = true) ∧ (s.dev.mayWrite r = false)) ∧
    (let x : BopPath := .mailbox 1; let n : Nat := 7; let off : Nat := 1; let o : ObjName := ⟨0x4300, 1, 11⟩; let bs : List (BitVec 8) := [2, 3, 4, 5, 6]; let all : List (BitVec 8) := [1, 2, 3, 4, 5, 6]; let r : Session := { wSe with segs := [⟨0x430001, [1], 6⟩] }; let b : Obj := wO 0x4300 1; let s : State := wSes { wSe with segs := [⟨0x430001, [1], 6⟩] } (fun d => d);
     (BopOpen x n r s) ∧ (BopNames o b s) ∧ (s.dev.mayWrite r = true) ∧ (b.acc = .rws) ∧ (b.typ = tDom ∨ b.typ = tTbl) ∧ (((r.segs.find? (fun g => g.key = o.key)).elim [] (fun g => g.bytes)).take off ++ bs = all) ∧ ((off = 0 ∨ ((r.segs.find? (fun g => g.key = o.key)).map (fun g => g.bytes.length)) = some off)) ∧ ((o.index = 0x6540 → all.length = 384)) ∧ (lengthFits b all = true) ∧ ((b.stop = true → s.dev.anyRunning = false)) ∧ (s.dev.hlk.frozen = none) ∧ (s.dev.dict.pending.length < 8192)) ∧
    (let x : BopPath := .mailbox 1; let n : Nat := 7; let i : Nat := 0; let hi : Nat := 0; let lo : Nat := 0; let g : Reg := .fioCtl; let o : ObjName := ⟨0x2580, 1, 1⟩; let bs : List (BitVec 8) := [1]; let r : Session := wSe; let b : Obj := wO 0x2580 1; let s : State := wSes wSe (fun d => d);
     (BopOpen x n r s) ∧ (BopNames o b s) ∧ (s.dev.mayWrite r = true) ∧ (b.acc = .rw) ∧ (b.back = .field g i hi lo) ∧ (b.typ ≠ tDom) ∧ (b.typ ≠ tTbl) ∧ (lengthFits b bs = true) ∧ ((fixedSize b.typ = true → numFits b bs = true)) ∧ ((b.stop = true → s.dev.anyRunning = false)) ∧ (objDomains o.index.toNat = [] ∨ s.dev.anyOn (objDomains o.index.toNat) = true) ∧ ((0x5100 ≤ o.index.toNat ∧ o.index.toNat < 0x5300 → s.dev.chState (o.index.toNat - 0x5100) = 0)) ∧ (o.index ≠ 0x8020)) ∧
    (let x : BopPath := .mailbox 1; let n : Nat := 7; let bs : List (BitVec 8) := [1]; let r : Session := wSe; let s : State := wSes wSe (fun d => d);
     (BopOpen x n r s) ∧ (s.dev.dictReady = true) ∧ (s.dev.mayWrite r = true) ∧ (bs.length ≠ 16)) ∧
    (let x : BopPath := .mailbox 1; let n : Nat := 7; let axis : Nat := 4; let target : Nat := 1000; let tag : Nat := 77; let r : Session := wSe; let s : State := wSes wSe (fun d => d);
     (BopOpen x n r s) ∧ (s.dev.dictReady = true) ∧ (s.dev.mayWrite r = true) ∧ (4 ≤ axis) ∧ (axis < 256) ∧ (target < 2 ^ 48) ∧ (tag < 2 ^ 32)) ∧
    (let x : BopPath := .mailbox 1; let n : Nat := 7; let target : Nat := 1000; let tag : Nat := 77; let r : Session := wSe; let s : State := wSes wSe (fun d => (d.wrB .hlkCtl 0 0 true).wrF .hlkStat 0 2 0 3);
     (BopOpen x n r s) ∧ (s.dev.dictReady = true) ∧ (s.dev.mayWrite r = true) ∧ (target < 2 ^ 48) ∧ (tag < 2 ^ 32) ∧ (s.dev.commit.state ≠ 1) ∧ (s.dev.herdState ≠ 0) ∧ (s.dev.herdState ≠ 4) ∧ (s.dev.isLead = false) ∧ (s.dev.portState s.dev.upPort ≠ 2)) ∧
    (let x : BopPath := .mailbox 1; let n : Nat := 7; let axis : Fin 4 := 2; let target : Nat := 1000; let tag : Nat := 77; let r : Session := wSe; let m : CommitReq := ⟨wLeadS.dev.devNum, 77, false, 2, 1000⟩; let s : State := wLeadS;
     (BopOpen x n r s) ∧ (s.dev.dictReady = true) ∧ (s.dev.mayWrite r = true) ∧ (target < 2 ^ 48) ∧ (tag < 2 ^ 32) ∧ (s.dev.commit.state ≠ 1) ∧ (s.dev.herdState ≠ 0) ∧ (s.dev.herdState ≠ 4) ∧ (s.dev.hlkOn = true) ∧ (s.dev.isLead = true) ∧ (s.dev.hlk.commit.isSome = true) ∧ (s.dev.hlk.held = none) ∧ (m = ⟨s.dev.devNum, BitVec.ofNat 32 tag, false, axis, BitVec.ofNat 48 target⟩)) ∧
    (let x : BopPath := .mailbox 1; let n : Nat := 7; let target : Nat := 1000; let tag : Nat := 77; let r : Session := wSe; let s : State := wSes wSe (fun d => (((d.wrB .hlkCtl 0 0 true).wrF .hlkStat 0 2 0 3).wrF .hlkPortpStat 1 2 0 2).wrF .hlkStat 0 17 16 1);
     (BopOpen x n r s) ∧ (s.dev.dictReady = true) ∧ (s.dev.mayWrite r = true) ∧ (target < 2 ^ 48) ∧ (tag < 2 ^ 32) ∧ (s.dev.commit.state ≠ 1) ∧ (s.dev.herdState ≠ 0) ∧ (s.dev.herdState ≠ 4) ∧ (s.dev.hlkOn = true) ∧ (s.dev.isLead = false) ∧ (s.dev.portState s.dev.upPort = 2)) ∧
    (let x : BopPath := .mailbox 1; let n : Nat := 7; let target : Nat := 1000; let tag : Nat := 77; let r : Session := wSe; let s : State := wSes wSe (fun d => { d with commit := { d.commit with state := 1 } });
     (BopOpen x n r s) ∧ (s.dev.dictReady = true) ∧ (s.dev.mayWrite r = true) ∧ (target < 2 ^ 48) ∧ (tag < 2 ^ 32) ∧ (s.dev.commit.state = 1)) ∧
    (let x : BopPath := .mailbox 1; let n : Nat := 7; let target : Nat := 1000; let tag : Nat := 77; let r : Session := wSe; let s : State := wSes wSe (fun d => d);
     (BopOpen x n r s) ∧ (s.dev.dictReady = true) ∧ (s.dev.mayWrite r = true) ∧ (target < 2 ^ 48) ∧ (tag < 2 ^ 32) ∧ (s.dev.commit.state ≠ 1) ∧ (s.dev.herdState = 0 ∨ s.dev.herdState = 4)) ∧
    (let x : BopPath := .mailbox 1; let n : Nat := 7; let target : Nat := 1000; let tag : Nat := 77; let r : Session := wSe; let s : State := wSes wSe (fun d => d.wrF .hlkStat 0 2 0 4);
     (BopOpen x n r s) ∧ (s.dev.dictReady = true) ∧ (s.dev.mayWrite r = true) ∧ (target < 2 ^ 48) ∧ (tag < 2 ^ 32) ∧ (s.dev.commit.state ≠ 1) ∧ (s.dev.herdState = 0 ∨ s.dev.herdState = 4)) ∧
    (let x : BopPath := .mailbox 1; let n : Nat := 7; let r : Session := wSe; let s : State := wSes wSe (fun d => { d with dict := { d.dict with pending := [(5, [1])] } });
     (BopOpen x n r s) ∧ (s.dev.dictReady = true) ∧ (s.dev.mayWrite r = true) ∧ (s.dev.hlk.frozen = none)) ∧
    (let x : BopPath := .mailbox 1; let n : Nat := 7; let r : Session := wSe; let s : State := wSes wSe (fun d => { d with hlk := { d.hlk with frozen := some wFro } });
     (BopOpen x n r s) ∧ (s.dev.dictReady = true) ∧ (s.dev.mayWrite r = true) ∧ (s.dev.hlk.frozen.isSome = true)) := by
  iterate 6 refine And.intro (by unfold BopOpen BopNames; decide +kernel) ?_
  iterate 3 refine And.intro (by unfold BopOpen; decide +kernel) ?_
  iterate 2 refine And.intro (by unfold BopOpen BopNames; decide +kernel) ?_
  iterate 9 refine And.intro (by unfold BopOpen; decide +kernel) ?_
  unfold BopOpen; decide +kernel

/-- Values that meet the hypotheses of every clause of Obligations.ProgramsAndStore. -/
theorem witness_ProgramsAndStore :
    (let off : Nat := 1009662; let n : Nat := 2; let ws : List Word := [5, 6]; let s : State := wState (fun d => d);
     (s.dev.dictReady = true) ∧ (s.dev.domOn 17 = true) ∧ (ws.length = n) ∧ (off + n ≤ 1009664) ∧ (s.dev.rdB .edcInjCtl 0 8 = false) ∧ (memWf MemWord.blank s.dev.sram = true)) ∧
    (let off : Nat := 1009663; let ws : List Word := [5, 6]; let s : State := wState (fun d => d);
     (s.dev.dictReady = true) ∧ (s.dev.domOn 17 = true) ∧ (1009664 < off + ws.length)) ∧
    (let s : State := wState (fun d => { d with domains := [] });
     (s.dev.dictReady = true) ∧ (s.dev.domOn 17 = false)) ∧
    (let s : State := wSes wSe (fun d => d.wrF .ghdState 0 2 0 1);
     (s.dev.powered = true) ∧ (s.dev.dictReady = false)) ∧
    (let s : State := wState (fun d => d);
     (s.dev.dictReady = true) ∧ (s.dev.dict.store ≠ 1)) ∧
    (let s : State := wState (fun d => d);
     (s.dev.dictReady = true) ∧ (s.dev.dict.store ≠ 1)) ∧
    (let s : State := wState (fun d => { d with dict := { d.dict with store := 1 } });
     (s.dev.dictReady = true) ∧ (s.dev.dict.store = 1)) ∧
    (let s : State := wState (fun d => { d with dict := { d.dict with store := 1 } });
     (s.dev.dictReady = true) ∧ (s.dev.dict.store = 1)) ∧
    (let values : List (Nat × List (BitVec 8)) := [(5, [1])]; let s : State := wState (fun d => { d with ghd := { d.ghd with flashOp := some (.store [(5, [1])]) } });
     (s.dev.powered = true) ∧ (s.dev.ghd.flashOp = some (.store values))) ∧
    (let s : State := wState (fun d => { d with ghd := { d.ghd with flashOp := some .erase } });
     (s.dev.powered = true) ∧ (s.dev.ghd.flashOp = some .erase)) ∧
    (let s : State := wState (fun d => { d with ghd := { d.ghd with flashOp := some .program } });
     (s.dev.powered = true) ∧ (s.dev.ghd.flashOp = some .program)) ∧
    (let s : State := wSes wSe (fun d => d);
     (s.dev.ghd.flashOp = none)) ∧
    (let s : State := wState (fun d => { d with ghd := { d.ghd with flashOp := some .erase, stored := [(5, [1])] } });
     (s.dev.powered = true) ∧ (s.dev.ghd.flashOp = some .erase)) ∧
    (let values : List (Nat × List (BitVec 8)) := [(5, [1])]; let s : State := wState (fun d => { d with ghd := { d.ghd with flashOp := some (.store [(5, [1])]) } });
     (s.dev.powered = true) ∧ (s.dev.ghd.flashOp = some (.store values))) := by
  iterate 13 refine And.intro (by decide +kernel) ?_
  decide +kernel

end Tests.Dict

namespace Tests.Ghd

def wSt (n : Nat) (f : Dev → Dev) : State := wState (fun d => f (d.wrF .ghdState 0 2 0 n))
def wRdy (f : Dev → Dev) : State := wSt 4 f
def wTr : StackTrain := { fail := none, read := none, repaired := 3, spares := 2 }
def wB0 : BootReport := { auth := 0, test := 0 }
def wClean : SelfTest := { checker := 0, march := 0, parity := 0 }

/-- Values that meet the hypotheses of every clause of Obligations.StatesEntered. -/
theorem witness_StatesEntered :
    (let c : Nat := 9;
     (c < 256)) ∧
    (let d : Dev := (wSt 4 (fun d => d)).dev; let c : Nat := 9;
     (c < 256) ∧ (d.devState ≠ .failed) ∧ (d.devState ≠ .off)) ∧
    (let d : Dev := (wSt 4 (fun d => d)).dev;
     (d.devState ≠ .failed) ∧ (d.devState ≠ .off)) ∧
    (let d : Dev := (wSt 7 (fun d => d)).dev;
     (d.devState = .failed ∨ d.devState = .off)) ∧
    (let d : Dev := (wSt 0 (fun d => d)).dev;
     (d.devState = .failed ∨ d.devState = .off)) := by
  iterate 4 refine And.intro (by decide +kernel) ?_
  decide +kernel

/-- Values that meet the hypotheses of every clause of Obligations.Resets. -/
theorem witness_Resets :
    (let s : State := wSt 0 (fun d => { d with ghd := { d.ghd with cause := 3 } });
     (s.dev.devState = .off) ∧ (s.dev.ghd.cause < 256)) ∧
    (let s : State := wRdy (fun d => d);
     (s.dev.devState ≠ .off)) ∧
    (let s : State := wSt 0 (fun d => { d with ghd := { d.ghd with cause := 3 } });
     (s.dev.devState = .off)) ∧
    (let serdes : Bool := false; let s : State := wSt 1 (fun d => { d with ghd := { d.ghd with pllHeld := true } });
     (serdes = false) ∧ (s.dev.devState = .boot) ∧ (s.dev.ghd.pllHeld = true)) ∧
    (let serdes : Bool := false; let s : State := wRdy (fun d => d);
     ((if serdes then s.dev.devState ≠ .train else s.dev.devState ≠ .boot ∨ s.dev.ghd.pllHeld = false))) ∧
    (let s : State := wRdy (fun d => d);
     (s.dev.devState ≠ .boot ∨ s.dev.ghd.pllHeld = false ∨ s.dev.ghd.up < 10000000)) ∧
    (let s : State := wSt 1 (fun d => { d with ghd := { d.ghd with pllHeld := true } });
     (s.dev.powered = false ∨ s.dev.ghd.pllHeld = true)) ∧
    (let s : State := wSt 3 (fun d => d);
     (s.dev.devState = .train)) ∧
    (let s : State := wSt 1 (fun d => { d with ghd := { d.ghd with pllHeld := true, up := 10000000 } });
     (s.dev.devState = .boot) ∧ (s.dev.ghd.pllHeld = true) ∧ (10000000 ≤ s.dev.ghd.up)) ∧
    (let s : State := wRdy (fun d => d);
     (s.dev.powered = true) ∧ (s.dev.ghd.pllHeld = false)) ∧
    (let s : State := wRdy (fun d => d);
     (s.dev.powered = true) ∧ (s.dev.ghd.pllHeld = false) ∧ (s.dev.ghd.flashOp = none)) ∧
    (let s : State := wSt 4 (fun d => { d with ghd := { d.ghd with flashOp := some .erase } });
     (s.dev.powered = true) ∧ (s.dev.ghd.pllHeld = false) ∧ (s.dev.ghd.flashOp.isSome = true)) ∧
    ((wImageDev 4088).bootRec.trial = false ∧ (wImageDev 4088).bootRec.active ≤ 1 ∧
     (wImageDev 4088).imageVerifies (wImageDev 4088).bootRec.active ((⟨1, 0⟩ : BootReport).auth.getLsbD (wImageDev 4088).bootRec.active) = true ∧
     (⟨1, 0⟩ : BootReport).test = 0) ∧
    (let d : Dev := (wSt 1 (fun d => d)).dev; let boot : BootReport := { auth := 0, test := 2 };
     (d.devState = .boot) ∧ (boot.test ≠ 0)) := by
  iterate 12 refine And.intro (by decide +kernel) ?_
  refine And.intro (by exact ⟨rfl, by decide, wImage_verifies 4088 (by omega), rfl⟩) ?_
  decide +kernel

set_option maxRecDepth 100000 in
/-- Values that meet the hypotheses of every clause of Obligations.TrainingAndService. -/
theorem witness_TrainingAndService :
    (let s : State := wSt 1 (fun d => d);
     (s.dev.devState = .boot) ∧ (s.dev.ghd.pllHeld = false)) ∧
    (let s : State := wRdy (fun d => d);
     (s.dev.devState ≠ .boot ∨ s.dev.ghd.pllHeld = true)) ∧
    (let s : State := wRdy (fun d => d);
     (s.dev.devState ≠ .selftest)) ∧
    (let t : SelfTest := wClean; let a : StackTrain := wTr; let b : StackTrain := wTr; let c : StackTrain := wTr; let e : StackTrain := wTr; let s : State := wSt 2 (fun d => d);
     (s.dev.devState = .selftest) ∧ (t.checker = 0) ∧ (t.march = 0) ∧ (t.parity = 0) ∧ (s.dev.trainFail 0 a = none) ∧ (s.dev.trainFail 1 b = none) ∧ (s.dev.trainFail 2 c = none) ∧ (s.dev.trainFail 3 e = none)) ∧
    (let t : SelfTest := wClean; let f : Nat := 2; let a : StackTrain := wTr; let b : StackTrain := { wTr with fail := some 2 }; let c : StackTrain := wTr; let e : StackTrain := wTr; let s : State := wSt 2 (fun d => d);
     (s.dev.devState = .selftest) ∧ (t.checker = 0) ∧ (t.march = 0) ∧ (t.parity = 0) ∧ (s.dev.trainFail 0 a = none) ∧ (s.dev.trainFail 1 b = some f) ∧ (s.dev.trainFail 2 c = none) ∧ (s.dev.trainFail 3 e = none) ∧ (f < 16) ∧ (s.dev.anyFenced = false)) ∧
    (let t : SelfTest := wClean; let a : StackTrain := wTr; let b : StackTrain := wTr; let c : StackTrain := wTr; let e : StackTrain := wTr; let s : State := wSt 2 (fun d => d);
     (s.dev.devState = .selftest) ∧ (t.checker = 0) ∧ (t.march = 0) ∧ (t.parity = 0) ∧ (s.dev.trainFail 0 a = none) ∧ (s.dev.trainFail 1 b = none) ∧ (s.dev.trainFail 2 c = none) ∧ (s.dev.trainFail 3 e = none)) ∧
    (let t : SelfTest := { wClean with march := 5 }; let s : State := wSt 2 (fun d => d);
     (s.dev.devState = .selftest) ∧ (t.checker ≠ 0 ∨ t.march ≠ 0)) ∧
    (let s : State := wSt 3 (fun d => d);
     (s.dev.devState = .train) ∧ (s.dev.ghd.partC = false)) ∧
    (let k : Fin 4 := 1; let x : ImageSlot := { bytes := List.replicate 20 0 ++ [12, 0, 0, 0] ++ List.replicate 4078 0 ++ [7, 0, 0, 0, 0, 0] }; let e : Nat := fld (wordOf 7) 39 0; let s : State := wSt 3 (fun d => { d with ghd := { d.ghd with slots := [(0, { bytes := List.replicate 20 0 ++ [12, 0, 0, 0] ++ List.replicate 4078 0 ++ [7, 0, 0, 0, 0, 0] })] } });
     (s.dev.devState = .train) ∧ (s.dev.ghd.partC = false) ∧ (s.dev.domOn 17 = true) ∧ (s.dev.rdB .ctlCorekCtl k 0 = false) ∧ (x = s.dev.imgSlot (s.dev.rdF .ghdBoot 0 0 0)) ∧ (e = fld ((wordsOfBytes (x.lenC / 6) (x.bytes.drop x.offC)).getD k 0) 39 0)) ∧
    (let s : State := wSt 3 (fun d => d);
     (s.dev.devState = .train) ∧ (s.dev.ghd.partC = false)) ∧
    (let s : State := wRdy (fun d => d);
     (s.dev.devState ≠ .train ∨ s.dev.ghd.partC = true)) ∧
    (let s : State := wRdy (fun d => d);
     (s.dev.devState ≠ .train ∨ s.dev.ghd.refHeld = true ∨ s.dev.ghd.partC = false)) ∧
    (let s : State := wSt 3 (fun d => { (d.setVar 0x8010 2 1 1) with ghd := { d.ghd with partC := true } });
     (s.dev.devState = .train) ∧ (s.dev.ghd.refHeld = false) ∧ (s.dev.ghd.partC = true) ∧ (s.dev.var 0x8010 2 = 1) ∧ (s.dev.powerState = .run) ∧ (s.dev.ghd.move = none) ∧ (s.dev.anyFenced = false)) ∧
    (let s : State := wSt 3 (fun d => { d with ghd := { d.ghd with partC := true } });
     (s.dev.devState = .train) ∧ (s.dev.ghd.refHeld = false) ∧ (s.dev.ghd.partC = true) ∧ (s.dev.var 0x8010 2 = 0) ∧ (s.dev.var 0x9000 6 = 0)) ∧
    (let s : State := wSt 2 (fun d => { d with ghd := { d.ghd with up := 2000000005, limitFrom := 5 } });
     (s.dev.devState = .boot ∨ s.dev.devState = .selftest ∨ s.dev.devState = .train) ∧ (s.dev.ghd.pllHeld = false) ∧ (2000000000 ≤ s.dev.ghd.up - s.dev.ghd.limitFrom)) ∧
    (let s : State := wRdy (fun d => d);
     ((s.dev.devState ≠ .boot ∧ s.dev.devState ≠ .selftest ∧ s.dev.devState ≠ .train) ∨ s.dev.ghd.pllHeld = true ∨ s.dev.ghd.up - s.dev.ghd.limitFrom < 2000000000)) ∧
    (let s : State := wRdy (fun d => d);
     (s.dev.dictReady = true) ∧ (s.dev.devState = .ready) ∧ (s.dev.powerState = .run) ∧ (s.dev.ghd.move = none)) ∧
    (let s : State := wRdy (fun d => d.wrF .hbcSsStat 1 2 0 5);
     (s.dev.dictReady = true) ∧ (s.dev.devState = .ready) ∧ (s.dev.powerState = .run) ∧ (s.dev.ghd.move = none)) ∧
    (let s : State := wSt 3 (fun d => d);
     (s.dev.powered = true) ∧ (s.dev.dictReady = false)) ∧
    (let s : State := wRdy (fun d => d);
     (s.dev.dictReady = true) ∧ (s.dev.inService = false)) ∧
    (let s : State := wRdy (fun d => { d with tfb := { d.tfb with served := true } });
     (s.dev.dictReady = true) ∧ (s.dev.devState = .ready) ∧ (s.dev.powerState = .run) ∧ (s.dev.ghd.move = none) ∧ (s.dev.tfb.served = true) ∧ (s.dev.anyFenced = false)) ∧
    (let s : State := wSt 5 (fun d => d);
     (s.dev.dictReady = true) ∧ (s.dev.inService = true)) ∧
    (let v : Nat := 2; let s : State := wRdy (fun d => d);
     (s.dev.dictReady = true) ∧ (1 < v)) ∧
    (let v : Nat := 2; let pass : BitVec 8 := 2; let a : StackTrain := wTr; let b : StackTrain := wTr; let c : StackTrain := wTr; let e : StackTrain := wTr; let k : Fin 4 := 1; let s : State := wSt 6 (fun d => d.wrF .hbcSsStat 1 2 0 5);
     (s.dev.dictReady = true) ∧ (s.dev.devState = .degraded) ∧ (v ≤ 255) ∧ (s.dev.fencedStacks = [k.val]) ∧ (s.dev.fencedGroups = []) ∧ (v.testBit k = true) ∧ (pass.getLsbD k = true) ∧ (s.dev.trainFail k ([a, b, c, e].getD k a) = none)) ∧
    (let v : Nat := 32; let pass : BitVec 8 := 32; let g : Fin 4 := 1; let s : State := wSt 6 (fun d => d.wrB .cxiGrpgStat 1 1 true);
     (s.dev.dictReady = true) ∧ (s.dev.devState = .degraded) ∧ (v ≤ 255) ∧ (s.dev.fencedStacks = []) ∧ (s.dev.fencedGroups = [g.val]) ∧ (v.testBit (4 + g) = true) ∧ (pass.getLsbD (4 + g) = true)) ∧
    (let v : Nat := 256; let s : State := wRdy (fun d => d);
     (s.dev.dictReady = true) ∧ (255 < v)) ∧
    (let s : State := wSt 3 (fun d => d);
     (s.dev.powered = true) ∧ (s.dev.dictReady = false)) ∧
    (let v : Nat := 255; let s : State := wRdy (fun d => d);
     (s.dev.dictReady = true) ∧ (s.dev.devState ≠ .degraded) ∧ (v ≤ 255)) ∧
    (let v : Nat := 2; let pass : BitVec 8 := 0; let a : StackTrain := wTr; let b : StackTrain := wTr; let c : StackTrain := wTr; let e : StackTrain := wTr; let s : State := wSt 6 (fun d => d.wrF .hbcSsStat 1 2 0 5);
     (s.dev.dictReady = true) ∧ (s.dev.devState = .degraded) ∧ (s.dev.anyFenced = true) ∧ (v ≤ 255) ∧ ((∀ k : Fin 4, v.testBit k = true → pass.getLsbD k = false ∨ (s.dev.trainFail k ([a, b, c, e].getD k a)).isSome = true)) ∧ ((∀ g : Fin 4, v.testBit (4 + g) = true → pass.getLsbD (4 + g) = false))) := by
  iterate 28 refine And.intro (by decide +kernel) ?_
  decide +kernel

/-- Values that meet the hypotheses of every clause of Obligations.Supervision. -/
theorem witness_Supervision :
    (let r : Fin 11 := 10; let mv : Nat := 4749; let s : State := wRdy (fun d => d);
     (s.dev.powered = true) ∧ (s.dev.ghd.pllHeld = false) ∧ (10 * mv < (railLevels r).2) ∧ (s.dev.ghd.warned.contains r.val = false)) ∧
    (let r : Fin 11 := 10; let mv : Nat := 4749; let s : State := wSt 4 (fun d => { d with ghd := { d.ghd with warned := [3, 10] } });
     (s.dev.powered = true) ∧ (s.dev.ghd.pllHeld = false) ∧ (10 * mv < (railLevels r).2) ∧ (s.dev.ghd.warned.contains r.val = true)) ∧
    (let r : Fin 11 := 10; let mv : Nat := 4750; let s : State := wRdy (fun d => d);
     (s.dev.powered = false ∨ s.dev.ghd.pllHeld = true ∨ (railLevels r).2 ≤ 10 * mv)) ∧
    (let r : Fin 11 := 10; let mv : Nat := 4801; let s : State := wRdy (fun d => d);
     (s.dev.ghd.warned.contains r.val = false ∨ 250 * mv ≤ 24 * (railLevels r).1 ∨ elapsed s.dev.now (tget s.dev.ghd.warnAt 0 r) < 1000000)) ∧
    (let r : Fin 11 := 10; let mv : Nat := 4801; let s : State := wRdy (fun d => { d with now := 1000005, ghd := { d.ghd with warned := [3, 10], warnAt := [(10, 5)] } });
     (s.dev.powered = true) ∧ (s.dev.ghd.warned.contains r.val = true) ∧ (24 * (railLevels r).1 < 250 * mv) ∧ (mv < 65536) ∧ (1000000 ≤ elapsed s.dev.now (tget s.dev.ghd.warnAt 0 r))) ∧
    (let x : Int := 800; let s : State := wRdy (fun d => d);
     (s.dev.powered = true) ∧ (s.dev.ghd.pllHeld = false) ∧ (800 ≤ x) ∧ (x < 32768) ∧ (s.dev.rdF .ghdThrottle 0 2 0 = 0)) ∧
    (let x : Int := 808; let s : State := wRdy (fun d => d.wrF .ghdThrottle 0 2 0 1);
     (s.dev.powered = true) ∧ (s.dev.ghd.pllHeld = false) ∧ (800 ≤ x) ∧ (x < 32768) ∧ (s.dev.rdF .ghdThrottle 0 2 0 ≠ 0)) ∧
    (let x : Int := 799; let s : State := wRdy (fun d => d);
     (s.dev.powered = false ∨ s.dev.ghd.pllHeld = true ∨ x < 800)) ∧
    (let x : Int := 800; let s : State := wRdy (fun d => d);
     (s.dev.rdF .ghdThrottle 0 2 0 = 0 ∨ x < 800 ∨ elapsed s.dev.now s.dev.ghd.throttledAt < 10000000)) ∧
    (let x : Int := 775; let s : State := wRdy (fun d => d);
     (s.dev.rdF .ghdThrottle 0 2 0 = 0 ∨ 776 ≤ x ∨ elapsed s.dev.now s.dev.ghd.throttledAt < 100000000)) ∧
    (let x : Int := 919; let s : State := wRdy (fun d => d);
     (s.dev.powered = false ∨ s.dev.ghd.pllHeld = true ∨ x < 920)) ∧
    (let s : State := wSt 0 (fun d => { d with ghd := { d.ghd with cause := 3 } });
     (s.dev.powered = false)) ∧
    (let s : State := wRdy (fun d => d);
     (s.dev.hbc.corrected = [])) ∧
    (let x : Int := 800; let s : State := wRdy (fun d => { d.wrF .ghdThrottle 0 2 0 4 with now := 10000000 });
     (s.dev.powered = true) ∧ (s.dev.rdF .ghdThrottle 0 2 0 ≠ 0) ∧ (800 ≤ x) ∧ (10000000 ≤ elapsed s.dev.now s.dev.ghd.throttledAt)) ∧
    (let x : Int := 775; let s : State := wRdy (fun d => { d.wrF .ghdThrottle 0 2 0 4 with now := 100000000 });
     (s.dev.powered = true) ∧ (s.dev.rdF .ghdThrottle 0 2 0 ≠ 0) ∧ (x < 776) ∧ (100000000 ≤ elapsed s.dev.now s.dev.ghd.throttledAt)) ∧
    (let x : Int := 920; let s : State := wRdy (fun d => d);
     (s.dev.powered = true) ∧ (s.dev.ghd.pllHeld = false) ∧ (s.dev.devState ≠ .failed) ∧ (920 ≤ x)) ∧
    (let s : State := wRdy (fun d => d);
     (s.dev.powered = true)) ∧
    (let k : Nat := 3; let n : Nat := 5; let s : State := wRdy (fun d => { d with hbc := { d.hbc with corrected := [(3, 5)] } });
     (s.dev.powered = true) ∧ (s.dev.hbc.corrected = [(k, n)]) ∧ (n ≠ 0)) := by
  iterate 17 refine And.intro (by decide +kernel) ?_
  decide +kernel

/-- Values that meet the hypotheses of every clause of Obligations.LogRecords. -/
theorem witness_LogRecords :
    (let d : Dev := (wSt 4 (fun d => d)).dev;
     (memWf MemWord.blank d.sram = true) ∧ (d.rdB .edcInjCtl 0 8 = false)) ∧
    (let sev : Nat := 3; let code : Nat := 0xFFF; let s : State := wRdy (fun d => d);
     (s.dev.dictReady = true) ∧ (sev ≤ 3) ∧ (0x800 ≤ code) ∧ (code ≤ 0xFFF)) ∧
    (let bs : List (BitVec 8) := [1, 2]; let s : State := wRdy (fun d => d);
     (s.dev.dictReady = true) ∧ (bs.length ≠ 13)) ∧
    (let s : State := wSt 3 (fun d => d);
     (s.dev.powered = true) ∧ (s.dev.dictReady = false)) ∧
    (let s : State := wSt 0 (fun d => { d with ghd := { d.ghd with cause := 3 } });
     (s.dev.powered = false ∨ s.dev.ghd.pllHeld = true ∨ s.dev.ghd.flashHighZ = true)) ∧
    (let s : State := wSt 4 (fun d => { d with ghd := { d.ghd with logNext := 3 } });
     (s.dev.powered = true) ∧ (s.dev.ghd.pllHeld = false) ∧ (s.dev.ghd.flashHighZ = false)) ∧
    (let m : Nat := 1; let n : Nat := 2; let s : State := wSt 4 (fun d => { d with ghd := { d.ghd with logNext := 3, flushed := 1 } });
     (s.dev.powered = true) ∧ (s.dev.ghd.pllHeld = false) ∧ (s.dev.ghd.flashHighZ = false) ∧ (m = max s.dev.ghd.flushed (s.dev.ghd.logNext - 1024)) ∧ (m + n = s.dev.ghd.logNext) ∧ ((s.dev.ringRecords m n).2 = s.dev) ∧ (s.dev.ghd.flashLog.length + n ≤ flashLogRoom)) ∧
    (let s : State := wRdy (fun d => d);
     (s.dev.powered = true) ∧ (s.dev.ghd.pllHeld = false) ∧ (s.dev.ghd.flushed = s.dev.ghd.logNext)) := by
  iterate 7 refine And.intro (by decide +kernel) ?_
  decide +kernel

/-- Values that meet the hypotheses of every clause of Obligations.UpdatesAndKeys. -/
theorem witness_UpdatesAndKeys :
    (let bs : List (BitVec 8) := [1, 2]; let s : State := wRdy (fun d => d);
     (s.dev.dictReady = true) ∧ (s.dev.bootRec.trial = false) ∧ (s.dev.ghd.verifying = false) ∧ (bs.length ≤ 8388608) ∧ (s.dev.ghd.flashOp = none)) ∧
    (let off : Nat := 3; let s : State := wSt 4 (fun d => { d with ghd := { d.ghd with slots := [(1, { bytes := [1, 2], st := .writing })] } });
     (s.dev.dictReady = true) ∧ (s.dev.bootRec.trial = false) ∧ (s.dev.ghd.verifying = false) ∧ (0 < off) ∧ ((s.dev.imgSlot s.dev.inactiveSlot).st = .writing) ∧ (off ≠ (s.dev.imgSlot s.dev.inactiveSlot).bytes.length)) ∧
    (let s : State := wSt 4 (fun d => { d with ghd := { d.ghd with verifying := true } });
     (s.dev.dictReady = true) ∧ (s.dev.bootRec.trial = true ∨ s.dev.ghd.verifying = true)) ∧
    (let s : State := wSt 4 (fun d => { d with ghd := { d.ghd with recs := [(0, { gen := 3, trial := true })] } });
     (s.dev.dictReady = true) ∧ (s.dev.bootRec.trial = true ∨ s.dev.ghd.verifying = true)) ∧
    (let bs : List (BitVec 8) := [3]; let kept : List (BitVec 8) := [1, 2]; let s : State := wSt 4 (fun d => { d with ghd := { d.ghd with slots := [(1, { bytes := [1, 2], st := .writing })] } });
     (s.dev.dictReady = true) ∧ (s.dev.bootRec.trial = false) ∧ (s.dev.ghd.verifying = false) ∧ ((s.dev.imgSlot s.dev.inactiveSlot).st = .writing) ∧ ((s.dev.imgSlot s.dev.inactiveSlot).bytes = kept) ∧ (0 < kept.length) ∧ (kept.length + bs.length ≤ 8388608)) ∧
    (let s : State := wSt 3 (fun d => d);
     (s.dev.powered = true) ∧ (s.dev.dictReady = false)) ∧
    (let s : State := wRdy (fun d => d);
     (s.dev.ghd.verifying = false)) ∧
    (let s : State := wSt 4 (fun d => { d with ghd := { d.ghd with recs := [(0, { gen := 3, trial := true })] } });
     (s.dev.dictReady = true) ∧ (s.dev.bootRec.trial = true)) ∧
    (let bs : List (BitVec 8) := []; let s : State := wRdy (fun d => d);
     (s.dev.dictReady = true) ∧ (bs.length ≠ 49)) ∧
    (let x : BopPath := .eth 0; let s : State := wRdy (fun d => d);
     (s.dev.dictReady = true) ∧ (isMailbox x = false)) ∧
    (let k : Nat := 4; let s : State := wRdy (fun d => d);
     (s.dev.dictReady = true) ∧ (3 < k)) ∧
    (let s : State := wSt 4 (fun d => { d with ghd := { d.ghd with verifying := true, slots := [(1, { bytes := [1, 2], st := .writing })] } });
     (s.dev.powered = true) ∧ (s.dev.ghd.verifying = true)) ∧
    (let s : State := wSt 4 (fun d => { d with ghd := { d.ghd with slots := [(1, { bytes := [1, 2], st := .valid })] } });
     (s.dev.dictReady = true) ∧ (s.dev.bootRec.trial = false) ∧ ((s.dev.imgSlot s.dev.inactiveSlot).st = .valid)) ∧
    (let s : State := wRdy (fun d => d);
     (s.dev.dictReady = true) ∧ (s.dev.bootRec.trial = false) ∧ ((s.dev.imgSlot s.dev.inactiveSlot).st ≠ .valid)) ∧
    (let s : State := wSt 4 (fun d => { d with ghd := { d.ghd with recs := [(0, { gen := 3, trial := true })] } });
     (s.dev.dictReady = true) ∧ (s.dev.bootRec.trial = true) ∧ (s.dev.bootRec.active = s.dev.rdF .ghdBoot 0 0 0)) ∧
    (let s : State := wRdy (fun d => d);
     (s.dev.dictReady = true) ∧ (s.dev.bootRec.trial = false)) ∧
    (let k : Fin 4 := 3; let bs : List (BitVec 8) := List.replicate 48 7; let s : State := wRdy (fun d => d);
     (s.dev.dictReady = true) ∧ (0 < k.val) ∧ (bs.length = 48) ∧ ((s.dev.keySlot k).digest = none)) ∧
    (let k : Fin 4 := 3; let bs : List (BitVec 8) := List.replicate 48 7; let s : State := wSt 4 (fun d => { d with ghd := { d.ghd with keys := [(3, { digest := some (List.replicate 48 9) })] } });
     (s.dev.dictReady = true) ∧ (0 < k.val) ∧ (bs.length = 48) ∧ ((s.dev.keySlot k).digest.isSome = true)) ∧
    (let x : BopPath := .eth 0; let s : State := wRdy (fun d => d);
     (s.dev.dictReady = true) ∧ (isMailbox x = false)) ∧
    (let k : Fin 4 := 3; let s : State := wRdy (fun d => d);
     (s.dev.dictReady = true) ∧ (k.val ≠ s.dev.ghd.keyC)) ∧
    (let k : Nat := 3; let s : State := wSt 4 (fun d => { d with ghd := { d.ghd with keyC := 3 } });
     (s.dev.dictReady = true) ∧ (k = s.dev.ghd.keyC) ∧ (k ≤ 3)) := by
  iterate 20 refine And.intro (by decide +kernel) ?_
  decide +kernel

/-- Values that meet the hypotheses of every clause of Obligations.PowerStates. -/
theorem witness_PowerStates :
    (let s : State := wRdy (fun d => d);
     (s.dev.dictReady = true) ∧ (s.dev.ghd.move = none) ∧ (s.dev.powerState = .run) ∧ (s.dev.inService = false)) ∧
    (let s : State := wSt 5 (fun d => d);
     (s.dev.dictReady = true) ∧ (s.dev.ghd.move = none) ∧ (s.dev.powerState = .run) ∧ (s.dev.inService = true)) ∧
    (let v : Nat := 2; let m : PowerMove := .toRun; let s : State := wSt 4 (fun d => { d with ghd := { d.ghd with move := some .toRun } });
     (s.dev.dictReady = true) ∧ (s.dev.ghd.move = some m) ∧ (v ≤ 2)) ∧
    (let v : Nat := 3; let s : State := wRdy (fun d => d);
     (s.dev.dictReady = true) ∧ (2 < v)) ∧
    (let s : State := wSt 3 (fun d => d);
     (s.dev.powered = true) ∧ (s.dev.dictReady = false)) ∧
    (let v : Nat := 0; let s : State := wRdy (fun d => d);
     (s.dev.dictReady = true) ∧ (s.dev.ghd.move = none) ∧ (v ≤ 2) ∧ (((v = 0 ∧ s.dev.powerState ≠ .standby) ∨ (v = 1 ∧ s.dev.powerState ≠ .run)))) ∧
    (let s : State := wRdy (fun d => d);
     (s.dev.ghd.move = none)) ∧
    (let s : State := wRdy (fun d => d);
     (s.dev.ghd.wakeAsked = false)) ∧
    (let s : State := wRdy (fun d => { d.wrF .ghdState 0 5 4 1 with ghd := { d.ghd with wakeAsked := true } });
     (s.dev.powered = true) ∧ (s.dev.ghd.wakeAsked = true) ∧ (s.dev.powerState = .standby) ∧ (s.dev.var 0x8020 2 ≠ 1 ∨ s.dev.ghd.move.isSome = true)) ∧
    (let s : State := wSt 4 (fun d => { d with ghd := { d.ghd with wakeAsked := true } });
     (s.dev.powered = true) ∧ (s.dev.ghd.wakeAsked = true) ∧ (s.dev.powerState = .run)) ∧
    (let s : State := wSt 4 (fun d => { d with ghd := { d.ghd with move := some .toStandby } });
     (s.dev.powered = true) ∧ (s.dev.ghd.move = some .toStandby) ∧ (s.dev.ghd.asked = none) ∧ (s.dev.quiesce.queueWaits = false) ∧ (s.dev.quiesce.gathersOpen = false)) ∧
    (let s : State := wRdy (fun d => { d.wrF .ghdState 0 5 4 1 with ghd := { d.ghd with move := some .toHibernate } });
     (s.dev.powered = true) ∧ (s.dev.ghd.move = some .toHibernate) ∧ (s.dev.ghd.asked = none) ∧ (s.dev.powerState = .standby)) ∧
    (let s : State := wSt 4 (fun d => { d with ghd := { d.ghd with move := some .toHibernate } });
     (s.dev.powered = true) ∧ (s.dev.ghd.move = some .toHibernate) ∧ (s.dev.ghd.asked = none) ∧ (s.dev.powerState = .run) ∧ (s.dev.quiesce.queueWaits = false) ∧ (s.dev.quiesce.gathersOpen = false)) ∧
    (let m : PowerMove := .toStandby; let s : State := wRdy (fun d => { d with cex := { d.cex with heldRecs := [[1]] }, ghd := { d.ghd with move := some .toStandby } });
     (s.dev.powered = true) ∧ (s.dev.ghd.move = some m) ∧ (s.dev.powerState = .run) ∧ (m ≠ .toRun) ∧ ((s.dev.quiesce.queueWaits = true ∨ s.dev.quiesce.gathersOpen = true))) ∧
    (let phy : BitVec 4 := 0xF; let s : State := wRdy (fun d => { d.wrF .ghdState 0 5 4 1 with ghd := { d.ghd with move := some .toRun } });
     (s.dev.powered = true) ∧ (s.dev.ghd.move = some .toRun) ∧ (s.dev.ghd.asked = none) ∧ (phy = 0xF) ∧ (s.dev.hbc.fenceLater = []) ∧ (s.dev.var 0x8010 1 = 0)) ∧
    (let s : State := wRdy (fun d => { (d.wrF .ghdState 0 5 4 1).setVar 0x8020 2 1 1 with ghd := { d.ghd with wakeAsked := true } });
     (s.dev.powered = true) ∧ (s.dev.ghd.wakeAsked = true) ∧ (s.dev.powerState = .standby) ∧ (s.dev.ghd.move = none) ∧ (s.dev.var 0x8020 2 = 1) ∧ (s.dev.inService = false)) ∧
    (let s : State := wRdy (fun d => { d.wrF .ghdState 0 5 4 2 with ghd := { d.ghd with wakeAsked := true } });
     (s.dev.powered = true) ∧ (s.dev.ghd.wakeAsked = true) ∧ (s.dev.powerState = .hibernate)) := by
  iterate 16 refine And.intro (by decide +kernel) ?_
  decide +kernel

end Tests.Ghd

end Sys2Proof
end

section
/-! PROOF SUPPORT. What a command leaves alone: the parts of the block that a register, a source and a processor context leave as
they were, and how such frames compose. -/

namespace Sys2Proof

open Machine

/-! ### Parts -/

/-- Parts that are the same over two changes are the same over both. -/
theorem Part.same_trans {d t u : Dev} {p : Part} (h : p.same d t) (g : p.same t u) : p.same d u := by
  cases p <;> exact g.trans h

/-- A register written leaves every part but the registers. -/
theorem Part.same_wr {p : Part} (hp : p ≠ .regs) (d : Dev) (r : Reg) (i : Nat) (v : Word) : p.same d (d.wr r i v) := by
  cases p with
  | regs => exact absurd rfl hp
  | _ => rfl

/-- A source replaced leaves every part but the event controller. -/
theorem Part.same_setSource {p : Part} (hp : p ≠ .evc) (d : Dev) (i : Nat) (x : Source) : p.same d (d.setSource i x) := by
  cases p with
  | evc => exact absurd rfl hp
  | _ => rfl

/-- A context replaced leaves every part but the processors. -/
theorem Part.same_setProc {p : Part} (hp : p ≠ .procs) (d : Dev) (n : Nat) (x : Proc) : p.same d (d.setProc n x) := by
  cases p with
  | procs => exact absurd rfl hp
  | _ => rfl

/-- A level that ends leaves every part but the event controller: it raises nothing. -/
theorem Part.same_setLevel_false {p : Part} (hp : p ≠ .evc) (d : Dev) (i : Nat) : p.same d (d.setLevel i false) := by
  have h : d.setLevel i false = d ∨ d.setLevel i false = d.setSource i { d.source i with l := false } := by
    unfold Dev.setLevel
    split
    · exact .inl rfl
    · by_cases hl : false = (d.source i).l
      · exact .inl (by simp [← hl])
      · exact .inr (by simp [hl])
  rcases h with h | h
  · rw [h]; cases p <;> rfl
  · rw [h]; exact Part.same_setSource hp d i _

/-! ### Registers -/

/-- A register written leaves the entries of all the others. -/
theorem Machine.Dev.tfind_regs_wr (d : Dev) (r : Reg) (i : Nat) (v : Word) {k : Nat} (hk : k ≠ regKey r i) :
    tfind (d.wr r i v).regs k = tfind d.regs k :=
  tfind_tset_ne d.regs v (Ne.symm hk)

/-- A register read after another was written. -/
theorem Machine.Dev.rd_wr_ne (d : Dev) {r r' : Reg} {i i' : Nat} (v : Word) (h : regKey r i ≠ regKey r' i') :
    (d.wr r i v).rd r' i' = d.rd r' i' := by
  rw [Dev.rd_wr, if_neg h]

/-- A register read after it was written. -/
theorem Machine.Dev.rd_wr_same (d : Dev) (r : Reg) (i : Nat) (v : Word) : (d.wr r i v).rd r i = v := by
  rw [Dev.rd_wr, if_pos rfl]

/-! ### Running a command -/

/-- A command whose operation leaves the block as it is leaves the machine as it is, with supplies or without. -/
theorem Machine.State.run_unchanged {s : State} {f : Dev → Dev} (h : f s.dev = s.dev) : s.run f = .next s := by
  simp [State.run, State.runAlways, h]

end Sys2Proof
end

section
/-! PROOF. O44: what a register write does (R2, R4, R15–R18, R479, R480, R484) and RUN of a control core (R389). -/

namespace Sys2Proof

open Machine

/-! ### A plain write -/

/-- A plain write bit by bit: an RW bit takes the value's, any other clears where it is W1C and the value's is 1 (R4). -/
theorem Machine.bit_plainWrite (r : Reg) (old w : Word) {i : Nat} (hi : i < 48) :
    bit (plainWrite r old w) i =
      if bit (wordOf (regDesc r).rw) i then bit w i else bit old i && !(bit w i && bit (wordOf (regDesc r).w1c) i) := by
  simp only [bit, plainWrite, BitVec.getLsbD_or, BitVec.getLsbD_and, BitVec.getLsbD_not, hi, decide_true, Bool.true_and]
  by_cases h : (wordOf (regDesc r).rw).getLsbD i = true <;> simp [h]

/-- A plain write leaves every register but its own. -/
theorem regsOnly_plainStore (s : State) (r : Reg) (i : Nat) (w : Word) :
    RegsOnly [regKey r i] s { s with dev := s.dev.plainStore r i w } := fun _ hk =>
  s.dev.tfind_regs_wr r i _ (List.ne_of_not_mem_cons hk)

/-- A plain write leaves everything but registers. -/
theorem only_plainStore (s : State) (r : Reg) (i : Nat) (w : Word) :
    Only [.regs] s { s with dev := s.dev.plainStore r i w } :=
  ⟨rfl, fun _ hp => Part.same_wr (List.ne_of_not_mem_cons hp) s.dev r i _⟩

/-- The registers of the statement that a write stores into and does no more. -/
def plainRegs : List Reg :=
  [.sprAxnAmax, .sprEncnCfg, .hlkPortpErr, .cxiLklPcxLim, .edcInjAddr, .edcInjData, .ctlCorekEntry, .evcStat, .cexLqCons]

/-- Such a register has no rule of its own: a write of it is a plain one, whoever asks. -/
theorem storeReg_of_mem_plainRegs {r : Reg} (h : r ∈ plainRegs) (d : Dev) (q : Requester) (i : Nat) (w : Word) :
    d.storeReg q r i w = d.plainStore r i w := by
  simp only [plainRegs, List.mem_cons, List.not_mem_nil, or_false] at h
  rcases h with rfl | rfl | rfl | rfl | rfl | rfl | rfl | rfl | rfl <;> rfl

/-- None of them lies in Goatherd's window. -/
theorem win_of_mem_plainRegs {r : Reg} (h : r ∈ plainRegs) : (regDesc r).win ≠ 14 := by
  revert r; decide

/-! ### What an access meets -/

/-- The registers of a window lie there by their descriptions. -/
theorem win_of_mem_regsOfWindow {win : Nat} (hw : win ≤ 16) {r : Reg} (h : r ∈ regsOfWindow win) : (regDesc r).win = win := by
  have key : ∀ w : Fin 17, ∀ r ∈ regsOfWindow w, (regDesc r).win = w := by decide
  exact key ⟨win, by omega⟩ r h

/-- There are no windows past the last. -/
theorem regAccess_unpopulated {win : Nat} (h : 16 < win) (d : Dev) (off : Nat) : d.regAccess win off = .unpopulated := by
  simp [Dev.regAccess, h]

/-- A register that an access meets lies in the window of the access. -/
theorem win_of_regAccess {d : Dev} {win off : Nat} {r : Reg} {i : Nat} (h : d.regAccess win off = .reg r i) :
    (regDesc r).win = win := by
  unfold Dev.regAccess at h
  split at h
  · cases h
  · next hw =>
    split at h
    · cases h
    · next r' i' hr =>
      split at h
      · cases h
        obtain ⟨x, hx, hi⟩ := List.exists_of_findSome?_eq_some hr
        obtain ⟨j, -, hj⟩ := Option.map_eq_some_iff.1 hi
        cases hj
        exact win_of_mem_regsOfWindow (by omega) hx
      · cases h

/-- A word that is no register in operation takes no write (R15, R16, R18). -/
theorem busWrite_no_reg {d : Dev} {win off : Nat} (h : ∀ r i, d.regAccess win off ≠ .reg r i) (q : Requester) (w : BitVec 64) :
    Dev.busWrite q win off w d = d := by
  unfold Dev.busWrite
  split
  · next r i e => exact absurd e (h r i)
  · rfl

/-- Only Goatherd writes the GHD window. -/
theorem busWrite_ghd (d : Dev) {q : Requester} (hq : q ≠ .goatherd) (off : Nat) (w : BitVec 64) :
    Dev.busWrite q 14 off w d = d := by
  unfold Dev.busWrite
  split
  · exact if_pos (by simp [hq])
  · rfl

/-- A host does not write a register of the other function, nor any while its port's domain is off (R480). -/
theorem busWrite_host_barred {d : Dev} {win off : Nat} {r : Reg} {i : Nat} {f : Fin 2} (h : d.regAccess win off = .reg r i)
    (hb : foreignReg f r i = true ∨ d.domOn (10 + f) = false) (w : BitVec 64) : Dev.busWrite (.host f) win off w d = d := by
  have hb' : (foreignReg f r i || !d.domOn (10 + f)) = true := by simpa using hb
  simp [Dev.busWrite, h, hb']

/-- A register outside the GHD window takes the low 48 bits from every requester that may reach it (R2). -/
theorem busWrite_reg {d : Dev} {win off : Nat} {r : Reg} {i : Nat} {q : Requester} (h : d.regAccess win off = .reg r i)
    (hw : win ≠ 14) (hq : ∀ f, q = .host f → foreignReg f r i = false ∧ d.domOn (10 + f) = true) (w : BitVec 64) :
    Dev.busWrite q win off w d = d.storeReg q r i (w.truncate 48) := by
  cases q with
  | host f =>
    obtain ⟨hf, hd⟩ := hq f rfl
    simp [Dev.busWrite, h, hw, hf, hd]
  | _ => simp [Dev.busWrite, h, hw]

/-! ### The command -/

/-- REGISTER_WRITE runs its operation. -/
theorem exec_registerWrite (q : Requester) (win : Fin 256) (off : BitVec 16) (w : BusWord) (s : State) :
    exec (.registerWrite q win off w) s = s.run (registerWriteOp q win off.toNat w) := rfl

/-- A write of a whole slot, and every write that no host makes, is a write of one word. -/
theorem registerWriteOp_word {q : Requester} {g : RegPlace} (h : ∀ f, q = .host f → g = .slot) (win off : Nat) (w : BitVec 64)
    (d : Dev) : registerWriteOp q win off ⟨w, g⟩ d = Dev.busWrite q win off w d := by
  cases q with
  | host f => cases h f rfl; rfl
  | _ => rfl

/-- A slot that takes no write leaves the machine. -/
theorem exec_registerWrite_slot_unchanged {q : Requester} {win : Fin 256} {off : BitVec 16} {w : BitVec 64} {s : State}
    (h : Dev.busWrite q win off.toNat w s.dev = s.dev) : exec (.registerWrite q win off ⟨w, .slot⟩) s = .next s := by
  rw [exec_registerWrite]
  exact State.run_unchanged ((registerWriteOp_word (fun _ _ => rfl) _ _ w s.dev).trans h)

/-- A register without a rule of its own takes a plain write and nothing else changes (R2, R4). -/
theorem exec_registerWrite_plain {q : Requester} {win : Fin 256} {off : BitVec 16} {w : BitVec 64} {g : RegPlace} {r : Reg}
    {i : Nat} {s : State} (hp : s.dev.powered = true) (ha : s.dev.regAccess win off.toNat = .reg r i)
    (hq : ∀ f : Fin 2, q = .host f → g = .slot ∧ s.dev.domOn (10 + f) = true ∧ foreignReg f r i = false) (hr : r ∈ plainRegs) :
    exec (.registerWrite q win off ⟨w, g⟩) s = .next { s with dev := s.dev.plainStore r i (w.truncate 48) } := by
  have hw : win.val ≠ 14 := fun e => win_of_mem_plainRegs hr ((win_of_regAccess ha).trans e)
  have hb := busWrite_reg ha hw (fun f e => ⟨(hq f e).2.2, (hq f e).2.1⟩) w
  rw [exec_registerWrite, State.run_powered hp, registerWriteOp_word (fun f e => (hq f e).1), hb, storeReg_of_mem_plainRegs hr]

/-! ### BAR4 (R484) -/

/-- Offsets of BAR4 beside the doorbells and the MSI-X table take nothing, as does all of it while the port's domain is off. -/
theorem bar4Write_discarded {d : Dev} {f off : Nat}
    (h : d.domOn (10 + f) = false ∨ 0x200 ≤ off ∧ off < 0x400 ∨ 0x600 ≤ off ∧ off < 0x8000 ∨ 0x8400 ≤ off) (wide : Bool)
    (v : BitVec 64) : d.bar4Write f off wide v = d := by
  unfold Dev.bar4Write
  refine ite_eq_left_iff.2 fun hd => ?_
  have hon : d.domOn (10 + f) = true := by
    simp only [Bool.or_eq_true, Bool.not_eq_true', not_or, Bool.not_eq_false] at hd
    exact hd.1
  have ho := h.resolve_left (by simp [hon])
  have h1 : ¬off < 0x200 := by omega
  have h2 : ¬(0x400 ≤ off ∧ off < 0x600) := by omega
  have h3 : ¬(0x8000 ≤ off ∧ off < 0x8400) := by omega
  simp only [← Bool.decide_and, h1, h2, h3, decide_false, Bool.false_and, Bool.false_eq_true, if_false]

/-- MSI-X of a function read after one was replaced. -/
theorem msix_setMsix (d : Dev) (f g : Nat) (m : Msix) : (d.setMsix f m).msix g = if f = g then m else d.msix g := by
  simp [Dev.msix, Dev.setMsix]

/-- A message sent, or held pending, leaves the vector table. -/
theorem msix_vectors_sendMsix (d : Dev) (f v : Nat) : ((d.sendMsix f v).msix f).vectors = (d.msix f).vectors := by
  unfold Dev.sendMsix
  split
  · rfl
  · simp only
    split
    · rfl
    · simp [msix_setMsix, Msix.mark]

/-- Sending what is no longer masked leaves the vector table. -/
theorem msix_vectors_flushMsix (d : Dev) (f : Nat) : ((d.flushMsix f).msix f).vectors = (d.msix f).vectors := by
  refine forUpTo_keeps (fun e : Dev => (e.msix f).vectors = (d.msix f).vectors) 64 _ d rfl fun v e he => ?_
  simp only
  split
  · rw [msix_vectors_sendMsix, msix_setMsix, if_pos rfl]
    exact he
  · exact he

/-- The fourth part of a vector's place in the table is its mask; the other vectors stay. -/
theorem vector_write_control (m : Msix) (v x k : Nat) :
    (m.write (4 * v + 3) x).vector k = if v = k then { m.vector v with masked := x % 2 = 1 } else m.vector k := by
  have h1 : (4 * v + 3) / 4 = v := by omega
  have h2 : (4 * v + 3) % 4 = 3 := by omega
  simp [Msix.write, Msix.vector, h1, h2]

/-- A write of a vector's control sets its mask by bit 0 and leaves the other vectors. -/
theorem vector_bar4Write_control {d : Dev} {f : Nat} {v : Nat} (hv : v < 64) (hd : d.domOn (10 + f) = true) (w : BitVec 64) (k : Nat) :
    ((d.bar4Write f (0x8000 + 16 * v + 12) false w).msix f).vector k =
      if v = k then { (d.msix f).vector v with masked := w.getLsbD 0 } else (d.msix f).vector k := by
  have hb : d.bar4Write f (0x8000 + 16 * v + 12) false w =
      (d.setMsix f ((d.msix f).write (4 * v + 3) (w.toNat % 2 ^ 32))).flushMsix f := by
    have ha : (0x8000 + 16 * v + 12) % 4 = 0 := by omega
    have h1 : ¬0x8000 + 16 * v + 12 < 0x200 := by omega
    have h2 : ¬0x8000 + 16 * v + 12 < 0x600 := by omega
    have h3 : 0x8000 ≤ 0x8000 + 16 * v + 12 := by omega
    have h4 : 0x8000 + 16 * v + 12 < 0x8400 := by omega
    have hk : (0x8000 + 16 * v + 12 - 0x8000) / 4 = 4 * v + 3 := by omega
    simp only [Dev.bar4Write, hd, ha, h1, h2, h3, h4, hk, Bool.not_true, Bool.false_or, Bool.false_and, Bool.and_false,
      Bool.true_and, decide_true, decide_false, ne_eq, not_true_eq_false, Bool.false_eq_true, if_false, if_true]
  have hm : (decide (w.toNat % 2 ^ 32 % 2 = 1)) = w.getLsbD 0 := by
    simp [BitVec.getLsbD, Nat.testBit_zero]
  have ht : ((d.bar4Write f (0x8000 + 16 * v + 12) false w).msix f).vector k =
      ((d.msix f).write (4 * v + 3) (w.toNat % 2 ^ 32)).vector k := by
    unfold Msix.vector
    rw [hb, msix_vectors_flushMsix, msix_setMsix, if_pos rfl]
  rw [ht, vector_write_control, hm]

/-! ### Reads by a host -/

/-- A host reads zero, and changes nothing, where no register answers, at the other function's and while its port's domain is off
(R15, R16, R18, R480). -/
theorem hostRead_zero {d : Dev} {f win off : Nat}
    (h : ∀ r i, d.regAccess win off = .reg r i → foreignReg f r i = true ∨ d.domOn (10 + f) = false) :
    d.hostRead f win off = (some 0, d) := by
  unfold Dev.hostRead
  split
  · next r i e => exact if_pos (by simpa using h r i e)
  · rfl

/-- A read of another shape is zero (R479). -/
theorem barRead_ragged {off size : Nat} (h8 : ¬(size = 8 ∧ off % 8 = 0)) (h4 : ¬(size = 4 ∧ off % 4 = 0)) (d : Dev) (f : Nat) :
    d.barRead f off size = (some 0, d) := by
  unfold Dev.barRead
  rw [if_neg (by simpa using h8), if_neg (by simpa using h4)]

/-! ### RUN of a control core (R389) -/

/-- The block with RUN and the state of core k written into its control register. -/
def Machine.Dev.setCoreCtl (d : Dev) (k : Nat) (run : Bool) (st : Nat) : Dev :=
  (d.wrB .ctlCorekCtl k 0 run).wrF .ctlCorekCtl k 3 2 st

section
variable (d : Dev) (k : Nat) (run : Bool) (st : Nat)

/-- RUN as written. -/
theorem rdB_setCoreCtl : (d.setCoreCtl k run st).rdB .ctlCorekCtl k 0 = run := by
  simp only [Dev.setCoreCtl, Dev.wrF, Dev.wrB, Dev.rdB, Dev.rd_wr_same]
  rw [bit_setFld_disj _ _ (by omega), bit_setBit_same _ _ (by omega)]

/-- The state of the core as written. -/
theorem rdF_setCoreCtl : (d.setCoreCtl k run st).rdF .ctlCorekCtl k 3 2 = st % 4 := by
  simp only [Dev.setCoreCtl, Dev.wrF, Dev.rdF, Dev.rd_wr_same]
  exact fld_setFld_same _ st (by omega) (by omega)

/-- ENTRY is another register. -/
theorem rd_entry_setCoreCtl : (d.setCoreCtl k run st).rd .ctlCorekEntry k = d.rd .ctlCorekEntry k := by
  have h : regKey .ctlCorekCtl k ≠ regKey .ctlCorekEntry k := by simp [regKey, regDesc]
  simp only [Dev.setCoreCtl, Dev.wrF, Dev.wrB, Dev.rd_wr_ne _ _ h]

/-- The other registers stay. -/
theorem tfind_regs_setCoreCtl {j : Nat} (hj : j ≠ regKey .ctlCorekCtl k) :
    tfind (d.setCoreCtl k run st).regs j = tfind d.regs j :=
  (Dev.tfind_regs_wr _ _ _ _ hj).trans (Dev.tfind_regs_wr _ _ _ _ hj)

/-- Every part but the registers stays. -/
theorem same_setCoreCtl {p : Part} (hp : p ≠ .regs) : p.same d (d.setCoreCtl k run st) :=
  Part.same_trans (Part.same_wr hp _ _ _ _) (Part.same_wr hp _ _ _ _)

end

/-- RUN that does not change, and RUN of a core whose domain is off, does nothing. -/
theorem coreRunOp_idle {d : Dev} {k : Nat} {b : Bool} (h : d.domOn 17 = false ∨ d.rdB .ctlCorekCtl k 0 = b) :
    coreRunOp k b d = d := by
  unfold coreRunOp
  rw [if_pos (by simpa using h)]

/-- RUN written 1 starts the core at ENTRY, its registers at reset. -/
theorem coreRunOp_release {d : Dev} {k : Nat} (hd : d.domOn 17 = true) (h : d.rdB .ctlCorekCtl k 0 = false) :
    coreRunOp k true d =
      (d.setCoreCtl k true 1).setProc (1024 + k) { pc := d.rd .ctlCorekEntry k, released := d.ctlUp } := by
  rw [← rd_entry_setCoreCtl d k true 1]
  simp only [coreRunOp, hd, h, Bool.not_true, Bool.false_or, Bool.false_eq_true, decide_false, if_false, if_true]
  rfl

/-- RUN written 0 holds the core in reset, and its double fault is no longer active. -/
theorem coreRunOp_hold {d : Dev} {k : Nat} (hd : d.domOn 17 = true) (h : d.rdB .ctlCorekCtl k 0 = true) :
    coreRunOp k false d = ((d.setCoreCtl k false 0).setProc (1024 + k) {}).setLevel (665 + k) false := by
  simp only [coreRunOp, hd, h, Bool.not_true, Bool.false_or, Bool.true_eq_false, decide_false, Bool.false_eq_true, if_false]
  rfl

/-- The context of a number read after it was replaced. -/
theorem proc_setProc_same (d : Dev) (n : Nat) (p : Proc) : (d.setProc n p).proc n = p := by
  simp [Dev.proc, Dev.setProc]

/-- CORE_RUN runs its operation. -/
theorem exec_coreRun (k : Fin 4) (b : Bool) (s : State) : exec (.coreRun k b) s = s.run (coreRunOp k.val b) := rfl

/-- What RUN written 1 does to the machine. -/
theorem exec_coreRun_release (k : Fin 4) (s : State) (hp : s.dev.powered = true) (hd : s.dev.domOn 17 = true)
    (h : s.dev.rdB .ctlCorekCtl k 0 = false) :
    ∃ t, exec (.coreRun k true) s = .next t ∧
      t.dev.proc (1024 + k) = { pc := s.dev.rd .ctlCorekEntry k, released := s.dev.ctlUp } ∧
      t.dev.rdB .ctlCorekCtl k 0 = true ∧ t.dev.rdF .ctlCorekCtl k 3 2 = 1 ∧ RegsOnly [regKey .ctlCorekCtl k] s t ∧
      Only [.regs, .procs] s t := by
  refine ⟨_, State.run_powered hp _, ?_⟩
  rw [coreRunOp_release hd h]
  refine ⟨proc_setProc_same _ _ _, rdB_setCoreCtl _ _ _ _, rdF_setCoreCtl _ _ _ _, fun j hj => ?_, rfl, fun p hp => ?_⟩
  · exact tfind_regs_setCoreCtl _ _ _ _ (List.ne_of_not_mem_cons hj)
  · simp only [List.mem_cons, List.not_mem_nil, or_false, not_or] at hp
    obtain ⟨hregs, hprocs⟩ := hp
    exact Part.same_trans (same_setCoreCtl _ _ _ _ hregs) (Part.same_setProc hprocs _ _ _)

/-- What RUN written 0 does to the machine. -/
theorem exec_coreRun_hold (k : Fin 4) (s : State) (hp : s.dev.powered = true) (hd : s.dev.domOn 17 = true)
    (h : s.dev.rdB .ctlCorekCtl k 0 = true) :
    ∃ t, exec (.coreRun k false) s = .next t ∧ t.dev.proc (1024 + k) = {} ∧ t.dev.rdB .ctlCorekCtl k 0 = false ∧
      t.dev.rdF .ctlCorekCtl k 3 2 = 0 ∧ RegsOnly [regKey .ctlCorekCtl k] s t ∧ Only [.regs, .procs, .evc] s t := by
  refine ⟨_, State.run_powered hp _, ?_⟩
  rw [coreRunOp_hold hd h]
  refine ⟨?_, ?_, ?_, fun j hj => ?_, rfl, fun p hp => ?_⟩
  · simp only [Dev.proc, Dev.setLevel_keeps]
    exact proc_setProc_same _ _ _
  · simp only [Dev.rdB, Dev.setLevel_keeps]
    exact rdB_setCoreCtl _ _ _ _
  · simp only [Dev.rdF, Dev.setLevel_keeps]
    exact rdF_setCoreCtl _ _ _ _
  · simp only [Dev.setLevel_keeps]
    exact tfind_regs_setCoreCtl _ _ _ _ (List.ne_of_not_mem_cons hj)
  · simp only [List.mem_cons, List.not_mem_nil, or_false, not_or] at hp
    obtain ⟨hr, hpr, he⟩ := hp
    exact Part.same_trans (Part.same_trans (same_setCoreCtl _ _ _ _ hr) (Part.same_setProc hpr _ _ _)) (Part.same_setLevel_false he _ _)

/-! ### The statement -/

/-- Settles O44: a plain write bit by bit, the accesses that take nothing, BAR4's MSI-X table and RUN of a core, each by the lemma
of its operation. -/
theorem registerWrites : Obligations.RegisterWrites := by
  unfold Obligations.RegisterWrites
  refine ⟨fun r old w i => bit_plainWrite r old w i.isLt, ?plain, ?noReg, ?ghd, ?barred, ?ragged, ?raggedOff, ?bar4, ?msix,
    fun f win off s h => hostRead_zero fun r i e => by simpa [e] using h, fun win off s h => regAccess_unpopulated h s.dev off,
    fun f off size s h8 h4 => barRead_ragged h8 h4 s.dev f, exec_coreRun_release, exec_coreRun_hold,
    fun k b s h => (exec_coreRun k b s).trans (State.run_unchanged (coreRunOp_idle h))⟩
  case plain =>
    intro q win off w g r i s hp ha hq hr
    exact ⟨_, exec_registerWrite_plain hp ha hq hr, Dev.rd_wr_same _ _ _ _, regsOnly_plainStore _ _ _ _, only_plainStore _ _ _ _⟩
  case noReg =>
    intro q win off w s h
    exact exec_registerWrite_slot_unchanged (busWrite_no_reg (fun r i e => by simp [e] at h) q w)
  case ghd => exact fun q off w s hq => exec_registerWrite_slot_unchanged (busWrite_ghd s.dev hq _ w)
  case barred => exact fun f win off w r i s ha hb => exec_registerWrite_slot_unchanged (busWrite_host_barred ha hb w)
  case ragged =>
    intro f win off w s hp hd
    exact ⟨_, State.run_powered hp _, if_pos hd, rfl⟩
  case raggedOff =>
    intro f win off w s hd
    exact State.run_unchanged (if_neg (by simp [hd]))
  case bar4 => exact fun f win off w b s h => State.run_unchanged (bar4Write_discarded h b w)
  case msix =>
    intro f win v off w s hp hd ho hw
    have hvec := vector_bar4Write_control v.isLt hd w
    rw [← ho] at hvec
    refine ⟨_, State.run_powered hp _, ?_, fun k hk => ?_⟩
    · exact (congrArg MsixEntry.masked ((hvec v).trans (if_pos rfl))).trans hw
    · exact (hvec k).trans (if_neg fun e => hk (Fin.ext e.symm))

end Sys2Proof
end

section
/-! PROOF. O54: a device state that is entered stands in STATE of GHD_STATE (R578) — not in every state the type `Dev` holds. -/

namespace Sys2Proof

open Machine

/-- The stack whose HBC_Ss_SEV would have the key of GHD_STATE, 57,342. The device has stacks 0–3, but nothing in the type of a
state keeps a tile off the others, and the counters of a stack that is not there are kept under the key of another register. -/
def strayStack : Nat := (regKey .ghdState 0 - regKey .hbcSsSev 0) / (regDesc .hbcSsSev).stride

/-- A block in RUN whose head 0 is in RUN with a line waiting at Chamois. The line opens band 1 of a ring of one slot, so that the
directory entry of band 1 is read (R201); DIR_BASE, past its bits 25:0, places the directory on the stray stack, and the tile there
reads with one error corrected (R407). -/
def strayDirectoryDev : Dev :=
  let line : ChmLine :=
    { src := { line := 0, pos := 0, fire := 0, ast := .track }, y := [], base := 0, outW := 0, endedAt := 0 }
  { regs := [(regKey .cxiHdhStat 0, wordOf HeadState.run.code), (regKey .tfbLbStat 0, wordOf 16),
             (regKey .tfbLbhDirBase 0, wordOf (strayStack * 12582912)), (regKey .tfbLbhNb 0, wordOf 1),
             (regKey .tfbLbhStat 0, wordOf 1), (regKey .ghdState 0, wordOf DevState.run.code)],
    hbm := [(strayStack * 12582912, { sev := 1 })], tfb := { heads := [(0, { nextS := 1 })] },
    chm := { heads := [(0, { waiting := [line] })] } }

set_option maxRecDepth 30000 in
/-- READY entered from there: head 0 leaves RUN, its line is delivered (R185), and the read of the directory counts CORR1 of the stray
stack, which is 1 added to the code of READY in STATE. -/
theorem devState_enterState_strayDirectoryDev : (strayDirectoryDev.enterState .ready (some 9)).devState = .run := by
  decide +kernel

/-- Refutes O54: in strayDirectoryDev the device enters READY with cause 9, and STATE reads RUN. -/
theorem not_statesEntered : ¬ Obligations.StatesEntered := by
  unfold Obligations.StatesEntered
  rintro ⟨hcause, -⟩
  have hready := (hcause strayDirectoryDev .ready 9 (by decide)).1
  rw [devState_enterState_strayDirectoryDev] at hready
  cases hready

end Sys2Proof
end

section
/-! PROOF SUPPORT. The state a command that runs leads to, for the statements that a concrete state refutes. -/

namespace Sys2Proof

open Machine

/-- The block that a command which ran while supplies stand has led to. -/
theorem Machine.State.dev_of_run_next {s t : State} {f : Dev → Dev} (hp : s.dev.powered = true) (h : s.run f = .next t) :
    t.dev = f s.dev :=
  congrArg State.dev (Host.Outcome.next.inj ((State.run_powered hp f).symm.trans h)).symm

end Sys2Proof
end

section
/-! PROOF. O11: PRESET by the state of the axis's own tracker (R43) — but on the lead an axis that follows the herd goes by the
state of the axis it reads (R48). -/

namespace Sys2Proof

open Machine

/-- PRESET where the estimate that the axis reads is in motion is CFG_ERR and nothing else (R43). -/
theorem Machine.presetOp_of_moving {a : Nat} {d : Dev}
    (h : d.axisState a = .acquire ∨ d.axisState a = .track ∨ d.axisState a = .coast) : presetOp a d = d.axisCfgErr a := by
  rcases h with h | h | h <;> simp only [presetOp, h]

/-- A lead in RUN (HERD_STATE 5) whose axis 0 is enabled, follows the herd and reads axis 1 as HERD_AXIS. Axis 1 is in TRACK;
axis 0's own tracker stands in IDLE at 0, and 1,000 tk wait in its PRESET register. -/
def leadFollower : State :=
  { dev := {
      regs := [(regKey .sprAxnCtl 0, wordOf 7), (regKey .sprAxnPreset 0, wordOf 1000), (regKey .hlkStat 0, wordOf 5),
               (regKey .ghdState 0, wordOf DevState.run.code)],
      spr := { axes := [(1, { main := { st := .track, p := 5000 } })] } } }

/-- Refutes O11: on leadFollower the own tracker of axis 0 is in IDLE, but PRESET is CFG_ERR since axis 1, which axis 0 reads, is in
TRACK; the position given is not taken. -/
theorem not_axisCommands : ¬ Obligations.AxisCommands := by
  unfold Obligations.AxisCommands
  rintro ⟨-, -, -, hpreset, -⟩
  obtain ⟨t, ht, hp, -⟩ := hpreset 0 leadFollower (by decide) (by decide)
  have hmoving : leadFollower.dev.axisState (0 : Fin 4) = .track := by decide
  rw [State.dev_of_run_next (by decide) ht, Machine.presetOp_of_moving (.inr (.inl hmoving))] at hp
  exact absurd hp (by decide)

end Sys2Proof
end

section
/-! PROOF. O27: what ACT pushes (R309) — an entry that the axis is past already is queued as late (R67), which the statement's entry
is not. -/

namespace Sys2Proof

open Machine

/-- Channel 5 is RUNNING and owns scheduler 3, which is enabled with nothing queued; the two words at 6AB000h, where w3 points, are 0.
Axis 0, the scheduler's, holds 5,000 tk. -/
def pastAct : State :=
  { dev := {
      regs := [(regKey .sprActkCfg 3, wordOf 4), (regKey .ibxChcStat 5, wordOf 1), (regKey .ghdState 0, wordOf DevState.run.code)],
      domains := [(13, .on)], owners := [(.scheduler 3, 5)],
      procs := [(5, { pc := wordOf 0x6AA800, w := [(3, wordOf 0x6AB000)] })],
      spr := { axes := [(0, { main := { p := 5000 } })] } } }

/-- ACT of one entry for scheduler 3, its words where w3 points. -/
def oneEntryAct : ChWord :=
  { last := false, more := false, dry := false, hold := false, note := false, strict := false, rsv1 := 0, target := 3, count := 1,
    a := 3, rsv0 := 0 }

/-- The entry at position 0 that ACT pushes there is late. -/
theorem actQueue_chActOp_pastAct :
    (chActOp (5 : Fin 512).val oneEntryAct pastAct.dev).actQueue oneEntryAct.target.toNat =
      [{ pos := 0, widthUs := 0, level := false, late := true }] := by
  decide +kernel

/-- Refutes O27: on pastAct the entry queued is late, and the statement has one that is not. -/
theorem not_channelActions : ¬ Obligations.ChannelActions := by
  unfold Obligations.ChannelActions
  rintro ⟨-, -, -, -, -, -, -, -, hact, -⟩
  have hfresh : ChFresh 5 pastAct := by unfold ChFresh; decide
  obtain ⟨t, ht, -, hq, -⟩ := hact 5 oneEntryAct 0 0 pastAct hfresh (by decide) (by decide) (by decide) (by decide)
    (by decide +kernel) (by decide +kernel) (by decide) (by decide) (by decide)
  rw [State.dev_of_run_next hfresh.1 ht, actQueue_chActOp_pastAct] at hq
  exact absurd hq (by decide)

end Sys2Proof
end

section
/-! PROOF SUPPORT. What the operations of the position domain may reach: the parts, registers, axes and generators a change stays
within, one lemma for each operation. -/

namespace Sys2Proof

open Machine

/-! ### Footprints -/

/-- What a change may reach: parts of the block, registers by key, what may become of each axis, and generators. -/
structure Foot where
  parts : List Part
  regs : Nat → Prop
  axes : Nat → Axis → Axis → Prop
  gens : Nat → Prop
  axes_refl : ∀ b x, axes b x x
  axes_trans : ∀ b x y z, axes b x y → axes b y z → axes b x z

/-- From d to t nothing differs beyond a footprint, and the encoder inputs do not differ. -/
structure Within (F : Foot) (d t : Dev) : Prop where
  parts : ∀ p, p ∉ F.parts → p.same d t
  regs : ∀ k, ¬ F.regs k → tfind t.regs k = tfind d.regs k
  axes : ∀ b, F.axes b (d.axis b) (t.axis b)
  gens : ∀ g, ¬ F.gens g → t.gen g = d.gen g
  enc : t.spr.enc = d.spr.enc

variable {F : Foot} {d₀ d : Dev}

/-- Nothing changes. -/
theorem Within.refl (F : Foot) (d : Dev) : Within F d d where
  parts p _ := by cases p <;> rfl
  regs _ _ := rfl
  axes b := F.axes_refl b _
  gens _ _ := rfl
  enc := rfl

/-- Changes one after another. -/
theorem Within.trans {t : Dev} (h : Within F d₀ d) (g : Within F d t) : Within F d₀ t where
  parts p hp := Part.same_trans (h.parts p hp) (g.parts p hp)
  regs k hk := (g.regs k hk).trans (h.regs k hk)
  axes b := F.axes_trans b _ _ _ (h.axes b) (g.axes b)
  gens x hx := (g.gens x hx).trans (h.gens x hx)
  enc := g.enc.trans h.enc

/-- A footprint leaves a register alone, so it reads the same. -/
theorem Within.rd (h : Within F d₀ d) {r : Reg} {i : Nat} (hk : ¬ F.regs (regKey r i)) : d.rd r i = d₀.rd r i := by
  simp only [Dev.rd, tget, h.regs _ hk]

/-- A change that leaves the position domain, and reaches only parts that the footprint has and registers that it has. -/
theorem Within.step {t : Dev} (h : Within F d₀ d) (hp : ∀ p, p ∉ F.parts → p.same d t)
    (hr : ∀ k, ¬ F.regs k → tfind t.regs k = tfind d.regs k) (hs : t.spr = d.spr) : Within F d₀ t :=
  h.trans {
    parts := hp
    regs := hr
    axes := fun b => by rw [show t.axis b = d.axis b by simp only [Dev.axis, hs]]; exact F.axes_refl b _
    gens := fun g _ => by simp only [Dev.gen, hs]
    enc := by rw [hs] }

/-- A change of the position domain that leaves its encoder inputs, within what the footprint allows of axes and generators. -/
theorem Within.stepSpr {t : Dev} (h : Within F d₀ d) (hs : Part.spr ∈ F.parts) (ht : t = { d with spr := t.spr })
    (ha : ∀ b, F.axes b (d.axis b) (t.axis b)) (hg : ∀ g, ¬ F.gens g → t.gen g = d.gen g) (he : t.spr.enc = d.spr.enc) :
    Within F d₀ t :=
  h.trans {
    parts := fun p hp => by rw [ht]; cases p with | spr => exact absurd hs hp | _ => rfl
    regs := fun k _ => by rw [ht]
    axes := ha
    gens := hg
    enc := he }

/-- A change that a condition decides on. -/
theorem Within.opt {t : Dev} (c : Prop) [Decidable c] (h : Within F d₀ d) (ht : Within F d₀ t) : Within F d₀ (if c then t else d) := by
  split
  · exact ht
  · exact h

/-- A fold of changes within a footprint. -/
theorem Within.foldl {α : Type} {f : Dev → α → Dev} {l : List α} (h : Within F d₀ d)
    (hf : ∀ e, ∀ x ∈ l, Within F d₀ e → Within F d₀ (f e x)) : Within F d₀ (l.foldl f d) :=
  List.foldlRecOn l f h fun e he x hx => hf e x hx he

/-- A loop of changes within a footprint. -/
theorem Within.forUpTo {n : Nat} {f : Nat → Dev → Dev} (h : Within F d₀ d)
    (hf : ∀ i < n, ∀ e, Within F d₀ e → Within F d₀ (f i e)) : Within F d₀ (forUpTo n f d) :=
  h.foldl fun e i hi he => hf i (List.mem_range.1 hi) e he

/-! ### Registers and events -/

section
variable (h : Within F d₀ d)
include h

theorem Within.wr (hp : Part.regs ∈ F.parts) {r : Reg} {i : Nat} (hk : F.regs (regKey r i)) (v : Word) :
    Within F d₀ (d.wr r i v) :=
  h.step (fun p hq => Part.same_wr (fun (e : p = .regs) => hq (e ▸ hp)) d r i v)
    (fun _ hq => d.tfind_regs_wr r i v (fun e => hq (e ▸ hk))) rfl

theorem Within.wrB (hp : Part.regs ∈ F.parts) {r : Reg} {i : Nat} (hk : F.regs (regKey r i)) (b : Nat) (v : Bool) :
    Within F d₀ (d.wrB r i b v) := h.wr hp hk _

theorem Within.wrF (hp : Part.regs ∈ F.parts) {r : Reg} {i : Nat} (hk : F.regs (regKey r i)) (hi lo v : Nat) :
    Within F d₀ (d.wrF r i hi lo v) := h.wr hp hk _

theorem Within.satF (hp : Part.regs ∈ F.parts) {r : Reg} {i : Nat} (hk : F.regs (regKey r i)) (hi lo n : Nat) :
    Within F d₀ (d.satF r i hi lo n) := h.wr hp hk _

theorem Within.raise (hp : [Part.evc, .wev] ⊆ F.parts) (i : Nat) : Within F d₀ (d.raise i) := by
  refine h.step (fun p hq => ?_) (by simp) (by simp)
  cases p with
  | evc => exact absurd (hp (by simp)) hq
  | wev => exact absurd (hp (by simp)) hq
  | _ => simp [Part.same]

theorem Within.setLevel (hp : [Part.evc, .wev] ⊆ F.parts) (i : Nat) (b : Bool) : Within F d₀ (d.setLevel i b) := by
  refine h.step (fun p hq => ?_) (by simp) (by simp)
  cases p with
  | evc => exact absurd (hp (by simp)) hq
  | wev => exact absurd (hp (by simp)) hq
  | _ => simp [Part.same]

/-! ### Numbered things -/

theorem Within.setAxis (hp : Part.spr ∈ F.parts) {a : Nat} {x : Axis} (hx : F.axes a (d.axis a) x) : Within F d₀ (d.setAxis a x) := by
  refine h.stepSpr hp rfl (fun b => ?_) (fun _ _ => rfl) rfl
  rw [show (d.setAxis a x).axis b = if a = b then x else d.axis b from tget_tset ..]
  split
  · next e => exact e ▸ hx
  · exact F.axes_refl b _

theorem Within.setGen (hp : Part.spr ∈ F.parts) {g : Nat} (hg : F.gens g) (x : Gen) : Within F d₀ (d.setGen g x) := by
  refine h.stepSpr hp rfl (fun b => F.axes_refl b _) (fun b hb => ?_) rfl
  have hne : g ≠ b := fun e => hb (e ▸ hg)
  exact (tget_tset ..).trans (if_neg hne)

theorem Within.setActQueue (hp : Part.spr ∈ F.parts) (k : Nat) (l : List ActEntry) : Within F d₀ (d.setActQueue k l) :=
  h.stepSpr hp rfl (fun b => F.axes_refl b _) (fun _ _ => rfl) rfl

theorem Within.setOutDrv (hp : Part.fio ∈ F.parts) (x : Nat) (o : OutDrv) : Within F d₀ (d.setOutDrv x o) :=
  h.step (fun p hq => by cases p with | fio => exact absurd hp hq | _ => rfl) (fun _ _ => rfl) rfl

theorem Within.withCxi (hp : Part.cxi ∈ F.parts) (x : CxiState) : Within F d₀ { d with cxi := x } :=
  h.step (fun p hq => by cases p with | cxi => exact absurd hp hq | _ => rfl) (fun _ _ => rfl) rfl

theorem Within.setHead (hp : Part.cxi ∈ F.parts) (k : Nat) (x : CxiHead) : Within F d₀ (d.setHead k x) := h.withCxi hp _

theorem Within.withIbx (hp : Part.ibx ∈ F.parts) (x : IbxState) : Within F d₀ { d with ibx := x } :=
  h.step (fun p hq => by cases p with | ibx => exact absurd hp hq | _ => rfl) (fun _ _ => rfl) rfl

theorem Within.setRun (hp : Part.ibx ∈ F.parts) (c : Nat) (r : ChanRun) : Within F d₀ (d.setRun c r) := h.withIbx hp _

theorem Within.withHlk (hp : Part.hlk ∈ F.parts) (x : HlkState) : Within F d₀ { d with hlk := x } :=
  h.step (fun p hq => by cases p with | hlk => exact absurd hp hq | _ => rfl) (fun _ _ => rfl) rfl

end

/-! ### Trigger records and packets (R140, R150, R151, R169, R170) -/

/-- A footprint has what trigger records and packets may bring. -/
structure Foot.Records (F : Foot) : Prop where
  parts : [Part.regs, .cxi, .evc, .wev] ⊆ F.parts
  misroute : F.regs (regKey .cxiMisroute 0)
  loss : ∀ k < 64, F.regs (regKey .cxiHdhLoss k)
  recq : ∀ k < 64, F.regs (regKey .cxiHdhRecq k)

theorem Foot.Records.cxi (m : F.Records) : Part.cxi ∈ F.parts := m.parts (by simp)
theorem Foot.Records.regs (m : F.Records) : Part.regs ∈ F.parts := m.parts (by simp)
theorem Foot.Records.events (m : F.Records) : [Part.evc, .wev] ⊆ F.parts := List.Subset.trans (by decide) m.parts

/-- The head of a generator is one of the 64. -/
theorem headOfGen_lt {g k : Nat} (h : d.headOfGen g = some k) : k < 64 :=
  List.mem_range.1 (List.mem_of_find?_eq_some h)

section
variable (h : Within F d₀ d) (m : F.Records)
include h m

theorem Within.countLine (k : Nat) : Within F d₀ (d.countLine k) := h.setHead m.cxi k _

theorem Within.passLines (k : Nat) : Within F d₀ (d.passLines k) := h.setHead m.cxi k _

theorem Within.lossEvent (k cause : Nat) : Within F d₀ (d.lossEvent k cause) := by
  unfold Dev.lossEvent
  extract_lets x due
  split
  · exact (h.setHead m.cxi k _).raise m.events _
  · exact h

theorem Within.loseRecord {k : Nat} (hk : k < 64) (cause : Nat) (r : TrigRecord) : Within F d₀ (d.loseRecord k cause r) := by
  refine Within.lossEvent (Within.countLine (Within.satF ?_ m.regs (m.loss k hk) 15 0 1) m k) m k cause
  exact h.foldl fun _ p _ he => (he.setHead m.cxi p _).passLines m p

theorem Within.takeRecord (r : TrigRecord) : Within F d₀ (d.takeRecord r) := by
  unfold Dev.takeRecord
  split
  · exact h
  · next k hk =>
    have hk := headOfGen_lt hk
    split
    · refine Within.wrF (Within.setHead ?_ m.cxi k _) m.regs (m.recq k hk) 5 0 _
      split
      · split
        · exact (h.setHead m.cxi k _).loseRecord m hk _ _
        · exact h
      · exact h
    · exact h

theorem Within.requestTrig (l : Nat) (p : TrigPkt) : Within F d₀ (d.requestTrig l p) := by
  unfold Dev.requestTrig
  split
  · exact h.withCxi m.cxi _
  · exact h.satF m.regs m.misroute 31 0 1

theorem Within.firePackets (cxp out t : Word) : Within F d₀ (d.firePackets cxp out t) := by
  unfold Dev.firePackets
  split
  · extract_lets l e
    split
    · exact (h.requestTrig m l _).requestTrig m l _
    · exact h.requestTrig m l _
  · exact h

end

/-! ### Pulses and trigger generators (R54–R58, R64) -/

/-- A footprint has what the passing of points of a generator may bring. -/
structure Foot.Grid (F : Foot) (g : Nat) : Prop where
  parts : [Part.regs, .spr, .evc, .wev] ⊆ F.parts
  hwm : F.regs (regKey .sprTgnHwm g)
  next : F.regs (regKey .sprTgnNext g)
  drop : F.regs (regKey .sprTgnDrop g)
  gen : F.gens g

theorem Foot.Grid.regs {g : Nat} (m : F.Grid g) : Part.regs ∈ F.parts := m.parts (by simp)
theorem Foot.Grid.spr {g : Nat} (m : F.Grid g) : Part.spr ∈ F.parts := m.parts (by simp)
theorem Foot.Grid.events {g : Nat} (m : F.Grid g) : [Part.evc, .wev] ⊆ F.parts := List.Subset.trans (by decide) m.parts

/-- A footprint has what a fire of a generator that takes place may bring. -/
structure Foot.Fires (F : Foot) (g : Nat) : Prop extends Foot.Records F where
  spr : Part.spr ∈ F.parts
  line : F.regs (regKey .sprTgnLine g)
  gen : F.gens g

section
variable (h : Within F d₀ d)
include h

theorem Within.schedulePulse (hp : Part.fio ∈ F.parts) (x : Nat) (p : Pulse) : Within F d₀ (d.schedulePulse x p) :=
  h.setOutDrv hp x _

theorem Within.firePulses (hp : Part.fio ∈ F.parts) (out ofs t : Word) (st : AxState) : Within F d₀ (d.firePulses out ofs t st) := by
  unfold Dev.firePulses
  extract_lets one e
  have hone : ∀ e en sel pol o, Within F d₀ e → Within F d₀ (one e en sel pol o) := by
    intro e en sel pol o he
    unfold one
    split
    · exact he.schedulePulse hp _ _
    · exact he
  exact hone _ _ _ _ _ (hone _ _ _ _ _ h)

theorem Within.fixFire (hs : Part.spr ∈ F.parts) (hp : Part.fio ∈ F.parts) {g : Nat} (hg : F.gens g) (f : FixedFire) :
    Within F d₀ (d.fixFire g f) := (h.setGen hs hg _).firePulses hp _ _ _ _

theorem Within.fireNow {g : Nat} (m : F.Fires g) (f : FixedFire) : Within F d₀ (d.fireNow g f) :=
  (((h.wr m.regs m.line _).setGen m.spr m.gen _).firePackets m.toRecords _ _ _).takeRecord m.toRecords _

theorem Within.dropPoints (hp : [Part.regs, .evc, .wev] ⊆ F.parts) {g : Nat} (hk : F.regs (regKey .sprTgnDrop g)) (n : Nat) :
    Within F d₀ (d.dropPoints g n) := by
  unfold Dev.dropPoints
  split
  · exact h
  · exact (h.satF (hp (by simp)) hk 31 0 n).raise (List.Subset.trans (by decide) hp) _

theorem Within.passFixed {g : Nat} (m : F.Grid g) (f : FixedFire) : Within F d₀ (d.passFixed g f) := by
  unfold Dev.passFixed
  extract_lets next
  split
  · exact h
  · exact ((h.wr m.regs m.next _).wr m.regs m.hwm _).dropPoints (List.Subset.trans (by decide) m.parts) m.drop _

/-- Points that are passed stay within the generator's own registers; where one may fire in ACQUIRE, also within what a fire
brings. -/
theorem Within.passPoints {g : Nat} (m : F.Grid g) (hp : Part.fio ∈ F.parts)
    (ha : ∀ e, Within F d₀ e → e.axisState (e.genAxis g) = .acquire → F.Fires g) (p : P48) : Within F d₀ (d.passPoints g p) := by
  have hd : [Part.regs, .evc, .wev] ⊆ F.parts := List.Subset.trans (by decide) m.parts
  unfold Dev.passPoints
  extract_lets next x k n pt hit d₁ d₂ f
  have h₂ : Within F d₀ d₂ := ((h.wr m.regs m.next _).wr m.regs m.hwm _).setGen m.spr m.gen _
  repeat' split
  · exact h
  · exact h₂.dropPoints hd m.drop _
  · next hq _ => exact ((h₂.dropPoints hd m.drop _).firePulses hp _ _ _ _).fireNow (ha _ h₂ hq) _
  · exact h₂.dropPoints hd m.drop _
  · exact (h₂.dropPoints hd m.drop _).fixFire m.spr hp m.gen _
  · exact h₂.dropPoints hd m.drop _

theorem Within.regridGen {g : Nat} (m : F.Grid g) : Within F d₀ (d.regridGen g) :=
  (h.wr m.regs m.next _).setGen m.spr m.gen _

end

theorem Within.fixAhead (hs : Part.spr ∈ F.parts) (hp : Part.fio ∈ F.parts) {g : Nat} (hg : F.gens g) (n : Nat) {d : Dev}
    (h : Within F d₀ d) : Within F d₀ (Dev.fixAhead g n d) := by
  induction n generalizing d with
  | zero => exact h
  | succ n ih =>
    unfold Dev.fixAhead
    extract_lets a l mat j0 u j reached t
    split
    · exact ih (h.fixFire hs hp hg _)
    · exact h

section
variable (h : Within F d₀ d)
include h

theorem Within.fixNext (hs : Part.spr ∈ F.parts) (hp : Part.fio ∈ F.parts) {g : Nat} (hg : F.gens g) :
    Within F d₀ (d.fixNext g) := by
  unfold Dev.fixNext
  split
  · exact h.fixAhead hs hp hg 40
  · exact h

end

/-! ### What an estimate reads -/

/-- The registers that set how the position domain works; no motion writes them. -/
def settingRegs : List Reg :=
  [.sprGlbCtl, .sprEncnCfg, .sprEncnCount, .sprEncnZcnt, .sprAxnCtl, .sprAxnSecScale, .sprTgnCfg, .sprTgnPitch, .sprTgnPhase,
   .sprTgnStagger, .sprTgnMinInt, .sprTgnOut, .sprTgnOfs, .sprTgnCxp, .sprActkCfg, .hlkStat, .ghdState]

/-- A footprint leaves the settings alone. -/
def Foot.Still (F : Foot) : Prop := ∀ r ∈ settingRegs, ∀ i < (regDesc r).count, ¬ F.regs (regKey r i)

/-- A footprint leaves the axes alone. -/
def Foot.KeepsAxes (F : Foot) : Prop := ∀ b x y, F.axes b x y → y = x

/-- HERD_AXIS is one of the four axes. -/
theorem axisOf_lt {b : Nat} (hb : b < 4) : d.axisOf b < 4 := by
  unfold Dev.axisOf
  split
  · exact fld_lt _ 3 2
  · exact hb

/-- The axis of a generator is one of the four. -/
theorem genAxis_lt (g : Nat) : d.genAxis g < 4 := fld_lt _ 2 1

section
variable (h : Within F d₀ d) (hs : F.Still)
include h hs

/-- A setting reads as before. -/
theorem Within.setting {r : Reg} (hr : r ∈ settingRegs) {i : Nat} (hi : i < (regDesc r).count) : d.rd r i = d₀.rd r i :=
  h.rd (hs r hr i hi)

theorem Within.axisHerd {b : Nat} (hb : b < 4) : d.axisHerd b = d₀.axisHerd b := by
  simp only [Dev.axisHerd, Dev.rdB, h.setting hs (r := .sprAxnCtl) (by decide) hb]

theorem Within.isLead : d.isLead = d₀.isLead := by
  rw [Dev.isLead, Dev.rdF, h.setting hs (r := .hlkStat) (by decide) (i := 0) (by decide)]; rfl

theorem Within.axisOf {b : Nat} (hb : b < 4) : d.axisOf b = d₀.axisOf b := by
  rw [Dev.axisOf, Dev.rdB, Dev.rdF, h.isLead hs, h.axisHerd hs hb, h.setting hs (r := .sprAxnCtl) (by decide) hb]; rfl

theorem Within.readersOf (a : Nat) : d.readersOf a = d₀.readersOf a :=
  List.filter_congr fun b hb => by rw [h.axisOf hs (List.mem_range.1 hb)]

theorem Within.genAxis {g : Nat} (hg : g < 64) : d.genAxis g = d₀.genAxis g := by
  simp only [Dev.genAxis, Dev.rdF, h.setting hs (r := .sprTgnCfg) (by decide) hg]

theorem Within.devState : d.devState = d₀.devState := by
  rw [Dev.devState, Dev.rdF, h.setting hs (r := .ghdState) (by decide) (i := 0) (by decide)]; rfl

theorem Within.inService : d.inService = d₀.inService := by
  simp only [Dev.inService, h.devState hs]

theorem Within.gridIdx {g : Nat} (hg : g < 64) (p : P48) : d.gridIdx g p = d₀.gridIdx g p := by
  simp only [Dev.gridIdx, h.setting hs (r := .sprTgnPhase) (by decide) hg, h.setting hs (r := .sprTgnPitch) (by decide) hg]

theorem Within.gridPt {g : Nat} (hg : g < 64) (k : Int) : d.gridPt g k = d₀.gridPt g k := by
  simp only [Dev.gridPt, h.setting hs (r := .sprTgnPhase) (by decide) hg, h.setting hs (r := .sprTgnPitch) (by decide) hg]

omit hs in
theorem Within.axis (hx : F.KeepsAxes) (b : Nat) : d.axis b = d₀.axis b := hx b _ _ (h.axes b)

variable (hx : F.KeepsAxes)
include hx

theorem Within.axisState {b : Nat} (hb : b < 4) : d.axisState b = d₀.axisState b := by
  simp only [Dev.axisState, h.axisOf hs hb, h.axis hx]

theorem Within.trackerAt {b : Nat} (hb : b < 4) (sel : TrackerSel) (t : Word) : d.trackerAt b sel t = d₀.trackerAt b sel t := by
  simp only [Dev.trackerAt, Dev.spacing, Dev.spacingQ, h.axisHerd hs hb, h.axis hx,
    h.setting hs (r := .sprAxnSecScale) (by decide) hb]

theorem Within.axisPosAt {b : Nat} (hb : b < 4) (t : Word) : d.axisPosAt b t = d₀.axisPosAt b t := by
  rw [Dev.axisPosAt, h.axisOf hs hb, h.trackerAt hs hx (axisOf_lt hb)]; rfl

theorem Within.genTracks {g : Nat} (hg : g < 64) : d.genTracks g = d₀.genTracks g := by
  simp only [Dev.genTracks, Dev.rdB, h.genAxis hs hg, h.axisState hs hx (genAxis_lt g),
    h.setting hs (r := .sprTgnCfg) (by decide) hg]

end

/-- A generator that tracks has its axis in TRACK or COAST, not in ACQUIRE. -/
theorem axisState_ne_acquire_of_genTracks {g : Nat} (h : d.genTracks g = true) : d.axisState (d.genAxis g) ≠ .acquire := by
  intro e
  simp [Dev.genTracks, e] at h

/-! ### A footprint of motion -/

/-- The registers that motion writes: what the generators, schedulers, axes and heads report. -/
def motionRegs : List Reg :=
  [.sprTgnLine, .sprTgnHwm, .sprTgnNext, .sprTgnDrop, .sprActkMissed, .sprAxnCoastPos, .sprAxnCoastEnd, .sprAxnRejCnt,
   .sprAxnLastEdge, .cxiMisroute, .cxiHdhLoss, .cxiHdhRecq]

/-- The key of a register that motion writes. -/
def MotionKey (k : Nat) : Prop := ∃ r ∈ motionRegs, ∃ i < (regDesc r).count, k = regKey r i

theorem motionKey {r : Reg} (hr : r ∈ motionRegs) {i : Nat} (hi : i < (regDesc r).count) : MotionKey (regKey r i) :=
  ⟨r, hr, i, hi, rfl⟩

/-- No register that motion writes is a setting. -/
theorem not_motionKey {r : Reg} (hr : r ∈ settingRegs) {i : Nat} (hi : i < (regDesc r).count) : ¬ MotionKey (regKey r i) := by
  rintro ⟨q, hq, j, hj, h⟩
  simp only [settingRegs, List.mem_cons, List.not_mem_nil, or_false] at hr
  simp only [motionRegs, List.mem_cons, List.not_mem_nil, or_false] at hq
  rcases hr with rfl | rfl | rfl | rfl | rfl | rfl | rfl | rfl | rfl | rfl | rfl | rfl | rfl | rfl | rfl | rfl | rfl <;>
  rcases hq with rfl | rfl | rfl | rfl | rfl | rfl | rfl | rfl | rfl | rfl | rfl | rfl <;>
  simp only [regKey, regDesc] at h hi hj <;> omega

/-- A footprint has all that the motion of an axis may bring beyond the axes themselves, and no setting. -/
structure Foot.Motion (F : Foot) : Prop where
  parts : axisParts ⊆ F.parts
  regs : ∀ k, MotionKey k → F.regs k
  gens : ∀ g, F.gens g
  still : F.Still

theorem Foot.Motion.reg (m : F.Motion) {r : Reg} (hr : r ∈ motionRegs) {i : Nat} (hi : i < (regDesc r).count) :
    F.regs (regKey r i) := m.regs _ (motionKey hr hi)

theorem Foot.Motion.grid (m : F.Motion) {g : Nat} (hg : g < 64) : F.Grid g where
  parts := List.Subset.trans (by decide) m.parts
  hwm := m.reg (by decide) hg
  next := m.reg (by decide) hg
  drop := m.reg (by decide) hg
  gen := m.gens g

theorem Foot.Motion.records (m : F.Motion) : F.Records where
  parts := List.Subset.trans (by decide) m.parts
  misroute := m.reg (by decide) (by decide)
  loss _ hk := m.reg (by decide) hk
  recq _ hk := m.reg (by decide) hk

theorem Foot.Motion.fires (m : F.Motion) {g : Nat} (hg : g < 64) : F.Fires g where
  toRecords := m.records
  spr := m.parts (by decide)
  line := m.reg (by decide) hg
  gen := m.gens g

/-! ### Generators, one-shots and schedulers as an axis moves -/

/-- A footprint has what follows a change of an axis's state: everything of motion but what the axis and its generators report. -/
structure Foot.Follow (F : Foot) : Prop where
  parts : axisParts ⊆ F.parts
  missed : ∀ k < 16, F.regs (regKey .sprActkMissed k)

theorem Foot.Follow.spr (m : F.Follow) : Part.spr ∈ F.parts := m.parts (by decide)
theorem Foot.Follow.ibx (m : F.Follow) : Part.ibx ∈ F.parts := m.parts (by decide)
theorem Foot.Follow.events (m : F.Follow) : [Part.evc, .wev] ⊆ F.parts := List.Subset.trans (by decide) m.parts

theorem Foot.Motion.follow (m : F.Motion) : F.Follow where
  parts := m.parts
  missed _ hk := m.reg (by decide) hk

theorem Foot.Motion.regsPart (m : F.Motion) : Part.regs ∈ F.parts := m.parts (by decide)
theorem Foot.Motion.sprPart (m : F.Motion) : Part.spr ∈ F.parts := m.parts (by decide)
theorem Foot.Motion.fioPart (m : F.Motion) : Part.fio ∈ F.parts := m.parts (by decide)

section
variable (h : Within F d₀ d)
include h

/-- Where the axes and the settings stand, a generator whose axis is in TRACK or COAST passes points with no fire taking place. -/
theorem Within.settleGen_of_keepsAxes {g : Nat} (hg : g < 64) (m : F.Grid g) (hp : Part.fio ∈ F.parts) (hs : F.Still)
    (hx : F.KeepsAxes) : Within F d₀ (d.settleGen g) := by
  unfold Dev.settleGen
  split
  · next ht =>
    rw [Bool.and_eq_true] at ht
    refine h.passPoints m hp (fun e he ha => absurd ?_ (axisState_ne_acquire_of_genTracks ht.1)) _
    rw [h.axisState hs hx (genAxis_lt g), h.genAxis hs hg, ← he.genAxis hs hg, ← he.axisState hs hx (genAxis_lt g), ha]
  · exact h

variable (m : F.Motion)
include m

theorem Within.settleGen {g : Nat} (hg : g < 64) : Within F d₀ (d.settleGen g) := by
  unfold Dev.settleGen
  split
  · exact h.passPoints (m.grid hg) m.fioPart (fun _ _ _ => m.fires hg) _
  · exact h

theorem Within.edgeGen {g : Nat} (hg : g < 64) : Within F d₀ (d.edgeGen g) := by
  refine Within.fixNext ?_ m.sprPart m.fioPart (m.gens g)
  split
  · exact h.passPoints (m.grid hg) m.fioPart (fun _ _ _ => m.fires hg) _
  · exact h

theorem Within.oneShot (out : Nat) (w t : Word) : Within F d₀ (d.oneShot out w t) := by
  unfold Dev.oneShot
  extract_lets e
  split
  · exact (h.schedulePulse m.fioPart _ _).requestTrig m.records _ _
  · exact h.schedulePulse m.fioPart _ _

theorem Within.fixShot (c : Nat) : Within F d₀ (d.fixShot c) := by
  unfold Dev.fixShot
  repeat' split
  · exact (h.oneShot m _ _ _).setRun m.follow.ibx _ _
  all_goals exact h

theorem Within.fixShots : Within F d₀ d.fixShots := h.foldl fun _ c _ he => he.fixShot m c

omit m in
theorem Within.forGens {a : Nat} {f : Dev → Nat → Dev} (hf : ∀ g < 64, ∀ e, Within F d₀ e → Within F d₀ (f e g)) :
    Within F d₀ (d.forGens a f) :=
  h.forUpTo fun g hg e he => by
    split
    · exact hf g hg e he
    · exact he

theorem Within.settleFor (a : Nat) : Within F d₀ (d.forGens a Dev.settleGen) := h.forGens fun _ hg _ he => he.settleGen m hg

end

section
variable (h : Within F d₀ d) (m : F.Follow)
include h m

theorem Within.cutWaits (b : Nat) : Within F d₀ (d.cutWaits b) := by
  refine h.foldl fun e c _ he => ?_
  repeat' split
  · exact he
  · exact he.setRun m.ibx _ _
  · exact he.setRun m.ibx _ _
  · exact he
  · exact he.setRun m.ibx _ _
  all_goals exact he

theorem Within.discardPassed {k : Nat} (hk : k < 16) (p : P48) : Within F d₀ (d.discardPassed k p) := by
  unfold Dev.discardPassed
  extract_lets l n
  split
  · exact h
  · exact ((h.setActQueue m.spr k _).satF (m.parts (by decide)) (m.missed k hk) 31 0 n).raise m.events _

theorem Within.discardActs (sel : Dev → Nat → Bool) (p : P48) : Within F d₀ (d.discardActs sel p) :=
  h.forUpTo fun k hk e he => by
    split
    · exact he.discardPassed m hk p
    · exact he

theorem Within.freshenAct (k : Nat) : Within F d₀ (d.freshenAct k) := by
  unfold Dev.freshenAct
  split
  · exact h.setActQueue m.spr k _
  · exact h

theorem Within.freshenActs (a : Nat) : Within F d₀ (d.freshenActs a) :=
  h.forUpTo fun k _ e he => by
    split
    · exact he.freshenAct m k
    · exact he

theorem Within.refreshLevels (a : Nat) : Within F d₀ (d.refreshLevels a) :=
  ((h.setLevel m.events _ _).setLevel m.events _ _).setLevel m.events _ _

theorem Within.refreshAxis (a : Nat) : Within F d₀ (d.refreshAxis a) := h.foldl fun _ b _ he => he.refreshLevels m b

theorem Within.noteFault (hit : Nat → Bool) : Within F d₀ (d.noteFault hit) := by
  unfold Dev.noteFault
  repeat' split
  · exact h.withHlk (m.parts (by decide)) _
  all_goals exact h

/-! ### Changes of state of an axis (R31, R68) -/

/-- A footprint lets an axis be marked: EVER_TRACK, a preset position taken, and the slip window. -/
def Foot.Marks (F : Foot) (b : Nat) : Prop :=
  ∀ x e p s, F.axes b x { x with everTrack := e, presetPend := p, slip := s }

theorem Within.refreshSlip {a : Nat} (ha : F.Marks a) : Within F d₀ (d.refreshSlip a) := by
  have hslip : ∀ s, Within F d₀ (d.setAxis a { d.axis a with slip := s }) :=
    fun s => h.setAxis m.spr (ha (d.axis a) (d.axis a).everTrack (d.axis a).presetPend s)
  unfold Dev.refreshSlip
  extract_lets x both
  repeat' split
  · exact hslip _
  · exact h
  · exact h
  · exact hslip _

end

/-- Before an axis changes state: its generators pass what the estimate has reached, FIREs within their lead time are fixed, and
the schedulers of an axis that leaves IDLE discard (R54, R67). -/
def Machine.Dev.beforeMove (old : Tracker) (a : Nat) (d : Dev) : Dev :=
  let d := (d.forGens a Dev.settleGen).fixShots
  if old.st = .idle then d.discardActs (fun d b => decide (d.axisOf b = a)) old.p else d

/-- The axes that read an axis report its change of state (R38, R40, R68). -/
def Machine.Dev.reportMoves (old k : Tracker) (a : Nat) (d : Dev) : Dev := (d.readersOf a).foldl (Dev.reportMove old k) d

/-- After an axis changed state and its readers reported it: levels and slip window, what a FAULT ends, and the schedulers (R45,
R67, R68, R302, R308). -/
def Machine.Dev.afterMove (old k : Tracker) (a : Nat) (d : Dev) : Dev :=
  let reads (d : Dev) (b : Nat) : Bool := decide (d.axisOf b = a)
  let d := (d.refreshAxis a).refreshSlip a
  let d := if k.st = .fault then (d.readersOf a).foldl Dev.cutWaits (d.noteFault (reads d)) else d
  let d :=
    if old.st = .idle && k.st = .acquire then
      (if k.fwd then d.discardActs reads (k.p - wordOf (d.spacing a .main)) else d)
    else if old.st = .idle || old.st = .fault then d.discardActs reads (d.trackerAt a .main d.now)
    else d
  d.freshenActs a

/-- A change of state of an axis in its three parts. -/
theorem Machine.Dev.moveAxis_of_ne {a : Nat} {k : Tracker} (hne : (d.tracker a .main).st ≠ k.st) :
    d.moveAxis a k =
      (((d.beforeMove (d.tracker a .main) a).setTracker a .main k).reportMoves (d.tracker a .main) k a).afterMove
        (d.tracker a .main) k a := by
  rw [Dev.moveAxis, if_neg hne]; rfl

/-- An axis that stays in its state takes the estimate. -/
theorem Machine.Dev.moveAxis_of_eq {a : Nat} {k : Tracker} (he : (d.tracker a .main).st = k.st) :
    d.moveAxis a k = (d.setTracker a .main k).refreshAxis a := by
  rw [Dev.moveAxis, if_pos he]

section
variable (h : Within F d₀ d)
include h

theorem Within.beforeMove (m : F.Motion) (old : Tracker) (a : Nat) : Within F d₀ (d.beforeMove old a) := by
  have hb := (h.settleFor m a).fixShots m
  unfold Dev.beforeMove
  extract_lets e
  split
  · exact hb.discardActs m.follow _ _
  · exact hb

theorem Within.cutReaders (m : F.Follow) (hit : Nat → Bool) (l : List Nat) :
    Within F d₀ (l.foldl Dev.cutWaits (d.noteFault hit)) := (h.noteFault m hit).foldl fun _ b _ he => he.cutWaits m b

theorem Within.afterMove (m : F.Follow) {a : Nat} (ha : F.Marks a) (old k : Tracker) : Within F d₀ (d.afterMove old k a) := by
  unfold Dev.afterMove
  have h₁ := (h.refreshAxis m a).refreshSlip m ha
  generalize (d.refreshAxis a).refreshSlip a = e at h₁ ⊢
  have h₂ := h₁.opt (k.st = .fault) (h₁.cutReaders m (fun b => decide (e.axisOf b = a)) (e.readersOf a))
  refine Within.freshenActs ?_ m a
  dsimp only
  generalize (if k.st = .fault then _ else e) = e' at h₂ ⊢
  split
  · exact h₂.opt _ (h₂.discardActs m _ _)
  · exact h₂.opt _ (h₂.discardActs m _ _)

theorem Within.reportMove (m : F.Follow) {b : Nat} (hb : F.Marks b) (hp : F.regs (regKey .sprAxnCoastPos b))
    (he : F.regs (regKey .sprAxnCoastEnd b)) (old k : Tracker) : Within F d₀ (d.reportMove old k b) := by
  have het : ∀ {d}, Within F d₀ d → Within F d₀ (d.setAxis b { d.axis b with everTrack := true }) :=
    fun {d} h => h.setAxis m.spr (hb (d.axis b) true (d.axis b).presetPend (d.axis b).slip)
  have hpp : ∀ {d}, Within F d₀ d → Within F d₀ (d.setAxis b { d.axis b with presetPend := false }) :=
    fun {d} h => h.setAxis m.spr (hb (d.axis b) (d.axis b).everTrack false (d.axis b).slip)
  have hr : Part.regs ∈ F.parts := m.parts (by decide)
  have h₁ := h.opt (k.st = .track) (het h)
  have h₂ := h₁.opt (old.st = .fault) (hpp h₁)
  have h₃ := h₂.opt (k.st = .coast) (h₂.wr hr hp k.coastPos)
  have h₄ := h₃.opt (old.st = .coast) (h₃.wr hr he k.p)
  have h₅ := h₄.opt (k.st = .track || k.st = .idle) (h₄.raise m.events (320 + 8 * b))
  exact h₅.opt (k.st = .acquire && (old.st = .track || old.st = .coast)) (h₅.raise m.events (323 + 8 * b))

end

/-! ### An axis takes a new estimate -/

/-- A footprint lets an axis become anything. -/
def Foot.Free (F : Foot) (b : Nat) : Prop := ∀ x y, F.axes b x y

theorem Foot.Free.marks {b : Nat} (hf : F.Free b) : F.Marks b := fun _ _ _ _ => hf _ _

/-- A footprint lets an axis and the axes that read it become anything. -/
def Foot.FreeFor (F : Foot) (d : Dev) (a : Nat) : Prop := F.Free a ∧ ∀ b < 4, d.axisOf b = a → F.Free b

/-- The axes that read an axis are among the four, and read it. -/
theorem mem_readersOf {a b : Nat} : b ∈ d.readersOf a ↔ b < 4 ∧ d.axisOf b = a := by simp [Dev.readersOf]

section
variable (h : Within F d₀ d) (m : F.Motion)
include h m

omit m in
theorem Within.setTracker (hp : Part.spr ∈ F.parts) {a : Nat} (ha : F.Free a) (sel : TrackerSel) (k : Tracker) :
    Within F d₀ (d.setTracker a sel k) := h.setAxis hp (ha _ _)

/-- The readers of an axis report, where the footprint lets each of them be marked. -/
theorem Within.reportMoves {a : Nat} (hm : ∀ b < 4, d₀.axisOf b = a → F.Marks b) (old k : Tracker) :
    Within F d₀ (d.reportMoves old k a) := by
  unfold Dev.reportMoves
  rw [h.readersOf m.still]
  refine h.foldl fun e b hb he => ?_
  obtain ⟨hb4, hba⟩ := mem_readersOf.1 hb
  exact he.reportMove m.follow (hm b hb4 hba) (m.reg (by decide) hb4) (m.reg (by decide) hb4) old k

theorem Within.moveAxis {a : Nat} (ha : F.FreeFor d₀ a) (k : Tracker) : Within F d₀ (d.moveAxis a k) := by
  by_cases hst : (d.tracker a .main).st = k.st
  · rw [Dev.moveAxis_of_eq hst]
    exact (h.setTracker m.sprPart ha.1 .main k).refreshAxis m.follow a
  · rw [Dev.moveAxis_of_ne hst]
    have hset := (h.beforeMove m (d.tracker a .main) a).setTracker m.sprPart ha.1 .main k
    exact (hset.reportMoves m (fun b hb e => (ha.2 b hb e).marks) _ k).afterMove m.follow ha.1.marks _ k

theorem Within.moveTracker {a : Nat} (ha : F.FreeFor d₀ a) (sel : TrackerSel) (k : Tracker) :
    Within F d₀ (d.moveTracker a sel k) := by
  cases sel with
  | main => exact h.moveAxis m ha k
  | shadow => exact (h.setTracker m.sprPart ha.1 .shadow k).refreshSlip m.follow ha.1.marks

theorem Within.setCause {a : Nat} (ha : F.FreeFor d₀ a) (sel : TrackerSel) (c : Nat) : Within F d₀ (d.setCause a sel c) := by
  cases sel with
  | shadow => exact h
  | main =>
    refine h.foldl fun e b hb he => ?_
    rw [h.readersOf m.still, List.mem_cons, mem_readersOf] at hb
    rcases hb with rfl | ⟨hb4, hba⟩
    · exact he.setAxis m.sprPart (ha.1 _ _)
    · exact he.setAxis m.sprPart (ha.2 b hb4 hba _ _)

theorem Within.enterCoast {a : Nat} (ha : F.FreeFor d₀ a) (sel : TrackerSel) (c : Nat) : Within F d₀ (d.enterCoast a sel c) :=
  (h.setCause m ha sel c).moveTracker m ha sel _

theorem Within.enterFault {a : Nat} (ha : F.FreeFor d₀ a) (sel : TrackerSel) (c : Nat) : Within F d₀ (d.enterFault a sel c) :=
  (h.setCause m ha sel c).moveTracker m ha sel _

theorem Within.enterIdle {a : Nat} (ha : F.FreeFor d₀ a) (sel : TrackerSel) : Within F d₀ (d.enterIdle a sel) :=
  h.moveTracker m ha sel _

end

/-! ### Axes that read another estimate than before (R48) -/

/-- An axis that reads another estimate than before, once its own tracker stands: its cause, what it reports, and what follows. -/
def Machine.Dev.afterReread (was : Tracker) (lost : Bool) (a : Nat) (d : Dev) : Dev :=
  let k := d.tracker (d.axisOf a) .main
  let d := if lost then d.setAxis a { d.axis a with cause := 5 }
    else if k.st = .coast || k.st = .fault then d.setAxis a { d.axis a with cause := (d.axis (d.axisOf a)).cause }
    else d
  let mine (_ : Dev) (b : Nat) : Bool := decide (b = a)
  let d := if was.st = k.st then d else Dev.reportMove was { k with p := was.p } d a
  let d := if k.st = .fault && was.st ≠ .fault then (d.noteFault (mine d)).cutWaits a else d
  let d := if was.st ≠ k.st && (was.st = .idle || was.st = .fault) then d.discardActs mine (d.axisPos a) else d
  forUpTo 16 (fun s d => if d.actAxis s = a then d.freshenAct s else d) (d.refreshLevels a)

section
variable (h : Within F d₀ d)
include h

theorem Within.afterReread (m : F.Follow) {a : Nat} (hm : F.Marks a) (hc : ∀ x c, F.axes a x { x with cause := c })
    (hp : F.regs (regKey .sprAxnCoastPos a)) (he : F.regs (regKey .sprAxnCoastEnd a)) (was : Tracker) (lost : Bool) :
    Within F d₀ (d.afterReread was lost a) := by
  unfold Dev.afterReread
  generalize hk : d.tracker (d.axisOf a) .main = k
  have h₁ := (h.opt (k.st = .coast || k.st = .fault) (h.setAxis m.spr (hc (d.axis a) (d.axis (d.axisOf a)).cause))).opt lost
    (h.setAxis m.spr (hc (d.axis a) 5))
  dsimp only
  generalize (if lost = true then _ else _ : Dev) = e at h₁ ⊢
  have h₂ : Within F d₀ (if was.st = k.st then e else Dev.reportMove was { k with p := was.p } e a) := by
    split
    · exact h₁
    · exact h₁.reportMove m hm hp he _ _
  generalize (if was.st = k.st then e else _) = e₂ at h₂ ⊢
  have h₃ := h₂.opt (k.st = .fault && was.st ≠ .fault) ((h₂.noteFault m (fun b => decide (b = a))).cutWaits m a)
  generalize (if (k.st = .fault && was.st ≠ .fault) = true then _ else e₂) = e₃ at h₃ ⊢
  have h₄ := h₃.opt (was.st ≠ k.st && (was.st = .idle || was.st = .fault))
    (h₃.discardActs m (fun _ b => decide (b = a)) (e₃.axisPos a))
  refine (h₄.refreshLevels m a).forUpTo fun s _ e' he' => ?_
  exact he'.opt _ (he'.freshenAct m s)

end

end Sys2Proof
end

section
/-! PROOF. O10: the time limits of a tracker (R31, R35, R36, R38): entries to COAST, FAULT and IDLE, and EN of an axis written 0. -/

namespace Sys2Proof

open Machine

variable {F : Foot} {d₀ d : Dev}

/-! ### What a tracker and its axis are after a change -/

/-- The footprint of what follows a change of state: trackers, causes, and the registers of the axes stand. -/
def followFoot : Foot where
  parts := axisParts
  regs k := ∃ i < 16, k = regKey .sprActkMissed i
  axes _ x y := y.main = x.main ∧ y.shadow = x.shadow ∧ y.cause = x.cause
  gens _ := False
  axes_refl _ _ := ⟨rfl, rfl, rfl⟩
  axes_trans := by
    rintro _ x y z ⟨h1, h2, h3⟩ ⟨g1, g2, g3⟩
    exact ⟨g1.trans h1, g2.trans h2, g3.trans h3⟩

theorem followFoot_follow : followFoot.Follow := ⟨List.Subset.refl _, fun i hi => ⟨i, hi, rfl⟩⟩

theorem followFoot_marks (b : Nat) : followFoot.Marks b := fun _ _ _ _ => ⟨rfl, rfl, rfl⟩

/-- The footprint of a change that leaves the axes as they are. -/
def axesStandFoot : Foot where
  parts := axisParts
  regs := MotionKey
  axes _ x y := y = x
  gens _ := True
  axes_refl _ _ := rfl
  axes_trans _ _ _ _ h g := g.trans h

theorem axesStandFoot_motion : axesStandFoot.Motion where
  parts := List.Subset.refl _
  regs _ hk := hk
  gens _ := trivial
  still _ hr _ hi := not_motionKey hr hi

/-- The footprint of reports: the trackers and causes stand. -/
def reportFoot : Foot := { followFoot with regs := MotionKey, gens := fun _ => True }

theorem reportFoot_motion : reportFoot.Motion where
  parts := List.Subset.refl _
  regs _ hk := hk
  gens _ := trivial
  still _ hr _ hi := not_motionKey hr hi

/-- An axis read after one was replaced. -/
@[simp] theorem Machine.Dev.axis_setAxis (d : Dev) (a b : Nat) (x : Axis) :
    (d.setAxis a x).axis b = if a = b then x else d.axis b := tget_tset ..

/-- A tracker that an axis takes is its tracker; the other tracker and the cause stand. -/
theorem Machine.Dev.moveAxis_axis (d : Dev) (a : Nat) (k : Tracker) :
    ((d.moveAxis a k).axis a).main = k ∧ ((d.moveAxis a k).axis a).shadow = (d.axis a).shadow ∧
      ((d.moveAxis a k).axis a).cause = (d.axis a).cause := by
  by_cases hst : (d.tracker a .main).st = k.st
  · rw [Dev.moveAxis_of_eq hst]
    obtain ⟨hm, hs, hc⟩ := ((Within.refl followFoot (d.setTracker a .main k)).refreshAxis followFoot_follow a).axes a
    rw [hm, hs, hc]
    simp [Dev.setTracker, Axis.withTracker]
  · rw [Dev.moveAxis_of_ne hst]
    generalize d.tracker a .main = old
    have hb := ((Within.refl axesStandFoot d).beforeMove axesStandFoot_motion old a).axes a
    generalize hd : d.beforeMove old a = e at hb ⊢
    have hr := (Within.refl reportFoot (e.setTracker a .main k)).reportMoves reportFoot_motion
      (a := a) (fun b _ _ => followFoot_marks b) old k
    obtain ⟨hm, hs, hc⟩ := (hr.afterMove reportFoot_motion.follow (followFoot_marks a) old k).axes a
    rw [hm, hs, hc, ← hb]
    simp [Dev.setTracker, Axis.withTracker]

/-! ### COAST_POS and COAST_END (R38, R40) -/

/-- A register that each pass of a fold writes for one axis reads as written, where the axis is among those passed. -/
theorem rd_foldl_of_mem {f : Dev → Nat → Dev} {r : Reg} {a : Nat} {v : Word}
    (hf : ∀ e b, (f e b).rd r a = if b = a then v else e.rd r a) {l : List Nat} (ha : a ∈ l) (d : Dev) :
    (l.foldl f d).rd r a = v := by
  have key : ∀ (l : List Nat) (d : Dev), a ∈ l ∨ d.rd r a = v → (l.foldl f d).rd r a = v := by
    intro l
    induction l with
    | nil => exact fun d h => h.resolve_left (by simp)
    | cons b l ih =>
      intro d h
      refine ih _ ?_
      rw [hf]
      by_cases hb : b = a
      · exact .inr (if_pos hb)
      · rw [if_neg hb]
        simpa [Ne.symm hb] using h
  exact key l d (.inl ha)

theorem rd_opt_raise (c : Prop) [Decidable c] (d : Dev) (i : Nat) (r : Reg) (j : Nat) :
    (if c then d.raise i else d).rd r j = d.rd r j := by
  split <;> simp

theorem rd_opt_setAxis (c : Prop) [Decidable c] (d : Dev) (b : Nat) (x : Axis) (r : Reg) (j : Nat) :
    (if c then d.setAxis b x else d).rd r j = d.rd r j := by
  split <;> rfl

/-- What a report writes of COAST_POS and COAST_END. -/
theorem rd_reportMove (old k : Tracker) (d : Dev) (b : Nat) (r : Reg) (j : Nat) :
    (Dev.reportMove old k d b).rd r j =
      if old.st = .coast ∧ regKey .sprAxnCoastEnd b = regKey r j then k.p
      else if k.st = .coast ∧ regKey .sprAxnCoastPos b = regKey r j then k.coastPos else d.rd r j := by
  simp only [Dev.reportMove, rd_opt_raise]
  by_cases ho : old.st = .coast <;> by_cases hk : k.st = .coast <;> simp [ho, hk, rd_opt_setAxis]

/-- An axis among its own readers that enters COAST has the position of the entry in COAST_POS. -/
theorem rd_coastPos_reportMoves {a : Nat} (ha : a ∈ d.readersOf a) (old : Tracker) {k : Tracker} (hk : k.st = .coast) :
    (d.reportMoves old k a).rd .sprAxnCoastPos a = k.coastPos := by
  refine rd_foldl_of_mem (fun e b => ?_) ha d
  have hne : regKey .sprAxnCoastEnd b ≠ regKey .sprAxnCoastPos a := by simp only [regKey, regDesc]; omega
  have hiff : regKey .sprAxnCoastPos b = regKey .sprAxnCoastPos a ↔ b = a := by simp only [regKey, regDesc]; omega
  simp [rd_reportMove, hk, hne, hiff]

/-- An axis among its own readers that leaves COAST has the position it leaves it with in COAST_END. -/
theorem rd_coastEnd_reportMoves {a : Nat} (ha : a ∈ d.readersOf a) {old : Tracker} (ho : old.st = .coast) (k : Tracker) :
    (d.reportMoves old k a).rd .sprAxnCoastEnd a = k.p := by
  refine rd_foldl_of_mem (fun e b => ?_) ha d
  have hne : regKey .sprAxnCoastPos b ≠ regKey .sprAxnCoastEnd a := by simp only [regKey, regDesc]; omega
  have hiff : regKey .sprAxnCoastEnd b = regKey .sprAxnCoastEnd a ↔ b = a := by simp only [regKey, regDesc]; omega
  simp [rd_reportMove, ho, hne, hiff]

/-- An axis that reads its own estimate is among its readers. -/
theorem self_mem_readersOf {a : Nat} (ha : a < 4) (ho : d.axisOf a = a) : a ∈ d.readersOf a := mem_readersOf.2 ⟨ha, ho⟩

/-- What follows a change of state writes no register of the axes. -/
theorem not_followFoot_regs {r : Reg} (hr : r ∈ [Reg.sprAxnCoastPos, .sprAxnCoastEnd]) {a : Nat} (ha : a < 4) :
    ¬ followFoot.regs (regKey r a) := by
  rintro ⟨i, hi, h⟩
  simp only [List.mem_cons, List.not_mem_nil, or_false] at hr
  rcases hr with rfl | rfl <;> simp only [regKey, regDesc] at h <;> omega

/-- A register of the axes reads after a change of state as it does once its readers have reported. -/
theorem rd_moveAxis_of_ne {a : Nat} {k : Tracker} (hne : (d.tracker a .main).st ≠ k.st) {r : Reg}
    (hr : r ∈ [Reg.sprAxnCoastPos, .sprAxnCoastEnd]) (ha : a < 4) :
    (d.moveAxis a k).rd r a =
      (((d.beforeMove (d.tracker a .main) a).setTracker a .main k).reportMoves (d.tracker a .main) k a).rd r a := by
  rw [Dev.moveAxis_of_ne hne]
  exact ((Within.refl followFoot _).afterMove followFoot_follow (followFoot_marks a) _ k).rd (not_followFoot_regs hr ha)

/-- An axis that reads its own estimate does so still once its new tracker is set. -/
theorem self_mem_readersOf_setTracker {a : Nat} (ha : a < 4) (ho : d.axisOf a = a) (old k : Tracker) :
    a ∈ ((d.beforeMove old a).setTracker a .main k).readersOf a := by
  have hb := (Within.refl axesStandFoot d).beforeMove axesStandFoot_motion old a
  exact (hb.readersOf axesStandFoot_motion.still a).symm ▸ self_mem_readersOf ha ho

/-- COAST_POS of an axis that enters COAST (R38). -/
theorem rd_coastPos_moveAxis {a : Nat} (ha : a < 4) (ho : d.axisOf a = a) {k : Tracker} (hk : k.st = .coast)
    (hne : (d.tracker a .main).st ≠ .coast) : (d.moveAxis a k).rd .sprAxnCoastPos a = k.coastPos := by
  rw [rd_moveAxis_of_ne (hk ▸ hne) (by simp) ha]
  exact rd_coastPos_reportMoves (self_mem_readersOf_setTracker ha ho _ k) _ hk

/-- COAST_END of an axis that leaves COAST (R40). -/
theorem rd_coastEnd_moveAxis {a : Nat} (ha : a < 4) (ho : d.axisOf a = a) {k : Tracker} (hk : k.st ≠ .coast)
    (hc : (d.tracker a .main).st = .coast) : (d.moveAxis a k).rd .sprAxnCoastEnd a = k.p := by
  rw [rd_moveAxis_of_ne (hc ▸ hk.symm) (by simp) ha]
  exact rd_coastEnd_reportMoves (self_mem_readersOf_setTracker ha ho _ k) hc k

/-- A tracker that is moved is what it was given. -/
theorem Machine.Dev.tracker_moveTracker (d : Dev) (a : Nat) (sel : TrackerSel) (k : Tracker) :
    (d.moveTracker a sel k).tracker a sel = k := by
  cases sel with
  | main => exact (d.moveAxis_axis a k).1
  | shadow =>
    obtain ⟨-, hs, -⟩ := ((Within.refl followFoot (d.setTracker a .shadow k)).refreshSlip followFoot_follow (followFoot_marks a)).axes a
    exact hs.trans (by simp [Dev.setTracker, Axis.withTracker])

/-- A cause that is set leaves the trackers. -/
theorem Machine.Dev.tracker_setCause (d : Dev) (a : Nat) (sel : TrackerSel) (c b : Nat) (sel' : TrackerSel) :
    (d.setCause a sel c).tracker b sel' = d.tracker b sel' := by
  cases sel with
  | shadow => rfl
  | main =>
    refine List.foldlRecOn (motive := fun (e : Dev) => e.tracker b sel' = d.tracker b sel') _ _ rfl fun e he x _ => ?_
    rw [← he, Dev.tracker, Dev.tracker, Dev.axis_setAxis]
    split
    · next hx => subst hx; cases sel' <;> rfl
    · rfl

/-- The axis itself has the cause. -/
theorem Machine.Dev.cause_setCause (d : Dev) (a c : Nat) : ((d.setCause a .main c).axis a).cause = c := by
  refine List.foldlRecOn (motive := fun (e : Dev) => (e.axis a).cause = c) (d.readersOf a) _ (by simp) fun e he x _ => ?_
  rw [Dev.axis_setAxis]
  split
  · rfl
  · exact he

/-- Setting a cause writes no register. -/
theorem Machine.Dev.regs_setCause (d : Dev) (a : Nat) (sel : TrackerSel) (c : Nat) : (d.setCause a sel c).regs = d.regs := by
  cases sel with
  | shadow => rfl
  | main => exact List.foldlRecOn (motive := fun (e : Dev) => e.regs = d.regs) _ _ rfl fun _ he _ _ => he

/-- Which axes read which rests on registers alone. -/
theorem axisOf_congr {t : Dev} (h : t.regs = d.regs) (b : Nat) : t.axisOf b = d.axisOf b := by
  unfold Dev.axisOf Dev.axisHerd Dev.isLead Dev.rdB Dev.rdF Dev.rd
  rw [h]

/-! ### O10 -/

/-- What a change of state of axis a may reach: beside the rest of motion, the axis and the axes that read it. -/
def axisFoot (d : Dev) (a : Nat) : Foot where
  parts := axisParts
  regs := MotionKey
  axes b x y := b = a ∨ d.axisOf b = a ∨ y = x
  gens _ := True
  axes_refl _ _ := .inr (.inr rfl)
  axes_trans := by
    rintro b x y z (h | h | h) (g | g | g) <;> simp_all

theorem axisFoot_motion (d : Dev) (a : Nat) : (axisFoot d a).Motion where
  parts := List.Subset.refl _
  regs _ hk := hk
  gens _ := trivial
  still _ hr _ hi := not_motionKey hr hi

theorem axisFoot_free (d : Dev) (a : Nat) : (axisFoot d a).FreeFor d a :=
  ⟨fun _ _ => .inl rfl, fun _ _ h _ _ => .inr (.inl h)⟩

/-- A footprint with every register. -/
def Foot.anyRegs (F : Foot) : Foot := { F with regs := fun _ => True }

theorem Within.anyRegs {t : Dev} (h : Within F d t) : Within F.anyRegs d t where
  parts := h.parts
  regs _ hk := absurd trivial hk
  axes := h.axes
  gens := h.gens
  enc := h.enc

/-- A change of state of axis a leaves the axes that do not read it, and every part that motion does not reach. -/
theorem only_of_axisFoot {s : State} {a : Fin 4} {t : Dev} (h : Within (axisFoot s.dev a).anyRegs s.dev t) :
    (∀ b : Fin 4, b ≠ a → s.dev.axisOf b ≠ a → t.axis b = s.dev.axis b) ∧ Only axisParts s { s with dev := t } := by
  refine ⟨fun b hb ho => ?_, rfl, h.parts⟩
  rcases h.axes b with e | e | e
  · exact absurd (Fin.ext e) hb
  · exact absurd e ho
  · exact e

/-- A local axis reads its own estimate (R48). -/
theorem axisOf_of_local {a : Nat} (h : d.axisLocal a = true) : d.axisHerd a = false ∧ d.axisOf a = a := by
  have hh : d.axisHerd a = false := by simp_all [Dev.axisLocal]
  exact ⟨hh, by simp [Dev.axisOf, hh]⟩

/-- In COAST a tracker of a local axis is extrapolated (R38). -/
theorem trackerAt_of_coast {a : Nat} {sel : TrackerSel} (hh : d.axisHerd a = false) (hc : (d.tracker a sel).st = .coast) (t : Word) :
    d.trackerAt a sel t = (d.tracker a sel).coastAt t := by
  rw [Dev.tracker] at hc
  simp [Dev.trackerAt, hh, Tracker.estimate, hc, Dev.tracker]

/-- Entry to FAULT from COAST: the tracker held at its extrapolated position, and what the axis reports of it (R31, R38, R40). -/
theorem enterFault_of_coast {a : Fin 4} {tr : TrackerSel} {s : State} (hl : s.dev.axisLocal a = true)
    (hc : (s.dev.tracker a tr).st = .coast) (c : Nat) :
    let t := s.dev.enterFault a tr c
    (t.tracker a tr).st = .fault ∧ (t.tracker a tr).v = 0 ∧ (t.tracker a tr).p = (s.dev.tracker a tr).coastAt s.dev.now ∧
      (tr = .main → (t.axis a).cause = c ∧ t.rd .sprAxnCoastEnd a = (s.dev.tracker a tr).coastAt s.dev.now) ∧
      (∀ b : Fin 4, b ≠ a → s.dev.axisOf b ≠ a → t.axis b = s.dev.axis b) ∧ Only axisParts s { s with dev := t } := by
  obtain ⟨hh, ho⟩ := axisOf_of_local hl
  intro t
  have hk : t.tracker a tr = (s.dev.tracker a tr).held .fault ((s.dev.tracker a tr).coastAt s.dev.now) := by
    rw [← trackerAt_of_coast hh hc]; exact Dev.tracker_moveTracker ..
  refine ⟨by rw [hk]; rfl, by rw [hk]; rfl, by rw [hk]; rfl, ?_, only_of_axisFoot (Within.anyRegs ?_)⟩
  · rintro rfl
    refine ⟨(Dev.moveAxis_axis _ _ _).2.2.trans (Dev.cause_setCause ..), ?_⟩
    have hend := rd_coastEnd_moveAxis (d := s.dev.setCause a .main c) a.isLt ((axisOf_congr (Dev.regs_setCause ..) _).trans ho)
      (k := (s.dev.tracker a .main).held .fault (s.dev.trackerAt a .main s.dev.now)) (by simp [Tracker.held])
      (by rw [Dev.tracker_setCause, hc])
    exact hend.trans (trackerAt_of_coast hh hc _)
  · exact (Within.refl _ s.dev).enterFault (axisFoot_motion _ _) (axisFoot_free _ _) tr c

/-- Entry to COAST from TRACK: the velocity held and the position of the entry recorded (R31, R38). -/
theorem enterCoast_of_track {a : Fin 4} {tr : TrackerSel} {s : State} (hl : s.dev.axisLocal a = true)
    (hc : (s.dev.tracker a tr).st = .track) (c : Nat) :
    let t := s.dev.enterCoast a tr c
    (t.tracker a tr).st = .coast ∧ (t.tracker a tr).v = (s.dev.tracker a tr).v ∧ (t.tracker a tr).a = 0 ∧
      (t.tracker a tr).entered = s.dev.now ∧
      (tr = .main → (t.axis a).cause = c ∧ t.rd .sprAxnCoastPos a = (s.dev.tracker a tr).coastAt s.dev.now) ∧
      (∀ b : Fin 4, b ≠ a → s.dev.axisOf b ≠ a → t.axis b = s.dev.axis b) ∧ Only axisParts s { s with dev := t } := by
  obtain ⟨-, ho⟩ := axisOf_of_local hl
  intro t
  have hk := Dev.tracker_moveTracker (s.dev.setCause a tr c) a tr { s.dev.tracker a tr with
    st := .coast, a := 0, entered := s.dev.now, coastPos := (s.dev.tracker a tr).coastAt s.dev.now, resumed := none, rejRun := 0 }
  change t.tracker a tr = _ at hk
  refine ⟨by rw [hk], by rw [hk], by rw [hk], by rw [hk], ?_, only_of_axisFoot (Within.anyRegs ?_)⟩
  · rintro rfl
    refine ⟨(Dev.moveAxis_axis _ _ _).2.2.trans (Dev.cause_setCause ..), ?_⟩
    exact rd_coastPos_moveAxis (d := s.dev.setCause a .main c) a.isLt ((axisOf_congr (Dev.regs_setCause ..) _).trans ho) rfl
      (by rw [Dev.tracker_setCause, hc]; decide)
  · exact (Within.refl _ s.dev).enterCoast (axisFoot_motion _ _) (axisFoot_free _ _) tr c

/-- Entry to IDLE: the tracker held where it is (R31). -/
theorem enterIdle_reach (a : Fin 4) (tr : TrackerSel) (s : State) :
    let t := s.dev.enterIdle a tr
    (t.tracker a tr).st = .idle ∧ (t.tracker a tr).v = 0 ∧ (t.tracker a tr).a = 0 ∧
      (t.tracker a tr).p = s.dev.trackerAt a tr s.dev.now ∧
      (∀ b : Fin 4, b ≠ a → s.dev.axisOf b ≠ a → t.axis b = s.dev.axis b) ∧ Only axisParts s { s with dev := t } := by
  intro t
  have hk : t.tracker a tr = (s.dev.tracker a tr).held .idle (s.dev.trackerAt a tr s.dev.now) := Dev.tracker_moveTracker ..
  refine ⟨by rw [hk]; rfl, by rw [hk]; rfl, by rw [hk]; rfl, by rw [hk]; rfl, only_of_axisFoot (Within.anyRegs ?_)⟩
  exact (Within.refl _ s.dev).enterIdle (axisFoot_motion _ _) (axisFoot_free _ _) tr

/-! ### EN of an axis written 0 (R31) -/

/-- The block with EN of an axis cleared. -/
def Machine.Dev.clearEn (d : Dev) (a : Nat) : Dev := d.wrB .sprAxnCtl a 0 false

theorem rdB_clearEn (d : Dev) (a : Nat) : (d.clearEn a).rdB .sprAxnCtl a 0 = false := by
  rw [Dev.clearEn, Dev.rdB, Dev.wrB, Dev.rd_wr_same, bit_setBit_same _ _ (by decide)]

/-- An axis with EN 0 reads its own estimate. -/
theorem axisOf_clearEn_self (d : Dev) (a : Nat) : (d.clearEn a).axisOf a = a := by
  simp [Dev.axisOf, rdB_clearEn]

/-- The other axes read what they did. -/
theorem axisOf_clearEn_ne (d : Dev) {a b : Nat} (ha : a < 4) (h : b ≠ a) : (d.clearEn a).axisOf b = d.axisOf b := by
  have hb : (d.clearEn a).rd .sprAxnCtl b = d.rd .sprAxnCtl b :=
    d.rd_wr_ne _ (by simp only [regKey, regDesc]; omega)
  have hl : (d.clearEn a).rd .hlkStat 0 = d.rd .hlkStat 0 := d.rd_wr_ne _ (by simp only [regKey, regDesc]; omega)
  unfold Dev.axisOf Dev.axisHerd Dev.isLead Dev.rdB Dev.rdF
  rw [hb, hl]

/-- The axes that read another estimate once EN of an axis is 0: none, or the axis itself. -/
theorem moved_clearEn (d : Dev) (a : Fin 4) :
    (List.range 4).filter (fun b => (d.clearEn a).axisOf b ≠ d.axisOf b) = if d.axisOf a = a then [] else [a.val] := by
  have hiff : ∀ b, ((d.clearEn a).axisOf b ≠ d.axisOf b) ↔ b = a.val ∧ d.axisOf a ≠ a := by
    intro b
    by_cases hb : b = a.val
    · subst hb; simp [axisOf_clearEn_self, eq_comm]
    · simp [axisOf_clearEn_ne d a.isLt hb, hb]
  simp only [hiff]
  split
  · next h => simp [h]
  · next h =>
    have hone : ∀ a : Fin 4, (List.range 4).filter (fun b => decide (b = a.val)) = [a.val] := by decide
    simpa [h] using hone a

/-- The block as the generators have passed what the estimates have reached and FIREs within their lead time are fixed, which axes
are to be read anew. -/
def Machine.Dev.beforeReread (moved : List Nat) (d : Dev) : Dev :=
  (forUpTo 64 (fun g d => if moved.contains (d.genAxis g) then d.settleGen g else d) d).fixShots

theorem Within.beforeReread (h : Within F d₀ d) (m : F.Motion) (moved : List Nat) : Within F d₀ (d.beforeReread moved) :=
  Within.fixShots (h.forUpTo fun g hg e he => by
    split
    · exact he.settleGen m hg
    · exact he) m

/-- The own tracker of an axis standing still in a state at a position. -/
def Machine.Dev.standing (d : Dev) (a : Nat) (st : AxState) (p : P48) : Tracker :=
  { (d.axis a).main with st := st, p := p, v := 0, a := 0, rejRun := 0, run := [], acqEdges := 0, resumed := none }

/-- An axis that read a moving estimate and is to go on without one. -/
def Machine.Dev.lostEstimate (d : Dev) (a : Nat) (was : AxState) : Bool :=
  d.axisOf a = a && d.axisHerd a && d.rdB .sprAxnCtl a 0 && was ≠ .idle && was ≠ .fault

/-- The state its own tracker takes. -/
def Machine.Dev.standingState (d : Dev) (a : Nat) (was : AxState) : AxState :=
  if d.axisOf a ≠ a || !d.rdB .sprAxnCtl a 0 then .idle else if was = .idle then .idle else .fault

/-- An axis that reads another estimate than before, in its two parts. -/
theorem rereadAxis_eq (old : Nat → Tracker) (d : Dev) (a : Nat) :
    Dev.rereadAxis old d a =
      (d.setTracker a .main (d.standing a (d.standingState a (old a).st) (old a).p)).afterReread (old a)
        (d.lostEstimate a (old a).st) a := rfl

/-- With EN 0 the own tracker stands in IDLE. -/
theorem standingState_of_disabled {a : Nat} (he : d.rdB .sprAxnCtl a 0 = false) (was : AxState) : d.standingState a was = .idle := by
  simp [Dev.standingState, he]

/-- The footprint of changes that leave every tracker as it is. -/
def trackersFoot : Foot where
  parts := axisParts
  regs := MotionKey
  axes _ x y := y.main = x.main ∧ y.shadow = x.shadow
  gens _ := True
  axes_refl _ _ := ⟨rfl, rfl⟩
  axes_trans := by
    rintro _ x y z ⟨h1, h2⟩ ⟨g1, g2⟩
    exact ⟨g1.trans h1, g2.trans h2⟩

/-- A shadow tracker that is moved leaves the axis's own. -/
theorem Machine.Dev.main_moveTracker_shadow (d : Dev) (a : Nat) (k : Tracker) :
    (d.moveTracker a .shadow k).tracker a .main = d.tracker a .main := by
  obtain ⟨hm, -, -⟩ := ((Within.refl followFoot (d.setTracker a .shadow k)).refreshSlip followFoot_follow (followFoot_marks a)).axes a
  exact hm.trans (by simp [Dev.setTracker, Axis.withTracker, Dev.tracker, Axis.tracker])

/-! ### The end of a disabled axis -/

theorem trackersFoot_follow : trackersFoot.Follow := ⟨List.Subset.refl _, fun _ hi => motionKey (by decide) hi⟩

/-- What follows a reading anew leaves every tracker. -/
theorem tracker_afterReread {a : Nat} (ha : a < 4) (was : Tracker) (lost : Bool) (d : Dev) (b : Nat) :
    (d.afterReread was lost a).tracker b .main = d.tracker b .main :=
  (((Within.refl trackersFoot d).afterReread trackersFoot_follow (fun _ _ _ _ => ⟨rfl, rfl⟩) (fun _ _ => ⟨rfl, rfl⟩)
    (motionKey (by decide) ha) (motionKey (by decide) ha) was lost).axes b).1

/-- The block once the axes read what they read with EN 0: where the axis read its own estimate, only EN has changed; where it read
another's, its own tracker stands in IDLE at what was read. -/
theorem reread_clearEn (d : Dev) (a : Fin 4) :
    Dev.reread (fun d => d.clearEn a) d =
      if d.axisOf a = a then d.clearEn a
      else Dev.rereadAxis (fun b => { d.tracker (d.axisOf b) .main with p := d.axisPos b }) ((d.beforeReread [a.val]).clearEn a) a := by
  rw [Dev.reread]
  simp only [moved_clearEn]
  split
  · rfl
  · rw [if_neg (List.cons_ne_nil _ _), List.foldl_cons, List.foldl_nil]; rfl

/-- The axes that read axis a with its EN 0 are free in what a change of axis a may reach. -/
theorem axisFoot_free_clearEn (d : Dev) (a : Fin 4) {e : Dev} (he : ∀ b < 4, e.axisOf b = d.axisOf b) :
    (axisFoot d a).FreeFor (e.clearEn a) a := by
  refine ⟨fun _ _ => .inl rfl, fun b hb4 ho x y => ?_⟩
  by_cases hb : b = a
  · exact .inl hb
  · rw [axisOf_clearEn_ne e a.isLt hb, he b hb4] at ho
    exact .inr (.inl ho)

/-- What EN 0 of an axis may bring up to the reading anew: EN of the axis, and the rest of motion. -/
theorem within_clearEn {d e : Dev} {a : Nat} (h : Within (axisFoot d a) d e) : Within (axisFoot d a).anyRegs d (e.clearEn a) :=
  h.anyRegs.wrB (List.mem_of_elem_eq_true rfl) trivial 0 false

/-- The block up to the reading anew, and what AXIS_DISABLE brings after it. -/
theorem axisDisable_reach (a : Fin 4) (d : Dev) :
    ∃ e, Within (axisFoot d a) d e ∧ Within (axisFoot d a) (e.clearEn a) (axisDisableOp a d) := by
  have m := axisFoot_motion d a
  unfold axisDisableOp
  simp only [show (fun d : Dev => d.wrB .sprAxnCtl a 0 false) = fun d => d.clearEn a from rfl, reread_clearEn]
  split
  · next ho =>
    have hf := axisFoot_free_clearEn d a (e := d) (fun _ _ => rfl)
    exact ⟨d, .refl _ d, ((Within.refl _ _).moveTracker m hf .shadow _).moveAxis m hf _⟩
  · next ho =>
    have he := (Within.refl (axisFoot d a) d).beforeReread m [a.val]
    have hf := axisFoot_free_clearEn d a (fun b hb => he.axisOf m.still hb)
    refine ⟨_, he, ?_⟩
    rw [rereadAxis_eq]
    exact (((Within.refl _ _).setTracker m.sprPart hf.1 .main _).afterReread m.follow hf.1.marks (fun _ _ => hf.1 _ _)
      (m.reg (by decide) a.isLt) (m.reg (by decide) a.isLt) _ _).moveTracker m hf .shadow _

/-- The trackers of an axis once its EN is 0: both in IDLE, its own at the position the axis had. -/
theorem trackers_axisDisable (a : Fin 4) (d : Dev) :
    let t := axisDisableOp a d
    (t.tracker a .main).st = .idle ∧ (t.tracker a .main).v = 0 ∧ (t.tracker a .main).a = 0 ∧
      (t.tracker a .main).p = d.axisPos a ∧ (t.tracker a .shadow).st = .idle := by
  unfold axisDisableOp
  simp only [show (fun d : Dev => d.wrB .sprAxnCtl a 0 false) = fun d => d.clearEn a from rfl, reread_clearEn]
  split
  · generalize d.clearEn a = e
    obtain ⟨hm, hs, -⟩ := Dev.moveAxis_axis (e.moveTracker a .shadow ((e.tracker a .shadow).held .idle (e.tracker a .shadow).p)) a
      (((e.moveTracker a .shadow ((e.tracker a .shadow).held .idle (e.tracker a .shadow).p)).tracker a .main).held .idle (d.axisPos a))
    have hsh := Dev.tracker_moveTracker e a .shadow ((e.tracker a .shadow).held .idle (e.tracker a .shadow).p)
    simp only [Dev.tracker, Axis.tracker] at hm hs hsh ⊢
    rw [hm, hs, hsh]
    exact ⟨rfl, rfl, rfl, rfl, rfl⟩
  · have hst := standingState_of_disabled (rdB_clearEn (d.beforeReread [a.val]) a)
    rw [Dev.main_moveTracker_shadow, Dev.tracker_moveTracker, rereadAxis_eq, hst, tracker_afterReread a.isLt]
    simp [Dev.setTracker, Axis.withTracker, Dev.tracker, Axis.tracker, Dev.standing, Tracker.held]

/-- Settles O10: each time limit is an entry to COAST, FAULT or IDLE of the tracker, and what such an entry does is said once for
all of them; EN 0 holds both trackers, whichever estimate the axis read. -/
theorem axisLimits : Obligations.AxisLimits := by
  unfold Obligations.AxisLimits
  refine ⟨fun a tr s hp hl hst happ hnow => ?_, fun a tr s hp hl hst hlim => ?_, fun a tr s hp hl hst hfar => ?_,
    fun a tr s hp hl hstill hst => ?_, fun a s hp => ?_⟩
  · refine ⟨_, State.run_powered hp _, ?_⟩
    have hop : overdueEdgeOp a tr s.dev = s.dev.enterCoast a tr 1 := by
      simp only [overdueEdgeOp, hl, hst, happ, hnow, decide_true, Bool.and_self, if_true]
    rw [hop]
    exact enterCoast_of_track hl hst 1
  · refine ⟨_, State.run_powered hp _, ?_⟩
    have hop : coastTimeLimitOp a tr s.dev = s.dev.enterFault a tr (if s.dev.coastFar a tr then 4 else 3) := by
      simp only [coastTimeLimitOp, hl, hst, hlim, decide_true, Bool.and_self, if_true]
    rw [hop]
    exact enterFault_of_coast hl hst _
  · refine ⟨_, State.run_powered hp _, ?_⟩
    have hop : coastTravelLimitOp a tr s.dev = s.dev.enterFault a tr 4 := by
      simp only [coastTravelLimitOp, Dev.coastFar, hl, hst, hfar, decide_true, Bool.and_self, if_true]
    rw [hop]
    exact enterFault_of_coast hl hst 4
  · refine ⟨_, State.run_powered hp _, ?_⟩
    have hop : standstillOp a tr s.dev = s.dev.enterIdle a tr := by
      rcases hst with hst | ⟨hst, happ⟩
      · simp [standstillOp, hl, hstill, hst]
      · simp [standstillOp, hl, hstill, hst, happ]
    rw [hop]
    exact enterIdle_reach a tr s
  · obtain ⟨e, he, ht⟩ := axisDisable_reach a s.dev
    obtain ⟨hst, hv, ha, hpos, hsh⟩ := trackers_axisDisable a s.dev
    have hreach := (within_clearEn he).trans ht.anyRegs
    have hen : (axisDisableOp a s.dev).rdB .sprAxnCtl a 0 = false := by
      rw [Dev.rdB, ht.setting (axisFoot_motion s.dev a).still (by decide) a.isLt]
      exact rdB_clearEn e a
    exact ⟨_, State.run_powered hp _, hen, hst, hv, ha, hpos, hsh, only_of_axisFoot hreach⟩

end Sys2Proof
end

section
/-! PROOF. O13: encoder edges (R26–R29), pulses (R59) and trigger packets (R140–R142): what an edge brings to the trackers stays
within a footprint that has neither the count nor the lines of an encoder input. -/

namespace Sys2Proof

open Machine

variable {F : Foot} {d₀ d : Dev}

/-! ### Counters and free values -/

theorem Within.free (h : Within F d₀ d) (hp : Part.freeIdx ∈ F.parts) : Within F d₀ d.free.2 :=
  h.step (fun p hq => by cases p with | freeIdx => exact absurd hp hq | _ => rfl) (fun _ _ => rfl) rfl

/-! ### Edges at a tracker (R28, R31, R33, R37, R39, R643) -/

/-- A footprint has what an encoder edge may bring: the motion of any axis, and a free value. -/
structure Foot.Edges (F : Foot) : Prop extends Foot.Motion F where
  free : Part.freeIdx ∈ F.parts
  axes : ∀ b, F.Free b

theorem Foot.Edges.freeFor (m : F.Edges) (d : Dev) (a : Nat) : F.FreeFor d a := ⟨m.axes a, fun b _ _ => m.axes b⟩

section
variable (h : Within F d₀ d) (m : F.Edges)
include h m

theorem Within.setAnyAxis (a : Nat) (x : Axis) : Within F d₀ (d.setAxis a x) := h.setAxis m.sprPart (m.axes a _ _)

theorem Within.setAnyTracker (a : Nat) (sel : TrackerSel) (k : Tracker) : Within F d₀ (d.setTracker a sel k) := h.setAnyAxis m a _

theorem Within.moveAnyTracker (a : Nat) (sel : TrackerSel) (k : Tracker) : Within F d₀ (d.moveTracker a sel k) :=
  h.moveTracker m.toMotion (m.freeFor _ a) sel k

theorem Within.alignOffset (a : Nat) (sel : TrackerSel) (count : Word) (p : P48) : Within F d₀ (d.alignOffset a sel count p) := by
  unfold Dev.alignOffset
  dsimp only
  split
  · exact h.setAnyAxis m a _
  · exact h.setAnyAxis m a _

theorem Within.reacquire (a : Nat) (sel : TrackerSel) (count te : Word) : Within F d₀ (d.reacquire a sel count te) :=
  (h.alignOffset m a sel count _).moveAnyTracker m a sel _

theorem Within.rejectEdge (a : Nat) (sel : TrackerSel) (count te : Word) : Within F d₀ (d.rejectEdge a sel count te) := by
  unfold Dev.rejectEdge
  dsimp only
  split
  · exact (h.setAnyTracker m a sel _).reacquire m a sel count te
  · exact h.setAnyTracker m a sel _

theorem Within.acquireEdge (a : Nat) (sel : TrackerSel) (count te : Word) (fwd : Bool) :
    Within F d₀ (d.acquireEdge a sel count te fwd) := by
  unfold Dev.acquireEdge
  dsimp only
  split
  · exact h.moveAnyTracker m a sel _
  · split
    · split
      · refine Within.moveAnyTracker ?_ m a sel _
        exact h.opt _ (h.alignOffset m a .shadow count _)
      · exact h.setAnyTracker m a sel _
    · exact h.setAnyTracker m a sel _

theorem Within.trackEdge {a : Nat} (ha : a < 4) (sel : TrackerSel) (count te : Word) (fwd : Bool) :
    Within F d₀ (d.trackEdge a sel count te fwd).2 := by
  unfold Dev.trackEdge
  dsimp only
  split
  · exact (h.alignOffset m a sel count _).setAnyTracker m a sel _
  · split
    · cases sel with
      | main => exact (h.satF m.regsPart (m.reg (by decide) ha) 31 0 1).rejectEdge m a .main count te
      | shadow => exact h.rejectEdge m a .shadow count te
    · have hf := h.opt (te = (d.tracker a sel).t) (h.free m.free)
      generalize (if te = (d.tracker a sel).t then d.free.2 else d) = e at hf ⊢
      repeat' split
      · exact hf.moveAnyTracker m a sel _
      · exact hf.setAnyTracker m a sel _
      · exact hf.setAnyTracker m a sel _

theorem Within.trackerEdge {a : Nat} (ha : a < 4) (sel : TrackerSel) (count te : Word) (fwd : Bool) :
    Within F d₀ (d.trackerEdge a sel count te fwd).2 := by
  have hs := h.setAnyTracker m a sel { d.tracker a sel with seen := te }
  unfold Dev.trackerEdge
  dsimp only
  split
  · exact hs.acquireEdge m a sel count te fwd
  · exact hs.acquireEdge m a sel count te fwd
  · exact hs.trackEdge m ha sel count te fwd
  · exact hs.trackEdge m ha sel count te fwd
  · exact hs

theorem Within.axisEdge {a : Nat} (ha : a < 4) (count te : Word) (fwd : Bool) : Within F d₀ (d.axisEdge a count te fwd) := by
  have hr := (h.settleFor m.toMotion a).trackerEdge m ha .main count te fwd
  unfold Dev.axisEdge
  dsimp only
  split
  · exact (((hr.wr m.regsPart (m.reg (by decide) ha) te).refreshAxis m.follow a).forGens
      (fun _ hg _ he => he.edgeGen m.toMotion hg)).freshenActs m.follow a
  · exact hr.refreshAxis m.follow a

theorem Within.feedEdge (n : Nat) (te : Word) (up : Bool) : Within F d₀ (d.feedEdge n te up) := by
  unfold Dev.feedEdge
  split
  · exact h
  · refine h.forUpTo fun a ha e he => ?_
    split
    · have hs := he.opt (e.trackerEnc a .shadow = some n) (he.trackerEdge m ha .shadow (d.rd .sprEncnCount n) te up)
      exact hs.opt _ (hs.axisEdge m ha _ te up)
    · exact he

theorem Within.encCheck (n : Nat) : Within F d₀ (d.encCheck n) :=
  h.forUpTo fun _ _ _ he => he.opt _ (he.raise m.follow.events _)

/-! ### Encoder inputs in fault (R44, R646) -/

theorem Within.fallBack (a : Nat) : Within F d₀ (d.fallBack a) := (h.setAnyAxis m a _).raise m.follow.events _

theorem Within.encFaultRises (n : Nat) : Within F d₀ (d.encFaultRises n) := by
  unfold Dev.encFaultRises
  extract_lets hit
  have hhit : ∀ a sel e, Within F d₀ e → Within F d₀ (hit a sel e) := by
    intro a sel e he
    unfold hit
    dsimp only
    repeat' split
    · exact he.fallBack m a
    · exact he.enterCoast m.toMotion (m.freeFor _ a) sel 2
    · exact he.setAnyTracker m a sel _
    · exact he
  exact h.forUpTo fun a _ e he => he.opt _ (hhit a .shadow _ (hhit a .main e he))

end

/-! ### What an encoder input brings beside its count (R28, R44, R613–R617) -/

/-- What the trackers do with an encoder edge, and the registers of the input that the edge may set. -/
def inputFoot (own : List Nat) : Foot where
  parts := .freeIdx :: axisParts
  regs k := MotionKey k ∨ k ∈ own
  axes _ _ _ := True
  gens _ := True
  axes_refl _ _ := trivial
  axes_trans _ _ _ _ _ _ := trivial

/-- Registers that are no settings may be those of the input. -/
theorem inputFoot_edges {own : List Nat} (ho : ∀ r ∈ settingRegs, ∀ i < (regDesc r).count, regKey r i ∉ own) :
    (inputFoot own).Edges where
  parts := List.subset_cons_self ..
  regs _ hk := .inl hk
  gens _ := trivial
  still _ hr _ hi h := h.elim (not_motionKey hr hi) (ho _ hr _ hi)
  free := List.mem_cons_self
  axes _ _ _ := trivial

/-- The reports of encoder input n: its status and its faults. -/
def reportKeys (n : Nat) : List Nat := [regKey .sprEncnStat n, regKey .fioEncnFlt n]

theorem setting_not_mem_reportKeys {n : Nat} (hn : n < 8) :
    ∀ r ∈ settingRegs, ∀ i < (regDesc r).count, regKey r i ∉ reportKeys n := by
  intro r hr i hi hk
  simp only [settingRegs, List.mem_cons, List.not_mem_nil, or_false] at hr
  simp only [reportKeys, List.mem_cons, List.not_mem_nil, or_false] at hk
  rcases hr with rfl | rfl | rfl | rfl | rfl | rfl | rfl | rfl | rfl | rfl | rfl | rfl | rfl | rfl | rfl | rfl | rfl <;>
  rcases hk with hk | hk <;> simp only [regKey, regDesc] at hk hi <;> omega

/-- What an edge of input n may reach beside its count and its copy at Z: the trackers, and what the input reports. -/
def encFoot (n : Nat) : Foot := inputFoot (reportKeys n)

theorem encFoot_edges {n : Nat} (hn : n < 8) : (encFoot n).Edges := inputFoot_edges (setting_not_mem_reportKeys hn)

/-- From d to t the lines of input n stand with the stamp of its last transition, every other input stands, and the registers that
differ are of motion or what the input reports. -/
structure Counted (n : Nat) (d t : Dev) : Prop where
  regs : ∀ k, ¬ (encFoot n).regs k → tfind t.regs k = tfind d.regs k
  la : (t.encIn n).la = (d.encIn n).la
  lb : (t.encIn n).lb = (d.encIn n).lb
  lz : (t.encIn n).lz = (d.encIn n).lz
  last : (t.encIn n).last = (d.encIn n).last
  others : ∀ m, m ≠ n → t.encIn m = d.encIn m

@[simp] theorem Machine.Dev.encIn_setEncIn_same (d : Dev) (n : Nat) (e : EncIn) : (d.setEncIn n e).encIn n = e := by
  simp [Dev.encIn, Dev.setEncIn]

theorem Machine.Dev.encIn_setEncIn_ne (d : Dev) {n m : Nat} (h : m ≠ n) (e : EncIn) : (d.setEncIn n e).encIn m = d.encIn m := by
  simp [Dev.encIn, Dev.setEncIn, h.symm]

@[simp] theorem Machine.Dev.encIn_wr (d : Dev) (r : Reg) (i : Nat) (v : Word) (m : Nat) : (d.wr r i v).encIn m = d.encIn m := rfl

theorem Within.encIn {t : Dev} (h : Within F d t) (m : Nat) : t.encIn m = d.encIn m := by
  simp only [Dev.encIn, h.enc]

theorem Counted.refl (n : Nat) (d : Dev) : Counted n d d := ⟨fun _ _ => rfl, rfl, rfl, rfl, rfl, fun _ _ => rfl⟩

theorem Within.counted {n : Nat} {t : Dev} (h : Within (encFoot n) d t) : Counted n d t where
  regs := h.regs
  la := by rw [h.encIn]
  lb := by rw [h.encIn]
  lz := by rw [h.encIn]
  last := by rw [h.encIn]
  others m _ := h.encIn m

section
variable {n : Nat} (h : Counted n d₀ d)
include h

theorem Counted.trans {t : Dev} (g : Counted n d t) : Counted n d₀ t where
  regs k hk := (g.regs k hk).trans (h.regs k hk)
  la := g.la.trans h.la
  lb := g.lb.trans h.lb
  lz := g.lz.trans h.lz
  last := g.last.trans h.last
  others m hm := (g.others m hm).trans (h.others m hm)

theorem Counted.opt {t : Dev} (c : Prop) [Decidable c] (ht : Counted n d₀ t) : Counted n d₀ (if c then t else d) := by
  split
  · exact ht
  · exact h

/-- A setting reads as before. -/
theorem Counted.setting {r : Reg} (hn : n < 8) (hr : r ∈ settingRegs) {i : Nat} (hi : i < (regDesc r).count) :
    d.rd r i = d₀.rd r i := by
  simp only [Dev.rd, tget, h.regs _ ((encFoot_edges hn).still _ hr _ hi)]

/-- What the input knows beside its lines and the stamp of its last transition may change. -/
theorem Counted.setEncIn {e : EncIn} (hla : e.la = (d.encIn n).la) (hlb : e.lb = (d.encIn n).lb) (hlz : e.lz = (d.encIn n).lz)
    (hlast : e.last = (d.encIn n).last) : Counted n d₀ (d.setEncIn n e) :=
  h.trans {
    regs := fun _ _ => rfl
    la := by simp [hla]
    lb := by simp [hlb]
    lz := by simp [hlz]
    last := by simp [hlast]
    others := fun _ hm => d.encIn_setEncIn_ne hm e }

variable (hn : n < 8)
include hn

theorem Counted.setEncFlag (b : Nat) : Counted n d₀ (d.setEncFlag n b) := by
  have hp := (encFoot_edges hn).regsPart
  have hflt : (encFoot n).regs (regKey .fioEncnFlt n) := .inr (by simp [reportKeys])
  have hstat : (encFoot n).regs (regKey .sprEncnStat n) := .inr (by simp [reportKeys])
  refine h.trans (Within.counted ?_)
  unfold Dev.setEncFlag Dev.refreshEncFault
  dsimp only
  have hw := (((Within.refl (encFoot n) d).wrB hp hflt b true).setLevel (encFoot_edges hn).follow.events (694 + n)
    (fld ((d.wrB .fioEncnFlt n b true).rd .fioEncnFlt n) 11 0 ≠ 0 || fld ((d.wrB .fioEncnFlt n b true).rd .fioEncnFlt n) 36 32 ≠ 0)).wrB
      hp hstat 3 (fld ((d.wrB .fioEncnFlt n b true).rd .fioEncnFlt n) 7 0 ≠ 0 || bit ((d.wrB .fioEncnFlt n b true).rd .fioEncnFlt n) 32 ||
        bit ((d.wrB .fioEncnFlt n b true).rd .fioEncnFlt n) 33 || bit ((d.wrB .fioEncnFlt n b true).rd .fioEncnFlt n) 36)
  exact hw.opt _ (hw.encFaultRises (encFoot_edges hn) n)

theorem Counted.directionCheck (last : Option Word) (stamp : Word) (up : Bool) : Counted n d₀ (d.directionCheck n last stamp up) := by
  have hset : ∀ x, Counted n d₀ (d.setEncIn n { d.encIn n with dirNet := x }) := fun _ => h.setEncIn rfl rfl rfl rfl
  unfold Dev.directionCheck
  dsimp only
  generalize (if (match last with | some t => decide (50000000 ≤ elapsed stamp t) | none => true) = true then some 0
    else (d.encIn n).dirNet) = net
  cases net with
  | none => exact (hset _).opt _ h
  | some x =>
    refine (hset _).opt _ ?_
    dsimp only
    generalize (if up = true then x + 1 else x - 1) = y
    split
    · exact (hset _).setEncFlag hn 36
    · exact (hset _).opt _ (hset _)

theorem Counted.zCheck (stamp : Word) : Counted n d₀ (d.zCheck n stamp) := by
  have hset : ∀ x, Counted n d₀ (d.setEncIn n { d.encIn n with zMiss := x }) := fun _ => h.setEncIn rfl rfl rfl rfl
  unfold Dev.zCheck
  dsimp only
  refine h.opt _ ?_
  split
  · exact hset _
  · refine (hset _).opt _ ?_
    split
    · exact (hset _).setEncFlag hn 32
    · exact (hset _).setEncFlag hn 33
    · exact (hset _).setEncFlag hn 34

end

/-- The edge of an input in sequence: its count goes up or down by one, and nothing else of it that reads out changes. -/
theorem countEdge_counted {n : Nat} (hn : n < 8) (d : Dev) (last : Option Word) (stamp : Word) (fwd : Bool) :
    Counted n (d.wr .sprEncnCount n (if fwd != d.rdB .sprEncnCfg n 8 then d.rd .sprEncnCount n + 1 else d.rd .sprEncnCount n - 1))
      (d.countEdge n last stamp fwd) := by
  unfold Dev.countEdge
  extract_lets up d₁ e d₂ d₃
  have h₂ : Counted n d₁ d₂ := (Counted.refl n d₁).setEncIn rfl rfl rfl rfl
  have h₃ : Counted n d₁ d₃ := h₂.directionCheck hn last stamp up
  exact h₃.trans ((Within.refl (encFoot n) d₃).feedEdge (encFoot_edges hn) n stamp up).counted

/-- Z_PERIOD set, with the check of the axes on the input. -/
theorem Counted.zPeriod {n : Nat} (h : Counted n d₀ d) (hn : n < 8) : Counted n d₀ ((d.wrB .sprEncnStat n 2 true).encCheck n) :=
  h.trans (((Within.refl (encFoot n) d).wrB (encFoot_edges hn).regsPart (.inr (by simp [reportKeys])) 2 true).encCheck
    (encFoot_edges hn) n).counted

/-- A rising Z: with ZEN the count is copied; the count and the lines stand. -/
theorem zTransition_high {n : Nat} (hn : n < 8) (d : Dev) (stamp : Word) :
    (d.zTransition n true stamp).rd .sprEncnZcnt n =
        (if d.rdB .sprEncnCfg n 9 then d.rd .sprEncnCount n else d.rd .sprEncnZcnt n) ∧
      (d.zTransition n true stamp).rd .sprEncnCount n = d.rd .sprEncnCount n ∧
      ((d.zTransition n true stamp).encIn n).lz = (d.encIn n).lz := by
  unfold Dev.zTransition
  rw [if_pos rfl]
  extract_lets revZ d₁ count period bad d₂ d₃ prev e₃
  have h₁ : Counted n d d₁ := (Counted.refl n d).opt _ ((Counted.refl n d).setEncFlag hn 35)
  have hcount : count = d.rd .sprEncnCount n := h₁.setting hn (by decide) hn
  have hzen : d₁.rdB .sprEncnCfg n 9 = d.rdB .sprEncnCfg n 9 := by
    simp only [Dev.rdB, h₁.setting hn (r := .sprEncnCfg) (by decide) hn]
  have hz : d₁.rd .sprEncnZcnt n = d.rd .sprEncnZcnt n := h₁.setting hn (by decide) hn
  have h₃ : Counted n (if d.rdB .sprEncnCfg n 9 then d₂ else d₁) d₃ := by
    unfold d₃
    rw [hzen]
    split
    · exact (Counted.refl n d₂).opt _ ((Counted.refl n d₂).zPeriod hn)
    · exact Counted.refl n d₁
  have hzcnt : d₃.rd .sprEncnZcnt n = (if d.rdB .sprEncnCfg n 9 then d.rd .sprEncnCount n else d.rd .sprEncnZcnt n) := by
    rw [h₃.setting hn (by decide) hn]
    split
    · exact (d₁.rd_wr_same .sprEncnZcnt n count).trans hcount
    · exact hz
  have hcnt : d₃.rd .sprEncnCount n = d.rd .sprEncnCount n := by
    rw [h₃.setting hn (by decide) hn]
    split
    · exact (d₁.rd_wr_ne count (by simp only [regKey, regDesc]; omega)).trans hcount
    · exact hcount
  have hlz : (d₃.encIn n).lz = (d.encIn n).lz := by
    rw [h₃.lz]
    split
    · exact h₁.lz
    · exact h₁.lz
  refine ⟨hzcnt, hcnt, ?_⟩
  rw [Dev.encIn_setEncIn_same]
  exact hlz

/-! ### A skipped state (R28) -/

/-- A skipped state: QERR is set, RATE where it came too soon, and beyond the status of the input only the trackers move. -/
theorem skipState_within {n : Nat} (d : Dev) (te : Word) (rate : Bool) :
    Within (inputFoot []) (if rate then (d.wrB .sprEncnStat n 0 true).wrB .sprEncnStat n 1 true else d.wrB .sprEncnStat n 0 true)
      (d.skipState n te rate) := by
  have m : (inputFoot []).Edges := inputFoot_edges (by simp)
  unfold Dev.skipState
  extract_lets d₁ d₂ d₃ c hit
  have h₃ : Within (inputFoot []) d₂ d₃ := (Within.refl _ d₂).encCheck m n
  have hhit : ∀ a sel e, Within (inputFoot []) d₂ e → Within (inputFoot []) d₂ (hit a sel e) :=
    fun a sel _ he => he.opt _ (he.rejectEdge m a sel c te)
  have hall : ∀ a < 4, ∀ e, Within (inputFoot []) d₂ e →
      Within (inputFoot []) d₂ (hit a .main (hit a .shadow (e.satF .sprAxnRejCnt a 31 0 1))) := fun a ha e he =>
    hhit a .main _ (hhit a .shadow _ (he.satF m.regsPart (m.reg (by decide) ha) 31 0 1))
  exact (h₃.forUpTo fun a ha e he => he.opt _ (hall a ha e he)).opt _ h₃

theorem status_not_motion {n : Nat} (hn : n < 8) : ¬ (inputFoot []).regs (regKey .sprEncnStat n) := by
  rintro (⟨q, hq, j, hj, h⟩ | h)
  · simp only [motionRegs, List.mem_cons, List.not_mem_nil, or_false] at hq
    rcases hq with rfl | rfl | rfl | rfl | rfl | rfl | rfl | rfl | rfl | rfl | rfl | rfl <;>
    simp only [regKey, regDesc] at h hj <;> omega
  · exact absurd h List.not_mem_nil

theorem skipState_reads {n : Nat} (hn : n < 8) (d : Dev) (te : Word) (rate : Bool) :
    (d.skipState n te rate).rd .sprEncnCount n = d.rd .sprEncnCount n ∧ (d.skipState n te rate).rdB .sprEncnStat n 0 = true ∧
      (d.skipState n te rate).rdB .sprEncnStat n 1 = (d.rdB .sprEncnStat n 1 || rate) ∧
      (d.skipState n te rate).encIn n = d.encIn n := by
  have h := skipState_within (n := n) d te rate
  have m : (inputFoot []).Edges := inputFoot_edges (by simp)
  have hne : regKey .sprEncnCount n ≠ regKey .sprEncnStat n := by simp only [regKey, regDesc]; omega
  rw [h.setting m.still (by decide) hn, h.encIn, Dev.rdB, Dev.rdB, h.rd (status_not_motion hn)]
  cases rate with
  | false => simp [Dev.wrB, Dev.rdB, hne.symm, bit_setBit_same, bit_setBit_ne]
  | true => simp [Dev.wrB, Dev.rdB, hne.symm, bit_setBit_same, bit_setBit_ne]

/-! ### An edge that passes the filter (R26, R27) -/

/-- An encoder input once a line has passed its filter, the other with it where both crossed at once. -/
def passedIn (e : EncIn) (ch other : EncCh) (pair : Bool) : EncIn :=
  let e₁ := e.withLine ch { e.line ch with filt := (e.line ch).pin }
  let e₂ := if pair then e₁.withLine other { e.line other with filt := (e.line other).pin } else e₁
  { e₂ with last := some (e.line ch).stamp, zHist := ((e.line ch).stamp, e₂.la.filt, e₂.lb.filt) :: e₂.zHist }

theorem line_passedIn {ch other : EncCh} (ho : (ch, other) = (.a, .b) ∨ (ch, other) = (.b, .a)) (e : EncIn) (pair : Bool) :
    ((passedIn e ch other pair).line ch).filt = (e.line ch).pin := by
  rcases ho with ho | ho <;> cases ho <;> cases pair <;> rfl

/-- The two lines crossed at once. -/
def bothCrossed (e : EncIn) (ch other : EncCh) : Bool :=
  ((e.line other).pin != (e.line other).filt) && (e.line other).stamp = (e.line ch).stamp

/-- The transition came within 20 ns of the previous. -/
def tooSoon (e : EncIn) (ch : EncCh) : Bool :=
  match e.last with
  | some u => decide (elapsed (e.line ch).stamp u < 20)
  | none => false

theorem tooSoon_eq (e : EncIn) (ch : EncCh) : tooSoon e ch = e.last.any fun u => decide (elapsed (e.line ch).stamp u < 20) := by
  unfold tooSoon
  cases e.last <;> rfl

/-- A line of A and B that held its new level: a skipped state, or a count. -/
theorem encoderEdgeAcceptOp_ab {n : Nat} {ch other : EncCh} {d : Dev} (ho : (ch, other) = (.a, .b) ∨ (ch, other) = (.b, .a))
    (hpin : ((d.encIn n).line ch).pin ≠ ((d.encIn n).line ch).filt)
    (hheld : d.rdF .sprEncnCfg n 7 0 ≤ elapsed d.now ((d.encIn n).line ch).stamp) :
    let e := d.encIn n
    let t := d.setEncIn n (passedIn e ch other (bothCrossed e ch other))
    encoderEdgeAcceptOp n ch d =
      if bothCrossed e ch other || tooSoon e ch then t.skipState n (e.line ch).stamp (tooSoon e ch)
      else t.countEdge n e.last (e.line ch).stamp
        (if ch = .a then (e.line ch).pin != (e.line other).filt else (e.line ch).pin = (e.line other).filt) := by
  unfold encoderEdgeAcceptOp
  dsimp only
  rw [if_neg (by simp [hpin, hheld])]
  rcases ho with ho | ho <;> cases ho <;> rfl

/-! ### Pulses and trigger packets (R59, R61, R62, R140–R142) -/

/-- A footprint of parts and registers alone. -/
def plainFoot (ps : List Part) (ks : List Nat) : Foot where
  parts := ps
  regs k := k ∈ ks
  axes _ x y := y = x
  gens _ := False
  axes_refl _ _ := rfl
  axes_trans _ _ _ _ h g := g.trans h

theorem Within.only {s : State} {t : Dev} (h : Within F s.dev t) : Only F.parts s { s with dev := t } := ⟨rfl, h.parts⟩

theorem Within.regsOnly {ps : List Part} {ks : List Nat} {s : State} {t : Dev} (h : Within (plainFoot ps ks) s.dev t) :
    RegsOnly ks s { s with dev := t } := h.regs

theorem Within.emit (h : Within F d₀ d) (hp : Part.outbox ∈ F.parts) (m : OutMsg) : Within F d₀ (d.emit m) :=
  h.step (fun p hq => by cases p with | outbox => exact absurd hp hq | _ => rfl) (fun _ _ => rfl) rfl

@[simp] theorem Machine.Dev.outDrv_setOutDrv_same (d : Dev) (x : Nat) (o : OutDrv) : (d.setOutDrv x o).outDrv x = o := by
  simp [Dev.outDrv, Dev.setOutDrv]

theorem Machine.Dev.outDrv_setOutDrv_ne (d : Dev) {x y : Nat} (h : y ≠ x) (o : OutDrv) :
    (d.setOutDrv x o).outDrv y = d.outDrv y := by
  simp [Dev.outDrv, Dev.setOutDrv, h.symm]

/-- A counter that goes up holds at its width. -/
theorem Machine.Dev.rdF_satF (d : Dev) (r : Reg) (i : Nat) {hi lo : Nat} (h : lo ≤ hi) (h' : hi < 48) (n : Nat) :
    (d.satF r i hi lo n).rdF r i hi lo = min (d.rdF r i hi lo + n) (2 ^ (hi + 1 - lo) - 1) := by
  rw [Dev.rdF, Dev.satF, Dev.rd_wr_same, satFld, fld_setFld_same _ _ h h', satAdd, Nat.mod_eq_of_lt]
  · rfl
  · exact lt_of_le_of_lt (Nat.min_le_right _ _) (Nat.sub_lt (Nat.two_pow_pos _) one_pos)

/-- The oldest trigger packet of link l, its head up or not. -/
theorem sendTrig_of_due {l : Nat} {rise : Bool} {p : TrigPkt} {rest : List TrigPkt} (hq : tget d.cxi.trigQ [] l = p :: rest)
    (hr : p.rising = rise) (hdue : atOrPast d.now p.fire = true) :
    let t : Dev := { d with cxi := { d.cxi with trigQ := tset d.cxi.trigQ l rest } }
    d.sendTrig l rise =
      if !d.trigLink l then t.satF .cxiMisroute 0 31 0 1
      else if Config.trigDelayMax < elapsed d.now p.fire then
        match d.headOfLink l with
        | some h => (t.wrB .cxiHdhStat h 9 true).headEvent h
        | none => t
      else t.emit (.cxp l (.trigger rise (elapsed d.now p.fire))) := by
  unfold Dev.sendTrig
  rw [hq]
  dsimp only
  rw [if_pos (by simp [hr, hdue])]
  rfl

/-- CXP_TRIGGER_PACKET and CXP_FALL_PACKET by the level they send. -/
theorem exec_trigPacket {c : Instr} {l : Fin 64} {rise : Bool} {s : State} (hp : s.dev.powered = true)
    (hc : (c, rise) = (.cxpTriggerPacket l, true) ∨ (c, rise) = (.cxpFallPacket l, false)) :
    exec c s = .next { s with dev := s.dev.sendTrig l rise } := by
  rcases hc with hc | hc <;> cases hc <;> exact State.run_powered hp _

/-! ### O13 -/

theorem line_withLine_same (e : EncIn) (ch : EncCh) (l : EncLine) : (e.withLine ch l).line ch = l := by
  cases ch <;> rfl

theorem line_withLine_ne (e : EncIn) {c ch : EncCh} (h : c ≠ ch) (l : EncLine) : (e.withLine ch l).line c = e.line c := by
  cases ch <;> cases c <;> simp_all [EncIn.line, EncIn.withLine]

/-- A pin crossing of input n. -/
theorem encoderPinCrossingOp_eq (n : Nat) (ch : EncCh) (level : Bool) (d : Dev) :
    ((encoderPinCrossingOp n ch level d).encIn n).line ch =
        (if ((d.encIn n).line ch).pin = level then (d.encIn n).line ch
          else { (d.encIn n).line ch with pin := level, stamp := d.now }) ∧
      (∀ c : EncCh, c ≠ ch → ((encoderPinCrossingOp n ch level d).encIn n).line c = (d.encIn n).line c) ∧
      (∀ m : Nat, m ≠ n → (encoderPinCrossingOp n ch level d).encIn m = d.encIn m) ∧
      ∀ p, p ∉ [Part.spr] → p.same d (encoderPinCrossingOp n ch level d) := by
  unfold encoderPinCrossingOp
  dsimp only
  split
  · exact ⟨rfl, fun _ _ => rfl, fun _ _ => rfl, fun p _ => by cases p <;> rfl⟩
  · refine ⟨?_, fun c hc => ?_, fun m hm => d.encIn_setEncIn_ne hm _, fun p hp => ?_⟩
    · rw [Dev.encIn_setEncIn_same, line_withLine_same]
    · rw [Dev.encIn_setEncIn_same, line_withLine_ne _ hc]
    · cases p with
      | spr => exact absurd List.mem_cons_self hp
      | _ => rfl

theorem Counted.line {n : Nat} {t : Dev} (h : Counted n d t) (ch : EncCh) : (t.encIn n).line ch = (d.encIn n).line ch := by
  cases ch with
  | a => exact h.la
  | b => exact h.lb
  | z => exact h.lz

/-- An edge of A or B in sequence. -/
theorem encoderEdgeAccept_counts {n : Nat} (hn : n < 8) {ch other : EncCh} {d : Dev}
    (ho : (ch, other) = (.a, .b) ∨ (ch, other) = (.b, .a)) (hpin : ((d.encIn n).line ch).pin ≠ ((d.encIn n).line ch).filt)
    (hone : ((d.encIn n).line other).pin = ((d.encIn n).line other).filt ∨
      ((d.encIn n).line other).stamp ≠ ((d.encIn n).line ch).stamp)
    (hheld : d.rdF .sprEncnCfg n 7 0 ≤ elapsed d.now ((d.encIn n).line ch).stamp)
    (hsoon : (d.encIn n).last.any (fun u => decide (elapsed ((d.encIn n).line ch).stamp u < 20)) = false) :
    let t := encoderEdgeAcceptOp n ch d
    t.rd .sprEncnCount n =
        (if (if ch = .a then ((d.encIn n).line ch).pin != ((d.encIn n).line other).filt
            else decide (((d.encIn n).line ch).pin = ((d.encIn n).line other).filt)) != d.rdB .sprEncnCfg n 8
          then d.rd .sprEncnCount n + 1 else d.rd .sprEncnCount n - 1) ∧
      ((t.encIn n).line ch).filt = ((d.encIn n).line ch).pin ∧ (t.encIn n).last = some ((d.encIn n).line ch).stamp ∧
      ∀ m : Nat, m ≠ n → m < 8 → t.rd .sprEncnCount m = d.rd .sprEncnCount m ∧ t.encIn m = d.encIn m := by
  have hboth : bothCrossed (d.encIn n) ch other = false := by
    rcases hone with h | h <;> simp [bothCrossed, h]
  have hop := encoderEdgeAcceptOp_ab ho hpin hheld
  dsimp only at hop ⊢
  rw [hop, hboth, tooSoon_eq, hsoon, if_neg (by decide)]
  generalize (if ch = .a then _ else _ : Bool) = fwd
  have h := countEdge_counted hn (d.setEncIn n (passedIn (d.encIn n) ch other false)) (d.encIn n).last
    ((d.encIn n).line ch).stamp fwd
  have hcnt : ∀ v, (Dev.wr (d.setEncIn n (passedIn (d.encIn n) ch other false)) .sprEncnCount n v).encIn n =
      passedIn (d.encIn n) ch other false := fun v => by simp
  refine ⟨?_, ?_, ?_, fun m hm hm8 => ⟨?_, ?_⟩⟩
  · rw [h.setting hn (by decide) hn, Dev.rd_wr_same]
    rfl
  · rw [h.line, hcnt, line_passedIn ho]
  · rw [h.last, hcnt]
    rfl
  · rw [h.setting hn (by decide) hm8, Dev.rd_wr_ne _ _ (by simp only [regKey, regDesc]; omega)]
    rfl
  · rw [h.others m hm, Dev.encIn_wr, Dev.encIn_setEncIn_ne _ hm]

/-- A skipped state of A and B. -/
theorem encoderEdgeAccept_skips {n : Nat} (hn : n < 8) {ch other : EncCh} {d : Dev}
    (ho : (ch, other) = (.a, .b) ∨ (ch, other) = (.b, .a)) (hpin : ((d.encIn n).line ch).pin ≠ ((d.encIn n).line ch).filt)
    (hheld : d.rdF .sprEncnCfg n 7 0 ≤ elapsed d.now ((d.encIn n).line ch).stamp)
    (hskip : (((d.encIn n).line other).pin ≠ ((d.encIn n).line other).filt ∧
        ((d.encIn n).line other).stamp = ((d.encIn n).line ch).stamp) ∨
      (d.encIn n).last.any (fun u => decide (elapsed ((d.encIn n).line ch).stamp u < 20)) = true) :
    let t := encoderEdgeAcceptOp n ch d
    t.rd .sprEncnCount n = d.rd .sprEncnCount n ∧ t.rdB .sprEncnStat n 0 = true ∧
      ((t.encIn n).line ch).filt = ((d.encIn n).line ch).pin ∧
      t.rdB .sprEncnStat n 1 = (d.rdB .sprEncnStat n 1 ||
        (d.encIn n).last.any (fun u => decide (elapsed ((d.encIn n).line ch).stamp u < 20))) := by
  have hskips : (bothCrossed (d.encIn n) ch other || tooSoon (d.encIn n) ch) = true := by
    rw [tooSoon_eq, Bool.or_eq_true]
    exact hskip.imp_left fun ⟨h, h'⟩ => by simp [bothCrossed, h, h']
  have hop := encoderEdgeAcceptOp_ab ho hpin hheld
  dsimp only at hop ⊢
  rw [hop, if_pos hskips]
  obtain ⟨hcount, hqerr, hrate, henc⟩ := skipState_reads hn
    (d.setEncIn n (passedIn (d.encIn n) ch other (bothCrossed (d.encIn n) ch other))) ((d.encIn n).line ch).stamp
    (tooSoon (d.encIn n) ch)
  refine ⟨hcount, hqerr, ?_, ?_⟩
  · rw [henc, Dev.encIn_setEncIn_same, line_passedIn ho]
  · rw [hrate, tooSoon_eq]
    rfl

/-- A transition of Z that held its level. -/
theorem encoderEdgeAcceptOp_z {n : Nat} {d : Dev} (hpin : (d.encIn n).lz.pin ≠ (d.encIn n).lz.filt)
    (hheld : d.rdF .sprEncnCfg n 7 0 ≤ elapsed d.now (d.encIn n).lz.stamp) :
    encoderEdgeAcceptOp n .z d =
      (d.setEncIn n { d.encIn n with lz := { (d.encIn n).lz with filt := (d.encIn n).lz.pin } }).zTransition n
        (d.encIn n).lz.pin (d.encIn n).lz.stamp := by
  unfold encoderEdgeAcceptOp
  dsimp only [EncIn.line]
  rw [if_neg (by simp [hpin, hheld])]
  rfl

/-- A pulse due at an output that drives. -/
theorem outputPulseStartOp_of_due {x : Nat} {p : Pulse} {rest : List Pulse} (hq : (d.outDrv x).due = p :: rest)
    (hdue : atOrPast d.now p.start = true) :
    outputPulseStartOp x d =
      if d.outDrives x then
        d.setOutDrv x { d.outDrv x with due := rest, active := some (p.start + wordOf p.width, p.level) }
      else (d.setOutDrv x { d.outDrv x with due := rest }).satF .fioOxCnt x 47 16 1 := by
  unfold outputPulseStartOp
  dsimp only
  rw [hq]
  exact if_pos hdue

theorem outputPulseEndOp_of_past {x : Nat} {e : Word} {l : Bool} (ha : (d.outDrv x).active = some (e, l))
    (hend : atOrPast d.now e = true) : outputPulseEndOp x d = d.setOutDrv x { d.outDrv x with active := none } := by
  unfold outputPulseEndOp
  dsimp only
  rw [ha]
  exact if_pos hend

/-- The block without the oldest trigger packet of link l. -/
def Machine.Dev.popTrig (d : Dev) (l : Nat) (rest : List TrigPkt) : Dev :=
  { d with cxi := { d.cxi with trigQ := tset d.cxi.trigQ l rest } }

theorem trigQ_popTrig (d : Dev) (l : Nat) (rest : List TrigPkt) : tget (d.popTrig l rest).cxi.trigQ [] l = rest := by
  simp [Dev.popTrig]

/-- A trigger packet taken from its link, and what it brings in registers, events and the outbox. -/
theorem within_popTrig {ps : List Part} (hp : Part.cxi ∈ ps) (ks : List Nat) (d : Dev) (l : Nat) (rest : List TrigPkt) :
    Within (plainFoot ps ks) d (d.popTrig l rest) := (Within.refl _ d).withCxi hp _

/-- A trigger packet that left its link too late: TRIG_LATE of the head. -/
theorem late_trigger (s : State) (l h : Fin 64) (rest : List TrigPkt) :
    let t : State := { s with dev := ((s.dev.popTrig l rest).wrB .cxiHdhStat h 9 true).headEvent h }
    tget t.dev.cxi.trigQ [] l = rest ∧ Only [.cxi, .regs, .evc, .wev] s t ∧ t.dev.rdB .cxiHdhStat h 9 = true ∧
      RegsOnly [regKey .cxiHdhStat h] s t := by
  have hw := ((within_popTrig (ps := [.cxi, .regs, .evc, .wev]) (by simp) [regKey .cxiHdhStat h] s.dev l rest).wrB
    (by simp [plainFoot]) (r := .cxiHdhStat) (i := h) List.mem_cons_self 9 true).raise (by simp [plainFoot]) (448 + h)
  refine ⟨?_, hw.only, ?_, hw.regsOnly⟩
  · simp [Dev.headEvent, Dev.wrB, trigQ_popTrig]
  · simp [Dev.headEvent, Dev.wrB, Dev.rdB, bit_setBit_same]

/-- Settles O13: an edge of an encoder reaches trackers, generators and what the input reports, but neither its count nor its lines;
pulses and trigger packets are the branches of their steps. -/
theorem encodersPulsesPackets : Obligations.EncodersPulsesPackets := by
  unfold Obligations.EncodersPulsesPackets
  refine ⟨fun n ch level s => ?_, fun n s hp hpin hone hheld hsoon => ?_, fun n s hp hpin hone hheld hsoon => ?_,
    fun n ch other s hp ho hpin hheld hskip => ?_, fun n s hp hpin hfilt hheld => ?_, fun n s hp hpin hfilt hheld => ?_,
    fun x s p rest hp hq hdue hdrv => ?_, fun x s p rest hp hq hdue hdrv => ?_, fun x s e l hp ha hend => ?_,
    fun c l h rise s p rest hp hc hq hr hdue hlink hup hcfg => ?_, fun c l rise s p rest hp hc hq hr hdue hlink => ?_⟩
  · obtain ⟨hline, hothers, hinputs, honly⟩ := encoderPinCrossingOp_eq n ch level s.dev
    exact ⟨_, rfl, hline, hothers, fun m hm => hinputs m (Fin.val_ne_of_ne hm), rfl, honly⟩
  · obtain ⟨hcount, hfilt, hlast, hothers⟩ := encoderEdgeAccept_counts n.isLt (.inl rfl) hpin (hone.imp_left id) hheld hsoon
    exact ⟨_, State.run_powered hp _, hcount, hfilt, hlast, fun m hm => hothers m (Fin.val_ne_of_ne hm) m.isLt⟩
  · obtain ⟨hcount, hfilt, hlast, hothers⟩ := encoderEdgeAccept_counts n.isLt (.inr rfl) hpin (hone.imp_left id) hheld hsoon
    exact ⟨_, State.run_powered hp _, hcount, hfilt, hlast, fun m hm => hothers m (Fin.val_ne_of_ne hm) m.isLt⟩
  · exact ⟨_, State.run_powered hp _, encoderEdgeAccept_skips n.isLt ho hpin hheld hskip⟩
  · refine ⟨_, State.run_powered hp _, ?_⟩
    dsimp only
    rw [encoderEdgeAcceptOp_z (by simp [hpin, hfilt]) hheld, hpin]
    obtain ⟨hz, hcount, hlz⟩ := zTransition_high n.isLt
      (s.dev.setEncIn n { s.dev.encIn n with lz := { (s.dev.encIn n).lz with filt := true } }) (s.dev.encIn n).lz.stamp
    refine ⟨hz, hcount, ?_⟩
    rw [hlz, Dev.encIn_setEncIn_same]
  · refine ⟨_, State.run_powered hp _, ?_⟩
    dsimp only
    rw [encoderEdgeAcceptOp_z (by simp [hpin, hfilt]) hheld, hpin]
    have h := (Counted.refl n.val
      (s.dev.setEncIn n { s.dev.encIn n with lz := { (s.dev.encIn n).lz with filt := false } })).zCheck n.isLt (s.dev.encIn n).lz.stamp
    refine ⟨h.setting n.isLt (by decide) n.isLt, h.setting n.isLt (by decide) n.isLt, ?_⟩
    exact (congrArg EncLine.filt h.lz).trans (by rw [Dev.encIn_setEncIn_same])
  · refine ⟨_, State.run_powered hp _, ?_⟩
    have hw := (Within.refl (plainFoot [.fio] []) s.dev).setOutDrv (by decide) x
      { s.dev.outDrv x with due := rest, active := some (p.start + wordOf p.width, p.level) }
    rw [outputPulseStartOp_of_due hq hdue, if_pos hdrv]
    exact ⟨Dev.outDrv_setOutDrv_same _ _ _, fun y hy => Dev.outDrv_setOutDrv_ne _ (Fin.val_ne_of_ne hy) _, hw.only⟩
  · refine ⟨_, State.run_powered hp _, ?_⟩
    have hw := ((Within.refl (plainFoot [.fio, .regs] [regKey .fioOxCnt x]) s.dev).setOutDrv
      (by simp [plainFoot]) x { s.dev.outDrv x with due := rest }).satF (by simp [plainFoot]) (r := .fioOxCnt) (i := x)
      List.mem_cons_self 47 16 1
    rw [outputPulseStartOp_of_due hq hdue, if_neg (by simp [hdrv])]
    exact ⟨Dev.outDrv_setOutDrv_same _ _ _, Dev.rdF_satF _ _ _ (by decide) (by decide) 1,
      fun y hy => Dev.outDrv_setOutDrv_ne _ (Fin.val_ne_of_ne hy) _, hw.regsOnly, hw.only⟩
  · refine ⟨_, State.run_powered hp _, ?_⟩
    have hw := (Within.refl (plainFoot [.fio] []) s.dev).setOutDrv (by decide) x { s.dev.outDrv x with active := none }
    rw [outputPulseEndOp_of_past ha hend]
    exact ⟨Dev.outDrv_setOutDrv_same _ _ _, fun y hy => Dev.outDrv_setOutDrv_ne _ (Fin.val_ne_of_ne hy) _, hw.only⟩
  · have hlive : s.dev.trigLink l = true := by simp [Dev.trigLink, hlink, hup, hcfg]
    refine ⟨_, exec_trigPacket hp hc, ?_⟩
    dsimp only
    rw [sendTrig_of_due hq hr hdue, hlive, if_neg (by decide)]
    split
    · next hlate =>
      rw [hlink]
      obtain ⟨hrest, honly, hbit, hregs⟩ := late_trigger s l h rest
      exact ⟨hrest, fun hw => absurd hlate (Nat.not_lt.2 hw), fun _ => ⟨honly, hbit, hregs⟩⟩
    · next hintime =>
      have hw := (within_popTrig (ps := [.cxi, .outbox]) (by simp) [] s.dev l rest).emit (by simp [plainFoot])
        (.cxp l (.trigger rise (elapsed s.dev.now p.fire)))
      exact ⟨trigQ_popTrig s.dev l rest, fun _ => ⟨hw.only, rfl⟩, fun hlate => absurd hlate hintime⟩
  · refine ⟨_, exec_trigPacket hp hc, ?_⟩
    dsimp only
    rw [sendTrig_of_due hq hr hdue, hlink, if_pos (by decide)]
    have hw := (within_popTrig (ps := [.cxi, .regs]) (by simp) [regKey .cxiMisroute 0] s.dev l rest).satF
      (by simp [plainFoot]) (r := .cxiMisroute) (i := 0) List.mem_cons_self 31 0 1
    exact ⟨trigQ_popTrig s.dev l rest, Dev.rdF_satF _ _ _ (by decide) (by decide) 1, hw.regsOnly, hw.only⟩

end Sys2Proof
end

section
/-! PROOF SUPPORT. What a channel whose FIRE ends, since a generator takes its output, may reach: nothing of the position domain. -/

namespace Sys2Proof

open Machine

variable {F : Foot} {d₀ d : Dev}

/-! ### What an output that a generator takes brings to the channels (R54, R306) -/

/-- What a channel whose command ends may reach: registers past those of the position domain, and none of its state. -/
def channelFoot : Foot where
  parts := [.regs, .cxi, .evc, .wev, .owners, .ibx, .procs, .tmv, .hbc, .tfb]
  regs k := 131072 ≤ k
  axes _ x y := y = x
  gens _ := False
  axes_refl _ _ := rfl
  axes_trans _ _ _ _ h g := g.trans h

theorem channelKey {r : Reg} (h : 2 ≤ (regDesc r).win) (i : Nat) : channelFoot.regs (regKey r i) := by
  simp only [channelFoot, regKey]
  omega

section
variable (h : Within channelFoot d₀ d)
include h

theorem Within.wrWord {r : Reg} (hr : 2 ≤ (regDesc r).win) (i : Nat) (v : Word) : Within channelFoot d₀ (d.wr r i v) :=
  h.wr (by decide) (channelKey hr i) v

theorem Within.setProc (c : Nat) (p : Proc) : Within channelFoot d₀ (d.setProc c p) :=
  h.step (fun p hq => by cases p with | procs => exact absurd (by decide) hq | _ => rfl) (fun _ _ => rfl) rfl

theorem Within.setChan (c : Nat) (x : Chan) : Within channelFoot d₀ (d.setChan c x) := h.withIbx (by decide) _

theorem Within.setChState (c st reason : Nat) : Within channelFoot d₀ (d.setChState c st reason) :=
  (h.wrWord (by decide) c _).wrWord (by decide) c _

theorem Within.postCsw (c : Nat) (k : CswKind) (st sub resid op : Nat) (addr : Word) (ring : Nat) :
    Within channelFoot d₀ (d.postCsw c k st sub resid op addr ring) :=
  ((((h.wrWord (by decide) c _).wrWord (by decide) c _).wrWord (by decide) (c / 48) _).wrWord (by decide) c _).raise (by decide) _

theorem Within.takeEngine : Within channelFoot d₀ d.takeEngine := by
  unfold Dev.takeEngine
  split
  · exact h.step (fun p hq => by cases p with | tmv | hbc => exact absurd (by decide) hq | _ => rfl) (fun _ _ => rfl) rfl
  · exact h

theorem Within.leaveMover (u : MoverUser) : Within channelFoot d₀ (d.leaveMover u) := by
  unfold Dev.leaveMover
  split
  · exact h
  · refine Within.forUpTo (n := 8) ?_ fun _ _ _ he => he.takeEngine
    exact h.step (fun p hq => by cases p with | tmv => exact absurd (by decide) hq | _ => rfl) (fun _ _ => rfl) rfl

theorem Within.dropTally (e : Resource) : Within channelFoot d₀ (d.dropTally e) := by
  cases e with
  | tally k => exact h.setHead (by decide) k _
  | _ => exact h

theorem Within.dropRemote (test : RemoteReq → Bool) : Within channelFoot d₀ (d.dropRemote test) :=
  h.step (fun p hq => by cases p with | tfb => exact absurd (by decide) hq | _ => rfl) (fun _ _ => rfl) rfl

theorem Within.dropQuery (n : Nat) : Within channelFoot d₀ (d.dropQuery n) :=
  ((h.dropRemote _).leaveMover _).step (fun p hq => by cases p with | tfb => exact absurd (by decide) hq | _ => rfl)
    (fun _ _ => rfl) rfl

theorem Within.dropChanQuery (c : Nat) : Within channelFoot d₀ (d.dropChanQuery c) := by
  unfold Dev.dropChanQuery
  split
  · exact (h.dropQuery _).withIbx (by decide) _
  · exact h

theorem Within.chRelease (c : Nat) : Within channelFoot d₀ (d.chRelease c) := by
  have h₁ := (h.foldl (l := d.owners.filter (fun e => e.2 = c)) fun _ e _ he => he.dropTally e.1).dropChanQuery c
  have h₂ := h₁.leaveMover (.move c)
  unfold Dev.chRelease
  extract_lets e₁ e₂ e₃
  have h₃ : Within channelFoot d₀ e₃ := h₂.step (fun p hq => by cases p with | owners | wev => exact absurd (by decide) hq | _ => rfl)
    (fun _ _ => rfl) rfl
  exact (h₃.setChan c {}).wrWord (by decide) c _

theorem Within.chFinish (c code : Nat) (w : ChWord) (st sub resid value : Nat) :
    Within channelFoot d₀ (d.chFinish c code w st sub resid value) := by
  unfold Dev.chFinish
  extract_lets p x p₁ e₁ e₂ e₃
  have h₁ : Within channelFoot d₀ e₁ := h.setProc c _
  have h₂ : Within channelFoot d₀ e₂ := h₁.wrWord (by decide) c _
  have h₃ : Within channelFoot d₀ e₃ := h₂.setChan c _
  split
  · exact ((h₂.chRelease c).setChState c 0 0).postCsw ..
  · split
    · exact (h₃.setChState c 3 3).postCsw ..
    · exact h₃.setChState c 1 0

theorem Within.endFires : Within channelFoot d₀ d.endFires := by
  refine h.foldl fun e c _ he => ?_
  split
  · split
    · split
      · exact he.chFinish ..
      · exact he
    · exact he
  · exact he

end

end Sys2Proof
end

section
/-! PROOF. O12: trigger grids that start, stop, fix and fire (R51–R58), and actuator schedulers (R65, R66). -/

namespace Sys2Proof

open Machine

variable {F : Foot} {d₀ d : Dev}

/-! ### A grid that starts (R51–R53) -/

/-- Where no channel runs, no FIRE waits for an output. -/
theorem endFires_of_idle (h : d.busyChans = []) : d.endFires = d := by
  simp [Dev.endFires, h]

/-- The registers of generators and axes stand while channels end their commands. -/
theorem rd_endFires (d : Dev) {r : Reg} (i : Nat) (h : regKey r i < 131072) : d.endFires.rd r i = d.rd r i :=
  (Within.refl channelFoot d).endFires.rd (Nat.not_le.2 h)

theorem gen_endFires (d : Dev) (g : Nat) : d.endFires.gen g = d.gen g := (Within.refl channelFoot d).endFires.gens g id

/-- The channels that run are said by IBX alone. -/
theorem busyChans_of_ibx {e : Dev} (h : e.ibx = d.ibx) : e.busyChans = d.busyChans := by
  simp only [Dev.busyChans, h]

/-- A change that leaves IBX leaves channels idle, so no FIRE waits for an output. -/
theorem Within.endFires_of_idle {s : State} (h : Within F s.dev d) (hp : Part.ibx ∉ F.parts) (hidle : ChannelsIdle s) :
    d.endFires = d :=
  Sys2Proof.endFires_of_idle ((busyChans_of_ibx (h.parts .ibx hp)).trans hidle)

/-- The configuration of a generator has no part in a position. -/
theorem axisPosAt_wr_cfg (d : Dev) {a g : Nat} (ha : a < 4) (hg : g < 64) (v t : Word) :
    (d.wr .sprTgnCfg g v).axisPosAt a t = d.axisPosAt a t := by
  have hrd : ∀ r i, r ∈ [Reg.sprAxnCtl, .sprAxnSecScale] → i < 4 → (d.wr .sprTgnCfg g v).rd r i = d.rd r i := by
    intro r i hr hi
    refine d.rd_wr_ne v ?_
    simp only [List.mem_cons, List.not_mem_nil, or_false] at hr
    rcases hr with rfl | rfl <;> simp only [regKey, regDesc] <;> omega
  have hlk : (d.wr .sprTgnCfg g v).rd .hlkStat 0 = d.rd .hlkStat 0 :=
    d.rd_wr_ne v (by simp only [regKey, regDesc]; omega)
  have ho : (d.wr .sprTgnCfg g v).axisOf a = d.axisOf a := by
    simp only [Dev.axisOf, Dev.axisHerd, Dev.isLead, Dev.rdB, Dev.rdF, hrd .sprAxnCtl a (by simp) ha, hlk]
    rfl
  have ho4 : d.axisOf a < 4 := axisOf_lt ha
  simp only [Dev.axisPosAt, ho, Dev.trackerAt, Dev.spacing, Dev.spacingQ, Dev.axisHerd, Dev.rdB, Dev.axis, Dev.wr_spr,
    hrd .sprAxnCtl _ (by simp) ho4, hrd .sprAxnSecScale _ (by simp) ho4]
  rfl

/-- A generator that is enabled stands where it stood. -/
theorem material_setEn (d : Dev) {g : Nat} (hg : g < 64) (v : Bool) : (d.wrB .sprTgnCfg g 0 v).material g = d.material g := by
  have ha : (d.wrB .sprTgnCfg g 0 v).genAxis g = d.genAxis g := by
    rw [Dev.genAxis, Dev.rdF, Dev.wrB, Dev.rd_wr_same, fld_setBit_disj _ _ (by decide)]
    rfl
  rw [Dev.material, ha, Dev.axisPos, Dev.wrB, axisPosAt_wr_cfg d (genAxis_lt g) hg,
    d.rd_wr_ne _ (by simp only [regKey, regDesc]; omega)]
  rfl

/-- A grid set by registers other than its configuration. -/
theorem gridPt_setEn (d : Dev) (g : Nat) (v : Bool) (m : P48) :
    (d.wrB .sprTgnCfg g 0 v).gridPt g ((d.wrB .sprTgnCfg g 0 v).gridIdx g m + 1) = d.gridPt g (d.gridIdx g m + 1) := by
  have hphase : (d.wrB .sprTgnCfg g 0 v).rd .sprTgnPhase g = d.rd .sprTgnPhase g :=
    d.rd_wr_ne _ (by simp only [regKey, regDesc]; omega)
  have hpitch : (d.wrB .sprTgnCfg g 0 v).rd .sprTgnPitch g = d.rd .sprTgnPitch g :=
    d.rd_wr_ne _ (by simp only [regKey, regDesc]; omega)
  simp only [Dev.gridPt, Dev.gridIdx, hphase, hpitch]

/-- A grid enabled with valid settings starts past the material position. -/
theorem setGenEn_of_valid {g : Nat} (hg : g < 64) (hen : d.rdB .sprTgnCfg g 0 = false) (hv : d.genValid g = true) :
    Dev.setGenEn g true d = (((d.wrB .sprTgnCfg g 0 true).wr .sprTgnHwm g (d.material g)).wr .sprTgnNext g
      (d.gridPt g (d.gridIdx g (d.material g) + 1))) := by
  simp only [Dev.setGenEn, hen, hv, Dev.startGen, material_setEn d hg, gridPt_setEn, Bool.not_true, Bool.false_eq_true, if_false, if_true]

/-! ### A grid that stops -/

/-- A footprint of parts, registers and one generator. -/
def genFoot (ps : List Part) (ks : Nat → Prop) (g : Nat) : Foot where
  parts := ps
  regs := ks
  axes _ x y := y = x
  gens k := k = g
  axes_refl _ _ := rfl
  axes_trans _ _ _ _ h g := g.trans h

theorem genFoot_keepsAxes (ps : List Part) (ks : Nat → Prop) (g : Nat) : (genFoot ps ks g).KeepsAxes := fun _ _ _ h => h

/-- What a generator writes as its points pass. -/
def passKeys (g : Nat) : List Nat := [regKey .sprTgnHwm g, regKey .sprTgnNext g, regKey .sprTgnDrop g]

theorem genFoot_grid {ps : List Part} (hp : [Part.regs, .spr, .evc, .wev] ⊆ ps) (g : Nat) :
    (genFoot ps (· ∈ passKeys g) g).Grid g where
  parts := hp
  hwm := by simp [genFoot, passKeys]
  next := by simp [genFoot, passKeys]
  drop := by simp [genFoot, passKeys]
  gen := rfl

theorem passKeys_motion {g : Nat} (hg : g < 64) {k : Nat} (hk : k ∈ passKeys g) : MotionKey k := by
  simp only [passKeys, List.mem_cons, List.not_mem_nil, or_false] at hk
  rcases hk with rfl | rfl | rfl
  · exact motionKey (by decide) hg
  · exact motionKey (by decide) hg
  · exact motionKey (by decide) hg

theorem genFoot_still (ps : List Part) {g : Nat} (hg : g < 64) : (genFoot ps (· ∈ passKeys g) g).Still :=
  fun _ hr _ hi hk => not_motionKey hr hi (passKeys_motion hg hk)

/-- What a generator brings as it passes points, with more registers. -/
theorem Within.moreKeys {ps : List Part} {ks ks' : Nat → Prop} {g : Nat} (h : Within (genFoot ps ks g) d₀ d)
    (hk : ∀ k, ks k → ks' k) : Within (genFoot ps ks' g) d₀ d where
  parts := h.parts
  regs k hn := h.regs k fun hk' => hn (hk k hk')
  axes := h.axes
  gens := h.gens
  enc := h.enc

/-- What TG_DISABLE may reach. -/
def stopFoot (g : Nat) : Foot :=
  genFoot [.regs, .spr, .fio, .evc, .wev] (· ∈ regKey .sprTgnCfg g :: passKeys g) g

/-- A grid that stops keeps within its generator, its pulses and its registers. -/
theorem stopGen_within {g : Nat} (hg : g < 64) (d : Dev) : Within (stopFoot g) d (d.stopGen g) := by
  have hs := ((Within.refl (genFoot [.regs, .spr, .fio, .evc, .wev] (· ∈ passKeys g) g) d).settleGen_of_keepsAxes hg
    (genFoot_grid (by decide) g) (by simp [genFoot]) (genFoot_still _ hg) (genFoot_keepsAxes _ _ g)).moreKeys
      (ks' := (· ∈ regKey .sprTgnCfg g :: passKeys g)) fun _ hk => List.mem_cons_of_mem _ hk
  unfold Dev.stopGen
  extract_lets e x e'
  have he' : Within (stopFoot g) d e' := by
    unfold e'
    split
    · exact hs
    · exact Within.setGen hs (by simp [genFoot]) rfl _
  exact he'.wrB (by simp [stopFoot, genFoot]) List.mem_cons_self 0 false

/-- A grid that stops is disabled, and every fire it has fixed is counted. -/
theorem stopGen_stopped (d : Dev) (g : Nat) :
    (d.stopGen g).rdB .sprTgnCfg g 0 = false ∧ (∀ f ∈ ((d.stopGen g).gen g).fixed, f.counted = true) ∧
      ((d.stopGen g).gen g).regrid = false := by
  unfold Dev.stopGen
  extract_lets e x e'
  have he' : (∀ f ∈ (e'.gen g).fixed, f.counted = true) ∧ (e'.gen g).regrid = false := by
    unfold e'
    split
    · next hx =>
      simp only [Bool.and_eq_true, decide_eq_true_eq, Bool.not_eq_true'] at hx
      exact ⟨fun f hf => absurd hf (by rw [show e.gen g = x from rfl, hx.1]; exact List.not_mem_nil), hx.2⟩
    · rw [show (e.setGen g _).gen g = _ from (tget_tset ..).trans (if_pos rfl)]
      exact ⟨by simp, rfl⟩
  exact ⟨by simp [Dev.wrB, Dev.rdB, bit_setBit_same], he'⟩

/-! ### TG_ENABLE and TG_DISABLE -/

/-- TG_ENABLE of a valid grid. -/
theorem tgEnable_valid (g : Fin 64) (s : State) (hen : s.dev.rdB .sprTgnCfg g 0 = false) (hv : s.dev.genValid g = true) :
    let t : State := { s with dev := tgEnableOp g true s.dev }
    t.dev.rdB .sprTgnCfg g 0 = true ∧ t.dev.rd .sprTgnHwm g = s.dev.material g ∧
      t.dev.rd .sprTgnNext g = s.dev.gridPt g (s.dev.gridIdx g (s.dev.material g) + 1) ∧
      (ChannelsIdle s → RegsOnly [regKey .sprTgnCfg g, regKey .sprTgnHwm g, regKey .sprTgnNext g] s t ∧ Only [.regs] s t) := by
  have hg := g.isLt
  have hlt : ∀ r ∈ [Reg.sprTgnCfg, .sprTgnHwm, .sprTgnNext], regKey r g.val < 131072 := by
    intro r hr
    simp only [List.mem_cons, List.not_mem_nil, or_false] at hr
    rcases hr with rfl | rfl | rfl <;> simp only [regKey, regDesc] <;> omega
  dsimp only
  unfold tgEnableOp
  rw [setGenEn_of_valid hg hen hv, Dev.rdB, rd_endFires _ _ (hlt _ (by simp)), rd_endFires _ _ (hlt _ (by simp)),
    rd_endFires _ _ (hlt _ (by simp))]
  refine ⟨?_, ?_, ?_, fun hidle => ?_⟩
  · rw [Dev.rd_wr_ne _ _ (by simp only [regKey, regDesc]; omega), Dev.rd_wr_ne _ _ (by simp only [regKey, regDesc]; omega),
      Dev.wrB, Dev.rd_wr_same, bit_setBit_same _ _ (by decide)]
  · rw [Dev.rd_wr_ne _ _ (by simp only [regKey, regDesc]; omega), Dev.rd_wr_same]
  · rw [Dev.rd_wr_same]
  · have hw := (((Within.refl (plainFoot [.regs] [regKey .sprTgnCfg g, regKey .sprTgnHwm g, regKey .sprTgnNext g]) s.dev).wrB
      (by simp [plainFoot]) (r := .sprTgnCfg) (i := g) (by simp [plainFoot]) 0 true).wr (by simp [plainFoot])
      (r := .sprTgnHwm) (i := g) (by simp [plainFoot]) (s.dev.material g)).wr (by simp [plainFoot])
      (r := .sprTgnNext) (i := g) (by simp [plainFoot]) (s.dev.gridPt g (s.dev.gridIdx g (s.dev.material g) + 1))
    rw [hw.endFires_of_idle (by simp [plainFoot]) hidle]
    exact ⟨hw.regsOnly, hw.only⟩

/-- TG_ENABLE of a grid whose settings do not hold. -/
theorem tgEnable_invalid (g : Fin 64) (s : State) (hen : s.dev.rdB .sprTgnCfg g 0 = false) (hv : s.dev.genValid g = false) :
    let t : State := { s with dev := tgEnableOp g true s.dev }
    t.dev.rdB .sprTgnCfg g 0 = false ∧ t.dev.rdB .sprTgnCfg g 3 = true ∧
      (ChannelsIdle s → RegsOnly [regKey .sprTgnCfg g] s t ∧ Only [.regs, .evc, .wev] s t) := by
  have hg := g.isLt
  have hlt : regKey .sprTgnCfg g.val < 131072 := by simp only [regKey, regDesc]; omega
  have hop : Dev.setGenEn g true s.dev = s.dev.genCfgErr g := by
    simp only [Dev.setGenEn, hen, hv, Bool.not_true, Bool.false_eq_true, if_false]
  have hrd : (s.dev.genCfgErr g).rd .sprTgnCfg g = setBit (s.dev.rd .sprTgnCfg g) 3 true := by
    simp [Dev.genCfgErr, Dev.wrB]
  dsimp only
  unfold tgEnableOp
  rw [hop, Dev.rdB, Dev.rdB, rd_endFires _ _ hlt, hrd]
  refine ⟨?_, bit_setBit_same _ _ (by decide), fun hidle => ?_⟩
  · rw [bit_setBit_ne _ _ (by decide)]
    exact hen
  · have hw : Within (plainFoot [.regs, .evc, .wev] [regKey .sprTgnCfg g]) s.dev (s.dev.genCfgErr g) :=
      ((Within.refl _ s.dev).wrB (by simp [plainFoot]) (by simp [plainFoot]) 3 true).raise (by simp [plainFoot]) (352 + g)
    rw [hw.endFires_of_idle (by simp [plainFoot]) hidle]
    exact ⟨hw.regsOnly, hw.only⟩

/-- TG_DISABLE. -/
theorem tgDisable_stops (g : Fin 64) (s : State) :
    let t : State := { s with dev := tgEnableOp g false s.dev }
    t.dev.rdB .sprTgnCfg g 0 = false ∧ (∀ f ∈ (t.dev.gen g).fixed, f.counted = true) ∧ (t.dev.gen g).regrid = false ∧
      (∀ b : Fin 64, b ≠ g → t.dev.gen b = s.dev.gen b) ∧
      (ChannelsIdle s → RegsOnly [regKey .sprTgnCfg g, regKey .sprTgnHwm g, regKey .sprTgnNext g, regKey .sprTgnDrop g] s t ∧
        Only [.regs, .spr, .fio, .evc, .wev] s t) := by
  have hg := g.isLt
  have hlt : regKey .sprTgnCfg g.val < 131072 := by simp only [regKey, regDesc]; omega
  have hw := stopGen_within hg s.dev
  obtain ⟨hen, hfixed, hregrid⟩ := stopGen_stopped s.dev g
  dsimp only
  rw [show tgEnableOp g false s.dev = (s.dev.stopGen g).endFires from rfl, Dev.rdB, rd_endFires _ _ hlt]
  simp only [gen_endFires]
  refine ⟨hen, hfixed, hregrid, fun b hb => hw.gens b (Fin.val_ne_of_ne hb), fun hidle => ?_⟩
  rw [hw.endFires_of_idle (by simp [stopFoot, genFoot]) hidle]
  exact ⟨hw.regs, hw.only⟩

/-! ### A fire that is fixed (R54–R57) -/

@[simp] theorem Machine.Dev.gen_setGen_same (d : Dev) (g : Nat) (x : Gen) : (d.setGen g x).gen g = x := by
  simp [Dev.gen, Dev.setGen]

theorem Machine.Dev.firePulses_spr (d : Dev) (out ofs t : Word) (st : AxState) : (d.firePulses out ofs t st).spr = d.spr :=
  ((Within.refl (plainFoot [.fio] []) d).firePulses (by simp [plainFoot]) out ofs t st).parts .spr (by simp [plainFoot])

/-- A fixed fire joins those of its generator. -/
theorem Machine.Dev.gen_fixFire (d : Dev) (g : Nat) (f : FixedFire) :
    (d.fixFire g f).gen g = { d.gen g with fixed := (d.gen g).fixed ++ [f] } := by
  rw [Dev.fixFire, Dev.gen, Dev.firePulses_spr]
  exact Dev.gen_setGen_same d g _

/-- Fires fixed ahead come after those fixed already. -/
theorem fixed_fixAhead (g n : Nat) (d : Dev) : ∃ l, ((Dev.fixAhead g n d).gen g).fixed = (d.gen g).fixed ++ l := by
  induction n generalizing d with
  | zero => exact ⟨[], (List.append_nil _).symm⟩
  | succ n ih =>
    unfold Dev.fixAhead
    extract_lets a l mat j0 u j reached t
    split
    · obtain ⟨l', hl⟩ := ih (d.fixFire g (d.newFire g j (d.gridPt g j) t false))
      exact ⟨_ :: l', by rw [hl, Dev.gen_fixFire, List.append_assoc]; rfl⟩
    · exact ⟨[], (List.append_nil _).symm⟩

theorem fixed_fixNext (g : Nat) (d : Dev) : ∃ l, ((d.fixNext g).gen g).fixed = (d.gen g).fixed ++ l := by
  unfold Dev.fixNext
  split
  · exact fixed_fixAhead g 40 d
  · exact ⟨[], (List.append_nil _).symm⟩

/-- The first moment that a search finds lies within it. -/
theorem bisect_le (test : Nat → Bool) (n : Nat) {lo hi : Nat} : bisect test n lo hi ≤ hi := by
  induction n generalizing lo hi with
  | zero => exact le_refl hi
  | succ n ih =>
    unfold bisect
    split
    · exact le_refl hi
    · dsimp only
      split
      · exact ih.trans (by omega)
      · exact ih

/-- An offset reaches back 32,768 ns at most. -/
theorem negOffset_le (out ofs : Word) : negOffset out ofs ≤ 32768 := by
  have hs : ∀ hi lo, hi + 1 - lo = 16 → lo ≤ hi → -32768 ≤ sfld ofs hi lo := by
    intro hi lo hw hle
    unfold sfld
    dsimp only
    split
    · omega
    · next hv =>
      rw [show hi - lo = 15 by omega] at hv
      rw [hw]
      omega
  have ha := hs 15 0 rfl (by decide)
  have hb := hs 31 16 rfl (by decide)
  unfold negOffset
  dsimp only
  split <;> split <;> omega

/-- A time ahead of now by less than the clock's range reads as that. -/
theorem toNat_add_wordOf_sub (now : Word) {n : Nat} (h : n < 2 ^ 48) : (now + wordOf n - now).toNat = n := by
  rw [add_sub_cancel_left, wordOf, BitVec.toNat_ofNat, Nat.mod_eq_of_lt h]

/-- The material point of a generator reaches its next point within x ns. -/
def reaches (d : Dev) (g x : Nat) : Bool :=
  atOrPast (d.axisPosAt (d.genAxis g) (d.now + wordOf x) - d.rd .sprTgnStagger g) (d.gridPt g (d.gridIdx g (d.rd .sprTgnNext g)))

/-- The fire of the next point, fixed for the moment it is reached, 16 ns ahead at least. -/
def nextFire (d : Dev) (g : Nat) : FixedFire :=
  d.newFire g (d.gridIdx g (d.rd .sprTgnNext g)) (d.gridPt g (d.gridIdx g (d.rd .sprTgnNext g)))
    (d.now + wordOf (max 16 (bisect (reaches d g) 20 0 (d.leadTime g)))) false

/-- The next fire that the estimate reaches within the lead time is fixed first. -/
theorem fixAhead_of_reached {g : Nat} {d : Dev} (n : Nat) (hfix : (d.gen g).fixed = []) (hint : d.minIntWait g ≤ 0)
    (hreach : reaches d g (d.leadTime g) = true) :
    Dev.fixAhead g (n + 1) d = Dev.fixAhead g n (d.fixFire g (nextFire d g)) := by
  have hlast : (d.gen g).ahead.getLast? = none := by simp [Gen.ahead, hfix]
  have hint' : d.minIntWait g ≤ d.leadTime g := hint.trans (Int.natCast_nonneg _)
  rw [Dev.fixAhead]
  simp only [hlast, hint, if_true, hint', decide_true, Bool.true_and]
  exact if_pos hreach

/-- A moment found within a lead time, 16 ns ahead at least. -/
theorem ahead_within (now : Word) {b l : Nat} (hb : b ≤ l) (hge : 16 ≤ l) (hle : l ≤ 16 + 32768) :
    16 ≤ (now + wordOf (max 16 b) - now).toNat ∧ (now + wordOf (max 16 b) - now).toNat ≤ l := by
  rw [toNat_add_wordOf_sub _ (by omega)]
  omega

theorem leadTime_le (d : Dev) (g : Nat) : d.leadTime g ≤ 16 + 32768 := Nat.add_le_add_left (negOffset_le _ _) 16

/-- It takes place 16 ns ahead at least, and within the lead time. -/
theorem nextFire_ahead (d : Dev) (g : Nat) :
    16 ≤ ((nextFire d g).time - d.now).toNat ∧ ((nextFire d g).time - d.now).toNat ≤ d.leadTime g :=
  ahead_within d.now (bisect_le _ _) (Nat.le_add_right 16 _) (leadTime_le d g)

/-- A generator of which no fire is fixed holds none back. -/
theorem not_held {x : Gen} (h : x.regrid = false) : x.held = false := by simp [Gen.held, h]

/-- A poll that fixes the next fire. -/
theorem triggerFix_ahead (g : Fin 64) (s : State) (hsvc : s.dev.inService = true) (htr : s.dev.genTracks g = true)
    (hfw : s.dev.axisBackward (s.dev.genAxis g) = false) (hfix : (s.dev.gen g).fixed = []) (hre : (s.dev.gen g).regrid = false)
    (hat : atOrPast (s.dev.material g) (s.dev.rd .sprTgnNext g) = false) (hint : s.dev.minIntWait g ≤ 0)
    (hreach : reaches s.dev g (s.dev.leadTime g) = true) :
    let t : State := { s with dev := triggerFixOp g s.dev }
    (∃ f ∈ (t.dev.gen g).fixed.head?, 16 ≤ (f.time - s.dev.now).toNat ∧ (f.time - s.dev.now).toNat ≤ s.dev.leadTime g ∧
        f.pos = s.dev.gridPt g (s.dev.gridIdx g (s.dev.rd .sprTgnNext g)) ∧ f.counted = false) ∧
      (∀ b : Fin 64, b ≠ g → t.dev.gen b = s.dev.gen b) ∧ Only [.spr, .fio] s t := by
  have hsettle : s.dev.settleGen g = s.dev := by
    simp [Dev.settleGen, Dev.passPoints, hat]
  have hop : triggerFixOp g s.dev = Dev.fixAhead g (39 + 1) s.dev := by
    rw [triggerFixOp, Dev.pollGen, hsettle, Dev.fixNext, hsvc, htr, hfw, not_held hre]
    exact if_pos rfl
  have hw := (Within.refl (genFoot [.spr, .fio] (fun _ => False) g) s.dev).fixAhead (by simp [genFoot]) (by simp [genFoot]) rfl (39 + 1)
  dsimp only
  rw [hop]
  refine ⟨?_, fun b hb => hw.gens b (Fin.val_ne_of_ne hb), hw.only⟩
  rw [fixAhead_of_reached 39 hfix hint hreach]
  obtain ⟨l, hl⟩ := fixed_fixAhead g 39 (s.dev.fixFire g (nextFire s.dev g))
  rw [hl, Dev.gen_fixFire, hfix]
  obtain ⟨hge, hle⟩ := nextFire_ahead s.dev g
  exact ⟨_, rfl, hge, hle, rfl, rfl⟩

/-! ### A point that is reached already (R54, R57) -/

section
variable (h : Within F d₀ d) (hs : F.Still) (hx : F.KeepsAxes) (hn : Part.now ∉ F.parts)
include h hs hx hn

theorem Within.reachedAt {a : Nat} (ha : a < 4) (pos : P48) : d.reachedAt a pos = d₀.reachedAt a pos := by
  have hnow : d.now = d₀.now := h.parts .now hn
  simp only [Dev.reachedAt, Dev.tracker, h.axisOf hs ha, h.axis hx, hnow, h.axisPosAt hs hx ha]

end

theorem Within.minIntOk (h : Within F d₀ d) (hs : F.Still) {g : Nat} (hg : g < 64) (hgen : d.gen g = d₀.gen g) (t : Word) :
    d.minIntOk g t = d₀.minIntOk g t := by
  simp only [Dev.minIntOk, hgen, h.setting hs (r := .sprTgnMinInt) (by decide) hg]

/-- The block once the points up to the k-th are passed, where no fire was fixed. -/
def passedTo (d : Dev) (g : Nat) (k : Int) : Dev :=
  ((d.wr .sprTgnNext g (d.gridPt g (k + 1))).wr .sprTgnHwm g (d.gridPt g k)).setGen g { d.gen g with fixed := [] }

theorem passedTo_within {ps : List Part} (hp : [Part.regs, .spr, .evc, .wev] ⊆ ps) (d : Dev) (g : Nat) (k : Int) :
    Within (genFoot ps (· ∈ passKeys g) g) d (passedTo d g k) := by
  have m := genFoot_grid hp g
  exact (((Within.refl _ d).wr m.regs m.next _).wr m.regs m.hwm _).setGen m.spr m.gen _

/-- The last point passed, fixed 16 ns ahead. -/
def passedFire (d : Dev) (g : Nat) (k : Int) : FixedFire :=
  (passedTo d g k).newFire g k (d.gridPt g k) ((passedTo d g k).now + 16) true

/-- Points are passed with no fire fixed: the last is fixed 16 ns ahead, the others drop. -/
theorem passPoints_of_reached {g : Nat} (hg : g < 64) {m : P48} {k : Int} (hsvc : d.inService = true) (htr : d.genTracks g = true)
    (hfix : (d.gen g).fixed = []) (hre : (d.gen g).regrid = false) (hat : atOrPast m (d.rd .sprTgnNext g) = true)
    (hk : k = d.gridIdx g m)
    (hok : d.minIntOk g (d.reachedAt (d.genAxis g) (d.gridPt g k + d.rd .sprTgnStagger g)) = true) :
    d.passPoints g m =
      ((passedTo d g k).dropPoints g ((k - d.gridIdx g (d.rd .sprTgnNext g) + 1).toNat - 1)).fixFire g (passedFire d g k) := by
  have hw := passedTo_within (List.Subset.refl _) d g k
  have hs := genFoot_still [.regs, .spr, .evc, .wev] hg
  have hx := genFoot_keepsAxes [.regs, .spr, .evc, .wev] (· ∈ passKeys g) g
  have hgen : (passedTo d g k).gen g = d.gen g := by
    rw [passedTo, Dev.gen_setGen_same, ← hfix]
  have hsvc' : (passedTo d g k).inService = true := (hw.inService hs).trans hsvc
  have hst : (passedTo d g k).axisState ((passedTo d g k).genAxis g) ≠ .acquire := by
    rw [hw.genAxis hs hg, hw.axisState hs hx (genAxis_lt g)]
    exact axisState_ne_acquire_of_genTracks htr
  have hok' : (passedTo d g k).minIntOk g ((passedTo d g k).reachedAt ((passedTo d g k).genAxis g)
      (d.gridPt g k + (passedTo d g k).rd .sprTgnStagger g)) = true := by
    rw [hw.minIntOk hs hg hgen, hw.genAxis hs hg, hw.reachedAt hs hx (by simp [genFoot]) (genAxis_lt g),
      hw.setting hs (by decide) hg]
    exact hok
  subst hk
  unfold Dev.passPoints
  dsimp only
  simp only [hat, not_held hre, Gen.ahead, hfix, List.map_nil, List.filter_nil, Bool.not_true, Bool.or_false,
    Bool.false_eq_true, if_false]
  rw [show Dev.setGen _ g _ = passedTo d g (d.gridIdx g m) from rfl, hsvc', if_neg (by simp), if_neg hst, if_pos hok']
  rfl

theorem rdF_raise (d : Dev) (n : Nat) (r : Reg) (i hi lo : Nat) : (d.raise n).rdF r i hi lo = d.rdF r i hi lo := by
  simp [Dev.rdF]

/-- Points that drop in service are counted. -/
theorem rdF_dropPoints (hsvc : d.inService = true) (g n : Nat) :
    (d.dropPoints g n).rdF .sprTgnDrop g 31 0 = min (d.rdF .sprTgnDrop g 31 0 + n) (2 ^ 32 - 1) := by
  unfold Dev.dropPoints
  split
  · next h0 =>
    have hn : n = 0 := by simpa [hsvc] using h0
    have hlt := fld_lt (d.rd .sprTgnDrop g) 31 0
    subst hn
    exact (Nat.min_eq_left (Nat.le_sub_one_of_lt hlt)).symm
  · rw [rdF_raise]
    exact d.rdF_satF .sprTgnDrop g (by decide) (by decide) n

/-- Points that drop leave every register but their counter, and the generators. -/
theorem dropPoints_within (d : Dev) (g n : Nat) : Within (plainFoot [.regs, .evc, .wev] [regKey .sprTgnDrop g]) d (d.dropPoints g n) :=
  (Within.refl _ d).dropPoints (by simp [plainFoot]) (by simp [plainFoot]) n

/-- Points that drop, a fire that is fixed, and those fixed after it. -/
def dropAndFix (d : Dev) (g n : Nat) (f : FixedFire) : Dev := ((d.dropPoints g n).fixFire g f).fixNext g

/-- Once the points are dropped, fixing fires leaves every register. -/
theorem rd_dropAndFix_eq (d : Dev) (g n : Nat) (f : FixedFire) (r : Reg) (i : Nat) :
    (dropAndFix d g n f).rd r i = (d.dropPoints g n).rd r i :=
  (((Within.refl (genFoot [.spr, .fio] (fun _ => False) g) (d.dropPoints g n)).fixFire (by simp [genFoot]) (by simp [genFoot]) rfl
    f).fixNext (by simp [genFoot]) (by simp [genFoot]) rfl).rd id

theorem rd_dropAndFix (d : Dev) (g n : Nat) (f : FixedFire) {r : Reg} {i : Nat} (h : regKey r i ≠ regKey .sprTgnDrop g) :
    (dropAndFix d g n f).rd r i = d.rd r i := by
  rw [rd_dropAndFix_eq, (dropPoints_within d g n).rd (by simpa [plainFoot] using h)]

/-- The fire that is fixed comes after those fixed already, and before those fixed after it. -/
theorem fixed_dropAndFix (d : Dev) (g n : Nat) (f : FixedFire) :
    ∃ l, ((dropAndFix d g n f).gen g).fixed = (d.gen g).fixed ++ f :: l := by
  obtain ⟨l, hl⟩ := fixed_fixNext g ((d.dropPoints g n).fixFire g f)
  have hgen : (d.dropPoints g n).gen g = d.gen g := (dropPoints_within d g n).gens g id
  exact ⟨l, by rw [dropAndFix, hl, Dev.gen_fixFire, hgen, List.append_assoc]; rfl⟩

/-- A poll that finds points passed. -/
theorem triggerFix_passed (g : Fin 64) (s : State) (k : Int) (hsvc : s.dev.inService = true) (htr : s.dev.genTracks g = true)
    (hfw : s.dev.axisBackward (s.dev.genAxis g) = false) (hfix : (s.dev.gen g).fixed = []) (hre : (s.dev.gen g).regrid = false)
    (hat : atOrPast (s.dev.material g) (s.dev.rd .sprTgnNext g) = true) (hk : k = s.dev.gridIdx g (s.dev.material g))
    (hok : s.dev.minIntOk g (s.dev.reachedAt (s.dev.genAxis g) (s.dev.gridPt g k + s.dev.rd .sprTgnStagger g)) = true) :
    let t : State := { s with dev := triggerFixOp g s.dev }
    (∃ f ∈ (t.dev.gen g).fixed.head?, f.time = s.dev.now + 16 ∧ f.pos = s.dev.gridPt g k ∧ f.counted = true) ∧
      t.dev.rd .sprTgnNext g = s.dev.gridPt g (k + 1) ∧ t.dev.rd .sprTgnHwm g = s.dev.gridPt g k ∧
      t.dev.rdF .sprTgnDrop g 31 0 = min (s.dev.rdF .sprTgnDrop g 31 0 +
        ((k - s.dev.gridIdx g (s.dev.rd .sprTgnNext g) + 1).toNat - 1)) (2 ^ 32 - 1) ∧
      (∀ b : Fin 64, b ≠ g → t.dev.gen b = s.dev.gen b) ∧ Only [.spr, .fio, .regs, .evc, .wev] s t := by
  have hg := g.isLt
  have hw := passedTo_within (ps := [.spr, .fio, .regs, .evc, .wev]) (by decide) s.dev g k
  have m := genFoot_grid (ps := [.spr, .fio, .regs, .evc, .wev]) (by decide) g
  have hsvc' : (passedTo s.dev g k).inService = true := (hw.inService (genFoot_still _ hg)).trans hsvc
  have hfix' : ((passedTo s.dev g k).gen g).fixed = [] := by rw [passedTo, Dev.gen_setGen_same]
  have hop : triggerFixOp g s.dev = dropAndFix (passedTo s.dev g k) g
      ((k - s.dev.gridIdx g (s.dev.rd .sprTgnNext g) + 1).toNat - 1) (passedFire s.dev g k) := by
    rw [dropAndFix, ← passPoints_of_reached hg hsvc htr hfix hre hat hk hok, triggerFixOp, Dev.pollGen, Dev.settleGen, htr, hfw]
    rfl
  dsimp only
  rw [hop]
  generalize (k - s.dev.gridIdx g (s.dev.rd .sprTgnNext g) + 1).toNat - 1 = n
  obtain ⟨l, hl⟩ := fixed_dropAndFix (passedTo s.dev g k) g n (passedFire s.dev g k)
  have hall := ((hw.dropPoints (by simp [genFoot]) m.drop n).fixFire m.spr (by simp [genFoot]) m.gen (passedFire s.dev g k)).fixNext
    m.spr (by simp [genFoot]) m.gen
  refine ⟨⟨passedFire s.dev g k, by rw [hl, hfix']; rfl, rfl, rfl, rfl⟩, ?_, ?_, ?_, fun b hb => hall.gens b (Fin.val_ne_of_ne hb),
    hall.only⟩
  · rw [rd_dropAndFix _ _ _ _ (by simp only [regKey, regDesc]; omega)]
    exact (Dev.rd_wr_ne _ _ (by simp only [regKey, regDesc]; omega)).trans (Dev.rd_wr_same ..)
  · rw [rd_dropAndFix _ _ _ _ (by simp only [regKey, regDesc]; omega)]
    exact Dev.rd_wr_same ..
  · have hdrop : (passedTo s.dev g k).rd .sprTgnDrop g = s.dev.rd .sprTgnDrop g :=
      (Dev.rd_wr_ne _ _ (by simp only [regKey, regDesc]; omega)).trans (Dev.rd_wr_ne _ _ (by simp only [regKey, regDesc]; omega))
    rw [Dev.rdF, rd_dropAndFix_eq]
    refine (rdF_dropPoints hsvc' g n).trans ?_
    rw [Dev.rdF, hdrop]
    rfl

/-! ### A fire that takes place (R55, R56, R58) -/

/-- A point that is passed as its fire takes place leaves everything but its generator's registers. -/
theorem passFixed_within (d : Dev) (g : Nat) (f : FixedFire) : Within (plainFoot [.regs, .evc, .wev] (passKeys g)) d (d.passFixed g f) := by
  unfold Dev.passFixed
  extract_lets next
  split
  · exact .refl _ d
  · exact (((Within.refl _ d).wr (by simp [plainFoot]) (by simp [plainFoot, passKeys]) _).wr (by simp [plainFoot])
      (by simp [plainFoot, passKeys]) _).dropPoints (by simp [plainFoot]) (by simp [plainFoot, passKeys]) _

/-- The point of a fire that is not counted yet is passed: the next one follows it. -/
theorem passFixed_reads {g : Nat} {f : FixedFire} (hc : f.counted = false) (hat : atOrPast f.pos (d.rd .sprTgnNext g) = true) :
    (d.passFixed g f).rd .sprTgnNext g = f.pos + f.pitch ∧ (d.passFixed g f).rd .sprTgnHwm g = f.pos := by
  unfold Dev.passFixed
  dsimp only
  rw [hc, hat, if_neg (by decide)]
  have hn := fun r (hr : regKey r g ∉ [regKey .sprTgnDrop g]) (e : Dev) n => (dropPoints_within e g n).rd (r := r) (i := g) hr
  constructor
  · rw [hn .sprTgnNext (by simp only [List.mem_singleton, regKey, regDesc]; omega),
      Dev.rd_wr_ne _ _ (by simp only [regKey, regDesc]; omega), Dev.rd_wr_same]
  · rw [hn .sprTgnHwm (by simp only [List.mem_singleton, regKey, regDesc]; omega), Dev.rd_wr_same]

/-- The generator of a fire that takes place, its line and its time told. -/
def fired (d : Dev) (g : Nat) (f : FixedFire) : Dev :=
  (d.wr .sprTgnLine g f.line).setGen g { (d.wr .sprTgnLine g f.line).gen g with lastFire := some f.time }

/-- What the heads do with a fire. -/
def recordFoot : Foot where
  parts := [.regs, .cxi, .evc, .wev]
  regs k := 196608 ≤ k
  axes _ x y := y = x
  gens _ := False
  axes_refl _ _ := rfl
  axes_trans _ _ _ _ h g := g.trans h

theorem recordFoot_records : recordFoot.Records where
  parts := List.Subset.refl _
  misroute := by simp [recordFoot, regKey, regDesc]
  loss k _ := by simp only [recordFoot, regKey, regDesc]; omega
  recq k _ := by simp only [recordFoot, regKey, regDesc]; omega

theorem fireNow_within (d : Dev) (g : Nat) (f : FixedFire) : Within recordFoot (fired d g f) (d.fireNow g f) :=
  ((Within.refl _ (fired d g f)).firePackets recordFoot_records _ _ _).takeRecord recordFoot_records _

theorem gen_fired (d : Dev) (g : Nat) (f : FixedFire) : (fired d g f).gen g = { d.gen g with lastFire := some f.time } :=
  Dev.gen_setGen_same _ _ _

/-- The block once the oldest fixed fire of a generator has taken place. -/
def afterFire (d : Dev) (g : Nat) (f : FixedFire) (rest : List FixedFire) : Dev :=
  Dev.fireNow ((d.passFixed g f).setGen g { (d.passFixed g f).gen g with fixed := rest }) g f

theorem triggerFireOp_of_due {g : Nat} {f : FixedFire} {rest : List FixedFire} (hf : (d.gen g).fixed = f :: rest)
    (hdue : atOrPast d.now f.time = true) :
    triggerFireOp g d = if ((afterFire d g f rest).gen g).regrid && ((afterFire d g f rest).gen g).ahead = []
      then (afterFire d g f rest).regridGen g else afterFire d g f rest := by
  unfold triggerFireOp
  rw [hf]
  exact if_pos hdue

/-- The generator of a fire that has taken place. -/
theorem gen_afterFire (d : Dev) (g : Nat) (f : FixedFire) (rest : List FixedFire) :
    (afterFire d g f rest).gen g = { d.gen g with fixed := rest, lastFire := some f.time } := by
  rw [afterFire, (fireNow_within _ g f).gens g id, gen_fired, Dev.gen_setGen_same, (passFixed_within d g f).gens g id]

/-- The registers of generators that a fire which takes place leaves to the points it passes. -/
theorem rd_afterFire (d : Dev) (g : Nat) (f : FixedFire) (rest : List FixedFire) {r : Reg} {i : Nat} (hr : regKey r i < 196608) :
    (afterFire d g f rest).rd r i = ((d.passFixed g f).wr .sprTgnLine g f.line).rd r i :=
  (fireNow_within _ g f).rd (Nat.not_le.2 hr)

/-- A fire that takes place stays within its generator, the heads and the registers. -/
theorem triggerFire_within {g : Nat} {f : FixedFire} {rest : List FixedFire} (hf : (d.gen g).fixed = f :: rest)
    (hdue : atOrPast d.now f.time = true) :
    Within (genFoot [.spr, .regs, .cxi, .evc, .wev] (fun _ => True) g) d (triggerFireOp g d) := by
  have m : (genFoot [.spr, .regs, .cxi, .evc, .wev] (fun _ => True) g).Grid g := ⟨by simp [genFoot], trivial, trivial, trivial, rfl⟩
  have mf : (genFoot [.spr, .regs, .cxi, .evc, .wev] (fun _ => True) g).Fires g :=
    ⟨⟨by simp [genFoot], trivial, fun _ _ => trivial, fun _ _ => trivial⟩, m.spr, trivial, rfl⟩
  have h := (((Within.refl _ d).passFixed m f).setGen m.spr m.gen { (d.passFixed g f).gen g with fixed := rest }).fireNow mf f
  rw [triggerFireOp_of_due hf hdue]
  exact h.opt _ (h.regridGen m)

/-- TRIGGER_FIRE of a fire whose time has come. -/
theorem triggerFire_takes (g : Fin 64) (s : State) (f : FixedFire) (rest : List FixedFire) (hf : (s.dev.gen g).fixed = f :: rest)
    (hdue : atOrPast s.dev.now f.time = true) :
    let t : State := { s with dev := triggerFireOp g s.dev }
    t.dev.rd .sprTgnLine g = f.line ∧ (t.dev.gen g).fixed = rest ∧ (t.dev.gen g).lastFire = some f.time ∧
      (f.counted = false → (s.dev.gen g).regrid = false → atOrPast f.pos (s.dev.rd .sprTgnNext g) = true →
        t.dev.rd .sprTgnNext g = f.pos + f.pitch ∧ t.dev.rd .sprTgnHwm g = f.pos) ∧
      (∀ b : Fin 64, b ≠ g → t.dev.gen b = s.dev.gen b) ∧ Only [.spr, .regs, .cxi, .evc, .wev] s t := by
  have hg := g.isLt
  have hw := triggerFire_within hf hdue
  have hgen := gen_afterFire s.dev g f rest
  have hline : (afterFire s.dev g f rest).rd .sprTgnLine g = f.line := by
    rw [rd_afterFire _ _ _ _ (by simp only [regKey, regDesc]; omega), Dev.rd_wr_same]
  refine ⟨?_, ?_, ?_, fun hc hre hat => ?_, fun b hb => hw.gens b (Fin.val_ne_of_ne hb), hw.only⟩
  · dsimp only
    rw [triggerFireOp_of_due hf hdue]
    split
    · exact (Dev.rd_wr_ne _ _ (by simp only [regKey, regDesc]; omega)).trans hline
    · exact hline
  · dsimp only
    rw [triggerFireOp_of_due hf hdue]
    split
    · exact (congrArg Gen.fixed (Dev.gen_setGen_same _ _ _)).trans (congrArg Gen.fixed hgen)
    · rw [hgen]
  · dsimp only
    rw [triggerFireOp_of_due hf hdue]
    split
    · exact (congrArg Gen.lastFire (Dev.gen_setGen_same _ _ _)).trans (congrArg Gen.lastFire hgen)
    · rw [hgen]
  · obtain ⟨hnext, hhwm⟩ := passFixed_reads hc hat
    dsimp only
    rw [triggerFireOp_of_due hf hdue, hgen, hre, if_neg (by simp), rd_afterFire _ _ _ _ (by simp only [regKey, regDesc]; omega),
      rd_afterFire _ _ _ _ (by simp only [regKey, regDesc]; omega), Dev.rd_wr_ne _ _ (by simp only [regKey, regDesc]; omega),
      Dev.rd_wr_ne _ _ (by simp only [regKey, regDesc]; omega)]
    exact ⟨hnext, hhwm⟩

/-! ### The record of a fire (R58, R150) -/

/-- The heads are the same, with what routes a generator to one of them. -/
structure HeadsSame (d t : Dev) : Prop where
  heads : t.cxi.heads = d.cxi.heads
  cfg : ∀ k, t.rd .cxiHdhCfg k = d.rd .cxiHdhCfg k
  stat : ∀ k, t.rd .cxiHdhStat k = d.rd .cxiHdhStat k

theorem HeadsSame.trans {t : Dev} (h : HeadsSame d₀ d) (g : HeadsSame d t) : HeadsSame d₀ t where
  heads := g.heads.trans h.heads
  cfg k := (g.cfg k).trans (h.cfg k)
  stat k := (g.stat k).trans (h.stat k)

theorem HeadsSame.head {t : Dev} (h : HeadsSame d t) (k : Nat) : t.head k = d.head k := by
  simp only [Dev.head, h.heads]

theorem HeadsSame.headOfGen {t : Dev} (h : HeadsSame d t) (g : Nat) : t.headOfGen g = d.headOfGen g := by
  simp only [Dev.headOfGen, Dev.headEn, Dev.rdB, Dev.rdF, h.cfg]
  rfl

theorem HeadsSame.headUp {t : Dev} (h : HeadsSame d t) (k : Nat) : t.headUp k = d.headUp k := by
  simp only [Dev.headUp, Dev.headState, Dev.rdF, h.stat]
  rfl

/-- A register that is neither of them leaves the heads. -/
theorem HeadsSame.wr (d : Dev) {r : Reg} {i : Nat} (hr : regKey r i < 196864) (v : Word) : HeadsSame d (d.wr r i v) where
  heads := rfl
  cfg k := by
    have hk : regKey .cxiHdhCfg k = 196864 + 0 + k * 16 := rfl
    exact d.rd_wr_ne v (by omega)
  stat k := by
    have hk : regKey .cxiHdhStat k = 196864 + 5 + k * 16 := rfl
    exact d.rd_wr_ne v (by omega)

/-- The points passed leave the heads. -/
theorem headsSame_passFixed (g : Nat) (d : Dev) (f : FixedFire) : HeadsSame d (d.passFixed g f) := by
  have h := passFixed_within d g f
  have hk : ∀ r k, r = .cxiHdhCfg ∨ r = .cxiHdhStat → regKey r k ∉ passKeys g := by
    intro r k hr hm
    simp only [passKeys, List.mem_cons, List.not_mem_nil, or_false] at hm
    rcases hr with rfl | rfl <;> simp only [regKey, regDesc] at hm <;> omega
  exact ⟨by rw [h.parts .cxi (by simp [plainFoot])], fun k => h.rd (hk _ k (.inl rfl)), fun k => h.rd (hk _ k (.inr rfl))⟩

theorem headsSame_requestTrig (d : Dev) (l : Nat) (p : TrigPkt) : HeadsSame d (d.requestTrig l p) := by
  unfold Dev.requestTrig
  split
  · exact ⟨rfl, fun _ => rfl, fun _ => rfl⟩
  · exact .wr d (by simp only [regKey, regDesc]; omega) _

theorem headsSame_firePackets (d : Dev) (cxp out t : Word) : HeadsSame d (d.firePackets cxp out t) := by
  have h := headsSame_requestTrig d (fld cxp 13 8) { fire := t, rising := true }
  unfold Dev.firePackets
  split
  · dsimp only
    split
    · exact h.trans (headsSame_requestTrig _ _ _)
    · exact h
  · exact ⟨rfl, fun _ => rfl, fun _ => rfl⟩

/-- A record joins those of its head. -/
theorem records_takeRecord {r : TrigRecord} {k : Nat} (hk : d.headOfGen r.gen = some k) (hup : d.headUp k = true)
    (hroom : (d.head k).records.length < 32) : ((d.takeRecord r).head k).records = (d.head k).records ++ [r] := by
  have hset : ∀ e : Dev, (((e.setHead k { e.head k with records := (e.head k).records ++ [r] }).refreshRecq k).head k).records =
      (e.head k).records ++ [r] := fun e => by
    simp [Dev.refreshRecq, Dev.wrF, Dev.head, Dev.setHead]
  unfold Dev.takeRecord
  rw [hk]
  dsimp only
  rw [if_pos hup, hset]
  split
  · rw [if_neg (Nat.not_le.2 hroom)]
  · rfl

theorem HeadsSame.setGen (h : HeadsSame d₀ d) (g : Nat) (x : Gen) : HeadsSame d₀ (d.setGen g x) := ⟨h.heads, h.cfg, h.stat⟩

theorem HeadsSame.fired (h : HeadsSame d₀ d) {g : Nat} (hg : g < 64) (f : FixedFire) : HeadsSame d₀ (fired d g f) :=
  (h.trans (HeadsSame.wr d (by simp only [regKey, regDesc]; omega) f.line)).setGen g _

/-- The block as a fire's record is about to go to its head. -/
def beforeRecord (d : Dev) (g : Nat) (f : FixedFire) (rest : List FixedFire) : Dev :=
  (Sys2Proof.fired ((d.passFixed g f).setGen g { (d.passFixed g f).gen g with fixed := rest }) g f).firePackets f.cxp f.out f.time

theorem afterFire_eq (d : Dev) (g : Nat) (f : FixedFire) (rest : List FixedFire) :
    afterFire d g f rest = (beforeRecord d g f rest).takeRecord { gen := g, line := f.line, pos := f.pos, st := f.st, time := f.time } :=
  rfl

theorem headsSame_fire {g : Nat} (hg : g < 64) (d : Dev) (f : FixedFire) (rest : List FixedFire) :
    HeadsSame d (beforeRecord d g f rest) :=
  (((headsSame_passFixed g d f).setGen g _).fired hg f).trans (headsSame_firePackets _ _ _ _)

/-- TRIGGER_FIRE gives its head the record of the fire. -/
theorem triggerFire_record (g h : Fin 64) (s : State) (f : FixedFire) (rest : List FixedFire) (hf : (s.dev.gen g).fixed = f :: rest)
    (hdue : atOrPast s.dev.now f.time = true) (hk : s.dev.headOfGen g = some h.val) (hup : s.dev.headUp h = true)
    (hroom : (s.dev.head h).records.length < 32) :
    ((triggerFireOp g s.dev).head h).records = (s.dev.head h).records ++
      [{ gen := g.val, line := f.line, pos := f.pos, st := f.st, time := f.time }] := by
  have hsame := headsSame_fire g.isLt s.dev f rest
  have hrec : ((afterFire s.dev g f rest).head h).records = (s.dev.head h).records ++
      [{ gen := g.val, line := f.line, pos := f.pos, st := f.st, time := f.time }] := by
    rw [← hsame.head, afterFire_eq]
    exact records_takeRecord ((hsame.headOfGen g).trans hk) ((hsame.headUp h).trans hup) (by rwa [hsame.head])
  rw [triggerFireOp_of_due hf hdue]
  split
  · exact hrec
  · exact hrec

/-! ### Actuator schedulers (R65, R66) -/

/-- A push is refused where the queue is full or the position is not past the last. -/
theorem actPushOp_eq (k : Nat) (w : Word) (d : Dev) :
    actPushOp k w d =
      if (d.actQueue k).length < 16 ∧ ∀ e, (d.actQueue k).getLast? = some e → strictlyPast (d.rd .sprActkPos k) e.pos = true then
        d.setActQueue k (d.actQueue k ++ [{
          pos := d.rd .sprActkPos k, widthUs := fld w 31 16, level := bit w 0,
          late := atOrPast (d.axisPos (d.actAxis k)) (d.rd .sprActkPos k) }])
      else (d.wrB .sprActkMissed k 47 true).raise (416 + k) := by
  unfold actPushOp Dev.pushAct
  dsimp only
  by_cases hfull : 16 ≤ (d.actQueue k).length
  · rw [if_pos hfull, if_neg (fun h => absurd h.1 (Nat.not_lt.2 hfull))]
  · rw [if_neg hfull]
    have hroom := Nat.not_le.1 hfull
    cases hl : (d.actQueue k).getLast? with
    | none => simp [hroom]
    | some e => cases hp : strictlyPast (d.rd .sprActkPos k) e.pos <;> simp [hroom, hp]

theorem Machine.Dev.actQueue_setActQueue_same (d : Dev) (k : Nat) (l : List ActEntry) : (d.setActQueue k l).actQueue k = l := by
  simp [Dev.actQueue, Dev.setActQueue]

theorem Machine.Dev.actQueue_setActQueue_ne (d : Dev) {k b : Nat} (h : b ≠ k) (l : List ActEntry) :
    (d.setActQueue k l).actQueue b = d.actQueue b := by
  simp [Dev.actQueue, Dev.setActQueue, h.symm]

/-- A pulse that is scheduled is among those due. -/
theorem mem_insertPulse (p : Pulse) (l : List Pulse) : p ∈ insertPulse p l := by
  induction l with
  | nil => exact List.mem_cons_self
  | cons q l ih =>
    unfold insertPulse
    split
    · exact List.mem_cons_self
    · exact List.mem_cons_of_mem _ ih

/-- ACT_FIRE of an entry whose position is reached. -/
theorem actFireOp_of_reached {k : Nat} {e : ActEntry} {rest : List ActEntry} (hq : d.actQueue k = e :: rest)
    (hen : d.rdB .sprActkCfg k 2 = true) (hsvc : d.inService = true) (hlate : e.late = false)
    (hst : d.axisState (d.actAxis k) = .acquire ∨ d.axisState (d.actAxis k) = .track ∨ d.axisState (d.actAxis k) = .coast)
    (hfw : d.axisBackward (d.actAxis k) = false) (hat : atOrPast (d.axisPos (d.actAxis k)) e.pos = true) :
    actFireOp k d = (d.setActQueue k rest).schedulePulse (32 + k) { start := d.now, width := e.widthUs * 1000, level := e.level } := by
  unfold actFireOp
  dsimp only
  rw [hq]
  refine if_pos ?_
  rcases hst with hst | hst | hst <;> simp [hen, hsvc, hlate, hst, hfw, hat]

/-- Settles O12: enabling, disabling, fixing and firing are the branches of their steps, each within a footprint; a search within
the lead time ends within it, and the channels that a new output ends reach nothing of the position domain. -/
theorem triggersAndSchedulers : Obligations.TriggersAndSchedulers := by
  unfold Obligations.TriggersAndSchedulers
  refine ⟨fun g s hp hen hv => ⟨_, State.run_powered hp _, tgEnable_valid g s hen hv⟩,
    fun g s hp hen hv => ⟨_, State.run_powered hp _, tgEnable_invalid g s hen hv⟩, fun g s hp hen hidle => ?_,
    fun g s hp => ⟨_, State.run_powered hp _, tgDisable_stops g s⟩,
    fun g s hp hsvc htr hfw hfix hre hat hint hreach =>
      ⟨_, State.run_powered hp _, triggerFix_ahead g s hsvc htr hfw hfix hre hat hint hreach⟩,
    fun g s k hp hsvc htr hfw hfix hre hat hk hok =>
      ⟨_, State.run_powered hp _, triggerFix_passed g s k hsvc htr hfw hfix hre hat hk hok⟩,
    fun g s f rest hp hf hdue => ⟨_, State.run_powered hp _, triggerFire_takes g s f rest hf hdue⟩,
    fun g h s f rest hp hf hdue hk hup hroom =>
      ⟨_, State.run_powered hp _, triggerFire_record g h s f rest hf hdue hk hup hroom⟩,
    fun k w s hp hroom hpast => ?_, fun k w s hp hfull => ?_, fun k s e rest hp hq hen hsvc hlate hst hfw hat => ?_⟩
  · have hop : tgEnableOp g true s.dev = s.dev := by
      have hset : Dev.setGenEn g true s.dev = s.dev := by
        simp only [Dev.setGenEn, hen, Bool.not_true, Bool.false_eq_true, if_false, if_true]
      rw [tgEnableOp, hset, endFires_of_idle hidle]
    exact (State.run_powered hp (tgEnableOp g true)).trans (by rw [hop])
  · refine ⟨_, State.run_powered hp _, ?_⟩
    dsimp only
    rw [actPushOp_eq, if_pos ⟨hroom, hpast⟩]
    have hw := (Within.refl (plainFoot [.spr] []) s.dev).setActQueue (by simp [plainFoot]) k (s.dev.actQueue k ++ [{
      pos := s.dev.rd .sprActkPos k, widthUs := fld w 31 16, level := bit w 0,
      late := atOrPast (s.dev.axisPos (s.dev.actAxis k)) (s.dev.rd .sprActkPos k) }])
    exact ⟨Dev.actQueue_setActQueue_same _ _ _, fun b hb => Dev.actQueue_setActQueue_ne _ (Fin.val_ne_of_ne hb) _, hw.only⟩
  · refine ⟨_, State.run_powered hp _, ?_⟩
    have hno : ¬ ((s.dev.actQueue k).length < 16 ∧
        ∀ e, (s.dev.actQueue k).getLast? = some e → strictlyPast (s.dev.rd .sprActkPos k) e.pos = true) := by
      rintro ⟨hroom, hpast⟩
      rcases hfull with hfull | ⟨e, he, hnot⟩
      · omega
      · exact absurd (hpast e he) (by simp [hnot])
    have hw := ((Within.refl (plainFoot [.regs, .evc, .wev] [regKey .sprActkMissed k]) s.dev).wrB (by simp [plainFoot])
      (r := .sprActkMissed) (i := k) (by simp [plainFoot]) 47 true).raise (by simp [plainFoot]) (416 + k)
    dsimp only
    rw [actPushOp_eq, if_neg hno]
    refine ⟨?_, hw.regsOnly, hw.only⟩
    simp [Dev.wrB, Dev.rdB, bit_setBit_same]
  · refine ⟨_, State.run_powered hp _, ?_⟩
    have hw := ((Within.refl (plainFoot [.spr, .fio] []) s.dev).setActQueue (by simp [plainFoot]) k rest).schedulePulse
      (by simp [plainFoot]) (32 + k) { start := s.dev.now, width := e.widthUs * 1000, level := e.level }
    dsimp only
    rw [actFireOp_of_reached hq hen hsvc hlate hst hfw hat]
    refine ⟨Dev.actQueue_setActQueue_same _ _ _, ?_, fun b hb => Dev.actQueue_setActQueue_ne _ (Fin.val_ne_of_ne hb) _, hw.only⟩
    rw [Dev.schedulePulse, Dev.outDrv_setOutDrv_same]
    exact mem_insertPulse _ _

end Sys2Proof
end

section
/-! PROOF SUPPORT. What a message that came whole leads to. -/

namespace Sys2Proof

open Machine

/-- A message that came whole changes the block by its operation and leaves the queue (R110). -/
theorem Machine.State.run_arrived {r : Arrival} {l : List Nat} {s : State} (h : Arrives r l s) (f : Dev → Dev) :
    s.run (fun d => d.arrive r l f) = .next { s with dev := f s.dev } := by
  rw [State.run_powered h.1, Dev.arrive_whole h]

/-- The block that a message which came whole has led to. -/
theorem Machine.State.dev_of_arrived_next {r : Arrival} {l : List Nat} {s t : State} {f : Dev → Dev} (h : Arrives r l s)
    (ht : s.run (fun d => d.arrive r l f) = .next t) : t.dev = f s.dev :=
  (State.dev_of_run_next h.1 ht).trans (Dev.arrive_whole h f)

end Sys2Proof
end

section
/-! PROOF. O15: whose path a moved range leaves on the lead (R122). -/

namespace Sys2Proof

open Machine

/-- A lead in RUN with ports 0–2 in UP, ports 1 and 2 at version 2. Port 2 was enumerated with the numbers 5–8; port 1 still holds
the same range as one that moved on from it, whose ROUTE_DROP is to come. -/
def staleOldPath : State :=
  { dev := {
      regs := [(regKey .hlkStat 0, wordOf 5), (regKey .hlkPortpStat 0, wordOf 2), (regKey .hlkPortpStat 1, wordOf 0x2002),
               (regKey .hlkPortpStat 2, wordOf 0x2002), (regKey .hlkPortpRange 2, setBit (wordOf (5 + 8 * 65536)) 47 true),
               (regKey .ghdState 0, wordOf DevState.run.code)],
      domains := [(9, .on)], hlk := { ports := [(1, { old := [{ lo := 5, hi := 8 }] })] } } }

/-- The REPARENT of that range on port 0 leaves nothing dropped on port 2. -/
theorem dropped_reparentOp_staleOldPath :
    ((reparentOp (0 : Fin 4).val { lo := 5, hi := 8 } staleOldPath.dev).port (2 : Fin 4).val).dropped = [] := by
  decide +kernel

/-- Refutes O15: on staleOldPath messages to device 5 go to port 2, but a REPARENT of 5–8 on port 0 drops the path of port 1, where
a former move still waits for its ROUTE_DROP. -/
theorem not_portsAndRouting : ¬ Obligations.PortsAndRouting := by
  unfold Obligations.PortsAndRouting
  rintro ⟨-, -, -, -, -, -, -, -, -, -, -, -, hlead, -⟩
  have harr : Arrives ⟨0, 0, true, true⟩ [2, 3] staleOldPath := by unfold Arrives; decide
  obtain ⟨t, ht, -, -, hdrop, -⟩ := hlead ⟨0, 0, true, true⟩ 2 { lo := 5, hi := 8 } staleOldPath harr (by decide) (by decide +kernel)
    (by decide) (by decide) (by decide)
  rw [State.dev_of_arrived_next (f := reparentOp (0 : Fin 4).val { lo := 5, hi := 8 }) harr ht, dropped_reparentOp_staleOldPath]
    at hdrop
  exact absurd hdrop (List.cons_ne_nil _ _).symm

end Sys2Proof
end

section
/-! PROOF. O18: what a TILE_END makes of its request (R116, R118). -/

namespace Sys2Proof

open Machine

/-- A part of a remote query whose range ends at 5,000, of which the request out asks for the bands up to 999. -/
def partWithMore : RemoteReq :=
  { query := 0, part := 0, stop := 5000, sent := true,
    req := { requester := 0, dest := 9, tag := 3, head := 1, first := 0, last := 999, bcol := 0, ecol := 0 } }

/-- Device 0 in RUN, a follower with port 0 in UP and that request out. -/
def askingFollower : State :=
  { dev := {
      regs := [(regKey .hlkCtl 0, wordOf 3), (regKey .hlkStat 0, wordOf 2), (regKey .hlkPortpStat 0, wordOf 0x2002),
               (regKey .ghdState 0, wordOf DevState.run.code)],
      domains := [(9, .on)], tfb := { remote := [partWithMore] } } }

/-- The TILE_END with STATUS 0 for it. -/
def endOfFirst : TileEnd := { requester := 0, tag := 3, count := 4, status := 0, horizon := 0 }

/-- It makes the request ask on behind 999. -/
theorem remote_tileEndOp_askingFollower :
    (tileEndOp endOfFirst askingFollower.dev).tfb.remote.map (fun x => (x.ended, x.req.first)) = [(none, 1000)] := by
  decide +kernel

/-- Refutes O18: on askingFollower a TILE_END with STATUS 0 does not end the request, since its part goes on past the range asked
for. -/
theorem not_herdMessages : ¬ Obligations.HerdMessages := by
  unfold Obligations.HerdMessages
  rintro ⟨-, -, -, -, -, -, hend, -⟩
  have harr : Arrives ⟨0, 0, true, true⟩ [2] askingFollower := by unfold Arrives; decide
  obtain ⟨t, ht, hrem, -⟩ := hend ⟨0, 0, true, true⟩ endOfFirst partWithMore askingFollower (by decide) harr (by decide) rfl rfl rfl
    rfl (by decide) (.inr (.inl rfl))
  have hmap := congrArg (List.map fun x : RemoteReq => (x.ended, x.req.first)) hrem
  rw [State.dev_of_arrived_next (f := tileEndOp endOfFirst) harr ht, remote_tileEndOp_askingFollower] at hmap
  exact absurd hmap (by decide)

end Sys2Proof
end

section
/-! PROOF SUPPORT. The ports of the herd link: what their fields read after they were written, and what the small updates of a port
may reach. -/

namespace Sys2Proof

open Machine

/-! ### Keys and fields -/

/-- The key of a register's first place. -/
def regBase (r : Reg) : Nat := (regDesc r).win * 65536 + (regDesc r).off

/-- No place of one register has the key of a place of another: their first keys differ modulo a divisor of both strides. -/
def regApart (r r' : Reg) : Bool :=
  let g := Nat.gcd (regDesc r).stride (regDesc r').stride
  regBase r % g != regBase r' % g

theorem regKey_ne_of_apart {r r' : Reg} (h : regApart r r' = true) (i j : Nat) : regKey r i ≠ regKey r' j := by
  intro e
  have hmod : ∀ (q : Reg) (k g : Nat), g ∣ (regDesc q).stride → regKey q k % g = regBase q % g := by
    rintro q k g ⟨m, hm⟩
    rw [regKey, regBase, hm, Nat.mul_left_comm, Nat.add_mul_mod_self_left]
  simp only [regApart, bne_iff_ne] at h
  exact h (by rw [← hmod r i _ (Nat.gcd_dvd_left _ _), e, hmod r' j _ (Nat.gcd_dvd_right _ _)])

/-- No place of a register has the key of the first place of another, which lies before it or off its stride. -/
def regMisses (r r' : Reg) : Bool :=
  decide (regBase r' < regBase r) || regBase r' % (regDesc r).stride != regBase r % (regDesc r).stride

theorem regKey_ne_of_misses {r r' : Reg} (h : regMisses r r' = true) (i : Nat) : regKey r i ≠ regKey r' 0 := by
  have hk : regKey r i = regBase r + i * (regDesc r).stride := rfl
  have hk' : regKey r' 0 = regBase r' := by rw [regKey, regBase, Nat.zero_mul, Nat.add_zero]
  rw [hk, hk']
  intro e
  simp only [regMisses, ← e, Nat.add_mul_mod_self_right, bne_self_eq_false, Bool.or_false, decide_eq_true_eq] at h
  omega

/-- The places of an indexed register have keys of their own. -/
theorem regKey_inj {r : Reg} (h : 0 < (regDesc r).stride) {i j : Nat} : regKey r i = regKey r j ↔ i = j := by
  simp [regKey, h.ne']

/-- A field that takes the value it has leaves its word. -/
theorem Machine.setFld_fld_self (w : Word) (hi lo : Nat) : setFld w hi lo (fld w hi lo) = w := by
  refine BitVec.eq_of_getLsbD_eq fun k hk => ?_
  rw [getLsbD_setFld]
  split
  · next hin =>
    rw [testBit_fld, Nat.add_sub_cancel' hin.2.1, decide_eq_true (by omega), Bool.true_and]
  · rfl

namespace Machine.Dev

variable (d : Dev)

/-- A register reads as before after another was written, wherever both lie. -/
theorem rd_wr_apart {r r' : Reg} (h : regApart r r' = true) (i j : Nat) (v : Word) : (d.wr r i v).rd r' j = d.rd r' j :=
  d.rd_wr_ne v (regKey_ne_of_apart h i j)

theorem rd_wr_misses {r r' : Reg} (h : regMisses r r' = true) (i : Nat) (v : Word) : (d.wr r i v).rd r' 0 = d.rd r' 0 :=
  d.rd_wr_ne v (regKey_ne_of_misses h i)

/-- A field written reads as written, within its width. -/
theorem rdF_wrF_same (r : Reg) (i : Nat) {hi lo : Nat} (v : Nat) (h : lo ≤ hi) (h' : hi < 48) :
    (d.wrF r i hi lo v).rdF r i hi lo = v % 2 ^ (hi + 1 - lo) := by
  rw [rdF, wrF, rd_wr_same, fld_setFld_same _ _ h h']

/-- A field of a register read after one beside it was written, in the same place or another. -/
theorem rdF_wrF_disj {r : Reg} (hs : 0 < (regDesc r).stride) (i j : Nat) {hi lo hi' lo' : Nat} (v : Nat)
    (h : hi < lo' ∨ hi' < lo) : (d.wrF r i hi lo v).rdF r j hi' lo' = d.rdF r j hi' lo' := by
  simp only [rdF, wrF, rd_wr, regKey_inj hs]
  split
  · next e => subst e; exact fld_setFld_disj _ _ h
  · rfl

/-! ### The status of a port -/

/-- A field of a port's status that is set reads as written, changed or not; every other register stands. -/
theorem rd_setPortStat (p hi lo v q : Nat) :
    (d.setPortStat p hi lo v).rd .hlkPortpStat q = (d.wrF .hlkPortpStat p hi lo v).rd .hlkPortpStat q := by
  unfold setPortStat
  split
  · next hv =>
    subst hv
    simp only [wrF, rdF, setFld_fld_self, rd_wr, regKey_inj (r := .hlkPortpStat) (by decide)]
    split
    · next e => rw [e]
    · rfl
  · simp

theorem rd_setPortStat_apart {r : Reg} (h : regApart .hlkPortpStat r = true) (p hi lo v i : Nat) :
    (d.setPortStat p hi lo v).rd r i = d.rd r i := by
  unfold setPortStat
  split
  · rfl
  · simp only [raise_keeps, wrF, rd_wr_apart _ h]

theorem rdF_setPortStat_same (p : Nat) {hi lo : Nat} (v : Nat) (h : lo ≤ hi) (h' : hi < 48) :
    (d.setPortStat p hi lo v).rdF .hlkPortpStat p hi lo = v % 2 ^ (hi + 1 - lo) := by
  rw [rdF, rd_setPortStat]
  exact rdF_wrF_same d .hlkPortpStat p v h h'

theorem rdF_setPortStat_disj (p q : Nat) {hi lo hi' lo' : Nat} (v : Nat) (h : hi < lo' ∨ hi' < lo) :
    (d.setPortStat p hi lo v).rdF .hlkPortpStat q hi' lo' = d.rdF .hlkPortpStat q hi' lo' := by
  rw [rdF, rd_setPortStat]
  exact rdF_wrF_disj d (r := .hlkPortpStat) (by decide) p q v h

@[simp] theorem setPortStat_hlk (p hi lo v : Nat) : (d.setPortStat p hi lo v).hlk = d.hlk := by
  unfold setPortStat
  split
  · rfl
  · simp [wrF]

@[simp] theorem setPortStat_now (p hi lo v : Nat) : (d.setPortStat p hi lo v).now = d.now := by
  unfold setPortStat
  split
  · rfl
  · simp [wrF]

variable (p q : Nat)

@[simp] theorem portState_setPortState {st : Nat} (h : st < 8) : (d.setPortState p st).portState p = st :=
  (d.rdF_setPortStat_same p st (by omega) (by omega)).trans (Nat.mod_eq_of_lt h)

@[simp] theorem portRole_setPortState (st : Nat) : (d.setPortState p st).portRole q = d.portRole q :=
  d.rdF_setPortStat_disj p q st (by omega)

@[simp] theorem portVersion_setPortState (st : Nat) : (d.setPortState p st).portVersion q = d.portVersion q :=
  d.rdF_setPortStat_disj p q st (by omega)

@[simp] theorem portRole_setPortRole {r : Nat} (h : r < 4) : (d.setPortRole p r).portRole p = r :=
  (d.rdF_setPortStat_same p r (by omega) (by omega)).trans (Nat.mod_eq_of_lt h)

@[simp] theorem portState_setPortRole (r : Nat) : (d.setPortRole p r).portState q = d.portState q :=
  d.rdF_setPortStat_disj p q r (by omega)

@[simp] theorem portVersion_setPortRole (r : Nat) : (d.setPortRole p r).portVersion q = d.portVersion q :=
  d.rdF_setPortStat_disj p q r (by omega)

/-! ### What is known of a port beside its registers -/

@[simp] theorem port_setPort_same (x : HlkPort) : (d.setPort p x).port p = x := by simp [port, setPort]

theorem port_setPort_ne {p q : Nat} (h : q ≠ p) (x : HlkPort) : (d.setPort p x).port q = d.port q := by
  simp [port, setPort, h.symm]

@[simp] theorem rd_setPort (x : HlkPort) (r : Reg) (i : Nat) : (d.setPort p x).rd r i = d.rd r i := rfl

@[simp] theorem port_wr (r : Reg) (i : Nat) (v : Word) : (d.wr r i v).port p = d.port p := rfl

@[simp] theorem port_setPortStat (hi lo v : Nat) : (d.setPortStat q hi lo v).port p = d.port p := by
  simp only [port, setPortStat_hlk]

theorem port_notePeer_same (n depth : Nat) : (d.notePeer p n depth).port p = { d.port p with joined := some (n, depth) } :=
  port_setPort_same _ _ _

theorem rd_notePeer_apart {r : Reg} (h : regApart .hlkPortpPeer r = true) (n depth i : Nat) :
    (d.notePeer p n depth).rd r i = d.rd r i := by
  simp only [notePeer, wrF, rd_wr_apart _ h, rd_setPort]

/-- The alternative upstream rests on the control register and on which ports are retired. -/
theorem altPort_congr {d t : Dev} (hctl : t.rd .hlkCtl 0 = d.rd .hlkCtl 0) (hret : ∀ q, (t.port q).retired = (d.port q).retired) :
    t.altPort = d.altPort := by
  unfold altPort follower rdB rdF
  dsimp only
  rw [hctl, hret]

@[simp] theorem rd_sendPort (m : HlkMsg) (r : Reg) (i : Nat) : (d.sendPort p m).rd r i = d.rd r i := rfl

@[simp] theorem port_sendPort (m : HlkMsg) : (d.sendPort q m).port p = d.port p := rfl

end Machine.Dev

/-! ### Footprints -/

section
variable {F : Foot} {d₀ d : Dev} (h : Within F d₀ d)
include h

theorem Within.setPort (hp : Part.hlk ∈ F.parts) (p : Nat) (x : HlkPort) : Within F d₀ (d.setPort p x) := h.withHlk hp _

theorem Within.setPortStat (hp : [Part.regs, .evc, .wev] ⊆ F.parts) {p : Nat} (hk : F.regs (regKey .hlkPortpStat p))
    (hi lo v : Nat) : Within F d₀ (d.setPortStat p hi lo v) := by
  unfold Dev.setPortStat
  split
  · exact h
  · exact (h.wrF (hp (by simp)) hk hi lo v).raise (List.Subset.trans (by decide) hp) _

theorem Within.sendPort (hp : Part.outbox ∈ F.parts) (p : Nat) (m : HlkMsg) : Within F d₀ (d.sendPort p m) := h.emit hp _

end

end Sys2Proof
end

section
/-! PROOF. O14: a herd port trains, fails, starts again and measures its delay (R74–R76, R90). -/

namespace Sys2Proof

open Machine

variable {d : Dev}

/-- What the steps of training of port p may reach. -/
def trainFoot (p : Nat) : Foot := plainFoot [.regs, .hlk, .evc, .wev] [regKey .hlkPortpStat p]

section
variable {d₀ : Dev} {p : Nat} (h : Within (trainFoot p) d₀ d)
include h

theorem Within.trainPort (q : Nat) (x : HlkPort) : Within (trainFoot p) d₀ (d.setPort q x) :=
  h.setPort (by simp [trainFoot, plainFoot]) q x

theorem Within.trainStat (hi lo v : Nat) : Within (trainFoot p) d₀ (d.setPortStat p hi lo v) :=
  h.setPortStat (by simp [trainFoot, plainFoot]) (by simp [trainFoot, plainFoot]) hi lo v

theorem Within.trainStatF (hi lo v : Nat) : Within (trainFoot p) d₀ (d.wrF .hlkPortpStat p hi lo v) :=
  h.wrF (by simp [trainFoot, plainFoot]) (by simp [trainFoot, plainFoot]) hi lo v

theorem Within.portFail : Within (trainFoot p) d₀ (d.portFail p) := ((h.trainPort p _).trainStatF 15 12 0).trainStat 2 0 0

theorem Within.portRestart : Within (trainFoot p) d₀ (d.portRestart p) :=
  ((((h.trainPort p _).trainStatF 15 12 0).trainStat 9 8 0).trainStat 10 10 0).trainStat 2 0 _

end

/-! ### A port that starts training again (R76, R78) -/

/-- What is known of a port that starts training again. -/
theorem port_portRestart_same (d : Dev) (p : Nat) :
    (d.portRestart p).port p =
      { d.port p with step := 1, stepAt := d.now, failedAt := none, peer := none, joined := none, delays := [] } := by
  simp [Dev.portRestart, Dev.setPortState, Dev.setPortRole, Dev.wrF]

/-- Restarting a port leaves the others. -/
theorem port_portRestart_ne (d : Dev) {p q : Nat} (h : q ≠ p) : (d.portRestart p).port q = d.port q := by
  simp [Dev.portRestart, Dev.setPortState, Dev.setPortRole, Dev.wrF, Dev.port_setPort_ne _ h]

theorem portRole_portRestart (d : Dev) (p : Nat) : (d.portRestart p).portRole p = 0 := by
  simp only [Dev.portRestart, Dev.portRole_setPortState]
  exact (Dev.rdF_setPortStat_disj _ p p 0 (by omega)).trans (Dev.portRole_setPortRole _ _ (by omega))

/-- It is DOWN where it is enabled, else DISABLED. -/
theorem portState_portRestart (d : Dev) (p : Nat) :
    (d.portRestart p).portState p = if d.rdB .hlkPortpCtl p 0 then 0 else 4 := by
  have hctl : ∀ e : Dev, ((e.wrF .hlkPortpStat p 15 12 0).setPortRole p 0).rdB .hlkPortpCtl p 0 = e.rdB .hlkPortpCtl p 0 :=
    fun e => by
      simp only [Dev.rdB, Dev.setPortRole, Dev.rd_setPortStat_apart _ (r := .hlkPortpCtl) (by decide), Dev.wrF,
        Dev.rd_wr_apart _ (r := .hlkPortpStat) (r' := .hlkPortpCtl) (by decide)]
  simp only [Dev.portRestart]
  rw [hctl, Dev.portState_setPortState _ _ (by split <;> omega)]
  rfl

/-! ### Steps of training (R74, R76) -/

/-- What a failed step of training leaves (R76). -/
theorem portFail_reach (p : Fin 4) (s : State) :
    let t : State := { s with dev := s.dev.portFail p }
    (t.dev.port p).failedAt = some s.dev.now ∧ t.dev.portState p = 0 ∧ (∀ q : Fin 4, q ≠ p → t.dev.port q = s.dev.port q) ∧
      RegsOnly [regKey .hlkPortpStat p] s t ∧ Only [.regs, .hlk, .evc, .wev] s t := by
  have hw := (Within.refl (trainFoot p) s.dev).portFail
  refine ⟨?_, ?_, fun q hq => ?_, hw.regsOnly, hw.only⟩
  · simp [Dev.portFail, Dev.setPortState, Dev.wrF]
  · exact Dev.portState_setPortState _ _ (by omega)
  · have hne : q.val ≠ p.val := Fin.val_ne_of_ne hq
    simp [Dev.portFail, Dev.setPortState, Dev.wrF, Dev.port_setPort_ne _ hne]

/-- A port that detects a signal goes from DOWN into TRAIN (R76). -/
theorem portSignalDetect_reach (p : Fin 4) (s : State) (hl : s.dev.portLive p = true) (hst : s.dev.portState p = 0)
    (h1 : (s.dev.port p).step = 1) :
    let t : State := { s with dev := portSignalDetectOp p s.dev }
    t.dev.portState p = 1 ∧ (t.dev.port p).step = 2 ∧ (t.dev.port p).stepAt = s.dev.now ∧
      (t.dev.port p).helloAt = some s.dev.now ∧ (∀ q : Fin 4, q ≠ p → t.dev.port q = s.dev.port q) ∧
      RegsOnly [regKey .hlkPortpStat p] s t ∧ Only [.regs, .hlk, .evc, .wev] s t := by
  have hop : portSignalDetectOp p s.dev =
      ((s.dev.portStep p 2).setPortState p 1).setPort p
        { ((s.dev.portStep p 2).setPortState p 1).port p with helloAt := some ((s.dev.portStep p 2).setPortState p 1).now } := by
    simp [portSignalDetectOp, hl, hst, h1]
  have hw := (((Within.refl (trainFoot p) s.dev).trainPort p { s.dev.port p with step := 2, stepAt := s.dev.now }).trainStat
    2 0 1).trainPort p { ((s.dev.portStep p 2).setPortState p 1).port p with
      helloAt := some ((s.dev.portStep p 2).setPortState p 1).now }
  dsimp only
  rw [hop]
  refine ⟨?_, ?_, ?_, ?_, fun q hq => ?_, hw.regsOnly, hw.only⟩
  · exact Dev.portState_setPortState _ _ (by omega)
  · simp [Dev.setPortState, Dev.portStep]
  · simp [Dev.setPortState, Dev.portStep]
  · simp [Dev.setPortState, Dev.portStep]
  · have hne : q.val ≠ p.val := Fin.val_ne_of_ne hq
    simp [Dev.portStep, Dev.setPortState, Dev.port_setPort_ne _ hne]

/-- With one lane locked after 10 ms a port that may run on one lane goes on with it (R74). -/
theorem laneLockTimeout_goesOn (p : Fin 4) (s : State) (hst : s.dev.portState p = 1) (h2 : (s.dev.port p).step = 2)
    (hlate : 10000000 ≤ elapsed s.dev.now (s.dev.port p).stepAt) (hx : s.dev.rdB .hlkPortpCtl p 2 = true) :
    let t : State := { s with dev := laneLockTimeoutOp p s.dev }
    (t.dev.port p).step = 3 ∧ t.dev.rdB .hlkPortpStat p 10 = true ∧ t.dev.portState p = 1 ∧
      (∀ q : Fin 4, q ≠ p → t.dev.port q = s.dev.port q) ∧
      RegsOnly [regKey .hlkPortpStat p] s t ∧ Only [.regs, .hlk, .evc, .wev] s t := by
  have hop : laneLockTimeoutOp p s.dev = (s.dev.portStep p 3).setPortStat p 10 10 1 := by
    simp [laneLockTimeoutOp, hst, h2, hlate, hx]
  have hw := ((Within.refl (trainFoot p) s.dev).trainPort p { s.dev.port p with step := 3, stepAt := s.dev.now }).trainStat 10 10 1
  dsimp only
  rw [hop]
  refine ⟨?_, ?_, ?_, fun q hq => ?_, hw.regsOnly, hw.only⟩
  · simp [Dev.portStep]
  · have hb := (s.dev.portStep p 3).rdF_setPortStat_same p (hi := 10) (lo := 10) 1 (by omega) (by omega)
    rw [Dev.rdF, fld_one] at hb
    simpa [Dev.rdB] using hb
  · exact ((s.dev.portStep p 3).rdF_setPortStat_disj p p 1 (by omega)).trans hst
  · have hne : q.val ≠ p.val := Fin.val_ne_of_ne hq
    simp [Dev.portStep, Dev.port_setPort_ne _ hne]

/-- 100 ms after a failure training starts again (R76). -/
theorem portTrainRetry_reach (p : Fin 4) (s : State) (u : Word) (hf : (s.dev.port p).failedAt = some u)
    (hl : s.dev.portLive p = true) (hlate : 100000000 ≤ elapsed s.dev.now u) :
    let t : State := { s with dev := portTrainRetryOp p s.dev }
    (t.dev.port p).step = 1 ∧ (t.dev.port p).failedAt = none ∧ t.dev.portState p = 0 ∧ t.dev.portRole p = 0 ∧
      (∀ q : Fin 4, q ≠ p → t.dev.port q = s.dev.port q) ∧
      RegsOnly [regKey .hlkPortpStat p] s t ∧ Only [.regs, .hlk, .evc, .wev] s t := by
  have hop : portTrainRetryOp p s.dev = s.dev.portRestart p := by simp [portTrainRetryOp, hf, hl, hlate]
  have hw := (Within.refl (trainFoot p) s.dev).portRestart
  dsimp only
  rw [hop]
  refine ⟨?_, ?_, ?_, ?_, fun q hq => ?_, hw.regsOnly, hw.only⟩
  · exact congrArg HlkPort.step (port_portRestart_same s.dev p)
  · exact congrArg HlkPort.failedAt (port_portRestart_same s.dev p)
  · exact (portState_portRestart s.dev p).trans (if_pos (by simp_all [Dev.portLive]))
  · exact portRole_portRestart s.dev p
  · exact port_portRestart_ne s.dev (Fin.val_ne_of_ne hq)

/-! ### HELLO (R76) -/

/-- A peer with a version in common gives the version of the link. -/
theorem hello_agrees (r : Arrival) (m : HelloMsg) (s : State) (h : Arrives r [1] s) (h6 : (s.dev.port r.port).step < 6)
    (hv : max m.verLo 1 ≤ min m.verHi (s.dev.rdF .hlkVersion 0 7 0)) (hhi : m.verHi < 16) :
    let t : State := { s with dev := helloOp r.port m s.dev }
    (t.dev.port r.port).step = 6 ∧ (t.dev.port r.port).peer = some m ∧
      t.dev.portVersion r.port = min m.verHi (s.dev.rdF .hlkVersion 0 7 0) ∧
      RegsOnly [regKey .hlkPortpStat r.port, regKey .hlkPortpPeer r.port] s t ∧ Only [.regs, .hlk] s t := by
  obtain ⟨-, hl, hst, -⟩ := h
  set v := min m.verHi (s.dev.rdF .hlkVersion 0 7 0) with hveq
  set x : HlkPort := { s.dev.port r.port with peer := some m, joined := m.joined } with hx
  set w := setFld (setFld (setFld 0 15 12 v) 9 0 ((m.joined.map (·.1)).getD 0)) 18 16 ((m.joined.map (·.2)).getD 0) with hw
  have hop : helloOp r.port m s.dev =
      (((s.dev.setPort r.port x).wr .hlkPortpPeer r.port w).wrF .hlkPortpStat r.port 15 12 v).portStep r.port 6 := by
    have hver : (s.dev.setPort r.port x).rdF .hlkVersion 0 7 0 = s.dev.rdF .hlkVersion 0 7 0 := rfl
    simp only [helloOp, hl, List.mem_singleton.1 hst, h6, ← hx, hver, ← hveq, not_lt.2 hv, ← hw, decide_true, Bool.and_self,
      if_true, if_false]
  have hf := ((((Within.refl (plainFoot [.regs, .hlk] [regKey .hlkPortpStat r.port, regKey .hlkPortpPeer r.port]) s.dev).setPort
    (by simp [plainFoot]) r.port x).wr (by simp [plainFoot]) (r := .hlkPortpPeer) (i := r.port) (by simp [plainFoot]) w).wrF
    (by simp [plainFoot]) (r := .hlkPortpStat) (i := r.port) (by simp [plainFoot]) 15 12 v)
  dsimp only
  rw [hop]
  refine ⟨?_, ?_, ?_, (hf.setPort (by simp [plainFoot]) r.port _).regsOnly, (hf.setPort (by simp [plainFoot]) r.port _).only⟩
  · simp [Dev.portStep]
  · simp [Dev.portStep, Dev.wrF, hx]
  · have hlt : v < 16 := lt_of_le_of_lt (min_le_left _ _) hhi
    exact (Dev.rdF_wrF_same _ .hlkPortpStat _ v (by omega) (by omega)).trans (Nat.mod_eq_of_lt hlt)

/-- A peer with none in common is REFUSED. -/
theorem hello_refuses (r : Arrival) (m : HelloMsg) (s : State) (h : Arrives r [1] s) (h6 : (s.dev.port r.port).step < 6)
    (hv : min m.verHi (s.dev.rdF .hlkVersion 0 7 0) < max m.verLo 1) :
    let t : State := { s with dev := helloOp r.port m s.dev }
    t.dev.portState r.port = 5 ∧ RegsOnly [regKey .hlkPortpStat r.port] s t ∧ Only [.regs, .hlk, .evc, .wev] s t := by
  obtain ⟨-, hl, hst, -⟩ := h
  have hop : helloOp r.port m s.dev =
      (s.dev.setPort r.port { s.dev.port r.port with peer := some m, joined := m.joined }).setPortState r.port 5 := by
    have hver : ∀ x, (s.dev.setPort r.port x).rdF .hlkVersion 0 7 0 = s.dev.rdF .hlkVersion 0 7 0 := fun _ => rfl
    simp only [helloOp, hl, List.mem_singleton.1 hst, h6, hver, hv, decide_true, Bool.and_self, if_true]
  have hw := ((Within.refl (trainFoot r.port) s.dev).trainPort r.port
    { s.dev.port r.port with peer := some m, joined := m.joined }).trainStat 2 0 5
  dsimp only
  rw [hop]
  exact ⟨Dev.portState_setPortState _ _ (by omega), hw.regsOnly, hw.only⟩

/-! ### Delay probes (R76, R90) -/

/-- What comes whole in one of some states comes whole in one of more. -/
theorem Arrives.mono {r : Arrival} {l l' : List Nat} {s : State} (h : Arrives r l s) (hs : l ⊆ l') : Arrives r l' s := by
  obtain ⟨hp, hl, hst, hr⟩ := h
  exact ⟨hp, hl, hs hst, hr⟩

/-- A probe leaves in training once HELLO has come, and on a link in use every 256 beats. -/
theorem delayProbeSend_sends (p : Fin 4) (t1 : Nat) (s : State) (hl : s.dev.portLive p = true)
    (hdue : (s.dev.portState p = 1 ∧ (s.dev.port p).step = 6) ∨
      ((s.dev.portState p = 2 ∨ s.dev.portState p = 3) ∧ 262144 ≤ elapsed s.dev.now (s.dev.port p).probeAt)) :
    let t : State := { s with dev := delayProbeSendOp p t1 s.dev }
    t.dev.outbox = s.dev.outbox ++ [.hlk p (.delayReq t1)] ∧ t.dev.port p = { s.dev.port p with probeAt := s.dev.now } ∧
      (∀ q : Fin 4, q ≠ p → t.dev.port q = s.dev.port q) ∧ Only [.hlk, .outbox] s t := by
  have hop : delayProbeSendOp p t1 s.dev =
      (s.dev.setPort p { s.dev.port p with probeAt := s.dev.now }).sendPort p (.delayReq t1) := by
    rw [delayProbeSendOp]
    exact if_pos (by simpa [hl] using hdue)
  have hw := ((Within.refl (plainFoot [.hlk, .outbox] []) s.dev).setPort (by simp [plainFoot]) p
    { s.dev.port p with probeAt := s.dev.now }).sendPort (by simp [plainFoot]) p (.delayReq t1)
  dsimp only
  rw [hop]
  exact ⟨rfl, Dev.port_setPort_same _ _ _, fun q hq => Dev.port_setPort_ne _ (Fin.val_ne_of_ne hq) _, hw.only⟩

/-- A probe that comes is answered. -/
theorem delayReq_answers (r : Arrival) (t1 t2 t3 : Nat) (s : State) (h : Arrives r [1, 2, 3] s) :
    let t : State := { s with dev := delayReqOp r.port t1 t2 t3 s.dev }
    t.dev.outbox = s.dev.outbox ++ [.hlk r.port (.delayRsp t1 t2 t3)] ∧ Only [.outbox] s t := by
  obtain ⟨-, hl, hst, -⟩ := h
  have hop : delayReqOp r.port t1 t2 t3 s.dev = s.dev.sendPort r.port (.delayRsp t1 t2 t3) := by
    simp only [List.mem_cons, List.not_mem_nil, or_false] at hst
    rw [delayReqOp]
    exact if_pos (by simpa [hl, or_assoc] using hst)
  dsimp only
  rw [hop]
  exact ⟨rfl, ((Within.refl (plainFoot [.outbox] []) s.dev).sendPort (by simp [plainFoot]) _ _).only⟩

/-- On a link in use the answer joins the last sixteen, and their mean is the delay (R90). -/
theorem delayRsp_averages (r : Arrival) (t1 t2 t3 t4 : Nat) (s : State) (h : Arrives r [2, 3] s) :
    let t : State := { s with dev := delayRspOp r.port t1 t2 t3 t4 s.dev }
    (t.dev.port r.port).delays = (s.dev.probeDelay r.port t1 t2 t3 t4 :: (s.dev.port r.port).delays).take 16 ∧
      t.dev.rdF .hlkPortpDelay r.port 15 0 = (wordOfInt (meanDelay (t.dev.port r.port).delays)).toNat % 65536 ∧
      RegsOnly [regKey .hlkPortpDelay r.port] s t ∧ Only [.regs, .hlk] s t := by
  obtain ⟨-, hl, hst, -⟩ := h
  have hst' : s.dev.portState r.port = 2 ∨ s.dev.portState r.port = 3 := by simpa using hst
  have h1 : s.dev.portState r.port ≠ 1 := by omega
  set l := (s.dev.probeDelay r.port t1 t2 t3 t4 :: (s.dev.port r.port).delays).take 16 with hleq
  set v := (wordOfInt (meanDelay l)).toNat
  have hop : delayRspOp r.port t1 t2 t3 t4 s.dev =
      (s.dev.setPort r.port { s.dev.port r.port with delays := l }).wrF .hlkPortpDelay r.port 15 0 v := by
    simp only [delayRspOp, ← hleq]
    rw [if_neg (by simp [h1]), if_pos (by simpa [hl] using hst')]
  have hw := ((Within.refl (plainFoot [.regs, .hlk] [regKey .hlkPortpDelay r.port]) s.dev).setPort (by simp [plainFoot]) r.port
    { s.dev.port r.port with delays := l }).wrF (by simp [plainFoot]) (r := .hlkPortpDelay) (i := r.port) (by simp [plainFoot]) 15 0 v
  have hd : ((delayRspOp r.port t1 t2 t3 t4 s.dev).port r.port).delays = l := by rw [hop]; simp [Dev.wrF]
  dsimp only
  refine ⟨hd, ?_, ?_, ?_⟩
  · rw [hd, hop]
    exact Dev.rdF_wrF_same _ .hlkPortpDelay _ v (by omega) (by omega)
  · rw [hop]; exact hw.regsOnly
  · rw [hop]; exact hw.only

/-- In training an answer before the sixteenth is kept. -/
theorem delayRsp_keeps (r : Arrival) (t1 t2 t3 t4 : Nat) (s : State) (h : Arrives r [1] s) (h6 : (s.dev.port r.port).step = 6)
    (hlen : (s.dev.port r.port).delays.length < 15) :
    let t : State := { s with dev := delayRspOp r.port t1 t2 t3 t4 s.dev }
    t.dev.port r.port = { s.dev.port r.port with
        delays := s.dev.probeDelay r.port t1 t2 t3 t4 :: (s.dev.port r.port).delays } ∧
      Only [.hlk] s t := by
  obtain ⟨-, hl, hst, -⟩ := h
  set l := s.dev.probeDelay r.port t1 t2 t3 t4 :: (s.dev.port r.port).delays with hleq
  have hll : l.length < 16 := by rw [hleq, List.length_cons]; omega
  have hop : delayRspOp r.port t1 t2 t3 t4 s.dev = s.dev.setPort r.port { s.dev.port r.port with delays := l } := by
    simp only [delayRspOp, ← hleq, List.take_of_length_le hll.le]
    rw [if_pos (by simp [hl, List.mem_singleton.1 hst, h6]), if_neg hll.ne]
  dsimp only
  rw [hop]
  exact ⟨Dev.port_setPort_same _ _ _, ((Within.refl (plainFoot [.hlk] []) s.dev).setPort (by simp [plainFoot]) _ _).only⟩

/-! ### The end of training (R75–R77) -/

/-- A device that returns at its place gets its number as a downstream port's peer; where none returns nothing happens (R83). -/
theorem Machine.Dev.giveFormer_cases (d : Dev) (p : Nat) :
    d.giveFormer p = d ∨ ∃ n depth m, d.giveFormer p = ((d.setPortRole p 2).notePeer p n depth).sendPort p m := by
  unfold Dev.giveFormer
  dsimp only
  repeat' split
  · exact .inr ⟨_, _, _, rfl⟩
  all_goals exact .inl rfl

/-- An alternative upstream is judged too deep, or stands. -/
theorem Machine.Dev.judgeAlt_cases (d : Dev) (p : Nat) : d.judgeAlt p = d ∨ d.judgeAlt p = d.setPortState p 5 := by
  unfold Dev.judgeAlt
  split
  · exact .inr rfl
  · exact .inl rfl

/-- Port p has ended training with a delay measured. -/
def Measured (p : Nat) (w : Word) (d : Dev) : Prop := (d.port p).step = 7 ∧ d.rd .hlkPortpDelay p = w

section
variable {p : Nat} {w : Word} (h : Measured p w d)
include h

theorem Measured.setPortStat (hi lo v : Nat) : Measured p w (d.setPortStat p hi lo v) :=
  ⟨by rw [Dev.port_setPortStat]; exact h.1, by rw [Dev.rd_setPortStat_apart _ (by decide)]; exact h.2⟩

theorem Measured.judgeAlt : Measured p w (d.judgeAlt p) := by
  rcases d.judgeAlt_cases p with e | e <;> rw [e]
  · exact h
  · exact h.setPortStat 2 0 5

theorem Measured.giveFormer : Measured p w (d.giveFormer p) := by
  rcases d.giveFormer_cases p with e | ⟨n, depth, m, e⟩ <;> rw [e]
  · exact h
  · obtain ⟨hstep, hdelay⟩ := h.setPortStat 9 8 2
    refine ⟨?_, ?_⟩
    · rw [Dev.port_sendPort, Dev.port_notePeer_same]; exact hstep
    · rw [Dev.rd_sendPort, Dev.rd_notePeer_apart _ _ (by decide)]; exact hdelay

end

/-- Giving a former number leaves the state of the port. -/
theorem portState_giveFormer (d : Dev) (p q : Nat) : (d.giveFormer p).portState q = d.portState q := by
  rcases d.giveFormer_cases p with e | ⟨n, depth, m, e⟩ <;> rw [e]
  rw [Dev.portState, Dev.rdF, Dev.rd_sendPort, Dev.rd_notePeer_apart _ _ (by decide)]
  exact Dev.portState_setPortRole _ _ _ _

/-- The sixteenth answer of training: the median is the delay, REFUSED where it exceeds 200 ns, and UP where neither side has the
link as its alternative (R75, R76). -/
theorem portTrained_reach (d : Dev) (p : Nat) :
    Measured p (setFld (d.rd .hlkPortpDelay p) 15 0 (wordOfInt (medianDelay (d.port p).delays)).toNat) (d.portTrained p) ∧
      (12800 < medianDelay (d.port p).delays → (d.portTrained p).portState p = 5) ∧
      (medianDelay (d.port p).delays ≤ 12800 → d.altPort ≠ some p → (∀ h, (d.port p).peer = some h → h.alt = false) →
        (d.portTrained p).portState p = 2) := by
  set m := medianDelay (d.port p).delays with hm
  set v := (wordOfInt m).toNat with hv
  set e := (d.wrF .hlkPortpDelay p 15 0 v).setPort p { d.port p with step := 7, stepAt := d.now, probeAt := d.now } with he
  have hmeas : Measured p (setFld (d.rd .hlkPortpDelay p) 15 0 v) e :=
    ⟨by rw [he, Dev.port_setPort_same], by rw [he, Dev.rd_setPort, Dev.wrF, Dev.rd_wr_same]⟩
  have halt : e.altPort = d.altPort := Dev.altPort_congr (Dev.rd_wr_misses _ (r := .hlkPortpDelay) (by decide) _ _) fun q => by
    by_cases hq : q = p
    · subst hq; rw [he, Dev.port_setPort_same]
    · rw [he, Dev.port_setPort_ne _ hq]; rfl
  have hop : d.portTrained p =
      if 12800 < m then e.setPortState p 5
      else if e.altPort = some p || ((d.port p).peer.map (·.alt)).getD false then
        if e.portVersion p < 2 then e.setPortState p 5 else ((e.setPortRole p 3).setPortState p 3).judgeAlt p
      else (e.setPortState p 2).giveFormer p := rfl
  refine ⟨?_, fun hfar => ?_, fun hnear hno hpeer => ?_⟩
  · rw [hop]
    repeat' split
    · exact hmeas.setPortStat 2 0 5
    · exact hmeas.setPortStat 2 0 5
    · exact ((hmeas.setPortStat 9 8 3).setPortStat 2 0 3).judgeAlt
    · exact (hmeas.setPortStat 2 0 2).giveFormer
  · rw [hop, if_pos hfar]
    exact Dev.portState_setPortState _ _ (by omega)
  · have hnone : ((d.port p).peer.map (·.alt)).getD false = false := by
      cases hp : (d.port p).peer with
      | none => rfl
      | some h => exact hpeer h hp
    rw [hop, if_neg (by omega), if_neg (by simp [halt, hno, hnone]), portState_giveFormer]
    exact Dev.portState_setPortState _ _ (by omega)

/-- The sixteenth answer ends training. -/
theorem delayRsp_ends (r : Arrival) (t1 t2 t3 t4 : Nat) (l : List Int) (s : State) (h : Arrives r [1] s)
    (h6 : (s.dev.port r.port).step = 6) (hleq : l = s.dev.probeDelay r.port t1 t2 t3 t4 :: (s.dev.port r.port).delays)
    (hlen : l.length = 16) :
    let t : Dev := delayRspOp r.port t1 t2 t3 t4 s.dev
    (t.port r.port).step = 7 ∧ t.rdF .hlkPortpDelay r.port 15 0 = (wordOfInt (medianDelay l)).toNat % 65536 ∧
      (12800 < medianDelay l → t.portState r.port = 5) ∧
      (medianDelay l ≤ 12800 → s.dev.altPort ≠ some r.port.val → (∀ h, (s.dev.port r.port).peer = some h → h.alt = false) →
        t.portState r.port = 2) := by
  obtain ⟨-, hl, hst, -⟩ := h
  set e := s.dev.setPort r.port { s.dev.port r.port with delays := l } with he
  have hop : delayRspOp r.port t1 t2 t3 t4 s.dev = e.portTrained r.port := by
    simp only [delayRspOp, ← hleq, List.take_of_length_le hlen.le]
    rw [if_pos (by simp [hl, List.mem_singleton.1 hst, h6]), if_pos hlen]
  have hport : e.port r.port = { s.dev.port r.port with delays := l } := Dev.port_setPort_same _ _ _
  have halt : e.altPort = s.dev.altPort := Dev.altPort_congr rfl fun q => by
    by_cases hq : q = r.port.val
    · subst hq; rw [hport]
    · rw [he, Dev.port_setPort_ne _ hq]
  obtain ⟨⟨hstep, hdelay⟩, hfar, hnear⟩ := portTrained_reach e r.port
  rw [hport] at hdelay hfar hnear
  rw [halt] at hnear
  dsimp only
  rw [hop]
  refine ⟨hstep, ?_, hfar, hnear⟩
  rw [Dev.rdF, hdelay]
  exact fld_setFld_same _ _ (by omega) (by omega)

/-- Settles O14: each command of training is one branch of its operation, whose updates are of the port's status and of what is
known of the port. -/
theorem portTraining : Obligations.PortTraining := by
  unfold Obligations.PortTraining
  refine ⟨fun p s hp hl hst h1 => ⟨_, State.run_powered hp _, portSignalDetect_reach p s hl hst h1⟩,
    fun p s hp hst h2 hlate hx => ⟨_, State.run_powered hp _, laneLockTimeout_goesOn p s hst h2 hlate hx⟩, ?lane, ?timeout,
    fun p s u hp hf hl hlate => ⟨_, State.run_powered hp _, portTrainRetry_reach p s u hf hl hlate⟩,
    fun r m s h h6 hv hhi => ⟨_, State.run_arrived h _, hello_agrees r m s h h6 hv hhi⟩,
    fun r m s h h6 hv => ⟨_, State.run_arrived h _, hello_refuses r m s h h6 hv⟩,
    fun p t1 s hp hl hdue => ⟨_, State.run_powered hp _, delayProbeSend_sends p t1 s hl hdue⟩,
    fun r t1 t2 t3 s h => ⟨_, State.run_arrived h _, delayReq_answers r t1 t2 t3 s h⟩,
    fun r t1 t2 t3 t4 s h =>
      ⟨_, State.run_arrived (h.mono (by simp)) _, delayRsp_averages r t1 t2 t3 t4 s h⟩,
    fun r t1 t2 t3 t4 s h h6 hlen =>
      ⟨_, State.run_arrived (h.mono (by simp)) _, delayRsp_keeps r t1 t2 t3 t4 s h h6 hlen⟩,
    fun r t1 t2 t3 t4 l s h h6 hleq hlen =>
      ⟨_, State.run_arrived (h.mono (by simp)) _, delayRsp_ends r t1 t2 t3 t4 l s h h6 hleq hlen⟩⟩
  case lane =>
    intro p s hp hst h2 hlate hx
    have hop : laneLockTimeoutOp p s.dev = s.dev.portFail p := by simp [laneLockTimeoutOp, hst, h2, hlate, hx]
    refine ⟨_, State.run_powered hp _, ?_⟩
    dsimp only
    rw [hop]
    exact portFail_reach p s
  case timeout =>
    intro p lanes skewed s hp hst hlate
    have hop : hlkTrainingTimeoutOp p lanes skewed s.dev = s.dev.portFail p := by
      rw [hlkTrainingTimeoutOp]
      refine if_pos ?_
      rcases hlate with ⟨h2, rfl, hlate⟩ | ⟨h2, rfl, hlate⟩ | ⟨h36, hlate⟩
      · simp [hst, h2, hlate]
      · simpa [hst, h2] using hlate
      · rcases h36 with h3 | h3 <;> simp [hst, h3, hlate]
    refine ⟨_, State.run_powered hp _, ?_⟩
    dsimp only
    rw [hop]
    exact portFail_reach p s

end Sys2Proof
end
section
/-! PROOF. O16: the beats of a lead whose own settings change as it sends one (R84, R107). -/

namespace Sys2Proof

open Machine

/-- A commit whose waves the beats have told, with a beat to go: its apply instant lies ten beats back. -/
def toldCommit : LeadCommit :=
  { req := { requester := 0, tag := 0, next := true, axis := 0, target := 0 }, epoch := 1, phase := .trailing 1, applySeq := 990 }

/-- A lead on which Goatherd has not loaded the stored configuration. Its own set of that commit still waits for its apply
instant, and holds HERD_STATE as JOINING beside a ROLE of lead. -/
def lateLead : State :=
  { dev := {
      now := 1019904,
      regs := [(regKey .hlkCtl 0, wordOf 1), (regKey .hlkStat 0, wordOf 5), (regKey .ghdState 0, wordOf DevState.run.code)],
      domains := [(9, .on)],
      hlk := { commit := some toldCommit, frozen := some { epoch := 1, pos := some 0 } },
      dict := { pending := [(0x230004, [1]), (0x230001, [0])] } } }

/-- Its commit gives the next beat its fields. -/
theorem composeCommit_lateLead :
    composeCommit toldCommit (BitVec.ofNat 16 ((lateLead.dev.now + 4096).toNat / 1024))
        (lateLead.dev.beatAxis toldCommit.req.axis (lateLead.dev.now + 4096)) lateLead.dev.now =
      some { cstate := 2, seqValid := true, next := { toldCommit with phase := .trailing 0 } } := rfl

/-- Sending the beat applies the set late, and no beat remains: HERD_STATE goes from LEAD to JOINING, and on to UNJOINED. -/
theorem beats_beatSendOp_lateLead : (beatSendOp lateLead.dev).hlk.beats = [] := by decide +kernel

/-- Refutes O16: on lateLead the beat sent makes the lead apply a set with HERD_STATE in it, and the herd state that it enters
from there forgets the beat. -/
theorem not_beats : ¬ Obligations.Beats := by
  unfold Obligations.Beats
  rintro ⟨-, hsend, -⟩
  obtain ⟨t, ht, b, hb, -⟩ := hsend lateLead toldCommit _ (by decide) (by decide) (by decide) (by decide) (by decide) rfl
    composeCommit_lateLead
  rw [State.dev_of_run_next (f := beatSendOp) (by decide) ht, beats_beatSendOp_lateLead] at hb
  exact absurd hb (Option.not_mem_none b)

end Sys2Proof
end
section
/-! PROOF SUPPORT. The application of a wave leaves whether a commit of the lead runs: each operation that a wave comes to changes
that commit at most to tell that its axis has failed (R104). -/

namespace Sys2Proof

open Machine

namespace Machine.Dev

/-- A commit of the lead runs. -/
def leadBusy (d : Dev) : Bool := d.hlk.commit.isSome

variable (d : Dev)

/-- The view is the normal form, so that it folds up again behind a change of the herd's state. -/
@[simp] theorem isSome_commit : d.hlk.commit.isSome = d.leadBusy := rfl

@[simp] theorem leadBusy_mk (now regs domains freeIdx spr fio evc wev sram hbm hbc ghd owners cxi hlk commit dict tfb chm cex
    graze tmv hif ibx procs regHist reply outbox) :
    leadBusy ⟨now, regs, domains, freeIdx, spr, fio, evc, wev, sram, hbm, hbc, ghd, owners, cxi, hlk, commit, dict, tfb, chm, cex,
      graze, tmv, hif, ibx, procs, regHist, reply, outbox⟩ = hlk.commit.isSome := rfl

@[simp] theorem leadBusy_ite (c : Prop) [Decidable c] (a b : Dev) :
    (if c then a else b).leadBusy = if c then a.leadBusy else b.leadBusy := apply_ite ..

/-! ### Loops -/

theorem leadBusy_foldl_by {α β : Type} (v : β → Dev) {f : β → α → β} (hf : ∀ r x, (v (f r x)).leadBusy = (v r).leadBusy) (r : β)
    (l : List α) : (v (l.foldl f r)).leadBusy = (v r).leadBusy := by
  induction l generalizing r with
  | nil => rfl
  | cons x l ih => exact (ih _).trans (hf r x)

@[simp] theorem leadBusy_foldl {α : Type} {f : Dev → α → Dev} (hf : ∀ e x, (f e x).leadBusy = e.leadBusy) (l : List α) :
    (l.foldl f d).leadBusy = d.leadBusy := leadBusy_foldl_by id hf d l

@[simp] theorem leadBusy_forUpTo {f : Nat → Dev → Dev} (hf : ∀ i e, (f i e).leadBusy = e.leadBusy) (n : Nat) :
    (forUpTo n f d).leadBusy = d.leadBusy := leadBusy_foldl d (fun e i => hf i e) _

@[simp] theorem leadBusy_forGens {f : Dev → Nat → Dev} (hf : ∀ e g, (f e g).leadBusy = e.leadBusy) (a : Nat) :
    (d.forGens a f).leadBusy = d.leadBusy := leadBusy_forUpTo d (fun g e => by split <;> simp [hf]) 64

/-! ### One lemma for each operation, in the order of the model's dependence -/

theorem leadBusy_of_hlk {d t : Dev} (h : t.hlk = d.hlk) : t.leadBusy = d.leadBusy := by simp only [leadBusy, h]

@[simp] theorem leadBusy_wr (r : Reg) (i : Nat) (v : Word) : (d.wr r i v).leadBusy = d.leadBusy := leadBusy_of_hlk rfl

@[simp] theorem leadBusy_wrF (r : Reg) (i hi lo v : Nat) : (d.wrF r i hi lo v).leadBusy = d.leadBusy := leadBusy_of_hlk rfl

@[simp] theorem leadBusy_wrB (r : Reg) (i b : Nat) (v : Bool) : (d.wrB r i b v).leadBusy = d.leadBusy := leadBusy_of_hlk rfl

@[simp] theorem leadBusy_satF (r : Reg) (i hi lo n : Nat) : (d.satF r i hi lo n).leadBusy = d.leadBusy := leadBusy_of_hlk rfl

@[simp] theorem leadBusy_wrapF (r : Reg) (i hi lo n : Nat) : (d.wrapF r i hi lo n).leadBusy = d.leadBusy := leadBusy_of_hlk rfl

@[simp] theorem leadBusy_raise (i : Nat) : (d.raise i).leadBusy = d.leadBusy := leadBusy_of_hlk (by simp)

@[simp] theorem leadBusy_setLevel (i : Nat) (b : Bool) : (d.setLevel i b).leadBusy = d.leadBusy := leadBusy_of_hlk (by simp)

/-- The updates of one place of the block beside the registers. -/
@[simp] theorem leadBusy_update :
    (∀ n p, (d.setProc n p).leadBusy = d.leadBusy) ∧ (∀ c x, (d.setChan c x).leadBusy = d.leadBusy) ∧
    (∀ c r, (d.setRun c r).leadBusy = d.leadBusy) ∧ (∀ h x, (d.setHead h x).leadBusy = d.leadBusy) ∧
    (∀ l x, (d.setLink l x).leadBusy = d.leadBusy) ∧ (∀ g x, (d.setGen g x).leadBusy = d.leadBusy) ∧
    (∀ k l, (d.setActQueue k l).leadBusy = d.leadBusy) ∧ (∀ a x, (d.setAxis a x).leadBusy = d.leadBusy) ∧
    (∀ a sel k, (d.setTracker a sel k).leadBusy = d.leadBusy) ∧ (∀ n e, (d.setEncIn n e).leadBusy = d.leadBusy) ∧
    (∀ x o, (d.setOutDrv x o).leadBusy = d.leadBusy) ∧ (∀ h x, (d.setLb h x).leadBusy = d.leadBusy) ∧
    (∀ h x, (d.setExtHead h x).leadBusy = d.leadBusy) ∧ (∀ j x, (d.setJob j x).leadBusy = d.leadBusy) ∧
    (∀ h x, (d.setChm h x).leadBusy = d.leadBusy) ∧ (∀ p x, (d.setPort p x).leadBusy = d.leadBusy) ∧
    (∀ s l, (d.setRewriteQueue s l).leadBusy = d.leadBusy) ∧ (∀ q t, (d.putTile q t).leadBusy = d.leadBusy) ∧
    (∀ a m, (d.putCell a m).leadBusy = d.leadBusy) ∧ (∀ index sub bs, (d.setVarBytes index sub bs).leadBusy = d.leadBusy) ∧
    (∀ k, (d.countCorrected k).leadBusy = d.leadBusy) ∧ (∀ test, (d.dropRemote test).leadBusy = d.leadBusy) ∧
    (∀ tag, (d.endOrphan tag).leadBusy = d.leadBusy) ∧ (∀ m, (d.emit m).leadBusy = d.leadBusy) := by
  simp [setProc, setChan, setRun, setHead, setLink, setGen, setActQueue, setAxis, setTracker, setEncIn, setOutDrv, setLb,
    setExtHead, setJob, setChm, setPort, setRewriteQueue, putTile, putCell, setVarBytes, countCorrected, dropRemote,
    endOrphan, emit]

@[simp] theorem leadBusy_postCsw (c : Nat) (k : CswKind) (st sub resid op : Nat) (addr : Word) (ring : Nat) :
    (d.postCsw c k st sub resid op addr ring).leadBusy = d.leadBusy := by
  simp [postCsw]

/-! ### Channels and the tile mover -/

@[simp] theorem leadBusy_setChState (c st reason : Nat) : (d.setChState c st reason).leadBusy = d.leadBusy := by
  simp [setChState]

@[simp] theorem leadBusy_dropTally (e : Resource) : (d.dropTally e).leadBusy = d.leadBusy := by
  unfold dropTally
  dsimp only
  repeat' split
  all_goals simp

@[simp] theorem leadBusy_takeEngine : d.takeEngine.leadBusy = d.leadBusy := by
  unfold takeEngine
  dsimp only
  repeat' split
  all_goals simp

@[simp] theorem leadBusy_assignEngines : d.assignEngines.leadBusy = d.leadBusy := by simp [assignEngines]

@[simp] theorem leadBusy_leaveMover (u : MoverUser) : (d.leaveMover u).leadBusy = d.leadBusy := by simp [leaveMover]

@[simp] theorem leadBusy_dropQuery (n : Nat) : (d.dropQuery n).leadBusy = d.leadBusy := by simp [dropQuery]

@[simp] theorem leadBusy_dropChanQuery (c : Nat) : (d.dropChanQuery c).leadBusy = d.leadBusy := by
  unfold dropChanQuery
  dsimp only
  repeat' split
  all_goals simp

@[simp] theorem leadBusy_refreshOwns (c : Nat) : (d.refreshOwns c).leadBusy = d.leadBusy := by simp [refreshOwns]

@[simp] theorem leadBusy_chRelease (c : Nat) : (d.chRelease c).leadBusy = d.leadBusy := by simp [chRelease]

@[simp] theorem leadBusy_chSuspend (c reason op : Nat) (addr : Word) (ring : Nat) :
    (d.chSuspend c reason op addr ring).leadBusy = d.leadBusy := by
  simp [chSuspend]

@[simp] theorem leadBusy_chSuspendHere (c reason : Nat) : (d.chSuspendHere c reason).leadBusy = d.leadBusy := by
  simp [chSuspendHere]

@[simp] theorem leadBusy_chFinish (c code : Nat) (w : ChWord) (st sub resid value : Nat) :
    (d.chFinish c code w st sub resid value).leadBusy = d.leadBusy := by
  simp [chFinish]

@[simp] theorem leadBusy_endWait (c : Nat) (r : ChanRun) (st sub resid value : Nat) :
    (d.endWait c r st sub resid value).leadBusy = d.leadBusy := by
  simp [endWait]

@[simp] theorem leadBusy_endFires : d.endFires.leadBusy = d.leadBusy := by
  unfold endFires
  refine leadBusy_foldl _ (fun e c => ?_) _
  repeat' split
  all_goals simp

/-! ### Generators, trigger records and schedulers -/

@[simp] theorem leadBusy_dropPoints (g n : Nat) : (d.dropPoints g n).leadBusy = d.leadBusy := by simp [dropPoints]

@[simp] theorem leadBusy_requestTrig (l : Nat) (p : TrigPkt) : (d.requestTrig l p).leadBusy = d.leadBusy := by
  simp [requestTrig]

@[simp] theorem leadBusy_firePackets (cxp out : Word) (t : Word) : (d.firePackets cxp out t).leadBusy = d.leadBusy := by
  simp [firePackets]

@[simp] theorem leadBusy_passLines (h : Nat) : (d.passLines h).leadBusy = d.leadBusy := by simp [passLines]

@[simp] theorem leadBusy_headEvent (h : Nat) : (d.headEvent h).leadBusy = d.leadBusy := by simp [headEvent]

@[simp] theorem leadBusy_lossEvent (h cause : Nat) : (d.lossEvent h cause).leadBusy = d.leadBusy := by simp [lossEvent]

@[simp] theorem leadBusy_countLine (h : Nat) : (d.countLine h).leadBusy = d.leadBusy := by simp [countLine]

@[simp] theorem leadBusy_loseRecord (h cause : Nat) (r : TrigRecord) : (d.loseRecord h cause r).leadBusy = d.leadBusy := by
  simp [loseRecord]

@[simp] theorem leadBusy_refreshRecq (h : Nat) : (d.refreshRecq h).leadBusy = d.leadBusy := by simp [refreshRecq]

@[simp] theorem leadBusy_takeRecord (r : TrigRecord) : (d.takeRecord r).leadBusy = d.leadBusy := by
  unfold takeRecord
  dsimp only
  repeat' split
  all_goals simp

@[simp] theorem leadBusy_fireNow (g : Nat) (f : FixedFire) : (d.fireNow g f).leadBusy = d.leadBusy := by simp [fireNow]

@[simp] theorem leadBusy_schedulePulse (x : Nat) (p : Pulse) : (d.schedulePulse x p).leadBusy = d.leadBusy := by
  simp [schedulePulse]

@[simp] theorem leadBusy_firePulses (out ofs : Word) (t : Word) (st : AxState) :
    (d.firePulses out ofs t st).leadBusy = d.leadBusy := by
  simp [firePulses]

@[simp] theorem leadBusy_fixFire (g : Nat) (f : FixedFire) : (d.fixFire g f).leadBusy = d.leadBusy := by simp [fixFire]

@[simp] theorem leadBusy_passPoints (g : Nat) (m : P48) : (d.passPoints g m).leadBusy = d.leadBusy := by
  unfold passPoints
  dsimp only
  repeat' split
  all_goals simp

@[simp] theorem leadBusy_settleGen (g : Nat) : (d.settleGen g).leadBusy = d.leadBusy := by simp [settleGen]

@[simp] theorem leadBusy_stopGen (g : Nat) : (d.stopGen g).leadBusy = d.leadBusy := by simp [stopGen]

@[simp] theorem leadBusy_startGen (g : Nat) : (d.startGen g).leadBusy = d.leadBusy := by simp [startGen]

@[simp] theorem leadBusy_genCfgErr (g : Nat) : (d.genCfgErr g).leadBusy = d.leadBusy := by simp [genCfgErr]

@[simp] theorem leadBusy_setGenEn (g : Nat) (en : Bool) : (setGenEn g en d).leadBusy = d.leadBusy := by simp [setGenEn]

@[simp] theorem leadBusy_tgEnableOp (g : Nat) (en : Bool) : (tgEnableOp g en d).leadBusy = d.leadBusy := by simp [tgEnableOp]

@[simp] theorem leadBusy_markLate (k : Nat) : (d.markLate k).leadBusy = d.leadBusy := by simp [markLate]

@[simp] theorem leadBusy_actEnable (k : Nat) (en : Bool) : (d.actEnable k en).leadBusy = d.leadBusy := by simp [actEnable]

@[simp] theorem leadBusy_plainStore (r : Reg) (i : Nat) (w : Word) : (d.plainStore r i w).leadBusy = d.leadBusy := by
  simp [plainStore]

/-! ### Messages that go and are lost -/

@[simp] theorem leadBusy_free : d.free.2.leadBusy = d.leadBusy := by simp [free]

@[simp] theorem leadBusy_commitLinkDown : d.commitLinkDown.leadBusy = d.leadBusy := by simp [commitLinkDown]

@[simp] theorem leadBusy_commitEnds (m : CommitDone) : (d.commitEnds m).leadBusy = d.leadBusy := by simp [commitEnds]

@[simp] theorem leadBusy_sendPort (p : Nat) (m : HlkMsg) : (d.sendPort p m).leadBusy = d.leadBusy := by simp [sendPort]

@[simp] theorem leadBusy_commitDoneOp (m : CommitDone) : (commitDoneOp m d).leadBusy = d.leadBusy := by
  unfold commitDoneOp
  repeat' split
  all_goals simp

@[simp] theorem leadBusy_commitLost (m : CommitReq) : (d.commitLost m).leadBusy = d.leadBusy := by simp [commitLost]

@[simp] theorem leadBusy_tileReqLost (tag : BitVec 16) : (d.tileReqLost tag).leadBusy = d.leadBusy := by simp [tileReqLost]

@[simp] theorem leadBusy_tileLost (m : TileReq) : (d.tileLost m).leadBusy = d.leadBusy := by
  unfold tileLost
  repeat' split
  all_goals simp

@[simp] theorem leadBusy_countSettled : d.countSettled.leadBusy = d.leadBusy := by simp [countSettled]

@[simp] theorem leadBusy_sramStore (a : Nat) (x : MemWord) : (d.sramStore a x).leadBusy = d.leadBusy := by simp [sramStore]

@[simp] theorem leadBusy_sramWrite (a : Nat) (w : Word) : (d.sramWrite a w).leadBusy = d.leadBusy := by simp [sramWrite]

@[simp] theorem leadBusy_sramWrites (a : Nat) (ws : List Word) : (d.sramWrites a ws).leadBusy = d.leadBusy := by
  induction ws generalizing d a with
  | nil => rfl
  | cons w ws ih => exact (ih (d.sramWrite a w) (a + 1)).trans (leadBusy_sramWrite d a w)

@[simp] theorem leadBusy_pushRecord (retro : Bool) (ws : List Word) : (d.pushRecord retro ws).leadBusy = d.leadBusy := by
  simp [pushRecord]

@[simp] theorem leadBusy_releaseRetro (ws : List Word) : (d.releaseRetro ws).leadBusy = d.leadBusy := by simp [releaseRetro]

@[simp] theorem leadBusy_releaseLive (ws : List Word) : (d.releaseLive ws).leadBusy = d.leadBusy := by simp [releaseLive]

@[simp] theorem leadBusy_putRecord (kind set : Nat) (retro : Bool) (tail : List Word) :
    (d.putRecord kind set retro tail).leadBusy = d.leadBusy := by
  simp [putRecord]

@[simp] theorem leadBusy_releasePiece (p : Piece) (extra : Nat) : (d.releasePiece p extra).leadBusy = d.leadBusy := by
  unfold releasePiece
  dsimp only
  repeat' split
  all_goals simp

@[simp] theorem leadBusy_returned (n : Nat) : (d.returned n).leadBusy = d.leadBusy := by
  unfold returned
  dsimp only
  repeat' split
  all_goals simp

@[simp] theorem leadBusy_blobLost (b : BlobMsg) : (d.blobLost b).leadBusy = d.leadBusy := by
  unfold blobLost
  dsimp only
  repeat' split
  all_goals simp

@[simp] theorem leadBusy_loseMsg (m : HlkMsg) : (d.loseMsg m).leadBusy = d.leadBusy := by
  unfold loseMsg
  repeat' split
  all_goals simp

/-! ### The herd link -/

@[simp] theorem leadBusy_setPortStat (p hi lo v : Nat) : (d.setPortStat p hi lo v).leadBusy = d.leadBusy := by
  simp [setPortStat]

@[simp] theorem leadBusy_setPortRole (p r : Nat) : (d.setPortRole p r).leadBusy = d.leadBusy := by simp [setPortRole]

@[simp] theorem leadBusy_setPortState (p st : Nat) : (d.setPortState p st).leadBusy = d.leadBusy := by simp [setPortState]

@[simp] theorem leadBusy_portRestart (p : Nat) : (d.portRestart p).leadBusy = d.leadBusy := by simp [portRestart]

@[simp] theorem leadBusy_portError (p hi lo n : Nat) : (d.portError p hi lo n).leadBusy = d.leadBusy := by simp [portError]

@[simp] theorem leadBusy_sendUpkeep (p : Nat) (m : HlkMsg) : (d.sendUpkeep p m).leadBusy = d.leadBusy := by simp [sendUpkeep]

@[simp] theorem leadBusy_failover (q : Nat) : (d.failover q).leadBusy = d.leadBusy := by simp [failover]

@[simp] theorem leadBusy_releaseFrozen : d.releaseFrozen.leadBusy = d.leadBusy := by simp [releaseFrozen]

/-! ### Axes and the herd state -/

@[simp] theorem leadBusy_refreshLevels (a : Nat) : (d.refreshLevels a).leadBusy = d.leadBusy := by simp [refreshLevels]

@[simp] theorem leadBusy_refreshAxis (a : Nat) : (d.refreshAxis a).leadBusy = d.leadBusy := by simp [refreshAxis]

@[simp] theorem leadBusy_oneShot (out : Nat) (w1 : Word) (t : Word) : (d.oneShot out w1 t).leadBusy = d.leadBusy := by
  simp [oneShot]

@[simp] theorem leadBusy_fixShot (c : Nat) : (d.fixShot c).leadBusy = d.leadBusy := by
  unfold fixShot
  repeat' split
  all_goals simp

@[simp] theorem leadBusy_fixShots : d.fixShots.leadBusy = d.leadBusy := by simp [fixShots]

@[simp] theorem leadBusy_discardPassed (k : Nat) (p : P48) : (d.discardPassed k p).leadBusy = d.leadBusy := by
  simp [discardPassed]

@[simp] theorem leadBusy_discardActs (sel : Dev → Nat → Bool) (p : P48) : (d.discardActs sel p).leadBusy = d.leadBusy := by
  simp [discardActs]

@[simp] theorem leadBusy_reportMove (old k : Tracker) (b : Nat) : (reportMove old k d b).leadBusy = d.leadBusy := by
  simp [reportMove]

@[simp] theorem leadBusy_refreshSlip (a : Nat) : (d.refreshSlip a).leadBusy = d.leadBusy := by
  unfold refreshSlip
  dsimp only
  repeat' split
  all_goals simp

@[simp] theorem leadBusy_cutWaits (b : Nat) : (d.cutWaits b).leadBusy = d.leadBusy := by
  unfold cutWaits
  refine leadBusy_foldl _ (fun e c => ?_) _
  repeat' split
  all_goals simp

@[simp] theorem leadBusy_noteFault (hit : Nat → Bool) : (d.noteFault hit).leadBusy = d.leadBusy := by
  unfold noteFault
  split
  · next c hc => split <;> simp [leadBusy, hc]
  · rfl

@[simp] theorem leadBusy_freshenAct (k : Nat) : (d.freshenAct k).leadBusy = d.leadBusy := by simp [freshenAct]

@[simp] theorem leadBusy_freshenActs (a : Nat) : (d.freshenActs a).leadBusy = d.leadBusy := by simp [freshenActs]

@[simp] theorem leadBusy_moveAxis (a : Nat) (k : Tracker) : (d.moveAxis a k).leadBusy = d.leadBusy := by simp [moveAxis]

@[simp] theorem leadBusy_moveTracker (a : Nat) (sel : TrackerSel) (k : Tracker) :
    (d.moveTracker a sel k).leadBusy = d.leadBusy := by
  cases sel <;> simp [moveTracker]

@[simp] theorem leadBusy_setCause (a : Nat) (sel : TrackerSel) (c : Nat) : (d.setCause a sel c).leadBusy = d.leadBusy := by
  unfold setCause
  dsimp only
  repeat' split
  all_goals simp

@[simp] theorem leadBusy_enterFault (a : Nat) (sel : TrackerSel) (c : Nat) :
    (d.enterFault a sel c).leadBusy = d.leadBusy := by
  simp [enterFault]

@[simp] theorem leadBusy_faultHerdAxes : d.faultHerdAxes.leadBusy = d.leadBusy := by simp [faultHerdAxes]

@[simp] theorem leadBusy_setHerdState (st : Nat) : (d.setHerdState st).leadBusy = d.leadBusy := by simp [setHerdState]

@[simp] theorem leadBusy_upstreamLost : d.upstreamLost.leadBusy = d.leadBusy := by
  unfold upstreamLost
  repeat' split
  all_goals simp

@[simp] theorem leadBusy_portGone (p discarded : Nat) : (d.portGone p discarded).leadBusy = d.leadBusy := by simp [portGone]

@[simp] theorem leadBusy_portCut (p : Nat) : (d.portCut p).leadBusy = d.leadBusy := by simp [portCut]

@[simp] theorem leadBusy_writePortCtl (p : Nat) (w : Word) : (d.writePortCtl p w).leadBusy = d.leadBusy := by
  simp [writePortCtl]

/-! ### Tiles and bands of the look-back memory -/

@[simp] theorem leadBusy_noteParity (s n : Nat) : (d.noteParity s n).leadBusy = d.leadBusy := by simp [noteParity]

@[simp] theorem leadBusy_linkCheck (s : Nat) : (d.linkCheck s).2.leadBusy = d.leadBusy := by
  unfold linkCheck
  dsimp only
  repeat' split
  all_goals simp

@[simp] theorem leadBusy_bid (r c q n : Nat) : (d.bid r c q n).leadBusy = d.leadBusy := by simp [bid]

@[simp] theorem leadBusy_cancelRewrite (q : Nat) : (d.cancelRewrite q).leadBusy = d.leadBusy := by simp [cancelRewrite]

@[simp] theorem leadBusy_writeTile (r c q : Nat) (ws : List Word) (tag : BitVec 64) :
    (d.writeTile r c q ws tag).2.leadBusy = d.leadBusy := by
  unfold writeTile
  dsimp only
  repeat' split
  all_goals simp

@[simp] theorem leadBusy_putTagged (r q : Nat) (ws : List Word) (pchk gen flags : Nat) :
    (d.putTagged r q ws pchk gen flags).leadBusy = d.leadBusy := by
  simp [putTagged]

@[simp] theorem leadBusy_closeBand (h : Nat) : (d.closeBand h).2.leadBusy = d.leadBusy := by
  unfold closeBand
  dsimp only
  repeat' split
  all_goals simp

@[simp] theorem leadBusy_endHeadPieces (h : Nat) : (d.endHeadPieces h).leadBusy = d.leadBusy := by simp [endHeadPieces]

@[simp] theorem leadBusy_restartAt (h s : Nat) (epoch : Bool) : (d.restartAt h s epoch).leadBusy = d.leadBusy := by
  simp [restartAt]

/-! ### Memory errors -/

@[simp] theorem leadBusy_raisePerMs (last : Option Word) (i : Nat) : (d.raisePerMs last i).2.leadBusy = d.leadBusy := by
  unfold raisePerMs
  repeat' split
  all_goals simp

@[simp] theorem leadBusy_sramCe (r : Nat) : (d.sramCe r).leadBusy = d.leadBusy := by simp [sramCe]

@[simp] theorem leadBusy_log (sev code : Nat) (detail0 : Word) (detail1 : Nat) :
    (d.log sev code detail0 detail1).leadBusy = d.leadBusy := by
  simp [log]

@[simp] theorem leadBusy_edcLast (r kind a : Nat) : (d.edcLast r kind a).leadBusy = d.leadBusy := by simp [edcLast]

@[simp] theorem leadBusy_sramUe (r kind a : Nat) : (d.sramUe r kind a).leadBusy = d.leadBusy := by simp [sramUe]

@[simp] theorem leadBusy_sramRead (a : Nat) : (d.sramRead a).2.leadBusy = d.leadBusy := by
  unfold sramRead
  dsimp only
  repeat' split
  all_goals simp

@[simp] theorem leadBusy_scanMap :
    d.scanMap.2.leadBusy = d.leadBusy := leadBusy_foldl_by (·.2) (fun r i => by simp) (false, d) _

/-! ### Extraction of a band -/

@[simp] theorem leadBusy_refreshPieces : d.refreshPieces.leadBusy = d.leadBusy := by simp [refreshPieces]

@[simp] theorem leadBusy_dropPiece (n : Nat) : (d.dropPiece n).leadBusy = d.leadBusy := by simp [dropPiece]

@[simp] theorem leadBusy_spoilPieces (test : Piece → Bool) : (d.spoilPieces test).leadBusy = d.leadBusy := by
  simp [spoilPieces]

@[simp] theorem leadBusy_checkMap (job : Option Nat) (h : Nat) : (d.checkMap job h).leadBusy = d.leadBusy := by
  simp [checkMap]

@[simp] theorem leadBusy_reportSev (q sev : Nat) : (d.reportSev q sev).leadBusy = d.leadBusy := by
  unfold reportSev
  dsimp only
  repeat' split
  all_goals simp

@[simp] theorem leadBusy_readBursts (r c q n : Nat) (use : Bool) (sevOf : Tile → Nat) :
    (d.readBursts r c q n use sevOf).2.2.leadBusy = d.leadBusy := by
  unfold readBursts
  dsimp only
  repeat' split
  all_goals simp

@[simp] theorem leadBusy_readTile (r c q n : Nat) (use : Bool) : (d.readTile r c q n use).2.2.leadBusy = d.leadBusy := by
  simp [readTile]

@[simp] theorem leadBusy_mismatch (behind : Bool) : (d.mismatch behind).2.leadBusy = d.leadBusy := by
  unfold mismatch
  repeat' split
  all_goals simp

@[simp] theorem leadBusy_useTile (r cls q : Nat) (pchk : Nat) (gen : Option Nat) (behind accept : Bool) :
    (d.useTile r cls q pchk gen behind accept).2.2.leadBusy = d.leadBusy := by
  unfold useTile
  dsimp only
  repeat' split
  all_goals simp

@[simp] theorem leadBusy_checkRef (cls r : Nat) : (d.checkRef cls r).2.leadBusy = d.leadBusy := by simp [checkRef]

@[simp] theorem leadBusy_refLine (cls : Nat) (p : Params) (k : Nat) (cols : List (Nat × Nat)) :
    (d.refLine cls p k cols).2.leadBusy = d.leadBusy := by
  unfold refLine
  dsimp only
  split
  · simp
  · refine (leadBusy_foldl_by Prod.snd (fun acc b => ?_) _ _).trans (leadBusy_checkRef ..)
    split <;> simp

@[simp] theorem leadBusy_extractLine (cls : Nat) (x : ExtHead) (l : ExtLine) (cols : List (Nat × Nat)) :
    (d.extractLine cls x l cols).2.2.2.leadBusy = d.leadBusy := by
  unfold extractLine
  dsimp only
  repeat' split
  all_goals simp

@[simp] theorem leadBusy_tileRecord (h set tag : Nat) (retro : Bool) (first last : P48) (lo hi flags : Nat) (rs : List Run) :
    (d.tileRecord h set tag retro first last lo hi flags rs).leadBusy = d.leadBusy := by
  simp [tileRecord]

@[simp] theorem leadBusy_addRun (m : List Word) (job : Option Nat) (set tag : Nat) (r : Run) :
    (d.addRun m job set tag r).leadBusy = d.leadBusy := by
  simp [addRun]

@[simp] theorem leadBusy_joinTile (m : List Word) (h set tag : Nat) (job : Option Nat) (first last : P48) (lo hi flags : Nat)
    (rs : List Run) : (d.joinTile m h set tag job first last lo hi flags rs).leadBusy = d.leadBusy := by
  simp [joinTile]

@[simp] theorem leadBusy_extractBand (h set tag : Nat) (job : Option Nat) (x : ExtHead) (tileFlags : Nat → Nat)
    (ls : List ExtLine) : (d.extractBand h set tag job x tileFlags ls).2.leadBusy = d.leadBusy := by
  unfold extractBand
  dsimp only
  split
  · refine leadBusy_foldl_by (fun r : ExtHead × Dev × List Run => r.2.1) (fun r l => ?_) (x, d, []) _
    exact leadBusy_extractLine ..
  · refine (leadBusy_foldl _ (fun e b => leadBusy_joinTile ..) _).trans ?_
    refine leadBusy_foldl_by (fun r : ExtHead × Dev × List Run => r.2.1) (fun r l => ?_) (x, d, []) _
    exact leadBusy_extractLine ..

@[simp] theorem leadBusy_refreshWarm (h : Nat) : (d.refreshWarm h).leadBusy = d.leadBusy := by simp [refreshWarm]

@[simp] theorem leadBusy_setCexMode (h m : Nat) : (d.setCexMode h m).leadBusy = d.leadBusy := by simp [setCexMode]

@[simp] theorem leadBusy_enterCatchup (h s : Nat) : (d.enterCatchup h s).leadBusy = d.leadBusy := by simp [enterCatchup]

@[simp] theorem leadBusy_boundary (h s : Nat) : (d.boundary h s).leadBusy = d.leadBusy := by simp [boundary]

@[simp] theorem leadBusy_refreshReady : d.refreshReady.leadBusy = d.leadBusy := by simp [refreshReady]

@[simp] theorem leadBusy_sendProgress (h set tag : Nat) (job : Option Nat) (pos : P48) :
    (d.sendProgress h set tag job pos).leadBusy = d.leadBusy := by
  unfold sendProgress
  refine leadBusy_foldl _ (fun e c => ?_) _
  dsimp only
  repeat' split
  all_goals simp

@[simp] theorem leadBusy_liveProgress (h : Nat) : (d.liveProgress h).leadBusy = d.leadBusy := by simp [liveProgress]

@[simp] theorem leadBusy_liveBand (h : Nat) (b : Band) : (d.liveBand h b).leadBusy = d.leadBusy := by simp [liveBand]

@[simp] theorem leadBusy_finishBand (h : Nat) : (d.finishBand h).leadBusy = d.leadBusy := by
  unfold finishBand
  dsimp only
  repeat' split
  all_goals simp

@[simp] theorem leadBusy_writeDir (h : Nat) : (d.writeDir h).leadBusy = d.leadBusy := by
  unfold writeDir
  dsimp only
  repeat' split
  all_goals simp

@[simp] theorem leadBusy_endStream (h : Nat) : (d.endStream h).leadBusy = d.leadBusy := by simp [endStream]

@[simp] theorem leadBusy_markEntry (h : Nat) : (d.markEntry h).leadBusy = d.leadBusy := by simp [markEntry]

@[simp] theorem leadBusy_leaveBand (h e : Nat) : (d.leaveBand h e).leadBusy = d.leadBusy := by
  unfold leaveBand
  dsimp only
  repeat' split
  all_goals simp

@[simp] theorem leadBusy_closeHead (h : Nat) : (d.closeHead h).leadBusy = d.leadBusy := by simp [closeHead]

/-! ### Seams and lines -/

@[simp] theorem leadBusy_putWaiting (h : Nat) (c : ChmLine) : (d.putWaiting h c).leadBusy = d.leadBusy := by simp [putWaiting]

@[simp] theorem leadBusy_seamMiss (h : Nat) : (d.seamMiss h).leadBusy = d.leadBusy := by simp [seamMiss]

@[simp] theorem leadBusy_trySeams (h : Nat) : (d.trySeams h).leadBusy = d.leadBusy := by
  unfold trySeams
  dsimp only
  repeat' split
  all_goals simp

@[simp] theorem leadBusy_setCatchupClaim (h : Nat) (s : Option Nat) : (d.setCatchupClaim h s).leadBusy = d.leadBusy := by
  simp [setCatchupClaim]

@[simp] theorem leadBusy_queueSkip (h : Nat) (first last : P48) : (d.queueSkip h first last).leadBusy = d.leadBusy := by
  simp [queueSkip]

@[simp] theorem leadBusy_skipCatchup (h : Nat) : (d.skipCatchup h).leadBusy = d.leadBusy := by
  unfold skipCatchup
  dsimp only
  repeat' split
  all_goals simp

@[simp] theorem leadBusy_loseClaims (h old : Nat) : (d.loseClaims h old).2.leadBusy = d.leadBusy := by
  refine leadBusy_foldl_by (·.2) (fun r i => ?_) (false, d) _
  dsimp only
  split
  · simp
  · rfl

@[simp] theorem leadBusy_markHit (h : Nat) : (d.markHit h).leadBusy = d.leadBusy := by simp [markHit]

@[simp] theorem leadBusy_moveHorizon (h s : Nat) (pos : P48) : (d.moveHorizon h s pos).leadBusy = d.leadBusy := by
  simp [moveHorizon]

@[simp] theorem leadBusy_readDir (cls h i : Nat) (seen : List Nat) (behind accept : Bool) :
    (d.readDir cls h i seen behind accept).2.2.leadBusy = d.leadBusy := by
  unfold readDir
  dsimp only
  repeat' split
  all_goals simp

@[simp] theorem leadBusy_entryFor (cls h s : Nat) (accept : Bool) :
    (d.entryFor cls h s accept).2.2.leadBusy = d.leadBusy := by
  simp [entryFor]

@[simp] theorem leadBusy_refreshHeld (h : Nat) : (d.refreshHeld h).leadBusy = d.leadBusy := by simp [refreshHeld]

@[simp] theorem leadBusy_openBand (h : Nat) (l : BandLine) : (d.openBand h l).leadBusy = d.leadBusy := by
  unfold openBand
  dsimp only
  repeat' split
  all_goals simp

@[simp] theorem leadBusy_bandTake (h : Nat) (l : BandLine) : (d.bandTake h l).leadBusy = d.leadBusy := by
  unfold bandTake
  dsimp only
  repeat' split
  all_goals simp

@[simp] theorem leadBusy_deliverLine (h : Nat) (c : ChmLine) : (d.deliverLine h c).leadBusy = d.leadBusy := by
  simp [deliverLine]

@[simp] theorem leadBusy_drainSeams (h : Nat) (n : Nat) : (drainSeams h n d).leadBusy = d.leadBusy := by
  induction n generalizing d with
  | zero => rfl
  | succ n ih =>
    unfold drainSeams
    dsimp only
    repeat' split
    all_goals simp [ih]

@[simp] theorem leadBusy_settleSeams (h : Nat) : (d.settleSeams h).leadBusy = d.leadBusy := by simp [settleSeams]

@[simp] theorem leadBusy_leaveRun (h : Nat) : (d.leaveRun h).leadBusy = d.leadBusy := by simp [leaveRun]

@[simp] theorem leadBusy_enterRun (h : Nat) : (d.enterRun h).leadBusy = d.leadBusy := by simp [enterRun]

@[simp] theorem leadBusy_followHeads (d0 : Dev) : (followHeads d0 d).leadBusy = d.leadBusy := by simp [followHeads]

/-! ### Heads and links -/

@[simp] theorem leadBusy_headCfgErr (h : Nat) : (d.headCfgErr h).leadBusy = d.leadBusy := by simp [headCfgErr]

@[simp] theorem leadBusy_chmCfgErr (h : Nat) : (d.chmCfgErr h).leadBusy = d.leadBusy := by simp [chmCfgErr]

@[simp] theorem leadBusy_sramPoison (a : Nat) : (d.sramPoison a).leadBusy = d.leadBusy := by simp [sramPoison]

@[simp] theorem leadBusy_stageWord (p i : Nat) (w : Word) (bad : Bool) : (d.stageWord p i w bad).leadBusy = d.leadBusy := by
  unfold stageWord
  repeat' split
  all_goals simp

@[simp] theorem leadBusy_modOpen (h : Nat) (f : StgLine → StgLine) : (d.modOpen h f).leadBusy = d.leadBusy := by
  simp [modOpen]

@[simp] theorem leadBusy_modOpens (h : Nat) (f : StgLine → StgLine) : (d.modOpens h f).leadBusy = d.leadBusy := by
  simp [modOpens]

@[simp] theorem leadBusy_flushWord (h : Nat) (c : CurLine) : (d.flushWord h c).leadBusy = d.leadBusy := by simp [flushWord]

@[simp] theorem leadBusy_endLine (h cause : Nat) : (d.endLine h cause).leadBusy = d.leadBusy := by
  unfold endLine
  dsimp only
  repeat' split
  all_goals simp

@[simp] theorem leadBusy_takeLater (h : Nat) : (d.takeLater h).leadBusy = d.leadBusy := by
  unfold takeLater
  dsimp only
  repeat' split
  all_goals simp

@[simp] theorem leadBusy_endControl (h : Nat) (r : CtrlResp) : (d.endControl h r).leadBusy = d.leadBusy := by
  simp [endControl]

@[simp] theorem leadBusy_setHeadState (h : Nat) (st : HeadState) : (d.setHeadState h st).leadBusy = d.leadBusy := by
  simp [setHeadState]

@[simp] theorem leadBusy_placeRing (h k q : Nat) : (d.placeRing h k q).leadBusy = d.leadBusy := by simp [placeRing]

@[simp] theorem leadBusy_lateRing (h : Nat) : (d.lateRing h).leadBusy = d.leadBusy := by simp [lateRing]

@[simp] theorem leadBusy_checkSeam (h : Nat) : (d.checkSeam h).leadBusy = d.leadBusy := by simp [checkSeam]

@[simp] theorem leadBusy_refreshStgFree : d.refreshStgFree.leadBusy = d.leadBusy := by simp [refreshStgFree]

@[simp] theorem leadBusy_linkEvent (l : Nat) : (d.linkEvent l).leadBusy = d.leadBusy := by simp [linkEvent]

@[simp] theorem leadBusy_setLinkState (l st : Nat) : (d.setLinkState l st).leadBusy = d.leadBusy := by simp [setLinkState]

@[simp] theorem leadBusy_startLinking (h : Nat) : (d.startLinking h).leadBusy = d.leadBusy := by simp [startLinking]

@[simp] theorem leadBusy_setHeadCause (h c : Nat) : (d.setHeadCause h c).leadBusy = d.leadBusy := by simp [setHeadCause]

@[simp] theorem leadBusy_enableHead (h : Nat) : (d.enableHead h).leadBusy = d.leadBusy := by simp [enableHead]

@[simp] theorem leadBusy_disableHead (h : Nat) : (d.disableHead h).leadBusy = d.leadBusy := by simp [disableHead]

@[simp] theorem leadBusy_headEnable (h : Nat) (en : Bool) : (d.headEnable h en).leadBusy = d.leadBusy := by simp [headEnable]

@[simp] theorem leadBusy_headLinked (h : Nat) : (d.headLinked h).leadBusy = d.leadBusy := by simp [headLinked]

@[simp] theorem leadBusy_tryLinked (h : Nat) : (d.tryLinked h).leadBusy = d.leadBusy := by simp [tryLinked]

@[simp] theorem leadBusy_cxpLinkChangeOp (l : Nat) (up : Bool) : (cxpLinkChangeOp l up d).leadBusy = d.leadBusy := by
  unfold cxpLinkChangeOp
  dsimp only
  repeat' split
  all_goals simp

@[simp] theorem leadBusy_setPcxState (l st : Nat) : (d.setPcxState l st).leadBusy = d.leadBusy := by simp [setPcxState]

@[simp] theorem leadBusy_pcxStart (l : Nat) : (d.pcxStart l).leadBusy = d.leadBusy := by simp [pcxStart]

@[simp] theorem leadBusy_pcxEnableOp (l : Nat) : (pcxEnableOp l d).leadBusy = d.leadBusy := by simp [pcxEnableOp]

@[simp] theorem leadBusy_pcxDisable (l : Nat) : (pcxDisable l d).leadBusy = d.leadBusy := by simp [pcxDisable]

@[simp] theorem leadBusy_pcxRetryOp (l : Nat) : (pcxRetryOp l d).leadBusy = d.leadBusy := by simp [pcxRetryOp]

@[simp] theorem leadBusy_writeLinkCfg (l : Nat) (w : Word) : (d.writeLinkCfg l w).leadBusy = d.leadBusy := by
  simp [writeLinkCfg]

@[simp] theorem leadBusy_applyEnable (key v : Nat) : (d.applyEnable key v).2.leadBusy = d.leadBusy := by
  unfold applyEnable
  dsimp only
  repeat' split
  all_goals simp

@[simp] theorem leadBusy_applyEnables (es : List (Nat × List Byte)) : (d.applyEnables es).leadBusy = d.leadBusy := by
  simp [applyEnables]

/-! ### The entries of a wave -/

@[simp] theorem leadBusy_wrAt (r : Reg) (i : Nat) (t : Word) (v : Word) : (d.wrAt r i t v).leadBusy = d.leadBusy := by
  simp [wrAt]

@[simp] theorem leadBusy_writeMap : d.writeMap.leadBusy = d.leadBusy := by simp [writeMap]

@[simp] theorem leadBusy_mapEntry (t : Word) (bs : List Byte) : (mapEntry t bs d).leadBusy = d.leadBusy := by simp [mapEntry]

@[simp] theorem leadBusy_fallBack (a : Nat) : (d.fallBack a).leadBusy = d.leadBusy := by simp [fallBack]

@[simp] theorem leadBusy_enterCoast (a : Nat) (sel : TrackerSel) (c : Nat) :
    (d.enterCoast a sel c).leadBusy = d.leadBusy := by
  simp [enterCoast]

@[simp] theorem leadBusy_encFaultRises (n : Nat) : (d.encFaultRises n).leadBusy = d.leadBusy := by simp [encFaultRises]

@[simp] theorem leadBusy_refreshEncFault (n : Nat) : (d.refreshEncFault n).leadBusy = d.leadBusy := by simp [refreshEncFault]

@[simp] theorem leadBusy_fioEncCfgWriteOp (n : Nat) (v : Word) : (fioEncCfgWriteOp n v d).leadBusy = d.leadBusy := by
  simp [fioEncCfgWriteOp]

@[simp] theorem leadBusy_refreshOutputs (x : Nat) : (d.refreshOutputs x).leadBusy = d.leadBusy := by simp [refreshOutputs]

@[simp] theorem leadBusy_applyOutEn (x : Nat) : (d.applyOutEn x).leadBusy = d.leadBusy := by simp [applyOutEn]

@[simp] theorem leadBusy_rereadAxis (old : Nat → Tracker) (a : Nat) : (rereadAxis old d a).leadBusy = d.leadBusy := by
  unfold rereadAxis
  dsimp only
  repeat' split
  all_goals simp

@[simp] theorem leadBusy_reread {f : Dev → Dev} (hf : ∀ e, (f e).leadBusy = e.leadBusy) :
    (reread f d).leadBusy = d.leadBusy := by
  simp [reread, hf]

@[simp] theorem leadBusy_takeHerdRole : d.takeHerdRole.leadBusy = d.leadBusy := by simp [takeHerdRole]

@[simp] theorem leadBusy_refreshHerdRole : d.refreshHerdRole.leadBusy = d.leadBusy := leadBusy_reread d leadBusy_takeHerdRole

theorem leadBusy_of_laterEntry {d t : Dev} {e : Nat × List Byte} (h : d.laterEntry e = some t) : t.leadBusy = d.leadBusy := by
  unfold laterEntry at h
  split at h
  · dsimp only at h
    rw [Option.ite_none_right_eq_some] at h
    obtain ⟨-, h⟩ := h
    rw [← Option.some.inj h]
    simp
  · cases h

@[simp] theorem leadBusy_applySetting (t : Word) (e : Nat × List Byte) : (applySetting t d e).leadBusy = d.leadBusy := by
  unfold applySetting
  split
  · next h => exact leadBusy_of_laterEntry h
  · repeat' split
    all_goals simp

@[simp] theorem leadBusy_regridGen (g : Nat) : (d.regridGen g).leadBusy = d.leadBusy := by simp [regridGen]

@[simp] theorem leadBusy_regridLater (g : Nat) : (d.regridLater g).leadBusy = d.leadBusy := by simp [regridLater]

@[simp] theorem leadBusy_axisCfgErr (a : Nat) : (d.axisCfgErr a).leadBusy = d.leadBusy := by simp [axisCfgErr]

@[simp] theorem leadBusy_refusalOf (index : Nat) : (d.refusalOf index).leadBusy = d.leadBusy := by
  unfold refusalOf
  repeat' split
  all_goals simp

/-! ### Graze -/

@[simp] theorem leadBusy_swapBanks : d.swapBanks.leadBusy = d.leadBusy := by simp [swapBanks]

@[simp] theorem leadBusy_swapErr : d.swapErr.leadBusy = d.leadBusy := by simp [swapErr]

@[simp] theorem leadBusy_requestSwap : d.requestSwap.leadBusy = d.leadBusy := by simp [requestSwap]

@[simp] theorem leadBusy_loadBank (quotas : List Nat) (slots : List Word) :
    (d.loadBank quotas slots).leadBusy = d.leadBusy := by
  simp [loadBank]

/-! ### A layout of the rings -/

@[simp] theorem leadBusy_dropJobClaims (j : Nat) : (d.dropJobClaims j).leadBusy = d.leadBusy := by simp [dropJobClaims]

@[simp] theorem leadBusy_endJob (j st sub : Nat) : (d.endJob j st sub).leadBusy = d.leadBusy := by simp [endJob]

@[simp] theorem leadBusy_abortJob (j : Nat) : (d.abortJob j).leadBusy = d.leadBusy := by simp [abortJob]

@[simp] theorem leadBusy_catchupLayout (h : Nat) (last first : P48) (gone : Bool) :
    (d.catchupLayout h last first gone).leadBusy = d.leadBusy := by
  simp [catchupLayout]

@[simp] theorem leadBusy_freeRefs (table : List (List Word)) : (d.freeRefs table).leadBusy = d.leadBusy := by simp [freeRefs]

@[simp] theorem leadBusy_blankDirs : d.blankDirs.leadBusy = d.leadBusy := by simp [blankDirs]

@[simp] theorem leadBusy_layoutRings : d.layoutRings.leadBusy = d.leadBusy := by
  unfold layoutRings
  dsimp only
  rw [leadBusy_raise, leadBusy_wrB, leadBusy_wrapF, leadBusy_blankDirs, leadBusy_mk, isSome_commit, leadBusy_wr, leadBusy_wr]
  rw [leadBusy_foldl_by (Prod.fst : Dev × Nat → Dev)]
  · split <;> simp
  · intro r h
    rw [apply_ite Prod.fst, leadBusy_ite, leadBusy_placeRing, leadBusy_placeRing, ite_self]

@[simp] theorem leadBusy_relayEntries (h : Nat) : (d.relayEntries h).leadBusy = d.leadBusy := by simp [relayEntries]

@[simp] theorem leadBusy_fullLayout : d.fullLayout.leadBusy = d.leadBusy := by
  unfold fullLayout
  dsimp only
  repeat' split
  all_goals simp

/-! ### The wave -/

@[simp] theorem leadBusy_applySettings (es ens : List (Nat × List Byte)) (t : Word) (lastGraze : Bool) :
    (d.applySettings es ens t lastGraze).leadBusy = d.leadBusy := by
  simp [applySettings]

@[simp] theorem leadBusy_applyEntries (es : List (Nat × List Byte)) (t : Word) (lastGraze : Bool) :
    (d.applyEntries es t lastGraze).leadBusy = d.leadBusy := by
  simp [applyEntries]

@[simp] theorem leadBusy_applyWaveAt (w : Nat) (t : Word) : (d.applyWaveAt w t).leadBusy = d.leadBusy := by simp [applyWaveAt]

end Machine.Dev

end Sys2Proof
end
section
/-! PROOF. O17: herd commits (R97, R100–R102, R104, R105, R108, R112). -/

namespace Sys2Proof

open Machine

variable {s : State} {r : Arrival}

/-! ### What a command runs -/

theorem exec_commitReq_arrived {m : CommitReq} (hm : m.requester < 1024) (h : Arrives r [2] s) :
    exec (.commitReq ⟨r, m⟩) s = .next { s with dev := commitReqOp m s.dev } := by
  change s.runWf (decide (m.requester < 1024)) (fun d => d.arrive r [2] (commitReqOp m)) = _
  rw [decide_eq_true hm, State.runWf_true, State.run_arrived h]

theorem exec_commitDone_arrived {m : CommitDone} (hm : m.requester < 1024) (h : Arrives r [2] s) :
    exec (.commitDone ⟨r, m⟩) s = .next { s with dev := commitDoneOp m s.dev } := by
  change s.runWf (decide (m.requester < 1024)) (fun d => d.arrive r [2] (commitDoneOp m)) = _
  rw [decide_eq_true hm, State.runWf_true, State.run_arrived h]

theorem exec_vote_arrived {m : VoteMsg} (h : Arrives r [2] s) :
    exec (.vote r m) s = .next { s with dev := voteOp r.port.val m s.dev } := State.run_arrived h _

/-- Where a message arrives the herd link is on. -/
theorem Arrives.hlkOn {l : List Nat} (h : Arrives r l s) : s.dev.hlkOn = true := by
  obtain ⟨-, hl, -⟩ := h
  rw [Dev.portLive, Bool.and_eq_true] at hl
  exact hl.1

/-! ### Changes of one part -/

/-- The votes in hand replaced. -/
def Machine.Dev.setVotes (d : Dev) (v : VoteRun) : Dev := { d with hlk := { d.hlk with votes := some v } }

theorem only_hlk (s : State) (x : HlkState) : Only [.hlk] s { s with dev := { s.dev with hlk := x } } :=
  ((Within.refl (plainFoot [.hlk] []) s.dev).withHlk (by simp [plainFoot]) x).only

theorem only_sendPort (s : State) (p : Nat) (m : HlkMsg) : Only [.outbox] s { s with dev := s.dev.sendPort p m } :=
  ((Within.refl (plainFoot [.outbox] []) s.dev).sendPort (by simp [plainFoot]) p m).only

theorem only_hlk_sendPort (s : State) (x : HlkState) (p : Nat) (m : HlkMsg) :
    Only [.hlk, .outbox] s { s with dev := ({ s.dev with hlk := x } : Dev).sendPort p m } :=
  (((Within.refl (plainFoot [.hlk, .outbox] []) s.dev).withHlk (by simp [plainFoot]) x).sendPort (by simp [plainFoot]) p m).only

theorem Within.withCommit {F : Foot} {d₀ d : Dev} (h : Within F d₀ d) (hp : Part.commit ∈ F.parts) (x : CommitState) :
    Within F d₀ { d with commit := x } :=
  h.step (fun p hq => by cases p with | commit => exact absurd hp hq | _ => rfl) (fun _ _ => rfl) rfl

theorem Within.setVotes {F : Foot} {d₀ d : Dev} (h : Within F d₀ d) (hp : Part.hlk ∈ F.parts) (v : VoteRun) :
    Within F d₀ (d.setVotes v) := h.withHlk hp _

/-- The requester's record of a commit changes and DICT_COMMIT is raised. -/
theorem raise_withCommit_reach (s : State) (x : CommitState) :
    let t : State := { s with dev := ({ s.dev with commit := x } : Dev).raise 800 }
    t.dev.commit = x ∧ Only [.commit, .evc, .wev] s t :=
  ⟨by simp, (((Within.refl (plainFoot [.commit, .evc, .wev] []) s.dev).withCommit (by simp [plainFoot]) x).raise
    (by simp [plainFoot]) 800).only⟩

/-! ### COMMIT_DONE (R108, R112) -/

section
variable {d : Dev} (hon : d.hlkOn = true)
include hon

/-- At its requester COMMIT_DONE ends the commit that runs. -/
theorem commitDoneOp_own {m : CommitDone} (hown : m.requester = d.devNum) (hrun : d.commit.state = 1) :
    commitDoneOp m d =
      ({ d with commit := { d.commit with state := 2, status := m.status.toNat, sub := m.sub.toNat, epoch := m.epoch,
                                          pos := m.pos, waves := m.waves } } : Dev).raise 800 := by
  simp [commitDoneOp, hon, hown, Dev.commitEnds, hrun]

/-- Any other device routes it on. -/
theorem commitDoneOp_routed {m : CommitDone} {q : Nat} (hother : m.requester ≠ d.devNum)
    (hq : d.routeUp m.requester false = some q) : commitDoneOp m d = d.sendPort q (.commitDone m) := by
  simp [commitDoneOp, hon, hother, hq]

/-! ### COMMIT_REQ (R97, R112) -/

theorem commitReqOp_taken {m : CommitReq} (hlead : d.isLead = true) (hnone : d.hlk.commit = none) :
    commitReqOp m d = d.leadTake m := by
  simp [commitReqOp, hon, hlead, hnone]

theorem commitReqOp_held {m : CommitReq} {c : LeadCommit} (hlead : d.isLead = true) (hc : d.hlk.commit = some c)
    (hnone : d.hlk.held = none) : commitReqOp m d = { d with hlk := { d.hlk with held := some m } } := by
  simp [commitReqOp, hon, hlead, hc, hnone]

theorem commitReqOp_refused {m h : CommitReq} {c : LeadCommit} (hlead : d.isLead = true) (hc : d.hlk.commit = some c)
    (hh : d.hlk.held = some h) : commitReqOp m d = commitDoneOp ⟨m.requester, m.tag, 0, 0x38, 0x33, 0, 0, 0⟩ d := by
  simp [commitReqOp, hon, hlead, hc, hh]

theorem commitReqOp_up {m : CommitReq} (hlead : d.isLead = false) (hup : d.portState d.upPort = 2) :
    commitReqOp m d = d.sendPort d.upPort (.commitReq m) := by
  simp [commitReqOp, hon, hlead, hup]

theorem commitReqOp_lost {m : CommitReq} (hlead : d.isLead = false) (hup : d.portState d.upPort ≠ 2)
    (hown : m.requester = d.devNum) (hrun : d.commit.state = 1) :
    commitReqOp m d = ({ d with commit := { d.commit with state := 2, status := 0x30, sub := 0 } } : Dev).raise 800 := by
  simp [commitReqOp, hon, hlead, hup, Dev.commitLost, hown, Dev.commitLinkDown, hrun]

/-! ### Votes (R101, R102) -/

/-- A vote that is awaited joins the others. -/
theorem voteOp_awaited {m : VoteMsg} {v : VoteRun} {p : Nat} (hv : d.hlk.votes = some v) (he : v.acc.epoch = m.epoch)
    (hp : v.waiting.contains p = true) :
    voteOp p m d = (d.setVotes { v with acc := joinVotes v.acc m, waiting := v.waiting.filter (fun q => q ≠ p) }).sendVote := by
  simp only [voteOp, hv, hon, he, hp, decide_true, Bool.and_self, if_true, Dev.setVotes]

end

/-- Of another epoch, or from a port that is not awaited, it is nothing. -/
theorem voteOp_stray {d : Dev} {m : VoteMsg} {p : Nat}
    (h : ∀ v ∈ d.hlk.votes, v.acc.epoch ≠ m.epoch ∨ v.waiting.contains p = false) : voteOp p m d = d := by
  unfold voteOp
  split
  · next v hv =>
    rcases h v hv with he | hp
    · simp [he]
    · simp only [hp, Bool.and_false]; rfl
  · rfl

section
variable {d : Dev} {v : VoteMsg} {c : LeadCommit} (hc : d.hlk.commit = some c) (hp : c.phase = .prepare)
include hc hp

/-- With no refusal the lead arms the commit, to as many waves as the largest set needs. -/
theorem leadDecide_arms (hr : v.refuser = none) :
    d.leadDecide v = d.setLead (some { c with phase := .armed, lastWave := min 15 ((v.largest + 255) / 256 - 1) }) := by
  simp [Dev.leadDecide, hc, hp, hr]

/-- With one the lead cancels it. -/
theorem leadDecide_cancels {n : Nat} {code : BitVec 8} (hr : v.refuser = some (n, code)) :
    d.leadDecide v = d.setLead (some { c with phase := .cancel 4, status := code, sub := 0 }) := by
  simp [Dev.leadDecide, hc, hp, hr, Dev.leadCancel]

end

/-- The lead's decision changes its commit alone. -/
theorem Machine.Dev.leadDecide_setLead (d : Dev) (v : VoteMsg) : ∃ c, d.leadDecide v = d.setLead c := by
  unfold Dev.leadDecide
  repeat' split
  · exact ⟨_, rfl⟩
  · exact ⟨_, rfl⟩
  all_goals exact ⟨d.hlk.commit, rfl⟩

section
variable {d : Dev} {v : VoteRun} (hv : d.hlk.votes = some v)
include hv

/-- A vote waits for the rest. -/
theorem sendVote_waits (hw : v.waiting ≠ []) : d.sendVote = d := by
  simp [Dev.sendVote, hv, hw]

section
variable (hw : v.waiting = []) (hs : v.sent = false)
include hw hs

/-- With every vote in the lead decides, and a follower sends them up where its upstream is there. -/
theorem sendVote_all :
    d.sendVote = if d.isLead then (d.setVotes { v with sent := true }).leadDecide v.acc
      else if d.portState d.upPort = 2 then (d.setVotes { v with sent := true }).sendPort d.upPort (.vote v.acc)
      else d.setVotes { v with sent := true } := by
  simp only [Dev.sendVote, hv, hw, hs, decide_true, Bool.not_false, Bool.and_self, if_true]
  rfl

/-- With every vote in, a follower sends them up. -/
theorem sendVote_up (hlead : d.isLead = false) (hup : d.portState d.upPort = 2) :
    d.sendVote = (d.setVotes { v with sent := true }).sendPort d.upPort (.vote v.acc) := by
  rw [sendVote_all hv hw hs, if_neg (by rw [hlead]; decide), if_pos hup]

/-- With every vote in, the lead decides. -/
theorem sendVote_lead (hlead : d.isLead = true) :
    d.sendVote = (d.setVotes { v with sent := true }).leadDecide v.acc := by
  rw [sendVote_all hv hw hs, if_pos hlead]

end

/-- Whatever the votes in hand lead to, they stand but for having been sent, and beside the herd only what leaves changes. -/
theorem sendVote_reach {s : State} (h : Within (plainFoot [.hlk, .outbox] []) s.dev d) :
    (∃ b, d.sendVote.hlk.votes = some { v with sent := b }) ∧ Within (plainFoot [.hlk, .outbox] []) s.dev d.sendVote := by
  have hsent : Within (plainFoot [.hlk, .outbox] []) s.dev (d.setVotes { v with sent := true }) :=
    h.setVotes (by simp [plainFoot]) _
  by_cases hall : v.waiting = [] ∧ v.sent = false
  · rw [sendVote_all hv hall.1 hall.2]
    split
    · obtain ⟨c, hc⟩ := (d.setVotes { v with sent := true }).leadDecide_setLead v.acc
      rw [hc]
      exact ⟨⟨true, rfl⟩, hsent.withHlk (by simp [plainFoot]) _⟩
    · split
      · exact ⟨⟨true, rfl⟩, hsent.sendPort (by simp [plainFoot]) _ _⟩
      · exact ⟨⟨true, rfl⟩, hsent⟩
  · have hop : d.sendVote = d := by
      simp only [Dev.sendVote, hv]
      exact if_neg (by simpa using hall)
    rw [hop]
    exact ⟨⟨v.sent, hv⟩, h⟩

end

/-! ### Waves (R105, R108) -/

/-- The own set of a commit ends, applied, with the position it was applied at. -/
def Machine.Dev.endSet (d : Dev) (epoch : BitVec 16) (p : Word) : Dev :=
  let d := ({ d with dict := { d.dict with pending := [] } } : Dev).releaseFrozen
  let d := (d.wrF .hlkCommitStat 0 31 16 epoch.toNat).wrF .hlkCommitStat 0 15 8 0
  ((d.wr .hlkApplyPos 0 p).raise 435).refreshSet

/-- The last wave ends it with the position of the apply beat, where that has come. -/
theorem lastWaveDone_eq_endSet (d : Dev) (f : FrozenCommit) :
    ∃ (e : Dev) (p : Word), d.lastWaveDone f = e.endSet f.epoch p ∧ (∀ x ∈ f.pos, p = x) ∧ e.leadBusy = d.leadBusy := by
  cases hp : f.pos with
  | some x => exact ⟨d, x, by simp only [Dev.lastWaveDone, hp, Dev.endSet], by simp, rfl⟩
  | none => exact ⟨d.free.2, wordOf d.free.1, by simp only [Dev.lastWaveDone, hp, Dev.endSet], by simp, d.leadBusy_free⟩

/-- A set that ended is released and empty, and the epoch applied is its own. -/
theorem endSet_reach (d : Dev) (epoch : BitVec 16) (p : Word) :
    (d.endSet epoch p).hlk.frozen = none ∧ (d.endSet epoch p).dict.pending = [] ∧
      (d.endSet epoch p).rdF .hlkCommitStat 0 31 16 = epoch.toNat ∧ (d.endSet epoch p).rdF .hlkCommitStat 0 15 8 = 0 ∧
      (d.endSet epoch p).rd .hlkApplyPos 0 = p ∧ (d.endSet epoch p).leadBusy = d.leadBusy := by
  have hstat : ∀ g : Dev, (g.wr .hlkApplyPos 0 p).rd .hlkCommitStat 0 = g.rd .hlkCommitStat 0 :=
    fun g => g.rd_wr_misses (by decide) 0 p
  have hlt := epoch.isLt
  refine ⟨?_, ?_, ?_, ?_, ?_, ?_⟩
  · simp [Dev.endSet, Dev.refreshSet, Dev.releaseFrozen, Dev.wrF, Dev.wrB]
  · simp [Dev.endSet, Dev.refreshSet, Dev.releaseFrozen, Dev.wrF, Dev.wrB]
  · simp only [Dev.endSet, Dev.refreshSet, Dev.rdF, Dev.wrF, Dev.setLevel_keeps, Dev.raise_keeps, hstat, Dev.rd_wr_same]
    rw [fld_setFld_disj _ _ (by omega), fld_setFld_same _ _ (by omega) (by omega)]
    omega
  · simp only [Dev.endSet, Dev.refreshSet, Dev.rdF, Dev.wrF, Dev.setLevel_keeps, Dev.raise_keeps, hstat, Dev.rd_wr_same]
    rw [fld_setFld_same _ _ (by omega) (by omega)]
    rfl
  · simp [Dev.endSet, Dev.refreshSet]
  · simp [Dev.endSet, Dev.refreshSet]

/-- What the requester is told leaves the herd's and the dictionary's state and the registers. -/
theorem commitDoneOp_keeps (m : CommitDone) (d : Dev) :
    (commitDoneOp m d).hlk = d.hlk ∧ (commitDoneOp m d).dict = d.dict ∧ (commitDoneOp m d).regs = d.regs := by
  unfold commitDoneOp Dev.commitEnds Dev.sendPort
  repeat' split
  all_goals simp [Dev.emit]

/-- The lead tells the requester where its last wave is due. -/
def Machine.Dev.tellDue (d : Dev) : Dev :=
  match d.leadDue with
  | some c => d.tellDone c
  | none => d

theorem tellDue_of_due {d : Dev} {c : LeadCommit} (h : d.leadDue = some c) : d.tellDue = d.tellDone c := by
  rw [Dev.tellDue, h]

theorem tellDue_of_none {d : Dev} (h : d.leadDue = none) : d.tellDue = d := by rw [Dev.tellDue, h]

/-- Without a commit of the lead nothing is due. -/
theorem leadDue_of_idle {d : Dev} (h : d.leadBusy = false) : d.leadDue = none := by
  simp only [Dev.leadBusy, Option.isSome_eq_false_iff, Option.isNone_iff_eq_none] at h
  simp only [Dev.leadDue, h]

/-- The lead that tells leaves the set, the dictionary and the epoch applied. -/
theorem tellDone_keeps (d : Dev) (c : LeadCommit) :
    (d.tellDone c).hlk = { d.hlk with commit := some { c with told := true } } ∧ (d.tellDone c).dict = d.dict ∧
      (d.tellDone c).rd .hlkCommitStat 0 = d.rd .hlkCommitStat 0 ∧ (d.tellDone c).rd .hlkApplyPos 0 = c.applyPos := by
  unfold Dev.tellDone
  dsimp only
  generalize (⟨c.req.requester, c.req.tag, c.epoch, c.status, c.sub, c.applySeq, c.applyPos, c.lastWave + 1⟩ : CommitDone) = m
  obtain ⟨hhlk, hdict, hregs⟩ :=
    commitDoneOp_keeps m ((d.setLead (some { c with told := true })).wr .hlkApplyPos 0 c.applyPos)
  refine ⟨hhlk, hdict, ?_, ?_⟩
  · rw [Dev.rd, hregs]
    exact Dev.rd_wr_misses _ (r := .hlkApplyPos) (by decide) 0 _
  · rw [Dev.rd, hregs]
    exact Dev.rd_wr_same ..

theorem tellDue_keeps (d : Dev) :
    d.tellDue.hlk.frozen = d.hlk.frozen ∧ d.tellDue.dict = d.dict ∧ d.tellDue.rd .hlkCommitStat 0 = d.rd .hlkCommitStat 0 := by
  cases h : d.leadDue with
  | none => rw [tellDue_of_none h]; exact ⟨rfl, rfl, rfl⟩
  | some c =>
    obtain ⟨hhlk, hdict, hstat, -⟩ := tellDone_keeps d c
    rw [tellDue_of_due h]
    exact ⟨by rw [hhlk], hdict, hstat⟩

section
variable {d : Dev} (hon : d.hlkOn = true) {f : FrozenCommit}

include hon in
/-- A wave whose instant has come is applied, and the lead tells what is due. -/
theorem waveApplyOp_due {u : Word} (hf : d.hlk.frozen = some f) (hu : f.start = some u)
    (hdue : atOrPast d.now (waveInstant u f.waves) = true) :
    waveApplyOp d = (d.nextWave f (waveInstant u f.waves)).tellDue := by
  simp only [waveApplyOp, hon, hf, hu, hdue, Bool.not_true, Bool.false_eq_true, if_false, if_true]
  rfl

include hon in
/-- Without a set frozen the lead tells what is due. -/
theorem waveApplyOp_none (hf : d.hlk.frozen = none) : waveApplyOp d = d.tellDue := by
  simp only [waveApplyOp, hon, hf, Bool.not_true, Bool.false_eq_true, if_false]
  rfl

/-- Before the instant of its next wave the set waits. -/
theorem waveApplyOp_waits (hdue : d.leadDue = none)
    (hf : d.hlk.frozen.all (fun f => f.start.all (fun u => !atOrPast d.now (waveInstant u f.waves))) = true) :
    waveApplyOp d = d := by
  unfold waveApplyOp
  split
  · rfl
  · cases hfr : d.hlk.frozen with
    | none => simp [hdue]
    | some f =>
      cases hu : f.start with
      | none => simp [hu, hdue]
      | some u =>
        simp only [hfr, hu, Option.all_some, Bool.not_eq_true'] at hf
        simp [hu, hf, hdue]

/-- A wave before the last leaves the set frozen at the next. -/
theorem nextWave_before_last (t : Word) (h : f.waves + 1 < d.ownWaves) :
    d.nextWave f t = (d.applyWaveAt f.waves t).setFrozen { f with waves := f.waves + 1 } := by
  simp only [Dev.nextWave, if_neg (not_le.2 h)]

theorem nextWave_last (t : Word) (h : d.ownWaves ≤ f.waves + 1) :
    d.nextWave f t = ((d.applyWaveAt f.waves t).setFrozen { f with waves := f.waves + 1 }).lastWaveDone f := by
  simp only [Dev.nextWave, if_pos h]

end

theorem Within.commitDoneOp {F : Foot} {d₀ d : Dev} (h : Within F d₀ d) (hp : [Part.commit, .outbox, .evc, .wev] ⊆ F.parts)
    (m : CommitDone) : Within F d₀ (commitDoneOp m d) := by
  unfold Machine.commitDoneOp Dev.commitEnds
  repeat' split
  · exact h
  · exact (h.withCommit (hp (by decide)) _).raise (List.Subset.trans (by decide) hp) 800
  · exact h
  · exact h.sendPort (hp (by decide)) _ _
  · exact h

/-! ### The clauses -/

/-- A commit of the requester that is refused here ends here. -/
theorem commitReq_refused_own {m h : CommitReq} {c : LeadCommit} (ha : Arrives r [2] s) (hlead : s.dev.isLead = true)
    (hc : s.dev.hlk.commit = some c) (hh : s.dev.hlk.held = some h) (hown : m.requester = s.dev.devNum)
    (hrun : s.dev.commit.state = 1) :
    let t : State := { s with dev := commitReqOp m s.dev }
    t.dev.commit = { s.dev.commit with state := 2, status := 0x38, sub := 0x33, epoch := 0, pos := 0, waves := 0 } ∧
      Only [.commit, .evc, .wev] s t := by
  dsimp only
  rw [commitReqOp_refused ha.hlkOn hlead hc hh, commitDoneOp_own ha.hlkOn hown hrun]
  exact raise_withCommit_reach s _

section
variable {m : VoteMsg} {v : VoteRun} (ha : Arrives r [2] s) (hv : s.dev.hlk.votes = some v) (he : v.acc.epoch = m.epoch)
include ha hv he

/-- A vote that leaves others awaited is joined. -/
theorem vote_joins (hp : v.waiting.contains r.port.val = true) (hrest : v.waiting.filter (fun q => q ≠ r.port.val) ≠ []) :
    voteOp r.port m s.dev =
      s.dev.setVotes { v with acc := joinVotes v.acc m, waiting := v.waiting.filter (fun q => q ≠ r.port.val) } := by
  rw [voteOp_awaited ha.hlkOn hv he hp]
  exact sendVote_waits rfl hrest

section
variable (hw : v.waiting = [r.port.val]) (hs : v.sent = false)
include hw

/-- With the last vote none is awaited. -/
theorem voteOp_last :
    voteOp r.port m s.dev = (s.dev.setVotes { v with acc := joinVotes v.acc m, waiting := [] }).sendVote := by
  rw [voteOp_awaited ha.hlkOn hv he (by simp [hw])]
  simp [hw]

include hs

/-- The last vote makes a follower vote upstream. -/
theorem voteOp_up (hlead : s.dev.isLead = false) (hup : s.dev.portState s.dev.upPort = 2) :
    voteOp r.port m s.dev =
      (s.dev.setVotes { v with acc := joinVotes v.acc m, waiting := [], sent := true }).sendPort s.dev.upPort
        (.vote (joinVotes v.acc m)) := by
  rw [voteOp_last ha hv he hw]
  exact sendVote_up (v := { v with acc := joinVotes v.acc m, waiting := [] }) rfl rfl hs hlead hup

/-- The last vote makes the lead decide. -/
theorem voteOp_lead (hlead : s.dev.isLead = true) :
    voteOp r.port m s.dev =
      (s.dev.setVotes { v with acc := joinVotes v.acc m, waiting := [], sent := true }).leadDecide (joinVotes v.acc m) := by
  rw [voteOp_last ha hv he hw]
  exact sendVote_lead (v := { v with acc := joinVotes v.acc m, waiting := [] }) rfl rfl hs hlead

end

end

/-- What the range of a child votes that did not vote: HERD_TIMEOUT, by its lowest number (R101). -/
def rangeTimeout (epoch : BitVec 16) (ns : List Nat) : VoteMsg :=
  { epoch := epoch, voting := ns.length, abstain := 0, largest := 0, refuser := ns.head?.map (fun n => (n, 0x31)) }

theorem rangeTimeout_epoch (epoch : BitVec 16) (ns : List Nat) : (rangeTimeout epoch ns).epoch = epoch := rfl

/-- 48 beats after PREPARE it joins the other votes. -/
theorem childVoteTimeout_reach (p : Fin 4) (v : VoteRun) (s : State) (hv : s.dev.hlk.votes = some v) (hon : s.dev.hlkOn = true)
    (hp : v.waiting.contains p.val = true) (hlate : 48 ≤ s.dev.beatsSince v) :
    let t : State := { s with dev := childVoteTimeoutOp p s.dev }
    (∃ w ∈ t.dev.hlk.votes, w.waiting = v.waiting.filter (fun q => q ≠ p.val) ∧
        w.acc = joinVotes v.acc (rangeTimeout v.acc.epoch (s.dev.childNumbers p))) ∧
      Only [.hlk, .outbox] s t := by
  have hop : childVoteTimeoutOp p s.dev = voteOp p (rangeTimeout v.acc.epoch (s.dev.childNumbers p)) s.dev := by
    have hall : (s.dev.hlkOn && v.waiting.contains p.val && decide (48 ≤ s.dev.beatsSince v)) = true := by
      rw [hon, hp, decide_eq_true hlate]; rfl
    simp only [childVoteTimeoutOp, hv, if_pos hall, rangeTimeout]
  dsimp only
  rw [hop, voteOp_awaited (m := rangeTimeout v.acc.epoch (s.dev.childNumbers p)) hon hv (rangeTimeout_epoch ..).symm hp]
  obtain ⟨⟨b, hb⟩, hw⟩ := sendVote_reach (d := s.dev.setVotes _) rfl
    ((Within.refl (plainFoot [.hlk, .outbox] []) s.dev).setVotes (by simp [plainFoot]) _)
  exact ⟨⟨_, hb, rfl, rfl⟩, hw.only⟩

/-- The last wave of the own set. -/
theorem waveApply_last (f : FrozenCommit) (u : Word) (s : State) (hon : s.dev.hlkOn = true) (hf : s.dev.hlk.frozen = some f)
    (hu : f.start = some u) (hdue : atOrPast s.dev.now (waveInstant u f.waves) = true) (hlast : s.dev.ownWaves ≤ f.waves + 1) :
    let t : Dev := waveApplyOp s.dev
    t.hlk.frozen = none ∧ t.dict.pending = [] ∧ t.rdF .hlkCommitStat 0 31 16 = f.epoch.toNat ∧ t.rdF .hlkCommitStat 0 15 8 = 0 ∧
      (s.dev.hlk.commit = none → ∀ x ∈ f.pos, t.rd .hlkApplyPos 0 = x) := by
  set w := (s.dev.applyWaveAt f.waves (waveInstant u f.waves)).setFrozen { f with waves := f.waves + 1 } with hweq
  have hwbusy : w.leadBusy = s.dev.leadBusy := s.dev.leadBusy_applyWaveAt f.waves (waveInstant u f.waves)
  obtain ⟨e, p, hend, hpos, hbusy⟩ := lastWaveDone_eq_endSet w f
  obtain ⟨hfrozen, hpending, hepoch, hresult, hp, hebusy⟩ := endSet_reach e f.epoch p
  obtain ⟨hkfrozen, hkdict, hkstat⟩ := tellDue_keeps (e.endSet f.epoch p)
  dsimp only
  rw [waveApplyOp_due hon hf hu hdue, nextWave_last _ hlast, ← hweq, hend]
  refine ⟨hkfrozen.trans hfrozen, hkdict ▸ hpending, ?_, ?_, fun hnone x hx => ?_⟩
  · rw [Dev.rdF, hkstat]; exact hepoch
  · rw [Dev.rdF, hkstat]; exact hresult
  · have hidle : (e.endSet f.epoch p).leadBusy = false := by
      rw [hebusy, hbusy, hwbusy, Dev.leadBusy, hnone]; rfl
    rw [tellDue_of_none (leadDue_of_idle hidle), hp]
    exact hpos x hx

/-- The lead whose last wave is due tells the requester. -/
theorem waveApply_tells (c : LeadCommit) (s : State) (hon : s.dev.hlkOn = true) (hf : s.dev.hlk.frozen = none)
    (hdue : s.dev.leadDue = some c) :
    let t : State := { s with dev := waveApplyOp s.dev }
    t.dev.hlk.commit = some { c with told := true } ∧ t.dev.rd .hlkApplyPos 0 = c.applyPos ∧
      RegsOnly [regKey .hlkApplyPos 0] s t ∧ Only [.hlk, .regs, .commit, .outbox, .evc, .wev] s t := by
  obtain ⟨hhlk, -, -, hpos⟩ := tellDone_keeps s.dev c
  have hw : Within (plainFoot [.hlk, .regs, .commit, .outbox, .evc, .wev] [regKey .hlkApplyPos 0]) s.dev (s.dev.tellDone c) :=
    (((Within.refl _ s.dev).withHlk (by decide) _).wr (by decide) (by simp [plainFoot]) _).commitDoneOp (by decide) _
  dsimp only
  rw [waveApplyOp_none hon hf, tellDue_of_due hdue]
  exact ⟨by rw [hhlk], hpos, hw.regsOnly, hw.only⟩

/-- Settles O17: a request, a vote and a timeout are one branch each of their operations; a wave changes nothing of whether a
commit of the lead runs, so behind the last one the lead has none to tell of where it had none before. -/
theorem herdCommits : Obligations.HerdCommits := by
  unfold Obligations.HerdCommits
  refine ⟨?taken, ?held, ?refused, fun r m h c s hm ha hlead hc hh hown hrun =>
      ⟨_, exec_commitReq_arrived hm ha, commitReq_refused_own ha hlead hc hh hown hrun⟩, ?lost, ?up,
    fun r m s ha hstray => by rw [exec_vote_arrived ha, voteOp_stray hstray], ?joins, ?last, ?arms, ?cancels,
    fun p v s hp hv hon hw hlate => ⟨_, State.run_powered hp _, childVoteTimeout_reach p v s hv hon hw hlate⟩, ?late, ?limit,
    ?wave, ?lastWave, fun c s hp hon hf hdue => ⟨_, State.run_powered hp _, waveApply_tells c s hon hf hdue⟩, ?waits, ?done,
    ?routed⟩
  case taken =>
    intro r m s hm ha hlead hnone
    refine ⟨_, exec_commitReq_arrived hm ha, ?_⟩
    rw [commitReqOp_taken ha.hlkOn hlead hnone]
    exact ⟨rfl, rfl, only_hlk s _⟩
  case held =>
    intro r m c s hm ha hlead hc hnone
    refine ⟨_, exec_commitReq_arrived hm ha, ?_⟩
    rw [commitReqOp_held ha.hlkOn hlead hc hnone]
    exact ⟨rfl, hc, only_hlk s _⟩
  case refused =>
    intro r m h c q s hm ha hlead hc hh hother hq
    refine ⟨_, exec_commitReq_arrived hm ha, ?_⟩
    rw [commitReqOp_refused ha.hlkOn hlead hc hh, commitDoneOp_routed ha.hlkOn hother hq]
    exact ⟨rfl, only_sendPort s q _⟩
  case lost =>
    intro r m s hm ha hlead hup hown hrun
    refine ⟨_, exec_commitReq_arrived hm ha, ?_⟩
    rw [commitReqOp_lost ha.hlkOn hlead hup hown hrun]
    exact raise_withCommit_reach s _
  case up =>
    intro r m s hm ha hlead hup
    refine ⟨_, exec_commitReq_arrived hm ha, ?_⟩
    rw [commitReqOp_up ha.hlkOn hlead hup]
    exact ⟨rfl, only_sendPort s _ _⟩
  case joins =>
    intro r m v s hv ha he hp hrest
    refine ⟨_, exec_vote_arrived ha, ?_⟩
    rw [vote_joins ha hv he hp hrest]
    exact ⟨rfl, only_hlk s _⟩
  case last =>
    intro r m v s hv ha hlead he hw hs hup
    refine ⟨_, exec_vote_arrived ha, ?_⟩
    rw [voteOp_up ha hv he hw hs hlead hup]
    exact ⟨rfl, rfl, only_hlk_sendPort s _ _ _⟩
  case arms =>
    intro r m v c s hv ha hlead he hw hs hc hph hown hother
    refine ⟨_, exec_vote_arrived ha, ?_⟩
    have hnone : (joinVotes v.acc m).refuser = none := by simp [joinVotes, hown, hother, lowerRefuser]
    rw [voteOp_lead ha hv he hw hs hlead, leadDecide_arms (d := s.dev.setVotes _) hc hph hnone]
    exact ⟨rfl, only_hlk s _⟩
  case cancels =>
    intro r m v c n code s hv ha hlead he hw hs hc hph hr
    refine ⟨_, exec_vote_arrived ha, ?_⟩
    rw [voteOp_lead ha hv he hw hs hlead, leadDecide_cancels (d := s.dev.setVotes _) hc hph hr]
    exact ⟨rfl, only_hlk s _⟩
  case late =>
    intro v c s hp hv hc hon hlead hph hs hlate
    have hop : leadVoteTimeoutOp s.dev =
        (s.dev.setVotes { v with sent := true }).leadCancel c 0x31 0 := by
      simp [leadVoteTimeoutOp, hv, hc, hon, hlead, hph, hs, hlate, Dev.setVotes]
    refine ⟨_, State.run_powered hp _, ?_⟩
    rw [hop]
    exact ⟨rfl, only_hlk s _⟩
  case limit =>
    intro c u s hp hc hu hon hlead hph hnext hlate
    have hop : armLimitExpiryOp s.dev = s.dev.leadCancel c 0x38 0x36 := by
      simp [armLimitExpiryOp, hc, hu, hon, hlead, hph, hnext, hlate]
    refine ⟨_, State.run_powered hp _, ?_⟩
    rw [hop]
    exact ⟨rfl, only_hlk s _⟩
  case wave =>
    intro f u s hp hon hf hu hdue hmore
    refine ⟨_, State.run_powered hp _, rfl, ?_⟩
    rw [waveApplyOp_due hon hf hu hdue, nextWave_before_last _ hmore]
    rintro e rfl
    exact ⟨tellDue_of_none, fun c => tellDue_of_due⟩
  case lastWave =>
    intro f u s hp hon hf hu hdue hlast
    obtain ⟨hfrozen, hpending, hepoch, hresult, hpos⟩ := waveApply_last f u s hon hf hu hdue hlast
    exact ⟨_, State.run_powered hp _, hfrozen, hpending, hepoch, hresult, hpos, rfl⟩
  case waits =>
    intro s hp hdue hf
    exact (State.run_powered hp _).trans (by rw [waveApplyOp_waits hdue hf])
  case done =>
    intro r m s hm ha hown hrun
    refine ⟨_, exec_commitDone_arrived hm ha, ?_⟩
    rw [commitDoneOp_own ha.hlkOn hown hrun]
    exact raise_withCommit_reach s _
  case routed =>
    intro r m q s hm ha hother hq
    refine ⟨_, exec_commitDone_arrived hm ha, ?_⟩
    rw [commitDoneOp_routed ha.hlkOn hother hq]
    exact ⟨rfl, only_sendPort s q _⟩

end Sys2Proof
end

section
/-! PROOF SUPPORT. The links of camera ingest: what their registers read after they were written, and what the updates of a link may
reach. -/

namespace Sys2Proof

open Machine

namespace Machine.Dev

variable (d : Dev) (l : Nat)

@[simp] theorem link_setLink_same (x : CxiLink) : (d.setLink l x).link l = x := by simp [link, setLink]

@[simp] theorem rd_setLink (x : CxiLink) (r : Reg) (i : Nat) : (d.setLink l x).rd r i = d.rd r i := rfl

/-- A register written leaves PCX_STATE, unless it is STAT of a link. -/
theorem pcxState_wr_apart {r : Reg} (h : regApart r .cxiLklStat = true) (i : Nat) (v : Word) :
    (d.wr r i v).pcxState l = d.pcxState l := by
  simp only [pcxState, rdF, rd_wr_apart _ h]

/-! ### PCX_STATE -/

@[simp] theorem setPcxState_cxi (st : Nat) : (d.setPcxState l st).cxi = d.cxi := by
  unfold setPcxState
  split
  · rfl
  · simp [linkEvent, wrF]

@[simp] theorem link_setPcxState (k st : Nat) : (d.setPcxState l st).link k = d.link k := by simp only [link, setPcxState_cxi]

/-- PCX_STATE reads as it was set, changed or not. -/
theorem pcxState_setPcxState {st : Nat} (h : st < 16) : (d.setPcxState l st).pcxState l = st := by
  unfold setPcxState
  split
  · next he => exact he
  · have hw := (d.rdF_wrF_same .cxiLklStat l (hi := 11) (lo := 8) st (by omega) (by omega)).trans (Nat.mod_eq_of_lt h)
    simpa [pcxState, rdF, linkEvent] using hw

/-- PCX_STATE of a link leaves every register but STAT of the links. -/
theorem rd_setPcxState_apart {r : Reg} (h : regApart .cxiLklStat r = true) (st i : Nat) :
    (d.setPcxState l st).rd r i = d.rd r i := by
  unfold setPcxState
  split
  · rfl
  · simp only [linkEvent, raise_keeps, wrF, rd_wr_apart _ h]

/-- STATE of a link leaves PCX_STATE. -/
@[simp] theorem pcxState_setLinkState (k st : Nat) : (d.setLinkState k st).pcxState l = d.pcxState l := by
  unfold setLinkState
  split
  · rfl
  · have hw := d.rdF_wrF_disj (r := .cxiLklStat) (by decide) k l (hi := 2) (lo := 0) (hi' := 11) (lo' := 8) st (by omega)
    simpa [pcxState, rdF, linkEvent] using hw

@[simp] theorem setLinkState_cxi (k st : Nat) : (d.setLinkState k st).cxi = d.cxi := by
  unfold setLinkState
  split
  · rfl
  · simp [linkEvent, wrF]

/-! ### A supply that starts, fails and is measured (R136–R138) -/

theorem link_pcxStart : (d.pcxStart l).link l = { d.link l with pcxAt := d.now } := by simp [pcxStart]

theorem pcxState_pcxStart : (d.pcxStart l).pcxState l = 1 := pcxState_setPcxState _ _ (by omega)

theorem link_pcxFail (st : Nat) :
    (d.pcxFail l st).link l = { d.link l with pcxFails := (d.link l).pcxFails + 1, pcxFailAt := d.now } := by simp [pcxFail]

theorem pcxState_pcxFail {st : Nat} (h : st < 16) :
    (d.pcxFail l st).pcxState l = if 2 ≤ (d.link l).pcxFails then 6 else st := by
  have hthird : (3 ≤ (d.link l).pcxFails + 1) = (2 ≤ (d.link l).pcxFails) := by simp
  simp only [pcxFail, hthird]
  exact pcxState_setPcxState _ _ (by split <;> omega)

@[simp] theorem link_pcxSample (ma k : Nat) : (d.pcxSample l ma).link k = d.link k := rfl

@[simp] theorem pcxSample_now (ma : Nat) : (d.pcxSample l ma).now = d.now := rfl

@[simp] theorem pcxState_pcxSample (ma k : Nat) : (d.pcxSample l ma).pcxState k = d.pcxState k :=
  d.pcxState_wr_apart k (by decide) l _

/-- A sample leaves the limits. -/
@[simp] theorem rdF_pcxLim_pcxSample (ma k hi lo : Nat) :
    (d.pcxSample l ma).rdF .cxiLklPcxLim k hi lo = d.rdF .cxiLklPcxLim k hi lo := by
  simp only [pcxSample, rdF, rd_wr_apart _ (r := .cxiLklPcx) (r' := .cxiLklPcxLim) (by decide)]

/-- The current measured stands in the register, in 12 bits. -/
theorem rdF_pcx_pcxSample (ma : Nat) : (d.pcxSample l ma).rdF .cxiLklPcx l 11 0 = ma % 4096 := by
  rw [pcxSample, rdF, rd_wr_same, fld_setFld_disj _ _ (by omega)]
  exact fld_setFld_same _ _ (by omega) (by omega)

/-- A failure leaves the current measured. -/
theorem rdF_pcx_pcxFail (st k hi lo : Nat) : (d.pcxFail l st).rdF .cxiLklPcx k hi lo = d.rdF .cxiLklPcx k hi lo := by
  simp only [pcxFail, rdF, rd_setPcxState_apart _ _ (r := .cxiLklPcx) (by decide), rd_setLink]

end Machine.Dev

/-! ### Footprints -/

section
variable {F : Foot} {d₀ d : Dev} (h : Within F d₀ d)
include h

theorem Within.setLink (hp : Part.cxi ∈ F.parts) (l : Nat) (x : CxiLink) : Within F d₀ (d.setLink l x) := h.withCxi hp _

/-- A field of STAT of a link that is set where it differs, with the link's event. -/
theorem Within.linkStat (hp : [Part.regs, .evc, .wev] ⊆ F.parts) {l : Nat} (hk : F.regs (regKey .cxiLklStat l)) (hi lo v : Nat)
    (c : Prop) [Decidable c] : Within F d₀ (if c then d else (d.wrF .cxiLklStat l hi lo v).linkEvent l) := by
  split
  · exact h
  · exact (h.wrF (hp (by simp)) hk hi lo v).raise (List.Subset.trans (by decide) hp) _

end

/-- What the supervision of the supply of link l may reach, and registers of its own. -/
def linkFoot (l : Nat) (ks : List Nat) : Foot := plainFoot [.regs, .cxi, .evc, .wev] (ks ++ [regKey .cxiLklStat l])

section
variable {d₀ d : Dev} {l : Nat} {ks : List Nat} (h : Within (linkFoot l ks) d₀ d)
include h

theorem Within.linkRecord (k : Nat) (x : CxiLink) : Within (linkFoot l ks) d₀ (d.setLink k x) :=
  h.setLink (by simp [linkFoot, plainFoot]) k x

theorem Within.setPcxState (st : Nat) : Within (linkFoot l ks) d₀ (d.setPcxState l st) :=
  h.linkStat (by simp [linkFoot, plainFoot]) (by simp [linkFoot, plainFoot]) 11 8 st _

theorem Within.setLinkState (st : Nat) : Within (linkFoot l ks) d₀ (d.setLinkState l st) :=
  h.linkStat (by simp [linkFoot, plainFoot]) (by simp [linkFoot, plainFoot]) 2 0 st _

theorem Within.pcxStart : Within (linkFoot l ks) d₀ (d.pcxStart l) := (h.linkRecord l _).setPcxState 1

theorem Within.pcxFail (st : Nat) : Within (linkFoot l ks) d₀ (d.pcxFail l st) := (h.linkRecord l _).setPcxState _

theorem Within.pcxSample (hk : regKey .cxiLklPcx l ∈ ks) (ma : Nat) : Within (linkFoot l ks) d₀ (d.pcxSample l ma) :=
  h.wr (by simp [linkFoot, plainFoot]) (by simp [linkFoot, plainFoot, hk]) _

end

end Sys2Proof
end

section
/-! PROOF. O20: the supervision of a PoCXP supply (R136–R138). -/

namespace Sys2Proof

open Machine

/-! ### PCX_EN -/

/-- PCX_EN of a link in LOCKOUT is written and nothing else (R137). -/
theorem pcxEnable_lockout (l : Fin 64) (s : State) (hen : s.dev.rdB .cxiLklCfg l 1 = false) (hst : s.dev.pcxState l = 6) :
    let t : State := { s with dev := pcxEnableOp l s.dev }
    t.dev.rdB .cxiLklCfg l 1 = true ∧ t.dev.pcxState l = 6 ∧ RegsOnly [regKey .cxiLklCfg l] s t ∧ Only [.regs] s t := by
  have hstand : (s.dev.wrB .cxiLklCfg l 1 true).pcxState l = s.dev.pcxState l := s.dev.pcxState_wr_apart l (by decide) l _
  have hop : pcxEnableOp l s.dev = s.dev.wrB .cxiLklCfg l 1 true := by simp [pcxEnableOp, hen, hstand, hst]
  have hw := (Within.refl (plainFoot [.regs] [regKey .cxiLklCfg l]) s.dev).wrB (by simp [plainFoot]) (r := .cxiLklCfg) (i := l)
    (by simp [plainFoot]) 1 true
  dsimp only
  rw [hop]
  refine ⟨?_, hstand.trans hst, hw.regsOnly, hw.only⟩
  rw [Dev.rdB, Dev.wrB, Dev.rd_wr_same]
  exact bit_setBit_same _ _ (by omega)

/-- In any other state supervision starts. -/
theorem pcxEnable_starts (l : Fin 64) (s : State) (hen : s.dev.rdB .cxiLklCfg l 1 = false) (hst : s.dev.pcxState l ≠ 6) :
    let t : State := { s with dev := pcxEnableOp l s.dev }
    t.dev.rdB .cxiLklCfg l 1 = true ∧ t.dev.pcxState l = 1 ∧ (t.dev.link l).pcxFails = 0 ∧ (t.dev.link l).pcxAt = s.dev.now ∧
      RegsOnly [regKey .cxiLklCfg l, regKey .cxiLklStat l] s t ∧ Only [.regs, .cxi, .evc, .wev] s t := by
  set e := s.dev.wrB .cxiLklCfg l 1 true with he
  have hstand : e.pcxState l = s.dev.pcxState l := s.dev.pcxState_wr_apart l (by decide) l _
  have hop : pcxEnableOp l s.dev = (e.setLink l { e.link l with pcxFails := 0 }).pcxStart l := by
    simp [pcxEnableOp, hen, ← he, hstand, hst]
  have hw := (((Within.refl (linkFoot l [regKey .cxiLklCfg l]) s.dev).wrB (by simp [linkFoot, plainFoot]) (r := .cxiLklCfg) (i := l)
    (by simp [linkFoot, plainFoot]) 1 true).linkRecord l { e.link l with pcxFails := 0 }).pcxStart
  dsimp only
  rw [hop]
  refine ⟨?_, Dev.pcxState_pcxStart _ _, ?_, ?_, hw.regsOnly, hw.only⟩
  · simp only [Dev.pcxStart, Dev.rdB, Dev.rd_setPcxState_apart _ _ (r := .cxiLklCfg) (by decide), Dev.rd_setLink, he, Dev.wrB,
      Dev.rd_wr_same]
    exact bit_setBit_same _ _ (by omega)
  · simp [Dev.link_pcxStart]
  · simp [Dev.link_pcxStart, he, Dev.wrB]

/-! ### Failures (R136 steps 2 to 4 and 6, R137, R138) -/

/-- What a failure of the supply leaves that a measured current brings. -/
theorem pcxFail_reach (l : Fin 64) (ma : Nat) {st : Nat} (hst : st < 16) (s : State) :
    let t : State := { s with dev := (s.dev.pcxSample l ma).pcxFail l st }
    t.dev.pcxState l = (if 2 ≤ (s.dev.link l).pcxFails then 6 else st) ∧
      (t.dev.link l).pcxFails = (s.dev.link l).pcxFails + 1 ∧ (t.dev.link l).pcxFailAt = s.dev.now ∧
      t.dev.rdF .cxiLklPcx l 11 0 = ma % 4096 ∧
      RegsOnly [regKey .cxiLklPcx l, regKey .cxiLklStat l] s t ∧ Only [.regs, .cxi, .evc, .wev] s t := by
  have hw := ((Within.refl (linkFoot l [regKey .cxiLklPcx l]) s.dev).pcxSample (by simp) ma).pcxFail st
  refine ⟨?_, ?_, ?_, ?_, hw.regsOnly, hw.only⟩
  · exact Dev.pcxState_pcxFail _ _ hst
  · exact congrArg CxiLink.pcxFails (Dev.link_pcxFail ..)
  · exact congrArg CxiLink.pcxFailAt (Dev.link_pcxFail ..)
  · exact (Dev.rdF_pcx_pcxFail ..).trans (Dev.rdF_pcx_pcxSample ..)

/-- SHORT in the inrush window. -/
theorem pcxShortOp_short (l : Fin 64) (ma : Nat) (fltLow held : Bool) {d : Dev} (hst : d.pcxState l = 1)
    (hin : elapsed d.now (d.link l).pcxAt ≤ 2000000) (hma : d.rdF .cxiLklPcxLim l 35 24 ≤ ma) (hf : fltLow = true ∨ held = true) :
    pcxShortOp l ma fltLow held d = (d.pcxSample l ma).pcxFail l 4 := by
  rw [pcxShortOp]
  exact if_pos (by simpa [hst, hin, hma] using hf)

/-- OVERCURRENT in ON, or in INRUSH once its window has passed. -/
theorem pcxOvercurrentOp_over (l : Fin 64) (ma : Nat) {d : Dev}
    (hst : d.pcxState l = 2 ∨ (d.pcxState l = 1 ∧ 2000000 ≤ elapsed d.now (d.link l).pcxAt))
    (hma : d.rdF .cxiLklPcxLim l 23 12 < ma) : pcxOvercurrentOp l ma d = (d.pcxSample l ma).pcxFail l 5 := by
  rw [pcxOvercurrentOp]
  refine if_pos ?_
  rcases hst with hst | ⟨hst, hlate⟩
  · simp [hst, hma]
  · simp [hst, hlate, hma]

/-- OPEN in ON, or in INRUSH after 500 ms: the switch is off for 2 s (R138). -/
theorem pcxOpen_reach (l : Fin 64) (ma : Nat) (s : State)
    (hst : s.dev.pcxState l = 2 ∨ (s.dev.pcxState l = 1 ∧ 500000000 ≤ elapsed s.dev.now (s.dev.link l).pcxAt))
    (hma : ma < s.dev.rdF .cxiLklPcxLim l 11 0) :
    let t : State := { s with dev := pcxOpenOp l ma s.dev }
    t.dev.pcxState l = 3 ∧ (t.dev.link l).pcxFailAt = s.dev.now ∧
      RegsOnly [regKey .cxiLklPcx l, regKey .cxiLklStat l] s t ∧ Only [.regs, .cxi, .evc, .wev] s t := by
  set x : CxiLink := { s.dev.link l with pcxFailAt := s.dev.now } with hx
  have hop : pcxOpenOp l ma s.dev = ((s.dev.pcxSample l ma).setLink l x).setPcxState l 3 := by
    rw [pcxOpenOp]
    refine if_pos ?_
    rcases hst with hst | ⟨hst, hlate⟩
    · simp [hst, hma]
    · simp [hst, hlate, hma]
  have hw := (((Within.refl (linkFoot l [regKey .cxiLklPcx l]) s.dev).pcxSample (by simp) ma).linkRecord l x).setPcxState 3
  dsimp only
  rw [hop]
  exact ⟨Dev.pcxState_setPcxState _ _ (by omega), by simp [hx], hw.regsOnly, hw.only⟩

/-! ### ON (R136 step 5) -/

/-- 500 ms after assertion the link is powered, and its head's discovery, where it runs, reads it. -/
theorem pcxOn_reach (l : Fin 64) (s : State) (hst : s.dev.pcxState l = 1)
    (hlate : 500000000 ≤ elapsed s.dev.now (s.dev.link l).pcxAt) :
    let t : State := { s with dev := pcxOnOp l s.dev }
    t.dev.pcxState l = 2 ∧ (t.dev.link l).pcxFails = 0 ∧ (t.dev.link l).onAt = s.dev.now ∧
      RegsOnly [regKey .cxiLklStat l] s t ∧ Only [.regs, .cxi, .evc, .wev] s t := by
  set x : CxiLink := { s.dev.link l with pcxFails := 0, onAt := s.dev.now } with hx
  set e := (s.dev.setLink l x).setPcxState l 2 with he
  have hop : pcxOnOp l s.dev = e ∨ pcxOnOp l s.dev = e.setLinkState l 1 := by
    rw [pcxOnOp, if_pos (by simp [hst, hlate])]
    dsimp only
    rw [← hx, ← he]
    split
    · split
      · exact .inr rfl
      · exact .inl rfl
    · exact .inl rfl
  have hpcx : e.pcxState l = 2 := Dev.pcxState_setPcxState _ _ (by omega)
  have hlink : e.link l = x := by simp [he]
  have hw : Within (linkFoot l []) s.dev e := ((Within.refl (linkFoot l []) s.dev).linkRecord l x).setPcxState 2
  dsimp only
  rcases hop with hop | hop <;> rw [hop]
  · exact ⟨hpcx, by rw [hlink], by rw [hlink], hw.regsOnly, hw.only⟩
  · have hlink' : (e.setLinkState l 1).link l = x := by rw [Dev.link, Dev.setLinkState_cxi]; exact hlink
    have hw' := hw.setLinkState 1
    exact ⟨(Dev.pcxState_setLinkState ..).trans hpcx, by rw [hlink'], by rw [hlink'], hw'.regsOnly, hw'.only⟩

/-! ### Retries (R137, R138) -/

/-- What a supply that is switched on again is, with a record of its failures. -/
theorem pcxStart_reach (l : Fin 64) (x : CxiLink) (s : State) :
    let t : State := { s with dev := (s.dev.setLink l x).pcxStart l }
    t.dev.pcxState l = 1 ∧ t.dev.link l = { x with pcxAt := s.dev.now } ∧
      RegsOnly [regKey .cxiLklStat l] s t ∧ Only [.regs, .cxi, .evc, .wev] s t := by
  have hw := ((Within.refl (linkFoot l []) s.dev).linkRecord l x).pcxStart
  exact ⟨Dev.pcxState_pcxStart _ _, by simp [Dev.link_pcxStart], hw.regsOnly, hw.only⟩

/-- The retry time of a failure has passed. -/
theorem pcxAutoRetryOp_due {l : Nat} {d : Dev}
    (h : ((d.pcxState l = 4 ∨ d.pcxState l = 5) ∧ 1000000000 ≤ elapsed d.now (d.link l).pcxFailAt) ∨
      (d.pcxState l = 3 ∧ 2000000000 ≤ elapsed d.now (d.link l).pcxFailAt)) : pcxAutoRetryOp l d = d.pcxStart l := by
  rw [pcxAutoRetryOp]
  exact if_pos (by simpa using h)

theorem pcxAutoRetry_reach (l : Fin 64) (s : State)
    (h : ((s.dev.pcxState l = 4 ∨ s.dev.pcxState l = 5) ∧ 1000000000 ≤ elapsed s.dev.now (s.dev.link l).pcxFailAt) ∨
      (s.dev.pcxState l = 3 ∧ 2000000000 ≤ elapsed s.dev.now (s.dev.link l).pcxFailAt)) :
    let t : State := { s with dev := pcxAutoRetryOp l s.dev }
    t.dev.pcxState l = 1 ∧ (t.dev.link l).pcxAt = s.dev.now ∧
      RegsOnly [regKey .cxiLklStat l] s t ∧ Only [.regs, .cxi, .evc, .wev] s t := by
  have hw := (Within.refl (linkFoot l []) s.dev).pcxStart
  dsimp only
  rw [pcxAutoRetryOp_due h]
  exact ⟨Dev.pcxState_pcxStart _ _, congrArg CxiLink.pcxAt (Dev.link_pcxStart ..), hw.regsOnly, hw.only⟩

/-- RETRY in LOCKOUT where PCX_EN is 0 leaves the supply OFF. -/
theorem pcxRetry_off (l : Fin 64) (s : State) (hst : s.dev.pcxState l = 6) (hen : s.dev.rdB .cxiLklCfg l 1 = false) :
    let t : State := { s with dev := pcxRetryOp l s.dev }
    t.dev.pcxState l = 0 ∧ (t.dev.link l).pcxFails = 0 ∧
      RegsOnly [regKey .cxiLklStat l] s t ∧ Only [.regs, .cxi, .evc, .wev] s t := by
  set x : CxiLink := { s.dev.link l with pcxFails := 0 } with hx
  have hop : pcxRetryOp l s.dev = (s.dev.setLink l x).setPcxState l 0 := by
    rw [pcxRetryOp, if_pos hst]
    exact if_neg (by simpa [Dev.rdB] using hen)
  have hw := ((Within.refl (linkFoot l []) s.dev).linkRecord l x).setPcxState 0
  dsimp only
  rw [hop]
  exact ⟨Dev.pcxState_setPcxState _ _ (by omega), by simp [hx], hw.regsOnly, hw.only⟩

/-- Where it is 1 the supply starts again. -/
theorem pcxRetryOp_starts {l : Nat} {d : Dev} (hst : d.pcxState l = 6) (hen : d.rdB .cxiLklCfg l 1 = true) :
    pcxRetryOp l d = (d.setLink l { d.link l with pcxFails := 0 }).pcxStart l := by
  rw [pcxRetryOp, if_pos hst]
  exact if_pos (by simpa [Dev.rdB] using hen)

/-! ### The group's fault (R138) -/

/-- With no link of the group at SHORT_MA its fault is counted. -/
theorem pcxFltAssertOp_counts (g : Fin 4) {d : Dev}
    (h : ∀ i : Fin 16, d.rdF .cxiLklPcx (16 * g + i) 11 0 < d.rdF .cxiLklPcxLim (16 * g + i) 35 24) :
    pcxFltAssertOp g d = d.satF .cxiGrpgStat g 31 16 1 := by
  rw [pcxFltAssertOp]
  refine if_neg ?_
  simp only [List.any_eq_true, List.mem_range, decide_eq_true_eq, not_exists, not_and, not_le]
  exact fun i hi => h ⟨i, hi⟩

/-- Settles O20: each command of supervision is one branch of its operation, whose updates are of what is known of the link and of
its STAT, the current measured and PCX_EN. -/
theorem poCxpSupervision : Obligations.PoCxpSupervision := by
  unfold Obligations.PoCxpSupervision
  refine ⟨fun l s hp hen hst => ⟨_, State.run_powered hp _, pcxEnable_lockout l s hen hst⟩,
    fun l s hp hen hst => ⟨_, State.run_powered hp _, pcxEnable_starts l s hen hst⟩, ?short, ?overcurrent,
    fun l ma s hp hst hma => ⟨_, State.run_powered hp _, pcxOpen_reach l ma s hst hma⟩,
    fun l s hp hst hlate => ⟨_, State.run_powered hp _, pcxOn_reach l s hst hlate⟩,
    fun l s hp h => ⟨_, State.run_powered hp _, pcxAutoRetry_reach l s h⟩,
    fun l s hp hst hen => ⟨_, State.run_powered hp _, pcxRetry_off l s hst hen⟩, ?restart, ?fault⟩
  case short =>
    intro l ma fltLow held s hp hst hin hma hf
    have hreach := pcxFail_reach l ma (st := 4) (by omega) s
    rw [← pcxShortOp_short l ma fltLow held hst hin hma hf] at hreach
    obtain ⟨hpcx, hfails, -, hcur, hregs, honly⟩ := hreach
    exact ⟨_, State.run_powered hp _, hpcx, hfails, hcur, hregs, honly⟩
  case overcurrent =>
    intro l ma s hp hst hma
    have hreach := pcxFail_reach l ma (st := 5) (by omega) s
    rw [← pcxOvercurrentOp_over l ma hst hma] at hreach
    obtain ⟨hpcx, hfails, hat, -, hregs, honly⟩ := hreach
    exact ⟨_, State.run_powered hp _, hpcx, hfails, hat, hregs, honly⟩
  case restart =>
    intro l s hp hst hen
    have hreach := pcxStart_reach l { s.dev.link l with pcxFails := 0 } s
    rw [← pcxRetryOp_starts hst hen] at hreach
    obtain ⟨hpcx, hlink, hregs, honly⟩ := hreach
    exact ⟨_, State.run_powered hp _, hpcx, by rw [hlink], by rw [hlink], hregs, honly⟩
  case fault =>
    intro g s hp h
    have hw := (Within.refl (plainFoot [.regs] [regKey .cxiGrpgStat g]) s.dev).satF (by simp [plainFoot]) (r := .cxiGrpgStat) (i := g)
      (by simp [plainFoot]) 31 16 1
    refine ⟨_, State.run_powered hp _, ?_⟩
    dsimp only
    rw [pcxFltAssertOp_counts g h]
    exact ⟨Dev.rdF_satF _ _ _ (by omega) (by omega) 1, hw.regsOnly, hw.only⟩

end Sys2Proof
end

section
/-! PROOF SUPPORT. The heads of camera ingest: what is known of a head after it was replaced, and full-word writes to SRAM with no
injection armed. -/

namespace Sys2Proof

open Machine

namespace Machine.Dev

variable (d : Dev)

@[simp] theorem head_setHead_same (h : Nat) (x : CxiHead) : (d.setHead h x).head h = x := by simp [head, setHead]

theorem head_setHead_ne {h k : Nat} (hk : k ≠ h) (x : CxiHead) : (d.setHead h x).head k = d.head k := by
  simp [head, setHead, hk.symm]

@[simp] theorem head_emit (h : Nat) (m : OutMsg) : (d.emit m).head h = d.head h := rfl

@[simp] theorem head_raise (h i : Nat) : (d.raise i).head h = d.head h := by simp [head]

/-- Full-word writes with no injection armed change the memory and nothing else. -/
theorem sramWrites_eq {d : Dev} (hi : d.rdB .edcInjCtl 0 8 = false) (a : Nat) (ws : List Word) :
    d.sramWrites a ws = { d with sram := (d.sramWrites a ws).sram } := by
  induction ws generalizing d a with
  | nil => rfl
  | cons w ws ih =>
    simp only [sramWrites, sramWrite_eq hi]
    exact ih (d := d.putCell a (goodWord w)) hi (a + 1)

end Machine.Dev

section
variable {F : Foot} {d₀ d : Dev} (h : Within F d₀ d)
include h

theorem Within.withSram (hp : Part.sram ∈ F.parts) (m : Table MemWord) : Within F d₀ { d with sram := m } :=
  h.step (fun p hq => by cases p with | sram => exact absurd hp hq | _ => rfl) (fun _ _ => rfl) rfl

theorem Within.withOutbox (hp : Part.outbox ∈ F.parts) (l : List OutMsg) : Within F d₀ { d with outbox := l } :=
  h.step (fun p hq => by cases p with | outbox => exact absurd hp hq | _ => rfl) (fun _ _ => rfl) rfl

theorem Within.sramWrites (hp : Part.sram ∈ F.parts) (hi : d.rdB .edcInjCtl 0 8 = false) (a : Nat) (ws : List Word) :
    Within F d₀ (d.sramWrites a ws) := by
  rw [Dev.sramWrites_eq hi]
  exact h.withSram hp _

end

/-- Full-word writes reach no further than their words. -/
theorem cell_sramWrites_outside {d : Dev} (hm : memWf MemWord.blank d.sram = true) (hi : d.rdB .edcInjCtl 0 8 = false) {a b n : Nat}
    {ws : List Word} (hn : ws.length ≤ n) (hb : b < a ∨ a + n ≤ b) : (d.sramWrites a ws).cell b = d.cell b := by
  rw [Dev.cell_sramWrites hm hi, if_neg (by omega)]

@[simp] theorem length_wordsOfBytes (n : Nat) (bs : List Byte) : (wordsOfBytes n bs).length = n := by
  induction n generalizing bs with
  | zero => rfl
  | succ n ih => rw [wordsOfBytes, List.length_cons, ih]

/-- A number in the low bits of a word that has none set there. -/
theorem setFld_low (k : Nat) {n m : Nat} (hm : m < 2 ^ (n + 1)) :
    setFld (wordOf (2 ^ (n + 1) * k)) n 0 m = wordOf (2 ^ (n + 1) * k + m) := by
  refine BitVec.eq_of_getLsbD_eq fun j hj => ?_
  have hlow := Nat.testBit_two_pow_mul_add k (Nat.two_pow_pos (n + 1)) j
  rw [Nat.add_zero] at hlow
  rw [getLsbD_setFld, wordOf, wordOf, BitVec.getLsbD_ofNat, BitVec.getLsbD_ofNat, Nat.testBit_two_pow_mul_add k hm, hlow]
  by_cases hjn : j < n + 1
  · simp [hj, hjn]
  · simp [hj, hjn]

end Sys2Proof
end

section
/-! PROOF. O21: heartbeats, control requests and event packets (R143–R146, R287). -/

namespace Sys2Proof

open Machine

/-! ### Heartbeats (R143) -/

/-- The heartbeat that head h is due. -/
def heartbeatOf (d : Dev) (h : Nat) : OutMsg := .cxp (d.rdF .cxiHdhCfg h 21 16) (.heartbeat d.now)

/-- A heartbeat for each head of a list that is up, in order. -/
theorem foldl_heartbeats (l : List Nat) (d : Dev) :
    l.foldl (fun e h => if e.headUp h then e.emit (heartbeatOf e h) else e) d =
      { d with outbox := d.outbox ++ (l.filter d.headUp).map (heartbeatOf d) } := by
  induction l generalizing d with
  | nil => simp
  | cons h l ih =>
    rw [List.foldl_cons, ih]
    cases hup : d.headUp h with
    | true =>
      rw [List.filter_cons_of_pos hup, List.map_cons, ← List.singleton_append, ← List.append_assoc]
      rfl
    | false => rw [List.filter_cons_of_neg (by simp [hup])]; rfl

/-- Once HB_MS has passed a heartbeat leaves for each head that is up. -/
theorem heartbeatOp_due {d : Dev} (hms : d.rdF .cxiCtl 0 7 0 ≠ 0)
    (hdue : d.rdF .cxiCtl 0 7 0 * 1000000 ≤ elapsed d.now d.cxi.lastHb) :
    heartbeatOp d =
      { d with cxi := { d.cxi with lastHb := d.now },
               outbox := d.outbox ++ ((List.range 64).filter d.headUp).map (heartbeatOf d) } := by
  rw [heartbeatOp]
  exact (if_pos (by simp [hms, hdue])).trans (foldl_heartbeats _ _)

/-! ### Control requests (R144, R145) -/

/-- A head whose request completes has the response and no request. -/
theorem endControl_reach (h : Fin 64) (r : CtrlResp) (s : State) :
    let t : State := { s with dev := s.dev.endControl h r }
    t.dev.head h = { s.dev.head h with ctrl := none, resp := some r } ∧ (∀ k : Fin 64, k ≠ h → t.dev.head k = s.dev.head k) ∧
      Only [.cxi, .evc, .wev] s t := by
  have hw := ((Within.refl (plainFoot [.cxi, .evc, .wev] []) s.dev).setHead (by simp [plainFoot]) h
    { s.dev.head h with ctrl := none, resp := some r }).raise (by simp [plainFoot]) 580
  refine ⟨by simp [Dev.endControl], fun k hk => ?_, hw.only⟩
  simp [Dev.endControl, Dev.head_setHead_ne _ (Fin.val_ne_of_ne hk)]

/-- A head that something leaves for. -/
theorem setHead_emit_reach (h : Fin 64) (x : CxiHead) (m : OutMsg) (s : State) :
    let t : State := { s with dev := (s.dev.setHead h x).emit m }
    t.dev.head h = x ∧ t.dev.outbox = s.dev.outbox ++ [m] ∧ (∀ k : Fin 64, k ≠ h → t.dev.head k = s.dev.head k) ∧
      Only [.cxi, .outbox] s t := by
  have hw := ((Within.refl (plainFoot [.cxi, .outbox] []) s.dev).setHead (by simp [plainFoot]) h x).emit (by simp [plainFoot]) m
  exact ⟨Dev.head_setHead_same .., rfl, fun k hk => Dev.head_setHead_ne _ (Fin.val_ne_of_ne hk) _, hw.only⟩

section
variable {d : Dev} {h : Nat} {r : ControlReq}

theorem controlRequestOp_busy (hc : (d.head h).ctrl ≠ none) : controlRequestOp h r d = d := by
  rw [controlRequestOp, Dev.controlRequest, if_pos (Option.isSome_iff_ne_none.2 hc)]

variable (hc : (d.head h).ctrl = none)
include hc

theorem controlRequestOp_down (hup : d.headUp h = false) :
    controlRequestOp h r d = d.endControl h { status := 0x30, sub := 2, ack := 0, data := [] } := by
  simp [controlRequestOp, Dev.controlRequest, hc, hup]

variable (hup : d.headUp h = true)
include hup

/-- A write to a register that CXI manages is refused. -/
theorem controlRequestOp_managed (hw : r.write = true)
    (hm : (List.range r.data.length).any (fun i => Config.managedRegister (r.addr + i)) = true) :
    controlRequestOp h r d = d.endControl h { status := 0x10, sub := 4, ack := 0, data := [] } := by
  rw [controlRequestOp, Dev.controlRequest, if_neg (by simp [hc]), if_neg (by simp [hup]), if_pos (by rw [hw, hm]; rfl)]

/-- Any other request is sent. -/
theorem controlRequestOp_sent
    (hm : (r.write && (List.range r.data.length).any (fun i => Config.managedRegister (r.addr + i))) = false) :
    controlRequestOp h r d = (d.setHead h { d.head h with ctrl := some { req := r, sent := d.now }, resp := none }).emit
      (.cxp (d.rdF .cxiHdhCfg h 21 16) (.control r)) := by
  rw [controlRequestOp, Dev.controlRequest, if_neg (by simp [hc]), if_neg (by simp [hup]), if_neg (by simp [hm])]

end

section
variable {d : Dev} {h : Nat} {c : CtrlReq} (hc : (d.head h).ctrl = some c)
include hc

theorem controlAckOp_whole (code : Nat) (data : List Byte) :
    controlAckOp h true code data d = d.endControl h { status := 0, sub := 0, ack := code, data := data } := by
  simp [controlAckOp, hc]

/-- A bad acknowledgement makes the request leave again, three times. -/
theorem controlAckOp_resends (code : Nat) (data : List Byte) (hn : c.resends < 3) :
    controlAckOp h false code data d =
      (d.setHead h { d.head h with ctrl := some { c with resends := c.resends + 1, sent := d.now } }).emit
        (.cxp (d.rdF .cxiHdhCfg h 21 16) (.control c.req)) := by
  simp [controlAckOp, hc, hn, Dev.rdF]

theorem controlAckOp_gives_up (code : Nat) (data : List Byte) (hn : 3 ≤ c.resends) :
    controlAckOp h false code data d = d.endControl h { status := 0x30, sub := 3, ack := 0, data := [] } := by
  simp [controlAckOp, hc, not_lt.2 hn]

theorem controlTimeoutOp_late (hlate : (d.head h).timeoutMs * 1000000 ≤ elapsed d.now c.sent) :
    controlTimeoutOp h d = d.endControl h { status := 0x30, sub := 1, ack := 0, data := [] } := by
  simp [controlTimeoutOp, hc, hlate]

end

/-! ### Event packets (R146, R287) -/

/-- The header word of an entry of n payload bytes. -/
def msgHeader (n : Nat) : Word := wordOf (2 ^ 40 + (if 1020 < n then 2 ^ 39 else 0) + min 1020 n)

theorem setFld_msgHeader (n : Nat) :
    setFld (setBit (setFld 0 47 40 1) 39 (decide (1020 < n))) 9 0 (min 1020 n) = msgHeader n := by
  have hlen : min 1020 n < 2 ^ (9 + 1) := by omega
  by_cases hn : 1020 < n
  · have hbase : setBit (setFld 0 47 40 1) 39 true = wordOf (2 ^ (9 + 1) * (2 ^ 30 + 2 ^ 29)) := by decide
    rw [decide_eq_true hn, hbase, setFld_low _ hlen, msgHeader, if_pos hn]
    norm_num
  · have hbase : setBit (setFld 0 47 40 1) 39 false = wordOf (2 ^ (9 + 1) * 2 ^ 30) := by decide
    rw [decide_eq_false hn, hbase, setFld_low _ hlen, msgHeader, if_neg hn]
    norm_num

/-- The words that an event packet puts in its entry (R311). -/
def msgWords (payload : List Byte) : List Word :=
  msgHeader payload.length :: wordsOfBytes ((min 1020 payload.length + 5) / 6) (payload.take 1020)

/-- An event packet that finds room is stored and acknowledged. -/
theorem eventPacketOp_stores {h n : Nat} (payload : List Byte) {d : Dev} (hroom : (d.head h).msgs.length < 16)
    (hoff : d.headState h ≠ .off) (hfen : d.headState h ≠ .fenced) (hpl : d.headState h ≠ .plane)
    (hn : n = (d.head h).nextMsg % 16) :
    eventPacketOp h payload d =
      (((d.sramWrites (msgAddr h n) (msgWords payload)).setHead h { d.head h with
          msgs := (d.head h).msgs ++ [⟨n, min 1020 payload.length, decide (1020 < payload.length)⟩], nextMsg := (n + 1) % 16 }).emit
        (.cxp ((d.sramWrites (msgAddr h n) (msgWords payload)).rdF .cxiHdhCfg h 21 16) .eventAck)).raise 581 := by
  rw [eventPacketOp]
  simp only [not_le.2 hroom, hoff, hfen, hpl, decide_false, Bool.or_self, Bool.false_eq_true, if_false, ← hn, List.length_take,
    setFld_msgHeader]
  rfl

/-- One that finds none changes nothing. -/
theorem eventPacketOp_withheld {h : Nat} (payload : List Byte) {d : Dev}
    (hfull : 16 ≤ (d.head h).msgs.length ∨ d.headState h = .off ∨ d.headState h = .fenced ∨ d.headState h = .plane) :
    eventPacketOp h payload d = d := by
  rw [eventPacketOp]
  exact if_pos (by simpa [or_assoc] using hfull)

/-- What an event packet leaves in its head, and that the memory is as its words left it. -/
theorem eventPacket_reach (h : Fin 64) (payload : List Byte) (n : Nat) (s : State) (hroom : (s.dev.head h).msgs.length < 16)
    (hoff : s.dev.headState h ≠ .off) (hfen : s.dev.headState h ≠ .fenced) (hpl : s.dev.headState h ≠ .plane)
    (hn : n = (s.dev.head h).nextMsg % 16) (hi : s.dev.rdB .edcInjCtl 0 8 = false) :
    let t : State := { s with dev := eventPacketOp h payload s.dev }
    (t.dev.head h).msgs = (s.dev.head h).msgs ++ [⟨n, min 1020 payload.length, decide (1020 < payload.length)⟩] ∧
      (∀ b, t.dev.cell b = (s.dev.sramWrites (msgAddr h n) (msgWords payload)).cell b) ∧
      t.dev.outbox = s.dev.outbox ++ [.cxp (s.dev.rdF .cxiHdhCfg h 21 16) .eventAck] ∧
      (∀ k : Fin 64, k ≠ h → t.dev.head k = s.dev.head k) ∧ Only [.cxi, .outbox, .sram, .evc, .wev] s t := by
  set e := s.dev.sramWrites (msgAddr h n) (msgWords payload) with he
  have hsame : e = { s.dev with sram := e.sram } := Dev.sramWrites_eq hi _ _
  have hhead : ∀ k, e.head k = s.dev.head k := fun k => by rw [hsame]; rfl
  have hcfg : e.rdF .cxiHdhCfg h 21 16 = s.dev.rdF .cxiHdhCfg h 21 16 := by rw [hsame]; rfl
  have hout : e.outbox = s.dev.outbox := by rw [hsame]
  have hw := ((((Within.refl (plainFoot [.cxi, .outbox, .sram, .evc, .wev] []) s.dev).sramWrites (by simp [plainFoot]) hi
    (msgAddr h n) (msgWords payload)).setHead (by simp [plainFoot]) h { s.dev.head h with
      msgs := (s.dev.head h).msgs ++ [⟨n, min 1020 payload.length, decide (1020 < payload.length)⟩], nextMsg := (n + 1) % 16 }).emit
    (by simp [plainFoot]) (.cxp (e.rdF .cxiHdhCfg h 21 16) .eventAck)).raise (by simp [plainFoot]) 581
  dsimp only
  rw [eventPacketOp_stores payload hroom hoff hfen hpl hn, ← he, hcfg]
  refine ⟨by simp, fun b => by simp [Dev.cell], ?_, fun k hk => ?_, hcfg ▸ hw.only⟩
  · simp [Dev.emit, hout]
  · simp [Dev.head_setHead_ne _ (Fin.val_ne_of_ne hk), hhead]

/-- The header of an entry, its payload, and the words around it. -/
theorem cell_msgWords (a : Nat) (payload : List Byte) {d : Dev} (hi : d.rdB .edcInjCtl 0 8 = false)
    (hm : memWf MemWord.blank d.sram = true) :
    (d.sramWrites a (msgWords payload)).cell a = goodWord (msgHeader payload.length) ∧
      (∀ i < (min 1020 payload.length + 5) / 6, (d.sramWrites a (msgWords payload)).cell (a + 1 + i) =
        goodWord ((wordsOfBytes ((min 1020 payload.length + 5) / 6) (payload.take 1020)).getD i 0)) ∧
      ∀ b, b < a ∨ a + 171 ≤ b → (d.sramWrites a (msgWords payload)).cell b = d.cell b := by
  have hlen : (msgWords payload).length = (min 1020 payload.length + 5) / 6 + 1 := by simp [msgWords]
  refine ⟨?_, fun i hlt => ?_, fun b hb => cell_sramWrites_outside hm hi (by omega) hb⟩
  · rw [Dev.cell_sramWrites hm hi, if_pos (by omega), Nat.sub_self]
    rfl
  · rw [Dev.cell_sramWrites hm hi, if_pos (by omega), show a + 1 + i - a = i + 1 by omega]
    rfl

/-- Settles O21: each command of the upconnection is one branch of its operation, which changes what is known of its head and sends
or raises; an event packet writes the words of its entry beside. -/
theorem upconnection : Obligations.Upconnection := by
  unfold Obligations.Upconnection
  refine ⟨?heartbeat, ?read, ?write, ?down, fun h r s hp hc => State.run_unchanged (controlRequestOp_busy hc), ?whole, ?resends,
    ?givesUp, ?late, ?stores, fun h payload s hp hfull => State.run_unchanged (eventPacketOp_withheld payload hfull)⟩
  case heartbeat =>
    intro s hp hms hdue
    have hw := ((Within.refl (plainFoot [.cxi, .outbox] []) s.dev).withCxi (by simp [plainFoot])
      { s.dev.cxi with lastHb := s.dev.now }).withOutbox (by simp [plainFoot])
        (s.dev.outbox ++ ((List.range 64).filter s.dev.headUp).map (heartbeatOf s.dev))
    refine ⟨_, State.run_powered hp _, ?_⟩
    dsimp only
    rw [heartbeatOp_due hms hdue]
    exact ⟨rfl, rfl, hw.only⟩
  case read =>
    intro h r s hp hc hup hr
    refine ⟨_, State.run_powered hp _, ?_⟩
    dsimp only
    rw [controlRequestOp_sent hc hup (by rw [hr]; rfl)]
    exact setHead_emit_reach h _ _ s
  case write =>
    intro h r s hp hc hup hr
    refine ⟨_, State.run_powered hp _, ?_⟩
    dsimp only
    split
    · next hm =>
      rw [controlRequestOp_managed hc hup hr hm]
      obtain ⟨hhead, hothers, honly⟩ := endControl_reach h { status := 0x10, sub := 4, ack := 0, data := [] } s
      exact ⟨⟨by rw [hhead], honly⟩, hothers⟩
    · next hm =>
      rw [controlRequestOp_sent hc hup (by simp [hm])]
      obtain ⟨hhead, hout, hothers, honly⟩ := setHead_emit_reach h
        { s.dev.head h with ctrl := some { req := r, sent := s.dev.now }, resp := none }
        (.cxp (s.dev.rdF .cxiHdhCfg h 21 16) (.control r)) s
      exact ⟨⟨hhead, hout, honly⟩, hothers⟩
  case down =>
    intro h r s hp hc hup
    refine ⟨_, State.run_powered hp _, ?_⟩
    dsimp only
    rw [controlRequestOp_down hc hup]
    obtain ⟨hhead, hothers, honly⟩ := endControl_reach h { status := 0x30, sub := 2, ack := 0, data := [] } s
    exact ⟨by rw [hhead], hothers, honly⟩
  case whole =>
    intro h code data c s hp hc
    refine ⟨_, State.run_powered hp _, ?_⟩
    dsimp only
    rw [controlAckOp_whole hc]
    exact endControl_reach h _ s
  case resends =>
    intro h code data c s hp hc hn
    refine ⟨_, State.run_powered hp _, ?_⟩
    dsimp only
    rw [controlAckOp_resends hc code data hn]
    obtain ⟨hhead, hrest⟩ := setHead_emit_reach h
      { s.dev.head h with ctrl := some { c with resends := c.resends + 1, sent := s.dev.now } }
      (.cxp (s.dev.rdF .cxiHdhCfg h 21 16) (.control c.req)) s
    exact ⟨by rw [hhead], hrest⟩
  case givesUp =>
    intro h code data c s hp hc hn
    refine ⟨_, State.run_powered hp _, ?_⟩
    dsimp only
    rw [controlAckOp_gives_up hc code data hn]
    exact endControl_reach h _ s
  case late =>
    intro h c s hp hc hlate
    refine ⟨_, State.run_powered hp _, ?_⟩
    dsimp only
    rw [controlTimeoutOp_late hc hlate]
    exact endControl_reach h _ s
  case stores =>
    intro h payload n s hp hroom hoff hfen hpl hn hi hm
    obtain ⟨hmsgs, hcell, hout, hothers, honly⟩ := eventPacket_reach h payload n s hroom hoff hfen hpl hn hi
    obtain ⟨hheader, hpayload, houtside⟩ := cell_msgWords (msgAddr h n) payload hi hm
    exact ⟨_, State.run_powered hp _, hmsgs, (hcell _).trans hheader, fun i hlt => (hcell _).trans (hpayload i hlt), hout,
      fun b hb => (hcell b).trans (houtside b hb), hothers, honly⟩

end Sys2Proof
end

section
/-! PROOF. O22: what a line start takes from a commit on a head that does not run (R150, R151, R176). -/

namespace Sys2Proof

open Machine

/-- A record whose trigger fired at 1,000 ns. -/
def firedRecord : TrigRecord := { gen := 0, line := 17, pos := 512, st := .track, time := 1000 }

/-- Head 0 on link 0 is in LINKED, no line in progress, at 51,000 ns. A commit has left it CUT 1 and a LAT_MAX of 20,000 ns for the
next line start; by the LAT_MAX in force, 100,000 ns, its one record still waits. -/
def linkedWithLater : State :=
  { dev := {
      now := 51000,
      regs := [(regKey .cxiHdhCfg 0, wordOf 1), (regKey .cxiHdhStat 0, wordOf HeadState.linked.code),
               (regKey .cxiHdhLat 0, wordOf (100000 * 2 ^ 24)), (regKey .ghdState 0, wordOf DevState.run.code)],
      domains := [(5, .on)],
      cxi := { heads := [(0, { records := [firedRecord], later := some (1, wordOf (20000 * 2 ^ 24)) })] } } }

/-- A line marker on the link. -/
def markerPacket : StreamPacket := { tag := 0, crcOk := true, sizeOk := true, violations := 0, items := [.lineMarker] }

/-- The line start brings the new LAT_MAX into force, by which the record is lost: a LOST line joins the queue of lines. -/
theorem lines_streamPacketOp_linkedWithLater :
    ((streamPacketOp (0 : Fin 64).val markerPacket linkedWithLater.dev).head (0 : Fin 64).val).lines.map
      (fun x => (x.line, x.lost)) = [(17, true)] := by
  decide +kernel

/-- Refutes O22: on linkedWithLater the line is EXTRA since the head is not in RUN, but its start also makes the record a LOST line,
where the statement has the lines as they were. -/
theorem not_linesThroughStaging : ¬ Obligations.LinesThroughStaging := by
  unfold Obligations.LinesThroughStaging
  rintro ⟨-, hextra, -⟩
  obtain ⟨t, ht, -, -, -, hlines, -⟩ := hextra 0 0 markerPacket linkedWithLater (by decide) (by decide) (by decide +kernel) rfl rfl
    rfl (by decide) (by decide) (by decide) (.inl (by decide))
  have hlost := lines_streamPacketOp_linkedWithLater
  rw [← State.dev_of_run_next (f := streamPacketOp (0 : Fin 64).val markerPacket) (by decide) ht, hlines] at hlost
  exact absurd hlost (by decide)

end Sys2Proof
end

section
/-! PROOF. O19: what RETRY writes where a line is still in progress (R133, R169). -/

namespace Sys2Proof

open Machine

/-- Head 0 is in FAULT, but a line is in progress: one pixel of the staging word at DAS address 0 has come. A head that leaves
LINKED and RUN ends its line, but nothing in the type of a state keeps the two apart. -/
def faultedInLine : State :=
  { dev := {
      regs := [(regKey .cxiHdhStat 0, wordOf HeadState.fault.code), (regKey .ghdState 0, wordOf DevState.run.code)],
      cxi := { heads := [(0, {
        cur := some { pixels := 1, acc := (5, 0, 0) },
        lines := [{ line := 17, pos := 512, fire := 5, ast := .track, slot := some 0 }] })] } } }

/-- RETRY ends the line, and the word begun goes to staging. -/
theorem cell_retryOp_faultedInLine :
    (faultedInLine.dev.followHeads (retryOp (0 : Fin 64).val faultedInLine.dev)).cell 0 = goodWord 5 := by
  decide +kernel

/-- Refutes O19: on faultedInLine RETRY writes a word of SRAM, which the statement has unchanged. -/
theorem not_headsAndDiscovery : ¬ Obligations.HeadsAndDiscovery := by
  unfold Obligations.HeadsAndDiscovery
  rintro ⟨-, -, -, -, -, hretry, -⟩
  obtain ⟨t, ht, -, -, -, -, -, honly⟩ := hretry 0 faultedInLine (by decide) (by decide)
  have hsram : t.dev.sram = faultedInLine.dev.sram := honly .sram (by decide)
  have hcell := cell_retryOp_faultedInLine
  rw [← State.dev_of_run_next (f := fun d => d.followHeads (retryOp (0 : Fin 64).val d)) (by decide) ht, Dev.cell, hsram] at hcell
  exact absurd hcell (by decide +kernel)

end Sys2Proof
end

section
/-! PROOF of O4. A memory is written through memPut, cut by a filter or emptied, and each of the three keeps the canonical form.
Every operation of the block is such writes and changes of other parts, so it keeps the form of all three memories: one lemma for
each operation, an equivalence where the operation leaves the memories alone. A step is one operation run on the block. -/

namespace Sys2Proof
open Machine
namespace Machine.Dev

/-- The memories are in form: MemoriesWf as a view of the block, the head symbol that the rules below rewrite. -/
def inForm (d : Dev) : Prop := MemoriesWf d

variable {d : Dev}

/-! ### A block whose memories are those of another one -/

@[simp] theorem inForm_mk (now regs domains freeIdx spr fio evc wev ghd owners cxi hlk commit dict tfb chm cex
    graze tmv hif ibx procs regHist reply outbox) :
    inForm ⟨now, regs, domains, freeIdx, spr, fio, evc, wev, d.sram, d.hbm, d.hbc, ghd, owners, cxi, hlk, commit, dict, tfb,
      chm, cex, graze, tmv, hif, ibx, procs, regHist, reply, outbox⟩ ↔ d.inForm := Iff.rfl

@[simp] theorem inForm_mk_hbc (now regs domains freeIdx spr fio evc wev ghd owners cxi hlk commit dict tfb chm cex
    graze tmv hif ibx procs regHist reply outbox rewrites lastSramCe lastHbmCe corrected uncorr link parity fenceLater) :
    inForm ⟨now, regs, domains, freeIdx, spr, fio, evc, wev, d.sram, d.hbm,
      ⟨rewrites, lastSramCe, lastHbmCe, corrected, uncorr, link, parity, d.hbc.xfer, fenceLater⟩,
      ghd, owners, cxi, hlk, commit, dict, tfb, chm, cex, graze, tmv, hif, ibx, procs, regHist, reply, outbox⟩ ↔ d.inForm :=
  Iff.rfl

@[simp] theorem inForm_ite (c : Prop) [Decidable c] (a b : Dev) :
    (if c then a else b).inForm ↔ if c then a.inForm else b.inForm := by split <;> rfl

theorem inForm_of_same {d t : Dev} (e : SameMemories d t) : t.inForm ↔ d.inForm :=
  ⟨fun h => h.same ⟨e.1.symm, e.2.1.symm, e.2.2.symm⟩, fun h => h.same e⟩

/-- A block built anew with memories of its own. -/
theorem inForm_mk_of {sram : Table MemWord} {hbm : Table Tile} {hbc : HbcState} (hs : memWf MemWord.blank sram = true)
    (hh : memWf Tile.blank hbm = true) (hx : memWf MemWord.blank hbc.xfer = true) (now regs domains freeIdx spr fio evc wev ghd
    owners cxi hlk commit dict tfb chm cex graze tmv hif ibx procs regHist reply outbox) :
    inForm ⟨now, regs, domains, freeIdx, spr, fio, evc, wev, sram, hbm, hbc, ghd, owners, cxi, hlk, commit, dict, tfb, chm, cex,
      graze, tmv, hif, ibx, procs, regHist, reply, outbox⟩ := ⟨hs, hh, hx⟩

/-! ### Loops -/

@[simp] theorem inForm_foldl_iff {α : Type} {f : Dev → α → Dev} (hf : ∀ e x, (f e x).inForm ↔ e.inForm) (l : List α) :
    (l.foldl f d).inForm ↔ d.inForm := by
  induction l generalizing d with
  | nil => rfl
  | cons x l ih => exact ih.trans (hf d x)

@[simp] theorem inForm_forUpTo_iff {f : Nat → Dev → Dev} (hf : ∀ i e, (f i e).inForm ↔ e.inForm) (n : Nat) :
    (forUpTo n f d).inForm ↔ d.inForm := inForm_foldl_iff (fun e i => hf i e) _

@[simp] theorem inForm_foldl {α : Type} {f : Dev → α → Dev} (h : d.inForm) (hf : ∀ e x, e.inForm → (f e x).inForm) (l : List α) :
    (l.foldl f d).inForm := by
  induction l generalizing d with
  | nil => exact h
  | cons x l ih => exact ih (hf d x h)

@[simp] theorem inForm_forUpTo {f : Nat → Dev → Dev} (h : d.inForm) (hf : ∀ i e, e.inForm → (f i e).inForm) (n : Nat) :
    (forUpTo n f d).inForm := inForm_foldl h (fun e i he => hf i e he) _

theorem inForm_foldl_by_iff {α β : Type} (v : β → Dev) {f : β → α → β} (hf : ∀ r x, (v (f r x)).inForm ↔ (v r).inForm) (r : β)
    (l : List α) : (v (l.foldl f r)).inForm ↔ (v r).inForm := by
  induction l generalizing r with
  | nil => rfl
  | cons x l ih => exact (ih _).trans (hf r x)

/-- A loop whose value carries the block: `v` picks the block out of the value. -/
theorem inForm_foldl_by {α β : Type} (v : β → Dev) {f : β → α → β} (hf : ∀ r x, (v r).inForm → (v (f r x)).inForm) {r : β}
    (h : (v r).inForm) (l : List α) : (v (l.foldl f r)).inForm := by
  induction l generalizing r with
  | nil => exact h
  | cons x l ih => exact ih (hf r x h)

theorem inForm_forUpTo_by {β : Type} (v : β → Dev) {f : Nat → β → β} (hf : ∀ i r, (v r).inForm → (v (f i r)).inForm) {r : β}
    (h : (v r).inForm) (n : Nat) : (v (forUpTo n f r)).inForm := inForm_foldl_by v (fun r i => hf i r) h _

theorem inForm_forUpTo_by_iff {β : Type} (v : β → Dev) {f : Nat → β → β} (hf : ∀ i r, (v (f i r)).inForm ↔ (v r).inForm) (r : β)
    (n : Nat) : (v (forUpTo n f r)).inForm ↔ (v r).inForm := inForm_foldl_by_iff v (fun r i => hf i r) r _

/-! ### Registers, domains and free values -/

@[simp] theorem inForm_wr (r : Reg) (i : Nat) (v : Word) : (d.wr r i v).inForm ↔ d.inForm := by simp [wr]

@[simp] theorem inForm_wrF (r : Reg) (i hi lo v : Nat) : (d.wrF r i hi lo v).inForm ↔ d.inForm := Iff.rfl

@[simp] theorem inForm_wrB (r : Reg) (i b : Nat) (v : Bool) : (d.wrB r i b v).inForm ↔ d.inForm := Iff.rfl

@[simp] theorem inForm_satF (r : Reg) (i hi lo n : Nat) : (d.satF r i hi lo n).inForm ↔ d.inForm := Iff.rfl

@[simp] theorem inForm_wrapF (r : Reg) (i hi lo n : Nat) : (d.wrapF r i hi lo n).inForm ↔ d.inForm := Iff.rfl

@[simp] theorem inForm_free : d.free.2.inForm ↔ d.inForm := by simp [free]

/-! ### The axis estimator -/

@[simp] theorem inForm_setAxis (a : Nat) (x : Axis) : (d.setAxis a x).inForm ↔ d.inForm := by simp [setAxis]

@[simp] theorem inForm_alignOffset (a : Nat) (sel : TrackerSel) (count : Word) (target : P48) :
    (d.alignOffset a sel count target).inForm ↔ d.inForm := by
  simp [alignOffset]

/-! ### Event sources and queues -/

@[simp] theorem inForm_setSource (i : Nat) (s : Source) : (d.setSource i s).inForm ↔ d.inForm := by simp [setSource]

@[simp] theorem inForm_latchWaits (i : Nat) : (d.latchWaits i).inForm ↔ d.inForm := by simp [latchWaits]

@[simp] theorem inForm_raiseAt (i : Nat) (time : Word) : (d.raiseAt i time).inForm ↔ d.inForm := by simp [raiseAt]

@[simp] theorem inForm_raise (i : Nat) : (d.raise i).inForm ↔ d.inForm := inForm_of_same (sameMemories_raise d i)

@[simp] theorem inForm_setLevel (i : Nat) (b : Bool) :
    (d.setLevel i b).inForm ↔ d.inForm := inForm_of_same (sameMemories_setLevel d i b)

/-! ### The memories -/

@[simp] theorem inForm_sramStore (hd : d.inForm) (a : Nat) (x : MemWord) :
    (d.sramStore a x).inForm := MemoriesWf.sramStore hd a x

@[simp] theorem inForm_sramWrite (hd : d.inForm) (a : Nat) (w : Word) : (d.sramWrite a w).inForm := by simp [sramWrite, hd]

@[simp] theorem inForm_sramPoison (hd : d.inForm) (a : Nat) : (d.sramPoison a).inForm := by simp [sramPoison, hd]

@[simp] theorem inForm_sramWrites (hd : d.inForm) (a : Nat) (ws : List Word) :
    (d.sramWrites a ws).inForm := MemoriesWf.sramWrites hd a ws

@[simp] theorem inForm_log (hd : d.inForm) (sev code : Nat) (a : Word) (b : Nat) :
    (d.log sev code a b).inForm := MemoriesWf.log hd sev code a b

@[simp] theorem inForm_sramCe (r : Nat) : (d.sramCe r).inForm ↔ d.inForm := inForm_of_same (sameMemories_sramCe d r)

@[simp] theorem inForm_sramUe (hd : d.inForm) (r kind a : Nat) : (d.sramUe r kind a).inForm := MemoriesWf.sramUe hd r kind a

@[simp] theorem inForm_sramRead (hd : d.inForm) (a : Nat) : (d.sramRead a).2.inForm := MemoriesWf.sramRead hd a

@[simp] theorem inForm_sramMerge (hd : d.inForm) (a : Nat) (f : Word → Word) :
    (d.sramMerge a f).2.inForm := MemoriesWf.sramMerge hd a f

@[simp] theorem inForm_sramReads (hd : d.inForm) (a n : Nat) : (d.sramReads a n).2.2.inForm := MemoriesWf.sramReads hd a n

@[simp] theorem inForm_sramReadAll (hd : d.inForm) (a n : Nat) : (d.sramReadAll a n).2.2.inForm := MemoriesWf.sramReadAll hd a n

@[simp] theorem inForm_putTile (hd : d.inForm) (q : Nat) (t : Tile) : (d.putTile q t).inForm := MemoriesWf.putTile hd q t

@[simp] theorem inForm_setRewriteQueue (s : Nat) (l : List Nat) : (d.setRewriteQueue s l).inForm ↔ d.inForm := by
  simp [setRewriteQueue]

@[simp] theorem inForm_dropBids (s : Nat) : (d.dropBids s).inForm ↔ d.inForm := by simp [dropBids]

@[simp] theorem inForm_writeTile (hd : d.inForm) (r c q : Nat) (ws : List Word) (tag : BitVec 64) :
    (d.writeTile r c q ws tag).2.inForm := MemoriesWf.writeTile hd r c q ws tag

@[simp] theorem inForm_readBursts (hd : d.inForm) (r c q n : Nat) (u : Bool) (f : Tile → Nat) :
    (d.readBursts r c q n u f).2.2.inForm := MemoriesWf.readBursts hd r c q n u f

@[simp] theorem inForm_readTile (hd : d.inForm) (r c q n : Nat) (use : Bool) : (d.readTile r c q n use).2.2.inForm := by
  simp [readTile, hd]

@[simp] theorem inForm_readTag (hd : d.inForm) (r c q n : Nat) : (d.readTag r c q n).2.2.inForm := by simp [readTag, hd]

/-! ### Event controller commands -/

@[simp] theorem inForm_refreshQfull (q : Nat) : (d.refreshQfull q).inForm ↔ d.inForm := by simp [refreshQfull]

@[simp] theorem inForm_commitRecord (hd : d.inForm) (q i : Nat) : (d.commitRecord q i).inForm := by simp [commitRecord, hd]

@[simp] theorem inForm_markDelayed (q : Nat) (full : Bool) : (d.markDelayed q full).inForm ↔ d.inForm := by simp [markDelayed]

@[simp] theorem inForm_eventCommitOp (hd : d.inForm) (q : Nat) : (eventCommitOp q d).inForm := by
  unfold eventCommitOp
  dsimp only
  repeat' split
  all_goals simp [hd]

@[simp] theorem inForm_eventRaiseOp (i : Nat) : (eventRaiseOp i d).inForm ↔ d.inForm := by
  unfold eventRaiseOp
  repeat' split
  all_goals simp

@[simp] theorem inForm_levelInactiveOp (i : Nat) : (levelInactiveOp i d).inForm ↔ d.inForm := by simp [levelInactiveOp]

@[simp] theorem inForm_evcSetOp (i : Nat) : (evcSetOp i d).inForm ↔ d.inForm := by simp [evcSetOp]

@[simp] theorem inForm_evcAckOp (i : Nat) : (evcAckOp i d).inForm ↔ d.inForm := by simp [evcAckOp]

@[simp] theorem inForm_evcClrOp (i : Nat) : (evcClrOp i d).inForm ↔ d.inForm := by simp [evcClrOp]

@[simp] theorem inForm_queuePopOp (q : Nat) : (queuePopOp q d).inForm ↔ d.inForm := by simp [queuePopOp]

@[simp] theorem inForm_queueConsOp (q c : Nat) : (queueConsOp q c d).inForm ↔ d.inForm := by simp [queueConsOp]

@[simp] theorem inForm_alarmFireOp (t : Nat) : (alarmFireOp t d).inForm ↔ d.inForm := by simp [alarmFireOp]

@[simp] theorem inForm_alarmArmOp (t : Nat) (time : Word) : (alarmArmOp t time d).inForm ↔ d.inForm := by simp [alarmArmOp]

@[simp] theorem inForm_srcCfgWrite (i : Nat) (w : Word) : (srcCfgWrite i w d).inForm ↔ d.inForm := by simp [srcCfgWrite]

@[simp] theorem inForm_queueHead (hd : d.inForm) (q k : Nat) : (d.queueHead q k).2.inForm := by
  unfold queueHead
  repeat' split
  all_goals simp [hd]

@[simp] theorem inForm_dropDeadLevels : d.dropDeadLevels.inForm ↔ d.inForm :=
  inForm_forUpTo_iff (fun i e => by split <;> simp) 1024

/-! ### Outputs of the field I/O die -/

@[simp] theorem inForm_setOutDrv (x : Nat) (o : OutDrv) : (d.setOutDrv x o).inForm ↔ d.inForm := by simp [setOutDrv]

@[simp] theorem inForm_refreshOutputs (x : Nat) : (d.refreshOutputs x).inForm ↔ d.inForm := by simp [refreshOutputs]

@[simp] theorem inForm_schedulePulse (x : Nat) (p : Pulse) : (d.schedulePulse x p).inForm ↔ d.inForm := Iff.rfl

@[simp] theorem inForm_outputPulseStartOp (x : Nat) : (outputPulseStartOp x d).inForm ↔ d.inForm := by
  unfold outputPulseStartOp
  dsimp only
  repeat' split
  all_goals simp

@[simp] theorem inForm_outputPulseEndOp (x : Nat) : (outputPulseEndOp x d).inForm ↔ d.inForm := by
  unfold outputPulseEndOp
  dsimp only
  repeat' split
  all_goals simp

@[simp] theorem inForm_shutOff (x : Nat) (therm : Bool) : (d.shutOff x therm).inForm ↔ d.inForm := by simp [shutOff]

@[simp] theorem inForm_driverShutoffOp (x : Nat) : (driverShutoffOp x d).inForm ↔ d.inForm := by simp [driverShutoffOp]

@[simp] theorem inForm_driverOvertempOp (x : Nat) : (driverOvertempOp x d).inForm ↔ d.inForm := by
  unfold driverOvertempOp
  repeat' split
  all_goals simp

@[simp] theorem inForm_driverRetryOp (x : Nat) (temp : Int) :
    (driverRetryOp x temp d).inForm ↔ d.inForm := by simp [driverRetryOp]

@[simp] theorem inForm_unlockOp (x : Nat) : (unlockOp x d).inForm ↔ d.inForm := by simp [unlockOp]

@[simp] theorem inForm_polarityCheckOp (x : Nat) : (polarityCheckOp x d).inForm ↔ d.inForm := by simp [polarityCheckOp]

@[simp] theorem inForm_polarityCheckDoneOp (x : Nat) (mv : Int) : (polarityCheckDoneOp x mv d).inForm ↔ d.inForm := by
  unfold polarityCheckDoneOp
  dsimp only
  repeat' split
  all_goals simp

@[simp] theorem inForm_applyOutEn (x : Nat) : (d.applyOutEn x).inForm ↔ d.inForm := by simp [applyOutEn]

/-! ### Trigger records and heads -/

@[simp] theorem inForm_emit (m : OutMsg) : (d.emit m).inForm ↔ d.inForm := by simp [emit]

@[simp] theorem inForm_setHead (h : Nat) (x : CxiHead) : (d.setHead h x).inForm ↔ d.inForm := by simp [setHead]

@[simp] theorem inForm_headEvent (h : Nat) : (d.headEvent h).inForm ↔ d.inForm := by simp [headEvent]

@[simp] theorem inForm_lossEvent (h cause : Nat) : (d.lossEvent h cause).inForm ↔ d.inForm := by simp [lossEvent]

@[simp] theorem inForm_countLine (h : Nat) : (d.countLine h).inForm ↔ d.inForm := by simp [countLine]

@[simp] theorem inForm_extraLine (h : Nat) : (d.extraLine h).inForm ↔ d.inForm := by simp [extraLine]

@[simp] theorem inForm_passLines (h : Nat) : (d.passLines h).inForm ↔ d.inForm := by simp [passLines]

@[simp] theorem inForm_refreshRecq (h : Nat) : (d.refreshRecq h).inForm ↔ d.inForm := Iff.rfl

@[simp] theorem inForm_loseRecord (h cause : Nat) (r : TrigRecord) : (d.loseRecord h cause r).inForm ↔ d.inForm := by
  simp [loseRecord]

@[simp] theorem inForm_takeRecord (r : TrigRecord) : (d.takeRecord r).inForm ↔ d.inForm := by
  unfold takeRecord
  dsimp only
  repeat' split
  all_goals simp

@[simp] theorem inForm_requestTrig (l : Nat) (p : TrigPkt) : (d.requestTrig l p).inForm ↔ d.inForm := by simp [requestTrig]

/-! ### Spoor -/

@[simp] theorem inForm_setTracker (a : Nat) (sel : TrackerSel) (k : Tracker) :
    (d.setTracker a sel k).inForm ↔ d.inForm := Iff.rfl

@[simp] theorem inForm_setActQueue (k : Nat) (l : List ActEntry) :
    (d.setActQueue k l).inForm ↔ d.inForm := by simp [setActQueue]

@[simp] theorem inForm_setGen (g : Nat) (x : Gen) : (d.setGen g x).inForm ↔ d.inForm := by simp [setGen]

@[simp] theorem inForm_firePulses (out ofs t : Word) (st : AxState) : (d.firePulses out ofs t st).inForm ↔ d.inForm := by
  simp [firePulses]

@[simp] theorem inForm_firePackets (cxp out t : Word) : (d.firePackets cxp out t).inForm ↔ d.inForm := by simp [firePackets]

@[simp] theorem inForm_fireNow (g : Nat) (f : FixedFire) : (d.fireNow g f).inForm ↔ d.inForm := by simp [fireNow]

@[simp] theorem inForm_fixFire (g : Nat) (f : FixedFire) : (d.fixFire g f).inForm ↔ d.inForm := by simp [fixFire]

@[simp] theorem inForm_dropPoints (g n : Nat) : (d.dropPoints g n).inForm ↔ d.inForm := by simp [dropPoints]

@[simp] theorem inForm_passFixed (g : Nat) (f : FixedFire) : (d.passFixed g f).inForm ↔ d.inForm := by simp [passFixed]

@[simp] theorem inForm_passPoints (g : Nat) (m : P48) : (d.passPoints g m).inForm ↔ d.inForm := by
  unfold passPoints
  dsimp only
  repeat' split
  all_goals simp

@[simp] theorem inForm_fixAhead (g n : Nat) : (fixAhead g n d).inForm ↔ d.inForm := by
  induction n generalizing d with
  | zero => rfl
  | succ n ih => simp [fixAhead, ih]

@[simp] theorem inForm_fixNext (g : Nat) : (d.fixNext g).inForm ↔ d.inForm := by simp [fixNext]

@[simp] theorem inForm_settleGen (g : Nat) : (d.settleGen g).inForm ↔ d.inForm := by simp [settleGen]

@[simp] theorem inForm_pollGen (g : Nat) : (d.pollGen g).inForm ↔ d.inForm := by simp [pollGen]

@[simp] theorem inForm_edgeGen (g : Nat) : (d.edgeGen g).inForm ↔ d.inForm := by simp [edgeGen]

@[simp] theorem inForm_forGens {f : Dev → Nat → Dev} (hf : ∀ e g, (f e g).inForm ↔ e.inForm) (a : Nat) :
    (d.forGens a f).inForm ↔ d.inForm := inForm_forUpTo_iff (fun g e => by split <;> simp [hf]) 64

@[simp] theorem inForm_settleAll : d.settleAll.inForm ↔ d.inForm := by simp [settleAll]

@[simp] theorem inForm_regridGen (g : Nat) : (d.regridGen g).inForm ↔ d.inForm := by simp [regridGen]

@[simp] theorem inForm_regridLater (g : Nat) : (d.regridLater g).inForm ↔ d.inForm := by simp [regridLater]

@[simp] theorem inForm_triggerFixOp (g : Nat) : (triggerFixOp g d).inForm ↔ d.inForm := by simp [triggerFixOp]

@[simp] theorem inForm_triggerFireOp (g : Nat) : (triggerFireOp g d).inForm ↔ d.inForm := by
  unfold triggerFireOp
  dsimp only
  repeat' split
  all_goals simp

@[simp] theorem inForm_genCfgErr (g : Nat) : (d.genCfgErr g).inForm ↔ d.inForm := by simp [genCfgErr]

@[simp] theorem inForm_startGen (g : Nat) : (d.startGen g).inForm ↔ d.inForm := Iff.rfl

@[simp] theorem inForm_stopGen (g : Nat) : (d.stopGen g).inForm ↔ d.inForm := by simp [stopGen]

@[simp] theorem inForm_setGenEn (g : Nat) (en : Bool) : (setGenEn g en d).inForm ↔ d.inForm := by simp [setGenEn]

@[simp] theorem inForm_discardPassed (k : Nat) (p : P48) : (d.discardPassed k p).inForm ↔ d.inForm := by simp [discardPassed]

@[simp] theorem inForm_markLate (k : Nat) : (d.markLate k).inForm ↔ d.inForm := Iff.rfl

@[simp] theorem inForm_freshenAct (k : Nat) : (d.freshenAct k).inForm ↔ d.inForm := by simp [freshenAct]

@[simp] theorem inForm_freshenActs (a : Nat) : (d.freshenActs a).inForm ↔ d.inForm := by simp [freshenActs]

@[simp] theorem inForm_markAllLate : d.markAllLate.inForm ↔ d.inForm :=
  inForm_forUpTo_iff (fun k e => by split <;> simp) 16

@[simp] theorem inForm_pushAct (k : Nat) (pos : P48) (w : Word) : (d.pushAct k pos w).2.inForm ↔ d.inForm := by
  unfold pushAct
  dsimp only
  repeat' split
  all_goals simp

@[simp] theorem inForm_actPushOp (k : Nat) (w : Word) : (actPushOp k w d).inForm ↔ d.inForm := by simp [actPushOp]

@[simp] theorem inForm_actFireOp (k : Nat) : (actFireOp k d).inForm ↔ d.inForm := by
  unfold actFireOp
  dsimp only
  repeat' split
  all_goals simp

@[simp] theorem inForm_actEnable (k : Nat) (en : Bool) : (d.actEnable k en).inForm ↔ d.inForm := by simp [actEnable]

@[simp] theorem inForm_setChan (c : Nat) (x : Chan) : (d.setChan c x).inForm ↔ d.inForm := by simp [setChan]

@[simp] theorem inForm_setRun (c : Nat) (r : ChanRun) : (d.setRun c r).inForm ↔ d.inForm := Iff.rfl

@[simp] theorem inForm_oneShot (out : Nat) (w1 t : Word) : (d.oneShot out w1 t).inForm ↔ d.inForm := by simp [oneShot]

@[simp] theorem inForm_fixShot (c : Nat) : (d.fixShot c).inForm ↔ d.inForm := by
  unfold fixShot
  repeat' split
  all_goals simp

@[simp] theorem inForm_fixShots : d.fixShots.inForm ↔ d.inForm := by simp [fixShots]

@[simp] theorem inForm_cutWaits (b : Nat) : (d.cutWaits b).inForm ↔ d.inForm := by
  refine inForm_foldl_iff (fun e c => ?_) _
  repeat' split
  all_goals simp

@[simp] theorem inForm_refreshLevels (a : Nat) : (d.refreshLevels a).inForm ↔ d.inForm := by simp [refreshLevels]

@[simp] theorem inForm_refreshAxis (a : Nat) : (d.refreshAxis a).inForm ↔ d.inForm := by simp [refreshAxis]

@[simp] theorem inForm_refreshSlip (a : Nat) : (d.refreshSlip a).inForm ↔ d.inForm := by
  unfold refreshSlip
  dsimp only
  repeat' split
  all_goals simp

@[simp] theorem inForm_reportMove (old k : Tracker) (b : Nat) : (reportMove old k d b).inForm ↔ d.inForm := by simp [reportMove]

@[simp] theorem inForm_noteFault (hit : Nat → Bool) : (d.noteFault hit).inForm ↔ d.inForm := by
  unfold noteFault
  dsimp only
  repeat' split
  all_goals simp

@[simp] theorem inForm_discardActs (sel : Dev → Nat → Bool) (p : P48) : (d.discardActs sel p).inForm ↔ d.inForm := by
  simp [discardActs]

@[simp] theorem inForm_moveAxis (a : Nat) (k : Tracker) : (d.moveAxis a k).inForm ↔ d.inForm := by simp [moveAxis]

@[simp] theorem inForm_rereadAxis (old : Nat → Tracker) (a : Nat) :
    (rereadAxis old d a).inForm ↔ d.inForm := by simp [rereadAxis]

@[simp] theorem inForm_reread_iff {f : Dev → Dev} (hf : ∀ e, (f e).inForm ↔ e.inForm) : (reread f d).inForm ↔ d.inForm := by
  simp [reread, hf]

@[simp] theorem inForm_moveTracker (a : Nat) (sel : TrackerSel) (k : Tracker) : (d.moveTracker a sel k).inForm ↔ d.inForm := by
  unfold moveTracker
  repeat' split
  all_goals simp

@[simp] theorem inForm_setCause (a : Nat) (sel : TrackerSel) (c : Nat) : (d.setCause a sel c).inForm ↔ d.inForm := by
  unfold setCause
  dsimp only
  repeat' split
  all_goals simp

@[simp] theorem inForm_enterCoast (a : Nat) (sel : TrackerSel) (c : Nat) : (d.enterCoast a sel c).inForm ↔ d.inForm := by
  simp [enterCoast]

@[simp] theorem inForm_enterFault (a : Nat) (sel : TrackerSel) (c : Nat) : (d.enterFault a sel c).inForm ↔ d.inForm := by
  simp [enterFault]

@[simp] theorem inForm_enterIdle (a : Nat) (sel : TrackerSel) : (d.enterIdle a sel).inForm ↔ d.inForm := by simp [enterIdle]

@[simp] theorem inForm_reacquire (a : Nat) (sel : TrackerSel) (count te : Word) :
    (d.reacquire a sel count te).inForm ↔ d.inForm := by
  simp [reacquire]

@[simp] theorem inForm_rejectEdge (a : Nat) (sel : TrackerSel) (count te : Word) :
    (d.rejectEdge a sel count te).inForm ↔ d.inForm := by
  simp [rejectEdge]

@[simp] theorem inForm_acquireEdge (a : Nat) (sel : TrackerSel) (count te : Word) (fwd : Bool) :
    (d.acquireEdge a sel count te fwd).inForm ↔ d.inForm := by
  unfold acquireEdge
  dsimp only
  repeat' split
  all_goals simp

@[simp] theorem inForm_trackEdge (a : Nat) (sel : TrackerSel) (count te : Word) (fwd : Bool) :
    (d.trackEdge a sel count te fwd).2.inForm ↔ d.inForm := by
  unfold trackEdge
  dsimp only
  repeat' split
  all_goals simp

@[simp] theorem inForm_trackerEdge (a : Nat) (sel : TrackerSel) (count te : Word) (fwd : Bool) :
    (d.trackerEdge a sel count te fwd).2.inForm ↔ d.inForm := by
  unfold trackerEdge
  dsimp only
  repeat' split
  all_goals simp

@[simp] theorem inForm_setEncIn (n : Nat) (e : EncIn) : (d.setEncIn n e).inForm ↔ d.inForm := by simp [setEncIn]

@[simp] theorem inForm_encCheck (n : Nat) : (d.encCheck n).inForm ↔ d.inForm := by simp [encCheck]

@[simp] theorem inForm_axisEdge (a : Nat) (count te : Word) (fwd : Bool) : (d.axisEdge a count te fwd).inForm ↔ d.inForm := by
  simp [axisEdge]

@[simp] theorem inForm_feedEdge (n : Nat) (te : Word) (up : Bool) : (d.feedEdge n te up).inForm ↔ d.inForm := by simp [feedEdge]

@[simp] theorem inForm_skipState (n : Nat) (te : Word) (rate : Bool) : (d.skipState n te rate).inForm ↔ d.inForm := by
  simp [skipState]

@[simp] theorem inForm_overdueEdgeOp (a : Nat) (sel : TrackerSel) : (overdueEdgeOp a sel d).inForm ↔ d.inForm := by
  simp [overdueEdgeOp]

@[simp] theorem inForm_coastTimeLimitOp (a : Nat) (sel : TrackerSel) : (coastTimeLimitOp a sel d).inForm ↔ d.inForm := by
  simp [coastTimeLimitOp]

@[simp] theorem inForm_coastTravelLimitOp (a : Nat) (sel : TrackerSel) : (coastTravelLimitOp a sel d).inForm ↔ d.inForm := by
  simp [coastTravelLimitOp]

@[simp] theorem inForm_standstillOp (a : Nat) (sel : TrackerSel) : (standstillOp a sel d).inForm ↔ d.inForm := by
  simp [standstillOp]

@[simp] theorem inForm_axisDisableOp (a : Nat) : (axisDisableOp a d).inForm ↔ d.inForm := by simp [axisDisableOp]

@[simp] theorem inForm_axisCfgErr (a : Nat) : (d.axisCfgErr a).inForm ↔ d.inForm := Iff.rfl

@[simp] theorem inForm_givePosition (a : Nat) (p : P48) : (d.givePosition a p).inForm ↔ d.inForm := by simp [givePosition]

@[simp] theorem inForm_restartOp (a : Nat) : (restartOp a d).inForm ↔ d.inForm := by
  unfold restartOp
  dsimp only
  repeat' split
  all_goals simp

@[simp] theorem inForm_presetOp (a : Nat) : (presetOp a d).inForm ↔ d.inForm := by
  unfold presetOp
  dsimp only
  repeat' split
  all_goals simp

@[simp] theorem inForm_fallBack (a : Nat) : (d.fallBack a).inForm ↔ d.inForm := by simp [fallBack]

@[simp] theorem inForm_encFaultRises (n : Nat) : (d.encFaultRises n).inForm ↔ d.inForm := by simp [encFaultRises]

@[simp] theorem inForm_selPriOp (a : Nat) : (selPriOp a d).inForm ↔ d.inForm := by simp [selPriOp]

@[simp] theorem inForm_secClrOp (a : Nat) : (secClrOp a d).inForm ↔ d.inForm := Iff.rfl

@[simp] theorem inForm_slipWindowEndOp (a : Nat) : (slipWindowEndOp a d).inForm ↔ d.inForm := by
  unfold slipWindowEndOp
  dsimp only
  repeat' split
  all_goals simp

/-! ### Field I/O -/

@[simp] theorem inForm_encoderPinCrossingOp (n : Nat) (ch : EncCh) (level : Bool) :
    (encoderPinCrossingOp n ch level d).inForm ↔ d.inForm := by
  simp [encoderPinCrossingOp]

@[simp] theorem inForm_refreshEncFault (n : Nat) : (d.refreshEncFault n).inForm ↔ d.inForm := by simp [refreshEncFault]

@[simp] theorem inForm_setEncFlag (n b : Nat) : (d.setEncFlag n b).inForm ↔ d.inForm := by simp [setEncFlag]

@[simp] theorem inForm_zCheck (n : Nat) (stamp : Word) : (d.zCheck n stamp).inForm ↔ d.inForm := by
  unfold zCheck
  dsimp only
  repeat' split
  all_goals simp

@[simp] theorem inForm_zTransition (n : Nat) (level : Bool) (stamp : Word) :
    (d.zTransition n level stamp).inForm ↔ d.inForm := by
  simp [zTransition]

@[simp] theorem inForm_directionCheck (n : Nat) (last : Option Word) (stamp : Word) (up : Bool) :
    (d.directionCheck n last stamp up).inForm ↔ d.inForm := by
  unfold directionCheck
  dsimp only
  repeat' split
  all_goals simp

@[simp] theorem inForm_countEdge (n : Nat) (last : Option Word) (stamp : Word) (fwd : Bool) :
    (d.countEdge n last stamp fwd).inForm ↔ d.inForm := by
  simp [countEdge]

@[simp] theorem inForm_encoderEdgeAcceptOp (n : Nat) (ch : EncCh) : (encoderEdgeAcceptOp n ch d).inForm ↔ d.inForm := by
  unfold encoderEdgeAcceptOp
  dsimp only
  repeat' split
  all_goals simp

@[simp] theorem inForm_fioEncCfgWriteOp (n : Nat) (v : Word) : (fioEncCfgWriteOp n v d).inForm ↔ d.inForm := by
  simp [fioEncCfgWriteOp]

@[simp] theorem inForm_refreshFinFault (k : Nat) : (d.refreshFinFault k).inForm ↔ d.inForm := by simp [refreshFinFault]

@[simp] theorem inForm_setPairFault (pair : FieldPair) (f : PairFault) (on : Bool) :
    (d.setPairFault pair f on).inForm ↔ d.inForm := by
  unfold setPairFault
  dsimp only
  repeat' split
  all_goals simp

@[simp] theorem inForm_pairFaultDetectOp (pair : FieldPair) (f : PairFault) :
    (pairFaultDetectOp pair f d).inForm ↔ d.inForm := by
  simp [pairFaultDetectOp]

@[simp] theorem inForm_pairFaultClearOp (pair : FieldPair) (f : PairFault) : (pairFaultClearOp pair f d).inForm ↔ d.inForm := by
  unfold pairFaultClearOp
  dsimp only
  repeat' split
  all_goals simp

@[simp] theorem inForm_wireProbeOp (follow : List (Fin 40)) : (wireProbeOp follow d).inForm ↔ d.inForm := by simp [wireProbeOp]

@[simp] theorem inForm_setFieldIn (k : Nat) (f : FieldIn) : (d.setFieldIn k f).inForm ↔ d.inForm := by simp [setFieldIn]

@[simp] theorem inForm_fieldInputPinOp (k : Nat) (level : Bool) : (fieldInputPinOp k level d).inForm ↔ d.inForm := by
  simp [fieldInputPinOp]

@[simp] theorem inForm_fieldInputAcceptOp (k : Nat) : (fieldInputAcceptOp k d).inForm ↔ d.inForm := by simp [fieldInputAcceptOp]

@[simp] theorem inForm_reversedDetectOp (k : Nat) : (reversedDetectOp k d).inForm ↔ d.inForm := by simp [reversedDetectOp]

/-! ### CoaXPress ingest -/

@[simp] theorem inForm_setLink (l : Nat) (x : CxiLink) : (d.setLink l x).inForm ↔ d.inForm := by simp [setLink]

@[simp] theorem inForm_linkEvent (l : Nat) : (d.linkEvent l).inForm ↔ d.inForm := by simp [linkEvent]

@[simp] theorem inForm_setLinkState (l st : Nat) : (d.setLinkState l st).inForm ↔ d.inForm := by simp [setLinkState]

@[simp] theorem inForm_linkError (l hi lo n : Nat) : (d.linkError l hi lo n).inForm ↔ d.inForm := by simp [linkError]

@[simp] theorem inForm_modOpen (h : Nat) (f : StgLine → StgLine) : (d.modOpen h f).inForm ↔ d.inForm := by simp [modOpen]

@[simp] theorem inForm_modOpens (h : Nat) (f : StgLine → StgLine) : (d.modOpens h f).inForm ↔ d.inForm := by simp [modOpens]

@[simp] theorem inForm_takeSlots (h : Nat) : (d.takeSlots h).inForm ↔ d.inForm := by simp [takeSlots]

@[simp] theorem inForm_stageWord (hd : d.inForm) (p i : Nat) (w : Word) (bad : Bool) : (d.stageWord p i w bad).inForm := by
  unfold stageWord
  repeat' split
  all_goals simp [hd]

@[simp] theorem inForm_flushWord (hd : d.inForm) (h : Nat) (c : CurLine) : (d.flushWord h c).inForm := by
  simp +contextual [flushWord, hd]

@[simp] theorem inForm_pushPixel (hd : d.inForm) (h : Nat) (v : Nat × Nat × Nat) (bad : Bool) :
    (d.pushPixel h v bad).inForm := by
  unfold pushPixel
  dsimp only
  repeat' split
  all_goals simp [hd]

@[simp] theorem inForm_takePixels (hd : d.inForm) (p n bits avail : Nat) (firstBad restBad : Bool) :
    (d.takePixels p n bits avail firstBad restBad).inForm := by
  induction n generalizing d bits avail firstBad with
  | zero => exact hd
  | succ n ih =>
    unfold takePixels
    dsimp only
    split
    · split <;> simp [hd]
    · exact ih (by simp [hd]) ..

@[simp] theorem inForm_pixelItem (hd : d.inForm) (h : Nat) (x : BitVec 32) (parityBad crcBad : Bool) :
    (d.pixelItem h x parityBad crcBad).inForm := by
  unfold pixelItem
  repeat' split
  all_goals simp [hd]

@[simp] theorem inForm_endLine (hd : d.inForm) (h cause : Nat) : (d.endLine h cause).inForm := by
  unfold endLine
  dsimp only
  repeat' split
  all_goals simp [hd]

@[simp] theorem inForm_expireRecords (h : Nat) : (d.expireRecords h).inForm ↔ d.inForm := by simp [expireRecords]

@[simp] theorem inForm_applyLater (h : Nat) : (d.applyLater h).inForm ↔ d.inForm := by
  unfold applyLater
  dsimp only
  repeat' split
  all_goals simp

@[simp] theorem inForm_startLine (hd : d.inForm) (h : Nat) (at_ : Word) : (d.startLine h at_).inForm := by
  unfold startLine
  dsimp only
  repeat' split
  all_goals simp [hd]

@[simp] theorem inForm_fallBackLine (h : Nat) : (d.fallBackLine h).inForm ↔ d.inForm := by simp [fallBackLine]

@[simp] theorem inForm_startIn (hd : d.inForm) (h : Nat) (at_ : Word) (crcBad : Bool) : (d.startIn h at_ crcBad).inForm := by
  simp [startIn, hd]

@[simp] theorem inForm_streamItem (hd : d.inForm) (h l : Nat) (at_ : Word) (crcBad : Bool) (x : StreamItem) :
    (d.streamItem h l at_ crcBad x).inForm := by
  unfold streamItem
  dsimp only
  repeat' split
  all_goals simp [hd]

@[simp] theorem inForm_streamGap (hd : d.inForm) (h : Nat) : (d.streamGap h).inForm := by simp [streamGap, hd]

@[simp] theorem inForm_deliverPacket (hd : d.inForm) (h l : Nat) (at_ : Word) (p : StreamPacket) :
    (d.deliverPacket h l at_ p).inForm := by
  simp +contextual [deliverPacket, hd]

@[simp] theorem inForm_drainHeld (hd : d.inForm) (p n : Nat) : (d.drainHeld p n).inForm := by
  induction n generalizing d with
  | zero => exact hd
  | succ n ih =>
    unfold drainHeld
    dsimp only
    repeat' split
    · exact ih (by simp [hd])
    all_goals exact hd

@[simp] theorem inForm_skipGap (hd : d.inForm) (h : Nat) : (d.skipGap h).inForm := by
  unfold skipGap
  dsimp only
  repeat' split
  all_goals simp [hd]

@[simp] theorem inForm_streamPacketOp (hd : d.inForm) (l : Nat) (p : StreamPacket) : (streamPacketOp l p d).inForm := by
  unfold streamPacketOp
  dsimp only
  split
  · exact hd
  · split <;> simp [hd]

@[simp] theorem inForm_gapTimeoutOp (hd : d.inForm) (h : Nat) : (gapTimeoutOp h d).inForm := by simp [gapTimeoutOp, hd]

@[simp] theorem inForm_lineLostTimeoutOp (h : Nat) : (lineLostTimeoutOp h d).inForm ↔ d.inForm := by simp [lineLostTimeoutOp]

@[simp] theorem inForm_chamoisLineStartOp (h : Nat) : (chamoisLineStartOp h d).inForm ↔ d.inForm := by
  unfold chamoisLineStartOp
  dsimp only
  repeat' split
  all_goals simp

@[simp] theorem inForm_endControl (h : Nat) (r : CtrlResp) : (d.endControl h r).inForm ↔ d.inForm := by simp [endControl]

@[simp] theorem inForm_takeLater (h : Nat) : (d.takeLater h).inForm ↔ d.inForm := by
  unfold takeLater
  dsimp only
  repeat' split
  all_goals simp

@[simp] theorem inForm_setHeadState (hd : d.inForm) (h : Nat) (st : HeadState) : (d.setHeadState h st).inForm := by
  simp [setHeadState, hd]

@[simp] theorem inForm_setHeadCause (h c : Nat) : (d.setHeadCause h c).inForm ↔ d.inForm := Iff.rfl

@[simp] theorem inForm_headFault (hd : d.inForm) (h c : Nat) : (d.headFault h c).inForm := by simp [headFault, hd]

@[simp] theorem inForm_startLinking (hd : d.inForm) (h : Nat) : (d.startLinking h).inForm := by simp [startLinking, hd]

@[simp] theorem inForm_headLinked (hd : d.inForm) (h : Nat) : (d.headLinked h).inForm := by simp [headLinked, hd]

@[simp] theorem inForm_tryLinked (hd : d.inForm) (h : Nat) : (d.tryLinked h).inForm := by simp [tryLinked, hd]

@[simp] theorem inForm_headsService (hd : d.inForm) : d.headsService.inForm := by simp +contextual [headsService, hd]

@[simp] theorem inForm_headFaultRetryOp (hd : d.inForm) (h : Nat) : (headFaultRetryOp h d).inForm := by
  simp [headFaultRetryOp, hd]

@[simp] theorem inForm_retryOp (hd : d.inForm) (h : Nat) : (retryOp h d).inForm := by simp [retryOp, hd]

@[simp] theorem inForm_headLinkLossOp (hd : d.inForm) (h : Nat) : (headLinkLossOp h d).inForm := by simp [headLinkLossOp, hd]

@[simp] theorem inForm_cxpLinkChangeOp (hd : d.inForm) (l : Nat) (up : Bool) : (cxpLinkChangeOp l up d).inForm := by
  unfold cxpLinkChangeOp
  dsimp only
  repeat' split
  all_goals simp [hd]

@[simp] theorem inForm_setPcxState (l st : Nat) : (d.setPcxState l st).inForm ↔ d.inForm := by simp [setPcxState]

@[simp] theorem inForm_pcxSample (l ma : Nat) : (d.pcxSample l ma).inForm ↔ d.inForm := Iff.rfl

@[simp] theorem inForm_pcxStart (l : Nat) : (d.pcxStart l).inForm ↔ d.inForm := by simp [pcxStart]

@[simp] theorem inForm_pcxFail (l st : Nat) : (d.pcxFail l st).inForm ↔ d.inForm := by simp [pcxFail]

@[simp] theorem inForm_pcxEnableOp (l : Nat) : (pcxEnableOp l d).inForm ↔ d.inForm := by simp [pcxEnableOp]

@[simp] theorem inForm_pcxDisable (l : Nat) : (pcxDisable l d).inForm ↔ d.inForm := by simp [pcxDisable]

@[simp] theorem inForm_pcxShortOp (l ma : Nat) (fltLow held : Bool) : (pcxShortOp l ma fltLow held d).inForm ↔ d.inForm := by
  simp [pcxShortOp]

@[simp] theorem inForm_pcxOvercurrentOp (l ma : Nat) : (pcxOvercurrentOp l ma d).inForm ↔ d.inForm := by simp [pcxOvercurrentOp]

@[simp] theorem inForm_pcxOpenOp (l ma : Nat) : (pcxOpenOp l ma d).inForm ↔ d.inForm := by simp [pcxOpenOp]

@[simp] theorem inForm_pcxOnOp (l : Nat) : (pcxOnOp l d).inForm ↔ d.inForm := by
  unfold pcxOnOp
  dsimp only
  repeat' split
  all_goals simp

@[simp] theorem inForm_pcxAutoRetryOp (l : Nat) : (pcxAutoRetryOp l d).inForm ↔ d.inForm := by simp [pcxAutoRetryOp]

@[simp] theorem inForm_pcxRetryOp (l : Nat) : (pcxRetryOp l d).inForm ↔ d.inForm := by simp [pcxRetryOp]

@[simp] theorem inForm_pcxFltAssertOp (g : Nat) : (pcxFltAssertOp g d).inForm ↔ d.inForm := by simp [pcxFltAssertOp]

@[simp] theorem inForm_discoveryPollOp (h : Nat) : (discoveryPollOp h d).inForm ↔ d.inForm := by simp [discoveryPollOp]

@[simp] theorem inForm_discoveryTimeoutOp (hd : d.inForm) (h : Nat) : (discoveryTimeoutOp h d).inForm := by
  simp [discoveryTimeoutOp, hd]

@[simp] theorem inForm_discoveryStarts : d.discoveryStarts.inForm ↔ d.inForm := by simp [discoveryStarts]

@[simp] theorem inForm_discoveryAnswerOp (hd : d.inForm) (x : DiscAnswer) : (discoveryAnswerOp x d).inForm := by
  unfold discoveryAnswerOp
  dsimp only
  repeat' split
  all_goals simp [hd]

@[simp] theorem inForm_sendTrig (l : Nat) (rising : Bool) : (d.sendTrig l rising).inForm ↔ d.inForm := by
  unfold sendTrig
  dsimp only
  repeat' split
  all_goals simp

@[simp] theorem inForm_cxpTriggerPacketOp (l : Nat) : (cxpTriggerPacketOp l d).inForm ↔ d.inForm := by simp [cxpTriggerPacketOp]

@[simp] theorem inForm_cxpFallPacketOp (l : Nat) : (cxpFallPacketOp l d).inForm ↔ d.inForm := by simp [cxpFallPacketOp]

@[simp] theorem inForm_heartbeatOp : (heartbeatOp d).inForm ↔ d.inForm := by simp [heartbeatOp]

@[simp] theorem inForm_controlRequest (h : Nat) (r : ControlReq) : (d.controlRequest h r).2.inForm ↔ d.inForm := by
  unfold controlRequest
  dsimp only
  repeat' split
  all_goals simp

@[simp] theorem inForm_controlRequestOp (h : Nat) (r : ControlReq) : (controlRequestOp h r d).inForm ↔ d.inForm := by
  simp [controlRequestOp]

@[simp] theorem inForm_controlAckOp (h : Nat) (crcOk : Bool) (code : Nat) (data : List Byte) :
    (controlAckOp h crcOk code data d).inForm ↔ d.inForm := by
  unfold controlAckOp
  dsimp only
  repeat' split
  all_goals simp

@[simp] theorem inForm_controlTimeoutOp (h : Nat) : (controlTimeoutOp h d).inForm ↔ d.inForm := by
  unfold controlTimeoutOp
  repeat' split
  all_goals simp

@[simp] theorem inForm_eventPacketOp (hd : d.inForm) (h : Nat) (payload : List Byte) : (eventPacketOp h payload d).inForm := by
  simp [eventPacketOp, hd]

@[simp] theorem inForm_refreshStgFree : d.refreshStgFree.inForm ↔ d.inForm := by simp [refreshStgFree]

@[simp] theorem inForm_headCfgErr (h : Nat) : (d.headCfgErr h).inForm ↔ d.inForm := by simp [headCfgErr]

/-! ### Herd Link -/

@[simp] theorem inForm_setPort (p : Nat) (x : HlkPort) : (d.setPort p x).inForm ↔ d.inForm := by simp [setPort]

@[simp] theorem inForm_setPortStat (p hi lo v : Nat) : (d.setPortStat p hi lo v).inForm ↔ d.inForm := by simp [setPortStat]

@[simp] theorem inForm_setPortState (p st : Nat) : (d.setPortState p st).inForm ↔ d.inForm := by simp [setPortState]

@[simp] theorem inForm_setPortRole (p r : Nat) : (d.setPortRole p r).inForm ↔ d.inForm := by simp [setPortRole]

@[simp] theorem inForm_portError (p hi lo n : Nat) : (d.portError p hi lo n).inForm ↔ d.inForm := by simp [portError]

@[simp] theorem inForm_hlkCfgErr : d.hlkCfgErr.inForm ↔ d.inForm := by simp [hlkCfgErr]

@[simp] theorem inForm_sendPort (p : Nat) (m : HlkMsg) : (d.sendPort p m).inForm ↔ d.inForm := Iff.rfl

@[simp] theorem inForm_sendPorts (ps : List Nat) (m : HlkMsg) : (d.sendPorts ps m).inForm ↔ d.inForm := by simp [sendPorts]

@[simp] theorem inForm_discardMsg (p : Nat) : (d.discardMsg p).inForm ↔ d.inForm := by simp [discardMsg]

@[simp] theorem inForm_arrive (hd : d.inForm) (r : Arrival) (states : List Nat) {f : Dev → Dev}
    (hf : ∀ e, e.inForm → (f e).inForm) : (d.arrive r states f).inForm := by
  simp [arrive, hd, hf]

@[simp] theorem inForm_portStep (p n : Nat) : (d.portStep p n).inForm ↔ d.inForm := Iff.rfl

@[simp] theorem inForm_portFail (p : Nat) : (d.portFail p).inForm ↔ d.inForm := by simp [portFail]

@[simp] theorem inForm_portRestart (p : Nat) : (d.portRestart p).inForm ↔ d.inForm := by simp [portRestart]

@[simp] theorem inForm_portSignalDetectOp (p : Nat) : (portSignalDetectOp p d).inForm ↔ d.inForm := by simp [portSignalDetectOp]

@[simp] theorem inForm_laneLockTimeoutOp (p : Nat) : (laneLockTimeoutOp p d).inForm ↔ d.inForm := by simp [laneLockTimeoutOp]

@[simp] theorem inForm_hlkTrainingTimeoutOp (p lanes : Nat) (skewed : Bool) :
    (hlkTrainingTimeoutOp p lanes skewed d).inForm ↔ d.inForm := by
  simp [hlkTrainingTimeoutOp]

@[simp] theorem inForm_portTrainRetryOp (p : Nat) : (portTrainRetryOp p d).inForm ↔ d.inForm := by
  unfold portTrainRetryOp
  repeat' split
  all_goals simp

@[simp] theorem inForm_helloDue (p : Nat) : (helloDue p d).inForm ↔ d.inForm := by
  unfold helloDue
  dsimp only
  repeat' split
  all_goals simp

@[simp] theorem inForm_notePeer (p num depth : Nat) : (d.notePeer p num depth).inForm ↔ d.inForm := by simp [notePeer]

@[simp] theorem inForm_helloOp (p : Nat) (m : HelloMsg) : (helloOp p m d).inForm ↔ d.inForm := by simp [helloOp]

@[simp] theorem inForm_judgeAlt (p : Nat) : (d.judgeAlt p).inForm ↔ d.inForm := by simp [judgeAlt]

@[simp] theorem inForm_giveFormer (p : Nat) : (d.giveFormer p).inForm ↔ d.inForm := by
  unfold giveFormer
  dsimp only
  repeat' split
  all_goals simp

@[simp] theorem inForm_portTrained (p : Nat) : (d.portTrained p).inForm ↔ d.inForm := by simp [portTrained]

@[simp] theorem inForm_delayProbeSendOp (p t1 : Nat) : (delayProbeSendOp p t1 d).inForm ↔ d.inForm := by simp [delayProbeSendOp]

@[simp] theorem inForm_delayReqOp (p t1 t2 t3 : Nat) : (delayReqOp p t1 t2 t3 d).inForm ↔ d.inForm := by simp [delayReqOp]

@[simp] theorem inForm_delayRspOp (p t1 t2 t3 t4 : Nat) : (delayRspOp p t1 t2 t3 t4 d).inForm ↔ d.inForm := by simp [delayRspOp]

@[simp] theorem inForm_sendAlert (kind detail : Nat) : (d.sendAlert kind detail).inForm ↔ d.inForm := by simp [sendAlert]

@[simp] theorem inForm_releaseFrozen : d.releaseFrozen.inForm ↔ d.inForm := by simp [releaseFrozen]

@[simp] theorem inForm_faultHerdAxes : d.faultHerdAxes.inForm ↔ d.inForm := by simp [faultHerdAxes]

@[simp] theorem inForm_setHerdState (st : Nat) : (d.setHerdState st).inForm ↔ d.inForm := by simp [setHerdState]

@[simp] theorem inForm_takeHerdRole : d.takeHerdRole.inForm ↔ d.inForm := by simp [takeHerdRole]

@[simp] theorem inForm_refreshHerdRole : d.refreshHerdRole.inForm ↔ d.inForm := by simp [refreshHerdRole]

@[simp] theorem inForm_commitEnds (m : CommitDone) : (d.commitEnds m).inForm ↔ d.inForm := by simp [commitEnds]

@[simp] theorem inForm_commitDoneOp (m : CommitDone) : (commitDoneOp m d).inForm ↔ d.inForm := by
  unfold commitDoneOp
  repeat' split
  all_goals simp

@[simp] theorem inForm_commitLinkDown : d.commitLinkDown.inForm ↔ d.inForm := by simp [commitLinkDown]

@[simp] theorem inForm_commitLost (m : CommitReq) : (d.commitLost m).inForm ↔ d.inForm := by simp [commitLost]

@[simp] theorem inForm_enumNext : d.enumNext.inForm ↔ d.inForm := by
  unfold enumNext
  dsimp only
  repeat' split
  all_goals simp

@[simp] theorem inForm_enumStart (num : Nat) (ports : List Nat) :
    (d.enumStart num ports).inForm ↔ d.inForm := by simp [enumStart]

@[simp] theorem inForm_enumerate : d.enumerate.2.inForm ↔ d.inForm := by
  unfold enumerate
  dsimp only
  repeat' split
  all_goals simp

@[simp] theorem inForm_herdEnumerateOp : (herdEnumerateOp d).inForm ↔ d.inForm := by simp [herdEnumerateOp]

@[simp] theorem inForm_restoreBelow (p : Nat) (below : List HerdMember) : (d.restoreBelow p below).inForm ↔ d.inForm := by
  refine inForm_forUpTo_iff (fun q e => ?_) 4
  dsimp only
  repeat' split
  all_goals simp

@[simp] theorem inForm_enumOp (p : Nat) (m : EnumMsg) : (enumOp p m d).inForm ↔ d.inForm := by simp [enumOp]

@[simp] theorem inForm_enumRspOp (p : Nat) (m : EnumRsp) : (enumRspOp p m d).inForm ↔ d.inForm := by
  unfold enumRspOp
  dsimp only
  repeat' split
  all_goals simp

@[simp] theorem inForm_alertOp (p : Nat) (m : AlertMsg) : (alertOp p m d).inForm ↔ d.inForm := by simp [alertOp]

@[simp] theorem inForm_sendUpkeep (p : Nat) (m : HlkMsg) : (d.sendUpkeep p m).inForm ↔ d.inForm := by simp [sendUpkeep]

@[simp] theorem inForm_failover (q : Nat) : (d.failover q).inForm ↔ d.inForm := by simp [failover]

@[simp] theorem inForm_upstreamLost : d.upstreamLost.inForm ↔ d.inForm := by
  unfold upstreamLost
  repeat' split
  all_goals simp

@[simp] theorem inForm_portGone (p discarded : Nat) : (d.portGone p discarded).inForm ↔ d.inForm := by simp [portGone]

@[simp] theorem inForm_dropOn (old : Option Nat) (m : MovedRange) : (d.dropOn old m).inForm ↔ d.inForm := by
  unfold dropOn
  dsimp only
  repeat' split
  all_goals simp

@[simp] theorem inForm_reparentOp (p : Nat) (m : MovedRange) : (reparentOp p m d).inForm ↔ d.inForm := by simp [reparentOp]

@[simp] theorem inForm_routeDropOp (p : Nat) (m : MovedRange) : (routeDropOp p m d).inForm ↔ d.inForm := by simp [routeDropOp]

@[simp] theorem inForm_stepTime (hd : d.inForm) (phase : Int) : (d.stepTime phase).inForm := by simp [stepTime, hd]

@[simp] theorem inForm_resyncOp (hd : d.inForm) : (resyncOp d).inForm := by simp [resyncOp, hd]

/-! ### Velvet tags -/

@[simp] theorem inForm_mismatch (behind : Bool) : (d.mismatch behind).2.inForm ↔ d.inForm := by
  unfold mismatch
  repeat' split
  all_goals simp

@[simp] theorem inForm_useTile (hd : d.inForm) (r cls q pchk : Nat) (gen : Option Nat) (behind accept : Bool) :
    (d.useTile r cls q pchk gen behind accept).2.2.inForm := by
  unfold useTile
  dsimp only
  repeat' split
  all_goals simp [hd]

/-! ### Completion rings -/

@[simp] theorem inForm_hostWrite (f addr : Nat) (bytes : List Byte) : (d.hostWrite f addr bytes).inForm ↔ d.inForm := by
  simp [hostWrite]

@[simp] theorem inForm_setMsix (f : Nat) (m : Msix) : (d.setMsix f m).inForm ↔ d.inForm := by simp [setMsix]

@[simp] theorem inForm_sendMsix (f vec : Nat) : (d.sendMsix f vec).inForm ↔ d.inForm := by simp [sendMsix]

@[simp] theorem inForm_flushMsix (f : Nat) : (d.flushMsix f).inForm ↔ d.inForm := by simp [flushMsix]

@[simp] theorem inForm_ringErr (f : Nat) : (d.ringErr f).inForm ↔ d.inForm := by simp [ringErr]

@[simp] theorem inForm_ringStopped (f : Nat) : (d.ringStopped f).inForm ↔ d.inForm := by simp [ringStopped]

@[simp] theorem inForm_badAcc (f : Nat) : (d.badAcc f).inForm ↔ d.inForm := by simp [badAcc]

@[simp] theorem inForm_setCq (r : Nat) (x : CompRing) : (d.setCq r x).inForm ↔ d.inForm := by simp [setCq]

@[simp] theorem inForm_refreshHold : d.refreshHold.inForm ↔ d.inForm := by simp [refreshHold]

@[simp] theorem inForm_setHeld (r n : Nat) : (d.setHeld r n).inForm ↔ d.inForm := by simp [setHeld]

@[simp] theorem inForm_cqWrite (r : Nat) (e : List Byte) : (d.cqWrite r e).inForm ↔ d.inForm := by simp [cqWrite]

@[simp] theorem inForm_heldEntry (hd : d.inForm) (r : Nat) : (d.heldEntry r).2.inForm := by
  unfold heldEntry
  dsimp only
  repeat' split
  all_goals simp [hd]

@[simp] theorem inForm_cqFlush (hd : d.inForm) (r n : Nat) : (cqFlush r n d).inForm := by
  induction n generalizing d with
  | zero => exact hd
  | succ n ih => simp [cqFlush, hd, ih]

@[simp] theorem inForm_holdPut (hd : d.inForm) (r : Nat) (e : List Byte) : (d.holdPut r e).inForm := by simp [holdPut, hd]

@[simp] theorem inForm_cqMessage (r : Nat) : (d.cqMessage r).inForm ↔ d.inForm := by simp [cqMessage]

@[simp] theorem inForm_cqAnnounce (r before : Nat) : (d.cqAnnounce r before).inForm ↔ d.inForm := by simp [cqAnnounce]

@[simp] theorem inForm_cqPut (hd : d.inForm) (r : Nat) (es : List (List Byte)) : (d.cqPut r es).inForm := by
  unfold cqPut
  dsimp only
  rw [inForm_cqAnnounce]
  refine inForm_foldl hd (fun e x he => ?_) _
  repeat' split
  all_goals simp [he]

theorem inForm_of_reserve {r : Nat} {x : Bool × Dev} (h : d.reserve r = some x) : x.2.inForm ↔ d.inForm := by
  unfold reserve at h
  dsimp only at h
  repeat' split at h
  all_goals cases h
  all_goals simp

@[simp] theorem inForm_useReserved (hd : d.inForm) (r : Nat) (inHold : Bool) (e : List Byte) :
    (d.useReserved r inHold e).inForm := by
  simp [useReserved, hd]

@[simp] theorem inForm_coalMessageOp (f c : Nat) : (coalMessageOp f c d).inForm ↔ d.inForm := by simp [coalMessageOp]

/-! ### Engines of the tile movers -/

@[simp] theorem inForm_takeEngine (hd : d.inForm) : d.takeEngine.inForm := by
  unfold takeEngine
  split
  · exact ⟨hd.1, hd.2.1, memWf_filter _ _ _ hd.2.2⟩
  · exact hd

@[simp] theorem inForm_assignEngines (hd : d.inForm) : d.assignEngines.inForm :=
  inForm_forUpTo hd (fun _ _ => inForm_takeEngine) 8

@[simp] theorem inForm_askMover (hd : d.inForm) (u : MoverUser) (words : Nat) (write : Bool) :
    (d.askMover u words write).inForm := by
  simp [askMover, hd]

@[simp] theorem inForm_leaveMover (hd : d.inForm) (u : MoverUser) : (d.leaveMover u).inForm := by simp [leaveMover, hd]

@[simp] theorem inForm_engineTurn (hd : d.inForm) (u : MoverUser) : (d.engineTurn u).2.inForm := by
  unfold engineTurn
  dsimp only
  repeat' split
  all_goals simp [hd]

@[simp] theorem inForm_borrowEngine : d.borrowEngine.inForm ↔ d.inForm := by simp [borrowEngine]

@[simp] theorem inForm_putXfer (hd : d.inForm) (a : Nat) (m : MemWord) : (d.putXfer a m).inForm := MemoriesWf.putXfer hd a m

@[simp] theorem inForm_xferRead (hd : d.inForm) (a : Nat) (w : Word) : (d.xferRead a w).2.inForm := by
  unfold xferRead
  split <;> simp [hd]

@[simp] theorem inForm_xferReads (hd : d.inForm) (run : MoverRun) (i : Nat) (ws : List Word) :
    (d.xferReads run i ws).2.2.inForm := by
  induction ws generalizing d i with
  | nil => exact hd
  | cons w ws ih =>
    unfold xferReads
    dsimp only
    repeat' split
    · exact hd
    · simp [hd]
    · exact ih (by simp [hd]) _

@[simp] theorem inForm_passBuffer (hd : d.inForm) (u : MoverUser) (ws : List Word) : (d.passBuffer u ws).2.2.inForm := by
  unfold passBuffer
  repeat' split
  all_goals simp [hd]

/-! ### Look-back rings -/

@[simp] theorem inForm_setLb (h : Nat) (x : TfbHead) : (d.setLb h x).inForm ↔ d.inForm := by simp [setLb]

@[simp] theorem inForm_readDir (hd : d.inForm) (cls h i : Nat) (seen : List Nat) (behind accept : Bool) :
    (d.readDir cls h i seen behind accept).2.2.inForm := by
  unfold readDir
  dsimp only
  repeat' split
  all_goals simp [hd]

@[simp] theorem inForm_entryFor (hd : d.inForm) (cls h s : Nat) (accept : Bool) : (d.entryFor cls h s accept).2.2.inForm := by
  simp [entryFor, hd]

@[simp] theorem inForm_putTagged (hd : d.inForm) (r q : Nat) (ws : List Word) (pchk gen flags : Nat) :
    (d.putTagged r q ws pchk gen flags).inForm := by
  simp [putTagged, hd]

@[simp] theorem inForm_writeDir (hd : d.inForm) (h : Nat) : (d.writeDir h).inForm := by
  unfold writeDir
  dsimp only
  repeat' split
  all_goals simp [hd]

@[simp] theorem inForm_enterDir (hd : d.inForm) (h i s : Nat) : (d.enterDir h i s).inForm := by simp [enterDir, hd]

@[simp] theorem inForm_putEntry (hd : d.inForm) (h : Nat) (b : BandDone) : (d.putEntry h b).inForm := by simp [putEntry, hd]

@[simp] theorem inForm_markHit (h : Nat) : (d.markHit h).inForm ↔ d.inForm := by simp [markHit]

@[simp] theorem inForm_loseClaims (p old : Nat) : (d.loseClaims p old).2.inForm ↔ d.inForm := by
  refine inForm_forUpTo_by_iff (fun r : Bool × Dev => r.2) (fun k r => ?_) (false, d) _
  dsimp only
  split
  · simp
  · rfl

@[simp] theorem inForm_moveHorizon (h s : Nat) (pos : P48) : (d.moveHorizon h s pos).inForm ↔ d.inForm := by simp [moveHorizon]

@[simp] theorem inForm_claimWriteOp (k : Nat) (v : Word) : (claimWriteOp k v d).inForm ↔ d.inForm := by
  unfold claimWriteOp
  dsimp only
  repeat' split
  all_goals simp

@[simp] theorem inForm_refreshHeld (h : Nat) : (d.refreshHeld h).inForm ↔ d.inForm := by simp [refreshHeld]

@[simp] theorem inForm_openBand (hd : d.inForm) (h : Nat) (l : BandLine) : (d.openBand h l).inForm := by
  unfold openBand
  dsimp only
  repeat' split
  all_goals simp [hd]

@[simp] theorem inForm_closeBand (hd : d.inForm) (h : Nat) : (d.closeBand h).2.inForm := by
  unfold closeBand
  dsimp only
  split
  · exact hd
  · split
    · simp [hd]
    · simp only [inForm_setLb]
      refine inForm_forUpTo (inForm_forUpTo ?_ (fun c e he => inForm_putTagged he ..) _) (fun c e he => inForm_putTagged he
        ..) _
      simp [hd]

@[simp] theorem inForm_completeBand (hd : d.inForm) (h : Nat) : (d.completeBand h).inForm := by
  unfold completeBand
  dsimp only
  repeat' split
  all_goals simp [hd]

@[simp] theorem inForm_searchBand (hd : d.inForm) (cls p : Nat) (pos : P48) (n lo hi : Nat) (seen : List Nat) :
    (d.searchBand cls p pos n lo hi seen).2.2.inForm := by
  induction n generalizing d lo hi seen with
  | zero => exact hd
  | succ n ih =>
    unfold searchBand
    dsimp only
    repeat' split
    · exact hd
    · simp [hd]
    all_goals exact ih (by simp [hd]) ..

@[simp] theorem inForm_translate (hd : d.inForm) (cls h : Nat) (pos : P48) : (d.translate cls h pos).2.2.inForm := by
  unfold translate
  dsimp only
  repeat' split
  all_goals simp [hd]

@[simp] theorem inForm_checkRef (hd : d.inForm) (cls r : Nat) : (d.checkRef cls r).2.inForm := by simp [checkRef, hd]

@[simp] theorem inForm_putRef (hd : d.inForm) (r : Nat) (ws : List Word) : (d.putRef r ws).inForm := by simp [putRef, hd]

@[simp] theorem inForm_freeRefs (hd : d.inForm) (table : List (List Word)) : (d.freeRefs table).inForm := by
  simp +contextual [freeRefs, hd]

@[simp] theorem inForm_placeRing (h k q : Nat) : (d.placeRing h k q).inForm ↔ d.inForm := by simp [placeRing]

@[simp] theorem inForm_blankDirs (hd : d.inForm) : d.blankDirs.inForm := ⟨hd.1, memWf_filter _ _ _ hd.2.1, hd.2.2⟩

@[simp] theorem inForm_layoutRings (hd : d.inForm) : d.layoutRings.inForm := by
  unfold layoutRings
  dsimp only
  simp only [inForm_raise, inForm_wrB, inForm_wrapF]
  refine inForm_blankDirs ?_
  simp only [inForm_mk, inForm_wr]
  refine inForm_foldl_by (Prod.fst : Dev × Nat → Dev) (fun r x hr => ?_) ?_ _
  · rw [apply_ite Prod.fst]
    simp [hr]
  · split <;> simp [hd]

@[simp] theorem inForm_lateRing (h : Nat) : (d.lateRing h).inForm ↔ d.inForm := by simp [lateRing]

/-! ### Candidate extraction -/

@[simp] theorem inForm_wrAt (r : Reg) (i : Nat) (t v : Word) : (d.wrAt r i t v).inForm ↔ d.inForm := by simp [wrAt]

@[simp] theorem inForm_scanMap (hd : d.inForm) : d.scanMap.2.inForm :=
  inForm_forUpTo_by (fun r : Bool × Dev => r.2) (fun i r hr => by simp [hr]) hd _

@[simp] theorem inForm_addRun (m : List Word) (job : Option Nat) (set tag : Nat) (r : Run) :
    (d.addRun m job set tag r).inForm ↔ d.inForm := by
  simp [addRun]

@[simp] theorem inForm_refreshPieces : d.refreshPieces.inForm ↔ d.inForm := by simp [refreshPieces]

@[simp] theorem inForm_pushRecord (hd : d.inForm) (retro : Bool) (ws : List Word) : (d.pushRecord retro ws).inForm := by
  simp [pushRecord, hd]

@[simp] theorem inForm_setCexMode (h m : Nat) : (d.setCexMode h m).inForm ↔ d.inForm := by simp [setCexMode]

@[simp] theorem inForm_releaseLive (hd : d.inForm) (ws : List Word) : (d.releaseLive ws).inForm := by simp [releaseLive, hd]

@[simp] theorem inForm_releaseRetro (hd : d.inForm) (ws : List Word) : (d.releaseRetro ws).inForm := by simp [releaseRetro, hd]

@[simp] theorem inForm_flushRetro (hd : d.inForm) (n : Nat) : (flushRetro n d).inForm := by
  induction n generalizing d with
  | zero => exact hd
  | succ n ih =>
    unfold flushRetro
    repeat' split
    · exact hd
    · exact hd
    · exact ih (by simp [hd])

@[simp] theorem inForm_putRecord (hd : d.inForm) (kind set : Nat) (retro : Bool) (tail : List Word) :
    (d.putRecord kind set retro tail).inForm := by
  simp [putRecord, hd]

@[simp] theorem inForm_refreshReady : d.refreshReady.inForm ↔ d.inForm := by simp [refreshReady]

@[simp] theorem inForm_releasePiece (hd : d.inForm) (p : Piece) (extra : Nat) : (d.releasePiece p extra).inForm := by
  unfold releasePiece
  dsimp only
  repeat' split
  all_goals simp [hd]

@[simp] theorem inForm_dropPiece (n : Nat) : (d.dropPiece n).inForm ↔ d.inForm := by simp [dropPiece]

@[simp] theorem inForm_countSettled : d.countSettled.inForm ↔ d.inForm := by simp [countSettled]

@[simp] theorem inForm_sendProgress (p set tag : Nat) (job : Option Nat) (pos : P48) :
    (d.sendProgress p set tag job pos).inForm ↔ d.inForm := by
  refine inForm_foldl_iff (fun e c => ?_) _
  dsimp only
  repeat' split
  all_goals simp

@[simp] theorem inForm_noteLate (m : List Word) (p : Piece) : (d.noteLate m p).inForm ↔ d.inForm := by simp [noteLate]

@[simp] theorem inForm_settlePiece (hd : d.inForm) (m : List Word) (p : Piece) : (d.settlePiece m p).inForm := by
  unfold settlePiece
  dsimp only
  repeat' split
  all_goals simp [hd]

@[simp] theorem inForm_spoilPieces (hd : d.inForm) (test : Piece → Bool) : (d.spoilPieces test).inForm := by
  simp +contextual [spoilPieces, hd]

@[simp] theorem inForm_pieceReleaseOp (hd : d.inForm) (n : Nat) : (pieceReleaseOp n d).inForm := by
  unfold pieceReleaseOp
  dsimp only
  repeat' split
  all_goals simp [hd]

@[simp] theorem inForm_mergeTimeoutOp (n : Nat) : (mergeTimeoutOp n d).inForm ↔ d.inForm := by
  unfold mergeTimeoutOp
  dsimp only
  repeat' split
  all_goals simp

@[simp] theorem inForm_refLine (hd : d.inForm) (cls : Nat) (p : Params) (k : Nat) (cols : List (Nat × Nat)) :
    (d.refLine cls p k cols).2.inForm := by
  unfold refLine
  dsimp only
  split
  · simp [hd]
  · refine inForm_foldl_by (Prod.snd : Table Tile × Dev → Dev) (fun r b hr => ?_) (inForm_checkRef hd ..) _
    split <;> simp [hr]

@[simp] theorem inForm_extractLine (hd : d.inForm) (cls : Nat) (x : ExtHead) (l : ExtLine) (cols : List (Nat × Nat)) :
    (d.extractLine cls x l cols).2.2.2.inForm := by
  unfold extractLine
  dsimp only
  repeat' split
  all_goals simp [hd]

@[simp] theorem inForm_tileRecord (hd : d.inForm) (h set tag : Nat) (retro : Bool) (first last : P48) (lo hi flags : Nat) (rs
    : List Run) : (d.tileRecord h set tag retro first last lo hi flags rs).inForm := by
  simp [tileRecord, hd]

@[simp] theorem inForm_joinTile (hd : d.inForm) (m : List Word) (h set tag : Nat) (job : Option Nat) (first last : P48) (lo
    hi flags : Nat) (rs : List Run) : (d.joinTile m h set tag job first last lo hi flags rs).inForm := by
  simp [joinTile, hd]

@[simp] theorem inForm_extractBand (hd : d.inForm) (h set tag : Nat) (job : Option Nat) (x : ExtHead) (tileFlags : Nat → Nat)
    (ls : List ExtLine) : (d.extractBand h set tag job x tileFlags ls).2.inForm := by
  unfold extractBand
  dsimp only
  split
  · exact inForm_foldl_by (fun r : ExtHead × Dev × List Run => r.2.1) (fun r l hr => inForm_extractLine hr ..) hd _
  · refine inForm_foldl ?_ (fun e b he => inForm_joinTile he ..) _
    exact inForm_foldl_by (fun r : ExtHead × Dev × List Run => r.2.1) (fun r l hr => inForm_extractLine hr ..) hd _

@[simp] theorem inForm_setExtHead (h : Nat) (x : ExtHead) : (d.setExtHead h x).inForm ↔ d.inForm := by simp [setExtHead]

@[simp] theorem inForm_endHeadPieces (h : Nat) : (d.endHeadPieces h).inForm ↔ d.inForm := by simp [endHeadPieces]

@[simp] theorem inForm_refreshWarm (h : Nat) : (d.refreshWarm h).inForm ↔ d.inForm := by simp [refreshWarm]

@[simp] theorem inForm_enterCatchup (h s : Nat) : (d.enterCatchup h s).inForm ↔ d.inForm := by simp [enterCatchup]

@[simp] theorem inForm_boundary (h s : Nat) : (d.boundary h s).inForm ↔ d.inForm := by simp [boundary]

@[simp] theorem inForm_markEntry (h : Nat) : (d.markEntry h).inForm ↔ d.inForm := by simp [markEntry]

@[simp] theorem inForm_restartAt (h s : Nat) (epoch : Bool) : (d.restartAt h s epoch).inForm ↔ d.inForm := by simp [restartAt]

@[simp] theorem inForm_checkMap (hd : d.inForm) (job : Option Nat) (h : Nat) :
    (d.checkMap job h).inForm := by simp [checkMap, hd]

@[simp] theorem inForm_liveProgress (h : Nat) : (d.liveProgress h).inForm ↔ d.inForm := by simp [liveProgress]

@[simp] theorem inForm_endStream (h : Nat) : (d.endStream h).inForm ↔ d.inForm := by simp [endStream]

@[simp] theorem inForm_liveBand (hd : d.inForm) (h : Nat) (b : Band) : (d.liveBand h b).inForm := by simp [liveBand, hd]

@[simp] theorem inForm_readExtTile (hd : d.inForm) (cls h s : Nat) (first : P48) (c : Nat) :
    (d.readExtTile cls h s first c).2.2.inForm := by
  simp [readExtTile, hd]

@[simp] theorem inForm_readBand (hd : d.inForm) (cls h s : Nat) : (d.readBand cls h s).2.2.2.2.inForm := by
  unfold readBand
  dsimp only
  split
  · simp [hd]
  · exact inForm_forUpTo_by (fun r : List Tile × List Nat × Dev => r.2.2) (fun c r hr => inForm_readExtTile hr ..)
      (inForm_entryFor hd ..) _

@[simp] theorem inForm_queueSkip (hd : d.inForm) (h : Nat) (first last : P48) : (d.queueSkip h first last).inForm := by
  simp [queueSkip, hd]

@[simp] theorem inForm_setCatchupClaim (h : Nat) (s : Option Nat) : (d.setCatchupClaim h s).inForm ↔ d.inForm := by
  simp [setCatchupClaim]

@[simp] theorem inForm_skipCatchup (hd : d.inForm) (h : Nat) : (d.skipCatchup h).inForm := by
  unfold skipCatchup
  dsimp only
  repeat' split
  all_goals simp [hd]

@[simp] theorem inForm_catchupStep (hd : d.inForm) (h : Nat) : (d.catchupStep h).inForm := by
  unfold catchupStep
  dsimp only
  repeat' split
  · simp only [inForm_refreshReady, inForm_liveProgress, inForm_setCatchupClaim, inForm_refreshWarm, inForm_wr,
    inForm_setExtHead]
    exact inForm_extractBand (inForm_readBand (by simp [hd]) ..) ..
  all_goals simp [hd]

@[simp] theorem inForm_writeHeld (hd : d.inForm) (n : Nat) : (writeHeld n d).inForm := by
  induction n generalizing d with
  | zero => exact hd
  | succ n ih =>
    unfold writeHeld
    repeat' split
    · exact hd
    · exact hd
    · exact ih (by simp [hd])

@[simp] theorem inForm_catchupHead (hd : d.inForm) (h n : Nat) : (catchupHead h n d).inForm := by
  induction n generalizing d with
  | zero => exact hd
  | succ n ih => simp [catchupHead, hd, ih]

@[simp] theorem inForm_catchupResumeOp (hd : d.inForm) : (catchupResumeOp d).inForm := by
  unfold catchupResumeOp
  dsimp only
  repeat' split
  · exact inForm_forUpTo (by simp [hd]) (fun h e he => inForm_catchupHead he ..) _
  all_goals simp [hd]

@[simp] theorem inForm_catchupLayout (hd : d.inForm) (h : Nat) (last first : P48) (gone : Bool) :
    (d.catchupLayout h last first gone).inForm := by
  simp [catchupLayout, hd]

@[simp] theorem inForm_relayEntries (h : Nat) : (d.relayEntries h).inForm ↔ d.inForm := by simp [relayEntries]

@[simp] theorem inForm_returned (hd : d.inForm) (n : Nat) : (d.returned n).inForm := by
  unfold returned
  dsimp only
  repeat' split
  all_goals simp [hd]

@[simp] theorem inForm_blobLost (hd : d.inForm) (b : BlobMsg) : (d.blobLost b).inForm := by
  unfold blobLost
  dsimp only
  repeat' split
  all_goals simp [hd]

@[simp] theorem inForm_passOn (hd : d.inForm) (b : BlobMsg) : (d.passOn b).inForm := by
  unfold passOn
  repeat' split
  all_goals simp [hd]

@[simp] theorem inForm_takePiece (hd : d.inForm) (b : BlobMsg) (set tag : Nat) (job : Option Nat) :
    (d.takePiece b set tag job).inForm := by
  simp [takePiece, hd]

@[simp] theorem inForm_pieceOp (hd : d.inForm) (b : BlobMsg) : (pieceOp b d).inForm := by
  unfold pieceOp
  dsimp only
  repeat' split
  all_goals simp [hd]

@[simp] theorem inForm_progressOp (hd : d.inForm) (b : BlobMsg) : (progressOp b d).inForm := by simp [progressOp, hd]

@[simp] theorem inForm_returnRecordOp (hd : d.inForm) (b : BlobMsg) : (returnRecordOp b d).inForm := by
  simp [returnRecordOp, hd]

@[simp] theorem inForm_releaseAll (hd : d.inForm) : d.releaseAll.inForm := by simp +contextual [releaseAll, hd]

/-! ### Chamois -/

@[simp] theorem inForm_setChm (h : Nat) (x : ChmHead) : (d.setChm h x).inForm ↔ d.inForm := by simp [setChm]

@[simp] theorem inForm_linePixels (hd : d.inForm) (l : StgLine) : (d.linePixels l).2.inForm :=
  inForm_forUpTo_by (fun r : List Pix × Dev => r.2) (fun i r hr => by simp [hr]) hd _

@[simp] theorem inForm_correctPixel (hd : d.inForm) (base dark i : Nat) (x : Pix) :
    (d.correctPixel base dark i x).2.inForm := by
  unfold correctPixel
  dsimp only
  repeat' split
  all_goals simp [hd]

@[simp] theorem inForm_stageG (hd : d.inForm) (base dark : Nat) (px : List Pix) : (d.stageG base dark px).2.inForm :=
  inForm_foldl_by (fun r : List (Pix × Bool) × Dev => r.2) (fun _ _ hr => inForm_correctPixel hr ..) hd _

@[simp] theorem inForm_knots (hd : d.inForm) (base n : Nat) : (d.knots base n).2.inForm :=
  inForm_forUpTo_by (fun r : List (Option Nat) × Dev => r.2) (fun b r hr => by simp [hr]) hd _

@[simp] theorem inForm_finishBand (hd : d.inForm) (h : Nat) : (d.finishBand h).inForm := by
  unfold finishBand
  dsimp only
  repeat' split
  all_goals simp [hd]

@[simp] theorem inForm_leaveBand (hd : d.inForm) (h e : Nat) : (d.leaveBand h e).inForm := by
  unfold leaveBand
  dsimp only
  repeat' split
  all_goals simp [hd]

@[simp] theorem inForm_bandTake (hd : d.inForm) (h : Nat) (l : BandLine) : (d.bandTake h l).inForm := by
  unfold bandTake
  extract_lets +onlyGivenNames e x e2 e3
  have he : e.inForm := by unfold e; split <;> simp [hd]
  clear_value e
  have he2 : e2.inForm := by unfold e2; repeat' split
                             all_goals simp [he]
  clear_value e2
  have he3 : e3.inForm := by unfold e3; split <;> simp [he2]
  clear_value e3
  dsimp only
  split <;> simp [he3]

@[simp] theorem inForm_deliverLine (hd : d.inForm) (h : Nat) (c : ChmLine) : (d.deliverLine h c).inForm := by
  simp [deliverLine, hd]

@[simp] theorem inForm_putWaiting (h : Nat) (c : ChmLine) : (d.putWaiting h c).inForm ↔ d.inForm := by simp [putWaiting]

@[simp] theorem inForm_seamMiss (h : Nat) : (d.seamMiss h).inForm ↔ d.inForm := by simp [seamMiss]

@[simp] theorem inForm_trySeams (h : Nat) : (d.trySeams h).inForm ↔ d.inForm := by
  unfold trySeams
  dsimp only
  repeat' split
  all_goals simp

@[simp] theorem inForm_drainSeams (hd : d.inForm) (h n : Nat) : (drainSeams h n d).inForm := by
  induction n generalizing d with
  | zero => exact hd
  | succ n ih =>
    unfold drainSeams
    dsimp only
    repeat' split
    · simp [hd]
    · exact ih (by simp [hd])
    · simp [hd]

@[simp] theorem inForm_closeHead (hd : d.inForm) (h : Nat) : (d.closeHead h).inForm := by simp [closeHead, hd]

@[simp] theorem inForm_settleSeams (hd : d.inForm) (h : Nat) : (d.settleSeams h).inForm :=
  inForm_foldl (inForm_foldl hd (fun _ _ he => inForm_drainSeams he ..) _) (fun _ k he => inForm_closeHead he k) _

@[simp] theorem inForm_calAdd (hd : d.inForm) (i v : Nat) : (d.calAdd i v).inForm := by simp [calAdd, hd]

@[simp] theorem inForm_calLine (hd : d.inForm) (h : Nat) (l : StgLine) (dark : Nat) (x c : List Pix) :
    (d.calLine h l dark x c).inForm := by
  unfold calLine
  extract_lets +onlyGivenNames px e
  have he : e.inForm := inForm_foldl hd (fun e p he => inForm_calAdd he ..) _
  clear_value e
  dsimp only
  repeat' split
  all_goals simp [he, hd]

@[simp] theorem inForm_calStartOp (hd : d.inForm) : (calStartOp d).inForm := by
  unfold calStartOp
  dsimp only
  split
  · simp only [inForm_mk, inForm_wr]
    exact inForm_forUpTo hd (fun i e he => inForm_sramWrite he ..) _
  · exact hd

@[simp] theorem inForm_chamoisLine (hd : d.inForm) (h : Nat) : (d.chamoisLine h).inForm := by
  unfold chamoisLine
  split
  · extract_lets +onlyGivenNames t cfg dkw coef out x e dark width r g c outW k
    have he : e.inForm := by unfold e; split <;> simp [hd]
    have hk : k.2.inForm := inForm_knots (inForm_stageG (inForm_linePixels he _) ..) ..
    clear_value k
    dsimp only
    split
    · simp [hk]
    · exact hd
  · exact hd

@[simp] theorem inForm_seamTimeoutOp (hd : d.inForm) (h : Nat) : (seamTimeoutOp h d).inForm := by
  unfold seamTimeoutOp
  repeat' split
  all_goals simp [hd]

@[simp] theorem inForm_creditReturnOp (h : Nat) : (creditReturnOp h d).inForm ↔ d.inForm := by
  unfold creditReturnOp
  dsimp only
  repeat' split
  all_goals simp

@[simp] theorem inForm_enterRun (h : Nat) : (d.enterRun h).inForm ↔ d.inForm := by simp [enterRun]

@[simp] theorem inForm_leaveRun (hd : d.inForm) (h : Nat) : (d.leaveRun h).inForm := by simp [leaveRun, hd]

@[simp] theorem inForm_followHeads (hd : d.inForm) (old : Dev) : (followHeads old d).inForm := by
  simp +contextual [followHeads, hd]

@[simp] theorem inForm_chamoisLineEndOp (hd : d.inForm) (h : Nat) : (chamoisLineEndOp h d).inForm := by
  simp [chamoisLineEndOp, hd]

/-! ### Region queries -/

@[simp] theorem inForm_partRange (hd : d.inForm) (cls : Nat) (q : QDesc) (h : Nat) : (d.partRange cls q h).2.inForm := by
  unfold partRange
  extract_lets +onlyGivenNames held pos a b
  have hpos : ∀ p e, e.inForm → (pos p e).2.2.inForm := by
    intro p e he
    unfold pos
    repeat' split
    all_goals simp [he]
  have ha : a.2.2.inForm := hpos _ _ hd
  have hb : b.2.2.inForm := hpos _ _ ha
  split
  · exact ha
  · dsimp only
    split <;> exact hb

@[simp] theorem inForm_dropRemote (test : RemoteReq → Bool) : (d.dropRemote test).inForm ↔ d.inForm := by simp [dropRemote]

@[simp] theorem inForm_endOrphan (tag : BitVec 16) : (d.endOrphan tag).inForm ↔ d.inForm := by simp [endOrphan]

@[simp] theorem inForm_pumpTiles : d.pumpTiles.inForm ↔ d.inForm := by
  refine inForm_foldl_iff (fun e r => ?_) _
  dsimp only
  repeat' split
  all_goals simp

@[simp] theorem inForm_askTiles (qid part dev h : Nat) (first stop : P48) (b0 b1 : Nat) :
    (d.askTiles qid part dev h first stop b0 b1).inForm ↔ d.inForm := by
  simp [askTiles]

@[simp] theorem inForm_resolvePart (hd : d.inForm) (q : QDesc) (y : Query) (p : Nat × Nat × Nat × Nat) :
    (d.resolvePart q y p).2.inForm := by
  unfold resolvePart
  dsimp only
  repeat' split
  all_goals simp [hd]

@[simp] theorem inForm_askParts (q : QDesc) (y : Query) : (d.askParts q y).inForm ↔ d.inForm := by simp [askParts]

@[simp] theorem inForm_claimQuery (y : Query) : (d.claimQuery y).inForm ↔ d.inForm := by
  unfold claimQuery
  dsimp only
  repeat' split
  all_goals simp

@[simp] theorem inForm_resolve (hd : d.inForm) (x : Query) : (d.resolve x).2.inForm := by
  unfold resolve
  extract_lets q tab badTab r y e stop gap
  have ht : tab.2.inForm := by unfold tab; split <;> simp [hd]
  split
  · split
    · exact ht
    · exact hd
  · split
    · split <;> exact ht
    · split
      · exact hd
      · have he : e.inForm := inForm_foldl_by (fun r : Query × Dev => r.2) (fun r p hr => inForm_resolvePart hr ..) hd _
        repeat' split
        all_goals simp only [inForm_askParts, inForm_claimQuery]
        all_goals exact he

@[simp] theorem inForm_countCheck (st : Nat) : (d.countCheck st).inForm ↔ d.inForm := by simp [countCheck]

@[simp] theorem inForm_qTile (hd : d.inForm) (cls : Nat) (q : QDesc) (p : QueryPart) (s : Nat) (first : P48) (c : Nat) :
    (d.qTile cls q p s first c).2.2.inForm := by
  unfold qTile
  dsimp only
  repeat' split
  all_goals simp [hd]

@[simp] theorem inForm_qEntry (hd : d.inForm) (cls : Nat) (q : QDesc) (p : QueryPart) (s : Nat) (o : QOut) :
    (d.qEntry cls q p s o).2.inForm := by
  unfold qEntry
  dsimp only
  repeat' split
  all_goals simp [hd]

theorem inForm_qBlock {acc : QOut × List Tile × Dev} (ha : acc.2.2.inForm) (cls : Nat) (q : QDesc) (p : QueryPart) (s : Nat)
    (first : P48) (c : Nat) : (qBlock cls q p s first acc c).2.2.inForm := by
  unfold qBlock
  dsimp only
  repeat' split
  all_goals simp [ha]

@[simp] theorem inForm_qFirst (hd : d.inForm) (cls : Nat) (q : QDesc) (p : QueryPart) (s : Nat) :
    (d.qFirst cls q p s).2.2.inForm := by
  unfold qFirst
  dsimp only
  repeat' split
  all_goals simp [hd]

@[simp] theorem inForm_qBand (hd : d.inForm) (cls : Nat) (q : QDesc) (p : QueryPart) (s : Nat) (o : QOut) :
    (d.qBand cls q p s o).2.inForm := by
  have hr (first : P48) (r : QOut × List Tile × Dev) (h : r.2.2.inForm) (l : List Nat) :
      (l.foldl (qBlock cls q p s first) r).2.2.inForm :=
    inForm_foldl_by (fun r : QOut × List Tile × Dev => r.2.2) (fun r c hr => inForm_qBlock hr ..) h l
  unfold qBand
  dsimp only
  repeat' split
  all_goals simp [hd, hr]

@[simp] theorem inForm_qPart (hd : d.inForm) (cls : Nat) (q : QDesc) (p : QueryPart) (o : QOut) :
    (d.qPart cls q p o).2.inForm := by
  unfold qPart
  extract_lets +onlyGivenNames hdr r
  have hr : r.2.inForm := inForm_foldl_by (fun r : QOut × Dev => r.2) (fun r i hr => inForm_qBand hr ..) hd _
  split <;> exact hr

@[simp] theorem inForm_freeBands (bands : List P48) : (d.freeBands bands).2.inForm ↔ d.inForm :=
  inForm_foldl_by_iff (fun r : List (P48 × Nat) × Dev => r.2) (fun r b => by simp) ([], d) _

@[simp] theorem inForm_qRemote (limit : Nat) (q : QDesc) (p : QueryPart) (r : RemoteReq) (o : QOut) :
    (d.qRemote limit q p r o).2.inForm ↔ d.inForm := by
  unfold qRemote
  dsimp only
  repeat' split
  all_goals simp

@[simp] theorem inForm_qParts (hd : d.inForm) (q : QDesc) (x : Query) : (d.qParts q x).2.inForm := by
  refine inForm_foldl_by (fun r : QOut × Dev => r.2) (fun r i hr => ?_) hd _
  repeat' split
  all_goals simp [hr]

@[simp] theorem inForm_runQuery (hd : d.inForm) (x : Query) : (d.runQuery x).2.2.2.inForm := by
  unfold runQuery
  dsimp only
  repeat' split
  all_goals simp [hd]

@[simp] theorem inForm_submitQuery (src : QuerySrc) (cls : Nat) (ws : List Word) :
    (d.submitQuery src cls ws).inForm ↔ d.inForm := by
  simp [submitQuery]

@[simp] theorem inForm_putQuery (x : Query) : (d.putQuery x).inForm ↔ d.inForm := by simp [putQuery]

@[simp] theorem inForm_serve (hd : d.inForm) (x : Query) : (d.serve x).inForm := by simp [serve, hd]

@[simp] theorem inForm_dropQuery (hd : d.inForm) (n : Nat) : (d.dropQuery n).inForm := by simp [dropQuery, hd]

@[simp] theorem inForm_queryDequeueOp (hd : d.inForm) : (queryDequeueOp d).inForm := by
  unfold queryDequeueOp
  repeat' split
  all_goals simp [hd]

@[simp] theorem inForm_queryEndHeldOp (hd : d.inForm) (n : Nat) : (queryEndHeldOp n d).inForm := by
  unfold queryEndHeldOp
  repeat' split
  all_goals simp [hd]

@[simp] theorem inForm_queryWaitTimeoutOp (hd : d.inForm) (n : Nat) : (queryWaitTimeoutOp n d).inForm := by
  unfold queryWaitTimeoutOp
  dsimp only
  repeat' split
  all_goals simp [hd]

@[simp] theorem inForm_tileDataOp (m : TileData) : (tileDataOp m d).inForm ↔ d.inForm := by
  unfold tileDataOp
  dsimp only
  repeat' split
  all_goals simp

@[simp] theorem inForm_tileEndOp (m : TileEnd) : (tileEndOp m d).inForm ↔ d.inForm := by
  unfold tileEndOp
  dsimp only
  repeat' split
  all_goals simp

@[simp] theorem inForm_tileReqLost (tag : BitVec 16) : (d.tileReqLost tag).inForm ↔ d.inForm := by simp [tileReqLost]

@[simp] theorem inForm_tileLost (m : TileReq) : (d.tileLost m).inForm ↔ d.inForm := by
  unfold tileLost
  repeat' split
  all_goals simp

@[simp] theorem inForm_serveTiles (hd : d.inForm) (m : TileReq) (port s0 bands ncol : Nat) :
    (d.serveTiles m port s0 bands ncol).2.2.inForm := by
  refine inForm_foldl_by (fun r : Nat × Nat × Dev => r.2.2) (fun r e hr => ?_) hd _
  dsimp only
  repeat' split
  all_goals simp [hr]

@[simp] theorem inForm_tileReqOp (hd : d.inForm) (m : TileReq) : (tileReqOp m d).inForm := by
  unfold tileReqOp
  dsimp only
  repeat' split
  all_goals simp [hd]

/-! ### Look-back commands -/

@[simp] theorem inForm_answer (st sub : Nat) : (d.answer st sub).inForm ↔ d.inForm := by simp [answer]

@[simp] theorem inForm_setJob (j : Nat) (x : RetroJob) : (d.setJob j x).inForm ↔ d.inForm := by simp [setJob]

@[simp] theorem inForm_retroSubmit (j : Nat) (ws : List Word) : (d.retroSubmit j ws).2.2.inForm ↔ d.inForm := by
  unfold retroSubmit
  dsimp only
  repeat' split
  all_goals simp

@[simp] theorem inForm_dropJobClaims (j : Nat) : (d.dropJobClaims j).inForm ↔ d.inForm := by simp [dropJobClaims]

@[simp] theorem inForm_endJob (j st sub : Nat) : (d.endJob j st sub).inForm ↔ d.inForm := by simp [endJob]

@[simp] theorem inForm_abortJob (j : Nat) : (d.abortJob j).inForm ↔ d.inForm := by simp [abortJob]

@[simp] theorem inForm_retroAbortOp (j : Nat) : (retroAbortOp j d).inForm ↔ d.inForm := by simp [retroAbortOp]

@[simp] theorem inForm_jobStart (hd : d.inForm) (x : RetroJob) (h : Nat) : (d.jobStart x h).2.2.inForm := by
  unfold jobStart
  dsimp only
  repeat' split
  all_goals simp [hd]

@[simp] theorem inForm_jobEnd (hd : d.inForm) (x : RetroJob) (h : Nat) : (d.jobEnd x h).2.2.inForm := by
  unfold jobEnd
  dsimp only
  repeat' split
  all_goals simp [hd]

@[simp] theorem inForm_setJobClaim (j h : Nat) (s : Option Nat) :
    (d.setJobClaim j h s).inForm ↔ d.inForm := by simp [setJobClaim]

@[simp] theorem inForm_joinJob (hd : d.inForm) (j h : Nat) (x : RetroJob) : (d.joinJob j h x).2.inForm := by
  unfold joinJob
  dsimp only
  repeat' split
  all_goals simp [hd]

@[simp] theorem inForm_startJob (hd : d.inForm) : d.startJob.inForm := by
  unfold startJob
  repeat' split
  · exact hd
  · exact hd
  · extract_lets +onlyGivenNames x hs word ps x2
    split
    · simp [hd]
    · simp only [inForm_setJob]
      exact inForm_foldl_by (fun r : RetroJob × Dev => r.2) (fun r h hr => inForm_joinJob hr ..) hd _

@[simp] theorem inForm_closeTodo (hd : d.inForm) (x : RetroJob) (t : Nat × Nat × Option Nat) : (d.closeTodo x t).2.inForm := by
  unfold closeTodo
  dsimp only
  repeat' split
  all_goals simp [hd]

@[simp] theorem inForm_leaveJobHead (j h : Nat) : (d.leaveJobHead j h).inForm ↔ d.inForm := by simp [leaveJobHead]

@[simp] theorem inForm_closeEnds (hd : d.inForm) (j : Nat) : (d.closeEnds j).inForm := by
  unfold closeEnds
  extract_lets +onlyGivenNames x r e
  have hr : r.2.inForm :=
    inForm_foldl_by (fun r : List (Nat × Nat × Option Nat) × Dev => r.2) (fun r t hr => inForm_closeTodo hr ..) hd _
  refine inForm_foldl (by simpa [e] using hr) (fun e t he => ?_) _
  repeat' split
  all_goals simp [he]

@[simp] theorem inForm_endJobPieces (j h : Nat) : (d.endJobPieces j h).inForm ↔ d.inForm := by simp [endJobPieces]

@[simp] theorem inForm_jobBand (hd : d.inForm) (j : Nat) (t : Nat × Nat × Option Nat) : (d.jobBand j t).inForm := by
  unfold jobBand
  extract_lets +onlyGivenNames x h s lost move claim
  have hclaim : ∀ e y n, (claim e y n).inForm ↔ e.inForm := fun e y n => inForm_setJobClaim ..
  clear_value lost claim move
  cases lost with
  | some first => simp [hclaim, hd]
  | none =>
    dsimp -zeta only
    extract_lets +onlyGivenNames r epoch e
    have hr : r.2.2.2.2.inForm := inForm_readBand (inForm_checkMap hd ..) ..
    have he : e.inForm := by unfold e; split <;> simpa using hr
    clear_value e
    dsimp only
    simp only [inForm_refreshReady, inForm_sendProgress, hclaim, inForm_setJob]
    exact inForm_extractBand he ..

@[simp] theorem inForm_joinLate (hd : d.inForm) (j : Nat) : (d.joinLate j).inForm := by
  simp only [joinLate, inForm_setJob]
  exact inForm_foldl_by (fun r : RetroJob × Dev => r.2) (fun r h hr => inForm_joinJob hr ..) hd _

@[simp] theorem inForm_pumpRetro (hd : d.inForm) (n : Nat) : (pumpRetro n d).inForm := by
  induction n generalizing d with
  | zero => exact hd
  | succ n ih =>
    unfold pumpRetro
    split
    · exact hd
    · next j _ =>
      have he : ((d.joinLate j).closeEnds j).inForm := by simp [hd]
      split
      · exact hd
      · dsimp only
        split
        · exact ih (inForm_jobBand he ..)
        · exact he

@[simp] theorem inForm_runRetro (hd : d.inForm) : d.runRetro.inForm := inForm_pumpRetro (inForm_flushRetro hd _) _

@[simp] theorem inForm_retroJobStartOp (hd : d.inForm) : (retroJobStartOp d).inForm := by simp [retroJobStartOp, hd]

@[simp] theorem inForm_retroJobCompleteOp (hd : d.inForm) : (retroJobCompleteOp d).inForm := by
  unfold retroJobCompleteOp
  have he := inForm_runRetro hd
  generalize d.runRetro = e at he
  dsimp only
  split
  · exact he
  · split
    · exact he
    · have hp := inForm_foldl he (fun e (p : Piece) he => inForm_pieceReleaseOp he p.num)
      split <;> simp [hp]

@[simp] theorem inForm_bandCompleteOp (hd : d.inForm) (h : Nat) : (bandCompleteOp h d).inForm := by simp [bandCompleteOp, hd]

@[simp] theorem inForm_fullLayout (hd : d.inForm) : d.fullLayout.inForm := by
  unfold fullLayout
  split
  · exact hd
  · extract_lets +onlyGivenNames e qs served e2 e3 e4 e5
    have he : e.inForm := inForm_forUpTo hd (fun h e he => by split <;> simp [he]) _
    have he3 : e3.inForm := by simpa [e3, e2] using he
    have he4 : e4.inForm := by simpa [e4] using he3
    have he5 : e5.inForm := by unfold e5; split <;> simpa using he4
    clear_value e5
    dsimp only
    refine inForm_forUpTo (inForm_forUpTo (inForm_layoutRings he5) (fun h e he => ?_) _) (fun h e he => ?_) _
    · simp [he]
    · split <;> simpa using he

@[simp] theorem inForm_fullLayoutOp (hd : d.inForm) : (fullLayoutOp d).inForm := by simp [fullLayoutOp, hd]

@[simp] theorem inForm_relayoutOp (hd : d.inForm) : (relayoutOp d).inForm := by simp [relayoutOp, hd]

@[simp] theorem inForm_checkRefs (hd : d.inForm) (tables : List Nat) : (d.checkRefs tables).2.inForm := by
  unfold checkRefs
  split
  · exact hd
  · exact inForm_foldl_by (fun r : Nat × Dev => r.2) (fun r q hr => by split <;> simp [hr]) hd _

@[simp] theorem inForm_withRefs (hd : d.inForm) (tables : List Nat) {f : Dev → Dev} (hf : ∀ e, e.inForm → (f e).inForm) :
    (d.withRefs tables f).inForm := by
  have hr := inForm_checkRefs hd tables
  unfold withRefs
  dsimp only
  split
  · simpa using hr
  · exact hf _ hr

@[simp] theorem inForm_refDefineOp (hd : d.inForm) (r : Nat) (ws : List Word) : (refDefineOp r ws d).inForm := by
  unfold refDefineOp
  repeat' split
  all_goals simp +contextual [hd]

@[simp] theorem inForm_setRefState (hd : d.inForm) (r st : Nat) : (d.setRefState r st).inForm := by simp [setRefState, hd]

@[simp] theorem inForm_refSealOp (hd : d.inForm) (r : Nat) : (refSealOp r d).inForm := by
  unfold refSealOp
  repeat' split
  all_goals simp +contextual [hd]

@[simp] theorem inForm_refDeleteOp (hd : d.inForm) (r : Nat) : (refDeleteOp r d).inForm := by
  unfold refDeleteOp
  repeat' split
  all_goals simp +contextual [hd]

@[simp] theorem inForm_refWrite (hd : d.inForm) (cls q : Nat) (ws : List Word) (poisoned : Bool) :
    (d.refWrite cls q ws poisoned).2.inForm := by
  unfold refWrite
  dsimp only
  repeat' split
  all_goals simp [hd]

@[simp] theorem inForm_coefWriteOp (hd : d.inForm) (off : Nat) (ws : List Word) : (coefWriteOp off ws d).inForm := by
  simp [coefWriteOp, hd]

@[simp] theorem inForm_chmCfgErr (h : Nat) : (d.chmCfgErr h).inForm ↔ d.inForm := by simp [chmCfgErr]

@[simp] theorem inForm_checkSeam (h : Nat) : (d.checkSeam h).inForm ↔ d.inForm := by simp [checkSeam]

@[simp] theorem inForm_enableHead (hd : d.inForm) (h : Nat) : (d.enableHead h).inForm := by
  unfold enableHead
  extract_lets +onlyGivenNames ps bad e e2 e3 e4 e5
  have he5 : e5.inForm := by
    simp only [e5]
    refine inForm_foldl ?_ (fun e p he => by simpa using he) _
    refine inForm_foldl ?_ (fun e p he => by simpa using he) _
    refine inForm_foldl ?_ (fun e p he => by simp [he]) _
    simpa [e] using hd
  clear_value e5
  repeat' split
  · simp [hd]
  · exact inForm_foldl hd (fun e p he => by simpa using he) _
  all_goals simp [he5]

@[simp] theorem inForm_disableHead (hd : d.inForm) (h : Nat) : (d.disableHead h).inForm := by simp +contextual [disableHead, hd]

@[simp] theorem inForm_headEnable (hd : d.inForm) (h : Nat) (en : Bool) : (d.headEnable h en).inForm := by
  unfold headEnable
  repeat' split
  all_goals simp [hd]

@[simp] theorem inForm_headEnableOp (hd : d.inForm) (h : Nat) (en : Bool) : (headEnableOp h en d).inForm := by
  simp [headEnableOp, hd]

/-! ### Processor contexts -/

@[simp] theorem inForm_setProc (n : Nat) (p : Proc) : (d.setProc n p).inForm ↔ d.inForm := by simp [setProc]

/-! ### Channels -/

@[simp] theorem inForm_setChState (c st reason : Nat) : (d.setChState c st reason).inForm ↔ d.inForm := Iff.rfl

@[simp] theorem inForm_postCsw (c : Nat) (k : CswKind) (st sub resid op : Nat) (addr : Word) (ring : Nat) :
    (d.postCsw c k st sub resid op addr ring).inForm ↔ d.inForm := by
  simp [postCsw]

@[simp] theorem inForm_refreshOwns (c : Nat) : (d.refreshOwns c).inForm ↔ d.inForm := Iff.rfl

@[simp] theorem inForm_claimRes (c : Nat) (r : Resource) : (d.claimRes c r).2.inForm ↔ d.inForm := by
  unfold claimRes
  repeat' split
  all_goals simp

@[simp] theorem inForm_dropTally (x : Resource) : (d.dropTally x).inForm ↔ d.inForm := by
  cases x <;> simp [dropTally]

@[simp] theorem inForm_dropChanQuery (hd : d.inForm) (c : Nat) : (d.dropChanQuery c).inForm := by
  unfold dropChanQuery
  dsimp only
  repeat' split
  all_goals simp [hd]

@[simp] theorem inForm_chRelease (hd : d.inForm) (c : Nat) : (d.chRelease c).inForm := by
  unfold chRelease
  extract_lets +onlyGivenNames e
  have he : e.inForm := inForm_foldl hd (fun e x he => by simpa using he) _
  clear_value e
  simp [he]

@[simp] theorem inForm_chHalt (hd : d.inForm) (c st sub reason op : Nat) (addr : Word) :
    (d.chHalt c st sub reason op addr).inForm := by
  simp [chHalt, hd]

@[simp] theorem inForm_chSuspend (c reason op : Nat) (addr : Word) (ring : Nat) :
    (d.chSuspend c reason op addr ring).inForm ↔ d.inForm := by
  simp [chSuspend]

@[simp] theorem inForm_chSuspendHere (c reason : Nat) : (d.chSuspendHere c reason).inForm ↔ d.inForm := by simp [chSuspendHere]

@[simp] theorem inForm_chFinish (hd : d.inForm) (c code : Nat) (w : ChWord) (st sub resid value : Nat) :
    (d.chFinish c code w st sub resid value).inForm := by
  simp [chFinish, hd]

@[simp] theorem inForm_chWait (c code : Nat) (w : ChWord) (op : ChanOp) : (d.chWait c code w op).inForm ↔ d.inForm := by
  simp [chWait]

@[simp] theorem inForm_chNext (c : Nat) : (d.chNext c).inForm ↔ d.inForm := by simp [chNext]

@[simp] theorem inForm_chBetween (c : Nat) : (d.chBetween c).inForm ↔ d.inForm := by simp [chBetween]

@[simp] theorem inForm_chSkip (hd : d.inForm) (c code : Nat) (w : ChWord) : (d.chSkip c code w).inForm := by simp [chSkip, hd]

@[simp] theorem inForm_chStart (hd : d.inForm) {c code : Nat} {w : ChWord} {fields : Bool} {body : Dev → Dev}
    (hb : ∀ e, e.inForm → (body e).inForm) : (d.chStart c code w fields body).inForm := by
  unfold chStart
  dsimp only
  repeat' split
  all_goals simp [hd, hb]

@[simp] theorem inForm_chRead (hd : d.inForm) (a n : Nat) : (d.chRead a n).2.inForm := by
  unfold chRead
  split <;> simp [hd]

theorem inForm_of_chRead (hd : d.inForm) {a n : Nat} {x : Except (Nat × Nat) (List Word)} {e : Dev} (h : d.chRead a n = (x,
    e)) :
    e.inForm := by simpa [h] using inForm_chRead hd a n

@[simp] theorem inForm_deliver (hd : d.inForm) (cls off : Nat) (ws : List Word) (t : Dest) :
    (d.deliver cls off ws t).2.inForm := by
  cases t <;> simp [deliver, hd]

@[simp] theorem inForm_xferEnd (hd : d.inForm) (c code : Nat) (w : ChWord) (g : Gather) (st sub : Nat) :
    (d.xferEnd c code w g st sub).inForm := by
  unfold xferEnd
  extract_lets +onlyGivenNames cls ends e
  have he : e.inForm := by
    unfold e
    repeat' split
    all_goals simp [hd]
  clear_value e
  dsimp only
  split <;> simp [he]

@[simp] theorem inForm_xferWord (hd : d.inForm) (c code : Nat) (w : ChWord) (st sub : Nat) (data : List Word) (missing : Nat)
    (limited : Bool) : (d.xferWord c code w st sub data missing limited).inForm := by
  unfold xferWord
  extract_lets +onlyGivenNames g data bad
  clear_value bad data
  split
  · simp [hd]
  · extract_lets +onlyGivenNames out
    have ho : out.2.inForm := by
      unfold out
      repeat' split
      all_goals simp [hd]
    clear_value out
    dsimp only
    generalize (if out.1 = 0 then st else out.1 % 256) = st'
    repeat' split
    all_goals simp [ho]

@[simp] theorem inForm_xferFail (hd : d.inForm) (c code : Nat) (w : ChWord) (st sub : Nat) :
    (d.xferFail c code w st sub).inForm := by
  simp [xferFail, hd]

@[simp] theorem inForm_xferStart (hd : d.inForm) {c code : Nat} {w : ChWord} {query : Bool} {ws : List Word}
    {next : Xfer → Dev → Dev} (hn : ∀ x e, e.inForm → (next x e).inForm) :
    (d.xferStart c code w query ws next).inForm := by
  unfold xferStart
  extract_lets +onlyGivenNames x g bad
  clear_value bad
  repeat' split
  all_goals simp [hd, hn]

@[simp] theorem inForm_moverRead (hd : d.inForm) (a n : Nat) : (d.moverRead a n).2.2.inForm := by
  unfold moverRead
  dsimp only
  repeat' split
  all_goals simp [hd]

@[simp] theorem inForm_fillBuffer (hd : d.inForm) (u : MoverUser) (a n : Nat) : (d.fillBuffer u a n).2.2.inForm := by
  simp [fillBuffer, hd]

@[simp] theorem inForm_runMove (hd : d.inForm) (c : Nat) (r : ChanRun) (src n : Nat) : (d.runMove c r src n).inForm := by
  refine inForm_xferWord ?_ ..
  simp [hd]

@[simp] theorem inForm_runChanQuery (hd : d.inForm) (c : Nat) (r : ChanRun) (q : QueryDone) :
    (d.runChanQuery c r q).inForm := by
  simp [runChanQuery, hd]

@[simp] theorem inForm_transferDoneOp (hd : d.inForm) (c : Nat) : (transferDoneOp c d).inForm := by
  unfold transferDoneOp
  dsimp only
  repeat' split
  all_goals simp [hd]

@[simp] theorem inForm_xferAbort (hd : d.inForm) (c st sub : Nat) : (d.xferAbort c st sub).inForm := by
  unfold xferAbort
  split
  · exact inForm_xferFail (by simp [hd]) ..
  · exact hd

@[simp] theorem inForm_endWait (hd : d.inForm) (c : Nat) (r : ChanRun) (st sub resid value : Nat) :
    (d.endWait c r st sub resid value).inForm := by
  simp [endWait, hd]

@[simp] theorem inForm_cancelWait (c : Nat) : (d.cancelWait c).inForm ↔ d.inForm := by simp [cancelWait]

@[simp] theorem inForm_takeCut (hd : d.inForm) (c : Nat) : (d.takeCut c).inForm := by
  unfold takeCut
  repeat' split
  all_goals simp [hd]

@[simp] theorem inForm_pollFire (hd : d.inForm) (c : Nat) (first : Bool) : (d.pollFire c first).inForm := by
  unfold pollFire
  dsimp only
  repeat' split
  all_goals simp [hd]

@[simp] theorem inForm_endFires (hd : d.inForm) : d.endFires.inForm := by
  refine inForm_foldl hd (fun e c he => ?_) _
  repeat' split
  all_goals simp [he]

@[simp] theorem inForm_tgEnableOp (hd : d.inForm) (g : Nat) (en : Bool) : (tgEnableOp g en d).inForm := by simp [tgEnableOp, hd]

@[simp] theorem inForm_settleWait (hd : d.inForm) (c : Nat) : (d.settleWait c).inForm := by simp [settleWait, hd]

@[simp] theorem inForm_chCfgErr (c : Nat) : (d.chCfgErr c).inForm ↔ d.inForm := Iff.rfl

@[simp] theorem inForm_chBegin (hd : d.inForm) (c : Nat) : (d.chBegin c).inForm := by simp [chBegin, hd]

@[simp] theorem inForm_channelStartOp (hd : d.inForm) (c : Nat) : (channelStartOp c d).inForm := by simp [channelStartOp, hd]

@[simp] theorem inForm_haltedWords (hd : d.inForm) (c : Nat) (op : ChanOp) : (d.haltedWords c op).2.inForm := by
  unfold haltedWords
  dsimp only
  repeat' split
  all_goals simp [hd]

@[simp] theorem inForm_haltXfer (hd : d.inForm) (c : Nat) : (d.haltXfer c).inForm := by
  unfold haltXfer
  dsimp only
  repeat' split
  all_goals simp [hd]

@[simp] theorem inForm_channelHaltOp (hd : d.inForm) (c : Nat) : (channelHaltOp c d).inForm := by simp [channelHaltOp, hd]

@[simp] theorem inForm_channelSuspendOp (hd : d.inForm) (c : Nat) : (channelSuspendOp c d).inForm := by
  unfold channelSuspendOp
  dsimp only
  repeat' split
  all_goals simp [hd]

@[simp] theorem inForm_chResume (c : Nat) : (d.chResume c).inForm ↔ d.inForm := by simp [chResume]

@[simp] theorem inForm_channelResumeOp (c : Nat) : (channelResumeOp c d).inForm ↔ d.inForm := by simp [channelResumeOp]

@[simp] theorem inForm_channelClearOp (c : Nat) : (channelClearOp c d).inForm ↔ d.inForm := by simp [channelClearOp]

@[simp] theorem inForm_resumeRing (r : Nat) : (d.resumeRing r).inForm ↔ d.inForm := by simp [resumeRing]

@[simp] theorem inForm_resumeIfRoom (r : Nat) : (d.resumeIfRoom r).inForm ↔ d.inForm := by simp [resumeIfRoom]

@[simp] theorem inForm_haltAll (hd : d.inForm) : d.haltAll.inForm := by simp +contextual [haltAll, hd]

@[simp] theorem inForm_autostart (hd : d.inForm) : d.autostart.inForm := by simp +contextual [autostart, hd]

@[simp] theorem inForm_cutRemote (n : Nat) : (d.cutRemote n).inForm ↔ d.inForm := by simp [cutRemote]

@[simp] theorem inForm_finishXfer (hd : d.inForm) (c : Nat) : (d.finishXfer c).inForm := by
  unfold finishXfer
  split
  · split
    · simp [hd]
    · split
      · simp [hd]
      · split
        · dsimp only
          split
          · refine inForm_runChanQuery ?_ ..
            simp only [inForm_wrapF]
            exact inForm_dropQuery (by simp [hd]) _
          · simp [hd]
        · exact hd
    · exact hd
  · exact hd

@[simp] theorem inForm_stopChannel (hd : d.inForm) (c : Nat) : (d.stopChannel c).inForm := by
  unfold stopChannel
  extract_lets +onlyGivenNames e x e2 e3
  have he : e.inForm := by simp [e, hd]
  clear_value e
  have he2 : e2.inForm := by
    unfold e2
    repeat' split
    all_goals simp [he]
  clear_value e2
  have he3 : e3.inForm := by unfold e3; split <;> simp [he2]
  clear_value e3
  split <;> simp [he3]

@[simp] theorem inForm_stopChannels (hd : d.inForm) : d.stopChannels.inForm := by simp +contextual [stopChannels, hd]

@[simp] theorem inForm_restoreChannel (hd : d.inForm) (c : Nat) : (d.restoreChannel c).inForm := by simp [restoreChannel, hd]

@[simp] theorem inForm_restoreChannels (hd : d.inForm) : d.restoreChannels.inForm := by simp +contextual [restoreChannels, hd]

/-! ### Graze, the arbiter and the control movers -/

@[simp] theorem inForm_setOvercommit (b : Bool) : (d.setOvercommit b).inForm ↔ d.inForm := by simp [setOvercommit]

@[simp] theorem inForm_refreshCap : d.refreshCap.inForm ↔ d.inForm := by simp [refreshCap]

@[simp] theorem inForm_swapErr : d.swapErr.inForm ↔ d.inForm := by simp [swapErr]

@[simp] theorem inForm_requestSwap : d.requestSwap.inForm ↔ d.inForm := by simp [requestSwap]

@[simp] theorem inForm_grazeSwapOp : (grazeSwapOp d).inForm ↔ d.inForm := by simp [grazeSwapOp]

@[simp] theorem inForm_loadBank (quotas : List Nat) (slots : List Word) : (d.loadBank quotas slots).inForm ↔ d.inForm := by
  simp [loadBank]

@[simp] theorem inForm_swapBanks : d.swapBanks.inForm ↔ d.inForm := by simp [swapBanks]

@[simp] theorem inForm_grazePeriodOp (bidders : List Nat) :
    (grazePeriodOp bidders d).inForm ↔ d.inForm := by simp [grazePeriodOp]

@[simp] theorem inForm_moveTransfer (key tier : Nat) : (d.moveTransfer key tier).inForm ↔ d.inForm := by simp [moveTransfer]

@[simp] theorem inForm_arbPhase : d.arbPhase.inForm ↔ d.inForm := by simp [arbPhase]

@[simp] theorem inForm_hbcServe : d.hbcServe.inForm ↔ d.inForm := by simp [hbcServe]

@[simp] theorem inForm_arbitrate : d.arbitrate.inForm ↔ d.inForm := by simp [arbitrate]

@[simp] theorem inForm_arbPrioWriteOp (r : Nat) (v : Word) :
    (arbPrioWriteOp r v d).inForm ↔ d.inForm := by simp [arbPrioWriteOp]

@[simp] theorem inForm_setMoverQueue (k : Nat) (l : List Nat) :
    (d.setMoverQueue k l).inForm ↔ d.inForm := by simp [setMoverQueue]

@[simp] theorem inForm_askQueue (hd : d.inForm) (k : Nat) : (d.askQueue k).inForm := by
  unfold askQueue
  dsimp only
  repeat' split
  all_goals simp [hd]

@[simp] theorem inForm_moverSubmitOp (hd : d.inForm) (k : Nat) (by_ : Requester) (addr : Word) :
    (moverSubmitOp k by_ addr d).inForm := by
  simp [moverSubmitOp, hd]

@[simp] theorem inForm_readTileAt (hd : d.inForm) (cls place : Nat) : (d.readTileAt cls place).2.2.inForm := by
  unfold readTileAt
  dsimp only
  repeat' split
  all_goals simp [hd]

@[simp] theorem inForm_readTilesAt (hd : d.inForm) (cls : Nat) (place : Nat → Nat) (i n : Nat) :
    (d.readTilesAt cls place i n).2.2.inForm := by
  induction n generalizing d i with
  | zero => exact hd
  | succ n ih =>
    unfold readTilesAt
    dsimp only
    split
    · simp [hd]
    · exact ih (by simp [hd]) _

@[simp] theorem inForm_moverOperand (hd : d.inForm) (k cls a len : Nat) : (d.moverOperand k cls a len).2.2.inForm := by
  unfold moverOperand
  dsimp only
  repeat' split
  all_goals simp [hd]

@[simp] theorem inForm_readRefTile (hd : d.inForm) (cls q : Nat) : (d.readRefTile cls q).2.2.inForm := by
  unfold readRefTile
  dsimp only
  repeat' split
  all_goals simp [hd]

@[simp] theorem inForm_readRefTiles (hd : d.inForm) (cls q n : Nat) : (d.readRefTiles cls q n).2.2.inForm := by
  induction n generalizing d q with
  | zero => exact hd
  | succ n ih =>
    unfold readRefTiles
    dsimp only
    split
    · simp [hd]
    · dsimp only
      exact ih (inForm_readRefTile hd ..) _

@[simp] theorem inForm_deliverTiles (hd : d.inForm) (cls q : Nat) (ws : List Word) : (d.deliverTiles cls q ws).2.2.inForm := by
  refine inForm_forUpTo_by (fun r : Nat × Nat × Dev => r.2.2) (fun i r hr => ?_) hd _
  split
  · exact hr
  · dsimp only
    exact inForm_refWrite hr ..

@[simp] theorem inForm_moverDeliver (hd : d.inForm) (cls off : Nat) (ws : List Word) (t : Dest) :
    (d.moverDeliver cls off ws t).2.2.inForm := by
  unfold moverDeliver
  repeat' split
  all_goals simp [hd]

@[simp] theorem inForm_moverCopy (hd : d.inForm) (k : Nat) (m : MoverDesc) : (d.moverCopy k m).2.inForm := by
  unfold moverCopy
  extract_lets +onlyGivenNames x ws y
  have hy : y.2.2.inForm := inForm_moverDeliver (inForm_moverOperand hd ..) ..
  clear_value y
  dsimp only
  split <;> simp [hy]

@[simp] theorem inForm_moverFill (hd : d.inForm) (m : MoverDesc) : (d.moverFill m).2.inForm := by simp [moverFill, hd]

@[simp] theorem inForm_compared (m : MoverDesc) (st : Nat) (a b : List Word) : (d.compared m st a b).2.inForm ↔ d.inForm := by
  simp [compared]

@[simp] theorem inForm_moverCompare (hd : d.inForm) (k : Nat) (m : MoverDesc) : (d.moverCompare k m).2.inForm := by
  unfold moverCompare
  dsimp only
  split <;> simp [hd]

@[simp] theorem inForm_moverComparePattern (hd : d.inForm) (k : Nat) (m : MoverDesc) :
    (d.moverComparePattern k m).2.inForm := by
  simp [moverComparePattern, hd]

@[simp] theorem inForm_moverWork (hd : d.inForm) (k : Nat) (m : MoverDesc) : (d.moverWork k m).2.inForm := by
  unfold moverWork
  repeat' split
  all_goals simp [hd]

@[simp] theorem inForm_moverRun (hd : d.inForm) (k op : Nat) {f : MoverDesc → Dev → (Nat × Nat × Nat × Nat) × Dev}
    (hf : ∀ m e, e.inForm → (f m e).2.inForm) : (d.moverRun k op f).inForm := by
  unfold moverRun
  split
  · exact hd
  · next a _ _ =>
    have he : ((d.sramReads a 8).2.2.engineTurn (.queue k)).2.inForm := by simp [hd]
    dsimp only
    repeat' split
    · exact hd
    · exact hd
    · exact he
    · exact hf _ _ he

@[simp] theorem inForm_moverCopyOp (hd : d.inForm) (k : Nat) : (moverCopyOp k d).inForm := by simp +contextual [moverCopyOp, hd]

@[simp] theorem inForm_moverFillOp (hd : d.inForm) (k : Nat) : (moverFillOp k d).inForm := by simp +contextual [moverFillOp, hd]

@[simp] theorem inForm_moverCompareOp (hd : d.inForm) (k : Nat) : (moverCompareOp k d).inForm := by
  simp +contextual [moverCompareOp, hd]

@[simp] theorem inForm_moverComparePatternOp (hd : d.inForm) (k : Nat) : (moverComparePatternOp k d).inForm := by
  simp +contextual [moverComparePatternOp, hd]

@[simp] theorem inForm_moverEnd (hd : d.inForm) (k a : Nat) (r : Nat × Nat × Nat × Nat) : (d.moverEnd k a r).inForm := by
  simp only [moverEnd, inForm_raise, inForm_wrapF]
  refine inForm_askQueue (inForm_leaveMover ?_ _) _
  simp [hd]

@[simp] theorem inForm_moverUnfit (hd : d.inForm) (k a : Nat) : (d.moverUnfit k a).2.2.inForm := by
  unfold moverUnfit
  dsimp only
  repeat' split
  all_goals simp [hd]

@[simp] theorem inForm_moverCompleteOp (hd : d.inForm) (k : Nat) : (moverCompleteOp k d).inForm := by
  unfold moverCompleteOp
  dsimp only
  repeat' split
  all_goals simp [hd]

@[simp] theorem inForm_finishQueue (hd : d.inForm) (k a : Nat) : (d.finishQueue k a).inForm := by
  unfold finishQueue
  dsimp only
  split
  · simp [hd]
  · split
    · simp [hd]
    · refine inForm_moverEnd (inForm_moverWork (by simp [hd]) ..) ..

@[simp] theorem inForm_stopMovers (hd : d.inForm) : d.stopMovers.inForm := by
  refine inForm_forUpTo hd (fun k e he => ?_) _
  dsimp only
  split
  · exact he
  · refine inForm_foldl ?_ (fun e b he => inForm_moverEnd he ..) _
    split <;> simp [he]

/-! ### Device states, power domains and fences -/

@[simp] theorem inForm_setDomain (k : Nat) (x : DomState) : (d.setDomain k x).inForm ↔ d.inForm := by simp [setDomain]

@[simp] theorem inForm_setDomains (ks : List Nat) (x : DomState) : (d.setDomains ks x).inForm ↔ d.inForm := by simp [setDomains]

@[simp] theorem inForm_outputsInactive : d.outputsInactive.inForm ↔ d.inForm := by simp [outputsInactive]

@[simp] theorem inForm_enterState (hd : d.inForm) (st : DevState) (cause : Option Nat) : (d.enterState st cause).inForm := by
  unfold enterState
  extract_lets +onlyGivenNames old e e2 d0 e3 e4 e5 e6 e7 e8
  have he2 : e2.inForm := by unfold e2; split <;> simpa [e] using hd
  have he4 : e4.inForm := by unfold e4; split <;> simpa [e3] using he2
  have he6 : e6.inForm := inForm_forUpTo (inForm_log he4 ..) (fun t e he => by simpa using he) _
  have he8 : e8.inForm := by unfold e8; split <;> simpa [e7] using he6
  exact inForm_followHeads (inForm_headsService he8) _

@[simp] theorem inForm_setGroup (hd : d.inForm) (g : Nat) (powered fenced : Bool) : (d.setGroup g powered fenced).inForm := by
  unfold setGroup
  extract_lets +onlyGivenNames was is d0 e cut
  have he : e.inForm := by simpa [e] using hd
  have hcut : ∀ x, (cut x).inForm ↔ x.inForm := fun x => by simp [cut]
  clear_value e cut
  split
  · simpa [hcut] using he
  · split
    · refine inForm_followHeads (inForm_forUpTo ((hcut e).2 he) (fun h x hx => ?_) _) _
      split <;> simp [hx]
    · extract_lets +onlyGivenNames e2
      have he2 : e2.inForm := by
        refine inForm_followHeads (inForm_forUpTo he (fun h x hx => ?_) _) _
        split <;> simp [hx]
      refine (hcut _).2 (inForm_forUpTo he2 (fun i x hx => ?_) _)
      split <;> simp [hx]

@[simp] theorem inForm_fail (hd : d.inForm) (cause : Nat) : (d.fail cause).inForm := by
  unfold fail
  split
  · exact hd
  · extract_lets +onlyGivenNames e e2 e3
    have he2 : e2.inForm := inForm_haltAll (inForm_enterState (by simpa using hd) ..)
    have he3 : e3.inForm := inForm_forUpTo he2 (fun g x hx => inForm_setGroup hx ..) _
    simpa using he3

@[simp] theorem inForm_afterFence (hd : d.inForm) (second : Bool) (cause : Nat) : (d.afterFence second cause).inForm := by
  simp [afterFence, hd]

@[simp] theorem inForm_fenceGroup (hd : d.inForm) (g : Nat) : (d.fenceGroup g).inForm :=
  inForm_afterFence (inForm_log (inForm_setGroup hd ..) ..) ..

@[simp] theorem inForm_loseStack (hd : d.inForm) (s : Nat) : (d.loseStack s).inForm := MemoriesWf.loseStack hd s

@[simp] theorem inForm_dropRewrites (s : Nat) : (d.dropRewrites s).inForm ↔ d.inForm := Iff.rfl

@[simp] theorem inForm_cutRequest (hd : d.inForm) (u : MoverUser) : (d.cutRequest u).inForm := by
  unfold cutRequest
  dsimp only
  repeat' split
  all_goals simp [hd]

@[simp] theorem inForm_cutRequests (hd : d.inForm) : d.cutRequests.inForm := by simp +contextual [cutRequests, hd]

@[simp] theorem inForm_fenceStack (hd : d.inForm) (s cause : Nat) : (d.fenceStack s cause).inForm := by
  unfold fenceStack
  extract_lets +onlyGivenNames second e e2 e3 e4
  have he3 : e3.inForm := inForm_log (by simp [e2, e, hd]) ..
  have he4 : e4.inForm := by
    simp only [e4, inForm_dropBids, inForm_dropRewrites]
    exact inForm_loseStack (by simp [he3]) _
  exact inForm_afterFence (by simpa using he4) ..

/-! ### Memory integrity commands -/

@[simp] theorem inForm_hbmRewriteOp (hd : d.inForm) (s : Nat) : (hbmRewriteOp s d).inForm := by
  unfold hbmRewriteOp
  dsimp only
  repeat' split
  all_goals simp [hd]

@[simp] theorem inForm_patrolReadOp (hd : d.inForm) (s : Nat) (r : PatrolReport) : (patrolReadOp s r d).inForm := by
  unfold patrolReadOp
  split
  · extract_lets +onlyGivenNames t q src e link hbc e2 e3
    have he : e.inForm := inForm_putTile hd ..
    clear_value e
    have he2 : e2.inForm := by unfold e2; split <;> simp [hbc, he]
    have he3 : e3.inForm := inForm_readTile he2 ..
    split <;> simpa using he3
  · exact hd

@[simp] theorem inForm_stackFenceOp (hd : d.inForm) (s : Nat) (cause : FenceCause) : (stackFenceOp s cause d).inForm := by
  unfold stackFenceOp
  dsimp only
  repeat' split
  all_goals simp [hd]

@[simp] theorem inForm_fenceWriteOp (hd : d.inForm) (s : Nat) : (fenceWriteOp s d).inForm := by simp [fenceWriteOp, hd]

@[simp] theorem inForm_scrubReadOp (hd : d.inForm) (r : Nat) (f : Word) (c : BitVec 7) :
    (scrubReadOp r f c d).inForm := MemoriesWf.scrubReadOp hd r f c

@[simp] theorem inForm_injectArmOp (by_ : Requester) : (injectArmOp by_ d).inForm ↔ d.inForm := by
  unfold injectArmOp
  repeat' split
  all_goals simp

@[simp] theorem inForm_correctedErrorsLogOp (hd : d.inForm) : (correctedErrorsLogOp d).inForm := by
  simp +contextual [correctedErrorsLogOp, hd]

/-! ### The host interface -/

@[simp] theorem inForm_setSq (r : Nat) (x : SubRing) : (d.setSq r x).inForm ↔ d.inForm := by simp [setSq]

@[simp] theorem inForm_noteMalformed (r st : Nat) : (d.noteMalformed r st).inForm ↔ d.inForm := by simp [noteMalformed]

@[simp] theorem inForm_writeCons (r : Nat) : (d.writeCons r).inForm ↔ d.inForm := by simp [writeCons]

@[simp] theorem inForm_consStops (r : Nat) : (d.consStops r).inForm ↔ d.inForm := by simp [consStops]

@[simp] theorem inForm_advanceCons (r : Nat) : (d.advanceCons r).inForm ↔ d.inForm := by simp [advanceCons]

@[simp] theorem inForm_startStop (hd : d.inForm) (r st sub : Nat) : (d.startStop r st sub).inForm := by
  simp only [startStop, inForm_wrF, inForm_setSq]
  refine inForm_foldl hd (fun e x he => ?_) _
  split <;> simp [he]

@[simp] theorem inForm_submissionDoorbellOp (f s : Nat) : (submissionDoorbellOp f s d).inForm ↔ d.inForm := by
  simp [submissionDoorbellOp]

@[simp] theorem inForm_headerReadOp (hd : d.inForm) (f s : Nat) (prod : Option (BitVec 32)) :
    (headerReadOp f s prod d).inForm := by
  unfold headerReadOp
  dsimp only
  repeat' split
  all_goals simp [hd]

@[simp] theorem inForm_setStall (r : Nat) (b : Bool) : (d.setStall r b).inForm ↔ d.inForm := Iff.rfl

@[simp] theorem inForm_inboxEntry (hd : d.inForm) (r : Nat) (e : List Byte) : (d.inboxEntry r e).inForm := by
  simp [inboxEntry, hd]

@[simp] theorem inForm_refreshStalls (f : Nat) : (d.refreshStalls f).inForm ↔ d.inForm := by simp [refreshStalls]

@[simp] theorem inForm_directEntry (r : Nat) (e : List Byte) (inHold : Bool) :
    (d.directEntry r e inHold).inForm ↔ d.inForm := by
  unfold directEntry
  dsimp only
  repeat' split
  all_goals simp

@[simp] theorem inForm_entryTakeOp (hd : d.inForm) (f s : Nat) (e : Option (List Byte)) : (entryTakeOp f s e d).inForm := by
  unfold entryTakeOp
  extract_lets +onlyGivenNames r c
  split
  · exact hd
  split
  · simp [hd]
  split
  · simpa using hd
  split
  · split <;> simp [hd]
  split
  · simpa using hd
  split
  · simpa using hd
  next h => simpa using (inForm_of_reserve h).2 hd

@[simp] theorem inForm_putEntryAt (r : Nat) (e : DirEntry) : (d.putEntryAt r e).inForm ↔ d.inForm := by simp [putEntryAt]

@[simp] theorem inForm_withUnits (hd : d.inForm) {r : Nat} {e : DirEntry} {go : Dev → Dev} (hg : ∀ x, x.inForm → (go
    x).inForm) :
    (d.withUnits r e go).inForm := by
  unfold withUnits
  split <;> simp [hd, hg]

@[simp] theorem inForm_entryOut (f : Nat) (e : DirEntry) (st sub : Nat) (ws : List Word) (trailer : Bool) :
    (d.entryOut f e st sub ws trailer).2.inForm ↔ d.inForm := by
  simp [entryOut]

@[simp] theorem inForm_hostNopOp (f s n : Nat) : (hostNopOp f s n d).inForm ↔ d.inForm := by
  unfold hostNopOp
  repeat' split
  all_goals simp

@[simp] theorem inForm_hostQueryOp (hd : d.inForm) (f s n : Nat) : (hostQueryOp f s n d).inForm := by
  unfold hostQueryOp
  dsimp only
  repeat' split
  all_goals simp [hd]

@[simp] theorem inForm_ringQueryDone (f s n : Nat) (ws : List Word) (st sub : Nat) :
    (d.ringQueryDone f s n ws st sub).inForm ↔ d.inForm := by
  unfold ringQueryDone
  dsimp only
  repeat' split
  all_goals simp

@[simp] theorem inForm_hostRetroOp (hd : d.inForm) (f s n : Nat) : (hostRetroOp f s n d).inForm := by
  unfold hostRetroOp
  dsimp only
  repeat' split
  all_goals simp [hd]

@[simp] theorem inForm_hostReadOp (hd : d.inForm) (f s n : Nat) : (hostReadOp f s n d).inForm := by
  unfold hostReadOp
  dsimp only
  repeat' split
  all_goals simp +contextual [hd]

@[simp] theorem inForm_refWriteEntry (hd : d.inForm) (r : Nat) (e : DirEntry) (tiles : List (List Word)) (failed : Bool) :
    (d.refWriteEntry r e tiles failed).inForm := by
  unfold refWriteEntry
  extract_lets +onlyGivenNames q t
  split
  · simp [hd]
  · extract_lets +onlyGivenNames good x
    have hx : x.2.2.inForm := by
      refine inForm_foldl_by (fun r : Nat × Nat × Dev => r.2.2) (fun a i ha => ?_) hd _
      split
      · exact ha
      · dsimp only
        exact inForm_refWrite ha ..
    clear_value x
    simp [hx]

@[simp] theorem inForm_refWriteOp (hd : d.inForm) (f s n : Nat) (tiles : List (List Word)) (failed : Bool) :
    (refWriteOp f s n tiles failed d).inForm := by
  unfold refWriteOp
  dsimp only
  split
  · exact hd
  · exact inForm_withUnits hd (fun x hx => inForm_refWriteEntry hx ..)

@[simp] theorem inForm_directEntryCompleteOp (hd : d.inForm) (f s n : Nat) : (directEntryCompleteOp f s n d).inForm := by
  unfold directEntryCompleteOp
  dsimp only
  repeat' split
  all_goals simp [hd]

@[simp] theorem inForm_completionDoorbellOp (hd : d.inForm) (f c : Nat) (v : BitVec 64) :
    (completionDoorbellOp f c v d).inForm := by
  unfold completionDoorbellOp
  dsimp only
  repeat' split
  all_goals simp [hd]

@[simp] theorem inForm_enableSq (r : Nat) : (d.enableSq r).inForm ↔ d.inForm := by simp [enableSq]

@[simp] theorem inForm_clearCq (r : Nat) : (d.clearCq r).inForm ↔ d.inForm := Iff.rfl

@[simp] theorem inForm_enableCq (r : Nat) : (d.enableCq r).inForm ↔ d.inForm := by simp [enableCq]

@[simp] theorem inForm_ringEnableOp (f : Nat) (sub : Bool) (s : Nat) : (ringEnableOp f sub s d).inForm ↔ d.inForm := by
  simp [ringEnableOp]

@[simp] theorem inForm_sqStopOp (hd : d.inForm) (f s : Nat) : (sqStopOp f s d).inForm := by simp [sqStopOp, hd]

@[simp] theorem inForm_stopEntries (r : Nat) (prod : Option (BitVec 32)) (entries : List (List Byte)) :
    (d.stopEntries r prod entries).inForm ↔ d.inForm := by
  simp [stopEntries]

@[simp] theorem inForm_stopPut (hd : d.inForm) (r : Nat) : (d.stopPut r).inForm := by
  unfold stopPut
  dsimp only
  repeat' split
  all_goals simp [hd]

@[simp] theorem inForm_stopFinishOp (hd : d.inForm) (f s : Nat) (prod : Option (BitVec 32)) (entries : List (List Byte)) :
    (stopFinishOp f s prod entries d).inForm := by
  simp +contextual [stopFinishOp, hd]

@[simp] theorem inForm_cqStopOp (f c : Nat) : (cqStopOp f c d).inForm ↔ d.inForm := by simp [cqStopOp]

@[simp] theorem inForm_hostVerWriteOp (f v : Nat) : (hostVerWriteOp f v d).inForm ↔ d.inForm := by simp [hostVerWriteOp]

@[simp] theorem inForm_refreshLowPower : d.refreshLowPower.inForm ↔ d.inForm := by simp [refreshLowPower]

@[simp] theorem inForm_functionAttachOp (f mode : Nat) : (functionAttachOp f mode d).inForm ↔ d.inForm := by
  simp [functionAttachOp]

@[simp] theorem inForm_loseSq (hd : d.inForm) (r : Nat) : (d.loseSq r).inForm := by
  unfold loseSq
  dsimp only
  simp only [inForm_setStall, inForm_wrB, inForm_wrF, inForm_setSq, inForm_satF]
  refine inForm_foldl hd (fun e x he => ?_) _
  split <;> simp [he]

@[simp] theorem inForm_loseCq (r : Nat) : (d.loseCq r).inForm ↔ d.inForm := by simp [loseCq]

@[simp] theorem inForm_loseTransfers (hd : d.inForm) (f : Nat) : (d.loseTransfers f).inForm := by
  refine inForm_forUpTo hd (fun c e he => ?_) _
  dsimp only
  repeat' split
  all_goals simp [he]

@[simp] theorem inForm_unwrite (r : Reg) (i : Nat) : (d.unwrite r i).inForm ↔ d.inForm := by simp [unwrite]

@[simp] theorem inForm_resetFunction (f : Nat) : (d.resetFunction f).inForm ↔ d.inForm := by simp [resetFunction]

@[simp] theorem inForm_setMbx (f : Nat) (m : Mailbox) : (d.setMbx f m).inForm ↔ d.inForm := by simp [setMbx]

@[simp] theorem inForm_loseFunction (hd : d.inForm) (f : Nat) : (d.loseFunction f).inForm := by
  unfold loseFunction
  extract_lets +onlyGivenNames e e2 e3
  have he2 : e2.inForm := inForm_forUpTo (by simpa [e] using hd) (fun s x hx => by simp [hx]) _
  have he3 : e3.inForm := inForm_loseTransfers he2 _
  clear_value e3
  simp [he3]

@[simp] theorem inForm_functionDetachOp (hd : d.inForm) (f : Nat) (cause : DetachCause) :
    (functionDetachOp f cause d).inForm := by
  unfold functionDetachOp
  dsimp only
  repeat' split
  all_goals simp [hd]

@[simp] theorem inForm_mbxGoOp (f len : Nat) : (mbxGoOp f len d).inForm ↔ d.inForm := by simp [mbxGoOp]

@[simp] theorem inForm_mbxResponseOp (hd : d.inForm) (f : Nat) : (mbxResponseOp f d).inForm := by
  unfold mbxResponseOp
  dsimp only
  repeat' split
  all_goals simp [hd]

@[simp] theorem inForm_mbxDoneClearOp (f : Nat) : (mbxDoneClearOp f d).inForm ↔ d.inForm := Iff.rfl

@[simp] theorem inForm_writeBytes (hd : d.inForm) (base n off : Nat) (bs : List Byte) :
    (writeBytes base n off bs d).inForm := by
  induction n generalizing d off bs with
  | zero => exact hd
  | succ n ih =>
    unfold writeBytes
    split
    · exact hd
    · exact ih (by split <;> simp [hd]) ..

@[simp] theorem inForm_hostMailboxWriteOp (hd : d.inForm) (f off : Nat) (bytes : List Byte) :
    (hostMailboxWriteOp f off bytes d).inForm := by
  unfold hostMailboxWriteOp
  dsimp only
  repeat' split
  all_goals simp [hd]

@[simp] theorem inForm_queryDescriptorOp (ws : List Word) : (queryDescriptorOp ws d).inForm ↔ d.inForm := by
  simp [queryDescriptorOp]

@[simp] theorem inForm_finishQuery (hd : d.inForm) (q : Query) : (d.finishQuery q).inForm := by
  unfold finishQuery
  extract_lets +onlyGivenNames x y
  have hy : y.2.2.inForm := inForm_passBuffer (inForm_runQuery hd _) ..
  clear_value y
  dsimp only
  split <;> simp [hy]

@[simp] theorem inForm_queryCompleteOp (hd : d.inForm) (n : Nat) : (queryCompleteOp n d).inForm := by
  unfold queryCompleteOp
  dsimp only
  repeat' split
  all_goals simp [hd]

/-! ### Channel commands -/

@[simp] theorem inForm_chNopOp (hd : d.inForm) (c : Nat) (w : ChWord) : (chNopOp c w d).inForm :=
  inForm_chStart hd (fun _ he => inForm_chFinish he ..)

@[simp] theorem inForm_pollPoswait (hd : d.inForm) (c : Nat) : (d.pollPoswait c).inForm := by
  unfold pollPoswait
  repeat' split
  all_goals simp [hd]

@[simp] theorem inForm_chPoswaitOp (hd : d.inForm) (c : Nat) (w : ChWord) : (chPoswaitOp c w d).inForm := by
  refine inForm_chStart hd (fun e he => ?_)
  split
  next h => simp [inForm_of_chRead he h]
  next h =>
    dsimp only
    split <;> simp [inForm_of_chRead he h]

@[simp] theorem inForm_poswaitReachedOp (hd : d.inForm) (c : Nat) : (poswaitReachedOp c d).inForm := by
  simp [poswaitReachedOp, hd]

@[simp] theorem inForm_endWaitev (hd : d.inForm) (c code : Nat) (w : ChWord) (src st sub value : Nat) :
    (d.endWaitev c code w src st sub value).inForm := by
  simp [endWaitev, hd]

@[simp] theorem inForm_chWaitevOp (hd : d.inForm) (c : Nat) (w : ChWord) : (chWaitevOp c w d).inForm := by
  refine inForm_chStart hd (fun e he => ?_)
  dsimp only
  split
  · simp [he]
  · split
    · simp [he]
    · split <;> simp [he]

@[simp] theorem inForm_waitevRaisedOp (hd : d.inForm) (c : Nat) : (waitevRaisedOp c d).inForm := by
  unfold waitevRaisedOp
  repeat' split
  all_goals simp [hd]

@[simp] theorem inForm_chFireOp (hd : d.inForm) (c : Nat) (w : ChWord) : (chFireOp c w d).inForm := by
  refine inForm_chStart hd (fun e he => ?_)
  extract_lets +onlyGivenNames a out own
  have ho : own.2.inForm := by simp [own, he]
  split
  next h => simp [inForm_of_chRead ho h]
  next h =>
    have hr := inForm_of_chRead ho h
    dsimp only
    repeat' split
    all_goals simp [hr]

@[simp] theorem inForm_fireOneshotOp (hd : d.inForm) (c : Nat) : (fireOneshotOp c d).inForm := by simp [fireOneshotOp, hd]

@[simp] theorem inForm_pushEntries (k : Nat) (ws : List Word) : (d.pushEntries k ws).2.2.2.inForm ↔ d.inForm := by
  induction ws using List.twoStepInduction generalizing d with
  | nil => rfl
  | singleton p => rfl
  | cons_cons p w ws ih _ =>
    have hp := inForm_pushAct (d := d) k p w
    unfold pushEntries
    split
    next h => rw [h] at hp; exact hp
    next h => rw [h] at hp; exact hp
    next h => rw [h] at hp; exact ih.trans hp

@[simp] theorem inForm_chActOp (hd : d.inForm) (c : Nat) (w : ChWord) : (chActOp c w d).inForm := by
  refine inForm_chStart hd (fun e he => ?_)
  extract_lets +onlyGivenNames k own
  have ho : own.2.inForm := by simp [own, he]
  clear_value own
  dsimp only
  split
  · simp [ho]
  · split
    · simp [ho]
    · split
      next h => simp [inForm_of_chRead ho h]
      next h => simp [inForm_of_chRead ho h]

@[simp] theorem inForm_pollLines (hd : d.inForm) (c : Nat) : (d.pollLines c).inForm := by
  unfold pollLines
  dsimp only
  repeat' split
  all_goals simp [hd]

@[simp] theorem inForm_chLinesOp (hd : d.inForm) (c : Nat) (w : ChWord) : (chLinesOp c w d).inForm := by
  refine inForm_chStart hd (fun e he => ?_)
  simp [he]

@[simp] theorem inForm_linesCountedOp (hd : d.inForm) (c : Nat) : (linesCountedOp c d).inForm := by simp [linesCountedOp, hd]

@[simp] theorem inForm_chMsgOp (hd : d.inForm) (c : Nat) (w : ChWord) : (chMsgOp c w d).inForm := by
  refine inForm_chStart hd (fun e he => ?_)
  extract_lets +onlyGivenNames h own x a item bytes len n
  have hx : x.inForm := by simp [x, own, he]
  clear_value item x
  split
  · exact inForm_chFinish hx ..
  split
  · exact inForm_chFinish hx ..
  split
  · exact inForm_chFinish hx ..
  extract_lets +onlyGivenNames head y r
  have hr : r.2.2.inForm := by
    unfold r
    split <;> simp [y, hx]
  clear_value r
  dsimp only
  repeat' split
  all_goals simp [hr]

@[simp] theorem inForm_pollBandwait (hd : d.inForm) (c : Nat) : (d.pollBandwait c).inForm := by
  unfold pollBandwait
  repeat' split
  all_goals simp [hd]

@[simp] theorem inForm_chBandwaitOp (hd : d.inForm) (c : Nat) (w : ChWord) : (chBandwaitOp c w d).inForm := by
  refine inForm_chStart hd (fun e he => ?_)
  split
  next h => simp [inForm_of_chRead he h]
  next h => simp [inForm_of_chRead he h]

@[simp] theorem inForm_bandwaitHeldOp (hd : d.inForm) (c : Nat) : (bandwaitHeldOp c d).inForm := by simp [bandwaitHeldOp, hd]

@[simp] theorem inForm_waitLimitOp (hd : d.inForm) (c : Nat) : (waitLimitOp c d).inForm := by
  unfold waitLimitOp
  dsimp only
  repeat' split
  all_goals simp [hd]

@[simp] theorem inForm_chMoveOp (hd : d.inForm) (c : Nat) (w : ChWord) : (chMoveOp c w d).inForm := by
  refine inForm_chStart hd (fun e he => ?_)
  split
  next h => simp [inForm_of_chRead he h]
  next h =>
    refine inForm_xferStart (inForm_of_chRead he h) (fun x t ht => ?_)
    extract_lets n g
    repeat' split
    all_goals simp [ht]

@[simp] theorem inForm_chQueryOp (hd : d.inForm) (c : Nat) (w : ChWord) : (chQueryOp c w d).inForm := by
  refine inForm_chStart hd (fun e he => ?_)
  split
  next h => simp [inForm_of_chRead he h]
  next h =>
    refine inForm_xferStart (inForm_of_chRead he h) (fun x t ht => ?_)
    dsimp only
    split <;> simp [ht]

@[simp] theorem inForm_takeRecords (hd : d.inForm) (retro : Bool) (n : Nat) : (d.takeRecords retro n).2.2.2.inForm := by
  induction n generalizing d with
  | zero => exact hd
  | succ n ih =>
    unfold takeRecords
    extract_lets +onlyGivenNames r k x e
    have he : e.inForm := by simp [e, x, hd]
    split
    · exact he
    · dsimp only
      exact ih he

@[simp] theorem inForm_takeFor (hd : d.inForm) (c : Nat) (r : ChanRun) (retro : Bool) (n dest left : Nat) :
    (d.takeFor c r retro n dest left).inForm := by
  unfold takeFor
  extract_lets +onlyGivenNames x e e2
  have he : e.inForm := by unfold e; split <;> simp [x, hd]
  clear_value e
  have he2 : e2.inForm := by unfold e2; split <;> simp [he]
  clear_value e2
  simp [he2]

@[simp] theorem inForm_pollQtake (hd : d.inForm) (c : Nat) : (d.pollQtake c).inForm := by
  unfold pollQtake
  dsimp only
  repeat' split
  all_goals simp [hd]

@[simp] theorem inForm_chQtakeOp (hd : d.inForm) (c : Nat) (w : ChWord) : (chQtakeOp c w d).inForm := by
  refine inForm_chStart hd (fun e he => ?_)
  simp [he]

@[simp] theorem inForm_qtakeRecordsOp (hd : d.inForm) (c : Nat) : (qtakeRecordsOp c d).inForm := by simp [qtakeRecordsOp, hd]

@[simp] theorem inForm_chRetroOp (hd : d.inForm) (c : Nat) (w : ChWord) : (chRetroOp c w d).inForm := by
  refine inForm_chStart hd (fun e he => ?_)
  split
  next h => simp [inForm_of_chRead he h]
  next h => simp [inForm_of_chRead he h]

@[simp] theorem inForm_chPostOp (hd : d.inForm) (c : Nat) (w : ChWord) : (chPostOp c w d).inForm := by
  refine inForm_chStart hd (fun e he => ?_)
  dsimp only
  split
  · simp [he]
  · split
    · simp [he]
    · split
      next h => simp [inForm_of_chRead he h]
      next h =>
        have hr := inForm_of_chRead he h
        split
        · simp [hr]
        · split <;> simp [hr]

/-! ### Register accesses -/

@[simp] theorem inForm_loadReg (hd : d.inForm) (r : Reg) (i : Nat) : (d.loadReg r i).2.inForm := by
  unfold loadReg
  dsimp only
  repeat' split
  all_goals simp [hd]

@[simp] theorem inForm_plainStore (r : Reg) (i : Nat) (w : Word) : (d.plainStore r i w).inForm ↔ d.inForm := Iff.rfl

@[simp] theorem inForm_guardedStore (r : Reg) (i : Nat) (w mask : Word) (locked : Bool) {err : Dev → Dev}
    (he : ∀ e, (err e).inForm ↔ e.inForm) : (d.guardedStore r i w mask locked err).inForm ↔ d.inForm := by
  simp [guardedStore, he]

@[simp] theorem inForm_writeAxisCtl (a : Nat) (w : Word) : (d.writeAxisCtl a w).inForm ↔ d.inForm := by simp [writeAxisCtl]

@[simp] theorem inForm_writeGenCfg (hd : d.inForm) (g : Nat) (w : Word) :
    (d.writeGenCfg g w).inForm := by simp [writeGenCfg, hd]

@[simp] theorem inForm_writeHlkCtl (hd : d.inForm) (w : Word) : (d.writeHlkCtl w).inForm := by simp [writeHlkCtl, hd]

@[simp] theorem inForm_loseMsg (hd : d.inForm) (m : HlkMsg) : (d.loseMsg m).inForm := by
  unfold loseMsg
  repeat' split
  all_goals simp [hd]

@[simp] theorem inForm_portDownOp (hd : d.inForm) (p : Nat) (cause : PortDownCause) (lost : List HlkMsg) :
    (portDownOp p cause lost d).inForm := by
  simp +contextual [portDownOp, hd]

@[simp] theorem inForm_portRetrainOp (hd : d.inForm) (p : Nat) (lost : List HlkMsg) : (portRetrainOp p lost d).inForm := by
  simp +contextual [portRetrainOp, hd]

@[simp] theorem inForm_portCut (hd : d.inForm) (p : Nat) : (d.portCut p).inForm := by simp +contextual [portCut, hd]

@[simp] theorem inForm_writePortCtl (hd : d.inForm) (p : Nat) (w : Word) : (d.writePortCtl p w).inForm := by
  simp [writePortCtl, hd]

@[simp] theorem inForm_writeHeadCfg (hd : d.inForm) (h : Nat) (w : Word) : (d.writeHeadCfg h w).inForm := by
  unfold writeHeadCfg
  extract_lets +onlyGivenNames en e e2
  have he2 : e2.inForm := inForm_headEnable (by simp [e, hd]) ..
  split
  · exact inForm_retryOp he2 _
  · exact he2

@[simp] theorem inForm_writeLinkCfg (hd : d.inForm) (l : Nat) (w : Word) : (d.writeLinkCfg l w).inForm := by
  simp [writeLinkCfg, hd]

@[simp] theorem inForm_writeLbCtl (hd : d.inForm) (w : Word) : (d.writeLbCtl w).inForm := by simp [writeLbCtl, hd]

@[simp] theorem inForm_writeBank (r : Reg) (i : Nat) (bankB : Bool) (w : Word) :
    (d.writeBank r i bankB w).inForm ↔ d.inForm := by
  simp [writeBank]

@[simp] theorem inForm_writeChmCfg (h : Nat) (w : Word) : (d.writeChmCfg h w).inForm ↔ d.inForm := by simp [writeChmCfg]

@[simp] theorem inForm_writeChm (r : Reg) (h : Nat) (w : Word) (ok : Word → Bool) :
    (d.writeChm r h w ok).inForm ↔ d.inForm := by
  simp [writeChm]

@[simp] theorem inForm_writeParam (r : Reg) (i j : Nat) (w : Word) : (d.writeParam r i j w).inForm ↔ d.inForm := by
  simp [writeParam]

@[simp] theorem inForm_writeChanCtl (hd : d.inForm) (c : Nat) (w : Word) : (writeChanCtl c w d).inForm := by
  unfold writeChanCtl
  extract_lets +onlyGivenNames e e2 e3 e4
  have he : e.inForm := by unfold e; split <;> simp [hd]
  have he2 : e2.inForm := by unfold e2; split; exacts [inForm_channelHaltOp he _, he]
  have he3 : e3.inForm := by unfold e3; split; exacts [inForm_channelSuspendOp he2 _, he2]
  have he4 : e4.inForm := by unfold e4; split <;> simpa using he3
  split <;> simpa using he4

@[simp] theorem inForm_writeChan (r : Reg) (c : Nat) (w : Word) : (d.writeChan r c w).inForm ↔ d.inForm := by simp [writeChan]

@[simp] theorem inForm_coreRunOp (k : Nat) (run : Bool) : (coreRunOp k run d).inForm ↔ d.inForm := by simp [coreRunOp]

@[simp] theorem inForm_writeHbcCtl (hd : d.inForm) (w : Word) : (d.writeHbcCtl w).inForm := by
  simp +contextual [writeHbcCtl, hd]

@[simp] theorem inForm_writeEdcCtl (w : Word) : (d.writeEdcCtl w).inForm ↔ d.inForm := by simp [writeEdcCtl]

@[simp] theorem inForm_writeInjCtl (q : Requester) (w : Word) : (d.writeInjCtl q w).inForm ↔ d.inForm := by simp [writeInjCtl]

@[simp] theorem inForm_writeSqCfg (hd : d.inForm) (r : Nat) (w : Word) : (d.writeSqCfg r w).inForm := by simp [writeSqCfg, hd]

@[simp] theorem inForm_writeCqCfg (r : Nat) (w : Word) : (d.writeCqCfg r w).inForm ↔ d.inForm := by simp [writeCqCfg]

@[simp] theorem inForm_writeOutCfg (x : Nat) (w : Word) : (d.writeOutCfg x w).inForm ↔ d.inForm := by simp [writeOutCfg]

@[simp] theorem inForm_storeReg (hd : d.inForm) (q : Requester) (r : Reg) (i : Nat) (w : Word) :
    (d.storeReg q r i w).inForm := by
  unfold storeReg
  dsimp only
  split
  all_goals try (repeat' split)
  all_goals simp [hd]

@[simp] theorem inForm_busWrite (hd : d.inForm) (q : Requester) (win off : Nat) (w : BitVec 64) :
    (busWrite q win off w d).inForm := by
  unfold busWrite
  repeat' split
  all_goals simp [hd]

@[simp] theorem inForm_bar4Write (hd : d.inForm) (f off : Nat) (wide : Bool) (v : BitVec 64) :
    (d.bar4Write f off wide v).inForm := by
  simp [bar4Write, hd]

@[simp] theorem inForm_msixControl (f : Nat) (v : BitVec 64) : (d.msixControl f v).inForm ↔ d.inForm := by simp [msixControl]

@[simp] theorem inForm_registerWriteOp (hd : d.inForm) (q : Requester) (win off : Nat) (w : BusWord) :
    (registerWriteOp q win off w d).inForm := by
  unfold registerWriteOp
  repeat' split
  all_goals simp [hd]

/-! ### Goatherd -/

@[simp] theorem inForm_setVarBytes (index sub : Nat) (bs : List Byte) : (d.setVarBytes index sub bs).inForm ↔ d.inForm := by
  simp [setVarBytes]

@[simp] theorem inForm_setVar (index sub n v : Nat) : (d.setVar index sub n v).inForm ↔ d.inForm := Iff.rfl

@[simp] theorem inForm_whenReady (hd : d.inForm) {f : Dev → Dev} (hf : ∀ e, e.inForm → (f e).inForm) :
    (d.whenReady f).inForm := by
  unfold whenReady
  split <;> simp [hd, hf]

@[simp] theorem inForm_ringRecords (hd : d.inForm) (seq n : Nat) : (d.ringRecords seq n).2.inForm := by
  induction n generalizing d seq with
  | zero => exact hd
  | succ n ih =>
    unfold ringRecords
    exact ih (inForm_sramReads hd ..) _

@[simp] theorem inForm_flashRecord (r : LogRecord) : (d.flashRecord r).inForm ↔ d.inForm := by simp [flashRecord]

@[simp] theorem inForm_logFlushOp (hd : d.inForm) : (logFlushOp d).inForm := by
  unfold logFlushOp
  dsimp only
  split
  · simp only [inForm_mk]
    exact inForm_foldl (inForm_ringRecords hd ..) (fun e x he => by simpa using he) _
  · exact hd

@[simp] theorem inForm_logWriteOp (hd : d.inForm) (bytes : List Byte) : (logWriteOp bytes d).inForm := by
  refine inForm_whenReady hd (fun e he => ?_)
  repeat' split
  all_goals simp [he]

@[simp] theorem inForm_setImgSlot (s : Nat) (x : ImageSlot) : (d.setImgSlot s x).inForm ↔ d.inForm := by simp [setImgSlot]

@[simp] theorem inForm_writeBootRec (r : BootRecord) : (d.writeBootRec r).inForm ↔ d.inForm := by simp [writeBootRec]

@[simp] theorem inForm_updateStep (hd : d.inForm) (s step : Nat) (ok : Bool) : (d.updateStep s step ok).inForm := by
  simp [updateStep, hd]

@[simp] theorem inForm_resetTo (hd : d.inForm) (st : DevState) (c r : Nat) :
    (d.resetTo st c r).inForm := MemoriesWf.resetTo hd st c r

@[simp] theorem inForm_goOff (hd : d.inForm) (cause rail : Nat) (aon : Bool) : (d.goOff cause rail aon).inForm := by
  simp [goOff, hd]

@[simp] theorem inForm_railResetOp (hd : d.inForm) (r : Nat) : (railResetOp r d).inForm := by simp [railResetOp, hd]

@[simp] theorem inForm_resetNAssertOp (hd : d.inForm) : (resetNAssertOp d).inForm := by simp [resetNAssertOp, hd]

@[simp] theorem inForm_stFailure (hd : d.inForm) (bits : Nat) : (d.stFailure bits).inForm := by simp [stFailure, hd]

@[simp] theorem inForm_writeRetention (hd : d.inForm) : d.writeRetention.inForm := by simp [writeRetention, hd]

@[simp] theorem inForm_testRegion4 (hd : d.inForm) : d.testRegion4.2.inForm := MemoriesWf.testRegion4 hd

@[simp] theorem inForm_refreshBoot (s : Nat) (trial : Bool) : (d.refreshBoot s trial).inForm ↔ d.inForm := by simp [refreshBoot]

@[simp] theorem inForm_loadG (hd : d.inForm) (s : Nat) : (d.loadG s).inForm := by simp [loadG, hd]

@[simp] theorem inForm_bootRom (hd : d.inForm) (old : Nat) (boot : BootReport) : (d.bootRom old boot).inForm := by
  unfold bootRom
  extract_lets +onlyGivenNames t e g e1 e2 e3 e4 e5
  have he2 : e2.inForm := by simp [e2, e1, e, t, hd]
  have he3 : e3.inForm := by unfold e3; split <;> simp [he2]
  have he4 : e4.inForm := by unfold e4; split <;> simp [he3]
  have he5 : e5.inForm := by simp [e5, he4]
  clear_value e5
  split
  · simp [he5]
  extract_lets +onlyGivenNames r fall s e6
  have he6 : e6.inForm := by
    unfold e6
    repeat' split
    all_goals simp [he5]
  clear_value e6
  split
  · exact inForm_logFlushOp (inForm_log (by simp [he6]) ..)
  · simp [he6]

@[simp] theorem inForm_suppliesGoodOp (hd : d.inForm) (pll : Bool) (prog : List (Fin 2 × List Byte)) (boot : BootReport) :
    (suppliesGoodOp pll prog boot d).inForm := by
  unfold suppliesGoodOp
  split
  · exact hd
  · extract_lets +onlyGivenNames e e2
    have he2 : e2.inForm :=
      inForm_foldl (inForm_foldl hd (fun e x he => by simpa using he) _) (fun e x he => by split <;> simpa using he) _
    have he3 := inForm_resetTo he2
    clear_value e2
    dsimp only
    split <;> simp [he3]

@[simp] theorem inForm_warmReset (hd : d.inForm) (cause : Nat) (boot : BootReport) : (d.warmReset cause boot).inForm := by
  simp [warmReset, hd]

@[simp] theorem inForm_watchdogExpiryOp (hd : d.inForm) (boot : BootReport) : (watchdogExpiryOp boot d).inForm := by
  simp [watchdogExpiryOp, hd]

@[simp] theorem inForm_deviceResetOp (hd : d.inForm) (boot : BootReport) : (deviceResetOp boot d).inForm := by
  simp [deviceResetOp, hd]

@[simp] theorem inForm_pllLockTimeoutOp : (pllLockTimeoutOp d).inForm ↔ d.inForm := by simp [pllLockTimeoutOp]

@[simp] theorem inForm_pllLockOp (hd : d.inForm) (serdes : Bool) (boot : BootReport) : (pllLockOp serdes boot d).inForm := by
  simp [pllLockOp, hd]

@[simp] theorem inForm_writeMap (hd : d.inForm) : d.writeMap.inForm := by simp [writeMap, hd]

@[simp] theorem inForm_stackReady (hd : d.inForm) (s : Nat) (t : StackTrain) : (d.stackReady s t).inForm := by
  simp [stackReady, hd]

@[simp] theorem inForm_trainStack (hd : d.inForm) (s : Nat) (t : StackTrain) : (d.trainStack s t).inForm := by
  unfold trainStack
  repeat' split
  all_goals simp [hd]

@[simp] theorem inForm_selftestCompleteOp (hd : d.inForm) (t : SelfTest) (s0 s1 s2 s3 : StackTrain) (velvet ref : Bool) :
    (selftestCompleteOp t s0 s1 s2 s3 velvet ref d).inForm := by
  unfold selftestCompleteOp
  split
  · exact hd
  extract_lets +onlyGivenNames b e
  have he : e.inForm := inForm_mk_of (memWf_filter _ _ _ hd.1) hd.2.1 rfl ..
  clear_value e
  split
  · simp [he]
  extract_lets +onlyGivenNames e1
  have he1 : e1.inForm := inForm_forUpTo he (fun g t ht => by split <;> simp [ht]) _
  clear_value e1
  split
  · exact he1
  extract_lets +onlyGivenNames e2 e3
  have he2 : e2.inForm := by simp [e2, he1]
  have he3 : e3.inForm := inForm_trainStack (inForm_trainStack (by simp [he2]) ..) ..
  clear_value e3
  repeat' split
  all_goals simp [he3]

@[simp] theorem inForm_partCCheckOp (hd : d.inForm) (same : Bool) : (partCCheckOp same d).inForm := by simp [partCCheckOp, hd]

@[simp] theorem inForm_enterService (hd : d.inForm) : d.enterService.inForm := by simp [enterService, hd]

@[simp] theorem inForm_settleService (hd : d.inForm) : d.settleService.inForm := by simp [settleService, hd]

@[simp] theorem inForm_enterReady (hd : d.inForm) (cause : Option Nat) : (d.enterReady cause).inForm := by simp [enterReady, hd]

@[simp] theorem inForm_serviceRequestOp (hd : d.inForm) (v : Nat) : (serviceRequestOp v d).inForm := by
  refine inForm_whenReady hd (fun e he => ?_)
  dsimp only
  repeat' split
  all_goals simp [he]

@[simp] theorem inForm_confirmImage (hd : d.inForm) : d.confirmImage.inForm := by simp [confirmImage, hd]

@[simp] theorem inForm_trainCompleteOp (hd : d.inForm) : (trainCompleteOp d).inForm := by
  unfold trainCompleteOp
  split
  · exact hd
  · extract_lets +onlyGivenNames e e2 e3
    have he2 : e2.inForm := by simp [e2, e, hd]
    have he3 : e3.inForm := by unfold e3; split; exacts [inForm_confirmImage he2, he2]
    exact inForm_settleService (by simpa using he3)

@[simp] theorem inForm_readyDeadlineOp (hd : d.inForm) : (readyDeadlineOp d).inForm := by simp [readyDeadlineOp, hd]

@[simp] theorem inForm_returnFencedOp (hd : d.inForm) (v : Nat) (pass : BitVec 8) (s0 s1 s2 s3 : StackTrain) :
    (returnFencedOp v pass s0 s1 s2 s3 d).inForm := by
  refine inForm_whenReady hd (fun e he => ?_)
  split
  · simpa using he
  split
  · simpa using he
  extract_lets +onlyGivenNames ts back e1 e2 gs e3
  have he1 : e1.inForm := inForm_foldl he (fun t s ht => by simp [ht]) _
  have he2 : e2.inForm := by unfold e2; split <;> simp [he1]
  have he3 : e3.inForm := inForm_foldl he2 (fun t g ht => by simp [ht]) _
  clear_value e3
  rw [inForm_answer]
  split <;> simp [he3]

@[simp] theorem inForm_railReading (r mv : Nat) : (d.railReading r mv).inForm ↔ d.inForm := by simp [railReading]

@[simp] theorem inForm_refreshWarn : d.refreshWarn.inForm ↔ d.inForm := by simp [refreshWarn]

@[simp] theorem inForm_supplyWarningOp (hd : d.inForm) (r mv : Nat) : (supplyWarningOp r mv d).inForm := by
  simp [supplyWarningOp, hd]

@[simp] theorem inForm_supplyWarningEndOp (hd : d.inForm) (r mv : Nat) : (supplyWarningEndOp r mv d).inForm := by
  simp [supplyWarningEndOp, hd]

@[simp] theorem inForm_tempReading (s : Nat) (t : Int) : (d.tempReading s t).inForm ↔ d.inForm := by simp [tempReading]

@[simp] theorem inForm_throttleStartOp (hd : d.inForm) (s : Nat) (t : Int) : (throttleStartOp s t d).inForm := by
  simp [throttleStartOp, hd]

@[simp] theorem inForm_throttleStepOp (s : Nat) (t : Int) : (throttleStepOp s t d).inForm ↔ d.inForm := by simp [throttleStepOp]

@[simp] theorem inForm_throttleEndOp (hd : d.inForm) (s : Nat) (t : Int) : (throttleEndOp s t d).inForm := by
  simp [throttleEndOp, hd]

@[simp] theorem inForm_thermalTripOp (hd : d.inForm) (s : Nat) (t : Int) : (thermalTripOp s t d).inForm := by
  simp [thermalTripOp, hd]

@[simp] theorem inForm_thermtripComparatorOp : (thermtripComparatorOp d).inForm ↔ d.inForm := by simp [thermtripComparatorOp]

@[simp] theorem inForm_dropSegs (key : Nat) : (d.dropSegs key).inForm ↔ d.inForm := by simp [dropSegs]

@[simp] theorem inForm_imageWriteOp (hd : d.inForm) (last : Bool) (off : Nat) (bytes : List Byte) :
    (imageWriteOp last off bytes d).inForm := by
  refine inForm_whenReady hd (fun e he => ?_)
  dsimp only
  repeat' split
  all_goals simp [he]

@[simp] theorem inForm_imageVerifyDoneOp (hd : d.inForm) (auth : Bool) : (imageVerifyDoneOp auth d).inForm := by
  simp [imageVerifyDoneOp, hd]

@[simp] theorem inForm_activateOp (hd : d.inForm) : (activateOp d).inForm := by
  refine inForm_whenReady hd (fun e he => ?_)
  dsimp only
  repeat' split
  all_goals simp [he]

@[simp] theorem inForm_confirmOp (hd : d.inForm) : (confirmOp d).inForm :=
  inForm_whenReady hd (fun e he => by simp [he])

@[simp] theorem inForm_keyProgramOp (hd : d.inForm) (x : BopPath) (bytes : List Byte) : (keyProgramOp x bytes d).inForm := by
  refine inForm_whenReady hd (fun e he => ?_)
  dsimp only
  repeat' split
  all_goals simp [he]

@[simp] theorem inForm_keyRevokeOp (hd : d.inForm) (x : BopPath) (k : Nat) : (keyRevokeOp x k d).inForm := by
  refine inForm_whenReady hd (fun e he => ?_)
  dsimp only
  repeat' split
  all_goals simp [he]

@[simp] theorem inForm_startPower (hd : d.inForm) (v : Nat) : (d.startPower v).inForm := by
  unfold startPower
  dsimp only
  repeat' split
  all_goals simp [hd]

@[simp] theorem inForm_powerRequestOp (hd : d.inForm) (v : Nat) : (powerRequestOp v d).inForm := by
  refine inForm_whenReady hd (fun e he => ?_)
  dsimp only
  repeat' split
  all_goals simp [he]

/-! ### Values of dictionary objects -/

@[simp] theorem inForm_refreshSessions : d.refreshSessions.inForm ↔ d.inForm := by simp [refreshSessions]

@[simp] theorem inForm_closeSessions (test : Session → Bool) : (d.closeSessions test).inForm ↔ d.inForm := by
  simp [closeSessions]

@[simp] theorem inForm_ringWords (hd : d.inForm) (seq n : Nat) : (d.ringWords seq n).2.2.inForm := by
  induction n generalizing d seq with
  | zero => exact hd
  | succ n ih =>
    unfold ringWords
    dsimp only
    exact ih (inForm_sramReadAll hd ..) _

@[simp] theorem inForm_logValue (hd : d.inForm) : d.logValue.2.2.inForm := inForm_ringWords hd ..

@[simp] theorem inForm_readValue (hd : d.inForm) (index sub : Nat) (o : Obj) : (d.readValue index sub o).2.2.inForm := by
  unfold readValue
  dsimp only
  repeat' split
  all_goals simp [hd]

@[simp] theorem inForm_programWriteOp (hd : d.inForm) (off : Nat) (ws : List Word) : (programWriteOp off ws d).inForm := by
  refine inForm_whenReady hd (fun e he => ?_)
  repeat' split
  all_goals simp [he]

@[simp] theorem inForm_storeConfigurationOp (hd : d.inForm) : (storeConfigurationOp d).inForm := by
  simp [storeConfigurationOp, hd]

@[simp] theorem inForm_eraseConfigurationOp (hd : d.inForm) : (eraseConfigurationOp d).inForm := by
  simp [eraseConfigurationOp, hd]

@[simp] theorem inForm_refreshAddr (p : Nat) : (d.refreshAddr p).inForm ↔ d.inForm := Iff.rfl

@[simp] theorem inForm_setPtpState (v : Nat) : (d.setPtpState v).inForm ↔ d.inForm := by simp [setPtpState]

@[simp] theorem inForm_ethError (p hi lo : Nat) : (d.ethError p hi lo).inForm ↔ d.inForm := by simp [ethError]

@[simp] theorem inForm_deny (x : BopPath) : (d.deny x).inForm ↔ d.inForm := by
  unfold deny
  dsimp only
  repeat' split
  all_goals simp

@[simp] theorem inForm_setValue (index sub : Nat) (bs : List Byte) : (d.setValue index sub bs).inForm ↔ d.inForm := by
  simp [setValue]

@[simp] theorem inForm_writeVar (hd : d.inForm) (x : BopPath) (index sub : Nat) (bs : List Byte) :
    (d.writeVar x index sub bs).inForm := by
  simp [writeVar, hd]

@[simp] theorem inForm_writeField (hd : d.inForm) (r : Reg) (i hi lo v : Nat) : (d.writeField r i hi lo v).inForm := by
  simp [writeField, hd]

@[simp] theorem inForm_returnFreely (hd : d.inForm) (v : Nat) : (d.returnFreely v).inForm := by simp [returnFreely, hd]

@[simp] theorem inForm_pulseObj (hd : d.inForm) (index sub : Nat) : (d.pulseObj index sub).inForm := by
  unfold pulseObj
  dsimp only
  repeat' split
  all_goals simp [hd]

@[simp] theorem inForm_writeWords (hd : d.inForm) (index sub : Nat) (ws : List Word) : (d.writeWords index sub ws).inForm := by
  simp [writeWords, hd]

@[simp] theorem inForm_act (hd : d.inForm) (x : BopPath) (index sub : Nat) (bs : List Byte) :
    (d.act x index sub bs).inForm := by
  unfold act
  dsimp only
  repeat' split
  all_goals simp [hd]

@[simp] theorem inForm_refreshSet : d.refreshSet.inForm ↔ d.inForm := by simp [refreshSet]

@[simp] theorem inForm_shadow (index sub : Nat) (bs : List Byte) : (d.shadow index sub bs).inForm ↔ d.inForm := by simp [shadow]

@[simp] theorem inForm_writeObject (hd : d.inForm) (x : BopPath) (index sub : Nat) (o : Obj) (bs : List Byte) :
    (d.writeObject x index sub o bs).inForm := by
  unfold writeObject
  repeat' split
  all_goals simp [hd]

/-! ### The waves of a commit -/

@[simp] theorem inForm_storeEntry (t : Word) (e : Nat × List Byte) : (storeEntry t d e).inForm ↔ d.inForm := by
  unfold storeEntry
  repeat' split
  all_goals simp

@[simp] theorem inForm_refusalOf (index : Nat) : (d.refusalOf index).inForm ↔ d.inForm := by
  unfold refusalOf
  repeat' split
  all_goals simp

theorem inForm_of_laterEntry {x : Nat × List Byte} {t : Dev} (h : d.laterEntry x = some t) : t.inForm ↔ d.inForm := by
  unfold laterEntry at h
  split at h
  · dsimp only at h
    rw [Option.ite_none_right_eq_some] at h
    obtain ⟨-, h⟩ := h
    rw [← Option.some.inj h]
    simp
  · cases h

@[simp] theorem inForm_mapEntry (hd : d.inForm) (t : Word) (bs : List Byte) : (mapEntry t bs d).inForm := by simp [mapEntry, hd]

@[simp] theorem inForm_applySetting (hd : d.inForm) (t : Word) (x : Nat × List Byte) : (applySetting t d x).inForm := by
  unfold applySetting
  split
  next h => exact (inForm_of_laterEntry h).2 hd
  next =>
    repeat' split
    all_goals simp [hd]

@[simp] theorem inForm_applyEnable (hd : d.inForm) (key v : Nat) : (d.applyEnable key v).2.inForm := by
  unfold applyEnable
  dsimp only
  split
  all_goals simp [hd]

@[simp] theorem inForm_applyEnables (hd : d.inForm) (es : List (Nat × List Byte)) : (d.applyEnables es).inForm := by
  simp +contextual [applyEnables, hd]

@[simp] theorem inForm_applySettings (hd : d.inForm) (es ens : List (Nat × List Byte)) (t : Word) (lastGraze : Bool) :
    (d.applySettings es ens t lastGraze).inForm := by
  unfold applySettings
  extract_lets +onlyGivenNames badGens trial onGens graze overQ bad good layout gens e1 e2 e3 e4 dict e5 bank graze e6
  have he2 : e2.inForm := inForm_foldl (by simpa [e1] using hd) (fun u x hu => inForm_applySetting hu t x) _
  have he3 : e3.inForm := inForm_foldl he2 (fun u g hu => by split <;> simpa using hu) _
  have he5 : e5.inForm := by simpa [e5, e4] using he3
  have he6 : e6.inForm := by unfold e6; split <;> simpa [bank] using he5
  clear_value e6
  repeat' split
  all_goals simp [he6]

@[simp] theorem inForm_applyEntries (hd : d.inForm) (es : List (Nat × List Byte)) (t : Word) (lastGraze : Bool) :
    (d.applyEntries es t lastGraze).inForm :=
  inForm_applyEnables (inForm_applySettings (inForm_applyEnables hd _) ..) _

@[simp] theorem inForm_applyWaveAt (hd : d.inForm) (w : Nat) (t : Word) :
    (d.applyWaveAt w t).inForm := by simp [applyWaveAt, hd]

@[simp] theorem inForm_applyStoredRw (hd : d.inForm) (e : Nat × List Byte) : (d.applyStoredRw e).inForm := by
  unfold applyStoredRw
  repeat' split
  all_goals simp [hd]

@[simp] theorem inForm_applyValues (hd : d.inForm) (values : Table (List Byte)) : (d.applyValues values).inForm := by
  simp only [applyValues, inForm_mk]
  exact inForm_applyEntries (inForm_foldl hd (fun e x he => by simp [he]) _) ..

/-! ### The end of BOOT and the power transitions -/

@[simp] theorem inForm_groupsOn (hd : d.inForm) : d.groupsOn.inForm := by simp +contextual [groupsOn, hd]

@[simp] theorem inForm_allOn (hd : d.inForm) : d.allOn.inForm := by simp [allOn, hd]

@[simp] theorem inForm_bootCompleteOp (hd : d.inForm) : (bootCompleteOp d).inForm := by
  unfold bootCompleteOp
  split
  · exact hd
  extract_lets +onlyGivenNames e h f e1 e2
  have he : e.inForm := inForm_applyValues hd _
  exact inForm_enterState (by simp [e2, e1, he]) ..

@[simp] theorem inForm_flashOperationDoneOp (ok : Bool) : (flashOperationDoneOp ok d).inForm ↔ d.inForm := by
  unfold flashOperationDoneOp
  dsimp only
  repeat' split
  all_goals simp

@[simp] theorem inForm_drainLines (hd : d.inForm) (h n : Nat) : (drainLines h n d).inForm := by
  induction n generalizing d with
  | zero => exact hd
  | succ n ih => exact ih (by simp [hd])

@[simp] theorem inForm_drainStaging (hd : d.inForm) : d.drainStaging.inForm :=
  inForm_forUpTo hd (fun _ _ he => inForm_closeHead (inForm_drainLines (inForm_endLine he ..) ..) _) _

@[simp] theorem inForm_completeBands (hd : d.inForm) : d.completeBands.inForm := by
  refine inForm_forUpTo hd (fun h e he => ?_) _
  have hb := inForm_foldl he (f := fun d _ => d.completeBand h) (fun e x he => by simp [he]) (List.range (e.lb h).done.length)
  dsimp only
  split
  exacts [inForm_writeDir hb _, hb]

@[simp] theorem inForm_stopEth : d.stopEth.inForm ↔ d.inForm := by simp [stopEth]

@[simp] theorem inForm_dropLive : d.dropLive.inForm ↔ d.inForm := by simp [dropLive]

@[simp] theorem inForm_setPower (hd : d.inForm) (v : Nat) : (d.setPower v).inForm := by simp [setPower, hd]

@[simp] theorem inForm_quiesce (hd : d.inForm) : d.quiesce.inForm := by
  unfold quiesce
  dsimp only
  repeat' split
  all_goals simp [hd]

@[simp] theorem inForm_standby (hd : d.inForm) : d.standby.inForm := by
  unfold standby
  extract_lets +onlyGivenNames e1 e2 e3 e4 e5 e6
  have he2 : e2.inForm := inForm_foldl (by simp [e1, hd]) (fun t q ht => by split <;> simp [ht]) _
  have he4 : e4.inForm := inForm_forUpTo (by simp [e3, he2]) (fun s t ht => by split <;> simpa using ht) _
  have he5 : e5.inForm := inForm_forUpTo he4 (fun g t ht => inForm_setGroup ht ..) _
  have he6 : e6.inForm := by simpa [e6] using he5
  exact inForm_dropDeadLevels.2 (inForm_mk_of (memWf_filter _ _ _ he6.1) he6.2.1 rfl ..)

@[simp] theorem inForm_putBack (hd : d.inForm) (values : Table (List Byte)) : (d.putBack values).inForm := by
  refine inForm_applyValues (inForm_foldl hd (fun e x he => ?_) _) _
  split <;> simp [he]

@[simp] theorem inForm_hibernate (hd : d.inForm) : d.hibernate.inForm := by
  unfold hibernate
  extract_lets +onlyGivenNames e1 e2 e3 values e4 hbc dict e5 e6
  have he2 : e2.inForm := inForm_forUpTo (by simpa [e1] using hd) (fun f t ht => inForm_functionDetachOp ht ..) _
  have he4 : e4.inForm := by simpa [e4, e3] using he2
  clear_value e4
  have he5 : e5.inForm := inForm_mk_of (memWf_filter _ _ _ he4.1) rfl rfl ..
  have he6 : e6.inForm := by simpa [e6] using he5
  rw [inForm_dropDeadLevels]
  exact inForm_putBack (by simpa using he6) _

@[simp] theorem inForm_bankFromDict : d.bankFromDict.inForm ↔ d.inForm := by simp [bankFromDict]

@[simp] theorem inForm_wakeStack (hd : d.inForm) (phy : BitVec 4) (later : List Nat) (s : Nat) :
    (wakeStack phy later s d).inForm := by
  simp [wakeStack, hd]

@[simp] theorem inForm_wakeBlocks (hd : d.inForm) : d.wakeBlocks.inForm := by
  unfold wakeBlocks
  extract_lets +onlyGivenNames e1 cex e2 due tfb e3 e4 e5
  have he3 : e3.inForm := by simp [e3, e2, e1, hd]
  have he4 : e4.inForm := by unfold e4; split; exacts [inForm_fullLayout he3, he3]
  exact inForm_restoreChannels (by simpa [e5] using he4)

@[simp] theorem inForm_wakeStandby (hd : d.inForm) (phy : BitVec 4) : (d.wakeStandby phy).inForm := by
  unfold wakeStandby
  extract_lets +onlyGivenNames later hb e e2
  have he2 : e2.inForm := inForm_forUpTo (by simp [e, hb, hd]) (fun s e he => by simp [he]) _
  split
  exacts [he2, inForm_wakeBlocks he2]

@[simp] theorem inForm_nextPower (hd : d.inForm) : d.nextPower.inForm := by
  unfold nextPower
  dsimp only
  repeat' split
  all_goals simp [hd]

@[simp] theorem inForm_powerTransitionEndOp (hd : d.inForm) (phy : BitVec 4) : (powerTransitionEndOp phy d).inForm := by
  unfold powerTransitionEndOp
  split
  · exact hd
  extract_lets +onlyGivenNames idle q
  have hq : q.inForm := inForm_quiesce hd
  have hi : ∀ e, (idle e).inForm ↔ e.inForm := fun _ => Iff.rfl
  clear_value q idle
  split
  · split
    exacts [hq, inForm_nextPower (inForm_setPower (inForm_standby ((hi q).2 hq)) _)]
  · split
    · exact inForm_nextPower (inForm_setPower (inForm_hibernate ((hi d).2 hd)) _)
    · split
      exacts [hq, inForm_nextPower (inForm_setPower (inForm_hibernate (inForm_standby ((hi q).2 hq))) _)]
  · exact inForm_settleService (inForm_nextPower (inForm_wakeStandby (inForm_setPower ((hi d).2 hd) _) _))

@[simp] theorem inForm_wakeRequestOp (hd : d.inForm) : (wakeRequestOp d).inForm := by
  unfold wakeRequestOp
  split
  · exact hd
  extract_lets +onlyGivenNames g e
  have he : e.inForm := hd
  split
  · split <;> simp [he]
  · refine inForm_enterState (inForm_forUpTo (by simp [he]) (fun l t ht => ?_) _) ..
    split <;> simpa using ht
  · exact he

/-! ### The beat and herd commits -/

@[simp] theorem inForm_leadTake (m : CommitReq) : (d.leadTake m).inForm ↔ d.inForm := by simp [leadTake]

@[simp] theorem inForm_commitReqOp (m : CommitReq) : (commitReqOp m d).inForm ↔ d.inForm := by
  unfold commitReqOp
  dsimp only
  repeat' split
  all_goals simp

@[simp] theorem inForm_setLead (c : Option LeadCommit) : (d.setLead c).inForm ↔ d.inForm := by simp [setLead]

@[simp] theorem inForm_leadCancel (c : LeadCommit) (st sub : Nat) : (d.leadCancel c st sub).inForm ↔ d.inForm := by
  simp [leadCancel]

@[simp] theorem inForm_leadDecide (v : VoteMsg) : (d.leadDecide v).inForm ↔ d.inForm := by
  unfold leadDecide
  repeat' split
  all_goals simp

@[simp] theorem inForm_sendVote : d.sendVote.inForm ↔ d.inForm := by
  unfold sendVote
  dsimp only
  repeat' split
  all_goals simp

@[simp] theorem inForm_checkEpoch (lastDone : BitVec 16) : (d.checkEpoch lastDone).inForm ↔ d.inForm := by simp [checkEpoch]

@[simp] theorem inForm_prepare (b : Beat) : (d.prepare b).inForm ↔ d.inForm := by simp [prepare]

@[simp] theorem inForm_voteOp (p : Nat) (m : VoteMsg) : (voteOp p m d).inForm ↔ d.inForm := by
  unfold voteOp
  dsimp only
  repeat' split
  all_goals simp

@[simp] theorem inForm_childVoteTimeoutOp (p : Nat) : (childVoteTimeoutOp p d).inForm ↔ d.inForm := by
  unfold childVoteTimeoutOp
  dsimp only
  repeat' split
  all_goals simp

@[simp] theorem inForm_leadVoteTimeoutOp : (leadVoteTimeoutOp d).inForm ↔ d.inForm := by
  unfold leadVoteTimeoutOp
  dsimp only
  repeat' split
  all_goals simp

@[simp] theorem inForm_armLimitExpiryOp : (armLimitExpiryOp d).inForm ↔ d.inForm := by
  unfold armLimitExpiryOp
  repeat' split
  all_goals simp

@[simp] theorem inForm_setFrozen (f : FrozenCommit) : (d.setFrozen f).inForm ↔ d.inForm := by simp [setFrozen]

@[simp] theorem inForm_lastWaveDone (f : FrozenCommit) : (d.lastWaveDone f).inForm ↔ d.inForm := by
  unfold lastWaveDone
  dsimp only
  repeat' split
  all_goals simp

@[simp] theorem inForm_nextWave (hd : d.inForm) (f : FrozenCommit) (t : Word) : (d.nextWave f t).inForm := by
  simp [nextWave, hd]

@[simp] theorem inForm_tellDone (c : LeadCommit) : (d.tellDone c).inForm ↔ d.inForm := by simp [tellDone]

@[simp] theorem inForm_waveApplyOp (hd : d.inForm) : (waveApplyOp d).inForm := by
  unfold waveApplyOp
  dsimp only
  repeat' split
  all_goals simp [hd]

@[simp] theorem inForm_allWaves (hd : d.inForm) (n : Nat) : (allWaves n d).inForm := by
  induction n generalizing d with
  | zero => exact hd
  | succ n ih =>
    unfold allWaves
    split
    · exact ih (by simp [hd])
    · exact hd

@[simp] theorem inForm_leadAxisPos (a : Nat) : (d.leadAxisPos a).2.inForm ↔ d.inForm := by
  unfold leadAxisPos
  dsimp only
  repeat' split
  all_goals simp

@[simp] theorem inForm_applyLate (hd : d.inForm) (f : FrozenCommit) : (d.applyLate f).inForm := by
  simp only [applyLate, inForm_sendAlert]
  refine inForm_allWaves ?_ _
  simp [hd]

@[simp] theorem inForm_seeCancel (e : BitVec 16) : (d.seeCancel e).inForm ↔ d.inForm := by
  unfold seeCancel
  dsimp only
  repeat' split
  all_goals simp

@[simp] theorem inForm_takeCommit (hd : d.inForm) (b : Beat) : (d.takeCommit b).inForm := by
  unfold takeCommit
  dsimp only
  repeat' split
  all_goals simp [hd]

@[simp] theorem inForm_leadOver (c : LeadCommit) : (d.leadOver c).inForm ↔ d.inForm := by
  unfold leadOver
  dsimp only
  repeat' split
  all_goals simp

@[simp] theorem inForm_tellCancel (c : LeadCommit) : (d.tellCancel c).inForm ↔ d.inForm := by simp [tellCancel]

@[simp] theorem inForm_sendBeat (b : Beat) (except : List Nat) : (d.sendBeat b except).inForm ↔ d.inForm := by simp [sendBeat]

@[simp] theorem inForm_beatSendOp (hd : d.inForm) : (beatSendOp d).inForm := by
  unfold beatSendOp
  dsimp only
  repeat' split
  all_goals simp [hd]

@[simp] theorem inForm_joinHerd (hd : d.inForm) (b : Beat) (phase : Int) (step : Bool) : (d.joinHerd b phase step).inForm := by
  simp [joinHerd, hd]

@[simp] theorem inForm_goodBeat (hd : d.inForm) (b : Beat) (phase : Int) : (d.goodBeat b phase).inForm := by
  unfold goodBeat
  dsimp only
  repeat' split
  all_goals simp [hd]

@[simp] theorem inForm_missBeat : d.missBeat.inForm ↔ d.inForm := by
  unfold missBeat
  dsimp only
  repeat' split
  all_goals simp

@[simp] theorem inForm_beatMissedOp : (beatMissedOp d).inForm ↔ d.inForm := by
  unfold beatMissedOp
  repeat' split
  all_goals simp

@[simp] theorem inForm_steerClock : d.steerClock.inForm ↔ d.inForm := by simp [steerClock]

@[simp] theorem inForm_upBeat (hd : d.inForm) (p : Nat) (b : Beat) (frac : BitVec 6) (residence : Nat) :
    (d.upBeat p b frac residence).inForm := by
  unfold upBeat
  dsimp only
  repeat' split
  all_goals simp [hd]

@[simp] theorem inForm_altBeat (hd : d.inForm) (p : Nat) (b : Beat) (frac : BitVec 6) (residence : Nat) :
    (d.altBeat p b frac residence).inForm := by
  simp [altBeat, hd]

@[simp] theorem inForm_beatOp (hd : d.inForm) (p : Nat) (f : BeatFrame) (frac : BitVec 6) (residence : Nat) :
    (beatOp p f frac residence d).inForm := by
  simp [beatOp, hd]

@[simp] theorem inForm_herdAxis (a : Nat) (b : Beat) : (d.herdAxis a b).inForm ↔ d.inForm := by simp [herdAxis]

@[simp] theorem inForm_beatInstant (b : Beat) : (d.beatInstant b).inForm ↔ d.inForm := by simp [beatInstant]

@[simp] theorem inForm_steerTick : d.steerTick.2.inForm ↔ d.inForm := by simp [steerTick]

@[simp] theorem inForm_passBeats : d.passBeats.inForm ↔ d.inForm := by simp [passBeats]

/-! ### The object protocol and the field network -/

@[simp] theorem inForm_mapSession (x : BopPath) (n : Nat) (f : Session → Session) : (d.mapSession x n f).inForm ↔ d.inForm := by
  simp [mapSession]

@[simp] theorem inForm_say (st sub : Nat) (data : List Byte) : (d.say st sub data).inForm ↔ d.inForm := by
  simp [say]

@[simp] theorem inForm_openSession (x : BopPath) (src : HostAddr) (minor : Nat) :
    (d.openSession x src minor).2.inForm ↔ d.inForm := by
  simp [openSession]

@[simp] theorem inForm_connect (x : BopPath) (src : HostAddr) (lo hi : Nat) : (d.connect x src lo hi).2.inForm ↔ d.inForm := by
  unfold connect
  dsimp only
  repeat' split
  all_goals simp

@[simp] theorem inForm_connectOp (x : BopPath) (src : HostAddr) (lo hi : BitVec 8) :
    (connectOp x src lo hi d).inForm ↔ d.inForm := by
  simp [connectOp]

@[simp] theorem inForm_close (s : Session) : (d.close s).inForm ↔ d.inForm := by simp [close]

@[simp] theorem inForm_inSession (hd : d.inForm) {x : BopPath} {n : Nat} {f : Session → Dev → Dev}
    (hf : ∀ s e, e.inForm → (f s e).inForm) : (d.inSession x n f).inForm := by
  unfold inSession
  repeat' split
  all_goals simp [hd, hf]

@[simp] theorem inForm_refuse (x : BopPath) : (d.refuse x).inForm ↔ d.inForm := by simp [refuse]

@[simp] theorem inForm_withObj (hd : d.inForm) {x : ObjName} {read : Bool} {f : Obj → Dev} (hf : ∀ y, (f y).inForm) :
    (d.withObj x read f).inForm := by
  unfold withObj
  dsimp only
  repeat' split
  all_goals simp [hd, hf]

@[simp] theorem inForm_withType (hd : d.inForm) (o : ObjName) (x : Obj) (seg : Bool) {e : Dev} (he : e.inForm) :
    (d.withType o x seg e).inForm := by
  unfold withType
  repeat' split
  all_goals simp [hd, he]

@[simp] theorem inForm_readRec (hd : d.inForm) (o : ObjName) : (d.readRec o).inForm :=
  inForm_withObj hd (fun x => inForm_withType hd o x _ (by simp [hd]))

@[simp] theorem inForm_writeRec (hd : d.inForm) (s : Session) (o : ObjName) (bs : List Byte) : (d.writeRec s o bs).inForm := by
  unfold writeRec
  split
  · simpa using hd
  split
  · simpa using hd
  · exact inForm_withObj hd (fun x => inForm_withType hd o x _ (by simp [hd]))

@[simp] theorem inForm_readSegRec (hd : d.inForm) (s : Session) (o : ObjName) (off len room : Nat) :
    (d.readSegRec s o off len room).inForm := by
  refine inForm_withObj hd (fun x => inForm_withType hd o x _ ?_)
  dsimp only
  repeat' split
  all_goals simp [hd]

@[simp] theorem inForm_setSeg (s : Session) (key : Nat) (bs : Option (List Byte)) : (d.setSeg s key bs).inForm ↔ d.inForm := by
  simp [setSeg]

@[simp] theorem inForm_imageSeg (hd : d.inForm) (s : Session) (last : Bool) (off : Nat) (bs : List Byte) :
    (d.imageSeg s last off bs).inForm := by
  simp [imageSeg, hd]

@[simp] theorem inForm_writeSegRec (hd : d.inForm) (s : Session) (o : ObjName) (last : Bool) (off : Nat) (bs : List Byte) :
    (d.writeSegRec s o last off bs).inForm := by
  unfold writeSegRec
  split
  · simpa using hd
  split
  · simpa using hd
  · refine inForm_withObj hd (fun x => inForm_withType hd o x _ ?_)
    dsimp only
    repeat' split
    all_goals simp [hd]

@[simp] theorem inForm_sendCommit (m : CommitReq) : (d.sendCommit m).inForm ↔ d.inForm := by simp [sendCommit]

@[simp] theorem inForm_commitRec (s : Session) (bs : List Byte) : (d.commitRec s bs).inForm ↔ d.inForm := by
  unfold commitRec
  dsimp only
  repeat' split
  all_goals simp

@[simp] theorem inForm_discardRec (s : Session) : (d.discardRec s).inForm ↔ d.inForm := by simp [discardRec]

@[simp] theorem inForm_describeRec (hd : d.inForm) (s : Session) (o : ObjName) : (d.describeRec s o).inForm := by
  simp [describeRec, hd]

@[simp] theorem inForm_closeOp (hd : d.inForm) (x : BopPath) (n : Nat) : (closeOp x n d).inForm := by simp [closeOp, hd]

@[simp] theorem inForm_readOp (hd : d.inForm) (x : BopPath) (n : Nat) (o : ObjName) : (readOp x n o d).inForm :=
  inForm_inSession hd (fun s e he => by simp [he])

@[simp] theorem inForm_writeOp (hd : d.inForm) (x : BopPath) (n : Nat) (o : ObjName) (bs : List Byte) :
    (writeOp x n o bs d).inForm :=
  inForm_inSession hd (fun s e he => by simp [he])

@[simp] theorem inForm_readSegOp (hd : d.inForm) (x : BopPath) (n : Nat) (o : ObjName) (off len : Nat) :
    (readSegOp x n o off len d).inForm :=
  inForm_inSession hd (fun s e he => by simp [he])

@[simp] theorem inForm_writeSegOp (hd : d.inForm) (x : BopPath) (n : Nat) (o : ObjName) (last : Bool) (off : Nat) (bs : List
    Byte) : (writeSegOp x n o last off bs d).inForm :=
  inForm_inSession hd (fun s e he => by simp [he])

@[simp] theorem inForm_commitOp (hd : d.inForm) (x : BopPath) (n : Nat) (bs : List Byte) : (commitOp x n bs d).inForm := by
  simp [commitOp, hd]

@[simp] theorem inForm_discardOp (hd : d.inForm) (x : BopPath) (n : Nat) : (discardOp x n d).inForm := by simp [discardOp, hd]

@[simp] theorem inForm_describeOp (hd : d.inForm) (x : BopPath) (n : Nat) (o : ObjName) : (describeOp x n o d).inForm :=
  inForm_inSession hd (fun s e he => by simp [he])

@[simp] theorem inForm_sessionTimeoutOp (x : BopPath) (n : Nat) : (sessionTimeoutOp x n d).inForm ↔ d.inForm := by
  unfold sessionTimeoutOp
  repeat' split
  all_goals simp

@[simp] theorem inForm_segmentTimeoutOp (x : BopPath) (n index sub : Nat) :
    (segmentTimeoutOp x n index sub d).inForm ↔ d.inForm := by
  simp [segmentTimeoutOp]

@[simp] theorem inForm_execRec (hd : d.inForm) (s : Session) (r : BopRec) (room : Nat) : (d.execRec s r room).inForm := by
  unfold execRec
  dsimp only
  repeat' split
  all_goals simp [hd]

@[simp] theorem inForm_execRecs (hd : d.inForm) (s : Session) (rs : List BopRec) (room : Nat) :
    (execRecs s rs room d).2.inForm := by
  induction rs generalizing d room with
  | nil => exact hd
  | cons r rs ih => exact ih (inForm_execRec hd ..) _

@[simp] theorem inForm_connectRec (x : BopPath) (src : HostAddr) (ver seq : Nat) (r : BopRec) :
    (d.connectRec x src ver seq r).2.inForm ↔ d.inForm := by
  unfold connectRec
  dsimp only
  repeat' split
  all_goals simp

@[simp] theorem inForm_goodFrame (hd : d.inForm) (x : BopPath) (src : HostAddr) (bs : List Byte) (recs : List BopRec) :
    (d.goodFrame x src bs recs).2.inForm := by
  unfold goodFrame
  dsimp only
  repeat' split
  all_goals simp [hd]

@[simp] theorem inForm_frame (hd : d.inForm) (x : BopPath) (src : HostAddr) (bs : List Byte) : (d.frame x src bs).2.inForm := by
  unfold frame
  dsimp only
  repeat' split
  all_goals simp [hd]

@[simp] theorem inForm_ethSend (p : Nat) (mac : BitVec 48) (x : EthBody) : (d.ethSend p mac x).inForm ↔ d.inForm := Iff.rfl

@[simp] theorem inForm_ethBop (hd : d.inForm) (p : Fin 2) (x : EthPeer) (bs : List Byte) : (d.ethBop p x bs).inForm := by
  unfold ethBop
  dsimp only
  repeat' split
  all_goals simp [hd]

@[simp] theorem inForm_sramBytes (hd : d.inForm) (a n : Nat) : (d.sramBytes a n).2.inForm := by
  unfold sramBytes
  dsimp only
  repeat' split
  all_goals simp [hd]

@[simp] theorem inForm_mailboxBop (hd : d.inForm) (f : Fin 2) : (d.mailboxBop f).inForm := by simp [mailboxBop, hd]

@[simp] theorem inForm_coreRequest (hd : d.inForm) (a : Nat) : (d.coreRequest a).2.inForm := by
  unfold coreRequest
  dsimp only
  repeat' split
  all_goals simp [hd]

@[simp] theorem inForm_coreBop (hd : d.inForm) (k : Fin 4) : (d.coreBop k).inForm := by
  unfold coreBop
  split
  · exact hd
  extract_lets +onlyGivenNames w q y out n rsp e
  have hw : w.2.2.inForm := by simp [w, hd]
  clear_value w
  have hq : q.2.inForm := inForm_coreRequest hw _
  clear_value q
  have hy : y.2.inForm := inForm_frame hq ..
  clear_value y
  have he : e.inForm := by unfold e; split; exacts [inForm_sramWrites hy .., hy]
  simpa using he

@[simp] theorem inForm_bopFrameOp (hd : d.inForm) (x : BopCarrier) : (bopFrameOp x d).inForm := by
  unfold bopFrameOp
  repeat' split
  all_goals simp [hd]

theorem inForm_of_ethAccept {p : Fin 2} {x : EthPayload} {f : Dev → Dev} (h : d.ethAccept p x = some f) {e : Dev}
    (he : e.inForm) : (f e).inForm := by
  unfold ethAccept at h
  dsimp only at h
  repeat' split at h
  all_goals cases h
  all_goals simp [he]

@[simp] theorem inForm_ethFrameOp (hd : d.inForm) (p : Fin 2) (len : Nat) (fcsOk tagged : Bool) (x : EthPayload) :
    (ethFrameOp p len fcsOk tagged x d).inForm := by
  unfold ethFrameOp
  dsimp only
  split
  · exact hd
  split
  · simpa using hd
  split
  next f h =>
    split at h
    · cases h
    · exact inForm_of_ethAccept h (by simpa using hd)
  next => simpa using hd

@[simp] theorem inForm_ethLinkChangeOp (p : Nat) (up present : Bool) : (ethLinkChangeOp p up present d).inForm ↔ d.inForm := by
  simp [ethLinkChangeOp]

@[simp] theorem inForm_ptpSyncOp (p : Nat) (time gm : BitVec 64) : (ptpSyncOp p time gm d).inForm ↔ d.inForm := by
  simp [ptpSyncOp]

/-! ### The instruction set -/

@[simp] theorem inForm_setCtx (x : Ctx) (p : Proc) : (d.setCtx x p).inForm ↔ d.inForm := Iff.rfl

@[simp] theorem inForm_setGpr (x : Ctx) (i : Fin 32) (v : Word) : (d.setGpr x i v).inForm ↔ d.inForm := Iff.rfl

@[simp] theorem inForm_doubleFault (hd : d.inForm) (x : Ctx) (cause : Word) : (d.doubleFault x cause).inForm := by
  unfold doubleFault
  dsimp only
  repeat' split
  all_goals simp [hd]

@[simp] theorem inForm_normalTrap (hd : d.inForm) (x : Ctx) (kind st sub : Nat) (datum pc : Word) :
    (d.normalTrap x kind st sub datum pc).inForm := by
  simp [normalTrap, hd]

@[simp] theorem inForm_fastTrap (x : Ctx) : (d.fastTrap x).inForm ↔ d.inForm := by simp [fastTrap]

@[simp] theorem inForm_instrFault (hd : d.inForm) (x : Ctx) (op : Nat) (addr : Word) (st sub : Nat) (datum : Word) :
    (d.instrFault x op addr st sub datum).inForm := by
  unfold instrFault
  repeat' split
  all_goals simp [hd]

@[simp] theorem inForm_advance (x : Ctx) (rep : Option Nat) (jump : Option Word) :
    (d.advance x rep jump).inForm ↔ d.inForm := by
  unfold advance
  dsimp only
  repeat' split
  all_goals simp

@[simp] theorem inForm_storeAt (hd : d.inForm) (x : Ctx) (s : Option (Nat × Word)) : (d.storeAt x s).inForm := by
  unfold storeAt
  repeat' split
  all_goals simp [hd]

@[simp] theorem inForm_passHold (x : Ctx) : (d.passHold x).inForm ↔ d.inForm := by
  unfold passHold
  dsimp only
  repeat' split
  all_goals simp

@[simp] theorem inForm_issue (hd : d.inForm) {x : Ctx} {w : Word} {c : Checks} {body : Dev → Effect}
    (hb : ∀ e, e.inForm → (body e).dev.inForm) : (d.issue x w c body).inForm := by
  have he : (body (d.passHold x)).dev.inForm := hb _ (by simp [hd])
  unfold issue
  dsimp only
  repeat' split
  all_goals simp [hd, he]

@[simp] theorem inForm_alu (hd : d.inForm) (x : Ctx) (op : Nat) (f : RR) (g : Word → Word → Word) :
    (d.alu x op f g).inForm := by
  simp [alu, hd]

@[simp] theorem inForm_aluImm (hd : d.inForm) (x : Ctx) (op : Nat) (f : RI) (ok : Bool) (g : Word → Word) :
    (d.aluImm x op f ok g).inForm := by
  simp [aluImm, hd]

@[simp] theorem inForm_mulDouble (hd : d.inForm) (x : Ctx) (op : Nat) (f : RR) (g : Word → Word → Int) :
    (d.mulDouble x op f g).inForm := by
  simp [mulDouble, hd]

@[simp] theorem inForm_readIn (hd : d.inForm) (x : Ctx) (op : Nat) (f : RI) (ok : Bool) (g : Dev → Word) :
    (d.readIn x op f ok g).inForm := by
  simp [readIn, hd]

@[simp] theorem inForm_readAxis (hd : d.inForm) (x : Ctx) (op : Nat) (f : RI) (r : Reg) : (d.readAxis x op f r).inForm := by
  refine inForm_issue hd (fun e he => ?_)
  dsimp only
  repeat' split
  all_goals simp [he]

@[simp] theorem inForm_hbmLoad (hd : d.inForm) (x : Ctx) (q : Nat) (tag : Bool) (v : Tile → Word) :
    (d.hbmLoad x q tag v).2.2.inForm := by
  unfold hbmLoad
  dsimp only
  repeat' split
  all_goals simp [hd]

@[simp] theorem inForm_memRead (hd : d.inForm) (x : Ctx) (ea : Word) : (d.memRead x ea).2.2.inForm := by
  unfold memRead
  dsimp only
  repeat' split
  all_goals simp [hd]

@[simp] theorem inForm_load (hd : d.inForm) {x : Ctx} {ea : Word} {whole : Bool} {k : Word → Dev → Effect}
    (hk : ∀ v e, e.inForm → (k v e).dev.inForm) : (d.load x ea whole k).dev.inForm := by
  unfold load
  dsimp only
  repeat' split
  all_goals simp [hd, hk]

@[simp] theorem inForm_storeWord (hd : d.inForm) {x : Ctx} {ea w : Word} {k : Dev → Dev} (hk : ∀ e, e.inForm → (k e).inForm) :
    (d.storeWord x ea w k).dev.inForm := by
  unfold storeWord
  repeat' split
  all_goals simp [hd, hk]

@[simp] theorem inForm_storeLane (hd : d.inForm) (x : Ctx) (ea : Word) (hi lo : Nat) (w : Word) :
    (d.storeLane x ea hi lo w).dev.inForm := by
  unfold storeLane
  dsimp only
  repeat' split
  all_goals simp [hd]

@[simp] theorem inForm_atomic (hd : d.inForm) (x : Ctx) (op : Nat) (f : RR) (g : Word → Option Word) :
    (d.atomic x op f g).inForm := by
  refine inForm_issue hd (fun e he => ?_)
  dsimp only
  repeat' split
  all_goals simp [he]

@[simp] theorem inForm_loadLane (hd : d.inForm) (x : Ctx) (op : Nat) (f : RR) (width last : Nat) :
    (d.loadLane x op f width last).inForm :=
  inForm_issue hd (fun e he => by simp [he])

@[simp] theorem inForm_laneStore (hd : d.inForm) (x : Ctx) (op : Nat) (f : RR) (width last : Nat) :
    (d.laneStore x op f width last).inForm :=
  inForm_issue hd (fun e he => by simp [he])

@[simp] theorem inForm_fetchWord (hd : d.inForm) (x : Ctx) (a : Word) : (d.fetchWord x a).2.2.inForm := by
  unfold fetchWord
  dsimp only
  repeat' split
  all_goals simp [hd]

@[simp] theorem inForm_orFlags (x : Ctx) (flags : Nat) : (d.orFlags x flags).inForm ↔ d.inForm := Iff.rfl

@[simp] theorem inForm_branch (x : Ctx) (taken : Bool) (off : Word) : (d.branch x taken off).dev.inForm ↔ d.inForm := by
  unfold branch
  repeat' split
  all_goals simp

@[simp] theorem inForm_float (hd : d.inForm) (x : Ctx) (op : Nat) (f : RR) (high : Nat) (zero : Bool) (g : Dev → RMode → Word
    × Nat) : (d.float x op f high zero g).inForm := by
  simp [float, hd]

@[simp] theorem inForm_float2 (hd : d.inForm) (x : Ctx) (op : Nat) (f : RR) (g : RMode → F48 → F48 → Word × Nat) :
    (d.float2 x op f g).inForm := by
  simp [float2, hd]

@[simp] theorem inForm_floatMinMax (hd : d.inForm) (x : Ctx) (op : Nat) (f : RR) (mx : Bool) :
    (d.floatMinMax x op f mx).inForm := by
  simp [floatMinMax, hd]

@[simp] theorem inForm_addOp (hd : d.inForm) (x : Ctx) (f : RR) : (addOp x f d).inForm := by simp [addOp, hd]

@[simp] theorem inForm_subOp (hd : d.inForm) (x : Ctx) (f : RR) : (subOp x f d).inForm := by simp [subOp, hd]

@[simp] theorem inForm_andOp (hd : d.inForm) (x : Ctx) (f : RR) : (andOp x f d).inForm := by simp [andOp, hd]

@[simp] theorem inForm_orOp (hd : d.inForm) (x : Ctx) (f : RR) : (orOp x f d).inForm := by simp [orOp, hd]

@[simp] theorem inForm_xorOp (hd : d.inForm) (x : Ctx) (f : RR) : (xorOp x f d).inForm := by simp [xorOp, hd]

@[simp] theorem inForm_shlOp (hd : d.inForm) (x : Ctx) (f : RR) : (shlOp x f d).inForm := by simp [shlOp, hd]

@[simp] theorem inForm_shrOp (hd : d.inForm) (x : Ctx) (f : RR) : (shrOp x f d).inForm := by simp [shrOp, hd]

@[simp] theorem inForm_sarOp (hd : d.inForm) (x : Ctx) (f : RR) : (sarOp x f d).inForm := by simp [sarOp, hd]

@[simp] theorem inForm_cmpsOp (hd : d.inForm) (x : Ctx) (f : RR) : (cmpsOp x f d).inForm := by simp [cmpsOp, hd]

@[simp] theorem inForm_cmpuOp (hd : d.inForm) (x : Ctx) (f : RR) : (cmpuOp x f d).inForm := by simp [cmpuOp, hd]

@[simp] theorem inForm_minsOp (hd : d.inForm) (x : Ctx) (f : RR) : (minsOp x f d).inForm := by simp [minsOp, hd]

@[simp] theorem inForm_maxsOp (hd : d.inForm) (x : Ctx) (f : RR) : (maxsOp x f d).inForm := by simp [maxsOp, hd]

@[simp] theorem inForm_minuOp (hd : d.inForm) (x : Ctx) (f : RR) : (minuOp x f d).inForm := by simp [minuOp, hd]

@[simp] theorem inForm_maxuOp (hd : d.inForm) (x : Ctx) (f : RR) : (maxuOp x f d).inForm := by simp [maxuOp, hd]

@[simp] theorem inForm_addiOp (hd : d.inForm) (x : Ctx) (f : RI) : (addiOp x f d).inForm := by simp [addiOp, hd]

@[simp] theorem inForm_andiOp (hd : d.inForm) (x : Ctx) (f : RI) : (andiOp x f d).inForm := by simp [andiOp, hd]

@[simp] theorem inForm_oriOp (hd : d.inForm) (x : Ctx) (f : RI) : (oriOp x f d).inForm := by simp [oriOp, hd]

@[simp] theorem inForm_xoriOp (hd : d.inForm) (x : Ctx) (f : RI) : (xoriOp x f d).inForm := by simp [xoriOp, hd]

@[simp] theorem inForm_shliOp (hd : d.inForm) (x : Ctx) (f : RI) : (shliOp x f d).inForm := by simp [shliOp, hd]

@[simp] theorem inForm_shriOp (hd : d.inForm) (x : Ctx) (f : RI) : (shriOp x f d).inForm := by simp [shriOp, hd]

@[simp] theorem inForm_sariOp (hd : d.inForm) (x : Ctx) (f : RI) : (sariOp x f d).inForm := by simp [sariOp, hd]

@[simp] theorem inForm_cmpsiOp (hd : d.inForm) (x : Ctx) (f : RI) : (cmpsiOp x f d).inForm := by simp [cmpsiOp, hd]

@[simp] theorem inForm_cmpuiOp (hd : d.inForm) (x : Ctx) (f : RI) : (cmpuiOp x f d).inForm := by simp [cmpuiOp, hd]

@[simp] theorem inForm_inshOp (hd : d.inForm) (x : Ctx) (f : RI) : (inshOp x f d).inForm := by simp [inshOp, hd]

@[simp] theorem inForm_mulOp (hd : d.inForm) (x : Ctx) (f : RR) : (mulOp x f d).inForm := by simp [mulOp, hd]

@[simp] theorem inForm_muldOp (hd : d.inForm) (x : Ctx) (f : RR) : (muldOp x f d).inForm := by simp [muldOp, hd]

@[simp] theorem inForm_mulduOp (hd : d.inForm) (x : Ctx) (f : RR) : (mulduOp x f d).inForm := by simp [mulduOp, hd]

@[simp] theorem inForm_divOp (hd : d.inForm) (x : Ctx) (f : RR) : (divOp x f d).inForm := by simp [divOp, hd]

@[simp] theorem inForm_divuOp (hd : d.inForm) (x : Ctx) (f : RR) : (divuOp x f d).inForm := by simp [divuOp, hd]

@[simp] theorem inForm_remOp (hd : d.inForm) (x : Ctx) (f : RR) : (remOp x f d).inForm := by simp [remOp, hd]

@[simp] theorem inForm_remuOp (hd : d.inForm) (x : Ctx) (f : RR) : (remuOp x f d).inForm := by simp [remuOp, hd]

@[simp] theorem inForm_ldOp (hd : d.inForm) (x : Ctx) (f : RI) : (ldOp x f d).inForm :=
  inForm_issue hd (fun e he => by simp [he])

@[simp] theorem inForm_stOp (hd : d.inForm) (x : Ctx) (f : RI) : (stOp x f d).inForm :=
  inForm_issue hd (fun e he => by simp [he])

@[simp] theorem inForm_ldbOp (hd : d.inForm) (x : Ctx) (f : RR) : (ldbOp x f d).inForm := by simp [ldbOp, hd]

@[simp] theorem inForm_ldsOp (hd : d.inForm) (x : Ctx) (f : RR) : (ldsOp x f d).inForm := by simp [ldsOp, hd]

@[simp] theorem inForm_ldtOp (hd : d.inForm) (x : Ctx) (f : RR) : (ldtOp x f d).inForm := by simp [ldtOp, hd]

@[simp] theorem inForm_stbOp (hd : d.inForm) (x : Ctx) (f : RR) : (stbOp x f d).inForm := by simp [stbOp, hd]

@[simp] theorem inForm_stsOp (hd : d.inForm) (x : Ctx) (f : RR) : (stsOp x f d).inForm := by simp [stsOp, hd]

@[simp] theorem inForm_sttOp (hd : d.inForm) (x : Ctx) (f : RR) : (sttOp x f d).inForm := by simp [sttOp, hd]

@[simp] theorem inForm_ldincOp (hd : d.inForm) (x : Ctx) (f : RI) : (ldincOp x f d).inForm :=
  inForm_issue hd (fun e he => by simp [he])

@[simp] theorem inForm_stincOp (hd : d.inForm) (x : Ctx) (f : RI) : (stincOp x f d).inForm :=
  inForm_issue hd (fun e he => by simp [he])

@[simp] theorem inForm_movwOp (hd : d.inForm) (x : Ctx) (f : RR) : (movwOp x f d).inForm := by
  refine inForm_issue hd (fun e he => ?_)
  dsimp only
  split
  · exact he
  · refine inForm_load he (fun w t ht => inForm_storeWord ht (fun u hu => ?_))
    split <;> simpa using hu

@[simp] theorem inForm_fillwOp (hd : d.inForm) (x : Ctx) (f : RR) : (fillwOp x f d).inForm :=
  inForm_issue hd (fun e he => by simp [he])

@[simp] theorem inForm_crcmOp (hd : d.inForm) (x : Ctx) (f : RR) : (crcmOp x f d).inForm :=
  inForm_issue hd (fun e he => by simp [he])

@[simp] theorem inForm_fenceOp (hd : d.inForm) (x : Ctx) (f : RR) : (fenceOp x f d).inForm := by simp [fenceOp, hd]

@[simp] theorem inForm_swapOp (hd : d.inForm) (x : Ctx) (f : RR) : (swapOp x f d).inForm := by simp [swapOp, hd]

@[simp] theorem inForm_addmOp (hd : d.inForm) (x : Ctx) (f : RR) : (addmOp x f d).inForm := by simp [addmOp, hd]

@[simp] theorem inForm_casOp (hd : d.inForm) (x : Ctx) (f : RR) : (casOp x f d).inForm := by simp [casOp, hd]

@[simp] theorem inForm_jmplOp (hd : d.inForm) (x : Ctx) (f : RI) : (jmplOp x f d).inForm := by simp [jmplOp, hd]

@[simp] theorem inForm_jmprOp (hd : d.inForm) (x : Ctx) (f : RI) : (jmprOp x f d).inForm := by simp [jmprOp, hd]

@[simp] theorem inForm_brOp (hd : d.inForm) (x : Ctx) (f : CB) : (brOp x f d).inForm := by
  refine inForm_issue hd (fun e he => ?_)
  dsimp only
  repeat' split
  all_goals simp [he]

@[simp] theorem inForm_briOp (hd : d.inForm) (x : Ctx) (f : CBI) : (briOp x f d).inForm := by simp [briOp, hd]

@[simp] theorem inForm_rdposOp (hd : d.inForm) (x : Ctx) (f : RI) : (rdposOp x f d).inForm := by simp [rdposOp, hd]

@[simp] theorem inForm_rdvelOp (hd : d.inForm) (x : Ctx) (f : RI) : (rdvelOp x f d).inForm := by simp [rdvelOp, hd]

@[simp] theorem inForm_rdtimeOp (hd : d.inForm) (x : Ctx) (f : RI) : (rdtimeOp x f d).inForm := by simp [rdtimeOp, hd]

@[simp] theorem inForm_pdiffOp (hd : d.inForm) (x : Ctx) (f : RR) : (pdiffOp x f d).inForm := by simp [pdiffOp, hd]

@[simp] theorem inForm_selfOp (hd : d.inForm) (x : Ctx) (f : RI) : (selfOp x f d).inForm := by simp [selfOp, hd]

@[simp] theorem inForm_faddOp (hd : d.inForm) (x : Ctx) (f : RR) : (faddOp x f d).inForm := by simp [faddOp, hd]

@[simp] theorem inForm_fsubOp (hd : d.inForm) (x : Ctx) (f : RR) : (fsubOp x f d).inForm := by simp [fsubOp, hd]

@[simp] theorem inForm_fmulOp (hd : d.inForm) (x : Ctx) (f : RR) : (fmulOp x f d).inForm := by simp [fmulOp, hd]

@[simp] theorem inForm_fdivOp (hd : d.inForm) (x : Ctx) (f : RR) : (fdivOp x f d).inForm := by simp [fdivOp, hd]

@[simp] theorem inForm_fsqrtOp (hd : d.inForm) (x : Ctx) (f : RR) : (fsqrtOp x f d).inForm := by simp [fsqrtOp, hd]

@[simp] theorem inForm_fmaOp (hd : d.inForm) (x : Ctx) (f : RR) : (fmaOp x f d).inForm := by simp [fmaOp, hd]

@[simp] theorem inForm_fminOp (hd : d.inForm) (x : Ctx) (f : RR) : (fminOp x f d).inForm := by simp [fminOp, hd]

@[simp] theorem inForm_fmaxOp (hd : d.inForm) (x : Ctx) (f : RR) : (fmaxOp x f d).inForm := by simp [fmaxOp, hd]

@[simp] theorem inForm_itofOp (hd : d.inForm) (x : Ctx) (f : RR) : (itofOp x f d).inForm := by simp [itofOp, hd]

@[simp] theorem inForm_ftoiOp (hd : d.inForm) (x : Ctx) (f : RR) : (ftoiOp x f d).inForm := by simp [ftoiOp, hd]

@[simp] theorem inForm_fsgnOp (hd : d.inForm) (x : Ctx) (f : RR) : (fsgnOp x f d).inForm := by simp [fsgnOp, hd]

@[simp] theorem inForm_fclassOp (hd : d.inForm) (x : Ctx) (f : RR) : (fclassOp x f d).inForm := by simp [fclassOp, hd]

@[simp] theorem inForm_mfsOp (hd : d.inForm) (x : Ctx) (f : RI) : (mfsOp x f d).inForm := by simp [mfsOp, hd]

@[simp] theorem inForm_mtsOp (hd : d.inForm) (x : Ctx) (f : RI) : (mtsOp x f d).inForm := by
  refine inForm_issue hd (fun e he => ?_)
  dsimp only
  repeat' split
  all_goals simp [he]

@[simp] theorem inForm_eretOp (hd : d.inForm) (x : Ctx) (f : RR) : (eretOp x f d).inForm := by
  refine inForm_issue hd (fun e he => ?_)
  dsimp only
  repeat' split
  all_goals simp [he]

@[simp] theorem inForm_setWaiting (x : Ctx) (b : Bool) : (d.setWaiting x b).inForm ↔ d.inForm := by
  unfold setWaiting
  dsimp only
  repeat' split
  all_goals simp

@[simp] theorem inForm_wfeOp (hd : d.inForm) (x : Ctx) (f : RR) : (wfeOp x f d).inForm := by
  refine inForm_issue hd (fun e he => ?_)
  split
  all_goals simp [he]

@[simp] theorem inForm_wfeWakeOp (x : Ctx) : (wfeWakeOp x d).inForm ↔ d.inForm := by simp [wfeWakeOp]

@[simp] theorem inForm_mfaOp (hd : d.inForm) (x : Ctx) (f : RR) : (mfaOp x f d).inForm := by simp [mfaOp, hd]

@[simp] theorem inForm_mtaOp (hd : d.inForm) (x : Ctx) (f : RR) : (mtaOp x f d).inForm := by simp [mtaOp, hd]

@[simp] theorem inForm_trapOp (hd : d.inForm) (x : Ctx) (f : RI) : (trapOp x f d).inForm := by
  refine inForm_issue hd (fun e he => ?_)
  dsimp only
  simp [he]

@[simp] theorem inForm_repOp (hd : d.inForm) (x : Ctx) (f : RepWord) : (repOp x f d).inForm := by
  unfold repOp
  extract_lets +onlyGivenNames p a w e bad
  have hw : w.2.2.inForm := inForm_fetchWord hd ..
  have he : e.inForm := by unfold e; split; exacts [hw, hd]
  clear_value w e
  split
  · split
    exacts [inForm_instrFault hw .., hd]
  split
  · exact inForm_instrFault he ..
  refine inForm_issue he (fun t ht => ?_)
  dsimp only
  generalize (if f.mode.val = 0 then _ else _) = n
  split
  · exact ht
  · simpa using ht

@[simp] theorem inForm_hintOp (hd : d.inForm) (x : Ctx) (op : Nat) (rest : BitVec 40) : (hintOp x op rest d).inForm := by
  simp [hintOp, hd]

@[simp] theorem inForm_fastTrapOp (x : Ctx) : (fastTrapOp x d).inForm ↔ d.inForm := by simp [fastTrapOp]

@[simp] theorem inForm_normalTrapOp (hd : d.inForm) (x : Ctx) : (normalTrapOp x d).inForm := by simp [normalTrapOp, hd]

@[simp] theorem inForm_undefinedOpcodeOp (hd : d.inForm) (x : Ctx) (w : Word) : (undefinedOpcodeOp x w d).inForm := by
  simp [undefinedOpcodeOp, hd]

@[simp] theorem inForm_fetchFaultOp (hd : d.inForm) (x : Ctx) (why : FetchFail) : (fetchFaultOp x why d).inForm := by
  simp [fetchFaultOp, hd]

/-! ### How a command acts -/

@[simp] theorem inForm_detachOp (hd : d.inForm) (f : Fin 2) (cause : DetachCause) : (detachOp f cause d).inForm := by
  simp [detachOp, hd]

@[simp] theorem inForm_retroSubmitOp (j : Nat) (ws : List Word) : (retroSubmitOp j ws d).inForm ↔ d.inForm := by
  simp [retroSubmitOp]

@[simp] theorem inForm_tickOp : (tickOp d).inForm ↔ d.inForm := by simp [tickOp]

end Machine.Dev

namespace Machine

open Dev

/-- The state after a step, if there is one, has its memories in form. -/
def KeepsForm (o : Host.Outcome State Fault Refusal) : Prop := ∀ t, o = .next t → MemoriesWf t.dev

variable {s : State} {f : Dev → Dev}

theorem keepsForm_runAlways (hf : (f s.dev).inForm) : KeepsForm (s.runAlways f) := by
  rintro t ⟨⟩
  exact hf

theorem keepsForm_run (h : s.dev.inForm) (hf : (f s.dev).inForm) : KeepsForm (s.run f) := by
  refine keepsForm_runAlways ?_
  split
  exacts [hf, h]

theorem keepsForm_runWf {ok : Bool} (h : s.dev.inForm) (hf : (f s.dev).inForm) : KeepsForm (s.runWf ok f) := by
  unfold State.runWf
  split
  · exact keepsForm_run h hf
  · exact fun t e => nomatch e

theorem keepsForm_runHeads (h : s.dev.inForm) (hf : (f s.dev).inForm) : KeepsForm (s.runHeads f) :=
  keepsForm_run h (inForm_followHeads hf _)

theorem keepsForm_arrive (h : s.dev.inForm) {r : Arrival} {states : List Nat} (hf : ∀ e, e.inForm → (f e).inForm) :
    KeepsForm (s.run (fun d => d.arrive r states f)) :=
  keepsForm_run h (inForm_arrive h r states hf)

/-- The commands by the way they reach the block: those that could be ill-formed, the messages of a Herd Link port, those after
which heads are followed, those that act without supplies, and all others. -/
theorem keepsForm_exec (h : s.dev.inForm) (i : Instr) : KeepsForm (exec i s) := by
  cases i
  case bopFrame | connect | ethFrame | mbxGo | entryTake | refWrite | stopFinish | beat | queryDescriptor | refDefine |
      retroSubmit => exact keepsForm_runWf h (by simp [h])
  case enum | enumRsp | commitReq | commitDone | tileReq | tileData | tileEnd | piece | progress | returnRecord =>
    exact keepsForm_runWf h (inForm_arrive h _ _ (fun e he => by simp [he]))
  case hello | delayReq | delayRsp | vote | alert | reparent | routeDrop =>
    exact keepsForm_arrive h (fun e he => by simp [he])
  case retry | headFaultRetry | headLinkLoss | cxpLinkChange | discoveryAnswer => exact keepsForm_runHeads h (by simp [h])
  case fieldInputPin | suppliesGood | railReset | resetNAssert | encoderPinCrossing => exact keepsForm_runAlways (by simp [h])
  all_goals exact keepsForm_run h (by simp [h])

theorem keepsForm_step (h : s.dev.inForm) : KeepsForm (step s) := by
  unfold step
  split
  · exact keepsForm_run h (inForm_tickOp.2 h)
  next c rest _ => exact keepsForm_exec (s := { s with pending := rest }) h c

end Machine

/-- Settles O4: a step runs one operation on the block, and every operation keeps the memories in form. -/
theorem memoriesKeepTheirForm : Obligations.MemoriesKeepTheirForm := fun _ t h => Machine.keepsForm_step h t

end Sys2Proof
end

section
/-! PROOF. O23: what BAND_COMPLETE writes where the band is the last before its head left RUN (R190). -/

namespace Sys2Proof

open Machine

/-- The last band of head 4 before the head left RUN. -/
def leavingBand : BandDone := { s := 5, w0 := 1, w1 := 0, lastPos := 99, leaves := true }

/-- Head 4 is in RUN again before its last band of the run before completes. The ring has 256 bands and its first directory tile
is the one in work. -/
def runningAgain : State :=
  { dev := {
      regs := [(regKey .cxiHdhStat 4, wordOf HeadState.run.code), (regKey .tfbLbhNb 4, 256),
        (regKey .ghdState 0, wordOf DevState.run.code)],
      tfb := { heads := [(4, { done := [leavingBand], dirIndex := some 0 })] } } }

/-- BAND_COMPLETE writes the directory tile. -/
theorem tile_bandCompleteOp_runningAgain :
    ((bandCompleteOp (4 : Fin 64).val runningAgain.dev).tile 0).words = [(10, 1)] := by
  decide +kernel

/-- Refutes O23: on runningAgain the completed band takes its directory tile to HBM (R190), which the statement has unchanged
since the head runs. -/
theorem not_bandsClaimsQueries : ¬ Obligations.BandsClaimsQueries := by
  unfold Obligations.BandsClaimsQueries
  rintro ⟨-, hdir, -⟩
  obtain ⟨t, ht, -, -, honly⟩ := hdir 4 leavingBand [] runningAgain (by decide) (by decide) (by decide) (by decide +kernel)
    (by decide +kernel) (by decide +kernel)
  have hhbm : t.dev.hbm = runningAgain.dev.hbm := honly .hbm (by decide)
  have htile := tile_bandCompleteOp_runningAgain
  rw [← State.dev_of_run_next (f := bandCompleteOp (4 : Fin 64).val) (by decide) ht, Dev.tile, hhbm] at htile
  exact absurd htile (by decide)

end Sys2Proof
end

section
/-! PROOF. O24: a retro job whose last record waits for room (R277). -/

namespace Sys2Proof

open Machine

/-- The range of job 0 is extracted and no piece of it is left, but its last record is held behind a retro queue of 4096
records. -/
def heldBehindFullQueue : State :=
  { dev := {
      regs := [(regKey .cexRqProd 0, 4096), (regKey .ghdState 0, wordOf DevState.run.code)],
      cex := { heldRetro := [[0, 0, 0, 0, 0, 0, 0, 0]], jobs := [(0, { st := .running })] } } }

/-- The record finds no room, and the job waits for it. -/
theorem st_retroJobCompleteOp_heldBehindFullQueue :
    ((retroJobCompleteOp heldBehindFullQueue.dev).job (0 : Fin 16).val).st = .running := by
  decide +kernel

/-- Refutes O24: on heldBehindFullQueue job 0 has extracted its range and has no pieces, but it does not complete before its
record is written (R277). -/
theorem not_referencesAndRetro : ¬ Obligations.ReferencesAndRetro := by
  unfold Obligations.ReferencesAndRetro
  rintro ⟨-, -, -, -, -, -, -, -, -, -, -, -, -, -, hcomplete⟩
  obtain ⟨t, ht, hdone, -⟩ := hcomplete 0 heldBehindFullQueue (by decide) (by decide) rfl rfl nofun
  have hst := st_retroJobCompleteOp_heldBehindFullQueue
  rw [← State.dev_of_run_next (by decide) ht, hdone] at hst
  exact absurd hst (by decide)

end Sys2Proof
end

section
/-! PROOF. O25: CEX_HDh_CAND counts the candidates released on the heads there are (R276) — but a piece of the type `Piece` may lie
on a head that is not there. -/

namespace Sys2Proof

open Machine

/-- The head whose CEX_HDh_CAND would have the key of EDC_INJ_CTL, 180,172. The device has heads 0–63, but nothing in the type of a
piece keeps its runs on them, and the candidates of a head that is not there are counted under the key of another register. -/
def strayHead : Nat := (regKey .edcInjCtl 0 - regKey .cexHdhCand 0) / (regDesc .cexHdhCand).stride

/-- A live piece of one run of ten seeds on the stray head, which extracts no more lines of it (R262). -/
def strayPiece : Piece :=
  { num := 6, job := none, set := 0, tag := 0, bright := false, closed := [strayHead],
    runs := [{ head := strayHead, k := 3, pos := 30, x0 := 100, x1 := 109, bright := false, seed := true, sumE := 9000,
               peak := 900, flags := 0 }] }

/-- A block in RUN that holds the piece, its live queue empty and no lateral map written. Injection is enabled and armed at the first
word of the queue, without a bit to invert (R426). -/
def armedAtRecord : State :=
  { dev := {
      regs := [(regKey .ghdState 0, wordOf DevState.run.code), (regKey .edcCtl 0, wordOf (2 ^ 8)),
        (regKey .edcInjAddr 0, wordOf 0x955800), (regKey .edcInjCtl 0, wordOf (2 ^ 8))],
      cex := { pieces := [strayPiece] } } }

/-- The record's first word takes the injection: ARM falls and DONE rises in EDC_INJ_CTL (R426), which here is also the count of the
stray head, and the candidate adds 1 to that. -/
theorem cand_pieceReleaseOp_armedAtRecord :
    (pieceReleaseOp 6 armedAtRecord.dev).rdF .cexHdhCand strayHead 31 0 = 2 ^ 9 + 1 := by
  decide +kernel

/-- Refutes O25: on armedAtRecord piece 6 leaves with its record, but the count of its head goes from 2⁸ to 2⁹ + 1. -/
theorem not_calibrationAndPieces : ¬ Obligations.CalibrationAndPieces := by
  unfold Obligations.CalibrationAndPieces
  rintro ⟨-, -, -, -, -, hcandidate, -⟩
  obtain ⟨t, ht, -, -, hcand⟩ := hcandidate 6 strayPiece armedAtRecord (by decide) (by decide) rfl rfl (by decide +kernel)
    (by decide +kernel) (by decide +kernel) (by decide +kernel) (by decide +kernel) rfl (by decide)
  have hhead : strayPiece.localHead = strayHead := rfl
  rw [State.dev_of_run_next (f := pieceReleaseOp 6) (by decide) ht, hhead, cand_pieceReleaseOp_armedAtRecord] at hcand
  exact absurd hcand (by decide)

end Sys2Proof
end

section
/-! PROOF. O29: what START of a channel that does not run brings (R327) — but a request to the tile movers may stand in its name, and START
takes it out of their queue. -/

namespace Sys2Proof

open Machine

/-- Channel 5 is IDLE in a cluster that is on, and the movers still hold a request of a MOVE of it: nothing in the type of a block
keeps a channel's request to the time that its MOVE runs (R461). -/
def idleWithRequest : State :=
  { dev := {
      regs := [(regKey .ibxChcStat 5, 0), (regKey .ghdState 0, wordOf DevState.run.code)],
      domains := [(13, .on)],
      tmv := { reqs := [{ user := .move 5, words := 2, write := true }] } } }

/-- START gives up whatever the channel was in the middle of, and the request with it. -/
theorem reqs_channelStartOp_idleWithRequest : (channelStartOp (5 : Fin 512).val idleWithRequest.dev).tmv.reqs = [] := by
  decide +kernel

/-- Refutes O29: on idleWithRequest the tile movers lose a request as channel 5 starts, and the statement has them as they were. -/
theorem not_channelStates : ¬ Obligations.ChannelStates := by
  unfold Obligations.ChannelStates
  rintro ⟨hstart, -⟩
  obtain ⟨t, ht, -, -, -, -, -, -, honly⟩ := hstart 5 idleWithRequest (by decide) (by decide) (by decide) (by decide) (by decide)
  have htmv : t.dev.tmv = idleWithRequest.dev.tmv := honly .tmv (by decide)
  have hreqs := reqs_channelStartOp_idleWithRequest
  rw [← State.dev_of_run_next (f := channelStartOp (5 : Fin 512).val) (by decide) ht, htmv] at hreqs
  exact absurd hreqs (by decide)

end Sys2Proof
end

section
/-! PROOF. O53: the program area (R340) and the stored configuration (R550, R585). -/

namespace Sys2Proof

open Machine

/-! ### The dictionary answers (R552) -/

namespace Machine.Dev

variable {d : Dev}

/-- The dictionary answers only while supplies stand. -/
theorem powered_of_dictReady (h : d.dictReady = true) : d.powered = true := by
  simp only [dictReady, Bool.and_eq_true, Bool.or_eq_true, decide_eq_true_eq] at h
  obtain ⟨(hs | hs) | hs, -⟩ := h <;> simp [powered, hs]

theorem whenReady_ready (h : d.dictReady = true) (f : Dev → Dev) : d.whenReady f = f d := if_pos h

theorem whenReady_not (h : d.dictReady = false) (f : Dev → Dev) : d.whenReady f = d.answer 0x38 0x30 := by
  simp [whenReady, h]

end Machine.Dev

/-- A record answered changes nothing else. -/
theorem only_answer (s : State) (st sub : Nat) : Only [.reply] s { s with dev := s.dev.answer st sub } :=
  ⟨rfl, fun p hp => by cases p with | reply => exact absurd (by decide) hp | _ => rfl⟩

/-- A command that only answers. -/
theorem run_answers {s : State} {f : Dev → Dev} {st sub : Nat} (hp : s.dev.powered = true) (hf : f s.dev = s.dev.answer st sub) :
    ∃ t, s.run f = .next t ∧ t.dev.reply = (st, sub) ∧ Only [.reply] s t :=
  ⟨_, State.run_powered hp f, by simp [hf, Dev.answer], by simpa only [hf] using only_answer s st sub⟩

/-! ### The program area (R340) -/

/-- Words that fit the program area are written in order and lie there. -/
theorem programWrite_fits {off n : Nat} {ws : List Word} {s : State} (hr : s.dev.dictReady = true) (h17 : s.dev.domOn 17 = true)
    (hn : ws.length = n) (hfit : off + n ≤ 1009664) (hi : s.dev.rdB .edcInjCtl 0 8 = false)
    (hm : memWf MemWord.blank s.dev.sram = true) :
    ∃ t, exec (.programWrite off ws) s = .next t ∧ t.dev.reply = (0, 0) ∧
      (∀ i : Fin n, t.dev.cell (0x6AA800 + off + i) = goodWord (ws.getD i 0)) ∧ SramOnly (0x6AA800 + off) n s t ∧
      Only [.sram, .reply] s t := by
  have hop : programWriteOp off ws s.dev = (s.dev.sramWrites (0x6AA800 + off) ws).answer 0 0 := by
    rw [programWriteOp, Dev.whenReady_ready hr]
    simp [h17, hn, hfit]
  refine ⟨_, State.run_powered (Dev.powered_of_dictReady hr) _, ?_⟩
  rw [hop]
  refine ⟨rfl, fun i => ?_, fun b hb => cell_sramWrites_outside hm hi hn.le hb, rfl, fun p hp => ?_⟩
  · refine (Dev.cell_sramWrites hm hi (0x6AA800 + off) _ ws).trans ?_
    rw [if_pos (by omega), Nat.add_sub_cancel_left]
  · rw [Dev.sramWrites_eq hi]
    cases p with
    | sram | reply => exact absurd (by decide) hp
    | _ => rfl

/-! ### Flash operations (R550, R585) -/

/-- A pulse source that its owner lets through is pending once it was raised (R526). -/
theorem p_source_raise {d : Dev} {i : Nat} (hk : srcKind i = .pulse) (hl : d.srcLive i = true) : ((d.raise i).source i).p = true := by
  have hpend : (d.pend (d.source i) .raising d.now).p = true := by
    unfold Dev.pend
    split
    · assumption
    · rfl
  simp [Dev.raise, Dev.raiseAt, hk, hl, hpend]

/-- Values written at once beside a report of the flash operation's end (R550): 803 is raised, after the events that brought d. -/
theorem endFlash_reach {s : State} {d : Dev} (hd : Within (plainFoot [.evc, .wev] []) s.dev d) (x : DictState) (g : GhdState) :
    let t : State := { s with dev := ({ d with dict := x, ghd := g } : Dev).raise 803 }
    t.dev.dict = x ∧ t.dev.ghd = g ∧ (s.dev.srcLive 803 = true → (t.dev.source 803).p = true) ∧
      Only [.dict, .ghd, .evc, .wev] s t := by
  refine ⟨by simp, by simp, fun hl => p_source_raise (by decide) ?_, rfl, fun p hp => ?_⟩
  · have hregs : d.regs = s.dev.regs := hd.parts .regs (by decide)
    have hpow : d.powered = s.dev.powered := by
      simp only [Dev.powered, Dev.devState, Dev.rdF, Dev.rd_congr hregs]
    exact hpow.trans hl
  · have hsame : p.same s.dev d := hd.parts p fun h => hp (List.mem_cons_of_mem _ (List.mem_cons_of_mem _ h))
    refine Part.same_trans hsame ?_
    cases p with
    | dict | ghd | evc | wev => exact absurd (by decide) hp
    | _ => simp [Part.same]

/-- The events before that report: GHD_FLASH_ERR where the operation failed. -/
theorem within_flashErr (d : Dev) (ok : Bool) : Within (plainFoot [.evc, .wev] []) d (if ok then d else d.raise 780) := by
  cases ok
  · exact (Within.refl _ d).raise (by decide) 780
  · exact Within.refl _ d

theorem ghd_flashErr (d : Dev) (ok : Bool) : (if ok then d else d.raise 780).ghd = d.ghd := (within_flashErr d ok).parts .ghd (by decide)

theorem dict_flashErr (d : Dev) (ok : Bool) : (if ok then d else d.raise 780).dict = d.dict := (within_flashErr d ok).parts .dict (by decide)

/-- The end of a store: where it succeeded the values are stored under the next generation. -/
theorem flashOperationDone_store {values : List (Nat × List (BitVec 8))} {s : State} (ok : Bool) (hp : s.dev.powered = true)
    (hf : s.dev.ghd.flashOp = some (.store values)) :
    ∃ t, exec (.flashOperationDone ok) s = .next t ∧ t.dev.dict = { s.dev.dict with store := if ok then 2 else 3 } ∧
      t.dev.ghd = { s.dev.ghd with flashOp := none, stored := if ok then values else s.dev.ghd.stored,
                                   storedGen := if ok then s.dev.ghd.storedGen + 1 else s.dev.ghd.storedGen } ∧
      (s.dev.srcLive 803 = true → (t.dev.source 803).p = true) ∧ Only [.dict, .ghd, .evc, .wev] s t := by
  refine ⟨_, State.run_powered hp _, ?_⟩
  simp only [flashOperationDoneOp, hf, ghd_flashErr, dict_flashErr]
  exact endFlash_reach (within_flashErr s.dev ok) _ _

/-- The end of an erase: where it succeeded nothing is stored. -/
theorem flashOperationDone_erase {s : State} (ok : Bool) (hp : s.dev.powered = true) (hf : s.dev.ghd.flashOp = some .erase) :
    ∃ t, exec (.flashOperationDone ok) s = .next t ∧ t.dev.dict = { s.dev.dict with store := if ok then 2 else 3 } ∧
      t.dev.ghd = { s.dev.ghd with flashOp := none, stored := if ok then [] else s.dev.ghd.stored } ∧
      (s.dev.srcLive 803 = true → (t.dev.source 803).p = true) ∧ Only [.dict, .ghd, .evc, .wev] s t := by
  refine ⟨_, State.run_powered hp _, ?_⟩
  simp only [flashOperationDoneOp, hf, ghd_flashErr, dict_flashErr]
  exact endFlash_reach (within_flashErr s.dev ok) _ _

/-- The end of a program: the flash is free again, and a failure raises GHD_FLASH_ERR. -/
theorem flashOperationDone_program {s : State} (ok : Bool) (hp : s.dev.powered = true)
    (hf : s.dev.ghd.flashOp = some .program) :
    ∃ t, exec (.flashOperationDone ok) s = .next t ∧ t.dev.ghd = { s.dev.ghd with flashOp := none } ∧
      (ok = true → Only [.ghd] s t) ∧ Only [.ghd, .evc, .wev] s t := by
  have hop : flashOperationDoneOp ok s.dev =
      { (if ok then s.dev else s.dev.raise 780) with ghd := { s.dev.ghd with flashOp := none } } := by
    simp only [flashOperationDoneOp, hf, ghd_flashErr]
  refine ⟨_, State.run_powered hp _, ?_⟩
  rw [hop]
  refine ⟨rfl, fun hok => ⟨rfl, fun p hq => ?_⟩, rfl, fun p hq => ?_⟩
  · subst hok
    cases p with
    | ghd => exact absurd (by decide) hq
    | _ => rfl
  · refine Part.same_trans ((within_flashErr s.dev ok).parts p fun h => hq (List.mem_cons_of_mem _ h)) ?_
    cases p with
    | ghd => exact absurd (by decide) hq
    | _ => rfl

/-- A flash operation of the configuration that starts: the store is in progress. -/
theorem startFlash_reach (s : State) (op : FlashOp) :
    let t : State := { s with dev := ({ s.dev with dict := { s.dev.dict with store := 1 },
                                                   ghd := { s.dev.ghd with flashOp := some op } } : Dev).answer 0 0 }
    t.dev.reply = (0, 0) ∧ t.dev.dict = { s.dev.dict with store := 1 } ∧ t.dev.ghd = { s.dev.ghd with flashOp := some op } ∧
      Only [.reply, .dict, .ghd] s t :=
  ⟨rfl, rfl, rfl, rfl, fun p hp => by cases p with | reply | dict | ghd => exact absurd (by decide) hp | _ => rfl⟩

/-! ### The statement -/

/-- Settles O53. -/
theorem programsAndStore : Obligations.ProgramsAndStore := by
  unfold Obligations.ProgramsAndStore
  refine ⟨fun off n ws s hr h17 hn hfit hi hm => programWrite_fits hr h17 hn hfit hi hm, fun off ws s hr h17 hpast => ?_,
    fun off ws s hr h17 => ?_, fun off ws s hp hr => ⟨?_, ?_, ?_⟩, fun s hr hst => ?_, fun s hr hst => ?_, fun s hr hst => ?_,
    fun s hr hst => ?_, fun values s hp hf => flashOperationDone_store true hp hf, fun s hp hf => ?_,
    fun ok s hp hf => flashOperationDone_program ok hp hf, fun ok s hf => ?_,
    fun s hp hf => flashOperationDone_erase true hp hf, fun values s hp hf => ?_⟩
  · exact run_answers (f := programWriteOp off ws) (Dev.powered_of_dictReady hr)
      (by rw [programWriteOp, Dev.whenReady_ready hr]; simp [h17, hpast])
  · exact run_answers (f := programWriteOp off ws) (Dev.powered_of_dictReady hr)
      (by rw [programWriteOp, Dev.whenReady_ready hr]; simp [h17])
  · exact run_answers (f := programWriteOp off ws) hp (Dev.whenReady_not hr _)
  · exact run_answers (f := storeConfigurationOp) hp (Dev.whenReady_not hr _)
  · exact run_answers (f := eraseConfigurationOp) hp (Dev.whenReady_not hr _)
  · refine ⟨_, State.run_powered (Dev.powered_of_dictReady hr) storeConfigurationOp, ?_⟩
    rw [storeConfigurationOp, Dev.whenReady_ready hr, Dev.storing, decide_eq_false hst]
    exact startFlash_reach s _
  · refine ⟨_, State.run_powered (Dev.powered_of_dictReady hr) eraseConfigurationOp, ?_⟩
    rw [eraseConfigurationOp, Dev.whenReady_ready hr, Dev.storing, decide_eq_false hst]
    exact startFlash_reach s _
  · exact run_answers (f := storeConfigurationOp) (Dev.powered_of_dictReady hr)
      (by rw [storeConfigurationOp, Dev.whenReady_ready hr, Dev.storing, decide_eq_true hst]; rfl)
  · exact run_answers (f := eraseConfigurationOp) (Dev.powered_of_dictReady hr)
      (by rw [eraseConfigurationOp, Dev.whenReady_ready hr, Dev.storing, decide_eq_true hst]; rfl)
  · obtain ⟨t, ht, hdict, hghd, -, honly⟩ := flashOperationDone_erase false hp hf
    exact ⟨t, ht, hdict, hghd, honly⟩
  · exact State.run_unchanged (f := flashOperationDoneOp ok) (by simp only [flashOperationDoneOp, hf])
  · obtain ⟨t, ht, hdict, hghd, -, honly⟩ := flashOperationDone_store false hp hf
    exact ⟨t, ht, hdict, hghd, honly⟩

end Sys2Proof
end

section
/-! PROOF SUPPORT. Channels: a command word that a channel takes, one that completes and goes on, one that waits, and the words it reads
(R291–R295, R305, R423). -/

namespace Sys2Proof

open Machine

/-! ### Footprints -/

section
variable {F : Foot} {d₀ d : Dev} (h : Within F d₀ d)
include h

theorem Within.withProcs (hp : Part.procs ∈ F.parts) (x : Table Proc) : Within F d₀ { d with procs := x } :=
  h.step (fun p hq => by cases p with | procs => exact absurd hp hq | _ => rfl) (fun _ _ => rfl) rfl

theorem Within.withWev (hp : Part.wev ∈ F.parts) (x : Table WaitLatch) : Within F d₀ { d with wev := x } :=
  h.step (fun p hq => by cases p with | wev => exact absurd hp hq | _ => rfl) (fun _ _ => rfl) rfl

end

/-- The places of a register lie in its window. -/
def regFits (r : Reg) : Bool := decide ((regDesc r).off + (regDesc r).count * (regDesc r).stride ≤ 65536)

/-- Registers of different windows have no place in common. -/
theorem regKey_ne_of_win {r r' : Reg} (h : regFits r = true) (h' : regFits r' = true) (hw : (regDesc r).win ≠ (regDesc r').win)
    {i j : Nat} (hi : i < (regDesc r).count) (hj : j < (regDesc r').count) : regKey r i ≠ regKey r' j := by
  have hb : ∀ {q : Reg} {k : Nat}, regFits q = true → k < (regDesc q).count → 0 < (regDesc q).stride →
      (regDesc q).off + k * (regDesc q).stride < 65536 := fun {q k} hq hk hs =>
    Nat.lt_of_lt_of_le (Nat.add_lt_add_left ((Nat.mul_lt_mul_right hs).2 hk) _) (of_decide_eq_true hq)
  have hs : ∀ q : Reg, 0 < (regDesc q).stride := fun q => by cases q <;> decide
  have := hb h hi (hs r)
  have := hb h' hj (hs r')
  simp only [regKey]
  omega

/-- A footprint has what a channel's command that waits brings to the channel itself. -/
structure Foot.Waits (F : Foot) (c : Nat) : Prop where
  parts : [Part.regs, .ibx] ⊆ F.parts
  stat : F.regs (regKey .ibxChcStat c)

/-- A footprint has what a channel's command that completes brings to the channel itself. -/
structure Foot.Finishes (F : Foot) (c : Nat) : Prop extends Foot.Waits F c where
  procs : Part.procs ∈ F.parts
  cmds : F.regs (regKey .ibxChcCmds c)

theorem Foot.Waits.regs {F : Foot} {c : Nat} (m : F.Waits c) : Part.regs ∈ F.parts := m.parts (by simp)
theorem Foot.Waits.ibx {F : Foot} {c : Nat} (m : F.Waits c) : Part.ibx ∈ F.parts := m.parts (by simp)

/-- What a command that waits may reach beside the parts listed. -/
def waitFoot (ps : List Part) (c : Nat) : Foot := plainFoot (.regs :: .ibx :: ps) [regKey .ibxChcStat c]

/-- What a command that completes may reach beside the parts listed. -/
def finishFoot (ps : List Part) (c : Nat) : Foot :=
  plainFoot (.procs :: .regs :: .ibx :: ps) [regKey .ibxChcStat c, regKey .ibxChcCmds c]

theorem waits_waitFoot (ps : List Part) (c : Nat) : (waitFoot ps c).Waits c :=
  ⟨by simp [waitFoot, plainFoot], by simp [waitFoot, plainFoot]⟩

theorem finishes_finishFoot (ps : List Part) (c : Nat) : (finishFoot ps c).Finishes c where
  parts := by simp [finishFoot, plainFoot]
  stat := by simp [finishFoot, plainFoot]
  procs := by simp [finishFoot, plainFoot]
  cmds := by simp [finishFoot, plainFoot]

/-- A register of another window is beyond the reach of a command that waits. -/
theorem not_waitFoot_regs {r : Reg} (h : regFits r = true) (hw : (regDesc r).win ≠ 9) (ps : List Part) (c : Fin 512) {i : Nat}
    (hi : i < (regDesc r).count) : ¬ (waitFoot ps c).regs (regKey r i) := by
  have hne := regKey_ne_of_win (r' := .ibxChcStat) h (by decide) hw hi c.isLt
  simpa [waitFoot, plainFoot] using hne

/-! ### A channel and its parts -/

namespace Machine.Dev

variable (d : Dev) (c : Nat)

@[simp] theorem chan_setChan_same (x : Chan) : (d.setChan c x).chan c = x := by simp [chan, setChan]

@[simp] theorem chan_wr (r : Reg) (i : Nat) (v : Word) : (d.wr r i v).chan c = d.chan c := rfl

@[simp] theorem chan_setChState (st reason : Nat) : (d.setChState c st reason).chan c = d.chan c := rfl

@[simp] theorem proc_setChState (st reason : Nat) : (d.setChState c st reason).proc c = d.proc c := rfl

theorem chState_setChState {st : Nat} (h : st < 8) (reason : Nat) : (d.setChState c st reason).chState c = st :=
  (rdF_wrF_disj _ (by decide) c c reason (by omega)).trans ((rdF_wrF_same d .ibxChcStat c st (by omega) (by omega)).trans
    (Nat.mod_eq_of_lt h))

end Machine.Dev

section
variable {F : Foot} {d₀ d : Dev} {c : Nat} (h : Within F d₀ d) (m : F.Waits c)
include h m

theorem Within.chanStat (st reason : Nat) : Within F d₀ (d.setChState c st reason) :=
  (h.wrF m.regs m.stat 2 0 st).wrF m.regs m.stat 6 3 reason

theorem Within.chWait (code : Nat) (w : ChWord) (op : ChanOp) : Within F d₀ (d.chWait c code w op) :=
  Within.chanStat (h.withIbx m.ibx _) m 2 0

end

/-! ### A command that completes (R293–R295) -/

/-- A command whose word has no END, and that no SUSPEND waits on, goes on at the next word. -/
theorem chFinish_goesOn {d : Dev} {c : Nat} {w : ChWord} (hl : w.last = false) (hs : (d.chan c).suspReq = false)
    (code st sub resid value : Nat) :
    d.chFinish c code w st sub resid value =
      (((d.setProc c { (d.proc c).setReg false 31 (resultWord st sub resid value) with pc := (d.proc c).pc + 1 }).wrapF
        .ibxChcCmds c 31 0 1).setChan c { d.chan c with run := none, gather := none, suspReq := false }).setChState c 1 0 := by
  simp [Dev.chFinish, hl, hs]

/-- Register i of the first bank read after one that is not w0 was written. -/
theorem reg_setReg (p : Proc) {i : Nat} (hi : i ≠ 0) (j : Nat) (v : Word) :
    (p.setReg false i v).reg false j = if i = j then v else p.reg false j := by
  by_cases hj : j = 0
  · simp [Proc.reg, hj, hi]
  · simp [Proc.reg, Proc.setReg, hj, hi]

/-- The channel has gone on with its result word in w31. -/
theorem chDone_chFinish {c : Fin 512} {s : State} {d : Dev} {w : ChWord} (hproc : d.proc c = s.dev.proc c) (hl : w.last = false)
    (hs : (d.chan c).suspReq = false) (code st sub resid value : Nat) :
    ChDone c st sub resid value s { s with dev := d.chFinish c code w st sub resid value } := by
  have hreg := reg_setReg (s.dev.proc c) (i := 31) (by decide) (v := resultWord st sub resid value)
  have hp : (d.chFinish c code w st sub resid value).proc c =
      { (s.dev.proc c).setReg false 31 (resultWord st sub resid value) with pc := (s.dev.proc c).pc + 1 } := by
    rw [chFinish_goesOn hl hs, hproc]
    exact proc_setProc_same d c _
  refine ⟨?_, ?_, congrArg Proc.pc hp, ?_, fun i => ?_⟩
  · simp only [chFinish_goesOn hl hs]
    exact Dev.chState_setChState _ _ (by decide) 0
  · simp [chFinish_goesOn hl hs]
  · rw [hp]
    exact (hreg 31).trans (if_pos rfl)
  · rw [hp]
    exact (hreg i).trans (if_neg (by omega))

/-- Beyond what came before, nothing differs but the channel's registers and itself. -/
theorem Within.chFinishOn {F : Foot} {d₀ d : Dev} {c : Nat} {w : ChWord} (h : Within F d₀ d) (m : F.Finishes c) (hl : w.last = false)
    (hs : (d.chan c).suspReq = false) (code st sub resid value : Nat) :
    Within F d₀ (d.chFinish c code w st sub resid value) := by
  rw [chFinish_goesOn hl hs]
  exact Within.chanStat (((h.withProcs m.procs _).wr m.regs m.cmds _).withIbx m.ibx _) m.toWaits 1 0

/-- Every part but three is as it was before the command went on. -/
theorem same_chFinishOn {p : Part} (hp : p ∉ [Part.procs, .regs, .ibx]) {d : Dev} {c : Nat} {w : ChWord} (hl : w.last = false)
    (hs : (d.chan c).suspReq = false) (code st sub resid value : Nat) : p.same d (d.chFinish c code w st sub resid value) :=
  ((Within.refl (finishFoot [] c) d).chFinishOn (finishes_finishFoot [] c) hl hs ..).parts p hp

/-- A command whose operation is to complete, after changes that leave the channel's processor. -/
theorem run_finishes {c : Fin 512} {F : Foot} {s : State} {f : Dev → Dev} {d : Dev} {code st sub resid value : Nat} {w : ChWord}
    (hp : s.dev.powered = true) (hf : f s.dev = d.chFinish c code w st sub resid value) (h : Within F s.dev d) (m : F.Finishes c)
    (hproc : d.proc c = s.dev.proc c) (hl : w.last = false) (hs : (d.chan c).suspReq = false) :
    ∃ t, s.run f = .next t ∧ ChDone c st sub resid value s t ∧ Within F s.dev t.dev ∧
      t = { s with dev := d.chFinish c code w st sub resid value } :=
  ⟨_, State.run_powered hp f, by simpa only [hf] using chDone_chFinish hproc hl hs .., by simpa only [hf] using h.chFinishOn m hl hs ..,
    by rw [hf]⟩

/-! ### A command that waits (R305) -/

/-- What a channel that starts to wait is waiting in. -/
theorem run_chWait (d : Dev) (c code : Nat) (w : ChWord) (op : ChanOp) :
    ((d.chWait c code w op).chan c).run = some { op := op, code := code, w := w, since := d.now } := by
  simp [Dev.chWait]

/-- A command that does not complete at once waits from now on, its program counter at the word. -/
theorem chWaits_chWait {c : Fin 512} {s : State} {d : Dev} (hn : d.now = s.dev.now) (hp : d.procs = s.dev.procs) (code : Nat)
    (w : ChWord) (op : ChanOp) : ChWaits c code w op s { s with dev := d.chWait c code w op } := by
  exact ⟨Dev.chState_setChState _ _ (by decide) 0, by rw [run_chWait, hn], hp⟩

/-- A command whose operation is to wait, after changes that leave the processors and the time. -/
theorem run_waits {c : Fin 512} {F : Foot} {s : State} {f : Dev → Dev} {d : Dev} {code : Nat} {w : ChWord} {op : ChanOp}
    (hp : s.dev.powered = true) (hf : f s.dev = d.chWait c code w op) (h : Within F s.dev d) (m : F.Waits c)
    (hn : d.now = s.dev.now) (hprocs : d.procs = s.dev.procs) :
    ∃ t, s.run f = .next t ∧ ChWaits c code w op s t ∧ Within F s.dev t.dev ∧ t = { s with dev := d.chWait c code w op } :=
  ⟨_, State.run_powered hp f, by simpa only [hf] using chWaits_chWait hn hprocs .., by simpa only [hf] using h.chWait m ..,
    by rw [hf]⟩

/-! ### A command word that a channel takes (R291, R292) -/

/-- What a word with no flag and no reserved bit has. -/
theorem ChWord.bare_iff (w : ChWord) : w.bare = true ↔ w.plain = true ∧ w.more = false ∧ w.dry = false ∧ w.strict = false ∧
    w.last = false ∧ w.hold = false ∧ w.note = false ∧ w.rsv1 = 0 ∧ w.rsv0 = 0 := by
  simp [ChWord.bare, ChWord.plain]
  tauto

/-- The block as a channel takes a word: a hold taken already counts no more. -/
def taken (c : Nat) (d : Dev) : Dev := d.setChan c { d.chan c with noHold := false }

/-- A word with no flag, its fields in order, does what its operation says. -/
theorem chStart_bare {c : Fin 512} {w : ChWord} {s : State} (hf : ChFresh c s) (hw : w.bare = true) (code : Nat) {fields : Bool}
    (hfields : fields = true) (body : Dev → Dev) : s.dev.chStart c code w fields body = body (taken c s.dev) := by
  obtain ⟨-, hruns, hrep, hgather, hskip, -⟩ := hf
  obtain ⟨-, hmore, -, -, -, hhold, hnote, hr1, hr0⟩ := w.bare_iff.1 hw
  simp [Dev.chStart, taken, hruns, hrep, hgather, hskip, hmore, hhold, hnote, hr1, hr0, hfields]

/-- Taking a word leaves everything but the channels. -/
theorem within_taken (F : Foot) (hp : Part.ibx ∈ F.parts) (c : Nat) (d : Dev) : Within F d (taken c d) := by
  unfold taken Dev.setChan
  exact (Within.refl F d).withIbx hp _

/-! ### Words read for a command (R288, R423) -/

namespace Machine.Dev

variable {d : Dev}

/-- One word that decodes. -/
theorem sramRead_ok {a : Nat} {v : Word} (h : decodeWord (d.cell a) = .ok v) : d.sramRead a = (.ok v, d) := by
  unfold sramRead
  rw [h]

/-- Words that all decode are read with no report. -/
theorem sramReads_ok {a : Nat} {ws : List Word} (h : ∀ i (hi : i < ws.length), decodeWord (d.cell (a + i)) = .ok ws[i]) :
    d.sramReads a ws.length = (ws, 0, d) := by
  induction ws generalizing a with
  | nil => rfl
  | cons w ws ih =>
    have hw : decodeWord (d.cell a) = .ok w := h 0 (by simp)
    have ht := ih (a := a + 1) fun i hi => by
      have := h (i + 1) (by simpa using hi)
      rwa [show a + (i + 1) = a + 1 + i by omega] at this
    simp [sramReads, sramRead_ok hw, ht, SramRead.status, SramRead.word]

/-- One word of the program area that decodes. -/
theorem chRead_one {a : Nat} {v : Word} (hin : inProgram a 1 = true) (h : decodeWord (d.cell a) = .ok v) :
    d.chRead a 1 = (.ok [v], d) := by
  have hr := sramReads_ok (d := d) (a := a) (ws := [v]) fun i hi => by
    obtain rfl : i = 0 := by simpa using hi
    exact h
  rw [List.length_singleton] at hr
  simp [chRead, hin, hr]

end Machine.Dev

end Sys2Proof
end

section
/-! PROOF. O26: NOP, POSWAIT, WAITEV and BANDWAIT (R292–R295, R302–R304). -/

namespace Sys2Proof

open Machine

/-! ### A wait in progress -/

namespace Machine.Dev

variable {d : Dev} {c : Nat} {r : ChanRun}

/-- An axis that reaches a position now is at or past it. -/
theorem atOrPast_of_axisReaches {a : Nat} {v : P48} (h : d.axisReaches a v 0 = true) : atOrPast (d.axisPos a) v = true := by
  simp only [axisReaches, Bool.and_eq_true] at h
  have hnow : d.now + wordOf 0 = d.now := BitVec.add_zero d.now
  rw [hnow] at h
  exact h.2

/-- An axis in FAULT reaches nothing. -/
theorem axisReaches_of_fault {a : Nat} (h : d.axisState a = .fault) (v : P48) (n : Nat) : d.axisReaches a v n = false := by
  simp [axisReaches, h]

/-- What a POSWAIT that no FAULT has ended meets (R302). -/
theorem pollPoswait_eq {a : Nat} {v : P48} (hrun : (d.chan c).run = some r) (hop : r.op = .poswait a v) (hcut : r.cut = none) :
    d.pollPoswait c =
      if d.axisReaches a v 0 then d.endWait c r 0 0 0 0 else if d.axisState a = .fault then d.endWait c r 0x38 5 0 0 else d := by
  simp only [pollPoswait, hrun, hop, hcut]

/-- What a BANDWAIT meets (R304). -/
theorem pollBandwait_eq {h : Nat} {v : P48} (hrun : (d.chan c).run = some r) (hop : r.op = .bandwait h v) :
    d.pollBandwait c =
      if !d.hasRing h then d.endWait c r 0x21 2 0 0
      else if (d.lb h).nextS ≠ 0 && !atOrPast v (d.hznPos h) then d.endWait c r 0x20 5 0 0
      else if d.holds h && atOrPast (d.newEnd h) v then d.endWait c r 0 0 0 0 else d := by
  simp only [pollBandwait, hrun, hop]

end Machine.Dev

/-- The ns that one unit of COUNT stands for as the limit of a wait (R302–R304). -/
def limitUnit : ChanOp → Nat
  | .poswait _ _ => 1000000
  | .waitev _ => 1000
  | .bandwait _ _ => 1000
  | _ => 0

/-- What a limit that passes makes of a wait: NOT_READY, sub-code 04h, a WAITEV with its latch started anew (R302–R304). -/
def limitEnd (d : Dev) (c : Nat) (r : ChanRun) : ChanOp → Dev
  | .waitev i => d.endWaitev c r.code r.w i 0x38 4 0
  | _ => d.endWait c r 0x38 4 0 0

section
variable {c : Fin 512} {op : ChanOp} {r : ChanRun} {s : State}

/-- A channel that waits takes what its wait meets. -/
theorem ChWaiting.polls (h : ChWaiting c op r s) : (s.dev.chOn c && s.dev.chState c = 2) = true := by
  obtain ⟨-, hon, hst, -⟩ := h
  simp [hon, hst]

theorem ChWaiting.poswaitReached {a : Nat} {v : P48} (h : ChWaiting c (.poswait a v) r s) :
    poswaitReachedOp c s.dev =
      if s.dev.axisReaches a v 0 then s.dev.endWait c r 0 0 0 0
      else if s.dev.axisState a = .fault then s.dev.endWait c r 0x38 5 0 0 else s.dev := by
  have hpolls := h.polls
  obtain ⟨-, -, -, hrun, hop, hcut, -⟩ := h
  rw [poswaitReachedOp, if_pos hpolls, Dev.pollPoswait_eq hrun hop hcut]

theorem ChWaiting.bandwaitHeld {b : Nat} {v : P48} (h : ChWaiting c (.bandwait b v) r s) :
    bandwaitHeldOp c s.dev =
      if !s.dev.hasRing b then s.dev.endWait c r 0x21 2 0 0
      else if (s.dev.lb b).nextS ≠ 0 && !atOrPast v (s.dev.hznPos b) then s.dev.endWait c r 0x20 5 0 0
      else if s.dev.holds b && atOrPast (s.dev.newEnd b) v then s.dev.endWait c r 0 0 0 0 else s.dev := by
  have hpolls := h.polls
  obtain ⟨-, -, -, hrun, hop, -⟩ := h
  rw [bandwaitHeldOp, if_pos hpolls, Dev.pollBandwait_eq hrun hop]

/-- A wait whose limit has passed ends. -/
theorem ChWaiting.limitPassed (h : ChWaiting c op r s) (hunit : limitUnit op ≠ 0) (hn : 0 < r.w.count.toNat)
    (ht : r.w.count.toNat * limitUnit op ≤ elapsed s.dev.now r.since) : waitLimitOp c s.dev = limitEnd s.dev c r op := by
  obtain ⟨-, hon, hst, hrun, rfl, hcut, -⟩ := h
  have hgo : ¬(limitUnit r.op = 0 || r.w.n = 0 || elapsed s.dev.now r.since < r.w.n * limitUnit r.op) = true := by
    simp [ChWord.n, hunit, hn.ne', Nat.not_lt.2 ht]
  simp only [waitLimitOp, hon, hst, hrun]
  refine (if_neg hgo).trans ?_
  rw [hcut]
  cases r.op <;> rfl

/-- A wait that ends, after changes that leave the channel and its processor (R293–R295). -/
theorem ChWaiting.ends (h : ChWaiting c op r s) {F : Foot} {f : Dev → Dev} {d : Dev} {st sub resid value : Nat}
    (hf : f s.dev = d.endWait c r st sub resid value) (hd : Within F s.dev d) (m : F.Finishes c) (hproc : d.proc c = s.dev.proc c)
    (hchan : d.chan c = s.dev.chan c) :
    ∃ t, s.run f = .next t ∧ ChDone c st sub resid value s t ∧ Within F s.dev t.dev ∧
      t = { s with dev := d.endWait c r st sub resid value } := by
  obtain ⟨hpow, -, -, -, -, -, hl, hs⟩ := h
  exact run_finishes hpow hf hd m hproc hl (by rw [hchan, hs])

/-- A wait that ends with nothing before it. -/
theorem ChWaiting.endsHere (h : ChWaiting c op r s) {f : Dev → Dev} {st sub resid value : Nat}
    (hf : f s.dev = s.dev.endWait c r st sub resid value) :
    ∃ t, s.run f = .next t ∧ ChDone c st sub resid value s t ∧ Only [.procs, .regs, .ibx] s t := by
  obtain ⟨t, ht, hdone, hw, rfl⟩ := h.ends hf (Within.refl (finishFoot [] c) s.dev) (finishes_finishFoot [] c) rfl rfl
  exact ⟨_, ht, hdone, hw.only⟩

/-- A WAITEV that ends has the channel watch its source from here on (R303). -/
theorem run_endWaitev {f : Dev → Dev} {d : Dev} {code i st sub value : Nat} {w : ChWord} (hp : s.dev.powered = true)
    (hf : f s.dev = d.endWaitev c code w i st sub value) (h : Within (finishFoot [.wev] c) s.dev d)
    (hproc : d.proc c = s.dev.proc c) (hl : w.last = false) (hs : (d.chan c).suspReq = false) :
    ∃ t, s.run f = .next t ∧ ChDone c st sub 0 value s t ∧ tget t.dev.wev {} c = { src := i } ∧
      Only [.procs, .regs, .ibx, .wev] s t := by
  have hw := h.withWev (by simp [finishFoot, plainFoot]) (tset d.wev c { src := i })
  obtain ⟨t, ht, hdone, hfin, rfl⟩ := run_finishes hp hf hw (finishes_finishFoot [.wev] c) hproc hl hs
  refine ⟨_, ht, hdone, ?_, hfin.only⟩
  have hwev := same_chFinishOn (p := .wev) (by decide) (d := { d with wev := tset d.wev c { src := i } }) hl hs code st sub 0 value
  simp [show _ = _ from hwev]

theorem ChWaiting.waitevRaised {i : Nat} {u : Word} (h : ChWaiting c (.waitev i) r s) (hu : (tget s.dev.wev {} c).raised = some u) :
    waitevRaisedOp c s.dev = s.dev.endWaitev c r.code r.w i 0 0 (fld u 19 0) := by
  obtain ⟨-, hon, hst, hrun, hop, -⟩ := h
  simp [waitevRaisedOp, hon, hst, hrun, hop, hu, low20]

theorem ChWaiting.endsWaitev {i st sub value : Nat} (h : ChWaiting c op r s) {f : Dev → Dev}
    (hf : f s.dev = s.dev.endWaitev c r.code r.w i st sub value) :
    ∃ t, s.run f = .next t ∧ ChDone c st sub 0 value s t ∧ tget t.dev.wev {} c = { src := i } ∧
      Only [.procs, .regs, .ibx, .wev] s t := by
  obtain ⟨hpow, -, -, -, -, -, hl, hs⟩ := h
  exact run_endWaitev hpow hf (Within.refl _ _) rfl hl hs

end

/-! ### A word that a channel takes -/

section
variable {c : Fin 512} {w : ChWord} {s : State}

/-- A word taken that completes at once (R292). -/
theorem ChFresh.completes (hf : ChFresh c s) (hw : w.bare = true) {f : Dev → Dev} {code st sub resid value : Nat}
    (hop : f s.dev = (taken c s.dev).chFinish c code w st sub resid value) :
    ∃ t, s.run f = .next t ∧ ChDone c st sub resid value s t ∧
      RegsOnly [regKey .ibxChcStat c, regKey .ibxChcCmds c] s t ∧ Only [.procs, .regs, .ibx] s t := by
  obtain ⟨hpow, -, -, -, -, hs⟩ := hf
  obtain ⟨-, -, -, -, hl, -⟩ := w.bare_iff.1 hw
  obtain ⟨t, ht, hdone, hfin, rfl⟩ := run_finishes hpow hop (within_taken (finishFoot [] c) (by simp [finishFoot, plainFoot]) c s.dev)
    (finishes_finishFoot [] c) rfl hl (by simp [taken, hs])
  exact ⟨_, ht, hdone, hfin.regsOnly, hfin.only⟩

/-- A word taken that waits. -/
theorem within_taken_chWait (c : Fin 512) (d : Dev) (code : Nat) (w : ChWord) (op : ChanOp) :
    Within (waitFoot [] c) d ((taken c d).chWait c code w op) :=
  (within_taken (waitFoot [] c) (by simp [waitFoot, plainFoot]) c d).chWait (waits_waitFoot [] c) code w op

theorem ChFresh.waits (hf : ChFresh c s) {f : Dev → Dev} {code : Nat} {op : ChanOp}
    (hop : f s.dev = (taken c s.dev).chWait c code w op) :
    ∃ t, s.run f = .next t ∧ ChWaits c code w op s t ∧ Only [.regs, .ibx] s t := by
  obtain ⟨hpow, -⟩ := hf
  obtain ⟨t, ht, hwaits, hw, rfl⟩ := run_waits hpow hop (within_taken (waitFoot [] c) (by simp [waitFoot, plainFoot]) c s.dev)
    (waits_waitFoot [] c) rfl rfl
  exact ⟨_, ht, hwaits, hw.only⟩

end

/-! ### POSWAIT (R302) -/

/-- A word of another window reads as before while a channel's command waits. -/
theorem still_waitFoot (ps : List Part) (c : Fin 512) : (waitFoot ps c).Still := by
  have hset : ∀ r ∈ settingRegs, regFits r = true ∧ (regDesc r).win ≠ 9 := by decide
  exact fun r hr i hi => not_waitFoot_regs (hset r hr).1 (hset r hr).2 ps c hi

/-- A POSWAIT whose position is still to come waits: the axis neither reaches it nor is in FAULT. -/
theorem pollPoswait_chWait {c : Fin 512} {d : Dev} {a : Nat} {v : Word} (code : Nat) (w : ChWord) (ha : a < 4)
    (hpos : atOrPast (d.axisPos a) v = false) (hst : d.axisState a ≠ .fault) :
    ((taken c d).chWait c code w (.poswait a v)).pollPoswait c = (taken c d).chWait c code w (.poswait a v) := by
  have hw := within_taken_chWait c d code w (.poswait a v)
  have hx : (waitFoot [] c).KeepsAxes := fun _ _ _ e => e
  have hreach : ((taken c d).chWait c code w (.poswait a v)).axisReaches a v 0 = false := by
    refine Bool.eq_false_iff.2 fun h => ?_
    have hat := Dev.atOrPast_of_axisReaches h
    rw [Dev.axisPos, hw.axisPosAt (still_waitFoot [] c) hx ha] at hat
    exact absurd (hpos.symm.trans hat) (by decide)
  have hstate : ((taken c d).chWait c code w (.poswait a v)).axisState a ≠ .fault := by
    rwa [hw.axisState (still_waitFoot [] c) hx ha]
  refine (Dev.pollPoswait_eq (run_chWait ..) rfl rfl).trans ?_
  rw [hreach, if_neg (by decide), if_neg hstate]

/-- POSWAIT reads its position and goes by it. -/
theorem chPoswaitOp_taken {c : Fin 512} {w : ChWord} {v : Word} {s : State} (hf : ChFresh c s) (hw : w.bare = true)
    (ht : w.target.toNat < 4) (hin : inProgram (s.dev.chAddr c w) 1 = true)
    (hv : decodeWord (s.dev.cell (s.dev.chAddr c w)) = .ok v) :
    chPoswaitOp c w s.dev =
      if atOrPast (s.dev.axisPos w.target.toNat) v then (taken c s.dev).chFinish c 0xC1 w 0 0 0 0
      else ((taken c s.dev).chWait c 0xC1 w (.poswait w.target.toNat v)).pollPoswait c := by
  have hread : (taken c s.dev).chRead ((taken c s.dev).chAddr c w) 1 = (.ok [v], taken c s.dev) := Dev.chRead_one hin hv
  have hstart := chStart_bare hf hw 0xC1 (fields := w.plain && decide (w.target.toNat < 4)) (by simp [(w.bare_iff.1 hw).1, ht])
  refine (hstart _).trans ?_
  simp only [hread]
  rfl

/-! ### BANDWAIT (R304) -/

/-- A BANDWAIT for a head whose ring has released and holds nothing waits. -/
theorem pollBandwait_chWait {c : Fin 512} {d : Dev} {h : Nat} {v : Word} (code : Nat) (w : ChWord) (hh : h < 64)
    (hring : d.hasRing h = true) (hnext : (d.lb h).nextS = 0) (hholds : d.holds h = false) :
    ((taken c d).chWait c code w (.bandwait h v)).pollBandwait c = (taken c d).chWait c code w (.bandwait h v) := by
  have hw := within_taken_chWait c d code w (.bandwait h v)
  have hrd : ∀ r ∈ [Reg.tfbLbhStat, .tfbLbhHznSeq, .tfbLbhNewSeq],
      ((taken c d).chWait c code w (.bandwait h v)).rd r h = d.rd r h := fun r hr => by
    have hr' : ∀ r ∈ [Reg.tfbLbhStat, .tfbLbhHznSeq, .tfbLbhNewSeq],
        regFits r = true ∧ (regDesc r).win ≠ 9 ∧ 64 = (regDesc r).count := by decide
    obtain ⟨hfits, hwin, hcount⟩ := hr' r hr
    exact hw.rd (not_waitFoot_regs hfits hwin [] c (hcount ▸ hh))
  have hring' : ((taken c d).chWait c code w (.bandwait h v)).hasRing h = true := by
    rw [← hring, Dev.hasRing, Dev.hasRing, Dev.rdB, Dev.rdB, hrd _ (by simp)]
  have hlb : ((taken c d).chWait c code w (.bandwait h v)).lb h = d.lb h := rfl
  have hholds' : ((taken c d).chWait c code w (.bandwait h v)).holds h = false := by
    rw [← hholds, Dev.holds, Dev.holds, Dev.hznSeq, Dev.hznSeq, Dev.newSeq, Dev.newSeq, hrd _ (by simp),
      hrd _ (by simp), hlb]
  refine (Dev.pollBandwait_eq (run_chWait ..) rfl).trans ?_
  simp [hring', hlb, hnext, hholds']

/-- BANDWAIT reads its position and waits for it. -/
theorem chBandwaitOp_taken {c : Fin 512} {w : ChWord} {v : Word} {s : State} (hf : ChFresh c s) (hw : w.bare = true)
    (ht : w.target.toNat < 64) (hin : inProgram (s.dev.chAddr c w) 1 = true)
    (hv : decodeWord (s.dev.cell (s.dev.chAddr c w)) = .ok v) :
    chBandwaitOp c w s.dev = ((taken c s.dev).chWait c 0xCA w (.bandwait w.target.toNat v)).pollBandwait c := by
  have hread : (taken c s.dev).chRead ((taken c s.dev).chAddr c w) 1 = (.ok [v], taken c s.dev) := Dev.chRead_one hin hv
  have hstart := chStart_bare hf hw 0xCA (fields := w.plain && decide (w.target.toNat < 64)) (by simp [(w.bare_iff.1 hw).1, ht])
  refine (hstart _).trans ?_
  simp only [hread]
  rfl

/-! ### WAITEV (R303) -/

/-- What WAITEV meets as its word is taken. -/
theorem chWaitevOp_taken {c : Fin 512} {w : ChWord} {s : State} (hf : ChFresh c s) (hw : w.bare = true) (ha : w.a = 0) :
    chWaitevOp c w s.dev =
      if w.target.toNat < 320 then (taken c s.dev).chFinish c 0xC2 w 0x10 6 0 0
      else if srcKind w.target.toNat = .level && (s.dev.source w.target.toNat).e then
        (taken c s.dev).endWaitev c 0xC2 w w.target.toNat 0 0 (fld (s.dev.source w.target.toNat).rose 19 0)
      else match (if (tget s.dev.wev {} c).src = w.target.toNat then (tget s.dev.wev {} c).latched else none) with
        | some u => (taken c s.dev).endWaitev c 0xC2 w w.target.toNat 0 0 (fld u 19 0)
        | none => Dev.chWait { taken c s.dev with
            wev := tset s.dev.wev c { tget s.dev.wev {} c with waitSrc := some w.target.toNat, raised := none } }
            c 0xC2 w (.waitev w.target.toNat) := by
  have hstart := chStart_bare hf hw 0xC2 (fields := w.plain && w.a.val = 0) (by simp [(w.bare_iff.1 hw).1, ha])
  exact hstart _

/-- A WAITEV taken whose source is active, or was raised since the last one. -/
theorem ChFresh.endsWaitev {c : Fin 512} {w : ChWord} {s : State} (hf : ChFresh c s) (hw : w.bare = true) {f : Dev → Dev}
    {i value : Nat} (hop : f s.dev = (taken c s.dev).endWaitev c 0xC2 w i 0 0 value) :
    ∃ t, s.run f = .next t ∧ ChDone c 0 0 0 value s t ∧ tget t.dev.wev {} c = { src := i } ∧
      Only [.procs, .regs, .ibx, .wev] s t := by
  obtain ⟨hpow, -, -, -, -, hs⟩ := hf
  obtain ⟨-, -, -, -, hl, -⟩ := w.bare_iff.1 hw
  exact run_endWaitev hpow hop (within_taken _ (by simp [finishFoot, plainFoot]) c s.dev) rfl hl (by simp [taken, hs])

/-- A WAITEV taken whose source has not been raised waits, the source watched. -/
theorem ChFresh.waitsForSource {c : Fin 512} {w : ChWord} {s : State} (hf : ChFresh c s) {f : Dev → Dev} {x : Table WaitLatch}
    {op : ChanOp} (hop : f s.dev = Dev.chWait { taken c s.dev with wev := x } c 0xC2 w op) :
    ∃ t, s.run f = .next t ∧ ChWaits c 0xC2 w op s t ∧ Only [.regs, .ibx, .wev] s t := by
  obtain ⟨hpow, -⟩ := hf
  have hw : Within (waitFoot [.wev] c) s.dev { taken c s.dev with wev := x } :=
    (within_taken _ (by simp [waitFoot, plainFoot]) c s.dev).withWev (by simp [waitFoot, plainFoot]) x
  obtain ⟨t, ht, hwaits, hwithin, rfl⟩ := run_waits hpow hop hw (waits_waitFoot [.wev] c) rfl rfl
  exact ⟨_, ht, hwaits, hwithin.only⟩

/-! ### The statement -/

/-- Settles O26. -/
theorem channelWaits : Obligations.ChannelWaits := by
  unfold Obligations.ChannelWaits
  refine ⟨fun c w s hf hw ht hn ha => ?_, fun c w v s hf hw ht hin hv hpos => ?_, fun c w v s hf hw ht hin hv hpos hst => ?_,
    fun c a v r s h hreach => ?_, fun c a v r s h hst => ?_, fun c w s hf hw ha ht hk he => ?_,
    fun c w s hf hw ha ht hk hl => ?_, fun c w u s hf hw ha ht hk hsrc hl => ?_, fun c w s hf hw ha ht => ?_,
    fun c i r u s h hu => ?_, fun c w v s hf hw ht hin hv hring hnext hholds => ?_, fun c b v r s h hring hholds hhzn hend => ?_,
    fun c b v r s h hring hnext hhzn => ?_, fun c b v r s h hring => ?_, fun c i r s h hn hlim => ?_,
    fun c a v r s h hn hlim => ?_, fun c b v r s h hn hlim => ?_⟩
  · exact hf.completes hw (f := chNopOp c w) (chStart_bare hf hw 0xC0 (by simp [(w.bare_iff.1 hw).1, ChWord.only, ht, hn, ha]) _)
  · obtain ⟨t, hrun, hdone, -, honly⟩ := hf.completes hw (f := chPoswaitOp c w)
      ((chPoswaitOp_taken hf hw ht hin hv).trans (if_pos hpos))
    exact ⟨t, hrun, hdone, honly⟩
  · refine hf.waits (f := chPoswaitOp c w) ?_
    rw [chPoswaitOp_taken hf hw ht hin hv, hpos, if_neg (by decide), pollPoswait_chWait _ w ht hpos hst]
  · exact h.endsHere (f := poswaitReachedOp c) (h.poswaitReached.trans (if_pos hreach))
  · refine h.endsHere (f := poswaitReachedOp c) ?_
    rw [h.poswaitReached, Dev.axisReaches_of_fault hst, if_neg (by decide), if_pos hst]
  · refine hf.endsWaitev hw (f := chWaitevOp c w) ?_
    rw [chWaitevOp_taken hf hw ha, if_neg (by omega), if_pos (by simp [hk, he])]
  · refine hf.waitsForSource (f := chWaitevOp c w)
      (x := tset s.dev.wev c { tget s.dev.wev {} c with waitSrc := some w.target.toNat, raised := none }) ?_
    have hnone : (if (tget s.dev.wev {} c).src = w.target.toNat then (tget s.dev.wev {} c).latched else none) = none := by
      rcases hl with h | h <;> simp [h]
    rw [chWaitevOp_taken hf hw ha, if_neg (by omega), if_neg (by simpa [← imp_iff_not_or] using hk), hnone]
  · refine hf.endsWaitev hw (f := chWaitevOp c w) ?_
    rw [chWaitevOp_taken hf hw ha, if_neg (by omega), if_neg (by simpa [← imp_iff_not_or] using hk), if_pos hsrc, hl]
  · obtain ⟨t, hrun, hdone, -, honly⟩ := hf.completes hw (f := chWaitevOp c w)
      ((chWaitevOp_taken hf hw ha).trans (if_pos ht))
    exact ⟨t, hrun, hdone, honly⟩
  · exact h.endsWaitev (f := waitevRaisedOp c) (h.waitevRaised hu)
  · refine hf.waits (f := chBandwaitOp c w) ?_
    rw [chBandwaitOp_taken hf hw ht hin hv, pollBandwait_chWait _ w ht hring hnext hholds]
  · exact h.endsHere (f := bandwaitHeldOp c) (h.bandwaitHeld.trans (by simp [hring, hhzn, hholds, hend]))
  · exact h.endsHere (f := bandwaitHeldOp c) (h.bandwaitHeld.trans (by simp [hring, hnext, hhzn]))
  · exact h.endsHere (f := bandwaitHeldOp c) (h.bandwaitHeld.trans (by simp [hring]))
  · exact h.endsWaitev (f := waitLimitOp c) (h.limitPassed (by simp [limitUnit]) hn hlim)
  · exact h.endsHere (f := waitLimitOp c) (h.limitPassed (by simp [limitUnit]) hn hlim)
  · exact h.endsHere (f := waitLimitOp c) (h.limitPassed (by simp [limitUnit]) hn hlim)

end Sys2Proof
end

section
/-! PROOF SUPPORT. SRAM and the tile movers under a channel's transfer: reads that rest on no channel, writes with an injection armed or
not, and requests that engines take (R405, R423, R426, R461). -/

namespace Sys2Proof

open Machine

/-! ### Footprints -/

section
variable {F : Foot} {d₀ d : Dev} (h : Within F d₀ d)
include h

theorem Within.withMovers (hp : [Part.tmv, .hbc] ⊆ F.parts) (x : MoverState) (y : HbcState) :
    Within F d₀ { d with tmv := x, hbc := y } :=
  h.step (fun p hq => by cases p with | tmv | hbc => exact absurd (hp (by simp)) hq | _ => rfl) (fun _ _ => rfl) rfl

theorem Within.withTfb (hp : Part.tfb ∈ F.parts) (x : TfbState) : Within F d₀ { d with tfb := x } :=
  h.step (fun p hq => by cases p with | tfb => exact absurd hp hq | _ => rfl) (fun _ _ => rfl) rfl

theorem Within.withCex (hp : Part.cex ∈ F.parts) (x : CexState) : Within F d₀ { d with cex := x } :=
  h.step (fun p hq => by cases p with | cex => exact absurd hp hq | _ => rfl) (fun _ _ => rfl) rfl

theorem Within.withHif (hp : Part.hif ∈ F.parts) (x : HifState) : Within F d₀ { d with hif := x } :=
  h.step (fun p hq => by cases p with | hif => exact absurd hp hq | _ => rfl) (fun _ _ => rfl) rfl

theorem Within.sramStore (hp : [Part.sram, .regs] ⊆ F.parts) (hk : F.regs (regKey .edcInjCtl 0)) (a : Nat) (x : MemWord) :
    Within F d₀ (d.sramStore a x) := by
  unfold Dev.sramStore
  extract_lets m
  split
  · exact ((h.withSram (hp (by simp)) _).wrB (hp (by simp)) hk 8 false).wrB (hp (by simp)) hk 9 true
  · exact h.withSram (hp (by simp)) _

theorem Within.sramWritesAny (hp : [Part.sram, .regs] ⊆ F.parts) (hk : F.regs (regKey .edcInjCtl 0)) (a : Nat) (ws : List Word) :
    Within F d₀ (d.sramWrites a ws) := by
  induction ws generalizing d a with
  | nil => exact h
  | cons w ws ih => exact ih (h.sramStore hp hk a (goodWord w)) (a + 1)

end

/-! ### Full-word writes (R418, R426) -/

/-- What full-word writes may reach: the memory, and the injection that one of them takes. -/
def writeFoot : Foot := plainFoot [.sram, .regs] [regKey .edcInjCtl 0]

theorem within_sramWrites (d : Dev) (a : Nat) (ws : List Word) : Within writeFoot d (d.sramWrites a ws) :=
  (Within.refl _ d).sramWritesAny (by simp [writeFoot, plainFoot]) (by simp [writeFoot, plainFoot]) a ws

/-- The registers that an injection goes by (R426). -/
def injectionRegs : List Reg := [.edcCtl, .edcInjCtl, .edcInjAddr, .edcInjData]

/-- Two blocks write the same words into the same memory. -/
def SameWrites (d e : Dev) : Prop := e.sram = d.sram ∧ ∀ r ∈ injectionRegs, e.rd r 0 = d.rd r 0

theorem SameWrites.sramStore {d e : Dev} (h : SameWrites d e) (a : Nat) (x : MemWord) :
    SameWrites (d.sramStore a x) (e.sramStore a x) := by
  obtain ⟨hs, hr⟩ := h
  have hctl := hr .edcCtl (by decide)
  have hinj := hr .edcInjCtl (by decide)
  have haddr := hr .edcInjAddr (by decide)
  have hdata := hr .edcInjData (by decide)
  unfold Dev.sramStore Dev.rdB Dev.rdF
  rw [hctl, hinj, haddr, hdata]
  split
  · refine ⟨?_, fun r hr' => ?_⟩
    · simp [Dev.wrB, Dev.putCell, hs]
    · have hput : ∀ (f : Dev) (m : MemWord) (q : Reg), (f.putCell a m).rd q 0 = f.rd q 0 := fun _ _ _ => rfl
      simp only [Dev.wrB, Dev.rd_wr, hput, hinj, hr r hr']
  · exact ⟨by simp only [Dev.putCell, hs], hr⟩

theorem SameWrites.sramWrites {d e : Dev} (h : SameWrites d e) (a : Nat) (ws : List Word) :
    SameWrites (d.sramWrites a ws) (e.sramWrites a ws) := by
  induction ws generalizing d e a with
  | nil => exact h
  | cons w ws ih => exact ih (h.sramStore a (goodWord w)) (a + 1)

/-- A full-word write leaves every other word, with an injection or without. -/
theorem cell_sramStore_ne (d : Dev) {a b : Nat} (h : a ≠ b) (x : MemWord) : (d.sramStore a x).cell b = d.cell b := by
  unfold Dev.sramStore
  extract_lets m
  split <;> exact tget_memPut_ne _ _ _ h

theorem cell_sramWrites_beside (d : Dev) {a b : Nat} {ws : List Word} (h : b < a ∨ a + ws.length ≤ b) :
    (d.sramWrites a ws).cell b = d.cell b := by
  induction ws generalizing d a with
  | nil => rfl
  | cons w ws ih =>
    rw [List.length_cons] at h
    exact (ih (d.sramWrite a w) (a := a + 1) (by omega)).trans (cell_sramStore_ne d (by omega) _)

/-! ### Reads that nothing reports (R421–R423) -/

namespace Machine.Dev

variable {d : Dev}

/-- The errors corrected in region k that the next record counts (R432). -/
def correctedIn (d : Dev) (k : Nat) : Nat := tget d.hbc.corrected 0 k

theorem hbc_raisePerMs (d : Dev) (last : Option Word) (i : Nat) : (d.raisePerMs last i).2.hbc = d.hbc := by
  unfold raisePerMs
  split
  · split
    · rfl
    · simp
  · simp

/-- Every correction counts in its region. -/
theorem correctedIn_sramCe (r k : Nat) : (d.sramCe r).correctedIn k = if r = k then d.correctedIn k + 1 else d.correctedIn k := by
  have hcount : ((d.satF .edcRrCnt r 15 0 1).countCorrected r).correctedIn k =
      if r = k then d.correctedIn k + 1 else d.correctedIn k := by
    simp only [correctedIn, countCorrected, satF, wr_hbc, tget_tset]
    split
    · next e => rw [e]
    · rfl
  rw [← hcount]
  unfold sramCe
  extract_lets e y
  split
  · have hy : y.2.hbc = e.hbc := hbc_raisePerMs ..
    show tget y.2.hbc.corrected 0 k = tget e.hbc.corrected 0 k
    rw [hy]
  · rfl

/-- A read that succeeds takes no correction back; where it corrected, one more counts. -/
theorem sramRead_good {a : Nat} (h : (d.sramRead a).1.status = 0) :
    (∀ k, d.correctedIn k ≤ (d.sramRead a).2.correctedIn k) ∧
      (decodeWord (d.cell a) = .ok (d.sramRead a).1.word ∨ ∃ k, d.correctedIn k < (d.sramRead a).2.correctedIn k) := by
  unfold sramRead at h ⊢
  cases hd : decodeWord (d.cell a) with
  | ok w => exact ⟨fun k => le_rfl, .inl rfl⟩
  | corrected w =>
    generalize (sramRegion a).getD 0 = r
    have hc : ∀ k, ((d.putCell a (goodWord w)).sramCe r).correctedIn k = if r = k then d.correctedIn k + 1 else d.correctedIn k :=
      correctedIn_sramCe r
    refine ⟨fun k => ?_, .inr ⟨r, ?_⟩⟩
    · simp only [hc]
      split <;> omega
    · simp [hc]
  | uncorrectable w => simp [hd, SramRead.status] at h
  | poison w => simp [hd, SramRead.status] at h

theorem sramReads_succ (a n : Nat) :
    d.sramReads a (n + 1) =
      if (d.sramRead a).1.status ≠ 0 then ([], (d.sramRead a).1.status, (d.sramRead a).2)
      else ((d.sramRead a).1.word :: ((d.sramRead a).2.sramReads (a + 1) n).1, ((d.sramRead a).2.sramReads (a + 1) n).2) := rfl

theorem correctedIn_sramReads (n : Nat) : ∀ {d : Dev} {a : Nat}, (d.sramReads a n).2.1 = 0 →
    ∀ k, d.correctedIn k ≤ (d.sramReads a n).2.2.correctedIn k := by
  induction n with
  | zero => exact fun _ k => le_rfl
  | succ n ih =>
    intro d a h k
    rw [sramReads_succ] at h ⊢
    by_cases hx : (d.sramRead a).1.status = 0
    · simp only [hx, ne_eq, not_true_eq_false, if_false] at h ⊢
      exact ((sramRead_good hx).1 k).trans (ih h k)
    · simp [hx] at h

/-- Words whose reading leaves the block as it was all decode. -/
theorem decode_of_sramReads {a n : Nat} {ws : List Word} (h : d.sramReads a n = (ws, 0, d)) :
    ws.length = n ∧ ∀ i (hi : i < ws.length), decodeWord (d.cell (a + i)) = .ok ws[i] := by
  induction n generalizing a ws with
  | zero =>
    obtain rfl : ws = [] := (congrArg Prod.fst h).symm
    exact ⟨rfl, nofun⟩
  | succ n ih =>
    rw [sramReads_succ] at h
    by_cases hx : (d.sramRead a).1.status = 0
    · simp only [hx, ne_eq, not_true_eq_false, if_false, Prod.mk.injEq] at h
      obtain ⟨rfl, hrest⟩ := h
      have hread : decodeWord (d.cell a) = .ok (d.sramRead a).1.word := by
        rcases (sramRead_good hx).2 with hok | ⟨k, hk⟩
        · exact hok
        · have hle := correctedIn_sramReads n (congrArg Prod.fst hrest) k
          rw [hrest] at hle
          exact absurd hk (Nat.not_lt.2 hle)
      have hdev : (d.sramRead a).2 = d := congrArg Prod.snd (sramRead_ok hread)
      rw [hdev] at hrest ⊢
      obtain ⟨hlen, hall⟩ := ih (Prod.ext rfl hrest)
      refine ⟨by rw [List.length_cons, hlen], fun i hi => ?_⟩
      cases i with
      | zero => simpa only [Nat.add_zero, List.getElem_cons_zero] using hread
      | succ i =>
        have hword := hall i (by simpa using hi)
        rwa [Nat.add_assoc, Nat.add_comm 1 i] at hword
    · simp [hx] at h

/-- Words of the program area that a command reads, all of which decode. -/
theorem decode_of_chRead {a n : Nat} {ws : List Word} (h : d.chRead a n = (.ok ws, d)) :
    inProgram a n = true ∧ d.sramReads a n = (ws, 0, d) := by
  unfold chRead at h
  by_cases hin : inProgram a n = true
  · rw [hin, if_neg (by decide)] at h
    obtain ⟨hres, hdev⟩ := Prod.mk.inj h
    by_cases hst : (d.sramReads a n).2.1 = 0
    · rw [if_neg (not_not.2 hst)] at hres
      exact ⟨hin, Prod.ext (Except.ok.inj hres) (Prod.ext hst hdev)⟩
    · rw [if_pos hst] at hres
      exact absurd hres nofun
  · simp [hin] at h

/-- The same words are read from the same memory. -/
theorem chRead_of_sram {e : Dev} {a n : Nat} {ws : List Word} (h : d.chRead a n = (.ok ws, d)) (hs : e.sram = d.sram) :
    e.chRead a n = (.ok ws, e) := by
  obtain ⟨hin, hread⟩ := decode_of_chRead h
  obtain ⟨rfl, hall⟩ := decode_of_sramReads hread
  have hcell : ∀ b, e.cell b = d.cell b := fun b => by simp only [cell, hs]
  have he : e.sramReads a ws.length = (ws, 0, e) := sramReads_ok fun i hi => (hcell _).symm ▸ hall i hi
  simp [chRead, hin, he]

/-! ### Requests to the movers (R461) -/

/-- Engines that take requests change the movers and their buffer alone. -/
theorem assignEngines_eq (d : Dev) : d.assignEngines = { d with tmv := d.assignEngines.tmv, hbc := d.assignEngines.hbc } := by
  refine forUpTo_keeps (fun e : Dev => e = { d with tmv := e.tmv, hbc := e.hbc }) 8 _ d rfl fun _ e he => ?_
  unfold takeEngine
  split
  · rw [he]
  · exact he

theorem askMover_eq (d : Dev) (u : MoverUser) (n : Nat) (w : Bool) :
    d.askMover u n w = { d with tmv := (d.askMover u n w).tmv, hbc := (d.askMover u n w).hbc } := by
  unfold askMover
  split
  · rfl
  · rw [assignEngines_eq]

theorem leaveMover_eq (d : Dev) (u : MoverUser) :
    d.leaveMover u = { d with tmv := (d.leaveMover u).tmv, hbc := (d.leaveMover u).hbc } := by
  unfold leaveMover
  split
  · rfl
  · rw [assignEngines_eq]

end Machine.Dev

/-- What a request asks for. -/
def Machine.MoverReq.asks (q : MoverReq) : Nat × Bool := (q.words, q.write)

/-- A map of the requests that keeps their users finds each where it was. -/
theorem find?_user_map {f : MoverReq → MoverReq} (hf : ∀ q, (f q).user = q.user) (l : List MoverReq) (u : MoverUser) :
    (l.map f).find? (fun q => q.user = u) = (l.find? (fun q => q.user = u)).map f := by
  rw [List.find?_map]
  simp [hf]

/-- An engine that takes a request leaves what each user asks for. -/
theorem asks_takeEngine (d : Dev) (u : MoverUser) :
    (d.takeEngine.moverReq u).map MoverReq.asks = (d.moverReq u).map MoverReq.asks := by
  unfold Dev.takeEngine
  split
  · unfold Dev.moverReq
    rw [find?_user_map fun q => by split <;> rfl, Option.map_map]
    exact congrArg (fun g => Option.map g _) (funext fun q => by simp only [Function.comp]; split <;> rfl)
  · rfl

theorem asks_assignEngines (d : Dev) (u : MoverUser) :
    (d.assignEngines.moverReq u).map MoverReq.asks = (d.moverReq u).map MoverReq.asks :=
  forUpTo_keeps (fun e : Dev => (e.moverReq u).map MoverReq.asks = (d.moverReq u).map MoverReq.asks) 8 _ d rfl
    fun _ e he => (asks_takeEngine e u).trans he

/-- A user that asks is in the queue with what it asked for. -/
theorem asks_askMover {d : Dev} {u : MoverUser} (h : d.moverReq u = none) (n : Nat) (w : Bool) :
    ((d.askMover u n w).moverReq u).map MoverReq.asks = some (n, w) := by
  unfold Dev.askMover
  rw [if_neg (by simp [h]), asks_assignEngines]
  have hnone : d.tmv.reqs.find? (fun q => q.user = u) = none := h
  simp [Dev.moverReq, List.find?_append, hnone, MoverReq.asks]

/-- A user that leaves has no request. -/
theorem moverReq_leaveMover (d : Dev) (u : MoverUser) : (d.leaveMover u).moverReq u = none := by
  unfold Dev.leaveMover
  split
  · next h => exact Option.isNone_iff_eq_none.1 h
  · refine Option.map_eq_none_iff.1 ((asks_assignEngines _ u).trans ?_)
    simp [Dev.moverReq]

/-- A request that goes to the tail of the queue with what is left of it once a segment is done. -/
def Machine.Dev.requeue (d : Dev) (u : MoverUser) (q : MoverReq) : Dev :=
  { d with tmv := { d.tmv with reqs := d.tmv.reqs.filter (fun r => r.user ≠ u) ++
      [{ q with words := q.words - segmentWords, run := none }] } }

/-- The end of a segment with another request waiting (R461). -/
theorem engineTurn_segment {d : Dev} {u : MoverUser} {q : MoverReq} (h : d.moverReq u = some q) (hrun : q.run.isSome = true)
    (hw : segmentWords < q.words) (hwaits : d.moverWaits = true) : d.engineTurn u = (false, (d.requeue u q).assignEngines) := by
  obtain ⟨run, hrun⟩ := Option.isSome_iff_exists.1 hrun
  simp [Dev.engineTurn, h, hrun, hw, hwaits, Dev.requeue]

/-- The request requeued asks for what is left of it. -/
theorem asks_requeue {d : Dev} {u : MoverUser} {q : MoverReq} (h : d.moverReq u = some q) :
    ((d.requeue u q).assignEngines.moverReq u).map MoverReq.asks = some (q.words - segmentWords, q.write) := by
  have huser : q.user = u := by simpa using List.find?_some h
  have hrest : (d.tmv.reqs.filter (fun r => r.user ≠ u)).find? (fun r => r.user = u) = none := by simp
  refine (asks_assignEngines _ u).trans ?_
  rw [Dev.moverReq, Dev.requeue, List.find?_append, hrest]
  simp [huser, MoverReq.asks]

/-- The block with the engines last at work (R439). -/
def Machine.Dev.atWork (d : Dev) (turn : Nat × Nat) : Dev := { d with tmv := { d.tmv with turn := turn } }

/-- The engines of a request work to its end (R461): nothing of it is left to wait for. -/
theorem engineTurn_end {d : Dev} {u : MoverUser} {q : MoverReq} (h : d.moverReq u = some q) (hrun : q.run.isSome = true)
    (hw : q.words ≤ segmentWords ∨ d.moverWaits = false) :
    ∃ turn, d.engineTurn u = (true, d.atWork turn) := by
  obtain ⟨run, hrun⟩ := Option.isSome_iff_exists.1 hrun
  have hlast : (segmentWords < q.words && d.moverWaits) = false := by
    rcases hw with hw | hw <;> simp [hw]
  exact ⟨(run.reader, run.writer.getD run.reader), by simp only [Dev.engineTurn, h, hrun, hlast, Bool.false_eq_true, if_false, Dev.atWork]⟩

/-- A user that no engine works for is left as it is. -/
theorem engineTurn_idle {d : Dev} {u : MoverUser} (h : d.moverRun? u = none) : d.engineTurn u = (false, d) := by
  unfold Dev.engineTurn
  cases hq : d.moverReq u with
  | none => rfl
  | some q =>
    have hrun : q.run = none := by simpa [Dev.moverRun?, hq] using h
    simp only [hrun]

end Sys2Proof
end

section
/-! PROOF. O28: MOVE, QUERY, QTAKE, RETRO and POST (R297, R312–R314, R316, R318–R320, R461, R467). -/

namespace Sys2Proof

open Machine

/-! ### A transfer that starts (R296, R312) -/

/-- The gather that a word alone opens towards SRAM. -/
def aloneTo (dest : Nat) (trailer wet : Bool) : Gather := { dest := some (.sram dest), trailer := trailer, n := 1, wet := wet }

/-- The block as a transfer's first word opens its gather towards SRAM. -/
def opened (c : Nat) (dest : Nat) (trailer : Bool) (d : Dev) : Dev :=
  (taken c d).setChan c { (taken c d).chan c with gather := some (aloneTo dest trailer true) }

/-- A descriptor in order, its destination in the program area, opens the gather. -/
theorem xferStart_first {d : Dev} {c code : Nat} {w : ChWord} {query : Bool} {ws : List Word} (hg : (d.chan c).gather = none)
    (hw : w.bare = true) (hres : xferReserved query true ws = false) (hlen : (xferOf ws).len ≤ 262144) (hkind : (xferOf ws).kind = 0)
    (hin : inProgram (xferOf ws).dest.toNat 0 = true) (hdest : (xferOf ws).dest.toNat < 0x7A1000) (next : Xfer → Dev → Dev) :
    (taken c d).xferStart c code w query ws next =
      next (xferOf ws) (opened c (xferOf ws).dest.toNat (xferOf ws).trailer d) := by
  obtain ⟨-, -, hdry, -⟩ := w.bare_iff.1 hw
  have hgather : (taken c d).gatherOf c w = { wet := true } := by simp [Dev.gatherOf, taken, hg, hdry]
  have hto : (taken c d).xferDest (xferOf ws) = .ok (.sram (xferOf ws).dest.toNat) := by simp [Dev.xferDest, hkind, hin, hdest]
  simp [Dev.xferStart, hgather, hres, hto, Nat.not_lt.2 hlen, opened, aloneTo]

/-- Opening a gather leaves everything but the channels. -/
theorem within_opened (F : Foot) (hp : Part.ibx ∈ F.parts) (c dest : Nat) (trailer : Bool) (d : Dev) :
    Within F d (opened c dest trailer d) := by
  unfold opened Dev.setChan
  exact (within_taken F hp c d).withIbx hp _

theorem chan_opened (c dest : Nat) (trailer : Bool) (d : Dev) :
    (opened c dest trailer d).chan c = { (taken c d).chan c with gather := some (aloneTo dest trailer true) } :=
  Dev.chan_setChan_same ..

/-- MOVE asks the movers for its words and waits for them (R313). -/
theorem chMoveOp_taken {c : Fin 512} {w : ChWord} {ws : List Word} {src dest n : Nat} {s : State} (hf : ChFresh c s)
    (hw : w.bare = true) (ht : w.target = 0) (hn : w.count.toNat = n) (hpos : 0 < n)
    (hread : s.dev.chRead (s.dev.chAddr c w) 4 = (.ok ws, s.dev))
    (hx : xferOf ws = { kind := 0, trailer := false, func := 0, source := src, dest := wordOf dest, haddr := 0, len := 0 })
    (hres : xferReserved false true ws = false) (hdest : dest < 0x7A1000) (hin : inProgram dest n = true)
    (hsrc : sourceOk src n = true) :
    chMoveOp c w s.dev = ((opened c dest false s.dev).askMover (.move c) n true).chWait c 0xD0 w (.move src n) := by
  have hread' := Dev.chRead_of_sram (e := taken c s.dev) hread rfl
  have haddr : (taken c s.dev).chAddr c w = s.dev.chAddr c w := rfl
  obtain ⟨-, -, -, hg, -⟩ := id hf
  have hword : (wordOf dest).toNat = dest := by
    rw [wordOf, BitVec.toNat_ofNat, Nat.mod_eq_of_lt (by omega)]
  have hin0 : inProgram dest 0 = true := by
    simp only [inProgram, Bool.and_eq_true, decide_eq_true_eq] at hin ⊢
    omega
  have hstart := fun next => xferStart_first (c := c) (code := 0xD0) hg hw hres (by simp [hx]) (by simp [hx])
    (by simpa [hx, hword] using hin0) (by simpa [hx, hword] using hdest) next
  refine (chStart_bare hf hw 0xD0 (by simp [ht]) _).trans ?_
  simp only [haddr, hread', hstart, hx, hword, chan_opened]
  have hcount : w.count ≠ 0#12 := by
    rintro h
    simp [h] at hn
    omega
  simp [hcount, ChWord.n, hn, hsrc, Dev.destFits, aloneTo, hin]

/-- QUERY joins the queue of queries and waits for its end (R314). -/
theorem chQueryOp_taken {c : Fin 512} {w : ChWord} {ws : List Word} {s : State} (hf : ChFresh c s) (hw : w.bare = true)
    (ht : w.target = 0) (hread : s.dev.chRead (s.dev.chAddr c w) 10 = (.ok ws, s.dev))
    (hres : xferReserved true true (ws.drop 6) = false) (hlen : (xferOf (ws.drop 6)).len ≤ 262144)
    (hkind : (xferOf (ws.drop 6)).kind = 0) (hin : inProgram (xferOf (ws.drop 6)).dest.toNat 0 = true)
    (hdest : (xferOf (ws.drop 6)).dest.toNat < 0x7A1000) :
    chQueryOp c w s.dev =
      ((opened c (xferOf (ws.drop 6)).dest.toNat (xferOf (ws.drop 6)).trailer s.dev).submitQuery (.channel c) (s.dev.chClass c)
        (ws.take 6)).chWait c 0xD1 w (.query s.dev.tfb.nextQuery) := by
  have hread' := Dev.chRead_of_sram (e := taken c s.dev) hread rfl
  have haddr : (taken c s.dev).chAddr c w = s.dev.chAddr c w := rfl
  obtain ⟨-, -, -, hg, -⟩ := id hf
  have hstart := fun next => xferStart_first (c := c) (code := 0xD1) hg hw hres hlen hkind hin hdest next
  refine (chStart_bare hf hw 0xD1 (by simp [ht]) _).trans ?_
  simp only [haddr, hread', hstart, chan_opened]
  rfl

/-! ### A transfer that ends (R293, R297, R461) -/

/-- A word alone that delivers to SRAM, with no trailer to follow: its words are written and it completes. -/
theorem xferWord_alone {d : Dev} {c code dest : Nat} {w : ChWord} {wet : Bool} {ws : List Word} (hw : w.bare = true)
    (hg : (d.chan c).gather = some (aloneTo dest false wet)) (hin : inProgram dest ws.length = true) (sub : Nat) :
    d.xferWord c code w 0 sub ws 0 false =
      (d.sramWrites dest ws).chFinish c code w 0 0 0 (min ws.length 0xFFFFF) := by
  obtain ⟨-, hmore, hdry, hstrict, -⟩ := w.bare_iff.1 hw
  simp [Dev.xferWord, hg, aloneTo, Dev.destFits, hin, hdry, Dev.deliver, hmore, shortOr, hstrict, Dev.xferEnd, Dev.trailerGoes]

/-- What a command that delivers may reach beside the parts listed: any register, since it may take an injection (R426). -/
def deliverFoot (ps : List Part) (c : Nat) : Foot := (finishFoot ps c).anyRegs

theorem finishes_deliverFoot (ps : List Part) (c : Nat) : (deliverFoot ps c).Finishes c where
  parts := by simp [deliverFoot, Foot.anyRegs, finishFoot, plainFoot]
  stat := trivial
  procs := by simp [deliverFoot, Foot.anyRegs, finishFoot, plainFoot]
  cmds := trivial

/-- A command that writes its words into SRAM and completes, after changes that leave the memory and the channel's processor. -/
theorem run_delivers {c : Fin 512} {ps : List Part} {s : State} {f : Dev → Dev} {d : Dev} {ws : List Word}
    {code dest st sub resid value : Nat} {w : ChWord} (hp : s.dev.powered = true)
    (hf : f s.dev = (d.sramWrites dest ws).chFinish c code w st sub resid value) (h : Within (deliverFoot (.sram :: ps) c) s.dev d)
    (hsame : SameWrites s.dev d) (hproc : d.proc c = s.dev.proc c) (hl : w.last = false) (hs : (d.chan c).suspReq = false) :
    ∃ t, s.run f = .next t ∧ ChDone c st sub resid value s t ∧ t.dev.sram = (s.dev.sramWrites dest ws).sram ∧
      SramOnly dest ws.length s t ∧ Only (.procs :: .regs :: .ibx :: .sram :: ps) s t ∧
      t.dev = (d.sramWrites dest ws).chFinish c code w st sub resid value := by
  have hw := within_sramWrites d dest ws
  have hprocs : (d.sramWrites dest ws).procs = d.procs := hw.parts .procs (by decide)
  have hibx : (d.sramWrites dest ws).ibx = d.ibx := hw.parts .ibx (by decide)
  have hs' : ((d.sramWrites dest ws).chan c).suspReq = false := by rwa [Dev.chan, hibx]
  have hd := h.sramWritesAny (by simp [deliverFoot, Foot.anyRegs, finishFoot, plainFoot]) trivial dest ws
  obtain ⟨t, ht, hdone, hfin, rfl⟩ := run_finishes hp hf hd (finishes_deliverFoot _ c) (by rw [Dev.proc, hprocs]; exact hproc) hl hs'
  have hsram : ((d.sramWrites dest ws).chFinish c code w st sub resid value).sram = (d.sramWrites dest ws).sram :=
    same_chFinishOn (p := .sram) (by decide) hl hs' ..
  refine ⟨_, ht, hdone, hsram.trans (hsame.sramWrites dest ws).1, fun b hb => ?_, hfin.only, rfl⟩
  calc Dev.cell _ b = (d.sramWrites dest ws).cell b := by simp only [Dev.cell, hsram]
    _ = d.cell b := cell_sramWrites_beside d hb
    _ = s.dev.cell b := by simp only [Dev.cell, hsame.1]

/-- Writes and the end of a command leave what is not theirs. -/
theorem same_deliver {p : Part} (hp : p ∉ [Part.procs, .regs, .ibx, .sram]) {d : Dev} {c dest : Nat} {ws : List Word} {w : ChWord}
    (hl : w.last = false) (hs : (d.chan c).suspReq = false) (code st sub resid value : Nat) :
    p.same d ((d.sramWrites dest ws).chFinish c code w st sub resid value) := by
  have hw := within_sramWrites d dest ws
  have hibx : (d.sramWrites dest ws).ibx = d.ibx := hw.parts .ibx (by decide)
  refine Part.same_trans (hw.parts p fun h => hp ?_) (same_chFinishOn (fun h => hp ?_) hl (by rwa [Dev.chan, hibx]) ..)
  · simp only [writeFoot, plainFoot, List.mem_cons, List.not_mem_nil, or_false] at h
    rcases h with rfl | rfl <;> simp
  · simp only [List.mem_cons, List.not_mem_nil, or_false] at h
    rcases h with rfl | rfl | rfl <;> simp

/-- Words outside staging are read whole through a buffer with no word in error (R405, R423). -/
theorem fillBuffer_good {d : Dev} {a : Nat} {ws : List Word} (hx : d.hbc.xfer = []) (hr : sramRegion a ≠ some 0)
    (hall : ∀ i (hi : i < ws.length), decodeWord (d.cell (a + i)) = .ok ws[i]) (u : MoverUser) :
    d.fillBuffer u a ws.length = (ws, 0, d) := by
  have hread : d.moverRead a ws.length = (ws, 0, d) := by
    simp [Dev.moverRead, hr, Dev.sramReads_ok hall]
  simp [Dev.fillBuffer, hread, Dev.passBuffer, hx]

/-- The block as a MOVE's words have left the movers. -/
def moved (c : Nat) (d : Dev) : Dev := (d.leaveMover (.move c)).wrapF .tmvDone 0 31 0 1

theorem moved_eq (c : Nat) (d : Dev) :
    moved c d = { d with tmv := (moved c d).tmv, hbc := (moved c d).hbc, regs := (moved c d).regs } := by
  unfold moved Dev.wrapF Dev.wr
  rw [Dev.leaveMover_eq]

theorem rd_moved {r : Reg} (h : regKey .tmvDone 0 ≠ regKey r 0) (c : Nat) (d : Dev) : (moved c d).rd r 0 = d.rd r 0 := by
  unfold moved Dev.wrapF
  rw [Dev.rd_wr_ne _ _ h, Dev.leaveMover_eq]
  rfl

/-- TRANSFER_DONE of a MOVE whose engines work to its end: its words go to their destination. -/
theorem transferDoneOp_move {c : Fin 512} {src n dest : Nat} {wet : Bool} {ws : List Word} {q : MoverReq} {r : ChanRun} {s : State}
    (h : ChWaiting c (.move src n) r s) (hw : r.w.bare = true)
    (hg : (s.dev.chan c).gather = some (aloneTo dest false wet)) (hq : s.dev.moverReq (.move c) = some q)
    (hrun : q.run.isSome = true) (hend : q.words ≤ segmentWords ∨ s.dev.moverWaits = false) (hx : s.dev.hbc.xfer = [])
    (hr : sramRegion src ≠ some 0) (hlen : ws.length = n)
    (hall : ∀ i (hi : i < ws.length), decodeWord (s.dev.cell (src + i)) = .ok ws[i]) (hin : inProgram dest n = true) :
    ∃ turn, transferDoneOp c s.dev =
      ((moved c (s.dev.atWork turn)).sramWrites dest ws).chFinish c r.code r.w 0 0 0 (min n 0xFFFFF) := by
  obtain ⟨-, hon, hst, hchan, hop, -⟩ := h
  subst hlen
  obtain ⟨turn, hturn⟩ := engineTurn_end hq hrun hend
  refine ⟨turn, ?_⟩
  have hfill : (s.dev.atWork turn).fillBuffer (.move c) src ws.length = (ws, 0, s.dev.atWork turn) :=
    fillBuffer_good (d := s.dev.atWork turn) hx hr hall _
  have hg' : ((moved c (s.dev.atWork turn)).chan c).gather = some (aloneTo dest false wet) := by
    rw [moved_eq]
    exact hg
  have hunits : moveUnits r.code r.w 0 = 0 := by simp [moveUnits]
  simp only [transferDoneOp, hon, hst, hchan, hop, hturn, Dev.runMove, hfill, Nat.sub_self, hunits]
  exact xferWord_alone hw hg' hin 0

end Sys2Proof
end

section
/-! PROOF SUPPORT. Completion rings: what an entry put on a ring changes, in the ring and behind it (R489, R504, R505, R508). -/

namespace Sys2Proof

open Machine

/-! ### An entry put on a ring -/

/-- One entry put on ring r, the held ones before it (R504, R505). -/
def putEntry (r : Nat) (d : Dev) (e : List Byte) : Dev :=
  let d := Dev.cqFlush r (d.cqHeld r) d
  if d.cqHeld r = 0 && 0 < d.cqRoom r then d.cqWrite r e
  else if 0 < d.holdFree r then d.holdPut r e
  else d.satF .hifFfCqcCount r 47 32 1

theorem cqPut_eq (d : Dev) (r : Nat) (es : List (List Byte)) : d.cqPut r es = (es.foldl (putEntry r) d).cqAnnounce r (d.cqProd r) := rfl

/-- No held entry of a ring can move: none is held, or the ring is full. -/
def NoneMoves (r : Nat) (d : Dev) : Prop := d.cqHeld r = 0 ∨ d.cqRoom r = 0

theorem cqFlush_of_noneMoves {r : Nat} {d : Dev} (h : NoneMoves r d) (n : Nat) : Dev.cqFlush r n d = d := by
  cases n with
  | zero => rfl
  | succ n => exact if_pos (by simpa [NoneMoves] using h)

/-- An entry goes into a ring that holds none and has room. -/
theorem putEntry_room {r : Nat} {d : Dev} (hh : d.cqHeld r = 0) (hr : 0 < d.cqRoom r) (e : List Byte) :
    putEntry r d e = d.cqWrite r e := by
  simp [putEntry, cqFlush_of_noneMoves (.inl hh), hh, hr]

/-- An entry goes behind a full ring, or is lost. -/
theorem putEntry_full {r : Nat} {d : Dev} (hr : d.cqRoom r = 0) (e : List Byte) :
    putEntry r d e = if 0 < d.holdFree r then d.holdPut r e else d.satF .hifFfCqcCount r 47 32 1 := by
  simp [putEntry, cqFlush_of_noneMoves (.inr hr), hr]

/-! ### What a ring's registers read after an entry -/

section
variable (d : Dev) (r : Nat) (e : List Byte)

/-- Every register but the ring's status and count stands as an entry is written. -/
theorem rd_cqWrite {q : Reg} (hs : regApart .hifFfCqcStat q = true) (hc : regApart .hifFfCqcCount q = true) (i : Nat) :
    (d.cqWrite r e).rd q i = d.rd q i := by
  unfold Dev.cqWrite Dev.wrapF Dev.wrF
  simp only [Dev.rd_wr_apart _ hc, Dev.rd_wr_apart _ hs]
  unfold Dev.hostWrite
  split <;> rfl

/-- So do the fields of the status above the producer index. -/
theorem rdF_cqWrite_stat {hi lo : Nat} (h : 16 < lo) : (d.cqWrite r e).rdF .hifFfCqcStat r hi lo = d.rdF .hifFfCqcStat r hi lo := by
  have hhost : ∀ f a b, (d.hostWrite f a b).rd .hifFfCqcStat r = d.rd .hifFfCqcStat r := fun f a b => by
    unfold Dev.hostWrite
    split <;> rfl
  unfold Dev.cqWrite Dev.wrapF
  rw [Dev.rdF, Dev.rd_wr_apart _ (by decide), ← Dev.rdF, Dev.rdF_wrF_disj _ (by decide) r r _ (.inl h), Dev.rdF, hhost, Dev.rdF]

end

end Sys2Proof
end

section
/-! PROOF. O28: what MOVE, QUERY, QTAKE and RETRO do, a rule for each (R312–R314, R316, R318, R319, R461). -/

namespace Sys2Proof

open Machine

/-- Words counted from an address, all in order: the list has each at its place. -/
theorem getElem_of_getD {P : Nat → Word → Prop} {n : Nat} {ws : List Word} (hlen : ws.length = n)
    (h : ∀ i : Fin n, P i (ws.getD i 0)) (i : Nat) (hi : i < ws.length) : P i ws[i] := by
  have := h ⟨i, hlen ▸ hi⟩
  rwa [List.getD_eq_getElem _ _ hi] at this

/-! ### MOVE (R313, R461) -/

theorem asks_eq_iff {q : MoverReq} {n : Nat} {w : Bool} : q.asks = (n, w) ↔ q.words = n ∧ q.write = w := Prod.mk_inj

theorem tmv_opened (c dest : Nat) (trailer : Bool) (d : Dev) : (opened c dest trailer d).tmv = d.tmv := rfl

theorem chMove_waits {c : Fin 512} {w : ChWord} {ws : List Word} {src dest n : Nat} {s : State} (hf : ChFresh c s)
    (hw : w.bare = true) (ht : w.target = 0) (hn : w.count.toNat = n) (hpos : 0 < n)
    (hread : s.dev.chRead (s.dev.chAddr c w) 4 = (.ok ws, s.dev))
    (hx : xferOf ws = { kind := 0, trailer := false, func := 0, source := src, dest := wordOf dest, haddr := 0, len := 0 })
    (hres : xferReserved false true ws = false) (hdest : dest < 0x7A1000) (hin : inProgram dest n = true)
    (hsrc : sourceOk src n = true) (hq : s.dev.moverReq (.move c) = none) :
    ∃ t, exec (.chMove c w) s = .next t ∧ ChWaits c 0xD0 w (.move src n) s t ∧
      (t.dev.chan c).gather = some (aloneTo dest false true) ∧
      (∃ q ∈ t.dev.moverReq (.move c), q.words = n ∧ q.write = true) ∧ Only [.regs, .ibx, .tmv, .hbc] s t := by
  have hnone : (opened c dest false s.dev).moverReq (.move c) = none := by simpa only [Dev.moverReq, tmv_opened] using hq
  have hasks := asks_askMover hnone n true
  have heq := Dev.askMover_eq (opened c dest false s.dev) (.move c) n true
  have hwithin : Within (waitFoot [.tmv, .hbc] c) s.dev ((opened c dest false s.dev).askMover (.move c) n true) := by
    rw [heq]
    exact (within_opened _ (by simp [waitFoot, plainFoot]) ..).withMovers (by simp [waitFoot, plainFoot]) ..
  have hop := chMoveOp_taken hf hw ht hn hpos hread hx hres hdest hin hsrc
  obtain ⟨t, ht, hwaits, hfoot, rfl⟩ := run_waits hf.1 hop hwithin (waits_waitFoot _ c) (by rw [heq]; rfl) (by rw [heq]; rfl)
  refine ⟨_, ht, hwaits, ?_, ?_, hfoot.only⟩
  · simp only [Dev.chWait, Dev.chan_setChState, Dev.chan_setChan_same]
    rw [heq]
    exact congrArg Chan.gather (chan_opened ..)
  · obtain ⟨q, hq', hqa⟩ := Option.map_eq_some_iff.1 hasks
    exact ⟨q, hq', asks_eq_iff.1 hqa⟩

theorem transferDone_move {c : Fin 512} {src n dest : Nat} {wet : Bool} {ws : List Word} {q : MoverReq} {r : ChanRun} {s : State}
    (h : ChWaiting c (.move src n) r s) (hw : r.w.bare = true)
    (hg : (s.dev.chan c).gather = some (aloneTo dest false wet)) (hq : s.dev.moverReq (.move c) = some q)
    (hrun : q.run.isSome = true) (hend : q.words ≤ segmentWords ∨ s.dev.moverWaits = false) (hx : s.dev.hbc.xfer = [])
    (hr : sramRegion src ≠ some 0) (hlen : ws.length = n)
    (hall : ∀ i (hi : i < ws.length), decodeWord (s.dev.cell (src + i)) = .ok ws[i]) (hin : inProgram dest n = true) :
    ∃ t, exec (.transferDone c) s = .next t ∧ ChDone c 0 0 0 (min n 0xFFFFF) s t ∧
      t.dev.sram = (s.dev.sramWrites dest ws).sram ∧ SramOnly dest n s t ∧ t.dev.moverReq (.move c) = none ∧
      Only [.procs, .regs, .ibx, .sram, .tmv, .hbc] s t := by
  obtain ⟨turn, hop⟩ := transferDoneOp_move h hw hg hq hrun hend hx hr hlen hall hin
  obtain ⟨hpow, -, -, -, -, -, hl, hs⟩ := h
  have heq := moved_eq c (s.dev.atWork turn)
  have hsame : SameWrites s.dev (moved c (s.dev.atWork turn)) := by
    refine ⟨by rw [heq]; rfl, fun reg hreg => ?_⟩
    have hkey : ∀ q ∈ injectionRegs, regKey .tmvDone 0 ≠ regKey q 0 := by decide
    exact rd_moved (hkey reg hreg) c _
  have hwithin : Within (deliverFoot [.sram, .tmv, .hbc] c) s.dev (moved c (s.dev.atWork turn)) := by
    unfold moved
    rw [Dev.leaveMover_eq]
    exact ((Within.refl _ s.dev).withMovers (by simp [deliverFoot, Foot.anyRegs, finishFoot, plainFoot]) ..).wr
      (by simp [deliverFoot, Foot.anyRegs, finishFoot, plainFoot]) trivial _
  have hs' : ((moved c (s.dev.atWork turn)).chan c).suspReq = false := by
    rw [heq]
    exact hs
  obtain ⟨t, ht, hdone, hsram, honly, hparts, hdev⟩ := run_delivers hpow hop hwithin hsame (by rw [heq]; rfl) hl hs'
  refine ⟨t, ht, hdone, hsram, hlen ▸ honly, ?_, hparts⟩
  have htmv : t.dev.tmv = (moved c (s.dev.atWork turn)).tmv := by
    rw [hdev]
    exact same_deliver (p := .tmv) (by decide) hl hs' ..
  have hleft := moverReq_leaveMover (s.dev.atWork turn) (.move c)
  simp only [Dev.moverReq, htmv] at hleft ⊢
  exact hleft

theorem transferDone_segment {c : Fin 512} {src n : Nat} {q : MoverReq} {r : ChanRun} {s : State}
    (h : ChWaiting c (.move src n) r s) (hq : s.dev.moverReq (.move c) = some q) (hrun : q.run.isSome = true)
    (hlong : segmentWords < q.words) (hwaits : s.dev.moverWaits = true) :
    ∃ t, exec (.transferDone c) s = .next t ∧ t.dev.chState c = 2 ∧
      (∃ x ∈ t.dev.moverReq (.move c), x.words = q.words - segmentWords ∧ x.write = q.write) ∧ Only [.tmv, .hbc] s t := by
  obtain ⟨hpow, hon, hst, hchan, hop, -⟩ := h
  have hturn := engineTurn_segment hq hrun hlong hwaits
  have hasks := asks_requeue hq
  have hdev : transferDoneOp c s.dev = (s.dev.requeue (.move c) q).assignEngines := by
    simp [transferDoneOp, hon, hst, hchan, hop, hturn]
  have hfoot : Within (plainFoot [.tmv, .hbc] []) s.dev (s.dev.requeue (.move c) q).assignEngines := by
    rw [Dev.assignEngines_eq]
    exact (Within.refl _ s.dev).withMovers (by simp [plainFoot]) ..
  have hregs : (s.dev.requeue (.move c) q).assignEngines.regs = s.dev.regs := hfoot.parts .regs (by simp [plainFoot])
  generalize (s.dev.requeue (.move c) q).assignEngines = e at *
  refine ⟨{ s with dev := e }, (State.run_powered hpow (transferDoneOp c)).trans (by rw [hdev]), ?_, ?_, hfoot.only⟩
  · simpa only [Dev.chState, Dev.rdF, Dev.rd, hregs] using hst
  · obtain ⟨x, hx, hxa⟩ := Option.map_eq_some_iff.1 hasks
    exact ⟨x, hx, asks_eq_iff.1 hxa⟩

theorem transferDone_idle {c : Fin 512} {src n : Nat} {r : ChanRun} {s : State} (h : ChWaiting c (.move src n) r s)
    (hidle : s.dev.moverRun? (.move c) = none) : exec (.transferDone c) s = .next s := by
  obtain ⟨-, hon, hst, hchan, hop, -⟩ := h
  refine State.run_unchanged ?_
  simp [transferDoneOp, hon, hst, hchan, hop, engineTurn_idle hidle]

/-! ### QUERY (R314) -/

theorem chQuery_waits {c : Fin 512} {w : ChWord} {ws : List Word} {s : State} (hf : ChFresh c s) (hw : w.bare = true)
    (ht : w.target = 0) (hread : s.dev.chRead (s.dev.chAddr c w) 10 = (.ok ws, s.dev))
    (hres : xferReserved true true (ws.drop 6) = false) (hlen : (xferOf (ws.drop 6)).len ≤ 262144)
    (hkind : (xferOf (ws.drop 6)).kind = 0) (hin : inProgram (xferOf (ws.drop 6)).dest.toNat 0 = true)
    (hdest : (xferOf (ws.drop 6)).dest.toNat < 0x7A1000) :
    ∃ t, exec (.chQuery c w) s = .next t ∧ ChWaits c 0xD1 w (.query s.dev.tfb.nextQuery) s t ∧
      t.dev.tfb.queries = s.dev.tfb.queries ++
        [{ id := s.dev.tfb.nextQuery, src := .channel c, words := ws.take 6, cls := s.dev.chClass c }] ∧
      Only [.regs, .ibx, .tfb] s t := by
  have hop := chQueryOp_taken hf hw ht hread hres hlen hkind hin hdest
  have hwithin := ((within_opened (waitFoot [.tfb] c) (by simp [waitFoot, plainFoot]) c (xferOf (ws.drop 6)).dest.toNat
    (xferOf (ws.drop 6)).trailer s.dev).withTfb (by simp [waitFoot, plainFoot])
      ((opened c (xferOf (ws.drop 6)).dest.toNat (xferOf (ws.drop 6)).trailer s.dev).submitQuery (.channel c) (s.dev.chClass c)
        (ws.take 6)).tfb)
  obtain ⟨t, ht, hwaits, hfoot, rfl⟩ := run_waits hf.1 hop hwithin (waits_waitFoot _ c) rfl rfl
  exact ⟨_, ht, hwaits, rfl, hfoot.only⟩

/-- The block with the output of an ended query taken. -/
def handedOver (q : QueryDone) (d : Dev) : Dev :=
  { d with ibx := { d.ibx with done := d.ibx.done.filter (fun (x : QueryDone) => x.id ≠ q.id) } }

theorem chan_handedOver (q : QueryDone) (d : Dev) (c : Nat) : (handedOver q d).chan c = d.chan c := rfl

/-- A QUERY with COUNT 0 delivers all the words of its output. -/
theorem runChanQuery_whole {d : Dev} {c : Nat} {r : ChanRun} {q : QueryDone} (hn : r.w.count = 0) :
    d.runChanQuery c r q = (handedOver q d).xferWord c r.code r.w q.status q.sub q.words 0 false := by
  have hlimit : r.w.count.toNat * 4096 = 0 := by
    rw [hn]
    rfl
  simp only [Dev.runChanQuery, hlimit, ne_eq, not_true_eq_false, decide_false, Bool.false_and, Bool.false_eq_true, if_false]
  rfl

theorem transferDone_query {c : Fin 512} {id dest : Nat} {wet : Bool} {q : QueryDone} {r : ChanRun} {s : State}
    (h : ChWaiting c (.query id) r s) (hw : r.w.bare = true) (hn : r.w.count = 0)
    (hq : s.dev.ibx.done.find? (fun (x : QueryDone) => x.id = id) = some q) (hst : q.status = 0)
    (hg : (s.dev.chan c).gather = some (aloneTo dest false wet)) (hin : inProgram dest q.words.length = true) :
    ∃ t, exec (.transferDone c) s = .next t ∧ ChDone c 0 0 0 (min q.words.length 0xFFFFF) s t ∧
      t.dev.sram = (s.dev.sramWrites dest q.words).sram ∧ Only [.procs, .regs, .ibx, .sram] s t := by
  obtain ⟨hpow, hon, hst', hchan, hop, -, hl, hs⟩ := h
  have hdev : transferDoneOp c s.dev =
      ((handedOver q s.dev).sramWrites dest q.words).chFinish c r.code r.w 0 0 0 (min q.words.length 0xFFFFF) := by
    have hrun : transferDoneOp c s.dev = s.dev.runChanQuery c r q := by
      simp only [transferDoneOp, hon, hst', hchan, hop, hq]
      rfl
    rw [hrun, runChanQuery_whole hn, hst]
    exact xferWord_alone hw (by rw [chan_handedOver, hg]) hin q.sub
  have hwithin : Within (deliverFoot [.sram] c) s.dev (handedOver q s.dev) :=
    (Within.refl _ s.dev).withIbx (by simp [deliverFoot, Foot.anyRegs, finishFoot, plainFoot]) _
  obtain ⟨t, ht, hdone, hsram, -, hparts, -⟩ := run_delivers hpow hdev hwithin ⟨rfl, fun _ _ => rfl⟩ rfl hl hs
  exact ⟨t, ht, hdone, hsram, hparts⟩

end Sys2Proof
end

section
/-! PROOF. O28: what QTAKE and RETRO do, a rule for each (R316, R318, R319). -/

namespace Sys2Proof

open Machine

/-! ### QTAKE (R316, R318) -/

/-- The indices that the records of a queue are counted by. -/
def queueRegs : List Reg := [.cexLqProd, .cexLqCons, .cexRqProd, .cexRqCons]

theorem cexCount_of_rd {d e : Dev} (h : ∀ r ∈ queueRegs, e.rd r 0 = d.rd r 0) (retro : Bool) : e.cexCount retro = d.cexCount retro := by
  have hlp := h .cexLqProd (by decide)
  have hlc := h .cexLqCons (by decide)
  have hrp := h .cexRqProd (by decide)
  have hrc := h .cexRqCons (by decide)
  cases retro
  · simp [Dev.cexCount, Dev.rdF, hlp, hlc]
  · simp [Dev.cexCount, Dev.rdF, hrp, hrc]

/-- A channel that starts to wait leaves the count of either queue. -/
theorem cexCount_chWait (c : Fin 512) (d : Dev) (code : Nat) (w : ChWord) (op : ChanOp) (retro : Bool) :
    ((taken c d).chWait c code w op).cexCount retro = d.cexCount retro := by
  have hset : ∀ r ∈ queueRegs, regFits r = true ∧ (regDesc r).win ≠ 9 ∧ 0 < (regDesc r).count := by decide
  refine cexCount_of_rd (fun r hr => ?_) retro
  obtain ⟨hfit, hwin, hone⟩ := hset r hr
  exact (within_taken_chWait c d code w op).rd (not_waitFoot_regs hfit hwin [] c hone)

/-- With no record and no end of a job there, a QTAKE goes on waiting. -/
theorem pollQtake_empty {d : Dev} {c n dest : Nat} {retro : Bool} {r : ChanRun} (hrun : (d.chan c).run = some r)
    (hop : r.op = .qtake retro n dest) (hj : d.cex.jobEnds = []) (hcount : d.cexCount retro = 0) : d.pollQtake c = d := by
  cases retro <;> simp [Dev.pollQtake, hrun, hop, hj, hcount]

/-- With no record left of the job that ended first, a QTAKE takes its end. -/
theorem pollQtake_jobEnd {d : Dev} {c n dest p st sub tag : Nat} {l : List (Nat × Nat × Nat × Nat)} {r : ChanRun}
    (hrun : (d.chan c).run = some r) (hop : r.op = .qtake true n dest) (hj : d.cex.jobEnds = (p, st, sub, tag) :: l)
    (hcount : d.cexCount true = 0) :
    d.pollQtake c = ({ d with cex := { d.cex with jobEnds := l } }).endWait c r st sub 0 (tag + 0x80000) := by
  simp [Dev.pollQtake, hrun, hop, hj, hcount]

theorem chQtake_waits {c : Fin 512} {w : ChWord} {s : State} (hf : ChFresh c s) (hw : w.bare = true) (ht : w.target.toNat < 2)
    (hn : 0 < w.count.toNat) (hin : inProgram (s.dev.chAddr c w) (8 * w.count.toNat) = true) (hj : s.dev.cex.jobEnds = [])
    (hcount : s.dev.cexCount (decide (w.target.toNat = 1)) = 0) :
    ∃ t, exec (.chQtake c w) s = .next t ∧
      ChWaits c 0xD2 w (.qtake (decide (w.target.toNat = 1)) w.count.toNat (s.dev.chAddr c w)) s t ∧ Only [.regs, .ibx] s t := by
  obtain ⟨-, hmore, -⟩ := w.bare_iff.1 hw
  have hstart := chStart_bare hf hw 0xD2 (fields := !w.more && decide (w.target.toNat < 2) && decide (1 ≤ w.n))
    (by simp [hmore, ht, ChWord.n, Nat.one_le_iff_ne_zero, hn.ne'])
  have htarget : decide (w.target = 1) = decide (w.target.toNat = 1) := decide_eq_decide.2 BitVec.toNat_inj.symm
  have hop : chQtakeOp c w s.dev =
      (taken c s.dev).chWait c 0xD2 w (.qtake (decide (w.target.toNat = 1)) w.count.toNat (s.dev.chAddr c w)) := by
    have haddr : (taken c s.dev).chAddr c w = s.dev.chAddr c w := rfl
    refine (hstart _).trans ?_
    simp only [haddr, ChWord.n, hin, htarget, Bool.not_true, Bool.false_eq_true, if_false]
    exact pollQtake_empty (run_chWait ..) rfl hj (by rw [cexCount_chWait, hcount])
  exact hf.waits hop

theorem qtakeRecords_jobEnd {c : Fin 512} {n dest st sub tag p : Nat} {l : List (Nat × Nat × Nat × Nat)} {r : ChanRun} {s : State}
    (h : ChWaiting c (.qtake true n dest) r s) (hj : s.dev.cex.jobEnds = (p, st, sub, tag) :: l) (hcount : s.dev.cexCount true = 0) :
    ∃ t, exec (.qtakeRecords c) s = .next t ∧ ChDone c st sub 0 (tag + 0x80000) s t ∧ t.dev.cex.jobEnds = l ∧
      Only [.procs, .regs, .ibx, .cex] s t := by
  have hpolls := h.polls
  have ⟨_, _, _, hrun, hop, _, hl, hs⟩ := h
  have hdev : qtakeRecordsOp c s.dev =
      ({ s.dev with cex := { s.dev.cex with jobEnds := l } }).endWait c r st sub 0 (tag + 0x80000) := by
    rw [qtakeRecordsOp, if_pos hpolls, pollQtake_jobEnd hrun hop hj hcount]
  have hwithin := (Within.refl (finishFoot [.cex] c) s.dev).withCex (by simp [finishFoot, plainFoot])
    { s.dev.cex with jobEnds := l }
  obtain ⟨t, ht, hdone, hfoot, rfl⟩ := h.ends hdev hwithin (finishes_finishFoot [.cex] c) rfl rfl
  refine ⟨_, ht, hdone, ?_, hfoot.only⟩
  have hcex := same_chFinishOn (p := .cex) (by decide) (d := { s.dev with cex := { s.dev.cex with jobEnds := l } })
    hl hs r.code st sub 0 (tag + 0x80000)
  exact congrArg CexState.jobEnds hcex

/-- The block with one record of the live queue consumed. -/
def consumed (d : Dev) : Dev := d.wrF .cexLqCons 0 12 0 (d.rdF .cexLqCons 0 12 0 + 1)

/-- A QTAKE of one live record takes the oldest that is there. -/
theorem pollQtake_record {d : Dev} {c dest : Nat} {ws : List Word} {r : ChanRun} (hrun : (d.chan c).run = some r)
    (hop : r.op = .qtake false 1 dest) (hdry : r.w.dry = false) (hcount : 0 < d.cexCount false)
    (hread : d.sramReads (0x955800 + 8 * (d.rdF .cexLqCons 0 12 0 % 4096)) 8 = (ws, 0, d)) :
    d.pollQtake c = ((consumed d).sramWrites dest ws).endWait c r 0 0 0 1 := by
  have htake : d.takeRecords false 1 = (ws, 1, 0, consumed d) := by
    simp [Dev.takeRecords, hread, consumed]
  have hmin : min 1 (d.cexCount false) = 1 := by omega
  simp [Dev.pollQtake, hrun, hop, hcount.ne', Dev.takeFor, hmin, htake, hdry, shortOr]

/-- The words of a record go to memory the same, consumed or not. -/
theorem sameWrites_consumed (d : Dev) : SameWrites d (consumed d) := by
  have hkey : ∀ q ∈ injectionRegs, regKey .cexLqCons 0 ≠ regKey q 0 := by decide
  exact ⟨rfl, fun r hr => Dev.rd_wr_ne _ _ (hkey r hr)⟩

theorem qtakeRecords_record {c : Fin 512} {dest : Nat} {ws : List Word} {r : ChanRun} {s : State}
    (h : ChWaiting c (.qtake false 1 dest) r s) (hdry : r.w.dry = false) (hcount : 0 < s.dev.cexCount false)
    (hread : s.dev.sramReads (0x955800 + 8 * (s.dev.rdF .cexLqCons 0 12 0 % 4096)) 8 = (ws, 0, s.dev)) :
    ∃ t, exec (.qtakeRecords c) s = .next t ∧ ChDone c 0 0 0 1 s t ∧
      t.dev.rdF .cexLqCons 0 12 0 = (s.dev.rdF .cexLqCons 0 12 0 + 1) % 8192 ∧
      t.dev.sram = (s.dev.sramWrites dest ws).sram ∧ SramOnly dest 8 s t ∧ Only [.procs, .regs, .ibx, .sram] s t := by
  have hpolls := h.polls
  have ⟨hpow, _, _, hrun, hop, _, hl, hs⟩ := h
  have hlen := (Dev.decode_of_sramReads hread).1
  have hdev : qtakeRecordsOp c s.dev = ((consumed s.dev).sramWrites dest ws).chFinish c r.code r.w 0 0 0 1 := by
    rw [qtakeRecordsOp, if_pos hpolls, pollQtake_record hrun hop hdry hcount hread]
    rfl
  have hwithin : Within (deliverFoot [.sram] c) s.dev (consumed s.dev) :=
    (Within.refl _ s.dev).wrF (by simp [deliverFoot, Foot.anyRegs, finishFoot, plainFoot]) trivial ..
  obtain ⟨t, ht, hdone, hsram, honly, hparts, hend⟩ := run_delivers hpow hdev hwithin (sameWrites_consumed _) rfl hl hs
  refine ⟨t, ht, hdone, ?_, hsram, hlen ▸ honly, hparts⟩
  have hfin : Within (finishFoot [] c) ((consumed s.dev).sramWrites dest ws) t.dev := by
    rw [hend]
    refine (Within.refl _ _).chFinishOn (finishes_finishFoot [] c) hl ?_ ..
    have hibx : ((consumed s.dev).sramWrites dest ws).ibx = s.dev.ibx := (within_sramWrites _ dest ws).parts .ibx (by decide)
    rwa [Dev.chan, hibx]
  have hcons : t.dev.rd .cexLqCons 0 = (consumed s.dev).rd .cexLqCons 0 := by
    have hstat := regKey_ne_of_win (r := .cexLqCons) (r' := .ibxChcStat) (by decide) (by decide) (by decide) (i := 0) (by decide) c.isLt
    have hcmds := regKey_ne_of_win (r := .cexLqCons) (r' := .ibxChcCmds) (by decide) (by decide) (by decide) (i := 0) (by decide) c.isLt
    exact (hfin.rd (by simpa [finishFoot, plainFoot] using ⟨hstat, hcmds⟩)).trans
      ((within_sramWrites _ dest ws).rd (by simp [writeFoot, plainFoot, regKey, regDesc]))
  rw [Dev.rdF, hcons]
  exact Dev.rdF_wrF_same _ _ _ _ (by decide) (by decide)

/-! ### RETRO (R319) -/

/-- The block with a word taken and other jobs. -/
def withJobs (c : Nat) (x : CexState) (d : Dev) : Dev := { taken c d with cex := x }

theorem chan_withJobs (c : Nat) (x : CexState) (d : Dev) : (withJobs c x d).chan c = (taken c d).chan c := rfl

/-- Channels have no part in what becomes of a descriptor. -/
theorem retroSubmit_taken (c : Nat) (d : Dev) (j : Nat) (ws : List Word) :
    (taken c d).retroSubmit j ws =
      ((d.retroSubmit j ws).1, (d.retroSubmit j ws).2.1, withJobs c (d.retroSubmit j ws).2.2.cex d) := by
  have hjob : (taken c d).job j = d.job j := rfl
  have hrefusal : (taken c d).retroRefusal ws = d.retroRefusal ws := rfl
  unfold Dev.retroSubmit
  rw [hjob, hrefusal]
  by_cases hst : (d.job j).st = .queued || (d.job j).st = .running
  · simp only [hst, if_true]
    rfl
  · simp only [hst]
    cases d.retroRefusal ws with
    | some r => rfl
    | none => rfl

theorem chRetroOp_taken {c : Fin 512} {w : ChWord} {ws : List Word} {s : State} (hf : ChFresh c s) (hw : w.bare = true)
    (ht : w.target.toNat < 16) (hn : w.count = 0) (hread : s.dev.chRead (s.dev.chAddr c w) 6 = (.ok ws, s.dev)) :
    chRetroOp c w s.dev = (withJobs c (s.dev.retroSubmit w.target.toNat ws).2.2.cex s.dev).chFinish c 0xD3 w
      (s.dev.retroSubmit w.target.toNat ws).1 (s.dev.retroSubmit w.target.toNat ws).2.1 0 0 := by
  obtain ⟨hplain, -⟩ := w.bare_iff.1 hw
  have hread' := Dev.chRead_of_sram (e := taken c s.dev) hread rfl
  have haddr : (taken c s.dev).chAddr c w = s.dev.chAddr c w := rfl
  refine (chStart_bare hf hw 0xD3 (by simp [hplain, ChWord.only, ht, hn]) _).trans ?_
  simp only [haddr, hread', retroSubmit_taken]

theorem chRetro_done {c : Fin 512} {w : ChWord} {ws : List Word} {s : State} (hf : ChFresh c s) (hw : w.bare = true)
    (ht : w.target.toNat < 16) (hn : w.count = 0) (hread : s.dev.chRead (s.dev.chAddr c w) 6 = (.ok ws, s.dev)) :
    ∃ t, exec (.chRetro c w) s = .next t ∧
      ChDone c (s.dev.retroSubmit w.target.toNat ws).1 (s.dev.retroSubmit w.target.toNat ws).2.1 0 0 s t ∧
      t.dev.cex = (s.dev.retroSubmit w.target.toNat ws).2.2.cex ∧ Only [.procs, .regs, .ibx, .cex] s t := by
  obtain ⟨-, -, -, -, hl, -⟩ := w.bare_iff.1 hw
  have hop := chRetroOp_taken hf hw ht hn hread
  obtain ⟨hpow, -, -, -, -, hs⟩ := hf
  generalize (s.dev.retroSubmit w.target.toNat ws).2.2.cex = x at *
  have hwithin : Within (finishFoot [.cex] c) s.dev (withJobs c x s.dev) :=
    (within_taken _ (by simp [finishFoot, plainFoot]) c s.dev).withCex (by simp [finishFoot, plainFoot]) x
  have hs' : ((withJobs c x s.dev).chan c).suspReq = false := by
    rw [chan_withJobs]
    simp [taken, hs]
  obtain ⟨t, ht, hdone, hfoot, rfl⟩ := run_finishes hpow hop hwithin (finishes_finishFoot [.cex] c) rfl hl hs'
  exact ⟨_, ht, hdone, same_chFinishOn (p := .cex) (by decide) hl hs' .., hfoot.only⟩

end Sys2Proof
end

section
/-! PROOF SUPPORT. Entries put on a completion ring: what they may reach, and where each of them goes in a ring with room (R489, R504,
R505, R508). -/

namespace Sys2Proof

open Machine

/-! ### What entries put on a ring may reach -/

/-- A footprint has what entries put on a ring bring with them: any register, since a held entry may take an injection (R426). -/
structure Foot.Rings (F : Foot) : Prop where
  parts : [Part.regs, .hif, .sram, .evc, .wev, .outbox] ⊆ F.parts
  regs : ∀ k, F.regs k

/-- Beside the ring: its own registers, memory, events and what leaves the block. -/
def ringFoot : Foot := (plainFoot [.regs, .hif, .sram, .evc, .wev, .outbox] []).anyRegs

theorem rings_ringFoot : ringFoot.Rings := ⟨fun _ h => h, fun _ => trivial⟩

theorem rings_deliverFoot (c : Nat) : (deliverFoot [.hif, .sram, .evc, .wev, .outbox] c).Rings :=
  ⟨by simp [deliverFoot, Foot.anyRegs, finishFoot, plainFoot], fun _ => trivial⟩

section
variable {F : Foot} {d₀ d : Dev} (h : Within F d₀ d) (m : F.Rings)
include h m

theorem Within.hostWrite (f addr : Nat) (bytes : List Byte) : Within F d₀ (d.hostWrite f addr bytes) := by
  unfold Dev.hostWrite
  split
  · exact h.emit (m.parts (by simp)) _
  · exact h

theorem Within.cqWrite (r : Nat) (e : List Byte) : Within F d₀ (d.cqWrite r e) :=
  ((h.hostWrite m ..).wrF (m.parts (by simp)) (m.regs _) ..).wr (m.parts (by simp)) (m.regs _) _

theorem Within.holdPut (r : Nat) (e : List Byte) : Within F d₀ (d.holdPut r e) :=
  Within.setLevel ((h.sramWritesAny (fun _ hp => m.parts (by revert hp; simp; tauto)) (m.regs _) ..).wrF (m.parts (by simp))
    (m.regs _) ..) (fun _ hp => m.parts (by revert hp; simp; tauto)) 688 _

theorem Within.cqAnnounce (r before : Nat) : Within F d₀ (d.cqAnnounce r before) := by
  have hhif : Part.hif ∈ F.parts := m.parts (by simp)
  unfold Dev.cqAnnounce Dev.cqMessage Dev.sendMsix
  extract_lets x
  split
  · exact h
  · split
    · refine Within.withHif ?_ hhif _
      split
      · exact h
      · split
        · exact h.emit (m.parts (by simp)) _
        · exact h.withHif hhif _
    · exact h.withHif hhif _

end

/-! ### A full ring stays full, an empty holding area empty -/

/-- What the room of a ring is counted from. -/
theorem cqRoom_congr {d e : Dev} {r : Nat} (hcfg : e.rd .hifFfCqcCfg r = d.rd .hifFfCqcCfg r)
    (hhost : e.rd .hifFfCqcHost r = d.rd .hifFfCqcHost r) (hprod : e.cqProd r = d.cqProd r) (hrsvd : e.cqRsvd r = d.cqRsvd r)
    (hhif : e.hif = d.hif) : e.cqRoom r = d.cqRoom r := by
  simp only [Dev.cqRoom, Dev.cqBits, Dev.cq, Dev.rdF, hcfg, hhost, hprod, hrsvd, hhif]

/-- A full-word write leaves the registers but those of the injection. -/
theorem rd_sramWrites {q : Reg} {i : Nat} (h : regKey q i ≠ regKey .edcInjCtl 0) (d : Dev) (a : Nat) (ws : List Word) :
    (d.sramWrites a ws).rd q i = d.rd q i :=
  (within_sramWrites d a ws).rd (by simpa [writeFoot, plainFoot] using h)

theorem rd_refreshHold (d : Dev) (q : Reg) (i : Nat) : d.refreshHold.rd q i = d.rd q i := by simp [Dev.refreshHold]

/-- Fields beside HELD read as before behind a held entry. -/
theorem rdF_holdPut_stat (d : Dev) {r : Nat} (hr : r < 128) (e : List Byte) {hi lo : Nat} (h : hi < 25 ∨ 33 < lo) :
    (d.holdPut r e).rdF .hifFfCqcStat r hi lo = d.rdF .hifFfCqcStat r hi lo :=
  calc (d.holdPut r e).rdF .hifFfCqcStat r hi lo
    _ = ((d.sramWrites (holdAddr r ((d.cq r).first + d.cqHeld r)) (wordsOfBytes 6 e)).wrF .hifFfCqcStat r 33 25 _).rdF
          .hifFfCqcStat r hi lo := congrArg (fld · hi lo) (rd_refreshHold ..)
    _ = _ := Dev.rdF_wrF_disj _ (by decide) r r _ (by omega)
    _ = _ := congrArg (fld · hi lo)
          (rd_sramWrites (regKey_ne_of_win (by decide) (by decide) (by decide) hr (by decide)) ..)

theorem rd_holdPut {q : Reg} (hs : regApart .hifFfCqcStat q = true) (hi : regMisses q .edcInjCtl = true) (d : Dev) (r : Nat)
    (e : List Byte) (i : Nat) : (d.holdPut r e).rd q i = d.rd q i := by
  simp only [Dev.holdPut, Dev.setHeld, rd_refreshHold, Dev.wrF, Dev.rd_wr_apart _ hs,
    rd_sramWrites (regKey_ne_of_misses hi i)]

theorem hif_holdPut (d : Dev) (r : Nat) (e : List Byte) : (d.holdPut r e).hif = d.hif := by
  simp only [Dev.holdPut, Dev.setHeld, Dev.refreshHold, Dev.setLevel_keeps]
  exact (within_sramWrites ..).parts .hif (by decide)

theorem cqRoom_holdPut (d : Dev) {r : Nat} (hr : r < 128) (e : List Byte) : (d.holdPut r e).cqRoom r = d.cqRoom r :=
  cqRoom_congr (rd_holdPut (by decide) (by decide) ..) (rd_holdPut (by decide) (by decide) ..)
    (rdF_holdPut_stat d hr e (by omega)) (rdF_holdPut_stat d hr e (by omega)) (hif_holdPut ..)

/-- An entry lost counts; the room of its ring stays. -/
theorem cqRoom_lost (d : Dev) (r : Nat) : (d.satF .hifFfCqcCount r 47 32 1).cqRoom r = d.cqRoom r := by
  have hrd : ∀ q, regApart .hifFfCqcCount q = true → (d.satF .hifFfCqcCount r 47 32 1).rd q r = d.rd q r := fun q hq => by
    rw [Dev.satF, Dev.rd_wr_apart _ hq]
  have hstat : ∀ hi lo, (d.satF .hifFfCqcCount r 47 32 1).rdF .hifFfCqcStat r hi lo = d.rdF .hifFfCqcStat r hi lo := fun hi lo =>
    congrArg (fld · hi lo) (hrd _ (by decide))
  exact cqRoom_congr (hrd _ (by decide)) (hrd _ (by decide)) (hstat 16 0) (hstat 40 34) rfl

theorem cqHeld_cqWrite (d : Dev) (r : Nat) (e : List Byte) : (d.cqWrite r e).cqHeld r = d.cqHeld r :=
  rdF_cqWrite_stat d r e (by omega)

/-- An entry put on a ring leaves its held entries where they are. -/
theorem noneMoves_putEntry {r : Nat} (hr128 : r < 128) {d : Dev} (h : NoneMoves r d) (e : List Byte) : NoneMoves r (putEntry r d e) := by
  by_cases hr : d.cqRoom r = 0
  · right
    rw [putEntry_full hr]
    split
    · rw [cqRoom_holdPut d hr128, hr]
    · rw [cqRoom_lost, hr]
  · have hh : d.cqHeld r = 0 := h.resolve_right hr
    left
    rw [putEntry_room hh (Nat.pos_of_ne_zero hr), cqHeld_cqWrite, hh]

section
variable {F : Foot} {d₀ d : Dev} (h : Within F d₀ d) (m : F.Rings) {r : Nat}
include h m

theorem Within.putEntry (hm : NoneMoves r d) (e : List Byte) : Within F d₀ (putEntry r d e) := by
  by_cases hr : d.cqRoom r = 0
  · rw [putEntry_full hr]
    split
    · exact h.holdPut m r e
    · exact h.satF (m.parts (by simp)) (m.regs _) ..
  · rw [putEntry_room (hm.resolve_right hr) (Nat.pos_of_ne_zero hr)]
    exact h.cqWrite m r e

/-- Entries put on a ring of which no held entry moves. -/
theorem Within.putEntries (hr : r < 128) (hm : NoneMoves r d) (es : List (List Byte)) : Within F d₀ (es.foldl (Sys2Proof.putEntry r) d) := by
  induction es generalizing d with
  | nil => exact h
  | cons e es ih => exact ih (h.putEntry m hm e) (noneMoves_putEntry hr hm e)

theorem Within.cqPut (hr : r < 128) (hm : NoneMoves r d) (es : List (List Byte)) : Within F d₀ (d.cqPut r es) := by
  rw [cqPut_eq]
  exact (h.putEntries m hr hm es).cqAnnounce m ..

end

/-! ### Entries put into a ring with room (R489, R504) -/

/-- One index further on, one place less is free. -/
theorem idxSub_succ {n p b : Nat} (h : idxSub n p b + 1 < 2 ^ (n + 1)) :
    idxSub n ((p + 1) % 2 ^ (n + 1)) b = idxSub n p b + 1 := by
  have hpos : 0 < 2 ^ (n + 1) := Nat.two_pow_pos _
  have hb : b % 2 ^ (n + 1) ≤ 2 ^ (n + 1) := (Nat.mod_lt _ hpos).le
  have heq : ∀ x, idxSub n x b = (x + (2 ^ (n + 1) - b % 2 ^ (n + 1))) % 2 ^ (n + 1) := fun x => by
    rw [idxSub, Nat.add_sub_assoc hb, Nat.mod_add_mod]
  rw [heq p] at h ⊢
  rw [heq, Nat.mod_add_mod, Nat.add_right_comm, ← Nat.mod_add_mod, Nat.mod_eq_of_lt h]

/-- The next index for the next entry, kept in the 17 bits of D. -/
theorem cqProd_cqWrite {d : Dev} {r : Nat} (hn : d.cqBits r ≤ 16) (e : List Byte) :
    (d.cqWrite r e).cqProd r = (d.cqProd r + 1) % 2 ^ (d.cqBits r + 1) := by
  have hle : 2 ^ (d.cqBits r + 1) ≤ 2 ^ 17 := Nat.pow_le_pow_right (by decide) (by omega)
  have hlt : (d.cqProd r + 1) % 2 ^ (d.cqBits r + 1) < 2 ^ 17 := (Nat.mod_lt _ (Nat.two_pow_pos _)).trans_le hle
  unfold Dev.cqWrite Dev.wrapF
  rw [Dev.cqProd, Dev.rdF, Dev.rd_wr_apart _ (by decide), ← Dev.rdF, Dev.rdF_wrF_same _ _ _ _ (by omega) (by omega)]
  exact Nat.mod_eq_of_lt hlt

theorem cqBits_cqWrite (d : Dev) (r : Nat) (e : List Byte) : (d.cqWrite r e).cqBits r = d.cqBits r := by
  rw [Dev.cqBits, Dev.rdF, rd_cqWrite d r e (by decide) (by decide), ← Dev.rdF, ← Dev.cqBits]

theorem hif_hostWrite (d : Dev) (f addr : Nat) (bytes : List Byte) : (d.hostWrite f addr bytes).hif = d.hif := by
  unfold Dev.hostWrite
  split <;> rfl

theorem hif_cqWrite (d : Dev) (r : Nat) (e : List Byte) : (d.cqWrite r e).hif = d.hif := by
  unfold Dev.cqWrite
  exact hif_hostWrite ..

/-- An entry takes one place of the room. -/
theorem cqRoom_cqWrite {d : Dev} {r : Nat} (hn : d.cqBits r ≤ 16) (hr : 0 < d.cqRoom r) (e : List Byte) :
    (d.cqWrite r e).cqRoom r + 1 = d.cqRoom r := by
  have hpow : 2 ^ (d.cqBits r + 1) = 2 * 2 ^ d.cqBits r := by rw [pow_succ, Nat.mul_comm]
  have hhost : (d.cqWrite r e).rdF .hifFfCqcHost r 16 0 = d.rdF .hifFfCqcHost r 16 0 :=
    congrArg (fld · 16 0) (rd_cqWrite d r e (by decide) (by decide) r)
  have hrsvd : (d.cqWrite r e).cqRsvd r = d.cqRsvd r := rdF_cqWrite_stat d r e (by omega)
  have hcq : (d.cqWrite r e).cq r = d.cq r := by rw [Dev.cq, hif_cqWrite, ← Dev.cq]
  unfold Dev.cqRoom at hr ⊢
  rw [cqBits_cqWrite, cqProd_cqWrite hn, hhost, hrsvd, hcq, idxSub_succ (by omega)]
  omega

theorem attached_cqWrite {d : Dev} {r f : Nat} (hf : f < 2) (e : List Byte) : (d.cqWrite r e).attached f = d.attached f := by
  have hkey : ∀ q : Reg, q = .hifFfCqcStat ∨ q = .hifFfCqcCount → regKey q r ≠ regKey .hifFfStat f := by
    rintro q (rfl | rfl) <;> simp only [regKey, regDesc] <;> omega
  have hhost : ∀ a b, (d.hostWrite (r / 64) a b).rd .hifFfStat f = d.rd .hifFfStat f := fun a b => by
    unfold Dev.hostWrite
    split <;> rfl
  unfold Dev.cqWrite Dev.wrapF Dev.wrF Dev.attached Dev.rdB
  rw [Dev.rd_wr_ne _ _ (hkey _ (.inr rfl)), Dev.rd_wr_ne _ _ (hkey _ (.inl rfl)), hhost]

/-- Where entry number i of a ring lies in the host's memory. -/
def entryAddr (d : Dev) (r i : Nat) : Nat :=
  d.rdF .hifFfCqcCfg r 47 32 * 2 ^ 48 + (d.rd .hifFfCqcBase r).toNat + 32 * (i % 2 ^ d.cqBits r)

/-- What goes to the host's memory for entry e at index i. -/
def entryOut (d : Dev) (r i : Nat) (e : List Byte) : OutMsg :=
  .hostWrite (r / 64) (entryAddr d r i) (withPhase e (phaseOf (d.cqBits r) (i % 2 ^ (d.cqBits r + 1))))

theorem entryOut_cqWrite (d : Dev) (r : Nat) (e : List Byte) : entryOut (d.cqWrite r e) r = entryOut d r := by
  funext i x
  rw [entryOut, entryAddr, cqBits_cqWrite, Dev.rdF, rd_cqWrite d r e (by decide) (by decide),
    rd_cqWrite d r e (by decide) (by decide)]
  rfl

/-- The outgoing entry is the same at an index a whole lap on. -/
theorem entryOut_mod (d : Dev) (r i j : Nat) (e : List Byte) :
    entryOut d r (i % 2 ^ (d.cqBits r + 1) + j) e = entryOut d r (i + j) e := by
  have hdvd : 2 ^ d.cqBits r ∣ 2 ^ (d.cqBits r + 1) := Nat.pow_dvd_pow 2 (Nat.le_succ _)
  have hslot : (i % 2 ^ (d.cqBits r + 1) + j) % 2 ^ d.cqBits r = (i + j) % 2 ^ d.cqBits r := by
    rw [← Nat.mod_mod_of_dvd _ hdvd, Nat.mod_add_mod, Nat.mod_mod_of_dvd _ hdvd]
  rw [entryOut, entryAddr, hslot, Nat.mod_add_mod]
  rfl

/-- An attached function's host is sent the entry. -/
theorem outbox_cqWrite {d : Dev} {r : Nat} (ha : d.attached (r / 64) = true) (hp : d.cqProd r < 2 ^ (d.cqBits r + 1)) (e : List Byte) :
    (d.cqWrite r e).outbox = d.outbox ++ [entryOut d r (d.cqProd r) e] := by
  have hbytes : withPhase e (phaseOf (d.cqBits r) (d.cqProd r)) ≠ [] := by simp [withPhase]
  simp [Dev.cqWrite, Dev.hostWrite, ha, hbytes, Dev.emit, entryOut, entryAddr, Nat.mod_eq_of_lt hp, Dev.wrF, Dev.wrapF, Dev.wr]

/-- Entries put into a ring that holds none and has room for them all: each goes to the host, at its own index. -/
theorem putEntries_room {d : Dev} {r : Nat} (hr : r < 128) (ha : d.attached (r / 64) = true) (hn : d.cqBits r ≤ 16)
    (hp : d.cqProd r < 2 ^ (d.cqBits r + 1)) (hh : d.cqHeld r = 0) {es : List (List Byte)} (hroom : es.length ≤ d.cqRoom r) :
    (es.foldl (putEntry r) d).cqProd r = (d.cqProd r + es.length) % 2 ^ (d.cqBits r + 1) ∧
      d.outbox ⊆ (es.foldl (putEntry r) d).outbox ∧
      ∀ i < es.length, entryOut d r (d.cqProd r + i) (es.getD i []) ∈ (es.foldl (putEntry r) d).outbox := by
  induction es generalizing d with
  | nil => exact ⟨(Nat.mod_eq_of_lt hp).symm, fun _ hm => hm, nofun⟩
  | cons e es ih =>
    rw [List.length_cons] at hroom
    have hroom1 := cqRoom_cqWrite hn (by omega) e
    have hput : putEntry r d e = d.cqWrite r e := putEntry_room hh (by omega) e
    have hout := outbox_cqWrite ha hp e
    have hprod := cqProd_cqWrite hn e
    have hbits := cqBits_cqWrite d r e
    obtain ⟨hlast, hsub, hmem⟩ := ih (d := d.cqWrite r e) (by rwa [attached_cqWrite (by omega)]) (by rwa [hbits])
      (by rw [hprod, hbits]; exact Nat.mod_lt _ (Nat.two_pow_pos _)) (by rw [cqHeld_cqWrite, hh]) (by omega)
    rw [List.foldl_cons, hput]
    refine ⟨?_, fun m hm => hsub (by rw [hout]; exact List.mem_append_left _ hm), fun i hi => ?_⟩
    · rw [hlast, hprod, hbits, Nat.mod_add_mod, List.length_cons, Nat.add_right_comm, Nat.add_assoc]
    · cases i with
      | zero => exact hsub (by rw [hout]; exact List.mem_append_right _ (List.mem_singleton_self _))
      | succ i =>
        have := hmem i (by simpa using hi)
        rwa [entryOut_cqWrite, hprod, entryOut_mod, Nat.add_right_comm, Nat.add_assoc] at this

end Sys2Proof
end

section
/-! PROOF. O28: POST, and the statement (R320, R504). -/

namespace Sys2Proof

open Machine

/-! ### What follows the entries put on a ring (R508) -/

theorem regs_cqAnnounce (d : Dev) (r before : Nat) : (d.cqAnnounce r before).regs = d.regs := by
  unfold Dev.cqAnnounce Dev.cqMessage Dev.sendMsix
  extract_lets m
  split
  · rfl
  · split
    · split
      · rfl
      · split <;> rfl
    · rfl

theorem outbox_sub_cqAnnounce (d : Dev) (r before : Nat) : d.outbox ⊆ (d.cqAnnounce r before).outbox := by
  unfold Dev.cqAnnounce Dev.cqMessage Dev.sendMsix
  extract_lets m
  split
  · exact fun _ h => h
  · split
    · split
      · exact fun _ h => h
      · split
        · exact fun _ h => List.mem_append_left _ h
        · exact fun _ h => h
    · exact fun _ h => h

/-- Entries put on a ring with room for them all, in its registers and at the host. -/
theorem cqPut_room {d : Dev} {r : Nat} (hr : r < 128) (ha : d.attached (r / 64) = true) (hn : d.cqBits r ≤ 16)
    (hp : d.cqProd r < 2 ^ (d.cqBits r + 1)) (hh : d.cqHeld r = 0) {es : List (List Byte)} (hroom : es.length ≤ d.cqRoom r) :
    (d.cqPut r es).cqProd r = (d.cqProd r + es.length) % 2 ^ (d.cqBits r + 1) ∧
      ∀ i < es.length, entryOut d r (d.cqProd r + i) (es.getD i []) ∈ (d.cqPut r es).outbox := by
  obtain ⟨hprod, -, hmem⟩ := putEntries_room hr ha hn hp hh hroom
  rw [cqPut_eq]
  refine ⟨?_, fun i hi => outbox_sub_cqAnnounce _ _ _ (hmem i hi)⟩
  rw [← hprod, Dev.cqProd, Dev.rdF, Dev.rd, regs_cqAnnounce]
  rfl

/-! ### POST (R320) -/

theorem length_postEntries (n : Nat) (ws : List Word) : (postEntries n ws).2.length = n := by
  induction n generalizing ws with
  | zero => rfl
  | succ n ih => exact congrArg (· + 1) (ih (ws.drop 6))

/-- POST puts its entries on its ring, where there is room for them all. -/
theorem chPostOp_taken {c : Fin 512} {w : ChWord} {ws : List Word} {s : State} (hf : ChFresh c s) (hw : w.bare = true)
    (ht : w.target.toNat < 128) (hn : w.count.toNat ≤ 256) (hst : s.dev.cqState w.target.toNat = 1)
    (hread : s.dev.chRead (s.dev.chAddr c w) (6 * w.count.toNat) = (.ok ws, s.dev))
    (hes : (postEntries w.count.toNat ws).1 = true) (hh : s.dev.cqHeld w.target.toNat = 0)
    (hroom : w.count.toNat ≤ s.dev.cqRoom w.target.toNat) :
    chPostOp c w s.dev =
      ((taken c s.dev).cqPut w.target.toNat (postEntries w.count.toNat ws).2).chFinish c 0xD8 w 0 0 0 w.count.toNat := by
  obtain ⟨hplain, -⟩ := w.bare_iff.1 hw
  have hread' := Dev.chRead_of_sram (e := taken c s.dev) hread rfl
  have haddr : (taken c s.dev).chAddr c w = s.dev.chAddr c w := rfl
  have hst' : (taken c s.dev).cqState w.target.toNat = 1 := hst
  have hh' : (taken c s.dev).cqHeld w.target.toNat = 0 := hh
  have hroom' : ¬ (taken c s.dev).cqRoom w.target.toNat + (taken c s.dev).holdFree w.target.toNat < w.count.toNat :=
    Nat.not_lt.2 (hroom.trans (Nat.le_add_right ..))
  refine (chStart_bare hf hw 0xD8 (by simp [hplain, ht]) _).trans ?_
  simp only [haddr, ChWord.n, Nat.not_lt.2 hn, hst', hread', hes, hh', hroom', ne_eq, not_true_eq_false, Bool.not_true,
    Bool.false_eq_true, if_false, if_true]

theorem chPost_done {c : Fin 512} {w : ChWord} {ws : List Word} {s : State} (hf : ChFresh c s) (hw : w.bare = true)
    (ht : w.target.toNat < 128) (hn : w.count.toNat ≤ 256) (hst : s.dev.cqState w.target.toNat = 1)
    (hread : s.dev.chRead (s.dev.chAddr c w) (6 * w.count.toNat) = (.ok ws, s.dev))
    (hes : (postEntries w.count.toNat ws).1 = true) (hh : s.dev.cqHeld w.target.toNat = 0)
    (hroom : w.count.toNat ≤ s.dev.cqRoom w.target.toNat) :
    ∃ t, exec (.chPost c w) s = .next t ∧ ChDone c 0 0 0 w.count.toNat s t ∧
      (s.dev.attached (w.target.toNat / 64) = true → s.dev.cqBits w.target.toNat ≤ 16 →
        s.dev.cqProd w.target.toNat < 2 ^ (s.dev.cqBits w.target.toNat + 1) →
        t.dev.cqProd w.target.toNat =
          (s.dev.cqProd w.target.toNat + w.count.toNat) % 2 ^ (s.dev.cqBits w.target.toNat + 1) ∧
        ∀ i : Fin w.count.toNat, entryOut s.dev w.target.toNat (s.dev.cqProd w.target.toNat + i)
          ((postEntries w.count.toNat ws).2.getD i []) ∈ t.dev.outbox) ∧
      Only [.procs, .regs, .ibx, .hif, .sram, .evc, .wev, .outbox] s t := by
  obtain ⟨-, -, -, -, hl, -⟩ := w.bare_iff.1 hw
  have hop := chPostOp_taken hf hw ht hn hst hread hes hh hroom
  obtain ⟨hpow, -, -, -, -, hs⟩ := hf
  have hlen := length_postEntries w.count.toNat ws
  generalize (postEntries w.count.toNat ws).2 = es at *
  generalize w.target.toNat = r at *
  have hring : Within ringFoot (taken c s.dev) ((taken c s.dev).cqPut r es) :=
    Within.cqPut (d := taken c s.dev) (Within.refl _ _) rings_ringFoot ht (.inl hh) es
  have hwithin := (within_taken (deliverFoot [.hif, .sram, .evc, .wev, .outbox] c)
    (by simp [deliverFoot, Foot.anyRegs, finishFoot, plainFoot]) c s.dev).cqPut (rings_deliverFoot c) ht (.inl hh) es
  have hprocs : ((taken c s.dev).cqPut r es).procs = s.dev.procs := hring.parts .procs (by decide)
  have hibx : ((taken c s.dev).cqPut r es).ibx = (taken c s.dev).ibx := hring.parts .ibx (by decide)
  have hs' : (((taken c s.dev).cqPut r es).chan c).suspReq = false := by
    rw [Dev.chan, hibx, ← Dev.chan]
    simp [taken, hs]
  obtain ⟨t, ht', hdone, hfin, rfl⟩ := run_finishes hpow hop hwithin (finishes_deliverFoot _ c) (by rw [Dev.proc, hprocs]; rfl) hl hs'
  refine ⟨_, ht', hdone, fun ha hbits hp => ?_, hfin.only⟩
  obtain ⟨hprod, hmem⟩ := cqPut_room (d := taken c s.dev) (es := es) ht ha hbits hp hh (by rwa [hlen])
  have hfoot := (Within.refl (finishFoot [] c) ((taken c s.dev).cqPut r es)).chFinishOn (finishes_finishFoot [] c) hl hs' 0xD8 0 0 0
    w.count.toNat
  have hstat := regKey_ne_of_win (r := .hifFfCqcStat) (r' := .ibxChcStat) (by decide) (by decide) (by decide) ht c.isLt
  have hcmds := regKey_ne_of_win (r := .hifFfCqcStat) (r' := .ibxChcCmds) (by decide) (by decide) (by decide) ht c.isLt
  refine ⟨?_, fun i => ?_⟩
  · rw [Dev.cqProd, Dev.rdF, hfoot.rd (by simpa [finishFoot, plainFoot] using ⟨hstat, hcmds⟩), ← hlen]
    exact hprod
  · have hout : (((taken c s.dev).cqPut r es).chFinish c 0xD8 w 0 0 0 w.count.toNat).outbox = ((taken c s.dev).cqPut r es).outbox :=
      hfoot.parts .outbox (by simp [finishFoot, plainFoot])
    rw [hout]
    exact hmem i (by rw [hlen]; exact i.isLt)

/-! ### The statement -/

/-- Settles O28. -/
theorem channelTransfers : Obligations.ChannelTransfers := by
  unfold Obligations.ChannelTransfers
  refine ⟨?move, ?query, ?moveDone, ?segment, ?idle, ?queryDone, ?qtake, ?jobEnd, ?record, ?retro, ?post⟩
  case move =>
    intro c w ws src dest n s hf hw ht hn hpos hread hx hres hdest hin hsrc hq
    exact chMove_waits hf hw ht hn hpos hread hx hres hdest hin hsrc hq
  case query =>
    intro c w ws s hf hw ht hread hres hlen hkind hin hdest
    exact chQuery_waits hf hw ht hread hres hlen hkind hin hdest
  case moveDone =>
    intro c src dest n wet ws q r s h hw _ hg hq hrun hend hx hr hlen hall hin
    exact transferDone_move h hw hg hq hrun hend hx hr hlen
      (getElem_of_getD (P := fun i v => decodeWord (s.dev.cell (src + i)) = .ok v) hlen hall) hin
  case segment =>
    intro c src n q r s h hq hrun hlong hwaits
    exact transferDone_segment h hq hrun hlong hwaits
  case idle =>
    intro c src n r s h hidle
    exact transferDone_idle h hidle
  case queryDone =>
    intro c id dest wet q r s h hw hn hq hst hg hin
    exact transferDone_query h hw hn hq hst hg hin
  case qtake =>
    intro c w s hf hw ht hn hin hj hcount
    exact chQtake_waits hf hw ht hn hin hj hcount
  case jobEnd =>
    intro c n dest st sub tag p l r s h hj hcount
    exact qtakeRecords_jobEnd h hj hcount
  case record =>
    intro c dest ws r s h hdry hcount hread
    exact qtakeRecords_record h hdry hcount hread
  case retro =>
    intro c w ws s hf hw ht hn hread
    exact chRetro_done hf hw ht hn hread
  case post =>
    intro c w ws s hf hw ht hn hst hread hes hh hroom
    exact chPost_done hf hw ht hn hst hread hes hh hroom

end Sys2Proof
end

section
/-! PROOF SUPPORT. Instructions (R341–R347): the registers of a context, a word whose checks pass or fail, what a completed
instruction leads to, and what it leaves alone. -/

namespace Sys2Proof

open Machine

/-! ### The processor of a context (R344) -/

namespace Machine.Proc

variable (p : Proc) (b : Bool) (i j : Nat) (v : Word)

@[simp] theorem setReg_zero : p.setReg b 0 v = p := if_pos rfl

@[simp] theorem pc_setReg : (p.setReg b i v).pc = p.pc := by
  unfold setReg
  repeat' split
  all_goals rfl

@[simp] theorem sp_setReg : (p.setReg b i v).sp = p.sp := by
  unfold setReg
  repeat' split
  all_goals rfl

@[simp] theorem fast_setReg : (p.setReg b i v).fast = p.fast := by simp [fast, special]

/-- A register of a bank read after one of that bank was written. -/
theorem reg_setReg_bank : (p.setReg b i v).reg b j = if i = j ∧ i ≠ 0 then v else p.reg b j := by
  by_cases hi : i = 0
  · simp [hi]
  · by_cases hj : j = 0
    · simp [reg, hj, hi]
    · cases b <;> simp [reg, setReg, hi, hj]

/-- The general registers do not go by the special registers, the program counter or the repeat. -/
theorem reg_congr {p q : Proc} (hw : q.w = p.w) (ha : q.alt = p.alt) : q.reg b i = p.reg b i := by simp only [reg, hw, ha]

/-- A special register read after one was written. -/
@[simp] theorem special_setSpecial : (p.setSpecial i v).special j = if i = j then v else p.special j := by
  simp [special, setSpecial]

theorem special_congr {p q : Proc} (h : q.sp = p.sp) : q.special i = p.special i := by simp only [special, h]

end Machine.Proc

/-! ### Registers of a context (R344) -/

/-- Context x goes on at the address pc. -/
def Machine.Dev.goTo (d : Dev) (x : Ctx) (pc : Word) : Dev := d.setCtx x { d.ctx x with pc := pc }

namespace Machine.Dev

variable (d : Dev) (x : Ctx) (p : Proc) (i j : Fin 32) (v : Word)

@[simp] theorem ctx_setCtx : (d.setCtx x p).ctx x = p := proc_setProc_same ..

@[simp] theorem ctx_setGpr : (d.setGpr x i v).ctx x = (d.ctx x).setReg (isControl x && (d.ctx x).fast) i.val v := ctx_setCtx ..

@[simp] theorem ctx_goTo : (d.goTo x v).ctx x = { d.ctx x with pc := v } := ctx_setCtx ..

/-- The general registers go by the context alone. -/
theorem gpr_congr {d t : Dev} (h : t.ctx x = d.ctx x) : t.gpr x i = d.gpr x i := by simp only [gpr, h]

/-- In a context they go by the two banks and by STATUS. -/
theorem gpr_congr_banks {d t : Dev} (hw : (t.ctx x).w = (d.ctx x).w) (ha : (t.ctx x).alt = (d.ctx x).alt)
    (hs : (t.ctx x).sp = (d.ctx x).sp) : t.gpr x i = d.gpr x i := by
  simp only [gpr, Proc.fast, Proc.special_congr 1 hs, Proc.reg_congr _ _ hw ha]

/-- w0 reads as zero. -/
@[simp] theorem gpr_zero : d.gpr x 0 = 0 := by simp [gpr, Proc.reg]

@[simp] theorem gpr_setGpr : (d.setGpr x i v).gpr x j = if i = j ∧ i ≠ 0 then v else d.gpr x j := by
  simp only [gpr, ctx_setGpr, Proc.fast_setReg, Proc.reg_setReg_bank, Fin.ext_iff, ne_eq]
  rfl

theorem gpr_setGpr_self : (d.setGpr x i v).gpr x i = if i = 0 then 0 else v := by
  rw [gpr_setGpr]
  split
  · next h => rw [if_neg h.2]
  · next h =>
    have hi : i = 0 := by simpa using h
    rw [if_pos hi, hi, gpr_zero]

@[simp] theorem gpr_goTo : (d.goTo x v).gpr x j = d.gpr x j := by
  simp only [gpr, ctx_goTo]
  rfl

end Machine.Dev

/-! ### What an instruction leaves alone -/

/-- From d to t nothing differs but the processor of context x, its channel, and the parts listed. -/
structure Confined (x : Ctx) (ps : List Part) (d t : Dev) : Prop where
  procs : ∀ n, n ≠ ctxNum x → t.proc n = d.proc n
  chans : ∀ n, n ≠ ctxNum x → t.chan n = d.chan n
  parts : ∀ p, p ∉ Part.procs :: .ibx :: ps → p.same d t

section
variable {x : Ctx} {ps : List Part} {d₀ d : Dev}

theorem Confined.refl (x : Ctx) (ps : List Part) (d : Dev) : Confined x ps d d where
  procs _ _ := rfl
  chans _ _ := rfl
  parts p _ := by cases p <;> rfl

theorem Confined.isaOnly {s : State} {t : Dev} (h : Confined x ps s.dev t) : IsaOnly x ps s { s with dev := t } :=
  ⟨h.procs, h.chans, rfl, h.parts⟩

variable (h : Confined x ps d₀ d)
include h

theorem Confined.trans {t : Dev} (g : Confined x ps d t) : Confined x ps d₀ t where
  procs n hn := (g.procs n hn).trans (h.procs n hn)
  chans n hn := (g.chans n hn).trans (h.chans n hn)
  parts p hp := Part.same_trans (h.parts p hp) (g.parts p hp)

/-- A change of parts that are listed. -/
theorem Confined.step {t : Dev} (hprocs : t.procs = d.procs) (hibx : t.ibx = d.ibx) (hp : ∀ p, p ∉ ps → p.same d t) :
    Confined x ps d₀ t :=
  h.trans {
    procs := fun n _ => by simp only [Dev.proc, hprocs]
    chans := fun n _ => by simp only [Dev.chan, hibx]
    parts := fun p hq => hp p fun hm => hq (by simp [hm]) }

theorem Confined.setCtx (p : Proc) : Confined x ps d₀ (d.setCtx x p) :=
  h.trans {
    procs := fun n hn => by simp [Dev.proc, Dev.setCtx, Dev.setProc, hn.symm]
    chans := fun _ _ => rfl
    parts := fun q hq => Part.same_setProc (fun e => hq (by simp [e])) d _ p }

theorem Confined.setGpr (i : Fin 32) (v : Word) : Confined x ps d₀ (d.setGpr x i v) := h.setCtx _

theorem Confined.goTo (pc : Word) : Confined x ps d₀ (d.goTo x pc) := h.setCtx _

theorem Confined.putCell (hp : Part.sram ∈ ps) (a : Nat) (m : MemWord) : Confined x ps d₀ (d.putCell a m) :=
  h.step rfl rfl fun p hq => by cases p with | sram => exact absurd hp hq | _ => rfl

theorem Confined.wr (hp : Part.regs ∈ ps) (r : Reg) (i : Nat) (v : Word) : Confined x ps d₀ (d.wr r i v) :=
  h.step rfl rfl fun p hq => Part.same_wr (fun (e : p = .regs) => hq (e ▸ hp)) d r i v

end

/-! ### A hold that was taken (R299) -/

namespace Machine.Dev

variable (d : Dev) (x : Ctx)

/-- Passing a hold changes what is known of channels. -/
theorem passHold_eq : ∃ y, d.passHold x = { d with ibx := y } := by
  unfold passHold
  split
  · split
    · exact ⟨_, rfl⟩
    · exact ⟨d.ibx, rfl⟩
  · exact ⟨d.ibx, rfl⟩

/-- What does not go by the channels is as before. -/
theorem passHold_reads {α : Type} (f : Dev → α) (hf : ∀ y, f { d with ibx := y } = f d) : f (d.passHold x) = f d := by
  obtain ⟨y, hy⟩ := d.passHold_eq x
  rw [hy, hf]

@[simp] theorem ctx_passHold : (d.passHold x).ctx x = d.ctx x := d.passHold_reads x (·.ctx x) fun _ => rfl

@[simp] theorem gpr_passHold (i : Fin 32) : (d.passHold x).gpr x i = d.gpr x i := gpr_congr x i (d.ctx_passHold x)

@[simp] theorem sram_passHold : (d.passHold x).sram = d.sram := d.passHold_reads x (·.sram) fun _ => rfl

@[simp] theorem cell_passHold (a : Nat) : (d.passHold x).cell a = d.cell a := d.passHold_reads x (·.cell a) fun _ => rfl

@[simp] theorem rd_passHold (r : Reg) (i : Nat) : (d.passHold x).rd r i = d.rd r i := d.passHold_reads x (·.rd r i) fun _ => rfl

@[simp] theorem accessFault_passHold (ea : Word) (store whole : Bool) :
    (d.passHold x).accessFault x ea store whole = d.accessFault x ea store whole :=
  d.passHold_reads x (·.accessFault x ea store whole) fun _ => rfl

end Machine.Dev

theorem Confined.passHold (x : Ctx) (ps : List Part) (d : Dev) : Confined x ps d (d.passHold x) := by
  unfold Dev.passHold
  split
  · next c =>
    split
    · exact {
        procs := fun _ _ => rfl
        chans := fun n hn => by
          have hne : c.val ≠ n := Ne.symm hn
          simp [Dev.chan, Dev.setChan, hne]
        parts := fun p hp => by cases p with | ibx => exact absurd (by simp) hp | _ => rfl }
    · exact .refl ..
  · exact .refl ..

/-! ### The checks of a word (R347) -/

/-- The status and sub-code of the first of the checks 2 to 6, and of the check of an open gather, that a word fails. -/
def Machine.Checks.failure (c : Checks) (control : Bool) (rep : Option Nat) (gather : Bool) : Option (Nat × Nat) :=
  if c.undef.isSome then some (0x11, c.undef.getD 0)
  else if c.control && !control then some (0x11, 3)
  else if c.norep && rep.isSome then some (0x11, 4)
  else if !c.zero then some (0x12, 0)
  else if !c.value then some (0x12, 1)
  else if gather && !c.hint then some (0x11, 1)
  else none

/-- What the effect of a word comes to: the fault of check 7, or the context goes on. -/
def Machine.Dev.settle (d : Dev) (x : Ctx) (w : Word) (r : Effect) : Dev :=
  match r.fault with
  | some f => r.dev.instrFault x (fld w 47 40) (d.ctx x).at_ f.1 f.2.1 f.2.2
  | none => (r.dev.advance x (d.ctx x).rep r.jump).storeAt x r.store

/-- A context that runs executes a word: the first check that fails is a fault, and a word that passes has its effect. -/
theorem issue_eq {d : Dev} {x : Ctx} (hr : d.ctxRuns x = true) (w : Word) (c : Checks) (body : Dev → Effect) :
    d.issue x w c body = (c.failure (isControl x) (d.ctx x).rep (d.inGather x)).elim (d.settle x w (body (d.passHold x)))
      (fun e => d.instrFault x (fld w 47 40) (d.ctx x).at_ e.1 e.2 w) := by
  unfold Dev.issue Checks.failure
  cases c.undef with
  | some sub => simp [hr]
  | none =>
    simp only [hr, Bool.not_true, Bool.false_eq_true, if_false, Option.isSome_none]
    split_ifs <;> rfl

/-! ### An instruction that is complete (R347, R378) -/

theorem Confined.advance {x : Ctx} {ps : List Part} {d₀ d : Dev} (h : Confined x ps d₀ d) (rep : Option Nat) (j : Option Word) :
    Confined x ps d₀ (d.advance x rep j) := by
  unfold Dev.advance
  repeat' split
  all_goals exact h.setCtx _

namespace Machine.Dev

variable (d : Dev) (x : Ctx) (j : Option Word)

/-- Outside a repeat the program goes on at the next word, or where the instruction jumps. -/
theorem advance_none : d.advance x none j = d.goTo x (j.getD ((d.ctx x).pc + 1)) := rfl

/-- The last iteration of a repeat ends it (R379). -/
theorem advance_last {n : Nat} (h : n ≤ 1) :
    d.advance x (some n) j = d.setCtx x { d.ctx x with pc := (d.ctx x).pc + 2, rep := none } :=
  if_pos h

/-- Every other one counts down. -/
theorem advance_again {n : Nat} (h : ¬ n ≤ 1) : d.advance x (some n) j = d.setCtx x { d.ctx x with rep := some (n - 1) } := if_neg h

/-- Going on writes no register. -/
@[simp] theorem gpr_advance (rep : Option Nat) (i : Fin 32) : (d.advance x rep j).gpr x i = d.gpr x i := by
  have hctx : ((d.advance x rep j).ctx x).w = (d.ctx x).w ∧ ((d.advance x rep j).ctx x).alt = (d.ctx x).alt ∧
      ((d.advance x rep j).ctx x).sp = (d.ctx x).sp := by
    cases rep with
    | none => simp [advance_none]
    | some n =>
      by_cases hn : n ≤ 1
      · simp [advance_last, hn]
      · simp [advance_again, hn]
  exact gpr_congr_banks x i hctx.1 hctx.2.1 hctx.2.2

end Machine.Dev

section
variable {x : Ctx} {s : State} {f : Dev → Dev} {w : Word} {c : Checks} {body : Dev → Effect} {e : Dev} {j : Option Word}

/-- A command that takes the block to t. -/
theorem run_to {t : Dev} (hp : s.dev.powered = true) (ht : f s.dev = t) : s.run f = .next { s with dev := t } :=
  ht ▸ State.run_powered hp f

/-- A word that passes its checks, in a repeat or not, where its effect is no fault. -/
theorem issue_advances {d : Dev} (hr : d.ctxRuns x = true) (hc : c.failure (isControl x) (d.ctx x).rep (d.inGather x) = none)
    (hb : body (d.passHold x) = { dev := e, jump := j }) : d.issue x w c body = e.advance x (d.ctx x).rep j := by
  rw [issue_eq hr, hc, Option.elim, hb]
  rfl

variable (h : IsaReady x s)
include h

theorem IsaReady.pow : s.dev.powered = true := h.1

/-- A word that passes its checks, where its effect is no fault. -/
theorem issue_completes (hc : c.failure (isControl x) none false = none) (hb : body (s.dev.passHold x) = { dev := e, jump := j }) :
    s.dev.issue x w c body = e.goTo x (j.getD ((e.ctx x).pc + 1)) := by
  obtain ⟨-, hruns, hg, hrep⟩ := h
  rw [issue_advances hruns (by rwa [hg, hrep]) hb, hrep, e.advance_none]

/-- The same where the next word follows. -/
theorem issue_goesOn (hc : c.failure (isControl x) none false = none) (hb : body (s.dev.passHold x) = { dev := e })
    (hpc : (e.ctx x).pc = (s.dev.ctx x).pc) : s.dev.issue x w c body = e.goTo x ((s.dev.ctx x).pc + 1) := by
  rw [issue_completes (j := none) h hc hb, hpc]
  rfl

/-- A word that passes its checks and stores to a register: the write comes once the context has gone on. -/
theorem issue_stores {a : Nat} {v : Word} (hc : c.failure (isControl x) none false = none)
    (hb : body (s.dev.passHold x) = { dev := e, store := some (a, v) }) :
    s.dev.issue x w c body = Dev.busWrite (ctxRequester x) ((a - 0x1000000) / 65536) (a % 65536) (v.setWidth 64)
      (e.goTo x ((e.ctx x).pc + 1)) := by
  obtain ⟨-, hruns, hg, hrep⟩ := h
  rw [issue_eq hruns, hg, hrep, hc, Option.elim, hb]
  simp only [Dev.settle, hrep]
  rfl

/-- A word that passes its checks and meets a fault in what it does. -/
theorem issue_faults (hc : c.failure (isControl x) none false = none) {k : Nat × Nat × Word}
    (hb : body (s.dev.passHold x) = { dev := e, fault := some k }) :
    s.dev.issue x w c body = e.instrFault x (fld w 47 40) (s.dev.ctx x).pc k.1 k.2.1 k.2.2 := by
  obtain ⟨-, hruns, hg, hrep⟩ := h
  rw [issue_eq hruns, hg, hrep, hc, Option.elim, hb]
  simp [Dev.settle, Proc.at_, hrep]

/-- A word that fails a check. -/
theorem issue_fails {k : Nat × Nat} (hc : c.failure (isControl x) none false = some k) :
    s.dev.issue x w c body = s.dev.instrFault x (fld w 47 40) (s.dev.ctx x).pc k.1 k.2 w := by
  obtain ⟨-, hruns, hg, hrep⟩ := h
  rw [issue_eq hruns, hg, hrep, hc, Option.elim]
  simp [Proc.at_, hrep]

/-- An instruction that puts v in register i, after changes of the parts listed that leave the context, and goes on: the context
and the memory after it, and what it leaves alone. -/
theorem run_setGpr {ps : List Part} {i : Fin 32} {v : Word} (hf : f s.dev = s.dev.issue x w c body)
    (hc : c.failure (isControl x) none false = none) (hb : body (s.dev.passHold x) = { dev := e.setGpr x i v, jump := j })
    (he : Confined x ps s.dev e) (hctx : e.ctx x = s.dev.ctx x) :
    ∃ t, s.run f = .next t ∧ t.dev.sram = e.sram ∧ IsaTo x i v (j.getD ((s.dev.ctx x).pc + 1)) s t ∧ IsaOnly x ps s t := by
  refine ⟨_, run_to h.pow (hf.trans (issue_completes h hc hb)), rfl, ?_, ((he.setGpr i v).goTo _).isaOnly⟩
  simp [IsaTo, hctx]

/-- An instruction that leaves the context but for the next word. -/
theorem run_passes {ps : List Part} (hf : f s.dev = s.dev.issue x w c body) (hc : c.failure (isControl x) none false = none)
    (hb : body (s.dev.passHold x) = { dev := e }) (he : Confined x ps s.dev e) (hctx : e.ctx x = s.dev.ctx x) :
    ∃ t, s.run f = .next t ∧ t.dev.sram = e.sram ∧ IsaPasses x s t ∧ IsaOnly x ps s t := by
  refine ⟨_, run_to h.pow (hf.trans (issue_completes (j := none) h hc hb)), rfl, ?_, (he.goTo _).isaOnly⟩
  simp [IsaPasses, hctx]

/-- The same where nothing but the register is written, and the instruction jumps. -/
theorem run_jumps {i : Fin 32} {v pc : Word} (hf : f s.dev = s.dev.issue x w c body)
    (hc : c.failure (isControl x) none false = none)
    (hb : body (s.dev.passHold x) = { dev := (s.dev.passHold x).setGpr x i v, jump := some pc }) :
    ∃ t, s.run f = .next t ∧ IsaTo x i v pc s t ∧ IsaOnly x [] s t := by
  obtain ⟨t, ht, -, hto, honly⟩ := run_setGpr h hf hc hb (.passHold x [] s.dev) (by simp)
  exact ⟨t, ht, hto, honly⟩

/-- The same where nothing but the register is written, and the next word follows. -/
theorem run_writes {i : Fin 32} {v : Word} (hf : f s.dev = s.dev.issue x w c body)
    (hc : c.failure (isControl x) none false = none)
    (hb : body (s.dev.passHold x) = { dev := (s.dev.passHold x).setGpr x i v }) :
    ∃ t, s.run f = .next t ∧ IsaWrites x i v s t ∧ IsaOnly x [] s t := by
  obtain ⟨t, ht, -, hto, honly⟩ := run_setGpr h hf hc hb (.passHold x [] s.dev) (by simp)
  exact ⟨t, ht, hto, honly⟩

end

end Sys2Proof
end

section
/-! PROOF. O30: register instructions (R351–R354) write their result and nothing else; compares, quotients, remainders and products
as the statement gives them. -/

namespace Sys2Proof

open Machine

/-! ### Results -/

theorem cmps_eq (a b : Word) : cmps a b = if a.toInt < b.toInt then -1 else if a = b then 0 else 1 := by
  simp only [cmps, cmpWord, BitVec.slt_iff_toInt_lt, decide_eq_true_eq]
  rfl

theorem cmpu_eq (a b : Word) : cmpu a b = if a < b then -1 else if a = b then 0 else 1 := by
  simp only [cmpu, cmpWord, BitVec.ult_iff_lt, decide_eq_true_eq]
  rfl

theorem divs_eq (a b : Word) : divs a b = if b = 0 then -1 else wordOfInt (a.toInt.tdiv b.toInt) := by
  have hq : a.sdiv b = wordOfInt (a.toInt.tdiv b.toInt) :=
    BitVec.eq_of_toInt_eq (by rw [BitVec.toInt_sdiv, wordOfInt, BitVec.toInt_ofInt])
  rw [divs, hq]
  rfl

theorem rems_eq (a b : Word) : rems a b = if b = 0 then a else wordOfInt (a.toInt.tmod b.toInt) := by
  have hr : a.srem b = wordOfInt (a.toInt.tmod b.toInt) := by rw [wordOfInt, ← BitVec.toInt_srem, BitVec.ofInt_toInt]
  rw [rems, hr]

theorem insh_eq (a : Word) (imm : BitVec 30) : insh a imm = setFld a 47 18 imm.toNat := by
  refine BitVec.eq_of_getLsbD_eq fun k hk => ?_
  have hparts : insh a imm = (a &&& BitVec.ofNat 48 (2 ^ 18 - 1)) ||| (imm.setWidth 48 <<< 18) := rfl
  rw [getLsbD_setFld, hparts, BitVec.getLsbD_or, BitVec.getLsbD_and, BitVec.getLsbD_ofNat, Nat.testBit_two_pow_sub_one,
    BitVec.getLsbD_shiftLeft, BitVec.getLsbD_setWidth]
  by_cases h : k < 18
  · simp [h, hk]
  · have h' : 18 ≤ k := by omega
    simp [h, h', hk, BitVec.getLsbD, show k - 18 < 48 by omega]

/-- The low word of a product of 96 bits. -/
theorem setWidth_ofInt_low (z : Int) : (BitVec.ofInt 96 z).setWidth 48 = wordOfInt z := by
  refine BitVec.eq_of_toNat_eq (Int.ofNat_inj.1 ?_)
  simp only [BitVec.toNat_setWidth, BitVec.toNat_ofInt, wordOfInt]
  omega

/-- The high word. -/
theorem setWidth_ofInt_high (z : Int) : ((BitVec.ofInt 96 z) >>> 48).setWidth 48 = wordOfInt (z / 2 ^ 48) := by
  refine BitVec.eq_of_toNat_eq (Int.ofNat_inj.1 ?_)
  simp only [BitVec.toNat_setWidth, BitVec.toNat_ushiftRight, Nat.shiftRight_eq_div_pow, BitVec.toNat_ofInt, wordOfInt]
  omega

/-! ### The shapes of the instructions -/

section
variable {x : Ctx} {s : State} (h : IsaReady x s)
include h

theorem alu_writes {f : RR} (hr : f.rsv = 0) (hf : f.func = 0) (op : Nat) (g : Word → Word → Word) :
    ∃ t, s.run (fun d => d.alu x op f g) = .next t ∧ IsaWrites x f.d (g (s.dev.gpr x f.a) (s.dev.gpr x f.b)) s t ∧
      IsaOnly x [] s t :=
  run_writes h rfl (by simp [Checks.failure, hr, hf]) (by simp)

theorem aluImm_writes (f : RI) (op : Nat) {ok : Bool} (hok : ok = true) (g : Word → Word) :
    ∃ t, s.run (fun d => d.aluImm x op f ok g) = .next t ∧ IsaWrites x f.d (g (s.dev.gpr x f.a)) s t ∧ IsaOnly x [] s t :=
  run_writes h rfl (by simp [Checks.failure, hok]) (by simp)

theorem mulDouble_writes {f : RR} (hr : f.rsv = 0) (hf : f.func = 0) (h1 : 1 ≤ f.d.val) (h30 : f.d.val ≤ 30) (op : Nat)
    (g : Word → Word → Int) :
    ∃ t, s.run (fun d => d.mulDouble x op f g) = .next t ∧
      t.dev.gpr x f.d = wordOfInt (g (s.dev.gpr x f.a) (s.dev.gpr x f.b)) ∧
      t.dev.gpr x (nextReg f.d) = wordOfInt (g (s.dev.gpr x f.a) (s.dev.gpr x f.b) / 2 ^ 48) ∧
      (∀ i : Fin 32, i ≠ f.d → i ≠ nextReg f.d → t.dev.gpr x i = s.dev.gpr x i) ∧
      (t.dev.ctx x).pc = (s.dev.ctx x).pc + 1 ∧ (t.dev.ctx x).sp = (s.dev.ctx x).sp ∧ IsaOnly x [] s t := by
  have hnext : (nextReg f.d).val = f.d.val + 1 := Nat.mod_eq_of_lt (by omega)
  have hd : f.d ≠ 0 := by rw [ne_eq, Fin.ext_iff]; simp; omega
  have hn : nextReg f.d ≠ 0 := by rw [ne_eq, Fin.ext_iff]; simp; omega
  have hne : nextReg f.d ≠ f.d := by rw [ne_eq, Fin.ext_iff]; omega
  refine ⟨_, run_to h.pow (issue_completes h (by simp [Checks.failure, hr, hf, h1, h30]) rfl), ?_, ?_, ?_, ?_, ?_,
    ((((Confined.passHold x [] s.dev).setGpr _ _).setGpr _ _).goTo _).isaOnly⟩
  · simp [hne, hd, setWidth_ofInt_low]
  · simp [hn, setWidth_ofInt_high]
  · intro i hi hi'
    simp [hi.symm, hi'.symm]
  · simp
  · simp

end

/-! ### The statement -/

/-- Settles O30: every register instruction has one of three shapes, each run once, and gives the result that is stated. -/
theorem registerInstructions : Obligations.RegisterInstructions := by
  unfold Obligations.RegisterInstructions
  refine ⟨?twoSources, ?immediate, ?shift, ?product⟩
  case twoSources =>
    rintro x f a b s h hr hf rfl rfl
    have run := alu_writes h hr hf
    simp only [← cmps_eq, ← cmpu_eq, ← divs_eq, ← rems_eq]
    simp only [← BitVec.slt_iff_toInt_lt, ← BitVec.ult_iff_lt]
    exact ⟨run 1 _, run 2 _, run 3 _, run 4 _, run 5 _, run 6 _, run 7 _, run 8 _, run 9 _, run 0xA _, run 0xB _, run 0xC _,
      run 0xD _, run 0xE _, run 0x20 _, run 0x24 _, run 0x25 _, run 0x26 _, run 0x27 _⟩
  case immediate =>
    rintro x f a s h rfl
    have run := aluImm_writes h f
    have hs (a : Word) : (if a.toInt < f.imm.toInt then -1 else if a.toInt = f.imm.toInt then 0 else 1) = cmps a f.sx := by
      have hx : f.sx.toInt = f.imm.toInt := BitVec.toInt_signExtend_of_le (by omega)
      rw [cmps_eq, hx, ← hx]
      simp only [BitVec.toInt_inj]
    simp only [← cmpu_eq, hs, ← insh_eq]
    exact ⟨run 0x10 rfl _, run 0x12 rfl _, run 0x13 rfl _, run 0x14 rfl _, run 0x18 rfl _, run 0x19 rfl _, run 0x1A rfl _⟩
  case shift =>
    rintro x f a s h hn rfl
    have hok := decide_eq_true hn
    exact ⟨aluImm_writes h f 0x15 hok _, aluImm_writes h f 0x16 hok _, aluImm_writes h f 0x17 hok _⟩
  case product =>
    rintro x f a b s h hr hf h1 h30 rfl rfl
    exact ⟨mulDouble_writes h hr hf h1 h30 0x21 _, mulDouble_writes h hr hf h1 h30 0x22 _⟩

end Sys2Proof
end

section
/-! PROOF. O31: w0 (R344), REP (R378) and the iterations of a repeated word (R379). -/

namespace Sys2Proof

open Machine

/-- A REP whose next word was fetched and may follow it: no iteration skips the next word, else the repeat is in progress. -/
theorem repOp_fetched {x : Ctx} {s : State} {f : RepWord} {v : Word} (h : IsaReady x s)
    (hw : s.dev.fetchWord x ((s.dev.ctx x).pc + 1) = (none, v, s.dev)) (hv : repForbidden (fld v 47 40) = false) {n : Nat}
    (hn : (f.mode = 0 ∧ f.a = 0 ∧ n = f.imm.toNat) ∨ (f.mode = 1 ∧ f.imm = 0 ∧ n = (s.dev.gpr x f.a).toNat)) :
    repOp x f s.dev =
      if n = 0 then (s.dev.passHold x).goTo x ((s.dev.ctx x).pc + 2)
      else ((s.dev.passHold x).setCtx x { s.dev.ctx x with rep := some n }).goTo x (s.dev.ctx x).pc := by
  have hruns := h.2.1
  have hrep := h.2.2.2
  unfold repOp
  simp only [hw, hruns, hrep, hv, Option.isSome_none, Option.isNone_none, Bool.and_false, Bool.and_true, Bool.false_eq_true,
    if_true, if_false]
  have hfields : ((f.mode.val ≠ 0 || f.a.val = 0) && (f.mode.val ≠ 1 || f.imm = 0)) = true ∧ f.mode.val ≤ 1 := by
    rcases hn with ⟨hm, ha, -⟩ | ⟨hm, hi, -⟩
    · simp [hm, ha]
    · simp [hm, hi]
  have hcount : (if f.mode.val = 0 then f.imm.toNat else (s.dev.gpr x f.a).toNat) = n := by
    rcases hn with ⟨hm, -, hn⟩ | ⟨hm, -, hn⟩
    · simp [hm, hn]
    · simp [hm, hn]
  have hc : (Checks.mk none false false true ((f.mode.val ≠ 0 || f.a.val = 0) && (f.mode.val ≠ 1 || f.imm = 0))
      (f.mode.val ≤ 1)).failure (isControl x) none false = none := by
    simp only [Checks.failure, hfields.1, hfields.2]
    rfl
  by_cases h0 : n = 0
  · rw [if_pos h0]
    exact issue_completes (j := some _) h hc (by simp only [Dev.gpr_passHold, hcount, h0, if_true])
  · rw [if_neg h0]
    exact issue_completes (j := some _) h hc (by simp only [Dev.gpr_passHold, Dev.ctx_passHold, hcount, h0, if_false])

/-- A word of an ADD that is repeated leaves its sum, and one iteration is over. -/
theorem addOp_repeated {x : Ctx} {f : RR} {s : State} (hruns : s.dev.ctxRuns x = true) (hg : s.dev.inGather x = false)
    (hr : f.rsv = 0) (hf : f.func = 0) :
    addOp x f s.dev = ((s.dev.passHold x).setGpr x f.d (s.dev.gpr x f.a + s.dev.gpr x f.b)).advance x (s.dev.ctx x).rep none := by
  unfold addOp Dev.alu
  exact issue_advances hruns (by simp [Checks.failure, hg, hr, hf]) (by simp)

/-- Settles O31: w0 by the rules of a context's registers, REP by its two ends, and a repeated word by the two ways in which an
iteration ends. -/
theorem registerZeroAndRepeat : Obligations.RegisterZeroAndRepeat := by
  unfold Obligations.RegisterZeroAndRepeat
  refine ⟨fun x s => s.dev.gpr_zero x, fun x v s => ?zeroWrite, fun x d i v s hi => ?other, fun x d v s hd => ?same, ?count, ?skip,
    ?again, ?last⟩
  case zeroWrite => simp [Dev.setGpr]
  case other => simp [hi.symm]
  case same => simp [hd]
  case count =>
    intro x f v s h hm ha hi hw hv
    have hn : f.imm.toNat ≠ 0 := fun e => hi (BitVec.eq_of_toNat_eq e)
    have hrep := repOp_fetched h hw hv (.inl ⟨hm, ha, rfl⟩)
    rw [if_neg hn] at hrep
    exact ⟨_, run_to h.pow hrep, by simp, (((Confined.passHold x [] s.dev).setCtx _).goTo _).isaOnly⟩
  case skip =>
    intro x f v s h hm hi hw hv ha
    have hrep := repOp_fetched h hw hv (.inr ⟨hm, hi, rfl⟩)
    rw [ha] at hrep
    exact ⟨_, run_to h.pow hrep, by simp, ((Confined.passHold x [] s.dev).goTo _).isaOnly⟩
  case again =>
    intro x f n s hp hruns hg hn hr hf
    refine ⟨_, run_to hp (addOp_repeated hruns hg hr hf), ?_, ?_, ?_,
      (((Confined.passHold x [] s.dev).setGpr _ _).advance ..).isaOnly⟩
    · simp [hn, Dev.advance_again]
    · simp [hn, Dev.advance_again]
    · exact (Dev.gpr_advance ..).trans (Dev.gpr_setGpr_self ..)
  case last =>
    intro x f s hp hruns hg hn hr hf
    refine ⟨_, run_to hp (addOp_repeated hruns hg hr hf), ?_, ?_, ?_,
      (((Confined.passHold x [] s.dev).setGpr _ _).advance ..).isaOnly⟩
    · simp [hn, Dev.advance_last]
    · simp [hn, Dev.advance_last]
    · exact (Dev.gpr_advance ..).trans (Dev.gpr_setGpr_self ..)

end Sys2Proof
end

section
/-! PROOF SUPPORT. Accesses of instructions to SRAM (R355–R361): what a load, a store and a lane store of a word that is in order
come to, and the code of a word stored whole (R418, R419). -/

namespace Sys2Proof

open Machine

/-! ### Words stored whole (R418, R419) -/

theorem parity_succ (n x : Nat) : parity (n + 1) x = (parity n x ^^ x.testBit n) := by
  simp [parity, List.range_succ]

/-- The low bits alone count. -/
theorem parity_congr {n x y : Nat} (h : ∀ i < n, x.testBit i = y.testBit i) : parity n x = parity n y := by
  induction n with
  | zero => rfl
  | succ n ih => rw [parity_succ, parity_succ, ih fun i hi => h i (by omega), h n (by omega)]

/-- The positions of the code have six bits. -/
theorem syndromeOf_lt (w : Word) : syndromeOf w < 64 := by
  unfold syndromeOf
  refine List.foldlRecOn (motive := fun n => n < 64) _ _ (by decide) fun n hn ip hip => ?_
  have hpos : ip.2 < 64 := by
    have hall : ∀ p ∈ dataPositions, p < 64 := by decide
    exact hall _ (List.of_mem_zip hip).2
  split
  · exact Nat.xor_lt_two_pow (n := 6) hn hpos
  · exact hn

/-- A word stored with its check bits reads as it is. -/
@[simp] theorem decodeWord_goodWord (w : Word) : decodeWord (goodWord w) = .ok w := by
  have hlt : syndromeOf w < 2 ^ 6 := syndromeOf_lt w
  have hchk : (checkField w).toNat = 2 ^ 6 * (parity 48 w.toNat ^^ parity 6 (syndromeOf w)).toNat + syndromeOf w := by
    simp only [checkField, BitVec.toNat_ofNat]
    cases (parity 48 w.toNat ^^ parity 6 (syndromeOf w))
    · simp; omega
    · simp; omega
  have hsix : parity 6 (checkField w).toNat = parity 6 (syndromeOf w) :=
    parity_congr fun i hi => by rw [hchk, Nat.testBit_two_pow_mul_add _ hlt, if_pos hi]
  have htop : (checkField w).toNat.testBit 6 = (parity 48 w.toNat ^^ parity 6 (syndromeOf w)) := by
    rw [hchk, Nat.testBit_two_pow_mul_add _ hlt]
    cases (parity 48 w.toNat ^^ parity 6 (syndromeOf w)) <;> rfl
  have hs : (checkField w).toNat % 64 ^^^ syndromeOf w = 0 := by
    rw [hchk, show (64 : Nat) = 2 ^ 6 from rfl, Nat.mul_add_mod, Nat.mod_eq_of_lt hlt, Nat.xor_self]
  have hp : (parity 48 w.toNat ^^ parity 7 (checkField w).toNat) = false := by
    rw [parity_succ 6, hsix, htop]
    cases parity 48 w.toNat <;> cases parity 6 (syndromeOf w) <;> rfl
  simp only [decodeWord, goodWord, hs, hp]
  rfl

/-! ### Loads and stores of words in SRAM -/

@[simp] theorem Machine.Dev.ctx_putCell (d : Dev) (x : Ctx) (a : Nat) (m : MemWord) : (d.putCell a m).ctx x = d.ctx x := rfl

@[simp] theorem Machine.Dev.gpr_putCell (d : Dev) (x : Ctx) (a : Nat) (m : MemWord) (i : Fin 32) :
    (d.putCell a m).gpr x i = d.gpr x i := rfl

theorem dasArea_sram {a : Nat} (h : (sramRegion a).isSome = true) : ∃ r, dasArea a = .sram r := by
  obtain ⟨r, hr⟩ := Option.isSome_iff_exists.1 h
  exact ⟨r, by rw [dasArea, hr]⟩

section
variable {d : Dev} {x : Ctx} {ea : Word}

/-- A word of SRAM that decodes, and that the context may read. -/
theorem memRead_sram (hin : (sramRegion ea.toNat).isSome = true) {v : Word} (hv : decodeWord (d.cell ea.toNat) = .ok v) :
    d.memRead x ea = (0, v, d) := by
  obtain ⟨r, hr⟩ := dasArea_sram hin
  simp only [Dev.memRead, hr, Dev.sramRead_ok hv]
  rfl

theorem load_sram {whole : Bool} (hacc : d.accessFault x ea false whole = none) (hin : (sramRegion ea.toNat).isSome = true)
    {v : Word}
    (hv : decodeWord (d.cell ea.toNat) = .ok v) (k : Word → Dev → Effect) : d.load x ea whole k = k v d := by
  rw [Dev.load, hacc, memRead_sram hin hv]
  rfl

theorem storeWord_sram (hacc : d.accessFault x ea true true = none) (hin : (sramRegion ea.toNat).isSome = true)
    (hi : d.rdB .edcInjCtl 0 8 = false) (w : Word) (k : Dev → Dev) :
    d.storeWord x ea w k = { dev := k (d.putCell ea.toNat (goodWord w)) } := by
  obtain ⟨r, hr⟩ := dasArea_sram hin
  simp only [Dev.storeWord, hacc, hr, Dev.sramWrite_eq hi]

/-- A store to a register is written later. -/
theorem storeWord_reg (hacc : d.accessFault x ea true true = none) {win off : Nat} (harea : dasArea ea.toNat = .reg win off)
    (w : Word)
    (k : Dev → Dev) : d.storeWord x ea w k = { dev := k d, store := some (ea.toNat, w) } := by
  simp only [Dev.storeWord, hacc, harea]

theorem sramMerge_ok {a : Nat} {v : Word} (hv : decodeWord (d.cell a) = .ok v) (g : Word → Word) :
    d.sramMerge a g = (none, d.putCell a (goodWord (g v))) := by
  unfold Dev.sramMerge
  rw [hv]

theorem storeLane_sram (hacc : d.accessFault x ea true false = none) {v : Word} (hv : decodeWord (d.cell ea.toNat) = .ok v)
    (hi lo : Nat) (w : Word) :
    d.storeLane x ea hi lo w = { dev := d.putCell ea.toNat (goodWord (setFld v hi lo w.toNat)) } := by
  rw [Dev.storeLane, hacc, sramMerge_ok hv]

/-- An access that the context may not make (R358, R359). -/
theorem load_fault {whole : Bool} {e : Nat × Nat} (hacc : d.accessFault x ea false whole = some e) (k : Word → Dev → Effect) :
    d.load x ea whole k = { dev := d, fault := some (e.1, e.2, ea) } := by
  simp only [Dev.load, hacc]

theorem storeWord_fault {e : Nat × Nat} (hacc : d.accessFault x ea true true = some e) (w : Word) (k : Dev → Dev) :
    d.storeWord x ea w k = { dev := d, fault := some (e.1, e.2, ea) } := by
  simp only [Dev.storeWord, hacc]

end

/-! ### Instructions that access SRAM -/

section
variable {d : Dev} {x : Ctx} {ea : Word}

/-- A load once the hold is passed. -/
theorem load_passHold {whole : Bool} (hacc : d.accessFault x ea false whole = none) (hin : (sramRegion ea.toNat).isSome = true)
    {v : Word} (hv : decodeWord (d.cell ea.toNat) = .ok v) (k : Word → Dev → Effect) :
    (d.passHold x).load x ea whole k = k v (d.passHold x) :=
  load_sram (by simpa using hacc) hin (by simpa using hv) k

/-- A store of a word once the hold is passed. -/
theorem storeWord_passHold (hacc : d.accessFault x ea true true = none) (hin : (sramRegion ea.toNat).isSome = true)
    (hi : d.rdB .edcInjCtl 0 8 = false) (w : Word) (k : Dev → Dev) :
    (d.passHold x).storeWord x ea w k = { dev := k ((d.passHold x).putCell ea.toNat (goodWord w)) } :=
  storeWord_sram (by simpa using hacc) hin (by simpa [Dev.rdB] using hi) w k

/-- A store of a lane once the hold is passed. -/
theorem storeLane_passHold (hacc : d.accessFault x ea true false = none) {v : Word} (hv : decodeWord (d.cell ea.toNat) = .ok v)
    (hi lo : Nat) (w : Word) :
    (d.passHold x).storeLane x ea hi lo w = { dev := (d.passHold x).putCell ea.toNat (goodWord (setFld v hi lo w.toNat)) } :=
  storeLane_sram (by simpa using hacc) (by simpa using hv) hi lo w

end

/-- A word put in a cell is there, and every other cell is as before. -/
theorem stored_putCell {x : Ctx} {s t : State} {a : Nat} {m : MemWord} (hwf : memWf .blank s.dev.sram = true)
    (ht : t.dev.sram = ((s.dev.passHold x).putCell a m).sram) : t.dev.cell a = m ∧ SramOnly a 1 s t := by
  have hcell : ∀ b, t.dev.cell b = if a = b then m else s.dev.cell b := fun b => by
    rw [← Dev.cell_putCell hwf]
    simp only [Dev.cell, ht, Dev.putCell, Dev.sram_passHold]
  refine ⟨(hcell a).trans (if_pos rfl), fun b hb => (hcell b).trans (if_neg ?_)⟩
  omega

section
variable {x : Ctx} {s : State} {f : Dev → Dev} {w : Word} {c : Checks} {body : Dev → Effect} {a : Nat} {m : MemWord}
  (h : IsaReady x s) (hwf : memWf .blank s.dev.sram = true) (hf : f s.dev = s.dev.issue x w c body)
  (hc : c.failure (isControl x) none false = none)
include h hwf hf hc

/-- An instruction that replaces one word of SRAM. -/
theorem run_stores (hb : body (s.dev.passHold x) = { dev := (s.dev.passHold x).putCell a m }) :
    ∃ t, s.run f = .next t ∧ t.dev.cell a = m ∧ IsaPasses x s t ∧ SramOnly a 1 s t ∧ IsaOnly x [.sram] s t := by
  obtain ⟨t, ht, hsram, hpass, honly⟩ := run_passes h hf hc hb ((Confined.passHold x [.sram] s.dev).putCell (by simp) a m)
    (s.dev.ctx_passHold x)
  obtain ⟨hcell, hbeside⟩ := stored_putCell hwf hsram
  exact ⟨t, ht, hcell, hpass, hbeside, honly⟩

/-- An instruction that replaces one word of SRAM and writes a register. -/
theorem run_stores_writes {i : Fin 32} {v : Word}
    (hb : body (s.dev.passHold x) = { dev := ((s.dev.passHold x).putCell a m).setGpr x i v }) :
    ∃ t, s.run f = .next t ∧ t.dev.cell a = m ∧ IsaWrites x i v s t ∧ SramOnly a 1 s t ∧ IsaOnly x [.sram] s t := by
  obtain ⟨t, ht, hsram, hto, honly⟩ := run_setGpr h hf hc hb ((Confined.passHold x [.sram] s.dev).putCell (by simp) a m)
    (s.dev.ctx_passHold x)
  obtain ⟨hcell, hbeside⟩ := stored_putCell hwf hsram
  exact ⟨t, ht, hcell, hto, hbeside, honly⟩

end

end Sys2Proof
end

section
/-! PROOF SUPPORT. The words of the instruction set (R290, R342): the opcode and the fields of a word that was put together. -/

namespace Sys2Proof

open Machine

/-! ### A field of a word in which fields were written -/

section
variable (w : Word) {hi lo hi' lo' n : Nat}

theorem ofNat_fld_setFld_same [NeZero n] (i : Fin n) (h : n = 2 ^ (hi + 1 - lo)) (hlo : lo ≤ hi) (hhi : hi < 48) :
    Fin.ofNat n (fld (setFld w hi lo i.val) hi lo) = i := by
  have hi := i.isLt
  rw [fld_setFld_same w _ hlo hhi, ← h, Nat.mod_eq_of_lt hi]
  exact Fin.ofNat_val_eq_self i

theorem regField_setFld_same (i : Fin 32) (h : hi = lo + 4) (hhi : hi < 48) : regField (setFld w hi lo i.val) hi lo = i :=
  ofNat_fld_setFld_same w i (by rw [h, show lo + 4 + 1 - lo = 5 by omega]; rfl) (by omega) hhi

theorem regField_setFld_disj (v : Nat) (h : hi < lo' ∨ hi' < lo) : regField (setFld w hi lo v) hi' lo' = regField w hi' lo' := by
  rw [regField, fld_setFld_disj w v h, regField]

theorem extractLsb'_setFld_same (v : BitVec n) (h : hi + 1 = lo + n) (hlo : lo ≤ hi) (hhi : hi < 48) :
    (setFld w hi lo v.toNat).extractLsb' lo n = v := by
  refine BitVec.eq_of_toNat_eq ?_
  have hv := fld_setFld_same w v.toNat hlo hhi
  rw [fld, h, Nat.add_sub_cancel_left, Nat.mod_eq_of_lt v.isLt] at hv
  rw [BitVec.extractLsb'_toNat, hv]

theorem extractLsb'_setFld_disj (v : Nat) (h : hi < lo' ∨ lo' + n ≤ lo) (hn : 0 < n) :
    (setFld w hi lo v).extractLsb' lo' n = w.extractLsb' lo' n := by
  refine BitVec.eq_of_toNat_eq ?_
  have hf := fld_setFld_disj w (hi := hi) (lo := lo) (hi' := lo' + n - 1) (lo' := lo') v (by omega)
  rw [fld, fld, show lo' + n - 1 + 1 - lo' = n by omega] at hf
  rw [BitVec.extractLsb'_toNat, BitVec.extractLsb'_toNat, hf]

theorem bit_setFld_flag {i : Nat} (b : Bool) (h : i < 48) : bit (setFld w i i (flagBit b)) i = b := bit_setBit_same w b h

end

/-! ### Opcodes (R290, R342) -/

section
variable {op : Nat} (hop : op < 256)
include hop

theorem RR.opcode_word (f : RR) : fld (f.word op) 47 40 = op := by
  simp (disch := decide) only [RR.word, fld_setFld_disj, fld_setFld_same]
  omega

theorem RI.opcode_word (f : RI) : fld (f.word op) 47 40 = op := by
  simp (disch := decide) only [RI.word, fld_setFld_disj, fld_setFld_same]
  omega

theorem CB.opcode_word (f : CB) : fld (f.word op) 47 40 = op := by
  simp (disch := decide) only [CB.word, fld_setFld_disj, fld_setFld_same]
  omega

theorem CBI.opcode_word (f : CBI) : fld (f.word op) 47 40 = op := by
  simp (disch := decide) only [CBI.word, fld_setFld_disj, fld_setFld_same]
  omega

theorem ChWord.opcode_word (f : ChWord) : fld (f.word op) 47 40 = op := by
  simp (disch := decide) only [ChWord.word, fld_setFld_disj, fld_setFld_same]
  omega

end

theorem RepWord.opcode_word (f : RepWord) : fld f.word 47 40 = 0xA0 := by
  simp (disch := decide) only [RepWord.word, fld_setFld_disj, fld_setFld_same]
  rfl

/-! ### Fields (R290, R342) -/

section
variable (op : Nat)

theorem RR.of_word (f : RR) : RR.of (f.word op) = f := by
  simp (disch := decide) only [RR.of, RR.word, regField_setFld_same, regField_setFld_disj, extractLsb'_setFld_same,
    extractLsb'_setFld_disj]

theorem RI.of_word (f : RI) : RI.of (f.word op) = f := by
  simp (disch := decide) only [RI.of, RI.word, regField_setFld_same, regField_setFld_disj, extractLsb'_setFld_same]

theorem CB.of_word (f : CB) : CB.of (f.word op) = f := by
  simp (disch := decide) only [CB.of, CB.word, fld_setFld_disj, ofNat_fld_setFld_same, regField_setFld_same, regField_setFld_disj,
    extractLsb'_setFld_same]

theorem CBI.of_word (f : CBI) : CBI.of (f.word op) = f := by
  simp (disch := decide) only [CBI.of, CBI.word, fld_setFld_disj, ofNat_fld_setFld_same, regField_setFld_same, regField_setFld_disj,
    extractLsb'_setFld_same, extractLsb'_setFld_disj]

theorem RepWord.of_word (f : RepWord) : RepWord.of f.word = f := by
  simp (disch := decide) only [RepWord.of, RepWord.word, fld_setFld_disj, ofNat_fld_setFld_same, regField_setFld_same,
    regField_setFld_disj, extractLsb'_setFld_same]

theorem ChWord.of_word (f : ChWord) : ChWord.of (f.word op) = f := by
  simp (disch := decide) only [ChWord.of, ChWord.word, bit_setFld_disj, bit_setFld_flag, regField_setFld_same, regField_setFld_disj,
    extractLsb'_setFld_same, extractLsb'_setFld_disj]

end

end Sys2Proof
end

section
/-! PROOF. O33: SWAP, ADDM and CAS (R364, R365): an atomic on a word of SRAM that is in order replaces or leaves it in one step. -/

namespace Sys2Proof

open Machine

/-- More parts may differ. -/
theorem IsaOnly.mono {x : Ctx} {ps qs : List Part} {s t : State} (h : IsaOnly x ps s t) (hs : ps ⊆ qs) : IsaOnly x qs s t := by
  obtain ⟨hprocs, hchans, hpend, hparts⟩ := h
  refine ⟨hprocs, hchans, hpend, fun p hp => hparts p fun hm => hp ?_⟩
  simp only [List.mem_cons] at hm ⊢
  exact hm.imp_right (.imp_right fun hm => hs hm)

section
variable {x : Ctx} {f : RR} {ea v : Word} {s : State} (h : IsaReady x s) (hr : f.rsv = 0) (hf : f.func = 0)
  (hea : s.dev.gpr x f.a = ea) (hacc : s.dev.accessFault x ea true false = none) (hin : (sramRegion ea.toNat).isSome = true)
  (hv : decodeWord (s.dev.cell ea.toNat) = .ok v) {k : Dev → Dev} {op : Nat} {g : Word → Option Word}
  (hk : k s.dev = s.dev.atomic x op f g)
include h hr hf hea hacc hin hv hk

/-- An atomic that puts a word in place. -/
theorem atomic_stores {w : Word} (hg : g v = some w) (hi : s.dev.rdB .edcInjCtl 0 8 = false)
    (hwf : memWf .blank s.dev.sram = true) :
    ∃ t, s.run k = .next t ∧ t.dev.cell ea.toNat = goodWord w ∧ IsaWrites x f.d v s t ∧ SramOnly ea.toNat 1 s t ∧
      IsaOnly x [.sram] s t := by
  have hread : (s.dev.passHold x).memRead x ea = (0, v, s.dev.passHold x) := memRead_sram hin (by simpa using hv)
  have hput : (s.dev.passHold x).sramWrite ea.toNat w = (s.dev.passHold x).putCell ea.toNat (goodWord w) :=
    Dev.sramWrite_eq (by simpa [Dev.rdB] using hi) ..
  exact run_stores_writes h hwf hk (by simp [Checks.failure, hr, hf]) (by simp [hea, hacc, hread, hg, hput])

/-- An atomic that leaves the word. -/
theorem atomic_leaves (hg : g v = none) :
    ∃ t, s.run k = .next t ∧ t.dev.sram = s.dev.sram ∧ IsaWrites x f.d v s t ∧ IsaOnly x [] s t := by
  have hread : (s.dev.passHold x).memRead x ea = (0, v, s.dev.passHold x) := memRead_sram hin (by simpa using hv)
  obtain ⟨t, ht, hsram, hto, honly⟩ := run_setGpr h (j := none) (i := f.d) (v := v) hk (by simp [Checks.failure, hr, hf])
    (by simp [hea, hacc, hread, hg]) (Confined.passHold x [] s.dev) (s.dev.ctx_passHold x)
  exact ⟨t, ht, hsram.trans (s.dev.sram_passHold x), hto, honly⟩

end

/-- Settles O33: SWAP and ADDM put their word in place; CAS does where the word matches, else it leaves it. -/
theorem atomicInstructions : Obligations.AtomicInstructions := by
  unfold Obligations.AtomicInstructions
  refine ⟨?one, ?mismatch⟩
  case one =>
    intro x f ea v s h hr hf hea hacc hin hv hi hwf
    have swap := atomic_stores h hr hf hea hacc hin hv (k := swapOp x f) rfl rfl hi hwf
    have addm := atomic_stores h hr hf hea hacc hin hv (k := addmOp x f) rfl rfl hi hwf
    refine ⟨?_, ?_, ?_⟩
    · obtain ⟨t, ht, hcell, hrest⟩ := swap
      exact ⟨t, ht, by rw [hcell, decodeWord_goodWord], hrest⟩
    · obtain ⟨t, ht, hcell, hrest⟩ := addm
      exact ⟨t, ht, by rw [hcell, decodeWord_goodWord], hrest⟩
    · by_cases hm : v = s.dev.gpr x f.d
      · obtain ⟨t, ht, hcell, hrest⟩ := atomic_stores h hr hf hea hacc hin hv (k := casOp x f) rfl (if_pos hm) hi hwf
        exact ⟨t, ht, by rw [hcell, decodeWord_goodWord, if_pos hm], hrest⟩
      · obtain ⟨t, ht, hsram, hto, honly⟩ := atomic_leaves h hr hf hea hacc hin hv (k := casOp x f) rfl (if_neg hm)
        have hcell : ∀ b, t.dev.cell b = s.dev.cell b := fun b => by simp only [Dev.cell, hsram]
        exact ⟨t, ht, by rw [hcell, hv, if_neg hm], hto, fun b _ => hcell b, honly.mono (by simp)⟩
  case mismatch =>
    intro x f ea v s h hr hf hea hacc hin hv hm
    obtain ⟨t, ht, -, hto, honly⟩ := atomic_leaves h hr hf hea hacc hin hv (k := casOp x f) rfl (if_neg hm)
    exact ⟨t, ht, hto, honly⟩

end Sys2Proof
end

section
/-! PROOF. O32: loads and stores of words and lanes in SRAM (R355–R358), MOVW and FILLW (R357), CRCM (R363), FENCE (R368), and
a store to a register. -/

namespace Sys2Proof

open Machine

/-- The register space that a DAS address lies in names its window and offset. -/
theorem dasArea_reg {a win off : Nat} (h : dasArea a = .reg win off) : (a - 0x1000000) / 65536 = win ∧ a % 65536 = off := by
  unfold dasArea at h
  split at h
  · cases h
  · split at h
    · cases h; exact ⟨rfl, rfl⟩
    · split at h
      · cases h
      · split at h <;> cases h

/-! ### Lanes (R356) -/

/-- A lane as a number. -/
theorem fld_lane (v : Word) (width lane : Nat) (hw : 0 < width) :
    fld v (width * lane + width - 1) (width * lane) = v.toNat / 2 ^ (width * lane) % 2 ^ width := by
  rw [fld, Nat.shiftRight_eq_div_pow, show width * lane + width - 1 + 1 - width * lane = width by omega]

section
variable {x : Ctx} {f : RR} {ea v : Word} {lane : Nat} {s : State} (h : IsaReady x s) (hr : f.rsv = 0) (hf : f.func.toNat = lane)
  (hea : s.dev.gpr x f.a + s.dev.gpr x f.b = ea) (hv : decodeWord (s.dev.cell ea.toNat) = .ok v)
    {width last : Nat} (hlane : lane ≤ last) (hlast : last < 8)
include h hr hf hea hv hlane hlast

theorem loadLane_writes (hin : (sramRegion ea.toNat).isSome = true) (hw : 0 < width)
    (hacc : s.dev.accessFault x ea false false = none) (op : Nat) :
    ∃ t, s.run (fun d => d.loadLane x op f width last) = .next t ∧
      IsaWrites x f.d (wordOf (v.toNat / 2 ^ (width * lane) % 2 ^ width)) s t ∧ IsaOnly x [] s t := by
  have hmod : f.func.toNat % 8 = lane := by omega
  unfold Dev.loadLane
  refine run_writes h rfl ?_ ?_
  · simp [Checks.failure, hr, hmod, hlane]; omega
  · simp only [Dev.gpr_passHold, hea, load_passHold hacc hin hv, hmod, fld_lane v width lane hw]

theorem laneStore_stores (hacc : s.dev.accessFault x ea true false = none) (hwf : memWf .blank s.dev.sram = true) (op : Nat) :
    ∃ t, s.run (fun d => d.laneStore x op f width last) = .next t ∧
      t.dev.cell ea.toNat = goodWord (setFld v (width * lane + width - 1) (width * lane) (s.dev.gpr x f.d).toNat) ∧
      IsaPasses x s t ∧ SramOnly ea.toNat 1 s t ∧ IsaOnly x [.sram] s t := by
  have hmod : f.func.toNat % 8 = lane := by omega
  unfold Dev.laneStore
  refine run_stores h hwf rfl ?_ ?_
  · simp [Checks.failure, hr, hmod, hlane]; omega
  · simp only [Dev.gpr_passHold, hea, storeLane_passHold hacc hv, hmod]

end

/-- Settles O32: loads, stores and the block instructions by what their access of SRAM comes to, a store to a register by the write
that follows it, and an access that is not allowed by its fault. -/
theorem memoryInstructions : Obligations.MemoryInstructions := by
  unfold Obligations.MemoryInstructions
  refine ⟨?ld, ?st, ?stReg, ?ldFault, ?stFault, ?lanes, ?laneStores, ?ldinc, ?stinc, ?movw, ?fillw, ?crcm, ?fence⟩
  case ld =>
    rintro x f ea v s h rfl hacc hin hv
    exact run_writes h rfl rfl (by simpa [RI.sx] using load_passHold hacc hin hv _)
  case st =>
    rintro x f ea s h rfl hacc hin hi hwf
    exact run_stores h hwf rfl rfl (by simpa [RI.sx] using storeWord_passHold hacc hin hi _ _)
  case stReg =>
    rintro x f ea win off s h rfl hacc harea
    obtain ⟨hwin, hoff⟩ := dasArea_reg harea
    have hstore := storeWord_reg (d := s.dev.passHold x) (x := x) (by simpa using hacc) harea
    refine ⟨_, run_to h.pow (issue_stores h rfl (by simpa only [Dev.gpr_passHold, RI.sx] using hstore _ _)), rfl, ?_⟩
    simp only [← hwin, ← hoff, Dev.goTo, Dev.ctx_passHold]
  case ldFault =>
    rintro x f ea e s h rfl hacc
    have hacc' : (s.dev.passHold x).accessFault x (s.dev.gpr x f.a + f.sx) false true = some e := by simpa [RI.sx] using hacc
    refine ⟨_, run_to h.pow (issue_faults h rfl (by simpa using load_fault hacc' _)), ?_⟩
    simp [RI.opcode_word, RI.sx]
  case stFault =>
    rintro x f ea e s h rfl hacc
    have hacc' : (s.dev.passHold x).accessFault x (s.dev.gpr x f.a + f.sx) true true = some e := by simpa [RI.sx] using hacc
    refine ⟨_, run_to h.pow (issue_faults h rfl (by simpa using storeWord_fault hacc' _ _)), ?_⟩
    simp [RI.opcode_word, RI.sx]
  case lanes =>
    intro x f ea v lane s h hr hf hea hacc hin hv
    exact ⟨fun hl => loadLane_writes h hr hf hea hv (last := 5) (by omega) (by omega) hin (by omega) hacc 0x32,
      fun hl => loadLane_writes h hr hf hea hv (last := 2) (by omega) (by omega) hin (by omega) hacc 0x33,
      fun hl => loadLane_writes h hr hf hea hv (last := 1) (by omega) (by omega) hin (by omega) hacc 0x34⟩
  case laneStores =>
    intro x f ea v lane s h hr hf hea hacc _ hv _ hwf
    exact ⟨fun hl => laneStore_stores h hr hf hea hv (last := 5) (by omega) (by omega) hacc hwf 0x35,
      fun hl => laneStore_stores h hr hf hea hv (last := 2) (by omega) (by omega) hacc hwf 0x36,
      fun hl => laneStore_stores h hr hf hea hv (last := 1) (by omega) (by omega) hacc hwf 0x37⟩
  case ldinc =>
    rintro x f ea v s h ha hd hne rfl hacc hin hv
    refine ⟨_, run_to h.pow (issue_completes (j := none) h (by simpa [Checks.failure] using ha)
      (by simpa [RI.sx] using load_passHold hacc hin hv _)), ?_, ?_, fun i hia hid => ?_, ?_, ?_,
      ((((Confined.passHold x [] s.dev).setGpr _ _).setGpr _ _).goTo _).isaOnly⟩
    · simp [hd]
    · simp [ha, hne]
    · simp [hia.symm, hid.symm]
    · simp
    · simp
  case stinc =>
    rintro x f ea s h ha rfl hacc hin hi hwf
    exact run_stores_writes h hwf rfl (by simpa [Checks.failure] using ha)
      (by simpa [RI.sx] using storeWord_passHold hacc hin hi _ _)
  case movw =>
    rintro x f a b v s h hr hf hd ha hb hne rfl rfl haccB haccA hinA hinB hv hi hwf
    have hload := load_passHold haccB hinB hv
    have hstore := storeWord_passHold haccA hinA hi
    have hmove : movwOp x f s.dev = ((((s.dev.passHold x).putCell (s.dev.gpr x f.a).toNat (goodWord v)).setGpr x f.a
        (s.dev.gpr x f.a + 1)).setGpr x f.b (s.dev.gpr x f.b + 1)).goTo x ((s.dev.ctx x).pc + 1) := by
      unfold movwOp
      refine issue_goesOn h ?_ ?_ ?_
      · simp [Checks.failure, hr, hf, hd]
      · simp [haccA, haccB, hload, hstore, hne.symm]
      · simp
    obtain ⟨hcell, hbeside⟩ := stored_putCell (t := { s with dev := _ }) hwf rfl
    refine ⟨_, run_to h.pow hmove, hcell, ?_, ?_, fun i hia hib => ?_, ?_, hbeside,
      (((((Confined.passHold x [.sram] s.dev).putCell (by simp) _ _).setGpr _ _).setGpr _ _).goTo _).isaOnly⟩
    · simp [ha, hne.symm]
    · simp [hb]
    · simp [hia.symm, hib.symm]
    · simp
  case fillw =>
    rintro x f a s h hr hf hb rfl hacc hin hi hwf
    exact run_stores_writes h hwf rfl (by simp [Checks.failure, hr, hf, hb])
      (by simpa [RI.sx] using storeWord_passHold hacc hin hi _ _)
  case crcm =>
    rintro x f a v s h hr hf hb ha hd hne rfl hacc hin hv
    refine ⟨_, run_to h.pow (issue_completes (j := none) h (by simp [Checks.failure, hr, hf, hb])
      (by simpa using load_passHold hacc hin hv _)), ?_, ?_, fun i hia hid => ?_, ?_,
      ((((Confined.passHold x [] s.dev).setGpr _ _).setGpr _ _).goTo _).isaOnly⟩
    · simp [hd, hne, crcStep]
    · simp [ha]
    · simp [hia.symm, hid.symm]
    · simp
  case fence =>
    intro x f s h hr hf hd ha hb
    obtain ⟨t, ht, -, hpass, honly⟩ := run_passes (f := fenceOp x f) h rfl (by simp [Checks.failure, hr, hf, hd, ha, hb]) rfl
      (.passHold x [] s.dev) (s.dev.ctx_passHold x)
    exact ⟨t, ht, hpass, honly⟩

end Sys2Proof
end

section
/-! PROOF. O34: jumps and branches (R371–R373), the reads of position, time and self (R374), and HINT (R350). -/

namespace Sys2Proof

open Machine

/-! ### Conditions (R372) -/

theorem atOrPast_eq (a b : Word) : atOrPast a b = decide (0 ≤ (a - b).toInt) := by
  rw [atOrPast, BitVec.msb_eq_toInt, ← decide_not]
  simp only [not_lt]

/-- The conditions of two values but BSET and BCLR, by their codes. -/
def comparisons (a b : Word) : List (Nat × Bool) :=
  [(0, decide (a = b)), (1, decide (a ≠ b)), (2, decide (a.toInt < b.toInt)), (3, decide (b.toInt ≤ a.toInt)),
    (4, decide (a < b)), (5, decide (b ≤ a)), (6, decide (0 ≤ (a - b).toInt)), (7, decide ((a - b).toInt < 0))]

theorem condHolds_of_comparisons {n : Nat} {c : Bool} {a b : Word} (h : (n, c) ∈ comparisons a b) (hit : Bool) :
    n < 8 ∧ condHolds n a b hit = c := by
  simp only [comparisons, List.mem_cons, Prod.mk.injEq, List.not_mem_nil, or_false] at h
  rcases h with ⟨rfl, rfl⟩ | ⟨rfl, rfl⟩ | ⟨rfl, rfl⟩ | ⟨rfl, rfl⟩ | ⟨rfl, rfl⟩ | ⟨rfl, rfl⟩ | ⟨rfl, rfl⟩ | ⟨rfl, rfl⟩
  · exact ⟨by decide, rfl⟩
  · exact ⟨by decide, rfl⟩
  · exact ⟨by decide, BitVec.slt_eq_decide ..⟩
  · exact ⟨by decide, by simp [condHolds, BitVec.slt_eq_decide, ← decide_not]⟩
  · exact ⟨by decide, BitVec.ult_eq_decide ..⟩
  · exact ⟨by decide, by simp [condHolds, BitVec.ult_eq_decide, ← decide_not, BitVec.le_def]⟩
  · exact ⟨by decide, atOrPast_eq a b⟩
  · exact ⟨by decide, by simp [condHolds, atOrPast_eq, ← decide_not]⟩

/-- With the two, which test the bits that both values have. -/
theorem condHolds_of_conditions {n : Nat} {c : Bool} {a b : Word}
    (h : (n, c) ∈ comparisons a b ++ [(8, decide (a &&& b ≠ 0)), (9, decide (a &&& b = 0))]) :
    n < 10 ∧ condHolds n a b (a &&& b ≠ 0) = c := by
  rcases List.mem_append.mp h with h | h
  · obtain ⟨hn, hc⟩ := condHolds_of_comparisons h (a &&& b ≠ 0)
    exact ⟨by omega, hc⟩
  · simp only [List.mem_cons, Prod.mk.injEq, List.not_mem_nil, or_false] at h
    rcases h with ⟨rfl, rfl⟩ | ⟨rfl, rfl⟩
    · exact ⟨by decide, rfl⟩
    · exact ⟨by decide, by simp [condHolds]⟩

/-! ### Flags of F48 (R375) -/

namespace Machine.Proc

variable (p : Proc) (i j : Nat) (v : Word)

@[simp] theorem pc_setSpecial : (p.setSpecial i v).pc = p.pc := rfl

/-- The special registers do not go by the rest of a context. -/
@[simp] theorem special_mk (w alt : Table Word) (pc : Word) (rep : Option Nat) (released : Nat) (waiting : Bool) :
    ({ w := w, alt := alt, pc := pc, rep := rep, sp := p.sp, released := released, waiting := waiting } : Proc).special j =
      p.special j := special_congr j rfl

end Machine.Proc

namespace Machine.Dev

variable (d : Dev) (x : Ctx) (flags : Nat) (i : Fin 32)

@[simp] theorem ctx_orFlags : (d.orFlags x flags).ctx x = (d.ctx x).setSpecial 10 ((d.ctx x).special 10 ||| wordOf flags) :=
  ctx_setCtx ..

/-- The general registers do not go by FCSR. -/
@[simp] theorem gpr_orFlags : (d.orFlags x flags).gpr x i = d.gpr x i := by
  simp only [gpr, ctx_orFlags, Proc.fast, Proc.special_setSpecial]
  exact Proc.reg_congr _ _ rfl rfl

end Machine.Dev

theorem Confined.orFlags {x : Ctx} {ps : List Part} {d₀ d : Dev} (h : Confined x ps d₀ d) (flags : Nat) :
    Confined x ps d₀ (d.orFlags x flags) := h.setCtx _

/-! ### Branches (R371) -/

/-- A word that passes its checks, outside a repeat and a gather. -/
theorem Machine.Checks.failure_none {c : Checks} {control : Bool} (hundef : c.undef = none) (hctl : (c.control && !control) = false)
    (hzero : c.zero = true) (hvalue : c.value = true) : c.failure control none false = none := by
  simp [failure, hundef, hctl, hzero, hvalue]

section
variable {x : Ctx} {s : State} {f : Dev → Dev} {w : Word} {c : Checks} {body : Dev → Effect}

/-- A branch goes to its offset where it is taken, else on. -/
theorem branch_eq (d : Dev) (x : Ctx) (taken : Bool) (off : Word) :
    d.branch x taken off = { dev := d, jump := if taken then some ((d.ctx x).pc + off) else none } := by
  cases taken <;> rfl

theorem run_branches (h : IsaReady x s) {taken : Bool} {off : Word} (hf : f s.dev = s.dev.issue x w c body)
    (hc : c.failure (isControl x) none false = none)
    (hb : body (s.dev.passHold x) = (s.dev.passHold x).branch x taken off) :
    ∃ t, s.run f = .next t ∧ IsaTo x 0 0 (if taken then (s.dev.ctx x).pc + off else (s.dev.ctx x).pc + 1) s t ∧
      IsaOnly x [] s t := by
  rw [branch_eq] at hb
  refine ⟨_, run_to h.pow (hf.trans (issue_completes h hc hb)), ?_, ((Confined.passHold x [] s.dev).goTo _).isaOnly⟩
  cases taken <;> simp [IsaTo]

/-- BR with a condition that is not of F48 values, where the fields that must be zero are. -/
theorem br_branches (h : IsaReady x s) {f : CB} {a b : Word} {taken : Bool} (ha : s.dev.gpr x f.a = a) (hb : s.dev.gpr x f.b = b)
    (hcode : f.cond.val < 10 ∨ f.cond.val = 14 ∧ f.a = 0 ∧ f.b = 0) (ht : condHolds f.cond.val a b (a &&& b ≠ 0) = taken) :
    ∃ t, exec (.isaBr x f) s = .next t ∧
      IsaTo x 0 0 (if taken then (s.dev.ctx x).pc + sx f.off else (s.dev.ctx x).pc + 1) s t ∧ IsaOnly x [] s t := by
  have hfloat : (10 ≤ f.cond.val && f.cond.val ≤ 13) = false := by simp; omega
  have hzero : (f.cond.val ≠ 14 || (f.a.val = 0 && f.b.val = 0)) = true := by
    rcases hcode with hc | ⟨-, ha, hb⟩
    · simp; omega
    · simp [ha, hb]
  refine run_branches h (f := brOp x f) (by unfold brOp; rfl) (Checks.failure_none rfl (by simp [hfloat]) hzero (by simp; omega)) ?_
  simp only [hfloat, Bool.false_eq_true, if_false, Dev.gpr_passHold, ha, hb, ht]

/-- BRI likewise, where its immediate is a value or the number of a bit. -/
theorem bri_branches (h : IsaReady x s) {f : CBI} {taken : Bool}
    (hcode : f.cond.val < 8 ∨ (f.cond.val = 8 ∨ f.cond.val = 9) ∧ f.imm.toNat < 48 ∨ f.cond.val = 14 ∧ f.a = 0 ∧ f.imm = 0)
    (ht : condHolds f.cond.val (s.dev.gpr x f.a) (sx f.imm) (bit (s.dev.gpr x f.a) f.imm.toNat) = taken) :
    ∃ t, exec (.isaBri x f) s = .next t ∧
      IsaTo x 0 0 (if taken then (s.dev.ctx x).pc + sx f.off else (s.dev.ctx x).pc + 1) s t ∧ IsaOnly x [] s t := by
  have hfloat : (10 ≤ f.cond.val && f.cond.val ≤ 13) = false := by simp; omega
  refine run_branches h (f := briOp x f) (by unfold briOp; rfl) (Checks.failure_none rfl (by simp [hfloat]) ?_ ?_) ?_
  · rcases hcode with hc | ⟨hc, hi⟩ | ⟨hc, ha, hi⟩
    · simp; omega
    · simp; omega
    · simp [hc, ha, hi]
  · simp [hfloat]; omega
  simp only [Dev.gpr_passHold, ht]

/-- BR that compares F48 values sets their flags. -/
theorem brFloat_branches (h : IsaReady x s) (hctl : isControl x = true) {f : CB} (h10 : 10 ≤ f.cond.val) (h13 : f.cond.val ≤ 13) :
    ∃ t, exec (.isaBr x f) s = .next t ∧
      (t.dev.ctx x).pc = (if (fcompare f.cond.val (f48 (s.dev.gpr x f.a)) (f48 (s.dev.gpr x f.b))).1
        then (s.dev.ctx x).pc + sx f.off else (s.dev.ctx x).pc + 1) ∧
      (t.dev.ctx x).special 10 =
        (s.dev.ctx x).special 10 ||| wordOf (fcompare f.cond.val (f48 (s.dev.gpr x f.a)) (f48 (s.dev.gpr x f.b))).2 ∧
      (∀ i : Fin 32, t.dev.gpr x i = s.dev.gpr x i) ∧ IsaOnly x [] s t := by
  have hfloat : (10 ≤ f.cond.val && f.cond.val ≤ 13) = true := by simp [h10, h13]
  generalize hr : fcompare f.cond.val (f48 (s.dev.gpr x f.a)) (f48 (s.dev.gpr x f.b)) = r
  have hissue : brOp x f s.dev = ((s.dev.passHold x).orFlags x r.2).goTo x
      (if r.1 then (s.dev.ctx x).pc + sx f.off else (s.dev.ctx x).pc + 1) := by
    unfold brOp
    rw [issue_completes h (Checks.failure_none rfl (by simp [hctl]) (by simp; omega) (by simp; omega))
      (by simp only [hfloat, if_true, Dev.gpr_passHold, hr]; exact branch_eq ..)]
    cases r.1 <;> simp
  exact ⟨_, run_to h.pow hissue, by simp, by simp, by simp, (((Confined.passHold x [] s.dev).orFlags _).goTo _).isaOnly⟩

end

/-- The position and the velocity of an axis, where its block is on (R18, R374). -/
theorem readAxis_writes {x : Ctx} {s : State} (h : IsaReady x s) {f : RI} (ha : f.a = 0) (hi : f.imm.toNat < 4) {r : Reg}
    (hon : s.dev.regOn r f.imm.toNat = true) {v : Word} (hv : ((s.dev.passHold x).loadReg r f.imm.toNat).1.word = v) (op : Nat) :
    ∃ t, s.run (fun d => d.readAxis x op f r) = .next t ∧ IsaWrites x f.d v s t ∧ IsaOnly x [] s t := by
  have hon' : (s.dev.passHold x).regOn r f.imm.toNat = true := (s.dev.passHold_reads x (·.regOn r _) fun _ => rfl).trans hon
  exact run_writes h rfl (by simp [Checks.failure, ha, hi]) (by simp [hon', hv])

theorem readIn_writes {x : Ctx} {s : State} (h : IsaReady x s) {f : RI} (ha : f.a = 0) (hi : f.imm = 0) {g : Dev → Word} {v : Word}
    (hv : g (s.dev.passHold x) = v) (op : Nat) :
    ∃ t, s.run (fun d => d.readIn x op f (f.imm = 0) g) = .next t ∧ IsaWrites x f.d v s t ∧ IsaOnly x [] s t :=
  run_writes h rfl (by simp [Checks.failure, ha, hi]) (by simp [hv])

/-- Settles O34: a jump links and goes on elsewhere, a branch by its condition, a read writes what it reads, and a HINT passes. -/
theorem jumpsAndReads : Obligations.JumpsAndReads := by
  unfold Obligations.JumpsAndReads
  refine ⟨?jmpl, ?jmpr, ?br, ?brAlways, ?brFloat, ?briAlways, ?bri, ?briBit, ?rdpos, ?rdvel, ?now, ?pdiff, ?hint⟩
  case jmpl =>
    intro x f s h ha
    exact run_jumps h rfl (by simp [Checks.failure, ha]) (by simp [RI.sx])
  case jmpr =>
    intro x f s h
    exact run_jumps h rfl rfl (by simp [RI.sx])
  case br =>
    intro x f a b c s h ha hb hc
    obtain ⟨hn, ht⟩ := condHolds_of_conditions hc
    exact br_branches h ha hb (.inl hn) ht
  case brAlways =>
    intro x f s h hc ha hb
    exact br_branches (taken := true) h rfl rfl (.inr ⟨congrArg Fin.val hc, ha, hb⟩) (by rw [hc]; rfl)
  case brFloat =>
    rintro x f _ _ s h hctl rfl rfl h10 h13
    exact brFloat_branches h hctl h10 h13
  case briAlways =>
    intro x f s h hc ha hi
    exact bri_branches (taken := true) h (.inr (.inr ⟨congrArg Fin.val hc, ha, hi⟩)) (by rw [hc]; rfl)
  case bri =>
    rintro x f _ _ c s h rfl rfl hc
    obtain ⟨hn, ht⟩ := condHolds_of_comparisons hc (bit (s.dev.gpr x f.a) f.imm.toNat)
    exact bri_branches h (.inl hn) ht
  case briBit =>
    intro x f s h hc hi
    have hcode : f.cond.val = 8 ∨ f.cond.val = 9 := hc.imp (congrArg Fin.val) (congrArg Fin.val)
    have := bri_branches (taken := bit (s.dev.gpr x f.a) f.imm.toNat = decide (f.cond = 8)) h (.inr (.inl ⟨hcode, hi⟩)) (by
      rcases hc with hc | hc <;> simp [hc, condHolds])
    simpa [sx] using this
  case rdpos =>
    intro x f s h ha hi hon
    exact readAxis_writes h ha hi hon (s.dev.passHold_reads x (·.axisPos _) fun _ => rfl) 0x70
  case rdvel =>
    intro x f s h ha hi hon
    exact readAxis_writes h ha hi hon (s.dev.passHold_reads x (·.axisVel _) fun _ => rfl) 0x71
  case now =>
    intro x f s h ha hi
    exact ⟨readIn_writes h ha hi (s.dev.passHold_reads x (·.now) fun _ => rfl) 0x72, readIn_writes h ha hi rfl 0x74⟩
  case pdiff =>
    intro x f s h hr h1 h48
    exact run_writes h (f := pdiffOp x f) (by unfold pdiffOp; rfl) (by simp [Checks.failure, hr]; omega) (by simp [pdiff])
  case hint =>
    intro x k r s hp hruns hrep
    refine ⟨_, run_to hp (issue_advances hruns (by simp [Checks.failure]) rfl), ?_,
      ((Confined.passHold x [] s.dev).advance _ _).isaOnly⟩
    simp [IsaPasses, hrep, Dev.advance_none]

end Sys2Proof
end

section
/-! PROOF SUPPORT. What the registers of a channel read after a status word was posted (R330, R331) and after a halt (R349). -/

namespace Sys2Proof

open Machine

namespace Machine.Dev

variable (d : Dev) (c : Fin 512)

/-- The pending bits of channels lie below what a channel has of its own. -/
theorem rd_wr_pend (r : Reg) (hr : regBase .ibxPendi + 11 ≤ regBase r) (v : Word) :
    (d.wr .ibxPendi (c.val / 48) v).rd r c.val = d.rd r c.val := by
  refine d.rd_wr_ne v ?_
  have hp : regKey .ibxPendi (c.val / 48) = regBase .ibxPendi + c.val / 48 * 1 := rfl
  have hk : regKey r c.val = regBase r + c.val * (regDesc r).stride := rfl
  rw [hp, hk]
  omega

section
variable (k : CswKind) (st sub resid op : Nat) (addr : Word)

/-- STATE and REASON are as they were. -/
theorem rdF_stat_postCsw {hi lo : Nat} (hlt : hi < 8) :
    (d.postCsw c.val k st sub resid op addr).rdF .ibxChcStat c.val hi lo = d.rdF .ibxChcStat c.val hi lo := by
  have hflag : 8 ≤ k.flag := by cases k <;> decide
  unfold postCsw
  simp only [rdF_raise]
  unfold wrB
  rw [rdF, rd_wr_same, fld_setBit_disj _ _ (.inr (by omega)), rd_wr_pend _ _ _ (by decide),
    rd_wr_apart _ (by decide), rd_wr_apart _ (by decide), rdF]

/-- The first half of the status word. -/
theorem rd_csw0_postCsw : (d.postCsw c.val k st sub resid op addr).rd .ibxChcCsw0 c.val =
    setFld (setBit (setBit (setFld (setFld (setFld (setFld (setFld 0 47 40 st) 39 32 sub) 31 20 resid) 19 17 (d.chState c)) 16 13
      (d.chReason c)) 12 (k = .note)) 11 (k = .ended)) 7 0 op := by
  unfold postCsw wrB
  simp only [raise_keeps]
  rw [rd_wr_apart _ (by decide), rd_wr_pend _ _ _ (by decide), rd_wr_apart _ (by decide), rd_wr_same]

/-- The address is in the other half. -/
theorem rdF_csw1_postCsw : (d.postCsw c.val k st sub resid op addr).rdF .ibxChcCsw1 c.val 39 0 = fld addr 39 0 := by
  unfold postCsw wrB
  simp only [rdF_raise]
  rw [rdF, rd_wr_apart _ (by decide), rd_wr_pend _ _ _ (by decide), rd_wr_same, fld_setFld_same _ _ (by decide) (by decide), fld,
    Nat.shiftRight_zero]

theorem rdF_csw0_postCsw : (d.postCsw c.val k st sub resid op addr).rdF .ibxChcCsw0 c.val 47 40 = st % 256 ∧
    (d.postCsw c.val k st sub resid op addr).rdF .ibxChcCsw0 c.val 39 32 = sub % 256 ∧
    (d.postCsw c.val k st sub resid op addr).rdF .ibxChcCsw0 c.val 7 0 = op % 256 := by
  simp only [rdF, rd_csw0_postCsw]
  simp (disch := decide) only [fld_setFld_same, fld_setFld_disj, fld_setBit_disj]
  exact ⟨rfl, rfl, rfl⟩

end

theorem chReason_setChState (st : Nat) {reason : Nat} (h : reason < 16) : (d.setChState c.val st reason).chReason c.val = reason :=
  (rdF_wrF_same _ .ibxChcStat c.val reason (by omega) (by omega)).trans (Nat.mod_eq_of_lt h)

end Machine.Dev

/-- Channel c is HALTED for a reason, and its status word says why: the status, the sub-code, the opcode and the address. -/
structure Halted (c : Fin 512) (st sub reason op addr : Nat) (d : Dev) : Prop where
  state : d.chState c = 4
  reason : d.chReason c = reason
  status : d.rdF .ibxChcCsw0 c 47 40 = st
  sub : d.rdF .ibxChcCsw0 c 39 32 = sub
  op : d.rdF .ibxChcCsw0 c 7 0 = op
  addr : d.rdF .ibxChcCsw1 c 39 0 = addr

/-- What a halt posts, within the fields. -/
theorem halted_chHalt (d : Dev) (c : Fin 512) {st sub reason : Nat} (hst : st < 256) (hsub : sub < 256) (hreason : reason < 16)
    (op : Nat) (addr : Word) : Halted c st sub reason (op % 256) (fld addr 39 0) (d.chHalt c st sub reason op addr) := by
  obtain ⟨hs, hb, ho⟩ := Dev.rdF_csw0_postCsw ((d.chRelease c).setChState c 4 reason) c .halted st sub 0 op addr
  exact {
    state := (Dev.rdF_stat_postCsw _ c _ _ _ _ _ _ (by decide)).trans (Dev.chState_setChState _ _ (by decide) _)
    reason := (Dev.rdF_stat_postCsw _ c _ _ _ _ _ _ (by decide)).trans (Dev.chReason_setChState _ _ _ hreason)
    status := hs.trans (Nat.mod_eq_of_lt hst)
    sub := hb.trans (Nat.mod_eq_of_lt hsub)
    op := ho
    addr := Dev.rdF_csw1_postCsw .. }

/-- A fault of a word of a channel halts it (R349). -/
theorem halted_instrFault (d : Dev) (c : Fin 512) {st sub : Nat} (hst : st < 256) (hsub : sub < 256) (op : Nat)
    (addr datum : Word) :
    Halted c st sub 6 (op % 256) (fld addr 39 0) (d.instrFault (.channel c) op addr st sub datum) :=
  halted_chHalt d c hst hsub (by decide) op addr

/-- A word of a channel that fails a check (R347), in a gather or not. -/
theorem run_halts {c : Fin 512} {s : State} {f : Dev → Dev} {w : Word} {k : Checks} {body : Dev → Effect} {e : Nat × Nat}
    (hp : s.dev.powered = true) (hruns : s.dev.ctxRuns (.channel c) = true) (hf : f s.dev = s.dev.issue (.channel c) w k body)
    (hfail : k.failure false (s.dev.proc c).rep (s.dev.inGather (.channel c)) = some e) (hst : e.1 < 256) (hsub : e.2 < 256) :
    ∃ t, s.run f = .next t ∧ Halted c e.1 e.2 6 (fld w 47 40 % 256) (fld (s.dev.ctx (.channel c)).at_ 39 0) t.dev := by
  have hissue := issue_eq hruns w k body
  rw [show k.failure (isControl (.channel c)) (s.dev.ctx (.channel c)).rep _ = some e from hfail] at hissue
  exact ⟨_, run_to hp (hf.trans hissue), halted_instrFault s.dev c hst hsub (fld w 47 40) _ w⟩

/-- The same outside a gather and a repeat. -/
theorem IsaReady.run_halts {c : Fin 512} {s : State} (h : IsaReady (.channel c) s) {f : Dev → Dev} {w : Word} {k : Checks}
    {body : Dev → Effect} {e : Nat × Nat} (hf : f s.dev = s.dev.issue (.channel c) w k body)
    (hfail : k.failure false none false = some e) (hst : e.1 < 256) (hsub : e.2 < 256) :
    ∃ t, s.run f = .next t ∧ Halted c e.1 e.2 6 (fld w 47 40 % 256) (fld (s.dev.ctx (.channel c)).at_ 39 0) t.dev := by
  obtain ⟨hp, hruns, hg, hrep⟩ := h
  exact Sys2Proof.run_halts hp hruns hf (by rwa [hg, show (s.dev.proc c).rep = none from hrep]) hst hsub

end Sys2Proof
end

section
/-! PROOF. O35: F48 instructions (R375–R377) write a result and flags in the control profile, and are fault 11h/03h in the channel
profile. -/

namespace Sys2Proof

open Machine

/-- Context x has gone on to the next word with the value of r in general register i and its flags ORed into FCSR. -/
def FloatWrites (x : Ctx) (i : Fin 32) (r : Word × Nat) (s t : State) : Prop :=
  t.dev.gpr x i = (if i = 0 then 0 else r.1) ∧ (t.dev.ctx x).special 10 = (s.dev.ctx x).special 10 ||| wordOf r.2 ∧
  (∀ j : Fin 32, j ≠ i → t.dev.gpr x j = s.dev.gpr x j) ∧ (t.dev.ctx x).pc = (s.dev.ctx x).pc + 1 ∧ IsaOnly x [] s t

/-! ### Rounding modes (R375) -/

/-- func9 selects a mode, or that of FCSR, with its bit 3 clear or set. -/
theorem roundMode_of_mem {d : Dev} {x : Ctx} {func : BitVec 9} {m : RMode} {base : Nat} (hbase : base % 8 = 0)
    (h : (func.toNat, m) ∈
      [(base, rmode (fld ((d.ctx x).special 10) 6 5)), (base + 1, .rne), (base + 2, .rtz), (base + 3, .rup), (base + 4, .rdn)]) :
    base ≤ func.toNat ∧ func.toNat < base + 8 ∧ func.toNat % 8 ≤ 4 ∧ d.roundMode x func = m := by
  simp only [List.mem_cons, Prod.mk.injEq, List.not_mem_nil, or_false] at h
  unfold Dev.roundMode
  rcases h with ⟨hf, rfl⟩ | ⟨hf, rfl⟩ | ⟨hf, rfl⟩ | ⟨hf, rfl⟩ | ⟨hf, rfl⟩
  · simp [hf, hbase]
  · simp [hf, Nat.add_mod, hbase, rmode]
  · simp [hf, Nat.add_mod, hbase, rmode]
  · simp [hf, Nat.add_mod, hbase, rmode]
  · simp [hf, Nat.add_mod, hbase, rmode]

section
variable {x : Ctx} {s : State} (h : IsaReady x s)
include h

theorem run_floatWrites {f : Dev → Dev} {w : Word} {c : Checks} {body : Dev → Effect} {i : Fin 32} {r : Word × Nat}
    (hf : f s.dev = s.dev.issue x w c body) (hc : c.failure (isControl x) none false = none)
    (hb : body (s.dev.passHold x) = { dev := ((s.dev.passHold x).setGpr x i r.1).orFlags x r.2 }) :
    ∃ t, s.run f = .next t ∧ FloatWrites x i r s t := by
  have hpc : ((((s.dev.passHold x).setGpr x i r.1).orFlags x r.2).ctx x).pc = (s.dev.ctx x).pc := by simp
  refine ⟨_, run_to h.pow (hf.trans (issue_goesOn h hc hb hpc)), ?_, ?_, ?_, ?_,
    ((((Confined.passHold x [] s.dev).setGpr i _).orFlags _).goTo _).isaOnly⟩
  · simpa using Dev.gpr_setGpr_self (s.dev.passHold x) x i r.1
  · simp [Proc.special_congr 10 (Proc.sp_setReg ..)]
  · intro j hj
    simp [hj.symm]
  · simp

variable (hctl : isControl x = true) {f : RR} (hrsv : f.rsv = 0)
include hctl hrsv

theorem float_writes {m : RMode} {high : Nat} {zero : Bool} {g : Dev → RMode → Word × Nat} {r : Word × Nat}
    (hhigh : f.func.toNat < high) (hzero : zero = true) (hmode : f.func.toNat % 8 ≤ 4 ∧ s.dev.roundMode x f.func = m)
    (hg : g (s.dev.passHold x) m = r) (op : Nat) :
    ∃ t, s.run (fun d => d.float x op f high zero g) = .next t ∧ FloatWrites x f.d r s t := by
  have hm : (s.dev.passHold x).roundMode x f.func = m := by simpa [Dev.roundMode] using hmode.2
  exact run_floatWrites h rfl (Checks.failure_none rfl (by simp [hctl]) (by simp [hrsv, hhigh, hzero]) (by simp [hmode.1]))
    (by simp only [hm, hg])

theorem float2_writes {m : RMode} (hhigh : f.func.toNat < 8) (hmode : f.func.toNat % 8 ≤ 4 ∧ s.dev.roundMode x f.func = m)
    (g : RMode → F48 → F48 → Word × Nat) (op : Nat) :
    ∃ t, s.run (fun d => d.float2 x op f g) = .next t ∧
      FloatWrites x f.d (g m (f48 (s.dev.gpr x f.a)) (f48 (s.dev.gpr x f.b))) s t :=
  float_writes h hctl hrsv hhigh rfl hmode (by simp) op

theorem floatMinMax_writes (hfunc : f.func = 0) (mx : Bool) (op : Nat) :
    ∃ t, s.run (fun d => d.floatMinMax x op f mx) = .next t ∧
      FloatWrites x f.d (fminmax mx (s.dev.gpr x f.a) (s.dev.gpr x f.b)) s t :=
  run_floatWrites h rfl (Checks.failure_none rfl (by simp [hctl]) (by simp [hrsv, hfunc]) rfl) (by simp only [Dev.gpr_passHold])

end

/-! ### The channel profile -/

/-- Channel c is HALTED with status 11h, sub-code 03h. -/
def NotInProfile (c : Fin 512) (t : State) : Prop :=
  t.dev.chState c = 4 ∧ t.dev.chReason c = 6 ∧ t.dev.rdF .ibxChcCsw0 c 47 40 = 0x11 ∧ t.dev.rdF .ibxChcCsw0 c 39 32 = 3

section
variable {c : Fin 512} {s : State} (h : IsaReady (.channel c) s)
include h

theorem control_halts {f : Dev → Dev} {w : Word} {k : Checks} {body : Dev → Effect}
    (hf : f s.dev = s.dev.issue (.channel c) w k body) (hundef : k.undef = none) (hctl : k.control = true) :
    ∃ t, s.run f = .next t ∧ NotInProfile c t := by
  have hfail : k.failure false none false = some (0x11, 3) := by simp [Checks.failure, hundef, hctl]
  obtain ⟨t, ht, hh⟩ := h.run_halts hf hfail (by decide) (by decide)
  exact ⟨t, ht, hh.state, hh.reason, hh.status, hh.sub⟩

variable {f : Dev → Dev} {op : Nat} {r : RR}

theorem float_halts {high : Nat} {zero : Bool} {g : Dev → RMode → Word × Nat}
    (hf : f s.dev = s.dev.float (.channel c) op r high zero g) : ∃ t, s.run f = .next t ∧ NotInProfile c t :=
  control_halts h hf rfl rfl

theorem float2_halts {g : RMode → F48 → F48 → Word × Nat} (hf : f s.dev = s.dev.float2 (.channel c) op r g) :
    ∃ t, s.run f = .next t ∧ NotInProfile c t :=
  float_halts h hf

theorem floatMinMax_halts {mx : Bool} (hf : f s.dev = s.dev.floatMinMax (.channel c) op r mx) :
    ∃ t, s.run f = .next t ∧ NotInProfile c t :=
  control_halts h hf rfl rfl

end

/-- Settles O35: each F48 instruction by the mode it rounds in and the function of the model it applies. -/
theorem floatInstructions : Obligations.FloatInstructions := by
  unfold Obligations.FloatInstructions
  refine ⟨?low, ?unsigned, ?minmax, ?fsgn, ?fclass, ?channel⟩
  case low =>
    rintro x f _ _ _ m s h hctl hrsv rfl rfl rfl hm
    obtain ⟨-, hlt, hmode⟩ := roundMode_of_mem (base := 0) rfl hm
    have hlt16 : f.func.toNat < 16 := by omega
    have hlt8 : f.func.toNat < 8 := by omega
    have two := float2_writes h hctl hrsv hlt8 hmode
    refine ⟨two fadd 0x80, two fsub 0x81, two fmul 0x82, two fdiv 0x83, ?_, fun hb => ?_, fun hb => ?_, fun hb => ?_⟩
    · exact float_writes h hctl hrsv hlt8 rfl hmode (by simp) 0x85
    · exact float_writes h hctl hrsv hlt8 (by simp [hb]) hmode (by simp) 0x84
    · exact float_writes h hctl hrsv hlt16 (by simp [hb]) hmode (by simp [hlt8]) 0x88
    · exact float_writes h hctl hrsv hlt16 (by simp [hb]) hmode (by simp [hlt8]) 0x89
  case unsigned =>
    rintro x f _ m s h hctl hrsv hb rfl hm
    obtain ⟨hge, hlt, hmode⟩ := roundMode_of_mem (base := 8) rfl hm
    exact ⟨float_writes h hctl hrsv hlt (by simp [hb]) hmode (by simp [Nat.not_lt.mpr hge]) 0x88,
      float_writes h hctl hrsv hlt (by simp [hb]) hmode (by simp [Nat.not_lt.mpr hge]) 0x89⟩
  case minmax =>
    rintro x f _ _ s h hctl hrsv hfunc rfl rfl
    exact ⟨floatMinMax_writes h hctl hrsv hfunc false 0x86, floatMinMax_writes h hctl hrsv hfunc true 0x87⟩
  case fsgn =>
    rintro x f _ _ c s h hctl hrsv rfl rfl hc
    rcases hc with ⟨hfunc, hb, rfl⟩ | ⟨hfunc, hb, rfl⟩ | ⟨hfunc, rfl⟩
    all_goals
      refine run_writes h (f := fsgnOp x f) (by unfold fsgnOp; rfl) (Checks.failure_none rfl (by simp [hctl]) ?_ ?_) ?_
      all_goals simp [*]
  case fclass =>
    intro x f s h hctl hrsv hfunc hb
    exact run_writes h rfl (Checks.failure_none rfl (by simp [hctl]) (by simp [hrsv, hfunc, hb]) rfl) (by simp)
  case channel =>
    intro c f s i h hi
    simp only [List.mem_cons, List.not_mem_nil, or_false] at hi
    rcases hi with rfl | rfl | rfl | rfl | rfl | rfl | rfl | rfl | rfl | rfl | rfl | rfl
    · exact float2_halts h (f := faddOp (.channel c) f) rfl
    · exact float2_halts h (f := fsubOp (.channel c) f) rfl
    · exact float2_halts h (f := fmulOp (.channel c) f) rfl
    · exact float2_halts h (f := fdivOp (.channel c) f) rfl
    · exact float_halts h (f := fsqrtOp (.channel c) f) rfl
    · exact float_halts h (f := fmaOp (.channel c) f) rfl
    · exact floatMinMax_halts h (f := fminOp (.channel c) f) rfl
    · exact floatMinMax_halts h (f := fmaxOp (.channel c) f) rfl
    · exact float_halts h (f := itofOp (.channel c) f) rfl
    · exact float_halts h (f := ftoiOp (.channel c) f) rfl
    · exact control_halts h (f := fsgnOp (.channel c) f) (by unfold fsgnOp; rfl) (by rfl) (by rfl)
    · exact control_halts h (f := fclassOp (.channel c) f) rfl (by rfl) (by rfl)

end Sys2Proof
end

section
/-! PROOF SUPPORT. Traps of a control context (R383, R384): what the context holds after a normal trap, a fast trap and a fault. -/

namespace Sys2Proof

open Machine

/-- A field that is zero takes a zero without a change. -/
theorem Machine.setFld_zero {w : Word} {hi lo : Nat} (h : fld w hi lo = 0) : setFld w hi lo 0 = w := by
  have hself := setFld_fld_self w hi lo
  rwa [h] at hself

/-- TCAUSE of a fault: its KIND is 0. -/
theorem faultCause (st sub : Nat) :
    setFld (setFld (setFld 0 47 40 st) 39 32 sub) 31 30 0 = setFld (setFld 0 47 40 st) 39 32 sub := by
  refine setFld_zero ?_
  simp (disch := decide) only [fld_setFld_disj]
  decide

/-- With sub-code 0. -/
theorem faultCause_zero (st : Nat) : setFld (setFld 0 47 40 st) 39 32 0 = setFld 0 47 40 st := by
  refine setFld_zero ?_
  simp (disch := decide) only [fld_setFld_disj]
  decide

/-! ### STATUS (R380, R382) -/

namespace Machine.Proc

variable (p : Proc) (k : Nat) (v : Word)

@[simp] theorem w_setSpecial : (p.setSpecial k v).w = p.w := rfl

@[simp] theorem alt_setSpecial : (p.setSpecial k v).alt = p.alt := rfl

/-- Every bit of STATUS but REPA is stored. -/
theorem bit_status {i : Nat} (hi : i ≠ 5) : bit p.status i = bit (p.special 1) i := bit_setBit_ne _ _ hi.symm

theorem bit_status_repa : bit p.status 5 = p.rep.isSome := bit_setBit_same _ _ (by decide)

end Machine.Proc

/-! ### A normal trap -/

/-- The processor p has become q by a normal trap that says why and returns to pc. -/
structure Trapped (p : Proc) (cause datum pc : Word) (q : Proc) : Prop where
  entry : q.pc = p.special 8
  back : q.special 2 = pc
  saved : q.special 3 = p.status
  cause : q.special 6 = cause
  datum : q.special 7 = datum
  rep : q.rep = none
  inTrap : bit q.status 3 = true
  level : bit q.status 4 = true
  masked : bit q.status 0 = false
  w : q.w = p.w
  alt : q.alt = p.alt

section
variable {x : Ctx} {d : Dev} (h : bit (d.ctx x).status 4 = false)
include h

theorem normalTrap_trapped (kind st sub : Nat) (datum pc : Word) :
    Trapped (d.ctx x) (setFld (setFld (setFld 0 47 40 st) 39 32 sub) 31 30 kind) datum pc
      ((d.normalTrap x kind st sub datum pc).ctx x) := by
  unfold Dev.normalTrap
  simp only [h, Bool.false_eq_true, if_false, Dev.ctx_setCtx]
  constructor
  case inTrap | level | masked =>
    rw [Proc.bit_status _ (by decide), Proc.special_mk, Proc.special_setSpecial, if_pos rfl]
    simp (disch := decide) only [bit_setBit_ne, bit_setBit_same]
  all_goals simp

theorem Confined.normalTrap {ps : List Part} {d₀ : Dev} (hd : Confined x ps d₀ d) (kind st sub : Nat) (datum pc : Word) :
    Confined x ps d₀ (d.normalTrap x kind st sub datum pc) := by
  unfold Dev.normalTrap
  simp only [h, Bool.false_eq_true, if_false]
  exact hd.setCtx _

/-- A fault of a word in the control profile (R348). -/
theorem instrFault_trapped (hctl : isControl x = true) (op st sub : Nat) (addr datum : Word) :
    Trapped (d.ctx x) (setFld (setFld 0 47 40 st) 39 32 sub) datum (d.ctx x).pc
        ((d.instrFault x op addr st sub datum).ctx x) ∧
      ∀ {ps : List Part} {d₀ : Dev}, Confined x ps d₀ d → Confined x ps d₀ (d.instrFault x op addr st sub datum) := by
  have hd : d.instrFault x op addr st sub datum = d.normalTrap x 0 st sub datum (d.ctx x).pc := by
    cases x with
    | channel c => cases hctl
    | core k => rfl
    | goatherd => rfl
  rw [hd, ← faultCause st sub]
  exact ⟨normalTrap_trapped h 0 st sub datum _, fun hc => hc.normalTrap h ..⟩

end

/-- A word of a control context that fails a check (R347). -/
theorem IsaReady.run_failTraps {x : Ctx} {s : State} (h : IsaReady x s) (hctl : isControl x = true)
    (hn : bit (s.dev.ctx x).status 4 = false) {f : Dev → Dev} {w : Word} {k : Checks} {body : Dev → Effect} {e : Nat × Nat}
    (hf : f s.dev = s.dev.issue x w k body) (hfail : k.failure true none false = some e) :
    ∃ t, s.run f = .next t ∧
      Trapped (s.dev.ctx x) (setFld (setFld 0 47 40 e.1) 39 32 e.2) w (s.dev.ctx x).pc (t.dev.ctx x) ∧ IsaOnly x [] s t := by
  obtain ⟨ht, honly⟩ := instrFault_trapped hn hctl (fld w 47 40) e.1 e.2 (s.dev.ctx x).pc w
  exact ⟨_, run_to h.pow (hf.trans (issue_fails h (by rwa [hctl]))), ht, (honly (.refl x [] s.dev)).isaOnly⟩

end Sys2Proof
end

section
/-! PROOF. O36: MFS, MTS, ERET, WFE, MFA, MTA and TRAP (R382–R385), and the end of a wait. -/

namespace Sys2Proof

open Machine

/-! ### Special registers (R382) -/

/-- What MFS reads, by the number of the register. -/
theorem readSpecial_eq (d : Dev) (x : Ctx) (n : BitVec 30) : d.readSpecial x n.toNat =
    if n = 0 then 0x101 else if n = 1 then (d.ctx x).status else if n = 16 then d.cycles x else (d.ctx x).special n.toNat := by
  have hne : ∀ m : BitVec 30, (n.toNat = m.toNat → False) → n ≠ m := fun m hm e => hm (e ▸ rfl)
  unfold Dev.readSpecial
  split
  · next hn => rw [if_pos (BitVec.eq_of_toNat_eq hn)]
  · next hn => simp [BitVec.eq_of_toNat_eq (y := 1#30) hn]
  · next hn => simp [BitVec.eq_of_toNat_eq (y := 16#30) hn]
  · next h0 h1 h16 => rw [if_neg (hne 0 h0), if_neg (hne 1 h1), if_neg (hne 16 h16)]

@[simp] theorem cycles_passHold (d : Dev) (x : Ctx) : (d.passHold x).cycles x = d.cycles x :=
  d.passHold_reads x (·.cycles x) fun _ => rfl

/-- A value that nothing fixes is drawn beside the contexts. -/
theorem ctx_free_passHold (d : Dev) (x : Ctx) : (d.passHold x).free.2.ctx x = d.ctx x := d.ctx_passHold x

/-- What MTS makes of STATUS: IE_N and IE_F from the value written. -/
theorem bit_mtsStatus (old v : Word) {k : Nat} (hk : k < 6) :
    bit ((old &&& ~~~0x3 &&& 0x3F) ||| (v &&& 0x3)) k = bit (if k < 2 then v else old) k := by
  interval_cases k
  all_goals simp [bit]

section
variable {x : Ctx} {s : State} {f : Dev → Dev} {w : Word} {c : Checks} {body : Dev → Effect} {e : Dev} (h : IsaReady x s)
include h

/-- An instruction that gives the context q but for the next word. -/
theorem run_setCtx {q : Proc} (hf : f s.dev = s.dev.issue x w c body) (hc : c.failure (isControl x) none false = none)
    (hb : body (s.dev.passHold x) = { dev := (s.dev.passHold x).setCtx x q }) (hpc : q.pc = (s.dev.ctx x).pc) :
    ∃ t, s.run f = .next t ∧ t.dev.ctx x = { q with pc := (s.dev.ctx x).pc + 1 } ∧ IsaOnly x [] s t := by
  refine ⟨_, run_to h.pow (hf.trans (issue_goesOn h hc hb ?_)), ?_, (((Confined.passHold x [] s.dev).setCtx q).goTo _).isaOnly⟩
  · rw [Dev.ctx_setCtx, hpc]
  · rw [Dev.ctx_goTo, Dev.ctx_setCtx]

/-- A word whose effect is a fault in the control profile, where a normal trap may be taken. -/
theorem run_traps (hctl : isControl x = true) (hn : bit (s.dev.ctx x).status 4 = false) (hf : f s.dev = s.dev.issue x w c body)
    (hc : c.failure (isControl x) none false = none) {k : Nat × Nat × Word}
    (hb : body (s.dev.passHold x) = { dev := e, fault := some k }) (he : e.ctx x = s.dev.ctx x) :
    ∃ t, s.run f = .next t ∧
      Trapped (s.dev.ctx x) (setFld (setFld 0 47 40 k.1) 39 32 k.2.1) k.2.2 (s.dev.ctx x).pc (t.dev.ctx x) := by
  obtain ⟨ht, -⟩ := instrFault_trapped (d := e) (by rwa [he]) hctl (fld w 47 40) k.1 k.2.1 (s.dev.ctx x).pc k.2.2
  rw [he] at ht
  exact ⟨_, run_to h.pow (hf.trans (issue_faults h hc hb)), ht⟩

/-- MTS writes the bits of a register that it may. -/
theorem mts_writes (hctl : isControl x = true) {f : RI} (hd : f.d = 0) (hi : f.imm.toNat ≤ 17) {m : Word}
    (hm : specialMask f.imm.toNat = some m) :
    ∃ t, exec (.isaMts x f) s = .next t ∧ t.dev.ctx x =
        { (s.dev.ctx x).setSpecial f.imm.toNat (((s.dev.ctx x).special f.imm.toNat &&& ~~~m &&&
          (if f.imm.toNat = 1 then 0x3F else 0)) ||| (s.dev.gpr x f.a &&& m)) with pc := (s.dev.ctx x).pc + 1 } ∧
      IsaOnly x [] s t := by
  refine run_setCtx h (f := mtsOp x f) rfl (Checks.failure_none rfl (by simp [hctl]) (by simp [hd]) (by simp [hi])) ?_ rfl
  simp only [hm, Dev.ctx_passHold, Dev.gpr_passHold]

end

/-! ### ERET and WFE (R384, R385) -/

/-- The fields of a word that must be zero are. -/
def bareWord (f : RR) : Prop := f.rsv = 0 ∧ f.func = 0 ∧ f.d = 0 ∧ f.a = 0 ∧ f.b = 0

/-- Such a word of the control profile passes its checks there. -/
theorem bareWord_passes {x : Ctx} {f : RR} (hctl : isControl x = true) (hz : bareWord f) : Checks.failure
    { control := true, norep := true, zero := f.rsv = 0 && f.func = 0 && f.d.val = 0 && f.a.val = 0 && f.b.val = 0 }
    (isControl x) none false = none := by
  obtain ⟨hrsv, hfunc, hd, ha, hb⟩ := hz
  exact Checks.failure_none rfl (by simp [hctl]) (by simp [hrsv, hfunc, hd, ha, hb]) rfl

section
variable {x : Ctx} {s : State} {f : RR} (h : IsaReady x s) (hctl : isControl x = true) (hz : bareWord f)
include h hctl hz

/-- ERET returns from a normal trap, or where no frame of one is open from a fast trap. -/
theorem eret_returns {status pc count : Word}
    (hframe : (status, pc, count) = ((s.dev.ctx x).special 3, (s.dev.ctx x).special 2, (s.dev.ctx x).special 11) ∧
        bit (s.dev.ctx x).status 3 = true ∨
      (status, pc, count) = ((s.dev.ctx x).special 5, (s.dev.ctx x).special 4, (s.dev.ctx x).special 12) ∧
        bit (s.dev.ctx x).status 3 = false ∧ bit (s.dev.ctx x).status 2 = true) :
    ∃ t, exec (.isaEret x f) s = .next t ∧ t.dev.ctx x =
        { (s.dev.ctx x).setSpecial 1 status with
          pc := if bit status 5 && count = 0 then pc + 2 else pc
          rep := if bit status 5 && count ≠ 0 then some count.toNat else none } ∧
      IsaOnly x [] s t := by
  have hissue : eretOp x f s.dev = Dev.goTo ((s.dev.passHold x).setCtx x { (s.dev.ctx x).setSpecial 1 status with
      rep := if bit status 5 && count ≠ 0 then some count.toNat else none }) x
      (if bit status 5 && count = 0 then pc + 2 else pc) := by
    refine issue_completes (j := some (if bit status 5 && count = 0 then pc + 2 else pc)) h (bareWord_passes hctl hz) ?_
    rcases hframe with ⟨he, h3⟩ | ⟨he, h3, h2⟩
    · simp only [Prod.mk.injEq] at he
      obtain ⟨rfl, rfl, rfl⟩ := he
      simp only [Dev.ctx_passHold, h3, if_true]
    · simp only [Prod.mk.injEq] at he
      obtain ⟨rfl, rfl, rfl⟩ := he
      simp only [Dev.ctx_passHold, h3, h2, Bool.false_eq_true, if_false, if_true]
  exact ⟨_, run_to h.pow hissue, by simp, (((Confined.passHold x [] s.dev).setCtx _).goTo _).isaOnly⟩

end

/-! ### Waiting in WFE (R385) -/

namespace Machine.Dev

variable (d : Dev) (x : Ctx) (b : Bool) (i : Fin 32)

@[simp] theorem pc_setWaiting : ((d.setWaiting x b).ctx x).pc = (d.ctx x).pc := by
  cases x with
  | core k => rfl
  | channel c => simp [setWaiting]
  | goatherd => simp [setWaiting]

/-- The registers do not go by whether a context waits. -/
@[simp] theorem gpr_setWaiting : (d.setWaiting x b).gpr x i = d.gpr x i := by
  cases x with
  | core k => rfl
  | channel c => exact gpr_congr_banks _ i (by simp [setWaiting]) (by simp [setWaiting]) (by simp [setWaiting])
  | goatherd => exact gpr_congr_banks _ i (by simp [setWaiting]) (by simp [setWaiting]) (by simp [setWaiting])

/-- A context that was let on waits no more. -/
theorem isWaiting_setWaiting_false (v : Word) : ((d.setWaiting x false).goTo x v).isWaiting x = false := by
  cases x with
  | core k =>
    have hctl : ((d.setWaiting (.core k) false).goTo (.core k) v).rdF .ctlCorekCtl k.val 3 2 = 1 :=
      rdF_wrF_same d .ctlCorekCtl k.val 1 (by decide) (by decide)
    simp [isWaiting, hctl]
  | channel c => rfl
  | goatherd => simp [isWaiting, setWaiting]

theorem isWaiting_core_setWaiting {k : Fin 4} (hon : d.domOn 17 = true) (v : Word) :
    ((d.setWaiting (.core k) true).goTo (.core k) v).isWaiting (.core k) = true := by
  have hctl : ((d.setWaiting (.core k) true).goTo (.core k) v).rdF .ctlCorekCtl k.val 3 2 = 2 :=
    rdF_wrF_same d .ctlCorekCtl k.val 2 (by decide) (by decide)
  have hon' : ((d.setWaiting (.core k) true).goTo (.core k) v).domOn 17 = true := hon
  simp [isWaiting, hctl, hon']

end Machine.Dev

theorem Confined.setWaiting {x : Ctx} {ps : List Part} {d₀ d : Dev} (h : Confined x ps d₀ d) (hp : Part.regs ∈ ps) (b : Bool) :
    Confined x ps d₀ (d.setWaiting x b) := by
  cases x with
  | core k => exact h.wr hp ..
  | channel c => exact h.setCtx _
  | goatherd => exact h.setCtx _

/-- WFE without a record for the context waits at its word. -/
theorem wfe_issue {x : Ctx} {s : State} {f : RR} (h : IsaReady x s) (hctl : isControl x = true) (hz : bareWord f)
    (hrec : s.dev.hasRecord x = false) : wfeOp x f s.dev = ((s.dev.passHold x).setWaiting x true).goTo x (s.dev.ctx x).pc := by
  have hrec' : (s.dev.passHold x).hasRecord x = false := (s.dev.passHold_reads x (·.hasRecord x) fun _ => rfl).trans hrec
  exact issue_completes (j := some (s.dev.ctx x).pc) h
    (bareWord_passes hctl hz) (by simp only [hrec', Bool.false_eq_true, if_false, Dev.ctx_passHold])

/-- Settles O36: a register read or written, a return, a wait and its end, and the faults and the trap by what a normal trap
does. -/
theorem systemInstructions : Obligations.SystemInstructions := by
  unfold Obligations.SystemInstructions
  refine ⟨?mfs, ?mtsRo, ?mts, ?mtsStatus, ?eretNormal, ?eretFast, ?eretOut, ?wfe, ?wfeCore, ?wfeGoatherd, ?wake, ?wakes,
    ?mfa, ?mta, ?trap⟩
  case mfs =>
    intro x f s h hctl ha hi
    exact run_writes h rfl (Checks.failure_none rfl (by simp [hctl]) (by simp [ha]) (by simp [hi]))
      (by simp only [readSpecial_eq, Dev.ctx_passHold, cycles_passHold])
  case mtsRo =>
    intro x f s h hctl hd hi hn
    have hi' : f.imm.toNat = 0 ∨ f.imm.toNat = 16 := hi.imp (congrArg BitVec.toNat) (congrArg BitVec.toNat)
    have hm : specialMask f.imm.toNat = none := by rcases hi' with hi | hi <;> rw [hi] <;> rfl
    obtain ⟨t, ht, htrap⟩ := run_traps h hctl hn (f := mtsOp x f) rfl
      (Checks.failure_none rfl (by simp [hctl]) (by simp [hd]) (by simp; omega)) (by simp only [hm]; rfl)
      (ctx_free_passHold s.dev x)
    exact ⟨t, ht, htrap.entry, htrap.back, htrap.cause⟩
  case mts =>
    intro x f m s h hctl hd hi h1 hm
    obtain ⟨t, ht, hctx, honly⟩ := mts_writes h hctl hd hi hm
    refine ⟨t, ht, ?_, fun k hk => ?_, ?_, fun i => ?_, honly⟩
    · simp [hctx, h1]
    · simp [hctx, hk.symm]
    · simp [hctx]
    · simp only [Dev.gpr, hctx, Proc.fast, Proc.special_mk, Proc.special_setSpecial, if_neg h1]
      exact Proc.reg_congr _ _ rfl rfl
  case mtsStatus =>
    intro x f s h hctl hd hi
    obtain ⟨t, ht, hctx, honly⟩ := mts_writes h hctl hd (by simp [hi]) (m := 0x3) (by simp [hi, specialMask])
    have hbit : ∀ k : Nat, k < 6 →
        bit ((t.dev.ctx x).special 1) k = bit (if k < 2 then s.dev.gpr x f.a else (s.dev.ctx x).special 1) k := by
      intro k hk
      rw [hctx, Proc.special_mk, ← bit_mtsStatus _ _ hk]
      simp [hi]
    have hrep : (t.dev.ctx x).rep = (s.dev.ctx x).rep := by rw [hctx]; rfl
    refine ⟨t, ht, ?_, ?_, fun k hk => ?_, honly⟩
    · rw [Proc.bit_status _ (by decide), hbit 0 (by decide), if_pos (by decide)]
    · rw [Proc.bit_status _ (by decide), hbit 1 (by decide), if_pos (by decide)]
    · by_cases h5 : k.val = 5
      · rw [h5, Proc.bit_status_repa, Proc.bit_status_repa, hrep]
      · rw [Proc.bit_status _ h5, Proc.bit_status _ h5, hbit k k.isLt, if_neg (by omega)]
  case eretNormal =>
    intro x f s h hctl hrsv hfunc hd ha hb h3 h5
    obtain ⟨t, ht, hctx, honly⟩ := eret_returns h hctl ⟨hrsv, hfunc, hd, ha, hb⟩ (.inl ⟨rfl, h3⟩)
    exact ⟨t, ht, by simp [hctx, h5], by simp [hctx], by simp [hctx, h5], by simp [hctx], by simp [hctx], honly⟩
  case eretFast =>
    intro x f s h hctl hrsv hfunc hd ha hb h3 h2 h5 hcount
    obtain ⟨t, ht, hctx, honly⟩ := eret_returns h hctl ⟨hrsv, hfunc, hd, ha, hb⟩ (.inr ⟨rfl, h3, h2⟩)
    have hcount' : ¬(s.dev.ctx x).special 12 = 0#48 := hcount
    exact ⟨t, ht, by simp [hctx, hcount'], by simp [hctx], by simp [hctx, h5, hcount'], honly⟩
  case eretOut =>
    intro x f s h hctl hrsv hfunc hd ha hb h3 h2 hn
    obtain ⟨t, ht, htrap⟩ := run_traps h hctl hn (f := eretOp x f) rfl
      (bareWord_passes hctl ⟨hrsv, hfunc, hd, ha, hb⟩)
      (by simp only [Dev.ctx_passHold, h3, h2]; rfl) (ctx_free_passHold s.dev x)
    exact ⟨t, ht, htrap.entry, htrap.back, htrap.cause⟩
  case wfe =>
    intro x f s h hctl hrsv hfunc hd ha hb hrec
    have hrec' : (s.dev.passHold x).hasRecord x = true := (s.dev.passHold_reads x (·.hasRecord x) fun _ => rfl).trans hrec
    obtain ⟨t, ht, -, hpass, honly⟩ := run_passes h (f := wfeOp x f) rfl
      (bareWord_passes hctl ⟨hrsv, hfunc, hd, ha, hb⟩) (by simp only [hrec', if_true])
      (.passHold x [] s.dev) (Dev.ctx_passHold s.dev x)
    exact ⟨t, ht, hpass, honly⟩
  case wfeCore =>
    intro k f s h hrsv hfunc hd ha hb hrec
    have hon : s.dev.domOn 17 = true := by
      obtain ⟨-, hruns, -, -⟩ := h
      simp only [Dev.ctxRuns, Bool.and_eq_true] at hruns
      exact hruns.1
    have hon' : (s.dev.passHold (.core k)).domOn 17 = true := (s.dev.passHold_reads (.core k) (·.domOn 17) fun _ => rfl).trans hon
    refine ⟨_, run_to h.pow (wfe_issue h rfl ⟨hrsv, hfunc, hd, ha, hb⟩ hrec), Dev.isWaiting_core_setWaiting _ hon' _, by simp, ?_,
      (((Confined.passHold _ _ s.dev).setWaiting (by simp) true).goTo _).isaOnly⟩
    intro n hn
    exact Dev.tfind_regs_wr _ _ _ _ (by simpa using hn)
  case wfeGoatherd =>
    intro f s h hrsv hfunc hd ha hb hrec
    refine ⟨_, run_to h.pow (wfe_issue h rfl ⟨hrsv, hfunc, hd, ha, hb⟩ hrec), ?_,
      (((Confined.passHold _ _ s.dev).setCtx _).goTo _).isaOnly⟩
    simp [Dev.setWaiting]
  case wake =>
    intro x s hno
    exact State.run_unchanged (if_neg (by rcases hno with hno | hno <;> simp [hno]))
  case wakes =>
    intro x s hp hw hrec
    have hwake : wfeWakeOp x s.dev = (s.dev.setWaiting x false).goTo x ((s.dev.ctx x).pc + 1) := by
      unfold wfeWakeOp
      simp only [hw, hrec, Bool.and_self, if_true, Dev.pc_setWaiting]
      rfl
    exact ⟨_, run_to hp hwake, s.dev.isWaiting_setWaiting_false x _, by simp, by simp,
      (((Confined.refl x [.regs] s.dev).setWaiting (by simp) false).goTo _).isaOnly⟩
  case mfa =>
    intro x f s h hctl hrsv hfunc hb
    exact run_writes h rfl (Checks.failure_none rfl (by simp [hctl]) (by simp [hrsv, hfunc, hb]) rfl) (by simp)
  case mta =>
    intro x f s h hctl hrsv hfunc hb
    exact run_setCtx h rfl (Checks.failure_none rfl (by simp [hctl]) (by simp [hrsv, hfunc, hb]) rfl) (by simp) (by simp)
  case trap =>
    intro x f s h hctl hd ha hn
    have hn' : bit ((s.dev.passHold x).ctx x).status 4 = false := by rwa [Dev.ctx_passHold]
    have htrap := normalTrap_trapped hn' 1 0 0 f.sx ((s.dev.ctx x).pc + 1)
    have honly := (Confined.passHold x [] s.dev).normalTrap hn' 1 0 0 f.sx ((s.dev.ctx x).pc + 1)
    have hissue : trapOp x f s.dev = _ := issue_completes h
      (Checks.failure_none rfl (by simp [hctl]) (by simp [hd, ha]) rfl) (by rw [Dev.ctx_passHold])
    generalize (s.dev.passHold x).normalTrap x 1 0 0 f.sx ((s.dev.ctx x).pc + 1) = e at hissue htrap honly
    rw [← show (e.goTo x (e.ctx x).pc).ctx x = e.ctx x from Dev.ctx_goTo .., Dev.ctx_passHold] at htrap
    exact ⟨_, run_to h.pow hissue, htrap.entry, htrap.back, htrap.saved, htrap.cause.trans (by decide), htrap.datum, htrap.inTrap,
      htrap.level, htrap.masked, htrap.w, htrap.alt, (honly.goTo _).isaOnly⟩

end Sys2Proof
end

section
/-! PROOF. O37: traps (R383, R384), the faults of a word and of a fetch (R345, R347–R349), and the decoder (R342, R346). -/

namespace Sys2Proof

open Machine

/-! ### Words of no opcode (R345, R346) -/

section
variable {w : Word} (h : opcodeDefined (fld w 47 40) = false)
include h

/-- An opcode that is defined is none that is not. -/
theorem opcode_ne_of_defined {op : Nat} (hop : opcodeDefined op = true) : fld w 47 40 ≠ op := by
  rintro rfl
  rw [hop] at h
  cases h

theorem commandOf_undefined (c : Fin 512) : commandOf c w = none := by
  unfold commandOf
  split
  case h_14 => rfl
  all_goals next hop => exact absurd hop (opcode_ne_of_defined h (by decide))

theorem lowInstruction_undefined (x : Ctx) : lowInstruction x w = none := by
  unfold lowInstruction
  split
  case h_58 => rfl
  all_goals next hop => exact absurd hop (opcode_ne_of_defined h (by decide))

theorem highInstruction_undefined (x : Ctx) : highInstruction x w = none := by
  unfold highInstruction
  split
  case h_21 =>
    refine if_neg fun hint => ?_
    simp [opcodeDefined] at h hint
    omega
  all_goals next hop => exact absurd hop (opcode_ne_of_defined h (by decide))

theorem decodeInstruction_undefined (x : Ctx) : decodeInstruction x w = .undefinedOpcode x w := by
  unfold decodeInstruction
  rw [lowInstruction_undefined h, highInstruction_undefined h]
  cases x with
  | channel c =>
    have hcommand := commandOf_undefined h c
    simp only [hcommand]
    rfl
  | core k => rfl
  | goatherd => rfl

end

/-! ### Words of the instruction set -/

theorem decodeInstruction_low {x : Ctx} {w : Word} {i : Instr} (h : lowInstruction x w = some i) : decodeInstruction x w = i := by
  unfold decodeInstruction
  rw [h]
  rfl

theorem decodeInstruction_high {x : Ctx} {w : Word} {i : Instr} (hl : lowInstruction x w = none)
    (h : highInstruction x w = some i) : decodeInstruction x w = i := by
  unfold decodeInstruction
  rw [hl, h]
  rfl

theorem decodeInstruction_command {c : Fin 512} {w : Word} {i : Instr} (hl : lowInstruction (.channel c) w = none)
    (hh : highInstruction (.channel c) w = none) (h : commandOf c w = some i) : decodeInstruction (.channel c) w = i := by
  unfold decodeInstruction
  simp only [hl, hh, h]
  rfl

/-! ### A fast trap (R383) -/

/-- The processor p has become q by a fast trap. -/
structure FastTrapped (p q : Proc) : Prop where
  entry : q.pc = p.special 9
  back : q.special 4 = p.pc
  saved : q.special 5 = p.status
  count : q.special 12 = wordOf (p.rep.getD 0)
  rep : q.rep = none
  bank : q.fast = true
  fastMasked : bit q.status 1 = false
  masked : bit q.status 0 = false
  w : q.w = p.w
  alt : q.alt = p.alt

theorem fastTrap_trapped (d : Dev) (x : Ctx) : FastTrapped (d.ctx x) ((d.fastTrap x).ctx x) := by
  unfold Dev.fastTrap
  simp only [Dev.ctx_setCtx]
  constructor
  case fastMasked | masked =>
    rw [Proc.bit_status _ (by decide), Proc.special_mk, Proc.special_setSpecial, if_pos rfl]
    simp (disch := decide) only [bit_setBit_ne, bit_setBit_same]
  case bank =>
    rw [Proc.fast, Proc.special_mk, Proc.special_setSpecial, if_pos rfl]
    simp (disch := decide) only [bit_setBit_ne, bit_setBit_same]
  all_goals simp

/-! ### Faults that halt a channel or stop a core (R349, R386) -/

/-- ADD whose must-be-zero fields are not fails check 5, in a gather as outside it. -/
theorem add_failure {f : RR} (h : f.rsv ≠ 0 ∨ f.func ≠ 0) (control gather : Bool) :
    Checks.failure { zero := f.rsv = 0 && f.func = 0 } control none gather = some (0x12, 0) := by
  have hzero : (decide (f.rsv = 0) && decide (f.func = 0)) = false := by simpa [imp_iff_not_or] using h
  simp only [Checks.failure, hzero]
  rfl

/-- ADD is a word of these checks. -/
theorem addOp_eq (x : Ctx) (f : RR) (d : Dev) : addOp x f d = d.issue x (f.word 0x01) { zero := f.rsv = 0 && f.func = 0 }
    (fun d => { dev := d.setGpr x f.d (d.gpr x f.a + d.gpr x f.b) }) := rfl

theorem shliOp_eq (x : Ctx) (f : RI) (d : Dev) : shliOp x f d = d.issue x (f.word 0x15) { value := f.imm.toNat < 48 }
    (fun d => { dev := d.setGpr x f.d (shl (d.gpr x f.a) f.imm.toNat) }) := rfl

/-- What changes parts that are neither processors nor channels. -/
theorem Within.isaOnly {ps : List Part} {ks : List Nat} {s : State} {t : Dev} (h : Within (plainFoot ps ks) s.dev t) (x : Ctx)
    (hprocs : Part.procs ∉ ps) (hibx : Part.ibx ∉ ps) : IsaOnly x ps s { s with dev := t } := by
  have hp : t.procs = s.dev.procs := h.parts .procs hprocs
  have hi : t.ibx = s.dev.ibx := h.parts .ibx hibx
  refine ⟨fun n _ => ?_, fun n _ => ?_, rfl, fun p hp => h.parts p fun hm => hp (by simp [show p ∈ ps from hm])⟩
  · simp only [Dev.proc, hp]
  · simp only [Dev.chan, hi]

/-- What a double fault of core k may reach. -/
def doubleFaultFoot (k : Fin 4) : Foot :=
  plainFoot [.regs, .evc, .wev] [regKey .ctlCorekDcause k, regKey .ctlCorekDpc k, regKey .ctlCorekCtl k]

section
variable (d : Dev) (k : Fin 4) (cause : Word)

/-- A double fault of a core: its state, what it tells, and what it leaves alone. -/
theorem rdF_doubleFault : (d.doubleFault (.core k) cause).rdF .ctlCorekCtl k.val 3 2 = 3 := by
  unfold Dev.doubleFault
  rw [Dev.rdF, (Dev.setLevel_keeps ..).2.2.2.2.2.2.2.2.2.2.2.2.2.2.2.2.2.2.2.2.2.2.2.2.2.2]
  exact Dev.rdF_wrF_same _ .ctlCorekCtl k.val 3 (by decide) (by decide)

theorem rd_dcause_doubleFault : (d.doubleFault (.core k) cause).rd .ctlCorekDcause k.val = cause := by
  unfold Dev.doubleFault Dev.wrF
  simp only [Dev.setLevel_keeps]
  rw [Dev.rd_wr_apart _ (by decide), Dev.rd_wr_apart _ (by decide), Dev.rd_wr_same]

theorem rd_dpc_doubleFault : (d.doubleFault (.core k) cause).rd .ctlCorekDpc k.val = (d.ctx (.core k)).pc := by
  unfold Dev.doubleFault Dev.wrF
  simp only [Dev.setLevel_keeps]
  rw [Dev.rd_wr_apart _ (by decide), Dev.rd_wr_same]

theorem doubleFault_within : Within (doubleFaultFoot k) d (d.doubleFault (.core k) cause) := by
  have hregs : Part.regs ∈ (doubleFaultFoot k).parts := by simp [doubleFaultFoot, plainFoot]
  have hcause := (Within.refl (doubleFaultFoot k) d).wr hregs (r := .ctlCorekDcause) (i := k) (by simp [doubleFaultFoot, plainFoot])
  have hpc := fun v => (hcause v).wr hregs (r := .ctlCorekDpc) (i := k) (by simp [doubleFaultFoot, plainFoot])
  exact ((hpc _ _).wrF hregs (by simp [doubleFaultFoot, plainFoot]) 3 2 3).setLevel (by simp [doubleFaultFoot, plainFoot])
    (665 + k.val) true

end

/-- Settles O37: the traps by what they make of the context, the faults of a word by the first check it fails, and words by the
opcode map. -/
theorem trapsAndFaults : Obligations.TrapsAndFaults := by
  unfold Obligations.TrapsAndFaults
  refine ⟨?fast, ?normal, ?undefCore, ?undefChannel, ?noFast, ?noNormal, ?zero, ?value, ?gatherBad, ?gatherGood, ?decode,
    ?decodeChannel, ?decodeControl, ?decodeUndef, ?zeroControl, ?fetchChannel, ?fetchCore⟩
  case fast =>
    intro x s hp hctl hruns hf hq
    have hfast : fastTrapOp x s.dev = s.dev.fastTrap x := if_pos (by simp [hctl, hruns, hf, hq])
    have htrap := fastTrap_trapped s.dev x
    exact ⟨_, run_to hp hfast, htrap.entry, htrap.back, htrap.saved, htrap.count, htrap.rep, htrap.bank, htrap.fastMasked,
      htrap.masked, htrap.w, htrap.alt, (Confined.setCtx (.refl x [] s.dev) _).isaOnly⟩
  case normal =>
    intro x s hp hctl hruns h0 h1 h4 hq
    have hnormal : normalTrapOp x s.dev = s.dev.normalTrap x 2 0 0 0 (s.dev.ctx x).pc := if_pos (by simp [hctl, hruns, h0, h1, hq])
    have htrap := normalTrap_trapped h4 2 0 0 0 (s.dev.ctx x).pc
    refine ⟨_, run_to hp hnormal, htrap.entry, htrap.back, htrap.saved, ?_, htrap.rep, htrap.inTrap, htrap.level, htrap.masked,
      ((Confined.refl x [] s.dev).normalTrap h4 ..).isaOnly⟩
    exact (congrArg (fld · 31 30) htrap.cause).trans (fld_setFld_same _ _ (by decide) (by decide))
  case undefCore =>
    intro k w s h hdef hcommand hn
    have hissue : undefinedOpcodeOp (.core k) w s.dev = s.dev.issue (.core k) w { undef := some 0 } fun d => { dev := d } := by
      simp [undefinedOpcodeOp, hdef, hcommand]
    obtain ⟨t, ht, htrap, honly⟩ := h.run_failTraps rfl hn hissue (e := (0x11, 0)) rfl
    exact ⟨t, ht, htrap.entry, htrap.back, htrap.cause.trans (faultCause_zero _), htrap.datum, honly⟩
  case undefChannel =>
    intro c w s h hdef
    have hissue : undefinedOpcodeOp (.channel c) w s.dev =
        s.dev.issue (.channel c) w { undef := some 0 } fun d => { dev := d } := by
      simp [undefinedOpcodeOp, hdef, isControl]
    obtain ⟨t, ht, hh⟩ := h.run_halts hissue (e := (0x11, 0)) rfl (by decide) (by decide)
    refine ⟨t, ht, hh.state, hh.reason, hh.status, hh.sub, hh.op.trans (Nat.mod_eq_of_lt (fld_lt w 47 40))⟩
  case noFast =>
    intro x s hno
    exact State.run_unchanged (if_neg (by rcases hno with hno | hno | hno | hno <;> simp [hno]))
  case noNormal =>
    intro x s hno
    exact State.run_unchanged (if_neg (by rcases hno with hno | hno | hno | hno <;> simp [hno]))
  case zero =>
    intro c f s h hbad
    obtain ⟨t, ht, hh⟩ := h.run_halts (f := addOp (.channel c) f) (addOp_eq ..) (add_failure hbad ..) (by decide) (by decide)
    exact ⟨t, ht, hh.state, hh.reason, hh.status, hh.sub⟩
  case value =>
    intro c f s h himm
    obtain ⟨t, ht, hh⟩ := h.run_halts (f := shliOp (.channel c) f) (shliOp_eq ..) (e := (0x12, 1))
      (by simp [Checks.failure, himm]) (by decide) (by decide)
    exact ⟨t, ht, hh.state, hh.reason, hh.status, hh.sub⟩
  case gatherBad =>
    intro c f s hp hruns hg hrep hbad
    obtain ⟨t, ht, hh⟩ := run_halts (f := addOp (.channel c) f) hp hruns (addOp_eq ..)
      (by rw [hrep]; exact add_failure hbad ..) (by decide) (by decide)
    exact ⟨t, ht, hh.state, hh.reason, hh.status, hh.sub⟩
  case gatherGood =>
    intro c f s hp hruns hg hrep hrsv hfunc
    obtain ⟨t, ht, hh⟩ := run_halts (f := addOp (.channel c) f) hp hruns (addOp_eq ..) (e := (0x11, 1))
      (by simp [Checks.failure, hg, hrsv, hfunc]) (by decide) (by decide)
    exact ⟨t, ht, hh.state, hh.reason, hh.status, hh.sub⟩
  case decode =>
    intro x r i b n p
    refine ⟨decodeInstruction_low ?_, decodeInstruction_low ?_, decodeInstruction_low ?_, decodeInstruction_low ?_,
      decodeInstruction_high ?_ ?_⟩
    · simp [lowInstruction, RR.opcode_word, RR.of_word]
    · simp [lowInstruction, RI.opcode_word, RI.of_word]
    · simp [lowInstruction, CB.opcode_word, CB.of_word]
    · simp [lowInstruction, CBI.opcode_word, CBI.of_word]
    · simp [lowInstruction, RepWord.opcode_word]
    · simp [highInstruction, RepWord.opcode_word, RepWord.of_word]
  case decodeChannel =>
    intro c f
    refine ⟨decodeInstruction_command ?_ ?_ ?_, decodeInstruction_command ?_ ?_ ?_⟩
    · simp [lowInstruction, ChWord.opcode_word]
    · simp [highInstruction, ChWord.opcode_word]
    · simp [commandOf, ChWord.opcode_word, ChWord.of_word]
    · simp [lowInstruction, ChWord.opcode_word]
    · simp [highInstruction, ChWord.opcode_word]
    · simp [commandOf, ChWord.opcode_word, ChWord.of_word]
  case decodeControl =>
    intro x f hctl
    have hl : lowInstruction x (f.word 0xC0) = none := by simp [lowInstruction, ChWord.opcode_word]
    have hh : highInstruction x (f.word 0xC0) = none := by simp [highInstruction, ChWord.opcode_word]
    unfold decodeInstruction
    rw [hl, hh]
    cases x with
    | channel c => cases hctl
    | core k => rfl
    | goatherd => rfl
  case decodeUndef => exact fun x w h => decodeInstruction_undefined h x
  case zeroControl =>
    intro x f s h hctl hbad hn
    obtain ⟨t, ht, htrap, honly⟩ := h.run_failTraps hctl hn (f := addOp x f) (addOp_eq ..) (add_failure hbad ..)
    exact ⟨t, ht, htrap.entry, htrap.back, htrap.saved, htrap.cause.trans (faultCause_zero _), htrap.datum, honly⟩
  case fetchChannel =>
    intro c s h
    obtain ⟨hp, hruns, -, hrep⟩ := h
    have hh := halted_instrFault s.dev c (st := 0x21) (sub := 7) (by decide) (by decide)
      0 (s.dev.ctx (.channel c)).pc (s.dev.ctx (.channel c)).pc
    have hfault : fetchFaultOp (.channel c) .area s.dev = _ := if_neg (by simp [hruns])
    have hat : (s.dev.ctx (.channel c)).at_ = (s.dev.ctx (.channel c)).pc := by simp [Proc.at_, hrep]
    rw [hat] at hfault
    exact ⟨_, run_to hp hfault, hh.state, hh.reason, hh.status, hh.sub, hh.addr⟩
  case fetchCore =>
    intro k s h hn
    obtain ⟨hp, hruns, -, -⟩ := h
    have hfault : fetchFaultOp (.core k) .poison s.dev = s.dev.doubleFault (.core k) (setFld 0 47 40 0x18) := by
      rw [← faultCause_zero, ← faultCause]
      exact (if_neg (by simp [hruns])).trans (if_pos hn)
    have hw := doubleFault_within s.dev k (setFld 0 47 40 0x18)
    exact ⟨_, run_to hp hfault, rdF_doubleFault .., rd_dcause_doubleFault .., rd_dpc_doubleFault .., hw.regsOnly,
      hw.isaOnly _ (by decide) (by decide)⟩

end Sys2Proof
end

section
/-! PROOF. O38: FMIN and FMAX (R376), NaN operands, the order of operands, negation (R396–R399), and products with 1.0. -/

namespace Sys2Proof

open Machine

/-! ### NaN operands (R396) -/

/-- The value is a NaN. -/
def Machine.F48.isNan (a : F48) : Prop := a = .qnan ∨ a = .snan

theorem anySnan_pair (a b : F48) : (anySnan [a, b] = true) ↔ a = .snan ∨ b = .snan := by simp [anySnan]

theorem anyNan_one (a : F48) : (anyNan [a] = true) ↔ a.isNan := by simp [anyNan, F48.isNan, or_comm]

theorem anyNan_pair (a b : F48) : (anyNan [a, b] = true) ↔ a.isNan ∨ b.isNan := by simp [anyNan, F48.isNan, or_comm]

/-- Where the operation goes by NaN operands first, a NaN operand decides. -/
theorem nan_first {a b : F48} {g : Word × Nat} (h : a.isNan ∨ b.isNan) :
    (if anySnan [a, b] then (f48NaN, 16) else if anyNan [a, b] then (f48NaN, 0) else g) =
      (f48NaN, if a = .snan ∨ b = .snan then 16 else 0) := by
  by_cases hs : a = .snan ∨ b = .snan
  · rw [if_pos ((anySnan_pair a b).mpr hs), if_pos hs]
  · rw [if_neg (fun e => hs ((anySnan_pair a b).mp e)), if_pos ((anyNan_pair a b).mpr h), if_neg hs]

theorem isNan_of_anySnan {a b : F48} (h : anySnan [a, b] = true) : a.isNan ∨ b.isNan :=
  ((anySnan_pair a b).mp h).imp .inr .inr

/-- Where none of them is one, the operation itself. -/
theorem nan_none {a b : F48} {g : Word × Nat} (h : ¬ (a.isNan ∨ b.isNan)) :
    (if anySnan [a, b] then (f48NaN, 16) else if anyNan [a, b] then (f48NaN, 0) else g) = g := by
  rw [if_neg fun e => h (isNan_of_anySnan e), if_neg fun e => h ((anyNan_pair a b).mp e)]

theorem neg_eq_snan (b : F48) : b.neg = .snan ↔ b = .snan := by cases b <;> simp [F48.neg]

theorem neg_isNan_iff (b : F48) : b.neg.isNan ↔ b.isNan := by cases b <;> simp [F48.neg, F48.isNan]

/-! ### FMIN and FMAX (R376) -/

theorem fminmax_flags (mx : Bool) (a b : Word) : (fminmax mx a b).2 = if f48 a = .snan ∨ f48 b = .snan then 16 else 0 := by
  have hfl : (fminmax mx a b).2 = if anySnan [f48 a, f48 b] then 16 else 0 := by
    unfold fminmax
    dsimp only
    split_ifs <;> rfl
  rw [hfl]
  simp only [anySnan_pair]

section
variable (mx : Bool) {a b : Word}

theorem fminmax_nan_both (ha : (f48 a).isNan) (hb : (f48 b).isNan) : (fminmax mx a b).1 = f48NaN := by
  simp [fminmax, anyNan_one, ha, hb]

theorem fminmax_nan_left (ha : (f48 a).isNan) (hb : ¬ (f48 b).isNan) : (fminmax mx a b).1 = b := by
  simp [fminmax, anyNan_one, ha, hb]

theorem fminmax_nan_right (ha : ¬ (f48 a).isNan) (hb : (f48 b).isNan) : (fminmax mx a b).1 = a := by
  simp [fminmax, anyNan_one, ha, hb]

theorem fminmax_numbers (ha : ¬ (f48 a).isNan) (hb : ¬ (f48 b).isNan) : (fminmax mx a b).1 =
    if (decide ((f48Key (f48 a) (f48 b)).1 < (f48Key (f48 a) (f48 b)).2) ||
      (decide ((f48Key (f48 a) (f48 b)).1 = (f48Key (f48 a) (f48 b)).2) && bit a 47 && !bit b 47)) != mx then a else b := by
  simp [fminmax, anyNan_one, ha, hb]

/-- Numbers that differ are ordered by their keys. -/
theorem fminmax_of_less (ha : ¬ (f48 a).isNan) (hb : ¬ (f48 b).isNan)
    (h : (f48Key (f48 a) (f48 b)).1 < (f48Key (f48 a) (f48 b)).2) : (fminmax mx a b).1 = if mx then b else a := by
  rw [fminmax_numbers mx ha hb, decide_eq_true h]
  cases mx <;> rfl

theorem fminmax_of_greater (ha : ¬ (f48 a).isNan) (hb : ¬ (f48 b).isNan)
    (h : (f48Key (f48 a) (f48 b)).2 < (f48Key (f48 a) (f48 b)).1) : (fminmax mx a b).1 = if mx then a else b := by
  rw [fminmax_numbers mx ha hb, decide_eq_false h.not_gt, decide_eq_false h.ne']
  cases mx <;> rfl

end

/-! ### Finite values in units of a power of two (R393) -/

/-- The rational number that a finite value stands for. -/
def finValue (s : Bool) (m : Nat) (e : Int) : ℚ := (if s then -(m : ℚ) else m) * 2 ^ e

/-- The number of units of 2^q that it has. -/
def finUnits (s : Bool) (m : Nat) (e q : Int) : Int :=
  if s then -((m <<< (e - q).toNat : Nat) : Int) else (m <<< (e - q).toNat : Nat)

theorem finValue_eq_units (s : Bool) (m : Nat) {e q : Int} (h : q ≤ e) : finValue s m e = (finUnits s m e q : ℚ) * 2 ^ q := by
  have he : (2 : ℚ) ^ e = 2 ^ (e - q).toNat * 2 ^ q := by
    rw [← zpow_natCast, Int.toNat_of_nonneg (by omega), ← zpow_add₀ (by norm_num)]
    congr 1
    omega
  unfold finValue finUnits
  rw [he, Nat.shiftLeft_eq]
  cases s
  · simp only [Bool.false_eq_true, if_false]
    push_cast
    ring
  · simp only [if_true]
    push_cast
    ring

section
variable (s t : Bool) (m n : Nat) (e f : Int)

theorem f48Key_fin : f48Key (.fin s m e) (.fin t n f) = (finUnits s m e (min e f), finUnits t n f (min e f)) := rfl

theorem f48Sum_fin (mode : RMode) : f48Sum mode (.fin s m e) (.fin t n f) =
    if finUnits s m e (min e f) + finUnits t n f (min e f) = 0 then
      (if m <<< (e - min e f).toNat = 0 && n <<< (f - min e f).toNat = 0 && s = t then f48Zero s else f48Zero (mode = .rdn), 0)
    else f48Round mode (finUnits s m e (min e f) + finUnits t n f (min e f) < 0)
      (finUnits s m e (min e f) + finUnits t n f (min e f)).natAbs (min e f) false := rfl

end

/-- The keys of finite values are in the order of their values. -/
theorem finUnits_lt {s t : Bool} {m n : Nat} {e f : Int} (h : finValue s m e < finValue t n f) :
    finUnits s m e (min e f) < finUnits t n f (min e f) := by
  rw [finValue_eq_units s m (min_le_left e f), finValue_eq_units t n (min_le_right e f)] at h
  exact Int.cast_lt.mp (lt_of_mul_lt_mul_right h (by positivity))

/-! ### Sums and products (R394–R396) -/

theorem f48Sum_comm (mode : RMode) (a b : F48) : f48Sum mode a b = f48Sum mode b a := by
  rcases a with ⟨s, m, e⟩ | s | _ | _ <;> rcases b with ⟨t, n, f⟩ | t | _ | _
  case fin.fin =>
    rw [f48Sum_fin, f48Sum_fin, min_comm f e, add_comm (finUnits t n f _)]
    by_cases hst : s = t
    · subst hst
      simp only [Bool.and_comm]
    · simp [hst, Ne.symm hst]
  case inf.inf =>
    by_cases hst : s = t
    · rw [hst]
    · simp [f48Sum, hst, Ne.symm hst]
  all_goals rfl

theorem f48Product_comm {a b : F48} (ha : ¬ a.isNan) (hb : ¬ b.isNan) : f48Product a b = f48Product b a := by
  cases a with
  | qnan => exact absurd (.inl rfl) ha
  | snan => exact absurd (.inr rfl) ha
  | fin s m e =>
    cases b with
    | qnan => exact absurd (.inl rfl) hb
    | snan => exact absurd (.inr rfl) hb
    | fin t n f => simp only [f48Product, mul_comm n m, add_comm f e, bne_comm (a := t)]
    | inf t => simp only [f48Product, bne_comm (a := t)]
  | inf s =>
    cases b with
    | qnan => exact absurd (.inl rfl) hb
    | snan => exact absurd (.inr rfl) hb
    | fin t n f => simp only [f48Product, bne_comm (a := t)]
    | inf t => simp only [f48Product, bne_comm (a := t)]

theorem fadd_comm (mode : RMode) (a b : F48) : fadd mode a b = fadd mode b a := by
  by_cases h : a.isNan ∨ b.isNan
  · have hab : fadd mode a b = _ := nan_first h
    have hba : fadd mode b a = _ := nan_first h.symm
    simp only [hab, hba, or_comm]
  · exact (nan_none h).trans ((f48Sum_comm mode a b).trans (nan_none (mt Or.symm h)).symm)

theorem fmul_comm (mode : RMode) (a b : F48) : fmul mode a b = fmul mode b a := by
  by_cases h : a.isNan ∨ b.isNan
  · have hab : fmul mode a b = _ := nan_first h
    have hba : fmul mode b a = _ := nan_first h.symm
    simp only [hab, hba, or_comm]
  · have hproduct := f48Product_comm (mt .inl h) (mt .inr h)
    unfold fmul
    rw [nan_none h, nan_none (mt Or.symm h), hproduct]

/-! ### The format (R391, R392) -/

/-- A word is its sign, exponent and fraction. -/
theorem f48_parts (w : Word) : setBit (setFld (wordOf (fld w 35 0)) 46 36 (fld w 46 36)) 47 (bit w 47) = w := by
  refine BitVec.eq_of_getLsbD_eq fun k hk => ?_
  simp only [setBit, getLsbD_setFld, testBit_fld, wordOf, BitVec.getLsbD_ofNat]
  by_cases h47 : k = 47
  · subst h47
    simp only [bit]
    generalize w.getLsbD 47 = b
    cases b <;> rfl
  · have hk47 : ¬ 47 ≤ k := by omega
    by_cases h36 : 36 ≤ k
    · have hlt : k < 47 := by omega
      have hin : k - 36 < 11 := by omega
      simp [hk, hk47, h36, hlt, hin]
    · have hlt : k < 36 := by omega
      simp [hk, hk47, h36, hlt]

/-- The word with the sign inverted. -/
theorem xor_sign (w : Word) : w ^^^ 0x800000000000 = setBit w 47 (!bit w 47) := by
  refine BitVec.eq_of_getLsbD_eq fun k hk => ?_
  rw [show (0x800000000000 : Word) = BitVec.twoPow 48 47 by decide]
  simp only [setBit, getLsbD_setFld, BitVec.getLsbD_xor, BitVec.getLsbD_twoPow]
  by_cases h47 : k = 47
  · subst h47
    simp only [bit]
    generalize w.getLsbD 47 = b
    cases b <;> rfl
  · have hk47 : ¬ 47 ≤ k := by omega
    simp [hk47, Ne.symm h47]

theorem f48_xor_sign (w : Word) : f48 (w ^^^ 0x800000000000) = (f48 w).neg := by
  have hs : bit (w ^^^ 0x800000000000) 47 = !bit w 47 := by rw [xor_sign, bit_setBit_same _ _ (by decide)]
  have he : fld (w ^^^ 0x800000000000) 46 36 = fld w 46 36 := by rw [xor_sign, fld_setBit_disj _ _ (by decide)]
  have hf : fld (w ^^^ 0x800000000000) 35 0 = fld w 35 0 := by rw [xor_sign, fld_setBit_disj _ _ (by decide)]
  have hq : bit (w ^^^ 0x800000000000) 35 = bit w 35 := by rw [xor_sign, bit_setBit_ne _ _ (by decide)]
  unfold f48
  simp only [hs, he, hf, hq]
  split_ifs
  all_goals rfl

/-! ### Rounding of what needs none (R393) -/

/-- A value that is a multiple of the unit is rounded to itself. -/
theorem roundTo_exact (mode : RMode) (neg : Bool) (m j : Nat) {e q : Int} (h : q ≤ e + j) :
    roundTo mode neg (m * 2 ^ j) e false q = (m * 2 ^ (e + j - q).toNat, false) := by
  unfold roundTo
  split
  · next hq =>
    have hj : (e + j - q).toNat = j + (e - q).toNat := by omega
    simp [hj, Nat.shiftLeft_eq, pow_add, mul_assoc]
  · next hq =>
    obtain ⟨i, hi⟩ : ∃ i : Nat, j = (q - e).toNat + i := ⟨j - (q - e).toNat, by omega⟩
    have hk : (e + j - q).toNat = i := by omega
    have hm : m * 2 ^ j = m * 2 ^ i * 2 ^ (q - e).toNat := by rw [hi, pow_add]; ring
    have hmod : m * 2 ^ i * 2 ^ (q - e).toNat % 2 ^ (q - e).toNat = 0 := Nat.mul_mod_left ..
    have hdiv : (m * 2 ^ i * 2 ^ (q - e).toNat) >>> (q - e).toNat = m * 2 ^ i := by
      rw [Nat.shiftRight_eq_div_pow, Nat.mul_div_cancel _ (by positivity)]
    rw [hk, hm]
    simp only [hmod, hdiv]
    have hhalf : 0 < 2 ^ ((q - e).toNat - 1) := by positivity
    cases mode <;> simp [hhalf.ne]

theorem bitLen_mul_two_pow {m : Nat} (h : m ≠ 0) (j : Nat) : bitLen (m * 2 ^ j) = bitLen m + j := by
  have hmj : m * 2 ^ j ≠ 0 := by positivity
  have hlog : (m * 2 ^ j).log2 = m.log2 + j := by
    obtain ⟨hle, hlt⟩ := (Nat.log2_eq_iff h).mp rfl
    refine (Nat.log2_eq_iff hmj).mpr ⟨?_, ?_⟩
    · rw [pow_add]
      exact Nat.mul_le_mul_right _ hle
    · rw [show m.log2 + j + 1 = m.log2 + 1 + j by omega, pow_add]
      exact Nat.mul_lt_mul_of_pos_right hlt (by positivity)
  rw [bitLen, bitLen, if_neg h, if_neg hmj, hlog]
  omega

theorem lt_two_pow_bitLen (m : Nat) : m < 2 ^ bitLen m := by
  unfold bitLen
  split
  · next h => simp [h]
  · next h => exact ((Nat.log2_eq_iff h).mp rfl).2

theorem bitLen_le_of_lt {m n : Nat} (h : m < 2 ^ n) : bitLen m ≤ n := by
  unfold bitLen
  split
  · exact Nat.zero_le _
  · next hm => exact (Nat.log2_lt hm).mpr h

section
variable (mode : RMode) (s : Bool) {m : Nat} (j : Nat)

/-- A normal value in units 2^j times as small is stored as it is. -/
theorem f48Round_normal (hlo : 2 ^ 36 ≤ m) (hhi : m < 2 ^ 37) {e : Int} (hmin : -1058 ≤ e) (hmax : e ≤ 987) :
    f48Round mode s (m * 2 ^ j) (e - j) false = (setBit (setFld (wordOf (m - 2 ^ 36)) 46 36 (e + 1059).toNat) 47 s, 0) := by
  have hlen : bitLen m = 37 := by
    refine le_antisymm (bitLen_le_of_lt hhi) ?_
    by_contra hlt
    have hpow : 2 ^ bitLen m ≤ 2 ^ 36 := Nat.pow_le_pow_right (by decide) (by omega)
    exact absurd (lt_two_pow_bitLen m) (by omega)
  have hq : (bitLen (m * 2 ^ j) : Int) + (e - j) - 37 = e := by
    rw [bitLen_mul_two_pow (by omega), hlen]
    push_cast
    omega
  have hx : roundTo mode s (m * 2 ^ j) (e - j) false e = (m, false) := by
    rw [roundTo_exact mode s m j (by omega)]
    simp
  unfold f48Round
  simp only [hq, hx, if_neg hhi.ne]
  rw [if_neg (by omega), if_neg (by omega), show e + 36 + 1023 = e + 1059 by omega]
  rfl

/-- A denormal one likewise. -/
theorem f48Round_denormal (h0 : m ≠ 0) (hhi : m < 2 ^ 36) :
    f48Round mode s (m * 2 ^ j) (-1058 - j) false = (setBit (wordOf m) 47 s, 0) := by
  have hlen : bitLen m ≤ 36 := bitLen_le_of_lt hhi
  have hq : (bitLen (m * 2 ^ j) : Int) + (-1058 - j) - 37 = bitLen m - 1095 := by
    rw [bitLen_mul_two_pow h0]
    push_cast
    omega
  have hx : roundTo mode s (m * 2 ^ j) (-1058 - j) false (bitLen m - 1095) = (m * 2 ^ (37 - bitLen m), false) := by
    rw [roundTo_exact mode s m j (by omega)]
    congr 3
    omega
  have hy : roundTo mode s (m * 2 ^ j) (-1058 - j) false (-1058) = (m, false) := by
    rw [roundTo_exact mode s m j (by omega)]
    simp
  have hlt : m * 2 ^ (37 - bitLen m) ≠ 2 ^ 37 := by
    have hpow : 2 ^ bitLen m * 2 ^ (37 - bitLen m) = 2 ^ 37 := by rw [← pow_add, Nat.add_sub_cancel' (by omega)]
    rw [← hpow]
    exact (Nat.mul_lt_mul_of_pos_right (lt_two_pow_bitLen m) (by positivity)).ne
  unfold f48Round
  simp only [hq, hx, if_neg hlt, hy]
  rw [if_neg (by omega), if_pos (by omega)]
  rfl

end

/-- The numbers of the format by their exponent field. -/
theorem f48_cases {w : Word} (h : ¬ (f48 w).isNan) :
    fld w 46 36 = 0 ∧ f48 w = .fin (bit w 47) (fld w 35 0) (-1058) ∨
    (0 < fld w 46 36 ∧ fld w 46 36 < 2047) ∧ f48 w = .fin (bit w 47) (2 ^ 36 + fld w 35 0) ((fld w 46 36 : Int) - 1059) ∨
    (fld w 46 36 = 2047 ∧ fld w 35 0 = 0) ∧ f48 w = .inf (bit w 47) := by
  have he : fld w 46 36 < 2048 := fld_lt w 46 36
  by_cases h0 : fld w 46 36 = 0
  · exact .inl ⟨h0, by simp [f48, h0]⟩
  by_cases hfin : fld w 46 36 < 2047
  · exact .inr (.inl ⟨⟨Nat.pos_of_ne_zero h0, hfin⟩, by simp [f48, h0, hfin]⟩)
  by_cases hf : fld w 35 0 = 0
  · exact .inr (.inr ⟨⟨by omega, hf⟩, by simp [f48, h0, hfin, hf]⟩)
  · refine absurd ?_ h
    simp only [f48, if_neg h0, if_neg hfin, if_neg hf]
    split
    · exact .inl rfl
    · exact .inr rfl

/-- A product with 1.0, before rounding. -/
theorem fmul_one_fin (mode : RMode) (s : Bool) (m : Nat) (e : Int) :
    fmul mode (.fin s m e) (.fin false (2 ^ 36) (-36)) = f48Fin mode s (m * 2 ^ 36) (e - (36 : Nat)) := by
  simp [fmul, anySnan, anyNan, f48Product, sub_eq_add_neg]

theorem fmul_one_inf (mode : RMode) (s : Bool) : fmul mode (.inf s) (.fin false (2 ^ 36) (-36)) = (f48Inf s, 0) := by
  simp [fmul, anySnan, anyNan, f48Product]

/-- A number times 1.0 is the number. -/
theorem fmul_one (mode : RMode) {w : Word} (h : ¬ (f48 w).isNan) : fmul mode (f48 w) (f48 0x3FF000000000) = (w, 0) := by
  have hone : f48 0x3FF000000000 = .fin false (2 ^ 36) (-36) := by decide
  have hparts := f48_parts w
  have hf : fld w 35 0 < 2 ^ 36 := fld_lt w 35 0
  have hword : setFld (wordOf (fld w 35 0)) 46 36 0 = wordOf (fld w 35 0) := setFld_zero (by
    rw [fld, wordOf, BitVec.toNat_ofNat, Nat.mod_eq_of_lt (show _ < 2 ^ 48 by omega), Nat.shiftRight_eq_div_pow,
      Nat.div_eq_of_lt hf, Nat.zero_mod])
  rcases f48_cases h with ⟨he, hw⟩ | ⟨⟨hlo, hhi⟩, hw⟩ | ⟨⟨he, hf0⟩, hw⟩
  · rw [hw, hone, fmul_one_fin]
    rw [he, hword] at hparts
    by_cases hf0 : fld w 35 0 = 0
    · rw [hf0] at hparts ⊢
      simpa [f48Fin, f48Zero, wordOf] using hparts
    · rw [f48Fin, if_neg (by simp [hf0]), f48Round_denormal mode _ 36 hf0 hf, hparts]
  · rw [hw, hone, fmul_one_fin, f48Fin, if_neg (by simp), f48Round_normal mode _ 36 (by omega) (by omega) (by omega) (by omega)]
    rw [show 2 ^ 36 + fld w 35 0 - 2 ^ 36 = fld w 35 0 by omega,
      show ((fld w 46 36 : Int) - 1059 + 1059).toNat = fld w 46 36 by omega,
      hparts]
  · rw [he, hf0, show setFld (wordOf 0) 46 36 2047 = 0x7FF000000000 by decide] at hparts
    rw [hw, hone, fmul_one_inf, f48Inf, hparts]

/-- Settles O38: FMIN and FMAX by what their operands are, the operations by NaN operands first, and products with 1.0 by exact
rounding. -/
theorem floatRules : Obligations.FloatRules := by
  unfold Obligations.FloatRules
  refine ⟨?nanOne, ?nanBoth, fminmax_flags, ?less, ?infinite, ?zeros, ?nanArith, ?comm, ?sub, ?divide, ?one⟩
  case nanOne =>
    intro mx a b ha hq hs
    have hb : ¬ (f48 b).isNan := fun h => h.elim hq hs
    exact ⟨fminmax_nan_left mx ha hb, fminmax_nan_right mx hb ha⟩
  case nanBoth => exact fun mx a b ha hb => fminmax_nan_both mx ha hb
  case less =>
    intro a b s t m n e f ha hb hlt
    have hless := finUnits_lt hlt
    have hna : ¬ (f48 a).isNan := by simp [ha, F48.isNan]
    have hnb : ¬ (f48 b).isNan := by simp [hb, F48.isNan]
    have hab : (f48Key (f48 a) (f48 b)).1 < (f48Key (f48 a) (f48 b)).2 := by rwa [ha, hb, f48Key_fin]
    have hba : (f48Key (f48 b) (f48 a)).2 < (f48Key (f48 b) (f48 a)).1 := by rwa [ha, hb, f48Key_fin, min_comm f e]
    exact ⟨fminmax_of_less false hna hnb hab, fminmax_of_greater false hnb hna hba, fminmax_of_less true hna hnb hab,
      fminmax_of_greater true hnb hna hba⟩
  case infinite =>
    intro a s m e ha
    have hinf : ∀ t, f48 (f48Inf t) = .inf t := by decide
    have hna : ¬ (f48 a).isNan := by simp [ha, F48.isNan]
    have hni : ∀ t, ¬ (f48 (f48Inf t)).isNan := fun t => by simp [hinf, F48.isNan]
    have hbelow : (f48Key (f48 a) (f48 (f48Inf true))).2 < (f48Key (f48 a) (f48 (f48Inf true))).1 := by
      rw [ha, hinf]
      exact (by decide : (-1 : Int) < 0)
    have habove : (f48Key (f48 a) (f48 (f48Inf false))).1 < (f48Key (f48 a) (f48 (f48Inf false))).2 := by
      rw [ha, hinf]
      exact (by decide : (0 : Int) < 1)
    exact ⟨fminmax_of_greater false hna (hni _) hbelow, fminmax_of_greater true hna (hni _) hbelow,
      fminmax_of_less false hna (hni _) habove, fminmax_of_less true hna (hni _) habove⟩
  case zeros => decide
  case nanArith =>
    intro m a b h
    have hnan : a.isNan ∨ b.isNan := by simpa [F48.isNan, or_assoc] using h
    refine ⟨nan_first hnan, ?_, nan_first hnan, nan_first hnan⟩
    have hneg := nan_first (a := a) (b := b.neg) (g := f48Sum m a b.neg) (hnan.imp_right (neg_isNan_iff b).mpr)
    simp only [neg_eq_snan] at hneg
    exact hneg
  case comm => exact fun m a b => ⟨fadd_comm m a b, fmul_comm m a b⟩
  case sub => exact fun m a b => .inl (by rw [f48_xor_sign]; rfl)
  case divide =>
    intro m s t a e f
    simp [fdiv, fsqrt, anySnan, anyNan]
  case one =>
    exact fun m w hq hs => fmul_one m fun h => h.elim hq hs

end Sys2Proof
end
